-- ==== Sys2Proof/Word.lean ====
section
/-! DEFINITION. Words and bytes of the site (R3, R5): plain bit vectors, bit 0 least significant. -/

namespace Sys2Proof

/-- One byte of memory. -/
abbrev Byte := BitVec 8

/-- A control or status register, a descriptor word, a gauge (R6, R37, R52). -/
abbrev Word64 := BitVec 64

/-- A site address (R23). -/
abbrev Addr := BitVec 48

end Sys2Proof
end

