-- ==== Sys2Proof/Syntax.lean ====
section
/-! DEFINITION. The commands of the E2 site: one constructor of `Instr` per row of spec/opcode_table.json, with the
operands each row takes. What the environment alone decides (a sensor reading, a comparator that disagrees, whether a
signature verifies) is an operand of the command it belongs to; what the site computes is not. -/

namespace Sys2Proof

/-- Where a packet comes from: ring `r` (R198), slot `s` of basin `b`'s descriptor lists (R211), or the headgate (R392). -/
inductive Src where
  | ring (r : Nat)
  | list (b s : Nat)
  | headgate
  deriving DecidableEq, Repr

/-- The 64-byte command packet of R203, cut at its header fields; `params` is bytes 16 to 63, byte 16 lowest. -/
structure Packet where
  opcode : Byte
  flags : Byte
  /-- Byte 2: [7:4] RIGHT, [3] reserved, [2:0] CTX. -/
  rightCtx : Byte
  /-- Byte 3, reserved. -/
  rsv3 : Byte
  seq : BitVec 32
  /-- Bytes 8–9: [15:12] reserved, [11:0] GAUGE. -/
  gaugeW : BitVec 16
  inc : BitVec 16
  tag : BitVec 32
  params : BitVec 384
  deriving DecidableEq, Repr

/-- Who makes a window or register access (R361, R362, R434): interface 0–7 of a context, 8 the owner function; the
control core at a site address of its site-map window; the control core at one of its own 64-bit addresses (R28), as a load
or store, as an instruction fetch, or as an atomic (a load is load-reserved, a store store-conditional; R13); the headgate;
the management bus. -/
inductive Requester where
  | iface (n : Nat)
  | core
  | coreLocal
  | coreFetch
  | coreAtomic
  | headgate
  | mgt
  deriving DecidableEq, Repr

/-- The header of a headgate request frame (R392) with the CRC the frame carried. TYPE is the command's own. -/
structure HgHdr where
  fseq : Byte
  len : BitVec 16
  zero : BitVec 32
  crc : BitVec 32
  deriving DecidableEq, Repr

/-- The kinds of unit the fault history knows (R287, UNIT_KIND). -/
inductive UnitKind where
  | bank | mxe | vxe | screen | flume | descLine | gaugeLine | siphon | culvert | register | site
  deriving DecidableEq, Repr

/-- What a burst does at its banks (R158, R167). -/
inductive BurstKind where
  | read | write | reduce
  deriving DecidableEq, Repr

/-- Whose request a burst is (R161, R175): a flight's, for words of the tile it reads or writes; the fetch of a list or
ring; a window access. -/
inductive BurstSrc where
  | flight (f : Nat)
  | fetch (src : Src)
  | window
  deriving DecidableEq, Repr

/-- Whose request for a stack block it is (R302): a flight's, for its records, or a window access. -/
inductive SphSrc where
  | flight (f : Nat)
  | window
  deriving DecidableEq, Repr

/-- What a block write brings (R299): its bytes, and whether the read of a block written in part fails its MAC, the first time and
again. -/
structure BlockData where
  bytes : List Byte
  fail1 : Bool
  fail2 : Bool
  deriving DecidableEq, Repr

/-- What the scrubber reads in a cycle (R249). -/
inductive ScrubTarget where
  | bank (k : Nat)
  | desc (d : Nat)
  | line (j : Nat)
  deriving DecidableEq, Repr

/-- An SPDM request as the responder meets it (R379–R382): the ring that sent it, the session it is secured in (0 = a
plain message), whether the secured message authenticates, the SPDM version and the two parameter bytes of the header, the
certificate slot a signed `GET_MEASUREMENTS` names, and whether the entropy source passes its health test (R359). -/
structure SpdmReq where
  ring : Nat
  session : BitVec 32
  tagOk : Bool
  param1 : Byte
  param2 : Byte
  version : Byte
  slot : Byte
  entropyOk : Bool
  deriving DecidableEq, Repr

/-- The 32-byte header of a culvert message (R416). -/
structure CulMsg where
  typ : Byte
  flags : Byte
  srcSite : BitVec 16
  destSite : BitVec 16
  destBasin : Byte
  rightSlot : Byte
  jobId : BitVec 32
  counter : BitVec 64
  dstDesc : BitVec 16
  gauge : BitVec 16
  inc : BitVec 16
  recUnits : BitVec 16
  xtag : BitVec 32
  deriving DecidableEq, Repr

/-- What a start step brings (R338–R347): what the step's environment decides. A step ignores the parts that are
not its own. -/
structure StepResult where
  /-- Which boot slots verify under R357 at step 4: bit 0 slot A, bit 1 slot B, bit 2 the staged copy. -/
  imagesOk : BitVec 3
  /-- KAT_FAILED of R350. -/
  katFailed : Byte
  ramFailed : Bool
  cisternFailed : Bool
  /-- Basins whose sequencing parts or lines fail (R343): bit b. -/
  basinFailed : BitVec 64
  /-- Siphons whose training fails. -/
  siphonFailed : BitVec 32
  /-- Lanes that siphon training repairs (R342): siphon, lane. -/
  lanes : List (Nat × Nat)
  /-- Culverts that fail their own test. -/
  culvertFailed : BitVec 4
  /-- Newly failing MXEs, VXEs, screens and flumes, as (basin, unit). -/
  mxes : List (Nat × Nat)
  vxes : List (Nat × Nat)
  screens : List (Nat × Nat)
  flumes : List (Nat × Nat)
  /-- Newly failing bank rows (basin, physical bank, row) and whole banks (basin, physical bank). -/
  rows : List (Nat × Nat × Nat)
  banks : List (Nat × Nat)
  /-- The calibration rounds of step 6 (R347): siphon, lanes below the minimum margin, narrowest window. -/
  rounds : List (Nat × List Nat × Nat)
  /-- Canary rows that read wrong in step 6. -/
  canaryErrors : Nat
  /-- Length of the step in milliseconds. -/
  ms : Nat
  deriving DecidableEq, Repr

/-- What the power manager's sensors give at a sample (R332): total and static power in 0.125 W units, the hottest
junction and the hottest stack in °C. -/
structure PowerReading where
  total : Nat
  static : Nat
  dieMax : Nat
  stackMax : Nat
  deriving DecidableEq, Repr

/-- What a TRICKLE sample measures (R329). -/
structure TrickleReading where
  dieMax : Nat
  stackMax : Nat
  /-- Largest deviation of any supply from its granted level, in tenths of a per cent. -/
  supplyDev : Nat
  refreshFault : Bool
  deriving DecidableEq, Repr

/-- The wake events of R322. -/
inductive WakeEvent where
  | ringWrite | windowAccess | culvert | mgtWake | headgateFrame | threshold
  deriving DecidableEq, Repr

/-- What an upset does to the MXE that computes a block (R101–R105): accumulator words (row-major) that hold other bits,
check registers that are off by m × 2^e — number m for the check column of row m, 64 + n for the check row of column n,
128 for the corner. -/
structure Upset where
  accs : List (Nat × BitVec 32)
  regs : List (Nat × Int × Int)
  deriving DecidableEq, Repr

/-- No upset. -/
def Upset.none : Upset := ⟨[], []⟩

/-- The commands, in the table's order. -/
inductive Instr where
  -- Stream packets (R206): the packet as its source's ditch rider fetches it.
  | nop (src : Src) (pkt : Packet)
  | fence (src : Src) (pkt : Packet)
  | waitGauge (src : Src) (pkt : Packet)
  | setGauge (src : Src) (pkt : Packet)
  | addGauge (src : Src) (pkt : Packet)
  | runList (src : Src) (pkt : Packet)
  | ret (src : Src) (pkt : Packet)
  | move (src : Src) (pkt : Packet)
  | load (src : Src) (pkt : Packet)
  | store (src : Src) (pkt : Packet)
  | send (src : Src) (pkt : Packet)
  | fill (src : Src) (pkt : Packet)
  | matmul (src : Src) (pkt : Packet)
  | matmulAcc (src : Src) (pkt : Packet)
  | vector (src : Src) (pkt : Packet)
  | topk (src : Src) (pkt : Packet)
  | reduceWrite (src : Src) (pkt : Packet)
  | compact (src : Src) (pkt : Packet)
  | expand (src : Src) (pkt : Packet)
  | gatherRows (src : Src) (pkt : Packet)
  | zeroMap (src : Src) (pkt : Packet)
  | convert (src : Src) (pkt : Packet)
  | tileLock (src : Src) (pkt : Packet)
  | tileUnlock (src : Src) (pkt : Packet)
  -- Control and security packets (R206, R219). The Bool operands are verdicts of the key engine.
  | query (src : Src) (pkt : Packet)
  | statsRead (src : Src) (pkt : Packet)
  | ctxCreate (src : Src) (pkt : Packet) (entropyOk : Bool)
  | ctxSwitch (src : Src) (pkt : Packet)
  | ctxDestroy (src : Src) (pkt : Packet)
  | rightAdmit (src : Src) (pkt : Packet)
  | rightRelease (src : Src) (pkt : Packet)
  /-- `keyOk` and `tagsOk`: the wrapped package key and every chunk tag authenticate; `body` is the decrypted body
  (R374, R375). -/
  | modelLoad (src : Src) (pkt : Packet) (keyOk tagsOk : Bool) (body : List Byte)
  /-- For an entry (ACTION 0), step 1 of R323; later steps are DRAIN_TIMEOUT, ENTRY_COMMIT and ENTRY_ABORT. -/
  | powerState (src : Src) (pkt : Packet)
  | testSchedule (src : Src) (pkt : Packet)
  | faultLogRead (src : Src) (pkt : Packet)
  | detachPrepare (src : Src) (pkt : Packet)
  | attachComplete (src : Src) (pkt : Packet)
  | configSet (src : Src) (pkt : Packet)
  | spdmMessage (src : Src) (pkt : Packet) (tagOk : Bool)
  | keyInstall (src : Src) (pkt : Packet) (tagOk : Bool)
  | ownerLock (src : Src) (pkt : Packet)
  | weightKeyBind (src : Src) (pkt : Packet) (tagOk : Bool)
  -- Service packets over the headgate (R392, R395): frame header, packet, data; then the verdicts of the verifier.
  /-- `keyOk`: SHA-384 of EC_PUBKEY matches its fuse and HDR_SIG verifies (R398, order 7). -/
  | imgBegin (h : HgHdr) (pkt : Packet) (data : List Byte) (keyOk : Bool)
  | imgData (h : HgHdr) (pkt : Packet) (data : List Byte)
  /-- `verified`: the digest, key digest and both signatures of R400 verify. -/
  | imgEnd (h : HgHdr) (pkt : Packet) (data : List Byte) (verified : Bool)
  | imgAbort (h : HgHdr) (pkt : Packet) (data : List Byte)
  /-- `digestOk`: the body copied into the standby half has BODY_DIGEST (R403, step 1); `windowUs` is the length of
  the handover window in microseconds. -/
  | imgActivate (h : HgHdr) (pkt : Packet) (data : List Byte) (digestOk : Bool) (windowUs : Nat)
  | imgStatus (h : HgHdr) (pkt : Packet) (data : List Byte)
  | nonce (h : HgHdr) (pkt : Packet) (data : List Byte)
  /-- `sigOk`: key digests and both signatures of the token verify (R408). -/
  | token (h : HgHdr) (pkt : Packet) (data : List Byte) (sigOk : Bool)
  | retest (h : HgHdr) (pkt : Packet) (data : List Byte)
  /-- `imageOk`: the image of the boot record verifies (R385). -/
  | partialReset (h : HgHdr) (pkt : Packet) (data : List Byte) (imageOk : Bool)
  -- Headgate debug and fetch frames (R392, R394).
  | hgDebugRead (h : HgHdr) (payload : List Byte)
  | hgDebugWrite (h : HgHdr) (payload : List Byte)
  | hgFetch (h : HgHdr)
  -- Management bus (R422–R426).
  | mgtRead (addr : Addr)
  | mgtWrite (addr : Addr) (data : Word64)
  | mgtState (arg : Byte)
  | mgtNonce
  /-- `hmac`: the HMAC the controller sent. -/
  | mgtRole (hmac : BitVec 384)
  | alertAck (mask : Byte)
  /-- `won`: this target wins the arbitration round. -/
  | entdaa (won : Bool) (addr : BitVec 7)
  | setdasa (static addr : BitVec 7)
  | setnewda (addr : BitVec 7)
  | rstdaa
  | enec (events : Byte)
  | disec (events : Byte)
  | getpid
  | getbcr
  | getdcr
  | getstatus
  | getmwl
  | getmrl
  | setmwl (len : BitVec 16)
  | setmrl (len : BitVec 16)
  | unsupportedCcc (code : Byte)
  | mgtBusReset
  | mgtAddressMatchWake (addr : BitVec 7)
  -- SPDM and TDISP requests at the responder (R380–R386).
  | getVersion (r : SpdmReq)
  | getCapabilities (r : SpdmReq)
  /-- `supported`: the requester offers the algorithm set of R380. -/
  | negotiateAlgorithms (r : SpdmReq) (supported : Bool)
  | getDigests (r : SpdmReq)
  | getCertificate (r : SpdmReq)
  | challenge (r : SpdmReq)
  | getMeasurements (r : SpdmReq)
  | keyExchange (r : SpdmReq) (entropyOk : Bool)
  /-- `verified`: the requester's verify data is right. -/
  | finish (r : SpdmReq) (verified : Bool)
  | endSession (r : SpdmReq)
  | respondIfReady (r : SpdmReq)
  | spdmUnsupportedRequest (r : SpdmReq) (code : Byte)
  | getTdispVersion (r : SpdmReq) (iface : Nat)
  | getTdispCapabilities (r : SpdmReq) (iface : Nat)
  /-- `noFwUpdate`: the NO_FW_UPDATE flag of the lock request (R387). -/
  | lockInterfaceRequest (r : SpdmReq) (iface : Nat) (noFwUpdate : Bool)
  | getDeviceInterfaceReport (r : SpdmReq) (iface : Nat)
  | getDeviceInterfaceState (r : SpdmReq) (iface : Nat)
  | startInterfaceRequest (r : SpdmReq) (iface : Nat)
  | stopInterfaceRequest (r : SpdmReq) (iface : Nat)
  | tdispUnsupportedRequest (r : SpdmReq) (iface : Nat) (code : Byte)
  -- Rings, lists and windows.
  | doorbellWrite (who : Requester) (ring : Nat) (tail : BitVec 32)
  | rheadWrite (who : Requester) (ring : Nat) (rhead : BitVec 32)
  | ringFetch (ring : Nat)
  | listFetch (b slot : Nat)
  | packetDispatch (src : Src)
  | acceptedReply
  | replyWrite (ring : Nat)
  /-- A site address, or for the control core at its own addresses one of 64 bits (R28). -/
  | windowLoad (who : Requester) (addr : Word64) (size : Nat)
  | windowStore (who : Requester) (addr : Word64) (size : Nat) (data : Word64)
  | descriptorDefine (who : Requester) (b d word : Nat) (data : Word64)
  | gaugeWindowWrite (who : Requester) (b g : Nat) (data : Word64)
  | registerWrite (who : Requester) (addr : Addr) (size : Nat) (data : Word64)
  /-- `fenceI`: the core executes `FENCE.I` after the write. -/
  | ctlRemapWrite (who : Requester) (machineMode : Bool) (data : Word64) (fenceI : Bool)
  | trnLatStRead (who : Requester) (b r : Nat)
  | streamCfgWrite (who : Requester) (b e : Nat) (data : Word64)
  | arbCfgWrite (who : Requester) (b : Nat) (data : Word64)
  | regCfgWrite (who : Requester) (addr : Addr) (data : Word64)
  | flipArm (who : Requester) (b : Nat) (data : Word64)
  | remapInstall (who : Requester) (b k e : Nat) (data : Word64)
  | remapCopy (b k e : Nat)
  | spareBankStart (who : Requester) (b : Nat) (data : Word64)
  | spareCopierRead (b s : Nat)
  | spareBankActive (b s : Nat)
  | scrubCfgWrite (who : Requester) (b : Nat) (data : Word64)
  | keeperModeWrite (who : Requester) (data : Word64)
  | vreqGrantWrite (who : Requester) (data : Word64)
  | capWrite (who : Requester) (data : Word64)
  | fullResWrite (who : Requester) (data : Word64)
  | regionTableWrite (who : Requester) (n : Nat) (half : Bool) (data : Word64)
  | leveeWrite (who : Requester) (b n : Nat) (half : Bool) (data : Word64)
  -- Banks and arbiters (R156–R174, R249).
  /-- A burst of `n` words from `word` on that `who` has ready for its check. -/
  | burstArrival (b : Nat) (who : BurstSrc) (kind : BurstKind) (word n : Nat)
  | checkDecision (b c : Nat)
  | parkOnScrubber (b k : Nat)
  | scrubRead (b : Nat) (what : ScrubTarget)
  -- Tiles in flight. `f` names the flight, that is the packet's request at its gate.
  | holdRetry (f : Nat)
  | returnedRequestReissue (f : Nat)
  /-- The last word of flight `f`'s write lands; `wrong`: bytes of a copied payload that came out otherwise. -/
  | tileClose (f : Nat) (wrong : List (Nat × Byte))
  | gaugeIncrement (b g : Nat)
  | shadowRestore (b : Nat)
  /-- The comparison of flight `f`'s block of `lane`, or of a repeat of it, by an MXE that met `up`. -/
  | mxeRepeat (f lane : Nat) (up : Upset)
  /-- The shadow lane disagreed with lane `vlane` over the tile flight `f`'s VXE, or its repeat's, holds. -/
  | vxeRepeat (f vlane : Nat)
  /-- The two datapaths disagreed over the tile flight `f`'s screen, or its repeat's, holds. -/
  | screenRepeat (f : Nat)
  -- Faults and degraded operation (R263–R282).
  | faultEvent
  | spareSubstitution (b furrow slot : Nat)
  | basinRetireComplete (b : Nat)
  | basinRetireImmediate (b : Nat) (fillOk : Bool)
  | infieldTestDue (kind : UnitKind) (b u : Nat)
  | infieldTestStart (kind : UnitKind) (b u : Nat)
  | infieldTestEnd (kind : UnitKind) (b u : Nat) (pass : Bool) (us : Nat)
  | testForced (b u : Nat)
  | regulatorIntervalEnd (b : Nat)
  | lockLeaseScan (b : Nat)
  | waitAudit
  /-- The upset the checker meets: bits `flips` of copy `copy` of the register at `addr` (R258). -/
  | hardenCheck (addr : Addr) (copy : Nat) (flips : Word64)
  | serviceTimePersist
  -- Siphons (R290–R310).
  /-- A request enters; then one request is granted, unless one has been in this cycle. `write`: whether it writes. -/
  | siphonRequest (s : Nat) (who : SphSrc) (block : Nat) (write : Bool)
  /-- `fail1`, `fail2`: the first and the second read fail their MAC, both when the stored block is damaged. `mapLost`: the
  bitmap word of the block's page has become uncorrectable. -/
  | siphonBlockRead (s block : Nat) (fail1 fail2 mapLost : Bool)
  | siphonBlockWrite (s block offset : Nat) (data : BlockData)
  | combinerFlush (s page : Nat)
  /-- `fail1`, `fail2`: as of `siphonBlockRead`, of the block patrolled. -/
  | refreshSlot (s : Nat) (temp : Nat) (onDieCorrection fail1 fail2 : Bool)
  /-- `weak`: the lanes whose passing window is below the minimum margin; `margin`: the narrowest window. -/
  | linkCalibration (s : Nat) (weak : List Nat) (margin : Nat)
  | siphonOutOfService (s : Nat)
  -- Culverts and the fence (R351, R352, R378, R413–R420).
  /-- `rec`: the decrypted record, in E1 mode 65 bytes to a line (R261, R418); `tagOk`: the GCM tag verifies (R378). -/
  | culvertArrival (c : Nat) (m : CulMsg) (rec : List Byte) (tagOk : Bool)
  | culvertResponse (c : Nat) (xtag : BitVec 32) (status : Byte)
  | flitReplay (c : Nat)
  | culvertLaneFail (c : Nat) (outbound : Bool)
  | culvertTrained (c : Nat) (ok : Bool)
  | fenceReqAssert
  | fenceReqDeassert
  | fenceComplete
  | fenceTimeout
  -- Start, clocks, supplies (R311–R350).
  | powerGoodRise
  | powerGoodFall
  | devResetAssert
  | devResetDeassert
  | startStep (r : StepResult)
  | release (ms : Nat)
  | startStepTimeout
  | clockLoss
  | clockRestart
  | keeperBrownOut
  | keeperReady
  | thermalTrip
  | thermalTripRelease
  | powerSample (r : PowerReading)
  /-- `predicted`: the predicted power at the next lower divider, in watts (R332). -/
  | powerMsUpdate (predicted : Nat)
  | supplySettled
  | vreqTimeout
  | canaryCheck (errors : Nat)
  | marginStep
  /-- `code`: the refuser's code (R337). -/
  | drainTimeout (code : Nat)
  | entryCommit
  | entryAbort (w : WakeEvent)
  | sleepWake (w : WakeEvent)
  | trickleSample (r : TrickleReading)
  | controlWatchdog (imageOk : Bool)
  | handoverPointTimeout
  | handoverWatchdog (imageOk : Bool)
  /-- `verified`: the copied image verifies. -/
  | bootSlotCopyDone (verified : Bool)
  -- Test access (R431).
  | jtagIdcode
  | jtagBypass (tdi : Bool)
  | jtagSamplePreload (bits : List Bool)
  | jtagExtest (bits : List Bool)
  | jtagIeee1687Access (write : Bool) (bits : List Bool)
  | tapReset
  -- The last rows of the table.
  | tileReadEnd (f : Nat)
  | culvertCreditReceived (c flits : Nat)
  | siphonLinkReplay (s : Nat)
  | supplyOutOfTolerance (out : Bool)
  deriving DecidableEq, Repr

end Sys2Proof
end

