-- ==== Sys2Proof/Decode.lean ====
section
/-! DEFINITION. The command a table word spells. The command table gives no row any bits: a command is named by its row,
and the 64-byte packets of R203 are operands, not table words. -/

namespace Sys2Proof

/-- No row of the command table has bits, so no word spells a command. -/
def decodeTableWord (_nbits _w : Nat) : Option Instr := none

end Sys2Proof
end

