-- ==== Sys2Proof/Config.lean ====
section
/-! DEFINITION. Free values: what the spec leaves open, as constants without a body. Nothing can evaluate one, so a
theorem about the machine holds whatever they are. A function of a counter gives a fresh value at each use; a function
of operands gives the same value for the same operands (R126). -/

namespace Sys2Proof.Config

/-- Results of the approximated functions of R126 before output conversion, as FP32 bits: function number, operand. -/
opaque approx : Nat → BitVec 32 → BitVec 32

/-- The FP32 result of an approximated row function for one element (R126): function number, the row's FP32 operands
and scalars, the element's index. -/
opaque approxRow : Nat → List (BitVec 32) → Nat → BitVec 32

/-- Fresh random values of the entropy source (R359, R395). -/
opaque random128 : Nat → BitVec 128

/-- HMAC-SHA-384 of a nonce and a serial number under the owner credential of the cistern (R425). -/
opaque ownerHmac : BitVec 128 → BitVec 64 → BitVec 384

/-- Bytes of an SPDM response beyond its two leading bytes, whose layout the DMTF standards and not the spec give:
a fresh value at each response, byte index. -/
opaque spdmByte : Nat → Nat → BitVec 8

/-- The length of an SPDM response, which the DMTF standards and not the spec give. -/
opaque spdmLen : Nat → Nat

/-- A secured message decrypted (R379): session, message as received, byte index. -/
opaque spdmPlain : Nat → List (BitVec 8) → Nat → BitVec 8

/-- Fields of an SPDM or TDISP request whose place the DMTF and PCI-SIG standards and not the spec give: purpose, the
message's bytes. -/
opaque spdmField : Nat → List (BitVec 8) → Nat

/-- The fused serial number (R437). -/
opaque serial : BitVec 64

/-- SRAM_FLOOR in 5 mV units (R335), before the bound of R335 is applied. -/
opaque sramFloor : Nat

/-- Fused minimum VDD_CORE in 5 mV units for a FLOW_DIV (R316). -/
opaque coreMin : Nat → Nat

/-- The bits of an I3C register that neither the spec nor its subset states (GETPID, GETBCR, GETDCR, GETSTATUS). -/
opaque i3c : Nat → BitVec 64

/-- A bit of a boundary scan, whose order among the sideband pins the spec does not give (R431): use counter, position. -/
opaque pin : Nat → Nat → Bool

/-- A value the spec leaves open for one use: purpose, use counter. -/
opaque free : Nat → Nat → BitVec 64

end Sys2Proof.Config
end

