-- ==== Sys2Proof/Machine/State.lean ====
section
/-! DEFINITION. The state of one E2 site as plain data: design-time parameters, every control and status register under
its own name, bank, descriptor and gauge storage, stack memory, and the sequencers, queues and records the spec gives
the block. Sparse parts are association lists; what an unlisted key reads as is stated at each. -/

namespace Sys2Proof.Machine

/-- The design-time parameters of R18, and the SITE_ADDR fuse (R422). -/
structure SiteConfig where
  basins : Nat
  checks : Nat
  /-- 6, 7 or 8 for 64, 128 or 256 KiB. -/
  bankKibLog2 : Nat
  activeMxe : Nat
  spareMxe : Nat
  siphons : Nat
  /-- Static address on the management bus. -/
  siteAddr : BitVec 7
  deriving DecidableEq, Repr

/-- The standard configuration (R1, R18), at the default address (R422). -/
def SiteConfig.standard : SiteConfig := ⟨64, 16, 7, 160, 8, 32, 0x30⟩

/-- Every control and status register of the register map (R432–R444), by name and instance. -/
inductive Reg where
  | devId | devSerial | devConfig0 | devConfig1 | devBasinLive | devStartSt | devStartRes | devMgtAlert
  | ringCmd (r : Nat) | ringRpl (r : Nat) | ringDb (r : Nat) | ringHead (r : Nat)
  | ringRtail (r : Nat) | ringRhead (r : Nat) | ringSt (r : Nat) | ringPwr (r : Nat)
  | pwrSt | pwrCfg | pwrEntrySt | pwrRefuser | pwrKeeper | pwrVreq | pwrPerf | pwrCap | pwrPower | pwrTherm
  | pwrTrickle | pwrMargin | pwrBasinSt (b : Nat) | clkSt | clkRootCnt | clkEventSeq
  | secSt | secObsCfg | secViolCnt | secViolLog | secCtxSt (c : Nat)
  | ctlRemap | cstFwSt | cstHgSt
  | errDecodeAddr | errDecodeSrc | errDecodeCnt | errHardenSt
  | culSt (c : Nat) | culCfg (c : Nat) | culE1St (c : Nat)
  | sphSt (s : Nat) | sphCfg (s : Nat) | sphRdCnt (s : Nat) | sphWrCnt (s : Nat) | sphIntSt (s : Nat)
  | sphPatrol (s : Nat) | sphLinkSt (s : Nat) | sphQst (s : Nat) | sphRgnA (n : Nat) | sphRgnB (n : Nat)
  | bsnBankCfg (b : Nat) | bsnTileCfg (b : Nat) | bsnTileSt (b : Nat) | bsnFmtSt (b : Nat) | bsnArbCfg (b : Nat)
  | bsnArbSt (b : Nat) | bsnEccSt (b : Nat) | bsnEccLog (b : Nat) | bsnScrubCfg (b : Nat) | bsnScrubLap (b : Nat)
  | bsnScrubSt (b : Nat) | bsnChkSt (b : Nat) | bsnSpareMap (b : Nat) | bsnFlipCfg (b : Nat) | bsnFlipChk (b : Nat)
  | bsnFlipData (b i : Nat) | bsnBankCorr (b k : Nat) | bsnRemap (b k e : Nat)
  | bsnLeveeA (b n : Nat) | bsnLeveeB (b n : Nat)
  | trnQosMap (b : Nat) | trnRegCfg (b : Nat) | trnArbSt (b t : Nat) | trnOtCfg (b t : Nat) | trnOtCur (b t : Nat)
  | trnLatCfg (b r : Nat) | trnLatSt (b r : Nat) | trnStreamCfg (b e : Nat) | trnStreamSt (b e : Nat)
  | mxeSt (b u : Nat) | mxeCnt (b u : Nat) | mxeSkip (b u : Nat) | mxePred (b u : Nat) | mxePredMap (b u : Nat)
  | vxeSt (b v : Nat) | vxeCnt (b v : Nat) | sxeSt (b x : Nat) | sxeCnt (b x : Nat) | flmSt (b f : Nat)
  | flmCnt (b f : Nat)
  deriving DecidableEq, Repr

/-- Status codes (R228). -/
inductive Status where
  | ok | okAlert | accepted | badOpcode | badParam | size | noSpace | extentOverflow | formatViolation | indexRange
  | accessDenied | oversubscribed | refusedState | notReady | busy | checkFail | tileBroken | contextFaulted | internal
  deriving DecidableEq, Repr

/-- A hardware update of a register in the present cycle, kept so that a software write of the same cycle is applied
before it (R7, R435). -/
inductive HwUpdate where
  /-- A counter field at bit `lo` of `width` bits counted `n`. -/
  | bump (r : Reg) (lo width n : Nat)
  /-- Bits set in a W1C register. -/
  | setBits (r : Reg) (mask : Word64)
  /-- RANGE of a stream entry before the cycle's closes, and the largest MAX_MAG among them (R111). -/
  | stream (b e base mag : Nat)
  deriving DecidableEq, Repr

/-! ### Tiles in flight -/

/-- The elements of a decoded tile as codes: element type (R58), shape, one code per element in row-major order, one
scale byte per 32-element block, and for S4 the kept outliers of each block as (position, 8-bit code) (R70, R74). -/
structure DTile where
  elem : Nat
  s4 : Bool
  rows : Nat
  cols : Nat
  codes : List Nat
  scales : List Nat
  outs : List (List (Nat × Nat))
  deriving DecidableEq, Repr

/-- An operand tile an engine holds: its role and index in the packet, the decoded tile, the payload bytes as stored,
the descriptor as it stood at the grant, and positions that hold a stored value (R96). -/
structure Buf where
  role : Nat
  idx : Nat
  tile : DTile
  payload : List Byte
  desc : BitVec 512
  steered : List Nat
  deriving DecidableEq, Repr

/-- An output tile made in an engine's buffer, before its gate is asked (R44, R122): the payload with its fallback
(R78), the check carried from the source or none where the gate computes it (R76), what the close will record. -/
structure Made where
  tile : DTile
  bytes : List Byte
  raw : Bool
  clip : Nat
  maxMag : Nat
  carried : Option Word64
  /-- FORMAT and NM_PAIR written by convert-on-violation (R80). -/
  newFormat : Option (Nat × Nat)
  /-- Values dropped by prune, and whether an N:M violation was met (R80). -/
  dropped : Nat
  violation : Bool
  /-- ZERO_MAP and ZMAP_VALID carried by a copy (R73); none where an encoder computes them. -/
  zmap : Option (Word64 × Bool)
  /-- The write will close broken whatever its check (R146). -/
  broken : Bool
  deriving DecidableEq, Repr

/-- One step of a packet's plan. `lane` is 0 for every packet but a matrix packet. -/
inductive PStep where
  /-- Read and verify tile `d` of basin `b` as operand `idx` of `role`. -/
  | read (b d role idx lane : Nat)
  /-- Write output `idx` of `role` into tile `d` of basin `b`. -/
  | write (b d role idx lane : Nat)
  /-- Read the stack record `i`, for a `LOAD`. -/
  | record (i : Nat)
  /-- Hand record `i` to the siphons, for a `STORE`. -/
  | stack (i : Nat)
  /-- Hand record `i` to a culvert, for a `SEND`. -/
  | send (i : Nat)
  /-- Write back ZERO_MAP and MAX_MAG of tile `i`, for a `ZERO_MAP`. -/
  | zmap (b d i : Nat)
  /-- Compute from the operands what is left of the plan. -/
  | plan
  /-- A repeat of lane `lane`'s output begins on its unit (R264). -/
  | again (lane : Nat)
  deriving DecidableEq, Repr

/-- An accumulator word of an MXE (R88–R90): its 32 bits, two's complement or FP32, and the overflow mark with its sign. -/
structure AccWord where
  bits : BitVec 32
  mark : Option Bool
  deriving DecidableEq, Repr

/-- A mismatch being classified (R264–R267): the lane (0 off a matrix packet), the comparisons that failed as (unit, cell
or lane), the failing unit first, the unit that repeats now and the STATE it had, whether the site has no other unit in
service, whether a spare ran a repeat, the GENERATIONs the failed computation read, and its failing rows and columns. -/
structure Repeat where
  lane : Nat
  fails : List (Nat × Nat)
  now : Option (Nat × Nat)
  same : Bool
  spare : Bool
  gens : List (Nat × BitVec 32)
  rows : Nat
  cols : Nat
  deriving DecidableEq, Repr

/-- Where a flight stands. -/
inductive Phase where
  | run
  /-- The output at the plan's head is made and its engine compares it (R102, R103, R105, R133, R142). -/
  | comparing
  /-- A repeat waits for a unit (R264, R265). -/
  | awaitUnit
  /-- A granted write waits for its flume turnout's write path (R143). -/
  | awaitPath (b d : Nat)
  | reading (b d : Nat)
  | writing (b d : Nat)
  | heldRead (b d : Nat)
  | heldWrite (b d : Nat)
  /-- A failed read that waits for a shadow restore of its tile (R245, step 2). -/
  | restoring (b d : Nat)
  /-- Waiting for a siphon: for older requests to a record's blocks, or for a combiner slot (R297, R301, R308). -/
  | awaitStack
  /-- Waiting for culvert responses (R147). -/
  | responses
  deriving DecidableEq, Repr

/-- What a write will set at its close (R45), and whether it will close broken (R77, R151). -/
structure PendingClose where
  payloadLen : Nat
  check : Word64
  zmap : Word64
  zmapValid : Bool
  raw : Bool
  maxMag : Nat
  clip : Nat
  /-- FORMAT and NM_PAIR written by convert-on-violation (R80). -/
  newFormat : Option (Nat × Nat)
  broken : Bool
  gauge : Nat
  gaugeBasin : Nat
  inc : Nat
  escalation : Bool
  deriving DecidableEq, Repr

/-- The engine unit a packet holds: kind, basin, unit. -/
structure UnitRef where
  kind : UnitKind
  basin : Nat
  unit : Nat
  deriving DecidableEq, Repr

/-- Who acts at a gate, in the LOCK_OWNER encoding of R37: kind 1 list, 2 ring, 3 Rosog, and for a list the spawn of
its slot (R50). -/
structure Caller where
  owner : BitVec 16
  spawn : Nat
  deriving DecidableEq, Repr

/-- A dispatched packet, or a remote arrival or restore, that has requests to make at sluice gates. -/
structure Flight where
  id : Nat
  src : Src
  caller : Caller
  pkt : Packet
  /-- The packet's offset in its list. -/
  off : Nat
  basin : Nat
  ctx : Nat
  right : Nat
  units : List UnitRef
  plan : List PStep
  phase : Phase
  /-- Attempts made at the present held request (R47), whether it waits on a close, whether it holds a hold slot, and
  its place in the order of first holds. -/
  attempts : Nat
  waitClose : Bool
  inSlot : Bool
  heldNo : Nat
  bufs : List Buf
  /-- The output tile that waits for its gate. -/
  made : Option Made
  pend : Option PendingClose
  /-- Words of the tile in hand that bursts have been sent for, those read so far with whether each was uncorrectable, and
  those written so far. -/
  asked : List Nat
  got : List (Nat × List Byte × Bool)
  landed : List Nat
  /-- Re-reads made at the present read (R245): 0, 1, or 2 after a restore. -/
  retries : Nat
  genAt : List (Nat × BitVec 32)
  /-- Lanes that ended early and their status (R115); lane 0 for other packets (R122). -/
  dead : List (Nat × Status)
  failIdx : Nat
  alerts : Byte
  words : List Nat
  /-- The packet has met an N:M violation (R80). -/
  nm : Bool
  startCycle : Nat
  closed : Nat
  granules : Nat
  skipped : Nat
  mispredicted : Nat
  sats : Nat
  clips : Nat
  raws : Nat
  fmtAlerts : Nat
  /-- Lanes with an alignment event, lanes escalated, repeats run. -/
  aligned : List Nat
  escalated : List Nat
  repeats : Nat
  /-- Floors of the precision drop (R109), 0 = none: of the A chain, and of each lane's B chain. -/
  dropA : Nat
  dropB : List (Nat × Nat)
  /-- Accumulators of the lanes whose blocks have passed their comparison (R90, R104, R108). -/
  accs : List (Nat × List AccWord)
  /-- Lanes whose blocks, or 0 for the tile of another engine, have passed their comparison. -/
  passed : List Nat
  /-- Output tiles (lane × 4 + tile) encoded two-pass, as found when their block's readout started (R110). -/
  twoPass : List Nat
  /-- Mismatches being classified. -/
  rep : List Repeat
  /-- Tiles left open while the blocks that a readout difference was found in are repeated (R105). -/
  opened : List (Nat × Nat)
  /-- An index beyond its operand has been found in the tile being read (R81). -/
  indexed : Bool
  /-- Which key of its slot a `SEND` runs under (R377). -/
  keyGen : Nat
  /-- Place in the order of the requests that wait for a write path (R143). -/
  pathNo : Nat
  /-- Culvert responses by tile: none while awaited. -/
  responses : List (Nat × Option Status)
  /-- For a remote arrival: culvert, exchange tag, record bytes, reduce flag, E1 flag. -/
  arrival : Option (Nat × BitVec 32 × List Byte × Bool × Bool)
  /-- For a shadow restore: true. -/
  restore : Bool
  deriving DecidableEq, Repr

/-- One half of an MXE's operand staging (R93): up to 1,024 bytes of elements, A's then B's, with the positions that hold
a stored value of a steered B operand, and a latch of up to 128 scale bytes. -/
structure StagingHalf where
  elems : List Byte
  steered : List Nat
  scales : List Byte
  deriving DecidableEq, Repr

/-- An MXE's staging (R92, R93): its two halves, and whether the second takes the next depth step. -/
structure Staging where
  basin : Nat
  unit : Nat
  halves : StagingHalf × StagingHalf
  next : Bool
  deriving DecidableEq, Repr

/-- A lock table entry (R50): the lease deadline is a root-cycle count. -/
structure Lock where
  basin : Nat
  desc : Nat
  caller : Caller
  ctx : Nat
  deadline : Nat
  deriving DecidableEq, Repr

/-- A wait table entry (R216). -/
structure Wait where
  src : Src
  spawn : Nat
  basin : Nat
  ctx : Nat
  gauge : Nat
  target : BitVec 32
  pkt : Packet
  off : Nat
  startCycle : Nat
  deriving DecidableEq, Repr

/-- A gauge increment due in the cycle after a close (R53). -/
structure DueInc where
  basin : Nat
  gauge : Nat
  inc : Nat
  deriving DecidableEq, Repr

/-! ### Packets, lists and rings -/

/-- A packet in a fetch buffer (R209): its offset in a list, whether its sequence number was right (R201), the
sequence number expected, and the status its fetch met (R211, R235). -/
structure Fetched where
  pkt : Packet
  off : Nat
  seqOk : Bool
  expSeq : BitVec 32
  err : Option Status
  deriving DecidableEq, Repr

/-- A 32-byte reply (R205), less PHASE, which the slot gives it (R202). -/
structure Reply where
  opcode : Byte
  status : Status
  alerts : Byte
  fromList : Bool
  otherRing : Bool
  ring : Nat
  seq : BitVec 32
  tag : BitVec 32
  w0 : BitVec 32
  w1 : BitVec 32
  w2 : BitVec 32
  w3 : BitVec 32
  cycles : Nat
  deriving DecidableEq, Repr

/-- Counters of a list or ring for `STATS_READ` (R226). -/
structure Stats where
  completed : Nat
  failed : Nat
  busy : Nat
  alerted : Nat
  tiles : Nat
  granules : Nat
  skipped : Nat
  mispredicted : Nat
  sats : Nat
  clips : Nat
  raws : Nat
  fmtAlerts : Nat
  deriving DecidableEq, Repr

/-- Counters at zero. -/
def Stats.zero : Stats := ⟨0, 0, 0, 0, 0, 0, 0, 0, 0, 0, 0, 0⟩

/-- A running list (R211–R214): `calls` holds the offsets after the calls, innermost first; `spawner` is the source
of the `RUN_LIST` that spawned it, that packet and the cycle it was dispatched in. -/
structure ListRun where
  basin : Nat
  slot : Nat
  ctx : Nat
  spawn : Nat
  right : Nat
  pc : Nat
  calls : List Nat
  spawner : Src
  spawnerSpawn : Nat
  spawnPkt : Packet
  spawnOff : Nat
  spawnCycle : Nat
  buf : List Fetched
  /-- Held by a control packet in Rosog's hands (R12, R219). -/
  held : Bool
  /-- The list has ended with this status and waits for its packets in flight (R213). -/
  ending : Option Status
  failOff : BitVec 32
  completed : Nat
  passed : Nat
  alerts : Byte
  deriving DecidableEq, Repr

/-- What is kept of a slot's last spawn (R226): the context, its creation number, the spawn, its counters. -/
structure SlotStats where
  basin : Nat
  slot : Nat
  ctx : Nat
  createNo : Nat
  spawn : Nat
  stats : Stats
  deriving DecidableEq, Repr

/-- The ditch rider's side of a ring: fetch buffer, hold, reply slots reserved (for fetched packets and, in ring 8, for
self-destroys), final replies waiting to be written (holding a reservation or not). -/
structure RingRun where
  buf : List Fetched
  held : Bool
  reserved : Nat
  waiting : List Reply
  unreserved : List Reply
  /-- Cycles dispatch has waited for a reply slot, below one unit of 1,024 (R199). -/
  stall : Nat
  stats : Stats
  deriving DecidableEq, Repr

/-- A ring with nothing fetched. -/
def RingRun.empty : RingRun := ⟨[], false, 0, [], [], 0, Stats.zero⟩

/-- A control or security packet in Rosog's hands (R219). -/
structure Handed where
  src : Src
  spawn : Nat
  pkt : Packet
  off : Nat
  basin : Nat
  ctx : Nat
  startCycle : Nat
  /-- Root cycle at which Rosog took it, from the end of the cycle in which its turn came (R219). -/
  taken : Option Nat
  accepted : Bool
  /-- Rosog is executing it (R219, R326): it has been taken and waits for something. -/
  begun : Bool
  deriving DecidableEq, Repr

/-- A check's part of a bank-side fill (R168): its write sides are reserved from cycle `lo` to before `hi`; in each of these cycles
every bank writes zero to its next word of the areas, as word numbers from and to. -/
structure FillRun where
  basin : Nat
  check : Nat
  lo : Nat
  hi : Nat
  areas : List (Nat × Nat)
  /-- Words each bank has had a turn for. -/
  turn : Nat
  deriving DecidableEq, Repr

/-- What a scrub is for (R368): a context destroyed, with the packet that asks, the numbers of lists, packets and locks and the alerts
of its reply (R223); or the stop of an interface, with the packet that carries the request (R384). -/
inductive ScrubFor where
  | destroy (h : Option Handed) (lists packets locks : Nat) (alerts : Byte)
  | stop (h : Option Handed)
  deriving DecidableEq, Repr

/-- A scrub (R369): the context, what it is for, and once it runs its first flow cycle, the root count there, the STATE it returns to
and the levee entries it has removed: basin, number, the two registers. -/
structure ScrubRun where
  ctx : Nat
  what : ScrubFor
  began : Option (Nat × Nat × Nat)
  levees : List (Nat × Nat × Word64 × Word64)
  deriving DecidableEq, Repr

/-! ### Contexts, keys, admissions -/

/-- A key slot of a context (R360). A job key keeps its send counter and, per sender, the highest counter seen and the
counters seen within the window below it (R378). -/
inductive KeySlot where
  | empty
  | job (jobId : BitVec 32) (e1 : Bool) (sendCtr : Nat) (seen : List (Nat × Nat × List Nat))
  | set (setId : BitVec 32) (members : List Nat)
  deriving DecidableEq, Repr

/-- An admission of a right (R185, R186, R188); reservations in GB/s. -/
structure Admission where
  right : Nat
  bound : Nat
  mask : Word64
  furrow : Nat
  vector : Nat
  screen : Nat
  flume : Nat
  stack : Nat
  culOut : List Nat
  culIn : List Nat
  suspended : Bool
  deriving DecidableEq, Repr

/-- A weight region or a stream buffer Rosog placed in a context's region (R224, R43): basin, base granule, length,
and for a weight region its key slot. -/
structure Placed where
  basin : Nat
  base : Nat
  len : Nat
  slot : Option Nat
  deriving DecidableEq, Repr

/-- What Rosog and the hardware keep of a context besides its registers. -/
structure CtxRec where
  resident : Bool
  faulted : Bool
  ownerItems : Bool
  /-- Counts `CTX_CREATE`s, so that a list spawned before the last one is told apart (R226). -/
  createNo : Nat
  homeBasin : Nat
  mask : Word64
  base : Nat
  len : Nat
  placed : List Placed
  /-- Region-table entries of the context's stack region and of the shadow regions recorded as its (R292). -/
  stackRgn : Option Nat
  shadowRgns : List Nat
  /-- Generation of the context's XTS and CMAC keys (R359). -/
  keyGen : Nat
  keySlots : List KeySlot
  /-- Update rights released by OWNER_LOCK, and by a lock with NO_FW_UPDATE clear (R387). -/
  released : Bool
  lockedFwOk : Bool
  admissions : List Admission
  /-- TRN_OT_CFG and TRN_LAT_CFG as `CTX_SWITCH` will load them (R189): (basin, index, value) off their reset values. -/
  otCfg : List (Nat × Nat × Word64)
  latCfg : List (Nat × Nat × Word64)
  /-- Basins pending retirement whose `QUERY` SELECT 3 the context has issued (R277). -/
  ackPending : Word64
  deriving DecidableEq, Repr

/-- An absent context. -/
def CtxRec.absent : CtxRec :=
  ⟨false, false, false, 0, 0, 0, 0, 0, [], none, [], 0, List.replicate 16 .empty, false, false, [], [], [], 0⟩

/-! ### Banks and arbiters -/

/-- A burst at its turnout or in a check's pending queue (R158, R160): right 16 stands for none; `ready` is the cycle its
gate admitted it in (R179), `arrived` the one it entered the queue in. -/
structure Burst where
  who : BurstSrc
  turnout : Nat
  right : Nat
  qos : Nat
  kind : BurstKind
  word : Nat
  n : Nat
  ready : Nat
  arrived : Nat
  deriving DecidableEq, Repr

/-- A check's arbiter (R163): queued bursts in entry order, the grant count, a pending age turn and the cycle it began in,
the eight round-robin pointers. -/
structure CheckArb where
  basin : Nat
  check : Nat
  queue : List Burst
  count : Nat
  ageTurn : Bool
  ageSince : Nat
  rr : List Nat
  deriving DecidableEq, Repr

/-- A beat reserved for a cycle (R158, R163, R167): check, physical bank, bank side (`write` or read side), turnout, the
paths of the turnout it takes (bit 0 read, bit 1 write); whose it is (none for the scrubber, the copier and the headgate),
its word, the cycle its request entered the queue in, whether it is the burst's first. The last beat of a burst carries
the burst's right, the cycle it was ready in and the one it ends in (R177, R179). `done`: it has happened. -/
structure Beat where
  basin : Nat
  check : Nat
  bank : Nat
  write : Bool
  turnout : Nat
  paths : Nat
  cycle : Nat
  who : Option BurstSrc
  word : Nat
  arrived : Nat
  first : Bool
  last : Option (Nat × Nat × Nat)
  done : Bool
  deriving DecidableEq, Repr

/-- The turnout a bank side is parked on (R165). -/
structure Park where
  basin : Nat
  bank : Nat
  write : Bool
  turnout : Nat
  lastBeat : Nat
  deriving DecidableEq, Repr

/-- The regulator of a basin (R180): consecutive clean intervals, rights that exceeded in this interval, rights that
breached in it, rights whose record starts afresh with the next interval, the cycle the interval began in, and the
base-2 logarithm of its length (R181). -/
structure Regulator where
  basin : Nat
  clean : Nat
  exceeded : List Nat
  breached : List Nat
  afresh : List Nat
  start : Nat
  log2 : Nat
  deriving DecidableEq, Repr

/-- A regulator with nothing recorded, in an interval of the reset length that began in cycle 0. -/
def Regulator.idle (b : Nat) : Regulator := ⟨b, 0, [], [], [], 0, 10⟩

/-- The scrubber of a basin (R249): the last bank read, row pointers and rows read in this lap by physical bank,
descriptors and lines read in this lap, the cycle the lap began, and the cycle after the last read of a descriptor or
line. -/
structure Scrubber where
  basin : Nat
  lastBank : Nat
  rows : List (Nat × Nat)
  done : List (Nat × Nat)
  descs : Nat
  lines : Nat
  lapStart : Nat
  walked : Nat
  deriving DecidableEq, Repr

/-- A spare-bank copy in progress (R256): basin, spare, the old physical bank, the next row, the cycle of the last forced
read, and the rows read that the copier has still to write as (row, cycle of the read, data, check bits' deviation). -/
structure SpareCopy where
  basin : Nat
  spare : Nat
  old : Nat
  row : Nat
  lastRead : Nat
  due : List (Nat × Nat × List Byte × BitVec 48)
  deriving DecidableEq, Repr

/-! ### Stack memory and culverts -/

/-- A block request in a siphon's queue (R302). -/
structure SphReq where
  who : SphSrc
  basin : Nat
  qos : Nat
  block : Nat
  write : Bool
  /-- Root cycle at which it entered, and its number in the order of acceptance (R301). -/
  arrived : Nat
  number : Nat
  deriving DecidableEq, Repr

/-- A siphon's queue and scheduler (R302), patrol pointer and lap (R304). -/
structure Siphon where
  queue : List SphReq
  count : Nat
  patrol : Nat
  lapStart : Nat
  /-- Requests granted and not yet read or written. -/
  granted : List SphReq
  /-- Requests accepted so far, and the cycle of the last grant. -/
  accepted : Nat
  grantedAt : Option Nat
  /-- Requests the siphon has performed for a requester that has not moved their data yet: who, the block, and whether its read
  fails its MAC, the first time and again (R300). -/
  served : List (SphSrc × Nat × Bool × Bool)
  /-- The calibration rounds that have set the link's trims since they were loaded, as uses of free values (R305, R347). -/
  trims : List Nat
  deriving DecidableEq, Repr

/-- A siphon with nothing queued. -/
def Siphon.idle : Siphon := ⟨[], 0, 0, 0, [], 0, none, [], []⟩

/-- An outbound record message waiting for credits, or sent and waiting for its response (R147, R415–R417). -/
structure Exchange where
  xtag : BitVec 32
  flight : Nat
  tile : Nat
  flits : Nat
  qos : Nat
  sent : Bool
  msg : CulMsg
  /-- The record in the clear (R144), in E1 mode with its lines' bytes (R261). -/
  record : List Byte
  deriving DecidableEq, Repr

/-- A culvert beyond its registers: request credits held, ordinary grants since the last age grant, exchanges oldest
first, responses sent in the present cycle (exchange tag and status), the inbound messages whose credits are not returned yet, in
arrival order, as (exchange tag, flits, whether the message has left the request buffer), and the request credits the mesh holds since the culvert was fenced (R415). -/
structure Culvert where
  credits : Nat
  count : Nat
  exchanges : List Exchange
  responses : List (BitVec 32 × Status)
  inbox : List (BitVec 32 × Nat × Bool)
  owed : Nat
  deriving DecidableEq, Repr

/-- An idle culvert. -/
def Culvert.idle : Culvert := ⟨0, 0, [], [], [], 0⟩

/-! ### Faults -/

/-- The classification of an event (R287). -/
inductive Verdict where
  | none | transient | permanent | unresolved | unclassified
  deriving DecidableEq, Repr

/-- An event posted to Rosog (R235, R250, R266): the unit, the event class of R288, its classification, the location
(row, cell, lane), the bit, the scrub lap or zero, the context, the record's detail bytes. -/
structure Event where
  kind : UnitKind
  basin : Nat
  unit : Nat
  cls : Nat
  verdict : Verdict
  loc : Nat
  bit : Nat
  lap : Nat
  ctx : Nat
  failed : Bool
  detail : List Byte
  deriving DecidableEq, Repr

/-- An event in a unit's summary (R270). -/
structure UnitEvent where
  /-- Service seconds. -/
  time : Nat
  cls : Nat
  verdict : Verdict
  loc : Nat
  bit : Nat
  lap : Nat
  /-- The row it names has been remapped since. -/
  moved : Bool
  deriving DecidableEq, Repr

/-- A unit's entry of the unit summary (R270). -/
structure UnitRec where
  kind : UnitKind
  basin : Nat
  unit : Nat
  retired : Bool
  /-- The events within the window. -/
  events : List UnitEvent
  /-- The last row named, or none of an engine, and the last bit, cell or lane. -/
  named : Option (Nat × Nat)
  lastTest : Nat
  due : Option Nat
  /-- When Rosog began to wait for a list boundary (R279). -/
  waitFrom : Option Nat
  testing : Bool
  /-- The slot (furrow, slot) the unit was taken from for its test, when it is forced without a spare. -/
  heldSlot : Option (Nat × Nat)
  /-- The `TEST_SCHEDULE` packets that wait for the test's end. -/
  reply : List (Src × Packet)
  deriving DecidableEq, Repr

/-- A spare substitution waiting for its slot's packet boundary (R273), and the reply bit it will set. -/
structure Subst where
  basin : Nat
  furrow : Nat
  slot : Nat
  bit7 : Bool
  deriving DecidableEq, Repr

/-- The test policy (R282). -/
structure TestPolicy where
  intervalH : Nat
  graceS : Nat
  deferD : Nat
  transientMax : Nat
  windowH : Nat
  deriving DecidableEq, Repr

/-- What a boot slot or the staging slot says of its image (R396). -/
structure ImageInfo where
  svn : Nat
  keyIndex : Nat
  live : Bool
  stateVer : Nat
  stateMin : Nat
  bodyLen : Nat
  build : Word64
  /-- The body, from byte 0 of an instruction-RAM half (R397). -/
  body : List Byte
  deriving DecidableEq, Repr

/-- A copy of the boot record (R405): its generation count, the active slot (true: B), and a copy-at-next-start pending. -/
structure BootRec where
  gen : Nat
  slotB : Bool
  pending : Bool
  deriving DecidableEq, Repr

/-- The cistern (R254, R270, R341, R387, R399, R405) and the fuses that change. -/
structure Cistern where
  serviceS : Nat
  eventSeq : Nat
  units : List UnitRec
  /-- The record log, oldest first: identifier, severity, context, record bytes. -/
  records : List (Nat × Nat × Nat × List Byte)
  nextId : Nat
  overwritten : Bool
  policy : TestPolicy
  ownerLock : Bool
  /-- The boot record's two copies (R405). -/
  boot : BootRec × BootRec
  slotA : ImageInfo
  slotB : ImageInfo
  staged : Option ImageInfo
  /-- Header and body of the staged image, as received. -/
  stagedBytes : List Byte
  /-- RECEIVED as last persisted (R399), and service time as last persisted (R269). -/
  receivedKept : Nat
  savedS : Nat
  arCounter : Nat
  revoked : BitVec 4
  /-- Lanes of the siphons' links that are retired for good (R305): siphon, lane. -/
  lanesRetired : List (Nat × Nat)
  /-- Culverts fenced for good by a lane lost with no spare left (R413). -/
  culRetired : List Nat
  /-- Basins whose retirement is pending or has completed since (R277), and which of the two. -/
  basinsLeft : List (Nat × Bool)
  /-- The calibration tables (R347): the sensors' offsets, and by siphon the calibration rounds, as uses of free values, whose
  trims have been written back, oldest first; none holds no trim yet. -/
  sensorOffsets : List Byte
  trims : List (Nat × List Nat)
  /-- Starts that have reached step 4: the model's own, so that no two starts' scrub laps share a name. -/
  starts : Nat
  /-- The cistern holds no history, calibration or boot record (R349). -/
  blank : Bool
  deriving DecidableEq, Repr

/-- The boot record in force: the copy written last (R405). -/
def Cistern.bootRec (c : Cistern) : BootRec := if c.boot.1.gen < c.boot.2.gen then c.boot.2 else c.boot.1

/-- The boot record marks a copy-at-next-start as pending. -/
def Cistern.copyPending (c : Cistern) : Bool := c.bootRec.pending

/-- The boot record written: the older copy is replaced, whole. -/
def Cistern.writeBoot (c : Cistern) (slotB pending : Bool) : Cistern :=
  let r : BootRec := ⟨c.bootRec.gen + 1, slotB, pending⟩
  { c with boot := if c.boot.1.gen < c.boot.2.gen then (r, c.boot.2) else (c.boot.1, r) }

/-! ### Power, start and ports -/

/-- A sleep-state entry in progress (R323): target, step, who asked (the packet, or the management bus), the cycle. -/
structure Entry where
  target : Nat
  step : Nat
  src : Option (Src × Packet)
  startRoot : Nat
  waitSram : Bool
  /-- Drain time in µs, once drained. -/
  drainUs : Nat
  /-- A wake event has arrived in step 4 and aborts the entry at A3 (R324). -/
  woken : Bool
  /-- Step 4 has made its supply request (R323, R325). -/
  asked : Bool
  deriving DecidableEq, Repr

/-- A supply request (R316): the levels to return to, when it was made, whether it is granted and settling. -/
structure SupplyReq where
  prevCore : Nat
  prevSram : Nat
  startRoot : Nat
  granted : Bool
  deriving DecidableEq, Repr

/-- The power manager's own variables (R331–R335). -/
structure Power where
  /-- Site power of the last samples, newest first, in 0.125 W units (R332). -/
  samples : List Nat
  /-- D of the samples of the running millisecond, newest first. -/
  dMs : List Nat
  /-- Whole milliseconds in a row with D = 16 throughout. -/
  fullMs : Nat
  /-- The thermal rule is active (R332); samples since D last fell and since it last rose under it. -/
  thermal : Bool
  fallFor : Nat
  riseFor : Nat
  /-- Root cycle at which the trip began (R327, R333). -/
  tripStart : Nat
  supply : Option SupplyReq
  /-- A divider change that waits for the supply (R316). -/
  divWait : Option Nat
  /-- A divider change in progress: the new divider and the flow cycle of the switch (R312). -/
  divTo : Option (Nat × Nat)
  canaryError : Bool
  noLowerUntil : Nat
  lowUntilSettled : Bool
  /-- A canary raise to this level is on its way, 0 for none; once settled, the root cycle at which MARGIN_LOW falls (R335). -/
  lowCanary : Nat
  lowClearAt : Option Nat
  /-- The canary rows, by (basin × 16 + check) × 2 + row (R334): those that hold the complement of the checkerboard, and those still
  to be read in this millisecond. -/
  canaryFlipped : List Nat
  canaryDue : List Nat
  /-- A VDD_SRAM level to request once no request is pending; 0 for none (R316). -/
  sramWant : Nat
  outOfTolerance : Bool
  suspendedUntil : Nat
  entry : Option Entry
  keeperPending : Bool
  /-- The load estimate is made of these loads (R317). -/
  sensorsOn : Bool
  driversOn : Bool
  /-- Root cycles during which leases do not run (R327). -/
  sleepStart : Nat
  /-- The sensors' offsets as loaded (R347). -/
  sensorOffsets : List Byte
  deriving DecidableEq, Repr

/-- The start sequence (R338) and the pins that drive it (R410). -/
structure Start where
  pwrGood : Bool
  resetAsserted : Bool
  fenceReq : Bool
  fenceAck : Bool
  thermTrip : Bool
  /-- The step in progress: 1–7, 8 released; 0 unpowered. -/
  step : Nat
  ms : Nat
  released : Bool
  clockLost : Bool
  fencing : Bool
  /-- The start in progress is a cold one (R313, R338); it is a re-test (R346). -/
  cold : Bool
  retest : Bool
  /-- The fence has been asked for in a detach, which nothing cancels any more (R354). -/
  noReturn : Bool
  deriving DecidableEq, Repr

/-- A queued headgate response (R392): type, FSEQ, FSTATUS, payload. -/
structure HgResp where
  typ : Byte
  fseq : Byte
  fstatus : Byte
  payload : List Byte
  deriving DecidableEq, Repr

/-- A service frame: its header, packet and data, the verdict it came with, and a window length (R392, R394, R403). -/
structure HgFrame where
  hdr : HgHdr
  pkt : Packet
  data : List Byte
  verdict : Bool
  windowUs : Nat
  deriving DecidableEq, Repr

/-- A debug access of the headgate (R392): its header, whether it writes, its payload. -/
structure HgDebug where
  hdr : HgHdr
  write : Bool
  payload : List Byte
  deriving DecidableEq, Repr

/-- The headgate (R393, R395). -/
structure Headgate where
  queue : List HgResp
  last : List (Byte × BitVec 32 × HgResp)
  lastSeq : Option Byte
  /-- The response frame being sent. -/
  out : HgResp
  nonce : Option (BitVec 128)
  /-- Service frames that wait during a handover or a partial reset, oldest first (R394). -/
  waiting : List HgFrame
  /-- Root cycle at which the last frame of a transfer came; none since the start (R400). -/
  lastFrame : Option Nat
  /-- An `IMG_END` whose image is being verified (R400, R407). -/
  ending : Option HgFrame
  /-- Debug accesses that wait for their bank or their siphon, oldest first (R169, R301). -/
  waitingDebug : List HgDebug
  /-- A granted debug unlock whose scrubs are not over (R372). -/
  unlock : Option HgFrame
  deriving DecidableEq, Repr

/-- The management bus target (R422–R426). -/
structure Mgt where
  dyn : Option (BitVec 7)
  mwl : Nat
  mrl : Nat
  events : Byte
  owner : Bool
  nonce : Option (BitVec 128)
  /-- What the next read transfer returns. -/
  resp : List Byte
  /-- In-band interrupts raised and not yet taken, oldest first. -/
  ibi : List Byte
  nack : Bool
  awake : Bool
  stateEntry : Bool
  deriving DecidableEq, Repr

/-- An SPDM session (R382). -/
structure Session where
  id : Nat
  ring : Nat
  finished : Bool
  attested : Bool
  deriving DecidableEq, Repr

/-- An SPDM or TDISP response by its content (R380–R386); the byte layout is the DMTF's. -/
inductive SpdmResp where
  | none
  | versions
  | capabilities
  | algorithms
  | digests (aliasGen : Nat)
  | certificate (aliasGen : Nat)
  | challengeAuth (aliasGen : Nat)
  | measurements (blocks : List (Nat × List Word64)) (signed : Bool)
  | keyExchangeRsp (session : Nat)
  | finishRsp
  | endSessionAck
  | responseNotReady (rdtExponent rdtm token : Nat)
  | errorUnsupported (code : Byte)
  | errorUnexpected
  | errorBusy
  | tdispVersion
  | tdispCapabilities
  | tdispLocked
  | tdispReport (ranges : List (Nat × Nat))
  | tdispState (state : Nat)
  | tdispStarted
  | tdispStopped
  | tdispError (code : Nat)
  deriving DecidableEq, Repr

/-- A request as the responder meets it, with what the requester's message decides (R380, R383). -/
inductive SpdmCall where
  | getVersion | getCapabilities
  | negotiate (supported : Bool)
  | getDigests | getCertificate | challenge | getMeasurements
  | keyExchange (entropyOk : Bool)
  | finish (verified : Bool)
  | endSession
  | unsupported (code : Byte)
  | tdispVersion (iface : Nat)
  | tdispCapabilities (iface : Nat)
  | lockInterface (iface : Nat) (noFwUpdate : Bool)
  | interfaceReport (iface : Nat)
  | interfaceState (iface : Nat)
  | startInterface (iface : Nat)
  | stopInterface (iface : Nat)
  | tdispUnsupported (iface : Nat) (code : Byte)
  deriving DecidableEq, Repr

/-- The responder (R379–R386). -/
structure Spdm where
  sessions : List Session
  resp : SpdmResp
  negotiated : Bool
  /-- Requests held across a transition, one a ring, each with its token (R386); and the last token given. -/
  held : List (Nat × SpdmReq × SpdmCall)
  token : Nat
  /-- Generations of the alias key and of measurement 2 (R359, R381). -/
  aliasGen : Nat
  measured2 : Nat
  deriving DecidableEq, Repr

/-- The instructions of the test port (R431). -/
inductive TapInstr where
  | reset | idcode | bypass | sample | extest | instruments
  deriving DecidableEq, Repr

/-- The test port (R431). -/
structure Tap where
  instr : TapInstr
  bypassBit : Bool
  boundary : List Bool
  driven : Bool
  out : List Bool
  deriving DecidableEq, Repr

/-- A live handover in progress (R403): the step, the packet, and the root cycle at which the window opened. -/
structure Handover where
  step : Nat
  frame : HgFrame
  opened : Nat
  deriving DecidableEq, Repr

/-- The control core (R13, R28, R29): an RV64GC hart with machine and user mode, its memories and its local map. -/
structure CtlCore where
  /-- `x1` to `x31` in order, and `f0` to `f31`. -/
  x : List Word64
  f : List Word64
  pc : Word64
  /-- Machine mode; else user mode. -/
  machine : Bool
  /-- Control and status registers by number; unlisted = zero. -/
  csrs : List (Nat × Word64)
  /-- The 16 physical memory protection entries: configuration bytes and address registers. -/
  pmpCfg : List Byte
  pmpAddr : List Word64
  /-- Address of a load reservation. -/
  reserved : Option Nat
  /-- Instruction-RAM halves A and B and the data RAM, 512 KiB each; an unlisted byte is zero. -/
  iramA : List Host.Cell
  iramB : List Host.Cell
  dataRam : List Host.Cell
  /-- CTL_REMAP as instruction fetches use it (R29). -/
  fetchMap : Word64
  /-- Access faults logged, oldest first: cause and address (R28). -/
  faultLog : List (Nat × Nat)
  /-- The state block of a handover in the top 64 KiB of the data RAM (R403): the STATE_VER it was written with, and the
  use of free values its bytes are. While it stands, `dataRam` holds those bytes' changes (exclusive or). -/
  block : Option (Nat × Nat)
  deriving DecidableEq, Repr

/-- The core as the boot ROM starts it (R28). -/
def CtlCore.reset : CtlCore :=
  ⟨List.replicate 31 0, List.replicate 32 0, 0, true, [], List.replicate 16 0, List.replicate 16 0, none, [], [], [], 1, [], none⟩

/-! ### The whole state -/

/-- The site. -/
structure State where
  /-- Commands waiting, first in, first out. -/
  pending : List Instr
  cfg : SiteConfig
  /-- Flow-clock cycles since release. -/
  cycle : Nat
  /-- Registers off their reset values (`Reg.resetValue`). -/
  regs : List (Reg × Word64)
  /-- Hardware updates of the present cycle. -/
  fresh : List HwUpdate
  /-- Uses made of free values: the model's own counter. -/
  freeUses : Nat
  /-- Bank bytes by physical byte number; an unlisted byte is zero (R253). -/
  mem : List Host.Cell
  /-- Stored check bits XOR the check bits of the stored data, by physical word; unlisted = equal (R230). -/
  memChk : List (Nat × BitVec 48)
  /-- Descriptors by basin × 16,384 + number; unlisted = zero (R253). -/
  desc : List (Nat × BitVec 512)
  descChk : List (Nat × BitVec 48)
  /-- COUNT and CTX of gauges by basin × 4,096 + number; unlisted = zero. -/
  gauge : List (Nat × BitVec 32)
  gaugeCtx : List (Nat × Nat)
  gaugeChk : List (Nat × BitVec 48)
  /-- Increments that landed in the present cycle: gauge key, sum (R53). -/
  landed : List (Nat × Nat)
  /-- Stack bytes by siphon × 2^32 + physical offset, in the clear; unlisted = zero. -/
  stack : List Host.Cell
  /-- Valid pages and pages in a write combiner, by siphon × 2^20 + page (R296, R297); the latter with a bit for each byte
  written so far and the root cycle of the first write. -/
  pages : List Nat
  combining : List (Nat × Nat × Nat)
  /-- The MAC table (R290, R298), by siphon × 2^24 + block: the key a block was last written under; 0 for none. -/
  macs : List (Nat × Nat)
  /-- Blocks, by siphon × 2^24 + block, whose MAC does not verify under any key: damaged or poisoned (R299). -/
  badBlocks : List Nat
  siphons : List (Nat × Siphon)
  flights : List Flight
  nextFlight : Nat
  /-- Operand staging of the MXEs (R93); an unlisted one is empty. -/
  staging : List Staging
  /-- Generations of the keys in key slots, by context × 16 + slot, and the send counters of job keys that were replaced or removed,
  by generation, context and slot (R377, R378). -/
  keyGens : List (Nat × Nat)
  /-- Key slots of the siphons (R298, R359): by siphon × 16 + context, 15 for Rosog's, the generation of the keys loaded; none is 0. -/
  sphKeys : List (Nat × Nat)
  /-- Contexts whose shadow records Rosog is to write again, with the tiles (R307). -/
  reshadows : List (Nat × List (Nat × Nat))
  oldSends : List (Nat × Nat)
  locks : List Lock
  waits : List Wait
  dueIncs : List DueInc
  /-- Basins whose descriptor SRAM or gauge array has had an access in the present cycle (R249). -/
  sram : List Nat
  lists : List ListRun
  slotStats : List SlotStats
  nextSpawn : Nat
  rings : List (Nat × RingRun)
  /-- Each ditch rider's place in its round of sources, and the basins whose rider has dispatched a group in the present
  cycle (R209). -/
  riders : List (Nat × Nat)
  rode : List Nat
  handed : List Handed
  active : Option Nat
  /-- Contexts 0–7 that are not absent. -/
  ctxs : List (Nat × CtxRec)
  /-- AUDIT_MS in force, the value the next audit puts in force (R195), and the waits of the previous audit: source,
  basin, gauge, target, count. -/
  auditMs : Nat
  auditNext : Nat
  /-- Root cycle at which the interval of the next audit began (R195, R327). -/
  auditFrom : Nat
  auditSnap : List (Src × Nat × Nat × BitVec 32 × BitVec 32)
  arbs : List CheckArb
  beats : List Beat
  parks : List Park
  /-- Bursts their turnouts may not issue yet, by basin, in the order they became ready (R160, R175, R177), and the checks
  that have made their decision of the present cycle: basin, check. -/
  turnWait : List (Nat × Burst)
  decided : List (Nat × Nat)
  /-- Cycles a check is frozen in (R169): basin, check, cycle; write sides a fill has reserved (R168): basin, check, first
  cycle, cycle after the last. -/
  frozenAt : List (Nat × Nat × Nat)
  fillRes : List FillRun
  /-- Scrubs that are due, the running one first (R368). -/
  scrubs : List ScrubRun
  regulators : List Regulator
  scrubbers : List Scrubber
  spareCopies : List SpareCopy
  /-- Remap entries whose row has been copied (R255): basin, bank, entry. -/
  remapped : List (Nat × Nat × Nat)
  /-- Predictor maps are registers; the slots a substitution's bit 7 is still due for: basin, furrow, slot. -/
  substs : List Subst
  bit7Due : List (Nat × Nat × Nat)
  /-- Basins pending retirement (R276). -/
  retiring : List Nat
  /-- Weight tiles waiting for a shadow restore (R246): basin, descriptor. -/
  restores : List (Nat × Nat)
  /-- Rosog's placement records of `BOUND` descriptors (R236), by descriptor key. -/
  placements : List (Nat × BitVec 512)
  /-- Events posted to Rosog, oldest first, and the events lost by basin (R250). -/
  events : List Event
  lostEvents : List (Nat × Nat)
  testsDone : Nat
  /-- A detach in progress (R354): contexts destroyed, scrub cycles; none once its reply is posted. -/
  detach : Option (Nat × Nat)
  culverts : List (Nat × Culvert)
  nextXtag : BitVec 32
  siteId : Nat
  attached : Bool
  cistern : Cistern
  /-- The running image (R401), which during a handover's copy is not the active slot's. -/
  running : ImageInfo
  power : Power
  start : Start
  hg : Headgate
  mgt : Mgt
  spdm : Spdm
  tap : Tap
  handover : Option Handover
  core : CtlCore
  /-- Control domain in a partial reset (R385): since when, and whether the image of the boot record verifies. -/
  controlDown : Bool
  downSince : Nat
  downOk : Bool
  /-- What the last window or register load returned. -/
  loadOut : Word64
  deriving DecidableEq, Repr

/-- Faults. The spec gives every error of this block an effect (a decode error reads zero, a refusal is a reply), so
the machine's meanings raise none; the constructor is what a broken invariant of the model would be called. -/
inductive Fault where
  /-- Raised by no command; safe. -/
  | none
  deriving DecidableEq, Repr

/-- Refusals. -/
inductive Refusal where
  /-- A command whose meaning is not written yet; safe. -/
  | notModelled (mnemonic : String)
  /-- Raised by an IEEE 1687 access in test-enable state, whose instruments the spec does not describe (R431); safe. -/
  | instrument
  deriving DecidableEq, Repr

/-! ### Reset -/

/-- Basin size in bytes (R19). -/
def SiteConfig.basinBytes (c : SiteConfig) : Nat := c.checks * 16 * 2 ^ (c.bankKibLog2 + 10)

/-- An image slot as the factory leaves it (R349): DESIGN CHOICE, log entry 6. -/
def ImageInfo.factory : ImageInfo := ⟨0, 0, true, 0, 0, 4096, 0, []⟩

/-- The cistern of a part at its first start (R349). -/
def Cistern.factory : Cistern :=
  { serviceS := 0, eventSeq := 0, units := [], records := [], nextId := 0, overwritten := false,
    policy := ⟨24, 10, 7, 3, 24⟩, ownerLock := false, boot := (⟨1, false, false⟩, ⟨0, false, false⟩),
    slotA := .factory, slotB := .factory, staged := none, stagedBytes := [], receivedKept := 0, savedS := 0, arCounter := 0, revoked := 0, lanesRetired := [], culRetired := [], basinsLeft := [], sensorOffsets := [], trims := [], starts := 0, blank := true }

/-- The site at release (R340), which is what the Reset columns state (R7): standard configuration, every unit passed,
attaching, fenced, ring 8 present, no context, all memory zero. Values the spec does not give are in log entry 6. -/
def State.reset : State :=
  { pending := [], cfg := .standard, cycle := 0,
    regs := [], fresh := [], freeUses := 0,
    mem := [], memChk := [], desc := [], descChk := [], gauge := [], gaugeCtx := [], gaugeChk := [], landed := [],
    stack := [], pages := [], combining := [], macs := [], badBlocks := [], siphons := [],
    flights := [], nextFlight := 0, staging := [], keyGens := [], oldSends := [], sphKeys := [], reshadows := [], locks := [], waits := [], dueIncs := [], sram := [],
    lists := [], slotStats := [], nextSpawn := 0, rings := [], riders := [], rode := [], handed := [], active := none, ctxs := [],
    auditMs := 50, auditNext := 50, auditFrom := 0, auditSnap := [], arbs := [], beats := [], parks := [], turnWait := [], decided := [], frozenAt := [], fillRes := [], scrubs := [], regulators := [], scrubbers := [],
    spareCopies := [], remapped := [], substs := [], bit7Due := [], retiring := [], restores := [], placements := [],
    events := [], lostEvents := [], testsDone := 0, detach := none, culverts := [], nextXtag := 0, siteId := 0, attached := false,
    cistern := { Cistern.factory with blank := false }, running := .factory,
    power :=
      { samples := [], dMs := [], fullMs := 0, thermal := false, fallFor := 0, riseFor := 0, tripStart := 0,
        supply := none, divWait := none, divTo := none, canaryError := false, noLowerUntil := 0, lowUntilSettled := false,
        lowCanary := 0, lowClearAt := none, canaryFlipped := [], canaryDue := [], sramWant := 0, outOfTolerance := false, suspendedUntil := 0, entry := none, keeperPending := false, sensorsOn := true,
        driversOn := true, sleepStart := 0, sensorOffsets := [] },
    start :=
      { pwrGood := true, resetAsserted := false, fenceReq := true, fenceAck := true, thermTrip := false, step := 8,
        ms := 180, released := true, clockLost := false,
        fencing := false, cold := false, retest := false, noReturn := false },
    hg := { queue := [], last := [], lastSeq := none, out := ⟨0x80, 0, 0, []⟩, nonce := none, waiting := [], lastFrame := none, ending := none, waitingDebug := [], unlock := none },
    mgt := { dyn := none, mwl := 64, mrl := 64, events := 0x0B, owner := false, nonce := none, resp := [], ibi := [],
             nack := false, awake := true, stateEntry := false },
    spdm := { sessions := [], resp := .none, negotiated := false, held := [], token := 0, aliasGen := 0,
              measured2 := 0 },
    tap := { instr := .reset, bypassBit := false, boundary := [], driven := false, out := [] },
    handover := none, core := .reset, controlDown := false, downSince := 0, downOk := false, loadOut := 0 }

end Sys2Proof.Machine
end

