-- ==== Sys2Proof/Machine/Bits.lean ====
section
/-! DEFINITION. Bit fields, little-endian byte strings (R5) and association lists with a default. -/

namespace Sys2Proof.Machine

/-- Field [lo + n − 1 : lo] of a word, as a number. -/
def fld {w : Nat} (x : BitVec w) (lo n : Nat) : Nat := x.toNat / 2 ^ lo % 2 ^ n

/-- Bit `i` of a word. -/
def bit {w : Nat} (x : BitVec w) (i : Nat) : Bool := x.getLsbD i

/-- A word with field [lo + n − 1 : lo] replaced by the low `n` bits of `v`. -/
def setFld {w : Nat} (x : BitVec w) (lo n v : Nat) : BitVec w :=
  (x &&& ~~~(BitVec.ofNat w ((2 ^ n - 1) * 2 ^ lo))) ||| BitVec.ofNat w (v % 2 ^ n * 2 ^ lo)

/-- A word whose bit `i` is `v`. -/
def setBit {w : Nat} (x : BitVec w) (i : Nat) (v : Bool) : BitVec w := setFld x i 1 v.toNat

/-- A mask of `n` ones from bit `lo`. -/
def maskOf (lo n : Nat) : Word64 := BitVec.ofNat 64 ((2 ^ n - 1) * 2 ^ lo)

/-- A sum that saturates at the largest value of `n` bits. -/
def satAdd (n a b : Nat) : Nat := min (a + b) (2 ^ n - 1)

/-- The number a little-endian byte string spells. -/
def leNat : List Byte → Nat
  | [] => 0
  | b :: bs => b.toNat + 256 * leNat bs

/-- The `n`-byte little-endian form of a number. -/
def leBytes : Nat → Nat → List Byte
  | 0, _ => []
  | n + 1, v => BitVec.ofNat 8 v :: leBytes n (v / 256)

/-- The 8-byte words of a byte string, the last padded with zero bytes. -/
def leWords (bs : List Byte) : List Word64 :=
  (List.range ((bs.length + 7) / 8)).map fun i => BitVec.ofNat 64 (leNat ((bs.drop (8 * i)).take 8))

/-- ceil(a ÷ b). -/
def cdiv (a b : Nat) : Nat := (a + b - 1) / b

/-- The indices below `n` of the bits set in `x`. -/
def bitsSet {w : Nat} (x : BitVec w) (n : Nat) : List Nat := (List.range n).filter fun i => x.getLsbD i

/-! ### Association lists -/

/-- The value listed for a key, or the default. -/
def kget {κ ν : Type} [DecidableEq κ] (m : List (κ × ν)) (d : ν) (k : κ) : ν :=
  match m with
  | [] => d
  | (k', v) :: t => if k' = k then v else kget t d k

/-- The list without a key. -/
def kdel {κ ν : Type} [DecidableEq κ] (m : List (κ × ν)) (k : κ) : List (κ × ν) :=
  match m with
  | [] => []
  | (k', v) :: t => if k' = k then kdel t k else (k', v) :: kdel t k

/-- A value put under a key: the entry leaves the list when the value is the default. -/
def kset {κ ν : Type} [DecidableEq κ] [DecidableEq ν] (m : List (κ × ν)) (d : ν) (k : κ) (v : ν) : List (κ × ν) :=
  if v = d then kdel m k else (k, v) :: kdel m k

/-- The value at a number key, or the default. -/
def nget {ν : Type} (m : List (Nat × ν)) (d : ν) (k : Nat) : ν :=
  match m with
  | [] => d
  | (k', v) :: t => if k' = k then v else nget t d k

/-- A list without a number key. -/
def ndel {ν : Type} (m : List (Nat × ν)) (k : Nat) : List (Nat × ν) :=
  match m with
  | [] => []
  | (k', v) :: t => if k' = k then ndel t k else (k', v) :: ndel t k

/-- A rising list with an entry put in its place. -/
def nins {ν : Type} (m : List (Nat × ν)) (k : Nat) (v : ν) : List (Nat × ν) :=
  match m with
  | [] => [(k, v)]
  | (k', v') :: t =>
    if k' = k then (k, v) :: t
    else if k < k' then (k, v) :: (k', v') :: t
    else (k', v') :: nins t k v

/-- A value put under a number key, in canonical form: keys strictly rising, no entry at the default. -/
def nset {ν : Type} [DecidableEq ν] (m : List (Nat × ν)) (d : ν) (k : Nat) (v : ν) : List (Nat × ν) :=
  if v = d then ndel m k else nins m k v

/-- The canonical form of number-keyed storage: keys strictly rising, no entry equal to what an unlisted key reads
as. -/
def nwf {ν : Type} [DecidableEq ν] (d : ν) : List (Nat × ν) → Bool
  | [] => true
  | [(_, v)] => v != d
  | (k, v) :: (k', v') :: t => decide (k < k') && (v != d) && nwf d ((k', v') :: t)

end Sys2Proof.Machine
end

