-- ==== Sys2Proof/Machine/Regs.lean ====
section
/-! DEFINITION. The register map (R432–R444): the address of every register, the register at an address, reset values
and the access of every field (R7, R435). -/

namespace Sys2Proof.Machine

/-- Turnouts of a basin (R19). -/
def SiteConfig.furrows (c : SiteConfig) : Nat := c.activeMxe / 8
def SiteConfig.turnouts (c : SiteConfig) : Nat := c.furrows + 27
/-- Active banks, rows of a bank (R34), physical banks with the four spares (R237). -/
def SiteConfig.banks (c : SiteConfig) : Nat := c.checks * 16
def SiteConfig.rows (c : SiteConfig) : Nat := 2 ^ (c.bankKibLog2 + 4)
def SiteConfig.physBanks (c : SiteConfig) : Nat := c.banks + 4
/-- STRIDE_LOG2: the basin size rounded up to a power of two (R19, R31). -/
def SiteConfig.strideLog2 (c : SiteConfig) : Nat :=
  (if c.checks = 8 then 7 else 8) + c.bankKibLog2 + 10
/-- Start of the firmware reserve, the top 256 KiB of a basin (R33). -/
def SiteConfig.reserve (c : SiteConfig) : Nat := c.basinBytes - 262144
/-- Space a context can be given in a basin, in granules (R33, R363). -/
def SiteConfig.spaceGranules (c : SiteConfig) : Nat := c.reserve / 256
/-- The permitted values of R18. -/
def SiteConfig.wf (c : SiteConfig) : Bool :=
  decide (16 ≤ c.basins ∧ c.basins ≤ 64 ∧ (c.checks = 8 ∨ c.checks = 12 ∨ c.checks = 16)
    ∧ (c.bankKibLog2 = 6 ∨ c.bankKibLog2 = 7 ∨ c.bankKibLog2 = 8)
    ∧ 80 ≤ c.activeMxe ∧ c.activeMxe ≤ 160 ∧ c.activeMxe % 8 = 0 ∧ c.spareMxe ≤ 8
    ∧ c.siphons ≤ 32 ∧ c.siphons ≤ c.basins / 2)

/-- Offset of a register from 0x0003_0000_0000 (R432, R436–R444). -/
def Reg.offset : Reg → Nat
  | .devId => 0x0 | .devSerial => 0x8 | .devConfig0 => 0x10 | .devConfig1 => 0x18 | .devBasinLive => 0x20
  | .devStartSt => 0x30 | .devStartRes => 0x38 | .devMgtAlert => 0x40
  | .ringCmd r => 0x1000 + r * 0x40 | .ringRpl r => 0x1008 + r * 0x40 | .ringDb r => 0x1010 + r * 0x40
  | .ringHead r => 0x1018 + r * 0x40 | .ringRtail r => 0x1020 + r * 0x40 | .ringRhead r => 0x1028 + r * 0x40
  | .ringSt r => 0x1030 + r * 0x40 | .ringPwr r => 0x1038 + r * 0x40
  | .pwrSt => 0x10000 | .pwrCfg => 0x10008 | .pwrEntrySt => 0x10010 | .pwrRefuser => 0x10018
  | .pwrKeeper => 0x10020 | .pwrVreq => 0x10028 | .pwrPerf => 0x10030 | .pwrCap => 0x10038 | .pwrPower => 0x10040
  | .pwrTherm => 0x10048 | .pwrTrickle => 0x10050 | .pwrMargin => 0x10058 | .pwrBasinSt b => 0x10400 + b * 8
  | .clkSt => 0x10800 | .clkRootCnt => 0x10808 | .clkEventSeq => 0x10810
  | .secSt => 0x20000 | .secObsCfg => 0x20008 | .secViolCnt => 0x20010 | .secViolLog => 0x20018
  | .secCtxSt c => 0x20100 + c * 8
  | .ctlRemap => 0x30000 | .cstFwSt => 0x30100 | .cstHgSt => 0x30108
  | .errDecodeAddr => 0x40100 | .errDecodeSrc => 0x40108 | .errDecodeCnt => 0x40110 | .errHardenSt => 0x40200
  | .culSt c => 0x100000 + c * 0x10000 | .culCfg c => 0x100008 + c * 0x10000 | .culE1St c => 0x100300 + c * 0x10000
  | .sphSt s => 0x200000 + s * 0x10000 | .sphCfg s => 0x200008 + s * 0x10000 | .sphRdCnt s => 0x200010 + s * 0x10000
  | .sphWrCnt s => 0x200018 + s * 0x10000 | .sphIntSt s => 0x200020 + s * 0x10000
  | .sphPatrol s => 0x200028 + s * 0x10000 | .sphLinkSt s => 0x200030 + s * 0x10000
  | .sphQst s => 0x200038 + s * 0x10000 | .sphRgnA n => 0x208000 + n * 0x10 | .sphRgnB n => 0x208008 + n * 0x10
  | .bsnBankCfg b => 0x1000000 + b * 0x40000 | .bsnTileCfg b => 0x1000020 + b * 0x40000
  | .bsnTileSt b => 0x1000028 + b * 0x40000 | .bsnFmtSt b => 0x1000030 + b * 0x40000
  | .bsnArbCfg b => 0x1000040 + b * 0x40000 | .bsnArbSt b => 0x1000048 + b * 0x40000
  | .bsnEccSt b => 0x1000100 + b * 0x40000 | .bsnEccLog b => 0x1000108 + b * 0x40000
  | .bsnScrubCfg b => 0x1000110 + b * 0x40000 | .bsnScrubLap b => 0x1000118 + b * 0x40000
  | .bsnScrubSt b => 0x1000120 + b * 0x40000 | .bsnChkSt b => 0x1000128 + b * 0x40000
  | .bsnSpareMap b => 0x1000138 + b * 0x40000 | .bsnFlipCfg b => 0x1000140 + b * 0x40000
  | .bsnFlipChk b => 0x1000148 + b * 0x40000 | .bsnFlipData b i => 0x1000180 + b * 0x40000 + i * 8
  | .bsnBankCorr b k => 0x1000800 + b * 0x40000 + k * 8
  | .bsnRemap b k e => 0x1002000 + b * 0x40000 + k * 0x20 + e * 8
  | .bsnLeveeA b n => 0x1008000 + b * 0x40000 + n * 0x10 | .bsnLeveeB b n => 0x1008008 + b * 0x40000 + n * 0x10
  | .trnQosMap b => 0x1010000 + b * 0x40000 | .trnRegCfg b => 0x1010008 + b * 0x40000
  | .trnArbSt b t => 0x1010400 + b * 0x40000 + t * 8 | .trnOtCfg b t => 0x1010800 + b * 0x40000 + t * 8
  | .trnOtCur b t => 0x1010C00 + b * 0x40000 + t * 8
  | .trnLatCfg b r => 0x1011000 + b * 0x40000 + r * 0x10 | .trnLatSt b r => 0x1011008 + b * 0x40000 + r * 0x10
  | .trnStreamCfg b e => 0x1018000 + b * 0x40000 + e * 0x10 | .trnStreamSt b e => 0x1018008 + b * 0x40000 + e * 0x10
  | .mxeSt b u => 0x1020000 + b * 0x40000 + u * 0x100 | .mxeCnt b u => 0x1020008 + b * 0x40000 + u * 0x100
  | .mxeSkip b u => 0x1020010 + b * 0x40000 + u * 0x100 | .mxePred b u => 0x1020018 + b * 0x40000 + u * 0x100
  | .mxePredMap b u => 0x1020020 + b * 0x40000 + u * 0x100
  | .vxeSt b v => 0x1030000 + b * 0x40000 + v * 0x40 | .vxeCnt b v => 0x1030008 + b * 0x40000 + v * 0x40
  | .sxeSt b x => 0x1030400 + b * 0x40000 + x * 0x40 | .sxeCnt b x => 0x1030408 + b * 0x40000 + x * 0x40
  | .flmSt b f => 0x1030500 + b * 0x40000 + f * 0x40 | .flmCnt b f => 0x1030508 + b * 0x40000 + f * 0x40

/-- Base of the register window (R23). -/
def regBase : Nat := 0x000300000000

/-- Site address of a register. -/
def Reg.addr (r : Reg) : Addr := BitVec.ofNat 48 (regBase + r.offset)

/-- The DEV block. -/
def devReg (o : Nat) : Option Reg :=
  if 0x1000 ≤ o ∧ o < 0x1000 + 9 * 0x40 then
    let r := (o - 0x1000) / 0x40
    match (o - 0x1000) % 0x40 with
    | 0x00 => some (.ringCmd r) | 0x08 => some (.ringRpl r) | 0x10 => some (.ringDb r) | 0x18 => some (.ringHead r)
    | 0x20 => some (.ringRtail r) | 0x28 => some (.ringRhead r) | 0x30 => some (.ringSt r) | 0x38 => some (.ringPwr r)
    | _ => none
  else match o with
    | 0x00 => some .devId | 0x08 => some .devSerial | 0x10 => some .devConfig0 | 0x18 => some .devConfig1
    | 0x20 => some .devBasinLive | 0x30 => some .devStartSt | 0x38 => some .devStartRes | 0x40 => some .devMgtAlert
    | _ => none

/-- The PWR and CLK block. -/
def pwrReg (cfg : SiteConfig) (o : Nat) : Option Reg :=
  if 0x400 ≤ o ∧ o < 0x400 + cfg.basins * 8 ∧ o % 8 = 0 then some (.pwrBasinSt ((o - 0x400) / 8))
  else match o with
    | 0x00 => some .pwrSt | 0x08 => some .pwrCfg | 0x10 => some .pwrEntrySt | 0x18 => some .pwrRefuser
    | 0x20 => some .pwrKeeper | 0x28 => some .pwrVreq | 0x30 => some .pwrPerf | 0x38 => some .pwrCap
    | 0x40 => some .pwrPower | 0x48 => some .pwrTherm | 0x50 => some .pwrTrickle | 0x58 => some .pwrMargin
    | 0x800 => some .clkSt | 0x808 => some .clkRootCnt | 0x810 => some .clkEventSeq
    | _ => none

/-- The SEC, CTL/CST and ERR blocks. -/
def secReg (o : Nat) : Option Reg :=
  if 0x100 ≤ o ∧ o < 0x140 ∧ o % 8 = 0 then some (.secCtxSt ((o - 0x100) / 8))
  else match o with
    | 0x00 => some .secSt | 0x08 => some .secObsCfg | 0x10 => some .secViolCnt | 0x18 => some .secViolLog
    | _ => none
def ctlReg (o : Nat) : Option Reg :=
  match o with
  | 0x000 => some .ctlRemap | 0x100 => some .cstFwSt | 0x108 => some .cstHgSt | _ => none
def errReg (o : Nat) : Option Reg :=
  match o with
  | 0x100 => some .errDecodeAddr | 0x108 => some .errDecodeSrc | 0x110 => some .errDecodeCnt
  | 0x200 => some .errHardenSt | _ => none

/-- A culvert's block. -/
def culReg (c o : Nat) : Option Reg :=
  match o with
  | 0x000 => some (.culSt c) | 0x008 => some (.culCfg c) | 0x300 => some (.culE1St c) | _ => none

/-- A siphon's block; the region table stands in SPH[0] alone (R295, R433). -/
def sphReg (s o : Nat) : Option Reg :=
  if s = 0 ∧ 0x8000 ≤ o ∧ o < 0x8400 then
    match o % 0x10 with
    | 0 => some (.sphRgnA ((o - 0x8000) / 0x10)) | 8 => some (.sphRgnB ((o - 0x8000) / 0x10)) | _ => none
  else match o with
    | 0x00 => some (.sphSt s) | 0x08 => some (.sphCfg s) | 0x10 => some (.sphRdCnt s) | 0x18 => some (.sphWrCnt s)
    | 0x20 => some (.sphIntSt s) | 0x28 => some (.sphPatrol s) | 0x30 => some (.sphLinkSt s) | 0x38 => some (.sphQst s)
    | _ => none

/-- A basin's block (R444), limited to the banks, turnouts and engines the configuration has (R433). -/
def bsnReg (cfg : SiteConfig) (b o : Nat) : Option Reg :=
  if o < 0x180 then
    match o with
    | 0x00 => some (.bsnBankCfg b) | 0x20 => some (.bsnTileCfg b) | 0x28 => some (.bsnTileSt b)
    | 0x30 => some (.bsnFmtSt b) | 0x40 => some (.bsnArbCfg b) | 0x48 => some (.bsnArbSt b)
    | 0x100 => some (.bsnEccSt b) | 0x108 => some (.bsnEccLog b) | 0x110 => some (.bsnScrubCfg b)
    | 0x118 => some (.bsnScrubLap b) | 0x120 => some (.bsnScrubSt b) | 0x128 => some (.bsnChkSt b)
    | 0x138 => some (.bsnSpareMap b) | 0x140 => some (.bsnFlipCfg b) | 0x148 => some (.bsnFlipChk b)
    | _ => none
  else if o % 8 ≠ 0 then none
  else if o < 0x1C0 then some (.bsnFlipData b ((o - 0x180) / 8))
  else if 0x800 ≤ o ∧ o < 0x800 + cfg.physBanks * 8 then some (.bsnBankCorr b ((o - 0x800) / 8))
  else if 0x2000 ≤ o ∧ o < 0x2000 + cfg.physBanks * 0x20 then
    some (.bsnRemap b ((o - 0x2000) / 0x20) ((o - 0x2000) % 0x20 / 8))
  else if 0x8000 ≤ o ∧ o < 0x8200 then
    some (if o % 0x10 = 0 then .bsnLeveeA b ((o - 0x8000) / 0x10) else .bsnLeveeB b ((o - 0x8000) / 0x10))
  else if o = 0x10000 then some (.trnQosMap b)
  else if o = 0x10008 then some (.trnRegCfg b)
  else if 0x10400 ≤ o ∧ o < 0x10400 + 47 * 8 then some (.trnArbSt b ((o - 0x10400) / 8))
  else if 0x10800 ≤ o ∧ o < 0x10800 + 47 * 8 then some (.trnOtCfg b ((o - 0x10800) / 8))
  else if 0x10C00 ≤ o ∧ o < 0x10C00 + 47 * 8 then some (.trnOtCur b ((o - 0x10C00) / 8))
  else if 0x11000 ≤ o ∧ o < 0x11100 then
    some (if o % 0x10 = 0 then .trnLatCfg b ((o - 0x11000) / 0x10) else .trnLatSt b ((o - 0x11000) / 0x10))
  else if 0x18000 ≤ o ∧ o < 0x19000 then
    some (if o % 0x10 = 0 then .trnStreamCfg b ((o - 0x18000) / 0x10) else .trnStreamSt b ((o - 0x18000) / 0x10))
  else if 0x20000 ≤ o ∧ o < 0x20000 + (cfg.activeMxe + cfg.spareMxe) * 0x100 then
    let u := (o - 0x20000) / 0x100
    match o % 0x100 with
    | 0x00 => some (.mxeSt b u) | 0x08 => some (.mxeCnt b u) | 0x10 => some (.mxeSkip b u)
    | 0x18 => some (.mxePred b u) | 0x20 => some (.mxePredMap b u) | _ => none
  else if 0x30000 ≤ o ∧ o < 0x30400 then
    match o % 0x40 with
    | 0 => some (.vxeSt b ((o - 0x30000) / 0x40)) | 8 => some (.vxeCnt b ((o - 0x30000) / 0x40)) | _ => none
  else if 0x30400 ≤ o ∧ o < 0x30500 then
    match o % 0x40 with
    | 0 => some (.sxeSt b ((o - 0x30400) / 0x40)) | 8 => some (.sxeCnt b ((o - 0x30400) / 0x40)) | _ => none
  else if 0x30500 ≤ o ∧ o < 0x30600 then
    match o % 0x40 with
    | 0 => some (.flmSt b ((o - 0x30500) / 0x40)) | 8 => some (.flmCnt b ((o - 0x30500) / 0x40)) | _ => none
  else none

/-- The register at an 8-byte-aligned offset of the register window, if any (R433). -/
def Reg.ofOffset (cfg : SiteConfig) (o : Nat) : Option Reg :=
  if o < 0x10000 then devReg o
  else if o < 0x20000 then pwrReg cfg (o - 0x10000)
  else if o < 0x30000 then secReg (o - 0x20000)
  else if o < 0x40000 then ctlReg (o - 0x30000)
  else if o < 0x50000 then errReg (o - 0x40000)
  else if 0x100000 ≤ o ∧ o < 0x140000 then culReg ((o - 0x100000) / 0x10000) (o % 0x10000)
  else if 0x200000 ≤ o ∧ o < 0x200000 + cfg.siphons * 0x10000 then sphReg ((o - 0x200000) / 0x10000) (o % 0x10000)
  else if 0x1000000 ≤ o ∧ o < 0x1000000 + cfg.basins * 0x40000 then
    bsnReg cfg ((o - 0x1000000) / 0x40000) (o % 0x40000)
  else none

/-- DEV_CONFIG0 (R30). -/
def SiteConfig.config0 (c : SiteConfig) : Word64 :=
  BitVec.ofNat 64 (c.siphons * 2 ^ 48 + c.spareMxe * 2 ^ 40 + c.activeMxe * 2 ^ 32 + c.furrows * 2 ^ 24
    + c.bankKibLog2 * 2 ^ 16 + c.checks * 2 ^ 8 + c.basins)

/-- DEV_CONFIG1 (R31). -/
def SiteConfig.config1 (c : SiteConfig) : Word64 :=
  BitVec.ofNat 64 (8 * 2 ^ 48 + c.strideLog2 * 2 ^ 40 + 4 * 2 ^ 32 + 4096 * 2 ^ 16 + 16384)

/-- Reset value of every register (R436–R444). -/
def Reg.resetValue (cfg : SiteConfig) : Reg → Word64
  | .devId => 0x000000E201000000
  | .devSerial => Config.serial
  | .devConfig0 => cfg.config0
  | .devConfig1 => cfg.config1
  | .devBasinLive => BitVec.ofNat 64 (2 ^ cfg.basins - 1)
  | .devStartSt => BitVec.ofNat 64 (8 * 2 ^ 48 + 2 ^ 43 + 180 * 2 ^ 16 + 95)
  | .ringCmd r => if r = 8 then BitVec.ofNat 64 (6 * 2 ^ 40 + cfg.spaceGranules) else 0
  | .ringRpl r => if r = 8 then BitVec.ofNat 64 (6 * 2 ^ 40 + cfg.spaceGranules + 16) else 0
  | .ringSt r => if r = 8 then 1 else 0
  | .pwrSt => 10
  | .pwrCfg => 0x0000010808002864
  | .pwrRefuser => 0xFF00000000000000
  | .pwrKeeper => 2
  | .pwrVreq => 0x000000008C908C90
  | .pwrPerf => 0x0000000000041010
  | .pwrCap => 0x026C000000000000
  | .pwrTherm => 0x0000640000000000
  | .pwrTrickle => 0x000000005F550500
  | .pwrMargin => BitVec.ofNat 64 (max 124 (Config.sramFloor % 256))
  | .pwrBasinSt _ => BitVec.ofNat 64 ((4 ^ cfg.checks - 1) / 3)
  | .secCtxSt _ => 0x000000FF00000000
  | .ctlRemap => 1
  | .culSt _ => 0x0000040400000001
  | .culCfg _ => 8
  | .sphSt _ => 0x100
  | .sphCfg _ => 0x1508
  | .sphLinkSt _ => 0x180000
  | .bsnBankCfg _ => 1
  | .bsnTileCfg _ => 0x3E8
  | .bsnArbCfg _ => 0x408
  | .bsnScrubCfg _ => 1
  | .trnQosMap _ => 0x7766554433221100
  | .trnRegCfg _ => 0x0004040A
  | .trnOtCfg _ t => if t < cfg.turnouts then 0xFFFFFFFFFFFFFFFF else 0
  | .trnOtCur _ t => if t < cfg.turnouts then 0xFFFFFFFFFFFFFFFF else 0
  | .trnStreamCfg _ _ => 0x0040000000000000
  | .mxeSt _ u =>
    if u < cfg.activeMxe then BitVec.ofNat 64 (u / 8 * 2 ^ 32 + u % 8 * 2 ^ 24) else 0x000000FFFF300000
  | _ => 0

/-- Who may write the RW fields of a register by a plain store (R434, and the owning chapters). -/
inductive Writer where
  /-- Any requester that reaches the register with W in R434. -/
  | anyone
  /-- Rosog alone, that is the control core, or the headgate under a debug unlock (R434). -/
  | rosog
  /-- No plain store reaches the register: it is read only or has a write event of its own. -/
  | nobody
  deriving DecidableEq, Repr

/-- Access of a register's fields (R7): bits a store sets, bits a store of one clears, bits that are counters (cleared
by writing zero, R435), who writes. Every other bit is RO or RSV and ignores stores. -/
structure Access where
  rw : Word64
  w1c : Word64
  counter : Word64
  writer : Writer
  deriving DecidableEq, Repr

/-- A read-only register. -/
def Access.ro : Access := ⟨0, 0, 0, .nobody⟩

/-- A register of counters. -/
def Access.counters (m : Word64) : Access := ⟨0, 0, m, .anyone⟩

/-- A configuration register only Rosog writes. -/
def Access.rosog (m : Word64) : Access := ⟨m, 0, 0, .rosog⟩

/-- The access of every register, field by field. -/
def Reg.access : Reg → Access
  | .devStartSt => .counters (maskOf 44 4)
  | .devMgtAlert => ⟨0, maskOf 0 8, 0, .anyone⟩
  | .ringDb _ => ⟨maskOf 0 32, 0, 0, .anyone⟩
  | .ringRhead _ => ⟨maskOf 0 32, 0, 0, .anyone⟩
  | .ringSt _ => .counters (maskOf 16 48)
  | .ringCmd _ => .rosog (maskOf 40 16 ||| maskOf 0 18)
  | .ringRpl _ => .rosog (maskOf 40 4 ||| maskOf 0 18)
  | .pwrCfg => .rosog (maskOf 40 1 ||| maskOf 32 4 ||| maskOf 24 5 ||| maskOf 0 20)
  | .pwrEntrySt => .counters (maskOf 16 48)
  | .pwrKeeper => .rosog (maskOf 0 1)
  | .pwrVreq => ⟨maskOf 16 16, 0, 0, .nobody⟩
  | .pwrPerf => .counters (maskOf 32 32)
  | .pwrCap => ⟨maskOf 48 16, 0, maskOf 0 32, .rosog⟩
  | .pwrPower => .counters (maskOf 16 16)
  | .pwrTherm => ⟨maskOf 40 8, 0, maskOf 0 32, .rosog⟩
  | .pwrTrickle => ⟨maskOf 8 24, 0, maskOf 32 32, .rosog⟩
  | .pwrMargin => .counters (maskOf 16 32)
  | .clkSt => .counters (maskOf 48 16)
  | .secObsCfg => ⟨maskOf 0 1, 0, 0, .nobody⟩
  | .secViolCnt => .counters (maskOf 0 32)
  | .secViolLog => ⟨0, maskOf 63 1, 0, .anyone⟩
  | .ctlRemap => ⟨maskOf 0 2, 0, 0, .nobody⟩
  | .cstFwSt => .counters (maskOf 32 32)
  | .cstHgSt => .counters (maskOf 0 64)
  | .errDecodeAddr => ⟨0, maskOf 63 1, 0, .anyone⟩
  | .errDecodeCnt => .counters (maskOf 0 32)
  | .errHardenSt => .counters (maskOf 32 32)
  | .culSt _ => .counters (maskOf 48 16 ||| maskOf 16 16)
  | .culCfg _ => .rosog (maskOf 0 7)
  | .culE1St _ => .counters (maskOf 0 64)
  | .sphCfg _ => .rosog (maskOf 8 8 ||| maskOf 0 7)
  | .sphIntSt _ => .counters (maskOf 0 64)
  | .sphPatrol _ => .counters (maskOf 0 32)
  | .sphLinkSt _ => .counters (maskOf 32 32)
  | .sphQst _ => .counters (maskOf 0 64)
  | .sphRgnA _ => .rosog (maskOf 62 2 ||| maskOf 56 4 ||| maskOf 32 20 ||| maskOf 16 13 ||| maskOf 0 13)
  | .sphRgnB _ => .rosog (maskOf 0 32)
  | .bsnBankCfg _ => .rosog (maskOf 0 1)
  | .bsnTileCfg _ => .rosog (maskOf 0 17)
  | .bsnTileSt _ => .counters (maskOf 0 64)
  | .bsnFmtSt _ => .counters (maskOf 0 64)
  | .bsnArbCfg _ => .rosog (maskOf 8 3 ||| maskOf 0 7)
  | .bsnArbSt _ => .counters (maskOf 0 64)
  | .bsnEccSt _ => .counters (maskOf 0 64)
  | .bsnEccLog _ => ⟨0, maskOf 63 1, 0, .anyone⟩
  | .bsnScrubCfg _ => .rosog (maskOf 0 1)
  | .bsnScrubLap _ => .counters (maskOf 0 32)
  | .bsnScrubSt _ => .counters (maskOf 0 64)
  | .bsnChkSt _ => .counters (maskOf 0 64)
  | .bsnSpareMap _ => .rosog (BitVec.ofNat 64 0xC0FFC0FFC0FFC0FF)
  | .bsnFlipCfg _ => ⟨maskOf 63 1 ||| maskOf 0 9, maskOf 62 1, 0, .nobody⟩
  | .bsnFlipChk _ => ⟨maskOf 0 48, 0, 0, .nobody⟩
  | .bsnFlipData _ _ => ⟨maskOf 0 64, 0, 0, .nobody⟩
  | .bsnBankCorr _ _ => .counters (maskOf 0 32)
  | .bsnRemap _ _ _ => .rosog (maskOf 63 1 ||| maskOf 0 12)
  | .bsnLeveeA _ _ => .rosog (maskOf 56 8 ||| maskOf 32 19 ||| maskOf 0 18)
  | .bsnLeveeB _ _ => .rosog (maskOf 50 14 ||| maskOf 32 14 ||| maskOf 16 12 ||| maskOf 0 12)
  | .trnQosMap _ => .rosog (BitVec.ofNat 64 0x7777777777777777)
  | .trnRegCfg _ => .rosog (maskOf 16 8 ||| maskOf 8 4 ||| maskOf 0 5)
  | .trnArbSt _ _ => .counters (maskOf 0 64)
  | .trnOtCfg _ _ => .rosog (maskOf 0 64)
  | .trnLatCfg _ _ => .rosog (maskOf 62 2 ||| maskOf 0 16)
  | .trnLatSt _ _ => .counters (maskOf 16 48)
  | .trnStreamCfg _ _ => .rosog (maskOf 50 14 ||| maskOf 32 16 ||| maskOf 24 4 ||| maskOf 0 12)
  | .trnStreamSt _ _ => .counters (maskOf 0 32)
  | .mxeCnt _ _ => .counters (maskOf 0 64)
  | .mxeSkip _ _ => .counters (maskOf 0 64)
  | .vxeCnt _ _ => .counters (maskOf 0 64)
  | .sxeCnt _ _ => .counters (maskOf 0 64)
  | .flmCnt _ _ => .counters (maskOf 0 64)
  | _ => .ro

/-- Whether a register belongs to a basin's block, and which. -/
def Reg.basin? : Reg → Option Nat
  | .bsnBankCfg b | .bsnTileCfg b | .bsnTileSt b | .bsnFmtSt b | .bsnArbCfg b | .bsnArbSt b | .bsnEccSt b
  | .bsnEccLog b | .bsnScrubCfg b | .bsnScrubLap b | .bsnScrubSt b | .bsnChkSt b | .bsnSpareMap b | .bsnFlipCfg b
  | .bsnFlipChk b | .bsnFlipData b _ | .bsnBankCorr b _ | .bsnRemap b _ _ | .bsnLeveeA b _ | .bsnLeveeB b _
  | .trnQosMap b | .trnRegCfg b | .trnArbSt b _ | .trnOtCfg b _ | .trnOtCur b _ | .trnLatCfg b _ | .trnLatSt b _
  | .trnStreamCfg b _ | .trnStreamSt b _ | .mxeSt b _ | .mxeCnt b _ | .mxeSkip b _ | .mxePred b _ | .mxePredMap b _
  | .vxeSt b _ | .vxeCnt b _ | .sxeSt b _ | .sxeCnt b _ | .flmSt b _ | .flmCnt b _ => some b
  | _ => none

/-- The register blocks of R434. -/
inductive Block where
  | dev | ring (r : Nat) | pwr | sec | err | rest
  deriving DecidableEq, Repr

/-- The block of a register (R432, R434). -/
def Reg.block : Reg → Block
  | .devId | .devSerial | .devConfig0 | .devConfig1 | .devBasinLive | .devStartSt | .devStartRes | .devMgtAlert => .dev
  | .ringCmd r | .ringRpl r | .ringDb r | .ringHead r | .ringRtail r | .ringRhead r | .ringSt r | .ringPwr r => .ring r
  | .pwrSt | .pwrCfg | .pwrEntrySt | .pwrRefuser | .pwrKeeper | .pwrVreq | .pwrPerf | .pwrCap | .pwrPower | .pwrTherm
  | .pwrTrickle | .pwrMargin | .pwrBasinSt _ | .clkSt | .clkRootCnt | .clkEventSeq => .pwr
  | .secSt | .secObsCfg | .secViolCnt | .secViolLog | .secCtxSt _ => .sec
  | .errDecodeAddr | .errDecodeSrc | .errDecodeCnt | .errHardenSt => .err
  | _ => .rest

end Sys2Proof.Machine
end

