-- ==== Sys2Proof/Machine/Ops.lean ====
section
/-! DEFINITION. Named operations over registers, logs, bank words, descriptors, gauges and levees: every meaning goes
through these. -/

namespace Sys2Proof

/-- SOURCE of a requester in ERR_DECODE_SRC and in SEC_VIOL_LOG. -/
def Requester.decodeSource : Requester → Nat
  | .iface _ => 0x40 | .core | .coreLocal | .coreFetch | .coreAtomic => 0x41 | .headgate => 0x42 | .mgt => 0x40
def Requester.violSource : Requester → Nat
  | .iface n => n | .core | .coreLocal | .coreFetch | .coreAtomic => 15 | .headgate => 9 | .mgt => 15

end Sys2Proof

namespace Sys2Proof.Machine

/-- Answer a next state. -/
def ok (s : State) : Host.Outcome State Fault Refusal := .next s

/-! ### Registers -/

/-- The stored value of a register. -/
def State.reg (s : State) (r : Reg) : Word64 := kget s.regs (r.resetValue s.cfg) r

/-- A register given a value. -/
def State.putReg (s : State) (r : Reg) (v : Word64) : State :=
  { s with regs := kset s.regs (r.resetValue s.cfg) r v }

/-- A field of a register, and a register with a field replaced. -/
def State.rfld (s : State) (r : Reg) (lo n : Nat) : Nat := fld (s.reg r) lo n
def State.putFld (s : State) (r : Reg) (lo n v : Nat) : State := s.putReg r (setFld (s.reg r) lo n v)

/-- A hardware count in a saturating field: also noted for a software write of the same cycle (R7, R435). -/
def State.bump (s : State) (r : Reg) (lo n : Nat) (by_ : Nat := 1) : State :=
  if by_ = 0 then s
  else { s.putFld r lo n (satAdd n (s.rfld r lo n) by_) with fresh := .bump r lo n by_ :: s.fresh }

/-- A counter that wraps. -/
def State.bumpWrap (s : State) (r : Reg) (lo n : Nat) (by_ : Nat := 1) : State :=
  s.putFld r lo n (s.rfld r lo n + by_)

/-- Hardware sets W1C bits. -/
def State.setW1c (s : State) (r : Reg) (m : Word64) : State :=
  { s.putReg r (s.reg r ||| m) with fresh := .setBits r m :: s.fresh }

/-- Root cycles (R314), which measure every limit stated in time (R312): 6,000 to the microsecond (R311). -/
def State.now (s : State) : Nat := (s.reg .clkRootCnt).toNat
def rootPerUs : Nat := 6000
def rootPerMs : Nat := 6000000
def rootPerS : Nat := 6000000000

/-- Site state codes (R337). -/
def stFlow : Nat := 0
def stSlack : Nat := 1
def stPond : Nat := 2
def stTrickle : Nat := 3
def stFallow : Nat := 5
def stEntering : Nat := 6
def stWaking : Nat := 7
def stScrub : Nat := 8
def stDetaching : Nat := 9
def stAttaching : Nat := 10

/-- PWR_ST.STATE, and a change of it. -/
def State.site (s : State) : Nat := s.rfld .pwrSt 0 4
def State.setSite (s : State) (v : Nat) : State := s.putFld .pwrSt 0 4 v

/-- The site logs an event (R314): a sequence number that passes a multiple of 2^16 is stored in the cistern. -/
def State.logEvent (s : State) : State :=
  let n := s.reg .clkEventSeq + 1
  let s := s.putReg .clkEventSeq n
  if n.toNat % 2 ^ 16 = 0 then { s with cistern := { s.cistern with eventSeq := n.toNat } } else s

/-- CST_FW_ST.STAGE (R409) and its change: the register is kept in the cistern. -/
def State.stage (s : State) : Nat := s.rfld .cstFwSt 28 4
def State.setStage (s : State) (v : Nat) : State := s.putFld .cstFwSt 28 4 v

/-- The window of a live handover is open (R403). -/
def State.windowOpen (s : State) : Bool := match s.handover with | some h => decide (h.step ≥ 3) | none => false

/-- TEST_EN and DEBUG_UNLOCKED (R372, R389). -/
def State.testEn (s : State) : Bool := bit (s.reg .secSt) 7
def State.unlocked (s : State) : Bool := bit (s.reg .secSt) 6

/-- The next free value of a purpose (Config.free), and the counter advanced past it. -/
def State.freeVal (s : State) (purpose : Nat) : Word64 := Config.free purpose s.freeUses
def State.useFree (s : State) : State := { s with freeUses := s.freeUses + 1 }

/-- A basin is in service (R32). -/
def State.live (s : State) (b : Nat) : Bool := bit (s.reg .devBasinLive) b
def State.liveBasins (s : State) : List Nat := (List.range s.cfg.basins).filter s.live

/-! ### Logs of refused accesses -/

/-- A decode error (R24, R27): `source` as in ERR_DECODE_SRC. -/
def State.decodeError (s : State) (source : Nat) (a : Nat) (write : Bool) : State :=
  let s' := s.bump .errDecodeCnt 0 32
  if bit (s.reg .errDecodeAddr) 63 then s'
  else
    (s'.putReg .errDecodeSrc (BitVec.ofNat 64 (write.toNat * 2 ^ 32 + source * 2 ^ 16 + 0xFF * 2 ^ 8))).setW1c
      .errDecodeAddr (BitVec.ofNat 64 (2 ^ 63 + a % 2 ^ 48))
    |> fun t => t.putFld .errDecodeAddr 0 48 a

/-- An access violation (R362, R389): SOURCE is the interface, 9 the headgate, 0xF any other. -/
def State.violation (s : State) (source a : Nat) (write : Bool) : State :=
  let s' := s.bump .secViolCnt 0 32
  if bit (s.reg .secViolLog) 63 then s'
  else
    (s'.putReg .secViolLog (BitVec.ofNat 64 (source * 2 ^ 56 + write.toNat * 2 ^ 55 + a % 2 ^ 48))).setW1c .secViolLog
      (BitVec.ofNat 64 (2 ^ 63))

/-! ### Events for the fault history -/

/-- Post an event: a basin's queue holds 64 and counts what it loses (R250); a site-wide unit's queue is Rosog's own. -/
def State.post (s : State) (e : Event) : State :=
  if (s.events.filter fun x => x.basin == e.basin).length ≥ 64 ∧ e.basin < s.cfg.basins then
    { s with lostEvents := nset s.lostEvents 0 e.basin (nget s.lostEvents 0 e.basin + 1) }
  else { s with events := s.events ++ [e] }

/-- The bit, cell or lane of an event that names none. -/
def noBit : Nat := 0xFFFF

/-- An event by unit and class, with nothing further. -/
def Event.of (kind : UnitKind) (b u cls : Nat) (v : Verdict) : Event :=
  ⟨kind, b, u, cls, v, 0, noBit, 0, 0xFF, false, []⟩

/-! ### Bank words -/

/-- Words of a physical bank with its four spare words behind its rows (R255). -/
def SiteConfig.bankWords (c : SiteConfig) : Nat := c.rows + 4

/-- Number of a physical word. -/
def SiteConfig.wordNo (c : SiteConfig) (b pb row : Nat) : Nat := (b * c.physBanks + pb) * c.bankWords + row

/-- Bank and row of a word number of a basin (R35). -/
def bankOf (c : SiteConfig) (hash : Bool) (w : Nat) : Nat × Nat :=
  let k := w % 16
  let g := w / 16
  let chk := g % c.checks
  let r := g / c.checks
  if hash then
    let k' := Nat.xor k (r % 16)
    let chk' := if c.checks = 12 then (chk + r / 16 % 16) % 12 else Nat.xor chk (r / 16 % c.checks)
    (chk' * 16 + k', r)
  else (chk * 16 + k, r)

/-- STATE and LOGICAL of a spare bank (R257). -/
def State.spareState (s : State) (b i : Nat) : Nat := s.rfld (.bsnSpareMap b) (16 * i + 14) 2
def State.spareLogical (s : State) (b i : Nat) : Nat := s.rfld (.bsnSpareMap b) (16 * i) 8

/-- The physical bank that serves a logical bank: an active spare, or the bank itself (R256). -/
def State.physBank (s : State) (b bank : Nat) : Nat :=
  match (List.range 4).find? fun i => s.spareState b i = 2 ∧ s.spareLogical b i = bank with
  | some i => s.cfg.banks + i
  | none => bank

/-- The spare a logical bank is being copied to (R256). -/
def State.copyingTo (s : State) (b bank : Nat) : Option Nat :=
  ((List.range 4).find? fun i => s.spareState b i = 1 ∧ s.spareLogical b i = bank).map (s.cfg.banks + ·)

/-- The row that holds a row's word: its spare word once its remap has been copied (R255). -/
def State.physRow (s : State) (b pb row : Nat) : Nat :=
  match s.remapped.find? fun x => x.1 = b && x.2.1 = pb && decide (x.2.2 < 4) && bit (s.reg (.bsnRemap b pb x.2.2)) 63
      && s.rfld (.bsnRemap b pb x.2.2) 0 12 = row with
  | some x => s.cfg.rows + x.2.2
  | none => row

/-- Bytes of a physical word. -/
def State.rawWord (s : State) (n : Nat) : List Byte := (List.range 64).map fun i => nget s.mem 0 (n * 64 + i)

/-- Deviation of a physical word's stored check bits: the syndrome of R231. -/
def State.syndrome (s : State) (n : Nat) : BitVec 48 := nget s.memChk 0 n

/-- Check bits of 512 data bits (R230). -/
def bankCode (d : BitVec 512) : BitVec 48 :=
  let rows := (List.range 16).map fun r => d.extractLsb' (32 * r) 32
  let col := rows.foldl (· ^^^ ·) (0 : BitVec 32)
  let row := (List.range 16).foldl (fun (acc : BitVec 16) r =>
    setBit acc r ((bitsSet (d.extractLsb' (32 * r) 32) 32).length % 2 = 1)) 0
  (col ++ row : BitVec 48)

/-- What a bank finds in a word it reads (R231). -/
inductive Finding where
  | clean
  /-- The bit that was corrected: data bits from 0, check bits from 512. -/
  | corrected (bit : Nat)
  /-- The numbers of rows and columns that failed. -/
  | bad (rows cols : Nat)
  deriving DecidableEq, Repr

/-- R231. -/
def findingOf (d : BitVec 48) : Finding :=
  let rs := bitsSet (d.extractLsb' 0 16) 16
  let cs := bitsSet (d.extractLsb' 16 32) 32
  match rs, cs with
  | [], [] => .clean
  | [r], [c] => .corrected (32 * r + c)
  | [r], [] => .corrected (512 + r)
  | [], [c] => .corrected (528 + c)
  | _, _ => .bad rs.length cs.length

/-- Bytes with one bit inverted. -/
def flipBit : List Byte → Nat → List Byte
  | [], _ => []
  | x :: xs, i => if i < 8 then (x ^^^ BitVec.ofNat 8 (2 ^ i)) :: xs else x :: flipBit xs (i - 8)

/-- The reader of a word, as ECC_LOG and the spec name it (R235, R237). -/
structure Reader where
  kind : Nat
  turnout : Nat
  deriving DecidableEq, Repr

/-- The turnout of the ditch rider (R156). -/
def ditchTurnout : Nat := 24

def Reader.scrub : Reader := ⟨4, 0xFF⟩
def Reader.copier : Reader := ⟨5, 0xFF⟩

/-- Row of an ECC_LOG entry, of COLS_FAILED and ROWS_FAILED. -/
def State.eccLog (s : State) (b kind bank row r c turnout : Nat) : State :=
  if bit (s.reg (.bsnEccLog b)) 63 then s
  else (s.putReg (.bsnEccLog b) (BitVec.ofNat 64 (kind * 2 ^ 60 + bank * 2 ^ 51 + row % 2 ^ 14 * 2 ^ 37
    + c % 64 * 2 ^ 31 + r % 32 * 2 ^ 26 + turnout * 2 ^ 8))).setW1c (.bsnEccLog b) (BitVec.ofNat 64 (2 ^ 63))

/-- Event classes of R288 for bank findings. -/
def clsCorrected : Nat := 0x01
def clsUncorrectable : Nat := 0x02
def clsLine : Nat := 0x03
def clsCheckFail : Nat := 0x04
def clsRestored : Nat := 0x05
def clsMxe : Nat := 0x10
def clsVxe : Nat := 0x11
def clsScreen : Nat := 0x12
def clsCarried : Nat := 0x13
def clsTest : Nat := 0x20
def clsDeferred : Nat := 0x21
def clsForced : Nat := 0x22
def clsRepair : Nat := 0x30
def clsRetired : Nat := 0x31
def clsBasin : Nat := 0x32
def clsAudit : Nat := 0x40
def clsSiphon : Nat := 0x50
def clsCulvert : Nat := 0x51
def clsDissent : Nat := 0x60
def clsInternal : Nat := 0x7F

/-- The scrub lap of a basin, named by the start it is of and the cycle it began in. -/
def State.lapOf (s : State) (b : Nat) : Nat :=
  s.cistern.starts * 2 ^ 64 + ((s.scrubbers.find? fun x => x.basin = b).map (·.lapStart)).getD 0

/-- Count what a read found (R232, R235, R237): `row` is the row addressed. -/
def State.noteFinding (s : State) (b pb row : Nat) (rd : Reader) (f : Finding) : State :=
  match f with
  | .clean => s
  | .corrected i =>
    let t := (s.bump (.bsnEccSt b) 32 32).bump (.bsnBankCorr b pb) 0 32
    (t.putFld (.bsnBankCorr b pb) 52 12 row).putFld (.bsnBankCorr b pb) 42 10 i
  | .bad r c =>
    ((s.bump (.bsnEccSt b) 16 16).eccLog b rd.kind pb row r c rd.turnout).post
      { Event.of .bank b pb clsUncorrectable .none with
        loc := row, lap := s.lapOf b, failed := rd.kind = 1 || rd.kind = 2 }

/-- Read a row of a physical bank: what the reader gets, whether it was uncorrectable, and the counts. -/
def State.readPhys (s : State) (b pb row : Nat) (rd : Reader) : State × List Byte × Bool :=
  let n := s.cfg.wordNo b pb (s.physRow b pb row)
  let f := findingOf (s.syndrome n)
  let d := match f with
    | .corrected i => if i < 512 then flipBit (s.rawWord n) i else s.rawWord n
    | _ => s.rawWord n
  (s.noteFinding b pb row rd f, d, match f with | .bad _ _ => true | _ => false)

/-- Bank and row of a basin's word under its HASH_EN. -/
def State.bankRow (s : State) (b w : Nat) : Nat × Nat := bankOf s.cfg (bit (s.reg (.bsnBankCfg b)) 0) w

/-- Read word `w` of a basin. -/
def State.readWord (s : State) (b w : Nat) (rd : Reader) : State × List Byte × Bool :=
  let br := s.bankRow b w
  s.readPhys b (s.physBank b br.1) br.2 rd

/-- Store bytes at consecutive memory keys. -/
def putBytes (m : List Host.Cell) (k : Nat) : List Byte → List Host.Cell
  | [] => m
  | x :: xs => putBytes (nset m 0 k x) (k + 1) xs

/-- The data mask of the flip registers (R252). -/
def State.flipMask (s : State) (b : Nat) : BitVec 512 :=
  BitVec.ofNat 512 ((List.range 8).foldl (fun a i => a + (s.reg (.bsnFlipData b i)).toNat * 2 ^ (64 * i)) 0)

/-- Store 64 bytes and a check-bit deviation in a physical word, through the flip mask when it is armed for the bank
(R252). -/
def State.storePhys (s : State) (b pb prow : Nat) (d : List Byte) (dev : BitVec 48) : State :=
  let n := s.cfg.wordNo b pb prow
  let cfgv := s.reg (.bsnFlipCfg b)
  if bit cfgv 63 ∧ fld cfgv 0 9 = pb then
    let m := s.flipMask b
    let d' := (List.range 64).map fun i => d.getD i 0 ^^^ m.extractLsb' (8 * i) 8
    let c := (s.reg (.bsnFlipChk b)).extractLsb' 0 48
    let s := { s with mem := putBytes s.mem (n * 64) d', memChk := nset s.memChk 0 n (dev ^^^ bankCode m ^^^ c) }
    let s := (List.range 8).foldl (fun (t : State) i => t.putReg (.bsnFlipData b i) 0) (s.putReg (.bsnFlipChk b) 0)
    (s.putFld (.bsnFlipCfg b) 63 1 0).setW1c (.bsnFlipCfg b) (maskOf 62 1)
  else { s with mem := putBytes s.mem (n * 64) d, memChk := nset s.memChk 0 n dev }

/-- Write a row of a logical bank: at the bank that serves it and, while it is copied, at the spare too (R256). -/
def State.storeRow (s : State) (b bank row : Nat) (d : List Byte) (dev : BitVec 48) : State :=
  let pb := s.physBank b bank
  let s' := s.storePhys b pb (s.physRow b pb row) d dev
  match s.copyingTo b bank with
  | some sp =>
    let s' := s'.storePhys b sp (s'.physRow b sp row) d dev
    -- the copier's write of the row is dropped
    { s' with spareCopies := s'.spareCopies.map fun (c : SpareCopy) =>
        if c.basin = b ∧ s'.cfg.banks + c.spare = sp then { c with due := c.due.filter (·.1 ≠ row) } else c }
  | none => s'

/-- The poison of R234. -/
def poison : BitVec 48 := 0x000000030003

/-- Write a whole word of a basin. -/
def State.writeWord (s : State) (b w : Nat) (d : List Byte) : State :=
  let br := s.bankRow b w
  s.storeRow b br.1 br.2 d 0

/-- Write bytes `bs` from byte `o` of word `w`: a whole word directly, part of one as the read-modify-write of R234. -/
def State.writePart (s : State) (b w o : Nat) (bs : List Byte) (rd : Reader) : State :=
  if o = 0 ∧ bs.length = 64 then s.writeWord b w bs
  else
    let (s, old, bad) := s.readWord b w rd
    let br := s.bankRow b w
    let d := old.take o ++ bs ++ old.drop (o + bs.length)
    let s := s.storeRow b br.1 br.2 d (if bad then poison else 0)
    if bad then s.bump (.bsnEccSt b) 0 16 else s

/-- Read `len` bytes of a basin from byte offset `off`: the bytes, and whether any word was uncorrectable. -/
def State.readRange (s : State) (b off len : Nat) (rd : Reader) : State × List Byte × Bool :=
  let w0 := off / 64
  let n := cdiv (off % 64 + len) 64
  let (s, bs, bad) := (List.range n).foldl (fun (a : State × List Byte × Bool) i =>
    let (s, bs, bad) := a
    let (s, d, x) := s.readWord b (w0 + i) rd
    (s, bs ++ d, bad || x)) (s, [], false)
  (s, (bs.drop (off % 64)).take len, bad)

/-- Write whole words from word number `w`, the last padded with zero bytes (R234). -/
def State.writeWords (s : State) (b w : Nat) (bs : List Byte) : State :=
  (List.range (cdiv bs.length 64)).foldl (fun (s : State) i =>
    let d := (bs.drop (64 * i)).take 64
    s.writeWord b (w + i) (d ++ List.replicate (64 - d.length) 0)) s

/-- Write bytes at any offset of a basin, word by word. -/
def State.writeRange (s : State) (b off : Nat) (bs : List Byte) (rd : Reader) : State :=
  let o := off % 64
  let n := cdiv (o + bs.length) 64
  (List.range n).foldl (fun (s : State) i =>
    let lo := if i = 0 then 0 else 64 * i - o
    let hi := min bs.length (64 * (i + 1) - o)
    s.writePart b (off / 64 + i) (if i = 0 then o else 0) ((bs.take hi).drop lo) rd) s

/-- The word numbers of basin `b` stored at a physical row of physical bank `pb`. -/
def State.wordsAt (s : State) (b pb prow : Nat) : List Nat :=
  let banks := (List.range s.cfg.banks).filter fun k => s.physBank b k = pb || s.copyingTo b k = some pb
  let row := if prow < s.cfg.rows then prow else s.rfld (.bsnRemap b pb (prow - s.cfg.rows)) 0 12
  if s.physRow b pb row = prow then
    (List.range (16 * s.cfg.checks)).filterMap fun i =>
      let w := row * s.cfg.checks * 16 + i
      let br := s.bankRow b w
      if banks.contains br.1 && br.2 == row then some w else none
  else []

/-- Words below `n` that lie in logical bank `k`: each row of a basin has one word in every bank. -/
def SiteConfig.bankTurn (c : SiteConfig) (hash : Bool) (k n : Nat) : Nat :=
  n / c.banks + ((List.range (n % c.banks)).any fun i => (bankOf c hash (n / c.banks * c.banks + i)).1 = k).toNat

/-- The turn in which a fill of areas writes word `w`: the words of the areas that lie before it in its bank (R168). -/
def SiteConfig.fillTurn (c : SiteConfig) (hash : Bool) (areas : List (Nat × Nat)) (w : Nat) : Nat :=
  let k := (bankOf c hash w).1
  (areas.map fun a => c.bankTurn hash k (max a.1 (min w a.2)) - c.bankTurn hash k a.1).foldl (· + ·) 0

/-- A bank-side fill of areas is commanded (R168): from two cycles on the write sides of the basin are reserved for `n` cycles. -/
def State.startFill (s : State) (b : Nat) (areas : List (Nat × Nat)) (n : Nat) : State :=
  { s with fillRes := ((List.range s.cfg.checks).map fun c => ⟨b, c, s.cycle + 2, s.cycle + 2 + n, areas, 0⟩) ++ s.fillRes }

/-- Zero the words of basin `b` with property `p`. The first beat in a bank that a flip mask is armed for is changed by it (R252). -/
def State.zeroWhere (s : State) (b : Nat) (p : Nat → Bool) : State :=
  let per := s.cfg.physBanks * s.cfg.bankWords
  let hit := fun n => n / per == b && (s.wordsAt b (n % per / s.cfg.bankWords) (n % s.cfg.bankWords)).any p
  let s := { s with
    mem := s.mem.filter fun c => !hit (c.1 / 64), memChk := s.memChk.filter fun c => !hit c.1
    spareCopies := s.spareCopies.map fun (c : SpareCopy) =>
      if c.basin = b then { c with due := c.due.filter fun x => !hit (s.cfg.wordNo b c.old (s.physRow b c.old x.1)) } else c }
  if bit (s.reg (.bsnFlipCfg b)) 63 then
    let k := s.rfld (.bsnFlipCfg b) 0 9
    match (List.range s.cfg.bankWords).findSome? fun r => (s.wordsAt b k r).find? p with
    | some w => s.writeWord b w (List.replicate 64 0)
    | none => s
  else s

/-- Zero words [w0, w1) of basin `b`. -/
def State.zeroWords (s : State) (b w0 w1 : Nat) : State := s.zeroWhere b fun w => decide (w0 ≤ w ∧ w < w1)

/-- The word a fill writes to a bank in its present turn. -/
def State.fillsWord (s : State) (f : FillRun) (w : Nat) : Bool :=
  (f.areas.any fun a => decide (a.1 ≤ w ∧ w < a.2)) && (s.bankRow f.basin w).1 / 16 = f.check
    && s.cfg.fillTurn (bit (s.reg (.bsnBankCfg f.basin)) 0) f.areas w = f.turn

/-- A fill has its write sides in the present cycle: reserved, and its check not frozen (R168, R169). -/
def State.fillActs (s : State) (f : FillRun) : Bool :=
  decide (f.lo ≤ s.cycle ∧ s.cycle < f.hi) && !s.frozenAt.contains (f.basin, f.check, s.cycle)

/-- The fills of the present cycle (R168): each writes its row of zeros and goes on to the next. -/
def State.fillRows (s : State) : State :=
  let t := (s.fillRes.filter s.fillActs).foldl (fun (t : State) f => t.zeroWhere f.basin (s.fillsWord f)) s
  { t with fillRes := t.fillRes.map fun (f : FillRun) => if s.fillActs f then { f with turn := f.turn + 1 } else f }

/-! ### Descriptors -/

/-- Key of descriptor `d` of basin `b`. -/
def dkey (b d : Nat) : Nat := b * 16384 + d

/-- A stored word of 512 bits as its code corrects it (R231, R236). -/
def correctWord (v : BitVec 512) (chk : BitVec 48) : BitVec 512 :=
  match findingOf chk with
  | .corrected i => if i < 512 then v ^^^ BitVec.ofNat 512 (2 ^ i) else v
  | _ => v

/-- The check bits' deviation after a write into part of a word: fresh, but poisoned where the word was uncorrectable
(R234). -/
def afterPart (m : List (Nat × BitVec 48)) (k : Nat) : List (Nat × BitVec 48) :=
  match findingOf (nget m 0 k) with | .corrected _ => nset m 0 k 0 | _ => m

/-- The descriptor SRAM or the gauge array of a basin has an access (R249). -/
def markSram (l : List Nat) (b : Nat) : List Nat := if l.contains b then l else b :: l

/-- A descriptor (R37), as its code gives it (R236). -/
def State.descOf (s : State) (b d : Nat) : BitVec 512 := correctWord (nget s.desc 0 (dkey b d)) (nget s.descChk 0 (dkey b d))
def State.putDesc (s : State) (b d : Nat) (v : BitVec 512) : State :=
  { s with desc := nset s.desc 0 (dkey b d) v, descChk := afterPart s.descChk (dkey b d), sram := markSram s.sram b }

/-- The descriptor's fields (R37), by word and bits. -/
def dExtentBase (v : BitVec 512) : Nat := fld v 0 18
def dExtentLen (v : BitVec 512) : Nat := fld v 18 6
def dPayloadLen (v : BitVec 512) : Nat := fld v 24 13
def dFormat (v : BitVec 512) : Nat := fld v 40 8
def dNmPair (v : BitVec 512) : Nat := fld v 48 4
def dRows (v : BitVec 512) : Nat := fld v 64 9
def dCols (v : BitVec 512) : Nat := fld v 80 13
def dCtx (v : BitVec 512) : Nat := fld v 96 4
def dOwner (v : BitVec 512) : BitVec 16 := v.extractLsb' 104 16
def dOpen (v : BitVec 512) : Bool := bit v 120
def dBroken (v : BitVec 512) : Bool := bit v 121
def dRaw (v : BitVec 512) : Bool := bit v 122
def dBound (v : BitVec 512) : Bool := bit v 123
def dZmapValid (v : BitVec 512) : Bool := bit v 124
def dStale (v : BitVec 512) : Bool := bit v 125
def dCheck (v : BitVec 512) : Word64 := v.extractLsb' 128 64
def dZmap (v : BitVec 512) : Word64 := v.extractLsb' 192 64
def dGen (v : BitVec 512) : BitVec 32 := v.extractLsb' 256 32
def dClip (v : BitVec 512) : Nat := fld v 288 16
def dMaxMag (v : BitVec 512) : Nat := fld v 304 16
def dStream (v : BitVec 512) : Nat := fld v 320 12
def dReaders (v : BitVec 512) : Nat := fld v 336 8
def dWriteWait (v : BitVec 512) : Bool := bit v 344
def dShadow (v : BitVec 512) : Nat := fld v 384 29
def dShadowValid (v : BitVec 512) : Bool := bit v 447

/-- GENERATION one higher (R37). -/
def dNextGen (v : BitVec 512) : BitVec 512 := setFld v 256 32 (fld v 256 32 + 1)

/-- Reserved bits of a descriptor (R37). -/
def dReservedClear (v : BitVec 512) : Bool :=
  fld v 52 12 = 0 ∧ fld v 37 3 = 0 ∧ fld v 126 2 = 0 ∧ fld v 100 4 = 0 ∧ fld v 93 3 = 0 ∧ fld v 73 7 = 0
    ∧ fld v 345 39 = 0 ∧ fld v 332 4 = 0 ∧ fld v 413 34 = 0 ∧ fld v 448 64 = 0

/-- The syndrome of a descriptor's stored word, and whether it is uncorrectable (R236). -/
def State.descBad (s : State) (b d : Nat) : Bool :=
  match findingOf (nget s.descChk 0 (dkey b d)) with | .bad _ _ => true | _ => false

/-- A descriptor as read through its code: a correctable error is corrected and counted (R236). -/
def State.readDesc (s : State) (b d : Nat) : State × BitVec 512 :=
  let t := { s with sram := markSram s.sram b }
  (match findingOf (nget s.descChk 0 (dkey b d)) with | .corrected _ => t.bump (.bsnEccSt b) 32 32 | _ => t, s.descOf b d)

/-- Count and log an uncorrectable descriptor (R235, R236). `ends` says that a packet ends with `CHECK_FAIL` for it. -/
def State.noteBadDesc (s : State) (b d turnout : Nat) (ends : Bool := false) : State :=
  match findingOf (nget s.descChk 0 (dkey b d)) with
  | .bad r c => ((s.bump (.bsnEccSt b) 16 16).eccLog b 6 0x1FF d r c turnout).post
      { Event.of .descLine b d clsLine .none with loc := d, lap := s.lapOf b, failed := ends }
  | _ => s

/-! ### Gauges -/

/-- Key of gauge `g` of basin `b`. -/
def gkey (b g : Nat) : Nat := b * 4096 + g

/-- Key of the line of gauges that holds gauge `g`, and what its code finds (R236). -/
def lineKey (b g : Nat) : Nat := b * 512 + g / 8
def State.lineFinding (s : State) (b g : Nat) : Finding := findingOf (nget s.gaugeChk 0 (lineKey b g))

/-- What a read of a gauge line finds is counted, logged and posted (R235, R236). -/
def State.noteLine (s : State) (b j turnout : Nat) : State :=
  let s := { s with sram := markSram s.sram b }
  match s.lineFinding b (j * 8) with
  | .clean => s
  | .corrected _ => s.bump (.bsnEccSt b) 32 32
  | .bad r c => ((s.bump (.bsnEccSt b) 16 16).eccLog b 7 0x1FE j r c turnout).post
      { Event.of .gaugeLine b j clsLine .none with loc := j, lap := s.lapOf b }

/-- A field of `n` bits at bit `lo` of gauge `g`'s word as its line's code corrects it (R231, R236). -/
def State.gaugeField (s : State) (b g lo n v : Nat) : Nat :=
  match s.lineFinding b g with
  | .corrected i => if i / 64 = g % 8 ∧ lo ≤ i % 64 ∧ i % 64 < lo + n then Nat.xor v (2 ^ (i % 64 - lo)) else v
  | _ => v

/-- COUNT and CTX of a gauge (R52). The corrected value of a field is written back with the line whenever a gauge of the line
is written. -/
def State.count (s : State) (b g : Nat) : BitVec 32 :=
  BitVec.ofNat 32 (s.gaugeField b g 0 32 (nget s.gauge 0 (gkey b g)).toNat)
def State.gctx (s : State) (b g : Nat) : Nat := s.gaugeField b g 32 4 (nget s.gaugeCtx 0 (gkey b g))

/-- The bit a line's code corrects goes right in the stored line, with fresh check bits. -/
def State.mendLine (s : State) (b g : Nat) : State :=
  let bit := match s.lineFinding b g with | .corrected i => some i | _ => none
  -- a gauge's bit; a bit of the check bits themselves is mended with them
  let h := bit.filter (· < 512) |>.map fun i => g / 8 * 8 + i / 64
  { s with
    gauge := match h with | some h => nset s.gauge 0 (gkey b h) (s.count b h) | none => s.gauge
    gaugeCtx := match h with | some h => nset s.gaugeCtx 0 (gkey b h) (s.gctx b h) | none => s.gaugeCtx
    gaugeChk := if bit.isSome then nset s.gaugeChk 0 (lineKey b g) 0 else s.gaugeChk }

def State.putCount (s : State) (b g : Nat) (v : BitVec 32) : State :=
  let s := s.mendLine b g
  { s with gauge := nset s.gauge 0 (gkey b g) v, sram := markSram s.sram b }
def State.putGctx (s : State) (b g c : Nat) : State :=
  let s := s.mendLine b g
  { s with gaugeCtx := nset s.gaugeCtx 0 (gkey b g) c, sram := markSram s.sram b }

/-- WAITERS (R52). -/
def State.waiters (s : State) (b g : Nat) : Nat :=
  min 255 (s.waits.filter fun w => w.basin = b ∧ w.gauge = g).length

/-- A gauge has reached a target (R54). -/
def reached (count target : BitVec 32) : Bool := (count - target).toNat < 2 ^ 31

/-! ### Levees -/

/-- A levee entry of a basin (R364): kind, context, base, length, and for a context region its allotments. -/
structure Levee where
  kind : Nat
  ctx : Nat
  base : Nat
  len : Nat
  descBase : Nat
  descCount : Nat
  gaugeBase : Nat
  gaugeCount : Nat
  deriving DecidableEq, Repr

/-- The valid entries of a basin's levee. -/
def State.levees (s : State) (b : Nat) : List Levee :=
  (List.range 32).filterMap fun n =>
    let a := s.reg (.bsnLeveeA b n)
    let z := s.reg (.bsnLeveeB b n)
    if bit a 63 then
      some ⟨fld a 60 3, fld a 56 4, fld a 0 18, fld a 32 19, fld z 50 14, fld z 32 14, fld z 16 12, fld z 0 12⟩
    else none

/-- Ranges (base, length) cover every point of [lo, hi). -/
def covered (rs : List (Nat × Nat)) : Nat → Nat → Nat → Bool
  | 0, lo, hi => decide (hi ≤ lo)
  | f + 1, lo, hi =>
    if hi ≤ lo then true
    else match rs.find? fun r => r.1 ≤ lo ∧ lo < r.1 + r.2 with
      | some r => covered rs f (r.1 + r.2) hi
      | none => false

/-- Granules [lo, hi) of basin `b` lie in levee regions of context `c`. -/
def State.inLevee (s : State) (c b lo hi : Nat) : Bool :=
  covered (((s.levees b).filter fun l => l.ctx = c ∧ l.kind ≠ 2).map fun l => (l.base, l.len)) 33 lo hi

/-- Bytes [off, off + len) of basin `b` lie in levee regions of context `c`. -/
def State.bytesInLevee (s : State) (c b off len : Nat) : Bool :=
  s.inLevee c b (off / 256) (cdiv (off + len) 256)

/-- Context `c` has a descriptor, a gauge, in its allotment of basin `b` (R363, R365). -/
def State.descAllotted (s : State) (c b d : Nat) : Bool :=
  (s.levees b).any fun l => l.kind = 0 ∧ l.ctx = c ∧ l.descBase ≤ d ∧ d < l.descBase + l.descCount
def State.gaugeAllotted (s : State) (c b g : Nat) : Bool :=
  (s.levees b).any fun l => l.kind = 0 ∧ l.ctx = c ∧ l.gaugeBase ≤ g ∧ g < l.gaugeBase + l.gaugeCount

/-! ### Contexts, rings, culverts, siphons by number -/

/-- A context's record. -/
def State.ctx (s : State) (c : Nat) : CtxRec := kget s.ctxs .absent c
def State.putCtx (s : State) (c : Nat) (r : CtxRec) : State := { s with ctxs := kset s.ctxs .absent c r }
def State.resident (s : State) (c : Nat) : Bool := (s.ctx c).resident
def State.residents (s : State) : List Nat := (List.range 8).filter s.resident

/-- A ring's record and state (R199). -/
def State.ring (s : State) (r : Nat) : RingRun := kget s.rings .empty r
def State.putRing (s : State) (r : Nat) (v : RingRun) : State := { s with rings := kset s.rings .empty r v }
def State.ringState (s : State) (r : Nat) : Nat := s.rfld (.ringSt r) 0 4

/-- A siphon's and a culvert's record. -/
def State.siphon (s : State) (i : Nat) : Siphon := kget s.siphons .idle i
def State.putSiphon (s : State) (i : Nat) (v : Siphon) : State := { s with siphons := kset s.siphons .idle i v }
def State.culvert (s : State) (c : Nat) : Culvert := kget s.culverts .idle c
def State.putCulvert (s : State) (c : Nat) (v : Culvert) : State := { s with culverts := kset s.culverts .idle c v }

/-! ### Time -/

/-- The flow clock runs (R313, R321, R337, R345): released, the clock present, in no sleep state and not in `FALLOW`. -/
def State.flowRuns (s : State) : Bool :=
  s.start.released && !s.start.clockLost && !s.start.resetAsserted && s.start.pwrGood &&
    !(s.site = stSlack || s.site = stPond || s.site = stTrickle || s.site = stFallow || s.site = stWaking || s.site = 4)

/-- A cycle in which new beats start and engines compute: D of every 16, spread evenly (R331), none under a thermal trip
(R333). -/
def State.dutyAt (s : State) (cyc : Nat) : Bool :=
  let d := s.rfld .pwrPerf 0 5
  !s.start.thermTrip && decide (cyc % 16 * d / 16 < (cyc % 16 + 1) * d / 16)

/-- Turnouts may start new beats in a cycle from the present one on: not in the 64 before a change of FLOW_DIV (R312). -/
def State.mayIssueAt (s : State) (cyc : Nat) : Bool :=
  s.dutyAt cyc && s.power.divTo.all fun x => decide (x.2 ≤ cyc)
def State.mayIssue (s : State) : Bool := s.mayIssueAt s.cycle

/-- The clocks' part of an idle cycle: a flow cycle of FLOW_DIV root cycles, or with the flow clock stopped an always-on cycle
of 240 (R311, R314). What belongs to the cycle that ends is forgotten (R7, R53, R378); responses formed in a scrub are sent after it (R369). -/
def State.tickClock (s : State) : State :=
  let div := if s.flowRuns then s.rfld .pwrPerf 16 4 else 240
  { s.putReg .clkRootCnt (s.reg .clkRootCnt + BitVec.ofNat 64 div) with
    cycle := if s.flowRuns then s.cycle + 1 else s.cycle
    fresh := [], landed := []
    culverts := s.culverts.map fun (c : Nat × Culvert) => (c.1, { c.2 with responses := if s.site = stScrub then c.2.responses else [] }) }

end Sys2Proof.Machine
end

