-- ==== Sys2Proof/Machine/Operands.lean ====
section
/-! DEFINITION. Operand fields of packets: parameters by byte and bit as the opcode chapters table them, and the bits
that are reserved for each opcode (R8, R203). -/

namespace Sys2Proof

open Machine

/-- Field of `n` bits at bit `lo` of byte `b` of a packet, for b from 16 (multi-byte fields little-endian). -/
def Packet.p (p : Packet) (b lo n : Nat) : Nat := fld p.params ((b - 16) * 8 + lo) n

/-- Header fields (R203). -/
def Packet.right (p : Packet) : Nat := fld p.rightCtx 4 4
def Packet.ctx (p : Packet) : Nat := fld p.rightCtx 0 3
def Packet.gauge (p : Packet) : Nat := fld p.gaugeW 0 12
def Packet.op (p : Packet) : Nat := p.opcode.toNat

/-- Flags (R204). -/
def Packet.replyFlag (p : Packet) : Bool := bit p.flags 0
def Packet.continueFlag (p : Packet) : Bool := bit p.flags 1
def Packet.strict (p : Packet) : Bool := bit p.flags 2
def Packet.prune (p : Packet) : Bool := bit p.flags 3
def Packet.convertOnViolation (p : Packet) : Bool := bit p.flags 4

/-- Parameter bits covered by fields given as (byte, low bit, width). -/
def fieldMask (fs : List (Nat × Nat × Nat)) : BitVec 384 :=
  fs.foldl (fun m f => m ||| BitVec.ofNat 384 ((2 ^ f.2.2 - 1) * 2 ^ ((f.1 - 16) * 8 + f.2.1))) 0

/-- Every parameter bit outside the fields is zero. -/
def Packet.reservedClear (p : Packet) (fs : List (Nat × Nat × Nat)) : Bool := p.params &&& ~~~(fieldMask fs) = 0

/-! ### Matrix packets (R113) -/

def Packet.mA (p : Packet) : Nat := p.p 16 0 14
def Packet.mB (p : Packet) : Nat := p.p 18 0 14
def Packet.mO (p : Packet) : Nat := p.p 20 0 14
def Packet.mEscEn (p : Packet) : Bool := p.p 22 15 1 = 1
def Packet.mEsc (p : Packet) : Nat := p.p 22 0 14
def Packet.mK (p : Packet) : Nat := p.p 24 0 11
def Packet.mAStep (p : Packet) : Nat := p.p 26 0 8
def Packet.mBStep (p : Packet) : Nat := p.p 27 0 8
def Packet.mBLane (p : Packet) : Nat := p.p 28 0 14
def Packet.mOLane (p : Packet) : Nat := p.p 30 0 8
def Packet.mOTiles (p : Packet) : Nat := p.p 31 0 3
def Packet.mFurrow (p : Packet) : Nat := p.p 32 0 5
def Packet.mLanes (p : Packet) : Nat := p.p 33 0 8
/-- ACC_EXP is two's complement. -/
def Packet.mAccExp (p : Packet) : Int := (p.params.extractLsb' 144 8).toInt
def Packet.mNoDrop (p : Packet) : Bool := p.p 35 2 1 = 1
def Packet.mNoSkip (p : Packet) : Bool := p.p 35 1 1 = 1
def Packet.mExact (p : Packet) : Bool := p.p 35 0 1 = 1
def Packet.mEscGauge (p : Packet) : Nat := p.p 36 0 12
def Packet.laneList (p : Packet) : List Nat := (List.range 8).filter fun l => p.mLanes / 2 ^ l % 2 = 1

def matmulFields : List (Nat × Nat × Nat) :=
  [(16, 0, 14), (18, 0, 14), (20, 0, 14), (22, 15, 1), (22, 0, 14), (24, 0, 11), (26, 0, 8), (27, 0, 8), (28, 0, 14),
   (30, 0, 8), (31, 0, 3), (32, 0, 5), (33, 0, 8), (34, 0, 8), (35, 0, 3), (36, 0, 12)]

/-- Descriptors of a matrix packet. -/
def Packet.aDesc (p : Packet) (i : Nat) : Nat := p.mA + i * p.mAStep
def Packet.bDesc (p : Packet) (l i : Nat) : Nat := p.mB + l * p.mBLane + i * p.mBStep
def Packet.oDesc (p : Packet) (l t : Nat) : Nat := p.mO + l * p.mOLane + t
def Packet.eDesc (p : Packet) (l t : Nat) : Nat := p.mEsc + l * p.mOLane + t

/-! ### VECTOR (R128) and TOPK (R131) -/

def Packet.vX (p : Packet) : Nat := p.p 16 0 14
def Packet.vY (p : Packet) : Nat := p.p 18 0 14
def Packet.vO (p : Packet) : Nat := p.p 20 0 14
def Packet.vTiles (p : Packet) : Nat := p.p 22 0 11
def Packet.vOp (p : Packet) : Nat := p.p 24 0 8
def Packet.vAny (p : Packet) : Bool := p.p 25 4 1 = 1
def Packet.vUnit (p : Packet) : Nat := p.p 25 0 4
def Packet.vBcast (p : Packet) : Nat := p.p 26 1 2
def Packet.vExact (p : Packet) : Bool := p.p 26 0 1 = 1
def Packet.vA (p : Packet) : BitVec 32 := p.params.extractLsb' 96 32
def Packet.vB (p : Packet) : BitVec 32 := p.params.extractLsb' 128 32
def vectorFields : List (Nat × Nat × Nat) :=
  [(16, 0, 14), (18, 0, 14), (20, 0, 14), (22, 0, 11), (24, 0, 8), (25, 0, 5), (26, 0, 3), (28, 0, 32), (32, 0, 32)]

def Packet.tX (p : Packet) : Nat := p.p 16 0 14
def Packet.tO (p : Packet) : Nat := p.p 18 0 14
def Packet.tTiles (p : Packet) : Nat := p.p 20 0 8
def Packet.tK (p : Packet) : Nat := p.p 21 0 4
def Packet.tAny (p : Packet) : Bool := p.p 22 4 1 = 1
def Packet.tUnit (p : Packet) : Nat := p.p 22 0 4
def Packet.tNorm (p : Packet) : Bool := p.p 23 0 1 = 1
def Packet.tRows (p : Packet) : Nat := p.p 24 0 9
def topkFields : List (Nat × Nat × Nat) :=
  [(16, 0, 14), (18, 0, 14), (20, 0, 8), (21, 0, 4), (22, 0, 5), (23, 0, 1), (24, 0, 9)]

/-! ### Screen packets (R139) -/

def Packet.sSrc (p : Packet) : Nat := p.p 16 0 14
def Packet.sDst (p : Packet) : Nat := p.p 18 0 14
def Packet.sCount (p : Packet) : Nat := p.p 20 0 11
def Packet.sAny (p : Packet) : Bool := p.p 22 2 1 = 1
def Packet.sUnit (p : Packet) : Nat := p.p 22 0 2
def Packet.sRescale (p : Packet) : Bool := p.p 23 3 1 = 1
def Packet.sHist (p : Packet) : Bool := p.p 23 2 1 = 1
def Packet.sMode (p : Packet) : Nat := p.p 23 0 2
def Packet.sSel (p : Packet) : Nat := p.p 24 0 14
def Packet.sSelTiles (p : Packet) : Nat := p.p 26 0 8
def Packet.sBlocks (p : Packet) : Nat := p.p 27 0 8
def Packet.sPanels (p : Packet) : Nat := p.p 28 0 8
def Packet.sStep (p : Packet) : Nat := p.p 29 0 8
def Packet.sPStep (p : Packet) : Nat := p.p 30 0 14
def Packet.sDstPStep (p : Packet) : Nat := p.p 32 0 14
def Packet.sDstCStep (p : Packet) : Nat := p.p 34 0 14
def Packet.sOutTiles (p : Packet) : Nat := p.p 36 0 3
def Packet.sSelCols (p : Packet) : Nat := p.p 37 0 3
def Packet.sSelCol (p : Packet) (k : Nat) : Nat := p.p (38 + 2 * k) 0 12

/-- Fields a screen packet uses, by opcode and mode (R139): every other bit must be zero. -/
def screenFields (p : Packet) : List (Nat × Nat × Nat) :=
  let all := [(16, 0, 14), (18, 0, 14), (22, 0, 3)]
  match p.op with
  | 0x20 | 0x21 => all ++ [(20, 0, 11)]
  | 0x24 => all ++ [(20, 0, 11), (23, 3, 1)]
  | 0x23 => all ++ [(20, 0, 11), (23, 2, 1)]
  | _ =>
    all ++ [(23, 0, 2), (24, 0, 14), (26, 0, 8), (27, 0, 8), (28, 0, 8), (29, 0, 8), (30, 0, 14)]
      ++ if p.sMode = 0 then
          [(32, 0, 14), (34, 0, 14), (36, 0, 3), (37, 0, 3)]
            ++ (List.range 4).filterMap fun k => if k < p.sSelCols then some (38 + 2 * k, 0, 12) else none
        else []

/-! ### Flume packets (R145) -/

def Packet.fSrc (p : Packet) : Nat := p.p 16 0 14
def Packet.fDst (p : Packet) : Nat := p.p 18 0 14
def Packet.fCount (p : Packet) : Nat := p.p 20 0 11
def Packet.fDstBasin (p : Packet) : Nat := p.p 22 0 6
def Packet.fAny (p : Packet) : Bool := p.p 23 2 1 = 1
def Packet.fUnit (p : Packet) : Nat := p.p 23 0 2
def Packet.fStack (p : Packet) : Nat := p.p 24 0 48
def Packet.fStride (p : Packet) : Nat := p.p 30 0 8
def Packet.fSelEn (p : Packet) : Bool := p.p 31 1 1 = 1
def Packet.fReduce (p : Packet) : Bool := p.p 31 0 1 = 1
def Packet.fSite (p : Packet) : Nat := p.p 32 0 16
def Packet.fKey (p : Packet) : Nat := p.p 34 4 4
def Packet.fAnyCul (p : Packet) : Bool := p.p 34 2 1 = 1
def Packet.fCul (p : Packet) : Nat := p.p 34 0 2
def Packet.fSrcGauge (p : Packet) : Nat := p.p 36 0 12
def Packet.fSrcInc (p : Packet) : Nat := p.p 38 0 16
def Packet.fFill (p : Packet) : BitVec 32 := p.params.extractLsb' 192 32
def Packet.fSel (p : Packet) : Nat := p.p 44 0 14
def Packet.fSelCol (p : Packet) : Nat := p.p 46 0 12
def Packet.fSelTiles (p : Packet) : Nat := p.p 48 0 8
def Packet.fStep (p : Packet) : Nat := p.p 49 0 8

/-- Fields a flume packet uses, by opcode (R145). -/
def flumeFields (p : Packet) : List (Nat × Nat × Nat) :=
  let all := [(20, 0, 11), (23, 0, 3)]
  let src := (16, 0, 14)
  let dst := (18, 0, 14)
  match p.op with
  | 0x10 => all ++ [src, dst, (22, 0, 6)]
  | 0x11 => all ++ [dst, (24, 0, 48), (30, 0, 8)]
  | 0x12 => all ++ [src, (24, 0, 48), (30, 0, 8)]
  | 0x13 => all ++ [src, dst, (22, 0, 6), (31, 0, 1), (32, 0, 16), (34, 0, 3), (34, 4, 4), (36, 0, 12), (38, 0, 16)]
  | 0x14 => all ++ [dst, (40, 0, 32)]
  | _ => all ++ [src, dst, (22, 0, 6), (31, 1, 1)]
          ++ [(44, 0, 14), (46, 0, 12), (48, 0, 8), (49, 0, 8)]

end Sys2Proof
end

