-- ==== Sys2Proof/Machine/Flags.lean ====
section
/-! DEFINITION. Status codes (R228), alert bits (R229), and the word a packet's outcome makes. -/

namespace Sys2Proof.Machine

/-- R228. -/
def Status.code : Status → Nat
  | .ok => 0x00 | .okAlert => 0x01 | .accepted => 0x02
  | .badOpcode => 0x10 | .badParam => 0x11 | .size => 0x12 | .noSpace => 0x13 | .extentOverflow => 0x14
  | .formatViolation => 0x15 | .indexRange => 0x16
  | .accessDenied => 0x20 | .oversubscribed => 0x21 | .refusedState => 0x22 | .notReady => 0x23 | .busy => 0x24
  | .checkFail => 0x30 | .tileBroken => 0x31 | .contextFaulted => 0x32 | .internal => 0x3F

/-- A packet fails with a status of 0x10 or above (R214). -/
def Status.failed (st : Status) : Bool := st.code ≥ 0x10

/-- `OK` with an alert bit set is `OK_ALERT` (R228). -/
def Status.withAlerts (st : Status) (alerts : Byte) : Status :=
  if st = .ok ∧ alerts ≠ 0 then .okAlert else st

/-- Alert bits (R229). -/
def alPrecision : Byte := 0x01
def alIndex : Byte := 0x02
def alRaw : Byte := 0x04
def alSaturation : Byte := 0x08
def alEscalated : Byte := 0x10
def alDegraded : Byte := 0x20
def alRetried : Byte := 0x40
def alSpare : Byte := 0x80

/-- An alert bit when a condition holds. -/
def alertIf (c : Bool) (a : Byte) : Byte := if c then a else 0

/-- Counters of one finished packet for `STATS_READ` (R226). -/
def Stats.add (a b : Stats) : Stats :=
  ⟨a.completed + b.completed, a.failed + b.failed, a.busy + b.busy, a.alerted + b.alerted, a.tiles + b.tiles,
    a.granules + b.granules, a.skipped + b.skipped, a.mispredicted + b.mispredicted, a.sats + b.sats,
    a.clips + b.clips, a.raws + b.raws, a.fmtAlerts + b.fmtAlerts⟩

end Sys2Proof.Machine
end

