-- ==== Sys2Proof/Machine/Replies.lean ====
section
/-! DEFINITION. Outcomes of packets: replies and their slots (R202, R205, R215), the accounts of lists and rings (R213,
R214, R226), the end of a list, completion gauges (R208). -/

namespace Sys2Proof.Machine

/-! ### Sources -/

/-- The spawn of a list slot's present list. -/
def State.list? (s : State) (b slot : Nat) : Option ListRun := s.lists.find? fun l => l.basin = b ∧ l.slot = slot
def State.putList (s : State) (l : ListRun) : State :=
  { s with lists := s.lists.map fun x => if x.basin = l.basin ∧ x.slot = l.slot then l else x }

/-- Spawn number of a source: a list slot's, 0 for rings. -/
def State.spawnOf (s : State) (src : Src) : Nat :=
  match src with
  | .list b k => match s.list? b k with | some l => l.spawn | none => 0
  | _ => 0

/-- The context of a source (R198, R211): ring 8 and the headgate have none. -/
def State.ctxOf (s : State) (src : Src) : Option Nat :=
  match src with
  | .ring r => if r < 8 then some r else none
  | .list b k => (s.list? b k).map (·.ctx)
  | .headgate => none

/-- The packet's basin (R143, R198): the list's basin, or the ring's home basin. -/
def State.basinOf (s : State) (src : Src) : Nat :=
  match src with
  | .ring r => s.rfld (.ringCmd r) 48 8
  | .list b _ => b
  | .headgate => 0

/-- The caller a source is at a gate (R37, R49, R50). -/
def State.callerOf (s : State) (src : Src) : Caller :=
  match src with
  | .ring r => ⟨BitVec.ofNat 16 (2 * 2 ^ 13 + r), 0⟩
  | .list b k => ⟨BitVec.ofNat 16 (1 * 2 ^ 13 + b * 64 + k), s.spawnOf src⟩
  | .headgate => ⟨BitVec.ofNat 16 (3 * 2 ^ 13), 0⟩

/-- Rosog, and a writer that can own no lock (a culvert arrival). -/
def Caller.rosog : Caller := ⟨BitVec.ofNat 16 (3 * 2 ^ 13), 0⟩
def Caller.none : Caller := ⟨0xFFFF, 0⟩

/-! ### Reply slots (R202) -/

/-- Entries of a ring's reply ring. -/
def State.rplEntries (s : State) (r : Nat) : Nat := 2 ^ s.rfld (.ringRpl r) 40 4
/-- Replies written and not consumed. -/
def State.rplUsed (s : State) (r : Nat) : Nat :=
  (s.rfld (.ringRtail r) 0 32 + 2 ^ 32 - s.rfld (.ringRhead r) 0 32) % 2 ^ 32
/-- Slots already reserved: for fetched packets and for self-destroys (R223). -/
def State.rplReserved (s : State) (r : Nat) : Nat := (s.ring r).reserved
/-- A slot can be reserved. -/
def State.rplFree (s : State) (r : Nat) : Bool := s.rplUsed r + s.rplReserved r < s.rplEntries r

/-- The 32 bytes of a reply in the slot of count `tail` (R205). -/
def Reply.bytes (rp : Reply) (phase : Bool) : List Byte :=
  [rp.opcode, BitVec.ofNat 8 rp.status.code, rp.alerts,
   BitVec.ofNat 8 (phase.toNat * 128 + rp.fromList.toNat * 64 + rp.otherRing.toNat * 32
     + if rp.otherRing then rp.ring else 0)]
    ++ leBytes 4 rp.seq.toNat ++ leBytes 4 rp.tag.toNat ++ leBytes 4 rp.w0.toNat ++ leBytes 4 rp.w1.toNat
    ++ leBytes 4 rp.w2.toNat ++ leBytes 4 rp.w3.toNat ++ leBytes 4 rp.cycles

/-- CYCLES as a ring sees it (R205, R388). -/
def State.cyclesFor (s : State) (r n : Nat) : Nat :=
  let n := min n (2 ^ 32 - 1)
  if r < 8 ∧ !bit (s.reg .secObsCfg) 0 then n / 1024 * 1024 else n

/-- Write a reply into the slot at RTAIL and advance it. PHASE is 1 on the first lap (R202). -/
def State.writeReply (s : State) (r : Nat) (rp : Reply) : State :=
  let n := s.rplEntries r
  let tail := s.rfld (.ringRtail r) 0 32
  let b := s.rfld (.ringCmd r) 48 8
  let off := s.rfld (.ringRpl r) 0 18 * 256 + tail % n * 32
  let rp := { rp with cycles := s.cyclesFor r rp.cycles }
  let s := s.writeRange b off (rp.bytes (tail / n % 2 = 0)) ⟨3, ditchTurnout⟩
  s.putFld (.ringRtail r) 0 32 (tail + 1)

/-- Queue a reply that holds a reserved slot, and one that holds none. -/
def State.queueReply (s : State) (r : Nat) (rp : Reply) : State :=
  s.putRing r { s.ring r with waiting := (s.ring r).waiting ++ [rp] }
def State.queueUnreserved (s : State) (r : Nat) (rp : Reply) : State :=
  s.putRing r { s.ring r with unreserved := (s.ring r).unreserved ++ [rp] }

/-! ### Completion gauges -/

/-- An increment due in the next cycle (R53, R208): none for INC 0. -/
def State.dueInc (s : State) (b g inc : Nat) : State :=
  if inc = 0 then s else { s with dueIncs := s.dueIncs ++ [⟨b, g, inc⟩] }

/-! ### Packets in flight (R209) -/

/-- Packets of a source in flight: at engines, parked in waits, in Rosog's hands, and spawned lists not ended. -/
def State.inFlight (s : State) (src : Src) : Nat :=
  (s.flights.filter fun f => f.src = src ∧ f.caller.spawn = s.spawnOf src ∧ f.arrival.isNone ∧ !f.restore).length
    + (s.waits.filter fun w => w.src = src).length
    + (s.handed.filter fun h => h.src = src ∧ h.spawn = s.spawnOf src).length
    + (s.lists.filter fun l => l.spawner = src ∧ l.spawnerSpawn = s.spawnOf src).length

/-- Packets of a basin in flight. -/
def State.inFlightBasin (s : State) (b : Nat) : Nat :=
  (s.flights.filter fun f => f.basin = b ∧ f.arrival.isNone ∧ !f.restore).length
    + (s.waits.filter fun w => w.basin = b).length
    + (s.handed.filter fun h => h.basin = b).length
    + (s.lists.filter fun l => l.spawner ≠ .headgate ∧ s.basinOf l.spawner = b).length

/-! ### Stats (R226) -/

/-- Add counters to a source's account. -/
def State.addStats (s : State) (src : Src) (st : Stats) : State :=
  match src with
  | .ring r => s.putRing r { s.ring r with stats := (s.ring r).stats.add st }
  | .list b k => { s with slotStats := s.slotStats.map fun x =>
      if x.basin = b ∧ x.slot = k then { x with stats := x.stats.add st } else x }
  | .headgate => s

/-- An outcome of a packet. -/
structure Outcome where
  status : Status
  alerts : Byte
  w0 : BitVec 32
  w1 : BitVec 32
  w2 : BitVec 32
  w3 : BitVec 32
  /-- Refused: CYCLES reads 0 (R205). -/
  refused : Bool
  deriving DecidableEq, Repr

def Outcome.ok : Outcome := ⟨.ok, 0, 0, 0, 0, 0, false⟩
def Outcome.refuse (st : Status) : Outcome := ⟨st, 0, 0, 0, 0, 0, true⟩
def Outcome.words (w0 w1 w2 w3 : Nat) : Outcome :=
  ⟨.ok, 0, BitVec.ofNat 32 w0, BitVec.ofNat 32 w1, BitVec.ofNat 32 w2, BitVec.ofNat 32 w3, false⟩

/-- The reply of an outcome (R205). -/
def Outcome.reply (o : Outcome) (p : Packet) (fromList : Bool) (cycles : Nat) : Reply :=
  ⟨p.opcode, o.status, o.alerts, fromList, false, 0, p.seq, p.tag, o.w0, o.w1, o.w2, o.w3,
    if o.refused then 0 else cycles⟩

/-- A list ends once nothing of it is in flight: its slot is freed and its spawning packet takes the outcome (R213). -/
def ListRun.outcome (l : ListRun) : Outcome :=
  let st := (l.ending.getD .ok)
  { Outcome.words l.completed l.passed 0 0 with
    status := st.withAlerts l.alerts, alerts := l.alerts, w2 := l.failOff }

/-- Free a list's slot. -/
def State.freeSlot (s : State) (l : ListRun) : State :=
  { s with lists := s.lists.filter fun x => !(x.basin = l.basin ∧ x.slot = l.slot) }

/-- A list has been ended by a failure (R214). -/
def ListRun.failed (l : ListRun) : Bool := match l.ending with | some st => st ≠ .ok | none => false

/-- End a list: it dispatches nothing more (R213, R214). The first failure that ends it, also one of a packet still in
flight after its `RETURN`, is the one its spawner takes. -/
def State.endList (s : State) (b k : Nat) (st : Status) : State :=
  match s.list? b k with
  | some l => if l.failed ∨ (l.ending.isSome ∧ st = .ok) then s else s.putList { l with ending := some st, buf := [] }
  | none => s

/-- Account a finished packet of a list, and its own reply (R213–R215). -/
def State.listPacketDone (s : State) (b k off : Nat) (p : Packet) (o : Outcome) (cycles : Nat) : State :=
  match s.list? b k with
  | none => s
  | some l =>
    let fail := o.status.failed
    let call := p.op = 0x08 ∧ p.p 21 0 1 = 0
    let ends := fail ∧ (!p.continueFlag ∨ call)
    let l := { l with
      completed := if fail then l.completed else l.completed + 1
      passed := if fail ∧ ¬ends then l.passed + 1 else l.passed
      failOff := if fail ∧ !l.failed then BitVec.ofNat 32 off else l.failOff
      alerts := l.alerts ||| o.alerts
      held := l.held && decide (p.op < 0x40) }
    let s := s.putList l
    let s := if o.status ≠ .ok ∨ p.replyFlag then s.queueUnreserved l.ctx (o.reply p true cycles) else s
    if ends then s.endList b k o.status else s

/-- Bit 5 of a reply that its packet did not earn: a right suspended or in breach (R180, R188), or a basin of the
context pending retirement that it has not asked about (R277). -/
def State.degraded (s : State) (src : Src) (basin : Nat) (p : Packet) : Bool :=
  match s.ctxOf src with
  | none => false
  | some c =>
    let r := s.ctx c
    (r.admissions.any fun a => a.right = p.right && a.suspended)
      || (s.regulators.any fun g => g.basin = basin && g.breached.contains p.right)
      || s.retiring.any fun b => !bit r.ackPending b && (s.levees b).any fun l => l.ctx = c

/-- An outcome with bit 5 where it is due. -/
def State.marked (s : State) (src : Src) (basin : Nat) (p : Packet) (o : Outcome) : Outcome :=
  let al := o.alerts ||| alertIf (s.degraded src basin p) alDegraded
  { o with alerts := al, status := o.status.withAlerts al }

/-- A packet's outcome is formed: its once-gauge when `once` (R208), its source's accounts and its reply. -/
def State.packetDone (s : State) (src : Src) (spawn off : Nat) (p : Packet) (basin start : Nat) (o : Outcome)
    (once : Bool) (extra : Stats) : State :=
  let o := s.marked src basin p o
  let cycles := s.cycle - start
  let s := if once ∧ !o.status.failed then s.dueInc basin p.gauge p.inc.toNat else s
  let own := { extra with
    completed := if o.status.failed then 0 else 1, failed := if o.status.failed then 1 else 0
    busy := if o.refused then 0 else cycles, alerted := if o.alerts = 0 then 0 else 1 }
  match src with
  | .ring r =>
    let s := s.addStats src own
    s.queueReply r (o.reply p false cycles)
  | .list b k =>
    if s.spawnOf src = spawn then (s.addStats src own).listPacketDone b k off p o cycles else s
  | .headgate => s

/-- End every list that is ending and has nothing in flight; a list's end can complete the list that spawned it, so
this repeats over as many lists as there are. -/
def State.settle : Nat → State → State
  | 0, s => s
  | n + 1, s =>
    match s.lists.find? fun l => l.ending.isSome && decide (s.inFlight (.list l.basin l.slot) = 0) with
    | none => s
    | some l =>
      State.settle n
        ((s.freeSlot l).packetDone l.spawner l.spawnerSpawn l.spawnOff l.spawnPkt (s.basinOf l.spawner) l.spawnCycle
          l.outcome true Stats.zero)

/-- Finish a packet and whatever its end completes. -/
def State.finish (s : State) (src : Src) (spawn off : Nat) (p : Packet) (basin start : Nat) (o : Outcome) (once : Bool)
    (extra : Stats := Stats.zero) : State :=
  let t := s.packetDone src spawn off p basin start o once extra
  t.settle (t.lists.length + 1)

end Sys2Proof.Machine
end

