-- ==== Sys2Proof/Machine/Numbers.lean ====
section
/-! DEFINITION. Exact element values and their rounding: a finite value is an integer times a power of two, so sums and
products are exact and every rounding of the spec is made in one place (R58, R60, R63, R89, R124). -/

namespace Sys2Proof.Machine

/-- A value: m × 2^e, an infinity (true = negative), or NaN. -/
inductive Val where
  | fin (m : Int) (e : Int)
  | inf (neg : Bool)
  | nan
  deriving DecidableEq, Repr

def Val.zero : Val := .fin 0 0
def Val.one : Val := .fin 1 0

/-- m × 2^e at a smaller exponent `f`. -/
def lower (m e f : Int) : Int := m * 2 ^ (e - f).toNat

/-- Sign of a − b for finite a = m1 × 2^e1, b = m2 × 2^e2. -/
def dcmp (m1 e1 m2 e2 : Int) : Int :=
  let f := min e1 e2
  (lower m1 e1 f - lower m2 e2 f).sign

def dle (m1 e1 m2 e2 : Int) : Bool := decide (dcmp m1 e1 m2 e2 ≤ 0)
def dlt (m1 e1 m2 e2 : Int) : Bool := decide (dcmp m1 e1 m2 e2 < 0)

def Val.isZero : Val → Bool
  | .fin m _ => m = 0
  | _ => false
def Val.isNan : Val → Bool
  | .nan => true
  | _ => false
def Val.isFin : Val → Bool
  | .fin _ _ => true
  | _ => false
def Val.neg : Val → Val
  | .fin m e => .fin (-m) e
  | .inf n => .inf !n
  | .nan => .nan
def Val.abs : Val → Val
  | .fin m e => .fin m.natAbs e
  | .inf _ => .inf false
  | .nan => .nan
/-- Negative, zero counting as positive. -/
def Val.isNeg : Val → Bool
  | .fin m _ => m < 0
  | .inf n => n
  | .nan => false

/-- Exact sum and product (R124): infinities of opposite sign, and zero times infinity, give NaN. -/
def Val.add : Val → Val → Val
  | .nan, _ | _, .nan => .nan
  | .inf a, .inf b => if a = b then .inf a else .nan
  | .inf a, _ | _, .inf a => .inf a
  | .fin m1 e1, .fin m2 e2 =>
    let f := min e1 e2
    .fin (lower m1 e1 f + lower m2 e2 f) f
def Val.mul : Val → Val → Val
  | .nan, _ | _, .nan => .nan
  | .inf a, .inf b => .inf (a != b)
  | .inf a, .fin m _ | .fin m _, .inf a => if m = 0 then .nan else .inf (a != decide (m < 0))
  | .fin m1 e1, .fin m2 e2 => .fin (m1 * m2) (e1 + e2)
def Val.sub (a b : Val) : Val := a.add b.neg

/-- Order of non-NaN values; false when either is NaN. -/
def Val.lt : Val → Val → Bool
  | .nan, _ | _, .nan => false
  | .inf a, .inf b => a && !b
  | .inf a, .fin _ _ => a
  | .fin _ _, .inf b => !b
  | .fin m1 e1, .fin m2 e2 => dlt m1 e1 m2 e2
def Val.le (a b : Val) : Bool := !a.isNan && !b.isNan && !b.lt a

/-- Times 2^k. -/
def Val.scale (v : Val) (k : Int) : Val :=
  match v with
  | .fin m e => .fin m (e + k)
  | v => v

/-- m × 2^e rounded to an integer, ties to even. -/
def rne (m e : Int) : Int :=
  if 0 ≤ e then m * 2 ^ e.toNat
  else
    let d : Int := 2 ^ (-e).toNat
    let q := m / d
    let r := m % d
    if 2 * r < d then q else if 2 * r > d then q + 1 else if q % 2 = 0 then q else q + 1

/-- Floor of log2 of |m| × 2^e, for m ≠ 0. -/
def ilog (m e : Int) : Int := (Nat.log2 m.natAbs : Int) + e

/-- A binary floating-point format: exponent bits, mantissa bits, the magnitude code of the largest finite value, whether
the all-ones exponent holds infinity and NaN (IEEE style), and for E4M3 the one NaN magnitude. -/
structure FpFmt where
  ebits : Nat
  mbits : Nat
  maxMag : Nat
  ieee : Bool
  nanMag : Option Nat
  deriving DecidableEq, Repr

def FpFmt.bias (f : FpFmt) : Int := 2 ^ (f.ebits - 1) - 1
def FpFmt.emin (f : FpFmt) : Int := 1 - f.bias
/-- Exponent of the top binade. -/
def FpFmt.emax (f : FpFmt) : Int := (f.maxMag / 2 ^ f.mbits : Nat) - f.bias
def FpFmt.signBit (f : FpFmt) : Nat := 2 ^ (f.ebits + f.mbits)

def fpE4M3 : FpFmt := ⟨4, 3, 0x7E, false, some 0x7F⟩
def fpE5M2 : FpFmt := ⟨5, 2, 0x7B, true, none⟩
def fpE2M3 : FpFmt := ⟨2, 3, 0x1F, false, none⟩
def fpE3M2 : FpFmt := ⟨3, 2, 0x1F, false, none⟩
def fpE2M1 : FpFmt := ⟨2, 1, 7, false, none⟩
def fpBf16 : FpFmt := ⟨8, 7, 0x7F7F, true, none⟩
def fpFp16 : FpFmt := ⟨5, 10, 0x7BFF, true, none⟩
def fpFp32 : FpFmt := ⟨8, 23, 0x7F7FFFFF, true, none⟩

/-- The value of a code; a negative zero decodes as zero (R60). -/
def FpFmt.decode (f : FpFmt) (code : Nat) : Val :=
  let neg := code / f.signBit % 2 = 1
  let mag := code % f.signBit
  if some mag = f.nanMag then .nan
  else if f.ieee ∧ mag > f.maxMag then (if mag = f.maxMag + 1 then .inf neg else .nan)
  else
    let ex := mag / 2 ^ f.mbits
    let man := mag % 2 ^ f.mbits
    let m : Int := if ex = 0 then man else (2 ^ f.mbits + man : Nat)
    let e : Int := (if ex = 0 then f.emin else ex - f.bias) - f.mbits
    .fin (if neg then -m else m) e

/-- The magnitude code that |m| × 2^e rounds to, ties to even, on the grid extended upward with the spacing of the top
binade (R63): above `maxMag` it is out of range. -/
def FpFmt.roundMag (f : FpFmt) (m e : Int) : Nat :=
  if m = 0 then 0
  else
    let ex := min (max (ilog m e) f.emin) f.emax
    let n := rne m.natAbs (e - (ex - f.mbits))
    ((ex - f.emin) * 2 ^ f.mbits + n).toNat

/-- IEEE rounding to nearest even, results above the range infinite: the value of FP32 arithmetic (R124). -/
def FpFmt.round (f : FpFmt) : Val → Val
  | .fin m e =>
    let k := f.roundMag m e
    if k > f.maxMag then .inf (m < 0)
    else match f.decode k with
      | .fin n g => .fin (if m < 0 then -n else n) g
      | v => v
  | v => v

/-- The code of a value, saturated to the largest finite magnitude with its sign, NaN as zero, and whether it was
clipped (R63). A zero result is the all-zero code. -/
def FpFmt.encode (f : FpFmt) (v : Val) : Nat × Bool :=
  match v with
  | .nan => (0, true)
  | .inf n => ((if n then f.signBit else 0) + f.maxMag, true)
  | .fin m e =>
    let k := f.roundMag m e
    if k = 0 then (0, false)
    else ((if m < 0 then f.signBit else 0) + min k f.maxMag, decide (k > f.maxMag))

/-- The code of a value that keeps infinities and NaN (quiet, positive), as VXE outputs and reduces store them. -/
def FpFmt.store (f : FpFmt) (v : Val) : Nat :=
  match v with
  | .nan => f.maxMag + 1 + 2 ^ (f.mbits - 1)
  | .inf n => (if n then f.signBit else 0) + f.maxMag + 1
  | .fin m e =>
    let k := f.roundMag m e
    if k = 0 then 0 else (if m < 0 then f.signBit else 0) + min k (f.maxMag + 1)

/-- FP32 rounding and codes. -/
def f32 (v : Val) : Val := fpFp32.round v
def f32bits (v : Val) : BitVec 32 := BitVec.ofNat 32 (fpFp32.store v)
def ofF32 (x : BitVec 32) : Val := fpFp32.decode x.toNat

/-- MAX_MAG of presented values (R73): NaN ignored, infinities and magnitudes beyond the largest finite BF16 at 0x7F7F,
every other magnitude rounded upward to BF16. -/
def maxMagOf (vs : List Val) : Nat :=
  vs.foldl (fun a v =>
    match v with
    | .nan => a
    | .inf _ => 0x7F7F
    | .fin m e =>
      if m = 0 then a
      else
        let ex := max (ilog m e) fpBf16.emin
        let sh := e - (ex - 7)
        let n : Int := if 0 ≤ sh then m.natAbs * 2 ^ sh.toNat else -((-(m.natAbs : Int)) / 2 ^ (-sh).toNat)
        max a (min 0x7F7F ((ex - fpBf16.emin) * 2 ^ 7 + n).toNat)) 0

/-- The square root of n rounded down. -/
def isqrtAux : Nat → Nat → Nat → Nat
  | 0, _, x => x
  | f + 1, n, x => let y := (x + n / x) / 2; if y ≥ x then x else isqrtAux f n y
def isqrt (n : Nat) : Nat := if n = 0 then 0 else isqrtAux (Nat.log2 n + 2) n (2 ^ (Nat.log2 n / 2 + 1))

end Sys2Proof.Machine
end

