-- ==== Sys2Proof/Machine/Formats.lean ====
section
/-! DEFINITION. Tile formats (R57–R82): element types, the five layouts, decoding with its alerts, encoding with its
clips, the canonical stream and the check values (R74, R238–R240). -/

namespace Sys2Proof.Machine

/-! ### Element types (R58) -/

def elemBits (ty : Nat) : Nat :=
  match ty with
  | 0 | 1 | 2 | 3 => 8 | 4 | 5 => 6 | 6 | 7 => 4 | 8 | 9 => 2 | 10 | 11 => 16 | 12 => 32 | _ => 0
def scaled (ty : Nat) : Bool := ty ≤ 9

/-- The float format of an element type; none for integers and T2. -/
def elemFp (ty : Nat) : Option FpFmt :=
  match ty with
  | 2 => some fpE4M3 | 3 => some fpE5M2 | 4 => some fpE2M3 | 5 => some fpE3M2 | 7 => some fpE2M1
  | 10 => some fpBf16 | 11 => some fpFp16 | 12 => some fpFp32 | _ => none

/-- A two's-complement code of `b` bits as a number. -/
def signed (b code : Nat) : Int :=
  let c := code % 2 ^ b
  if c < 2 ^ (b - 1) then c else (c : Int) - 2 ^ b

/-- Element value at scale 1 (R58). -/
def elemVal (ty code : Nat) : Val :=
  match elemFp ty with
  | some f => f.decode code
  | none =>
    if ty = 9 then .fin (if code % 4 = 1 then 1 else if code % 4 = 3 then -1 else 0) 0
    else if ty = 1 then .fin (signed 8 code) (-6)
    else .fin (signed (elemBits ty) code) 0

/-- A code that encodes zero: negative zero and T2 0b10 among them (R58, R60). -/
def codeZero (ty code : Nat) : Bool := (elemVal ty code).isZero

/-- Largest finite magnitude at scale 1 (R58), as m × 2^e. -/
def elemMax (ty : Nat) : Int × Int :=
  match elemFp ty with
  | some f => match f.decode f.maxMag with | .fin m e => (m, e) | _ => (0, 0)
  | none => if ty = 9 then (1, 0) else if ty = 1 then (127, -6) else (2 ^ (elemBits ty - 1) - 1, 0)

/-- The path a tile is decoded for (R62). -/
inductive Path where
  | matrix | vector
  deriving DecidableEq, Repr

/-- The value presented for a code under scale byte `x` (127 where the type has none) (R60, R62). -/
def present (p : Path) (ty x code : Nat) : Val :=
  if scaled ty ∧ x = 255 then (if p = .matrix then .zero else .nan)
  else match elemVal ty code, p with
    | .fin m e, _ => .fin m (e + if scaled ty then (x : Int) - 127 else 0)
    | _, .matrix => .zero
    | v, .vector => v

/-- A code that raises a format alert on a path (R62). -/
def codeAlert (p : Path) (ty code : Nat) : Bool :=
  if ty = 9 then code % 4 = 2
  else match elemVal ty code with
    | .fin _ _ => false
    | _ => decide (ty < 10) || p == .matrix

/-! ### Format codes (R57, R59) -/

def layoutOf (fmt : Nat) : Nat := fmt / 16
def elemOf (fmt : Nat) : Nat := fmt % 16

/-- N and M of an NM_PAIR (R67). -/
def nmOf (pair : Nat) : Nat × Nat :=
  match pair with | 0 => (2, 4) | 1 => (1, 4) | 2 => (2, 8) | 3 => (1, 8) | _ => (2, 16)

/-- A defined combination with its column rule (R59) and NM_PAIR (R37). -/
def formatOk (fmt pair cols : Nat) : Bool :=
  let ty := elemOf fmt
  (match layoutOf fmt with
    | 0 => decide (ty ≤ 12 ∧ pair = 0)
    | 1 => decide (ty ≤ 11 ∧ pair ≤ 4 ∧ cols % (nmOf pair).2 = 0)
    | 2 | 3 => decide (ty ≤ 11 ∧ pair = 0)
    | 4 => decide (ty = 6 ∧ pair = 0)
    | _ => false)
  && (!scaled ty || decide (cols % 32 = 0))

/-! ### Bit strings (R65) -/

/-- `n` fields of `b` bits from a section. -/
def readFields (b n : Nat) (bs : List Byte) : List Nat :=
  let x := leNat bs
  (List.range n).map fun i => x / 2 ^ (i * b) % 2 ^ b

/-- Fields of `b` bits packed into bytes. -/
def packFields (b : Nat) (xs : List Nat) : List Byte :=
  leBytes (cdiv (xs.length * b) 8) ((xs.foldr (fun x a => x % 2 ^ b + 2 ^ b * a) 0))

/-! ### Decoded tiles -/

/-- Elements, scale bytes. -/
def scaleCount (ty rows cols : Nat) : Nat := if scaled ty then rows * cols / 32 else 0

/-- A list with position `i` replaced. -/
def setAt {α : Type} : List α → Nat → α → List α
  | [], _, _ => []
  | _ :: xs, 0, v => v :: xs
  | x :: xs, i + 1, v => x :: setAt xs i v

/-- What decoding gives: the tile, whether it raises a format alert (R62, R70, R82), whether a coordinate entry lies
outside the tile (R81), and the positions that hold a stored value. -/
structure Decoded where
  tile : DTile
  alert : Bool
  index : Bool
  stored : List Nat
  deriving DecidableEq, Repr

/-- Scale byte of element `i` (R59). -/
def DTile.scaleAt (t : DTile) (i : Nat) : Nat := if scaled t.elem then t.scales.getD (i / 32) 127 else 127

/-- The 8-bit code of element `i` where an outlier replaces it (R70). -/
def DTile.outAt (t : DTile) (i : Nat) : Option Nat :=
  ((t.outs.getD (i / 32) []).find? fun o => o.1 = i % 32).map (·.2)

/-- Element `i` on a path. -/
def DTile.valAt (t : DTile) (p : Path) (i : Nat) : Val :=
  match t.outAt i with
  | some c => if t.scaleAt i = 255 then (if p = .matrix then .zero else .nan)
              else .fin (signed 8 c) ((t.scaleAt i : Int) - 127)
  | none => present p t.elem (t.scaleAt i) (t.codes.getD i 0)

def DTile.vals (t : DTile) (p : Path) : List Val := (List.range (t.rows * t.cols)).map (t.valAt p)

/-- Whether element `i` decodes to zero for an encoder (R58, R73): under a scale of 0xFF it is NaN (R62). -/
def DTile.zeroAt (t : DTile) (i : Nat) : Bool :=
  if t.scaleAt i = 255 then false
  else match t.outAt i with
  | some c => c % 256 = 0
  | none => codeZero t.elem (t.codes.getD i 0)

/-- Dense form (R66). -/
def decodeDense (p : Path) (ty rows cols : Nat) (bs : List Byte) : Decoded :=
  let e := rows * cols
  let n := cdiv (e * elemBits ty) 8
  let codes := readFields (elemBits ty) e (bs.take n)
  let scales := (readFields 8 (scaleCount ty rows cols) (bs.drop n))
  ⟨⟨ty, false, rows, cols, codes, scales, []⟩, codes.any (codeAlert p ty) || scales.any (· == 255), false, List.range e⟩

/-- N:M form (R67): slots placed in slot order. A special code that a later slot replaces raises no alert: the alert is
told from the codes the tile ends with (DESIGN CHOICE, log entry 69). -/
def decodeNm (p : Path) (ty pair rows cols : Nat) (bs : List Byte) : Decoded :=
  let (n, m) := nmOf pair
  let e := rows * cols
  let slots := e / m * n
  let lv := cdiv (slots * elemBits ty) 8
  let lp := cdiv (slots * Nat.log2 m) 8
  let vs := readFields (elemBits ty) slots (bs.take lv)
  let ps := readFields (Nat.log2 m) slots ((bs.drop lv).take lp)
  let scales := readFields 8 (scaleCount ty rows cols) (bs.drop (lv + lp))
  let ent := (List.range slots).map fun i => (i / n * m + ps.getD i 0, vs.getD i 0)
  let codes := ent.foldl (fun cs x => setAt cs x.1 x.2) (List.replicate e 0)
  ⟨⟨ty, false, rows, cols, codes, scales, []⟩, codes.any (codeAlert p ty) || scales.any (· == 255), false,
    ent.map (·.1)⟩

/-- Bitmap form (R68). -/
def decodeBitmap (p : Path) (ty rows cols : Nat) (bs : List Byte) : Decoded :=
  let e := rows * cols
  let lb := cdiv e 8
  let pos := (readFields 1 e (bs.take lb)).zipIdx.filterMap fun x => if x.1 = 1 then some x.2 else none
  let lv := cdiv (pos.length * elemBits ty) 8
  let vs := readFields (elemBits ty) pos.length ((bs.drop lb).take lv)
  let scales := readFields 8 (scaleCount ty rows cols) (bs.drop (lb + lv))
  let codes := (pos.zip vs).foldl (fun cs x => setAt cs x.1 x.2) (List.replicate e 0)
  ⟨⟨ty, false, rows, cols, codes, scales, []⟩, codes.any (codeAlert p ty) || scales.any (· == 255), false, pos⟩

/-- One coordinate entry (R69): row, column, code, reserved bits clear. -/
def entryOf (ty x : Nat) : Nat × Nat × Nat × Bool :=
  let w := if ty ≥ 10 then 16 else 8
  let code := x / 2 ^ 20 % 2 ^ w
  (x % 2 ^ 8, x / 2 ^ 8 % 2 ^ 12, code % 2 ^ elemBits ty,
    decide (x / 2 ^ (20 + w) = 0 ∧ code / 2 ^ elemBits ty = 0))

/-- Entries in strictly ascending (row, column) order. -/
def ascending : List (Nat × Nat) → Bool
  | a :: b :: t => decide (a.1 < b.1 ∨ (a.1 = b.1 ∧ a.2 < b.2)) && ascending (b :: t)
  | _ => true

/-- Coordinate-list form (R69, R81, R82). A payload too short for its scales has none, and every element is zero. A special
code of an entry that is replaced or dropped raises no alert of its own (DESIGN CHOICE, log entry 69). -/
def decodeCoord (p : Path) (ty rows cols len : Nat) (bs : List Byte) : Decoded :=
  let e := rows * cols
  let w := if ty ≥ 10 then 6 else 4
  let sc := scaleCount ty rows cols
  let cnt := leNat (bs.take 4)
  let lenOk := decide (4 + cnt * w + sc = len)
  let n := if lenOk then cnt else if len < 4 + sc then 0 else min cnt ((len - sc - 4) / w)
  let scales := if len < 4 + sc then List.replicate sc 127 else readFields 8 sc ((bs.take len).drop (len - sc))
  let ents := (List.range n).map fun i => entryOf ty (leNat ((bs.drop (4 + i * w)).take w))
  let good := ents.filter fun x => x.1 < rows ∧ x.2.1 < cols
  let codes := good.foldl (fun cs x => setAt cs (x.1 * cols + x.2.1) x.2.2.1) (List.replicate e 0)
  ⟨⟨ty, false, rows, cols, codes, scales, []⟩,
    codes.any (codeAlert p ty) || scales.any (· == 255) || !lenOk || ents.any (fun x => !x.2.2.2)
      || !ascending (ents.map fun x => (x.1, x.2.1)),
    good.length ≠ ents.length, good.map fun x => x.1 * cols + x.2.1⟩

/-- The slots that decoding of an outlier record applies, in ascending position (R70, R74). -/
def outliersOf (r : Nat) : List (Nat × Nat) :=
  let a := (r % 32, r / 32 % 256)
  let b := (r / 2 ^ 13 % 32, r / 2 ^ 18 % 256)
  match r / 2 ^ 26 % 4 with
  | 0 => []
  | 1 => [a]
  | _ => if a.1 = b.1 then [b] else if a.1 < b.1 then [a, b] else [b, a]

/-- S4 (R70). -/
def decodeS4 (rows cols : Nat) (bs : List Byte) : Decoded :=
  let e := rows * cols
  let codes := readFields 4 e (bs.take (e / 2))
  let scales := readFields 8 (e / 32) ((bs.drop (e / 2)).take (e / 32))
  let recs := readFields 32 (e / 32) (bs.drop (e / 2 + e / 32))
  ⟨⟨6, true, rows, cols, codes, scales, recs.map outliersOf⟩,
    scales.any (· == 255) || recs.any (fun r => r / 2 ^ 26 % 4 == 3), false, List.range e⟩

/-- Decode a payload of `len` bytes in a format, as dense when it fell back (R78). -/
def decodePayload (p : Path) (fmt pair rows cols len : Nat) (raw : Bool) (bs : List Byte) : Decoded :=
  let ty := elemOf fmt
  if raw then decodeDense p ty rows cols bs
  else match layoutOf fmt with
    | 1 => decodeNm p ty pair rows cols bs
    | 2 => decodeBitmap p ty rows cols bs
    | 3 => decodeCoord p ty rows cols len bs
    | 4 => decodeS4 rows cols bs
    | _ => decodeDense p ty rows cols bs

/-! ### Canonical stream and check values -/

/-- Element codes with every zero written as the all-zero code, nibbles under outliers zeroed (R74, R238). -/
def DTile.normCodes (t : DTile) : List Nat :=
  t.codes.zipIdx.map fun x =>
    if (t.outAt x.2).isSome then 0 else if codeZero t.elem x.1 then 0 else x.1 % 2 ^ elemBits t.elem

/-- Scale bytes, 0x7F for a block of zeros without outliers (R238). -/
def DTile.normScales (t : DTile) : List Nat :=
  t.scales.zipIdx.map fun x =>
    if (((t.normCodes.drop (32 * x.2)).take 32).all (· == 0)) && (t.outs.getD x.2 []).isEmpty then 0x7F else x.1

/-- An outlier record holding the given slots (R70). -/
def recordOf (os : List (Nat × Nat)) : Nat :=
  match os with
  | [] => 0
  | [a] => a.1 + a.2 * 32 + 2 ^ 26
  | a :: b :: _ => a.1 + a.2 * 32 + b.1 * 2 ^ 13 + b.2 * 2 ^ 18 + 2 * 2 ^ 26

/-- The canonical stream (R74, R238). -/
def DTile.canonical (t : DTile) : List Byte :=
  packFields (elemBits t.elem) t.normCodes ++ packFields 8 t.normScales
    ++ (if t.s4 then packFields 32 (t.outs.map recordOf) else [])

/-- CRC with reflected input and output over 32 bits: one byte. -/
def crcByte (poly : Nat) : Nat → Nat → Nat
  | 0, c => c
  | n + 1, c => crcByte poly n (if c % 2 = 1 then Nat.xor (c / 2) poly else c / 2)

/-- CRC-32C (R239): the reflected polynomial of 0x1EDC_6F41 is 0x82F6_3B78. -/
def crc32c (bs : List Byte) : Nat :=
  Nat.xor 0xFFFFFFFF (bs.foldl (fun c b => crcByte 0x82F63B78 8 (Nat.xor c b.toNat)) 0xFFFFFFFF)

/-- 32-bit words of a stream (R238). -/
def words32 (bs : List Byte) : List Nat := readFields 32 (cdiv bs.length 4) bs

/-- Weight-class check (R239). -/
def checkWeight (bs : List Byte) : Word64 :=
  BitVec.ofNat 64 (crc32c bs * 2 ^ 32 + (words32 bs).foldl (· + ·) 0 % 2 ^ 32)

/-- Activation-class balance (R240). -/
def checkBalance (bs : List Byte) : Word64 :=
  let p := 2 ^ 32 - 5
  let r := (words32 bs).foldl (fun (a : Nat × Nat) w =>
    let s1 := (a.1 + w) % p
    (s1, (a.2 + s1) % p)) (0, 0)
  BitVec.ofNat 64 (r.2 * 2 ^ 32 + r.1)

/-- The check value of a tile in a class (R75). -/
def DTile.checkOf (t : DTile) (weight : Bool) : Word64 :=
  if weight then checkWeight t.canonical else checkBalance t.canonical

/-- CRC-8 of the E1 mode (R260): polynomial 0x2F, no reflection. -/
def crc8Step : Nat → Nat → Nat
  | 0, c => c
  | n + 1, c => crc8Step n (if c ≥ 128 then Nat.xor (c * 2 % 256) 0x2F else c * 2 % 256)
def crc8 (bs : List Byte) : Nat := Nat.xor 0xFF (bs.foldl (fun c b => crc8Step 8 (Nat.xor c b.toNat)) 0xFF)

/-- A record in E1 mode (R261, R418): lines of 64 bytes, the last padded with zero bytes, each followed by its byte. -/
def e1Lines (bs : List Byte) : List Byte :=
  (List.range (cdiv bs.length 64)).flatMap fun i =>
    let l := (bs.drop (64 * i)).take 64
    let l := l ++ List.replicate (64 - l.length) 0
    l ++ [BitVec.ofNat 8 (crc8 l)]

/-- The bytes of a record in E1 mode, and how many of its lines' bytes fail. -/
def e1Parse (bs : List Byte) : List Byte × Nat :=
  let ls := (List.range (cdiv bs.length 65)).map fun i => (bs.drop (65 * i)).take 65
  (ls.flatMap (·.take 64),
    (ls.filter fun l => !(l.length = 65 && decide (crc8 (l.take 64) = (l.getD 64 0).toNat))).length)

/-! ### Encoding -/

/-- Code of a value at scale byte `x`, and whether it was clipped (R63). -/
def encodeElem (ty x : Nat) (v : Val) : Nat × Bool :=
  let v := if scaled ty then v.scale (127 - (x : Int)) else v
  match elemFp ty with
  | some f => f.encode v
  | none =>
    let hi : Int := if ty = 9 then 1 else 2 ^ (elemBits ty - 1) - 1
    let lo : Int := if ty = 9 then -1 else -(2 ^ (elemBits ty - 1))
    let enc := fun (n : Int) => (n % 2 ^ elemBits ty).toNat
    match v with
    | .nan => (0, true)
    | .inf n => (enc (if n then lo else hi), true)
    | .fin m e =>
      let n := rne m (if ty = 1 then e + 6 else e)
      (enc (max lo (min hi n)), decide (n < lo ∨ hi < n))

/-- |v| ≤ m × 2^e. -/
def absLe (v : Val) (m e : Int) : Bool :=
  match v with
  | .fin a b => dle a.natAbs b m e
  | .inf _ => false
  | .nan => true

/-- Magnitudes in descending order, NaN left out. -/
def insDesc (x : Val) : List Val → List Val
  | [] => [x]
  | y :: ys => if y.lt x then x :: y :: ys else y :: insDesc x ys
def magsDesc (vs : List Val) : List Val := (vs.filter (!·.isNan)).foldr (fun v a => insDesc v.abs a) []

/-- The exact scale of a block (R64). An S4 block for which no scale meets both bounds takes 254, the ceiling R64 gives other types
(DESIGN CHOICE, log entry 80). -/
def exactScale (ty : Nat) (s4 : Bool) (vs : List Val) : Nat :=
  let ms := magsDesc vs
  let top := ms.getD 0 .zero
  if top.isZero then 127
  else
    let okAt := fun (x : Nat) =>
      if s4 then absLe (ms.getD 2 .zero) 7 ((x : Int) - 127) && absLe top 127 ((x : Int) - 127)
      else absLe top (elemMax ty).1 ((elemMax ty).2 + (x : Int) - 127)
    ((List.range 255).find? okAt).getD 254

/-- The integer a scaled value rounds to, infinities far outside any range, NaN zero (R63, R70). -/
def Val.toInt (v : Val) : Int :=
  match v with
  | .fin m e => rne m e
  | .inf n => if n then -(2 ^ 200) else 2 ^ 200
  | .nan => 0

/-- One S4 block at scale byte `x` (R70): nibbles, outlier slots, clips. -/
def encodeS4Block (x : Nat) (vs : List Val) : List Nat × List (Nat × Nat) × Nat :=
  let sv := vs.map fun v => v.scale (127 - (x : Int))
  let cand := sv.zipIdx.filter fun y => y.1.toInt < -8 ∨ 7 < y.1.toInt
  -- largest magnitude first, the lower position first among equals
  let pick := fun (l : List (Val × Nat)) => l.foldl (fun (b : Option (Val × Nat)) y =>
    match b with | none => some y | some z => if z.1.abs.lt y.1.abs then some y else b) none
  let first := pick cand
  let second := pick (cand.filter fun y => some y.2 ≠ first.map (·.2))
  let used := ((first.toList ++ second.toList).map (·.2))
  let used := (List.range 32).filter used.contains
  let outs := used.map fun i =>
    let n : Int := (sv.getD i .zero).toInt
    (i, (max (-128) (min 127 n) % 256).toNat, decide (n < -128 ∨ 127 < n))
  let nib := sv.zipIdx.map fun y =>
    let n : Int := y.1.toInt
    if used.contains y.2 then (0, false)
    else ((max (-8) (min 7 n) % 16 : Int).toNat, decide (n < -8 ∨ 7 < n) || y.1.isNan)
  (nib.map (·.1), outs.map (fun o => (o.1, o.2.1)),
    (nib.filter (·.2)).length + (outs.filter (·.2.2)).length)

/-- Encode values in a type, given each block's scale byte: the tile and the number clipped. -/
def encodeVals (ty : Nat) (s4 : Bool) (rows cols : Nat) (scales : List Nat) (vs : List Val) : DTile × Nat :=
  if s4 then
    let bl := (List.range (rows * cols / 32)).map fun j =>
      encodeS4Block (scales.getD j 127) ((vs.drop (32 * j)).take 32)
    (⟨6, true, rows, cols, (bl.map (·.1)).flatten, scales, bl.map (·.2.1)⟩, (bl.map (·.2.2)).foldl (· + ·) 0)
  else
    let r := vs.zipIdx.map fun y => encodeElem ty (if scaled ty then scales.getD (y.2 / 32) 127 else 127) y.1
    (⟨ty, false, rows, cols, r.map (·.1), scales, []⟩, (r.filter (·.2)).length)

/-- Blocks' exact scales (R64); no list for a type without a scale. -/
def exactScales (ty : Nat) (s4 : Bool) (rows cols : Nat) (vs : List Val) : List Nat :=
  if scaled ty then (List.range (rows * cols / 32)).map fun j => exactScale ty s4 ((vs.drop (32 * j)).take 32) else []

/-- Encode at exact scales. -/
def encodeExact (ty : Nat) (s4 : Bool) (rows cols : Nat) (vs : List Val) : DTile × Nat :=
  encodeVals ty s4 rows cols (exactScales ty s4 rows cols vs) vs

/-! ### Writing a layout -/

/-- Slot positions of an N:M group (R67): its non-zero positions and the lowest unused ones, ascending; at most N. -/
def nmSlots (n m : Nat) (nz : List Nat) : List Nat :=
  let fillers := ((List.range m).filter fun i => !nz.contains i).take (n - nz.length)
  (List.range m).filter fun i => nz.contains i || fillers.contains i

/-- Non-zero positions of group `g` as stored. -/
def DTile.groupNz (t : DTile) (m g : Nat) : List Nat :=
  (List.range m).filter fun i => !codeZero t.elem (t.codes.getD (g * m + i) 0)

/-- Non-zero positions of group `g` for an encoder that was given the values `vs`: a NaN is no zero, whatever its code and
scale, though it is stored as one (R62, R63, R80; DEDUCED, log entry 69). -/
def DTile.groupValNz (t : DTile) (vs : List Val) (m g : Nat) : List Nat :=
  (List.range m).filter fun i =>
    !codeZero t.elem (t.codes.getD (g * m + i) 0) || (vs.getD (g * m + i) .zero).isNan

/-- An N:M group holds more than N non-zero elements (R80). -/
def DTile.nmViolation (t : DTile) (vs : List Val) (pair : Nat) : Bool :=
  let (n, m) := nmOf pair
  (List.range (t.rows * t.cols / m)).any fun g => (t.groupValNz vs m g).length > n

/-! ### Encodings no encoder writes (R61, R62) -/

/-- Stored scale bytes as an encoder that keeps them writes them: 0xFF is never written (R62). A block under it is NaN and is
stored as zeros (R63), whose scale is 127 (R64; DEDUCED, log entry 69). -/
def keptScales (t : DTile) : List Nat := t.scales.map fun x => if x = 255 then 127 else x

/-- The code an encoder stores for element `i` kept at its stored scale, and whether it was clipped (R62, R63): a code of
the list of R62 is encoded anew, every other code is kept. -/
def DTile.keptCode (t : DTile) (i : Nat) : Nat × Bool :=
  let c := t.codes.getD i 0
  if t.scaleAt i = 255 then (0, true)
  else if t.elem ≤ 9 ∧ codeAlert .vector t.elem c then
    let r := encodeElem t.elem 127 (present .vector t.elem 127 c)
    (r.1, r.2)
  else (c, false)

/-- A tile as a layout-only conversion writes it: its codes, scales and outliers, without the encodings of R62, and the
elements clipped by that. -/
def DTile.kept (t : DTile) : DTile × Nat :=
  let cs := (List.range (t.rows * t.cols)).map t.keptCode
  ({ t with
      codes := cs.map (·.1), scales := keptScales t
      outs := t.outs.zipIdx.map fun x => if t.scales.getD x.2 127 = 255 then [] else x.1 },
    (cs.filter (·.2)).length)

/-- Bytes of a tile in a layout, without fallback (R66–R70). -/
def layoutBytes (layout pair : Nat) (t : DTile) : List Byte :=
  let b := elemBits t.elem
  let e := t.rows * t.cols
  let sc := packFields 8 t.scales
  let nz := (List.range e).filter fun i => !codeZero t.elem (t.codes.getD i 0)
  match layout with
  | 1 =>
    let (n, m) := nmOf pair
    let slots := (List.range (e / m)).flatMap fun g => (nmSlots n m (t.groupNz m g)).map fun i => (i, t.codes.getD (g * m + i) 0)
    packFields b (slots.map (·.2)) ++ packFields (Nat.log2 m) (slots.map (·.1)) ++ sc
  | 2 =>
    packFields 1 ((List.range e).map fun i => if codeZero t.elem (t.codes.getD i 0) then 0 else 1)
      ++ packFields b (nz.map fun i => t.codes.getD i 0) ++ sc
  | 3 =>
    leBytes 4 nz.length
      ++ (nz.flatMap fun i => leBytes (if t.elem ≥ 10 then 6 else 4)
            (i / t.cols + i % t.cols * 2 ^ 8 + t.codes.getD i 0 * 2 ^ 20)) ++ sc
  | 4 => packFields 4 (t.codes.zipIdx.map fun x => if (t.outAt x.2).isSome then 0 else x.1) ++ sc
      ++ packFields 32 (t.outs.map recordOf)
  | _ => packFields b t.codes ++ sc

/-- Dense length (R71). -/
def denseLen (ty rows cols : Nat) : Nat := cdiv (rows * cols * elemBits ty) 8 + scaleCount ty rows cols

/-- The payload stored for a format: the layout's form, or the dense form when a bitmap or coordinate list would be
longer (R78), and whether it fell back. -/
def encodeLayout (fmt pair : Nat) (t : DTile) : List Byte × Bool :=
  let l := layoutOf fmt
  let bs := layoutBytes l pair t
  if (l = 2 ∨ l = 3) ∧ bs.length > denseLen t.elem t.rows t.cols then (layoutBytes 0 0 t, true) else (bs, false)

/-- ZERO_MAP (R37, R73): a row group holds ceil(ROWS ÷ 64) rows. -/
def DTile.zeroMap (t : DTile) : Word64 :=
  let g := cdiv t.rows 64
  (List.range (cdiv t.rows g)).foldl (fun (m : Word64) i =>
    setBit m i ((List.range (min g (t.rows - i * g) * t.cols)).all fun j => t.zeroAt (i * g * t.cols + j))) 0

end Sys2Proof.Machine
end

