-- ==== Sys2Proof/Machine/Matrix.lean ====
section
/-! DEFINITION. The matrix engines' arithmetic (R85–R117): what a lane's accumulators hold after its tile pairs, the
values it reads out, the stream table, and the scales its outputs are encoded at. -/

namespace Sys2Proof.Machine

/-! ### Operand types (R87) and precision drop (R109) -/

def isIntTy (ty : Nat) : Bool := ty = 0 ∨ ty = 1 ∨ ty = 6 ∨ ty = 8 ∨ ty = 9

/-- R87: some true = integer class, some false = float class, none = refused. -/
def accClass (a b : Nat) : Option Bool :=
  if isIntTy a ∧ isIntTy b then some true
  else if a ≤ 9 ∧ b ≤ 9 then some false
  else if (a = 10 ∨ a = 11) ∧ (b = 10 ∨ b = 11) then some false
  else none

/-- The type presented for a stored type at a floor (R109). -/
def dropType (ty floor : Nat) : Nat :=
  if floor = 4 then
    match ty with | 0 | 1 => 6 | 2 | 3 | 4 | 5 => 7 | _ => ty
  else if floor = 2 then
    match ty with | 0 | 1 | 6 => 8 | 2 | 3 | 4 | 5 => 7 | _ => ty
  else ty

/-- An operand tile as the lane meets it: requantised at exact block scales after a drop, a block of scale 0xFF staying
one (R62, R88). S4 is never dropped. -/
def presented (floor : Nat) (t : DTile) : DTile :=
  if t.s4 ∨ dropType t.elem floor = t.elem then t
  else
    let r := (encodeExact (dropType t.elem floor) false t.rows t.cols (t.vals .matrix)).1
    { r with scales := r.scales.zipIdx.map fun x => if t.scales.getD x.2 127 = 255 then 255 else x.1 }

/-- A buffer's tile. -/
def Flight.tile? (f : Flight) (role idx : Nat) : Option DTile :=
  (f.bufs.find? fun b => b.role = role ∧ b.idx = idx).map (·.tile)
def Flight.tile (f : Flight) (role idx : Nat) : DTile :=
  (f.tile? role idx).getD ⟨0, false, 0, 0, [], [], []⟩

/-- Buffer roles of a matrix packet, and the index of lane `l`'s tile `i`. -/
def roleA : Nat := 0
def roleB : Nat := 1
def roleO : Nat := 2
def laneIdx (l i : Nat) : Nat := l * 1024 + i

/-! ### Accumulation -/

/-- An accumulator: value, overflow mark with its sign, whether an addition into it was shifted (R88–R90). -/
structure Acc where
  v : Val
  mark : Option Bool
  align : Bool
  deriving DecidableEq, Repr

/-- Integer code of an element, outliers included (R70, R88). -/
def DTile.icode (t : DTile) (i : Nat) : Int :=
  match t.outAt i with
  | some c => signed 8 c
  | none =>
    let c := t.codes.getD i 0
    if t.elem = 9 then (if c % 4 = 1 then 1 else if c % 4 = 3 then -1 else 0) else signed (elemBits t.elem) c

/-- The two's-complement wrap of 32 bits. -/
def wrap32 (x : Int) : Int := (x + 2 ^ 31) % 2 ^ 32 - 2 ^ 31

/-- Integer addition into an accumulator (R88). -/
def Acc.addInt (a : Acc) (x : Int) (shifted : Bool) : Acc :=
  let cur : Int := match a.v with | .fin m _ => m | _ => 0
  let r := cur + x
  { v := .fin (wrap32 r) 0, mark := if r < -(2 ^ 31) ∨ 2 ^ 31 ≤ r then some (r < 0) else a.mark,
    align := a.align || shifted }

/-- Largest finite FP32 value of a sign. -/
def maxF32 (neg : Bool) : Val := .fin (if neg then -(2 ^ 24 - 1) else 2 ^ 24 - 1) 104

/-- Float addition of one exact block sum (R89). -/
def Acc.addFloat (a : Acc) (x : Val) : Acc :=
  match f32 x with
  | .inf n => { a with v := maxF32 n, mark := some n }
  | r =>
    match f32 (a.v.add r) with
    | .inf n => if a.v.isFin then { a with v := maxF32 n, mark := some n } else { a with v := .inf n }
    | y => { a with v := y }

/-- Exponent carried by an integer type's codes (R58, R88). -/
def intExp (ty : Nat) : Int := if ty = 1 then -6 else 0

/-- Scale byte of block `j` of row `r`. -/
def DTile.blockScale (t : DTile) (r j : Nat) : Nat := t.scales.getD (r * (t.cols / 32) + j) 127

/-- The blocks of one output of one tile pair added to its accumulator, row `m` of A with row `n` of B (R88, R89). -/
def addPair (int : Bool) (accExp : Int) (ta tb : DTile) (m n : Nat) (acc : Acc) : Acc :=
  if int then
    (List.range (ta.cols / 32)).foldl (fun a j =>
      let xa := ta.blockScale m j
      let xb := tb.blockScale n j
      if xa = 255 ∨ xb = 255 then a
      else
        let s := (List.range 32).foldl (fun (t : Int) k =>
          t + ta.icode (m * ta.cols + 32 * j + k) * tb.icode (n * tb.cols + 32 * j + k)) 0
        let p := (xa : Int) + xb - 254 + intExp ta.elem + intExp tb.elem
        a.addInt (rne s (p - accExp)) (decide (p < accExp))) acc
  else
    let w := if scaled ta.elem then 32 else 2
    (List.range (cdiv ta.cols w)).foldl (fun a j =>
      if scaled ta.elem ∧ (ta.blockScale m j = 255 ∨ tb.blockScale n j = 255) then a
      else
        a.addFloat ((List.range (min w (ta.cols - w * j))).foldl (fun t k =>
          t.add ((ta.valAt .matrix (m * ta.cols + w * j + k)).mul (tb.valAt .matrix (n * tb.cols + w * j + k))))
          .zero)) acc

/-- Row group of an A row, and whether lane `l` skipped it for pair `i` (R86, R98). -/
def Flight.skipped? (f : Flight) (l i m : Nat) : Bool :=
  match f.bufs.find? fun b => b.role = roleA ∧ b.idx = i with
  | some b => b.steered.contains (l * 8 + m / 8)
  | none => false

/-- Two finite values are equal. -/
def Val.same : Val → Val → Bool
  | .fin m e, .fin n g => decide (dcmp m e n g = 0)
  | _, _ => false

/-- The accumulators of `MATMUL_ACC` before the first pair (R117). The spec gives no value for an infinity or NaN, nor,
in the float class, for a decoded value FP32 cannot hold (scale bytes near 254): there the word loaded is a free value
of the packet (DESIGN CHOICE, log entry 19). -/
def initAcc (f : Flight) (int : Bool) (l k : Nat) (v : Val) : Acc :=
  let v := if v.isFin && (int || (f32 v).same v) then v
    else ofF32 ((Config.free 1 (f.id * 2 ^ 20 + l * 2 ^ 14 + k)).extractLsb' 0 32)
  if int then
    match v with
    | .fin m e =>
      let x := rne m (e - f.pkt.mAccExp)
      { v := .fin (wrap32 x) 0, mark := if x < -(2 ^ 31) ∨ 2 ^ 31 ≤ x then some (x < 0) else none
        align := dcmp x f.pkt.mAccExp m e != 0 }
    | .inf n => ⟨.zero, some n, false⟩
    | .nan => ⟨.zero, none, false⟩
  else ⟨v, none, false⟩

/-- The floor of lane `l`'s B chain (R109). -/
def Flight.floorB (f : Flight) (l : Nat) : Nat := ((f.dropB.find? fun x => x.1 = l).map (·.2)).getD 0

/-- Shape of a lane's block: M, N, whether it is of the integer class. -/
def Flight.blockShape (f : Flight) (l : Nat) : Nat × Nat × Bool :=
  let a := presented f.dropA (f.tile roleA 0)
  let b := presented (f.floorB l) (f.tile roleB (laneIdx l 0))
  (a.rows, b.rows, (accClass a.elem b.elem).getD false)

/-- Decoded values of a lane's output tiles, in row order (R117). -/
def Flight.initVals (f : Flight) (l : Nat) : List Val :=
  ((List.range f.pkt.mOTiles).map fun t =>
    let o := f.tile roleO (laneIdx l t)
    o.vals (if o.elem = 12 then .vector else .matrix)).flatten

/-- A lane's tile pairs as the lane meets them, with their index. -/
def Flight.pairs (f : Flight) (l : Nat) : List (Nat × DTile × DTile) :=
  (List.range f.pkt.mK).map fun i =>
    (i, presented f.dropA (f.tile roleA i), presented (f.floorB l) (f.tile roleB (laneIdx l i)))

/-- A lane's accumulators before its first pair (R117). -/
def laneInit (f : Flight) (l : Nat) : List Acc :=
  let (rows, cols, int) := f.blockShape l
  if f.pkt.op = 0x19 then (f.initVals l).zipIdx.map fun x => initAcc f int l x.2 x.1
  else List.replicate (rows * cols) ⟨.zero, none, false⟩

/-- A lane's accumulators after its last pair, row-major (R85). -/
def laneAccs (f : Flight) (l : Nat) : List Acc :=
  let (rows, cols, int) := f.blockShape l
  let init := laneInit f l
  let pairs := f.pairs l
  (List.range (rows * cols)).map fun k =>
    let m := k / cols
    let n := k % cols
    pairs.foldl (fun a x => if f.skipped? l x.1 m then a else addPair int f.pkt.mAccExp x.2.1 x.2.2 m n a)
      (init.getD k ⟨.zero, none, false⟩)

/-- The value an accumulator word stands for, before saturation (R91). -/
def AccWord.val (int : Bool) (accExp : Int) (w : AccWord) : Val :=
  if int then .fin w.bits.toInt accExp else ofF32 w.bits

/-- Accumulators as the words an MXE holds. -/
def Acc.word (int : Bool) (a : Acc) : AccWord :=
  ⟨if int then (match a.v with | .fin m _ => BitVec.ofInt 32 m | _ => 0) else f32bits a.v, a.mark⟩
def laneWords (f : Flight) (l : Nat) : List AccWord := (laneAccs f l).map (Acc.word (f.blockShape l).2.2)

/-- An output block has an alignment event (R88). -/
def laneAlign (f : Flight) (l : Nat) : Bool := (laneAccs f l).any (·.align)

/-! ### Check lanes (R101–R103) -/

/-- What one tile pair adds to the check registers for output (m, n): the exact sum of its products, and of their
magnitudes (R101). A block with a scale byte of 0xFF adds nothing (R88). -/
def pairCheck (int : Bool) (ta tb : DTile) (m n : Nat) : Val × Val :=
  let w := if scaled ta.elem then 32 else 2
  (List.range (cdiv ta.cols w)).foldl (fun a j =>
    if scaled ta.elem ∧ (ta.blockScale m j = 255 ∨ tb.blockScale n j = 255) then a
    else if int then
      let p := (ta.blockScale m j : Int) + tb.blockScale n j - 254 + intExp ta.elem + intExp tb.elem
      (List.range 32).foldl (fun a k =>
        let x := ta.icode (m * ta.cols + 32 * j + k) * tb.icode (n * tb.cols + 32 * j + k)
        (a.1.add (.fin x p), a.2.add (.fin x.natAbs p))) a
    else (List.range (min w (ta.cols - w * j))).foldl (fun a k =>
        let x := (ta.valAt .matrix (m * ta.cols + w * j + k)).mul (tb.valAt .matrix (n * tb.cols + w * j + k))
        (a.1.add x, a.2.add x.abs)) a) (.zero, .zero)

/-- What all pairs and the loaded value bring to the check registers for each output: terms and magnitudes (R101, R117). -/
def laneChecks (f : Flight) (l : Nat) : List (Val × Val) :=
  let (rows, cols, int) := f.blockShape l
  let init := laneInit f l
  let pairs := f.pairs l
  (List.range (rows * cols)).map fun k =>
    let m := k / cols
    let n := k % cols
    let x := match (init.getD k ⟨.zero, none, false⟩).v with
      | .fin v e => Val.fin v (if int then f.pkt.mAccExp else e)
      | v => v
    pairs.foldl (fun a p =>
      if f.skipped? l p.1 m then a
      else let c := pairCheck int p.2.1 p.2.2 m n; (a.1.add c.1, a.2.add c.2)) (x, x.abs)

def sumVals (l : List Val) : Val := l.foldl Val.add .zero

/-- Elements of row line m, of column line n, of the whole block: numbers m, 64 + n, 128. -/
def lineOf (rows cols line : Nat) (xs : List Val) : Val :=
  if line < 64 then sumVals ((List.range cols).map fun n => xs.getD (line * cols + n) .zero)
  else if line < 128 then sumVals ((List.range rows).map fun m => xs.getD (m * cols + (line - 64)) .zero)
  else sumVals xs

/-- FP32 additions per output (R103). -/
def Flight.additions (f : Flight) (l : Nat) : Nat :=
  ((f.pairs l).map fun p => cdiv p.2.1.cols (if scaled p.2.1.elem then 32 else 2)).foldl (· + ·) 0
    + (decide (f.pkt.op = 0x19)).toNat

/-- A line fails: |Σ outputs − check| exceeds 2^-20 × ceil(B ÷ 16) × S (R103). -/
def beyondTol (d s : Val) (b : Nat) : Bool :=
  match d, s with
  | .fin m e, .fin sm se => !dle m.natAbs e (sm * cdiv b 16) (se - 20)
  | _, _ => true

/-- A line fails: the sums differ modulo 2^32 (R102). -/
def differs32 (d : Val) (accExp : Int) : Bool :=
  match d with
  | .fin m e =>
    let x := rne m (e - accExp)
    dcmp x accExp m e != 0 || decide (x % 2 ^ 32 ≠ 0)
  | _ => true

/-- The comparison of a block whose accumulators hold `ws`, its check registers off by `up`: the failing lines. In the
integer class a block without alignment events is compared exactly modulo 2^32, any other under the float rule; the
corner's S is the sum of the row lines' (DEDUCED, log entry 70). -/
def failingLines (f : Flight) (l : Nat) (ws : List AccWord) (up : Upset) : List Nat :=
  let (rows, cols, int) := f.blockShape l
  let outs := ws.map (AccWord.val int f.pkt.mAccExp)
  let terms := (laneChecks f l).map Prod.fst
  let mags := (laneChecks f l).map Prod.snd
  let exact := int && !laneAlign f l
  let b := f.additions l
  (List.range rows ++ (List.range cols).map (64 + ·) ++ [128]).filter fun n =>
    let off := match up.regs.find? fun (r : Nat × Int × Int) => r.1 = n with | some (_, m, e) => Val.fin m e | none => .zero
    let d := (lineOf rows cols n outs).sub ((lineOf rows cols n terms).add off)
    if exact then differs32 d f.pkt.mAccExp else beyondTol d (lineOf rows cols n mags) b

/-- The words of an MXE that met an upset. -/
def upsetWords (up : Upset) (ws : List AccWord) : List AccWord :=
  ws.zipIdx.map fun x => match up.accs.find? fun a => a.1 = x.2 with | some a => { x.1 with bits := a.2 } | none => x.1

/-! ### Readout (R90, R91) -/

/-- The accumulators a lane holds for its readout. -/
def Flight.held (f : Flight) (l : Nat) : List AccWord := ((f.accs.find? fun x => x.1 = l).map (·.2)).getD []

/-- Values at readout (R90, R91). -/
def laneVals (f : Flight) (l : Nat) : List Val :=
  let int := (f.blockShape l).2.2
  (f.held l).map fun w =>
    match w.mark with
    | some n => if int then .fin (if n then -(2 ^ 31) else 2 ^ 31 - 1) f.pkt.mAccExp else maxF32 n
    | none => w.val int f.pkt.mAccExp

/-- Accumulators saturated. -/
def laneSat (f : Flight) (l : Nat) : Nat := ((f.held l).filter (·.mark.isSome)).length

/-! ### Stream table (R112) and scales (R110, R111) -/

/-- The enabled entry of a stream of a context, the lowest if two match. -/
def State.streamEntry (s : State) (b ctx stream : Nat) : Option Nat :=
  if stream = 0 then none
  else (List.range 256).find? fun e =>
    let c := s.reg (.trnStreamCfg b e)
    bit c 63 ∧ fld c 0 12 = stream ∧ fld c 24 4 = ctx

/-- The stream entry of a descriptor. -/
def State.entryOf (s : State) (b : Nat) (d : BitVec 512) : Option Nat := s.streamEntry b (dCtx d) (dStream d)

/-- RANGE as a value. -/
def bf16Val (x : Nat) : Val := fpBf16.decode x

/-- The proposed scale of a type (R111). -/
def proposedScale (ty range headroom : Nat) : Nat :=
  match bf16Val range with
  | .fin m e => ((List.range 255).find? fun (x : Nat) =>
      dle m (e + headroom) (elemMax ty).1 ((elemMax ty).2 + (x : Int) - 127)).getD 254
  | _ => 254

/-- Two-pass encoding is used (R110). -/
def State.twoPass (s : State) (b : Nat) (exact s4 : Bool) (d : BitVec 512) : Bool :=
  exact || s4 || match s.entryOf b d with
    | none => true
    | some e => bit (s.reg (.trnStreamCfg b e)) 60 || !bit (s.reg (.trnStreamSt b e)) 63

/-- Scale bytes for an engine's output tile: exact where it is encoded two-pass, else the proposed scale (R110), from RANGE as it
stands when the tile is made (DESIGN CHOICE, log entry 80). -/
def State.outScales (s : State) (b : Nat) (two : Bool) (d : BitVec 512) (rows cols : Nat) (vs : List Val) : List Nat :=
  let ty := elemOf (dFormat d)
  let s4 := layoutOf (dFormat d) = 4
  if !scaled ty then []
  else if two then exactScales ty s4 rows cols vs
  else match s.entryOf b d with
    | some e => List.replicate (rows * cols / 32)
        (proposedScale ty (s.rfld (.trnStreamSt b e) 32 16) (s.rfld (.trnStreamCfg b e) 50 2))
    | none => exactScales ty s4 rows cols vs

/-- RANGE after a close (R111): max(MAX_MAG, RANGE × (1 − 2^−DECAY)) with the product rounded to BF16 toward zero. -/
def nextRange (range maxMag decay : Nat) : Nat :=
  match bf16Val range with
  | .fin m e =>
    if m = 0 then maxMag
    else
      let m' := m * (2 ^ decay - 1)
      let e' := e - decay
      if m' = 0 then maxMag
      else
        let ex := max (ilog m' e') fpBf16.emin
        let sh := e' - (ex - 7)
        let n : Int := if 0 ≤ sh then m' * 2 ^ sh.toNat else m' / 2 ^ (-sh).toNat
        max maxMag ((ex - fpBf16.emin) * 2 ^ 7 + n).toNat
  | _ => maxMag

/-- RANGE before the present cycle's closes of a stream, and the largest MAX_MAG they had. -/
def State.streamCycle (s : State) (b e : Nat) : Nat × Nat :=
  match s.fresh.find? fun (h : HwUpdate) => match h with | .stream b' e' _ _ => b' = b ∧ e' = e | _ => false with
  | some (.stream _ _ base mag) => (base, mag)
  | _ => (s.rfld (.trnStreamSt b e) 32 16, 0)

/-- The stream entry's update at a close; of the closes of one cycle the largest MAX_MAG applies once (R111). -/
def State.streamClose (s : State) (b : Nat) (d : BitVec 512) : State :=
  match s.entryOf b d with
  | none => s
  | some e =>
    let (base, mag) := s.streamCycle b e
    let mag := max mag (dMaxMag d)
    let s := { s with fresh := .stream b e base mag :: s.fresh }
    (s.putFld (.trnStreamSt b e) 32 16 (nextRange base mag (s.rfld (.trnStreamCfg b e) 52 4))).putFld
      (.trnStreamSt b e) 63 1 1

/-- CLIP_COUNT is over the tolerance of the tile's stream (R107). -/
def State.overTolerance (s : State) (b : Nat) (d : BitVec 512) (clip : Nat) : Bool :=
  let tol := match s.entryOf b d with | some e => s.rfld (.trnStreamCfg b e) 32 16 | none => 0
  decide (clip * 2 ^ 16 > tol * dRows d * dCols d)

/-! ### Staging (R87, R92, R93, R95) -/

/-- Depth of a cell per cycle, by the width of the wider operand (R87). -/
def depthOf (bits : Nat) : Nat := if bits ≤ 2 then 32 else if bits ≤ 4 then 16 else if bits ≤ 8 then 8 else 2

/-- The elements of a tile at depth positions [lo, hi), row by row: of a steered tile the stored ones. -/
def DTile.slice (t : DTile) (steered : List Nat) (lo hi : Nat) : List Nat :=
  (List.range t.rows).flatMap fun r => ((List.range (min hi t.cols - lo)).map fun k => r * t.cols + lo + k).filter fun i =>
    steered.isEmpty || steered.contains i

/-- Depth step `j` of a tile pair of depth `d` as a half of the staging holds it. -/
def stagedStep (ta tb : DTile) (steered : List Nat) (d j : Nat) : StagingHalf :=
  let bs := tb.slice steered (d * j) (d * (j + 1))
  let codes := fun (t : DTile) (is : List Nat) => packFields (elemBits t.elem) (is.map fun i => t.codes.getD i 0)
  let scales := fun (t : DTile) => if scaled t.elem then
    (List.range t.rows).map fun r => BitVec.ofNat 8 (t.blockScale r (d * j / 32)) else []
  { elems := codes ta (ta.slice [] (d * j) (d * (j + 1))) ++ codes tb bs
    steered := if steered.isEmpty then [] else bs, scales := scales ta ++ scales tb }

/-- A step enters the half whose turn it is. -/
def Staging.push (g : Staging) (h : StagingHalf) : Staging :=
  { g with halves := if g.next then (g.halves.1, h) else (h, g.halves.2), next := !g.next }

/-- The staging of an MXE. -/
def State.stagingOf (s : State) (b u : Nat) : Staging :=
  (s.staging.find? fun g => g.basin = b ∧ g.unit = u).getD ⟨b, u, (⟨[], [], []⟩, ⟨[], [], []⟩), false⟩

/-- A tile pair passes through its lane's staging, step by step, once its B tile is there too: the last two steps stay. -/
def State.stagePair (s : State) (f : Flight) (idx b u lane : Nat) : State :=
  let i := idx % 1024
  let ta := presented f.dropA (f.tile roleA i)
  let tb := presented (f.floorB lane) (f.tile roleB idx)
  let steered := ((f.bufs.find? fun x => x.role = roleB ∧ x.idx = idx).map (·.steered)).getD []
  let d := depthOf (max (elemBits ta.elem) (elemBits tb.elem))
  let g := (List.range (cdiv ta.cols d)).foldl (fun (g : Staging) j => g.push (stagedStep ta tb steered d j)) (s.stagingOf b u)
  { s with staging := g :: s.staging.filter fun x => !(x.basin = b ∧ x.unit = u) }

/-! ### Units (R119) -/

/-- The MXE that serves a slot. -/
def State.mxeAt (s : State) (b furrow slot : Nat) : Option Nat :=
  (List.range (s.cfg.activeMxe + s.cfg.spareMxe)).find? fun u =>
    s.rfld (.mxeSt b u) 32 8 = furrow ∧ s.rfld (.mxeSt b u) 24 8 = slot

/-- Row groups of an A tile whose ZERO_MAP bits are all set (R98). -/
def zeroGroups (rows : Nat) (zmapValid : Bool) (zmap : Word64) : List Nat :=
  if zmapValid then
    (List.range (cdiv rows 8)).filter fun g =>
      (List.range 8).all fun i => decide (g * 8 + i ≥ rows) || bit zmap (g * 8 + i)
  else []

/-- Groups the predictor of a unit predicts as skipped (R99). -/
def State.predicted (s : State) (b u rows stream : Nat) : List Nat :=
  if bit (s.reg (.mxePred b u)) 63 ∧ s.rfld (.mxePred b u) 0 12 = stream then
    zeroGroups rows true (s.reg (.mxePredMap b u))
  else []

/-- The predictor takes a tile's stream and zero map (R99). -/
def State.predict (s : State) (b u : Nat) (d : BitVec 512) : State :=
  (s.putReg (.mxePred b u) (BitVec.ofNat 64 (2 ^ 63 + dStream d))).putReg (.mxePredMap b u)
    (if dZmapValid d then dZmap d else 0)

end Sys2Proof.Machine
end

