-- ==== Sys2Proof/Machine/Vector.lean ====
section
/-! DEFINITION. The vector engines' arithmetic (R123–R131). Approximated functions are free values held to the bound of
R126: the part's own value where it lies within the bound of the exact result, else the exact result rounded. -/

namespace Sys2Proof.Machine

/-! ### Exact functions in fixed point, 320 fraction bits -/

def fxBits : Nat := 320
def fxOne : Int := 2 ^ fxBits

/-- m × 2^e in fixed point, rounded down. -/
def toFx (m e : Int) : Int :=
  let k := e + fxBits
  if 0 ≤ k then m * 2 ^ k.toNat else m / 2 ^ (-k).toNat

/-- Product and quotient in fixed point. -/
def fxMul (a b : Int) : Int := a * b / fxOne
def fxDiv (a b : Int) : Int := if b = 0 then 0 else a * fxOne / b

/-- Σ_{i ≥ k} x^i ÷ i! from the term x^k ÷ k!, `n` terms. -/
def expSeries (x : Int) : Nat → Nat → Int → Int
  | 0, _, _ => 0
  | n + 1, k, t => t + expSeries x n (k + 1) (fxMul t x / (k + 1 : Nat))

/-- n squarings. -/
def fxSquares : Nat → Int → Int
  | 0, x => x
  | n + 1, x => fxSquares n (fxMul x x)

/-- exp of a fixed-point argument: exp(x ÷ 2^16) squared 16 times; zero below −220, where FP32 has underflowed. -/
def fxExp (x : Int) : Int :=
  if x < -220 * fxOne then 0
  else fxSquares 16 (expSeries (x / 2 ^ 16) 40 0 fxOne)

/-- Σ z^(2i+1) ÷ (2i+1) from the power z^(2i+1), `n` terms. -/
def atanhSeries (zz : Int) : Nat → Nat → Int → Int
  | 0, _, _ => 0
  | n + 1, i, t => t / (2 * i + 1 : Nat) + atanhSeries zz n (i + 1) (fxMul t zz)
def fxAtanh (z : Int) : Int := atanhSeries (fxMul z z) 110 0 z

/-- Natural logarithm of m × 2^e, m > 0. -/
def fxLn (m e : Int) : Int :=
  let k := ilog m e
  let y := toFx m (e - k)
  2 * fxAtanh (fxDiv (y - fxOne) (y + fxOne)) + k * (2 * fxAtanh (fxDiv fxOne (3 * fxOne)))

/-- Square root of a fixed-point number. -/
def fxSqrt (x : Int) : Int := isqrt (x.toNat * 2 ^ fxBits)

/-- A fixed-point number as a value. -/
def ofFx (x : Int) : Val := .fin x (-(fxBits : Int))

/-! ### Free values within a bound (R126) -/

/-- |c − x| ≤ tol, for a code's value against a fixed-point result. -/
def nearFx (c : BitVec 32) (x tol : Int) : Bool :=
  match ofF32 c with
  | .fin m e => decide ((toFx m e - x).natAbs ≤ tol.toNat)
  | _ => false

/-- The result of an approximated function: the part's own value `c` if it is within `tol` of the exact result `x`, else
the exact result rounded to FP32. Where the exact result is no normal FP32 number the spec gives no bound, and the
part's own value stands. -/
def bounded (c : BitVec 32) (x tol : Int) : Val :=
  let normal := decide (toFx 1 (-126) ≤ x.natAbs ∧ (x.natAbs : Int) < toFx 1 128)
  if !normal || nearFx c x tol then ofF32 c else f32 (ofFx x)

/-- Relative tolerance num × 2^−k. -/
def relTol (x num : Int) (k : Nat) : Int := x.natAbs * num / 2 ^ k

/-! ### Elementwise operations (R125, R126) -/

def fmaF32 (a x b : Val) : Val := f32 ((a.mul x).add b)

def vMax (x y : Val) : Val := if x.isNan || y.isNan then .nan else if x.lt y then y else x
def vMin (x y : Val) : Val := if x.isNan || y.isNan then .nan else if y.lt x then y else x

/-- EXP of an argument already rounded to FP32 by its elementary steps (R124). -/
def vExp (fn : Nat) (ops : List (BitVec 32)) (t : Val) : Val :=
  match t with
  | .nan => .nan
  | .inf n => if n then .zero else .inf false
  | .fin m e =>
    if m = 0 then .one
    else if dlt 8872 0 (m * 100) e then .inf false
    else let x := fxExp (toFx m e); bounded (Config.approxRow fn ops 0) x (relTol x 1 21)

/-- LOG, RECIP and RSQRT. -/
def vLog (t : Val) : Val :=
  match t with
  | .nan => .nan
  | .inf n => if n then .nan else .inf false
  | .fin m e =>
    if m = 0 then .inf true
    else if m < 0 then .nan
    else
      let x := fxLn m e
      let tol := if dle 1 (-1) m e && dle m e 2 0 then fxOne / 2 ^ 22 else relTol x 1 21
      let c := Config.approx 9 (f32bits t)
      if dle 1 (-1) m e && dle m e 2 0 then (if nearFx c x tol then ofF32 c else f32 (ofFx x)) else bounded c x tol
def vRecip (t : Val) : Val :=
  match t with
  | .nan => .nan
  | .inf _ => .zero
  | .fin m e =>
    if m = 0 then .inf false
    else let x := fxDiv fxOne (toFx m e); bounded (Config.approx 10 (f32bits t)) x (relTol x 1 22)
def vRsqrt (t : Val) : Val :=
  match t with
  | .nan => .nan
  | .inf n => if n then .nan else .zero
  | .fin m e =>
    if m = 0 then .inf false
    else if m < 0 then .nan
    else let x := fxSqrt (fxDiv fxOne (toFx m e)); bounded (Config.approx 11 (f32bits t)) x (relTol x 1 22)

/-- SILU: x ÷ (1 + exp(−x)); at the infinities by its elementary steps. -/
def vSilu (t : Val) : Val :=
  match t with
  | .nan => .nan
  | .inf n => if n then .nan else .inf false
  | .fin m e =>
    if m = 0 then .zero
    else
      let a := toFx m e
      let x := if a < -300 * fxOne then 0 else fxDiv a (fxOne + fxExp (-a))
      bounded (Config.approx 12 (f32bits t)) x (relTol x 1 20)

/-- One element of an elementwise operation. -/
def vElem (op : Nat) (a b : BitVec 32) (x y : Val) : Val :=
  let av := ofF32 a
  let bv := ofF32 b
  match op with
  | 0x00 => f32 x
  | 0x01 => f32 (x.add y)
  | 0x02 => f32 (x.sub y)
  | 0x03 => f32 (x.mul y)
  | 0x04 => vMax x y
  | 0x05 => vMin x y
  | 0x06 => fmaF32 av x bv
  | 0x07 => vMin (vMax x av) bv
  | 0x08 => vExp 8 [f32bits x, a, b] (f32 ((f32 (av.mul x)).add bv))
  | 0x09 => vLog x
  | 0x0A => vRecip x
  | 0x0B => vRsqrt x
  | _ => vSilu x

/-! ### Reductions (R127) -/

/-- Pairwise tree over a list of `2^k` lane results. -/
def treeFold (f : Val → Val → Val) : Nat → List Val → Val
  | 0, l => l.getD 0 .zero
  | k + 1, l =>
    treeFold f k ((List.range (2 ^ k)).map fun i => f (l.getD (2 * i) .zero) (l.getD (2 * i + 1) .zero))

/-- Sum of a row in lanes: lane ℓ takes columns c with c mod L = ℓ in ascending order, then the tree. -/
def laneSum (lg : Nat) (row : List Val) : Val :=
  let lanes := (List.range (2 ^ lg)).map fun l =>
    (row.zipIdx.filter fun x => x.2 % 2 ^ lg = l).foldl (fun a x => f32 (a.add x.1)) .zero
  treeFold (fun a b => f32 (a.add b)) lg lanes

def rowMax (row : List Val) : Val := row.foldl vMax (.inf true)

/-- What an approximated row function's own value depends on: the lane count and the row's operands (R127). -/
def rowArgs (lg : Nat) (args : List (BitVec 32)) : List (BitVec 32) := BitVec.ofNat 32 lg :: args

/-- SOFTMAX_ROW of A·x (R125–R127): each A·x is rounded (R124). A row whose maximum is +∞ forms exp(∞ − ∞), so that its
sum and every element are NaN. The lanes' running maxima and sums bear on the result only within the bound of R126, where
it is the part's own value for the row and the lane count (log entry 71). -/
def softmaxRow (fn lg : Nat) (args : List (BitVec 32)) (a : Val) (row : List Val) : List Val :=
  let ts := row.map fun x => f32 (a.mul x)
  if ts.any Val.isNan then row.map fun _ => .nan
  else
    match rowMax ts with
    | .inf true => row.map fun _ => .zero
    | .fin mm me =>
      let es := ts.map fun t => match t with
        | .fin tm te => fxExp (max (-300 * fxOne) (match (Val.fin tm te).sub (.fin mm me) with
            | .fin d de => if dlt d de (-300) 0 then -300 * fxOne else toFx d de | _ => 0))
        | _ => 0
      let sum := es.foldl (· + ·) 0
      let n := row.length
      es.zipIdx.map fun x =>
        let q := fxDiv x.1 sum
        if (ts.getD x.2 .zero).isFin then
          bounded (Config.approxRow fn (rowArgs lg args) x.2) q (relTol q (16 + n) 24)
        else .zero
    | _ => row.map fun _ => .nan

/-- p ÷ √d where one of them, or d's square root, is no finite positive number: by IEEE 754; none otherwise. -/
def divSqrtSpecial (p d : Val) : Option Val :=
  match p, d with
  | .nan, _ | _, .nan => some .nan
  | .inf _, .inf _ => some .nan
  | .fin _ _, .inf n => some (if n then .nan else .zero)
  | .inf n, .fin m _ => some (if m < 0 then .nan else .inf n)
  | .fin pm _, .fin m _ =>
    if m < 0 then some .nan
    else if m = 0 then some (if pm = 0 then .nan else .inf (pm < 0))
    else if pm = 0 then some .zero
    else none

/-- RMSNORM_ROW (R125–R127): ROW_SUMSQ is formed in lanes, the mean and B are added in elementary steps (R124); a NaN
anywhere makes the whole row NaN. The other special cases follow the formula; elsewhere the result is the part's own
within its bound, for the row, the element's Y and the lane count alone. -/
def rmsnormRow (lg : Nat) (args : List (BitVec 32)) (b : Val) (row ys : List Val) : List Val :=
  let n := row.length
  let sq := laneSum lg (row.map fun x => f32 (x.mul x))
  let mean := match sq with | .fin m e => f32 (ofFx (toFx m e / (n : Int))) | v => v
  let rad := f32 (mean.add b)
  let exact := match row.foldl (fun (acc : Val) x => acc.add (x.mul x)) .zero, b with
    | .fin sm se, .fin bm be => toFx sm se / (n : Int) + toFx bm be
    | _, _ => 0
  if row.any Val.isNan then row.map fun _ => .nan
  else row.zipIdx.map fun x =>
    let y := ys.getD x.2 .one
    let p := f32 (x.1.mul y)
    let free := Config.approxRow 0x19 (rowArgs lg (f32bits y :: args)) x.2
    match divSqrtSpecial p rad, x.1.mul y with
    | some v, _ => v
    | none, .fin pm pe =>
      if exact ≤ 0 then ofF32 free
      else let q := fxDiv (toFx pm pe) (fxSqrt exact)
        bounded free q (relTol q (8 + n) 24)
    | none, v => v

/-! ### Packets -/

/-- Presentation of a VXE input element: a magnitude of 2^128 or more is an infinity and alerts (R123). -/
def vxeIn (v : Val) : Val :=
  match v with
  | .fin m e => if dle 1 128 m.natAbs e then .inf (m < 0) else v
  | v => v
def DTile.vxeVals (t : DTile) : List Val := (t.vals .vector).map vxeIn
def DTile.vxeAlert (t : DTile) : Bool :=
  (t.vals .vector).any fun v => match v with | .fin m e => dle 1 128 m.natAbs e | _ => false

/-- log2 of the lane count (R123). -/
def laneLog (intCmp : Bool) (inTys outTys : List Nat) : Nat :=
  if intCmp ∧ inTys.all isIntTy then 6
  else if (inTys ++ outTys).contains 12 ∨ (inTys.contains 11 ∧ inTys.any (· != 11)) then 4
  else 5

/-- Roles of a VECTOR or TOPK packet: X on the last pass, Y, X on the first pass of a two-pass operation. -/
def roleX : Nat := 0
def roleY : Nat := 1
def roleX1 : Nat := 2

/-- The operations by shape (R125). -/
def vIsRow (op : Nat) : Bool := op = 0x10 ∨ op = 0x11 ∨ op = 0x12 ∨ op = 0x18 ∨ op = 0x19
def vTwoPass (op : Nat) : Bool := op = 0x18 ∨ op = 0x19
def vNeedsY (op : Nat) : Bool := 1 ≤ op ∧ op ≤ 5
def vDefined (op : Nat) : Bool :=
  decide (op ≤ 0x0C ∨ (0x10 ≤ op ∧ op ≤ 0x13) ∨ op = 0x18 ∨ op = 0x19)

/-- Y of element (r, c) of X tile `i` (R128). -/
def Flight.yAt (f : Flight) (i r c : Nat) : Val :=
  match f.pkt.vBcast with
  | 1 => vxeIn ((f.tile roleY 0).valAt .vector r)
  | 2 => vxeIn ((f.tile roleY i).valAt .vector c)
  | _ => let y := f.tile roleY i; vxeIn (y.valAt .vector (r * y.cols + c))

/-- Row `r` of the chain of X tiles, from the buffers of a role. -/
def Flight.chainRow (f : Flight) (role tiles r : Nat) : List Val :=
  (List.range tiles).flatMap fun i =>
    let t := f.tile role i
    (List.range t.cols).map fun c => vxeIn (t.valAt .vector (r * t.cols + c))
def Flight.chainStart (f : Flight) (role i : Nat) : Nat := ((List.range i).map fun j => (f.tile role j).cols).foldl (· + ·) 0

/-- Whether Y is named (R128). -/
def vHasY (p : Packet) : Bool := p.vY != 0x3FFF

/-- The values of output tile `i` of a VECTOR packet, row-major, before conversion (R124–R127); `lg` is log2 of the
lane count. -/
def vectorOut (f : Flight) (lg i : Nat) : List Val :=
  let p := f.pkt
  let op := p.vOp
  let n := p.vTiles
  if vIsRow op then
    let rows := (f.tile (if vTwoPass op then roleX1 else roleX) 0).rows
    match op with
    | 0x10 => (List.range rows).map fun r => laneSum lg (f.chainRow roleX n r)
    | 0x11 => (List.range rows).map fun r => f32 (rowMax (f.chainRow roleX n r))
    | 0x12 => (List.range rows).map fun r => laneSum lg ((f.chainRow roleX n r).map fun x => f32 (x.mul x))
    | _ =>
      let t := f.tile roleX i
      let st := f.chainStart roleX1 i
      (List.range rows).flatMap fun r =>
        let row := f.chainRow roleX1 n r
        let res :=
          if op = 0x18 then softmaxRow 0x18 lg (p.vA :: row.map f32bits) (ofF32 p.vA) row
          else
            let ys := if vHasY p then (List.range n).flatMap fun j =>
                (List.range (f.tile roleX1 j).cols).map fun c => if j = i then f.yAt j r c else .one
              else []
            rmsnormRow lg (p.vB :: row.map f32bits) (ofF32 p.vB) row ys
        (res.drop st).take t.cols
  else if op = 0x13 then
    let t := f.tile roleX i
    (List.range t.cols).map fun c =>
      (List.range t.rows).foldl (fun a r => f32 (a.add (vxeIn (t.valAt .vector (r * t.cols + c))))) .zero
  else
    let t := f.tile roleX i
    (List.range (t.rows * t.cols)).map fun k =>
      let y := if vNeedsY op then f.yAt i (k / t.cols) (k % t.cols) else .zero
      vElem op p.vA p.vB (vxeIn (t.valAt .vector k)) y

/-- Non-finite values written to BF16, FP16 or FP32 (R124). -/
def nonFinite (ty : Nat) (vs : List Val) : Nat := if scaled ty then 0 else (vs.filter (!·.isFin)).length

/-- Some NaN code of a format made from free bits. -/
def FpFmt.someNan (fm : FpFmt) (free : BitVec 32) : Nat :=
  let man := free.toNat % 2 ^ fm.mbits
  (if free.toNat / 2 ^ 31 % 2 = 1 then fm.signBit else 0) + fm.maxMag + 1 + if man = 0 then 1 else man

/-- The code of a NaN that operation `op` made of the element with code `x` of type `xty`: COPY to the same type stores it
as it is (R124); the spec gives no bits for any other, which are the part's own for its operands (DESIGN CHOICE, log entry
71). -/
def vNanCode (op xty x ty : Nat) (args : List (BitVec 32)) : Nat :=
  let fm := (elemFp ty).getD fpFp32
  if op = 0 ∧ xty = ty then x
  else fm.someNan (Config.approxRow (0x100 + op) (BitVec.ofNat 32 x :: args) ty)

/-- Codes of an unscaled output: infinities as they are, NaN by `nan` (R124). -/
def encodeVxe (ty : Nat) (s4 : Bool) (rows cols : Nat) (scales : List Nat) (nan : Nat → Nat) (vs : List Val) :
    DTile × Nat :=
  if scaled ty then encodeVals ty s4 rows cols scales vs
  else
    let fm := (elemFp ty).getD fpFp32
    let r := vs.zipIdx.map fun x => match x.1 with
      | .nan => (nan x.2, false)
      | .inf n => (fm.store (.inf n), false)
      | v => fm.encode v
    (⟨ty, false, rows, cols, r.map (·.1), [], []⟩, (r.filter (·.2)).length)

/-- Codes of output tile `i` of a `VECTOR` packet: a NaN's by its operand; RECIP of −∞ stores −0 (R126). -/
def vectorTile (f : Flight) (lg i ty : Nat) (s4 : Bool) (rows cols : Nat) (scales : List Nat) (vs : List Val) :
    DTile × Nat :=
  let p := f.pkt
  let x := f.tile roleX i
  let args := fun k => p.vA :: p.vB :: BitVec.ofNat 32 (2 ^ lg) :: f32bits (f.yAt i (k / max 1 cols) (k % max 1 cols))
    :: if vIsRow p.vOp || p.vOp = 0x13 then x.codes.map (BitVec.ofNat 32) ++ [BitVec.ofNat 32 k] else []
  let r := encodeVxe ty s4 rows cols scales (fun k => vNanCode p.vOp x.elem (x.codes.getD k 0) ty (args k)) vs
  let minusInf := fun k => decide (p.vOp = 0x0A ∧ !scaled ty ∧ vxeIn (x.valAt .vector k) = .inf true)
  ({ r.1 with codes := r.1.codes.zipIdx.map fun c =>
      if minusInf c.2 then ((elemFp ty).getD fpFp32).signBit else c.1 }, r.2)

/-! ### TOPK (R130) -/

/-- x ranks strictly above y: NaN below −∞. -/
def ranksAbove (x y : Val) : Bool := if x.isNan then false else if y.isNan then true else y.lt x

/-- Columns of the K largest scores, the lower column first among equals, in rank order. -/
def topkCols : Nat → List (Val × Nat) → List Nat
  | 0, _ => []
  | k + 1, l =>
    match l.foldl (fun (b : Option (Val × Nat)) y =>
        match b with | none => some y | some z => if ranksAbove y.1 z.1 then some y else b) none with
    | none => []
    | some x => x.2 :: topkCols k (l.filter fun y => y.2 ≠ x.2)

/-- What row `r` selects: columns with their values, those that are NaN, zero or round to zero in `ty` as +0; the scores
and their weights are FP32 values. -/
def topkRow (f : Flight) (lg ty r : Nat) : List (Nat × Val) :=
  let p := f.pkt
  let row := f.chainRow roleX p.tTiles r
  let sel := topkCols p.tK row.zipIdx
  let sc := sel.map fun c => row.getD c .nan
  let vs := if p.tNorm then softmaxRow 0x1E lg (sc.map f32bits) .one sc else sc
  let fm := (elemFp ty).getD fpFp32
  sel.zip (vs.map fun v => if v.isNan || (v.isFin && fm.roundMag (match v with | .fin m _ => m | _ => 0)
    (match v with | .fin _ e => e | _ => 0) = 0) then Val.zero else v)

/-- Values of route tile `i`. -/
def topkOut (f : Flight) (lg ty i : Nat) : List Val :=
  let t := f.tile roleX i
  let st := f.chainStart roleX i
  (List.range t.rows).flatMap fun r =>
    if r < f.pkt.tRows then
      let o := topkRow f lg ty r
      (List.range t.cols).map fun c => ((o.find? fun x => x.1 = st + c).map (·.2)).getD .zero
    else List.replicate t.cols .zero

/-- NaN scores read and selections written as +0 (R131): counted over the rows routed, though the score tiles are read whole
(DESIGN CHOICE, log entry 81). -/
def topkNans (f : Flight) : Nat :=
  ((List.range f.pkt.tRows).map fun r => ((f.chainRow roleX f.pkt.tTiles r).filter Val.isNan).length).foldl (· + ·) 0
/-- Of the selections that lie in route tile `i`, of type `ty`. -/
def topkZeros (f : Flight) (lg ty i : Nat) : Nat :=
  let lo := f.chainStart roleX i
  let hi := lo + (f.tile roleX i).cols
  ((List.range f.pkt.tRows).map fun r =>
    ((topkRow f lg ty r).filter fun x => x.2.isZero && decide (lo ≤ x.1 ∧ x.1 < hi)).length).foldl (· + ·) 0

end Sys2Proof.Machine
end

