-- ==== Sys2Proof/Machine/Screens.lean ====
section
/-! DEFINITION. What screens and flumes make of their operands (R78–R80, R134–R138, R144, R148–R151): encoded outputs,
gathered rows, histograms, tile records, reduced tiles. -/

namespace Sys2Proof.Machine

/-- A tile encoded in a format with a check to compute. -/
def Made.of (fmt pair : Nat) (t : DTile) (clip maxMag : Nat) : Made :=
  let (bs, raw) := encodeLayout fmt pair t
  ⟨t, bs, raw, clip, maxMag, none, none, 0, false, none, false⟩

/-! ### COMPACT, EXPAND, CONVERT (R135, R80) -/

/-- Position of group `g` and slot order of the prune: larger magnitude first, NaN last, the lower position first. -/
def pruneKeep (n : Nat) (l : List (Val × Nat)) : List Nat := topkCols n (l.map fun x => (x.1.abs, x.2))

/-- Element indices a prune drops: in each violating group, the non-zero elements beyond the N kept (R80). -/
def pruneDrops (pair : Nat) (t : DTile) (vs : List Val) : List Nat :=
  let (n, m) := nmOf pair
  (List.range (t.rows * t.cols / m)).flatMap fun g =>
    let nz := t.groupValNz vs m g
    if nz.length > n then
      let keep := pruneKeep n ((List.range m).map fun i => (vs.getD (g * m + i) .zero, i))
      (nz.filter fun i => !keep.contains i).map fun i => g * m + i
    else []

/-- The tile with its values re-encoded at the stored scales. -/
def reencode (dstS4 : Bool) (t : DTile) (vs : List Val) : DTile × Nat :=
  encodeVals t.elem dstS4 t.rows t.cols (keptScales t) vs

/-- What a screen writes for one tile (R135), or the status it ends with. `carry` says that source and destination
share a class (R76). A layout-only conversion keeps codes and scales, but for encodings no encoder writes (R62), which are
encoded as the values they decode to; the check is carried all the same, so that R77 finds what that changes (DEDUCED, log
entry 69). -/
def screenMake (p : Packet) (src : DTile) (sd dd : BitVec 512) (carry : Bool) : Except Status Made :=
  let fmt := dFormat dd
  let pair := dNmPair dd
  let dstS4 := layoutOf fmt = 4
  let same := elemOf fmt = src.elem ∧ !(p.op = 0x24 && p.sRescale)
  let vs := src.vals .vector
  let check := if carry then some (dCheck sd) else none
  -- the tile's codes and scales as written, clips, and the carried check, before any prune
  let (t, clip, chk) :=
    if same ∧ src.s4 = decide dstS4 then (src.kept.1, src.kept.2, check)
    else if same then
      let r := reencode dstS4 src vs
      (r.1, r.2, none)
    else
      let r := encodeExact (elemOf fmt) dstS4 src.rows src.cols vs
      (r.1, r.2, none)
  let mm := maxMagOf vs
  if layoutOf fmt = 1 ∧ t.nmViolation vs pair then
    if p.prune then
      let drops := pruneDrops pair t vs
      let vs' := vs.zipIdx.map fun x => if drops.contains x.2 then .zero else x.1
      let r := reencode false t vs'
      .ok { Made.of fmt pair r.1 r.2 (maxMagOf vs') with dropped := drops.length, violation := true }
    else if p.convertOnViolation then
      .ok { Made.of (0x20 + elemOf fmt) 0 t clip mm with
            carried := chk, newFormat := some (0x20 + elemOf fmt, 0), violation := true }
    else .error .formatViolation
  else .ok { Made.of fmt pair t clip mm with carried := chk }

/-! ### GATHER_ROWS (R136, R137) -/

/-- Buffer roles of GATHER_ROWS and of a selector reduce: sources by index, selectors. -/
def roleSrc : Nat := 0
def roleSel : Nat := 3

/-- Global rows, in ascending order, whose value in a column of the selector chain is non-zero, with that value. -/
def Flight.selected (f : Flight) (tiles col : Nat) : List (Nat × Val) :=
  let step := fun (acc : Nat × List (Nat × Val)) (i : Nat) =>
    let t := f.tile roleSel i
    (acc.1 + t.rows, acc.2 ++ ((List.range t.rows).filterMap fun r =>
      let v := t.valAt .vector (r * t.cols + col)
      if v.isZero then none else some (acc.1 + r, v)))
  ((List.range tiles).foldl step (0, [])).2

/-- Tile and row within it of a global row of source tiles `base`, …, `base + n − 1`. -/
def Flight.globalRow (f : Flight) (base n r : Nat) : Option (DTile × Nat) :=
  ((List.range n).foldl (fun (acc : Nat × Option (DTile × Nat)) j =>
    let t := f.tile roleSrc (base + j)
    (acc.1 + t.rows, if acc.2.isNone && decide (acc.1 ≤ r ∧ r < acc.1 + t.rows) then some (t, r - acc.1) else acc.2))
    (0, none)).2

/-- A source row as dense codes, scale bytes and clips: outliers take their place as I4 codes, saturated (R136); encodings
no encoder writes are encoded as what they decode to (R62). -/
def rowCodes (t : DTile) (r : Nat) : List Nat × List Nat × Nat :=
  let cs := (List.range t.cols).map fun c =>
    let i := r * t.cols + c
    match t.outAt i with
    | some o =>
      let v := signed 8 o
      if t.scaleAt i = 255 then (0, true) else ((max (-8) (min 7 v) % 16).toNat, decide (v < -8 ∨ 7 < v))
    | none => t.keptCode i
  (cs.map (·.1), ((keptScales t).drop (r * (t.cols / 32))).take (t.cols / 32), (cs.filter (·.2)).length)

/-- Output tile `t` of a list of global rows of a panel of `n` source tiles (R136). -/
def gatherOut (f : Flight) (dd : BitVec 512) (rows : List Nat) (n t : Nat) : Made :=
  let ty := elemOf (dFormat dd)
  let cols := dCols dd
  let mine := (rows.drop (t * dRows dd)).take (dRows dd)
  let parts := (List.range (dRows dd)).map fun i =>
    match (mine[i]?).bind (f.globalRow 0 n) with
    | some (src, r) => (rowCodes src r, (List.range cols).map fun c => src.valAt .vector (r * src.cols + c))
    | none => ((List.replicate cols 0, List.replicate (cols / 32) 127, 0), [])
  let tile : DTile := ⟨ty, false, dRows dd, cols, (parts.map (·.1.1)).flatten,
    if scaled ty then (parts.map (·.1.2.1)).flatten else [], []⟩
  Made.of (dFormat dd) 0 tile ((parts.map (·.1.2.2)).foldl (· + ·) 0) (maxMagOf (parts.map (·.2)).flatten)

/-- Columns of S holding at least one stored value, ascending (R137). -/
def Flight.touched (f : Flight) : List Nat :=
  let s := f.tile roleSel 0
  let st := match f.bufs.find? fun b => b.role = roleSel ∧ b.idx = 0 with | some b => b.steered | none => []
  (List.range s.cols).filter fun c => st.any fun i => i % s.cols = c

/-- S′ (R137): column t holds column k_t of S. -/
def touchS (f : Flight) (dd : BitVec 512) : Made :=
  let s := f.tile roleSel 0
  let ks := f.touched
  let vs := (List.range (dRows dd)).flatMap fun r => (List.range (dCols dd)).map fun t =>
    match ks[t]? with | some k => s.valAt .vector (r * s.cols + k) | none => .zero
  let r := encodeExact (elemOf (dFormat dd)) false (dRows dd) (dCols dd) vs
  Made.of (dFormat dd) 0 r.1 r.2 (maxMagOf vs)

/-- B′ of the panel of `n` source tiles in the buffers (R137): column t holds D's row k_t. -/
def touchB (f : Flight) (dd : BitVec 512) (n : Nat) : Made :=
  let ks := f.touched
  let vs := (List.range (dRows dd)).flatMap fun r => (List.range (dCols dd)).map fun t =>
    match ks[t]?.bind (f.globalRow 0 n) with | some (d, row) => d.valAt .vector (row * d.cols + r) | none => .zero
  let r := encodeExact (elemOf (dFormat dd)) false (dRows dd) (dCols dd) vs
  Made.of (dFormat dd) 0 r.1 r.2 (maxMagOf vs)

/-! ### ZERO_MAP histogram (R138) -/

/-- Histogram bin of a non-zero value; none for NaN. -/
def histBin (v : Val) : Option Nat :=
  match v with
  | .nan => none
  | .inf _ => some 31
  | .fin m e => some (min 31 (max 0 (ilog m e + 16))).toNat

def histAdd (h : List Nat) (vs : List Val) : List Nat :=
  vs.foldl (fun h v => if v.isZero then h else match histBin v with
    | some i => setAt h i (h.getD i 0 + 1) | none => h) h

/-- The histogram tile of 32 FP32 counts. -/
def histMade (h : List Nat) : Made :=
  let vs := (List.range 32).map fun i => Val.fin (h.getD i 0) 0
  let r := encodeVals 12 false 1 32 [] vs
  Made.of 0x0C 0 r.1 r.2 (maxMagOf vs)

/-! ### FILL (R148) -/

/-- Every element FILL_VALUE at its exact scale, in any layout the packet may name. -/
def fillMade (dd : BitVec 512) (v : Val) : Made :=
  let fmt := dFormat dd
  let vs := List.replicate (dRows dd * dCols dd) v
  let r := encodeExact (elemOf fmt) (layoutOf fmt = 4) (dRows dd) (dCols dd) vs
  Made.of fmt (dNmPair dd) r.1 r.2 (maxMagOf vs)

/-! ### Tile records (R144) -/

/-- The header of a tile's record. -/
def recordHeader (d : BitVec 512) (weight : Bool) : List Byte :=
  leBytes 8 (2 ^ 56 + dNmPair d * 2 ^ 48 + dFormat d * 2 ^ 40 + dPayloadLen d * 2 ^ 24 + (dZmapValid d).toNat * 2
      + (dRaw d).toNat)
    ++ leBytes 8 (weight.toNat * 2 ^ 60 + dCols d * 2 ^ 16 + dRows d)
    ++ leBytes 8 (dCheck d).toNat ++ leBytes 8 (dZmap d).toNat
    ++ leBytes 8 (dMaxMag d * 2 ^ 48 + dClip d * 2 ^ 32) ++ List.replicate 24 0

/-- A record's header as read. -/
structure RecHdr where
  ver : Nat
  pair : Nat
  fmt : Nat
  len : Nat
  zmapValid : Bool
  raw : Bool
  weight : Bool
  cols : Nat
  rows : Nat
  check : Word64
  zmap : Word64
  maxMag : Nat
  clip : Nat
  zerosClear : Bool
  deriving DecidableEq, Repr

def recordParse (bs : List Byte) : RecHdr :=
  let w := fun i => BitVec.ofNat 64 (leNat ((bs.drop (8 * i)).take 8))
  let w0 : Word64 := w 0
  let w1 : Word64 := w 1
  let w4 : Word64 := w 4
  { ver := fld w0 56 8, pair := fld w0 48 4, fmt := fld w0 40 8, len := fld w0 24 13, zmapValid := bit w0 1,
    raw := bit w0 0, weight := bit w1 60, cols := fld w1 16 13, rows := fld w1 0 9, check := w 2, zmap := w 3,
    maxMag := fld w4 48 16, clip := fld w4 32 16,
    zerosClear := decide (fld w0 52 4 = 0 ∧ fld w0 37 3 = 0 ∧ fld w0 2 22 = 0 ∧ fld w1 61 3 = 0 ∧ fld w1 29 31 = 0
      ∧ fld w1 9 7 = 0 ∧ fld w4 0 32 = 0 ∧ w 5 = 0 ∧ w 6 = 0 ∧ w 7 = 0) }

/-- The shape check of a record against its destination (R146). -/
def RecHdr.fits (h : RecHdr) (d : BitVec 512) : Bool :=
  h.ver = 1 && h.zerosClear && decide (h.len ≤ 5376 ∧ h.fmt = dFormat d ∧ h.pair = dNmPair d ∧ h.rows = dRows d
    ∧ h.cols = dCols d)

/-- The tile a record carries. -/
def RecHdr.decode (h : RecHdr) (payload : List Byte) : DTile :=
  (decodePayload .vector h.fmt h.pair h.rows h.cols h.len h.raw payload).tile

/-! ### Reduce-on-write (R149–R151) -/

/-- Sum of a target element and a weighted source element: the exact value, the stored code, whether it was clipped. -/
def reduceElem (fm : FpFmt) (t w s : Val) : Val × Nat × Bool :=
  let x := t.add (w.mul s)
  match x with
  | .fin _ _ => let r := fm.encode x; (x, r.1, r.2)
  | v => (v, fm.store v, false)

/-- A target tile with weighted source rows added: `adds` holds (target row, weight, source tile, source row). -/
def reduceTile (t : DTile) (adds : List (Nat × Val × DTile × Nat)) : Made :=
  let fm := (elemFp t.elem).getD fpFp32
  let r := (List.range (t.rows * t.cols)).map fun i =>
    let v := t.valAt .vector i
    match adds.find? fun a => a.1 = i / t.cols with
    | some (_, w, s, q) => reduceElem fm v w (s.valAt .vector (q * s.cols + i % t.cols))
    | none => (v, t.codes.getD i 0, false)
  let o : DTile := ⟨t.elem, false, t.rows, t.cols, r.map (·.2.1), [], []⟩
  Made.of t.elem 0 o ((r.filter (·.2.2)).length) (maxMagOf (r.map (·.1)))

end Sys2Proof.Machine
end

