-- ==== Sys2Proof/Machine/Gates.lean ====
section
/-! DEFINITION. Sluice gates (R44–R50, R236, R242–R245): who gets a tile, hold slots, opening and closing, verified
reads, locks and their breaking. -/

namespace Sys2Proof.Machine

/-! ### Class, locks, decisions -/

/-- A tile is of the weight class (R75): bound, or in a weight region. -/
def State.weightClass (s : State) (b : Nat) (d : BitVec 512) : Bool :=
  dBound d || (decide (dExtentLen d > 0) &&
    covered (((s.levees b).filter fun l => l.kind = 1).map fun l => (l.base, l.len)) 33 (dExtentBase d)
      (dExtentBase d + dExtentLen d))

/-- The lock table entry of a tile (R50). -/
def State.lockOf (s : State) (b d : Nat) : Option Lock := s.locks.find? fun l => l.basin = b ∧ l.desc = d

/-- A caller owns the tile's lock: a list only under the spawn that took it (R50). -/
def State.ownsLock (s : State) (b d : Nat) (c : Caller) : Bool :=
  decide (dOwner (s.descOf b d) ≠ 0) && (match s.lockOf b d with | some l => decide (l.caller = c) | none => false)

def State.lockedByOther (s : State) (b d : Nat) (c : Caller) : Bool :=
  decide (dOwner (s.descOf b d) ≠ 0) && !s.ownsLock b d c

/-- What a gate answers (R46). -/
inductive GateAns where
  | grant
  | held (setsWait : Bool)
  | fail (st : Status)
  deriving DecidableEq, Repr

/-- A read request (R46, R236). -/
def State.gateRead (s : State) (b d : Nat) (c : Caller) : GateAns :=
  let v := s.descOf b d
  if s.descBad b d then .fail .checkFail
  else if dStale v then .fail .tileBroken
  else if s.lockedByOther b d c || dOpen v || dWriteWait v then .held false
  else if dReaders v = 255 then .held false
  else .grant

/-- Flights held in a slot for a write of a tile. -/
def State.heldWrites (s : State) (b d : Nat) : List Flight :=
  s.flights.filter fun f => f.phase = .heldWrite b d ∧ f.inSlot

/-- Another write of the tile was held before flight `f` and is still held. -/
def State.behind (s : State) (b d : Nat) (f : Flight) : Bool :=
  (s.heldWrites b d).any fun g => g.id ≠ f.id && (!f.inSlot || decide (g.heldNo < f.heldNo))

/-- A write request of `len` encoded bytes (R46, R236). -/
def State.gateWrite (s : State) (b d : Nat) (f : Flight) (len : Nat) (reduce : Bool) : GateAns :=
  let v := s.descOf b d
  if s.descBad b d then .fail .checkFail
  else if dBound v ∧ f.caller ≠ Caller.rosog then .fail .accessDenied
  else if reduce ∧ dStale v then .fail .tileBroken
  else if len > dExtentLen v * 256 then .fail .extentOverflow
  else if s.lockedByOther b d f.caller then .held false
  else if dWriteWait v ∧ s.behind b d f then .held false
  else if dOpen v ∨ dReaders v > 0 then .held true
  else .grant

/-! ### Hold slots (R47, R193) -/

/-- The turnout whose gate a flight uses at a basin (R143, R156). -/
def Flight.turnout (f : Flight) : Nat :=
  match f.arrival with
  | some (c, _) => 20 + c
  | none =>
    match f.units with
    | u :: _ =>
      match u.kind with
      | .vxe => u.unit | .screen => 16 + u.unit | .flume => 20 + u.unit
      | .mxe => 27 + f.pkt.mFurrow
      | _ => ditchTurnout
    | [] => 20

/-- Basin of the request a flight waits on. -/
def Flight.atTile (f : Flight) : Option (Nat × Nat) :=
  match f.phase with
  | .heldRead b d | .heldWrite b d => some (b, d)
  | _ => none

/-- The tile a flight's request is held on: at its gate, or until a restore of it ends (R245, step 2). -/
def Flight.heldOn (f : Flight) : Option (Nat × Nat) :=
  match f.phase with
  | .heldRead b d | .heldWrite b d | .restoring b d => some (b, d)
  | _ => none

/-- A flight's request is held at turnout `t` of basin `b`. -/
def Flight.heldBy (f : Flight) (b t : Nat) : Bool := decide (f.turnout = t) && f.heldOn.any fun x => x.1 = b

/-- Flights that hold a slot of a gate. -/
def State.slotsUsed (s : State) (b t : Nat) : Nat := (s.flights.filter fun f => f.inSlot && f.heldBy b t).length

/-- Requests a gate has returned after their eighth attempt that hold no slot yet (R193). -/
def State.longReturned (s : State) (b t : Nat) : List Flight :=
  s.flights.filter fun f => !f.inSlot && decide (f.attempts ≥ 8) && f.heldBy b t

/-- A flight may take a free slot of the gate: four in all, and while long-returned requests wait, only the one with
the highest attempt count, the earliest first return among equals (R47, R193). -/
def State.slotFor (s : State) (b : Nat) (f : Flight) : Bool :=
  decide (s.slotsUsed b f.turnout < 4) &&
    ((s.longReturned b f.turnout).all fun g => g.id = f.id
      || decide (f.attempts ≥ 8 ∧ (g.attempts < f.attempts ∨ (g.attempts = f.attempts ∧ f.heldNo < g.heldNo))))

/-- A flight that has done nothing: its identity, packet, place and plan. -/
def Flight.new (id cycle : Nat) (src : Src) (caller : Caller) (pkt : Packet) (basin ctx right : Nat) (units : List UnitRef)
    (plan : List PStep) : Flight :=
  { id, src, caller, pkt, off := 0, basin, ctx, right, units, plan, phase := .run, attempts := 0
    waitClose := false, inSlot := false, heldNo := 0, bufs := [], made := none, pend := none, asked := [], got := [], landed := [], retries := 0, genAt := []
    dead := [], failIdx := 0, alerts := 0, words := [], nm := false, startCycle := cycle, closed := 0
    granules := 0, skipped := 0, mispredicted := 0, sats := 0, clips := 0, raws := 0, fmtAlerts := 0, aligned := []
    escalated := [], repeats := 0, dropA := 0, dropB := [], accs := [], passed := [], twoPass := [], rep := [], opened := [], indexed := false, keyGen := 0, pathNo := 0
    responses := [], arrival := none, restore := false }

/-- Replace a flight. -/
def State.putFlight (s : State) (f : Flight) : State :=
  { s with flights := s.flights.map fun g => if g.id = f.id then f else g }
def State.flight? (s : State) (i : Nat) : Option Flight := s.flights.find? fun f => f.id = i

/-- A failed attempt (R47): the request keeps or takes a hold slot, or is returned; after the eighth it waits for a
close, counted as an escalation (R51). -/
def State.hold (s : State) (f : Flight) (ph : Phase) (b d : Nat) (setsWait : Bool) : State :=
  -- the count it carries is that of the attempts it has been returned after (R193)
  let take := f.inSlot || s.slotFor b f
  let f := { f with phase := ph, attempts := f.attempts + 1 }
  let first := take && !f.inSlot
  let f := { f with
    inSlot := take
    heldNo := if first ∨ f.heldNo = 0 then s.nextFlight else f.heldNo
    waitClose := take && decide (f.attempts ≥ 8) }
  let s := if first ∨ f.heldNo = s.nextFlight then { s with nextFlight := s.nextFlight + 1 } else s
  let s := s.putFlight f
  let s := if take ∧ (f.attempts = 8 ∨ first ∧ f.attempts > 8) then s.bump (.bsnTileSt b) 0 32 else s
  if setsWait ∧ take then s.putDesc b d (setBit (s.descOf b d) 344 true) else s

/-- A request leaves its hold. -/
def Flight.unheld (f : Flight) : Flight := { f with attempts := 0, waitClose := false, inSlot := false, heldNo := 0 }

/-- WRITE_WAIT falls when no write is held (R46). -/
def State.fixWait (s : State) (b d : Nat) : State :=
  if dWriteWait (s.descOf b d) ∧ (s.heldWrites b d).isEmpty then
    s.putDesc b d (setBit (s.descOf b d) 344 false)
  else s

/-! ### Reading a tile -/

/-- Read `len` bytes of a tile's payload, word by word, stopping at the first uncorrectable word (R244): words in `got` have
been read by bursts; words that `want` excludes are not fetched and read as zero (R98, R242). -/
def State.readPayload (s : State) (b base len : Nat) (rd : Reader) (want : Nat → Bool)
    (got : List (Nat × List Byte × Bool)) : State × List Byte × Bool :=
  let (s, bs, bad) := (List.range (cdiv len 64)).foldl (fun (a : State × List Byte × Bool) i =>
    let (s, bs, bad) := a
    if bad then (s, bs, true)
    else if !want i then (s, bs ++ List.replicate 64 0, false)
    else match got.find? fun x => x.1 = base * 4 + i with
      | some (_, d, x) => (s, bs ++ d, x)
      | none =>
        let (s, d, x) := s.readWord b (base * 4 + i) rd
        (s, bs ++ d, x)) (s, [], false)
  (s, bs.take len, bad)

/-- Decode a payload under a descriptor (R78: a fallen-back tile as dense). -/
def decodeTile (p : Path) (v : BitVec 512) (bs : List Byte) : Decoded :=
  decodePayload p (dFormat v) (dNmPair v) (dRows v) (dCols v) (dPayloadLen v) (dRaw v) bs

/-- A row group cleared: what a gate enters into the check for rows it does not fetch (R242). -/
def clearRows (t : DTile) (rows : List Nat) : DTile :=
  { t with
    codes := t.codes.zipIdx.map fun x => if rows.contains (x.2 / max 1 t.cols) then 0 else x.1
    scales := t.scales.zipIdx.map fun x => if rows.contains (x.2 * 32 / max 1 t.cols) then 127 else x.1
    outs := t.outs.zipIdx.map fun x => if rows.contains (x.2 * 32 / max 1 t.cols) then [] else x.1 }

/-- Words of a dense or S4 payload that hold bytes of a row outside `rows` (R98). -/
def fetchedWord (v : BitVec 512) (rows : List Nat) (w : Nat) : Bool :=
  let ty := elemOf (dFormat v)
  let r := dRows v
  let c := dCols v
  let s4 := layoutOf (dFormat v) = 4
  let eb := cdiv (r * c * elemBits ty) 8
  let sc := scaleCount ty r c
  let touches := fun (lo hi : Nat) => decide (lo < 64 * (w + 1) ∧ 64 * w < hi)
  (List.range r).any fun i => !rows.contains i &&
    (touches (i * c * elemBits ty / 8) (cdiv ((i + 1) * c * elemBits ty) 8)
      || (scaled ty && touches (eb + i * (c / 32)) (eb + (i + 1) * (c / 32)))
      || (s4 && touches (eb + sc + 4 * (i * (c / 32))) (eb + sc + 4 * ((i + 1) * (c / 32)))))

/-! ### Opening and closing -/

/-- Clear OPEN, set BROKEN and STALE_CHECK, count the generation (R48); a write in progress, or to be repeated, has lost its
tile. -/
def State.closeBroken (s : State) (b d : Nat) : State :=
  let v := s.descOf b d
  let s := { s with flights := s.flights.map fun (f : Flight) =>
      { f with pend := if f.phase = Phase.writing b d then none else f.pend, opened := f.opened.filter (· ≠ (b, d)) } }
  let v := dNextGen (setBit (setBit (setBit v 120 false) 121 true) 125 true)
  (s.putDesc b d v).bump (.bsnTileSt b) 32 16

/-- Open a tile for a write (R45). -/
def State.openTile (s : State) (b d : Nat) : State := s.putDesc b d (setBit (s.descOf b d) 120 true)

/-- Word `i` of a payload, the last padded with zero bytes (R234). -/
def payloadWord (bs : List Byte) (i : Nat) : List Byte :=
  let w := (bs.drop (64 * i)).take 64
  w ++ List.replicate (64 - w.length) 0

/-- Land the words of a payload at word `w` on that `skip` does not hold (R45, R234). -/
def State.landWords (s : State) (b w : Nat) (bs : List Byte) (skip : List Nat) : State :=
  (List.range (cdiv bs.length 64)).foldl (fun (s : State) i =>
    if skip.contains (w + i) then s else s.writeWord b (w + i) (payloadWord bs i)) s

/-- The descriptor a close leaves (R45, R80). -/
def closeDesc (v : BitVec 512) (p : PendingClose) : BitVec 512 :=
  let v := setBit (setBit (setBit v 120 false) 121 false) 125 false
  let v := setFld v 24 13 p.payloadLen
  let v := setFld v 128 64 p.check.toNat
  let v := setFld v 192 64 p.zmap.toNat
  let v := setBit v 124 p.zmapValid
  let v := setBit v 122 p.raw
  let v := setFld v 304 16 p.maxMag
  let v := setFld v 288 16 (min p.clip 0xFFFF)
  let v := match p.newFormat with
    | some (f, nm) => setFld (setFld v 40 8 f) 48 4 nm
    | none => v
  dNextGen v

/-- Close a tile as its write left it, with the stream's range and the due increment (R45, R53, R111). -/
def State.closeTile (s : State) (b d : Nat) (p : PendingClose) : State :=
  let v := closeDesc (s.descOf b d) p
  let s := (s.putDesc b d v).streamClose b v
  s.dueInc p.gaugeBasin p.gauge p.inc

/-- What a made tile's close will set; `check` is computed in the target's class where none is carried, and a carried
one must agree with the stream written (R77). -/
def Made.pending (m : Made) (weight : Bool) (gaugeBasin gauge inc : Nat) : PendingClose :=
  let own := m.tile.checkOf weight
  { payloadLen := m.bytes.length, check := m.carried.getD own, zmap := (m.zmap.map (·.1)).getD m.tile.zeroMap
    zmapValid := (m.zmap.map (·.2)).getD true, raw := m.raw,
    maxMag := m.maxMag, clip := m.clip, newFormat := m.newFormat
    broken := m.broken || (match m.carried with | some c => decide (c ≠ own) | none => false)
    gauge := gauge, gaugeBasin := gaugeBasin, inc := inc, escalation := false }

/-! ### Locks (R49, R50) -/

/-- Root cycles of a lease (R51, R312). -/
def State.lease (s : State) (b : Nat) : Nat :=
  let us := s.rfld (.bsnTileCfg b) 0 17
  (if 10 ≤ us ∧ us ≤ 100000 then us else 1000) * rootPerUs

/-- The time a lease that starts now runs from: under a thermal trip what passes until its release is added then (R327). -/
def State.leaseFrom (s : State) : Nat := if s.start.thermTrip then s.power.tripStart else s.now

/-- The lock gone from the descriptor and the table. -/
def State.unlock (s : State) (b d : Nat) : State :=
  { s.putDesc b d (setFld (s.descOf b d) 104 16 0) with
    locks := s.locks.filter fun l => !(l.basin = b ∧ l.desc = d) }

/-- Break a lock (R50): cleared, marked broken and stale, closed broken if open, counted. -/
def State.breakLock (s : State) (b d : Nat) : State :=
  let s := s.unlock b d
  let s := if dOpen (s.descOf b d) then s.closeBroken b d
    else s.putDesc b d (setBit (setBit (s.descOf b d) 121 true) 125 true)
  s.bump (.bsnTileSt b) 48 16

/-- Requests waiting on a close of the tile are due again (R47). -/
def State.wake (s : State) (b d : Nat) : State :=
  { s with flights := s.flights.map fun f =>
      if f.atTile = some (b, d) then { f with waitClose := false } else f }

end Sys2Proof.Machine
end

