-- ==== Sys2Proof/Machine/Culverts.lean ====
section
/-! DEFINITION. Culverts: outbound record messages and their grants (R147, R377, R378, R414–R418). -/

namespace Sys2Proof.Machine

/-- Culvert states (R419). -/
def culTraining : Nat := 0
def culFenced : Nat := 1
def culUp : Nat := 2
def culFailed : Nat := 3
def State.culState (s : State) (c : Nat) : Nat := s.rfld (.culSt c) 0 4

/-- Flits of a message that carries a record of `n` bytes (R416, R418). -/
def messageFlits (n : Nat) (e1 : Bool) : Nat :=
  let units := cdiv n 64
  if e1 then
    -- 6 units, then 7 to a flit; the tag follows the last unit where it fits
    let rest := units - 6
    let full := cdiv rest 7
    let last := if rest = 0 then 32 + units * 65 else (rest - 7 * (full - 1)) * 65
    1 + full + (if last + 16 > 500 then 1 else 0)
  else cdiv (32 + units * 64 + 16) 500

/-- AGE_N of a culvert (R419). -/
def State.culAgeN (s : State) (c : Nat) : Nat :=
  let n := s.rfld (.culCfg c) 0 7
  if 4 ≤ n ∧ n ≤ 64 then n else 8

/-- The message a culvert grants next (R417): the oldest at an age grant, else the oldest of the highest QoS value. -/
def Culvert.nextMessage (c : Culvert) (ageN : Nat) : Option Exchange :=
  let waiting := c.exchanges.filter (!·.sent)
  if c.count ≥ ageN - 1 then waiting.head?
  else
    let top := (waiting.map (·.qos)).foldl max 0
    waiting.find? fun e => e.qos = top

/-- Grant messages while credits allow (R415, R417): none in a fence or while the culvert is not up (R351), nor in a scrub (R369). -/
def State.grantCulvert : Nat → State → Nat → State
  | 0, s, _ => s
  | n + 1, s, c =>
    if s.culState c ≠ culUp ∨ s.site = stScrub then s
    else
      let cv := s.culvert c
      match cv.nextMessage (s.culAgeN c) with
      | none => s
      | some e =>
        if e.flits > cv.credits then s
        else
          let age := decide (cv.count ≥ s.culAgeN c - 1)
          let cv := { cv with
            credits := cv.credits - e.flits
            count := if age then 0 else cv.count + 1
            exchanges := cv.exchanges.map fun (x : Exchange) => if x.xtag = e.xtag then { x with sent := true } else x }
          let s := s.putCulvert c cv
          let s := if e.msg.flags.getLsbD 1 then s.bump (.culE1St c) 0 48 (e.record.length / 65) else s
          State.grantCulvert n s c

/-- QoS value of a right in a basin (R161). -/
def State.qosOf (s : State) (b right : Nat) : Nat := s.rfld (.trnQosMap b) (4 * right) 3

/-- The culvert a `SEND` uses: the named one, or with ANY_CUL the lowest-numbered one that is up. -/
def State.sendCulvert (s : State) (p : Packet) : Nat :=
  if p.fAnyCul then ((List.range 4).find? fun c => s.culState c = culUp).getD 0 else p.fCul

/-- A job key of a context's slot: its identifier, E1 flag, send counter. -/
def State.jobKey (s : State) (c slot : Nat) : Option (BitVec 32 × Bool × Nat) :=
  match (s.ctx c).keySlots[slot]? with
  | some (.job j e1 n _) => some (j, e1, n)
  | _ => none

/-- Generation of the key in a slot: one more at every install and removal. -/
def State.keyGenOf (s : State) (c slot : Nat) : Nat := nget s.keyGens 0 (c * 16 + slot)

/-- Where the counter of a key that a slot has held is kept. -/
def sendKey (c slot gen : Nat) : Nat := gen * 128 + c * 16 + slot

/-- The send counter of a job key advanced. -/
def State.countSend (s : State) (c slot : Nat) : State :=
  let r := s.ctx c
  s.putCtx c { r with keySlots := r.keySlots.zipIdx.map fun (x : KeySlot × Nat) =>
    match x.1 with
    | .job j e n seen => if x.2 = slot then .job j e (n + 1) seen else x.1
    | k => k }

/-- Hand tile `i` of a `SEND` to its culvert as a record message: `rec` is the record, `job` the key's identifier and
E1 flag at dispatch, `n` the counter. -/
def State.sendRecord (s : State) (f : Flight) (i : Nat) (record : List Byte) (job : BitVec 32) (e1 : Bool) (n : Nat) :
    State :=
  let p := f.pkt
  let c := s.sendCulvert p
  let msg : CulMsg :=
    { typ := 1, flags := BitVec.ofNat 8 (p.fReduce.toNat + 2 * e1.toNat)
      srcSite := BitVec.ofNat 16 s.siteId, destSite := BitVec.ofNat 16 p.fSite, destBasin := BitVec.ofNat 8 p.fDstBasin
      rightSlot := BitVec.ofNat 8 (p.right * 16 + p.fKey), jobId := job, counter := BitVec.ofNat 64 n
      dstDesc := BitVec.ofNat 16 (p.fDst + i), gauge := BitVec.ofNat 16 p.gauge, inc := p.inc
      recUnits := BitVec.ofNat 16 (cdiv record.length 64), xtag := s.nextXtag }
  let e : Exchange := ⟨s.nextXtag, f.id, i, messageFlits record.length e1, s.qosOf f.basin f.right, false, msg,
    if e1 then e1Lines record else record⟩
  let cv := s.culvert c
  let s := { s.putCulvert c { cv with exchanges := cv.exchanges ++ [e] } with nextXtag := s.nextXtag + 1 }
  s.grantCulvert ((s.culvert c).exchanges.length + 1) c

end Sys2Proof.Machine
end

