-- ==== Sys2Proof/Machine/Stack.lean ====
section
/-! DEFINITION. Stack memory (R290–R300): usable offsets, regions and their mapping to siphons, pages never written,
the write combiner, block reads and writes with their integrity failures. -/

namespace Sys2Proof.Machine

def stackBase : Nat := 0x004000000000
def siphonData : Nat := 0xF8000000

/-- Usable offset of a stack-window address (R291). -/
def SiteConfig.usable (c : SiteConfig) (a : Nat) : Option Nat :=
  let s := (a - stackBase) / 2 ^ 32
  let off := a % 2 ^ 32
  if stackBase ≤ a ∧ s < c.siphons ∧ off < siphonData then some (s * siphonData + off) else none

/-- Window address of a usable offset (R291). -/
def windowOf (u : Nat) : Nat := stackBase + u / siphonData * 2 ^ 32 + u % siphonData

/-- A region-table entry (R295). -/
structure Region where
  entry : Nat
  islocal : Bool
  ctx : Nat
  physBase : Nat
  /-- Length and base in bytes of usable offset. -/
  len : Nat
  base : Nat
  mask : Nat
  deriving DecidableEq, Repr

/-- The valid entries of the region table. -/
def State.regions (s : State) : List Region :=
  (List.range 64).filterMap fun n =>
    let a := s.reg (.sphRgnA n)
    if bit a 63 then
      some ⟨n, bit a 62, fld a 56 4, fld a 32 20, fld a 16 13 * 2 ^ 24, fld a 0 13 * 2 ^ 24,
        fld (s.reg (.sphRgnB n)) 0 32⟩
    else none

/-- The region of a usable offset (R292). -/
def State.regionAt (s : State) (u : Nat) : Option Region :=
  s.regions.find? fun r => r.base ≤ u ∧ u < r.base + r.len

/-- Siphons of a region's set. -/
def Region.siphons (r : Region) : List Nat := (List.range 32).filter fun i => r.mask / 2 ^ i % 2 = 1

/-- Siphon and physical offset of a usable offset (R293, R294). -/
def Region.locate (r : Region) (cfg : SiteConfig) (u : Nat) : Nat × Nat :=
  let o := u - r.base
  if r.islocal then
    let ls := r.len / max 1 cfg.siphons
    (o / max 1 ls, r.physBase * 4096 + o % max 1 ls)
  else
    let set := r.siphons
    let n := max 1 set.length
    let k := o / 4096
    (set.getD (k % n) 0, r.physBase * 4096 + k / n * 4096 + o % 4096)

/-- Keys of a cell, a page and a block of a siphon. -/
def cellKey (sph phys : Nat) : Nat := sph * 2 ^ 32 + phys
def pageKey (sph page : Nat) : Nat := sph * 2 ^ 20 + page
def blockKey (sph block : Nat) : Nat := sph * 2 ^ 24 + block

def State.pageValid (s : State) (sph page : Nat) : Bool := s.pages.contains (pageKey sph page)
/-- What a page in the combiner holds so far: a bit for each byte, and the root cycle of the first write. -/
def State.pageCombining (s : State) (sph page : Nat) : Option (Nat × Nat) :=
  (s.combining.find? fun p => p.1 = pageKey sph page).map (·.2)

/-- A siphon that answers requests (R307). -/
def State.siphonUp (s : State) (sph : Nat) : Bool := s.rfld (.sphSt sph) 8 4 ≠ 2

/-- Bytes of a block as stored. -/
def State.blockBytes (s : State) (sph block : Nat) : List Byte :=
  (List.range 256).map fun i => nget s.stack 0 (cellKey sph (block * 256 + i))

/-- DETAIL of a siphon event (R309). -/
def sphDetail (kind ctx spares page : Nat) : List Byte :=
  [BitVec.ofNat 8 kind, BitVec.ofNat 8 ctx] ++ leBytes 2 spares ++ leBytes 4 page

/-- Context of the region that holds a block of a siphon; 0xFF for none. -/
def State.blockCtx (s : State) (sph block : Nat) : Nat :=
  let inRegion := fun (r : Region) =>
    let pages := if r.islocal then r.len / max 1 s.cfg.siphons / 4096 else cdiv r.len (max 1 r.siphons.length * 4096)
    (r.islocal || r.siphons.contains sph) && decide (r.physBase ≤ block / 16 ∧ block / 16 < r.physBase + pages)
  match s.regions.find? inRegion with
  | some r => if r.ctx = 15 then 0xF else r.ctx
  | none => 0xFF

def State.siphonEvent (s : State) (sph block kind : Nat) : State :=
  s.post { Event.of .siphon 0xFFFF sph clsSiphon .none with
    loc := block, ctx := s.blockCtx sph block
    detail := sphDetail kind (s.blockCtx sph block) (s.rfld (.sphLinkSt sph) 16 8) (block / 16) }

/-- Keys of a generation loaded into a context's slots of every siphon, Rosog's at 15; 0 destroys what was there (R298, R359). -/
def State.loadKeys (s : State) (c gen : Nat) : State :=
  { s with sphKeys := (List.range s.cfg.siphons).foldl (fun (m : List (Nat × Nat)) i => nset m 0 (i * 16 + c) gen) s.sphKeys }

/-- The key that seals a block: what its siphon's slot holds for the context of its region, or for Rosog (R298). -/
def State.blockKeyId (s : State) (sph block : Nat) : Nat :=
  let c := s.blockCtx sph block
  let c := if c < 8 then c else if c = 0xF then 15 else 14
  nget s.sphKeys 0 (sph * 16 + c) * 16 + c + 1

/-- A block's MAC verifies under its region's key, at its own place. -/
def State.blockGood (s : State) (sph block : Nat) : Bool :=
  !s.badBlocks.contains (blockKey sph block) && nget s.macs 0 (blockKey sph block) = s.blockKeyId sph block

/-- A block written with a fresh MAC. -/
def State.seal (s : State) (sph block : Nat) : State :=
  { s with
    macs := nset s.macs 0 (blockKey sph block) (s.blockKeyId sph block)
    badBlocks := s.badBlocks.filter (· != blockKey sph block) }

/-- A block's stored bytes and MAC no longer agree. -/
def State.damage (s : State) (sph block : Nat) : State :=
  { s with badBlocks := blockKey sph block :: s.badBlocks.filter (· != blockKey sph block) }

/-- A block verified, with one re-read (R300): `fail1` and `fail2` say that a read fails its MAC whatever is stored; one
that fails twice stays damaged. Answers whether it verifies, a failure counted and reported. -/
def State.verifyBlock (s : State) (sph block : Nat) (fail1 fail2 : Bool) : State × Bool :=
  let bad := !s.blockGood sph block
  if !(bad || fail1) then (s, true)
  else
    let s := s.bump (.sphIntSt sph) 48 16
    if !(bad || fail2) then ((s.bump (.sphIntSt sph) 32 16).siphonEvent sph block 0, true)
    else
      let s := if fail1 ∧ fail2 then s.damage sph block else s
      ((s.bump (.sphIntSt sph) 16 16).siphonEvent sph block 1, false)

/-- Read one block (R296, R300). Answers the bytes, or none for a reported integrity failure. A block of an invalid page, and one that
the combiner answers, is not read from the stack, and BLOCKS does not count it (DESIGN CHOICE, log entry 82). -/
def State.readBlock (s : State) (sph block : Nat) (fail1 fail2 : Bool) : State × Option (List Byte) :=
  if !s.siphonUp sph then
    ((s.bump (.sphIntSt sph) 16 16).siphonEvent sph block 1, none)
  else if (s.pageCombining sph (block / 16)).isSome then (s, some (s.blockBytes sph block))
  else if !s.pageValid sph (block / 16) then (s, some (List.replicate 256 0))
  else
    let r := (s.bumpWrap (.sphRdCnt sph) 0 64).verifyBlock sph block fail1 fail2
    (r.1, if r.2 then some (s.blockBytes sph block) else none)

/-- A page's cells cleared, before the combiner gathers it. -/
def State.clearPage (s : State) (sph page : Nat) : State :=
  let lo := cellKey sph (page * 4096)
  { s with stack := s.stack.filter fun c => !decide (lo ≤ c.1 ∧ c.1 < lo + 4096) }

/-- The combiner writes a page whole and sets its valid bit (R297). -/
def State.flushPage (s : State) (sph page : Nat) : State :=
  if (s.pageCombining sph page).isSome then
    let s := (List.range 16).foldl (fun (s : State) i => s.seal sph (page * 16 + i)) s
    { s.bumpWrap (.sphWrCnt sph) 0 64 16 with
      combining := s.combining.filter fun p => p.1 ≠ pageKey sph page
      pages := pageKey sph page :: s.pages.filter (· != pageKey sph page) }
  else s

/-- Pages of a siphon in its combiner, oldest first. -/
def State.combinerPages (s : State) (sph : Nat) : List Nat :=
  (s.combining.filter fun p => p.1 / 2 ^ 20 = sph).map fun p => p.1 % 2 ^ 20

/-- The bits of `n` bytes from byte `o` of a page, and of all of it. -/
def pageBytes (o n : Nat) : Nat := (2 ^ n - 1) * 2 ^ o

/-- A slot of the combiner for a page. A write that finds all 16 in use waits outside (`stackFree`, `streamRoom`); should one come here,
the oldest has been flushed by the time it enters. -/
def State.combinerSlot (s : State) (sph page : Nat) : State :=
  match s.pageCombining sph page, s.combinerPages sph with
  | none, p :: ps => if ps.length ≥ 15 then s.flushPage sph p else s
  | _, _ => s

/-- A write to an invalid page enters the combiner (R297); a page whose every byte has come is written. -/
def State.combine (s : State) (sph block o : Nat) (bs : List Byte) : State :=
  let page := block / 16
  let s := s.combinerSlot sph page
  let first := s.pageCombining sph page
  let s := if first.isNone then s.clearPage sph page else s
  let (old, since) := first.getD (0, s.now)
  let m := old ||| pageBytes (block % 16 * 256 + o) bs.length
  let entry := (pageKey sph page, m, since)
  let s := { s with
    stack := putBytes s.stack (cellKey sph (block * 256 + o)) bs
    combining := if first.isSome
      then s.combining.map fun p => if p.1 = pageKey sph page then entry else p
      else s.combining ++ [entry] }
  if m = pageBytes 0 4096 then s.flushPage sph page else s

/-- Write `bs` from byte `o` of a block (R297, R299): a whole block directly, part of one as a read-modify-write, which a
block that does not verify leaves poisoned. `fail1` and `fail2` are of its read. -/
def State.writeBlock (s : State) (sph block o : Nat) (bs : List Byte) (fail1 fail2 : Bool) : State :=
  let key := cellKey sph (block * 256 + o)
  if bs.isEmpty then s
  -- a siphon out of service fails every request (R307)
  else if !s.siphonUp sph then (s.bump (.sphIntSt sph) 16 16).siphonEvent sph block 1
  else if s.pageValid sph (block / 16) then
    let s := s.bumpWrap (.sphWrCnt sph) 0 64
    if o = 0 ∧ bs.length = 256 then { s with stack := putBytes s.stack key bs }.seal sph block
    else
      let r := s.readBlock sph block fail1 fail2
      let t := { r.1 with stack := putBytes r.1.stack key bs }.seal sph block
      if r.2.isSome then t else (t.bump (.sphIntSt sph) 0 16).damage sph block
  else s.combine sph block o bs

/-- An uncorrectable bitmap word: its 512 pages are all treated as valid, and their MACs decide (R296). -/
def State.loseMap (s : State) (sph page : Nat) : State :=
  let ps := ((List.range 512).map fun i => pageKey sph (page / 512 * 512 + i)).filter fun k =>
    k % 2 ^ 20 < 1015808 && !s.pages.contains k && !(s.combining.any fun c => c.1 = k)
  { s with pages := ps ++ s.pages }

/-- Pieces of a window range: window address, piece length, no piece crossing a block. -/
def pieces (a len : Nat) : List (Nat × Nat) :=
  (List.range (cdiv (a % 256 + len) 256)).map fun i =>
    let lo := if i = 0 then a else a / 256 * 256 + 256 * i
    let hi := min (a + len) (a / 256 * 256 + 256 * (i + 1))
    (lo, hi - lo)

/-- Siphon, block and offset of a window address that lies in a region. -/
def State.stackAt (s : State) (a : Nat) : Option (Region × Nat × Nat) :=
  match s.cfg.usable a with
  | none => none
  | some u => match s.regionAt u with
    | none => none
    | some r => some (r, (r.locate s.cfg u).1, (r.locate s.cfg u).2)

/-- How the MAC of a block fares that a siphon has performed for a requester (R300): as its block command said, else well. -/
def State.macOf (s : State) (who : Option SphSrc) (sph block : Nat) : Bool × Bool :=
  match who.bind fun w => (s.siphon sph).served.find? fun x => x.1 = w && x.2.1 = block with
  | some x => x.2.2
  | none => (false, false)

/-- The requester moves the block's data: the siphon is done with its request. -/
def State.movedBlock (s : State) (who : Option SphSrc) (sph block : Nat) : State :=
  match who with
  | none => s
  | some w => s.putSiphon sph { s.siphon sph with
      served := (s.siphon sph).served.filter fun x => !(x.1 = w && x.2.1 = block) }

/-- Read a window range that lies in regions: the bytes, and the offsets of pieces that failed. -/
def State.stackRead (s : State) (a len : Nat) (who : Option SphSrc := none) : State × List Byte × List Nat :=
  (pieces a len).foldl (fun (acc : State × List Byte × List Nat) p =>
    let (s, bs, bad) := acc
    match s.stackAt p.1 with
    | none => (s, bs ++ List.replicate p.2 0, bad)
    | some (_, sph, phys) =>
      let m := s.macOf who sph (phys / 256)
      let (s, r) := (s.movedBlock who sph (phys / 256)).readBlock sph (phys / 256) m.1 m.2
      match r with
      | some d => (s, bs ++ (d.drop (phys % 256)).take p.2, bad)
      | none => (s, bs ++ List.replicate p.2 0, bad ++ [p.1 - a])) (s, [], [])

/-- Write a window range that lies in regions. -/
def State.stackWrite (s : State) (a : Nat) (bs : List Byte) (who : Option SphSrc := none) : State :=
  (pieces a bs.length).foldl (fun (s : State) p =>
    match s.stackAt p.1 with
    | none => s
    | some (_, sph, phys) =>
      let m := s.macOf who sph (phys / 256)
      (s.movedBlock who sph (phys / 256)).writeBlock sph (phys / 256) (phys % 256) ((bs.drop (p.1 - a)).take p.2) m.1 m.2) s

/-- Usable offsets [lo, hi) of a window range; none if any part has none (R25, R291). -/
def SiteConfig.usableRange (c : SiteConfig) (a len : Nat) : Option (List (Nat × Nat)) :=
  -- a range within one siphon range of the window, or cut at its 4 GiB ends
  if len = 0 then some []
  else
    let parts := (List.range ((a + len - 1) / 2 ^ 32 - a / 2 ^ 32 + 1)).map fun i =>
      let lo := max a ((a / 2 ^ 32 + i) * 2 ^ 32)
      let hi := min (a + len) ((a / 2 ^ 32 + i + 1) * 2 ^ 32)
      (lo, hi)
    if parts.all fun p => (c.usable p.1).isSome && (c.usable (p.2 - 1)).isSome then
      some (parts.map fun p => ((c.usable p.1).getD 0, (c.usable (p.2 - 1)).getD 0 + 1))
    else none

/-- How a window range of stack memory stands to a context (R25): a decode error, another owner's region, or its
own. -/
inductive StackReach where
  | decode | denied | own
  deriving DecidableEq, Repr

def State.stackReach (s : State) (c a len : Nat) : StackReach :=
  match s.cfg.usableRange a len with
  | none => .decode
  | some ps =>
    let all := s.regions.map fun r => (r.base, r.len)
    let own := (s.regions.filter fun r => r.ctx = c).map fun r => (r.base, r.len)
    if !(ps.all fun p => covered all 65 p.1 p.2) then .decode
    else if ps.all fun p => covered own 65 p.1 p.2 then .own
    else .denied

/-- A region's pages made invalid (R296): what the stack holds of them stays, behind keys that are gone. -/
def State.clearRegion (s : State) (r : Region) : State :=
  let n := if r.islocal then r.len / max 1 s.cfg.siphons / 4096 else cdiv r.len (max 1 r.siphons.length * 4096)
  let inR := fun (sph page : Nat) =>
    (r.islocal || r.siphons.contains sph) && decide (r.physBase ≤ page ∧ page < r.physBase + n)
  { s with
    pages := s.pages.filter fun k => !inR (k / 2 ^ 20) (k % 2 ^ 20)
    combining := s.combining.filter fun p => !inR (p.1 / 2 ^ 20) (p.1 % 2 ^ 20) }

/-! ### When a request is performed (R297, R301, R308) -/

/-- A siphon performs requests: in service, or out of it and answering each as a failure. -/
def State.siphonServes (s : State) (sph : Nat) : Bool :=
  s.rfld (.sphSt sph) 8 4 = 1 || s.rfld (.sphSt sph) 8 4 = 2

/-- Requests accepted and not yet performed that bar an access to a block: a read waits for older writes, a write for every
older request. -/
def State.blockBarred (s : State) (sph block : Nat) (write : Bool) : Bool :=
  ((s.siphon sph).queue ++ (s.siphon sph).granted).any fun q => q.block = block && (write || q.write)

/-- The pages of a range that a write would newly bring into a combiner. -/
def State.newPages (s : State) (a len : Nat) : List (Nat × Nat) :=
  (((pieces a len).filterMap fun p => s.stackAt p.1).map fun x => (x.2.1, x.2.2 / 4096)).eraseDups.filter fun x =>
    s.siphonUp x.1 && !s.pageValid x.1 x.2 && (s.pageCombining x.1 x.2).isNone

/-- The combiners have slots for a write. -/
def State.slotsFor (s : State) (a len : Nat) : Bool :=
  let ps := s.newPages a len
  ps.all fun x => decide ((s.combinerPages x.1).length + (ps.filter fun y => y.1 = x.1).length ≤ 16)

/-- An access to a range of stack memory is performed at once: each siphon serves, no older request bars it, and a write
finds its combiner slots. -/
def State.stackFree (s : State) (a len : Nat) (write : Bool) : Bool :=
  ((pieces a len).all fun p => match s.stackAt p.1 with
    | none => true
    | some (_, sph, phys) => s.siphonServes sph && !s.blockBarred sph (phys / 256) write)
  && (!write || s.slotsFor a len)

/-- Rosog may write a run of shadow records (R224, R307): every siphon performs requests, and its combiner has slots for the two pages
that such a run can leave incomplete in it (R297). -/
def State.streamRoom (s : State) : Bool :=
  (List.range s.cfg.siphons).all fun i => s.siphonServes i && (!s.siphonUp i || decide ((s.combinerPages i).length ≤ 14))

end Sys2Proof.Machine
end

