-- ==== Sys2Proof/Machine/Flights.lean ====
section
/-! DEFINITION. Packets at work: the requests a dispatched packet makes at sluice gates, one after another in tile
order, what is delivered to it, the tiles it writes, and its end (R44–R48, R98–R117, R122, R134–R153, R242–R246). -/

namespace Sys2Proof.Machine

/-! ### Kinds of flight -/

def Flight.isMatrix (f : Flight) : Bool := f.arrival.isNone && !f.restore && (f.pkt.op = 0x18 || f.pkt.op = 0x19)
def Flight.isArrival (f : Flight) : Bool := f.arrival.isSome
/-- A plain packet with this opcode. -/
def Flight.isOp (f : Flight) (op : Nat) : Bool := f.arrival.isNone && !f.restore && decide (f.pkt.op = op)
def Flight.isScreen (f : Flight) : Bool := f.arrival.isNone && !f.restore && decide (0x20 ≤ f.pkt.op ∧ f.pkt.op ≤ 0x24)
/-- A reduce-on-write: the packet, or an arrival with REDUCE. -/
def Flight.isReduce (f : Flight) : Bool :=
  match f.arrival with | some (_, _, _, red, _) => red | none => f.isOp 0x1D

/-- Lane of a step; lane 8 of a matrix packet is shared by its lanes. -/
def sharedLane : Nat := 8
def PStep.lane : PStep → Nat
  | .read _ _ _ _ l | .write _ _ _ _ l | .again l => l
  | _ => 0

/-- Lanes of a matrix packet that have not ended. -/
def Flight.liveLanes (f : Flight) : List Nat := f.pkt.laneList.filter fun l => !f.dead.any fun x => x.1 = l

/-- A step no longer wanted: its lane ended, or all did (R115). -/
def Flight.dropped (f : Flight) (st : PStep) : Bool :=
  f.isMatrix && (f.liveLanes.isEmpty || (st.lane ≠ sharedLane && !f.liveLanes.contains st.lane))

/-- The reads of a lane's own: its output tiles for `MATMUL_ACC` (R117), its A and B chains. -/
def accReads (b : Nat) (p : Packet) (l : Nat) : List PStep :=
  if p.op = 0x19 then (List.range p.mOTiles).map fun t => PStep.read b (p.oDesc l t) roleO (laneIdx l t) l else []
def laneReads (b : Nat) (p : Packet) (l : Nat) : List PStep :=
  accReads b p l ++ (List.range p.mK).flatMap fun i =>
    [PStep.read b (p.aDesc i) roleA i l, PStep.read b (p.bDesc l i) roleB (laneIdx l i) l]

/-- A flight's lane, or the flight, ends early with a status (R115, R122). -/
def Flight.failAt (f : Flight) (lane idx : Nat) (st : Status) : Flight :=
  let f := { f.unheld with phase := .run, made := none, pend := none, retries := 0, indexed := false }
  if f.isMatrix then
    let ls := if lane = sharedLane then f.liveLanes else [lane]
    { f with dead := f.dead ++ ls.map fun l => (l, st), plan := f.plan.drop 1 }
  else { f with dead := [(0, st)], failIdx := idx, plan := [], passed := [] }

/-- Operand words and counters of a flight's result. -/
def Flight.word (f : Flight) (i : Nat) : Nat := f.words.getD i 0
def setNth (l : List Nat) (i v : Nat) : List Nat :=
  (List.range (max l.length (i + 1))).map fun j => if j = i then v else l.getD j 0
def Flight.addWord (f : Flight) (i v : Nat) : Flight := { f with words := setNth f.words i (f.word i + v) }

/-- The mismatch of lane `l` being classified (R264). -/
def Flight.repOf (f : Flight) (l : Nat) : Option Repeat := f.rep.find? fun r => r.lane = l

/-- The unit that repeats lane `l`'s output. -/
def Flight.repUnit (f : Flight) (l : Nat) : Option Nat := ((f.repOf l).bind (·.now)).map (·.1)

/-- The unit a flight's tile is made on: its own, or the one that repeats it. -/
def Flight.unit0 (f : Flight) : Nat := (f.repUnit 0).getD ((f.units.head?.map (·.unit)).getD 0)

/-- The MXE that computes lane `l`'s block: one unit of the flight for each lane, in lane order (R85, R274), or the one
that repeats it. -/
def Flight.laneUnit (f : Flight) (l : Nat) : Nat :=
  (f.repUnit l).getD (((f.units[f.pkt.laneList.idxOf l]?).map (·.unit)).getD 0)

/-- The unit that makes the output of a lane. -/
def Flight.maker (f : Flight) (l : Nat) : Nat := if f.isMatrix then f.laneUnit l else f.unit0

/-- Lanes that take A tile reads of lane `l`: the lanes that share the chain, or the one that reads it for itself. -/
def Flight.sharers (f : Flight) (l : Nat) : List Nat :=
  if l = sharedLane then f.liveLanes.filter fun k =>
    !f.plan.any fun st => match st with | .read _ _ role _ j => role = roleA && j = k | _ => false
  else [l]

/-! ### Reads delivered -/

/-- The path a flight's tiles are decoded on (R62). -/
def Flight.path (f : Flight) (elem : Nat) : Path := if f.isMatrix ∧ elem ≠ 12 then .matrix else .vector

/-- Kind and turnout of a flight's tile reads. -/
def Flight.reader (f : Flight) : Reader := ⟨0, f.turnout⟩

/-- Row groups of an A tile each live lane predicts as skipped, and those that are zero (R98–R100). -/
def State.lanePlan (s : State) (f : Flight) (lane : Nat) (v : BitVec 512) : List (Nat × List Nat × List Nat) :=
  (f.sharers lane).map fun l =>
    let u := f.laneUnit l
    let zero := zeroGroups (dRows v) (dZmapValid v) (dZmap v)
    (l, if f.pkt.mNoSkip then [] else s.predicted f.basin u (dRows v) (dStream v), zero)

/-- Rows of an A tile that no lane fetches: only dense and S4 payloads can be cut by rows (R98). -/
def unfetchedRows (v : BitVec 512) (lanes : List (Nat × List Nat × List Nat)) : List Nat :=
  if (layoutOf (dFormat v) = 0 ∨ layoutOf (dFormat v) = 4) ∧ !dRaw v then
    (List.range (dRows v)).filter fun r => !lanes.isEmpty && lanes.all fun x => x.2.1.contains (r / 8) && x.2.2.contains (r / 8)
  else []

/-- After an A tile is delivered: skips and mispredictions counted, predictors updated (R98–R100, R119). The reply counts
a pair once per lane, so not again for a repeat (R116). -/
def State.skipAccount (s : State) (f : Flight) (v : BitVec 512) (lanes : List (Nat × List Nat × List Nat)) :
    State × Flight :=
  lanes.foldl (fun (a : State × Flight) x =>
    let (s, f) := a
    let u := f.laneUnit x.1
    let skip := x.2.1.filter x.2.2.contains
    let mis := x.2.1.filter fun g => !x.2.2.contains g
    let s := (s.bump (.mxeSkip f.basin u) 32 32 skip.length).bump (.mxeSkip f.basin u) 16 16 mis.length
    (s.predict f.basin u v,
      if (f.repOf x.1).isSome then f
      else { f with skipped := f.skipped + skip.length, mispredicted := f.mispredicted + mis.length })) (s, f)

/-- Rows of a panel of source tiles: the sum of their ROWS by their descriptors (R136, R137, R150). -/
def State.panelRows (s : State) (b base n step : Nat) : Nat :=
  ((List.range n).map fun j => dRows (s.descOf b (base + j * step))).foldl (· + ·) 0

/-- The least panel of a GATHER_ROWS. -/
def State.leastPanel (s : State) (f : Flight) : Nat :=
  ((List.range f.pkt.sPanels).map fun p => s.panelRows f.basin (f.pkt.sSrc + p * f.pkt.sPStep) f.pkt.sBlocks f.pkt.sStep).foldl
    min (2 ^ 20)

/-- Selector tile `i`, just delivered, lists an index beyond its operand (R81, R136, R137, R150). -/
def State.selectorBeyond (s : State) (f : Flight) (i : Nat) : Bool :=
  let p := f.pkt
  if f.isOp 0x22 ∧ p.sMode = 0 then
    let lim := s.leastPanel f
    (List.range p.sSelCols).any fun k =>
      let before := (f.selected i (p.sSelCol k)).length
      ((f.selected (i + 1) (p.sSelCol k)).drop before).any fun r => r.1 ≥ lim
  else if f.isOp 0x22 then f.touched.any fun c => c ≥ s.leastPanel f
  else if f.isOp 0x1D then
    let n := (f.selected (i + 1) p.fSelCol).length
    decide (n > (f.selected i p.fSelCol).length ∧ n > s.panelRows f.basin p.fSrc p.fCount 1)
  else false

/-- A buffer put in place of the one with its role and index. -/
def Flight.putBuf (f : Flight) (b : Buf) : Flight :=
  { f with bufs := b :: f.bufs.filter fun x => !(x.role = b.role ∧ x.idx = b.idx) }

/-- READERS one lower (R46). -/
def State.releaseReader (s : State) (b d : Nat) : State :=
  let v := s.descOf b d
  s.putDesc b d (setFld v 336 8 (dReaders v - 1))

/-- What the end of a read comes to. -/
inductive ReadEnd where
  | delivered (s : State) (f : Flight)
  /-- The read goes on: it is repeated, or waits for a restore. -/
  | again (s : State)
  | ended (s : State) (f : Flight)

/-- A verified tile in a flight's buffers, with its alerts and what its delivery alone brings (R62, R81, R147): a read that
never verifies, or ends at a strict index, counts no FORMAT_ALERTS (DESIGN CHOICE, log entry 69). -/
def State.deliver (s : State) (f : Flight) (b role idx lane : Nat) (v : BitVec 512) (bs : List Byte) (dec : Decoded)
    (lanes : List (Nat × List Nat × List Nat)) : ReadEnd :=
  let isA := f.isMatrix && role = roleA
  let (s, f) := if isA then s.skipAccount f v lanes else (s, f)
  let skips := if isA then lanes.flatMap fun x => (x.2.1.filter x.2.2.contains).map fun g => x.1 * 8 + g else []
  let f := f.putBuf ⟨role, idx, dec.tile, bs, v, if isA then skips else dec.stored⟩
  let s := if f.isMatrix && role = roleB then s.stagePair f idx f.basin (f.laneUnit lane) lane else s
  let s := if dec.alert then s.bump (.bsnFmtSt b) 32 16 else s
  let vxe := (f.isOp 0x1C || f.isOp 0x1E) && dec.tile.vxeAlert
  let s := if vxe && !dec.alert then s.bump (.bsnFmtSt b) 32 16 else s
  let f := { f with
    alerts := f.alerts ||| alertIf f.indexed alIndex ||| alertIf (dec.alert || vxe) alPrecision
    fmtAlerts := f.fmtAlerts + (dec.alert || vxe).toNat
    indexed := false, retries := 0 }
  let s := if f.isOp 0x13 then s.dueInc f.basin f.pkt.fSrcGauge f.pkt.fSrcInc else s
  .delivered s { f.unheld with plan := f.plan.drop 1, phase := .run }

/-- DETAIL of classes 0x04 and 0x05 (R288). -/
def tileDetail (d : Nat) (op : Byte) (weight : Bool) : List Byte :=
  leBytes 2 d ++ [op, if weight then 0 else 1, 0, 0, 0, 0]

/-- Findings posted for the words of a tile led to a `CHECK_FAIL` (R287, FLAGS). -/
def State.findingsFailed (s : State) (b : Nat) (v : BitVec 512) : State :=
  let at' := (List.range (cdiv (dPayloadLen v) 64)).map fun i =>
    let br := s.bankRow b (dExtentBase v * 4 + i)
    (s.physBank b br.1, br.2)
  { s with events := s.events.map fun (e : Event) =>
      if e.kind = .bank ∧ e.basin = b ∧ e.cls = clsUncorrectable ∧ (e.unit, e.loc) ∈ at' then { e with failed := true }
      else e }

/-- A read ended with `CHECK_FAIL` is counted and posted (R245, step 3). -/
def State.readFailed (s : State) (f : Flight) (b d : Nat) : State :=
  let v := s.descOf b d
  ((s.findingsFailed b v).bump (.bsnChkSt b) 0 16).post { Event.of .descLine b d clsCheckFail .none with
    loc := d, ctx := dCtx v, failed := true, detail := tileDetail d f.pkt.opcode (s.weightClass b v) }

/-- The end of the read at a flight's head (R81, R242–R245). -/
def State.readEnd (s : State) (f : Flight) (b d role idx lane : Nat) : ReadEnd :=
  let v := s.descOf b d
  let weight := s.weightClass b v
  let lanes := if f.isMatrix && role = roleA then s.lanePlan f lane v else []
  let rows := unfetchedRows v lanes
  let (s, bs, bad) := s.readPayload b (dExtentBase v) (dPayloadLen v) f.reader
    (fun w => rows.isEmpty || fetchedWord v rows w) f.got
  let dec := decodeTile (f.path (elemOf (dFormat v))) v bs
  let dec := if rows.isEmpty then dec else { dec with tile := clearRows dec.tile rows }
  -- the gate detects an index beyond its operand before it verifies the tile's check, and counts it once for the tile
  let beyond := role = roleSel && (s.selectorBeyond (f.putBuf ⟨role, idx, dec.tile, bs, v, dec.stored⟩) idx)
  let index := !bad && !f.restore && (dec.index || beyond)
  let first := index && !f.indexed
  let s := if first then s.bump (.bsnFmtSt b) 16 16 else s
  let f := { f with indexed := f.indexed || index, fmtAlerts := f.fmtAlerts + first.toNat }
  -- the strict-index flag of a matrix packet is for its B tiles (R113)
  if index ∧ f.pkt.strict ∧ (!f.isMatrix ∨ role = roleB) then
    .ended (s.releaseReader b d) (f.failAt lane idx .indexRange)
  else if !bad ∧ dec.tile.checkOf weight = dCheck v then
    let s := s.releaseReader b d
    let s := if f.retries = 1 then s.bump (.bsnChkSt b) 32 16 else s
    s.deliver f b role idx lane v bs dec lanes
  else
    let s := s.bump (.bsnChkSt b) 48 16
    if f.retries = 0 then .again (s.putFlight { f with retries := 1, asked := [], got := [] })
    else if f.retries = 1 ∧ weight ∧ dShadowValid v then
      let s := s.releaseReader b d
      let pending := (b, d) ∈ s.restores ∨ s.flights.any fun (g : Flight) =>
        g.restore && g.plan.any fun st => match st with | .write b' d' _ _ _ => b' = b && d' = d | _ => false
      -- the read is held on the tile while it waits (R46, R47)
      let s := s.hold { f with retries := if pending then 3 else 2 } (.restoring b d) b d false
      .again (if pending then s else { s with restores := s.restores ++ [(b, d)] })
    else
      let s := s.releaseReader b d
      let v := s.descOf b d
      let s := s.putDesc b d (dNextGen (setBit (setBit v 121 true) 125 true))
      .ended (s.readFailed f b d) (f.failAt lane idx .checkFail)

/-! ### Tiles made -/

/-- FP32 one, the weight of a plain reduce. -/
def plainAdds (t : DTile) : List (Nat × Val × DTile × Nat) := (List.range t.rows).map fun r => (r, Val.one, t, r)

/-- Rows a selector reduce adds into its target at DST_DESC + `t` × DST_STEP (R150): source row q goes to row r_q. -/
def Flight.selectorAdds (f : Flight) (t rt : Nat) : List (Nat × Val × DTile × Nat) :=
  ((f.selected f.pkt.fSelTiles f.pkt.fSelCol).zipIdx).filterMap fun x =>
    if x.1.1 / rt = t then (f.globalRow 0 f.pkt.fCount x.2).map fun g => (x.1.1 % rt, x.1.2, g.1, g.2) else none

/-- What a record's landing copies (R146, R147): header fields and payload; the check is carried within the class. -/
def recordMade (h : RecHdr) (payload : List Byte) (weight : Bool) (broken fresh : Bool) : Made :=
  let t := h.decode payload
  let own := t.checkOf h.weight
  let same := h.weight = weight
  { tile := t, bytes := payload, raw := h.raw, clip := h.clip, maxMag := h.maxMag
    carried := if same ∧ !fresh then some h.check else none
    newFormat := none, dropped := 0, violation := false, zmap := some (h.zmap, h.zmapValid)
    broken := broken || (!fresh && !same && decide (own ≠ h.check)) }

/-- A tile that is not made yet. -/
def Made.nothing : Made := Made.of 0 0 ⟨0, false, 0, 0, [], [], []⟩ 0 0

/-- Buffer role of a `LOAD` record and of a copied source. -/
def roleRec : Nat := 6

/-- log2 of the lane count of a `VECTOR` or `TOPK` packet, from every tile it names (R123). -/
def State.laneLogOf (s : State) (f : Flight) : Nat :=
  let p := f.pkt
  let ty := fun d => elemOf (dFormat (s.descOf f.basin d))
  if f.isOp 0x1E then
    laneLog true ((List.range p.tTiles).map fun i => ty (p.tX + i)) ((List.range p.tTiles).map fun i => ty (p.tO + i))
  else
    let n := List.range p.vTiles
    let ys := if !vHasY p then [] else if p.vBcast = 1 then [ty p.vY] else n.map fun i => ty (p.vY + i)
    let outs := if vIsRow p.vOp ∧ !vTwoPass p.vOp then [ty p.vO] else n.map fun i => ty (p.vO + i)
    laneLog (p.vOp = 0x11) ((n.map fun i => ty (p.vX + i)) ++ ys) outs

/-- The output tile of a write step, or the status the step ends with. -/
def State.make (s : State) (f : Flight) (b d role idx lane : Nat) : Except Status Made :=
  let v := s.descOf b d
  let p := f.pkt
  let ty := elemOf (dFormat v)
  let s4 := decide (layoutOf (dFormat v) = 4)
  if f.isMatrix then
    let cols := (f.blockShape lane).2.1
    let outs := fun (base : Nat) (k : Nat) => dRows (s.descOf b (base + lane * p.mOLane + k))
    let base := if role = 4 then p.mEsc else p.mO
    let before := ((List.range idx).map (outs base)).foldl (· + ·) 0
    let vs := ((laneVals f lane).drop (before * cols)).take (dRows v * cols)
    let sc := s.outScales b (role = 4 || f.twoPass.contains (lane * 4 + idx)) v (dRows v) cols vs
    let r := encodeVals ty s4 (dRows v) cols sc vs
    .ok (Made.of (dFormat v) 0 r.1 r.2 (maxMagOf vs))
  else if f.isOp 0x1C then
    let lg := s.laneLogOf f
    let vs := vectorOut f lg idx
    let r := vectorTile f lg idx ty s4 (dRows v) (dCols v)
      (s.outScales b (s.twoPass b p.vExact s4 v) v (dRows v) (dCols v) vs) vs
    .ok { Made.of (dFormat v) 0 r.1 r.2 (maxMagOf vs) with dropped := nonFinite ty vs }
  else if f.isOp 0x1E then
    let vs := topkOut f (s.laneLogOf f) ty idx
    let r := encodeVxe ty s4 (dRows v) (dCols v) [] (fun _ => 0) vs
    .ok { Made.of (dFormat v) 0 r.1 r.2 (maxMagOf vs) with dropped := nonFinite ty vs }
  else if f.isOp 0x22 then
    if p.sMode = 0 then
      let rows := (f.selected p.sSelTiles (p.sSelCol (idx / 4 % 4))).map (·.1)
      .ok (gatherOut f v rows p.sBlocks (idx % 4))
    else if idx = 0 then .ok (touchS f v)
    else .ok (touchB f v p.sBlocks)
  else if f.isOp 0x23 then .ok (histMade (f.words.drop 4))
  else if f.isScreen then
    match f.bufs.find? fun x => x.role = roleSrc ∧ x.idx = idx with
    | some x => screenMake p x.tile x.desc v (s.weightClass f.basin x.desc = s.weightClass b v)
    | none => .error .internal
  else if f.isOp 0x14 then .ok (fillMade v (ofF32 p.fFill))
  else
    match f.arrival with
    | some (_, _, bs, _, e1) => .ok (recordMade (recordParse bs) (bs.drop 64) (s.weightClass b v) false e1)
    | none =>
      match f.bufs.find? fun x => x.role = (if f.isOp 0x11 || f.restore then roleRec else roleSrc) ∧ x.idx = idx with
      | some x =>
        if f.isOp 0x11 || f.restore then
          .ok (recordMade (recordParse (x.payload.take 64)) (x.payload.drop 64) (s.weightClass b v)
            (!x.steered.isEmpty) false)
        else .ok
          { tile := x.tile, bytes := x.payload, raw := dRaw x.desc, clip := dClip x.desc, maxMag := dMaxMag x.desc
            carried := if s.weightClass f.basin x.desc = s.weightClass b v then some (dCheck x.desc) else none
            newFormat := none, dropped := 0, violation := false
            zmap := some (dZmap x.desc, dZmapValid x.desc), broken := false }
      | none => .error .internal

/-! ### Gauges of a tile's close -/

/-- Gauge, its basin and the increment a close adds (R53, R108, R143, R145, R147). -/
def Flight.closeGauge (f : Flight) (b role : Nat) : Nat × Nat × Nat :=
  if f.restore || f.isOp 0x23 then (b, 0, 0)
  else if f.isMatrix && role = 4 then (b, f.pkt.mEscGauge, f.pkt.inc.toNat)
  else (b, f.pkt.gauge, f.pkt.inc.toNat)

/-! ### Reduces (R149–R151) -/

/-- Old words of a target with, for each, whether it was uncorrectable: those a flight's beats have read, and the others
read now. -/
def State.oldWords (s : State) (b base len : Nat) (rd : Reader) (got : List (Nat × List Byte × Bool)) :
    State × List Byte × List Bool :=
  (List.range (cdiv len 64)).foldl (fun (a : State × List Byte × List Bool) i =>
    let (s, bs, bad) := a
    match got.find? fun x => x.1 = base * 4 + i with
    | some (_, d, x) => (s, bs ++ d, bad ++ [x])
    | none =>
      let (s, d, x) := s.readWord b (base * 4 + i) rd
      (s, bs ++ d, bad ++ [x])) (s, [], [])

/-- The rows a reduce adds into the tile at its head. -/
def Flight.reduceAdds (f : Flight) (role idx rt : Nat) : List (Nat × Val × DTile × Nat) :=
  match f.arrival with
  | some (_, _, bs, _, _) => plainAdds ((recordParse bs).decode (bs.drop 64))
  | none => if role = 5 then f.selectorAdds idx rt else plainAdds (f.tile roleSrc idx)

/-- The old tile of a reduce and its sums, from the old words. -/
def Flight.oldTile (v : BitVec 512) (bs : List Byte) : DTile := (decodeTile .vector v (bs.take (dPayloadLen v))).tile
def Flight.sums (f : Flight) (v : BitVec 512) (role idx : Nat) (bs : List Byte) : Made :=
  reduceTile (Flight.oldTile v bs) (f.reduceAdds role idx (dRows v))

/-- A sum is written back; where the old word was uncorrectable the word stays poisoned (R234). -/
def State.landSum (s : State) (b w : Nat) (d : List Byte) (bad : Bool) : State :=
  let br := s.bankRow b w
  let s := s.storeRow b br.1 br.2 d (if bad then poison else 0)
  if bad then s.bump (.bsnEccSt b) 0 16 else s

/-- The end of a reduce: the words its bursts have not added are added now, and the close fails when the old check does
(R151). -/
def State.reduceEnd (s : State) (f : Flight) (b d role idx : Nat) : State × Made :=
  let v := s.descOf b d
  let (s, bs, bad) := s.oldWords b (dExtentBase v) (dPayloadLen v) ⟨1, f.turnout⟩ f.got
  let failed := bad.any id || decide ((Flight.oldTile v bs).checkOf (s.weightClass b v) ≠ dCheck v)
  let m := f.sums v role idx bs
  let s := (List.range (cdiv m.bytes.length 64)).foldl (fun (s : State) i =>
    if f.landed.contains (dExtentBase v * 4 + i) then s
    else s.landSum b (dExtentBase v * 4 + i) (payloadWord m.bytes i) (bad.getD i false)) s
  let s := if failed then s.bump (.bsnChkSt b) 48 16 else s
  (s, { m with broken := failed })

/-! ### Requests -/

/-- A flight fails at its head. -/
def State.failHead (s : State) (f : Flight) (lane idx : Nat) (st : Status) : State := s.putFlight (f.failAt lane idx st)

/-- The read at a flight's head asks its gate (R46, R47, R236). -/
def State.askRead (s : State) (f : Flight) (b d idx lane : Nat) : State :=
  let (s, _) := s.readDesc b d
  match s.gateRead b d f.caller with
  | .fail st => (if st = .checkFail then s.noteBadDesc b d f.turnout true else s).failHead f lane idx st
  | .held _ => s.hold f (.heldRead b d) b d false
  | .grant =>
    let v := s.descOf b d
    let s := s.putDesc b d (setFld v 336 8 (dReaders v + 1))
    s.putFlight { f.unheld with
      phase := .reading b d, asked := [], got := []
      genAt := (dkey b d, dGen v) :: f.genAt.filter (·.1 ≠ dkey b d) }

/-- A lane's block has passed its comparison: it holds its accumulators, its saturations and alignment events are counted
(R88, R90, R116, R119), and its readout starts, with the encoding each output takes by then (R110). -/
def State.startReadout (s : State) (f : Flight) (lane : Nat) (ws : List AccWord) : State × Flight :=
  let u := f.laneUnit lane
  let f := { f with accs := (lane, ws) :: f.accs.filter fun x => x.1 ≠ lane }
  let n := laneSat f lane
  let al := laneAlign f lane
  let s := (s.bump (.mxeCnt f.basin u) 32 16 n).bump (.mxeSkip f.basin u) 0 16 al.toNat
  let s := s.putFld (.mxeSt f.basin u) 20 4 2
  let two := (List.range f.pkt.mOTiles).filter fun t =>
    let v := s.descOf f.basin (f.pkt.oDesc lane t)
    s.twoPass f.basin f.pkt.mExact (decide (layoutOf (dFormat v) = 4)) v
  (s, { f with
    sats := f.sats + n
    aligned := if al then lane :: f.aligned else f.aligned
    twoPass := f.twoPass ++ two.map fun t => lane * 4 + t
    alerts := f.alerts ||| alertIf (n > 0) alSaturation ||| alertIf al alPrecision })

/-- The engine compares the output at the plan's head before its tile opens: a matrix block before its first tile (R102,
R103, R105), a VXE's tile (R133), a screen's tile whose check it computes (R142). -/
def Flight.mustCompare (f : Flight) (lane : Nat) (m : Made) : Bool :=
  if f.isMatrix then !f.passed.contains lane
  else !f.passed.contains 0 && (f.isOp 0x1C || f.isOp 0x1E || (f.isScreen && m.carried.isNone))

/-- The write path of a flume turnout that a flight's write into basin `b` takes (R143). -/
def Flight.onPath (f : Flight) (b t : Nat) : Bool := 20 ≤ f.turnout && f.turnout < 24 && f.turnout = t &&
  match f.phase with | .writing b' _ | .awaitPath b' _ => b' = b | _ => false

/-- Another write has the path, or asked for it before (R143). -/
def State.pathTaken (s : State) (f : Flight) (b : Nat) : Bool :=
  s.flights.any fun g => g.id ≠ f.id && g.onPath b f.turnout &&
    match g.phase with | .writing _ _ => true | _ => f.pathNo = 0 || decide (g.pathNo < f.pathNo)

/-- A granted write that waits for its path, in the order of first asking. -/
def State.waitPath (s : State) (f : Flight) (b d : Nat) : State :=
  let first := f.pathNo = 0
  let s := if first then { s with nextFlight := s.nextFlight + 1 } else s
  s.putFlight { f.unheld with phase := .awaitPath b d, pathNo := if first then s.nextFlight else f.pathNo }

/-- What a flight's write of `m` will set at its close. -/
def State.pendingOf (s : State) (f : Flight) (b d role : Nat) (m : Made) : PendingClose :=
  let g := f.closeGauge b role
  m.pending (s.weightClass b (s.descOf b d)) g.1 g.2.1 g.2.2

/-- Open a tile and put the flight into its write. -/
def State.startWrite (s : State) (f : Flight) (b d role : Nat) (m : Made) : State :=
  let s := (s.openTile b d).putFlight { f.unheld with
    phase := .writing b d, made := some m, pend := some (s.pendingOf f b d role m), pathNo := 0
    asked := [], got := [], landed := [] }
  s.fixWait b d

/-- The output at a flight's head, made once; a matrix block is not read out before it has passed its comparison. -/
def State.makeOnce (s : State) (f : Flight) (b d role idx lane : Nat) : Except Status Made :=
  match f.made with
  | some m => .ok m
  | none =>
    if f.isReduce || f.mustCompare lane Made.nothing && f.isMatrix then .ok Made.nothing
    else s.make f b d role idx lane

/-- The write at a flight's head: its tile is made once and compared, then its gate is asked (R44, R46, R79, R80, R122). -/
def State.askWrite (s : State) (f : Flight) (b d role idx lane : Nat) : State :=
  let made := s.makeOnce f b d role idx lane
  let viol := f.isScreen && !f.nm && (match made with | .ok m => m.violation | .error e => e == .formatViolation)
  let s := if viol then s.bump (.bsnFmtSt b) 0 16 else s
  let f := { f with nm := f.nm || viol }
  match made with
  | .error st => s.failHead f lane idx st
  | .ok m =>
    if f.mustCompare lane m then
      s.putFlight { f with phase := .comparing, made := if f.isMatrix then none else some m }
    else
      let (s, v) := s.readDesc b d
      -- a block repeated after a readout difference goes on in the tile it has open
      if f.opened.contains (b, d) then s.startWrite { f with opened := f.opened.filter (· ≠ (b, d)) } b d role m else
      let len := if f.isReduce then denseLen (elemOf (dFormat v)) (dRows v) (dCols v) else m.bytes.length
      match s.gateWrite b d f len f.isReduce with
      | .fail st => (if st = .checkFail then s.noteBadDesc b d f.turnout true else s).failHead f lane idx st
      | .held w => s.hold { f with made := some m } (.heldWrite b d) b d w
      | .grant =>
        if s.pathTaken f b then (s.waitPath { f with made := some m } b d).fixWait b d
        else s.startWrite f b d role m

/-! ### Steps that end at once -/

/-- ZERO_MAP's write-back at the end of a read (R138): words 0 zeros, 1 updated, 2 skipped, histogram from word 4. -/
def State.zmapStep (s : State) (f : Flight) (b d i : Nat) : State :=
  let t := f.tile roleSrc i
  let vs := t.vals .vector
  let v := s.descOf b d
  let same := decide (kget f.genAt 0 (dkey b d) = dGen v)
  let s := if same then
      s.putDesc b d (setBit (setFld (setFld v 192 64 t.zeroMap.toNat) 304 16 (maxMagOf vs)) 124 true)
    else s
  let h := histAdd ((List.range 32).map fun k => f.word (4 + k)) vs
  let w0 := f.word 0 + (vs.filter Val.isZero).length
  s.putFlight { f with
    words := [w0, f.word 1 + same.toNat, f.word 2 + (!same).toNat, 0] ++ h
    plan := f.plan.drop 1, bufs := [] }

/-- STORE's record `i` (R144, R146): its increment is due once the siphon has accepted its last line. -/
def State.stackStep (s : State) (f : Flight) (i : Nat) : State :=
  match f.bufs.find? fun x => x.role = roleSrc ∧ x.idx = i with
  | none => s.failHead f 0 i .internal
  | some x =>
    let rec_ := recordHeader x.desc (s.weightClass f.basin x.desc) ++ x.payload
    if rec_.length > f.pkt.fStride * 256 then s.failHead f 0 i .extentOverflow
    else if !s.stackFree (f.pkt.fStack + i * f.pkt.fStride * 256) rec_.length true then
      s.putFlight { f with phase := .awaitStack }
    else
      let units := cdiv rec_.length 256
      let s := s.stackWrite (f.pkt.fStack + i * f.pkt.fStride * 256)
        (rec_ ++ List.replicate (units * 256 - rec_.length) 0) (some (.flight f.id))
      let s := (s.dueInc f.basin f.pkt.gauge f.pkt.inc.toNat).bump (.flmCnt f.basin f.unit0) 0 32
      s.putFlight { f with plan := f.plan.drop 1, bufs := [], closed := f.closed + 1, granules := f.granules + units }

/-- LOAD's record `i` (R146, R300): the tile is not opened when its header or its first block fails. A restore also
compares the record's CHECK with the descriptor's (R246). Bytes of a record beyond its stride read as zero (log entry
14). -/
def State.recordStep (s : State) (f : Flight) (i : Nat) : State :=
  let d := match f.plan.drop 1 with | .write _ d _ _ _ :: _ => d | _ => 0
  let v := s.descOf f.basin d
  let a := if f.restore then stackBase + dShadow v * 256 else f.pkt.fStack + i * f.pkt.fStride * 256
  let room := if f.restore then 5440 else f.pkt.fStride * 256
  if !s.stackFree a room false then s.putFlight { f with phase := .awaitStack }
  else
  let (s, b0, bad0) := s.stackRead a 256 (some (.flight f.id))
  let h := recordParse (b0.take 64)
  if !bad0.isEmpty then s.failHead f 0 i .checkFail
  else if !h.fits v then s.failHead f 0 i .badParam
  else if f.restore ∧ h.check ≠ dCheck v then s.failHead f 0 i .checkFail
  else
    let n := min (64 + h.len) room
    let (s, bs, bad) := s.stackRead (a + 256) (n - 256) (some (.flight f.id))
    let record := (b0 ++ bs).take n ++ List.replicate (64 + h.len - n) 0
    s.putFlight { f.putBuf ⟨roleRec, i, h.decode (record.drop 64), record, v, bad⟩ with plan := f.plan.drop 1 }

/-- The counter of a SEND's record: of its slot's key, or of the key it was dispatched under, which is kept (R377, R378). -/
def State.takeCounter (s : State) (f : Flight) : State × Nat :=
  let c := f.ctx
  let slot := f.pkt.fKey
  if f.keyGen = s.keyGenOf c slot then
    (s.countSend c slot, match s.jobKey c slot with | some (_, _, n) => n | none => 0)
  else
    let k := sendKey c slot f.keyGen
    let n := nget s.oldSends 0 k
    ({ s with oldSends := nset s.oldSends 0 k (n + 1) }, n)

/-- SEND's tile `i` goes to its culvert (R147, R378): words hold the job identifier and the E1 flag of its dispatch. -/
def State.sendStep (s : State) (f : Flight) (i : Nat) : State :=
  match f.bufs.find? fun x => x.role = roleSrc ∧ x.idx = i with
  | none => s.failHead f 0 i .internal
  | some x =>
    -- a fenced culvert takes nothing: the tile's answer is NOT_READY (R352)
    if s.culState (s.sendCulvert f.pkt) ≠ culUp then
      s.putFlight { f with plan := f.plan.drop 1, bufs := [], responses := f.responses ++ [(i, some .notReady)] }
    else
    let record := recordHeader x.desc (s.weightClass f.basin x.desc) ++ x.payload
    let job := BitVec.ofNat 32 (f.word 0)
    let (s, n) := s.takeCounter f
    let s := s.sendRecord f i record job (f.word 1 = 1) n
    let s := s.bump (.flmCnt f.basin f.unit0) 0 32
    s.putFlight { f with
      plan := f.plan.drop 1, bufs := []
      responses := f.responses ++ [(i, none)] }

/-- What is left of a plan once the selectors are read (R136, R137, R150). -/
def State.planStep (s : State) (f : Flight) : State :=
  let p := f.pkt
  if f.isOp 0x22 ∧ p.sMode = 0 then
    let counts := (List.range p.sSelCols).map fun k => (f.selected p.sSelTiles (p.sSelCol k)).length
    let cap := p.sOutTiles * dRows (s.descOf f.basin p.sDst)
    let most := counts.foldl max 0
    if most > cap then s.failHead { f with words := [most] } 0 0 .size
    else s.putFlight { f with plan := f.plan.drop 1, words := counts }
  else if f.isOp 0x22 then
    let t := f.touched.length
    if t > dCols (s.descOf f.basin p.sDst) then s.failHead { f with words := [t] } 0 0 .size
    else s.putFlight { f with plan := f.plan.drop 1, words := [t] }
  else
    let rt := max 1 (dRows (s.descOf p.fDstBasin p.fDst))
    let n := s.panelRows f.basin p.fSrc p.fCount 1
    let rows := ((f.selected p.fSelTiles p.fSelCol).take n).map fun r => r.1 / rt
    let ts := (List.range (rows.foldl max 0 + 1)).filter rows.contains
    s.putFlight { f with plan := ts.map fun t => .write p.fDstBasin (p.fDst + t * p.fStep) 5 t 0 }

/-! ### The end of a flight -/

/-- The status of a flight's reply: the lowest ended lane (R115), the lowest failing tile (R122, R147). -/
def Flight.status (f : Flight) : Status :=
  if f.isMatrix then
    (((List.range 8).filterMap fun l => (f.dead.find? fun x => x.1 = l).map (·.2)).head?).getD .ok
  else
    match f.responses.find? fun x => x.2.isSome && x.2 ≠ some .ok with
    | some (_, some st) => st
    | _ => (f.dead.head?.map (·.2)).getD .ok

/-- Result words of a flight's reply (R116, R129, R131, R140, R153). The 16-bit counts of a matrix reply's word 2 saturate
(DESIGN CHOICE, log entry 70). Word 1 of a `SEND`, whose tiles the remote site writes, is 0 (DESIGN CHOICE, log entry 81). -/
def Flight.outcome (f : Flight) : Outcome :=
  let st := f.status
  let op := f.pkt.op
  let o := fun (a b c d : Nat) => { Outcome.words a b c d with status := st, alerts := f.alerts }
  if f.isMatrix then
    o f.sats f.clips (min f.skipped 0xFFFF * 2 ^ 16 + min f.mispredicted 0xFFFF)
      (min f.repeats 255 * 2 ^ 24 + min f.escalated.length 255 * 2 ^ 16
        + min (f.aligned.filter (· < 16)).length 255 * 2 ^ 8 + f.word 62 * 16 + f.word 63)
  else if op = 0x1C then o f.clips (f.word 0) f.closed 0
  else if op = 0x1E then o (f.word 1) (f.word 2) (f.word 3) 0
  else if op = 0x20 ∨ op = 0x24 then o (f.word 0) f.raws f.closed (f.word 3)
  else if op = 0x21 then o 0 0 f.closed 0
  else if op = 0x22 then
    if f.pkt.sMode = 0 then o (f.word 0) (f.word 1) (f.word 2) (f.word 3) else o (f.word 0) 0 f.closed 0
  else if op = 0x23 then o (f.word 0) (f.word 1) (f.word 2) 0
  else
    let fail := match f.responses.find? fun x => x.2.isSome && x.2 ≠ some .ok with
      | some (i, _) => i
      | none => if f.dead.isEmpty then 0xFFFFFFFF else f.failIdx
    let w0 := if op = 0x13 then (f.responses.filter fun x => x.2 = some .ok).length else f.closed
    o w0 f.granules (if op = 0x14 ∨ op = 0x1D then f.clips else 0) fail

/-- Counters of a finished flight for `STATS_READ` (R226). -/
def Flight.stats (f : Flight) : Stats :=
  { Stats.zero with
    tiles := f.closed, granules := f.granules, skipped := f.skipped, mispredicted := f.mispredicted, sats := f.sats
    clips := f.clips, raws := f.raws, fmtAlerts := f.fmtAlerts }

/-- State field of an engine unit (R119, R155). -/
def State.unitState (s : State) (u : UnitRef) : Nat :=
  match u.kind with
  | .mxe => s.rfld (.mxeSt u.basin u.unit) 20 4
  | .vxe => s.rfld (.vxeSt u.basin u.unit) 20 4
  | .screen => s.rfld (.sxeSt u.basin u.unit) 20 4
  | .flume => s.rfld (.flmSt u.basin u.unit) 20 4
  | _ => 0

def State.setUnit (s : State) (u : UnitRef) (v : Nat) : State :=
  match u.kind with
  | .mxe => s.putFld (.mxeSt u.basin u.unit) 20 4 v
  | .vxe => s.putFld (.vxeSt u.basin u.unit) 20 4 v
  | .screen => s.putFld (.sxeSt u.basin u.unit) 20 4 v
  | .flume => s.putFld (.flmSt u.basin u.unit) 20 4 v
  | _ => s

/-- The fault history's entry of a unit says it is retired (R270). -/
def State.isRetired (s : State) (u : UnitRef) : Bool :=
  s.cistern.units.any fun x => x.kind = u.kind && x.basin = u.basin && x.unit = u.unit && x.retired

/-! ### Repeat units (R264, R265) -/

/-- MXEs of a basin in service: not retired and not under test. -/
def State.mxesInService (s : State) (b : Nat) : List Nat :=
  (List.range (s.cfg.activeMxe + s.cfg.spareMxe)).filter fun u =>
    s.unitState ⟨.mxe, b, u⟩ ≠ 4 && s.unitState ⟨.mxe, b, u⟩ ≠ 5

/-- Engines of a packet's kind in service, but for those of `except`. -/
def State.othersInService (s : State) (f : Flight) (except : List Nat) : List Nat :=
  let us := if f.isMatrix then s.mxesInService f.basin
    else (List.range (if f.isScreen then 4 else 16)).filter fun u =>
      let st := s.unitState ⟨if f.isScreen then .screen else .vxe, f.basin, u⟩
      st ≠ 4 && st ≠ 5
  us.filter fun u => !except.contains u

/-- Kind of a flight's engine. -/
def Flight.kind (f : Flight) : UnitKind := if f.isMatrix then .mxe else if f.isScreen then .screen else .vxe

/-- A unit of the packet has no block left to compute or write. -/
def Flight.finished (f : Flight) (u : Nat) : Bool :=
  f.isMatrix && (f.units.any fun x => x.unit = u) && !(f.rep.any fun r => r.now.any fun x => x.1 = u)
    && !(f.plan.any fun st => st.lane < 8 && f.laneUnit st.lane = u && !f.dropped st)

/-- The unit a repeat takes, none while none is idle (R264): of MXEs a free spare, then an idle active one not serving the
packet, then the first other to become idle, which may be one that has done its part of the packet; of VXEs and screens
the lowest idle one. -/
def State.pickRepeat (s : State) (f : Flight) (except : List Nat) : Option Nat :=
  let us := s.othersInService f except
  let st := fun u => s.unitState ⟨f.kind, f.basin, u⟩
  (us.find? fun u => f.isMatrix && st u = 3).or
    ((us.find? fun u => st u = 0).or (us.find? fun u => f.finished u))

/-- A repeat takes its unit: another one when one is idle; the failing one where no other is in service (R265), which has
done its part of the packet by then. -/
def State.takeUnit (s : State) (f : Flight) (r : Repeat) : State × Repeat :=
  let failing := (r.fails.head?.map (·.1)).getD 0
  let pick := if r.same then some failing else s.pickRepeat f (r.fails.map (·.1))
  match pick with
  | none => (s, r)
  | some u =>
    let st := s.unitState ⟨f.kind, f.basin, u⟩
    let s := if r.same then s else s.setUnit ⟨f.kind, f.basin, u⟩ 1
    (s, { r with now := some (u, st), spare := r.spare || st = 3 })

/-- A repeat's unit is as it was before, unless it has been taken for a test meanwhile; a VXE, screen or flume that was retired
meanwhile is so from then on (R273). -/
def State.freeUnit (s : State) (f : Flight) (r : Repeat) : State :=
  match r.now with
  | some (u, st) =>
    let now := s.unitState ⟨f.kind, f.basin, u⟩
    let st := if f.kind ≠ .mxe ∧ s.isRetired ⟨f.kind, f.basin, u⟩ then 5 else st
    if !r.same && (now = 1 || now = 2) then s.setUnit ⟨f.kind, f.basin, u⟩ st else s
  | none => s

def Flight.putRep (f : Flight) (r : Repeat) : Flight := { f with rep := r :: f.rep.filter fun x => x.lane ≠ r.lane }

/-- The repeats of lanes that have nothing left to do give their units back (R264). -/
def State.endRepeats (s : State) (f : Flight) : State × Flight :=
  let gone := fun (r : Repeat) => r.fails.isEmpty && (!f.isMatrix || !(f.plan.any fun st => st.lane = r.lane))
    || (f.dead.any fun x => x.1 = r.lane)
  ((f.rep.filter gone).foldl (fun (s : State) r => s.freeUnit f r) s, { f with rep := f.rep.filter fun r => !gone r })

/-- A repeat at the head of the plan: it goes on when it has a unit. -/
def State.againStep (s : State) (f : Flight) (lane : Nat) : State :=
  match f.repOf lane with
  | none => s.putFlight { f with plan := f.plan.drop 1 }
  | some r =>
    let (s, r) := if r.now.isSome then (s, r) else s.takeUnit f r
    let f := f.putRep r
    s.putFlight (if r.now.isSome then { f with plan := f.plan.drop 1, alerts := f.alerts ||| alertIf r.spare alSpare }
      else { f with phase := .awaitUnit })

/-- Busy units become idle again; a VXE, screen or flume that was retired meanwhile is so from then on (R273). -/
def State.releaseUnits (s : State) (us : List UnitRef) : State :=
  us.foldl (fun (s : State) u =>
    if s.unitState u = 1 ∨ s.unitState u = 2 then s.setUnit u (if u.kind ≠ .mxe ∧ s.isRetired u then 5 else 0)
    else s) s

/-- A message leaves the request buffer (R415); credits go back in arrival order (R417). -/
def leaveInbox (xtag : BitVec 32) (ms : List (BitVec 32 × Nat × Bool)) : List (BitVec 32 × Nat × Bool) :=
  (ms.map fun (m : BitVec 32 × Nat × Bool) => if m.1 = xtag then (m.1, m.2.1, true) else m).dropWhile (·.2.2)

/-- Response codes on a culvert are the status codes of R147. The message leaves the request buffer (R415). -/
def State.respond (s : State) (c : Nat) (xtag : BitVec 32) (st : Status) : State :=
  let cv := s.culvert c
  s.putCulvert c { cv with responses := cv.responses ++ [(xtag, st)], inbox := leaveInbox xtag cv.inbox }

/-- A flight's requests leave the siphons' queues with it. -/
def State.dropRequests (s : State) (i : Nat) : State :=
  { s with siphons := s.siphons.map fun x =>
      (x.1, { x.2 with
        queue := x.2.queue.filter fun q => q.who ≠ .flight i
        granted := x.2.granted.filter fun q => q.who ≠ .flight i
        served := x.2.served.filter fun q => q.1 ≠ .flight i }) }

/-- A flight leaves. -/
def State.dropFlight (s : State) (f : Flight) : State := { s with flights := s.flights.filter (·.id ≠ f.id) }

/-- A restore ends (R246): a failed one closes its tile broken. The reads that wait for it go back to their gate. -/
def State.restoreEnd (s : State) (f : Flight) (b d : Nat) : State :=
  let failed := f.status ≠ .ok
  let s := if failed ∧ !(dBroken (s.descOf b d) && dStale (s.descOf b d)) then s.closeBroken b d else s
  let s := if failed then
      (s.flights.filter fun g => g.phase = .restoring b d && g.retries = 2).foldl (fun (s : State) g => s.readFailed g b d) s
    else (s.bump (.bsnChkSt b) 16 16).post
    { Event.of .descLine b d clsRestored .none with
      loc := d, ctx := dCtx (s.descOf b d), detail := tileDetail d 0x11 true }
  { s with flights := s.flights.map fun (g : Flight) =>
      if g.phase = .restoring b d then
        if failed ∧ g.retries = 2 then
          match g.plan with
          | .read _ _ _ idx lane :: _ => g.failAt lane idx .checkFail
          | _ => g.failAt 0 0 .checkFail
        else { g with phase := .run, retries := 2 }
      else g }

/-- Tiles a flight leaves open close broken (R48). -/
def State.closeOpened (s : State) (ts : List (Nat × Nat)) : State := ts.foldl (fun (s : State) x => s.closeBroken x.1 x.2) s

/-- A flight whose plan is done (R122, R147, R153): it answers, and its units are idle. -/
def State.endFlight (s : State) (f : Flight) : State :=
  let s := s.closeOpened f.opened
  let s := f.rep.foldl (fun (s : State) r => s.freeUnit f r) (s.dropRequests f.id)
  if f.restore then
    let (b, d) := match f.genAt with | (k, _) :: _ => (k / 16384, k % 16384) | [] => (f.basin, 0)
    ((s.dropFlight f).releaseUnits f.units).restoreEnd f b d
  else match f.arrival with
  | some (c, x, _, _, _) => (s.dropFlight f).respond c x f.status
  | none =>
    if f.responses.any fun x => x.2.isNone then s.putFlight { f with phase := .responses, plan := [] }
    else
      let o := f.outcome
      let s := (s.dropFlight f).releaseUnits f.units
      let s := if o.status.failed then s else match f.units with
        | ⟨.vxe, b, u⟩ :: _ => s.bump (.vxeCnt b u) 0 32
        | ⟨.screen, b, u⟩ :: _ => s.bump (.sxeCnt b u) 0 32
        | _ => s
      s.finish f.src f.caller.spawn f.off f.pkt f.basin f.startCycle o (f.isOp 0x23) f.stats

/-! ### Running -/

/-- Go on with a flight until it blocks or ends. A blocked flight stands in a phase other than `run`. -/
def State.runFlight : Nat → State → Nat → State
  | 0, s, _ => s
  | n + 1, s, i =>
    match s.flight? i with
    | none => s
    | some f =>
      if f.phase ≠ .run then s
      else match f.plan with
        | [] => s.endFlight f
        | st :: rest =>
          if f.dropped st then State.runFlight n (s.putFlight { f with plan := rest }) i
          else State.runFlight n (match st with
            | .read b d _ idx lane => s.askRead f b d idx lane
            | .write b d role idx lane => s.askWrite f b d role idx lane
            | .record k => s.recordStep f k
            | .stack k => s.stackStep f k
            | .send k => s.sendStep f k
            | .zmap b d k => s.zmapStep f b d k
            | .plan => s.planStep f
            | .again l => s.againStep f l) i

/-- Steps a flight can take before it blocks. -/
def State.fuelFor (s : State) (i : Nat) : Nat :=
  match s.flight? i with | some f => 2 * f.plan.length + 16 | none => 0

def State.go (s : State) (i : Nat) : State := s.runFlight (s.fuelFor i) i

/-- A held request is tried again. -/
def State.retry (s : State) (i : Nat) : State :=
  match s.flight? i with
  | none => s
  | some f =>
    match f.phase with
    | .heldRead b d =>
      let s := (s.putFlight { f with phase := .run }).fixWait b d
      s.go i
    | .heldWrite b d =>
      -- the write keeps its place among the held writes while it is tried
      let t := s.putFlight { f with phase := .run }
      let t := t.go i
      t.fixWait b d
    | _ => s

/-- Requests in hold slots to try again when something ends at a tile, in the order of their first hold. One returned to its
engine is reissued 16 cycles after its return. -/
def State.heldAt (s : State) (b d : Nat) (which : Flight → Bool) : List Nat :=
  let fs := s.flights.filter fun f => f.inSlot ∧ f.atTile = some (b, d) ∧ which f
  let ns := (fs.map (·.heldNo)).foldl max 0
  ((List.range (ns + 1)).flatMap fun n => (fs.filter fun f => f.heldNo = n)).map (·.id)

def State.retryAll (s : State) (is : List Nat) : State := is.foldl State.retry s

/-- After a close: requests in wait-on-close (R47). After an unlock, a break or a broken close: every held request
(R48–R50). After the last read: held writes and requests in wait-on-close. -/
def State.afterClose (s : State) (b d : Nat) : State := s.retryAll (s.heldAt b d (·.waitClose))
def State.afterBreak (s : State) (b d : Nat) : State := s.retryAll (s.heldAt b d fun _ => true)
def State.afterReads (s : State) (b d : Nat) : State :=
  s.retryAll (s.heldAt b d fun f => f.waitClose || f.phase = .heldWrite b d)

/-- A flight waits for a unit or a write path. -/
def Flight.waiting (f : Flight) : Bool :=
  match f.phase with | .awaitUnit | .awaitPath _ _ | .awaitStack => true | _ => false

/-- A flight ready to run, or waiting for what may have become free, goes on. -/
def State.wakeFlight (s : State) (i : Nat) : State :=
  match s.flight? i with
  | some f =>
    if f.waiting then (s.putFlight { f with phase := .run }).go i
    else if f.phase = .run then s.go i else s
  | none => s

/-- Flights left ready to run by something else's end: a failed restore, a freed gate, unit or write path. -/
def State.runReady (s : State) : State :=
  ((s.flights.filter fun f => f.phase = .run || f.waiting).map (·.id)).foldl State.wakeFlight s

/-! ### Closes -/

/-- What a closed tile counts (R73, R78, R107, R116, R119, R140, R155), and an escalation it starts (R108): where a block's
tiles belong to different streams, the entry of the first tile over tolerance that may escalate counts it (DESIGN CHOICE,
log entry 70). -/
def State.closeAccount (s : State) (f : Flight) (b d role idx lane : Nat) (m : Made) : State × Flight :=
  let v := s.descOf b d
  let p := f.pkt
  let encoded := m.raw && m.zmap.isNone
  let s := if encoded then s.bump (.bsnFmtSt b) 48 16 else s
  let f := { f with
    closed := f.closed + 1, granules := f.granules + cdiv m.bytes.length 256, raws := f.raws + encoded.toNat
    clips := if f.isMatrix ∧ role = 4 then f.clips else f.clips + m.clip
    alerts := f.alerts ||| alertIf encoded alRaw }
  if f.isMatrix then
    let u := f.laneUnit lane
    if role = 4 then (s, f)
    else
      let ovr := s.overTolerance b v m.clip
      let f := { f with alerts := f.alerts ||| alertIf ovr alPrecision }
      let can := match s.entryOf b v with
        | some e => if ovr ∧ p.mEscEn ∧ bit (s.reg (.trnStreamCfg b e)) 61 then some e else none
        | none => none
      -- words hold, for an over-tolerance block, lane × 256 + entry, from word 0
      let f := match can with
        | some e => if (f.words.take 62).any fun w => w / 256 = lane + 1 then f
            else { f with words := setNth f.words lane ((lane + 1) * 256 + e) }
        | none => f
      if idx + 1 = p.mOTiles then
        let s := s.bump (.mxeCnt f.basin u) 0 32
        let w := f.word lane
        if w ≥ 256 then
          let s := s.bump (.trnStreamSt b (w % 256)) 16 16
          let esc := (List.range p.mOTiles).map fun t => PStep.write b (p.eDesc lane t) 4 t lane
          (s, { f with
            plan := f.plan.take 1 ++ esc ++ f.plan.drop 1, escalated := lane :: f.escalated
            alerts := f.alerts ||| alEscalated })
        else (s, f)
      else (s, f)
  else if f.isOp 0x1C then
    let s := s.bump (.vxeCnt f.basin f.unit0) 32 16 m.dropped
    (s, f.addWord 0 m.dropped)
  else if f.isOp 0x1E then
    let s := s.bump (.vxeCnt f.basin f.unit0) 32 16 m.dropped
    (s, { f with words := [0, p.tRows, topkNans f, f.word 3 + topkZeros f (s.laneLogOf f) (elemOf (dFormat v)) idx] })
  else if f.isScreen then
    (s, if f.isOp 0x20 || f.isOp 0x24 then f.addWord 3 m.newFormat.isSome.toNat else f)
  else if f.isArrival then (s, f)
  else
    let s := s.bump (.flmCnt f.basin f.unit0) 0 32
    (if f.isReduce then s.bump (.flmCnt f.basin f.unit0) 32 16 else s, f)

/-- Buffers a packet needs no more once output `idx` has closed: tile-by-tile packets keep none. -/
def Flight.keepBufs (f : Flight) : Flight :=
  if f.isMatrix || f.isOp 0x1E || f.isOp 0x22 || (f.isOp 0x1D && f.pkt.fSelEn) then f
  else if f.isOp 0x1C then
    { f with bufs := f.bufs.filter fun b => b.role = roleX1 || (b.role = roleY && f.pkt.vBcast = 1) }
  else { f with bufs := [] }

/-- A payload as it came out: `wrong` bytes differ from what was made; and how it decodes. -/
def Made.outBytes (m : Made) (wrong : List (Nat × Byte)) : List Byte :=
  wrong.foldl (fun (l : List Byte) x => if x.1 < l.length then l.set x.1 x.2 else l) m.bytes
def Made.outTile (m : Made) (v : BitVec 512) (wrong : List (Nat × Byte)) : Decoded :=
  let fmt := match m.newFormat with | some (x, _) => x | none => dFormat v
  decodePayload .vector fmt (dNmPair v) (dRows v) (dCols v) m.bytes.length m.raw (m.outBytes wrong)

/-- The balance of the bytes an MXE's output gate has written is not the one its check row formed (R105). -/
def Made.readoutDiffers (m : Made) (v : BitVec 512) (wrong : List (Nat × Byte)) : Bool :=
  (m.outTile v wrong).tile.checkOf false ≠ m.tile.checkOf false

/-- A payload as it came out, and whether a copy's check agrees with what it carries (R77). A matrix tile's bytes are those its
gate has compared; payloads of other writers that compute the check take no `wrong` bytes: R133 and R142 compare those. -/
def State.cameOut (s : State) (f : Flight) (b d : Nat) (p : PendingClose) (m : Made) (wrong : List (Nat × Byte)) :
    State × PendingClose :=
  let bs := m.outBytes wrong
  match m.carried with
  | none => (if f.isMatrix ∧ bs ≠ m.bytes then s.landWords b (dExtentBase (s.descOf b d) * 4) bs [] else s, p)
  | some c =>
    if bs = m.bytes then (s, p)
    else
      let v := s.descOf b d
      let dec := m.outTile v wrong
      (s.landWords b (dExtentBase v * 4) bs [],
        { p with broken := m.broken || f.isReduce || decide (dec.tile.checkOf (s.weightClass b v) ≠ c) })

/-- The comparison that breaks a write: a carried check that disagrees (R77), or a reduce's old check (R151). Other breaks
count and post nothing. -/
def Flight.checkBreaks (f : Flight) (m : Made) : Bool := f.isReduce || (!m.broken && m.carried.isSome)

/-- A carried-check mismatch counts against the unit that wrote the tile (R263, R268): its flume, for an arrival the flume
of its turnout, for a screen's copy the screen (DEDUCED, log entry 71). -/
def State.carriedEvent (s : State) (f : Flight) (b : Nat) : State :=
  if f.isScreen then s.post { Event.of .screen f.basin f.unit0 clsScreen .none with ctx := f.ctx, failed := true }
  else
    let at' := match f.arrival with | some (c, _) => (b, c) | none => (f.basin, f.unit0)
    (s.bump (.flmCnt at'.1 at'.2) 48 16).post
      { Event.of .flume at'.1 at'.2 clsCarried .none with ctx := f.ctx, failed := true }

/-- The words of a write that no burst has brought land, or are added; with what the close will set. -/
def State.landRest (s : State) (f : Flight) (b d role idx : Nat) (p : PendingClose) (m : Made) :
    State × PendingClose × Made :=
  if f.isReduce then
    let (s, m) := s.reduceEnd f b d role idx
    (s, s.pendingOf f b d role m, m)
  else (s.landWords b (dExtentBase (s.descOf b d) * 4) m.bytes f.landed, p, m)

/-- The last word of a flight's write lands (R45, R48, R77). -/
def State.endWrite (s : State) (f : Flight) (b d role idx lane : Nat) (wrong : List (Nat × Byte)) : State :=
  match f.pend, f.made with
  | some p, some m =>
    let (s, p, m) := s.landRest f b d role idx p m
    let (s, p) := s.cameOut f b d p m wrong
    if p.broken then
      let s := s.closeBroken b d
      let s := if f.checkBreaks m then s.carriedEvent f b else s
      let s := s.putFlight (f.failAt lane idx .checkFail)
      (s.afterBreak b d).go f.id
    else
      let s := s.closeTile b d p
      let (s, f) := s.closeAccount f b d role idx lane m
      let f := { f.keepBufs with
        plan := f.plan.drop 1, phase := .run, made := none, pend := none
        passed := if f.isMatrix then f.passed else [] }
      let (s, f) := s.endRepeats f
      let s := s.putFlight f
      (s.afterClose b d).go f.id
  | _, _ => (s.putFlight (f.failAt lane idx .tileBroken)).go f.id

/-- A flight has a burst waiting, queued or with a beat or its data still to come. -/
def State.burstsDue (s : State) (i : Nat) : Bool :=
  (s.turnWait.any fun x => x.2.who = .flight i) || (s.arbs.any fun a => a.queue.any fun e => e.who = .flight i)
    || s.beats.any fun x => x.who = some (.flight i) && (!x.done || (x.last.any fun l => decide (s.cycle < l.2.2)))

/-- Words of a tile at granule `base` that no burst was sent for would take their beats now, when none may start (R312, R331). -/
def State.startsBeats (s : State) (f : Flight) (base len : Nat) : Bool :=
  !s.mayIssue && (List.range (cdiv len 64)).any fun i => !f.asked.contains (base * 4 + i)

/-- Bytes a flight's write lands. -/
def State.writeLen (s : State) (f : Flight) (b d : Nat) (m : Made) : Nat :=
  if f.isReduce then dPayloadLen (s.descOf b d) else m.bytes.length

/-- A read has met an uncorrectable word: its gate aborts it (R244). -/
def Flight.aborted (f : Flight) : Bool :=
  match f.phase with | .reading _ _ => f.got.any (·.2.2) | _ => false

/-- An aborted read's bursts come to nothing: those not granted are withdrawn, beats still to come bring it no word. -/
def State.dropBursts (s : State) (i : Nat) : State :=
  { s with
    turnWait := s.turnWait.filter fun x => x.2.who ≠ .flight i
    arbs := s.arbs.map fun (a : CheckArb) => { a with queue := a.queue.filter fun e => e.who ≠ .flight i }
    beats := s.beats.map fun (x : Beat) => if x.who = some (.flight i) then { x with who := none } else x }

/-- TILE_CLOSE (R45). -/
def State.tileCloseOf (s : State) (i : Nat) (wrong : List (Nat × Byte)) : State :=
  match s.flight? i with
  | none => s
  | some f =>
    match f.phase, f.plan with
    | .writing b d, .write _ _ role idx lane :: _ =>
      if s.burstsDue i then s else (s.endWrite f b d role idx lane wrong).runReady
    | _, _ => s

/-- TILE_READ_END (R46, R242–R245): after the read's last word, or at its first uncorrectable one. -/
def State.tileReadEndOf (s : State) (i : Nat) : State :=
  match s.flight? i with
  | none => s
  | some f =>
    match f.phase, f.plan with
    | .reading b d, .read _ _ role idx lane :: _ =>
      if (s.burstsDue i || s.startsBeats f (dExtentBase (s.descOf b d)) (dPayloadLen (s.descOf b d))) && !f.aborted then s else
      let s := if f.aborted then s.dropBursts i else s
      let free := fun (s : State) => if dReaders (s.descOf b d) = 0 then s.afterReads b d else s
      match s.readEnd f b d role idx lane with
      | .delivered s f => ((free (s.putFlight f)).go i).runReady
      | .again s => if (s.flight? i).any fun g => g.phase = .reading b d then s else free s
      | .ended s f =>
        let s := s.putFlight f
        let s := if dStale (s.descOf b d) then s.afterBreak b d else free s
        (s.go i).runReady
    | _, _ => s

/-! ### Ending packets from outside (R48, R196, R223) -/

/-- A flight ended by its context's fault or destruction: its open tile closes broken, its read is released, its units
are idle, and nothing is answered. -/
def State.killFlight (s : State) (f : Flight) : State :=
  let s := s.closeOpened f.opened
  let s := f.rep.foldl (fun (s : State) r => s.freeUnit f r) ((s.dropRequests f.id).dropFlight f)
  let s := match f.phase with
    | .writing b d => (s.closeBroken b d).afterBreak b d
    | .reading b d =>
      let s := s.releaseReader b d
      if dReaders (s.descOf b d) = 0 then s.afterReads b d else s
    | .heldWrite b d => s.fixWait b d
    | _ => s
  s.releaseUnits f.units

end Sys2Proof.Machine
end

