-- ==== Sys2Proof/Machine/Packets.lean ====
section
/-! DEFINITION. Command packets on their way: the checks common to all (R207), the checks of the stream opcodes (R25,
R39, R114, R120, R129, R131, R135–R139, R145–R149, R212, R216–R218), and which tiles and gauges a packet names (R365). -/

namespace Sys2Proof

open Machine

/-- Where a packet may come from. -/
inductive From where
  | ctx | list | owner | headgate
  deriving DecidableEq, Repr

def Src.kind : Src → From
  | .ring r => if r < 8 then .ctx else .owner
  | .list _ _ => .list
  | .headgate => .headgate

/-- Sources an opcode is accepted from; none outside the table. -/
def opFrom (op : Nat) : List From :=
  if op = 0x08 ∨ (1 ≤ op ∧ op ≤ 5) ∨ (0x10 ≤ op ∧ op ≤ 0x14) ∨ op = 0x18 ∨ op = 0x19 ∨ op = 0x1C ∨ op = 0x1D
      ∨ op = 0x1E ∨ (0x20 ≤ op ∧ op ≤ 0x24) ∨ op = 0x28 ∨ op = 0x29 ∨ op = 0x41 ∨ op = 0x45 ∨ op = 0x46 then
    [.ctx, .list]
  else if op = 0x09 then [.list]
  else if op = 0x40 ∨ op = 0x4D then [.ctx, .list, .owner]
  else if op = 0x42 ∨ op = 0x44 ∨ op = 0x4A ∨ op = 0x80 ∨ op = 0x81 ∨ op = 0x83 ∨ op = 0x84 then [.ctx, .owner]
  else if op = 0x43 ∨ op = 0x48 ∨ op = 0x49 ∨ op = 0x4B ∨ op = 0x4C then [.owner]
  else if op = 0x47 then [.ctx]
  else if (0xC0 ≤ op ∧ op ≤ 0xC5) ∨ (0xC8 ≤ op ∧ op ≤ 0xCB) then [.headgate]
  else []

/-- A `CTX_CREATE` with RECOVER set. -/
def Packet.isRecovery (p : Packet) : Bool := p.op = 0x42 && p.p 16 4 1 = 1

/-- The source may issue the opcode. -/
def Packet.accepted (p : Packet) (src : Src) : Bool :=
  (opFrom p.op).contains src.kind && (p.op ≠ 0x42 || src.kind = .owner || p.isRecovery)

/-- Flags outside their row of R204. -/
def Packet.badFlags (p : Packet) (src : Src) : Bool :=
  let op := p.op
  let strictOk := op = 0x18 ∨ op = 0x19 ∨ op = 0x1C ∨ op = 0x1D ∨ op = 0x1E ∨ (0x20 ≤ op ∧ op ≤ 0x24)
  decide (fld p.flags 5 3 ≠ 0)
    || ((p.convertOnViolation || p.prune) && op ≠ 0x20)
    || (p.strict && !decide strictOk)
    || ((p.continueFlag || p.replyFlag) && src.kind ≠ .list)

/-- Reserved header bits (R203). -/
def Packet.badHeader (p : Packet) : Bool := bit p.rightCtx 3 || p.rsv3 ≠ 0 || decide (fld p.gaugeW 12 4 ≠ 0)

def steps (base n step : Nat) : List Nat := (List.range n).map fun i => base + i * step

/-- Operand descriptors of a matrix packet, its outputs, its escalation tiles. -/
def Packet.mOperands (p : Packet) : List Nat :=
  steps p.mA p.mK p.mAStep ++ p.laneList.flatMap fun l => steps (p.mB + l * p.mBLane) p.mK p.mBStep
def Packet.mOutputs (p : Packet) : List Nat := p.laneList.flatMap fun l => (List.range p.mOTiles).map (p.oDesc l)
def Packet.mEscs (p : Packet) : List Nat :=
  if p.mEscEn then p.laneList.flatMap fun l => (List.range p.mOTiles).map (p.eDesc l) else []

/-- Y tiles and output tiles of a `VECTOR` packet. -/
def Packet.vYs (p : Packet) : List Nat :=
  if !vHasY p then [] else if p.vBcast = 1 then [p.vY] else steps p.vY p.vTiles 1
def Packet.vOuts (p : Packet) : List Nat :=
  if vIsRow p.vOp && !vTwoPass p.vOp then [p.vO] else steps p.vO p.vTiles 1

/-- Source tiles of panel `q` of a GATHER_ROWS. -/
def Packet.gPanel (p : Packet) (q : Nat) : List Nat := steps (p.sSrc + q * p.sPStep) p.sBlocks p.sStep
def Packet.gSources (p : Packet) : List Nat := (List.range p.sPanels).flatMap p.gPanel
/-- Output (panel, column, tile) of SELECT, and the outputs of either mode. -/
def Packet.gOut (p : Packet) (q c t : Nat) : Nat := p.sDst + c * p.sDstCStep + q * p.sDstPStep + t
def Packet.gOuts (p : Packet) : List Nat :=
  if p.sMode = 0 then
    (List.range p.sPanels).flatMap fun q => (List.range p.sSelCols).flatMap fun c =>
      (List.range p.sOutTiles).map (p.gOut q c)
  else steps p.sDst (p.sPanels + 1) 1

/-- Gauge operands of a packet, besides its completion gauge. -/
def Packet.gaugeOperands (p : Packet) : List Nat :=
  match p.op with
  | 0x03 | 0x04 | 0x05 => [p.p 16 0 12]
  | 0x18 | 0x19 => if p.mEscEn then [p.mEscGauge] else []
  | 0x13 => if p.fSrcInc = 0 then [] else [p.fSrcGauge]
  | _ => []

/-- The completion gauge lies elsewhere than in the packet's basin (R145, R207 order 7). -/
def Packet.gaugeElsewhere (p : Packet) : Bool := p.op = 0x10 || p.op = 0x13 || p.op = 0x1D

/-- R212: a `RUN_LIST` from `src`. -/
def Packet.rlOffset (p : Packet) : Nat := p.p 16 0 32
def Packet.rlBasin (p : Packet) : Nat := p.p 20 0 6
def Packet.rlSpawn (p : Packet) : Bool := p.p 21 0 1 = 1
def runListFields : List (Nat × Nat × Nat) := [(16, 0, 32), (20, 0, 6), (21, 0, 1)]

end Sys2Proof

namespace Sys2Proof.Machine

/-- The status of the first condition that holds. -/
def firstOf : List (Bool × Status) → Option Status
  | [] => none
  | (c, st) :: t => if c then some st else firstOf t

/-! ### Opcodes and sources (R206) -/

/-! ### Tiles and gauges named -/

/-- Input and output descriptors that lie in the packet's basin; the second list in DST_BASIN when it has one. -/
def State.tilesNamed (s : State) (b : Nat) (p : Packet) : List Nat × List Nat × List Nat :=
  match p.op with
  | 0x18 | 0x19 => (p.mOperands, p.mOutputs ++ p.mEscs, [])
  | 0x1C => (steps p.vX p.vTiles 1 ++ p.vYs, p.vOuts, [])
  | 0x1E => (steps p.tX p.tTiles 1, steps p.tO p.tTiles 1, [])
  | 0x20 | 0x21 | 0x24 => (steps p.sSrc p.sCount 1, steps p.sDst p.sCount 1, [])
  | 0x22 => (steps p.sSel p.sSelTiles 1 ++ p.gSources, p.gOuts, [])
  | 0x23 => (steps p.sSrc p.sCount 1, if p.sHist then [p.sDst] else [], [])
  | 0x10 => (steps p.fSrc p.fCount 1, [], steps p.fDst p.fCount 1)
  | 0x11 => ([], steps p.fDst p.fCount 1, [])
  | 0x12 | 0x13 => (steps p.fSrc p.fCount 1, [], [])
  | 0x14 => ([], steps p.fDst p.fCount 1, [])
  | 0x1D =>
    if p.fSelEn then
      let rt := max 1 (dRows (s.descOf p.fDstBasin p.fDst))
      let n := cdiv (s.panelRows b p.fSel p.fSelTiles 1) rt
      (steps p.fSel p.fSelTiles 1 ++ steps p.fSrc p.fCount 1, [], steps p.fDst n p.fStep)
    else (steps p.fSrc p.fCount 1, [], steps p.fDst p.fCount 1)
  | 0x28 | 0x29 => ([p.p 16 0 14], [], [])
  | _ => ([], [], [])

/-- A gauge of basin `b` is denied to a context: another's, or outside its allotment. -/
def State.gaugeDenied (s : State) (c b g : Nat) : Bool := s.gctx b g ≠ c || !s.gaugeAllotted c b g

/-! ### The checks common to all packets (R207) -/

/-- The site refuses packets in FALLOW and while detaching. -/
def State.closedSite (s : State) : Bool := s.site = stFallow || s.site = stDetaching

/-- R207 with R235 and R365; none where the packet passes. -/
def State.commonCheck (s : State) (src : Src) (fe : Fetched) : Option Status :=
  let p := fe.pkt
  let b := s.basinOf src
  let named := s.tilesNamed b p
  match fe.err with
  | some st => some st
  | none =>
    if !fe.seqOk then some .badParam
    else if (opFrom p.op).isEmpty then some .badOpcode
    else if !p.accepted src then some .accessDenied
    else
      let own := s.ctxOf src
      let deniedHere := match own with
        | none => false
        | some c =>
          (p.inc ≠ 0 && !p.gaugeElsewhere && s.gaugeDenied c b p.gauge)
            || (p.gaugeOperands.any fun g => !s.gaugeAllotted c b g)
            || ((named.1 ++ named.2.1).any fun d => !s.descAllotted c b d)
      firstOf [
        (match own with | some c => p.ctx ≠ c | none => false, .accessDenied),
        (match own with
          | some c => (s.ctx c).faulted && !(p.op = 0x40 || p.op = 0x4A || p.op = 0x44 || p.isRecovery)
          | none => false, .contextFaulted),
        (p.badHeader || p.badFlags src || (own.isNone && (p.ctx ≠ 0 || p.inc ≠ 0)), .badParam),
        (deniedHere, .accessDenied),
        (src ≠ .headgate && (!s.live b || s.closedSite), .notReady)]

/-! ### Descriptors (R39) -/

/-- R39 for descriptor `d` of basin `b` as a tile of context `c`, after R236. -/
def State.descCheck (s : State) (c b d : Nat) : Option Status :=
  let v := s.descOf b d
  let elem := elemBits (elemOf (dFormat v))
  let g0 := dExtentBase v
  let g1 := g0 + dExtentLen v
  firstOf [
    (s.descBad b d, .checkFail),
    (dExtentLen v = 0 || dExtentLen v > 32 || dRows v = 0 || dRows v > 256 || dCols v = 0 || dCols v > 4096
      || dRows v * dCols v * elem > 32768 || !dReservedClear v
      || !formatOk (dFormat v) (dNmPair v) (dCols v) || (dCtx v > 7 && dCtx v ≠ 15), .badParam),
    (dCtx v ≠ c, .accessDenied),
    (g1 > s.cfg.spaceGranules || !s.inLevee c b g0 g1, .badParam)]

/-- The first failing descriptor's outcome. -/
def State.descsCheck (s : State) (c b : Nat) : List Nat → Option Status
  | [] => none
  | d :: t => match s.descCheck c b d with | some st => some st | none => s.descsCheck c b t

/-! ### Ranges (R25) -/

/-- Outcome of a range check: whether it meets a decode error, which is counted. -/
structure Refusal1 where
  status : Status
  decode : Bool
  deriving DecidableEq, Repr

def refuse1 (o : Option Status) : Option Refusal1 := o.map fun st => ⟨st, false⟩

/-- DST_BASIN (R25). -/
def State.basinRange (s : State) (b : Nat) : Option Refusal1 :=
  if b ≥ s.cfg.basins then some ⟨.badParam, true⟩
  else if !s.live b then some ⟨.notReady, false⟩
  else none

/-- A stack range of a context's packet (R25, R26, R292). -/
def State.stackRange (s : State) (c a len : Nat) : Option Refusal1 :=
  match s.stackReach c a len with
  | .decode => some ⟨.badParam, true⟩
  | .denied => some ⟨.accessDenied, false⟩
  | .own => none

/-! ### Shapes -/

def State.fmtOf (s : State) (b d : Nat) : Nat := dFormat (s.descOf b d)
def State.elemAt (s : State) (b d : Nat) : Nat := elemOf (s.fmtOf b d)
def State.layAt (s : State) (b d : Nat) : Nat := layoutOf (s.fmtOf b d)
def State.rowsAt (s : State) (b d : Nat) : Nat := dRows (s.descOf b d)
def State.colsAt (s : State) (b d : Nat) : Nat := dCols (s.descOf b d)
def State.sameShape (s : State) (b1 d1 b2 d2 : Nat) : Bool :=
  s.rowsAt b1 d1 = s.rowsAt b2 d2 && s.colsAt b1 d1 = s.colsAt b2 d2

/-- All of a list agree on a value. -/
def allSame {α : Type} [DecidableEq α] : List α → Bool
  | [] => true
  | x :: xs => xs.all fun y => y = x

/-- Layouts an engine's output gate writes (R72). -/
def engineLayout (l : Nat) : Bool := l = 0 || l = 2 || l = 4

/-- Sum of PAYLOAD_LEN over tiles. -/
def State.payloads (s : State) (b : Nat) (ds : List Nat) : Nat :=
  (ds.map fun d => dPayloadLen (s.descOf b d)).foldl (· + ·) 0

/-- The bytes a VXE or screen packet moves: each tile it reads counts once (R120). -/
def State.movedOnce (s : State) (b : Nat) (ds : List Nat) : Nat := s.payloads b ds.eraseDups

/-- A selector column lies beyond its tile (R120, order 1). A selector whose descriptor the packet's context may not use
is left to order 2 (DEDUCED, log entry 71). -/
def State.columnBeyond (s : State) (c b : Nat) (sels cols : List Nat) : Bool :=
  sels.any fun d => (s.descCheck c b d).isNone && cols.any fun k => decide (k ≥ dCols (s.descOf b d))

def mib4 : Nat := 4194304

/-- R114, orders 1 to 7. A matrix packet is never refused with `SIZE`, which that table does not list, whatever bytes its tiles hold
(R42; DESIGN CHOICE, log entry 80). -/
def State.matrixCheck (s : State) (c b : Nat) (p : Packet) : Option Status :=
  let as := steps p.mA p.mK p.mAStep
  let bs := p.laneList.flatMap fun l => steps (p.mB + l * p.mBLane) p.mK p.mBStep
  let outs := p.mOutputs
  let escs := p.mEscs
  let m := s.rowsAt b p.mA
  let n := match bs with | d :: _ => s.rowsAt b d | [] => 0
  let shape := fun (ds : Nat → List Nat) => p.laneList.all fun l =>
    ((ds l).all fun d => engineLayout (s.layAt b d) && s.colsAt b d = n)
      && ((ds l).map (s.rowsAt b)).foldl (· + ·) 0 = m
  let lanesO := fun (l : Nat) => (List.range p.mOTiles).map (p.oDesc l)
  let lanesE := fun (l : Nat) => (List.range p.mOTiles).map (p.eDesc l)
  let k := p.mK
  let in1 := fun (x lo hi : Nat) => decide (lo ≤ x ∧ x ≤ hi)
  if !p.reservedClear matmulFields || p.mLanes = 0 || p.mFurrow ≥ s.cfg.furrows || !in1 k 1 1024 || !in1 p.mAStep 1 255
      || !in1 p.mBStep 1 255 || p.mBLane > 16319 || !in1 p.mOLane 1 255 || !in1 p.mOTiles 1 4
      || (as ++ bs ++ outs ++ escs).any fun d => decide (d > 16319) then some .badParam
  else match s.descsCheck c b (as ++ bs ++ outs ++ escs) with
  | some st => some st
  | none => firstOf [
      (((as ++ bs).any fun d => s.rowsAt b d > 64)
        || !allSame (as.map fun d => (s.rowsAt b d, s.elemAt b d))
        || !allSame (bs.map fun d => (s.rowsAt b d, s.elemAt b d))
        || !(p.laneList.all fun l => (List.range k).all fun i =>
              s.colsAt b (p.aDesc i) = s.colsAt b (p.bDesc l i)), .badParam),
      ((accClass (s.elemAt b p.mA) (match bs with | d :: _ => s.elemAt b d | [] => 0)).isNone, .badParam),
      (!shape lanesO || outs.any fun d => (as ++ bs).contains d, .badParam),
      (outs.any fun d => dBound (s.descOf b d), .accessDenied),
      (p.mEscEn && (!shape lanesE || escs.any fun d => elemBits (s.elemAt b d) ≠ 8), .badParam)]

/-- R128, R129 and R120 for a `VECTOR` packet. -/
def State.vectorCheck (s : State) (c b : Nat) (p : Packet) : Option Status :=
  let op := p.vOp
  let n := p.vTiles
  let xs := steps p.vX n 1
  let ys := p.vYs
  let outs := p.vOuts
  let idx := List.range n
  let yOk := idx.all fun i =>
    let x := p.vX + i
    match p.vBcast with
    | 1 => s.rowsAt b p.vY = s.rowsAt b x && s.colsAt b p.vY = 1
    | 2 => s.rowsAt b (p.vY + i) = 1 && s.colsAt b (p.vY + i) = s.colsAt b x
    | _ => s.sameShape b (p.vY + i) b x
  let present := if vNeedsY op then vHasY p else if op = 0x19 then (!vHasY p || p.vBcast = 2) else !vHasY p
  let shapes :=
    if op = 0x13 then idx.all fun i =>
      s.rowsAt b (p.vO + i) = 1 && s.colsAt b (p.vO + i) = s.colsAt b (p.vX + i) && s.elemAt b (p.vO + i) = 12
    else if vIsRow op && !vTwoPass op then
      s.rowsAt b p.vO = s.rowsAt b p.vX && s.colsAt b p.vO = 1 && s.elemAt b p.vO = 12
    else idx.all fun i => s.sameShape b (p.vO + i) b (p.vX + i)
  let chain := !vIsRow op || (allSame (xs.map (s.rowsAt b)) && (xs.map (s.colsAt b)).foldl (· + ·) 0 ≤ 4096)
  if !p.reservedClear vectorFields || !vDefined op || p.vBcast = 3 || n = 0 || n > 1024
      || (xs ++ ys ++ outs).any fun d => decide (d > 16319) then some .badParam
  else match s.descsCheck c b (xs ++ ys ++ outs) with
  | some st => some st
  | none => firstOf [
      (!present || (vHasY p && !yOk) || !shapes || !chain || outs.any fun d => !engineLayout (s.layAt b d), .badParam),
      (outs.any fun d => (xs ++ ys).contains d, .badParam),
      (outs.any fun d => dBound (s.descOf b d), .accessDenied),
      (s.movedOnce b (xs ++ ys) > mib4, .size)]

/-- R130, R131 and R120 for a `TOPK` packet. -/
def State.topkCheck (s : State) (c b : Nat) (p : Packet) : Option Status :=
  let n := p.tTiles
  let xs := steps p.tX n 1
  let outs := steps p.tO n 1
  if !p.reservedClear topkFields || n = 0 || n > 16 || p.tK = 0 || p.tK > 8 || p.tRows = 0
      || ((xs ++ outs).any fun d => decide (d > 16319)) || p.tRows > s.rowsAt b p.tX then some .badParam
  else match s.descsCheck c b (xs ++ outs) with
  | some st => some st
  | none => firstOf [
      (!allSame (xs.map (s.rowsAt b))
        || (xs.map (s.colsAt b)).foldl (· + ·) 0 > 4096
        || !((List.range n).all fun i =>
              s.sameShape b (p.tO + i) b (p.tX + i) && decide (10 ≤ s.elemAt b (p.tO + i) ∧ s.elemAt b (p.tO + i) ≤ 12)
                && (s.layAt b (p.tO + i) = 0 || s.layAt b (p.tO + i) = 2)), .badParam),
      (outs.any xs.contains, .badParam),
      (outs.any fun d => dBound (s.descOf b d), .accessDenied),
      (s.movedOnce b xs > mib4, .size)]

/-- Shape rules of the screen opcodes (R135–R138). -/
def State.screenShapes (s : State) (b : Nat) (p : Packet) : Bool :=
  let each := fun (f : Nat → Nat → Bool) => (List.range p.sCount).all fun i => f (p.sSrc + i) (p.sDst + i)
  match p.op with
  | 0x20 => each fun x o => s.sameShape b x b o && s.elemAt b x = s.elemAt b o
      && decide (1 ≤ s.layAt b o ∧ s.layAt b o ≤ 3)
  | 0x21 => each fun x o => s.sameShape b x b o && s.elemAt b x = s.elemAt b o && s.layAt b o = 0
  | 0x24 => each fun x o => s.sameShape b x b o
  | 0x23 => !p.sHist || (s.fmtOf b p.sDst = 0x0C && s.rowsAt b p.sDst = 1 && s.colsAt b p.sDst = 32)
  | _ =>
    let panelOk := (List.range p.sPanels).all fun q =>
      allSame ((p.gPanel q).map fun d => (s.colsAt b d, s.elemAt b d))
    if p.sMode = 0 then
      panelOk
        && allSame (p.gOuts.map (s.rowsAt b))
        && (List.range p.sPanels).all fun q => (List.range p.sSelCols).all fun k => (List.range p.sOutTiles).all fun t =>
            let o := p.gOut q k t
            let x := p.sSrc + q * p.sPStep
            s.layAt b o = 0 && s.elemAt b o = s.elemAt b x && s.colsAt b o = s.colsAt b x
    else
      panelOk && (s.layAt b p.sSel = 2 || s.layAt b p.sSel = 3)
        && allSame (p.gOuts.map (s.colsAt b))
        && s.layAt b p.sDst = 0 && s.elemAt b p.sDst = s.elemAt b p.sSel && s.rowsAt b p.sDst = s.rowsAt b p.sSel
        && (List.range p.sPanels).all fun q =>
            let o := p.sDst + 1 + q
            let x := p.sSrc + q * p.sPStep
            s.layAt b o = 0 && s.elemAt b o = s.elemAt b x && s.rowsAt b o = s.colsAt b x

/-- R139 and R120 for a screen packet. -/
def State.screenCheck (s : State) (c b : Nat) (p : Packet) : Option Status :=
  let (ins, outs, _) := s.tilesNamed b p
  let gather := p.op = 0x22
  let in1 := fun (x lo hi : Nat) => decide (lo ≤ x ∧ x ≤ hi)
  let ranges :=
    if gather then
      p.sMode ≤ 1 && in1 p.sSelTiles 1 255 && in1 p.sBlocks 1 255 && in1 p.sPanels 1 64 && in1 p.sStep 1 255
        && p.sPStep ≤ 16319
        && (if p.sMode = 0 then p.sDstPStep ≤ 16319 && p.sDstCStep ≤ 16319 && in1 p.sOutTiles 1 4 && in1 p.sSelCols 1 4
            else p.sSelTiles = 1)
    else in1 p.sCount 1 1024
  let column := gather && p.sMode = 0
    && s.columnBeyond c b (steps p.sSel p.sSelTiles 1) ((List.range p.sSelCols).map p.sSelCol)
  if !p.reservedClear (screenFields p) || !ranges || column || (ins ++ outs).any fun d => decide (d > 16319) then
    some .badParam
  else match s.descsCheck c b (ins ++ outs) with
  | some st => some st
  | none => firstOf [
      (!s.screenShapes b p, .badParam),
      (outs.any ins.contains, .badParam),
      (outs.any fun d => dBound (s.descOf b d), .accessDenied),
      (s.movedOnce b ins > mib4, .size)]

/-- The device set of a bound tile's weight region does not name a site (R147). -/
def State.outsideSet (s : State) (c b d site : Nat) : Bool :=
  let v := s.descOf b d
  dBound v &&
    match (s.ctx c).placed.find? fun (r : Placed) => r.basin = b ∧ r.slot.isSome ∧ r.base ≤ dExtentBase v
        ∧ dExtentBase v < r.base + r.len with
    | some r => match (s.ctx c).keySlots[r.slot.getD 0]? with
      | some (.set _ ms) => !ms.contains site
      | _ => true
    | none => true

/-- Shape rules of the flume opcodes (R146, R148–R150). A reduce's target must belong to the activation class (R149); one in
a weight region that is not `BOUND` is refused here, by order 3 (DESIGN CHOICE, log entry 71). -/
def State.flumeShapes (s : State) (b : Nat) (p : Packet) : Bool :=
  let dB := p.fDstBasin
  let redTy := fun (x : Nat) => decide (10 ≤ x ∧ x ≤ 12)
  let dense := fun (b d : Nat) => s.layAt b d = 0 && redTy (s.elemAt b d)
  let active := fun (d : Nat) => dBound (s.descOf dB d) || !s.weightClass dB (s.descOf dB d)
  match p.op with
  | 0x10 => (List.range p.fCount).all fun i =>
      s.sameShape b (p.fSrc + i) dB (p.fDst + i) && s.fmtOf b (p.fSrc + i) = s.fmtOf dB (p.fDst + i)
        && dNmPair (s.descOf b (p.fSrc + i)) = dNmPair (s.descOf dB (p.fDst + i))
  | 0x14 => (List.range p.fCount).all fun i =>
      s.layAt b (p.fDst + i) = 0 || s.layAt b (p.fDst + i) = 4 || fld p.fFill 0 31 = 0
  | 0x1D =>
    if p.fSelEn then
      let srcs := steps p.fSrc p.fCount 1
      let ts := (s.tilesNamed b p).2.2
      (srcs.all fun d => dense b d && s.elemAt b d = s.elemAt dB p.fDst && s.colsAt b d = s.colsAt dB p.fDst)
        && (ts.all fun d => dense dB d && s.elemAt dB d = s.elemAt dB p.fDst && s.sameShape dB d dB p.fDst && active d)
    else (List.range p.fCount).all fun i =>
      dense b (p.fSrc + i) && dense dB (p.fDst + i) && s.elemAt b (p.fSrc + i) = s.elemAt dB (p.fDst + i)
        && s.sameShape b (p.fSrc + i) dB (p.fDst + i) && active (p.fDst + i)
  | _ => true

/-- R145 and R120 for a flume packet. -/
def State.flumeCheck (s : State) (c b : Nat) (p : Packet) : Option Refusal1 :=
  let (ins, outs, there) := s.tilesNamed b p
  let dB := p.fDstBasin
  let stack := p.op = 0x11 || p.op = 0x12
  let away := p.op = 0x10 || p.op = 0x1D
  let sent := if p.op = 0x13 then steps p.fDst p.fCount 1 else []
  let in1 := fun (x lo hi : Nat) => decide (lo ≤ x ∧ x ≤ hi)
  if !p.reservedClear (flumeFields p) || !in1 p.fCount 1 1024
      || (stack && (!in1 p.fStride 1 32 || p.fStack % 256 ≠ 0))
      || (p.op = 0x1D && p.fSelEn && (!in1 p.fSelTiles 1 255 || !in1 p.fStep 1 255
        || s.columnBeyond c b (steps p.fSel p.fSelTiles 1) [p.fSelCol]))
      || (ins ++ outs ++ there ++ sent).any fun d => decide (d > 16319) then some ⟨.badParam, false⟩
  else
    let range := if away then s.basinRange dB
      else if stack then s.stackRange c p.fStack (p.fCount * p.fStride * 256)
      else none
    match range with
    | some r => some r
    | none =>
      if away && ((p.inc ≠ 0 && s.gaugeDenied c dB p.gauge) || there.any fun d => !s.descAllotted c dB d) then
        some ⟨.accessDenied, false⟩
      else match s.descsCheck c b (ins ++ outs), s.descsCheck c dB there with
      | some st, _ => some ⟨st, false⟩
      | none, some st => some ⟨st, false⟩
      | none, none =>
        let bytes := if p.op = 0x11 then p.fCount * p.fStride * 256
          else if p.op = 0x14 then 0
          else s.payloads b (steps p.fSrc p.fCount 1) + (if p.op = 0x12 ∨ p.op = 0x13 then 64 * p.fCount else 0)
        refuse1 (firstOf [
          (!s.flumeShapes b p, .badParam),
          (away && b = dB && there.any ins.contains, .badParam),
          ((outs.any fun d => dBound (s.descOf b d)) || there.any fun d => dBound (s.descOf dB d), .accessDenied),
          (bytes > mib4, .size),
          (p.op = 0x13 && ((ins.any fun d => s.outsideSet c b d p.fSite)
            || (match s.jobKey c p.fKey with | some (_, _, n) => n ≥ 2 ^ 64 - 1 | none => true)), .accessDenied)])

/-- The lowest free list slot of a basin. -/
def State.freeListSlot (s : State) (b : Nat) : Option Nat := (List.range 64).find? fun k => (s.list? b k).isNone

def State.runListCheck (s : State) (src : Src) (c : Nat) (p : Packet) : Option Refusal1 :=
  let b := p.rlBasin
  let call := !p.rlSpawn
  let deep := match src with | .list lb k => ((s.list? lb k).map (·.calls.length)).getD 0 ≥ 8 | _ => false
  let calls := match src with | .list lb _ => lb ≠ b | _ => true
  if !p.reservedClear runListFields || p.rlOffset % 64 ≠ 0 || (call && p.inc ≠ 0) || (call && (calls || deep)) then
    some ⟨.badParam, false⟩
  else if b ≥ s.cfg.basins then some ⟨.badParam, true⟩
  else refuse1 (firstOf [
      (p.rlOffset + 64 > s.cfg.basinBytes, .badParam),
      (p.rlOffset ≥ s.cfg.reserve || !s.bytesInLevee c b p.rlOffset 64, .accessDenied),
      (!s.live b, .notReady),
      (p.rlSpawn && (s.freeListSlot b).isNone, .busy)])

/-- R216–R218: gauge opcodes, `NOP`, `FENCE`, `RETURN` and the lock opcodes. -/
def gaugeFields : List (Nat × Nat × Nat) := [(16, 0, 12), (20, 0, 32)]
def lockFields : List (Nat × Nat × Nat) := [(16, 0, 14)]

def State.simpleCheck (s : State) (c b : Nat) (p : Packet) : Option Status :=
  match p.op with
  | 0x03 | 0x04 | 0x05 => firstOf [
      (!p.reservedClear gaugeFields, .badParam),
      (s.gctx b (p.p 16 0 12) ≠ c, .accessDenied)]
  | 0x28 | 0x29 =>
    if !p.reservedClear lockFields || p.p 16 0 14 > 16319 then some .badParam else s.descCheck c b (p.p 16 0 14)
  | 0x09 => firstOf [(!p.reservedClear [] || p.inc ≠ 0, .badParam)]
  | _ => firstOf [(!p.reservedClear [], .badParam)]

/-- The checks of a stream packet's opcode. -/
def State.streamCheck (s : State) (src : Src) (p : Packet) : Option Refusal1 :=
  let b := s.basinOf src
  let c := (s.ctxOf src).getD 0
  match p.op with
  | 0x18 | 0x19 => refuse1 (s.matrixCheck c b p)
  | 0x1C => refuse1 (s.vectorCheck c b p)
  | 0x1E => refuse1 (s.topkCheck c b p)
  | 0x20 | 0x21 | 0x22 | 0x23 | 0x24 => refuse1 (s.screenCheck c b p)
  | 0x10 | 0x11 | 0x12 | 0x13 | 0x14 | 0x1D => s.flumeCheck c b p
  | 0x08 => s.runListCheck src c p
  | _ => refuse1 (s.simpleCheck c b p)

end Sys2Proof.Machine
end

