-- ==== Sys2Proof/Machine/Ditch.lean ====
section
/-! DEFINITION. The ditch riders: fetching, readiness, dispatch in list order, the opcodes they execute themselves, and
the start of every packet an engine runs (R92, R109, R121, R199–R218, R235, R274, R275). -/

namespace Sys2Proof

open Machine

/-- A packet's 64 bytes as fields (R203). -/
def Packet.ofBytes (bs : List Byte) : Packet :=
  let b := fun i => bs.getD i 0
  let w := fun i n => leNat ((bs.drop i).take n)
  { opcode := b 0, flags := b 1, rightCtx := b 2, rsv3 := b 3, seq := BitVec.ofNat 32 (w 4 4)
    gaugeW := BitVec.ofNat 16 (w 8 2), inc := BitVec.ofNat 16 (w 10 2), tag := BitVec.ofNat 32 (w 12 4)
    params := BitVec.ofNat 384 (w 16 48) }

/-- A packet of all zero bytes. -/
def Packet.zero : Packet := ⟨0, 0, 0, 0, 0, 0, 0, 0, 0⟩

end Sys2Proof

namespace Sys2Proof.Machine

/-! ### Gauges (R52–R54, R216) -/

/-- A gauge update: waits it releases complete with the count (R216). -/
def State.gaugeSet (s : State) (b g : Nat) (v : BitVec 32) : State :=
  let s := s.putCount b g v
  let free := s.waits.filter fun w => w.basin = b ∧ w.gauge = g ∧ reached v w.target
  let s := { s with waits := s.waits.filter fun w => !(w.basin = b ∧ w.gauge = g ∧ reached v w.target) }
  free.foldl (fun (s : State) (w : Wait) =>
    s.finish w.src w.spawn w.off w.pkt b w.startCycle (Outcome.words v.toNat 0 0 0) true) s

/-- Increments that landed on a gauge in the present cycle (R53). -/
def State.landedOn (s : State) (b g : Nat) : Nat := nget s.landed 0 (gkey b g)

/-- SET_GAUGE: COUNT takes the value before the increments that land in the cycle. -/
def State.setGaugeTo (s : State) (b g : Nat) (v : BitVec 32) : State :=
  s.gaugeSet b g (v + BitVec.ofNat 32 (s.landedOn b g))

/-- The increments due on a gauge land (R53), its line read first (R236). TURNOUT of a finding is the ditch rider's, which the
spec leaves open for an increment (DESIGN CHOICE, log entry 79). -/
def State.landIncs (s : State) (b g : Nat) : State :=
  let n := ((s.dueIncs.filter fun d => d.basin = b ∧ d.gauge = g).map (·.inc)).foldl (· + ·) 0
  if n = 0 then s
  else
    let s := { s.noteLine b (g / 8) ditchTurnout with
      dueIncs := s.dueIncs.filter fun d => !(d.basin = b ∧ d.gauge = g)
      landed := nset s.landed 0 (gkey b g) (s.landedOn b g + n) }
    s.gaugeSet b g (s.count b g + BitVec.ofNat 32 n)

/-! ### Fetching (R200–R202, R209, R211, R235) -/

/-- Packets fetched and posted. -/
def State.ringHead (s : State) (r : Nat) : Nat := s.rfld (.ringHead r) 0 32
def State.ringTail (s : State) (r : Nat) : Nat := s.rfld (.ringDb r) 0 32

/-- Ring `r` is fetched: outside `FALLOW` (R345) and a scrub (R370), it exists, is not being destroyed, its context is active, a
packet of it can have a reply slot, and its fetch buffer has room (R198, R202, R209). -/
def State.ringFetchable (s : State) (r : Nat) : Bool :=
  decide (r < 9) && decide (s.site ≠ stFallow ∧ s.site ≠ stScrub) && (s.ringState r = 1 || s.ringState r = 3) && (r = 8 || s.active = some r)
    && s.rplFree r && decide ((s.ring r).buf.length < 4)

/-- A packet enters a ring's fetch buffer, its reply slot reserved, HEAD advanced (R201). -/
def State.ringTake (s : State) (r : Nat) (p : Packet) (bad : Bool) : State :=
  let h := s.ringHead r
  let want : BitVec 32 := BitVec.ofNat 32 (h + 1)
  let ok := p.seq = want
  let q := s.ring r
  let fe : Fetched := ⟨if bad then { p with seq := want } else p, 0, ok || bad, want, if bad then some .checkFail else none⟩
  let s := s.putRing r { q with buf := q.buf ++ [fe], reserved := q.reserved + 1 }
  let s := s.putFld (.ringHead r) 0 32 (h + 1)
  let s := if ok || bad then s else s.bump (.ringSt r) 32 16
  -- a packet the host puts in the next slot is posted with it
  if h = s.ringTail r then s.putFld (.ringDb r) 0 32 (h + 1) else s

/-- RING_FETCH: the packet at HEAD's slot (R199). -/
def State.fetchRing (s : State) (r : Nat) : State :=
  if s.ringFetchable r ∧ s.ringHead r ≠ s.ringTail r then
    let b := s.rfld (.ringCmd r) 48 8
    let n := 2 ^ s.rfld (.ringCmd r) 40 4
    let off := s.rfld (.ringCmd r) 0 18 * 256 + s.ringHead r % n * 64
    let (s, bs, bad) := s.readRange b off 64 ⟨2, ditchTurnout⟩
    s.ringTake r (Packet.ofBytes bs) bad
  else s

/-- A control packet that a list has fetched and not dispatched yet: nothing is fetched past it (R12). -/
def ListRun.controlAhead (l : ListRun) : Bool := l.buf.any fun fe => fe.err.isNone && decide (0x40 ≤ fe.pkt.op ∧ fe.pkt.op < 0x80)

/-- A list is fetched: running, no control packet of it unanswered (R12), its context active and not faulted, room in its buffer
(R196, R209), no scrub running (R370). -/
def State.listFetchable (s : State) (l : ListRun) : Bool :=
  l.ending.isNone && !l.held && !l.controlAhead && decide (s.site ≠ stScrub) && s.active = some l.ctx && !(s.ctx l.ctx).faulted && decide (l.buf.length < 4)

/-- What the fetch at a list's offset meets (R211). -/
def State.listPlace (s : State) (l : ListRun) : Option Status :=
  if l.pc + 64 > s.cfg.basinBytes then some .badParam
  else if l.pc ≥ s.cfg.reserve ∨ !s.bytesInLevee l.ctx l.basin l.pc 64 then some .accessDenied
  else none

def State.listTake (s : State) (l : ListRun) (p : Packet) (err : Option Status) : State :=
  s.putList { l with buf := l.buf ++ [⟨p, l.pc, true, 0, err⟩], pc := l.pc + 64 }

/-- LIST_FETCH (R211): a fetch that fails ends the list when its turn comes, and fetching stops at it. -/
def State.fetchList (s : State) (b k : Nat) : State :=
  match s.list? b k with
  | none => s
  | some l =>
    if !s.listFetchable l ∨ l.buf.any (·.err.isSome) then s
    else match s.listPlace l with
      | some st => s.listTake l Packet.zero (some st)
      | none =>
        let (s, bs, bad) := s.readRange b l.pc 64 ⟨2, ditchTurnout⟩
        match s.list? b k with
        | some l => s.listTake l (Packet.ofBytes bs) (if bad then some .checkFail else none)
        | none => s

/-! ### Readiness (R202, R209, R323) -/

/-- The site lets ditch riders dispatch: no sleep or entry past its first step, no scrub, no `FALLOW` (R345). -/
def State.dispatching (s : State) : Bool :=
  s.start.released && (s.site = stFlow || s.site = stDetaching || s.site = stAttaching)

/-- Replies of a ring wait for a slot and none is free: its context's lists dispatch nothing (R202). -/
def State.repliesStall (s : State) (r : Nat) : Bool :=
  !(s.ring r).unreserved.isEmpty && decide (s.rplUsed r + s.rplReserved r ≥ s.rplEntries r)

/-- Head of a source's fetch buffer, when the source can dispatch it. -/
def State.head? (s : State) (src : Src) : Option Fetched :=
  let free := s.dispatching && decide (s.inFlight src < 16 ∧ s.inFlightBasin (s.basinOf src) < 256)
    && !(s.waits.any fun w => w.src = src)
  match src with
  | .ring r =>
    if free && !(s.ring r).held && (r = 8 || s.active = some r) then (s.ring r).buf.head? else none
  | .list b k =>
    match s.list? b k with
    | some l =>
      if free && !l.held && l.ending.isNone && s.active = some l.ctx && !(s.ctx l.ctx).faulted
          && !s.repliesStall l.ctx then l.buf.head? else none
    | none => none
  | .headgate => none

/-- The head leaves its buffer. -/
def State.popHead (s : State) (src : Src) : State :=
  match src with
  | .ring r => s.putRing r { s.ring r with buf := (s.ring r).buf.drop 1 }
  | .list b k => match s.list? b k with | some l => s.putList { l with buf := l.buf.drop 1 } | none => s
  | .headgate => s

/-- A source held by a control packet (R219). -/
def State.holdSrc (s : State) (src : Src) (h : Bool) : State :=
  match src with
  | .ring r => s.putRing r { s.ring r with held := h }
  | .list b k => match s.list? b k with | some l => s.putList { l with held := h } | none => s
  | .headgate => s

/-! ### Engines' units (R92, R121, R274, R275) -/

/-- Units of a kind in a basin. -/
def unitsOf (kind : UnitKind) : Nat := match kind with | .vxe => 16 | _ => 4

def State.idleUnit (s : State) (kind : UnitKind) (b : Nat) : Option Nat :=
  (List.range (unitsOf kind)).find? fun u => s.unitState ⟨kind, b, u⟩ = 0

/-- The unit a packet runs on: the named one when idle; another idle one with ANY, or when the named one is retired or
under test; none while it must wait (R121). -/
def State.pickUnit (s : State) (kind : UnitKind) (b u : Nat) (any : Bool) : Option Nat :=
  if any then s.idleUnit kind b
  else match s.unitState ⟨kind, b, u⟩ with
    | 0 => some u
    | 4 | 5 => s.idleUnit kind b
    | _ => none

/-- The MXE that serves a slot and is not under test or retired. -/
def State.served (s : State) (b furrow slot : Nat) : Option Nat :=
  match s.mxeAt b furrow slot with
  | some u => if s.unitState ⟨.mxe, b, u⟩ = 4 ∨ s.unitState ⟨.mxe, b, u⟩ = 5 then none else some u
  | none => none

/-- Slots a furrow serves. -/
def State.servedSlots (s : State) (b furrow : Nat) : List Nat :=
  (List.range 8).filter fun k => (s.served b furrow k).isSome

/-- The furrow a packet runs on (R275). -/
def State.runFurrow (s : State) (b furrow : Nat) : Option Nat :=
  if !(s.servedSlots b furrow).isEmpty then some furrow
  else
    let all := List.range s.cfg.furrows
    match all.find? fun f => (s.servedSlots b f).length = 8 with
    | some f => some f
    | none => all.find? fun f => !(s.servedSlots b f).isEmpty

/-- The slot that computes lane `l`: itself, or its fold partner, the next served slot above, wrapping (R274). -/
def State.partner (s : State) (b furrow l : Nat) : Option Nat :=
  ((List.range 8).map fun i => (l + i) % 8).find? fun k => (s.served b furrow k).isSome

/-! ### Precision drop (R109) -/

/-- Width of a type presented after a drop. -/
def presentedBits (ty floor : Nat) : Nat := elemBits (dropType ty floor)

/-- The floor applied to an operand chain whose first tile is `d`, and its stream entry: none where nothing drops. -/
def State.dropFor (s : State) (b d : Nat) (noDrop : Bool) : Option (Nat × Nat) :=
  if noDrop ∨ !bit (s.reg .pwrPerf) 23 then none
  else
    let v := s.descOf b d
    let ty := elemOf (dFormat v)
    match s.entryOf b v with
    | none => none
    | some e =>
      let cfg := s.reg (.trnStreamCfg b e)
      let floor := match fld cfg 56 4 with | 4 => 4 | 2 => 2 | _ => 0
      if bit cfg 62 ∧ floor ≠ 0 ∧ floor < elemBits ty ∧ layoutOf (dFormat v) ≠ 4 ∧ dropType ty floor ≠ ty then
        some (floor, e)
      else none

/-! ### Plans -/

def readsOf (b role : Nat) (ds : List Nat) (lane : Nat := 0) : List PStep :=
  ds.zipIdx.map fun x => .read b x.1 role x.2 lane
def writesOf (b role : Nat) (ds : List Nat) : List PStep := ds.zipIdx.map fun x => .write b x.1 role x.2 0

/-- The plan of a matrix packet (R85, R114, R117): the blocks its slots' own MXEs compute, sharing the A chain, then, in
ascending slot order, each block folded onto a partner, its A chain read again (R274). The spec gives the lanes' own B reads and
output writes no order among them: they go one lane after another in slot order (DESIGN CHOICE, log entry 80). -/
def matrixPlan (b : Nat) (p : Packet) (folded : List Nat) : List PStep :=
  let lanes := p.laneList.filter fun l => !folded.contains l
  let pairs := (List.range p.mK).flatMap fun i =>
    PStep.read b (p.aDesc i) roleA i sharedLane
      :: lanes.map fun l => PStep.read b (p.bDesc l i) roleB (laneIdx l i) l
  let outs := fun (l : Nat) => (List.range p.mOTiles).map fun t => PStep.write b (p.oDesc l t) roleO t l
  (if lanes.isEmpty then [] else lanes.flatMap (accReads b p) ++ pairs ++ lanes.flatMap outs)
    ++ (p.laneList.filter folded.contains).flatMap fun l => laneReads b p l ++ outs l

/-- The plan of a `VECTOR` packet (R125, R127, R128). -/
def vectorPlan (b : Nat) (p : Packet) : List PStep :=
  let n := List.range p.vTiles
  let y1 := if vHasY p ∧ p.vBcast = 1 then [PStep.read b p.vY roleY 0 0] else []
  let each := fun (i : Nat) =>
    PStep.read b (p.vX + i) roleX i 0
      :: ((if vHasY p ∧ p.vBcast ≠ 1 then [PStep.read b (p.vY + i) roleY i 0] else [])
        ++ [PStep.write b (p.vO + i) 0 i 0])
  if vIsRow p.vOp ∧ !vTwoPass p.vOp then readsOf b roleX (steps p.vX p.vTiles 1) ++ [.write b p.vO 0 0 0]
  else (if vTwoPass p.vOp then readsOf b roleX1 (steps p.vX p.vTiles 1) else []) ++ y1 ++ n.flatMap each

/-- The plan of a `GATHER_ROWS` (R136, R137). -/
def gatherPlan (b : Nat) (p : Packet) : List PStep :=
  let sel := readsOf b roleSel (steps p.sSel p.sSelTiles 1)
  let panel := fun (q : Nat) => readsOf b roleSrc (p.gPanel q)
  if p.sMode = 0 then
    sel ++ [.plan] ++ (List.range p.sPanels).flatMap fun q =>
      panel q ++ (List.range p.sSelCols).flatMap fun c =>
        (List.range p.sOutTiles).map fun t => PStep.write b (p.gOut q c t) 0 ((q * 4 + c) * 4 + t) 0
  else
    sel ++ [.plan, .write b p.sDst 0 0 0] ++ (List.range p.sPanels).flatMap fun q =>
      panel q ++ [PStep.write b (p.sDst + 1 + q) 0 (1 + q) 0]

/-- The plan of a packet an engine runs. -/
def planOf (b : Nat) (p : Packet) (folded : List Nat := []) : List PStep :=
  let n := List.range p.fCount
  let m := List.range p.sCount
  match p.op with
  | 0x18 | 0x19 => matrixPlan b p folded
  | 0x1C => vectorPlan b p
  | 0x1E => readsOf b roleX (steps p.tX p.tTiles 1) ++ writesOf b 0 (steps p.tO p.tTiles 1)
  | 0x20 | 0x21 | 0x24 => m.flatMap fun i => [.read b (p.sSrc + i) roleSrc i 0, .write b (p.sDst + i) 0 i 0]
  | 0x22 => gatherPlan b p
  | 0x23 =>
    (m.flatMap fun i => [PStep.read b (p.sSrc + i) roleSrc i 0, .zmap b (p.sSrc + i) i])
      ++ if p.sHist then [.write b p.sDst 0 p.sCount 0] else []
  | 0x10 => n.flatMap fun i => [.read b (p.fSrc + i) roleSrc i 0, .write p.fDstBasin (p.fDst + i) 0 i 0]
  | 0x11 => n.flatMap fun i => [.record i, .write b (p.fDst + i) 0 i 0]
  | 0x12 => n.flatMap fun i => [.read b (p.fSrc + i) roleSrc i 0, .stack i]
  | 0x13 => n.flatMap fun i => [.read b (p.fSrc + i) roleSrc i 0, .send i]
  | 0x14 => n.map fun i => .write b (p.fDst + i) 0 i 0
  | 0x1D =>
    if p.fSelEn then
      readsOf b roleSel (steps p.fSel p.fSelTiles 1) ++ readsOf b roleSrc (steps p.fSrc p.fCount 1) ++ [.plan]
    else n.flatMap fun i => [.read b (p.fSrc + i) roleSrc i 0, .write p.fDstBasin (p.fDst + i) 0 i 0]
  | _ => []

/-- A flight of a packet that has just been dispatched. -/
def State.flightOf (s : State) (src : Src) (fe : Fetched) (p : Packet) (units : List UnitRef) (plan : List PStep)
    (alerts : Byte) (words : List Nat) : Flight :=
  { Flight.new s.nextFlight s.cycle src (s.callerOf src) p (s.basinOf src) ((s.ctxOf src).getD 0) p.right units plan with
    off := fe.off, alerts := alerts, words := words }

/-- Put a flight to work. -/
def State.launch (s : State) (f : Flight) : State :=
  let s := { s with flights := s.flights ++ [f], nextFlight := s.nextFlight + 1 }
  (s.go f.id).runReady

/-- Mark a unit busy with its last operation. -/
def State.occupy (s : State) (u : UnitRef) (last : Nat) : State :=
  let s := s.setUnit u 1
  match u.kind with
  | .vxe => s.putFld (.vxeSt u.basin u.unit) 0 8 last
  | .screen => s.putFld (.sxeSt u.basin u.unit) 0 8 last
  | .flume => s.putFld (.flmSt u.basin u.unit) 0 8 last
  | _ => s

/-- Start a VXE, screen or flume packet: none while its unit is busy. -/
def State.startUnit (s : State) (src : Src) (fe : Fetched) (kind : UnitKind) (u : Nat) (any : Bool) (last : Nat) :
    Option State :=
  let b := s.basinOf src
  -- a restore that is due has the first idle flume (R246)
  match if kind = .flume ∧ s.restores.any fun x => x.1 = b then none else s.pickUnit kind b u any with
  | none => none
  | some u =>
    let s := (s.popHead src).occupy ⟨kind, b, u⟩ last
    let p := fe.pkt
    let words := if p.op = 0x13 then
        match s.jobKey ((s.ctxOf src).getD 0) p.fKey with
        | some (j, e1, _) => [j.toNat, e1.toNat]
        | none => [0, 0]
      else []
    let f := s.flightOf src fe p [⟨kind, b, u⟩] (planOf b p) 0 words
    some (s.launch { f with keyGen := s.keyGenOf ((s.ctxOf src).getD 0) p.fKey })

/-- Start a matrix packet: none while a slot it selects is busy (R92, R109, R273–R275). -/
def State.startMatrix (s : State) (src : Src) (fe : Fetched) : Option State :=
  let b := s.basinOf src
  let p := fe.pkt
  match s.runFurrow b p.mFurrow with
  | none => none
  | some furrow =>
    let lanes := p.laneList.map fun l => (l, (s.partner b furrow l).getD l)
    let units := lanes.map fun x => (⟨.mxe, b, (s.mxeAt b furrow x.2).getD 0⟩ : UnitRef)
    if units.any fun u => s.unitState u ≠ 0 then none
    else
      let folded := furrow ≠ p.mFurrow || lanes.any fun x => x.1 ≠ x.2
      let spare := s.bit7Due.any fun x => x.1 = b ∧ x.2.1 = furrow ∧ lanes.any fun l => l.2 = x.2.2
      let dA := s.dropFor b p.mA p.mNoDrop
      let dB := p.laneList.filterMap fun l => (s.dropFor b (p.bDesc l 0) p.mNoDrop).map fun x => (l, x)
      let s := (s.popHead src)
      let s := units.foldl (fun (s : State) u => s.occupy u 0) s
      let s := { s with bit7Due := s.bit7Due.filter fun x =>
        !(x.1 = b ∧ x.2.1 = furrow ∧ lanes.any fun l => l.2 = x.2.2) }
      -- a packet counts once on a stream whatever chains of it drop
      let es := (dA.toList ++ dB.map (·.2)).map (·.2)
      let s := es.eraseDups.foldl (fun (s : State) e => s.bump (.trnStreamSt b e) 0 16) s
      let width := fun (d : Nat) (x : Option (Nat × Nat)) =>
        match x with | some (fl, _) => presentedBits (s.elemAt b d) fl | none => 0
      let al := alertIf (folded || dA.isSome || !dB.isEmpty) alDegraded ||| alertIf spare alSpare
      let p' := { p with params := setFld p.params ((32 - 16) * 8) 5 furrow }
      -- word 3 has one B width: that of the lowest lane whose chain drops (DESIGN CHOICE, log entry 70)
      let words := setNth (setNth [] 62 (width p.mA dA)) 63 (match dB with
        | (l, x) :: _ => width (p.bDesc l 0) (some x)
        | [] => 0)
      let away := (lanes.filter fun x => x.1 ≠ x.2).map (·.1)
      let f := s.flightOf src fe p' units (planOf b p' away) al words
      some (s.launch { f with
        dropA := match dA with | some (x, _) => x | none => 0
        dropB := dB.map fun x => (x.1, x.2.1) })

/-! ### Opcodes the ditch rider executes (R49, R212, R213, R216, R217) -/

/-- A packet completes at its dispatch. -/
def State.doneNow (s : State) (src : Src) (fe : Fetched) (o : Outcome) : State :=
  s.finish src (s.spawnOf src) fe.off fe.pkt (s.basinOf src) s.cycle o true

/-- WAIT_GAUGE (R54, R216). -/
def State.startWait (s : State) (src : Src) (fe : Fetched) : State :=
  let s := s.popHead src
  let p := fe.pkt
  let b := s.basinOf src
  let g := p.p 16 0 12
  let t : BitVec 32 := BitVec.ofNat 32 (p.p 20 0 32)
  if reached (s.count b g) t then s.doneNow src fe (Outcome.words (s.count b g).toNat 0 0 0)
  else { s with waits := s.waits ++ [⟨src, s.spawnOf src, b, (s.ctxOf src).getD 0, g, t, p, fe.off, s.cycle⟩] }

/-- SET_GAUGE and ADD_GAUGE. -/
def State.startGauge (s : State) (src : Src) (fe : Fetched) : State :=
  let s := s.popHead src
  let p := fe.pkt
  let b := s.basinOf src
  let g := p.p 16 0 12
  let v : BitVec 32 := BitVec.ofNat 32 (p.p 20 0 32)
  let s := if p.op = 0x04 then s.setGaugeTo b g v else s.gaugeSet b g (s.count b g + v)
  s.doneNow src fe Outcome.ok

/-- A list spawned in a slot (R211, R212, R226). -/
def State.spawnList (s : State) (src : Src) (fe : Fetched) (k : Nat) : State :=
  let p := fe.pkt
  let b := p.rlBasin
  let c := (s.ctxOf src).getD 0
  let l : ListRun :=
    { basin := b, slot := k, ctx := c, spawn := s.nextSpawn + 1, right := p.right, pc := p.rlOffset, calls := []
      spawner := src, spawnerSpawn := s.spawnOf src, spawnPkt := p, spawnOff := fe.off, spawnCycle := s.cycle, buf := []
      held := false, ending := none, failOff := 0xFFFFFFFF, completed := 0, passed := 0, alerts := 0 }
  { s with
    lists := s.lists ++ [l], nextSpawn := s.nextSpawn + 1
    slotStats := ⟨b, k, c, (s.ctx c).createNo, s.nextSpawn + 1, Stats.zero⟩
      :: s.slotStats.filter fun x => !(x.basin = b ∧ x.slot = k) }

/-- RUN_LIST, its checks passed (R212): a call completes at dispatch. -/
def State.startList (s : State) (src : Src) (fe : Fetched) : State :=
  let s := s.popHead src
  let p := fe.pkt
  if p.rlSpawn then
    match s.freeListSlot p.rlBasin with
    | some k => s.spawnList src fe k
    | none => s
  else match src with
    | .list b k =>
      match s.list? b k with
      | some l =>
        let s := s.putList { l with buf := [], calls := (fe.off + 64) :: l.calls, pc := p.rlOffset }
        s.doneNow src fe Outcome.ok
      | none => s
    | _ => s

/-- RETURN (R213). -/
def State.startReturn (s : State) (src : Src) (fe : Fetched) : State :=
  match src with
  | .list b k =>
    match s.list? b k with
    | some l =>
      match l.calls with
      | off :: rest =>
        let s := s.putList { l with buf := [], calls := rest, pc := off }
        s.doneNow src fe Outcome.ok
      | [] =>
        let s := s.putList { l with buf := [], ending := some .ok }
        s.doneNow src fe Outcome.ok
    | none => s
  | _ => s

/-- TILE_LOCK's decision (R49), its checks passed. -/
def State.lockTile (s : State) (c : Caller) (ctx b d : Nat) : State × Status :=
  let v := s.descOf b d
  if dBroken v then (s.putDesc b d (setBit v 121 false), .tileBroken)
  else if s.ownsLock b d c then
    ({ s with locks := s.locks.map fun (l : Lock) =>
        if l.basin = b ∧ l.desc = d then { l with deadline := s.leaseFrom + s.lease b } else l }, .ok)
  else if dOwner v ≠ 0 then (s, .busy)
  else if (s.locks.filter fun l => l.basin = b).length ≥ 256 then (s, .busy)
  else
    ({ s.putDesc b d (setFld v 104 16 c.owner.toNat) with
        locks := s.locks ++ [⟨b, d, c, ctx, s.leaseFrom + s.lease b⟩] }, .ok)

/-- TILE_UNLOCK's decision (R49). -/
def State.unlockTile (s : State) (c : Caller) (b d : Nat) : State × Status :=
  let v := s.descOf b d
  if s.ownsLock b d c then (((s.unlock b d).wake b d).afterBreak b d, .ok)
  else if dBroken v then (s, .tileBroken)
  else (s, .accessDenied)

def State.startLock (s : State) (src : Src) (fe : Fetched) : State :=
  let s := s.popHead src
  let b := s.basinOf src
  let d := fe.pkt.p 16 0 14
  let c := s.callerOf src
  let (s, st) := if fe.pkt.op = 0x28 then s.lockTile c ((s.ctxOf src).getD 0) b d else s.unlockTile c b d
  (s.doneNow src fe { Outcome.ok with status := st }).runReady

/-! ### Dispatch (R207, R209, R219) -/

/-- A stream packet whose checks have passed; none while it waits in dispatch. -/
def State.startStream (s : State) (src : Src) (fe : Fetched) : Option State :=
  let p := fe.pkt
  match p.op with
  | 0x01 => some ((s.popHead src).doneNow src fe Outcome.ok)
  | 0x02 => if s.inFlight src = 0 then some ((s.popHead src).doneNow src fe Outcome.ok) else none
  | 0x03 => some (s.startWait src fe)
  | 0x04 | 0x05 => some (s.startGauge src fe)
  | 0x08 => some (s.startList src fe)
  | 0x09 => some (s.startReturn src fe)
  | 0x28 | 0x29 => some (s.startLock src fe)
  | 0x18 | 0x19 => s.startMatrix src fe
  | 0x1C => s.startUnit src fe .vxe p.vUnit p.vAny p.vOp
  | 0x1E => s.startUnit src fe .vxe p.tUnit p.tAny 0xFF
  | 0x20 | 0x21 | 0x22 | 0x23 | 0x24 => s.startUnit src fe .screen p.sUnit p.sAny p.op
  | _ => s.startUnit src fe .flume p.fUnit p.fAny p.op

/-- A packet refused at its head: nothing is done, no gauge moves (R207). A list whose fetch failed ends (R211, R235). -/
def State.refuseHead (s : State) (src : Src) (fe : Fetched) (st : Status) (decode : Bool) : State :=
  let s := s.popHead src
  let s := if decode then s.bump .errDecodeCnt 0 32 else s
  match src, fe.err with
  | .list b k, some st =>
    match s.list? b k with
    | some l =>
      let s := s.putList { l with failOff := BitVec.ofNat 32 fe.off }
      (s.endList b k st).settle ((s.endList b k st).lists.length + 1)
    | none => s
  | _, _ => s.finish src (s.spawnOf src) fe.off fe.pkt (s.basinOf src) s.cycle (Outcome.refuse st) false

/-- A control or security packet passes to Rosog, and its source is held (R12, R219). -/
def State.hand (s : State) (src : Src) (fe : Fetched) : State :=
  let h : Handed := ⟨src, s.spawnOf src, fe.pkt, fe.off, s.basinOf src, (s.ctxOf src).getD 0, s.cycle, none, false, false⟩
  { (s.popHead src).holdSrc src true with handed := s.handed ++ [h] }

/-- The gauges a packet's dispatch reads: its operands and the one it increments, in the basin that one is in. -/
def gaugesNamed (b : Nat) (p : Packet) : List (Nat × Nat) :=
  p.gaugeOperands.map (b, ·) ++ if p.inc ≠ 0 then [(if p.gaugeElsewhere then p.fDstBasin else b, p.gauge)] else []

/-- The descriptors and the gauge lines a packet names are read at its dispatch: corrections are counted, and an uncorrectable
one is counted, logged and posted (R235, R236). -/
def State.readNamed (s : State) (b : Nat) (p : Packet) : State :=
  let (x, y, z) := s.tilesNamed b p
  let ds := ((x ++ y).map fun d => (b, d)) ++ z.map fun d => (p.fDstBasin, d)
  let s := (ds.filter fun x => decide (x.1 < s.cfg.basins ∧ x.2 < 16384)).foldl (fun (s : State) x =>
    (s.readDesc x.1 x.2).1.noteBadDesc x.1 x.2 ditchTurnout true) s
  ((gaugesNamed b p).filter fun x => decide (x.1 < s.cfg.basins)).foldl (fun (s : State) x =>
    s.noteLine x.1 (x.2 / 8) ditchTurnout) s

/-- Dispatch a source's head: the state after it and whether the group stops there; none where it waits. -/
def State.dispatchOne (s : State) (src : Src) : Option (State × Bool) :=
  match s.head? src with
  | none => none
  | some fe =>
    let op := fe.pkt.op
    let stop := op = 0x02 || op = 0x03 || op = 0x08 || op = 0x09 || decide (op ≥ 0x40)
    match s.commonCheck src fe with
    | some st => some (s.refuseHead src fe st false, stop)
    | none =>
      if op ≥ 0x40 then some (s.hand src fe, stop)
      else match s.streamCheck src fe.pkt with
        | some r =>
          let t := if r.status = .checkFail then s.readNamed (s.basinOf src) fe.pkt else s
          some (t.refuseHead src fe r.status r.decode, stop)
        | none => ((s.readNamed (s.basinOf src) fe.pkt).startStream src fe).map fun s' => (s', stop)

/-- A dispatch group: up to `n` packets of one source (R209). -/
def State.dispatchGroup : Nat → State → Src → State
  | 0, s, _ => s
  | n + 1, s, src =>
    match s.dispatchOne src with
    | none => s
    | some (s', stop) => if stop then s' else State.dispatchGroup n s' src

/-- The sources of a basin's ditch rider, in the order of its round: the list slots, then the rings homed there. -/
def State.sourcesOf (s : State) (b : Nat) : List Src :=
  (List.range 64).map (Src.list b) ++
    ((List.range 9).filter fun r => s.rfld (.ringCmd r) 40 4 ≠ 0 && s.rfld (.ringCmd r) 48 8 = b).map Src.ring

/-- A source's place in the round. -/
def srcPlace : Src → Nat
  | .list _ k => k
  | .ring r => 64 + r
  | .headgate => 73

/-- A source can dispatch its head now. -/
def State.readySource (s : State) (src : Src) : Bool := (s.dispatchOne src).isSome

/-- The ready source whose turn it is (R209). -/
def State.nextSource (s : State) (b : Nat) : Option Src :=
  let ready := (s.sourcesOf b).filter s.readySource
  (ready.find? fun x => srcPlace x ≥ nget s.riders 0 b).or ready.head?

/-- One group of the source whose turn it is, once a cycle (R209). -/
def State.ride (s : State) (src : Src) : State :=
  let b := s.basinOf src
  if s.rode.contains b || s.nextSource b != some src then s
  else { s.dispatchGroup 4 src with riders := nset s.riders 0 b (srcPlace src + 1), rode := b :: s.rode }

/-- Packets in a source's fetch buffer. -/
def State.buffered (s : State) (src : Src) : Nat :=
  match src with
  | .ring r => (s.ring r).buf.length
  | .list b k => ((s.list? b k).map (·.buf.length)).getD 0
  | .headgate => 0

/-- A packet arrives at the head of its source: fetched, and dispatched at once where nothing is ahead of it and it can
be. Where it cannot be fetched nothing happens (log entry 3). -/
def State.arrive (s : State) (src : Src) (p : Packet) : State :=
  let first := s.buffered src = 0
  match src with
  | .ring r =>
    if s.ringFetchable r then
      let t := s.ringTake r p false
      if first then t.dispatchGroup 1 src else t
    else s
  | .list b k =>
    match s.list? b k with
    | some l =>
      if s.listFetchable l then
        let t := s.listTake l p none
        if first then t.dispatchGroup 1 src else t
      else s
    | none => s
  | .headgate => s

/-! ### Control packets in Rosog's hands -/

def State.handed? (s : State) (src : Src) (p : Packet) : Option Handed :=
  s.handed.find? fun h => h.src = src ∧ h.pkt = p

/-- Rosog finishes a handed packet: its outcome, and its source goes on. -/
def State.finishHanded (s : State) (h : Handed) (o : Outcome) : State :=
  let s := { s with handed := s.handed.filter (· ≠ h) }
  -- a later packet of the source, handed after this one was accepted, still holds it
  let later := s.handed.any fun x => x.src = h.src && x.spawn = h.spawn && !x.accepted
  let s := if s.spawnOf h.src = h.spawn then s.holdSrc h.src later else s
  s.finish h.src h.spawn h.off h.pkt h.basin h.startCycle o true

/-- Rosog serves handed packets (not in a sleep state, with the control domain up). -/
def State.rosogUp (s : State) : Bool := s.start.released && !s.controlDown && s.handover.isNone && s.dispatching

/-- Towards a handover point Rosog takes no further packet and finishes those it executes (R403, step 2). -/
def State.rosogServes (s : State) (h : Handed) : Bool :=
  s.rosogUp || (h.begun && s.start.released && !s.controlDown && s.dispatching && (match s.handover with
    | some x => decide (x.step = 2) | none => false))

/-- A handed packet is in execution. -/
def State.begin (s : State) (h : Handed) : State :=
  { s with handed := s.handed.map fun x => if x = h then { x with begun := true } else x }

/-- Rosog takes handed packets one at a time, oldest first, past those it has accepted (R219). -/
def State.rosogTurn (s : State) (h : Handed) : Bool :=
  h.accepted || ((s.handed.takeWhile (· ≠ h)).all (·.accepted))

/-- Packets Rosog takes from ring 8 while the site is attaching (R340), or refuses by an order of their own (R353). -/
def takenAttaching (h : Handed) : Bool :=
  h.src = .ring 8 && (h.pkt.op = 0x40 || h.pkt.op = 0x4A || h.pkt.op = 0x80 || h.pkt.op = 0x4C || h.pkt.op = 0x4B)

/-- Execute a control packet with `k`: the packet Rosog holds, or else the packet as it arrives. `k` answers none where
the packet stays in Rosog's hands. While attaching, other packets are refused (R340). -/
def State.control (s : State) (src : Src) (p : Packet) (k : State → Handed → State × Option Outcome) : State :=
  let s := if (s.handed? src p).isSome then s else s.arrive src p
  match s.handed? src p with
  | none => s
  | some h =>
    if !s.rosogServes h || !s.rosogTurn h then s
    else if s.site = stAttaching ∧ !takenAttaching h then s.finishHanded h (.refuse .refusedState)
    else match k s h with
      | (t, some o) => t.finishHanded h o
      | (t, none) => t.begin h

end Sys2Proof.Machine
end

