-- ==== Sys2Proof/Machine/Pools.lean ====
section
/-! DEFINITION. Water rights: the regulator's record, current limits, the capability pools and their admissions, and
the suspension and return of guarantees (R178, R183–R189). -/

namespace Sys2Proof.Machine

/-! ### Regulator records and limits -/

def State.regulator (s : State) (b : Nat) : Regulator := (s.regulators.find? fun r => r.basin = b).getD (.idle b)
def State.putRegulator (s : State) (r : Regulator) : State :=
  let rest := s.regulators.filter fun x => x.basin ≠ r.basin
  { s with regulators := if r = .idle r.basin then rest else r :: rest }

/-- A right's exceedance record starts afresh with the next interval (R183). -/
def State.startAfresh (s : State) (b right : Nat) : State :=
  let g := s.regulator b
  s.putRegulator { g with
    exceeded := g.exceeded.filter (· ≠ right), afresh := right :: g.afresh.filter (· ≠ right) }

/-- STEP, RESTORE and the interval length of a regulator, and FLOOR (R181). -/
def State.regFloor (s : State) (b : Nat) : Nat := s.rfld (.trnRegCfg b) 20 4
def State.regStep (s : State) (b : Nat) : Nat :=
  let n := s.rfld (.trnRegCfg b) 16 4
  if n = 0 then 4 else n
def State.regRestore (s : State) (b : Nat) : Nat :=
  let n := s.rfld (.trnRegCfg b) 8 4
  if n = 0 then 4 else n

/-- INTERVAL_LOG2: 8–20; other values are treated as 10 (R181). -/
def State.regLog2 (s : State) (b : Nat) : Nat :=
  let n := s.rfld (.trnRegCfg b) 0 5
  if 8 ≤ n ∧ n ≤ 20 then n else 10

/-- DEPTH of a right (R182). -/
def State.depth (s : State) (b r : Nat) : Nat := s.rfld (.trnLatCfg b r) 48 4

/-- The current limit field of a right at a turnout (R178). -/
def State.otCur (s : State) (b t r : Nat) : Nat :=
  max (s.regFloor b) (s.rfld (.trnOtCfg b t) (4 * r) 4 - s.depth b r * s.regStep b)

/-- TRN_OT_CUR as it reads: zero for an unused turnout (R178). -/
def State.otCurReg (s : State) (b t : Nat) : Word64 :=
  if t < s.cfg.turnouts then
    BitVec.ofNat 64 ((List.range 16).foldl (fun a r => a + s.otCur b t r * 2 ^ (4 * r)) 0)
  else 0

/-- Write EN and BOUND, or SUSPENDED, of a right; a change of BOUND or a cleared SUSPENDED starts its record afresh
(R183). -/
def State.setBound (s : State) (b r : Nat) (en : Bool) (bound : Nat) : State :=
  let changed := s.rfld (.trnLatCfg b r) 0 16 ≠ bound ∨ bound ≠ 0
  let s := (s.putFld (.trnLatCfg b r) 0 16 bound).putFld (.trnLatCfg b r) 63 1 en.toNat
  if changed then s.startAfresh b r else s
def State.setSuspended (s : State) (b r : Nat) (v : Bool) : State :=
  let s := s.putFld (.trnLatCfg b r) 62 1 v.toNat
  if v then s else s.startAfresh b r

/-! ### Pools (R184) -/

/-- Units of a kind in a basin that are not retired. -/
def State.unitsIn (s : State) (kind : UnitKind) (b : Nat) : Nat :=
  ((List.range (unitsOf kind)).filter fun u => s.unitState ⟨kind, b, u⟩ ≠ 5).length

/-- Furrows of a basin with a served slot. -/
def State.servedFurrows (s : State) (b : Nat) : Nat :=
  ((List.range s.cfg.furrows).filter fun f => (List.range 8).any fun k => (s.mxeAt b f k).isSome).length

/-- A pool: its code, and its basin for codes 0 to 3. -/
structure Pool where
  code : Nat
  basin : Nat
  deriving DecidableEq, Repr

/-- Pools in the order they are tested: per-basin pools of the live basins, then the site's. -/
def State.pools (s : State) : List Pool :=
  (List.range 4).flatMap (fun c => s.liveBasins.map fun b => ⟨c, b⟩)
    ++ ([4, 8, 9, 10, 11, 12, 13, 14, 15].map fun c => ⟨c, 0xFF⟩)

/-- floor(0.9 × C), in GB/s: f is 6 ÷ FLOW_DIV GHz and D is D_PUB ÷ 16 (R311, R331). -/
def State.admissible (s : State) (p : Pool) : Nat :=
  let rate := fun (n width : Nat) => n * width * 6 * s.rfld .pwrPerf 8 5 * 9 / (s.rfld .pwrPerf 16 4 * 16 * 10)
  match p.code with
  | 0 => rate (s.servedFurrows p.basin) 128
  | 1 => rate (s.unitsIn .vxe p.basin) 64
  | 2 => rate (s.unitsIn .screen p.basin) 64
  | 3 => rate (s.unitsIn .flume p.basin) 128
  | 4 => ((List.range s.cfg.siphons).filter s.siphonUp).length * 1500 * 9 / 10
  | c => if s.culState (c % 4) = culUp then 1800 else 0

/-- What an admission reserves in a pool. -/
def Admission.inPool (a : Admission) (p : Pool) : Nat :=
  let here := fun (n : Nat) => if bit a.mask p.basin then n else 0
  match p.code with
  | 0 => here a.furrow
  | 1 => here a.vector
  | 2 => here a.screen
  | 3 => here a.flume
  | 4 => a.stack
  | c => if c < 12 then a.culOut.getD (c - 8) 0 * 10 else a.culIn.getD (c - 12) 0 * 10

/-- Sum of the reservations of unsuspended admissions in a pool. -/
def reservedIn (as : List Admission) (p : Pool) : Nat :=
  ((as.filter fun a => !a.suspended).map (·.inPool p)).foldl (· + ·) 0

/-- Every pool holds its unsuspended reservations. -/
def State.poolsHold (s : State) (as : List Admission) : Bool := s.pools.all fun p => reservedIn as p ≤ s.admissible p

/-- Class of an admission: its right's QoS value in the context's home basin. -/
def State.classOf (s : State) (c : Nat) (a : Admission) : Nat := s.qosOf (s.ctx c).homeBasin a.right

/-- Admissions from the lowest class up, within a class from the lower right number up (R188). -/
def State.byClass (s : State) (c : Nat) (as : List Admission) : List Admission :=
  (List.range 8).flatMap fun q => (List.range 16).flatMap fun r =>
    as.filter fun a => s.classOf c a = q ∧ a.right = r

/-- Mark one right's admission suspended or not, in the record and in TRN_LAT_CFG of its basins. -/
def State.markSuspended (s : State) (c right : Nat) (v : Bool) : State :=
  let r := s.ctx c
  let s := s.putCtx c { r with admissions := r.admissions.map fun (a : Admission) =>
    if a.right = right then { a with suspended := v } else a }
  ((r.admissions.filter fun a => a.right = right).flatMap fun a => bitsSet a.mask 64).foldl
    (fun (s : State) b => s.setSuspended b right v) s

/-- Suspend in class order while a pool exceeds (R188). -/
def State.suspendWhile (c : Nat) : List Admission → State → State
  | [], s => s
  | a :: rest, s =>
    if s.poolsHold (s.ctx c).admissions then s
    else State.suspendWhile c rest (s.markSuspended c a.right true)

/-- Restore in the reverse order up to the first that does not fit (R188). -/
def State.restoreWhile (c : Nat) : List Admission → State → State
  | [], s => s
  | a :: rest, s =>
    let t := s.markSuspended c a.right false
    if t.poolsHold (t.ctx c).admissions then State.restoreWhile c rest t else s

/-- Recompute the pools (R188): retired basins leave every mask, then the active context's admissions are suspended or
restored. -/
def State.recompute (s : State) : State :=
  let live := s.reg .devBasinLive
  let s := { s with ctxs := s.ctxs.map fun (x : Nat × CtxRec) =>
    (x.1, { x.2 with admissions := x.2.admissions.map fun (a : Admission) => { a with mask := a.mask &&& live } }) }
  match s.active with
  | none => s
  | some c =>
    let up := (s.byClass c (s.ctx c).admissions).filter (!·.suspended)
    let s := if s.poolsHold (s.ctx c).admissions then s else State.suspendWhile c up s
    if s.poolsHold (s.ctx c).admissions then
      State.restoreWhile c ((s.byClass c (s.ctx c).admissions).filter (·.suspended)).reverse s
    else s

end Sys2Proof.Machine
end

