-- ==== Sys2Proof/Machine/Supplies.lean ====
section
/-! DEFINITION. What several chapters ask of the power manager and the management bus: alert causes (R426), supply
requests (R316), the margin's state (R335), the keeper's load estimate (R317). -/

namespace Sys2Proof.Machine

/-- Alert causes (R426). -/
def alHotJoin : Nat := 0
def alStartDone : Nat := 1
def alDetachReady : Nat := 2
def alVreq : Nat := 3
def alFallow : Nat := 4
def alStateDone : Nat := 5
def alThermal : Nat := 6
def alTrickleWake : Nat := 7

/-- The target is in I3C mode: it holds a dynamic address. Without one a controller addresses its static address, in legacy I2C
framing (R423; PRESUMED, log entry 35). -/
def Mgt.i3c (m : Mgt) : Bool := m.dyn.isSome

/-- A cause is set; in I3C mode a newly set one raises an in-band interrupt, when those are enabled (R422, R426). -/
def State.alert (s : State) (i : Nat) : State :=
  let new := !bit (s.reg .devMgtAlert) i
  let s := s.setW1c .devMgtAlert (maskOf i 1)
  if new ∧ s.mgt.i3c ∧ bit s.mgt.events 0 then
    { s with mgt := { s.mgt with ibi := s.mgt.ibi ++ [BitVec.ofNat 8 i] } }
  else s

/-- VDD_SRAM and VDD_CORE as requested and granted, in 5 mV units (R337). -/
def State.coreReq (s : State) : Nat := s.rfld .pwrVreq 0 8
def State.sramReq (s : State) : Nat := s.rfld .pwrVreq 8 8
def State.coreGrant (s : State) : Nat := s.rfld .pwrVreq 16 8
def State.sramGrant (s : State) : Nat := s.rfld .pwrVreq 24 8
/-- 0.70 V and 0.75 V. -/
def sramNominal : Nat := 140
def supplyMax : Nat := 150

/-- Request levels (R316): nothing where they are already requested, or a request is pending. -/
def State.requestSupply (s : State) (core sram : Nat) : State :=
  if s.power.supply.isSome ∨ (core = s.coreReq ∧ sram = s.sramReq) then s
  else
    let q : SupplyReq := ⟨s.coreGrant, s.sramGrant, s.now, false⟩
    let s := ((s.putFld .pwrVreq 0 8 core).putFld .pwrVreq 8 8 sram).putFld .pwrVreq 63 1 1
    { s with power := { s.power with supply := some q } }.alert alVreq

/-- MARGIN_LOW and TRACKING (R335, R337). -/
def State.showMargin (s : State) : State :=
  let p := s.power
  let low := p.lowUntilSettled || p.lowCanary ≠ 0 || p.lowClearAt.isSome || p.outOfTolerance
  let track := bit (s.reg .pwrCfg) 40 && (s.site = stFlow || s.site = stSlack)
    && decide (s.cistern.serviceS ≥ p.suspendedUntil)
  (s.putFld .pwrMargin 63 1 low.toNat).putFld .pwrMargin 62 1 track.toNat

/-- Raise VDD_SRAM to a level: at once, or once the pending request is over. -/
def State.raiseSram (s : State) (level : Nat) : State :=
  if s.power.supply.isSome then { s with power := { s.power with sramWant := max s.power.sramWant level } }
  else s.requestSupply s.coreReq level

/-- An uncorrectable read, or a second corrected finding of a lap, below 0.70 V (R335). -/
def State.marginSuspend (s : State) : State :=
  if bit (s.reg .pwrCfg) 40 ∧ s.sramReq < sramNominal then
    let s := (s.bump .pwrMargin 16 16).logEvent
    let s := { s with power := { s.power with
      lowUntilSettled := true, suspendedUntil := s.cistern.serviceS + 86400 } }
    (s.raiseSram sramNominal).showMargin
  else s

/-- PWR_KEEPER.LOAD_MA of the always-on loads that are enabled (R317). -/
def State.loadMa (s : State) : Nat :=
  12 + (if s.mgt.awake then 20 else 0) + (if s.power.sensorsOn then 85 else 0)
    + (if s.power.driversOn then 150 else 0)
def State.showLoad (s : State) : State := s.putFld .pwrKeeper 16 16 s.loadMa

end Sys2Proof.Machine
end

