-- ==== Sys2Proof/Machine/History.lean ====
section
/-! DEFINITION. The fault history: the unit summary, classification, the record log and the CPER record (R269–R271,
R285–R288). -/

namespace Sys2Proof.Machine

/-! ### The unit summary (R270) -/

/-- A unit with no history. -/
def UnitRec.fresh (k : UnitKind) (b u : Nat) : UnitRec := ⟨k, b, u, false, [], none, 0, none, none, false, none, []⟩

def State.unitRec (s : State) (k : UnitKind) (b u : Nat) : UnitRec :=
  (s.cistern.units.find? fun x => x.kind = k && x.basin = b && x.unit = u).getD (.fresh k b u)

def State.putUnitRec (s : State) (r : UnitRec) : State :=
  let rest := s.cistern.units.filter fun x => !(x.kind = r.kind && x.basin = r.basin && x.unit = r.unit)
  { s with cistern := { s.cistern with units := if r = .fresh r.kind r.basin r.unit then rest else r :: rest } }

/-- Service time is now (R269). -/
def State.serviceNow (s : State) : Nat := s.cistern.serviceS

/-- Events of a unit within the window (R271). -/
def State.inWindow (s : State) (r : UnitRec) : List UnitEvent :=
  r.events.filter fun x => s.serviceNow - x.time ≤ s.cistern.policy.windowH * 3600

/-- The row and bit, or cell or lane, an event names. -/
def Event.names (e : Event) : Option (Nat × Nat) :=
  if e.kind = .bank then some (e.loc, e.bit)
  else if (e.kind = .mxe ∨ e.kind = .vxe) ∧ e.bit ≠ noBit then some (0, e.bit)
  else none

/-- An event added to its unit's summary, with those beyond the window dropped. -/
def State.addEvent (s : State) (e : Event) : State :=
  let r := s.unitRec e.kind e.basin e.unit
  s.putUnitRec { r with
    events := (s.inWindow r) ++ [⟨s.serviceNow, e.cls, e.verdict, e.loc, e.bit, e.lap, false⟩]
    named := e.names <|> r.named }

/-- A unit falls due for a test at once (R266, R279). -/
def State.dueNow (s : State) (k : UnitKind) (b u : Nat) : State :=
  let r := s.unitRec k b u
  s.putUnitRec { r with due := some (r.due.getD s.serviceNow) }

/-! ### Classification (R271) -/

/-- Two members of a list are equal. -/
def hasPair (l : List Nat) : Bool := l.zipIdx.any fun x => (l.drop (x.2 + 1)).contains x.1
/-- Two members of a list differ. -/
def hasDiff (l : List Nat) : Bool := l.any fun x => l.any (· ≠ x)
/-- Members of a list, each once. -/
def distinct (l : List Nat) : List Nat := l.foldr (fun x a => if a.contains x then a else x :: a) []

/-- An MXE's, VXE's, screen's, flume's or line's history makes it permanent-faulty. -/
def State.permanentUnit (s : State) (r : UnitRec) : Bool :=
  let ev := s.inWindow r
  match r.kind with
  | .mxe | .vxe =>
    let n := ev.filter fun x => x.verdict = .transient ∨ x.verdict = .unresolved
    decide (n.length ≥ s.cistern.policy.transientMax) || hasPair ((n.map (·.bit)).filter (· ≠ noBit))
  | .screen | .flume =>
    decide ((ev.filter fun x => x.cls = clsScreen ∨ x.cls = clsCarried).length ≥ s.cistern.policy.transientMax)
  | .descLine | .gaugeLine =>
    hasDiff ((ev.filter fun x => x.cls = clsLine ∨ x.cls = clsCorrected).map (·.lap))
  | _ => false

/-- Findings on the rows of a bank within the window. -/
def State.findings (s : State) (r : UnitRec) : List UnitEvent :=
  (s.inWindow r).filter fun x => x.cls = clsCorrected ∨ x.cls = clsUncorrectable

/-- Those on one row, since it was last remapped. -/
def State.rowEvents (s : State) (r : UnitRec) (row : Nat) : List UnitEvent :=
  (s.findings r).filter fun x => x.loc = row && !x.moved

/-- A finding makes its row permanent: findings in two laps, or with distinct bits. -/
def State.permanentRow (s : State) (r : UnitRec) (e : Event) : Bool :=
  (s.rowEvents r e.loc).any fun x => x.lap ≠ e.lap || (x.bit ≠ e.bit && x.bit ≠ noBit && e.bit ≠ noBit)

/-- Findings on distinct rows of a bank. -/
def State.rowsFound (s : State) (r : UnitRec) : Nat := (distinct ((s.findings r).map (·.loc))).length

/-! ### Records (R285–R288) -/

/-- UNIT_KIND and CLASSIFICATION. -/
def kindCode : UnitKind → Nat
  | .bank => 0 | .mxe => 1 | .vxe => 2 | .screen => 3 | .flume => 4 | .descLine => 5 | .gaugeLine => 6 | .siphon => 7
  | .culvert => 8 | .register => 9 | .site => 0xF
def Verdict.code : Verdict → Nat
  | .none => 0 | .transient => 1 | .permanent => 2 | .unresolved => 3 | .unclassified => 4

/-- Severity (R288, R309, R420). -/
def Event.severity (e : Event) : Nat :=
  if e.cls = clsCorrected ∨ e.cls = clsRestored ∨ e.cls = clsScreen ∨ e.cls = clsCarried ∨ e.cls = clsDissent then 2
  else if e.cls = clsMxe ∨ e.cls = clsVxe then (if e.failed then 0 else 2)
  else if e.cls = clsTest ∨ e.cls = clsDeferred ∨ e.cls = clsForced ∨ e.cls = clsRepair ∨ e.cls = clsRetired then 3
  else if e.cls = clsBasin then (if e.failed then 0 else 3)
  else if e.cls = clsSiphon then (if e.detail.head? = some 1 ∨ e.detail.head? = some 4 then 0 else 2)
  else if e.cls = clsCulvert then
    (if e.detail.head? = some 0 then 2 else if e.detail.head? = some 1 then 0 else 3)
  else 0

/-- EVENT_CLASS of the record of a `FALLOW` entry, which the spec does not name: a free byte. -/
def clsFallow : Nat := 0x100

/-- ASCII digits of a number, `n` of them. -/
def digits : Nat → Nat → List Byte
  | 0, _ => []
  | n + 1, v => digits n (v / 10) ++ [BitVec.ofNat 8 (0x30 + v % 10)]

/-- FRU text (R286): as the spec shows it for MXEs and the site; for other units its ASCII characters and their number are
left open. -/
def fruText (kind : UnitKind) (b u id : Nat) : List Byte :=
  match kind with
  | .mxe => [0x45, 0x32, 0x20, 0x42] ++ digits 2 b ++ [0x20, 0x4D, 0x58, 0x45, 0x20] ++ digits 3 u
      ++ List.replicate 6 0
  | .site => [0x45, 0x32, 0x20, 0x53, 0x49, 0x54, 0x45] ++ List.replicate 13 0
  | _ =>
    let n := (Config.free 40 (id * 32)).toNat % 21
    ((List.range n).map fun i => BitVec.ofNat 8 (0x20 + (Config.free 40 (id * 32 + 1 + i)).toNat % 0x5F))
      ++ List.replicate (20 - n) 0

def creatorGuid : List Byte :=
  [0x77, 0x0A, 0x1E, 0x5C, 0xB4, 0x93, 0x2D, 0x4E, 0xA6, 0xF8, 0x31, 0xD0, 0x9B, 0x7C, 0x4E, 0x12]
def sectionGuid : List Byte :=
  [0x41, 0x9C, 0x3E, 0x7A, 0xD0, 0x52, 0x8F, 0x4B, 0x9E, 0x16, 0x0C, 0x5D, 0x2A, 0x7B, 0x83, 0xF4]

/-- The record of an event (R285–R287). LOCATION and BIT of an event that has none, and UNIT of a register and of the
site, are left open, but for a basin's retirement, whose record names the basin there. -/
def State.cper (s : State) (e : Event) (severity action : Nat) (threshold : Bool) (history : Nat) : List Byte :=
  let id := s.cistern.nextId
  let n := e.detail.length
  let located := e.kind = .bank ∨ e.kind = .descLine ∨ e.kind = .gaugeLine ∨ e.kind = .register ∨ e.kind = .siphon
  let loc := if located then e.loc else (Config.free 41 id).toNat
  let bit := if (e.kind = .bank ∨ e.kind = .mxe) ∧ e.bit ≠ noBit then e.bit else (Config.free 42 id).toNat
  let unit := if e.kind = .register ∨ (e.kind = .site ∧ e.cls ≠ clsBasin) then (Config.free 44 id).toNat else e.unit
  let cls := if e.cls = clsFallow then (Config.free 43 id).toNat else e.cls
  -- record header
  [0x43, 0x50, 0x45, 0x52] ++ leBytes 2 0x0101 ++ leBytes 4 0xFFFFFFFF ++ leBytes 2 1 ++ leBytes 4 severity
    ++ leBytes 4 0 ++ leBytes 4 (264 + n) ++ List.replicate 40 0 ++ creatorGuid ++ List.replicate 16 0
    ++ leBytes 8 id ++ List.replicate 24 0
  -- section descriptor
    ++ leBytes 4 200 ++ leBytes 4 (64 + n) ++ leBytes 2 0x0100 ++ [0x02, 0] ++ leBytes 4 (1 + threshold.toNat * 8)
    ++ sectionGuid ++ List.replicate 16 0 ++ leBytes 4 severity ++ fruText e.kind e.basin e.unit id
  -- vendor section
    ++ leBytes 2 1 ++ [BitVec.ofNat 8 cls, BitVec.ofNat 8 e.verdict.code, BitVec.ofNat 8 action,
        BitVec.ofNat 8 (kindCode e.kind)] ++ leBytes 2 e.basin ++ leBytes 2 unit
    ++ [BitVec.ofNat 8 e.ctx, BitVec.ofNat 8 (e.failed.toNat + 2 * threshold.toNat)] ++ leBytes 4 history
    ++ leBytes 8 (s.reg .clkEventSeq).toNat ++ leBytes 8 s.now ++ leBytes 4 s.serviceNow ++ leBytes 4 loc
    ++ leBytes 2 bit ++ leBytes 2 n ++ List.replicate 20 0 ++ e.detail

/-- The cistern's MRAM (R15), and the part of it that holds the record log (R270). -/
def cisternBytes : Nat := 8 * 2 ^ 20
def recordLogBytes : Nat := 768 * 2 ^ 10

/-- Records that fit the log, the oldest dropped first, and whether any was dropped (R270). -/
def keepNewest : Nat → List (Nat × Nat × Nat × List Byte) → List (Nat × Nat × Nat × List Byte) × Bool
  | 0, rs => (rs, false)
  | f + 1, rs =>
    match rs with
    | [] => ([], false)
    | _ :: t =>
      if (rs.map fun x => x.2.2.2.length).foldl (· + ·) 0 > recordLogBytes then ((keepNewest f t).1, true) else (rs, false)

/-- HISTORY (R287): the events of the unit's summary within the window, and this one where the summary does not hold it. -/
def State.historyOf (s : State) (e : Event) (added : Bool) : Nat :=
  (s.inWindow (s.unitRec e.kind e.basin e.unit)).length + (!added).toNat

/-- Write a record (R270, R285): the site logs an event (R314). `added` says that the unit's summary holds the event. -/
def State.record (s : State) (e : Event) (severity action : Nat) (threshold added : Bool) : State :=
  let history := s.historyOf e added
  let s := s.logEvent
  let id := s.cistern.nextId
  let rs := keepNewest 4096
    (s.cistern.records ++ [(id, severity, e.ctx, s.cper e severity action threshold history)])
  { s with cistern := { s.cistern with
      records := rs.1, nextId := id + 1, overwritten := s.cistern.overwritten || rs.2 } }

/-- A record of an action on a unit; `loc` is its row, where it has one. A line's place is its own number (R287). -/
def State.recordAction (s : State) (kind : UnitKind) (b u cls action : Nat) (failed : Bool := false) (loc : Nat := 0) : State :=
  let e : Event := { Event.of kind b u cls .none with
    failed := failed, loc := if kind = .descLine ∨ kind = .gaugeLine then u else loc }
  s.record e e.severity action false false

/-! ### `FALLOW` (R345) -/

/-- Enter `FALLOW` with a cause; `start` when a start ended there. Bank groups go off and lose their contents, and siphons that
serve go into self-refresh. -/
def State.enterFallow (s : State) (cause : Nat) (start : Bool) : State :=
  let s := (s.setSite stFallow).putFld .devStartSt 56 8 cause
  let s := if start then s.bump .devStartSt 44 4 else s
  let s := if cause = 4 then s.logEvent
    else s.record { Event.of .site 0xFFFF 0 clsFallow .none with failed := true } 1 0 false false
  let s := s.alert alFallow
  let s := (List.range s.cfg.basins).foldl (fun (s : State) b => s.putReg (.pwrBasinSt b) 0) s
  let s := (List.range s.cfg.siphons).foldl (fun (s : State) i =>
    if s.rfld (.sphSt i) 8 4 = 1 then s.putFld (.sphSt i) 8 4 3 else s) s
  { s with mem := [], memChk := [] }

end Sys2Proof.Machine
end

