-- ==== Sys2Proof/Machine/Contexts.lean ====
section
/-! DEFINITION. Contexts: where Rosog places regions (R43, R220, R292–R294, R363), the end of a context's work (R50,
R196, R223), and the scrub (R369). -/

namespace Sys2Proof.Machine

/-- Basin and offset of a site address in the basin window (R20, R23). -/
def SiteConfig.basinAt (c : SiteConfig) (a : Nat) : Option (Nat × Nat) :=
  let b := a / 2 ^ c.strideLog2
  let off := a % 2 ^ c.strideLog2
  if b < c.basins ∧ off < c.basinBytes then some (b, off) else none

/-! ### Placement in basins (R43, R363, R364) -/

/-- Granules taken in a basin: every valid levee entry. -/
def State.takenIn (s : State) (b : Nat) : List (Nat × Nat) := (s.levees b).map fun l => (l.base, l.len)

/-- Granules free from `c` up in a space of `n`, given what is taken. -/
def freeRun (taken : List (Nat × Nat)) (n c : Nat) : Nat :=
  if taken.any fun t => t.1 ≤ c ∧ c < t.1 + t.2 then 0
  else (taken.map (·.1)).foldl (fun a x => if c ≤ x then min a x else a) n - c

/-- Offsets at which a free run can begin. -/
def runStarts (taken : List (Nat × Nat)) : List Nat := 0 :: taken.map fun t => t.1 + t.2

/-- The lowest offset with `len` free, and the longest free run. -/
def lowestFit (taken : List (Nat × Nat)) (n len : Nat) : Option Nat :=
  let ok := (runStarts taken).filter fun c => len ≤ freeRun taken n c ∧ c ≤ n
  ok.foldl (fun a c => match a with | none => some c | some x => some (min x c)) none
def longestRun (taken : List (Nat × Nat)) (n : Nat) : Nat := ((runStarts taken).map (freeRun taken n)).foldl max 0

/-- A free levee entry of a basin. -/
def State.freeLevee (s : State) (b : Nat) : Option Nat :=
  (List.range 32).find? fun n => !bit (s.reg (.bsnLeveeA b n)) 63

/-- Write a levee entry (R364). -/
def State.putLevee (s : State) (b n kind ctx base len : Nat) (alloc : Nat × Nat × Nat × Nat) : State :=
  (s.putReg (.bsnLeveeA b n)
      (BitVec.ofNat 64 (2 ^ 63 + kind * 2 ^ 60 + ctx * 2 ^ 56 + len * 2 ^ 32 + base))).putReg (.bsnLeveeB b n)
    (BitVec.ofNat 64 (alloc.1 * 2 ^ 50 + alloc.2.1 * 2 ^ 32 + alloc.2.2.1 * 2 ^ 16 + alloc.2.2.2))

/-- A region placed in a basin's first free levee entry. -/
def State.addLevee (s : State) (b kind ctx base len : Nat) (alloc : Nat × Nat × Nat × Nat) : State :=
  match s.freeLevee b with
  | some n => s.putLevee b n kind ctx base len alloc
  | none => s

/-- The descriptors and gauges of a region by its place (R363): first and count of each. -/
def SiteConfig.allotment (c : SiteConfig) (base len : Nat) : Nat × Nat × Nat × Nat :=
  let f := fun (x n : Nat) => x * n / c.spaceGranules
  (f base 16320, f (base + len) 16320 - f base 16320, f base 4032, f (base + len) 4032 - f base 4032)

/-- CTX set in the descriptors and gauges of an allotment (R363). -/
def State.ownAllotment (s : State) (b ctx : Nat) (al : Nat × Nat × Nat × Nat) : State :=
  let s := (List.range al.2.1).foldl (fun (s : State) i =>
    s.putDesc b (al.1 + i) (setFld (s.descOf b (al.1 + i)) 96 4 ctx)) s
  (List.range al.2.2.2).foldl (fun (s : State) i => s.putGctx b (al.2.2.1 + i) ctx) s

/-! ### Placement in stack memory (R292–R294) -/

/-- Siphons in service. -/
def State.siphonsUp (s : State) : List Nat :=
  (List.range s.cfg.siphons).filter fun i => s.rfld (.sphSt i) 8 4 = 1 || s.rfld (.sphSt i) 8 4 = 3

/-- Pages a region takes in each siphon of its set. -/
def Region.pages (r : Region) (cfg : SiteConfig) : Nat :=
  if r.islocal then r.len / max 1 cfg.siphons / 4096 else cdiv r.len (max 1 r.siphons.length * 4096)

/-- Physical pages taken in some siphon of a set. -/
def State.takenPages (s : State) (set : List Nat) : List (Nat × Nat) :=
  (s.regions.filter fun r => r.siphons.any set.contains).map fun r => (r.physBase, r.pages s.cfg)

/-- Usable 16 MiB units taken, and the units there are. -/
def State.takenUnits (s : State) : List (Nat × Nat) := s.regions.map fun r => (r.base / 2 ^ 24, r.len / 2 ^ 24)
def SiteConfig.stackUnits (c : SiteConfig) : Nat := c.siphons * 248
def siphonPages : Nat := 1015808

/-- The siphon set of a new region, and pages in each siphon for a length in 16 MiB units. -/
def State.newSet (s : State) (islocal : Bool) : List Nat := if islocal then List.range s.cfg.siphons else s.siphonsUp
def pagesFor (set : List Nat) (units : Nat) : Nat := cdiv (units * 4096) (max 1 set.length)

/-- A free entry of the region table. -/
def State.freeRegion (s : State) : Option Nat := (List.range 64).find? fun n => !bit (s.reg (.sphRgnA n)) 63

/-- Where a stack region of `units` goes: entry, base unit, physical base. -/
def State.fitStack (s : State) (islocal : Bool) (units : Nat) : Option (Nat × Nat × Nat) :=
  let set := s.newSet islocal
  if set.isEmpty then none
  else match s.freeRegion, lowestFit s.takenUnits s.cfg.stackUnits units,
      lowestFit (s.takenPages set) siphonPages (pagesFor set units) with
    | some n, some u, some p => some (n, u, p)
    | _, _, _ => none

/-- The longest stack region of a kind that would fit, in 16 MiB units. -/
def State.longestStack (s : State) (islocal : Bool) : Nat :=
  let set := s.newSet islocal
  if set.isEmpty ∨ s.freeRegion.isNone then 0
  else
    let n := min (longestRun s.takenUnits s.cfg.stackUnits)
      (longestRun (s.takenPages set) siphonPages * set.length / 4096)
    if islocal then n / set.length * set.length else n

/-- Write a region-table entry; a new region's pages are invalid (R295, R296). -/
def State.addRegion (s : State) (n : Nat) (islocal : Bool) (ctx phys units base : Nat) (set : List Nat) : State :=
  let s := (s.putReg (.sphRgnA n) (BitVec.ofNat 64 (2 ^ 63 + islocal.toNat * 2 ^ 62 + ctx * 2 ^ 56 + phys * 2 ^ 32
      + units * 2 ^ 16 + base))).putReg (.sphRgnB n) (BitVec.ofNat 64 ((set.map (2 ^ ·)).foldl (· + ·) 0))
  match s.regions.find? fun r => r.entry = n with
  | some r => s.clearRegion r
  | none => s

/-- A region's pages cleared and its entry freed (R292, R296). -/
def State.dropRegion (s : State) (n : Nat) : State :=
  match s.regions.find? fun r => r.entry = n with
  | some r => ((s.clearRegion r).putReg (.sphRgnA n) 0).putReg (.sphRgnB n) 0
  | none => s

/-! ### The end of a context's work -/

/-- Packets of a context in flight at engines. -/
def State.ctxFlights (s : State) (c : Nat) : List Flight :=
  s.flights.filter fun f => f.ctx = c && f.arrival.isNone && !f.restore

/-- Flights ended from outside: all leave first, so that none is woken by another's end. -/
def State.killAll (s : State) (fs : List Flight) : State :=
  let ids := fs.map (·.id)
  let s := { s with
    flights := s.flights.filter fun f => !ids.contains f.id
    culverts := s.culverts.map fun (x : Nat × Culvert) =>
      (x.1, { x.2 with exchanges := x.2.exchanges.filter fun e => e.sent || !ids.contains e.flight }) }
  (fs.foldl State.killFlight s).runReady

/-- Locks of a context's lists and ring broken (R50); their number. -/
def State.breakLocks (s : State) (c : Nat) : State × Nat :=
  let ls := s.locks.filter fun l => l.ctx = c && fld l.caller.owner 13 3 ≠ 3
  (ls.foldl (fun (s : State) (l : Lock) => (s.breakLock l.basin l.desc).afterBreak l.basin l.desc) s, ls.length)

/-- Reply of a packet ended by its context's fault. -/
def State.endFaulted (s : State) (src : Src) (p : Packet) (basin start : Nat) : State :=
  let o := s.marked src basin p { Outcome.refuse .contextFaulted with refused := false }
  let s := s.addStats src
    { Stats.zero with failed := 1, busy := s.cycle - start, alerted := if o.alerts = 0 then 0 else 1 }
  match src with
  | .ring r => s.queueReply r (o.reply p false (s.cycle - start))
  | .list b k => match s.list? b k with
    | some l => s.queueUnreserved l.ctx (o.reply p true (s.cycle - start))
    | none => s
  | .headgate => s

/-- A context is faulted (R196): its packets in flight end with CONTEXT_FAULTED, its lists stand still in their slots,
its locks are broken. -/
def State.faultContext (s : State) (c : Nat) : State :=
  if !s.resident c || (s.ctx c).faulted then s
  else
    let s := s.putCtx c { s.ctx c with faulted := true }
    let s := if s.ringState c = 4 then s else s.putFld (.ringSt c) 0 4 3
    let fs := s.ctxFlights c
    let ws := s.waits.filter fun w => w.ctx = c
    let ls := s.lists.filter fun l => l.ctx = c && l.spawner ≠ .headgate
    let hs := s.handed.filter fun h => h.ctx = c && h.src ≠ .ring 8
    let s := { s with
      waits := s.waits.filter fun w => w.ctx ≠ c
      lists := s.lists.map fun (l : ListRun) => if l.ctx = c then { l with spawner := .headgate } else l
      handed := s.handed.filter fun h => !hs.contains h }
    let s := s.holdSrc (.ring c) false
    let s := fs.foldl (fun (s : State) (f : Flight) => s.endFaulted f.src f.pkt f.basin f.startCycle) s
    let s := ws.foldl (fun (s : State) (w : Wait) => s.endFaulted w.src w.pkt w.basin w.startCycle) s
    let s := ls.foldl (fun (s : State) (l : ListRun) => s.endFaulted l.spawner l.spawnPkt (s.basinOf l.spawner) l.spawnCycle) s
    let s := hs.foldl (fun (s : State) (h : Handed) => s.endFaulted h.src h.pkt h.basin h.startCycle) s
    ((s.killAll fs).breakLocks c).1

/-- A context's lists and packets ended unanswered; the numbers of each (R223). -/
def State.endWork (s : State) (c : Nat) (keep : Option Handed) : State × Nat × Nat :=
  let fs := s.ctxFlights c
  let ws := s.waits.filter fun w => w.ctx = c
  let ls := s.lists.filter fun l => l.ctx = c
  let hs := s.handed.filter fun h => h.ctx = c && h.src ≠ .ring 8 && some h ≠ keep
  let spawns := ls.filter fun l => l.spawner ≠ .headgate
  let s := { s with
    waits := s.waits.filter fun w => w.ctx ≠ c
    lists := s.lists.filter fun l => l.ctx ≠ c
    handed := s.handed.filter fun h => !hs.contains h }
  (s.killAll fs, ls.length, fs.length + ws.length + spawns.length + hs.length)

/-! ### The scrub (R369) -/

/-- T_SCRUB (R369). -/
def State.tScrub (s : State) : Nat := 6144 + 2 * s.cfg.rows

/-- The levee entries of a context: basin, number, the two registers. -/
def State.ctxLevees (s : State) (c : Nat) : List (Nat × Nat × Word64 × Word64) :=
  s.liveBasins.flatMap fun b => (List.range 32).filterMap fun n =>
    let a := s.reg (.bsnLeveeA b n)
    if bit a 63 ∧ fld a 56 4 = c then some (b, n, a, s.reg (.bsnLeveeB b n)) else none

/-- Kind of an entry, and its words from and to. -/
def leveeKind (a : Word64) : Nat := fld a 60 3
def leveeWords (a : Word64) : Nat × Nat := (fld a 0 18 * 4, (fld a 0 18 + fld a 32 19) * 4)

/-- The areas of a basin that entries cover, without those that lie within another. -/
def leveeAreas (es : List (Nat × Nat × Word64 × Word64)) (b : Nat) : List (Nat × Nat) :=
  let as := ((es.filter fun x => x.1 = b && leveeKind x.2.2.1 ≠ 2).map fun x => leveeWords x.2.2.1).eraseDups
  as.filter fun x => !as.any fun y => decide (y ≠ x ∧ y.1 ≤ x.1 ∧ x.2 ≤ y.2)

/-- Predictors and operand staging of every unit emptied, and the context's stream-table entries disabled and cleared. -/
def State.clearEngines (s : State) (c : Nat) : State :=
  { s with
    staging := []
    regs := s.regs.filter fun (x : Reg × Word64) =>
      match x.1 with
      | .mxePred _ _ | .mxePredMap _ _ => false
      | .trnStreamCfg _ _ => fld x.2 24 4 ≠ c
      | .trnStreamSt b e => fld (s.reg (.trnStreamCfg b e)) 24 4 ≠ c || !bit (s.reg (.trnStreamCfg b e)) 63
      | _ => true }

/-- Arrivals of a context's keys that are landing end with their culverts' stop. -/
def State.killArrivals (s : State) (c : Nat) : State :=
  let fs := s.flights.filter fun f => f.ctx = c && f.arrival.isSome
  let s := s.killAll fs
  fs.foldl (fun (s : State) (f : Flight) =>
    match f.arrival with | some (cu, x, _) => s.respond cu x .accessDenied | none => s) s

/-- Stack regions of a context: its own by the table, and the shadow regions recorded as its. -/
def State.ctxRegions (s : State) (c : Nat) : List Nat :=
  ((s.regions.filter fun r => r.ctx = c).map (·.entry)) ++ (s.ctx c).shadowRgns

/-- Scrubs are under way or due. -/
def State.scrubbing (s : State) : Bool := !s.scrubs.isEmpty

/-- The scrub's first cycle (R369): STATE 8, the context's arrivals ended and its levee entries gone, and the fill of its regions, of
rows + 1 cycles in every live basin. A divider change in progress ends first (R312). -/
def State.beginScrub (s : State) : State :=
  match s.scrubs with
  | [] => s
  | x :: rest =>
    if x.began.isSome ∨ s.power.divTo.isSome ∨ !(s.site = stFlow ∨ s.site = stDetaching) then s
    else
      let es := s.ctxLevees x.ctx
      let t := s.killArrivals x.ctx
      let t := t.liveBasins.foldl (fun (t : State) b =>
        (t.startFill b (leveeAreas es b) (s.cfg.rows + 1)).bump (.bsnArbSt b) 16 16) t
      let t := es.foldl (fun (t : State) e => (t.putReg (.bsnLeveeA e.1 e.2.1) 0).putReg (.bsnLeveeB e.1 e.2.1) 0) t
      { (t.setSite stScrub).logEvent with
        scrubs := { x with began := some (s.cycle, s.now, s.site), levees := es } :: rest }

/-- A scrub asked for: it begins at once where none is before it. -/
def State.askScrub (s : State) (c : Nat) (what : ScrubFor) : State :=
  ({ s with scrubs := s.scrubs ++ [(⟨c, what, none, []⟩ : ScrubRun)] }).beginScrub

/-- Descriptors 16 `k` to 16 `k` + 15 of every basin that are the context's, written zero, and what is kept of them. -/
def State.sweepDescs (s : State) (c k : Nat) : State :=
  let hit := fun (x : Nat) => dCtx (s.descOf (x / 16384) (x % 16384)) = c && x % 16384 / 16 = k && decide (x % 16384 < 16320)
  { s with
    desc := s.desc.filter fun x => !hit x.1, descChk := s.descChk.filter fun x => !hit x.1
    restores := s.restores.filter fun x => !hit (dkey x.1 x.2), placements := s.placements.filter fun x => !hit x.1 }

/-- Line `k` of every gauge array: the context's gauges written COUNT 0 and CTX 0. A line so written has its correctable bit put right
(R236). -/
def State.sweepLine (s : State) (c k : Nat) : State :=
  let hit := fun (b g : Nat) => s.gctx b g = c && g / 8 = k && decide (g < 4032)
  let t := (List.range s.cfg.basins).foldl (fun (t : State) b =>
    if (List.range 8).any fun i => hit b (8 * k + i) then t.mendLine b (8 * k) else t) s
  { t with
    gauge := t.gauge.filter fun x => !hit (x.1 / 4096) (x.1 % 4096)
    gaugeCtx := t.gaugeCtx.filter fun x => !hit (x.1 / 4096) (x.1 % 4096)
    dueIncs := t.dueIncs.filter fun d => !hit d.basin d.gauge }

/-- Every siphon has swept `n` of its pages: those of the context's regions, and of the shadow regions recorded as its, are invalid. -/
def State.sweepPages (s : State) (c n : Nat) : State :=
  let rs := s.regions.filter fun r => (s.ctxRegions c).contains r.entry
  let t := rs.foldl State.clearRegion s
  { t with
    pages := s.pages.filter fun k => t.pages.contains k || decide (n ≤ k % 2 ^ 20)
    combining := s.combining.filter fun p => t.combining.contains p || decide (n ≤ p.1 % 2 ^ 20) }

/-- The context's keys and the sessions its ring opened destroyed; the shadow regions, and on its end its own too, leave the table. -/
def State.destroyKeys (s : State) (c : Nat) (keep : Bool) : State :=
  let own := (s.regions.filter fun r => r.ctx = c).map (·.entry)
  let s := ((s.ctxRegions c).filter fun n => !(keep && own.contains n)).foldl State.dropRegion s
  let r := s.ctx c
  let s := (s.putCtx c { r with 
    keySlots := List.replicate 16 .empty, placed := if keep then r.placed else [], shadowRgns := [] }).loadKeys c 0
  { s with spdm := { s.spdm with sessions := s.spdm.sessions.filter fun x => x.ring ≠ c } }

/-- The scrub's work in its cycle `k` (R369), beside the fill: `root` root cycles have passed since it began. -/
def State.scrubWork (s : State) (c k root : Nat) (keep : Bool) : State :=
  let s := if k < 1020 then s.sweepDescs c k else s
  let s := if k < 504 then s.sweepLine c k else s
  let s := if k = 511 then s.clearEngines c else s
  -- 256 valid bits in a siphon cycle of six root cycles
  let s := if k < 5952 then s.sweepPages c (root / 6 * 256) else s
  if k = 6015 then s.destroyKeys c keep else s

/-! ### Interface states (R384) -/

def tdispUnlocked : Nat := 0
def tdispLocked : Nat := 1
def tdispRun : Nat := 2
def tdispErr : Nat := 3

def State.tdisp (s : State) (c : Nat) : Nat := s.rfld (.secCtxSt c) 4 4
def State.setTdisp (s : State) (c v : Nat) : State := s.putFld (.secCtxSt c) 4 4 v

/-- Levee entries, allotments and key slots are frozen once an interface is locked (R384). -/
def State.frozen (s : State) (c : Nat) : Bool := s.tdisp c = tdispLocked || s.tdisp c = tdispRun

/-! ### The end of a context -/

/-- A ring's registers and its rider's side cleared. -/
def State.clearRing (s : State) (r : Nat) : State :=
  let s := { s with regs := s.regs.filter fun (x : Reg × Word64) =>
    match x.1 with
    | .ringCmd k | .ringRpl k | .ringDb k | .ringHead k | .ringRtail k | .ringRhead k | .ringSt k => k ≠ r
    | _ => true }
  s.putRing r .empty

/-- SESSIONS of SEC_ST. -/
def State.showSessions (s : State) : State := s.putFld .secSt 32 8 s.spdm.sessions.length

/-- Destruction of a context begins (R223): its ring stops, its lists and packets end, its locks break, and it is scrubbed. `h` is the
packet that asks and is answered after the scrub; `keep` says that it is of the context's own ring. -/
def State.destroyContext (s : State) (c : Nat) (h : Option Handed) (keep : Bool) : State :=
  let alerts := match h with | some x => (s.marked x.src x.basin x.pkt Outcome.ok).alerts | none => 0
  let s := s.putFld (.ringSt c) 0 4 4
  let (s, lists, packets) := s.endWork c (if keep then h else none)
  let (s, locks) := s.breakLocks c
  s.askScrub c (.destroy h lists packets locks alerts)

/-- A destroyed context ceases to exist. -/
def State.removeContext (s : State) (c : Nat) : State :=
  let s := (s.clearRing c).putReg (.secCtxSt c) (Reg.resetValue s.cfg (.secCtxSt c))
  let s := { s.putCtx c .absent with
    active := if s.active = some c then none else s.active
    slotStats := s.slotStats.filter fun x => x.ctx ≠ c }
  s.showSessions

end Sys2Proof.Machine
end

