-- ==== Sys2Proof/Machine/Limits.lean ====
section
/-! DEFINITION. Configuration with an effect of its own: a context's limits and bounds (R182, R189), stream entries
(R112), the arbiters' configuration (R172), HASH_EN (R36). -/

namespace Sys2Proof.Machine

/-! ### A context's TRN_OT_CFG and TRN_LAT_CFG (R178, R182, R189) -/

def allOnes : Word64 := 0xFFFFFFFFFFFFFFFF

/-- Entries of a context's saved limits, in canonical form. -/
def putLimit (m : List (Nat × Nat × Word64)) (dflt : Word64) (b i : Nat) (v : Word64) : List (Nat × Nat × Word64) :=
  let rest := m.filter fun x => !(x.1 = b ∧ x.2.1 = i)
  if v = dflt then rest else (b, i, v) :: rest

/-- A turnout's limits set for a context: kept for its switch, and in the register while it is active. -/
def State.ctxOt (s : State) (c b t : Nat) (v : Word64) : State :=
  let r := s.ctx c
  let s := s.putCtx c { r with otCfg := putLimit r.otCfg allOnes b t v }
  if s.active = some c then s.putReg (.trnOtCfg b t) v else s

/-- EN and BOUND of a right set for a context. -/
def State.ctxBound (s : State) (c b right : Nat) (en : Bool) (bound : Nat) : State :=
  let r := s.ctx c
  let v : Word64 := BitVec.ofNat 64 (en.toNat * 2 ^ 63 + bound)
  let s := s.putCtx c { r with latCfg := putLimit r.latCfg 0 b right v }
  if s.active = some c then s.setBound b right en bound else s

/-- Load a context's limits and bounds into every basin, depths at zero, marks cleared (R189). -/
def State.loadLimits (s : State) (c : Nat) : State :=
  let r := s.ctx c
  let s := { s with
    regs := s.regs.filterMap fun (x : Reg × Word64) =>
      match x.1 with
      | .trnOtCfg _ _ | .trnLatCfg _ _ => none
      | .trnLatSt _ _ => if setFld x.2 0 16 0 = 0 then none else some (x.1, setFld x.2 0 16 0)
      | _ => some x
    regulators := (s.regulators.map fun (g : Regulator) => { g with exceeded := [], breached := [], afresh := [] }).filter
      fun g => g ≠ .idle g.basin }
  let s := r.otCfg.foldl (fun (s : State) x =>
    if x.2.1 < s.cfg.turnouts then s.putReg (.trnOtCfg x.1 x.2.1) x.2.2 else s) s
  let s := r.latCfg.foldl (fun (s : State) x => s.setBound x.1 x.2.1 (bit x.2.2 63) (fld x.2.2 0 16)) s
  (r.admissions.filter (·.suspended)).foldl (fun (s : State) a =>
    (bitsSet a.mask 64).foldl (fun (s : State) b => s.putFld (.trnLatCfg b a.right) 62 1 1) s) s

/-! ### Stream entries (R112) -/

/-- Write a stream entry: a change of STREAM or CTX makes it describe another stream. -/
def State.setStreamCfg (s : State) (b e : Nat) (v : Word64) : State :=
  let old := s.reg (.trnStreamCfg b e)
  let s := s.putReg (.trnStreamCfg b e) v
  if fld old 0 12 = fld v 0 12 ∧ fld old 24 4 = fld v 24 4 then s else s.putReg (.trnStreamSt b e) 0

/-! ### Arbiters (R172) -/

/-- Write bits of BSN_ARB_CFG: when AGE_N is among them the checks' counts go back to zero; a pending age turn stays
pending. -/
def State.setArbCfg (s : State) (b : Nat) (lanes v : Word64) : State :=
  let s := s.putReg (.bsnArbCfg b) v
  if lanes &&& maskOf 0 7 = 0 then s
  else { s with arbs := s.arbs.map fun (a : CheckArb) => if a.basin = b then { a with count := 0 } else a }

/-! ### HASH_EN (R36) -/

/-- A context's region in a basin. -/
def State.holdsRegion (s : State) (b : Nat) : Bool := (s.levees b).any fun l => l.kind ≠ 2

/-- Words of the live half of a reserve. -/
def liveReserve : Nat := 2048

/-- Copy words out through the site window: an uncorrectable word is loaded as zero (R235). -/
def State.copyOut (s : State) (b w n : Nat) : State × List (List Byte) :=
  (List.range n).foldl (fun (a : State × List (List Byte)) i =>
    let (s, d, bad) := a.1.readWord b (w + i) ⟨3, ditchTurnout⟩
    (s, a.2 ++ [if bad then List.replicate 64 0 else d])) (s, [])

def State.copyIn (s : State) (b w : Nat) (ws : List (List Byte)) : State :=
  ws.zipIdx.foldl (fun (s : State) x => s.writeWord b (w + x.2) x.1) s

/-- Change HASH_EN, the live half of the reserve kept at its offsets: copied out to the upper half of another live
basin's reserve and back. With no other live basin the words wait in the control core's data RAM, a case R36 does not give
(DESIGN CHOICE, log entry 68). -/
def State.changeHash (s : State) (b : Nat) (v : Word64) : State :=
  if s.reg (.bsnBankCfg b) = v then s
  else
    let w := s.cfg.reserve / 64
    let (s, ws) := s.copyOut b w liveReserve
    match s.liveBasins.find? (· ≠ b) with
    | some o =>
      let s := (s.copyIn o (w + liveReserve) ws).putReg (.bsnBankCfg b) v
      let (s, back) := s.copyOut o (w + liveReserve) liveReserve
      s.copyIn b w back
    | none => (s.putReg (.bsnBankCfg b) v).copyIn b w ws

end Sys2Proof.Machine
end

