-- ==== Sys2Proof/Machine/Admissions.lean ====
section
/-! DEFINITION. Admission of rights: `RIGHT_ADMIT` (R185, R186) and `RIGHT_RELEASE` (R187, R188). -/

namespace Sys2Proof.Machine

def admitFields : List (Nat × Nat × Nat) :=
  [(16, 0, 4), (18, 0, 16), (20, 0, 64), (28, 0, 16), (30, 0, 16), (32, 0, 16), (34, 0, 16), (36, 0, 16),
   (38, 0, 32), (42, 0, 32)]

end Sys2Proof.Machine

namespace Sys2Proof

open Machine

/-- The admission a `RIGHT_ADMIT` asks for (R185). -/
def Packet.admission (p : Packet) : Admission :=
  { right := p.p 16 0 4, bound := p.p 18 0 16, mask := BitVec.ofNat 64 (p.p 20 0 64), furrow := p.p 28 0 16
    vector := p.p 30 0 16, screen := p.p 32 0 16, flume := p.p 34 0 16, stack := p.p 36 0 16
    culOut := (List.range 4).map fun c => p.p (38 + c) 0 8, culIn := (List.range 4).map fun c => p.p (42 + c) 0 8
    suspended := false }

end Sys2Proof

namespace Sys2Proof.Machine

/-- A mask names a basin the configuration does not build, or one that is retired. -/
def State.unbuilt (s : State) (mask : Word64) : Bool := (bitsSet mask 64).any fun b => decide (b ≥ s.cfg.basins)
def State.maskRetired (s : State) (mask : Word64) : Bool := (bitsSet mask 64).any fun b => !s.live b

/-- Order 1 of R186. -/
def State.admitBad (s : State) (a : Admission) : Bool :=
  let perBasin := a.bound ≠ 0 || a.furrow ≠ 0 || a.vector ≠ 0 || a.screen ≠ 0 || a.flume ≠ 0
  let culs := a.culOut ++ a.culIn
  (1 ≤ a.bound && a.bound ≤ 63) || culs.any (fun v => decide (v > 200))
    || (!perBasin && a.stack = 0 && culs.all (· = 0)) || (perBasin && a.mask = 0) || s.unbuilt a.mask

/-- The words of a pool: code and basin, headroom or shortfall, capacity, the others' sum. -/
def State.poolWords (s : State) (others : List Admission) (p : Pool) (w1 : Nat) : Outcome :=
  Outcome.words (p.basin * 256 + p.code) w1 (s.admissible p) (reservedIn others p)

/-- The pool of least headroom, the first in test order among equals. -/
def leastRoom (room : Pool → Nat) : List Pool → Option Pool
  | [] => none
  | p :: rest => match leastRoom room rest with
    | some q => if room p ≤ room q then some p else some q
    | none => some p

/-- EN and BOUND cleared in the basins of a mask; SUSPENDED too. -/
def State.clearBounds (s : State) (c right : Nat) (mask : Word64) : State :=
  (bitsSet mask 64).foldl (fun (s : State) b =>
    let s := s.ctxBound c b right false 0
    if s.active = some c ∧ bit (s.reg (.trnLatCfg b right)) 62 then s.setSuspended b right false else s) s

/-- RIGHT_ADMIT's decision (R186). -/
def State.grantAdmission (s : State) (h : Handed) : State × Option Outcome :=
  let p := h.pkt
  let a := p.admission
  let r := s.ctx h.ctx
  let others := r.admissions.filter fun x => x.right ≠ a.right
  let total := fun (q : Pool) => reservedIn others q + a.inPool q
  if !p.reservedClear admitFields || s.admitBad a then (s, some (.refuse .badParam))
  else if s.maskRetired a.mask then (s, some (.refuse .notReady))
  else match s.pools.find? fun q => decide (total q > s.admissible q) with
  | some q => (s, some { s.poolWords others q (total q - s.admissible q) with status := .oversubscribed, refused := true })
  | none =>
    let room := fun (q : Pool) => s.admissible q - total q
    let o := match leastRoom room s.pools with
      | some q => s.poolWords others q (room q)
      | none => Outcome.ok
    let old := (r.admissions.filter fun x => x.right = a.right).foldl (fun m x => m ||| x.mask) (0 : Word64)
    let s := s.clearBounds h.ctx a.right (old &&& ~~~a.mask)
    let s := s.putCtx h.ctx { s.ctx h.ctx with admissions := others ++ [a] }
    let s := (bitsSet a.mask 64).foldl (fun (s : State) b =>
      let s := s.ctxBound h.ctx b a.right true a.bound
      if s.active = some h.ctx ∧ bit (s.reg (.trnLatCfg b a.right)) 62 then s.setSuspended b a.right false else s) s
    (s, some o)

/-- RIGHT_ADMIT (R184–R186). -/
def execRightAdmit (src : Src) (pkt : Packet) (s : State) : Host.Outcome State Fault Refusal :=
  ok (s.control src { pkt with opcode := 0x45 } State.grantAdmission)

/-- RIGHT_RELEASE's decision (R187). -/
def State.releaseRight (s : State) (h : Handed) : State × Option Outcome :=
  let p := h.pkt
  let right := p.p 16 0 4
  let r := s.ctx h.ctx
  if !p.reservedClear [(16, 0, 4)] then (s, some (.refuse .badParam))
  else
    let mine := r.admissions.filter fun x => x.right = right
    let old := mine.foldl (fun m x => m ||| x.mask) (0 : Word64)
    let s := s.clearBounds h.ctx right old
    let s := s.putCtx h.ctx { s.ctx h.ctx with admissions := r.admissions.filter fun x => x.right ≠ right }
    (s.recompute, some (Outcome.words mine.length 0 0 0))

/-- RIGHT_RELEASE (R187, R188). -/
def execRightRelease (src : Src) (pkt : Packet) (s : State) : Host.Outcome State Fault Refusal :=
  ok (s.control src { pkt with opcode := 0x46 } State.releaseRight)

end Sys2Proof.Machine
end

