-- ==== Sys2Proof/Machine/Arbiters.lean ====
section
/-! DEFINITION. Check arbiters (R156–R174): pending queues, decisions, parking, frozen cycles, and the scrubber (R166,
R249–R251). A beat of a packet's burst reads or writes its word of the tile in hand in its cycle; words no burst was sent
for are read and written at the tile's end (log
entry 17). A fetch and a window access have a burst of their own and move their data in its first beat's cycle. -/

namespace Sys2Proof.Machine

/-! ### Turnouts (R156, R157) -/

/-- Beats per cycle on a path. -/
def turnoutWidth (t : Nat) : Nat := if (20 ≤ t ∧ t ≤ 23) ∨ t ≥ 27 then 2 else 1

/-- Read and write paths of their own. -/
def duplex (t : Nat) : Bool := decide (16 ≤ t ∧ t ≤ 23)

/-- The scrub/fill and the headgate turnouts. -/
def scrubTurnout : Nat := 25
def headgateTurnout : Nat := 26

/-- Paths a beat of a kind takes: a reduce returns the old word over the read path (R167). -/
def pathsOf (k : BurstKind) : Nat := match k with | .read => 1 | .write => 2 | .reduce => 3

/-- The paths of a turnout that a beat takes, each with a width of its own: both of a duplex one, or the combined one (R157). -/
def pathSets (t paths : Nat) : List Nat :=
  if duplex t then [1, 2].filter fun p => Nat.land paths p ≠ 0 else if paths = 0 then [] else [3]

/-! ### Bank sides -/

/-- A bank side is free in a cycle: no beat on it, its check not frozen, no fill on its write side. -/
def State.sideFree (s : State) (b c bank : Nat) (w : Bool) (t : Nat) : Bool :=
  !(s.beats.any fun x => x.basin = b && x.bank = bank && x.write = w && x.cycle = t)
    && !s.frozenAt.contains (b, c, t)
    && !(w && s.fillRes.any fun f => f.basin = b && f.check = c && decide (f.lo ≤ t ∧ t < f.hi))

/-- Beats of a turnout that use a path in a cycle. -/
def State.pathUse (s : State) (b t path cyc : Nat) : Nat :=
  (s.beats.filter fun x => x.basin = b && x.turnout = t && x.cycle = cyc && Nat.land x.paths path ≠ 0).length

/-- Every path that beats of a kind take has room for `n` more in a cycle. -/
def State.pathsFree (s : State) (b t paths cyc n : Nat) : Bool :=
  (pathSets t paths).all fun p => decide (s.pathUse b t p cyc + n ≤ turnoutWidth t)

/-- The physical bank and check of word `i` of a burst. -/
def State.burstBank (s : State) (b : Nat) (e : Burst) (i : Nat) : Nat × Nat :=
  let k := (s.bankRow b (e.word + i)).1
  (s.physBank b k, k / 16)

/-- Bank sides a burst's word needs, with the cycles after its beat (R158, R167). -/
def sidesOf (k : BurstKind) : List (Bool × Nat) :=
  match k with
  | .read => [(false, 0)]
  | .write => [(true, 0)]
  | .reduce => [(false, 0), (true, 2)]

/-- The cycle of beat `i` of a burst that starts in `t0` (R158). -/
def Burst.beatCycle (e : Burst) (t0 i : Nat) : Nat := t0 + i / turnoutWidth e.turnout

/-- A burst fits from cycle `t0` (R163). -/
def State.burstFits (s : State) (b c : Nat) (e : Burst) (t0 : Nat) : Bool :=
  (List.range e.n).all fun i =>
    let cyc := e.beatCycle t0 i
    let mine := ((List.range e.n).filter fun j => e.beatCycle t0 j = cyc).length
    ((sidesOf e.kind).all fun x => s.sideFree b c (s.burstBank b e i).1 x.1 (cyc + x.2))
      && s.pathsFree b e.turnout (pathsOf e.kind) cyc mine

/-- The cycle a burst's last beat ends in (R177): data of a read two cycles on, the sum of a reduce two cycles on. -/
def Burst.endCycle (e : Burst) (t0 : Nat) : Nat :=
  e.beatCycle t0 (e.n - 1) + match e.kind with | .write => 0 | _ => 2

/-- The beats of a burst. -/
def State.burstBeats (s : State) (b c : Nat) (e : Burst) (t0 : Nat) : List Beat :=
  (List.range e.n).flatMap fun i =>
    (sidesOf e.kind).zipIdx.map fun x =>
      { basin := b, check := c, bank := (s.burstBank b e i).1, write := x.1.1, turnout := e.turnout
        paths := if x.2 = 0 then pathsOf e.kind else 0, cycle := e.beatCycle t0 i + x.1.2
        who := some e.who, word := e.word + i, arrived := e.arrived, first := i = 0 && x.2 = 0
        last := if i + 1 = e.n ∧ x.2 + 1 = (sidesOf e.kind).length then some (e.right, e.ready, e.endCycle t0)
          else none
        done := false }

/-! ### Checks -/

def CheckArb.idle (b c : Nat) : CheckArb := ⟨b, c, [], 0, false, 0, List.replicate 8 0⟩
def State.arb (s : State) (b c : Nat) : CheckArb :=
  (s.arbs.find? fun a => a.basin = b ∧ a.check = c).getD (.idle b c)
def State.putArb (s : State) (a : CheckArb) : State :=
  let rest := s.arbs.filter fun x => !(x.basin = a.basin ∧ x.check = a.check)
  { s with arbs := if a = .idle a.basin a.check then rest else a :: rest }

/-- AGE_N: 4–64; other values are treated as 8 (R172). -/
def State.arbAgeN (s : State) (b : Nat) : Nat :=
  let n := s.rfld (.bsnArbCfg b) 0 7
  if 4 ≤ n ∧ n ≤ 64 then n else 8

/-- The oldest queued entry of each turnout (R160). -/
def candidates : List Burst → List Nat → List Burst
  | [], _ => []
  | e :: rest, seen => if seen.contains e.turnout then candidates rest seen else e :: candidates rest (e.turnout :: seen)
def CheckArb.cands (a : CheckArb) : List Burst := candidates a.queue []

/-- Place of a turnout in the round-robin order of its QoS level. -/
def CheckArb.rrPlace (a : CheckArb) (e : Burst) : Nat := (e.turnout + 47 - a.rr.getD e.qos 0 % 47) % 47

/-- The longest-waiting candidate; ties by round-robin order (log entry 16). -/
def CheckArb.oldest (a : CheckArb) : Option Burst :=
  a.cands.foldl (fun (o : Option Burst) e => match o with
    | none => some e
    | some x => if e.arrived < x.arrived ∨ (e.arrived = x.arrived ∧ a.rrPlace e < a.rrPlace x) then some e else o) none

/-- Candidates by QoS descending, then in round-robin order. -/
def CheckArb.ranked (a : CheckArb) : List Burst :=
  (List.range 8).reverse.flatMap fun q => (List.range 47).flatMap fun p =>
    a.cands.filter fun e => e.qos = q ∧ a.rrPlace e = p

/-- An age turn that began before another's, the lower check first among those of one cycle (DEDUCED from the bound of
R171, log entry 72). -/
def CheckArb.before (a : CheckArb) (since c : Nat) : Bool := a.ageSince < since || (a.ageSince = since && a.check < c)

/-- A turnout is reserved by another check's age turn; against a check in an age turn itself, by an earlier one. -/
def State.turnoutReserved (s : State) (b c t : Nat) : Bool :=
  let mine := s.arb b c
  s.arbs.any fun a => a.basin = b && a.check ≠ c && a.ageTurn &&
    (!mine.ageTurn || a.before mine.ageSince c) &&
    (match a.oldest with | some e => decide (e.turnout = t) | none => false)

/-- A burst granted from cycle `t0`: its beats are reserved, the grant counted (R174). -/
def State.grantBurst (s : State) (b c : Nat) (e : Burst) (t0 : Nat) : State :=
  { s with beats := s.beats ++ s.burstBeats b c e t0 }.bump (.trnArbSt b e.turnout) 32 32

/-- Ordinary grants of a decision, in rank order. -/
def State.grantRanked (s : State) (b c n : Nat) : List Burst → State
  | [] => s
  | e :: rest =>
    let t := s.cycle + 1
    if s.burstFits b c e t && !s.turnoutReserved b c e.turnout then
      let a := s.arb b c
      let s := s.putArb { a with
        queue := a.queue.erase e, count := min (a.count + 1) (n - 1), rr := a.rr.set e.qos (e.turnout + 1) }
      (s.grantBurst b c e t).grantRanked b c n rest
    else s.grantRanked b c n rest

/-- The decision of check `c` in the present cycle (R163, R164). -/
def State.decision (s : State) (b c : Nat) : State :=
  let n := s.arbAgeN b
  let a := s.arb b c
  if a.ageTurn ∨ a.count + 1 ≥ n then
    match a.oldest with
    | none => s
    | some e =>
      if s.burstFits b c e (s.cycle + 1) && !s.turnoutReserved b c e.turnout then
        let s := s.putArb { a with queue := a.queue.erase e, count := 0, ageTurn := false }
        (s.grantBurst b c e (s.cycle + 1)).bump (.bsnArbSt b) 48 16
      else s.putArb { a with ageTurn := true, ageSince := if a.ageTurn then a.ageSince else s.cycle }
  else s.grantRanked b c n a.ranked

/-- Check `c` makes its decision of the cycle, once, where new beats may start in the next (R159, R331). -/
def State.decideOnce (s : State) (b c : Nat) : State :=
  if s.decided.contains (b, c) ∨ !s.mayIssueAt (s.cycle + 1) then s else { s.decision b c with decided := (b, c) :: s.decided }

/-- The checks of a basin in the order they choose in this cycle (R163). -/
def State.checkOrder (s : State) : List Nat :=
  (List.range s.cfg.checks).map fun i => (s.cycle + i) % s.cfg.checks

/-- The decisions of the checks that choose before check `c`, and its own. -/
def State.decideThrough (s : State) (b c : Nat) : State :=
  (s.checkOrder.take (s.checkOrder.idxOf c + 1)).foldl (fun (s : State) k => s.decideOnce b k) s

/-! ### Arrivals and parking -/

/-- The turnout a bank side is parked on in a cycle, and the cycle of its last beat (R165). -/
def State.parkedOn (s : State) (b bank : Nat) (w : Bool) : Option (Nat × Nat) :=
  let past := s.beats.filter fun x => x.basin = b && x.bank = bank && x.write = w && decide (x.cycle < s.cycle)
  let last := past.foldl (fun (o : Option Beat) x => match o with
    | none => some x | some y => if y.cycle ≤ x.cycle then some x else o) none
  match last with
  | some x => some (x.turnout, x.cycle)
  | none => (s.parks.find? fun p => p.basin = b ∧ p.bank = bank ∧ p.write = w).map fun p => (p.turnout, p.lastBeat)

/-- Another queued entry of a check needs a bank side. -/
def State.sideWanted (s : State) (b c bank : Nat) (w : Bool) : Bool :=
  (s.arb b c).queue.any fun e => (List.range e.n).any fun i =>
    (s.burstBank b e i).1 = bank && (sidesOf e.kind).any fun x => x.1 = w

/-- A request bypasses the decision (R165). -/
def State.bypasses (s : State) (b c : Nat) (e : Burst) : Bool :=
  ((List.range e.n).all fun i => (sidesOf e.kind).all fun x =>
    let k := (s.burstBank b e i).1
    ((s.parkedOn b k x.1).any fun p => p.1 = e.turnout) && !s.sideWanted b c k x.1)
    && s.mayIssue && !(s.arb b c).ageTurn && !s.turnoutReserved b c e.turnout && s.burstFits b c e s.cycle

/-- Bursts of a right outstanding at a turnout (R177): queued, or with their last beat to come. -/
def State.outstanding (s : State) (b t right : Nat) : Nat :=
  ((s.arbs.filter fun a => a.basin = b).map fun a =>
      (a.queue.filter fun e => e.turnout = t ∧ e.right = right).length).foldl (· + ·) 0
    + (s.beats.filter fun x => x.basin = b && x.turnout = t && match x.last with
      | some (r, _, stop) => decide (r = right ∧ s.cycle ≤ stop) | none => false).length

/-- QoS value of a request (R161, R246): by its right, WINDOW_QOS at the ditch-rider turnout, 7 for a restore. -/
def State.requestQos (s : State) (b t right : Nat) : Nat :=
  if right < 16 then s.rfld (.trnQosMap b) (4 * right) 3
  else if t = ditchTurnout then s.rfld (.bsnArbCfg b) 8 3
  else 7

/-- DEPTH, STEP and FLOOR give the current limit in bursts (R178). -/
def State.limitOf (s : State) (b t right : Nat) : Nat :=
  let step := s.rfld (.trnRegCfg b) 16 4
  max (s.rfld (.trnRegCfg b) 20 4)
    (s.rfld (.trnOtCfg b t) (4 * right) 4 - s.rfld (.trnLatCfg b right) 48 4 * (if step = 0 then 4 else step)) + 1

/-- At most four window accesses are outstanding in a basin (R175); a right has its limit. -/
def State.atLimit (s : State) (b t right : Nat) : Bool :=
  if right < 16 then decide (s.outstanding b t right ≥ s.limitOf b t right)
  else t = ditchTurnout && decide (s.outstanding b t right ≥ 4)

/-- A turnout's queue at the check a burst goes to is full (R160). -/
def State.queueFull (s : State) (b : Nat) (e : Burst) : Bool :=
  decide (4 ≤ ((s.arb b (s.burstBank b e 0).2).queue.filter fun x => x.turnout = e.turnout).length)

/-- A turnout may not issue a burst now. -/
def State.heldBack (s : State) (b : Nat) (e : Burst) : Bool := s.atLimit b e.turnout e.right || s.queueFull b e

/-- A burst reaches its check (R159, R160, R162, R165): it bypasses the decision on a parked bank, else it is queued. -/
def State.issue (s : State) (b : Nat) (e : Burst) : State :=
  let e := { e with arrived := s.cycle, qos := s.requestQos b e.turnout e.right }
  let c := (s.burstBank b e 0).2
  let a := s.arb b c
  if s.bypasses b c e then
    let s := s.putArb { a with count := min (a.count + 1) (s.arbAgeN b - 1) }
    (s.grantBurst b c e s.cycle).bump (.trnArbSt b e.turnout) 0 16
  else s.putArb { a with queue := a.queue ++ [e] }

/-- Bursts that waited at their turnouts and may go, oldest first. -/
def State.issueWaiting (s : State) : State :=
  s.turnWait.foldl (fun (s : State) x =>
    if s.heldBack x.1 x.2 then s else { s with turnWait := s.turnWait.erase x }.issue x.1 x.2) s

/-- A ready burst is issued, or waits at its turnout while its right is at its limit there or its queue is full (R160,
R175, R177). -/
def State.burstReady (s : State) (b : Nat) (e : Burst) : State :=
  if s.heldBack b e then { s with turnWait := s.turnWait ++ [(b, e)] } else s.issue b e

/-- A flight's gate admits a burst: words of the tile it reads, writes or adds into, asked for once. -/
def State.wants (s : State) (f : Flight) (b : Nat) (kind : BurstKind) (word n : Nat) : Bool :=
  let within := fun (d len : Nat) =>
    let w0 := dExtentBase (s.descOf b d) * 4
    decide (w0 ≤ word ∧ word + n ≤ w0 + cdiv len 64)
  ((List.range n).all fun i => !f.asked.contains (word + i)) && !f.aborted &&
  match f.phase with
  | .reading b' d => b' = b && kind = .read && within d (dPayloadLen (s.descOf b d))
  | .writing b' d => b' = b && if f.isReduce then kind = .reduce && within d (dPayloadLen (s.descOf b d))
      else kind = .write && within d ((f.made.map (·.bytes.length)).getD 0)
  | _ => false

/-- Turnout and right of a request (R161, R175, R176): a restore's and a window's carry none. A ring's writes are its replies, under the
right of its fetches (DESIGN CHOICE, log entry 17). -/
def State.sender (s : State) (b : Nat) (who : BurstSrc) (kind : BurstKind) (word n : Nat) : Option (Nat × Nat) :=
  match who with
  | .flight i => match s.flight? i with
    | some f => if s.wants f b kind word n then some (f.turnout, if f.restore then 16 else f.right) else none
    | none => none
  | .fetch (.list b' k) => if b' = b ∧ kind = .read then
      (s.lists.find? fun l => l.basin = b ∧ l.slot = k).map fun l => (ditchTurnout, l.right) else none
  | .fetch (.ring r) =>
    if r < 9 ∧ s.rfld (.ringCmd r) 40 4 ≠ 0 ∧ s.rfld (.ringCmd r) 48 8 = b ∧ kind ≠ .reduce then
      some (ditchTurnout, s.rfld (.ringCmd r) 44 4) else none
  | .fetch .headgate => none
  | .window => if kind = .reduce then none else some (ditchTurnout, 16)

/-- The words of a flight's burst are asked for. -/
def State.noteAsked (s : State) (who : BurstSrc) (word n : Nat) : State :=
  match who with
  | .flight i => match s.flight? i with
    | some f => s.putFlight { f with asked := f.asked ++ (List.range n).map (word + ·) }
    | none => s
  | _ => s

/-- A burst's shape (R158): 1 to 4 words of one group, within the basin. -/
def State.burstShape (s : State) (b word n : Nat) : Bool :=
  s.flowRuns && s.live b && decide (1 ≤ n ∧ n ≤ 4 ∧ word % 16 + n ≤ 16 ∧ (word + n) * 64 ≤ s.cfg.basinBytes)

/-- BURST_ARRIVAL (R158–R161, R175–R177): what no turnout has to ask for is no burst. Bursts that waited go first. -/
def execBurstArrival (b : Nat) (who : BurstSrc) (kind : BurstKind) (word n : Nat) (s : State) :
    Host.Outcome State Fault Refusal :=
  if !s.burstShape b word n then ok s
  else match s.sender b who kind word n with
  | none => ok s
  | some (t, right) =>
    ok ((s.issueWaiting.noteAsked who word n).burstReady b ⟨who, t, right, 0, kind, word, n, s.cycle, s.cycle⟩)

/-- A burst of a sender is at its turnout, in a queue or granted for a later cycle. -/
def State.burstOut (s : State) (b : Nat) (who : BurstSrc) (kind : BurstKind) (word : Nat) : Bool :=
  let is_ := fun (e : Burst) => e.who = who && e.kind = kind && e.word = word
  (s.turnWait.any fun x => x.1 = b && is_ x.2) || (s.arbs.any fun a => a.basin = b && a.queue.any is_)
    || s.beats.any fun x => x.basin = b && x.who = some who && x.write = (kind = .write) && x.word = word && decide (s.cycle < x.cycle)

/-- A beat of the present cycle at a word that its sender has not used yet. -/
def State.isBeat (s : State) (b : Nat) (who : BurstSrc) (write : Bool) (word : Nat) (x : Beat) : Bool :=
  x.basin = b && x.who = some who && x.write = write && x.word = word && x.cycle = s.cycle

/-- The sender uses the beat: its data move in this command. -/
def State.useBeat (s : State) (b : Nat) (who : BurstSrc) (write : Bool) (word : Nat) : State :=
  { s with beats := s.beats.map fun (x : Beat) => if s.isBeat b who write word x then { x with who := none } else x }

/-- A fetch or a window access moves its data in the cycle of its beat (R56, R158, R170): whether that is the present one. A burst that
is not under way yet is sent; it may bypass the decision (R165). -/
def State.beatFor (s : State) (b : Nat) (who : BurstSrc) (kind : BurstKind) (word n : Nat) : State × Bool :=
  let w := decide (kind = .write)
  if s.beats.any (s.isBeat b who w word) then (s.useBeat b who w word, true)
  else if s.burstOut b who kind word then (s, false)
  else match execBurstArrival b who kind word n s with
  | .next t => if t.beats.any (t.isBeat b who w word) then (t.useBeat b who w word, true) else (t, false)
  | _ => (s, false)

/-- CHECK_DECISION (R163, R164): the checks that choose earlier in this cycle choose first, and each once a cycle. -/
def execCheckDecision (b c : Nat) (s : State) : Host.Outcome State Fault Refusal :=
  if s.flowRuns ∧ c < s.cfg.checks then ok (s.issueWaiting.decideThrough b c) else ok s

/-- Decisions of the cycle not made yet. -/
def State.decideAll (s : State) : State :=
  let s := s.arbs.foldl (fun (s : State) a => s.decideThrough a.basin ((s.cycle + s.cfg.checks - 1) % s.cfg.checks)) s
  { s with decided := [] }

/-- A cycle of the stalls (R160, R174, R182): each right that a turnout of the basin holds at its limit, each turnout that
a full queue stops. -/
def State.countHeld (s : State) : State :=
  let lim := ((s.turnWait.filter fun x => x.2.right < 16 && s.atLimit x.1 x.2.turnout x.2.right).map
    fun x => (x.1, x.2.right)).eraseDups
  let full := ((s.turnWait.filter fun x => !s.atLimit x.1 x.2.turnout x.2.right).map fun x => (x.1, x.2.turnout)).eraseDups
  let s := lim.foldl (fun (s : State) x => s.bump (.trnLatSt x.1 x.2) 16 16) s
  full.foldl (fun (s : State) x => s.bump (.trnArbSt x.1 x.2) 16 16) s

/-! ### Beats that happen -/

/-- A read beat brings its word to the flight whose tile it is (R242, R151). -/
def State.readBeat (s : State) (x : Beat) : State :=
  match x.who with
  | some (.flight i) => match s.flight? i with
    | some f =>
      if f.asked.contains x.word then
        let (s, d, bad) := s.readWord x.basin x.word (if f.isReduce then ⟨1, f.turnout⟩ else f.reader)
        s.putFlight { f with got := f.got ++ [(x.word, d, bad)] }
      else s
    | none => s
  | _ => s

/-- A write beat lands its word of the tile made, or its sum with the old word (R45, R151). -/
def State.writeBeat (s : State) (x : Beat) : State :=
  match x.who with
  | some (.flight i) => match s.flight? i with
    | some f => match f.phase, f.plan, f.made with
      | .writing b d, .write _ _ role idx _ :: _, some m =>
        let v := s.descOf b d
        let i := x.word - dExtentBase v * 4
        if !f.asked.contains x.word then s
        else if f.isReduce then
          let old := (List.range (cdiv (dPayloadLen v) 64)).flatMap fun j =>
            ((f.got.find? fun g => g.1 = dExtentBase v * 4 + j).map (·.2.1)).getD (List.replicate 64 0)
          let bad := f.got.any fun g => g.1 = x.word && g.2.2
          (s.landSum b x.word (payloadWord (f.sums v role idx old).bytes i) bad).putFlight
            { f with landed := f.landed ++ [x.word] }
        else (s.writeWord b x.word (payloadWord m.bytes i)).putFlight { f with landed := f.landed ++ [x.word] }
      | _, _, _ => s
    | none => s
  | _ => s

/-- The beats of the present cycle happen: reads see the words as they were before its writes (R56, R170), and a burst's
first beat ends its wait (R173). -/
def State.landBeats (s : State) : State :=
  let now := s.beats.filter fun x => decide (x.cycle = s.cycle) && !x.done
  let s := (now.filter (!·.write)).foldl State.readBeat s
  let s := (now.filter (·.write)).foldl State.writeBeat s
  let s := (now.filter (·.first)).foldl (fun (s : State) x =>
    s.putFld (.bsnArbSt x.basin) 0 16 (max (s.rfld (.bsnArbSt x.basin) 0 16) (min 0xFFFF (x.cycle - x.arrived)))) s
  { s with beats := s.beats.map fun (x : Beat) => if x.cycle = s.cycle then { x with done := true } else x }

/-- A check freezes in the next cycle (R169): its beats from there on move one cycle later, and so do the cycles a fill
has reserved in it. -/
def State.freezeCheck (s : State) (b c : Nat) : State :=
  let t := s.cycle + 1
  { s with
    beats := s.beats.map fun (x : Beat) => if x.basin = b ∧ x.check = c ∧ x.cycle ≥ t then
      { x with cycle := x.cycle + 1, last := x.last.map fun (l : Nat × Nat × Nat) => (l.1, l.2.1, l.2.2 + 1) } else x
    fillRes := s.fillRes.map fun (f : FillRun) =>
      if f.basin = b ∧ f.check = c ∧ f.hi > t then { f with lo := if f.lo ≥ t then f.lo + 1 else f.lo, hi := f.hi + 1 } else f
    frozenAt := (b, c, t) :: s.frozenAt }

/-- A beat of a requester that no decision grants, in a cycle of its own: the scrubber's, the copier's, the headgate's. -/
def Beat.lone (b c bank : Nat) (w : Bool) (turnout cycle : Nat) : Beat :=
  { basin := b, check := c, bank := bank, write := w, turnout := turnout, paths := if w then 2 else 1, cycle := cycle
    who := none, word := 0, arrived := cycle, first := false, last := none, done := true }

/-- A single word taken in the next cycle by freezing its check (R169, R256): this cycle's beats happen before it, and the side stays
parked on the turnout that took it. -/
def State.takeSide (s : State) (b c bank : Nat) (w : Bool) (turnout : Nat) : State :=
  let s := s.landBeats.freezeCheck b c
  { s with beats := s.beats ++ [Beat.lone b c bank w turnout (s.cycle + 1)] }

/-- A headgate access and its bank (R169): whether it takes the bank side in the present cycle. One that has not reached its check yet
does so now and freezes it for the next cycle; none does in the 64 cycles before a change of FLOW_DIV (R312). -/
def State.headgateBeat (s : State) (b word : Nat) (w : Bool) : State × Bool :=
  let k := (s.bankRow b word).1
  let pb := s.physBank b k
  let mine := fun (x : Beat) => x.basin = b && x.bank = pb && x.write = w && x.turnout = headgateTurnout && x.word = word && !x.done
  if s.beats.any fun x => mine x && x.cycle = s.cycle then
    ({ s with beats := s.beats.map fun (x : Beat) => if mine x && x.cycle = s.cycle then { x with done := true } else x }, true)
  else if (s.beats.any fun x => mine x && decide (s.cycle < x.cycle)) || s.power.divTo.isSome || !s.flowRuns then (s, false)
  else
    let t := (s.landBeats.freezeCheck b (k / 16)).bump (.bsnArbSt b) 32 16
    ({ t with beats := t.beats ++ [{ Beat.lone b (k / 16) pb w headgateTurnout (s.cycle + 1) with word := word, done := false }] }, false)

/-- A side has been idle for 16 cycles: no beat, and no queued entry (R165). -/
def State.sideIdle (s : State) (b bank : Nat) : Bool :=
  let last := ((s.parkedOn b bank false).map (·.2)).getD 0
  decide (s.cycle ≥ last + 17)
    && !(s.beats.any fun x => x.basin = b && x.bank = bank && !x.write && decide (x.cycle ≥ s.cycle))
    && !((List.range s.cfg.checks).any fun c => s.sideWanted b c bank false)

def State.park (s : State) (p : Park) : State :=
  { s with parks := p :: s.parks.filter fun x => !(x.basin = p.basin ∧ x.bank = p.bank ∧ x.write = p.write) }

/-- PARK_ON_SCRUBBER (R165): `k` is a physical bank. -/
def execParkOnScrubber (b k : Nat) (s : State) : Host.Outcome State Fault Refusal :=
  if s.flowRuns ∧ s.live b ∧ k < s.cfg.physBanks ∧ s.sideIdle b k then
    ok (s.park ⟨b, k, false, scrubTurnout, s.cycle - 1⟩)
  else ok s

/-- Beats that have passed: each bank side stays parked on its last one, and a burst that has ended has its latency
(R179, R180): `exceeds` marks a right in its regulator. -/
def State.settleBeats (s : State) (exceeds : State → Nat → Nat → State) : State :=
  let done := s.beats.filter fun x => match x.last with | some (_, _, stop) => decide (stop = s.cycle) | none => false
  let s := done.foldl (fun (s : State) x => match x.last with
    | some (r, arrived, stop) =>
      if r ≥ 16 then s
      else
        let n := min 0xFFFF (stop - arrived)
        let s := s.putFld (.trnLatSt x.basin r) 0 16 (max (s.rfld (.trnLatSt x.basin r) 0 16) n)
        let cfg := s.reg (.trnLatCfg x.basin r)
        if bit cfg 63 ∧ fld cfg 0 16 ≠ 0 ∧ !bit cfg 62 ∧ stop - arrived > fld cfg 0 16 then exceeds s x.basin r else s
    | none => s) s
  let old := s.beats.filter fun x => decide (x.cycle + 2 < s.cycle)
  let s := old.foldl (fun (s : State) x => s.park ⟨x.basin, x.bank, x.write, x.turnout, x.cycle⟩) s
  { s with
    beats := s.beats.filter fun x => decide (s.cycle ≤ x.cycle + 2)
    frozenAt := s.frozenAt.filter fun f => decide (s.cycle ≤ f.2.2)
    fillRes := s.fillRes.filter fun f => decide (s.cycle < f.hi) }

/-! ### The scrubber (R249, R250) -/

def Scrubber.idle (b : Nat) : Scrubber := ⟨b, 0, [], [], 0, 0, 0, 0⟩
def State.scrubber (s : State) (b : Nat) : Scrubber := (s.scrubbers.find? fun x => x.basin = b).getD (.idle b)
def State.putScrubber (s : State) (x : Scrubber) : State :=
  { s with scrubbers := x :: s.scrubbers.filter fun y => y.basin ≠ x.basin }

/-- A request that needs a bank's read side reached its check in the cycle before (R166). -/
def State.justAsked (s : State) (b k : Nat) : Bool :=
  (s.beats.any fun x => x.basin = b && x.bank = k && !x.write && x.who.isSome && decide (x.arrived + 1 = s.cycle))
    || s.arbs.any fun a => a.basin = b && a.queue.any fun e => decide (e.arrived + 1 = s.cycle) &&
      (sidesOf e.kind).any (fun x => !x.1) && (List.range e.n).any fun i => (s.burstBank b e i).1 = k

/-- The check that freezes for a physical bank: that of the logical bank it serves. -/
def State.checkOfBank (s : State) (b pb : Nat) : Nat :=
  if pb < s.cfg.banks then pb / 16 else s.spareLogical b (pb - s.cfg.banks) / 16

/-- Physical banks whose read side is parked on the scrubber and which nothing else needs in this cycle. -/
def State.scrubBanks (s : State) (b : Nat) : List Nat :=
  (List.range s.cfg.physBanks).filter fun k =>
    ((s.parkedOn b k false).any fun p => p.1 = scrubTurnout)
      && !(s.beats.any fun x => x.basin = b && x.bank = k && !x.write && x.cycle = s.cycle)
      && !s.justAsked b k && !s.frozenAt.contains (b, s.checkOfBank b k, s.cycle)

/-- The bank the scrubber reads next: the parked one that follows the last in ascending order. -/
def State.scrubNext (s : State) (b : Nat) : Option Nat :=
  let ks := s.scrubBanks b
  match ks.find? fun k => k > (s.scrubber b).lastBank with
  | some k => some k
  | none => ks.head?

/-- A lap has ended: every row, descriptor and line has been read since it began. -/
def State.lapDone (s : State) (b : Nat) : Bool :=
  let x := s.scrubber b
  decide (x.descs ≥ 16384 ∧ x.lines ≥ 512) &&
    (List.range s.cfg.physBanks).all fun k => decide (nget x.done 0 k ≥ s.cfg.rows)

/-- The lap's length is recorded and the next lap begins in the following cycle. -/
def State.endLap (s : State) (b : Nat) : State :=
  if s.lapDone b then
    let x := s.scrubber b
    let n := min (2 ^ 32 - 1) (s.cycle + 1 - x.lapStart)
    let s := (s.putFld (.bsnScrubLap b) 32 32 n).putFld (.bsnScrubLap b) 0 32 (max n (s.rfld (.bsnScrubLap b) 0 32))
    (s.bump (.bsnScrubSt b) 32 32).putScrubber
      { x with done := [], descs := 0, lines := 0, lapStart := s.cycle + 1 }
  else s

/-- Count what the scrubber found and post a correction; an uncorrectable word is posted where it is read. -/
def State.scrubFound (s : State) (b : Nat) (kind : UnitKind) (unit loc : Nat) (f : Finding) : State :=
  match f with
  | .clean => s
  | .corrected i =>
    (s.bump (.bsnScrubSt b) 16 16).post
      { Event.of kind b unit clsCorrected .none with loc := loc, bit := i, lap := s.lapOf b }
  | .bad _ _ => s.bump (.bsnScrubSt b) 0 16

/-- A bank word at the bank's pointer. -/
def State.scrubBank (s : State) (b k : Nat) : State :=
  let x := s.scrubber b
  let row := nget x.rows 0 k % s.cfg.rows
  let f := findingOf (s.syndrome (s.cfg.wordNo b k (s.physRow b k row)))
  let (s, _, _) := s.readPhys b k row Reader.scrub
  let s := s.scrubFound b .bank k row f
  let s := { s with beats := s.beats ++ [Beat.lone b (s.checkOfBank b k) k false scrubTurnout s.cycle] }
  s.putScrubber { x with
    lastBank := k, rows := nset x.rows 0 k ((row + 1) % s.cfg.rows)
    done := nset x.done 0 k (min s.cfg.rows (nget x.done 0 k + 1)) }

/-- The canary row of a physical bank's check that is to be read next (R334). -/
def State.canaryNext (s : State) (b k : Nat) : Option Nat :=
  s.power.canaryDue.find? fun n => n / 2 = b * 16 + s.checkOfBank b k

/-- A canary row takes the scrubber's beat: it is read and the other pattern written (R334). -/
def State.readCanary (s : State) (b k n : Nat) : State :=
  let p := s.power
  { s with
    beats := s.beats ++ [Beat.lone b (s.checkOfBank b k) k false scrubTurnout s.cycle]
    power := { p with
      canaryDue := p.canaryDue.erase n
      canaryFlipped := if p.canaryFlipped.contains n then p.canaryFlipped.erase n else n :: p.canaryFlipped } }

/-- A descriptor, in the order of the walk. -/
def State.scrubDesc (s : State) (b d : Nat) : State :=
  let x := s.scrubber b
  let f := findingOf (nget s.descChk 0 (dkey b d))
  let s := ((s.readDesc b d).1.noteBadDesc b d 0xFF).scrubFound b .descLine d d f
  s.putScrubber { x with descs := x.descs + 1, walked := s.cycle + 1 }

/-- A gauge line, in the order of the walk. -/
def State.scrubLine (s : State) (b j : Nat) : State :=
  let x := s.scrubber b
  let f := findingOf (nget s.gaugeChk 0 (b * 512 + j))
  ((s.noteLine b j 0xFF).scrubFound b .gaugeLine j j f).putScrubber { x with lines := x.lines + 1, walked := s.cycle + 1 }

/-- The descriptor SRAM and the gauge array have had no access in this cycle, the scrubber's own included (R249). -/
def State.mayWalk (s : State) (b : Nat) : Bool := !s.sram.contains b && (s.scrubber b).walked ≠ s.cycle + 1

/-- SCRUB_READ (R166, R249, R250, R334): canary rows that are due go ahead of scrub words; a bank read needs a parked bank and is
one per cycle; a descriptor or a line is read, in order, in a cycle in which nothing else takes them. -/
def execScrubRead (b : Nat) (what : ScrubTarget) (s : State) : Host.Outcome State Fault Refusal :=
  if !(s.flowRuns && s.power.divTo.isNone && s.live b && bit (s.reg (.bsnScrubCfg b)) 0) then ok s
  else match what with
  | .bank k =>
    let one := !(s.beats.any fun x => x.basin = b && x.turnout = scrubTurnout && x.cycle = s.cycle)
    if one && s.scrubNext b = some k then
      match s.canaryNext b k with
      | some n => ok (s.readCanary b k n)
      | none => ok ((s.scrubBank b k).endLap b)
    else ok s
  | .desc d => if s.mayWalk b ∧ d = (s.scrubber b).descs % 16384 then ok ((s.scrubDesc b d).endLap b) else ok s
  | .line j => if s.mayWalk b ∧ j = (s.scrubber b).lines % 512 then ok ((s.scrubLine b j).endLap b) else ok s

end Sys2Proof.Machine
end

