-- ==== Sys2Proof/Machine/Settings.lean ====
section
/-! DEFINITION. `CONFIG_SET` (R227): the items, their ranges, their outcomes. -/

namespace Sys2Proof.Machine

def configFields : List (Nat × Nat × Nat) := [(16, 0, 8), (17, 0, 16), (24, 0, 64), (32, 0, 64)]

/-- Bits an item's VALUE may set. -/
def itemMask (item : Nat) : Word64 :=
  match item with
  | 0x01 => 0x7777777777777777
  | 0x02 => 0x77F
  | 0x03 => 0xFF0F1F
  | 0x04 => 1
  | 0x05 => 0x1FFFF
  | 0x08 => 0x800000000000FFFF
  | 0x09 => 0xFFFCFFFF0F000FFF
  | _ => allOnes

/-- VALUE lies in its register's range (R51, R112, R172, R181, R182, R195). -/
def itemRange (item : Nat) (v : Word64) : Bool :=
  v &&& ~~~(itemMask item) = 0 && match item with
    | 0x02 => decide (4 ≤ fld v 0 7 ∧ fld v 0 7 ≤ 64)
    | 0x03 => decide (8 ≤ fld v 0 5 ∧ fld v 0 5 ≤ 20 ∧ 1 ≤ fld v 8 4 ∧ 1 ≤ fld v 16 4)
    | 0x05 => decide (10 ≤ v.toNat ∧ v.toNat ≤ 100000)
    | 0x06 => decide (10 ≤ v.toNat ∧ v.toNat ≤ 10000)
    | 0x08 => decide (fld v 0 16 = 0 ∨ 64 ≤ fld v 0 16)
    | 0x09 => (fld v 56 4 = 0 || fld v 56 4 = 2 || fld v 56 4 = 4) && decide (fld v 0 12 ≠ 0)
    | 0x0A => decide (v ≠ 0)
    | _ => true

/-- Order 1 of R227: an item whose INDEX has no meaning takes INDEX zero. -/
def State.configBad (s : State) (item idx : Nat) (v mask : Word64) : Bool :=
  let limit := if item = 0x07 then s.cfg.turnouts else if item = 0x08 then 16 else 1
  item = 0 || item > 0x0A || decide (idx ≥ limit) || !itemRange item v
    || (item ≠ 0x06 && (mask = 0 || s.unbuilt mask))

/-- The entry item 0x09 uses: the lowest that in every masked basin holds this stream for the context or is free. -/
def State.streamSlot (s : State) (c stream : Nat) (bs : List Nat) : Option Nat :=
  (List.range 256).find? fun e => bs.all fun b =>
    let v := s.reg (.trnStreamCfg b e)
    !bit v 63 || (fld v 0 12 = stream && fld v 24 4 = c)

/-- Item 0x0A: the lowest masked basin that is live, not pending, and has the space (R43). R43 names the lack of space
alone; a basin with no free levee entry is passed over as one without space (DESIGN CHOICE, log entry 68). -/
def State.placeBuffer (s : State) (c : Nat) (bytes : Nat) (bs : List Nat) : State × Outcome :=
  let bs := bs.filter fun b => s.live b && !s.retiring.contains b
  let need := cdiv (2 * bytes) 256
  let fit := bs.findSome? fun b =>
    if (s.freeLevee b).isNone then none
    else (lowestFit (s.takenIn b) s.cfg.spaceGranules need).map fun base => (b, base)
  if bs.isEmpty then (s, .refuse .notReady)
  else match fit with
  | some (b, base) =>
    let r := s.ctx c
    let s := s.putCtx c { r with placed := r.placed ++ [⟨b, base, need, none⟩] }
    (s.addLevee b 0 c base need (0, 0, 0, 0), Outcome.words b base 0 0)
  | none =>
    let most := (bs.map fun b => longestRun (s.takenIn b) s.cfg.spaceGranules).foldl max 0
    (s, { Outcome.words most 0 0 0 with status := .noSpace, refused := true })

/-- Write one item in one basin. -/
def State.putItem (s : State) (c item idx : Nat) (v : Word64) (b : Nat) : State :=
  match item with
  | 0x01 => s.putReg (.trnQosMap b) v
  | 0x02 => s.setArbCfg b (maskOf 0 64) v
  | 0x03 => s.putReg (.trnRegCfg b) v
  | 0x04 => s.changeHash b v
  | 0x05 => s.putReg (.bsnTileCfg b) v
  | 0x07 => s.ctxOt c b idx v
  | _ => s.ctxBound c b idx (bit v 63) (fld v 0 16)

/-- CONFIG_SET's decision (R227). -/
def State.configSet (s : State) (h : Handed) : State × Option Outcome :=
  let p := h.pkt
  let item := p.p 16 0 8
  let idx := p.p 17 0 16
  let v : Word64 := BitVec.ofNat 64 (p.p 24 0 64)
  let mask : Word64 := BitVec.ofNat 64 (p.p 32 0 64)
  let bs := bitsSet mask 64
  let own := s.ctxOf h.src
  let mayOwner := match own with | none => true | some c => (s.ctx c).ownerItems
  if !p.reservedClear configFields || s.configBad item idx v mask then (s, some (.refuse .badParam))
  else if (item ≤ 6 && !mayOwner) || (item ≥ 7 && own.isNone) then (s, some (.refuse .accessDenied))
  else if item = 0x06 then ({ s with auditNext := v.toNat }, some Outcome.ok)
  else if item = 0x0A then
    -- levee entries of a locked interface are frozen (R384)
    if s.frozen h.ctx ∧ bs.any (fun b => s.live b && !s.retiring.contains b) then (s, some (.refuse .refusedState))
    else
      let (s, o) := s.placeBuffer h.ctx v.toNat bs
      (s, some o)
  else if s.maskRetired mask then (s, some (.refuse .notReady))
  else if item = 0x04 ∧ bs.any s.holdsRegion then (s, some (.refuse .refusedState))
  else if item = 0x08 ∧ (s.ctx h.ctx).admissions.any (fun a => a.right = idx) then (s, some (.refuse .busy))
  else if item = 0x09 then
    match s.streamSlot h.ctx (fld v 0 12) bs with
    | none => (s, some (.refuse .busy))
    | some e =>
      let v := setFld v 24 4 h.ctx
      (bs.foldl (fun (s : State) b => s.setStreamCfg b e v) s, some (Outcome.words e 0 0 0))
  else (bs.foldl (fun (s : State) b => s.putItem h.ctx item idx v b) s, some Outcome.ok)

/-- CONFIG_SET (R227, R36, R43). -/
def execConfigSet (src : Src) (pkt : Packet) (s : State) : Host.Outcome State Fault Refusal :=
  ok (s.control src { pkt with opcode := 0x4D } State.configSet)

end Sys2Proof.Machine
end

