-- ==== Sys2Proof/Machine/ContextPackets.lean ====
section
/-! DEFINITION. The life of contexts: `CTX_CREATE` (R220, R221), `CTX_SWITCH` (R189, R222), `CTX_DESTROY` (R223). -/

namespace Sys2Proof

/-- The context a lifecycle packet names. -/
def Packet.named (p : Packet) : Nat := p.p 16 0 3

end Sys2Proof

namespace Sys2Proof.Machine

/-- An earlier lifecycle packet of the context has been accepted and still runs (R219). -/
def State.lifecycleBusy (s : State) (h : Handed) : Bool :=
  s.handed.any fun x => x ≠ h && x.accepted && (x.pkt.op = 0x42 || x.pkt.op = 0x43 || x.pkt.op = 0x44)
    && x.pkt.named = h.pkt.named

/-! ### CTX_CREATE -/

def createFields : List (Nat × Nat × Nat) :=
  [(16, 0, 5), (17, 0, 6), (18, 0, 8), (19, 0, 4), (20, 0, 64), (28, 0, 16), (30, 0, 16), (32, 0, 1)]

/-- What a `CTX_CREATE` asks for. -/
structure CreateAsk where
  ctx : Nat
  ownerItems : Bool
  home : Nat
  rplLog : Nat
  cmdLog : Nat
  right : Nat
  mask : Word64
  kib : Nat
  stack : Nat
  islocal : Bool
  deriving DecidableEq, Repr

end Sys2Proof.Machine

namespace Sys2Proof

open Machine

def Packet.createAsk (p : Packet) : CreateAsk :=
  { ctx := p.named, ownerItems := p.p 16 3 1 = 1, home := p.p 17 0 6, rplLog := p.p 18 4 4, cmdLog := p.p 18 0 4
    right := p.p 19 0 4, mask := BitVec.ofNat 64 (p.p 20 0 64), kib := p.p 28 0 16, stack := p.p 30 0 16
    islocal := p.p 32 0 1 = 1 }

end Sys2Proof

namespace Sys2Proof.Machine

/-- Granules of the command and of the reply ring. -/
def CreateAsk.cmdGranules (a : CreateAsk) : Nat := 2 ^ a.cmdLog / 4
def CreateAsk.rplGranules (a : CreateAsk) : Nat := 2 ^ a.rplLog / 8
def CreateAsk.len (a : CreateAsk) : Nat := a.kib * 4

/-- Order 1 of R220. -/
def State.createBad (s : State) (a : CreateAsk) : Bool :=
  let logs := !(4 ≤ a.rplLog && a.rplLog ≤ 9 && 4 ≤ a.cmdLog && a.cmdLog ≤ 9)
  logs || s.unbuilt a.mask || !bit a.mask a.home || a.kib = 0 || a.kib % 64 ≠ 0
    || decide (a.len < a.cmdGranules + a.rplGranules) || decide (a.len > s.cfg.spaceGranules)
    || (a.islocal && (a.stack = 0 || decide (s.cfg.siphons * 2 ≠ s.cfg.basins)
      || decide (s.siphonsUp.length ≠ s.cfg.siphons) || a.stack % max 1 s.cfg.siphons ≠ 0))

/-- What is taken in any basin of a mask: a region takes the same offset in each. -/
def State.takenInAll (s : State) (bs : List Nat) : List (Nat × Nat) := bs.flatMap s.takenIn

/-- A context created (R220, R363): regions and allotments, rings, stack region, registers, keys. -/
def State.createContext (s : State) (a : CreateAsk) (base : Nat) (stack : Option (Nat × Nat × Nat)) : State :=
  let bs := bitsSet a.mask 64
  let al := s.cfg.allotment base a.len
  let s := bs.foldl (fun (s : State) b => (s.addLevee b 0 a.ctx base a.len al).ownAllotment b a.ctx al) s
  let s := match stack with
    | some (n, u, phys) => s.addRegion n a.islocal a.ctx phys a.stack u (s.newSet a.islocal)
    | none => s
  let s := s.clearRing a.ctx
  let s := s.putReg (.ringCmd a.ctx)
    (BitVec.ofNat 64 (a.home * 2 ^ 48 + a.right * 2 ^ 44 + a.cmdLog * 2 ^ 40 + base))
  let s := s.putReg (.ringRpl a.ctx) (BitVec.ofNat 64 (a.rplLog * 2 ^ 40 + base + a.cmdGranules))
  let s := (s.putFld (.ringSt a.ctx) 0 4 2).putReg (.secCtxSt a.ctx) (Reg.resetValue s.cfg (.secCtxSt a.ctx))
  let r : CtxRec :=
    { CtxRec.absent with
      resident := true, ownerItems := a.ownerItems, createNo := s.freeUses + 1, homeBasin := a.home, mask := a.mask
      base := base, len := a.len, stackRgn := stack.map (·.1), keyGen := s.freeUses + 1 }
  ((s.putCtx a.ctx r).loadKeys a.ctx (s.freeUses + 1)).useFree

/-- CTX_CREATE without RECOVER. A masked basin with no free levee entry is one where no offset is free: word 1 is 0 (DESIGN CHOICE, log
entry 82). -/
def State.create (s : State) (h : Handed) (entropyOk : Bool) : State × Option Outcome :=
  let a := h.pkt.createAsk
  let bs := bitsSet a.mask 64
  let base := if bs.any fun b => (s.freeLevee b).isNone then none
    else lowestFit (s.takenInAll bs) s.cfg.spaceGranules a.len
  let refuse := fun (o : Outcome) => (s, some o)
  if s.createBad a then refuse (.refuse .badParam)
  -- after a debug unlock no context is created until the next start (R372)
  else if s.unlocked then refuse (.refuse .refusedState)
  else if s.resident a.ctx ∨ s.lifecycleBusy h then refuse (.refuse .busy)
  else if s.maskRetired a.mask ∨ bs.any s.retiring.contains then refuse (.refuse .notReady)
  else match base with
  | none =>
    refuse { Outcome.words (longestRun (s.takenInAll bs) s.cfg.spaceGranules) 0 0 0 with
      status := .noSpace, refused := true }
  | some base =>
    let stack := if a.stack = 0 then none else s.fitStack a.islocal a.stack
    if a.stack ≠ 0 ∧ stack.isNone then
      refuse { Outcome.words (s.longestStack a.islocal) 1 0 0 with status := .noSpace, refused := true }
    else if !entropyOk then refuse { Outcome.refuse .internal with refused := false }
    else
      (s.createContext a base stack, some (Outcome.words base base (base + a.cmdGranules)
        ((stack.map fun x => x.2.1).getD 0)))

/-- CTX_CREATE with RECOVER (R221, R384). -/
def State.recover (s : State) (h : Handed) : State × Option Outcome :=
  let c := h.pkt.named
  if h.pkt.params ≠ BitVec.ofNat 384 (16 + c) then (s, some (.refuse .badParam))
  else if (h.src ≠ .ring 8 ∧ h.src ≠ .ring c) ∨ !(s.ctx c).faulted ∨ s.rfld (.secCtxSt c) 4 4 ≠ 0 then
    (s, some (.refuse .refusedState))
  else if s.lifecycleBusy h then (s, some (.refuse .busy))
  else
    let n := (s.lists.filter fun l => l.ctx = c).length
    let s := { s with lists := s.lists.filter fun l => l.ctx ≠ c }
    let s := s.putFld (.ringHead c) 0 32 (s.ringTail c)
    let s := s.putCtx c { s.ctx c with faulted := false }
    let s := if s.ringState c = 3 then s.putFld (.ringSt c) 0 4 (if s.active = some c then 1 else 2) else s
    (s, some (Outcome.words n 0 0 0))

/-- CTX_CREATE (R220, R221). -/
def execCtxCreate (src : Src) (pkt : Packet) (entropyOk : Bool) (s : State) : Host.Outcome State Fault Refusal :=
  ok (s.control src { pkt with opcode := 0x42 } fun s h =>
    if h.pkt.isRecovery then s.recover h
    else if !h.pkt.reservedClear createFields then (s, some (.refuse .badParam))
    else s.create h entropyOk)

/-! ### CTX_SWITCH -/

/-- The active context put to rest: its ring pauses, nothing more of it is dispatched. -/
def State.pauseActive (s : State) : State :=
  match s.active with
  | none => s
  | some c =>
    let s := if s.ringState c = 1 then s.putFld (.ringSt c) 0 4 2 else s
    { s with active := none }

/-- Packets of contexts at work at the engines. -/
def State.packetsRun (s : State) : Bool := s.flights.any fun f => f.arrival.isNone && !f.restore

/-- CTX_SWITCH's decision: it stays in Rosog's hands until the outgoing context's dispatched packets have completed. -/
def State.switchTo (s : State) (h : Handed) : State × Option Outcome :=
  let c := h.pkt.named
  if !h.pkt.reservedClear [(16, 0, 3)] then (s, some (.refuse .badParam))
  else if !s.resident c then (s, some (.refuse .badParam))
  else if s.active = some c then (s, some Outcome.ok)
  else if s.lifecycleBusy h then (s, some (.refuse .busy))
  else
    let s := s.pauseActive
    if s.packetsRun then (s, none)
    else
      let s : State := { s.loadLimits c with active := some c }
      let s := if s.ringState c = 2 then s.putFld (.ringSt c) 0 4 1 else s
      (s.recompute, some Outcome.ok)

/-- CTX_SWITCH (R189, R222, R366). -/
def execCtxSwitch (src : Src) (pkt : Packet) (s : State) : Host.Outcome State Fault Refusal :=
  ok (s.control src { pkt with opcode := 0x43 } State.switchTo)

/-! ### CTX_DESTROY -/

/-- A context destroyed by a packet of its own ring (R223): the final reply goes to ring 8, in a slot reserved there
first and held until then; while none is free the packet waits. -/
def State.selfDestroy (s : State) (h : Handed) (c : Nat) : State :=
  if !s.rplFree 8 then s
  else
    let s := s.putRing 8 { s.ring 8 with reserved := (s.ring 8).reserved + 1 }
    s.destroyContext c (some h) true

/-- CTX_DESTROY's decision. -/
def State.destroy (s : State) (h : Handed) : State × Option Outcome :=
  let c := h.pkt.named
  let own := s.ctxOf h.src
  -- it stays in Rosog's hands until its scrub is over
  if s.scrubs.any (·.ctx = c) ∧ h.begun then (s, none)
  else if !h.pkt.reservedClear [(16, 0, 3)] then (s, some (.refuse .badParam))
  else if own.isSome ∧ own ≠ some c then (s, some (.refuse .accessDenied))
  else if !s.resident c then (s, some (.refuse .badParam))
  else if s.ringState c = 4 ∨ s.lifecycleBusy h then (s, some (.refuse .busy))
  else if own = some c then (s.selfDestroy h c, none)
  else (s.destroyContext c (some h) false, none)

/-- CTX_DESTROY (R223, R368–R370). -/
def execCtxDestroy (src : Src) (pkt : Packet) (s : State) : Host.Outcome State Fault Refusal :=
  ok (s.control src { pkt with opcode := 0x44 } State.destroy)

end Sys2Proof.Machine
end

