-- ==== Sys2Proof/Machine/Cold.lean ====
section
/-! DEFINITION. What a start leaves (R313, R339, R348): volatile state at its first value, the cistern, the fuses and
the pins as they were; and the replies a ditch rider writes (R202). -/

namespace Sys2Proof.Machine

/-- Registers of the always-on domain (R337, R350, R426). -/
def Reg.alwaysOn (r : Reg) : Bool := r.block = .pwr || r = .devStartSt || r = .devStartRes || r = .devMgtAlert

/-- Registers whose values the cistern holds (R257, R409). -/
def Reg.inCistern : Reg → Bool
  | .cstFwSt | .bsnSpareMap _ | .bsnRemap _ _ _ => true
  | _ => false

/-- The unit summary with no test running. -/
def restUnits (us : List UnitRec) : List UnitRec :=
  (us.map fun (u : UnitRec) => { u with testing := false, heldSlot := none, waitFrom := none, reply := [] }).filter fun (u : UnitRec) =>
    u ≠ .fresh u.kind u.basin u.unit

/-- The site with everything volatile lost: no basin is live, ring 8 is absent, no bank group is on, the PLL is off.
`keep` says which registers stay. Spare lanes of a link stand in the cistern (R310, R413). -/
def State.goneCold (s : State) (keep : Reg → Bool) : State :=
  let z := State.reset
  let t : State := { z with
    pending := s.pending, cfg := s.cfg, freeUses := s.freeUses, cistern := { s.cistern with units := restUnits s.cistern.units }
    running := s.running
    start := { s.start with
      released := false, fencing := false, fenceAck := true, cold := false, retest := false, noReturn := false }
    mgt := { s.mgt with owner := false, nonce := none, resp := [], ibi := [], nack := false, stateEntry := false }
    tap := s.tap, regs := s.regs.filter fun x => keep x.1 || x.1.inCistern
    remapped := s.remapped
    spdm := { z.spdm with aliasGen := s.spdm.aliasGen, measured2 := s.spdm.measured2 } }
  let t := (List.range s.cfg.siphons).foldl (fun (t : State) i =>
    -- the stack is held in reset until its training (R410)
    (t.putFld (.sphLinkSt i) 16 8 (s.rfld (.sphLinkSt i) 16 8)).putFld (.sphSt i) 8 4 0) t
  let t := (List.range 4).foldl (fun (t : State) c => t.putFld (.culSt c) 32 16 (s.rfld (.culSt c) 32 16)) t
  let t := ((t.putReg .devBasinLive 0).putReg (.ringCmd 8) 0).putReg (.ringRpl 8) 0
  let t := (t.putReg (.ringSt 8) 0).putFld .clkSt 0 1 0
  (List.range s.cfg.basins).foldl (fun (t : State) b => t.putReg (.pwrBasinSt b) 0) t

/-! ### Request credits (R194, R323, R411, R415) -/

/-- Culverts grant new request credits: not in step 4 of an entry, nor with their links held idle. -/
def State.grantsCredits (s : State) : Bool :=
  !(s.power.entry.any fun e => e.step = 4) && !(s.site = stPond || s.site = stTrickle)

/-- Request credits a culvert has granted the mesh (R194, R415): while it is up, all that its request buffer has room for, each
against a free response slot; in a fence, or while none are granted, those that were out when it began. -/
def State.creditsOut (s : State) (c : Nat) : Nat :=
  let cv := s.culvert c
  let room := min (1024 - (cv.inbox.map (·.2.1)).foldl (· + ·) 0) (256 - cv.inbox.length - cv.responses.length)
  if s.culState c = culUp then (if s.grantsCredits then room else min cv.owed room)
  else if s.culState c = culFenced then cv.owed
  else 0

/-- The credits that are out as granting stops. -/
def State.stopCredits (s : State) : State :=
  (List.range 4).foldl (fun (s : State) c =>
    if s.culState c = culUp then s.putCulvert c { s.culvert c with owed := s.creditsOut c } else s) s

/-- Service time, the event sequence number and the unit summary written to the cistern (R269, R314). -/
def State.persist (s : State) : State :=
  { s with cistern := { s.cistern with savedS := s.cistern.serviceS, eventSeq := (s.reg .clkEventSeq).toNat } }

/-! ### Replies written (R202) -/

/-- Write the oldest waiting reply of a ring: one that holds a slot first, else one that finds a free slot beyond those
reserved. -/
def State.replyOut (s : State) (r : Nat) : State :=
  let q := s.ring r
  match q.waiting, q.unreserved with
  | rp :: rest, _ => (s.putRing r { q with waiting := rest, reserved := q.reserved - 1 }).writeReply r rp
  | [], rp :: rest => if s.rplFree r then (s.putRing r { q with unreserved := rest }).writeReply r rp else s
  | [], [] => s

/-- Every reply of a ring that can be written. -/
def State.repliesOut (s : State) (r : Nat) : State :=
  (List.range ((s.ring r).waiting.length + (s.ring r).unreserved.length)).foldl (fun (s : State) _ => s.replyOut r) s

end Sys2Proof.Machine
end

