-- ==== Sys2Proof/Machine/Sleep.lean ====
section
/-! DEFINITION. Site states: `POWER_STATE` (R328), the entry into a sleep state, its refusal and its abort (R322–R327),
wakes and `TRICKLE` samples (R319–R322, R329). -/

namespace Sys2Proof.Machine

/-! ### Drain (R326) -/

def State.basinBusy (s : State) (b : Nat) : Bool :=
  (s.flights.any fun f => f.basin = b) || (s.restores.any fun x => x.1 = b)
    || (s.arbs.any fun a => a.basin = b && !a.queue.isEmpty) || (s.turnWait.any fun x => x.1 = b)
    || (s.beats.any fun x => x.basin = b && x.who.isSome && !x.done)
    || (s.fillRes.any fun x => x.basin = b && decide (s.cycle < x.hi))
    || s.cistern.units.any fun u => u.basin = b && u.testing

def State.siphonBusy (s : State) (i : Nat) : Bool :=
  !(s.siphon i).queue.isEmpty || !(s.siphon i).granted.isEmpty || s.combining.any fun x => x.1 / 2 ^ 20 = i

def State.culvertBusy (s : State) (c : Nat) : Bool :=
  ((s.culvert c).exchanges.any (·.sent)) || !(s.culvert c).responses.isEmpty

/-- A control or security packet is being executed, other than the one that asks (R326). A test that waits for its unit
is not executed (R280). -/
def State.coreBusy (s : State) (me : Option (Src × Packet)) : Bool :=
  s.handed.any fun h => h.begun && h.pkt.op ≠ 0x49 && some (h.src, h.pkt) ≠ me

/-- Codes of the blocks that have something in flight, in rising order (R337). -/
def State.refusers (s : State) (me : Option (Src × Packet)) : List Nat :=
  (List.range s.cfg.basins).filter s.basinBusy
    ++ ((List.range s.cfg.siphons).filter s.siphonBusy).map (0x40 + ·)
    ++ ((List.range 4).filter s.culvertBusy).map (0x60 + ·)
    ++ (if s.coreBusy me then [0x70] else [])

/-- NAME of a refuser (R337): six ASCII characters; the spec spells basins of two digits and culverts alone, the characters of
other names are left open. -/
def refuserName (code : Nat) : Nat :=
  if 10 ≤ code ∧ code < 64 then
    leNat ([0x42, 0x53, 0x4E] ++ digits 2 code ++ [0x20])
  else if 0x60 ≤ code ∧ code < 0x64 then
    leNat [0x43, 0x55, 0x4C, 0x2D, [0x4E, 0x45, 0x53, 0x57].getD (code - 0x60) 0, 0x20]
  else leNat ((List.range 6).map fun i => BitVec.ofNat 8 (0x20 + (Config.free 60 (code * 8 + i)).toNat % 0x5F))

/-! ### Entry -/

/-- Firmware staging or a handover is in progress (R328, R400). -/
def State.firmwareBusy (s : State) : Bool :=
  s.handover.isSome || s.stage = 3 || s.hg.ending.isSome
    || (s.stage = 1 && s.hg.lastFrame.any fun t => decide (s.now - t ≤ rootPerS))

/-- The first precondition of an entry that fails (R328). -/
def State.entryCondition (s : State) (target : Nat) : Option Nat :=
  if s.handed.any fun h => h.begun && h.pkt.op = 0x43 then some 1
  else if s.site = stScrub then some 2
  else if s.site = stAttaching ∨ s.site = stDetaching ∨ s.detach.isSome then some 3
  else if s.firmwareBusy then some 4
  else if target = 4 ∧ !s.residents.isEmpty then some 5
  else if target = 4 ∧ !s.start.fenceAck then some 6
  else if s.start.thermTrip then some 7
  else none

/-- LAST_TARGET, LAST_OUTCOME and LAST_POINT of an entry, which the site logs. -/
def State.noteEntry (s : State) (target outcome point : Nat) : State :=
  (((s.putFld .pwrEntrySt 8 4 target).putFld .pwrEntrySt 6 2 outcome).putFld .pwrEntrySt 0 2 point).logEvent

/-- Words 0 and 1 of a `POWER_STATE` reply or of a STATE command's outcome (R328, R424). -/
def entryOutcome (st : Status) (w0 w1 : Nat) : Outcome := { Outcome.words w0 w1 0 0 with status := st }

/-- The answer of an entry, to whoever asked. -/
def State.answerEntry (s : State) (e : Entry) (o : Outcome) : State :=
  match e.src with
  | some (src, p) => match s.handed? src p with
    | some h => s.finishHanded h o
    | none => s
  | none =>
    ({ s with mgt := { s.mgt with
        stateEntry := false
        resp := [BitVec.ofNat 8 o.status.code] ++ leBytes 4 o.w0.toNat ++ leBytes 4 o.w1.toNat } }).alert alStateDone

/-- Steps 1 and 2 (R323): the preconditions have passed and dispatch stops. -/
def State.startEntry (s : State) (target : Nat) (src : Option (Src × Packet)) : State :=
  let s := s.setSite stEntering
  { s with power := { s.power with entry := some ⟨target, 3, src, s.now, false, 0, false, false⟩ } }

/-- A precondition refuses: counted, PWR_REFUSER unchanged (R325). -/
def State.refuseEntry (s : State) (target : Nat) : State := (s.bump .pwrEntrySt 32 16).noteEntry target 1 0

/-- A block refuses (R325): every stopped block restarts. -/
def State.refusedBy (s : State) (e : Entry) (code : Nat) : State :=
  let s := ((s.setSite stFlow).bump .pwrEntrySt 32 16).noteEntry e.target 2 0
  let s := s.putReg .pwrRefuser (BitVec.ofNat 64 (code * 2 ^ 56 + refuserName code))
  let s := { s with power := { s.power with entry := none } }
  s.answerEntry e (entryOutcome .refusedState 1 code)

/-- An abort (R324). -/
def State.abortAt (s : State) (e : Entry) (point : Nat) : State :=
  let s := ((s.setSite stFlow).bump .pwrEntrySt 16 16).noteEntry e.target 3 point
  let s := { s with power := { s.power with entry := none } }
  s.answerEntry e (entryOutcome .refusedState 2 point)

/-- A wake event meets an entry (R324): before the drain has taken a cycle it aborts at A1, during the drain at A2, and
in step 4 it is kept until A3. -/
def State.abortEntry (s : State) : State :=
  match s.power.entry with
  | none => s
  | some e =>
    if e.step = 4 then { s with power := { s.power with entry := some { e with woken := true } } }
    else s.abortAt e (if s.now = e.startRoot then 1 else 2)

/-! ### Commit (R319–R321, R323) -/

/-- Every check of the live basins in a state: 1 on, 2 retention. -/
def State.setBanks (s : State) (v : Nat) : State :=
  s.liveBasins.foldl (fun (s : State) b =>
    s.putReg (.pwrBasinSt b) (BitVec.ofNat 64 ((4 ^ s.cfg.checks - 1) / 3 * v))) s

/-- Siphons in service go into or out of self-refresh (R308). -/
def State.siphonsTo (s : State) (old new : Nat) : State :=
  (List.range s.cfg.siphons).foldl (fun (s : State) i =>
    if s.rfld (.sphSt i) 8 4 = old then s.putFld (.sphSt i) 8 4 new else s) s

/-- The always-on domain with the keeper in low-power mode (R318). -/
def State.keeperLow (s : State) : State :=
  let s := { s with power := { s.power with sensorsOn := false, driversOn := false } }
  ((s.putFld .pwrKeeper 0 2 1).putFld .clkSt 0 1 0).showLoad

/-- The keeper in normal mode and the domain's loads on. -/
def State.keeperNormal (s : State) : State :=
  let s := { s with power := { s.power with sensorsOn := true, driversOn := true, keeperPending := false } }
  (s.putFld .pwrKeeper 0 2 2).showLoad

/-- STATE while in `DRY`, when no access can read it: a code PWR_ST reserves. -/
def stDry : Nat := 4

/-- Step 5 of an entry. -/
def State.commitEntry (s : State) (e : Entry) : State :=
  let s := (s.bump .pwrEntrySt 48 16).noteEntry e.target 0 0
  let s := { s with power := { s.power with entry := none, sleepStart := s.now } }
  match e.target with
  | 1 => (s.setSite stSlack).showMargin
  | 2 => (((s.setBanks 2).siphonsTo 1 3).setSite stPond).showMargin
  | 3 => (((s.setBanks 2).siphonsTo 1 3).setSite stTrickle).keeperLow.showMargin
  | _ =>
    let s := s.goneCold Reg.alwaysOn
    let s := { s with mgt := { s.mgt with awake := false } }
    (s.setSite stDry).keeperLow.showMargin

/-- Step 4 of an entry, from a drained site: it waits for VDD_SRAM at 0.70 V; at A3 it is aborted when a wake event has
come, else the reply is posted and the commit follows. Without the keeper's READY the power manager refuses (R325). -/
def State.entryOn (s : State) (e : Entry) : State :=
  let s := if e.step = 3 then s.stopCredits else s
  let e := if e.step = 3 then { e with step := 4, drainUs := (s.now - e.startRoot) / rootPerUs } else e
  let low := (e.target = 2 ∨ e.target = 3) ∧ (s.sramReq ≠ sramNominal ∨ s.sramGrant ≠ sramNominal)
  if !bit (s.reg .pwrKeeper) 1 then s.refusedBy e 0x74
  else if s.power.supply.isSome ∧ (e.target = 2 ∨ e.target = 3) then
    { s with power := { s.power with entry := some { e with waitSram := true } } }
  else if low then
    let s := { s with power := { s.power with entry := some { e with waitSram := true, asked := true } } }
    s.requestSupply s.coreReq sramNominal
  else if e.woken then s.abortAt e 3
  else
    let s := s.answerEntry e (entryOutcome .ok e.target e.drainUs)
    let s := (List.range 9).foldl State.repliesOut s
    let s := if e.target = 4 then s.persist else s
    s.commitEntry e

/-- ENTRY_COMMIT (R323): once the site is drained, and a divider change that was in progress is over. -/
def execEntryCommit (s : State) : Host.Outcome State Fault Refusal :=
  ok (match s.power.entry with
    | some e => if (s.refusers e.src).isEmpty ∧ s.power.divTo.isNone then s.entryOn e else s
    | none => s)

/-- DRAIN_TIMEOUT (R325): DRAIN_US has passed in step 3; the lowest code among the refusers is recorded. -/
def execDrainTimeout (code : Nat) (s : State) : Host.Outcome State Fault Refusal :=
  ok (match s.power.entry with
    | some e => if e.step = 3 then s.refusedBy e ((s.refusers e.src).foldl min code) else s
    | none => s)

/-- ENTRY_ABORT (R324). A threshold crossing is a wake event of `TRICKLE` alone. -/
def execEntryAbort (w : WakeEvent) (s : State) : Host.Outcome State Fault Refusal :=
  ok (if w = .threshold then s else s.abortEntry)

/-! ### Wakes -/

/-- A wake begins (R320–R322): the state shows it, the keeper is in normal mode, banks in retention ramp. -/
def State.wakeStart (s : State) : State :=
  let s := if s.site = stTrickle then (s.keeperNormal.putFld .pwrTrickle 0 4 5).putFld .clkSt 0 1 1 else s
  ((if s.site = stSlack then s else s.setBanks 3).setSite stWaking).logEvent

/-- A wake from a sleep state is in progress; before release STATE reads the same in a start. -/
def State.wakes (s : State) : Bool := s.site = stWaking && s.start.released

/-- The site is back in `FLOW` (R320–R322, R327, R336): the banks are on, and what leases did not run counts once, with a trip that
goes on. Each siphon serves again from its LINK_CALIBRATION on (R308). -/
def State.wakeDone (s : State) : State :=
  let slept := s.now - s.power.sleepStart
  let s := { s with auditFrom := s.now }
  let s := if s.start.thermTrip then
      { s with power := { s.power with tripStart := min s.power.tripStart s.power.sleepStart } }
    else { s with locks := s.locks.map fun (l : Lock) => { l with deadline := l.deadline + slept } }
  ((s.setBanks 1).setSite stFlow).showMargin

/-- What an access or a frame finds: the site awake, each wake completed before it is served (R320). -/
def State.wakeUp (s : State) : State := s.wakeStart.wakeDone

/-- A wake event wakes the site from the state it is in (R322): a threshold crossing only from `TRICKLE`. -/
def State.wakesFrom (s : State) (w : WakeEvent) : Bool :=
  s.site = stTrickle || (s.site = stSlack || s.site = stPond) && w ≠ .threshold

/-- A wake event (R322): in `SLACK`, `POND` and `TRICKLE` the site wakes, in an entry the entry is aborted; a wake under way is
completed. -/
def State.wakeFor (s : State) (w : WakeEvent) : State :=
  if s.site = stEntering then (if w = .threshold then s else s.abortEntry)
  else if s.wakesFrom w then s.wakeUp
  else if s.wakes then s.wakeDone
  else s

/-- SLEEP_WAKE (R322): the wake begins. It is complete with the next idle cycle, or when an access is to be served. -/
def execSleepWake (w : WakeEvent) (s : State) : Host.Outcome State Fault Refusal :=
  ok (if s.wakesFrom w then s.wakeStart else s)

/-- The cause of a threshold crossing, 0 for none (R329, R337). -/
def State.trickleCause (s : State) (r : TrickleReading) : Nat :=
  if r.dieMax ≥ s.rfld .pwrTrickle 24 8 then 1
  else if r.stackMax ≥ s.rfld .pwrTrickle 16 8 then 2
  else if r.supplyDev > s.rfld .pwrTrickle 8 8 * 10 then 3
  else if r.refreshFault then 4
  else 0

/-- TRICKLE_SAMPLE (R329). -/
def execTrickleSample (r : TrickleReading) (s : State) : Host.Outcome State Fault Refusal :=
  if s.site ≠ stTrickle then ok s
  else
    let s := s.bump .pwrTrickle 32 32
    let s := (s.putFld .pwrTherm 56 8 r.dieMax).putFld .pwrTherm 48 8 r.stackMax
    let c := s.trickleCause r
    if c = 0 then ok s
    else ok ((s.wakeStart.putFld .pwrTrickle 0 4 c).alert alTrickleWake)

/-! ### POWER_STATE -/

def powerFields : List (Nat × Nat × Nat) :=
  [(16, 0, 8), (17, 0, 3), (18, 0, 16), (20, 0, 16), (22, 0, 16), (24, 0, 8), (25, 0, 8), (26, 0, 2), (27, 0, 8),
   (28, 0, 8), (29, 0, 8), (30, 0, 8)]

/-- A field of ACTION 2 that is zero or in its range. -/
def zeroOr (lo hi v : Nat) : Bool := v = 0 || (decide (lo ≤ v) && decide (v ≤ hi))

/-- The policy's fields lie in their ranges (R328). -/
def policyFits (p : Packet) : Bool :=
  zeroOr 10 1000 (p.p 20 0 16) && zeroOr 1 1000 (p.p 22 0 16) && zeroOr 1 16 (p.p 24 0 8)
    && zeroOr 4 8 (p.p 25 0 8) && p.p 26 0 2 ≠ 3 && zeroOr 60 110 (p.p 27 0 8) && zeroOr 60 95 (p.p 28 0 8)
    && zeroOr 1 10 (p.p 29 0 8) && zeroOr 85 105 (p.p 30 0 8)

/-- A field of the action is out of range (R328, order 1). -/
def powerBad (p : Packet) : Bool :=
  !p.reservedClear powerFields || match p.p 16 0 8 with
    | 0 => !(1 ≤ p.p 17 0 3 && p.p 17 0 3 ≤ 4)
    | 1 => !(150 ≤ p.p 18 0 16 && p.p 18 0 16 ≤ 620)
    | 2 => !policyFits p
    | _ => true

/-- A register field given a value that is not zero. -/
def State.putNonzero (s : State) (r : Reg) (lo n v : Nat) : State := if v = 0 then s else s.putFld r lo n v

/-- ACTION 2 (R328): a zero field leaves its value. -/
def State.setPolicy (s : State) (p : Packet) : State :=
  let s := ((s.putNonzero .pwrCfg 0 10 (p.p 20 0 16)).putNonzero .pwrCfg 10 10 (p.p 22 0 16)).putNonzero .pwrCfg 24 5
    (p.p 24 0 8)
  let s := s.putNonzero .pwrCfg 32 4 (p.p 25 0 8)
  let s := match p.p 26 0 2 with | 1 => s.putFld .pwrCfg 40 1 1 | 2 => s.putFld .pwrCfg 40 1 0 | _ => s
  let s := ((s.putNonzero .pwrTrickle 24 8 (p.p 27 0 8)).putNonzero .pwrTrickle 16 8 (p.p 28 0 8)).putNonzero
    .pwrTrickle 8 8 (p.p 29 0 8)
  (s.putNonzero .pwrTherm 40 8 (p.p 30 0 8)).showMargin

/-- POWER_STATE's decision (R328). -/
def State.powerAsk (s : State) (h : Handed) : State × Option Outcome :=
  let p := h.pkt
  let target := p.p 17 0 3
  if powerBad p then (s, some (.refuse .badParam))
  else match p.p 16 0 8 with
    | 1 => (s.putFld .pwrCap 48 16 (p.p 18 0 16), some Outcome.ok)
    | 2 => (s.setPolicy p, some Outcome.ok)
    | _ => match s.entryCondition target with
      | some c => (s.refuseEntry target, some { entryOutcome .refusedState 0 c with refused := true })
      | none => (s.startEntry target (some (h.src, h.pkt)), none)

/-- POWER_STATE (R328). -/
def execPowerState (src : Src) (pkt : Packet) (s : State) : Host.Outcome State Fault Refusal :=
  ok (s.control src { pkt with opcode := 0x48 } State.powerAsk)

end Sys2Proof.Machine
end

