-- ==== Sys2Proof/Machine/Attach.lean ====
section
/-! DEFINITION. `DETACH_PREPARE` (R353, R354) and `ATTACH_COMPLETE` (R355, R356). -/

namespace Sys2Proof.Machine

/-- Order 2 of R353. -/
def State.detachRefused (s : State) : Bool :=
  s.site ≠ stFlow || s.detach.isSome || s.power.entry.isSome || s.firmwareBusy
    || s.handed.any fun h => h.begun && h.pkt.op = 0x43

/-- Steps 1 and 2 of R354: dispatch stops; with FORCE every context is destroyed. -/
def State.startDetach (s : State) : State :=
  let s := (s.setSite stDetaching).logEvent
  let cs := s.residents
  let s := cs.foldl (fun (s : State) c => s.destroyContext c none false) s
  { s with detach := some (cs.length, cs.length * s.tScrub) }

/-- Steps 3 and 4: once every block is drained, what the cistern keeps is written and the packet is answered. -/
def State.detachOn (s : State) : State :=
  match s.detach, s.handed.find? (fun h => h.begun && h.pkt.op = 0x4B) with
  | some (n, cycles), some h =>
    if (s.refusers (some (h.src, h.pkt))).isEmpty ∧ !s.scrubbing then
      let s := { s.persist with detach := none, start := { s.start with noReturn := s.start.fenceReq } }
      (s.finishHanded h (Outcome.words n cycles s.cistern.serviceS 0)).alert alDetachReady
    else s
  | _, _ => s

def detachFields : List (Nat × Nat × Nat) := [(16, 0, 1)]

/-- DETACH_PREPARE's decision: it stays in Rosog's hands until the site is drained. -/
def State.detachAsk (s : State) (h : Handed) : State × Option Outcome :=
  let o := fun (a b : Nat) => { entryOutcome .refusedState a b with refused := true }
  if !h.pkt.reservedClear detachFields then (s, some (.refuse .badParam))
  else if h.begun ∧ s.detach.isSome then (s.detachOn, none)
  else if s.detachRefused then (s, some (o 1 0))
  else if h.pkt.p 16 0 1 = 0 ∧ !s.residents.isEmpty then
    (s, some (o 2 ((s.residents.map (2 ^ ·)).foldl (· + ·) 0)))
  else ((s.startDetach.begin h).detachOn, none)

/-- DETACH_PREPARE (R353, R354). -/
def execDetachPrepare (src : Src) (pkt : Packet) (s : State) : Host.Outcome State Fault Refusal :=
  ok (s.control src { pkt with opcode := 0x4B } State.detachAsk)

/-! ### Attach -/

/-- Slots served by an MXE over the live basins. -/
def State.activeMxes (s : State) : Nat :=
  (s.liveBasins.map fun b =>
    ((List.range (s.cfg.activeMxe + s.cfg.spareMxe)).filter fun u =>
      s.rfld (.mxeSt b u) 32 8 ≠ 0xFF && s.unitState ⟨.mxe, b, u⟩ ≠ 4 && s.unitState ⟨.mxe, b, u⟩ ≠ 5).length).foldl
    (· + ·) 0

/-- ATTACH_COMPLETE's decision (R356). -/
def State.attachAsk (s : State) (h : Handed) : State × Option Outcome :=
  let site := h.pkt.p 16 0 16
  if !h.pkt.reservedClear [(16, 0, 16)] ∨ site = 0xFFFF then (s, some (.refuse .badParam))
  else if s.site ≠ stAttaching then (s, some (.refuse .refusedState))
  else
    let s := { (s.setSite stFlow).logEvent with siteId := site, attached := true }
    (s.showMargin,
      some (Outcome.words s.liveBasins.length s.siphonsUp.length s.activeMxes (s.rfld .devStartSt 16 16)))

/-- ATTACH_COMPLETE (R355, R356). -/
def execAttachComplete (src : Src) (pkt : Packet) (s : State) : Host.Outcome State Fault Refusal :=
  ok (s.control src { pkt with opcode := 0x4C } State.attachAsk)

end Sys2Proof.Machine
end

