-- ==== Sys2Proof/Machine/Control.lean ====
section
/-! DEFINITION. The control core (R13, R28, R29): its address map, physical memory protection, the exceptions an access of
its raises, the placing of an image in instruction RAM, and the state block of a handover (R403). What Rosog's instructions
do to the site is modelled as what the rules say Rosog does (log entry 5). -/

namespace Sys2Proof.Machine

/-- Where an address of the local map lies (R28): the boot ROM, an instruction-RAM half (true: B), the data RAM. -/
inductive LocalPlace where
  | rom (o : Nat)
  | iram (halfB : Bool) (o : Nat)
  | dataRam (o : Nat)
  deriving DecidableEq, Repr

/-- The first 64 KiB of the boot ROM's range. -/
def romPlace (o n : Nat) : Option LocalPlace := if o + n ≤ 0x10000 then some (.rom o) else none

/-- The place of `n` bytes at `a` under a value of CTL_REMAP (R28): none for an access fault. -/
def localPlace (remap : Word64) (a n : Nat) : Option LocalPlace :=
  let cur := bit remap 1
  let inside := fun (lo : Nat) => decide (lo ≤ a ∧ a + n ≤ lo + 0x80000)
  if inside 0 then (if bit remap 0 then romPlace a n else some (.iram cur a))
  else if inside 0x80000 then (if bit remap 0 then some (.iram cur (a - 0x80000)) else romPlace (a - 0x80000) n)
  else if inside 0x100000 then some (.iram (!cur) (a - 0x100000))
  else if inside 0x200000 then some (.dataRam (a - 0x200000))
  else none

/-- The site address of a core address within the site-map window (R28). -/
def siteOf (a : Nat) : Option Nat := if 2 ^ 48 ≤ a ∧ a < 2 ^ 49 then some (a - 2 ^ 48) else none

/-- What an access of the core is; an atomic counts as the load or the store it is made of. -/
inductive LocalKind where
  | fetch | load | store
  deriving DecidableEq, Repr

/-- Exception codes of the RISC-V privileged architecture (PRESUMED, log entry 67). -/
def LocalKind.misaligned : LocalKind → Nat
  | .fetch => 0 | .load => 4 | .store => 6
def LocalKind.accessFault : LocalKind → Nat
  | .fetch => 1 | .load => 5 | .store => 7

/-- Alignment (R13): a fetch is of 2-byte parcels, a load or store is naturally aligned. -/
def LocalKind.aligned (k : LocalKind) (a n : Nat) : Bool :=
  match k with
  | .fetch => decide (a % 2 = 0)
  | _ => decide (a % max 1 n = 0)

/-! ### Physical memory protection (R13; PRESUMED, log entry 67) -/

/-- Trailing ones of a number, at most `f`. -/
def trailingOnes : Nat → Nat → Nat
  | 0, _ => 0
  | f + 1, v => if v % 2 = 1 then trailingOnes f (v / 2) + 1 else 0

/-- The range of an entry as first byte and length: off, top of range, four bytes, a power of two. -/
def CtlCore.pmpRange (c : CtlCore) (i : Nat) : Nat × Nat :=
  let cfg := (c.pmpCfg.getD i 0).toNat
  let ad := ((c.pmpAddr.getD i 0).toNat) % 2 ^ 54
  match cfg / 8 % 4 with
  | 1 =>
    let lo := if i = 0 then 0 else ((c.pmpAddr.getD (i - 1) 0).toNat) % 2 ^ 54 * 4
    (lo, ad * 4 - lo)
  | 2 => (ad * 4, 4)
  | 3 =>
    let t := trailingOnes 54 ad
    (ad / 2 ^ t * 2 ^ t * 4, 2 ^ (t + 3))
  | _ => (0, 0)

/-- An access is permitted: the lowest entry that meets any of its bytes decides; with none, machine mode alone. -/
def CtlCore.permits (c : CtlCore) (k : LocalKind) (a n : Nat) : Bool :=
  let meets := fun (i : Nat) => let r := c.pmpRange i; decide (a < r.1 + r.2 ∧ r.1 < a + n)
  match (List.range 16).find? meets with
  | none => c.machine
  | some i =>
    let r := c.pmpRange i
    let cfg := (c.pmpCfg.getD i 0).toNat
    let right := match k with | .load => cfg % 2 | .store => cfg / 2 % 2 | .fetch => cfg / 4 % 2
    decide (r.1 ≤ a ∧ a + n ≤ r.1 + r.2) && ((c.machine && decide (cfg / 128 = 0)) || decide (right = 1))

/-! ### Exceptions -/

/-- CSR numbers of the trap registers. -/
def csrMstatus : Nat := 0x300
def csrMtvec : Nat := 0x305
def csrMepc : Nat := 0x341
def csrMcause : Nat := 0x342
def csrMtval : Nat := 0x343

def CtlCore.csr (c : CtlCore) (n : Nat) : Word64 := nget c.csrs 0 n
def CtlCore.putCsr (c : CtlCore) (n : Nat) (v : Word64) : CtlCore := { c with csrs := nset c.csrs 0 n v }

/-- An exception is taken to machine mode: the pc, the cause and the address saved, the previous mode and interrupt
enable stacked, the pc at the handler's base. -/
def CtlCore.trap (c : CtlCore) (cause a : Nat) : CtlCore :=
  let st := c.csr csrMstatus
  let st' := setFld (setBit (setBit st 7 (bit st 3)) 3 false) 11 2 (if c.machine then 3 else 0)
  let base : Word64 := BitVec.ofNat 64 ((c.csr csrMtvec).toNat / 4 * 4)
  { (((c.putCsr csrMepc c.pc).putCsr csrMcause (BitVec.ofNat 64 cause)).putCsr csrMtval (BitVec.ofNat 64 a)).putCsr
      csrMstatus st' with pc := base, machine := true }

/-- An access fault is an exception and is logged (R28). -/
def CtlCore.fault (c : CtlCore) (cause a : Nat) : CtlCore :=
  { c.trap cause a with faultLog := c.faultLog ++ [(cause, a)] }

/-! ### Accesses -/

/-- A byte of the boot ROM, whose contents the spec does not give. -/
def romByte (o : Nat) : Byte := (Config.free 74 o).setWidth 8

def CtlCore.iram (c : CtlCore) (halfB : Bool) : List Host.Cell := if halfB then c.iramB else c.iramA

/-- First byte of the data RAM's top 64 KiB (R403). -/
def blockBase : Nat := 0x70000

/-- A byte of the data RAM as the state block left it (R403); zero outside the block. The block's layout is open. -/
def CtlCore.blockByte (c : CtlCore) (o : Nat) : Byte :=
  match c.block with
  | some (_, n) => if blockBase ≤ o then (Config.free 80 (n * 0x10000 + (o - blockBase))).setWidth 8 else 0
  | none => 0

/-- Bytes stored in the data RAM. -/
def CtlCore.putRam (c : CtlCore) (o : Nat) (bs : List Byte) : CtlCore :=
  { c with dataRam := putBytes c.dataRam o (bs.zipIdx.map fun x => x.1 ^^^ c.blockByte (o + x.2)) }

/-- The bytes of a place. -/
def CtlCore.bytesAt (c : CtlCore) (p : LocalPlace) (n : Nat) : List Byte :=
  match p with
  | .rom o => (List.range n).map fun i => romByte (o + i)
  | .iram h o => (List.range n).map fun i => nget (c.iram h) 0 (o + i)
  | .dataRam o => (List.range n).map fun i => nget c.dataRam 0 (o + i) ^^^ c.blockByte (o + i)

/-- CTL_REMAP as an access uses it: fetches as it stood at the last `FENCE.I` (R29). -/
def State.remapFor (s : State) (k : LocalKind) : Word64 :=
  if k = .fetch then s.core.fetchMap else s.reg .ctlRemap

/-- The exception an access of the core raises whatever its address holds (R13). A misaligned access is told before an
access fault. -/
def State.coreCheck (s : State) (k : LocalKind) (a n : Nat) : Option Nat :=
  if !k.aligned a n then some k.misaligned
  else if !s.core.permits k a n then some k.accessFault
  else none

/-- What a local access meets: an exception, or its place. -/
def State.localAccess (s : State) (k : LocalKind) (a n : Nat) : Except Nat LocalPlace :=
  match s.coreCheck k a n with
  | some cause => .error cause
  | none => match localPlace (s.remapFor k) a n with
    | none => .error k.accessFault
    | some (.rom o) => if k = .store then .error k.accessFault else .ok (.rom o)
    | some p => .ok p

/-- An access of the core at one of its addresses raises an exception (R13, R28). -/
def State.coreTraps (s : State) (k : LocalKind) (a n : Nat) : Bool :=
  match siteOf a with
  | some _ => (s.coreCheck k a n).isSome
  | none => match s.localAccess k a n with | .error _ => true | .ok _ => false

/-- The exception of a local access. -/
def State.localTrap (s : State) (k : LocalKind) (cause a : Nat) : State :=
  { s with core := if cause = k.accessFault then s.core.fault cause a else s.core.trap cause a }

/-- A load or fetch in the local map (R13, R28): a trapping access loads nothing. -/
def State.localLoad (s : State) (k : LocalKind) (a n : Nat) : State × List Byte :=
  match s.localAccess k a n with
  | .error cause => (s.localTrap k cause a, List.replicate n 0)
  | .ok p => (s, s.core.bytesAt p n)

/-- A store in the local map: a trapping access stores nothing. -/
def State.localStore (s : State) (a : Nat) (bs : List Byte) : State :=
  match s.localAccess .store a bs.length with
  | .error cause => s.localTrap .store cause a
  | .ok (.iram true o) => { s with core := { s.core with iramB := putBytes s.core.iramB o bs } }
  | .ok (.iram false o) => { s with core := { s.core with iramA := putBytes s.core.iramA o bs } }
  | .ok (.dataRam o) => { s with core := s.core.putRam o bs }
  | .ok (.rom _) => s

/-! ### Images in instruction RAM -/

/-- An instruction-RAM half that holds a body and nothing else. -/
def loadHalf (body : List Byte) : List Host.Cell := putBytes [] 0 (body.take 0x80000)

/-- The boot ROM places an image in half A, clears BOOT_MAP and jumps to it (R28). What else the RAMs hold stays (R404). -/
def State.placeImage (s : State) (x : ImageInfo) : State :=
  { s.putFld .ctlRemap 0 2 0 with core := { CtlCore.reset with
      iramA := loadHalf x.body, fetchMap := 0, iramB := s.core.iramB, dataRam := s.core.dataRam, block := s.core.block } }

/-- A live handover loads an image into the standby half (R403, step 1). -/
def State.loadStandby (s : State) (x : ImageInfo) : State :=
  if bit (s.reg .ctlRemap) 1 then { s with core := { s.core with iramA := loadHalf x.body } }
  else { s with core := { s.core with iramB := loadHalf x.body } }

/-- The halves are exchanged, for fetches too, and the core jumps to the new current half (R28, R29, R403, step 4). -/
def State.swapHalves (s : State) : State :=
  let s := s.putFld .ctlRemap 1 1 (1 - s.rfld .ctlRemap 1 1)
  { s with core := { s.core with fetchMap := s.reg .ctlRemap, pc := 0 } }

/-! ### The state block (R403, R404) -/

/-- The state block written to the top of the data RAM, with the running image's STATE_VER and its CRC-32C. -/
def State.saveBlock (s : State) : State :=
  { s.useFree with core := { s.core with
      block := some (s.running.stateVer, s.freeUses), dataRam := s.core.dataRam.filter (·.1 < blockBase) } }

/-- STATE_VER of the block in the data RAM, where its CRC-32C verifies: no byte of it has changed since it was written
(DEDUCED, log entry 67). -/
def CtlCore.blockVer (c : CtlCore) : Option Nat :=
  if c.dataRam.all (·.1 < blockBase) then c.block.map (·.1) else none

end Sys2Proof.Machine
end

