-- ==== Sys2Proof/Machine/Queries.lean ====
section
/-! DEFINITION. The control packets that report: `QUERY` (R225), `STATS_READ` (R226, R388), `FAULT_LOG_READ` (R289). -/

namespace Sys2Proof.Machine

/-- Numbers of a boolean. -/
def flag (b : Bool) (i : Nat) : Nat := b.toNat * 2 ^ i

/-! ### QUERY -/

def queryFields : List (Nat × Nat × Nat) := [(16, 0, 8), (17, 0, 8)]

/-- SELECT 1: a context. -/
def State.queryCtx (s : State) (c : Nat) : Outcome :=
  let r := s.ctx c
  let stack := ((s.regions.filter fun x => some x.entry = r.stackRgn).map fun x => x.len / 2 ^ 24).foldl (· + ·) 0
  Outcome.words
    (flag r.resident 0 + flag (s.active = some c) 1 + flag r.faulted 2 + flag (s.ringState c = 4) 3)
    r.base stack (s.lists.filter fun l => l.ctx = c).length

/-- SELECT 2: a right of a context. -/
def State.queryRight (s : State) (c right : Nat) : Outcome :=
  match (s.ctx c).admissions.find? fun a => a.right = right with
  | some a => Outcome.words (if a.suspended then 2 else 1) a.bound a.furrow a.stack
  | none => Outcome.words 0 0 0 0

/-- SELECT 3: a basin. -/
def State.queryBasin (s : State) (b : Nat) : Outcome :=
  Outcome.words (64 - (s.lists.filter fun l => l.basin = b).length) (s.waits.filter fun w => w.basin = b).length
    (s.inFlightBasin b) (flag (s.live b) 0 + flag (s.retiring.contains b) 1)

/-- QUERY's decision. -/
def State.query (s : State) (h : Handed) : State × Option Outcome :=
  let p := h.pkt
  let sel := p.p 16 0 8
  let arg := p.p 17 0 8
  let own := s.ctxOf h.src
  if !p.reservedClear queryFields || sel > 4 || (sel = 1 && arg > 7) || (sel = 2 && arg > 15)
      || ((sel = 3 || sel = 4) && arg ≥ s.cfg.basins) then (s, some (.refuse .badParam))
  else if sel = 4 ∧ h.src ≠ .ring 8 then (s, some (.refuse .accessDenied))
  else if sel = 1 ∧ own.isSome ∧ own ≠ some arg then (s, some (.refuse .accessDenied))
  else match sel with
    | 0 =>
      let c0 := s.cfg.config0.toNat
      let c1 := s.cfg.config1.toNat
      (s, some (Outcome.words (c0 % 2 ^ 32) (c0 / 2 ^ 32) (c1 % 2 ^ 32) (c1 / 2 ^ 32)))
    | 1 => (s, some (s.queryCtx arg))
    | 2 =>
      match own with
      | some c => (s, some (s.queryRight c arg))
      | none =>
        -- ring 8 has no context whose right it could be: the words are left open
        let w := fun (i : Nat) => (Config.free (50 + i) s.freeUses).toNat % 2 ^ 32
        (s.useFree, some (Outcome.words (w 0) (w 1) (w 2) (w 3)))
    | 3 =>
      let o := s.queryBasin arg
      match own with
      | some c =>
        if s.retiring.contains arg then
          let r := s.ctx c
          (s.putCtx c { r with ackPending := setBit r.ackPending arg true }, some o)
        else (s, some o)
      | none => (s, some o)
    | _ => (s, some (Outcome.words (nget s.lostEvents 0 arg) (s.events.filter fun e => e.basin = arg).length 0 0))

/-- QUERY (R225, R277). -/
def execQuery (src : Src) (pkt : Packet) (s : State) : Host.Outcome State Fault Refusal :=
  ok (s.control src { pkt with opcode := 0x40 } State.query)

/-! ### STATS_READ -/

def statsFields : List (Nat × Nat × Nat) := [(16, 0, 8), (17, 0, 4), (17, 7, 1), (18, 0, 8)]

/-- A word as a tenant sees it (R388). -/
def State.tenantWord (s : State) (exact : Bool) (n : Nat) : Nat :=
  let n := min n (2 ^ 32 - 1)
  if exact || bit (s.reg .secObsCfg) 0 then n else n / 16 * 16

/-- A set of counters. -/
def State.statsWords (s : State) (st : Stats) (set : Nat) : Outcome :=
  let w := s.tenantWord false
  match set with
  | 0 => Outcome.words (s.tenantWord true st.completed) (s.tenantWord true st.failed) (w (st.busy / 1024)) (w st.alerted)
  | 1 => Outcome.words (w st.tiles) (w st.granules) (w st.skipped) (w st.mispredicted)
  | _ => Outcome.words (w st.sats) (w st.clips) (w st.raws) (w st.fmtAlerts)

/-- STATS_READ's decision. -/
def State.statsOf (s : State) (h : Handed) : State × Option Outcome :=
  let p := h.pkt
  let n := p.p 16 0 12
  let ring := p.p 17 7 1 = 1
  let set := p.p 18 0 8
  if !p.reservedClear statsFields || set > 2 || (ring && n ≠ 0) then (s, some (.refuse .badParam))
  else if ring then (s, some (s.statsWords (s.ring h.ctx).stats set))
  else match s.slotStats.find? fun x => x.basin * 64 + x.slot = n with
    | some x =>
      if x.ctx = h.ctx ∧ x.createNo = (s.ctx h.ctx).createNo then (s, some (s.statsWords x.stats set))
      else (s, some (.refuse .accessDenied))
    | none => (s, some (.refuse .accessDenied))

/-- STATS_READ (R226, R388). -/
def execStatsRead (src : Src) (pkt : Packet) (s : State) : Host.Outcome State Fault Refusal :=
  ok (s.control src { pkt with opcode := 0x41 } State.statsOf)

/-! ### FAULT_LOG_READ -/

def faultLogFields : List (Nat × Nat × Nat) := [(16, 0, 64), (24, 0, 48), (30, 0, 8), (31, 0, 2)]

/-- Start and length of the owner log area in basin 0 (R289). -/
def SiteConfig.ownerLog (c : SiteConfig) : Nat := c.reserve + 8192
def ownerLogLen : Nat := 32768

/-- The buffer lies where the issuer may have it, in a live basin (R283; DEDUCED, log entry 33). -/
def State.logBuffer (s : State) (own : Option Nat) (a len : Nat) : Option (Nat × Nat) :=
  match s.cfg.basinAt a with
  | none => none
  | some (b, off) =>
    let good := match own with
      | some c => s.bytesInLevee c b off len
      | none => b = 0 && decide (s.cfg.ownerLog ≤ off ∧ off + len ≤ s.cfg.ownerLog + ownerLogLen)
    if good && s.live b then some (b, off) else none

/-- A record with FLAGS bit 2 set (R287). -/
def markOverwritten (r : List Byte) : List Byte := r.zipIdx.map fun x => if x.2 = 211 then x.1 ||| 4 else x.1

/-- Copy records that are wanted while they fit: bytes, their number, the next identifier to ask for. -/
def copyRecords (want : Nat × Nat × Nat × List Byte → Bool) (room : Nat) (mark : Option Nat) :
    List (Nat × Nat × Nat × List Byte) → List Byte × Nat × Option Nat → List Byte × Nat × Option Nat
  | [], acc => acc
  | r :: rest, (bs, n, next) =>
    if !want r then copyRecords want room mark rest (bs, n, next)
    else
      let x := if mark = some r.1 then markOverwritten r.2.2.2 else r.2.2.2
      let x := x ++ List.replicate ((8 - x.length % 8) % 8) 0
      if bs.length + x.length > room then (bs, n, some r.1)
      else copyRecords want room mark rest (bs ++ x, n + 1, next)

/-- Records a `FAULT_LOG_READ` asks for: from the first wanted on, of the severities it takes, and a context's own alone. -/
def logWants (p : Packet) (own : Option Nat) (r : Nat × Nat × Nat × List Byte) : Bool :=
  decide (p.p 16 0 64 ≤ r.1) && !(p.p 31 0 1 = 1 && r.2.1 = 2) && !(p.p 31 1 1 = 1 && r.2.1 = 3)
    && (match own with | some c => decide (r.2.2.1 = c) | none => true)

/-- The record marked when older ones the packet asks for are lost: the oldest. -/
def State.logMark (s : State) (p : Packet) : Option Nat :=
  let oldest := (s.cistern.records.head?.map (·.1)).getD s.cistern.nextId
  if p.p 16 0 64 < oldest then some oldest else none

/-- FAULT_LOG_READ's decision. -/
def State.faultLog (s : State) (h : Handed) : State × Option Outcome :=
  let p := h.pkt
  let start := p.p 16 0 64
  let dest := p.p 24 0 48
  let len := p.p 30 0 8
  let own := s.ctxOf h.src
  if !p.reservedClear faultLogFields || dest % 256 ≠ 0 || len = 0 || len > 128 then (s, some (.refuse .badParam))
  else match s.logBuffer own dest (len * 256) with
  | none => (s, some (.refuse .accessDenied))
  | some (b, off) =>
    let (bs, n, next) := copyRecords (logWants p own) (len * 256) (s.logMark p) s.cistern.records ([], 0, none)
    let next := next.getD (max start s.cistern.nextId)
    let s := s.writeRange b off bs ⟨3, ditchTurnout⟩
    (s, some (Outcome.words n bs.length (next % 2 ^ 32) (next / 2 ^ 32)))

/-- FAULT_LOG_READ (R289). -/
def execFaultLogRead (src : Src) (pkt : Packet) (s : State) : Host.Outcome State Fault Refusal :=
  ok (s.control src { pkt with opcode := 0x4A } State.faultLog)

end Sys2Proof.Machine
end

