-- ==== Sys2Proof/Machine/ModelLoad.lean ====
section
/-! DEFINITION. `MODEL_LOAD` (R224, R374, R375): the package, its placement, shadow copies. -/

namespace Sys2Proof

open Machine

/-- Parameters of a `MODEL_LOAD` (R224). -/
def Packet.pkgAddr (p : Packet) : Nat := p.p 16 0 48
def Packet.pkgSlot (p : Packet) : Nat := p.p 22 4 4
def Packet.pkgShadow (p : Packet) : Bool := p.p 22 0 1 = 1
def Packet.pkgMask (p : Packet) : Word64 := BitVec.ofNat 64 (p.p 24 0 64)
def Packet.pkgDesc (p : Packet) : Nat := p.p 32 0 14
def pkgFields : List (Nat × Nat × Nat) := [(16, 0, 48), (22, 4, 4), (22, 0, 1), (24, 0, 64), (32, 0, 14)]

end Sys2Proof

namespace Sys2Proof.Machine

/-! ### The package -/

/-- A tile of the package's body: its basin and descriptor, its record's header and payload. -/
structure PkgTile where
  basin : Nat
  desc : Nat
  hdr : RecHdr
  payload : List Byte
  deriving DecidableEq, Repr

/-- The entries of a body: none where one is cut short or its prefix is not as R374 has it. -/
def pkgTiles (descBase : Nat) : Nat → List Byte → Option (List PkgTile)
  | 0, _ => some []
  | n + 1, bs =>
    let w := leNat (bs.take 8)
    let h := recordParse ((bs.drop 64).take 64)
    let payload := (bs.drop 128).take h.len
    let step := cdiv (128 + h.len) 256 * 256
    if bs.length < 128 + h.len ∨ w / 64 % 2 ^ 10 ≠ 0 ∨ w / 2 ^ 30 ≠ 0 ∨ !(((bs.drop 8).take 56).all (· = 0))
        ∨ h.ver ≠ 1 ∨ !h.zerosClear then none
    else
      (pkgTiles descBase n (bs.drop step)).map (⟨w % 64, descBase + w / 2 ^ 16 % 2 ^ 14, h, payload⟩ :: ·)

/-- A tile's carried check holds (R77). -/
def PkgTile.sound (t : PkgTile) : Bool := (t.hdr.decode t.payload).checkOf t.hdr.weight = t.hdr.check
/-- Granules of its extent. -/
def PkgTile.granules (t : PkgTile) : Nat := max 1 (cdiv t.hdr.len 256)

/-- Bytes of a package: from stack memory, or on a site without siphons from basin memory; and whether all of them
could be read. -/
def State.pkgRead (s : State) (a len : Nat) : State × List Byte × Bool :=
  if s.cfg.siphons = 0 then
    match s.cfg.basinAt a with
    | some (b, off) => let (s, bs, bad) := s.readRange b off len ⟨3, ditchTurnout⟩; (s, bs, !bad)
    | none => (s, [], false)
  else let (s, bs, bad) := s.stackRead a len; (s, bs, bad.isEmpty)

/-- The siphons read a range of the package at once: each serves, and no older write to its blocks waits (R301, R308). -/
def State.pkgFree (s : State) (a len : Nat) : Bool := s.cfg.siphons = 0 || s.stackFree a len false

/-- The context may name the range (R25, R224): a decode error gives BAD_PARAM. -/
def State.pkgRange (s : State) (c a len : Nat) : Option Refusal1 :=
  if s.cfg.siphons = 0 then
    match s.cfg.basinAt a with
    | some (b, off) => if s.bytesInLevee c b off len then none else some ⟨.accessDenied, false⟩
    | none => some ⟨.badParam, true⟩
  else s.stackRange c a len

/-- The set key of a slot: its SET_ID where it is a set slot this site is a member of. -/
def State.setKey (s : State) (c slot : Nat) : Option (BitVec 32) :=
  match (s.ctx c).keySlots[slot]? with
  | some (.set i members) => if members.contains s.siteId then some i else none
  | _ => none

/-- The header verifies (R374). -/
def State.pkgHeader (s : State) (c slot : Nat) (hd : List Byte) (body : List Byte) : Bool :=
  hd.take 8 = [0x45, 0x32, 0x57, 0x47, 0x48, 0x54, 0x30, 0x31]
    && (match s.setKey c slot with | some i => decide (leNat ((hd.drop 8).take 4) = i.toNat) | none => false)
    && decide (leNat ((hd.drop 16).take 8) = body.length ∧ body.length % 256 = 0)
    && (hd.drop 84).all (· = 0)

/-! ### Placement -/

/-- Ring granules of a context in a basin, and granules of a package in it. -/
def State.loadTaken (s : State) (c b pkg len : Nat) : List (Nat × Nat) :=
  let r := s.ctx c
  let weights := ((s.levees b).filter fun l => l.kind = 1).map fun l => (l.base, l.len)
  let outside := [(r.base + r.len, s.cfg.spaceGranules)]
  let below := if r.base = 0 then [] else [(0, r.base)]
  let rings := if r.homeBasin = b then
      [(r.base, 2 ^ s.rfld (.ringCmd c) 40 4 / 4 + 2 ^ s.rfld (.ringRpl c) 40 4 / 8)] else []
  let packet := if s.cfg.siphons = 0 then match s.cfg.basinAt pkg with
      | some (b', off) => if b' = b then [(off / 256, cdiv (off % 256 + len) 256)] else []
      | none => []
    else []
  weights ++ outside ++ below ++ rings ++ packet

/-- Granules a package needs in a basin. -/
def needIn (ts : List PkgTile) (b : Nat) : Nat :=
  ((ts.filter fun t => t.basin = b).map (·.granules)).foldl (· + ·) 0

/-- The lowest offset free in every masked basin, each for its own length. -/
def State.weightBase (s : State) (c : Nat) (ts : List PkgTile) (bs : List Nat) (pkg len : Nat) : Option Nat :=
  let r := s.ctx c
  let takens := bs.map fun b => (b, s.loadTaken c b pkg len)
  let starts := r.base :: takens.flatMap fun x => runStarts x.2
  let good := starts.filter fun o => decide (r.base ≤ o) &&
    takens.all fun x => decide (needIn ts x.1 ≤ freeRun x.2 (r.base + r.len) o)
      && (decide (needIn ts x.1 = 0) || ((s.levees x.1).any fun l => l.kind = 0 ∧ l.ctx = c))
  good.foldl (fun a o => match a with | none => some o | some x => some (min x o)) none

/-- Tiles with their granules, one after another in each basin. -/
def layTiles (base : Nat) : List PkgTile → List (Nat × Nat) → List (PkgTile × Nat)
  | [], _ => []
  | t :: rest, used =>
    let u := nget used 0 t.basin
    (t, base + u) :: layTiles base rest (nins used t.basin (u + t.granules))

/-- Bytes of a shadow record, and where the records of a shadow region lie as usable offsets: none straddles the end
of a window range. -/
def PkgTile.recordLen (t : PkgTile) : Nat := cdiv (64 + t.hdr.len) 256 * 256
def layShadows : Nat → List PkgTile → List Nat
  | _, [] => []
  | u, t :: rest =>
    let u := if u / siphonData = (u + t.recordLen - 1) / siphonData then u else (u / siphonData + 1) * siphonData
    u :: layShadows (u + t.recordLen) rest

/-- 16 MiB units a shadow region of these tiles takes. -/
def shadowUnits (ts : List PkgTile) : Nat :=
  let n := (ts.map (·.recordLen)).foldl (· + ·) 0
  cdiv (n + (n / siphonData + 1) * 9216) (2 ^ 24)

/-- The descriptor of a placed tile (R37, R224): bound, closed, of the weight class. -/
def placedDesc (old : BitVec 512) (c base : Nat) (t : PkgTile) (shadow : Option Nat) : BitVec 512 :=
  let h := t.hdr
  let check := if h.weight then h.check else (h.decode t.payload).checkOf true
  let v : BitVec 512 := 0
  let v := setFld (setFld (setFld v 0 18 base) 18 6 t.granules) 24 13 h.len
  let v := setFld (setFld v 40 8 h.fmt) 48 4 h.pair
  let v := setFld (setFld (setFld v 64 9 h.rows) 80 13 h.cols) 96 4 c
  let v := setBit (setBit (setBit v 122 h.raw) 123 true) 124 h.zmapValid
  let v := setFld (setFld v 128 64 check.toNat) 192 64 h.zmap.toNat
  let v := setFld (setFld (setFld v 256 32 (fld old 256 32)) 288 16 h.clip) 304 16 h.maxMag
  let v := match shadow with
    | some u => setBit (setFld v 384 29 ((windowOf u - stackBase) / 256)) 447 true
    | none => v
  dNextGen v

/-- Place one tile: its words, its descriptor, Rosog's placement record, its shadow record. -/
def State.placeTile (s : State) (c : Nat) (x : (PkgTile × Nat) × Option Nat) : State :=
  let t := x.1.1
  let v := placedDesc (s.descOf t.basin t.desc) c x.1.2 t x.2
  let s := (s.writeWords t.basin (x.1.2 * 4) t.payload).putDesc t.basin t.desc v
  let s := { s with placements := nset s.placements 0 (dkey t.basin t.desc) v }
  match x.2 with
  | some u =>
    let bs := recordHeader v true ++ t.payload
    s.stackWrite (windowOf u) (bs ++ List.replicate (t.recordLen - bs.length) 0)
  | none => s

/-- A tile placed in the second pass and filled again. -/
def State.unplaceTile (s : State) (x : PkgTile × Nat) : State :=
  s.zeroWords x.1.basin (x.2 * 4) ((x.2 + x.1.granules) * 4)

/-- The most descriptors used in one basin. -/
def mostIn (ts : List PkgTile) (bs : List Nat) : Nat :=
  (bs.map fun b => (ts.filter fun t => t.basin = b).length).foldl max 0

/-- Everything placed. -/
def State.placeModel (s : State) (p : Packet) (c base : Nat) (ts : List PkgTile) (bs : List Nat)
    (shadow : Option (Nat × Nat × Nat)) : State :=
  let r := s.ctx c
  let regs := (bs.filter fun b => needIn ts b ≠ 0).map fun b => (⟨b, base, needIn ts b, some p.pkgSlot⟩ : Placed)
  let s := regs.foldl (fun (s : State) x => s.addLevee x.basin 1 c x.base x.len (0, 0, 0, 0)) s
  let s := match shadow with
    | some (n, u, phys) => s.addRegion n false 15 phys (shadowUnits ts) u (s.newSet false)
    | none => s
  let s := s.putCtx c { r with
    placed := r.placed ++ regs, shadowRgns := r.shadowRgns ++ (match shadow with | some (n, _, _) => [n] | none => []) }
  let us := match shadow with
    | some (_, u, _) => (layShadows (u * 2 ^ 24) ts).map some
    | none => ts.map fun _ => none
  ((layTiles base ts []).zip us).foldl (fun (s : State) x => s.placeTile c x) s

/-- A range error of the packet, with the decode error it counts (R25). -/
def State.rangeRefuse (s : State) (r : Refusal1) : State × Option Outcome :=
  (if r.decode then s.bump .errDecodeCnt 0 32 else s, some (.refuse r.status))

/-- A descriptor that would be used is `OPEN`, locked or above 16,319. -/
def State.loadDescBad (s : State) (ts : List PkgTile) : Bool :=
  ts.any fun t => decide (t.desc > 16319) ||
    (t.basin < s.cfg.basins && (dOpen (s.descOf t.basin t.desc) || dOwner (s.descOf t.basin t.desc) ≠ 0))

/-- MODEL_LOAD's decision: `hd` is the header, `body` the decrypted body. Word 0 of a `NO_SPACE` is the largest free run, as R43 gives it
for a stream buffer (DESIGN CHOICE, log entry 82). -/
def State.loadModel (s : State) (h : Handed) (keyOk tagsOk : Bool) (body : List Byte) : State × Option Outcome :=
  let p := h.pkt
  let c := h.ctx
  let bs := bitsSet p.pkgMask 64
  let refuse := fun (s : State) (st : Status) => (s, some (Outcome.refuse st))
  if !p.reservedClear pkgFields || p.pkgAddr % 256 ≠ 0 || s.unbuilt p.pkgMask || (p.pkgShadow && s.cfg.siphons = 0)
      || decide (p.pkgDesc > 16319) then
    refuse s .badParam
  else match s.pkgRange c p.pkgAddr 256 with
  | some r => s.rangeRefuse r
  | none =>
    if s.maskRetired p.pkgMask ∨ bs.any s.retiring.contains then refuse s .notReady
    -- its reads keep the order of their blocks, and its shadow records find their slots; until then Rosog waits (R297, R301)
    else if !s.pkgFree p.pkgAddr 256 ∨ (p.pkgShadow ∧ !s.streamRoom) then (s, none)
    else
      let s0 := s
      let (s, hd, ok0) := s.pkgRead p.pkgAddr 256
      let bodyLen := leNat ((hd.drop 16).take 8)
      let len := 256 + bodyLen + 16 * cdiv bodyLen (2 ^ 20)
      match s.pkgRange c p.pkgAddr len with
      | some r => s.rangeRefuse r
      | none =>
        if !s.pkgFree p.pkgAddr len then (s0, none) else
        let (s, _, ok1) := s.pkgRead (p.pkgAddr + 256) (if ok0 then len - 256 else 0)
        let tiles := if ok0 && ok1 && keyOk && tagsOk && s.pkgHeader c p.pkgSlot hd body then
            pkgTiles p.pkgDesc (leNat ((hd.drop 12).take 4)) body else none
        match tiles with
        | none => refuse s .accessDenied
        | some ts =>
          let shadow := if p.pkgShadow && !ts.isEmpty then s.fitStack false (shadowUnits ts) else none
          let fits := (!p.pkgShadow || ts.isEmpty || shadow.isSome)
            && bs.all fun b => decide (needIn ts b = 0) || (s.freeLevee b).isSome
          if s.loadDescBad ts then refuse s .badParam
          else if ts.any fun t => !bit p.pkgMask t.basin || !s.descAllotted c t.basin t.desc then refuse s .accessDenied
          else match s.weightBase c ts bs p.pkgAddr len, fits, ts.find? (!·.sound) with
          | some base, true, none =>
            if s.rfld (.secCtxSt c) 4 4 ≠ 0 then refuse s .refusedState
            else
              (s.placeModel p c base ts bs shadow, some (Outcome.words ts.length
                ((ts.map (·.granules)).foldl (· + ·) 0) base (mostIn ts bs)))
          | some base, true, some _ =>
            -- the tiles the second pass had placed are filled again
            let placed := (layTiles base ts []).takeWhile (·.1.sound)
            refuse (placed.foldl State.unplaceTile s) .accessDenied
          | _, _, some _ => refuse s .accessDenied
          | _, _, none =>
            let most := (bs.map fun b => longestRun (s.loadTaken c b p.pkgAddr len)
              ((s.ctx c).base + (s.ctx c).len)).foldl max 0
            (s, some { Outcome.words most 0 0 0 with status := .noSpace, refused := true })

/-- MODEL_LOAD (R224, R373–R375): `keyOk` and `tagsOk` say whether the package key and the chunk tags authenticate. -/
def execModelLoad (src : Src) (pkt : Packet) (keyOk tagsOk : Bool) (body : List Byte) (s : State) :
    Host.Outcome State Fault Refusal :=
  ok (s.control src { pkt with opcode := 0x47 } fun s h => s.loadModel h keyOk tagsOk body)

end Sys2Proof.Machine
end

