-- ==== Sys2Proof/Machine/Responder.lean ====
section
/-! DEFINITION. The SPDM and TDISP responder (R379–R386): sessions, responses by content, interface states. -/

namespace Sys2Proof.Machine

/-! ### Responses -/

def State.say (s : State) (x : SpdmResp) : State := { s with spdm := { s.spdm with resp := x } }

/-- SPDM response codes (PRESUMED: DMTF DSP0274). -/
def SpdmResp.code : SpdmResp → Nat
  | .none => 0
  | .versions => 0x04 | .capabilities => 0x61 | .algorithms => 0x63
  | .digests _ => 0x01 | .certificate _ => 0x02 | .challengeAuth _ => 0x03 | .measurements _ _ => 0x60
  | .keyExchangeRsp _ => 0x64 | .finishRsp => 0x65 | .endSessionAck => 0x6C
  | .responseNotReady _ _ _ | .errorUnsupported _ | .errorUnexpected | .errorBusy => 0x7F
  | _ => 0x7E

/-- TDISP error codes (PRESUMED: PCI-SIG). -/
def tdispUnsupportedRequest : Nat := 0x07
def tdispInvalidState : Nat := 0x04
def tdispInvalidInterface : Nat := 0x101
def tdispInvalidConfig : Nat := 0x104

/-- UPDATE_RELEASED of SEC_CTX_ST (R387). -/
def State.showReleased (s : State) (c : Nat) : State :=
  s.putFld (.secCtxSt c) 3 1 ((s.ctx c).released || (s.ctx c).lockedFwOk).toNat

/-- A locked or running interface goes to ERROR: its context is faulted. -/
def State.tdispError (s : State) (c : Nat) : State :=
  if s.tdisp c = tdispLocked ∨ s.tdisp c = tdispRun then (s.setTdisp c tdispErr).faultContext c else s

/-- Levee entries of a context put back after its scrub, with the allotments' CTX (R363, R384). -/
def State.restoreLevees (s : State) (c : Nat) (es : List (Nat × Nat × Word64 × Word64)) : State :=
  es.foldl (fun (s : State) e =>
    let z := e.2.2.2
    let s := (s.putReg (.bsnLeveeA e.1 e.2.1) e.2.2.1).putReg (.bsnLeveeB e.1 e.2.1) z
    if leveeKind e.2.2.1 = 0 then s.ownAllotment e.1 c (fld z 50 14, fld z 32 14, fld z 16 12, fld z 0 12) else s) s

/-- STOP_INTERFACE_REQUEST's effect begins (R384): work ended, then the scrub. -/
def State.stopContext (s : State) (c : Nat) : State :=
  let s := (s.endWork c none).1
  ((s.breakLocks c).1).askScrub c (.stop none)

/-- After the scrub (R384): new keys, rings reset, levee entries restored, `CONFIG_UNLOCKED`. -/
def State.stopDone (s : State) (c : Nat) (es : List (Nat × Nat × Word64 × Word64)) : State :=
  let s := s.restoreLevees c es
  let s := (s.putCtx c { s.ctx c with
    faulted := false, keyGen := s.freeUses + 1, lockedFwOk := false, ackPending := 0 }).loadKeys c (s.freeUses + 1)
  let s := (((s.putReg (.ringDb c) 0).putReg (.ringHead c) 0).putReg (.ringRtail c) 0).putReg (.ringRhead c) 0
  let s := s.putRing c { RingRun.empty with stats := (s.ring c).stats }
  let s := s.putFld (.ringSt c) 0 4 (if s.active = some c then 1 else 2)
  (((s.setTdisp c tdispUnlocked).putFld (.secCtxSt c) 32 8 0xFF).showReleased c).useFree.showSessions

/-! ### Sessions (R382) -/

def State.session? (s : State) (i : Nat) : Option Session := s.spdm.sessions.find? fun x => x.id = i
def State.putSession (s : State) (x : Session) : State :=
  { s with spdm := { s.spdm with sessions := s.spdm.sessions.map fun (y : Session) => if y.id = x.id then x else y } }

/-- A session ends: interfaces it locked go to ERROR. -/
def State.dropSession (s : State) (i : Nat) : State :=
  let s := { s with spdm := { s.spdm with sessions := s.spdm.sessions.filter fun x => x.id ≠ i } }
  let locked := (List.range 8).filter fun c => s.rfld (.secCtxSt c) 32 8 = i
  (locked.foldl State.tdispError s).showSessions

/-- A session attested and owned by ring 8 (R383). -/
def State.tdispSession (s : State) (r : SpdmReq) : Bool :=
  match s.session? r.session.toNat with
  | some x => x.ring = 8 && r.ring = 8 && x.finished && x.attested
  | none => false

/-! ### Measurements (R381) -/

/-- A verified image waits in the staging slot. -/
def State.stagedVerified (s : State) : Bool := s.stage = 2 || s.stage = 3 || s.stage = 4

/-- Blocks by index; digests stand for their generation. -/
def State.measurement (s : State) (i : Nat) : Option (Nat × List Word64) :=
  match i with
  | 1 => some (1, [])
  | 2 => some (2, [BitVec.ofNat 64 s.spdm.measured2])
  | 3 => some (3, [BitVec.ofNat 64 (s.rfld .secSt 40 8), BitVec.ofNat 64 s.cistern.arCounter, BitVec.ofNat 64 s.running.keyIndex])
  | 4 => some (4, [s.cfg.config0, s.cfg.config1, s.reg .devBasinLive, BitVec.ofNat 64 s.siphonsUp.length])
  | 5 => some (5, [BitVec.ofNat 64 (s.testEn.toNat + 2 * s.unlocked.toNat + 4 * s.cistern.ownerLock.toNat
      + 8 * (s.rfld .secObsCfg 0 1))])
  | 6 => if s.stagedVerified then
      match s.cistern.staged with | some im => some (6, [im.build, BitVec.ofNat 64 im.svn]) | none => none
    else none
  | _ => none

/-- GET_MEASUREMENTS: the blocks named by the operation byte. -/
def State.measurementsOf (s : State) (op : Nat) : Option (List (Nat × List Word64)) :=
  if op = 0 then some []
  else if op = 0xFF then some ([1, 2, 3, 4, 5, 6].filterMap s.measurement)
  else (s.measurement op).map fun b => [b]

/-! ### Requests -/

/-- A run of usable offsets as ranges of site addresses, cut at each siphon's usable end (R291). -/
def siphonRuns (u len : Nat) : List (Nat × Nat) :=
  (List.range (len / siphonData + 2)).filterMap fun i =>
    let lo := max u ((u / siphonData + i) * siphonData)
    let hi := min (u + len) ((u / siphonData + i + 1) * siphonData)
    if lo < hi then some (windowOf lo, hi - lo) else none

/-- Ranges of an interface report, as address and length (R383). -/
def State.reportRanges (s : State) (c : Nat) : List (Nat × Nat) :=
  let r := s.ctx c
  let basins := (bitsSet r.mask 64).map fun b => (b * 2 ^ s.cfg.strideLog2 + r.base * 256, r.len * 256)
  let far := (s.regions.filter fun x => x.ctx = c).flatMap fun x => siphonRuns x.base x.len
  (regBase + (Reg.ringCmd c).offset, 0x40) :: (basins ++ far)

/-- A TDISP request to an interface, whose context must be resident. -/
def State.tdispAt (s : State) (r : SpdmReq) (c : Nat) (k : State → State) : State :=
  if !s.tdispSession r then s.say .errorUnexpected
  else if c ≥ 8 ∨ !s.resident c then s.say (.tdispError tdispInvalidInterface)
  else k s

/-- LOCK_INTERFACE_REQUEST. -/
def State.lockIface (s : State) (session c : Nat) (noFw : Bool) : State :=
  if s.tdisp c ≠ tdispUnlocked then s.say (.tdispError tdispInvalidState)
  else if bit (s.reg .secObsCfg) 0 then s.say (.tdispError tdispInvalidConfig)
  else
    let s := (s.setTdisp c tdispLocked).putFld (.secCtxSt c) 32 8 session
    let s := s.putCtx c { s.ctx c with lockedFwOk := !noFw }
    (s.showReleased c).say .tdispLocked

/-- Certificate slot 0 alone is supported: the slot that a request names (R380). -/
def slotZero (slot : Byte) : Bool := fld slot 0 4 = 0

/-- The SPDM request code of a call (PRESUMED: DMTF DSP0274). -/
def SpdmCall.code : SpdmCall → Byte
  | .getVersion => 0x84 | .getCapabilities => 0xE1 | .negotiate _ => 0xE3 | .getDigests => 0x81
  | .getCertificate => 0x82 | .challenge => 0x83 | .getMeasurements => 0xE0 | .keyExchange _ => 0xE4
  | .finish _ => 0xE5 | .endSession => 0xEC | .unsupported code => code | _ => 0xFE

/-- A request in version 1.2 or 1.3 (R380); `GET_VERSION`, which asks for the versions, comes in version 1.0 (PRESUMED: DMTF DSP0274). -/
def versionFits (r : SpdmReq) (c : SpdmCall) : Bool := r.version = 0x12 || r.version = 0x13 || c.code = 0x84

/-- The lowest session number not in use. -/
def State.newSession (s : State) : Nat := ((List.range 8).find? fun i => (s.session? (i + 1)).isNone).getD 8 + 1

/-- What a request does and what is answered (R380–R384). -/
def State.answer (s : State) (r : SpdmReq) (c : SpdmCall) : State :=
  let sid := r.session.toNat
  match c with
  | .getVersion => s.say .versions
  | .getCapabilities => s.say .capabilities
  | .negotiate good =>
    if good then ({ s with spdm := { s.spdm with negotiated := true } }).say .algorithms else s.say (.errorUnsupported 0xE3)
  | .getDigests => s.say (.digests s.spdm.aliasGen)
  | .getCertificate => if slotZero r.param1 then s.say (.certificate s.spdm.aliasGen) else s.say (.errorUnsupported 0x82)
  | .challenge => if slotZero r.param1 then s.say (.challengeAuth s.spdm.aliasGen) else s.say (.errorUnsupported 0x83)
  | .getMeasurements =>
    if bit r.param1 0 ∧ !slotZero r.slot then s.say (.errorUnsupported 0xE0)
    else match s.measurementsOf r.param2.toNat with
    | none => s.say .errorUnexpected
    | some bs =>
      let signed := bit r.param1 0
      let s := match s.session? sid with
        | some x => if signed && x.finished then s.putSession { x with attested := true } else s
        | none => s
      s.say (.measurements bs signed)
  | .keyExchange entropyOk =>
    if !slotZero r.param2 then s.say (.errorUnsupported 0xE4)
    else if s.spdm.sessions.length ≥ 8 then s.say .errorBusy
    else if !entropyOk then s.say .none
    else
      let i := s.newSession
      let s : State := { s with spdm := { s.spdm with sessions := s.spdm.sessions ++ [(⟨i, r.ring, false, false⟩ : Session)] } }
      s.showSessions.say (.keyExchangeRsp i)
  | .finish good =>
    match s.session? sid with
    | some x => if good then (s.putSession { x with finished := true }).say .finishRsp
      else (s.dropSession sid).say .errorUnexpected
    | none => s.say .errorUnexpected
  | .endSession =>
    match s.session? sid with
    | some _ => (s.dropSession sid).say .endSessionAck
    | none => s.say .errorUnexpected
  | .unsupported code => s.say (.errorUnsupported code)
  | .tdispVersion i => s.tdispAt r i fun s => s.say .tdispVersion
  | .tdispCapabilities i => s.tdispAt r i fun s => s.say .tdispCapabilities
  | .lockInterface i noFw => s.tdispAt r i fun s => s.lockIface sid i noFw
  | .interfaceReport i => s.tdispAt r i fun s => s.say (.tdispReport (s.reportRanges i))
  | .interfaceState i => s.tdispAt r i fun s => s.say (.tdispState (s.tdisp i))
  | .startInterface i => s.tdispAt r i fun s =>
    if s.tdisp i = tdispLocked then (s.setTdisp i tdispRun).say .tdispStarted else s.say (.tdispError tdispInvalidState)
  | .stopInterface i => s.tdispAt r i fun s =>
    if s.tdisp i = tdispUnlocked then s.say (.tdispError tdispInvalidState)
    -- a failed health test leaves the request without the fresh keys it needs (R359)
    else if !r.entropyOk then s.say .none
    -- answered after the scrub
    else s.stopContext i
  | .tdispUnsupported _ _ =>
    if s.tdispSession r then s.say (.tdispError tdispUnsupportedRequest) else s.say .errorUnexpected

/-- ResponseNotReady while Rosog cannot take packets: RDTExponent 13 in a handover's window, 16 in a partial reset; each ring's
request is kept, a later one in place of an earlier (R386). -/
def State.notReadyNow (s : State) : Bool := s.windowOpen || s.controlDown
def State.notReady (s : State) (token : Nat) : State :=
  s.say (.responseNotReady (if s.controlDown then 16 else 13) 1 token)
def State.answerLater (s : State) (r : SpdmReq) (c : SpdmCall) : State :=
  let token := s.spdm.token % 255 + 1
  { s with spdm := { s.spdm with
      token := token, held := (s.spdm.held.filter fun (x : Nat × SpdmReq × SpdmCall) => x.2.1.ring ≠ r.ring) ++ [(token, r, c)] } }.notReady token

/-- The request kept for a ring. -/
def State.heldOf (s : State) (ring : Nat) : Option (Nat × SpdmReq × SpdmCall) :=
  s.spdm.held.find? fun (x : Nat × SpdmReq × SpdmCall) => x.2.1.ring = ring

/-- A request reaches the responder: in a session of the sending ring that authenticates, or plain. While a scrub runs it waits where it
is (R368). -/
def State.request (s : State) (r : SpdmReq) (c : SpdmCall) : State :=
  if !s.start.released || s.scrubbing then s
  else if s.notReadyNow then s.answerLater r c
  else if !versionFits r c then s.say (.errorUnsupported c.code)
  else if r.session = 0 then s.answer r c
  else match s.session? r.session.toNat with
    | none => s.say .errorUnexpected
    | some x =>
      if x.ring ≠ r.ring then s.say .errorUnexpected
      else if !r.tagOk then (s.dropSession x.id).say .errorUnexpected
      else s.answer r c

/-- RESPOND_IF_READY: the held request is answered once the transition is over (R386). -/
def State.respondHeld (s : State) (r : SpdmReq) : State :=
  if !s.start.released || s.scrubbing then s
  else match s.heldOf r.ring with
  | none => s.say .errorUnexpected
  | some (token, r0, c) =>
    if r0.session ≠ r.session ∨ r.param2.toNat ≠ token then s.say .errorUnexpected
    else if s.notReadyNow then s.notReady token
    else ({ s with spdm := { s.spdm with held := s.spdm.held.filter fun (x : Nat × SpdmReq × SpdmCall) => x.2.1.ring ≠ r.ring } }).request r0 c

end Sys2Proof.Machine
end

