-- ==== Sys2Proof/Machine/SecurityPackets.lean ====
section
/-! DEFINITION. The security packets: `SPDM_MESSAGE` (R379, R386), `KEY_INSTALL` (R377), `WEIGHT_KEY_BIND` (R373),
`OWNER_LOCK` (R387). -/

namespace Sys2Proof.Machine

/-! ### Buffers in the home basin -/

/-- A buffer of a context ring: in the context's regions of its home basin. -/
def State.homeBuffer (s : State) (own : Option Nat) (b off len : Nat) : Bool :=
  match own with
  | some c => s.bytesInLevee c b off len
  | none => false

/-- A range touches a weight region. -/
def State.inWeights (s : State) (b off len : Nat) : Bool :=
  (s.levees b).any fun l => l.kind = 1 && decide (l.base * 256 < off + len ∧ off < (l.base + l.len) * 256)

/-- Start of the owner SPDM area's request and response halves (R379). -/
def SiteConfig.ownerReq (c : SiteConfig) : Nat := c.reserve + 40960
def SiteConfig.ownerRsp (c : SiteConfig) : Nat := c.reserve + 49152

/-- Where SPDM buffers may lie. -/
def State.spdmBuffer (s : State) (own : Option Nat) (b off len area : Nat) : Bool :=
  match own with
  | some c => s.bytesInLevee c b off len && !s.inWeights b off len
  | none => decide (area ≤ off ∧ off + len ≤ area + 8192)

/-! ### SPDM_MESSAGE -/

def spdmFields : List (Nat × Nat × Nat) := [(16, 0, 32), (20, 0, 16), (22, 0, 32), (26, 0, 16), (28, 0, 32)]

/-- A request's message as a call: its codes are the DMTF's (PRESUMED); what further bytes decide is left open. -/
def callOf (m : List Byte) : SpdmCall :=
  let f := fun (i : Nat) => Config.spdmField i m
  match (m.getD 1 0).toNat with
  | 0x84 => .getVersion
  | 0xE1 => .getCapabilities
  | 0xE3 => .negotiate (f 0 = 0)
  | 0x81 => .getDigests
  | 0x82 => .getCertificate
  | 0x83 => .challenge
  | 0xE0 => .getMeasurements
  | 0xE4 => .keyExchange (f 1 = 0)
  | 0xE5 => .finish (f 2 = 0)
  | 0xEC => .endSession
  | 0xFE =>
    let i := f 3
    match f 4 with
    | 0 => .tdispVersion i
    | 1 => .tdispCapabilities i
    | 2 => .lockInterface i (f 5 = 0)
    | 3 => .interfaceReport i
    | 4 => .interfaceState i
    | 5 => .startInterface i
    | 6 => .stopInterface i
    | 7 => .tdispUnsupported i (BitVec.ofNat 8 (f 6))
    | _ => .unsupported 0xFE
  | _ => .unsupported (m.getD 1 0)

/-- The response written to its buffer: its length, and its bytes but for the code of a plain message, are left open. -/
def State.writeResponse (s : State) (b off cap : Nat) (plain : Bool) : State × Outcome :=
  let n := s.freeUses
  let len := max 4 (min cap (Config.spdmLen n))
  let code := s.spdm.resp.code
  let bs := (List.range len).map fun i => if plain && i = 1 then BitVec.ofNat 8 code else Config.spdmByte n i
  let s := s.useFree.writeRange b off bs ⟨3, ditchTurnout⟩
  (s, if s.spdm.resp = .none then { Outcome.refuse .internal with refused := false } else Outcome.words len code 0 0)

/-- SPDM_MESSAGE's decision. -/
def State.spdmMessage (s : State) (h : Handed) (tagOk : Bool) : State × Option Outcome :=
  let p := h.pkt
  let req := p.p 16 0 32
  let reqLen := p.p 20 0 16
  let rsp := p.p 22 0 32
  let cap := p.p 26 0 16
  let sid := p.p 28 0 32
  let own := s.ctxOf h.src
  let lenOk := fun (n : Nat) => decide (4 ≤ n ∧ n ≤ 4160)
  let ring := match h.src with | .ring r => r | _ => 8
  if !p.reservedClear spdmFields || req % 64 ≠ 0 || rsp % 64 ≠ 0 || !lenOk reqLen || !lenOk cap then
    (s, some (.refuse .badParam))
  else if !s.spdmBuffer own h.basin req reqLen s.cfg.ownerReq || !s.spdmBuffer own h.basin rsp cap s.cfg.ownerRsp then
    (s, some (.refuse .accessDenied))
  else if s.scrubbing then (s, none)
  else
    let (s, raw, bad) := s.readRange h.basin req reqLen ⟨3, ditchTurnout⟩
    let m := if sid = 0 then raw else (List.range reqLen).map (Config.spdmPlain sid raw)
    let r : SpdmReq := ⟨ring, BitVec.ofNat 32 sid, tagOk, m.getD 2 0, m.getD 3 0, m.getD 0 0, m.getD 36 0, Config.spdmField 7 m = 0⟩
    let s := if bad then s.say .errorUnexpected
      else if (m.getD 1 0).toNat = 0xFF then s.respondHeld r
      else s.request r (callOf m)
    -- a stop is answered after its scrub (R384)
    if s.scrubbing then
      ({ s with scrubs := s.scrubs.map fun (x : ScrubRun) => if x.what = .stop none then { x with what := .stop (some h) } else x }, none)
    else
      let (s, o) := s.writeResponse h.basin rsp cap (sid = 0)
      (s, some o)

/-- While Rosog cannot take packets, the ring's ditch rider answers from its template (R386). -/
def State.spdmTemplate (s : State) (src : Src) (p : Packet) (tagOk : Bool) : State :=
  let s := if (s.handed? src p).isSome then s else s.arrive src p
  match s.handed? src p with
  | none => s
  | some h => match s.spdmMessage h tagOk with
    | (t, some o) => t.finishHanded h o
    | (t, none) => t

/-- SPDM_MESSAGE (R379–R386): `tagOk` says whether a secured message authenticates. -/
def execSpdmMessage (src : Src) (pkt : Packet) (tagOk : Bool) (s : State) : Host.Outcome State Fault Refusal :=
  let p := { pkt with opcode := 0x80 }
  ok (if s.start.released && s.notReadyNow then s.spdmTemplate src p tagOk
    else s.control src p fun s h => s.spdmMessage h tagOk)

/-! ### Key slots (R360) -/

def State.keySlot (s : State) (c i : Nat) : KeySlot := (s.ctx c).keySlots.getD i .empty
def State.setKeySlot (s : State) (c i : Nat) (k : KeySlot) : State :=
  let r := s.ctx c
  s.putCtx c { r with keySlots := r.keySlots.zipIdx.map fun (x : KeySlot × Nat) => if x.2 = i then k else x.1 }

/-- A key slot emptied or given another key. The counter of a job key that goes is kept for exchanges under it (R377, R378). -/
def State.replaceKey (s : State) (c i : Nat) (k : KeySlot) : State :=
  let g := s.keyGenOf c i
  let n := match s.jobKey c i with | some (_, _, n) => n | none => 0
  let s : State := { s with oldSends := nset s.oldSends 0 (sendKey c i g) n, keyGens := nset s.keyGens 0 (c * 16 + i) (g + 1) }
  s.setKeySlot c i k

/-- A set slot that a weight region of its context uses. -/
def State.slotInUse (s : State) (c i : Nat) : Bool :=
  (match s.keySlot c i with | .set _ _ => true | _ => false) && (s.ctx c).placed.any fun x => x.slot = some i

/-- The session of a key blob belongs to the issuing ring and is attested. -/
def State.keySession (s : State) (ring sid : Nat) : Bool :=
  match s.session? sid with | some x => x.ring = ring && x.finished && x.attested | none => false

/-! ### WEIGHT_KEY_BIND -/

def bindFields : List (Nat × Nat × Nat) :=
  [(16, 0, 4), (17, 0, 8), (18, 0, 32), (22, 0, 32), (26, 0, 32), (30, 0, 32)]

/-- Members listed in a buffer. -/
def membersOf : List Byte → List Nat
  | a :: b :: rest => (a.toNat + 256 * b.toNat) :: membersOf rest
  | _ => []

def State.bindKey (s : State) (h : Handed) (tagOk : Bool) : State × Option Outcome :=
  let p := h.pkt
  let c := h.ctx
  let own := s.ctxOf h.src
  let slot := p.p 16 0 4
  let n := p.p 17 0 8
  let id := p.p 18 0 32
  let blob := p.p 22 0 32
  let sid := p.p 26 0 32
  let list := p.p 30 0 32
  if !p.reservedClear bindFields || n = 0 || n > 64 || id = 0 || blob % 64 ≠ 0 || list % 64 ≠ 0
      || !s.homeBuffer own h.basin blob 60 || !s.homeBuffer own h.basin list (2 * n) then (s, some (.refuse .badParam))
  else
    let (s, _, bad0) := s.readRange h.basin blob 60 ⟨3, ditchTurnout⟩
    let (s, bs, bad1) := s.readRange h.basin list (2 * n) ⟨3, ditchTurnout⟩
    let members := membersOf bs
    if !s.keySession c sid || !tagOk || bad0 || bad1 || !members.contains s.siteId then
      (s, some (.refuse .accessDenied))
    else
      let job := match s.keySlot c slot with | .job _ _ _ _ => true | _ => false
      if job || s.slotInUse c slot then (s, some (.refuse .busy))
      else if s.frozen c then (s, some (.refuse .refusedState))
      else (s.replaceKey c slot (.set (BitVec.ofNat 32 id) members), some (Outcome.words id 0 0 0))

/-- WEIGHT_KEY_BIND (R373): `tagOk` says whether the blob authenticates. -/
def execWeightKeyBind (src : Src) (pkt : Packet) (tagOk : Bool) (s : State) : Host.Outcome State Fault Refusal :=
  ok (s.control src { pkt with opcode := 0x84 } fun s h => s.bindKey h tagOk)

/-! ### KEY_INSTALL -/

def installFields : List (Nat × Nat × Nat) := [(16, 0, 4), (17, 0, 2), (18, 0, 32), (22, 0, 32), (26, 0, 32)]

/-- A job identifier installed in another slot of the site. -/
def State.jobElsewhere (s : State) (c slot : Nat) (job : BitVec 32) : Bool :=
  (List.range 8).any fun c' => (s.ctx c').keySlots.zipIdx.any fun (x : KeySlot × Nat) =>
    match x.1 with
    | .job j _ _ _ => j = job && !(c' = c && x.2 = slot)
    | _ => false

def State.installKey (s : State) (h : Handed) (tagOk : Bool) : State × Option Outcome :=
  let p := h.pkt
  let c := h.ctx
  let own := s.ctxOf h.src
  let slot := p.p 16 0 4
  let remove := p.p 17 1 1 = 1
  let e1 := p.p 17 0 1 = 1
  let job := p.p 18 0 32
  let blob := p.p 22 0 32
  if !p.reservedClear installFields || own.isNone then (s, some (.refuse .badParam))
  else if remove then
    if s.slotInUse c slot then (s, some (.refuse .busy))
    else if s.frozen c then (s, some (.refuse .refusedState))
    else (s.replaceKey c slot .empty, some Outcome.ok)
  else if job = 0 || blob % 64 ≠ 0 || !s.homeBuffer own h.basin blob 60 then (s, some (.refuse .badParam))
  else
    let (s, _, bad) := s.readRange h.basin blob 60 ⟨3, ditchTurnout⟩
    if !s.keySession c (p.p 26 0 32) || !tagOk || bad then (s, some (.refuse .accessDenied))
    else if s.jobElsewhere c slot (BitVec.ofNat 32 job) || s.slotInUse c slot then (s, some (.refuse .busy))
    else if s.frozen c then (s, some (.refuse .refusedState))
    else (s.replaceKey c slot (.job (BitVec.ofNat 32 job) e1 0 []), some Outcome.ok)

/-- KEY_INSTALL (R377): `tagOk` says whether the blob authenticates. -/
def execKeyInstall (src : Src) (pkt : Packet) (tagOk : Bool) (s : State) : Host.Outcome State Fault Refusal :=
  ok (s.control src { pkt with opcode := 0x81 } fun s h => s.installKey h tagOk)

/-! ### OWNER_LOCK -/

def lockAskFields : List (Nat × Nat × Nat) := [(16, 0, 8), (17, 0, 8)]

/-- SEC_ST's view of the owner lock and of the fused counter. -/
def State.showOwner (s : State) : State :=
  (s.putFld .secSt 5 1 s.cistern.ownerLock.toNat).putFld .secSt 48 8 s.cistern.arCounter

def State.ownerLockAsk (s : State) (h : Handed) : State × Option Outcome :=
  let p := h.pkt
  let action := p.p 16 0 8
  let svn := p.p 17 0 8
  let own := s.ctxOf h.src
  let k := s.cistern
  if !p.reservedClear lockAskFields || action > 4 then (s, some (.refuse .badParam))
  else if (action = 2 || action = 3) ≠ own.isSome then (s, some (.refuse .accessDenied))
  else match action with
    | 0 => (({ s with cistern := { k with ownerLock := true } }).showOwner, some Outcome.ok)
    | 1 => (({ s with cistern := { k with ownerLock := false } }).showOwner, some Outcome.ok)
    | 2 => ((s.putCtx h.ctx { s.ctx h.ctx with released := true }).showReleased h.ctx, some Outcome.ok)
    | 3 => ((s.putCtx h.ctx { s.ctx h.ctx with released := false }).showReleased h.ctx, some Outcome.ok)
    | _ =>
      if svn < k.arCounter ∨ svn > 64 ∨ svn > k.slotA.svn ∨ svn > k.slotB.svn then (s, some (.refuse .refusedState))
      else (({ s with cistern := { k with arCounter := svn } }).showOwner, some Outcome.ok)

/-- OWNER_LOCK (R358, R387). -/
def execOwnerLock (src : Src) (pkt : Packet) (s : State) : Host.Outcome State Fault Refusal :=
  ok (s.control src { pkt with opcode := 0x83 } State.ownerLockAsk)

end Sys2Proof.Machine
end

