-- ==== Sys2Proof/Machine/Reach.lean ====
section
/-! DEFINITION. The site's address map and who reaches what (R6, R20, R23–R26, R32, R361–R364, R388, R425, R433,
R434). -/

namespace Sys2Proof

open Machine

/-- The turnout a window access takes (R156). -/
def Requester.turnout : Requester → Nat
  | .headgate => 26
  | _ => ditchTurnout

end Sys2Proof

namespace Sys2Proof.Machine

/-! ### Where an address lies -/

/-- What an access meets. -/
inductive Place where
  /-- No populated address: a decode error. -/
  | nowhere
  | mem (b off : Nat)
  /-- Descriptor `d` of basin `b`, from byte `o` of it. -/
  | desc (b d o : Nat)
  | gauge (b g o : Nat)
  /-- A register, from byte `o` of it. -/
  | reg (r : Reg) (o : Nat)
  | stack (a : Nat)
  deriving DecidableEq, Repr

/-- Naturally aligned accesses of 4 or 8 bytes, which registers take (R6). -/
def regSize (a n : Nat) : Bool := (n = 4 || n = 8) && a % n = 0

/-- The place of an access of `n` bytes at `a`: an access that leaves its object, or a register access of another
width or alignment, meets none. -/
def State.placeOf (s : State) (a n : Nat) : Place :=
  if n = 0 then .nowhere
  else if a < 2 ^ 32 then
    match s.cfg.basinAt a with
    | some (b, off) => if s.live b ∧ off + n ≤ s.cfg.basinBytes then .mem b off else .nowhere
    | none => .nowhere
  else if 2 ^ 32 ≤ a ∧ a < 2 ^ 32 + 0x4000000 then
    let o := a - 2 ^ 32
    let b := o / 0x100000
    if b < s.cfg.basins ∧ s.live b ∧ o % 64 + n ≤ 64 then .desc b (o % 0x100000 / 64) (o % 64) else .nowhere
  else if 2 ^ 33 ≤ a ∧ a < 2 ^ 33 + 0x200000 then
    let o := a - 2 ^ 33
    let b := o / 0x8000
    if b < s.cfg.basins ∧ s.live b ∧ o % 8 + n ≤ 8 then .gauge b (o % 0x8000 / 8) (o % 8) else .nowhere
  else if regBase ≤ a ∧ a < regBase + 0x2000000 then
    if regSize a n then
      match Reg.ofOffset s.cfg ((a - regBase) / 8 * 8) with
      | some r => .reg r (a % 8)
      | none => .nowhere
    else .nowhere
  else if stackBase ≤ a ∧ a < stackBase + 2 ^ 37 then
    match s.cfg.usableRange a n with
    | some ps => if ps.all fun p => covered (s.regions.map fun r => (r.base, r.len)) 65 p.1 p.2 then .stack a else .nowhere
    | none => .nowhere
  else .nowhere

/-! ### Reach -/

/-- Ring 8's memory in its home basin and basin 0's owner areas (R198, R289, R379). -/
def State.ownerMemory (s : State) (b off n : Nat) : Bool :=
  let cmd := s.rfld (.ringCmd 8) 0 18 * 256
  let rpl := s.rfld (.ringRpl 8) 0 18 * 256
  let within := fun (lo len : Nat) => decide (lo ≤ off ∧ off + n ≤ lo + len)
  (b = s.rfld (.ringCmd 8) 48 8
      && (within cmd (2 ^ s.rfld (.ringCmd 8) 40 4 * 64) || within rpl (2 ^ s.rfld (.ringRpl 8) 40 4 * 32)))
    || b = 0 && (within s.cfg.ownerLog ownerLogLen || within s.cfg.ownerReq 8192 || within s.cfg.ownerRsp 8192)

/-- FULL_RES (R388). -/
def State.fullRes (s : State) : Bool := bit (s.reg .secObsCfg) 0

/-- Blocks as the owner function reaches them (R362, R434). -/
def State.ownerReg (s : State) (r : Reg) (write : Bool) : Bool :=
  match r.block with
  | .dev | .err => true
  | .ring k => k = 8
  | .pwr | .sec => !write
  | .rest => !write && s.fullRes

/-- Blocks as a locked headgate reads them. -/
def lockedHeadgateReg (r : Reg) : Bool :=
  match r.block with
  | .dev | .ring _ | .pwr | .err => true
  | .sec => r = .secSt
  | .rest => false

/-- The fuses have been read: step 3 has ended (R338). -/
def State.fusesRead (s : State) : Bool := decide (s.start.step ≥ 4)

/-- Registers as the management bus reaches them (R424, R425); DEV_CONFIG0 and DEV_CONFIG1 from the end of step 3 on (R338). -/
def State.mgtReg (s : State) (r : Reg) (write : Bool) : Bool :=
  if (r = .devConfig0 || r = .devConfig1) && !s.fusesRead then false
  else if write then
    r = .devMgtAlert || r = .pwrVreq || (s.mgt.owner && (r = .pwrCap || r = .secObsCfg))
  else match r.block with
    | .dev | .ring _ | .pwr => true
    | .sec => r = .secSt || s.mgt.owner
    | _ => s.mgt.owner

/-- A requester reaches a place (R362, R434). Descriptors and gauges of a context are those of its allotment that carry
its CTX (R38, R52, R363). -/
def State.reaches (s : State) (who : Requester) (pl : Place) (n : Nat) (write : Bool) : Bool :=
  match who with
  | .core => true
  | .coreLocal | .coreFetch | .coreAtomic => false
  | .headgate =>
    s.unlocked || (!write && match pl with | .reg r _ => lockedHeadgateReg r | _ => false)
  | .mgt => match pl with | .reg r _ => s.mgtReg r write | _ => false
  | .iface c =>
    -- an interface whose ring is being destroyed reaches nothing (R371)
    if c < 8 then s.ringState c ≠ 4 && match pl with
      | .nowhere => false
      | .mem b off => s.bytesInLevee c b off n
      | .desc b d _ => s.descAllotted c b d && dCtx (s.descOf b d) = c
      | .gauge b g _ => s.gaugeAllotted c b g && s.gctx b g = c
      | .reg r _ => r.block = .ring c || (r = .clkRootCnt && !write)
      | .stack a => s.stackReach c a n = .own
    else
      match pl with
      | .mem b off => s.ownerMemory b off n
      | .reg r _ => s.ownerReg r write
      | _ => false

/-- The window answers: the site has power and is not in `DRY` (R350, R411). -/
def State.windowUp (s : State) : Bool := s.start.pwrGood && s.site ≠ stDry

/-- Basins, siphons and their memory answer accesses: not before release, not in `FALLOW` (R345). -/
def State.memoryUp (s : State) : Bool := s.start.released && s.site ≠ stFallow

end Sys2Proof.Machine
end

