-- ==== Sys2Proof/Machine/Windows.lean ====
section
/-! DEFINITION. Loads and stores through the address window: memory, descriptors (R38), gauges (R52), stack memory, and
every register with its write effects (R6, R7, R29, R36, R112, R172, R178–R183, R199, R200, R252, R255–R257, R295, R310,
R316, R318, R388, R435). -/

namespace Sys2Proof

open Machine

/-- Rosog, or the headgate under a debug unlock, writes (R434). -/
def Requester.rosog : Requester → Bool
  | .core | .headgate => true
  | _ => false

/-- Requesters that write counters (R435): the control core, interface 8 and the headgate, which reaches a register for writing
under a debug unlock alone. -/
def Requester.clearsCounters : Requester → Bool
  | .core | .iface 8 | .headgate => true
  | _ => false

/-- Reader kind and turnout of a window access (R237). -/
def Requester.reader (w : Requester) : Reader := ⟨3, w.turnout⟩

end Sys2Proof

namespace Sys2Proof.Machine

/-! ### Register reads -/

/-- What a register reads as: the fields computed on reading (R52, R178, R360, R388–R390), and a count rounded for a
tenant (R388). -/
def State.regValue (s : State) (who : Requester) (r : Reg) : Word64 :=
  match r with
  | .trnOtCur b t => s.otCurReg b t
  | .secSt => setBit (s.reg .secSt) 4 s.fullRes
  -- TRACKING follows the site's state and the suspension (R337)
  | .pwrMargin => s.showMargin.reg .pwrMargin
  | .secCtxSt c =>
    let used := ((s.ctx c).keySlots.zipIdx.filter fun x => x.1 ≠ .empty).map fun x => 2 ^ x.2
    setFld (s.reg (.secCtxSt c)) 16 16 (used.foldl (· + ·) 0)
  -- the last millisecond's average in steps of 8 W, AVG_1MS being in steps of 0.125 W (R390)
  | .ringPwr _ => BitVec.ofNat 64 (s.rfld .pwrPower 48 16 / 64)
  | .clkRootCnt =>
    let n := s.now
    let tenant : Bool := match who with | .iface c => decide (c < 8) | _ => false
    if tenant && !s.fullRes then BitVec.ofNat 64 (n / 1024 * 1024) else BitVec.ofNat 64 n
  | _ => s.reg r

/-- A read of TRN_LAT_ST that takes in HWM clears it (R179). -/
def State.readReg (s : State) (who : Requester) (r : Reg) (o n : Nat) : State × List Byte :=
  let v := s.regValue who r
  let s := match r with
    | .trnLatSt _ _ => if o = 0 then s.putFld r 0 16 0 else s
    | _ => s
  (s, ((leBytes 8 v.toNat).drop o).take n)

/-! ### Register writes -/

/-- Bits a store carries: bytes `o` to `o + n − 1`. -/
def laneMask (o n : Nat) : Word64 := maskOf (8 * o) (8 * n)

/-- Hardware counts and W1C bits of the present cycle, applied after a store (R7, R435): `lanes` are the bits the store
wrote. -/
def State.afterStore (s : State) (r : Reg) (lanes : Word64) : State :=
  s.fresh.foldr (fun u (s : State) =>
    match u with
    | .bump r' lo w n =>
      if r' = r ∧ maskOf lo w &&& lanes ≠ 0 then s.putFld r lo w (satAdd w (s.rfld r lo w) n) else s
    | .setBits r' m => if r' = r then s.putReg r (s.reg r ||| (m &&& lanes)) else s
    | .stream _ _ _ _ => s) s

/-- A store's effect on a register by its fields alone: RW fields set, W1C bits cleared by ones, counters set. -/
def fieldStore (old : Word64) (a : Access) (rw lanes data : Word64) : Word64 :=
  let m := (rw ||| a.counter) &&& lanes
  ((old &&& ~~~m) ||| (data &&& m)) &&& ~~~(a.w1c &&& lanes &&& data)

/-- A plain store to a register. -/
def State.plainStore (s : State) (r : Reg) (rw lanes data : Word64) : State :=
  let a := r.access
  (s.putReg r (fieldStore (s.reg r) a rw lanes data)).afterStore r ((a.counter ||| a.w1c) &&& lanes)

/-! #### Rings (R200) -/

/-- A TAIL written to a doorbell. One to an absent ring is ignored and not counted, which R200 leaves open (DESIGN CHOICE, log entry
82). -/
def State.doorbell (s : State) (r : Nat) (tail : Nat) : State :=
  let n := 2 ^ s.rfld (.ringCmd r) 40 4
  let head := s.ringHead r
  let old := s.ringTail r
  let d := fun (a b : Nat) => (a + 2 ^ 32 - b) % 2 ^ 32
  if s.ringState r = 0 then s
  else if d tail head > n ∨ d tail old ≥ 2 ^ 31 then s.bump (.ringSt r) 48 16
  else s.putFld (.ringDb r) 0 32 tail

/-- An RHEAD written by the host; to an absent ring as for a doorbell (DESIGN CHOICE, log entry 82). -/
def State.consumed (s : State) (r : Nat) (rhead : Nat) : State :=
  let old := s.rfld (.ringRhead r) 0 32
  let d := fun (a b : Nat) => (a + 2 ^ 32 - b) % 2 ^ 32
  if s.ringState r = 0 then s
  else if d (s.rfld (.ringRtail r) 0 32) rhead > s.rplEntries r ∨ d rhead old ≥ 2 ^ 31 then s.bump (.ringSt r) 48 16
  else s.putFld (.ringRhead r) 0 32 rhead

/-! #### Supplies (R316) -/

/-- The next request, where a level is wanted and none is pending. -/
def State.nextSupply (s : State) : State :=
  if s.power.supply.isNone ∧ s.power.sramWant ≠ 0 then
    let want := s.power.sramWant
    ({ s with power := { s.power with sramWant := 0 } }).requestSupply s.coreReq want
  else s

/-- A request has failed: the request fields go back to the levels granted before, the divider stays, and the entry whose
step 4 made it is refused by the power manager; one that waits for its turn goes on (R316, R325). -/
def State.supplyFailed (s : State) : State :=
  match s.power.supply with
  | none => s
  | some q =>
    let s := ((s.putFld .pwrVreq 0 8 q.prevCore).putFld .pwrVreq 8 8 q.prevSram).putFld .pwrVreq 63 1 0
    let s := s.bump .pwrPerf 32 16
    let s := { s with power := { s.power with supply := none, divWait := none } }
    let s := match s.power.entry with
      | some e =>
        if !(e.step = 4 ∧ e.waitSram) then s
        else if e.asked then s.refusedBy e 0x74
        else { s with power := { s.power with entry := some { e with waitSram := false } } }
      | none => s
    s.nextSupply

/-- A store to the GRANT fields (R316): it clears PENDING, and a level that differs from the request fails it. -/
def State.grantStore (s : State) (lanes data : Word64) : State :=
  let s := s.plainStore .pwrVreq (maskOf 16 16) lanes data
  if lanes &&& maskOf 16 16 = 0 then s
  else match s.power.supply with
  | none => s
  | some q =>
    if s.coreGrant = s.coreReq ∧ s.sramGrant = s.sramReq then
      let s := s.putFld .pwrVreq 63 1 0
      { s with power := { s.power with supply := some { q with granted := true, startRoot := s.now } } }
    else s.supplyFailed

/-! #### The keeper (R317, R318) -/

def State.keeperStore (s : State) (src a : Nat) (low : Bool) : State :=
  if low ∧ s.loadMa > 36 then s.violation src a true
  else if low then s.putFld .pwrKeeper 0 2 1
  else if s.rfld .pwrKeeper 0 1 = 1 then
    { s.putFld .pwrKeeper 0 1 0 with power := { s.power with keeperPending := true } }
  else s

/-! #### Banks: flips, remaps, spares (R252, R255–R257) -/

/-- BSN_REMAP written: an entry changed or cleared serves no row until it is copied. -/
def State.remapStore (s : State) (b k e : Nat) (v : Word64) : State :=
  let old := s.reg (.bsnRemap b k e)
  let s := s.putReg (.bsnRemap b k e) v
  if v = old then s else { s with remapped := s.remapped.filter (· ≠ (b, k, e)) }

/-- One spare's fields written: STATE 1 begins a copy from the bank that serves LOGICAL, with the spare's own remap
table empty; hardware alone changes 1 to 2. -/
def State.spareStore (s : State) (b i st logical : Nat) : State :=
  let was := s.spareState b i
  let old := s.physBank b logical
  let st := if was = 1 ∧ st = 2 then 1 else st
  let s := (s.putFld (.bsnSpareMap b) (16 * i + 14) 2 st).putFld (.bsnSpareMap b) (16 * i) 8 logical
  let drop := { s with spareCopies := s.spareCopies.filter fun c => !(c.basin = b ∧ c.spare = i) }
  if st = 1 ∧ was ≠ 1 then
    let s := (List.range 4).foldl (fun (s : State) e => s.remapStore b (s.cfg.banks + i) e 0) drop
    { s with spareCopies := s.spareCopies ++ [⟨b, i, old, 0, 0, []⟩] }
  else if st ≠ 1 then drop
  else s

/-- BSN_SPARE_MAP written. -/
def State.spareMapStore (s : State) (b : Nat) (v : Word64) : State :=
  (List.range 4).foldl (fun (s : State) i => s.spareStore b i (fld v (16 * i + 14) 2) (fld v (16 * i) 8)) s

/-! #### Everything else -/

/-- A store to a register whose RW fields Rosog alone writes. -/
def State.rosogStore (s : State) (r : Reg) (lanes data : Word64) (src a : Nat) : State :=
  let v := fieldStore (s.reg r) r.access r.access.rw lanes data
  match r with
  | .ringCmd _ | .ringRpl _ => s.putReg r v
  | .bsnBankCfg b => if v ≠ s.reg r ∧ s.holdsRegion b then s.violation src a true else s.putReg r v
  | .bsnArbCfg b => s.setArbCfg b lanes v
  | .bsnScrubCfg _ => if bit v 0 ∨ s.testEn then s.putReg r v else s
  | .sphCfg _ => s.putReg r (if bit (s.reg r) 8 && !bit v 8 && !s.testEn then setBit v 8 true else v)
  | .bsnSpareMap b => s.spareMapStore b v
  | .bsnRemap b k e => s.remapStore b k e v
  | .trnStreamCfg b e => s.setStreamCfg b e v
  | .trnLatCfg b k =>
    let old := s.reg r
    let s := s.putReg r v
    -- a write that sets or changes BOUND (R183)
    let bound := lanes &&& maskOf 0 16 ≠ 0 ∧ (fld v 0 16 ≠ 0 ∨ fld old 0 16 ≠ 0)
    if bound ∨ (bit old 62 && !bit v 62) then s.startAfresh b k else s
  | .pwrKeeper => if lanes &&& 1 = 0 then s else s.keeperStore src a (bit data 0)
  | .pwrCfg | .pwrTherm | .pwrTrickle => (s.plainStore r r.access.rw lanes data).showMargin
  | _ => s.plainStore r r.access.rw lanes data

/-- A store to a register by a requester that reaches it for writing. `machine`: the core is in machine mode (R29). -/
def State.writeReg (s : State) (who : Requester) (machine : Bool) (r : Reg) (o n : Nat) (data : Word64) : State :=
  let lanes := laneMask o n
  let a := r.addr.toNat + o
  let refuse := s.violation who.violSource a true
  -- a retired basin's block takes writes from the control core alone (R433)
  if (match r.basin? with | some b => !s.live b && decide (who ≠ Requester.core) | none => false) then refuse
  else match r with
  | .ringDb k => if o = 0 then s.doorbell k (fld data 0 32) else s
  | .ringRhead k => if o = 0 then s.consumed k (fld data 0 32) else s
  -- registers of unused turnouts read zero (R174, R178)
  | .trnArbSt _ t | .trnOtCfg _ t =>
    if t ≥ s.cfg.turnouts then s
    else match r.access.writer with
    | .rosog => if who.rosog then s.rosogStore r lanes data who.violSource a else refuse
    | _ => if who.clearsCounters then s.plainStore r 0 lanes data else refuse
  -- every requester but Rosog sees these as RO (R199)
  | .ringCmd _ | .ringRpl _ => if who.rosog then s.rosogStore r lanes data who.violSource a else s
  -- no write of these is stated (R389)
  | .secSt | .secCtxSt _ => refuse
  | .ctlRemap => if who = Requester.core ∧ machine then s.plainStore r (maskOf 0 2) lanes data else refuse
  | .secObsCfg =>
    if who ≠ Requester.mgt then refuse
    else if lanes &&& 1 = 0 then s
    else if bit data 0 ∧ (List.range 8).any (fun c => s.rfld (.secCtxSt c) 4 4 = 1 ∨ s.rfld (.secCtxSt c) 4 4 = 2) then s
    else s.putFld .secObsCfg 0 1 (fld data 0 1)
  | .pwrVreq => if who = Requester.mgt then s.grantStore lanes data else refuse
  | .pwrCap =>
    -- a cap outside 150 to 620 W is not taken (R332)
    let cap := fld (fieldStore (s.reg r) r.access (maskOf 48 16) lanes data) 48 16
    let lanes := if 150 ≤ cap ∧ cap ≤ 620 then lanes else lanes &&& ~~~(maskOf 48 16)
    if who = Requester.mgt then s.plainStore r (maskOf 48 16) (lanes &&& maskOf 48 16) data
    else s.plainStore r (maskOf 48 16) lanes data
  | .bsnFlipCfg _ | .bsnFlipChk _ | .bsnFlipData _ _ =>
    if s.testEn then s.plainStore r r.access.rw lanes data else refuse
  | _ =>
    match r.access.writer with
    | .rosog => if who.rosog then s.rosogStore r lanes data who.violSource a else refuse
    | .anyone | .nobody => if who.clearsCounters ∨ r = Reg.devMgtAlert then s.plainStore r 0 lanes data else refuse

/-! ### Descriptors and gauges -/

/-- A window write to word 0 or 1 of a tile is dropped (R38). -/
def State.descBusy (s : State) (who : Requester) (b d : Nat) : Bool :=
  let v := s.descOf b d
  let rosog := decide (who = Requester.core)
  let ownLock := rosog && fld (dOwner v) 13 3 = 3
  dOpen v || decide (dReaders v > 0) || (decide (dOwner v ≠ 0) && !ownLock) || (dBound v && !rosog)

/-- Bits of a descriptor software sets, and those Rosog sets besides (R37). -/
def swBits : BitVec 512 := BitVec.ofNat 512
  ((2 ^ 18 - 1) + 63 * 2 ^ 18 + 255 * 2 ^ 40 + 15 * 2 ^ 48 + 511 * 2 ^ 64 + 8191 * 2 ^ 80 + 4095 * 2 ^ 320)
/-- Reserved bits of a descriptor: they keep what is stored, and a packet that names the tile is refused for them (R37, R39; DEDUCED,
log entry 15). -/
def descReserved : BitVec 512 := BitVec.ofNat 512
  ((2 ^ 12 - 1) * 2 ^ 52 + 7 * 2 ^ 37 + 3 * 2 ^ 126 + 15 * 2 ^ 100 + 7 * 2 ^ 93 + 127 * 2 ^ 73 + (2 ^ 39 - 1) * 2 ^ 345
    + 15 * 2 ^ 332 + (2 ^ 34 - 1) * 2 ^ 413 + (2 ^ 64 - 1) * 2 ^ 448)
def rosogBits : BitVec 512 := BitVec.ofNat 512 (15 * 2 ^ 96 + 2 ^ 123 + (2 ^ 29 - 1) * 2 ^ 384 + 2 ^ 447)

/-- A tile redefined (R38): stale, not broken, its last write forgotten, its generation counted. -/
def redefined (v : BitVec 512) : BitVec 512 :=
  let v := setBit (setBit (setBit (setBit v 125 true) 121 false) 122 false) 124 false
  let v := setFld (setFld (setFld (setFld v 24 13 0) 128 64 0) 192 64 0) 288 32 0
  dNextGen v

/-- A store to bytes `o` to `o + n − 1` of a descriptor (R37, R38). -/
def State.descStore (s : State) (who : Requester) (b d o n : Nat) (bs : List Byte) : State :=
  let word01 := decide (o < 16)
  if word01 ∧ s.descBusy who b d then
    s.violation who.violSource (2 ^ 32 + b * 0x100000 + d * 64 + o) true
  else
    let lanes : BitVec 512 := BitVec.ofNat 512 ((2 ^ (8 * n) - 1) * 2 ^ (8 * o))
    let m := lanes &&& (swBits ||| descReserved ||| (if who = Requester.core then rosogBits else 0))
    let data : BitVec 512 := BitVec.ofNat 512 (leNat bs * 2 ^ (8 * o))
    let v := (s.descOf b d &&& ~~~m) ||| (data &&& m)
    -- a redefinition rewrites all eight words, check bits too (R236)
    if word01 then { s.putDesc b d (redefined v) with descChk := nset s.descChk 0 (dkey b d) 0 }
    else s.putDesc b d v

/-- A gauge as it reads (R52). -/
def State.gaugeWord (s : State) (b g : Nat) : Word64 :=
  BitVec.ofNat 64 (s.waiters b g * 2 ^ 40 + s.gctx b g * 2 ^ 32 + (s.count b g).toNat)

/-- A store to a gauge (R52), which reads its line first (R236): COUNT as `SET_GAUGE` sets it; CTX by Rosog alone. -/
def State.gaugeStore (s : State) (who : Requester) (b g o n : Nat) (bs : List Byte) : State :=
  let lanes := laneMask o n
  let data : Word64 := BitVec.ofNat 64 (leNat bs * 2 ^ (8 * o))
  let old := s.gaugeWord b g
  let v := (old &&& ~~~lanes) ||| (data &&& lanes)
  let s := s.noteLine b (g / 8) who.turnout
  let s := if who = Requester.core ∧ lanes &&& maskOf 32 4 ≠ 0 then s.putGctx b g (fld v 32 4) else s
  if lanes &&& maskOf 0 32 ≠ 0 then s.setGaugeTo b g (v.extractLsb' 0 32) else s

/-! ### Loads and stores -/

/-- Bytes a load gives while basins and stacks do not answer (R345): left open. -/
def State.openBytes (s : State) (n : Nat) : State × List Byte :=
  (s.useFree, (List.range n).map fun i => (Config.free 72 (s.freeUses * 64 + i)).setWidth 8)

/-- The bytes of a place that a requester reaches. -/
def State.loadAt (s : State) (who : Requester) (pl : Place) (n : Nat) : State × List Byte :=
  let zero := List.replicate n (0 : Byte)
  match pl with
  | .nowhere => (s, zero)
  | .reg r o => s.readReg who r o n
  | .mem b off =>
    if !s.memoryUp then s.openBytes n
    else
      let (s, bs, bad) := s.readRange b off n who.reader
      (s, if bad then zero else bs)
  | .desc b d o =>
    if !s.memoryUp then s.openBytes n
    else
      let bad := s.descBad b d
      let (s, v) := (s.noteBadDesc b d who.turnout).readDesc b d
      (s, if bad then zero else ((leBytes 64 v.toNat).drop o).take n)
  | .gauge b g o =>
    if !s.memoryUp then s.openBytes n
    else
      let bad := match s.lineFinding b g with | .bad _ _ => true | _ => false
      (s.noteLine b (g / 8) who.turnout,
        if bad then zero else ((leBytes 8 (s.gaugeWord b g).toNat).drop o).take n)
  | .stack a =>
    if !s.memoryUp then s.openBytes n
    else
      let (s, bs, bad) := s.stackRead a n (some .window)
      (s, if bad.isEmpty then bs else zero)

/-- A store to a place that a requester reaches. -/
def State.storeAt (s : State) (who : Requester) (machine : Bool) (pl : Place) (bs : List Byte) : State :=
  let n := bs.length
  match pl with
  | .nowhere => s
  | .reg r o => s.writeReg who machine r o n (BitVec.ofNat 64 (leNat bs * 2 ^ (8 * o)))
  | .mem b off => if s.memoryUp then s.landBeats.writeRange b off bs who.reader else s
  | .desc b d o => if s.memoryUp then s.descStore who b d o n bs else s
  | .gauge b g o => if s.memoryUp then s.gaugeStore who b g o n bs else s
  | .stack a => if s.memoryUp then s.stackWrite a bs (some .window) else s

/-- The wake event a window access is (R322): a store to a ring window or any other access. The management bus and the
headgate have their own. -/
def accessWake (who : Requester) (pl : Place) (write : Bool) : Option WakeEvent :=
  match who with
  | .mgt => none
  | .headgate => some .headgateFrame
  | _ => match pl with
    | .reg r _ => if write && (match r.block with | .ring _ => true | _ => false) then some .ringWrite else some .windowAccess
    | _ => some .windowAccess

/-- A load of `n` bytes on a site address (R24, R322, R362): a decode error or a refused access reads zero and is logged. -/
def State.mapLoad (s : State) (who : Requester) (a n : Nat) : State × List Byte :=
  let zero := List.replicate n (0 : Byte)
  let pl := s.placeOf a n
  let s := match accessWake who pl false with | some w => s.wakeFor w | none => s
  if pl = .nowhere then (s.decodeError who.decodeSource a false, zero)
  else if !s.reaches who pl n false then (s.violation who.violSource a false, zero)
  else s.loadAt who pl n

/-- A store on a site address (R24, R322, R362). -/
def State.mapStore (s : State) (who : Requester) (machine : Bool) (a : Nat) (bs : List Byte) : State :=
  let n := bs.length
  let pl := s.placeOf a n
  let s := match accessWake who pl true with | some w => s.wakeFor w | none => s
  if pl = .nowhere then s.decodeError who.decodeSource a true
  else if !s.reaches who pl n true then s.violation who.violSource a true
  else (s.storeAt who machine pl bs).runReady

/-- A load or fetch of the core at one of its own addresses (R13, R28). -/
def State.coreLoad (s : State) (k : LocalKind) (a n : Nat) : State × List Byte :=
  match siteOf a with
  | none => s.localLoad k a n
  | some x => match s.coreCheck k a n with
    | some cause => (s.localTrap k cause a, List.replicate n 0)
    | none => s.mapLoad .core x n

/-- A store of the core at one of its own addresses. -/
def State.coreStore (s : State) (machine : Bool) (a : Nat) (bs : List Byte) : State :=
  match siteOf a with
  | none => s.localStore a bs
  | some x => match s.coreCheck .store a bs.length with
    | some cause => s.localTrap .store cause a
    | none => s.mapStore .core machine x bs

/-- A load-reserved of the core: the address stays reserved (R13). -/
def State.reserve (s : State) (a n : Nat) : State × List Byte :=
  let (t, bs) := s.coreLoad .load a n
  (if s.coreTraps .load a n then t else { t with core := { t.core with reserved := some a } }, bs)

/-- A store-conditional of the core: it stores, and `loadOut` is 0, where the address is reserved; else it is 1. The
reservation is over (R13). -/
def State.conditional (s : State) (a : Nat) (bs : List Byte) : State :=
  let ended := fun (t : State) => { t with core := { t.core with reserved := none } }
  if s.coreTraps .store a bs.length then ended (s.coreStore true a bs)
  else if s.core.reserved = some a then { ended (s.coreStore true a bs) with loadOut := 0 }
  else { ended s with loadOut := 1 }

/-- A load by any requester. -/
def State.siteLoad (s : State) (who : Requester) (a n : Nat) : State × List Byte :=
  if !s.windowUp then s.openBytes n
  else match who with
  | .coreLocal => s.coreLoad .load a n
  | .coreFetch => s.coreLoad .fetch a n
  | .coreAtomic => s.reserve a n
  | .core => s.coreLoad .load (2 ^ 48 + a) n
  | _ => s.mapLoad who a n

/-- A store by any requester. -/
def State.siteStore (s : State) (who : Requester) (machine : Bool) (a : Nat) (bs : List Byte) : State :=
  if !s.windowUp then s
  else match who with
  | .coreLocal | .coreFetch => s.coreStore machine a bs
  | .coreAtomic => s.conditional a bs
  | .core => s.coreStore machine (2 ^ 48 + a) bs
  | _ => s.mapStore who machine a bs

/-- A whole register written. -/
def State.storeReg (s : State) (who : Requester) (machine : Bool) (r : Reg) (v : Word64) : State :=
  s.siteStore who machine r.addr.toNat (leBytes 8 v.toNat)

/-! ### The commands -/

/-- Who makes an access on which site address: the core's own addresses lie in its site-map window, or on none. An access that
raises an exception is on none (R13). -/
def State.siteAccess (s : State) (who : Requester) (a n : Nat) (write : Bool) : Option (Requester × Nat) :=
  let k := if who = .coreFetch then LocalKind.fetch else if write then .store else .load
  match who with
  | .coreLocal | .coreFetch | .coreAtomic => if s.coreTraps k a n then none else (siteOf a).map fun x => (.core, x)
  | .core => if s.coreTraps k (2 ^ 48 + a) n then none else some (who, a)
  | _ => some (who, a)

/-- An access to a basin's words has its beat in the present cycle: the headgate's by a taken bank (R169), any other by a burst of its
own (R158, R165), which for more words than a burst carries is its first. -/
def State.memoryReady (s : State) (who : Requester) (b off n : Nat) (write : Bool) : State × Bool :=
  let w := off / 64
  if who = Requester.headgate then s.headgateBeat b w write
  else s.beatFor b .window (if write then .write else .read) w (min (16 - w % 16) (min 4 (cdiv (off % 64 + n) 64)))

/-- Whether an access is performed now: one to a basin's words in the cycle of its beat, one to stack memory once its siphon serves it, no
older request to its block waits and the combiner has a slot (R297, R301, R308). -/
def State.accessReady (s : State) (who : Requester) (a n : Nat) (write : Bool) : State × Bool :=
  if !(s.windowUp && s.memoryUp) then (s, true)
  else match s.siteAccess who a n write with
    | none => (s, true)
    | some (w, x) =>
      if !s.reaches w (s.placeOf x n) n write then (s, true)
      else match s.placeOf x n with
        | .mem b off => s.memoryReady w b off n write
        | .stack y => (s, s.stackFree y n write)
        | _ => (s, true)

/-- The wake that an access is to a sleeping site. -/
def State.wakeByAccess (s : State) (who : Requester) (a n : Nat) (write : Bool) : State :=
  match s.siteAccess who a n write with
  | some (w, x) => match accessWake w (s.placeOf x n) write with | some e => s.wakeFor e | none => s
  | none => s

/-- WINDOW_LOAD (R20–R28, R362): what it returns stands in `loadOut`. One that has to wait has not been performed, and is made again. -/
def execWindowLoad (who : Requester) (addr : Word64) (size : Nat) (s : State) : Host.Outcome State Fault Refusal :=
  let (s, ready) := (s.wakeByAccess who addr.toNat size false).accessReady who addr.toNat size false
  if !ready then ok s
  else
    let (s, bs) := s.siteLoad who addr.toNat size
    ok { s with loadOut := BitVec.ofNat 64 (leNat bs) }

/-- WINDOW_STORE. -/
def execWindowStore (who : Requester) (addr : Word64) (size : Nat) (data : Word64) (s : State) :
    Host.Outcome State Fault Refusal :=
  let (s, ready) := (s.wakeByAccess who addr.toNat size true).accessReady who addr.toNat size true
  ok (if ready then s.siteStore who true addr.toNat (leBytes size data.toNat) else s)

/-- REGISTER_WRITE (R6, R7, R434, R435): a store whose address must be a register's. -/
def execRegisterWrite (who : Requester) (addr : Addr) (size : Nat) (data : Word64) (s : State) :
    Host.Outcome State Fault Refusal :=
  if regBase ≤ addr.toNat ∧ addr.toNat < regBase + 0x2000000 then
    ok (s.siteStore who true addr.toNat (leBytes size data.toNat))
  else ok s

/-- DESCRIPTOR_DEFINE (R38): a store of word `word` of a descriptor. -/
def execDescriptorDefine (who : Requester) (b d word : Nat) (data : Word64) (s : State) :
    Host.Outcome State Fault Refusal :=
  ok (s.siteStore who true (2 ^ 32 + b % 64 * 0x100000 + d % 16384 * 64 + word % 8 * 8) (leBytes 8 data.toNat))

/-- GAUGE_WINDOW_WRITE (R52). -/
def execGaugeWindowWrite (who : Requester) (b g : Nat) (data : Word64) (s : State) : Host.Outcome State Fault Refusal :=
  ok (s.siteStore who true (2 ^ 33 + b % 64 * 0x8000 + g % 4096 * 8) (leBytes 8 data.toNat))

/-- `FENCE.I`: fetches use CTL_REMAP as it stands (R29). -/
def State.fenceI (s : State) : State := { s with core := { s.core with fetchMap := s.reg .ctlRemap } }

/-- CTL_REMAP_WRITE (R29): with `fenceI` the core executes `FENCE.I` after it. -/
def execCtlRemapWrite (who : Requester) (machineMode : Bool) (data : Word64) (fenceI : Bool) (s : State) :
    Host.Outcome State Fault Refusal :=
  let s := s.storeReg who machineMode .ctlRemap data
  ok (if fenceI ∧ who = Requester.core then s.fenceI else s)

/-- TRN_LAT_ST_READ (R179, R182). -/
def execTrnLatStRead (who : Requester) (b r : Nat) (s : State) : Host.Outcome State Fault Refusal :=
  let (s, bs) := s.siteLoad who (Reg.trnLatSt (b % 64) (r % 16)).addr.toNat 8
  ok { s with loadOut := BitVec.ofNat 64 (leNat bs) }

/-- STREAM_CFG_WRITE (R112). -/
def execStreamCfgWrite (who : Requester) (b e : Nat) (data : Word64) (s : State) : Host.Outcome State Fault Refusal :=
  ok (s.storeReg who true (.trnStreamCfg (b % 64) (e % 256)) data)

/-- ARB_CFG_WRITE (R172). -/
def execArbCfgWrite (who : Requester) (b : Nat) (data : Word64) (s : State) : Host.Outcome State Fault Refusal :=
  ok (s.storeReg who true (.bsnArbCfg (b % 64)) data)

/-- Registers of the regulator: TRN_OT_CFG, TRN_REG_CFG, TRN_LAT_CFG (R183). -/
def Reg.regulates : Reg → Bool
  | .trnOtCfg _ _ | .trnRegCfg _ | .trnLatCfg _ _ => true
  | _ => false

/-- REG_CFG_WRITE (R178, R181–R183). -/
def execRegCfgWrite (who : Requester) (addr : Addr) (data : Word64) (s : State) : Host.Outcome State Fault Refusal :=
  match s.placeOf addr.toNat 8 with
  | .reg r _ => ok (if r.regulates then s.siteStore who true addr.toNat (leBytes 8 data.toNat) else s)
  | _ => ok s

/-- FLIP_ARM (R252): a store to BSN_FLIP_CFG. -/
def execFlipArm (who : Requester) (b : Nat) (data : Word64) (s : State) : Host.Outcome State Fault Refusal :=
  ok (s.storeReg who true (.bsnFlipCfg (b % 64)) data)

/-- REMAP_INSTALL (R255, R257). -/
def execRemapInstall (who : Requester) (b k e : Nat) (data : Word64) (s : State) : Host.Outcome State Fault Refusal :=
  ok (s.storeReg who true (.bsnRemap (b % 64) (k % 260) (e % 4)) data)

/-- SPARE_BANK_START (R256, R257): a store to BSN_SPARE_MAP. -/
def execSpareBankStart (who : Requester) (b : Nat) (data : Word64) (s : State) : Host.Outcome State Fault Refusal :=
  ok (s.storeReg who true (.bsnSpareMap (b % 64)) data)

/-- SCRUB_CFG_WRITE (R251). -/
def execScrubCfgWrite (who : Requester) (b : Nat) (data : Word64) (s : State) : Host.Outcome State Fault Refusal :=
  ok (s.storeReg who true (.bsnScrubCfg (b % 64)) data)

/-- KEEPER_MODE_WRITE (R317, R318). -/
def execKeeperModeWrite (who : Requester) (data : Word64) (s : State) : Host.Outcome State Fault Refusal :=
  ok (s.storeReg who true .pwrKeeper data)

/-- VREQ_GRANT_WRITE (R316). -/
def execVreqGrantWrite (who : Requester) (data : Word64) (s : State) : Host.Outcome State Fault Refusal :=
  ok (s.storeReg who true .pwrVreq data)

/-- CAP_WRITE (R332, R337). -/
def execCapWrite (who : Requester) (data : Word64) (s : State) : Host.Outcome State Fault Refusal :=
  ok (s.storeReg who true .pwrCap data)

/-- FULL_RES_WRITE (R388). -/
def execFullResWrite (who : Requester) (data : Word64) (s : State) : Host.Outcome State Fault Refusal :=
  ok (s.storeReg who true .secObsCfg data)

/-- REGION_TABLE_WRITE (R295): the second register of the entry where `half`. -/
def execRegionTableWrite (who : Requester) (n : Nat) (half : Bool) (data : Word64) (s : State) :
    Host.Outcome State Fault Refusal :=
  ok (s.storeReg who true (if half then .sphRgnB (n % 64) else .sphRgnA (n % 64)) data)

/-- LEVEE_WRITE (R364). -/
def execLeveeWrite (who : Requester) (b n : Nat) (half : Bool) (data : Word64) (s : State) :
    Host.Outcome State Fault Refusal :=
  ok (s.storeReg who true (if half then .bsnLeveeB (b % 64) (n % 32) else .bsnLeveeA (b % 64) (n % 32)) data)

/-- DOORBELL_WRITE (R200). -/
def execDoorbellWrite (who : Requester) (ring : Nat) (tail : BitVec 32) (s : State) : Host.Outcome State Fault Refusal :=
  ok (s.siteStore who true (Reg.ringDb (ring % 9)).addr.toNat (leBytes 4 tail.toNat))

/-- RHEAD_WRITE (R200). -/
def execRheadWrite (who : Requester) (ring : Nat) (rhead : BitVec 32) (s : State) : Host.Outcome State Fault Refusal :=
  ok (s.siteStore who true (Reg.ringRhead (ring % 9)).addr.toNat (leBytes 4 rhead.toNat))

end Sys2Proof.Machine
end

