-- ==== Sys2Proof/Machine/Repairs.lean ====
section
/-! DEFINITION. Row remaps and spare banks copied (R254–R257), and the physical banks that serve logical ones. -/

namespace Sys2Proof.Machine

/-- The findings on a row of a bank so far concern the cells it has left. -/
def State.moveRow (s : State) (b pb row : Nat) : State :=
  let r := s.unitRec .bank b pb
  s.putUnitRec { r with events := r.events.map fun (x : UnitEvent) => if x.loc = row then { x with moved := true } else x }

/-- REMAP_COPY (R255): in a cycle in which both sides of the bank are free, which it then takes. An uncorrectable row is copied
poisoned. Findings on the row from here on are the spare word's (R272). -/
def execRemapCopy (b k e : Nat) (s : State) : Host.Outcome State Fault Refusal :=
  let v := s.reg (.bsnRemap b k e)
  let row := fld v 0 12
  let c := s.checkOfBank b k
  if s.live b ∧ s.power.divTo.isNone ∧ k < s.cfg.physBanks ∧ e < 4 ∧ bit v 63 ∧ row < s.cfg.rows ∧ (b, k, e) ∉ s.remapped
      ∧ s.sideFree b c k false s.cycle ∧ s.sideFree b c k true s.cycle then
    let (s, d, bad) := s.readPhys b k row Reader.copier
    let s := s.storePhys b k (s.cfg.rows + e) d (if bad then poison else 0)
    let s := if bad then s.bump (.bsnEccSt b) 0 16 else s
    ok (({ s with
      remapped := (b, k, e) :: s.remapped
      beats := s.beats ++ [Beat.lone b c k false scrubTurnout s.cycle, Beat.lone b c k true scrubTurnout s.cycle] }).moveRow b k row)
  else ok s

/-- The copy in progress into a spare. -/
def State.spareCopy? (s : State) (b i : Nat) : Option SpareCopy :=
  s.spareCopies.find? fun c => c.basin = b ∧ c.spare = i

/-- One row of the old bank read by the copier in cycle `t`, an uncorrectable row with its data and check bits unchanged. It
is written two cycles later. -/
def State.copyRow (s : State) (c : SpareCopy) (t last : Nat) : State :=
  let b := c.basin
  let dev := s.syndrome (s.cfg.wordNo b c.old (s.physRow b c.old c.row))
  let (s, d, bad) := s.readPhys b c.old c.row Reader.copier
  { s with spareCopies := s.spareCopies.map fun (x : SpareCopy) =>
      if x = c then
        { x with row := x.row + 1, lastRead := last, due := x.due ++ [(c.row, t, d, if bad then dev else 0)] } else x }

/-- The copier's writes of the present cycle (R256): rows read two cycles ago that no mirrored write has taken since. -/
def State.copierWrites (s : State) : State :=
  s.spareCopies.foldl (fun (s : State) c =>
    let now := c.due.filter fun x => decide (x.2.1 + 2 ≤ s.cycle)
    let sp := s.cfg.banks + c.spare
    let s := now.foldl (fun (s : State) x => s.storePhys c.basin sp (s.physRow c.basin sp x.1) x.2.2.1 x.2.2.2) s
    { s with spareCopies := s.spareCopies.map fun (y : SpareCopy) =>
        if y.basin = c.basin ∧ y.spare = c.spare then
          { y with due := y.due.filter fun x => decide (s.cycle < x.2.1 + 2) } else y }) s

/-- SPARE_COPIER_READ (R256, R312): in a cycle in which the old bank's read side is parked on the scrubber and its turnout reads no
other word, or 16 cycles after the last such read by freezing its check. -/
def execSpareCopierRead (b i : Nat) (s : State) : Host.Outcome State Fault Refusal :=
  match s.spareCopy? b i with
  | none => ok s
  | some c =>
    if c.row ≥ s.cfg.rows ∨ s.power.divTo.isSome then ok s
    else if (s.scrubBanks b).contains c.old then
      if s.beats.any fun x => x.basin = b && x.turnout = scrubTurnout && x.cycle = s.cycle then ok s
      else
        let t := s.copyRow c s.cycle c.lastRead
        ok { t with beats := t.beats ++ [Beat.lone b (s.checkOfBank b c.old) c.old false scrubTurnout s.cycle] }
    else if s.cycle ≥ c.lastRead + 16 then
      ok ((s.takeSide b (s.checkOfBank b c.old) c.old false scrubTurnout).copyRow c (s.cycle + 1) s.cycle)
    else ok s

/-- SPARE_BANK_ACTIVE (R256): every row is copied and written; the spare serves, and an old spare is set aside. -/
def execSpareBankActive (b i : Nat) (s : State) : Host.Outcome State Fault Refusal :=
  match s.spareCopy? b i with
  | none => ok s
  | some c =>
    if c.row < s.cfg.rows ∨ !c.due.isEmpty then ok s
    else
      let s := { s with spareCopies := s.spareCopies.filter (· ≠ c) }
      let s := if c.old ≥ s.cfg.banks then s.putFld (.bsnSpareMap b) (16 * (c.old - s.cfg.banks) + 14) 2 3 else s
      ok (s.putFld (.bsnSpareMap b) (16 * i + 14) 2 2)

/-- The logical bank a physical bank serves. -/
def State.servesBank (s : State) (b pb : Nat) : Option Nat :=
  if pb < s.cfg.banks then (if s.physBank b pb = pb then some pb else none)
  else if s.spareState b (pb - s.cfg.banks) = 2 then some (s.spareLogical b (pb - s.cfg.banks))
  else none

/-- A free entry of a bank's remap table, and one that holds a row. -/
def State.freeRemap (s : State) (b pb : Nat) : Option Nat :=
  (List.range 4).find? fun e => !bit (s.reg (.bsnRemap b pb e)) 63
def State.remapsRow (s : State) (b pb row : Nat) : Bool :=
  (List.range 4).any fun e => bit (s.reg (.bsnRemap b pb e)) 63 && s.rfld (.bsnRemap b pb e) 0 12 = row

/-- A remap entry installed (R255), and a spare bank started (R256). -/
def State.installRemap (s : State) (b pb e row : Nat) : State :=
  s.remapStore b pb e (BitVec.ofNat 64 (2 ^ 63 + row))
def State.startSpare (s : State) (b i logical : Nat) : State := s.spareStore b i 1 logical

/-- A free spare bank. -/
def State.freeSpare (s : State) (b : Nat) : Option Nat := (List.range 4).find? fun i => s.spareState b i = 0

end Sys2Proof.Machine
end

