-- ==== Sys2Proof/WellFormed.lean ====
section
/-! DEFINITION. Which commands are well formed: every operand is one that the site's numbering can name. A command
that is not well formed names nothing the site has; its meaning leaves the state unchanged or is what the number's low
bits give, and no statement rests on it. -/

namespace Sys2Proof

/-- Rings 0–8 (R198). -/
def ringOk (r : Nat) : Bool := decide (r < 9)
/-- Basins 0–63 (R18). -/
def basinOk (b : Nat) : Bool := decide (b < 64)
/-- Siphons 0–31, culverts 0–3 (R18). -/
def siphonOk (s : Nat) : Bool := decide (s < 32)
/-- A data block of a stack (R290). -/
def blockOk (k : Nat) : Bool := decide (k < 16252928)
def culvertOk (c : Nat) : Bool := decide (c < 4)
/-- A window access moves up to a word of 64 bytes, at any address; which widths a register takes is R6's to say. A store
wider than its eight bytes of data stores zeros beyond them, and of a wider load `loadOut` shows the first eight bytes. -/
def sizeOk (n : Nat) : Bool := decide (1 ≤ n ∧ n ≤ 64)
/-- A source: a ring, a list slot of a basin (R211), the headgate. -/
def Src.wf : Src → Bool
  | .ring r => ringOk r
  | .list b s => basinOk b && decide (s < 64)
  | .headgate => true
/-- A requester: interfaces 0–7 and the owner function (R361). -/
def Requester.wf : Requester → Bool
  | .iface n => decide (n < 9)
  | _ => true
/-- A service frame: its packet and at most 8,192 bytes of data (R392). -/
def frameOk (data : List Byte) : Bool := decide (data.length ≤ 8192)
/-- A unit of a basin or of the site: descriptor and gauge lines, banks and engines stay below 16,384. -/
def unitOk (b u : Nat) : Bool := (basinOk b || b = 0xFFFF) && decide (u < 16384)

/-- Well-formed commands. -/
def Instr.wf : Instr → Bool
  | .nop s _ | .fence s _ | .waitGauge s _ | .setGauge s _ | .addGauge s _ | .runList s _ | .ret s _ | .move s _
  | .load s _ | .store s _ | .send s _ | .fill s _ | .matmul s _ | .matmulAcc s _ | .vector s _ | .topk s _
  | .reduceWrite s _ | .compact s _ | .expand s _ | .gatherRows s _ | .zeroMap s _ | .convert s _ | .tileLock s _
  | .tileUnlock s _ | .query s _ | .statsRead s _ | .ctxCreate s _ _ | .ctxSwitch s _ | .ctxDestroy s _
  | .rightAdmit s _ | .rightRelease s _ | .modelLoad s _ _ _ _ | .powerState s _ | .testSchedule s _
  | .faultLogRead s _ | .detachPrepare s _ | .attachComplete s _ | .configSet s _ | .spdmMessage s _ _
  | .keyInstall s _ _ | .ownerLock s _ | .weightKeyBind s _ _ | .packetDispatch s => s.wf
  | .imgBegin _ _ d _ | .imgData _ _ d | .imgEnd _ _ d _ | .imgAbort _ _ d | .imgActivate _ _ d _ _ | .imgStatus _ _ d
  | .nonce _ _ d | .token _ _ d _ | .retest _ _ d | .partialReset _ _ d _ => frameOk d
  | .hgDebugRead _ d | .hgDebugWrite _ d => decide (d.length ≤ 8256)
  | .hgFetch _ | .mgtRead _ | .mgtWrite _ _ | .mgtState _ | .mgtNonce | .mgtRole _ | .alertAck _ | .entdaa _ _
  | .setdasa _ _ | .setnewda _ | .rstdaa | .enec _ | .disec _ | .getpid | .getbcr | .getdcr | .getstatus | .getmwl
  | .getmrl | .setmwl _ | .setmrl _ | .unsupportedCcc _ | .mgtBusReset | .mgtAddressMatchWake _ => true
  | .getVersion r | .getCapabilities r | .negotiateAlgorithms r _ | .getDigests r | .getCertificate r | .challenge r
  | .getMeasurements r | .keyExchange r _ | .finish r _ | .endSession r | .respondIfReady r
  | .spdmUnsupportedRequest r _ => ringOk r.ring
  | .getTdispVersion r i | .getTdispCapabilities r i | .lockInterfaceRequest r i _ | .getDeviceInterfaceReport r i
  | .getDeviceInterfaceState r i | .startInterfaceRequest r i | .stopInterfaceRequest r i
  | .tdispUnsupportedRequest r i _ => ringOk r.ring && decide (i < 8)
  | .doorbellWrite w r _ | .rheadWrite w r _ => w.wf && ringOk r
  | .ringFetch r | .replyWrite r => ringOk r
  | .listFetch b k => basinOk b && decide (k < 64)
  | .acceptedReply => true
  | .windowLoad w _ n | .windowStore w _ n _ | .registerWrite w _ n _ => w.wf && sizeOk n
  | .descriptorDefine w b d i _ => w.wf && basinOk b && decide (d < 16384 ∧ i < 8)
  | .gaugeWindowWrite w b g _ => w.wf && basinOk b && decide (g < 4096)
  | .ctlRemapWrite w _ _ _ => w.wf
  | .trnLatStRead w b r => w.wf && basinOk b && decide (r < 16)
  | .streamCfgWrite w b e _ => w.wf && basinOk b && decide (e < 256)
  | .arbCfgWrite w b _ | .flipArm w b _ | .spareBankStart w b _ | .scrubCfgWrite w b _ => w.wf && basinOk b
  | .regCfgWrite w _ _ => w.wf
  | .remapInstall w b k e _ => w.wf && basinOk b && decide (k < 260 ∧ e < 4)
  | .remapCopy b k e => basinOk b && decide (k < 260 ∧ e < 4)
  | .spareCopierRead b i | .spareBankActive b i => basinOk b && decide (i < 4)
  | .keeperModeWrite w _ | .vreqGrantWrite w _ | .capWrite w _ | .fullResWrite w _ => w.wf
  | .regionTableWrite w n _ _ => w.wf && decide (n < 64)
  | .leveeWrite w b n _ _ => w.wf && basinOk b && decide (n < 32)
  | .burstArrival b _ _ _ n => basinOk b && decide (1 ≤ n ∧ n ≤ 4)
  | .checkDecision b c => basinOk b && decide (c < 16)
  | .parkOnScrubber b k => basinOk b && decide (k < 260)
  | .scrubRead b _ => basinOk b
  | .holdRetry _ | .returnedRequestReissue _ | .tileReadEnd _ | .screenRepeat _ => true
  | .tileClose _ wrong => wrong.all fun x => x.1 < 5376
  | .mxeRepeat _ l up => decide (l < 8) && up.accs.all (fun x => x.1 < 4096) && up.regs.all fun x => x.1 ≤ 128
  | .vxeRepeat _ l => decide (l < 64)
  | .gaugeIncrement b g => basinOk b && decide (g < 4096)
  | .shadowRestore b | .basinRetireComplete b | .basinRetireImmediate b _ | .regulatorIntervalEnd b
  | .lockLeaseScan b => basinOk b
  | .faultEvent | .waitAudit | .serviceTimePersist => true
  | .spareSubstitution b f s => basinOk b && decide (f < 20 ∧ s < 8)
  | .infieldTestDue _ b u | .infieldTestStart _ b u | .infieldTestEnd _ b u _ _ | .testForced b u => unitOk b u
  | .hardenCheck _ c _ => decide (c < 3)
  | .siphonRequest s _ k _ => siphonOk s && blockOk k
  | .siphonBlockRead s k _ _ _ => siphonOk s && blockOk k
  | .siphonBlockWrite s k o d => siphonOk s && blockOk k && decide (o + d.bytes.length ≤ 256)
  | .combinerFlush s p => siphonOk s && decide (p < 1015808)
  | .refreshSlot s _ _ _ _ | .linkCalibration s _ _ | .siphonOutOfService s | .siphonLinkReplay s => siphonOk s
  | .culvertArrival c _ _ _ | .culvertResponse c _ _ | .flitReplay c | .culvertLaneFail c _ | .culvertTrained c _
  | .culvertCreditReceived c _ => culvertOk c
  | .fenceReqAssert | .fenceReqDeassert | .fenceComplete | .fenceTimeout | .powerGoodRise | .powerGoodFall
  | .devResetAssert | .devResetDeassert | .startStep _ | .release _ | .startStepTimeout | .clockLoss | .clockRestart
  | .keeperBrownOut | .keeperReady | .thermalTrip | .thermalTripRelease | .powerSample _ | .powerMsUpdate _
  | .supplySettled | .vreqTimeout | .canaryCheck _ | .marginStep | .drainTimeout _ | .entryCommit | .entryAbort _
  | .sleepWake _ | .trickleSample _ | .controlWatchdog _ | .handoverPointTimeout | .handoverWatchdog _
  | .bootSlotCopyDone _ | .jtagIdcode | .jtagBypass _ | .jtagSamplePreload _ | .jtagExtest _
  | .jtagIeee1687Access _ _ | .tapReset | .supplyOutOfTolerance _ => true

end Sys2Proof
end

