-- ==== Sys2Proof/Machine/Siphons.lean ====
section
/-! DEFINITION. Siphons at work: the request queue (R302), blocks read and written (R299–R301), the combiner (R297),
refresh and patrol (R303, R304), link calibration (R305), and a siphon out of service (R307). -/

namespace Sys2Proof.Machine

def State.sphState (s : State) (i : Nat) : Nat := s.rfld (.sphSt i) 8 4

/-- The granted request that a block command performs. -/
def Siphon.request (p : Siphon) (block : Nat) (write : Bool) : Option SphReq :=
  p.granted.find? fun q => q.block = block ∧ q.write = write

/-- A granted request is performed: its requester, which moves the data itself, meets the MAC outcomes given (R300). -/
def State.perform (s : State) (i : Nat) (q : SphReq) (fail1 fail2 : Bool) : State :=
  let p := s.siphon i
  (s.putSiphon i { p with
    granted := p.granted.erase q, served := p.served ++ [(q.who, q.block, fail1, fail2)] }).runReady

/-! ### The queue (R302) -/

/-- AGE_N: 4–64; other values are treated as 8 (R310). -/
def State.sphAgeN (s : State) (i : Nat) : Nat :=
  let n := s.rfld (.sphCfg i) 0 7
  if 4 ≤ n ∧ n ≤ 64 then n else 8

/-- Entries a basin has in a queue. -/
def Siphon.queued (p : Siphon) (b : Nat) : Nat := (p.queue.filter fun q => q.basin = b).length

/-- A request of basin `b` finds an entry: four are reserved to each built basin, the others are shared. -/
def State.queueRoom (s : State) (p : Siphon) (b : Nat) : Bool :=
  let shared := ((List.range s.cfg.basins).map fun x => p.queued x - 4).foldl (· + ·) 0
  decide (p.queued b < 4) || decide (shared < 1024 - 4 * s.cfg.basins)

/-- The basin and the QoS value of a request (R175, R246, R302): by its packet's right, 7 for a restore's, WINDOW_QOS of
basin 0 for a window access, which takes that basin's entries. -/
def State.sphAsker (s : State) (who : SphSrc) : Option (Nat × Nat) :=
  match who with
  | .window => some (0, s.rfld (.bsnArbCfg 0) 8 3)
  | .flight i => (s.flight? i).map fun f =>
      (f.basin, if f.restore then 7 else s.rfld (.trnQosMap f.basin) (4 * f.right) 3)

/-- A request enters, or is counted as having found no entry. -/
def State.enqueue (s : State) (i : Nat) (who : SphSrc) (b qos block : Nat) (write : Bool) : State :=
  let p := s.siphon i
  if s.queueRoom p b then
    s.putSiphon i { p with
      queue := p.queue ++ [⟨who, b, qos, block, write, s.now, p.accepted⟩], accepted := p.accepted + 1 }
  else s.bump (.sphQst i) 0 16

/-- The request granted next: the oldest at an age grant, else the oldest of the highest QoS value. -/
def Siphon.next (p : Siphon) (age : Bool) : Option SphReq :=
  if age then p.queue.head?
  else
    let top := (p.queue.map (·.qos)).foldl max 0
    p.queue.find? fun q => q.qos = top

/-- Root cycles of a siphon cycle. -/
def rootPerSph : Nat := 6

/-- One grant, with its wait in siphon cycles. -/
def State.grantBlock (s : State) (i : Nat) : State :=
  let p := s.siphon i
  let age := decide (p.count + 1 ≥ s.sphAgeN i)
  match p.next age with
  | none => s
  | some q =>
    let s := s.putSiphon i { p with
      queue := p.queue.erase q, granted := p.granted ++ [q], count := if age then 0 else p.count + 1
      grantedAt := some s.cycle }
    let s := if age then s.bump (.sphQst i) 32 32 else s
    s.putFld (.sphQst i) 16 16 (max (s.rfld (.sphQst i) 16 16) (min 0xFFFF ((s.now - q.arrived) / rootPerSph)))

/-- A siphon in service makes its grant of the present cycle, once. -/
def State.grantOnce (s : State) (i : Nat) : State :=
  if s.sphState i = 1 ∧ (s.siphon i).grantedAt ≠ some s.cycle then s.grantBlock i else s

/-- Every siphon's grant. -/
def State.grantBlocks (s : State) : State := s.siphons.foldl (fun (s : State) x => s.grantOnce x.1) s

/-- SIPHON_REQUEST (R302): a request enters, and one is granted. -/
def execSiphonRequest (i : Nat) (who : SphSrc) (block : Nat) (write : Bool) (s : State) :
    Host.Outcome State Fault Refusal :=
  if s.sphState i ≠ 1 ∨ i ≥ s.cfg.siphons ∨ !blockOk block then ok s
  else match s.sphAsker who with
    | some (b, qos) => ok ((s.enqueue i who b qos block write).grantOnce i)
    | none => ok s

/-! ### Blocks -/

/-- A block command performs the oldest request accepted for its block, once that is granted, or an access that no request
waits before (R301). -/
def Siphon.performs (p : Siphon) (block : Nat) (write : Bool) : Bool :=
  let qs := (p.granted ++ p.queue).filter fun q => q.block = block
  match qs.find? fun q => qs.all fun r => decide (q.number ≤ r.number) with
  | none => true
  | some q => p.granted.contains q && q.write == write

/-- A block command acts: a siphon that serves, a data block (R290). -/
def State.blockActs (s : State) (i block : Nat) (write : Bool) : Bool :=
  decide (i < s.cfg.siphons) && blockOk block && s.siphonServes i && (s.siphon i).performs block write

/-- SIPHON_BLOCK_READ (R296, R300, R301): a request's block is read, and counted, as its requester takes it. -/
def execSiphonBlockRead (i block : Nat) (fail1 fail2 mapLost : Bool) (s : State) : Host.Outcome State Fault Refusal :=
  if !s.blockActs i block false then ok s
  else
    let s := if mapLost then s.loseMap i (block / 16) else s
    match (s.siphon i).request block false with
    | some q => ok (s.perform i q fail1 fail2)
    | none => ok (s.readBlock i block fail1 fail2).1

/-- SIPHON_BLOCK_WRITE (R297, R299): a request stays within its block. It waits where it finds no combiner slot. -/
def execSiphonBlockWrite (i block offset : Nat) (data : BlockData) (s : State) : Host.Outcome State Fault Refusal :=
  let full := s.siphonUp i && !s.pageValid i (block / 16) && (s.pageCombining i (block / 16)).isNone
    && decide ((s.combinerPages i).length ≥ 16)
  if !s.blockActs i block true ∨ full then ok s
  else
    let o := offset % 256
    match (s.siphon i).request block true with
    | some q => ok (s.perform i q data.fail1 data.fail2)
    | none => ok (s.writeBlock i block o (data.bytes.take (256 - o)) data.fail1 data.fail2)

/-- COMBINER_FLUSH (R297): 256 siphon cycles have passed since the first write. -/
def execCombinerFlush (i page : Nat) (s : State) : Host.Outcome State Fault Refusal :=
  match s.pageCombining i page with
  | some (_, since) => ok (if since + 256 * rootPerSph ≤ s.now then s.flushPage i page else s)
  | none => ok s

/-! ### Refresh and patrol -/

/-- Data blocks of a siphon (R290, R304). -/
def patrolBlocks : Nat := 16252928

/-- The next block to patrol from block `n` up: the first of a valid page; none above. -/
def State.nextPatrol (s : State) (i n : Nat) : Option Nat :=
  if s.pageValid i (n / 16) then some n
  else
    let ps := (s.pages.filter fun k => k / 2 ^ 20 = i ∧ k % 2 ^ 20 > n / 16).map fun k => k % 2 ^ 20
    ps.foldl (fun a p => match a with | none => some (p * 16) | some x => some (min x (p * 16))) none

/-- A patrol lap ends at its last block. -/
def State.patrolLap (s : State) (i : Nat) : State :=
  let p := s.siphon i
  let s := s.putFld (.sphPatrol i) 32 32 (min (2 ^ 32 - 1) ((s.now - p.lapStart) / rootPerMs))
  (s.bump (.sphPatrol i) 16 16).putSiphon i { p with patrol := 0, lapStart := s.now }

/-- One block patrolled: an on-die correction is written back, a MAC that fails twice is reported. -/
def State.patrolBlock (s : State) (i block : Nat) (correction fail1 fail2 : Bool) : State :=
  let r := s.verifyBlock i block fail1 fail2
  if r.2 && correction then
    ((r.1.bump (.sphPatrol i) 0 16).bumpWrap (.sphWrCnt i) 0 64).siphonEvent i block 2
  else r.1

/-- The patrol's turn in a refresh slot: a block with a write queued is left for the next slot. -/
def State.patrolOn (s : State) (i : Nat) (correction fail1 fail2 : Bool) : State :=
  let found := match s.nextPatrol i (s.siphon i).patrol with
    | some n => some (s, n)
    | none => (s.nextPatrol i 0).map fun n => (s.patrolLap i, n)
  match found with
  | none => s
  | some (s, n) =>
    let p := s.siphon i
    if (p.queue ++ p.granted).any fun q => q.write && q.block = n then s.putSiphon i { p with patrol := n }
    else
      let s := s.patrolBlock i n correction fail1 fail2
      if n + 1 ≥ patrolBlocks then s.patrolLap i else s.putSiphon i { s.siphon i with patrol := n + 1 }

/-- REFRESH_SLOT (R303, R304): `temp` is the stack's temperature. -/
def execRefreshSlot (i temp : Nat) (onDieCorrection fail1 fail2 : Bool) (s : State) :
    Host.Outcome State Fault Refusal :=
  if s.sphState i ≠ 1 ∨ i ≥ s.cfg.siphons then ok s
  else
    let s := (s.putFld (.sphSt i) 16 8 temp).putFld (.sphSt i) 0 1 (decide (temp > 85)).toNat
    ok (if bit (s.reg (.sphCfg i)) 8 then s.patrolOn i onDieCorrection fail1 fail2 else s)

/-! ### Out of service (R307) -/

/-- A bound tile's shadow record touches a siphon. -/
def State.shadowOn (s : State) (v : BitVec 512) (i : Nat) : Bool :=
  let len := cdiv (64 + dPayloadLen v) 256 * 256
  dBound v && dShadowValid v && (pieces (stackBase + dShadow v * 256) len).any fun p =>
    match s.stackAt p.1 with | some (_, sph, _) => sph = i | none => false

/-- Shadow records written afresh, from usable offset `u` up. -/
def State.writeShadows (s : State) (u : Nat) : List (Nat × Nat × BitVec 512 × List Byte) → State
  | [] => s
  | (b, d, v, bs) :: rest =>
    let n := cdiv (64 + bs.length) 256 * 256
    let u := if u / siphonData = (u + n - 1) / siphonData then u else (u / siphonData + 1) * siphonData
    let v := setBit (setFld v 384 29 ((windowOf u - stackBase) / 256)) 447 true
    let rec_ := recordHeader v true ++ bs
    let s := s.stackWrite (windowOf u) (rec_ ++ List.replicate (n - rec_.length) 0)
    let s := { s.putDesc b d v with placements := nset s.placements 0 (dkey b d) v }
    s.writeShadows (u + n) rest

/-- A context's tiles shadowed again from their verified basin copies, in a region on the remaining siphons. -/
def State.reshadow (s : State) (c : Nat) (ts : List (Nat × Nat)) : State :=
  let (s, good) := ts.foldl (fun (a : State × List (Nat × Nat × BitVec 512 × List Byte)) x =>
    let v := a.1.descOf x.1 x.2
    let (s, bs, bad) := a.1.readPayload x.1 (dExtentBase v) (dPayloadLen v) ⟨3, Requester.core.turnout⟩ (fun _ => true) []
    let dec := decodeTile .vector v bs
    if bad ∨ dec.tile.checkOf true ≠ dCheck v then (s, a.2) else (s, a.2 ++ [(x.1, x.2, v, bs)])) (s, [])
  let n := (good.map fun x => cdiv (64 + x.2.2.2.length) 256 * 256).foldl (· + ·) 0
  let units := cdiv (n + (n / siphonData + 1) * 9216) (2 ^ 24)
  if good.isEmpty then s
  else match s.fitStack false units with
    | some (entry, u, phys) =>
      let s := s.addRegion entry false 15 phys units u (s.newSet false)
      let r := s.ctx c
      let s := s.putCtx c { r with shadowRgns := r.shadowRgns ++ [entry] }
      s.writeShadows (u * 2 ^ 24) good
    | none => s

/-- Rosog writes a context's shadow records again, once the combiners have room (R297, R307). -/
def State.reshadowOn (s : State) : State :=
  match s.reshadows with
  | (c, ts) :: rest =>
    if s.flowRuns && !s.controlDown && !s.windowOpen && s.streamRoom then
      ({ s with reshadows := rest }).reshadow c (ts.filter fun x => dBound (s.descOf x.1 x.2) && dCtx (s.descOf x.1 x.2) = c)
    else s
  | [] => s

/-- A siphon taken out of service. -/
def State.siphonOut (s : State) (i : Nat) : State :=
  if s.sphState i = 2 then s
  else
    let s := (s.putFld (.sphSt i) 8 4 2).putSiphon i { s.siphon i with queue := [], granted := [], served := [] }
    let s := { s with combining := s.combining.filter fun x => x.1 / 2 ^ 20 ≠ i }
    let s := s.post { Event.of .siphon 0xFFFF i clsSiphon .none with
      detail := sphDetail 4 0xFF (s.rfld (.sphLinkSt i) 16 8) 0 }
    let s := s.recompute
    let hit := (s.placements.filter fun x => s.shadowOn (s.descOf (x.1 / 16384) (x.1 % 16384)) i).map fun x =>
      (x.1 / 16384, x.1 % 16384)
    let s := hit.foldl (fun (s : State) x =>
      let v := setBit (s.descOf x.1 x.2) 447 false
      { s.putDesc x.1 x.2 v with placements := nset s.placements 0 (dkey x.1 x.2) v }) s
    { s with reshadows := s.reshadows ++ ((List.range 8).map fun c =>
        (c, hit.filter fun x => dCtx (s.descOf x.1 x.2) = c)).filter fun x => !x.2.isEmpty }

/-- SIPHON_OUT_OF_SERVICE (R307). -/
def execSiphonOutOfService (i : Nat) (s : State) : Host.Outcome State Fault Refusal :=
  if i ≥ s.cfg.siphons then ok s else ok (s.siphonOut i)

/-! ### Link calibration (R305) -/

/-- Lanes of a siphon's link retired in a group of 32 (R421). -/
def State.retiredIn (s : State) (i g : Nat) : Nat :=
  (s.cistern.lanesRetired.filter fun x => x.1 = i ∧ x.2 / 32 = g).length

/-- A weak lane retired for good: a spare of its group takes its place; with none left the siphon goes out. -/
def State.retireLane (s : State) (i lane : Nat) : State :=
  if s.retiredIn i (lane / 32) ≥ 2 then s.siphonOut i
  else
    let s := { s with cistern := { s.cistern with lanesRetired := (i, lane) :: s.cistern.lanesRetired } }
    let left := s.rfld (.sphLinkSt i) 16 8 - 1
    let s := (s.putFld (.sphLinkSt i) 24 8 (min 255 (s.rfld (.sphLinkSt i) 24 8 + 1))).putFld (.sphLinkSt i) 16 8 left
    s.post { Event.of .siphon 0xFFFF i clsSiphon .none with
      loc := lane, detail := sphDetail 3 0xFF left 0 }

/-- A round runs: in service, in `FLOW` and `SLACK`, and so from no entry's step 2 on (R336); and once the site is awake in a siphon
that comes out of self-refresh, which serves from then on (R308). -/
def State.calibrates (s : State) (i : Nat) : Bool :=
  decide (i < s.cfg.siphons) && (s.sphState i = 1 && decide (s.site = stFlow ∨ s.site = stSlack)
    || s.sphState i = 3 && decide (s.site ≠ stPond ∧ s.site ≠ stTrickle ∧ s.site ≠ stFallow ∧ s.site ≠ stEntering))

/-- One round done: counted, its narrowest window shown, the trims set (what they are is open), weak lanes retired. -/
def State.linkRound (s : State) (i : Nat) (weak : List Nat) (margin : Nat) : State :=
  let s := (s.bump (.sphLinkSt i) 32 32).putFld (.sphLinkSt i) 0 16 margin
  let s := (s.putSiphon i { s.siphon i with trims := (s.siphon i).trims ++ [s.freeUses] }).useFree
  (weak.filter (· < 384)).foldl (fun (s : State) l => s.retireLane i l) s

/-- LINK_CALIBRATION (R305): one round. -/
def execLinkCalibration (i : Nat) (weak : List Nat) (margin : Nat) (s : State) : Host.Outcome State Fault Refusal :=
  if !s.calibrates i then ok s
  else
    let s := if s.sphState i = 3 then s.putFld (.sphSt i) 8 4 1 else s
    ok (s.linkRound i weak margin)

/-- SIPHON_LINK_REPLAY (R305): a transfer that fails its CRC is replayed, invisibly. -/
def execSiphonLinkReplay (_ : Nat) (s : State) : Host.Outcome State Fault Refusal := ok s

end Sys2Proof.Machine
end

