-- ==== Sys2Proof/Machine/Faults.lean ====
section
/-! DEFINITION. What Rosog does with an event (R271, R272, R276, R307), units retired and substituted (R273), basins
retired (R276–R278). -/

namespace Sys2Proof.Machine

/-! ### Retirement pending (R276) -/

/-- All units of a kind in a basin are retired, one that still computes included. -/
def State.allRetired (s : State) (kind : UnitKind) (b : Nat) : Bool :=
  (List.range (unitsOf kind)).all fun u => s.unitState ⟨kind, b, u⟩ = 5 || s.isRetired ⟨kind, b, u⟩

/-- The cistern keeps which basins are to be withdrawn, or are. -/
def State.keepBasin (s : State) (b : Nat) (done : Bool) : State :=
  { s with cistern := { s.cistern with
      basinsLeft := s.cistern.basinsLeft.filter (fun x => x.1 ≠ b) ++ [(b, done)] } }

/-- A basin enters retirement pending; the record names the unit that is its cause. -/
def State.setPending (s : State) (b : Nat) (kind : UnitKind) (u : Nat) (loc : Nat := 0) : State :=
  if !s.live b ∨ s.retiring.contains b then s
  else ({ s with retiring := s.retiring ++ [b] }.keepBasin b false).recordAction kind b u clsBasin 6 false loc

/-- The engine conditions of R276, after a unit went out of service. -/
def State.checkPending (s : State) (b : Nat) (kind : UnitKind) (u : Nat) : State :=
  if s.allRetired .vxe b || s.allRetired .screen b || s.allRetired .flume b
      || (List.range s.cfg.furrows).all fun f => (List.range 8).all fun k => (s.mxeAt b f k).isNone then s.setPending b kind u
  else s

/-! ### Units retired (R273) -/

/-- The unit's record says it is retired. -/
def State.markRetired (s : State) (kind : UnitKind) (b u : Nat) : State :=
  s.putUnitRec { s.unitRec kind b u with retired := true, due := none }

/-- A free spare MXE. -/
def State.freeMxe (s : State) (b : Nat) : Option Nat :=
  (List.range (s.cfg.activeMxe + s.cfg.spareMxe)).find? fun u => s.unitState ⟨.mxe, b, u⟩ = 3

/-- FURROW, SLOT and STATE of an MXE. -/
def State.setMxe (s : State) (b u furrow slot st : Nat) : State :=
  ((s.putFld (.mxeSt b u) 32 8 furrow).putFld (.mxeSt b u) 24 8 slot).putFld (.mxeSt b u) 20 4 st

/-- The slot an MXE serves. -/
def State.slotOf (s : State) (b u : Nat) : Option (Nat × Nat) :=
  let f := s.rfld (.mxeSt b u) 32 8
  if f = 0xFF then none else some (f, s.rfld (.mxeSt b u) 24 8)

/-- A permanent-faulty MXE is retired: at once where it is a free spare or idle without a slot, at its slot's next packet
boundary otherwise, at its test's end where it is under test. The record's action: a spare substituted, a unit retired,
a lane fold. -/
def State.retireMxe (s : State) (b u : Nat) : State :=
  if (s.unitRec .mxe b u).retired then s
  else
    let testing := (s.unitRec .mxe b u).testing
    let s := s.markRetired .mxe b u
    if testing then s
    else match s.slotOf b u with
      | none => (s.setMxe b u 0xFF 0xFF 5).recordAction .mxe b u clsRetired 4
      | some (f, k) =>
        let s := { s with substs := s.substs ++ [(⟨b, f, k, true⟩ : Subst)] }
        s.recordAction .mxe b u clsRetired (if (s.freeMxe b).isSome then 3 else 5)

/-- A permanent-faulty VXE, screen or flume is retired without substitution, once idle. -/
def State.retireUnit (s : State) (kind : UnitKind) (b u : Nat) : State :=
  if (s.unitRec kind b u).retired then s
  else
    let testing := (s.unitRec kind b u).testing
    let s := s.markRetired kind b u
    let s := if testing then s else
      let s := if s.unitState ⟨kind, b, u⟩ = 0 then s.setUnit ⟨kind, b, u⟩ 5 else s
      s.recordAction kind b u clsRetired 4
    s.checkPending b kind u

/-- A spare takes a slot, its predictor empty; the unit that served it goes to `st` without a slot. -/
def State.takeSlot (s : State) (b furrow slot u spare st : Nat) : State :=
  let s := (s.setMxe b spare furrow slot 0).setMxe b u 0xFF 0xFF st
  (s.putReg (.mxePred b spare) 0).putReg (.mxePredMap b spare) 0

/-- SPARE_SUBSTITUTION (R273): at the slot's packet boundary; with no free spare the slot is folded from here on. -/
def execSpareSubstitution (b furrow slot : Nat) (s : State) : Host.Outcome State Fault Refusal :=
  match s.substs.find? fun x => x.basin = b ∧ x.furrow = furrow ∧ x.slot = slot with
  | none => ok s
  | some x =>
    match s.mxeAt b furrow slot with
    | none => ok { s with substs := s.substs.filter (· ≠ x) }
    | some u =>
      if s.unitState ⟨.mxe, b, u⟩ ≠ 0 then ok s
      else
        let s := { s with substs := s.substs.filter (· ≠ x) }
        match s.freeMxe b with
        | some v =>
          let s := s.takeSlot b furrow slot u v 5
          ok { s with bit7Due := if x.bit7 then s.bit7Due ++ [(b, furrow, slot)] else s.bit7Due }
        | none => ok ((s.setMxe b u 0xFF 0xFF 5).checkPending b .mxe u)

/-! ### Banks (R272) -/

/-- A logical bank is permanent-faulty: a free spare replaces the bank that serves it, else retirement is pending. The
record's action. -/
def State.bankFaulty (s : State) (b pb row : Nat) : State × Nat :=
  let start := fun (s : State) (j : Nat) =>
    if (s.copyingTo b j).isSome then (s, 0)
    else match s.freeSpare b with
      | some i => (s.startSpare b i j, 2)
      | none => (s.setPending b .bank pb row, 6)
  match s.servesBank b pb with
  | some j => start s j
  | none =>
    if pb < s.cfg.banks then (s, 0)
    else
      let i := pb - s.cfg.banks
      match s.spareState b i with
      | 0 => (s.spareStore b i 3 (s.spareLogical b i), 0)
      | 1 => start (s.spareStore b i 3 (s.spareLogical b i)) (s.spareLogical b i)
      | _ => (s, 0)

/-- A remap entry of a row waits for its copy. -/
def State.remapDue (s : State) (b pb row : Nat) : Bool :=
  (List.range 4).any fun e => bit (s.reg (.bsnRemap b pb e)) 63 && s.rfld (.bsnRemap b pb e) 0 12 = row
    && !s.remapped.contains (b, pb, e)

/-- The action a newly permanent row or bank has. -/
def State.actOnBank (s : State) (b pb row : Nat) (rowBad bankBad : Bool) : State × Nat :=
  let live := pb < s.cfg.banks && (s.servesBank b pb).isSome || pb ≥ s.cfg.banks
  if !live then (s, 0)
  else if bankBad then s.bankFaulty b pb row
  else if rowBad then
    if s.remapDue b pb row then (s, 0)
    else match s.freeRemap b pb with
      | some e => (s.installRemap b pb e row, 1)
      | none => s.bankFaulty b pb row
  else (s, 0)

/-- Another corrected finding stands in the basin's lap (R335). -/
def State.secondCorrected (s : State) (b lap : Nat) : Bool :=
  s.cistern.units.any fun u => u.kind = .bank && u.basin = b &&
    u.events.any fun x => x.cls = clsCorrected && x.lap = lap

/-- A record of an event that its unit's summary holds. -/
def State.recordEvent (s : State) (e : Event) (action : Nat) (permanent : Bool) : State :=
  let e := if permanent then { e with verdict := .permanent } else e
  s.record e e.severity action permanent true

/-- A bank finding: one event per physical row and lap; one of a basin that has retired meanwhile is recorded and no more (R285).
A second finding of a row in one lap adds none, and counts for its bit alone (R271, R272). -/
def State.bankEvent (s : State) (e : Event) : State :=
  let b := e.basin
  if !s.live b then (s.addEvent e).recordEvent e 0 false
  else
    let r := s.unitRec .bank b e.unit
    let again := (s.rowEvents r e.loc).any fun x => x.lap = e.lap
    let s := if e.cls = clsUncorrectable ∨ s.secondCorrected b e.lap then s.marginSuspend else s
    let rowBad := s.permanentRow r e
    if again ∧ !rowBad then s
    else
      let s := if again then s else s.addEvent e
      let bankBad := decide (s.rowsFound (s.unitRec .bank b e.unit) ≥ 16)
      let (t, action) := s.actOnBank b e.unit e.loc rowBad bankBad
      if again ∧ action = 0 then s
      else
        let t := if again then t else t.recordEvent e action (rowBad || bankBad)
        if action = 1 ∨ action = 2 then t.recordAction .bank b e.unit clsRepair action false e.loc else t

/-! ### Descriptor and gauge lines (R236) -/

/-- A bound descriptor rebuilt from its placement record, its payload due for a restore. Readers in progress stay
counted. -/
def State.rebuildDesc (s : State) (b d : Nat) : State :=
  let v := nget s.placements 0 (dkey b d)
  if v = 0 ∨ !s.descBad b d then s
  else
    let n := (s.flights.filter fun f => f.phase = .reading b d).length
    let s : State := { s.putDesc b d (setFld v 336 8 n) with descChk := nset s.descChk 0 (dkey b d) 0 }
    let s := if dShadowValid v ∧ (b, d) ∉ s.restores then { s with restores := s.restores ++ [(b, d)] } else s
    s.afterBreak b d

/-- The context a gauge belongs to by Rosog's records (R363). -/
def State.gaugeOwner (s : State) (b g : Nat) : Nat :=
  match (s.levees b).find? fun l => l.kind = 0 ∧ l.gaugeBase ≤ g ∧ g < l.gaugeBase + l.gaugeCount with
  | some l => l.ctx
  | none => 0

/-- The gauges of a line, and the contexts that own them. -/
def lineGauges (j : Nat) : List Nat := (List.range 8).map (8 * j + ·)
def State.lineOwners (s : State) (b j : Nat) : List Nat :=
  distinct (((lineGauges j).filter fun g => (s.levees b).any fun l =>
    l.kind = 0 ∧ l.gaugeBase ≤ g ∧ g < l.gaugeBase + l.gaugeCount).map fun g => s.gaugeOwner b g)

/-- A gauge line is uncorrectable as stored. -/
def State.lineBad (s : State) (b j : Nat) : Bool := match s.lineFinding b (8 * j) with | .bad _ _ => true | _ => false

/-- An uncorrectable gauge line: its owners are faulted and it is rewritten. -/
def State.rewriteLine (s : State) (b j : Nat) : State :=
  if s.lineBad b j then
    let s := (s.lineOwners b j).foldl State.faultContext s
    let s := (lineGauges j).foldl (fun (s : State) g => (s.putCount b g 0).putGctx b g (s.gaugeOwner b g)) s
    { s with gaugeChk := nset s.gaugeChk 0 (lineKey b (8 * j)) 0 }
  else s

/-- A finding in a descriptor or a line. -/
def State.lineEvent (s : State) (e : Event) : State :=
  if !s.live e.basin then (s.addEvent e).recordEvent e 0 false
  else
    let s := s.addEvent e
    let bad := s.permanentUnit (s.unitRec e.kind e.basin e.unit)
    let faults := e.cls = clsLine && e.kind = .gaugeLine && s.lineBad e.basin e.unit
      && !(s.lineOwners e.basin e.unit).isEmpty
    let s := s.recordEvent { e with failed := e.failed || faults }
      (if faults then 8 else if bad && !s.retiring.contains e.basin then 6 else 0) bad
    let s := if e.cls ≠ clsLine then s
      else if e.kind = .descLine then s.rebuildDesc e.basin e.unit
      else s.rewriteLine e.basin e.unit
    if bad then s.setPending e.basin e.kind e.unit else s

/-! ### Engines and siphons -/

/-- An engine's event, classified by its history (R271); an unclassified one is recorded only. -/
def State.engineEvent (s : State) (e : Event) : State :=
  if e.verdict = .unclassified then s.record e e.severity 0 false false
  else
    let s := s.addEvent e
    let bad := s.permanentUnit (s.unitRec e.kind e.basin e.unit)
    let s := s.recordEvent e 0 bad
    if !bad then s
    else if e.kind = .mxe then (s.retireMxe e.basin e.unit).checkPending e.basin .mxe e.unit
    else s.retireUnit e.kind e.basin e.unit

/-- Distinct blocks of a siphon's reported failures within the window (R307). -/
def State.failedBlocks (s : State) (i : Nat) : Nat :=
  (distinct (((s.inWindow (s.unitRec .siphon 0xFFFF i)).filter fun x => x.cls = clsSiphon).map (·.loc))).length

/-- A siphon's event. -/
def State.siphonEventDone (s : State) (e : Event) : State :=
  if e.detail.head? = some 1 then
    let s := (s.addEvent e).recordEvent e 0 false
    if s.failedBlocks e.unit ≥ 16 then s.siphonOut e.unit else s
  else s.record e e.severity 0 false false

/-- Rosog acts on an event. -/
def State.handleEvent (s : State) (e : Event) : State :=
  match e.kind with
  | .bank => s.bankEvent e
  | .descLine | .gaugeLine =>
    if e.cls = clsCheckFail ∨ e.cls = clsRestored then s.record e e.severity 0 false false else s.lineEvent e
  | .mxe | .vxe | .screen | .flume => s.engineEvent e
  | .siphon => s.siphonEventDone e
  | .culvert | .register | .site => s.record e e.severity 0 false false

/-- Rosog serves its event queues: not in a partial reset or a handover's window, not asleep. -/
def State.eventsServed (s : State) : Bool := s.flowRuns && !s.controlDown && !s.windowOpen

/-- FAULT_EVENT (R250, R271, R272): the oldest event posted. -/
def execFaultEvent (s : State) : Host.Outcome State Fault Refusal :=
  match s.events with
  | [] => ok s
  | e :: rest => if s.eventsServed then ok (({ s with events := rest }).handleEvent e).runReady else ok s

/-! ### Basin retirement (R277, R278) -/

/-- A context holds a levee region in a basin. -/
def State.holdsAny (s : State) (b : Nat) : Bool := (s.levees b).any fun l => l.ctx < 8 && l.kind ≠ 2

/-- A ring's memory and home move to another basin at the same offset (R278). -/
def State.moveRing (s : State) (r to_ : Nat) : State :=
  let b := s.rfld (.ringCmd r) 48 8
  let copy := fun (s : State) (off len : Nat) =>
    let (s, bs, _) := s.readRange b off len ⟨3, Requester.core.turnout⟩
    s.writeRange to_ off bs ⟨3, Requester.core.turnout⟩
  let s := copy s (s.rfld (.ringCmd r) 0 18 * 256) (2 ^ s.rfld (.ringCmd r) 40 4 * 64)
  let s := copy s (s.rfld (.ringRpl r) 0 18 * 256) (2 ^ s.rfld (.ringRpl r) 40 4 * 32)
  let s := s.putFld (.ringCmd r) 48 8 to_
  if r < 8 then s.putCtx r { s.ctx r with homeBasin := to_ } else s

/-- The lowest-numbered live basin other than `b` of a ring's mask; ring 8 may go to any. -/
def State.newHome (s : State) (r b : Nat) : Option Nat :=
  (List.range s.cfg.basins).find? fun x => x ≠ b && s.live x && (r = 8 || bit (s.ctx r).mask x)

/-- Rings homed in a basin move away. -/
def State.moveRings (s : State) (b : Nat) : State :=
  (List.range 9).foldl (fun (s : State) r =>
    if s.ringState r ≠ 0 ∧ s.rfld (.ringCmd r) 48 8 = b then
      match s.newHome r b with | some x => s.moveRing r x | none => s
    else s) s

/-- What the site keeps of a basin besides its registers is gone with it, but for its events, which Rosog still records (R285). -/
def State.dropBasin (s : State) (b : Nat) : State :=
  { s with
    locks := s.locks.filter (·.basin ≠ b), dueIncs := s.dueIncs.filter (·.basin ≠ b)
    restores := s.restores.filter (·.1 ≠ b), placements := s.placements.filter fun x => x.1 / 16384 ≠ b
    retiring := s.retiring.filter (· ≠ b), spareCopies := s.spareCopies.filter (·.basin ≠ b)
    substs := s.substs.filter (·.basin ≠ b), bit7Due := s.bit7Due.filter (·.1 ≠ b)
    arbs := s.arbs.filter (·.basin ≠ b), beats := s.beats.filter (·.basin ≠ b), parks := s.parks.filter (·.basin ≠ b)
    turnWait := s.turnWait.filter (·.1 ≠ b) }

/-- The basin's fill begins, and it is out of DEV_BASIN_LIVE, the pools recomputed: the fill goes on where nothing reaches its words any
more (DESIGN CHOICE, log entry 23). -/
def State.retireBasin (s : State) (b : Nat) (failed : Bool) : State :=
  let s := (s.startFill b [(0, s.cfg.basinBytes / 64)] (cdiv (s.cfg.basinBytes / 64) s.cfg.banks + 1)).bump (.bsnArbSt b) 16 16
  let s := ((s.dropBasin b).putReg .devBasinLive (setBit (s.reg .devBasinLive) b false)).putReg (.pwrBasinSt b) 0
  (s.recompute).recordAction .site 0xFFFF b clsBasin 7 failed

/-- BASIN_RETIRE_COMPLETE (R277). -/
def execBasinRetireComplete (b : Nat) (s : State) : Host.Outcome State Fault Refusal :=
  if s.retiring.contains b ∧ s.live b ∧ !s.holdsAny b then ok (((s.moveRings b).retireBasin b false).keepBasin b true)
  else ok s

/-- A flight has a step left in a basin. -/
def Flight.touches (f : Flight) (b : Nat) : Bool :=
  f.plan.any fun st => match st with
    | .read b' _ _ _ _ | .write b' _ _ _ _ | .zmap b' _ _ => b' = b
    | _ => false

/-- Packets ended from outside with a status, answered: their tiles open for writes close broken. -/
def State.endFlights (s : State) (fs : List Flight) (st : Status) : State :=
  let s := s.killAll fs
  fs.foldl (fun (s : State) f => match f.arrival with
    | some (c, x, _) => s.respond c x st
    | none => if f.restore then s
      else s.finish f.src f.caller.spawn f.off f.pkt f.basin f.startCycle { f.outcome with status := st } false f.stats) s

/-- Everything in flight in a basin ends with `NOT_READY`, its lists too (R278, step 2). -/
def State.endBasin (s : State) (b : Nat) : State :=
  let fs := s.flights.filter fun f => f.basin = b || f.touches b
  let ws := s.waits.filter fun w => w.basin = b
  let hs := s.handed.filter fun h => h.basin = b && h.src ≠ .headgate
  let o := { Outcome.refuse .notReady with refused := false }
  let s := { s with waits := s.waits.filter fun w => w.basin ≠ b }
  let s := s.endFlights fs .notReady
  let s := ws.foldl (fun (s : State) w => s.finish w.src w.spawn w.off w.pkt b w.startCycle o false) s
  let s := hs.foldl (fun (s : State) h => s.finishHanded h o) s
  -- packets that spawned a list elsewhere
  let sp := s.lists.filter fun l => s.basinOf l.spawner = b && l.spawner ≠ .headgate && l.basin ≠ b
  let s := { s with lists := s.lists.map fun (l : ListRun) => if sp.contains l then { l with spawner := .headgate } else l }
  let s := sp.foldl (fun (s : State) l =>
    s.finish l.spawner l.spawnerSpawn l.spawnOff l.spawnPkt b l.spawnCycle o false) s
  let s := (s.lists.filter fun l => l.basin = b).foldl (fun (s : State) l => s.endList l.basin l.slot .notReady) s
  s.settle (s.lists.length + 1)

/-- BASIN_RETIRE_IMMEDIATE (R278): `fillOk` says whether the fill completes; without it the site enters `FALLOW`. Locked
interfaces whose mask holds the basin enter `ERROR` (R384). -/
def execBasinRetireImmediate (b : Nat) (fillOk : Bool) (s : State) : Host.Outcome State Fault Refusal :=
  if !s.live b ∨ b ≥ s.cfg.basins then ok s
  else
    let hit := (List.range 8).filter fun c => s.resident c && bit (s.ctx c).mask b
    let s := ((s.moveRings b).endBasin b).retireBasin b true
    let s := hit.foldl State.tdispError s
    ok (if fillOk then s.runReady else s.enterFallow 7 false)

end Sys2Proof.Machine
end

