-- ==== Sys2Proof/Machine/FieldTests.lean ====
section
/-! DEFINITION. Shadow restores (R246), in-field tests and their policy: `TEST_SCHEDULE` (R279–R282). -/

namespace Sys2Proof

open Machine

/-- A packet names a furrow. -/
def Packet.namesFurrow (p : Packet) (f : Nat) : Bool := (p.op = 0x18 || p.op = 0x19) && p.mFurrow = f

/-- The unit ACTION 1 names. -/
def Packet.testUnit (p : Packet) : UnitKind × Nat × Nat :=
  (if p.p 25 0 8 = 0 then .mxe else .vxe, p.p 24 0 8, p.p 26 0 16)

end Sys2Proof

namespace Sys2Proof.Machine

/-! ### Shadow restores -/

/-- A restore of tile `d` of basin `b` on flume `u`: its writer is Rosog, it names no gauge. -/
def State.restoreFlight (s : State) (b d u : Nat) : Flight :=
  { Flight.new s.nextFlight s.cycle .headgate Caller.rosog { Packet.zero with opcode := 0x11 } b (dCtx (s.descOf b d)) 0
      [⟨.flume, b, u⟩] [.record 0, .write b d 0 0 0] with
    genAt := [(dkey b d, 0)], restore := true }

/-- SHADOW_RESTORE (R246): the oldest restore due in the basin, on the first idle flume. -/
def execShadowRestore (b : Nat) (s : State) : Host.Outcome State Fault Refusal :=
  match s.restores.find? fun x => x.1 = b, s.idleUnit .flume b with
  | some (_, d), some u =>
    let s := { s with restores := s.restores.filter (· ≠ (b, d)) }
    ok ((s.occupy ⟨.flume, b, u⟩ 0x11).launch (s.restoreFlight b d u))
  | _, _ => ok s

/-! ### Tests -/

/-- A unit that in-field tests cover, in a live basin and not retired. -/
def State.testable (s : State) (kind : UnitKind) (b u : Nat) : Bool :=
  s.live b && !(s.unitRec kind b u).retired && match kind with
    | .mxe => decide (u < s.cfg.activeMxe + s.cfg.spareMxe) && s.unitState ⟨.mxe, b, u⟩ ≠ 5
    | .vxe => decide (u < 16) && s.unitState ⟨.vxe, b, u⟩ ≠ 5
    | _ => false

/-- A unit's test interval has passed since its last test (R279). -/
def State.intervalPast (s : State) (r : UnitRec) : Bool :=
  decide (r.lastTest + s.cistern.policy.intervalH * 3600 ≤ s.serviceNow)

/-- INFIELD_TEST_DUE (R279): the unit falls due INTERVAL_H hours after its last test. -/
def execInfieldTestDue (kind : UnitKind) (b u : Nat) (s : State) : Host.Outcome State Fault Refusal :=
  let r := s.unitRec kind b u
  ok (if s.testable kind b u ∧ !r.testing ∧ s.intervalPast r then s.dueNow kind b u else s)

/-- A list boundary of a furrow: no list or ring of the basin has a packet naming it dispatched or in a fetch buffer. -/
def State.listBoundary (s : State) (b furrow : Nat) : Bool :=
  !(s.flights.any fun f => f.basin = b && f.isMatrix && f.pkt.mFurrow = furrow)
    && !(s.lists.any fun l => l.basin = b && l.buf.any fun x => x.pkt.namesFurrow furrow)
    && !((List.range 9).any fun r => s.rfld (.ringCmd r) 48 8 = b && (s.ring r).buf.any fun x => x.pkt.namesFurrow furrow)

/-- A test runs in a furrow: an MXE taken from one of its slots. -/
def State.furrowTesting (s : State) (b furrow : Nat) : Bool :=
  s.cistern.units.any fun r => r.kind = .mxe && r.basin = b && r.testing &&
    (match r.heldSlot with | some (f, _) => decide (f = furrow) | none => false)

/-- The test of a unit begins. `held` is the slot it was taken from, and whether it comes back there. -/
def State.beginTest (s : State) (kind : UnitKind) (b u : Nat) (held : Option (Nat × Nat)) : State :=
  let s := s.setUnit ⟨kind, b, u⟩ 4
  s.putUnitRec { s.unitRec kind b u with testing := true, heldSlot := held, waitFrom := none }

/-- The slot of an MXE under test is folded: no spare took it (R280). -/
def State.forceTest (s : State) (b u furrow slot : Nat) : State :=
  let s := s.recordAction .mxe b u clsForced 10
  ((s.setMxe b u 0xFF 0xFF 4).beginTest .mxe b u (some (furrow, slot))).checkPending b .mxe u

/-- A due MXE is taken for its test (R279, R280): a spare without a slot at once, another with a free spare; with none
it is deferred, or forced where DEFER_D is 0. GRACE_S runs from the first try that waits for the list boundary. -/
def State.startMxeTest (s : State) (b u : Nat) : State :=
  if (s.unitState ⟨.mxe, b, u⟩ = 3) then s.beginTest .mxe b u none
  else match s.slotOf b u with
  | none => s
  | some (f, k) =>
    let r := s.unitRec .mxe b u
    let from_ := r.waitFrom.getD s.serviceNow
    if !(s.listBoundary b f || decide (s.serviceNow - from_ ≥ s.cistern.policy.graceS)) then
      s.putUnitRec { r with waitFrom := some from_ }
    else if s.unitState ⟨.mxe, b, u⟩ ≠ 0 ∨ s.furrowTesting b f then s
    else match s.freeMxe b with
      | some v => (s.takeSlot b f k u v 4).beginTest .mxe b u (some (f, k))
      | none => if s.cistern.policy.deferD = 0 then s.forceTest b u f k
                else (s.putUnitRec { r with waitFrom := none }).recordAction .mxe b u clsDeferred 9

/-- INFIELD_TEST_START (R279): a due unit, at its boundary or after the grace. No test starts in an entry (R323). -/
def execInfieldTestStart (kind : UnitKind) (b u : Nat) (s : State) : Host.Outcome State Fault Refusal :=
  let r := s.unitRec kind b u
  if r.due.isNone ∨ !s.testable kind b u ∨ r.testing ∨ s.power.entry.isSome then ok s
  else if kind = .mxe then ok (s.startMxeTest b u)
  else ok (if s.unitState ⟨.vxe, b, u⟩ = 0 then s.beginTest .vxe b u none else s)

/-- TEST_FORCED (R280): due for DEFER_D days, no spare free, at the slot's packet boundary. -/
def execTestForced (b u : Nat) (s : State) : Host.Outcome State Fault Refusal :=
  let r := s.unitRec .mxe b u
  match r.due, s.slotOf b u with
  | some due, some (f, k) =>
    if s.testable .mxe b u ∧ !r.testing ∧ s.power.entry.isNone ∧ s.serviceNow - due ≥ s.cistern.policy.deferD * 86400
        ∧ s.unitState ⟨.mxe, b, u⟩ = 0 ∧ !s.furrowTesting b f ∧ (s.freeMxe b).isNone then
      ok (s.forceTest b u f k)
    else ok s
  | _, _ => ok s

/-- Where a tested unit goes: a failing one is retired; a passing MXE is a free spare, or back in the slot nothing took
meanwhile; a passing VXE is idle. -/
def State.placeTested (s : State) (kind : UnitKind) (b u : Nat) (pass : Bool) (held : Option (Nat × Nat)) : State :=
  if kind = .mxe then
    if !pass then s.setMxe b u 0xFF 0xFF 5
    else match held with
      | some (f, k) => if (s.mxeAt b f k).isNone then s.setMxe b u f k 0 else s.setMxe b u 0xFF 0xFF 3
      | none => s.setMxe b u 0xFF 0xFF 3
  else s.setUnit ⟨kind, b, u⟩ (if pass then 0 else 5)

/-- A failed test leaves a slot that no spare took: a spare takes it where one is free (R273). -/
def State.refillSlot (s : State) (b : Nat) (held : Option (Nat × Nat)) : State :=
  match held with
  | some (f, k) =>
    match s.mxeAt b f k, s.freeMxe b with
    | none, some v =>
      let s := ((s.setMxe b v f k 0).putReg (.mxePred b v) 0).putReg (.mxePredMap b v) 0
      { s with bit7Due := s.bit7Due ++ [(b, f, k)] }
    | _, _ => s
  | none => s

/-- INFIELD_TEST_END (R279, R281, R282): a unit that became permanent-faulty under test counts as failing. -/
def execInfieldTestEnd (kind : UnitKind) (b u : Nat) (pass : Bool) (us : Nat) (s : State) :
    Host.Outcome State Fault Refusal :=
  let r := s.unitRec kind b u
  if !r.testing then ok s
  else
    let pass := pass && !r.retired
    let s := s.placeTested kind b u pass r.heldSlot
    let s := s.putUnitRec { r with
      testing := false, heldSlot := none, due := none, lastTest := s.serviceNow, reply := [], retired := !pass }
    let s := { s with testsDone := s.testsDone + 1 }
    let e := { Event.of kind b u clsTest (if pass then .none else .permanent) with failed := false }
    let s := s.record e 3 0 (!pass) false
    let s := if pass then s
      else ((s.recordAction kind b u clsRetired 4).refillSlot b r.heldSlot).checkPending b kind u
    ok (r.reply.foldl (fun (s : State) x => match s.handed? x.1 x.2 with
      | some h => s.finishHanded h (Outcome.words (if pass then 0 else 1) us 0 0)
      | none => s) s)

/-! ### TEST_SCHEDULE (R282) -/

def testFields (action : Nat) : List (Nat × Nat × Nat) :=
  (16, 0, 8) :: match action with
    | 0 => [(17, 0, 8), (18, 0, 8), (19, 0, 8), (20, 0, 4), (21, 0, 16)]
    | 1 => [(24, 0, 8), (25, 0, 8), (26, 0, 16)]
    | _ => []

/-- Order 1 of the refusals. -/
def State.testBad (s : State) (p : Packet) : Bool :=
  let a := p.p 16 0 8
  a > 2 || !p.reservedClear (testFields a) || match a with
    | 0 => !(zeroOr 1 168 (p.p 17 0 8) && zeroOr 1 60 (p.p 18 0 8) && p.p 19 0 8 ≤ 14 && zeroOr 1 720 (p.p 21 0 16))
    | 1 =>
      let u := p.testUnit
      !(decide (u.2.1 < s.cfg.basins ∧ p.p 25 0 8 ≤ 1)
        && decide (u.2.2 < if u.1 = .mxe then s.cfg.activeMxe + s.cfg.spareMxe else 16))
    | _ => false

/-- ACTION 0: a field of zero leaves its value, but for DEFER_D. -/
def TestPolicy.set (t : TestPolicy) (p : Packet) : TestPolicy :=
  let or := fun (new old : Nat) => if new = 0 then old else new
  ⟨or (p.p 17 0 8) t.intervalH, or (p.p 18 0 8) t.graceS, p.p 19 0 8, or (p.p 20 0 4) t.transientMax,
    or (p.p 21 0 16) t.windowH⟩

/-- Units tests cover that are due now: made due, or INTERVAL_H hours past their last test. -/
def State.dueUnits (s : State) : List (UnitKind × Nat × Nat × Nat) :=
  s.liveBasins.flatMap fun b =>
    (((List.range (s.cfg.activeMxe + s.cfg.spareMxe)).map fun u => (UnitKind.mxe, b, u))
      ++ (List.range 16).map fun u => (UnitKind.vxe, b, u)).filterMap fun x =>
      let r := s.unitRec x.1 x.2.1 x.2.2
      if !s.testable x.1 x.2.1 x.2.2 ∨ r.testing then none
      else match r.due with
        | some t => some (x.1, x.2.1, x.2.2, t)
        | none => if s.intervalPast r then
            some (x.1, x.2.1, x.2.2, r.lastTest + s.cistern.policy.intervalH * 3600) else none

/-- ACTION 2's words. -/
def State.testReport (s : State) : Outcome :=
  let due := s.dueUnits
  let deferred := due.filter fun x => x.1 = .mxe && (s.freeMxe x.2.1).isNone
  let longest := (deferred.map fun x => (s.serviceNow - x.2.2.2) / 3600).foldl max 0
  Outcome.words due.length deferred.length longest s.testsDone

/-- TEST_SCHEDULE's decision: ACTION 1 stays in Rosog's hands until the test ends. -/
def State.testAsk (s : State) (h : Handed) : State × Option Outcome :=
  let p := h.pkt
  if h.begun then (s, none)
  else if s.testBad p then (s, some (.refuse .badParam))
  else match p.p 16 0 8 with
    | 0 => ({ s with cistern := { s.cistern with policy := s.cistern.policy.set p } }, some Outcome.ok)
    | 1 =>
      let u := p.testUnit
      let r := s.unitRec u.1 u.2.1 u.2.2
      if !s.live u.2.1 then (s, some (.refuse .notReady))
      else if r.retired ∨ s.unitState ⟨u.1, u.2.1, u.2.2⟩ = 5 then (s, some (.refuse .refusedState))
      else
        (s.putUnitRec { r with due := some (r.due.getD s.serviceNow), reply := r.reply ++ [(h.src, p)] }, none)
    | _ => (s, some s.testReport)

/-- TEST_SCHEDULE (R282). -/
def execTestSchedule (src : Src) (pkt : Packet) (s : State) : Host.Outcome State Fault Refusal :=
  ok (s.control src { pkt with opcode := 0x49 } State.testAsk)

end Sys2Proof.Machine
end

