-- ==== Sys2Proof/Machine/Jtag.lean ====
section
/-! DEFINITION. The IEEE 1149.1 port (R431): a command is an instruction scan with the data scan that follows it. Bits
of a scan stand in shift order, first bit first. -/

namespace Sys2Proof.Machine

/-- 0x100E_2B4F, least significant bit first. -/
def idcodeBits : List Bool := (List.range 32).map fun i => bit (0x100E2B4F : BitVec 32) i

/-- The port works while `DEV_PWRGOOD` is high; else the TAP stays in Test-Logic-Reset. -/
def State.tapRuns (s : State) : Bool := s.start.pwrGood

/-- The TAP in Test-Logic-Reset: no instruction but the reset one, nothing driven. -/
def Tap.rest (t : Tap) : Tap := { t with instr := .reset, driven := false, out := [] }

/-- `DEV_RESET_N` released: a scan that drove pins is BYPASS from now on. -/
def Tap.undrive (t : Tap) : Tap := if t.instr = .extest then { t with instr := .bypass, driven := false } else t

/-- BYPASS with one bit shifted in: the bit captured as 0 comes out (log entry 47). -/
def Tap.bypass (t : Tap) (tdi : Bool) : Tap :=
  { t with instr := .bypass, bypassBit := tdi, driven := false, out := [false] }

/-- JTAG_IDCODE. -/
def execJtagIdcode (s : State) : Host.Outcome State Fault Refusal :=
  ok (if s.tapRuns then { s with tap := { s.tap with instr := .idcode, driven := false, out := idcodeBits } } else s)

/-- JTAG_BYPASS. -/
def execJtagBypass (tdi : Bool) (s : State) : Host.Outcome State Fault Refusal :=
  ok (if s.tapRuns then { s with tap := s.tap.bypass tdi } else s)

/-- Sampled pins of a scan of `n` bits: their order and values are open (log entry 47). -/
def State.sampled (s : State) (n : Nat) : List Bool := (List.range n).map fun i => Config.pin s.freeUses i

/-- JTAG_SAMPLE_PRELOAD: the sampled pins come out, the bits go into the boundary register. -/
def execJtagSamplePreload (bits : List Bool) (s : State) : Host.Outcome State Fault Refusal :=
  ok (if s.tapRuns then
      { s.useFree with tap := { s.tap with
          instr := .sample, boundary := bits, driven := false, out := s.sampled bits.length } }
    else s)

/-- JTAG_EXTEST: the boundary register drives the pins while `DEV_RESET_N` is asserted; else it is BYPASS. -/
def execJtagExtest (bits : List Bool) (s : State) : Host.Outcome State Fault Refusal :=
  ok (if !s.tapRuns then s
    else if s.start.resetAsserted then
      { s.useFree with tap := { s.tap with
          instr := .extest, boundary := bits, driven := true, out := s.sampled bits.length } }
    else { s with tap := { s.tap with
        instr := .bypass, bypassBit := bits.getLastD s.tap.bypassBit, driven := false, out := (false :: bits).take bits.length } })

/-- JTAG_IEEE1687_ACCESS: outside test-enable state the network reads all zero and ignores writes; inside it reaches
instruments the spec does not describe. -/
def execJtagIeee1687Access (write : Bool) (bits : List Bool) (s : State) : Host.Outcome State Fault Refusal :=
  if !s.tapRuns then ok s
  else if bit (s.reg .secSt) 7 then .refused .instrument
  else ok { s with tap := { s.tap with
    instr := .instruments, driven := false, out := if write then [] else List.replicate bits.length false } }

/-- TAP_RESET: `TRST_N` asserted. -/
def execTapReset (s : State) : Host.Outcome State Fault Refusal := ok { s with tap := s.tap.rest }

end Sys2Proof.Machine
end

