-- ==== Sys2Proof/Machine/Links.lean ====
section
/-! DEFINITION. Culverts as ports: arrivals (R55, R143, R147, R176, R261, R378), responses (R147, R416), credits, replays
and lanes (R413–R415), the fence (R351, R352, R429). -/

namespace Sys2Proof.Machine

/-! ### Events (R420) -/

/-- Spare lanes left, both directions. -/
def State.culSpares (s : State) (c : Nat) : Nat := s.rfld (.culSt c) 32 8 + s.rfld (.culSt c) 40 8

/-- A culvert event: kind, sender, job. -/
def State.culEvent (s : State) (c kind site job : Nat) : State :=
  s.post { Event.of .culvert 0xFFFF c clsCulvert .none with
    failed := decide (kind ≠ 0)
    detail := [BitVec.ofNat 8 kind, BitVec.ofNat 8 (s.culSpares c)] ++ leBytes 2 site ++ leBytes 4 job }

/-! ### Arrivals -/

/-- The context and the slot whose job key has an identifier (R378). -/
def State.jobHome (s : State) (job : BitVec 32) : Option (Nat × Nat) :=
  (((List.range 8).flatMap fun c => (List.range 16).map fun k => (c, k))).find? fun x =>
    match s.jobKey x.1 x.2 with | some (j, _, _) => j = job | none => false

/-- What a job key has seen of a sender: the highest counter and those within the window below it. -/
def KeySlot.seenOf (k : KeySlot) (site : Nat) : Option (Nat × List Nat) :=
  match k with
  | .job _ _ _ seen => (seen.find? fun x => x.1 = site).map fun x => (x.2.1, x.2.2)
  | _ => none

/-- A counter is neither stale by 1,024 nor a repeat (R378). -/
def KeySlot.accepts (k : KeySlot) (site n : Nat) : Bool :=
  match k.seenOf site with
  | some (high, old) => decide (high < n + 1024) && !old.contains n
  | none => true

/-- A counter is seen. -/
def KeySlot.see (k : KeySlot) (site n : Nat) : KeySlot :=
  match k with
  | .job j e send seen =>
    let (high, old) := ((KeySlot.job j e send seen).seenOf site).getD (0, [])
    let high := max high n
    .job j e send ((site, high, n :: old.filter fun m => decide (high < m + 1024))
      :: seen.filter fun x => x.1 ≠ site)
  | k => k

/-- The checks of R55, with R39 and R365. R55 names no case of a basin that is not built: it has no tile of the context, so
it is denied (DESIGN CHOICE, log entry 68). -/
def State.landingDenied (s : State) (c : Nat) (m : CulMsg) : Bool :=
  let b := m.destBasin.toNat
  let d := fld m.dstDesc 0 14
  let g := fld m.gauge 0 12
  b ≥ s.cfg.basins || (m.inc ≠ 0 && s.gaugeDenied c b g) || dCtx (s.descOf b d) ≠ c
    || !s.descAllotted c b d || dBound (s.descOf b d)
    || (match s.descCheck c b d with | some st => st ≠ .checkFail | none => false)

/-- The shape check of `LOAD`, and for a reduce the type rules of R149. -/
def State.landingFits (s : State) (m : CulMsg) (record : List Byte) : Bool :=
  let b := m.destBasin.toNat
  let v := s.descOf b (fld m.dstDesc 0 14)
  let h := recordParse (record.take 64)
  let e := elemOf (dFormat v)
  h.fits v && decide (record.length ≥ 64 + h.len)
    && (!bit m.flags 0 || (layoutOf (dFormat v) = 0 && decide (10 ≤ e ∧ e ≤ 12) && !s.weightClass b v))

/-- The flight of an arrival: one write, through the flume turnout numbered after its culvert (R143, R176). -/
def State.arrivalFlight (s : State) (cu c : Nat) (m : CulMsg) (record : List Byte) (e1 : Bool) : Flight :=
  let b := m.destBasin.toNat
  let h := recordParse (record.take 64)
  { Flight.new s.nextFlight s.cycle .headgate .none { Packet.zero with gaugeW := m.gauge &&& 0xFFF, inc := m.inc } b c
      (fld m.rightSlot 4 4) [] [.write b (fld m.dstDesc 0 14) 0 0 0] with
    arrival := some (cu, m.xtag, record.take (64 + h.len), bit m.flags 0, e1) }

/-- An arrival discarded under R55 or R378. -/
def State.discard (s : State) (cu : Nat) (m : CulMsg) : State :=
  ((s.bump (.culSt cu) 16 16).culEvent cu 2 m.srcSite.toNat m.jobId.toNat).respond cu m.xtag .accessDenied

/-- An authenticated arrival of context `c`: E1 bytes, then R55, then the shape, then it lands. -/
def State.land (s : State) (cu c : Nat) (m : CulMsg) (rec : List Byte) (e1 : Bool) : State :=
  let (record, fails) := if e1 then e1Parse rec else (rec, 0)
  let s := if e1 then (s.bump (.culE1St cu) 0 48 (cdiv rec.length 65)).bump (.culE1St cu) 48 16 fails else s
  if e1 ∧ fails > 0 then (s.culEvent cu 3 m.srcSite.toNat m.jobId.toNat).respond cu m.xtag .checkFail
  -- an arrival for a retired basin (R278)
  else if m.destBasin.toNat < s.cfg.basins ∧ !s.live m.destBasin.toNat then s.respond cu m.xtag .notReady
  else if s.landingDenied c m then s.discard cu m
  else if !s.landingFits m record then s.respond cu m.xtag .badParam
  else s.launch (s.arrivalFlight cu c m record e1)

/-- A record request has arrived whole. -/
def State.arrives (s : State) (cu : Nat) (m : CulMsg) (record : List Byte) (tagOk : Bool) : State :=
  if s.site = stFallow ∨ s.site = stDetaching ∨ (s.culState cu = culFenced ∧ !s.start.fencing) then
    s.respond cu m.xtag .notReady
  else match s.jobHome m.jobId with
    | none => s.discard cu m
    | some (c, k) =>
      let slot := s.keySlot c k
      let site := m.srcSite.toNat
      if !tagOk || !slot.accepts site m.counter.toNat then s.discard cu m
      else
        let e1 := match slot with | .job _ e _ _ => e | _ => false
        (s.setKeySlot c k (slot.see site m.counter.toNat)).land cu c m record e1

/-- A message takes its credits and its place in the request buffer. -/
def State.takeCredits (s : State) (c : Nat) (xtag : BitVec 32) (flits : Nat) : State :=
  let cv := s.culvert c
  s.putCulvert c { cv with inbox := cv.inbox ++ [(xtag, flits, false)], owed := cv.owed - flits }

/-- CULVERT_ARRIVAL (R55, R147, R194, R415, R416): none is accepted during a scrub (R369), else over a link that is up, or fenced
with credits out, and with a credit for each of its flits. -/
def execCulvertArrival (c : Nat) (m : CulMsg) (rec : List Byte) (tagOk : Bool) (s : State) :
    Host.Outcome State Fault Refusal :=
  let e1 := bit m.flags 1
  let flits := messageFlits (if e1 then 64 * cdiv rec.length 65 else rec.length) e1
  if !s.start.released ∨ s.site = stDry ∨ s.site = stScrub ∨ c ≥ 4 ∨ m.typ ≠ 1 ∨ flits > s.creditsOut c then ok s
  else ok (((s.wakeFor .culvert).takeCredits c m.xtag flits).arrives c m rec tagOk)

/-! ### Responses and credits -/

/-- The status of a response (R147); the responder gives no other. -/
def responseStatus (x : Byte) : Status :=
  match x.toNat with
  | 0x00 => .ok | 0x11 => .badParam | 0x14 => .extentOverflow | 0x20 => .accessDenied | 0x23 => .notReady
  | 0x30 => .checkFail | 0x31 => .tileBroken | _ => .internal

/-- A tile of a `SEND` has its response; the packet completes when every tile has one (R147). -/
def State.tileAnswered (s : State) (flight tile : Nat) (st : Status) : State :=
  match s.flight? flight with
  | none => s
  | some f =>
    let f := { f with responses := f.responses.map fun (x : Nat × Option Status) =>
      if x.1 = tile then (tile, some st) else x }
    if f.phase = .responses ∧ f.responses.all (·.2.isSome) then
      ((s.putFlight { f with phase := .run }).go f.id).runReady
    else s.putFlight f

/-- An exchange ends with a status. -/
def State.endExchange (s : State) (c : Nat) (e : Exchange) (st : Status) : State :=
  let cv := s.culvert c
  (s.putCulvert c { cv with exchanges := cv.exchanges.filter (·.xtag ≠ e.xtag) }).tileAnswered e.flight e.tile st

/-- CULVERT_RESPONSE (R147, R416): none is accepted during a scrub (R369). -/
def execCulvertResponse (c : Nat) (xtag : BitVec 32) (status : Byte) (s : State) : Host.Outcome State Fault Refusal :=
  ok (if s.start.released ∧ s.site ≠ stScrub then
      match (s.culvert c).exchanges.find? fun e => e.xtag = xtag && e.sent with
      | some e => s.endExchange c e (responseStatus status)
      | none => s
    else s)

/-- CULVERT_CREDIT_RECEIVED (R415): credits of the neighbour's request buffer. -/
def execCulvertCreditReceived (c flits : Nat) (s : State) : Host.Outcome State Fault Refusal :=
  ok (if s.start.released ∧ s.culState c = culUp then
      let cv := s.culvert c
      let s := s.putCulvert c { cv with credits := min 1024 (cv.credits + flits) }
      s.grantCulvert ((s.culvert c).exchanges.length + 1) c
    else s)

/-- FLIT_REPLAY (R414, R419): on a link that is up, or on which a fence still completes the credited exchanges (R352). -/
def execFlitReplay (c : Nat) (s : State) : Host.Outcome State Fault Refusal :=
  ok (if s.start.released ∧ (s.culState c = culUp ∨ s.culState c = culFenced ∧ s.start.fencing) then s.bump (.culSt c) 48 16
    else s)

/-! ### The fence (R351, R352) -/

/-- `DEV_FENCE_ACK` falls when no culvert trains any more. -/
def State.trainingDone (s : State) : State :=
  if (List.range 4).any fun c => s.culState c = culTraining then s
  else { s with start := { s.start with fenceAck := false } }

/-- Working culverts train their links; with none, the acknowledge falls at once. -/
def State.trainCulverts (s : State) : State :=
  let s := (List.range 4).foldl (fun (s : State) c =>
    if s.culState c = culFailed then s
    else (s.putCulvert c { s.culvert c with credits := 0, owed := 0 }).putFld (.culSt c) 0 4 culTraining) s
  s.trainingDone

/-- The site responds to a request that is not asserted: released, not in `FALLOW` or `DRY` (R351). -/
def State.unfence (s : State) : State :=
  if s.start.released ∧ s.start.pwrGood ∧ s.start.fenceAck ∧ s.site ≠ stFallow ∧ s.site ≠ stDry then s.trainCulverts
  else s

/-- Messages that wait for credits end with `NOT_READY`. -/
def State.dropUnsent (s : State) (c : Nat) : State :=
  ((s.culvert c).exchanges.filter (!·.sent)).foldl (fun (s : State) e => s.endExchange c e .notReady) s

/-- Every exchange of a culvert is abandoned. -/
def State.dropExchanges (s : State) (c : Nat) : State :=
  (s.culvert c).exchanges.foldl (fun (s : State) e => s.endExchange c e .notReady) s

/-- No exchange remains in either direction. -/
def State.exchangesDone (s : State) : Bool :=
  ((List.range 4).all fun c => (s.culvert c).exchanges.isEmpty && (s.culvert c).responses.isEmpty)
    && !s.flights.any fun f => f.arrival.isSome

/-- Culverts fenced: no credit is granted, and what has no credit ends (R351, R352). In a detach it is past cancelling (R354). -/
def State.fence (s : State) : State :=
  let s := (List.range 4).foldl (fun (s : State) c =>
    if s.culState c = culFailed then s
    else (s.putCulvert c { s.culvert c with owed := s.creditsOut c }).putFld (.culSt c) 0 4 culFenced) s
  let s := (List.range 4).foldl State.dropUnsent s
  let s := { s with start := { s.start with
      fencing := !s.start.fenceAck || !s.exchangesDone, noReturn := s.start.noReturn || decide (s.site = stDetaching) } }
  s.recompute

/-- FENCE_REQ_ASSERT (R351, R352). -/
def execFenceReqAssert (s : State) : Host.Outcome State Fault Refusal :=
  let s := { s with start := { s.start with fenceReq := true } }
  ok (if s.start.released ∧ s.site ≠ stDry ∧ !s.start.fencing then s.fence else s)

/-- FENCE_REQ_DEASSERT (R351, R429): during a fencing it is honoured afterwards. -/
def execFenceReqDeassert (s : State) : Host.Outcome State Fault Refusal :=
  let s := { s with start := { s.start with fenceReq := false } }
  ok (if s.start.fencing then s else s.unfence)

/-- The fencing is complete: the acknowledge is asserted, and a request withdrawn meanwhile is honoured. -/
def State.fenced (s : State) : State :=
  let s := { s with start := { s.start with fencing := false, fenceAck := true } }
  if s.start.fenceReq then s else s.unfence

/-- FENCE_COMPLETE (R351, R352). -/
def execFenceComplete (s : State) : Host.Outcome State Fault Refusal :=
  ok (if s.start.fencing ∧ s.exchangesDone then s.fenced else s)

/-- FENCE_TIMEOUT (R352): 1 ms after the request, exchanges that remain are abandoned; partial arrivals are discarded,
or close their tiles broken. -/
def execFenceTimeout (s : State) : Host.Outcome State Fault Refusal :=
  ok (if s.start.fencing then
      let s := s.killAll (s.flights.filter fun f => f.arrival.isSome)
      let s := (List.range 4).foldl (fun (s : State) c => s.putCulvert c { s.culvert c with inbox := [], owed := 0 }) s
      ((List.range 4).foldl State.dropExchanges s).fenced
    else s)

/-- CULVERT_TRAINED (R351, R413, R420). -/
def execCulvertTrained (c : Nat) (ok_ : Bool) (s : State) : Host.Outcome State Fault Refusal :=
  if !s.start.released ∨ s.culState c ≠ culTraining then ok s
  else
    let s := s.putFld (.culSt c) 0 4 (if ok_ then culUp else culFailed)
    let s := if ok_ then s else s.culEvent c 1 0xFFFF 0
    ok (s.trainingDone.recompute)

/-- CULVERT_LANE_FAIL (R413, R420): a spare takes the lane's place; with none left the culvert is fenced for good. -/
def execCulvertLaneFail (c : Nat) (outbound : Bool) (s : State) : Host.Outcome State Fault Refusal :=
  let lo := if outbound then 40 else 32
  let n := s.rfld (.culSt c) lo 8
  if !s.start.released ∨ c ≥ 4 ∨ s.culState c = culFailed then ok s
  else
    let t := (s.putFld (.culSt c) lo 8 (n - 1)).culEvent c 0 0xFFFF 0
    if n > 0 then ok t
    else
      let t := { t with cistern := { t.cistern with culRetired := c :: t.cistern.culRetired } }
      let t := (t.putFld (.culSt c) 0 4 culFailed).dropExchanges c
      let t := if s.culState c = culTraining then t.trainingDone else t
      ok t.recompute

end Sys2Proof.Machine
end

