-- ==== Sys2Proof/Machine/Powers.lean ====
section
/-! DEFINITION. The power manager at its samples (R331, R332), dividers and supplies (R312, R316), the thermal trip
(R333, R430), canaries and the margin (R334–R336), the keeper's READY (R317). -/

namespace Sys2Proof.Machine

/-- The power manager's sensors and controller run (R317, R318). -/
def State.managing (s : State) : Bool :=
  s.start.pwrGood && s.power.sensorsOn && s.power.driversOn && decide (s.start.step ≥ 3 ∧ s.site ≠ stDry)

/-! ### The cap (R332) -/

/-- The present duty and divider. -/
def State.duty (s : State) : Nat := s.rfld .pwrPerf 0 5
def State.flowDiv (s : State) : Nat := s.rfld .pwrPerf 16 4
/-- CAP_W in 0.125 W units. -/
def State.capUnits (s : State) : Nat := s.rfld .pwrCap 48 16 * 8

/-- stat + dyn × d ÷ 16 ≤ room, where dyn is the dynamic power at full duty: multiplied out by d[k], so that nothing is
rounded. -/
def dutyFits (total stat dk d : Nat) (room : Int) : Bool := decide ((stat * dk + (total - stat) * d : Nat) ≤ room * dk)

/-- The largest duty the cap allows the next sample, at most one step up. `samples` is newest first and holds sample k. -/
def capDuty (cap : Nat) (samples : List Nat) (total stat dk : Nat) : Nat :=
  let room : Int := 100 * cap - ((samples.take 99).foldl (· + ·) 0 : Nat)
  let fit := (List.range 16).filter fun i => dutyFits total stat dk (i + 1) room
  min ((fit.map (· + 1)).foldl max 1) (dk + 1)

/-- A reading at or above its limit, and all of them 2 °C below theirs (R332). -/
def State.hot (s : State) (r : PowerReading) : Bool := decide (r.dieMax ≥ s.rfld .pwrTherm 40 8 ∨ r.stackMax ≥ 84)
def State.cool (s : State) (r : PowerReading) : Bool := decide (r.dieMax + 2 ≤ s.rfld .pwrTherm 40 8 ∧ r.stackMax ≤ 82)

/-- D under the thermal rule: while hot one step down every 100 µs, once cool one step up every millisecond. The rule
ends when the cap alone decides D again. -/
def State.thermalDuty (s : State) (r : PowerReading) (want : Nat) : State × Nat :=
  let p := s.power
  let d := s.duty
  if s.hot r then
    let fall := decide (p.fallFor + 1 ≥ 10)
    let d' := min want (if fall then d - 1 else d)
    ({ s with power := { p with thermal := true, fallFor := if fall then 0 else p.fallFor + 1, riseFor := 0 } }, max 1 d')
  else if !p.thermal then (s, want)
  else if !s.cool r then ({ s with power := { p with fallFor := 0, riseFor := 0 } }, min want d)
  else if want ≤ d then ({ s with power := { p with thermal := false, fallFor := 0, riseFor := 0 } }, want)
  else if p.riseFor + 1 ≥ 100 then ({ s with power := { p with fallFor := 0, riseFor := 0 } }, min want (d + 1))
  else ({ s with power := { p with fallFor := 0, riseFor := p.riseFor + 1 } }, d)

/-- MARGIN_LOW of a canary raise falls one millisecond after the level has settled (R335). -/
def State.marginExpire (s : State) : State :=
  match s.power.lowClearAt with
  | some t => if t ≤ s.now then { s with power := { s.power with lowClearAt := none } }.showMargin else s
  | none => s

/-- One sample (R332): readings, then D for the next; a trip leaves D alone, and so does a scrub (R369). -/
def State.sample (s : State) (r : PowerReading) : State :=
  let s := (s.putFld .pwrTherm 56 8 r.dieMax).putFld .pwrTherm 48 8 r.stackMax
  let s := s.putFld .pwrPower 32 16 (min r.total 0xFFFF)
  let samples := (r.total :: s.power.samples).take 100
  let s := { s with power := { s.power with samples := samples } }
  let want := capDuty s.capUnits samples r.total r.static s.duty
  let (s, d) := if s.start.thermTrip ∨ s.site = stScrub then (s, s.duty) else s.thermalDuty r (min want 16)
  let s := s.putFld .pwrPerf 0 5 d
  { s with power := { s.power with dMs := d :: s.power.dMs } }.marginExpire.showLoad

/-- POWER_SAMPLE (R332). -/
def execPowerSample (r : PowerReading) (s : State) : Host.Outcome State Fault Refusal :=
  ok (if s.managing then s.sample r else s)

/-! ### The divider (R312, R316, R332) -/

/-- Minimum VDD_CORE of a divider (R316), within the range of R315. -/
def coreLevel (div : Nat) : Nat := min supplyMax (max 110 (Config.coreMin div))

/-- A change of FLOW_DIV begins (R312): no new beat starts for 64 flow cycles. None starts while another is in progress or
from step 2 of an entry on (R323); in a scrub it waits for the end (R369). -/
def State.setDiv (s : State) (div : Nat) : State :=
  if s.site = stScrub then { s with power := { s.power with divWait := some div } }
  else if s.power.divTo.isSome ∨ s.power.entry.isSome then s
  else { s with power := { s.power with divTo := some (div, s.cycle + 64) } }

/-- FLOW_DIV changes: counted and logged, and the pools follow (R188, R314). The lower VDD_CORE of a slower clock is
requested afterwards (R316). -/
def State.putDiv (s : State) (div : Nat) : State :=
  let slower := decide (s.flowDiv < div)
  let s := (((s.putFld .pwrPerf 16 4 div).bump .pwrPerf 48 16).logEvent).recompute
  if slower ∧ coreLevel div < s.coreReq then s.requestSupply (coreLevel div) s.sramReq else s

/-- The divider is switched once its 64 cycles are over. -/
def State.switchDiv (s : State) : State :=
  match s.power.divTo with
  | some (div, t) =>
    if t ≤ s.cycle then { s with power := { s.power with divTo := none } }.putDiv div else s
  | none => s

/-- A slower clock. -/
def State.slower (s : State) : State := s.setDiv (s.flowDiv + 1)

/-- A faster clock once VDD_CORE stands at its minimum. -/
def State.faster (s : State) : State :=
  let div := s.flowDiv - 1
  if s.power.supply.isSome then s
  else if s.coreGrant ≥ coreLevel div then s.setDiv div
  else { s with power := { s.power with divWait := some div } }.requestSupply (coreLevel div) s.sramReq

/-! ### The millisecond (R332) -/

/-- The lowest of the D values and 16. -/
def minDuty (ds : List Nat) : Nat := ds.foldl min 16

/-- POWER_MS_UPDATE's divider rule. -/
def State.divRule (s : State) (ds : List Nat) (full : Nat) (predicted : Nat) : State :=
  if s.power.divTo.isSome ∨ s.power.entry.isSome ∨ s.site = stScrub then s
  else if ds.foldl (· + ·) 0 < 14 * ds.length ∧ s.flowDiv < s.rfld .pwrCfg 32 4 then s.slower
  else if full ≥ 10 ∧ s.flowDiv > 4 ∧ predicted * 10 ≤ 9 * s.rfld .pwrCap 48 16 then s.faster
  else s

/-- DROP and D_PUB. -/
def State.publish (s : State) (ds : List Nat) (full : Nat) : State :=
  let s := if bit (s.reg .pwrPerf) 23 then s.bump .pwrCap 0 32 else s
  let s := if ds.any fun d => d < s.rfld .pwrCfg 24 5 then s.putFld .pwrPerf 23 1 1
    else if full ≥ 10 then s.putFld .pwrPerf 23 1 0 else s
  let d := minDuty ds
  if d = s.rfld .pwrPerf 8 5 then s else (s.putFld .pwrPerf 8 5 d).recompute

/-- AVG_1MS and PEAK_1MS. -/
def State.average (s : State) (n : Nat) : State :=
  if n = 0 then s
  else
    let avg := ((s.power.samples.take n).foldl (· + ·) 0) / (min n s.power.samples.length)
    let s := s.putFld .pwrPower 48 16 (min avg 0xFFFF)
    s.putFld .pwrPower 16 16 (max (s.rfld .pwrPower 16 16) (min avg 0xFFFF))

/-- The update of one millisecond. -/
def State.msUpdate (s : State) (predicted : Nat) : State :=
  let ds := if s.power.dMs.isEmpty then [s.duty] else s.power.dMs
  let full := if ds.all (· = 16) then s.power.fullMs + 1 else 0
  let s := s.average s.power.dMs.length
  let s := if s.power.thermal then s.bump .pwrTherm 0 16 else s
  let s := { s with power := { s.power with dMs := [], fullMs := full } }
  ((s.divRule ds full predicted).publish ds full).marginExpire

/-- POWER_MS_UPDATE (R188, R332). -/
def execPowerMsUpdate (predicted : Nat) (s : State) : Host.Outcome State Fault Refusal :=
  ok (if s.managing then s.msUpdate predicted else s)

/-! ### Supplies (R316) -/

/-- The settled level lets go of what waited for it: a faster divider, MARGIN_LOW, an entry's step 4. -/
def State.settled (s : State) : State :=
  let p := s.power
  let low := p.lowUntilSettled && decide (s.sramGrant < sramNominal)
  let raised := decide (p.lowCanary ≠ 0 ∧ p.lowCanary ≤ s.sramGrant)
  let s := { s with power := { p with
    supply := none, divWait := none, lowUntilSettled := low, lowCanary := if raised then 0 else p.lowCanary
    lowClearAt := if raised then some (s.now + rootPerMs) else p.lowClearAt } }
  let s := match p.divWait with
    | some d => if s.coreGrant ≥ coreLevel d then s.setDiv d else s
    | none => s
  let s := match s.power.entry with
    | some e => if e.step = 4 ∧ e.waitSram then s.entryOn { e with waitSram := false } else s
    | none => s
  s.nextSupply.showMargin

/-- SUPPLY_SETTLED (R316): 20 µs after a grant. -/
def execSupplySettled (s : State) : Host.Outcome State Fault Refusal :=
  ok (match s.power.supply with
    | some q => if q.granted then s.settled else s
    | none => s)

/-- VREQ_TIMEOUT (R316): a request not granted within 1 ms has failed. -/
def execVreqTimeout (s : State) : Host.Outcome State Fault Refusal :=
  ok (match s.power.supply with
    | some q => if q.granted then s else s.supplyFailed
    | none => s)

/-- SUPPLY_OUT_OF_TOLERANCE (R315, R335). -/
def execSupplyOutOfTolerance (out : Bool) (s : State) : Host.Outcome State Fault Refusal :=
  ok ({ s with power := { s.power with outOfTolerance := out } }.showMargin)

/-- KEEPER_READY (R317): 5 µs after normal mode was asked for. -/
def execKeeperReady (s : State) : Host.Outcome State Fault Refusal :=
  ok (if s.power.keeperPending then
      { s.putFld .pwrKeeper 1 1 1 with power := { s.power with keeperPending := false } }
    else s)

/-! ### The thermal trip (R333, R430) -/

/-- THERMAL_TRIP (R333, R411, R430): the comparator needs power alone, and is off in `DRY`. -/
def execThermalTrip (s : State) : Host.Outcome State Fault Refusal :=
  if !s.start.pwrGood ∨ s.site = stDry ∨ s.start.thermTrip then ok s
  else
    let s := { s with start := { s.start with thermTrip := true }, power := { s.power with tripStart := s.now } }
    ok ((s.bump .pwrTherm 16 16).alert alThermal)

/-- The site is in a sleep state, or on its way out of one. -/
def State.asleep (s : State) : Bool := s.site = stSlack || s.site = stPond || s.site = stTrickle || s.wakes

/-- THERMAL_TRIP_RELEASE (R327, R333): issue resumes at D = 1/16 under the thermal rule; leases did not run, in a sleep state until
its end. -/
def execThermalTripRelease (s : State) : Host.Outcome State Fault Refusal :=
  if !s.start.thermTrip then ok s
  else
    let from_ := s.power.tripStart
    let s := { s with
      start := { s.start with thermTrip := false }
      power := { s.power with
        thermal := true, fallFor := 0, riseFor := 0
        sleepStart := if s.asleep then min s.power.sleepStart from_ else s.power.sleepStart }
      locks := if s.asleep then s.locks else s.locks.map fun (l : Lock) => { l with deadline := l.deadline + (s.now - from_) } }
    ok (s.putFld .pwrPerf 0 5 1)

/-! ### Canaries and the margin (R334, R335) -/

/-- Tracking is active: enabled, in `FLOW` or `SLACK`, not suspended. -/
def State.tracking (s : State) : Bool := bit (s.showMargin.reg .pwrMargin) 62

/-- A canary error (R335): VDD_SRAM goes up by 20 mV, and is not lowered for 10 s. -/
def State.canaryError (s : State) : State :=
  let want := min (s.sramReq + 4) supplyMax
  let s := { s with power := { s.power with canaryError := true, noLowerUntil := s.now + 10 * rootPerS } }
  if want = s.sramReq ∧ s.power.supply.isNone then
    { s with power := { s.power with lowClearAt := some (s.now + rootPerMs) } }.showMargin
  else ({ s with power := { s.power with lowCanary := want } }.raiseSram want).showMargin

/-- The canary rows of the live basins are to be read in the millisecond that begins (R334). -/
def State.dueCanaries (s : State) : State :=
  { s with power := { s.power with
      canaryDue := s.liveBasins.flatMap fun b => (List.range (2 * s.cfg.checks)).map (b * 32 + ·) } }

/-- CANARY_CHECK (R334, R335): the canary rows read wrong in the millisecond that ends. -/
def execCanaryCheck (errors : Nat) (s : State) : Host.Outcome State Fault Refusal :=
  if !(s.flowRuns || s.site = stSlack) then ok s
  else if errors = 0 then ok s.dueCanaries
  else
    let s := s.dueCanaries.bump .pwrMargin 32 16 errors
    ok (if s.tracking then s.canaryError else s)

/-- MARGIN_STEP (R335): every 100 ms. -/
def execMarginStep (s : State) : Host.Outcome State Fault Refusal :=
  if !s.tracking then ok s.showMargin
  else
    let p := s.power
    let t := { s with power := { p with canaryError := false } }
    if !p.canaryError ∧ p.supply.isNone ∧ p.noLowerUntil ≤ s.now ∧ s.sramReq - 1 ≥ s.rfld .pwrMargin 0 8 ∧ s.sramReq > 0 then
      ok (t.requestSupply s.coreReq (s.sramReq - 1))
    else ok t

end Sys2Proof.Machine
end

