-- ==== Sys2Proof/Machine/Starts.lean ====
section
/-! DEFINITION. Starts: their causes (R313, R317, R330, R339), steps (R338), boot image (R341, R405), self-test verdicts
(R342–R344), calibration (R347), release (R340, R348, R349). -/

namespace Sys2Proof.Machine

/-! ### Entering steps -/

/-- STEP of DEV_START_ST. -/
def State.showStep (s : State) (k : Nat) : State := s.putFld .devStartSt 48 4 k

/-- The start registers as they are at the start of step 3 (R350); ATTEMPTS is what software last left. -/
def State.openStart (s : State) : State :=
  ((s.putReg .devStartSt (BitVec.ofNat 64 (s.rfld .devStartSt 44 4 * 2 ^ 44))).putReg .devStartRes 0).showStep 3

/-- Step 3 begins, once `DEV_RESET_N` is deasserted and the clock is there (R338, R339). -/
def State.enterFuses (s : State) : State :=
  let s := { s with start := { s.start with step := 3 } }
  if s.start.resetAsserted ∨ s.start.clockLost then s else s.openStart

/-- A cistern that holds no history, calibration or boot record (R349): the history is empty, service time and the event sequence
start at zero, the test policy takes its defaults, no trim is stored, slot A is active. -/
def Cistern.firstUse (c : Cistern) : Cistern :=
  { c with
    serviceS := 0, savedS := 0, eventSeq := 0, units := [], records := [], nextId := 0, overwritten := false
    policy := Cistern.factory.policy, trims := [] }.writeBoot false false

/-- What the cistern gives back at step 4: service time and CLK_EVENT_SEQ (R269, R314), and RECEIVED (R399, R407). The
number CLK_EVENT_SEQ resumes from is stored at once, so that none repeats. -/
def State.fromCistern (s : State) : State :=
  let c := if s.cistern.blank then s.cistern.firstUse else s.cistern
  let seq := if c.blank then 0 else c.eventSeq + 2 ^ 20
  let s := { s with cistern := { c with serviceS := c.savedS, eventSeq := seq, starts := c.starts + 1 } }
  let s := s.putReg .clkEventSeq (BitVec.ofNat 64 seq)
  if s.stage = 1 then
    { s.putFld .cstFwSt 0 20 c.receivedKept with
      cistern := { s.cistern with stagedBytes := s.cistern.stagedBytes.take (512 + c.receivedKept) } }
  else s

/-- Step 4 begins: the PLL locks, supplies are requested at the levels of ÷4 and 0.70 V. -/
def State.enterBoot (s : State) : State :=
  let s := ((s.putFld .clkSt 0 2 1).showStep 4).fromCistern
  let s := { s with start := { s.start with step := 4 } }
  s.requestSupply (coreLevel 4) sramNominal

/-- A later step begins. -/
def State.enterStep (s : State) (k : Nat) : State := { s.showStep k with start := { s.start with step := k } }

/-- Step 2 begins: the always-on domain runs from the internal oscillator until the reference is steady (R338). -/
def State.enterAlwaysOn (s : State) : State := (s.enterStep 2).putFld .clkSt 1 1 1

/-- Step 2 ends: the reference is steady, unless it is lost (R313). -/
def State.steadyClock (s : State) : State := if s.start.clockLost then s else s.putFld .clkSt 1 1 0

/-! ### Causes (R339) -/

/-- A pending supply request is over: the request stands at what was granted. -/
def State.dropRequest (s : State) : State :=
  (((s.putFld .pwrVreq 0 8 s.coreGrant).putFld .pwrVreq 8 8 s.sramGrant).putFld .pwrVreq 63 1 0)

/-- A start from fuse load with these registers kept; STATE reads `st` until release. -/
def State.restart (s : State) (keep : Reg → Bool) (st : Nat) : State :=
  let t := ((s.goneCold keep).setSite st).dropRequest.keeperNormal
  { t with start := { t.start with ms := 0 } }.enterFuses

/-- A start from step 1: nothing but the cistern and the fuses is kept. -/
def State.restartCold (s : State) (cause : Nat) : State :=
  let t := ((s.goneCold fun _ => false).setSite 0).putFld .pwrSt 32 8 cause
  let t := { t with
    start := { t.start with ms := 0, step := 1, clockLost := false, cold := true }
    mgt := { t.mgt with dyn := none, mwl := 64, mrl := 64, events := 0x0B, awake := true } }
  (t.putReg .devStartRes 0).putReg .devStartSt (BitVec.ofNat 64 (2 ^ 48))

/-- POWER_GOOD_RISE (R338, R339, R355). -/
def execPowerGoodRise (s : State) : Host.Outcome State Fault Refusal :=
  ok (if s.start.pwrGood then s
    else { s with start := { s.start with pwrGood := true, thermTrip := false } }.restartCold 0)

/-- POWER_GOOD_FALL (R339, R354, R428): the site stops at once. -/
def execPowerGoodFall (s : State) : Host.Outcome State Fault Refusal :=
  if !s.start.pwrGood then ok s
  else
    let t := { s with start := { s.start with pwrGood := false, thermTrip := false } }.restartCold 0
    ok { t with start := { t.start with step := 0 }, tap := t.tap.rest }

/-- Registers `DEV_RESET_N` leaves: the root count and the keeper. -/
def Reg.keptByReset (r : Reg) : Bool := r = .clkRootCnt || r = .pwrKeeper

/-- DEV_RESET_ASSERT (R339): before step 3 the sequence goes on to it. -/
def execDevResetAssert (s : State) : Host.Outcome State Fault Refusal :=
  let s := { s with start := { s.start with resetAsserted := true } }
  if !s.start.pwrGood then ok s
  else if s.start.step < 3 then ok (s.putFld .pwrSt 32 8 1)
  else
    -- the start registers stand at their Reset column from here on (R350)
    let t := (s.restart Reg.keptByReset 0).openStart
    ok ({ t with mgt := { t.mgt with dyn := none, mwl := 64, mrl := 64, events := 0x0B, awake := true } }.putFld .pwrSt
      32 8 1)

/-- DEV_RESET_DEASSERT (R338, R428): step 3 begins if it is due. -/
def execDevResetDeassert (s : State) : Host.Outcome State Fault Refusal :=
  let was := s.start.resetAsserted
  let s := { s with start := { s.start with resetAsserted := false }, tap := s.tap.undrive }
  ok (if was ∧ s.start.pwrGood ∧ s.start.step = 3 then s.enterFuses else s)

/-- CLOCK_LOSS (R313, R339): the reference or the lock is lost, in `DRY` too. Before step 3 the sequence goes on to it. -/
def execClockLoss (s : State) : Host.Outcome State Fault Refusal :=
  if !s.start.pwrGood ∨ s.start.clockLost then ok s
  else
    let s := { s with start := { s.start with clockLost := true } }
    let t := if s.start.step < 3 then s
      else { s with mgt := { s.mgt with awake := true } }.restart Reg.alwaysOn 0
    let t := { t with start := { t.start with cold := true } }
    ok (((t.putFld .pwrSt 32 8 3).bump .clkSt 48 16).putFld .clkSt 0 2 2)

/-- CLOCK_RESTART (R313): the reference has been steady for 1 ms. -/
def execClockRestart (s : State) : Host.Outcome State Fault Refusal :=
  if !s.start.clockLost then ok s
  else
    let s := { s.putFld .clkSt 1 1 0 with start := { s.start with clockLost := false } }
    ok (if s.start.pwrGood ∧ s.start.step = 3 then s.enterFuses else s)

/-- KEEPER_BROWN_OUT (R317, R339). -/
def execKeeperBrownOut (s : State) : Host.Outcome State Fault Refusal :=
  ok (if s.start.pwrGood then s.restartCold 2 else s)

/-- A re-test (R346): the sequence starts again at step 3; the exit from `FALLOW` is an event (R314). -/
def State.retestNow (s : State) : State :=
  let t := (s.restart Reg.alwaysOn 0).logEvent
  { t with start := { t.start with retest := true } }

/-- A wake from `DRY` (R330, R339). -/
def State.dryWake (s : State) : State :=
  (({ s with mgt := { s.mgt with awake := true } }).restart Reg.alwaysOn stWaking).logEvent

/-! ### Step 4: the image (R341, R357, R405) -/

/-- The active slot of the boot record, true for slot B (R405). -/
def State.activeB (s : State) : Bool := s.cistern.bootRec.slotB

/-- The boot record names an active slot, which CST_FW_ST.ACTIVE_SLOT shows; no copy is pending (R405, R409). -/
def State.setActive (s : State) (b : Bool) : State :=
  { s with cistern := s.cistern.writeBoot b false }.putFld .cstFwSt 27 1 b.toNat

/-- A pending copy-at-next-start is marked, or no longer (R405). -/
def State.markCopy (s : State) (pending : Bool) : State :=
  if s.cistern.copyPending = pending then s else { s with cistern := s.cistern.writeBoot s.activeB pending }

def State.slotInfo (s : State) (b : Bool) : ImageInfo := if b then s.cistern.slotB else s.cistern.slotA
def State.putSlot (s : State) (b : Bool) (x : ImageInfo) : State :=
  { s with cistern := if b then { s.cistern with slotB := x } else { s.cistern with slotA := x } }

/-- An image may run: its version and key index, with the verdict on its header and signatures (R357). -/
def State.mayRun (s : State) (x : ImageInfo) (verified : Bool) : Bool :=
  verified && decide (s.cistern.arCounter ≤ x.svn ∧ x.svn ≤ 64) && !bit s.cistern.revoked x.keyIndex

/-- The staging slot emptied. -/
def State.emptyStaging (s : State) : State :=
  let s := (s.markCopy false).setStage 0
  { s.putFld .cstFwSt 0 20 0 with cistern := { s.cistern with staged := none, stagedBytes := [], receivedKept := 0 } }

/-- FAILS. -/
def State.fwFail (s : State) : State := s.bump .cstFwSt 48 16

/-- The copy-at-next-start, when one is pending (R405): the inactive slot is overwritten before the image is verified there. -/
def State.copyAtStart (s : State) (verified : Bool) : State :=
  if !s.cistern.copyPending then s
  else match s.cistern.staged with
    | none => s.markCopy false
    | some x =>
      let b := !s.activeB
      let t := s.putSlot b x
      if s.mayRun x verified then ((t.setActive b).emptyStaging).putFld .devStartSt 42 1 1 else t.emptyStaging.fwFail

/-- The slot that a pending copy at next start overwrites. -/
def State.copySlot (s : State) : Option Bool :=
  if s.cistern.copyPending ∧ s.cistern.staged.isSome then some (!s.activeB) else none

/-- The slot the boot ROM boots: the active one, else the other, none when neither verifies (R341). -/
def State.bootSlot (s : State) (okA okB : Bool) : Option (Bool × Bool) :=
  let good := fun (b : Bool) => s.mayRun (s.slotInfo b) (if b then okB else okA)
  if good s.activeB then some (s.activeB, false)
  else if good (!s.activeB) then some (!s.activeB, true)
  else none

/-- RUNNING_SVN and the lock bits as SEC_ST shows them (R389). -/
def State.showImage (s : State) : State := s.showOwner.putFld .secSt 40 8 s.running.svn

/-- A check comes on from off: it ramps, and the bank-side fill leaves its 16 banks zero with valid check bits (R168,
R319). No write contends with it before release. -/
def State.fillCheck (s : State) (b c : Nat) : State :=
  let kept := fun (n : Nat) =>
    let per := s.cfg.physBanks * s.cfg.bankWords
    n / per ≠ b || s.checkOfBank b (n % per / s.cfg.bankWords) ≠ c
  let s := s.putFld (.pwrBasinSt b) (2 * c) 2 3
  { s.bump (.bsnArbSt b) 16 16 with
    mem := s.mem.filter fun x => kept (x.1 / 64), memChk := s.memChk.filter fun x => kept x.1 }

/-- The checks of every built basin come on, one at a time (R319). -/
def State.rampBanks (s : State) : State :=
  (List.range s.cfg.basins).foldl (fun (s : State) b => (List.range s.cfg.checks).foldl (·.fillCheck b ·) s) s

/-- Step 4 ends. -/
def State.boot (s : State) (r : StepResult) : State :=
  let copied := s.copySlot
  let s := s.copyAtStart (bit r.imagesOk 2)
  -- a slot written by the copy verifies as the copy does
  let okA := if copied = some false then bit r.imagesOk 2 else bit r.imagesOk 0
  let okB := if copied = some true then bit r.imagesOk 2 else bit r.imagesOk 1
  match s.bootSlot okA okB with
  | none => s.enterFallow 1 true
  | some (b, other) =>
    let x := s.slotInfo b
    let s := (s.putFld .devStartSt 40 1 b.toNat).putFld .devStartSt 41 1 other.toNat
    let m := if x = s.running then s.spdm.measured2 else s.spdm.measured2 + 1
    let s := { s with running := x, spdm := { s.spdm with aliasGen := s.spdm.aliasGen + 1, measured2 := m } }
    ((s.placeImage x).showImage).rampBanks.enterStep 5

/-! ### Step 5: the verdicts (R342–R344) -/

/-- Spare banks whose copy a start has cut short serve: their bank holds only fill (R343). -/
def State.finishSpares (s : State) (b : Nat) : State :=
  (List.range 4).foldl (fun (s : State) i =>
    if s.spareState b i ≠ 1 then s
    else
      let j := s.spareLogical b i
      let s := (List.range 4).foldl (fun (s : State) k =>
        if s.spareState b k = 2 ∧ s.spareLogical b k = j then s.putFld (.bsnSpareMap b) (16 * k + 14) 2 3 else s) s
      s.putFld (.bsnSpareMap b) (16 * i + 14) 2 2) s

/-- The remap entries in force: every valid one (R254). -/
def State.validRemaps (s : State) : List (Nat × Nat × Nat) :=
  s.regs.filterMap fun x => match x.1 with
    | .bsnRemap b k e => if bit x.2 63 then some (b, k, e) else none
    | _ => none

/-- A unit's record says it is permanent-faulty, and a record of the action is written. -/
def State.noteStartFault (s : State) (kind : UnitKind) (b u cls action : Nat) (row : Nat := 0) : State :=
  let e : Event := { Event.of kind b u cls .permanent with loc := row }
  (s.addEvent e).record e e.severity action false true

/-- Basins that are not live, from what they lose (R343). -/
def State.loseBasin (s : State) (b : Nat) : State := s.putReg .devBasinLive (setBit (s.reg .devBasinLive) b false)

/-- A basin is lost to a part of its own or to the last of its units; the record names the basin (R343). -/
def State.basinOut (s : State) (b : Nat) : State :=
  if s.live b then (s.loseBasin b).recordAction .site 0xFFFF b clsBasin 7 else s

/-- A bank is faulty: a free spare takes it at once; without one the basin is lost. A free spare that fails is set
aside. -/
def State.startBank (s : State) (b pb : Nat) : State :=
  match s.servesBank b pb with
  | none =>
    if pb < s.cfg.banks ∨ s.spareState b (pb - s.cfg.banks) = 3 then s
    else (s.putFld (.bsnSpareMap b) (16 * (pb - s.cfg.banks) + 14) 2 3).noteStartFault .bank b pb clsRetired 4
  | some j =>
    let s := if pb ≥ s.cfg.banks then s.putFld (.bsnSpareMap b) (16 * (pb - s.cfg.banks) + 14) 2 3 else s
    match s.freeSpare b with
    | none => (s.noteStartFault .bank b pb clsBasin 7).loseBasin b
    | some i =>
      let s := (s.putFld (.bsnSpareMap b) (16 * i + 14) 2 2).putFld (.bsnSpareMap b) (16 * i) 8 j
      let s := s.putFld .devStartRes 0 8 (min 255 (s.rfld .devStartRes 0 8 + 1))
      s.noteStartFault .bank b pb clsRepair 2

/-- A row is faulty: it is remapped, or its bank is faulty. -/
def State.startRow (s : State) (b pb row : Nat) : State :=
  match s.freeRemap b pb with
  | some e =>
    ((s.putReg (.bsnRemap b pb e) (BitVec.ofNat 64 (2 ^ 63 + row))).moveRow b pb row).noteStartFault .bank b pb
      clsRepair 1 row
  | none => s.startBank b pb

/-- An MXE recorded as retired stands without a slot; a free spare has taken it where there was one. -/
def State.placeMxe (s : State) (b u : Nat) : State :=
  match s.slotOf b u with
  | none => s.setMxe b u 0xFF 0xFF 5
  | some (f, k) =>
    match s.freeMxe b with
    | some v => s.takeSlot b f k u v 5
    | none => s.setMxe b u 0xFF 0xFF 5

/-- A newly failing unit is retired (R343). -/
def State.failUnit (s : State) (kind : UnitKind) (b u : Nat) : State :=
  if (s.unitRec kind b u).retired then s
  else
    let action := if kind ≠ .mxe then 4 else match s.slotOf b u with
      | none => 4
      | some _ => if (s.freeMxe b).isSome then 3 else 5
    let s := (s.markRetired kind b u).noteStartFault kind b u clsRetired action
    if kind = .mxe then s.putFld .devStartRes 16 16 (min 0xFFFF (s.rfld .devStartRes 16 16 + 1))
    else s.putFld .devStartRes 8 8 (min 255 (s.rfld .devStartRes 8 8 + 1))

/-- Every unit the summary records as retired is out of service. -/
def State.placeRetired (s : State) : State :=
  s.cistern.units.foldl (fun (s : State) u =>
    if !u.retired then s
    else match u.kind with
      | .mxe => s.placeMxe u.basin u.unit
      | .vxe | .screen | .flume => s.setUnit ⟨u.kind, u.basin, u.unit⟩ 5
      | _ => s) s

/-- A basin that has lost all of one kind of VXE, screen or flume is not live. -/
def State.loseEmpty (s : State) : State :=
  (List.range s.cfg.basins).foldl (fun (s : State) b =>
    if s.allRetired .vxe b || s.allRetired .screen b || s.allRetired .flume b then s.basinOut b else s) s

/-- A siphon whose training fails: out of service, with its event recorded (R307, R309, R343). -/
def State.startSiphonOut (s : State) (i : Nat) : State :=
  let e : Event := { Event.of .siphon 0xFFFF i clsSiphon .permanent with
    detail := sphDetail 4 0xFF (s.rfld (.sphLinkSt i) 16 8) 0 }
  (s.putFld (.sphSt i) 8 4 2).record e e.severity 4 false false

/-- A culvert that newly fails is fenced for good, and recorded as a unit retired (R343). -/
def State.startCulvertOut (s : State) (c : Nat) : State :=
  if s.cistern.culRetired.contains c then s
  else { s with cistern := { s.cistern with culRetired := c :: s.cistern.culRetired } }.noteStartFault .culvert 0xFFFF c
    clsRetired 4

/-- A lane that training finds bad is repaired by a spare of its group (R305, R342); with none left its siphon's training fails. -/
def State.startLane (s : State) (x : Nat × Nat) : State :=
  if x.1 ≥ s.cfg.siphons ∨ x.2 ≥ 384 ∨ s.rfld (.sphSt x.1) 8 4 = 2 then s
  else if s.retiredIn x.1 (x.2 / 32) ≥ 2 then s.startSiphonOut x.1
  else s.retireLane x.1 x.2

/-- Siphons leave their training: in service, but for those it fails for; culverts that fail are fenced for good. -/
def State.startLinks (s : State) (r : StepResult) : State :=
  let s := (List.range s.cfg.siphons).foldl (fun (s : State) i => s.putFld (.sphSt i) 8 4 1) s
  let s := ((List.range s.cfg.siphons).filter fun i => bit r.siphonFailed i).foldl State.startSiphonOut s
  let s := r.lanes.foldl State.startLane s
  let sf := (List.range s.cfg.siphons).filter fun i => s.rfld (.sphSt i) 8 4 = 2
  let s := ((List.range 4).filter fun c => bit r.culvertFailed c).foldl State.startCulvertOut s
  let cf := (List.range 4).filter s.cistern.culRetired.contains
  let s := cf.foldl (fun (s : State) c => s.putFld (.culSt c) 0 4 culFailed) s
  -- Rosog's stack keys are made anew (R359)
  let s := (s.loadKeys 15 (s.freeUses + 1)).useFree
  (s.putFld .devStartRes 48 8 sf.length).putFld .devStartRes 44 4 ((cf.map (2 ^ ·)).foldl (· + ·) 0)

/-- Basins whose retirement was pending are withdrawn by this start (R277); those withdrawn before stay so. -/
def State.completeRetirements (s : State) : State :=
  s.cistern.basinsLeft.foldl (fun (s : State) x =>
    let s := s.loseBasin x.1
    if x.2 then s else (s.keepBasin x.1 true).recordAction .site 0xFFFF x.1 clsBasin 7) s

/-- A live basin none of whose furrows has a served slot enters retirement pending (R276); its cause is its last MXE retired. -/
def State.pendEmpty (s : State) : State :=
  s.liveBasins.foldl (fun (s : State) b =>
    match s.cistern.units.find? fun u => u.kind = .mxe && u.basin = b && u.retired with
    | some u => s.checkPending b .mxe u.unit
    | none => s) s

/-- Rosog's verdicts (R343). -/
def State.verdicts (s : State) (r : StepResult) : State :=
  let s := s.putReg .devBasinLive (Reg.resetValue s.cfg .devBasinLive)
  let s := (List.range s.cfg.basins).foldl State.finishSpares s
  let s := r.rows.foldl (fun (s : State) x => s.startRow x.1 x.2.1 x.2.2) s
  let s := r.banks.foldl (fun (s : State) x => s.startBank x.1 x.2) s
  -- no word is left to copy; a later entry for a row stands before an earlier one
  let s := { s with remapped := (s.validRemaps.filter fun x => !s.remapped.contains x) ++ s.remapped }
  let s := s.placeRetired
  let s := r.mxes.foldl (fun (s : State) x => (s.failUnit .mxe x.1 x.2).placeMxe x.1 x.2) s
  let s := r.vxes.foldl (fun (s : State) x => (s.failUnit .vxe x.1 x.2).setUnit ⟨.vxe, x.1, x.2⟩ 5) s
  let s := r.screens.foldl (fun (s : State) x => (s.failUnit .screen x.1 x.2).setUnit ⟨.screen, x.1, x.2⟩ 5) s
  let s := r.flumes.foldl (fun (s : State) x => (s.failUnit .flume x.1 x.2).setUnit ⟨.flume, x.1, x.2⟩ 5) s
  let s := ((List.range s.cfg.basins).filter fun b => bit r.basinFailed b).foldl State.basinOut
    s.loseEmpty.completeRetirements
  let s := s.pendEmpty
  let s := s.startLinks r
  let lost := (List.range s.cfg.basins).filter fun b => !s.live b
  let s := s.putFld .devStartRes 56 8 lost.length
  -- the power-up fill (R253); the checks of a basin that is not live go off
  let s := (List.range s.cfg.basins).foldl (fun (s : State) b =>
    (s.bump (.bsnArbSt b) 16 16).putReg (.pwrBasinSt b) 0) s
  let s := s.setBanks 1
  s.putFld .devStartSt 0 16 (min r.ms 0xFFFF)

/-- The causes of `FALLOW` at the end of self-test (R344). -/
def State.fallowCause (s : State) (r : StepResult) : Option Nat :=
  if r.katFailed ≠ 0 then some 2
  else if r.ramFailed then some 3
  else if r.cisternFailed then some 4
  else if !s.live 0 then some 5
  else if (List.range 4).all fun c => s.culState c = culFailed then some 6
  else none

/-- Step 5 ends. -/
def State.selfTest (s : State) (r : StepResult) : State :=
  let s := (s.putFld .devStartRes 32 8 r.katFailed.toNat).verdicts r
  match s.fallowCause r with
  | some c => s.enterFallow c true
  | none => s.enterStep 6

/-! ### Steps 6 and 7 -/

/-- The trims of a siphon's lane as rounds have left them: each written-back round moves a trim that it found more than a step off,
the first sets every one. What a round finds is open (R305, R347). -/
def trimOf (rounds : List Nat) (lane : Nat) : Option Nat :=
  rounds.foldl (fun (v : Option Nat) g =>
    let x := (Config.free 81 (g * 1024 + lane)).toNat % 2 ^ 16
    match v with
    | some y => if x > y + 1 ∨ y > x + 1 then some x else some y
    | none => some x) none

/-- Action 1: sensor offsets and siphon trims are loaded. -/
def State.loadTrims (s : State) : State :=
  (List.range s.cfg.siphons).foldl (fun (s : State) i =>
    s.putSiphon i { s.siphon i with trims := nget s.cistern.trims [] i })
    { s with power := { s.power with sensorOffsets := s.cistern.sensorOffsets } }

/-- Action 6: each siphon's rounds are written back; a part without trims keeps its sweep whole (R349). -/
def State.storeTrims (s : State) : State :=
  { s with cistern := { s.cistern with
      trims := s.siphonsUp.foldl (fun (m : List (Nat × List Nat)) i => nset m [] i (s.siphon i).trims) s.cistern.trims } }

/-- Cold calibration (R347): offsets and trims are loaded, FLOW_DIV is 4, every siphon in service has its round (a full sweep of its
trims where none is stored, R349), the canary rows are initialised and read, tracking is enabled, and the trims that moved are
written back. Of a round the step does not report, the narrowest window is left open. -/
def State.calibrate (s : State) (r : StepResult) : State :=
  let s := s.loadTrims.putFld .pwrPerf 16 4 4
  let s := s.siphonsUp.foldl (fun (s : State) i =>
    match r.rounds.find? fun x => x.1 = i with
    | some (_, weak, margin) => s.linkRound i weak margin
    | none => s.linkRound i [] ((s.freeVal 77).toNat % 2 ^ 16)) s
  let s := if r.canaryErrors = 0 then s else s.bump .pwrMargin 32 16 r.canaryErrors
  (s.putFld .pwrCfg 40 1 1).storeTrims.enterStep 7

/-- VDD_CORE has settled at what step 4 requested: the divider may be set (R347). -/
def State.coreSettled (s : State) : Bool := s.power.supply.isNone && s.coreReq = s.coreGrant

/-- A start waits: unpowered, released, in `FALLOW`, or for `DEV_RESET_N` or the clock. -/
def State.startHeld (s : State) : Bool :=
  !s.start.pwrGood || s.start.released || decide (s.site = stFallow)
    || (decide (s.start.step ≥ 3) && (s.start.resetAsserted || s.start.clockLost)) || decide (s.site = stDry)

/-- START_STEP (R338): the step in progress ends as `r` says, and the next begins; step 6 not before VDD_CORE has settled. Step 7
ends with RELEASE. -/
def execStartStep (r : StepResult) (s : State) : Host.Outcome State Fault Refusal :=
  if s.startHeld || (s.start.step = 6 && !s.coreSettled) then ok s
  else
    let s := { s with start := { s.start with ms := s.start.ms + r.ms } }
    ok (match s.start.step with
      | 1 => s.enterAlwaysOn
      | 2 => s.steadyClock.enterFuses
      | 3 => s.enterBoot
      | 4 => s.boot r
      | 5 => s.selfTest r
      | 6 => s.calibrate r
      | _ => s)

/-- START_STEP_TIMEOUT (R338): the step has failed. A self-test that does not end, and a step the table of R343 does not
name, leave the cause open. -/
def execStartStepTimeout (s : State) : Host.Outcome State Fault Refusal :=
  if s.startHeld ∨ s.start.step = 0 then ok s
  else if s.start.step = 4 then ok (s.enterFallow 1 true)
  else ok (s.useFree.enterFallow (1 + (s.freeVal 70).toNat % 7) true)

/-- After a cold start without a dynamic address the target asks for Hot-Join, unless it has been disabled (R422). -/
def State.hotJoin (s : State) : State :=
  if s.start.cold && s.mgt.dyn.isNone && bit s.mgt.events 3 then s.alert alHotJoin else s

/-- RELEASE (R340, R348, R349, R351). -/
def execRelease (ms : Nat) (s : State) : Host.Outcome State Fault Refusal :=
  if s.startHeld ∨ s.start.step ≠ 7 then ok s
  else
    let first := s.cistern.blank
    let s := { s with
      start := { s.start with step := 8, released := true, ms := s.start.ms + ms }
      cistern := { s.cistern with blank := false } }
    let s := ((s.showStep 8).putFld .devStartSt 16 16 (min 0xFFFF s.start.ms)).putFld .devStartSt 43 1 first.toNat
    let s := ((s.putReg (.ringCmd 8) (Reg.resetValue s.cfg (.ringCmd 8))).putReg (.ringRpl 8)
      (Reg.resetValue s.cfg (.ringRpl 8))).putReg (.ringSt 8) (Reg.resetValue s.cfg (.ringSt 8))
    let s := ((s.putFld .pwrPerf 0 5 16).putFld .pwrPerf 8 5 16).putFld .pwrPerf 23 1 0
    let s := ((s.setSite stAttaching).logEvent.alert alStartDone).showMargin
    let s := s.hotJoin
    ok (if s.start.fenceReq then s else s.unfence)

end Sys2Proof.Machine
end

