-- ==== Sys2Proof/Machine/Headgate.lean ====
section
/-! DEFINITION. Headgate frames (R391–R394): format, sequence, responses, debug accesses and fetches. -/

namespace Sys2Proof

/-- A packet's 64 bytes (R203). -/
def Packet.bytes (p : Packet) : List Byte :=
  [p.opcode, p.flags, p.rightCtx, p.rsv3] ++ Machine.leBytes 4 p.seq.toNat ++ Machine.leBytes 2 p.gaugeW.toNat
    ++ Machine.leBytes 2 p.inc.toNat ++ Machine.leBytes 4 p.tag.toNat ++ Machine.leBytes 48 p.params.toNat

/-- The header bytes of a request frame of a type (R392). -/
def HgHdr.bytes (h : HgHdr) (typ : Byte) : List Byte :=
  [typ, h.fseq] ++ Machine.leBytes 2 h.len.toNat ++ Machine.leBytes 4 h.zero.toNat

/-- LEN, the zero field and the CRC are right (R392, R393). -/
def HgHdr.good (h : HgHdr) (typ : Byte) (payload : List Byte) : Bool :=
  decide (h.len.toNat = payload.length) && h.zero = 0
    && decide (h.crc.toNat = Machine.crc32c (h.bytes typ ++ payload))

end Sys2Proof

namespace Sys2Proof.Machine

/-- A response frame before its CRC (R392): the answered type, FSEQ, LEN, FSTATUS, zeros, the payload. -/
def HgResp.body (x : HgResp) : List Byte :=
  [x.typ, x.fseq] ++ leBytes 2 x.payload.length ++ [x.fstatus, 0, 0, 0] ++ x.payload

/-- A response frame on `HG_DO` (R392): with the CRC-32C of header and payload. -/
def HgResp.frame (x : HgResp) : List Byte := x.body ++ leBytes 4 (crc32c x.body)

/-- The headgate answers: from the end of step 4 on, and in `FALLOW`; not in `DRY` (R338, R345, R411). -/
def State.hgUp (s : State) : Bool :=
  s.start.pwrGood && !s.start.resetAsserted && !s.start.clockLost && s.site ≠ stDry
    && (decide (s.start.step ≥ 5) || s.site = stFallow)

/-- A response queued. -/
def State.hgQueue (s : State) (x : HgResp) : State := { s with hg := { s.hg with queue := s.hg.queue ++ [x] } }

/-- The response of an executed frame, kept among the last four. -/
def State.hgExecuted (s : State) (h : HgHdr) (x : HgResp) : State :=
  { s with hg := { s.hg with queue := s.hg.queue ++ [x], last := ((h.fseq, h.crc, x) :: s.hg.last).take 4 } }

/-- A frame is taken for execution: its number is the last executed. -/
def State.hgTake (s : State) (h : HgHdr) : State :=
  { s.bump .cstHgSt 32 32 with hg := { s.hg with lastSeq := some h.fseq } }

/-- The response of an executed frame with this number and CRC, among the last four (R393). -/
def State.hgRepeated (s : State) (h : HgHdr) : Option HgResp :=
  (s.hg.last.find? fun x => x.1 = h.fseq && x.2.1 = h.crc).map (·.2.2)

/-- The next frame in sequence, or the first after a start. -/
def State.hgNext (s : State) (h : HgHdr) : Bool :=
  match s.hg.lastSeq with
  | none => true
  | some q => h.fseq = q + 1

/-- Four responses are unfetched, or due to a frame that waits, to the handover, the verification or the debug unlock under way:
the site queues at most four (R393; DEDUCED, log entry 78). -/
def State.hgFull (s : State) : Bool :=
  decide (4 ≤ s.hg.queue.length + s.hg.waiting.length + s.handover.isSome.toNat + s.hg.ending.isSome.toNat
    + s.hg.unlock.isSome.toNat + s.hg.waitingDebug.length)

/-- R393 for a frame that is not a fetch: `run` executes it. A frame that has been taken but still waits counts as the last executed,
not yet among the last four: resent unchanged it is a sequence error (DESIGN CHOICE, log entry 78). -/
def State.hgFrame (s : State) (typ : Byte) (h : HgHdr) (payload : List Byte) (wellFormed : Bool)
    (run : State → State) : State :=
  if !s.hgUp then s
  else
    let s := s.wakeFor .headgateFrame
    let typ' := typ ||| 0x80
    if s.hgFull then s.bump .cstHgSt 0 8
    else if !wellFormed || !h.good typ payload then (s.bump .cstHgSt 16 16).hgQueue ⟨typ', h.fseq, 1, []⟩
    else match s.hgRepeated h with
      | some x => s.hgQueue x
      | none =>
        if s.hgNext h then run (s.hgTake h)
        else (s.bump .cstHgSt 8 8).hgQueue ⟨typ', h.fseq, 2, []⟩

/-! ### Debug frames (R392, R394) -/

/-- SIZE of a debug frame in bytes. -/
def debugSize (payload : List Byte) : Nat :=
  match (payload.getD 8 0).toNat with | 0 => 4 | 1 => 8 | 2 => 64 | _ => 0

/-- The sixteen bytes of a debug frame are in form. -/
def debugOk (payload : List Byte) : Bool :=
  decide (16 ≤ payload.length) && decide (debugSize payload ≠ 0)
    && ((payload.drop 6).take 2).all (· = 0) && ((payload.drop 9).take 7).all (· = 0)

def debugAddr (payload : List Byte) : Nat := leNat (payload.take 6)

/-- A debug access, and whether it has been made and answered (R362, R392): one to a basin's words in the cycle in which it takes its bank
(R169), one to stack memory in the order of its block (R301). -/
def State.debugMade (s : State) (x : HgDebug) : State × Bool :=
  let a := debugAddr x.payload
  let n := debugSize x.payload
  let (s, ready) := s.accessReady .headgate a n x.write
  if !ready then (s, false)
  else if x.write then
    ((s.siteStore .headgate true a (x.payload.drop 16)).hgExecuted x.hdr ⟨0x83, x.hdr.fseq, 0, []⟩, true)
  else
    let (s, bs) := s.siteLoad .headgate a n
    (s.hgExecuted x.hdr ⟨0x82, x.hdr.fseq, 0, bs⟩, true)

/-- A debug access is made, or waits. -/
def State.debugAsk (s : State) (x : HgDebug) : State :=
  if !s.hg.waitingDebug.isEmpty then { s with hg := { s.hg with waitingDebug := s.hg.waitingDebug ++ [x] } }
  else match s.debugMade x with
    | (t, true) => t
    | (t, false) => { t with hg := { t.hg with waitingDebug := [x] } }

/-- The oldest debug access that waits is made, where it can be. -/
def State.debugOn (s : State) : State :=
  match s.hg.waitingDebug with
  | [] => s
  | x :: rest => match s.debugMade x with
    | (t, true) => { t with hg := { t.hg with waitingDebug := rest } }
    | (t, false) => t

/-- HG_DEBUG_READ (R362, R392, R394). -/
def execHgDebugRead (h : HgHdr) (payload : List Byte) (s : State) : Host.Outcome State Fault Refusal :=
  ok (s.hgFrame 0x02 h payload (debugOk payload && decide (payload.length = 16)) fun s =>
    s.debugAsk ⟨h, false, payload⟩)

/-- HG_DEBUG_WRITE (R362, R392, R394). -/
def execHgDebugWrite (h : HgHdr) (payload : List Byte) (s : State) : Host.Outcome State Fault Refusal :=
  ok (s.hgFrame 0x03 h payload (debugOk payload && decide (payload.length = 16 + debugSize payload)) fun s =>
    s.debugAsk ⟨h, true, payload⟩)

/-- HG_FETCH (R392, R393): the oldest response goes out, or an empty one. A fetch takes no sequence number. -/
def execHgFetch (h : HgHdr) (s : State) : Host.Outcome State Fault Refusal :=
  if !s.hgUp then ok s
  else
    let s := s.wakeFor .headgateFrame
    let send := fun (s : State) (x : HgResp) => { s with hg := { s.hg with out := x } }
    if !h.good 0x04 [] then ok (send (s.bump .cstHgSt 16 16) ⟨0x84, h.fseq, 1, []⟩)
    else match s.hg.queue with
      | [] => ok (send s ⟨0x80, 0, 0, []⟩)
      | x :: rest => ok (send { s with hg := { s.hg with queue := rest } } x)

/-! ### Service frames -/

/-- Rosog answers a service frame with a reply (R205, R392). -/
def State.hgReply (s : State) (w : HgFrame) (o : Outcome) : State :=
  s.hgExecuted w.hdr ⟨0x81, w.hdr.fseq, 0, (o.reply w.pkt false 0).bytes false⟩

/-- Service frames wait: a handover, a partial reset, a verification or a scrub is under way, or an earlier one waits (R368, R394). -/
def State.hgWaits (s : State) : Bool := s.controlDown || s.handover.isSome || s.hg.ending.isSome || s.scrubbing || !s.hg.waiting.isEmpty

/-- Opcodes the boot ROM takes in `FALLOW` with cause 1 (R394). -/
def bootRomTakes (op : Nat) : Bool := decide (op = 0xC0 ∨ op = 0xC1 ∨ op = 0xC2 ∨ op = 0xC3 ∨ op = 0xC5 ∨ op = 0xCA)

/-- The checks common to service packets (R207, R394). -/
def State.serviceCheck (s : State) (p : Packet) : Option Status :=
  match s.commonCheck .headgate ⟨p, 0, true, 0, none⟩ with
  | some st => some st
  | none =>
    if !s.start.released ∧ s.site ≠ stFallow then some .notReady
    else if s.site = stFallow ∧ s.rfld .devStartSt 56 8 = 1 ∧ !bootRomTakes p.op then some .notReady
    else none

/-- A service packet is decided by `ask`, and answered unless it goes on. -/
def State.serve (s : State) (w : HgFrame) (ask : State → HgFrame → State × Option Outcome) : State :=
  match s.serviceCheck w.pkt with
  | some st => s.hgReply w (.refuse st)
  | none => match ask s w with
    | (s, some o) => s.hgReply w o
    | (s, none) => s

/-- A service frame (R392–R394). -/
def State.service (s : State) (w : HgFrame) (ask : State → HgFrame → State × Option Outcome) : State :=
  s.hgFrame 0x01 w.hdr (w.pkt.bytes ++ w.data) (decide (w.data.length ≤ 8192)) fun s =>
    if s.hgWaits then { s with hg := { s.hg with waiting := s.hg.waiting ++ [w] } } else s.serve w ask

end Sys2Proof.Machine
end

