-- ==== Sys2Proof/Machine/Firmware.lean ====
section
/-! DEFINITION. Firmware update (R395–R409): the service packets, staging, activation and live handover, tokens; partial
resets and the watchdogs (R385, R404). -/

namespace Sys2Proof.Machine

/-! ### The image header (R396) -/

/-- A little-endian field of a byte string. -/
def numAt (bs : List Byte) (o n : Nat) : Nat := leNat ((bs.drop o).take n)
def zeroAt (bs : List Byte) (o n : Nat) : Bool := ((bs.drop o).take n).all (· = 0)

/-- ASCII "E2ROSOG1". -/
def imageMagic : List Byte := [0x45, 0x32, 0x52, 0x4F, 0x53, 0x4F, 0x47, 0x31]

/-- MAGIC, HDR_VER, the zero fields and KEY_INDEX (R398, order 3). -/
def headerOk (d : List Byte) : Bool :=
  decide (d.length = 512) && d.take 8 == imageMagic && decide (numAt d 8 2 = 1) && zeroAt d 12 4
    && decide (numAt d 18 1 < 8 ∧ numAt d 19 1 < 8 ∧ numAt d 30 1 < 2) && zeroAt d 31 1 && zeroAt d 36 4
    && zeroAt d 96 128 && decide (numAt d 29 1 ≤ 3)

/-- DEV_CONFIG0 lies within the compatibility fields (R396, R398). -/
def SiteConfig.acceptedBy (c : SiteConfig) (d : List Byte) : Bool :=
  let within := fun (x o : Nat) => decide (numAt d o 1 ≤ x ∧ x ≤ numAt d (o + 1) 1)
  let checkBit := match c.checks with | 8 => 0 | 12 => 1 | 16 => 2 | _ => 8
  within c.basins 16 && numAt d 18 1 / 2 ^ checkBit % 2 = 1 && numAt d 19 1 / 2 ^ (c.bankKibLog2 - 6) % 2 = 1
    && within c.activeMxe 20 && within c.siphons 22

/-- What a header says of its image. -/
def imageOf (d : List Byte) : ImageInfo :=
  { svn := numAt d 28 1, keyIndex := numAt d 29 1, live := numAt d 30 1 % 2 = 1, stateVer := numAt d 32 2
    stateMin := numAt d 34 2, bodyLen := numAt d 24 4, build := BitVec.ofNat 64 (numAt d 40 8), body := [] }

/-- BODY_LEN: a multiple of 256 from 4 KiB to 512 KiB. -/
def bodyLenOk (n : Nat) : Bool := decide (n % 256 = 0 ∧ 4096 ≤ n ∧ n ≤ 524288)

/-- Bytes of an image after its header. -/
def ImageInfo.rest (x : ImageInfo) : Nat := x.bodyLen + 7424

/-! ### Update refusals (R402) -/

/-- A context stands in `CONFIG_LOCKED` or `RUN`. -/
def State.lockedCtx (s : State) (c : Nat) : Bool := s.rfld (.secCtxSt c) 4 4 = 1 || s.rfld (.secCtxSt c) 4 4 = 2

/-- The first refusal that applies. -/
def State.updateRefusal (s : State) (activating : Bool) : Option Nat :=
  if activating ∧ (List.range 8).any (fun c => s.lockedCtx c && !((s.ctx c).released || (s.ctx c).lockedFwOk)) then some 1
  else if s.cistern.ownerLock then some 2
  else if s.rfld .pwrKeeper 0 1 = 1 then some 3
  else if bit (s.reg .pwrMargin) 63 then some 4
  else if s.site = stDetaching ∨ s.site = stAttaching then some 5
  else if s.site = stScrub ∨ s.handed.any (fun h => h.begun && h.pkt.op = 0x43) then some 6
  else none

/-- A refusal with a word. -/
def Outcome.refuseW (st : Status) (w0 : Nat) : Outcome := { Outcome.words w0 0 0 0 with status := st, refused := true }

/-- A service packet with no parameters and no data. -/
def HgFrame.bare (w : HgFrame) : Bool := w.pkt.reservedClear [] && w.data.isEmpty

/-- RECEIVED. -/
def State.received (s : State) : Nat := s.rfld .cstFwSt 0 20
def State.setReceived (s : State) (n : Nat) : State := s.putFld .cstFwSt 0 20 n
def State.noteFrame (s : State) : State := { s with hg := { s.hg with lastFrame := some s.now } }

/-! ### Staging -/

/-- IMG_BEGIN's decision (R398). -/
def State.imgBeginAsk (s : State) (w : HgFrame) : State × Option Outcome :=
  let d := w.data
  let x := imageOf d
  let s := s.noteFrame
  if !w.pkt.reservedClear [] then (s, some (.refuse .badParam))
  else match s.updateRefusal false with
    | some c => (s, some (.refuseW .refusedState c))
    | none =>
      if s.stage ≠ 0 then (s, some (.refuse .busy))
      else if !headerOk d then (s, some (.refuse .badParam))
      else if numAt d 10 2 ≠ 0xE2 then (s, some (.refuseW .badParam 1))
      else if !s.cfg.acceptedBy d then (s, some (.refuseW .badParam 2))
      else if !bodyLenOk x.bodyLen then (s, some (.refuse .size))
      else if x.svn < s.cistern.arCounter ∨ x.svn > 64 then (s, some (.refuse .accessDenied))
      else if bit s.cistern.revoked x.keyIndex ∨ !w.verdict then (s, some (.refuse .accessDenied))
      else
        let c := { s.cistern with staged := some x, stagedBytes := d, receivedKept := 0 }
        (({ s with cistern := c }.setStage 1).setReceived 0, some Outcome.ok)

/-- IMG_DATA's decision (R399). -/
def State.imgDataAsk (s : State) (w : HgFrame) : State × Option Outcome :=
  let n := w.data.length
  let s := s.noteFrame
  match s.cistern.staged with
  | none => if w.pkt.reservedClear [(16, 0, 32)] then (s, some (.refuse .refusedState)) else (s, some (.refuse .badParam))
  | some x =>
    if !w.pkt.reservedClear [(16, 0, 32)] ∨ n = 0 then (s, some (.refuse .badParam))
    else if s.stage ≠ 1 then (s, some (.refuse .refusedState))
    else if w.pkt.p 16 0 32 ≠ s.received then (s, some (.refuseW .badParam s.received))
    else if s.received + n > x.rest then (s, some (.refuse .size))
    else if n % 256 ≠ 0 ∧ s.received + n ≠ x.rest then (s, some (.refuse .badParam))
    else
      let r := s.received + n
      let kept := if r / 65536 > s.received / 65536 then r else s.cistern.receivedKept
      let c := { s.cistern with stagedBytes := s.cistern.stagedBytes ++ w.data, receivedKept := kept }
      ({ s with cistern := c }.setReceived r, some Outcome.ok)

/-- IMG_END's decision (R400): RECEIVED is persisted; a complete image is then verified, while Rosog goes on (`imgVerified`). -/
def State.imgEndAsk (s : State) (w : HgFrame) : State × Option Outcome :=
  let s := s.noteFrame
  if !w.bare then (s, some (.refuse .badParam))
  else match s.cistern.staged with
  | none => (s, some (.refuseW .size s.received))
  | some x =>
    if s.stage > 2 then (s, some (.refuse .refusedState))
    else
      let s := { s with cistern := { s.cistern with receivedKept := s.received } }
      if s.received ≠ x.rest then (s, some (.refuseW .size s.received))
      else ({ s with hg := { s.hg with ending := some w } }, none)

/-- The verdict on a staged image (R400). -/
def State.imgVerdict (s : State) (verified : Bool) (x : ImageInfo) : State × Outcome :=
  if s.mayRun x verified then
    let y := { x with body := (s.cistern.stagedBytes.drop 512).take x.bodyLen }
    ({ s with cistern := { s.cistern with staged := some y } }.setStage 2,
      Outcome.words x.svn x.bodyLen (fld x.build 0 32) (fld x.build 32 32))
  else (s.emptyStaging.fwFail, .refuse .accessDenied)

/-- The verification of an `IMG_END` ends, and it is answered (R400). -/
def State.imgVerified (s : State) : State :=
  match s.hg.ending, s.cistern.staged with
  | some w, some x =>
    if s.controlDown then s
    else
      let (s, o) := { s with hg := { s.hg with ending := none } }.imgVerdict w.verdict x
      s.hgReply w o
  | _, _ => s

/-- IMG_ABORT's decision (R406). -/
def State.imgAbortAsk (s : State) (w : HgFrame) : State × Option Outcome :=
  if !w.bare then (s, some (.refuse .badParam))
  else if s.handover.isSome ∨ s.stage = 3 then (s, some (.refuse .refusedState))
  else (s.emptyStaging, some (Outcome.words s.stage 0 0 0))

/-- IMG_STATUS's decision (R395). -/
def State.imgStatusAsk (s : State) (w : HgFrame) : State × Option Outcome :=
  if !w.bare then (s, some (.refuse .badParam))
  else
    let x := s.cistern.staged
    (s, some (Outcome.words (s.rfld .cstFwSt 0 32) (s.rfld .cstFwSt 32 32) ((x.map (·.bodyLen)).getD 0)
      ((x.map (·.svn)).getD 0)))

/-! ### Activation and handover (R401–R405) -/

/-- Nothing of Rosog's is in execution: the handover point (R403). A packet that waits for a unit to test is not. -/
def State.atHandoverPoint (s : State) : Bool := !s.handed.any fun h => h.begun && h.pkt.op ≠ 0x49

/-- Step 5: the new image's check of the state block (R403). -/
def State.blockAccepted (s : State) (x : ImageInfo) : Bool :=
  s.core.blockVer.any fun v => decide (x.stateMin ≤ v ∧ v ≤ x.stateVer)

/-- Steps 3 and 4: the window opens, the state block is written, and the core jumps into the new half. -/
def State.openWindow (s : State) (h : Handover) : State :=
  { s.persist.saveBlock.swapHalves with handover := some { h with step := 4, opened := s.now } }

/-- Steps 5 and 6: the new Rosog runs, the window closes, and the wait-audit interval starts afresh. -/
def State.closeWindow (s : State) (h : Handover) (x : ImageInfo) : State :=
  let s := { s with
    running := x, handover := none, auditFrom := s.now
    spdm := { s.spdm with aliasGen := s.spdm.aliasGen + 1, measured2 := s.spdm.measured2 + 1 } }
  let s := ((s.bump .cstFwSt 32 16).setStage 3).showImage
  s.hgReply h.frame (Outcome.words h.frame.windowUs x.svn 0 0)

/-- The window's length has passed, at most 5 ms, and the new Rosog accepts the state block; any other window stays open for the
watchdog (R403, R404). -/
def State.windowOver (s : State) (h : Handover) (x : ImageInfo) : Bool :=
  decide (h.frame.windowUs ≤ 5000 ∧ h.opened + h.frame.windowUs * rootPerUs ≤ s.now) && s.blockAccepted x

/-- A handover goes on: from its point on the window is open, and then over (R403). -/
def State.handoverOn (s : State) : State :=
  match s.handover, s.cistern.staged with
  | some h, some x =>
    if h.step = 2 then (if s.atHandoverPoint then s.openWindow h else s)
    else if !s.controlDown ∧ s.windowOver h x then s.closeWindow h x
    else s
  | _, _ => s

/-- IMG_ACTIVATE's decision (R401). -/
def State.imgActivateAsk (s : State) (w : HgFrame) : State × Option Outcome :=
  let mode := w.pkt.p 16 0 8
  if !w.pkt.reservedClear [(16, 0, 8)] ∨ !w.data.isEmpty ∨ mode > 1 then (s, some (.refuse .badParam))
  else if s.stage ≠ 2 then (s, some (.refuseW .refusedState 8))
  else match s.updateRefusal true, s.cistern.staged with
  | some c, _ => (s, some (.refuseW .refusedState c))
  | none, none => (s, some (.refuseW .refusedState 8))
  | none, some x =>
    if mode = 0 ∧ (!x.live ∨ x.stateMin > s.running.stateVer) then (s, some (.refuse .badParam))
    else if x.svn < s.cistern.arCounter then (s, some (.refuse .accessDenied))
    else if mode = 1 then
      ((s.markCopy true).setStage 4, some Outcome.ok)
    -- a staged image that has failed counts in FAILS (R409; DEDUCED, log entry 49)
    else if !w.verdict then (s.emptyStaging.fwFail, some (.refuse .checkFail))
    else (({ s with handover := some ⟨2, w, 0⟩ }.loadStandby x).handoverOn, none)

/-- HANDOVER_POINT_TIMEOUT (R403, step 2): `BUSY`, and the image stays verified. -/
def execHandoverPointTimeout (s : State) : Host.Outcome State Fault Refusal :=
  ok (match s.handover with
    | some h => if h.step = 2 then { s with handover := none }.hgReply h.frame (.refuse .busy) else s
    | none => s)

/-- BOOT_SLOT_COPY_DONE (R403, step 7; R404): the copied image verifies, and the boot record names its slot. A copy that
does not verify is made again. -/
def execBootSlotCopyDone (verified : Bool) (s : State) : Host.Outcome State Fault Refusal :=
  match s.cistern.staged with
  | some x =>
    if s.stage = 3 ∧ verified ∧ s.start.released ∧ !s.controlDown then
      let b := !s.activeB
      ok (((s.putSlot b x).setActive b).emptyStaging)
    else ok s
  | none => ok s

/-! ### Partial resets (R385, R404) -/

/-- The control domain goes down; locks owned by Rosog break. -/
def State.partialStart (s : State) (imageOk : Bool) : State :=
  let s := { s with controlDown := true, downSince := s.now, downOk := imageOk, hg := { s.hg with ending := none } }
  let ls := s.locks.filter fun l => fld l.caller.owner 13 3 = 3
  let s : State := ls.foldl (fun (s : State) (l : Lock) => (s.breakLock l.basin l.desc).afterBreak l.basin l.desc) s
  if s.stage = 1 then
    { s.setReceived s.cistern.receivedKept with
      cistern := { s.cistern with stagedBytes := s.cistern.stagedBytes.take (512 + s.cistern.receivedKept) } }
  else s

/-- A handover that the reset ends: `INTERNAL`; one whose window was open empties the staging slot (R404). -/
def State.handoverFailed (s : State) : State :=
  match s.handover with
  | none => s
  | some h =>
    let s := if h.step ≥ 3 then s.emptyStaging.fwFail else s
    { s with handover := none }.hgReply h.frame (.refuse .internal)

/-- The boot ROM has the image of the boot record running again, where it may run (R357), or the site enters `FALLOW`. The data
RAM, and a state block in it, stay (R404). -/
def State.partialEnd (s : State) : State :=
  let s := { s with controlDown := false }
  let x := s.slotInfo s.activeB
  if !s.mayRun x s.downOk then { s with handover := none }.enterFallow 1 false
  else
    let m := if x = s.running then s.spdm.measured2 else s.spdm.measured2 + 1
    (({ s with running := x, spdm := { s.spdm with measured2 := m } }.placeImage x).showImage).handoverFailed

/-- 60 ms after it began the partial reset is over. -/
def State.partialOn (s : State) : State :=
  if s.controlDown ∧ s.downSince + 60 * rootPerMs ≤ s.now then s.partialEnd else s

/-- CONTROL_WATCHDOG (R385): the event queue has stood unserved for 100 ms. -/
def execControlWatchdog (imageOk : Bool) (s : State) : Host.Outcome State Fault Refusal :=
  ok (if s.start.released ∧ !s.controlDown ∧ s.site ≠ stFallow then s.partialStart imageOk else s)

/-- HANDOVER_WATCHDOG (R404): 5 ms after step 4. -/
def execHandoverWatchdog (imageOk : Bool) (s : State) : Host.Outcome State Fault Refusal :=
  ok (match s.handover with
    | some h => if h.step = 4 ∧ !s.controlDown then s.partialStart imageOk else s
    | none => s)

/-- PARTIAL_RESET's decision (R385, R395). -/
def State.partialResetAsk (s : State) (w : HgFrame) : State × Option Outcome :=
  if !w.bare then (s, some (.refuse .badParam))
  else if !s.start.released ∨ s.site = stFallow then (s, some (.refuse .refusedState))
  else ((s.hgReply w Outcome.ok).partialStart w.verdict, none)

/-! ### Nonces, tokens, re-tests -/

/-- NONCE's decision (R395). -/
def State.nonceAsk (s : State) (w : HgFrame) : State × Option Outcome :=
  if !w.bare then (s, some (.refuse .badParam))
  else
    let n := Config.random128 s.freeUses
    ({ s.useFree with hg := { s.hg with nonce := some n } },
      some (Outcome.words (fld n 0 32) (fld n 32 32) (fld n 64 32) (fld n 96 32)))

/-- A token's fields (R408), the nonce and the serial number apart. -/
def tokenForm (d : List Byte) : Bool :=
  let kind := numAt d 0 1
  decide (1 ≤ kind ∧ kind ≤ 3 ∧ numAt d 1 1 ≤ 3) && (if kind = 2 then decide (numAt d 2 1 ≤ 3) else numAt d 2 1 = 0)
    && zeroAt d 3 5 && zeroAt d 7443 237

/-- A token is right (R372, R408): `sigOk` is the verdict on its digests and signatures. -/
def State.tokenOk (s : State) (d : List Byte) (sigOk : Bool) : Bool :=
  tokenForm d && decide (numAt d 8 8 = Config.serial.toNat) && s.hg.nonce == some (BitVec.ofNat 128 (numAt d 16 16))
    && (numAt d 0 1 = 1 || !bit s.cistern.revoked (numAt d 1 1)) && sigOk

/-- A granted debug unlock takes effect: every context is gone (R372). -/
def State.debugUnlock (s : State) : State :=
  let s := (s.putFld .secSt 6 1 1).putFld .secSt 7 1 1
  { s with spdm := { s.spdm with aliasGen := s.spdm.aliasGen + 1 } }

/-- The unit summary cleared, and with it the basins it has withdrawn (R270); a running test goes on. -/
def State.clearSummary (s : State) : State :=
  { s with cistern := { s.cistern with
      basinsLeft := []
      units := (s.cistern.units.filter (·.testing)).map fun (u : UnitRec) =>
        { u with retired := false, events := [], named := none, lastTest := 0, due := none } } }

/-- TOKEN's decision (R372, R408). -/
def State.tokenAsk (s : State) (w : HgFrame) : State × Option Outcome :=
  let d := w.data
  if !w.pkt.reservedClear [] ∨ d.length ≠ 7680 then (s, some (.refuse .badParam))
  else
    let good := s.tokenOk d w.verdict
    let s := if s.hg.nonce = some (BitVec.ofNat 128 (numAt d 16 16)) then { s with hg := { s.hg with nonce := none } } else s
    if !good then (s, some (.refuse .accessDenied))
    else match numAt d 0 1 with
    | 1 =>
      if s.cistern.ownerLock ∨ (List.range 8).any s.lockedCtx then (s, some (.refuse .refusedState))
      else if s.residents.isEmpty then (s.debugUnlock, some Outcome.ok)
      else
        -- every resident context is destroyed first, scrub included
        let s := { s with hg := { s.hg with unlock := some w } }
        (s.residents.foldl (fun (s : State) c => s.destroyContext c none false) s, none)
    | 2 =>
      let k := numAt d 2 1
      if s.cistern.slotA.keyIndex = k ∨ s.cistern.slotB.keyIndex = k ∨ (s.cistern.staged.any fun x => x.keyIndex = k) then
        (s, some (.refuse .refusedState))
      else ({ s with cistern := { s.cistern with revoked := setBit s.cistern.revoked k true } }, some Outcome.ok)
    | _ =>
      if !s.residents.isEmpty then (s, some (.refuse .refusedState)) else (s.clearSummary, some Outcome.ok)

/-- RETEST's decision (R346): only a site in `FALLOW` starts again. Its reply stays queued over the start. -/
def State.retestAsk (s : State) (w : HgFrame) : State × Option Outcome :=
  if !w.bare then (s, some (.refuse .badParam))
  else if s.site ≠ stFallow then (s, some (.refuse .refusedState))
  else
    let s := s.hgReply w Outcome.ok
    let t := s.retestNow
    ({ t with hg := { t.hg with queue := s.hg.queue } }, none)

/-! ### Frames that waited -/

/-- The decision of a service packet, by its opcode. -/
def State.serviceAsk (s : State) (w : HgFrame) : State × Option Outcome :=
  match w.pkt.op with
  | 0xC0 => s.imgBeginAsk w
  | 0xC1 => s.imgDataAsk w
  | 0xC2 => s.imgEndAsk w
  | 0xC3 => s.imgAbortAsk w
  | 0xC4 => s.imgActivateAsk w
  | 0xC5 => s.imgStatusAsk w
  | 0xC8 => s.nonceAsk w
  | 0xC9 => s.tokenAsk w
  | 0xCA => s.retestAsk w
  | _ => s.partialResetAsk w

/-- The oldest waiting frame is served once nothing is under way. -/
def State.serveWaiting (s : State) : State :=
  match s.hg.waiting with
  | w :: rest =>
    if s.controlDown ∨ s.handover.isSome ∨ s.hg.ending.isSome ∨ s.scrubbing then s
    else { s with hg := { s.hg with waiting := rest } }.serve w State.serviceAsk
  | [] => s

/-! ### The commands -/

/-- IMG_BEGIN (R398). -/
def execImgBegin (h : HgHdr) (pkt : Packet) (data : List Byte) (keyOk : Bool) (s : State) :
    Host.Outcome State Fault Refusal :=
  ok (s.service ⟨h, { pkt with opcode := 0xC0 }, data, keyOk, 0⟩ State.imgBeginAsk)

/-- IMG_DATA (R399). -/
def execImgData (h : HgHdr) (pkt : Packet) (data : List Byte) (s : State) : Host.Outcome State Fault Refusal :=
  ok (s.service ⟨h, { pkt with opcode := 0xC1 }, data, true, 0⟩ State.imgDataAsk)

/-- IMG_END (R400). -/
def execImgEnd (h : HgHdr) (pkt : Packet) (data : List Byte) (verified : Bool) (s : State) :
    Host.Outcome State Fault Refusal :=
  ok (s.service ⟨h, { pkt with opcode := 0xC2 }, data, verified, 0⟩ State.imgEndAsk)

/-- IMG_ABORT (R406). -/
def execImgAbort (h : HgHdr) (pkt : Packet) (data : List Byte) (s : State) : Host.Outcome State Fault Refusal :=
  ok (s.service ⟨h, { pkt with opcode := 0xC3 }, data, true, 0⟩ State.imgAbortAsk)

/-- IMG_ACTIVATE (R401–R405). -/
def execImgActivate (h : HgHdr) (pkt : Packet) (data : List Byte) (digestOk : Bool) (windowUs : Nat) (s : State) :
    Host.Outcome State Fault Refusal :=
  ok (s.service ⟨h, { pkt with opcode := 0xC4 }, data, digestOk, windowUs⟩ State.imgActivateAsk)

/-- IMG_STATUS (R395, R409). -/
def execImgStatus (h : HgHdr) (pkt : Packet) (data : List Byte) (s : State) : Host.Outcome State Fault Refusal :=
  ok (s.service ⟨h, { pkt with opcode := 0xC5 }, data, true, 0⟩ State.imgStatusAsk)

/-- NONCE (R395). -/
def execNonce (h : HgHdr) (pkt : Packet) (data : List Byte) (s : State) : Host.Outcome State Fault Refusal :=
  ok (s.service ⟨h, { pkt with opcode := 0xC8 }, data, true, 0⟩ State.nonceAsk)

/-- TOKEN (R372, R408). -/
def execToken (h : HgHdr) (pkt : Packet) (data : List Byte) (sigOk : Bool) (s : State) :
    Host.Outcome State Fault Refusal :=
  ok (s.service ⟨h, { pkt with opcode := 0xC9 }, data, sigOk, 0⟩ State.tokenAsk)

/-- RETEST (R346). -/
def execRetest (h : HgHdr) (pkt : Packet) (data : List Byte) (s : State) : Host.Outcome State Fault Refusal :=
  ok (s.service ⟨h, { pkt with opcode := 0xCA }, data, true, 0⟩ State.retestAsk)

/-- PARTIAL_RESET (R385). -/
def execPartialReset (h : HgHdr) (pkt : Packet) (data : List Byte) (imageOk : Bool) (s : State) :
    Host.Outcome State Fault Refusal :=
  ok (s.service ⟨h, { pkt with opcode := 0xCB }, data, imageOk, 0⟩ State.partialResetAsk)

end Sys2Proof.Machine
end

