-- ==== Sys2Proof/Machine/FlumePackets.lean ====
section
/-! DEFINITION. The flume packets. A packet command is the packet entering its source's fetch buffer and,
where nothing of the source is ahead of it and it can be, its dispatch (`State.arrive`, log entry 3). -/

namespace Sys2Proof.Machine

/-- MOVE (R146): each source tile copied with its check and metadata. -/
def execMove (src : Src) (pkt : Packet) (s : State) : Host.Outcome State Fault Refusal :=
  ok (s.arrive src { pkt with opcode := 0x10 })

/-- LOAD (R144, R146): tile records from stack memory. -/
def execLoad (src : Src) (pkt : Packet) (s : State) : Host.Outcome State Fault Refusal :=
  ok (s.arrive src { pkt with opcode := 0x11 })

/-- STORE (R144, R146): tile records to stack memory. -/
def execStore (src : Src) (pkt : Packet) (s : State) : Host.Outcome State Fault Refusal :=
  ok (s.arrive src { pkt with opcode := 0x12 })

/-- SEND (R147, R376, R378): tile records through a culvert. -/
def execSend (src : Src) (pkt : Packet) (s : State) : Host.Outcome State Fault Refusal :=
  ok (s.arrive src { pkt with opcode := 0x13 })

/-- FILL (R148): every element of each tile is FILL_VALUE converted. -/
def execFill (src : Src) (pkt : Packet) (s : State) : Host.Outcome State Fault Refusal :=
  ok (s.arrive src { pkt with opcode := 0x14 })

/-- REDUCE_WRITE (R149–R152): source tiles added into their targets at the banks. -/
def execReduceWrite (src : Src) (pkt : Packet) (s : State) : Host.Outcome State Fault Refusal :=
  ok (s.arrive src { pkt with opcode := 0x1D })

end Sys2Proof.Machine
end

