-- ==== Sys2Proof/Machine/ListPackets.lean ====
section
/-! DEFINITION. The packets the ditch rider executes itself. A packet command is the packet entering its source's fetch buffer and,
where nothing of the source is ahead of it and it can be, its dispatch (`State.arrive`, log entry 3). -/

namespace Sys2Proof.Machine

/-- NOP (R217): completes at dispatch and adds its increment once. -/
def execNop (src : Src) (pkt : Packet) (s : State) : Host.Outcome State Fault Refusal :=
  ok (s.arrive src { pkt with opcode := 0x01 })

/-- FENCE (R217): dispatched once everything of its source before it has completed. -/
def execFence (src : Src) (pkt : Packet) (s : State) : Host.Outcome State Fault Refusal :=
  ok (s.arrive src { pkt with opcode := 0x02 })

/-- WAIT_GAUGE (R54, R216): completes when the gauge has reached TARGET; until then its source is parked. -/
def execWaitGauge (src : Src) (pkt : Packet) (s : State) : Host.Outcome State Fault Refusal :=
  ok (s.arrive src { pkt with opcode := 0x03 })

/-- SET_GAUGE (R216): COUNT takes VALUE before the cycle's increments. -/
def execSetGauge (src : Src) (pkt : Packet) (s : State) : Host.Outcome State Fault Refusal :=
  ok (s.arrive src { pkt with opcode := 0x04 })

/-- ADD_GAUGE (R216): ADDEND is added to COUNT modulo 2^32. -/
def execAddGauge (src : Src) (pkt : Packet) (s : State) : Host.Outcome State Fault Refusal :=
  ok (s.arrive src { pkt with opcode := 0x05 })

/-- RUN_LIST (R211, R212): a call within the slot, or a list spawned in a free slot. -/
def execRunList (src : Src) (pkt : Packet) (s : State) : Host.Outcome State Fault Refusal :=
  ok (s.arrive src { pkt with opcode := 0x08 })

/-- RETURN (R213): back to the caller, or the end of the list. -/
def execRet (src : Src) (pkt : Packet) (s : State) : Host.Outcome State Fault Refusal :=
  ok (s.arrive src { pkt with opcode := 0x09 })

/-- TILE_LOCK (R49, R50): a lease lock taken or renewed. -/
def execTileLock (src : Src) (pkt : Packet) (s : State) : Host.Outcome State Fault Refusal :=
  ok (s.arrive src { pkt with opcode := 0x28 })

/-- TILE_UNLOCK (R49): the caller's lock released, requests held on the tile tried again. -/
def execTileUnlock (src : Src) (pkt : Packet) (s : State) : Host.Outcome State Fault Refusal :=
  ok (s.arrive src { pkt with opcode := 0x29 })

end Sys2Proof.Machine
end

