-- ==== Sys2Proof/Machine/Management.lean ====
section
/-! DEFINITION. The management bus: its command protocol and roles (R424–R426), STATE requests (R328, R346, R354), the
I3C common command codes (R422), the wake from `DRY` (R330). -/

namespace Sys2Proof.Machine

/-- The target answers: from the end of step 2 on and in `FALLOW`, not in `DRY` (R330, R338, R345). -/
def State.mgtUp (s : State) : Bool :=
  s.start.pwrGood && (decide (s.start.step ≥ 3) || s.site = stFallow) && s.site ≠ stDry

/-- What the next read transfer returns: a status, and data where it is `OK`. -/
def State.mgtAnswer (s : State) (st : Status) (data : List Byte) : State :=
  { s with mgt := { s.mgt with resp := BitVec.ofNat 8 st.code :: data, nack := false } }

/-- What the next read transfer of a common command code returns. -/
def State.cccAnswer (s : State) (data : List Byte) : State :=
  { s with mgt := { s.mgt with resp := data, nack := false } }

/-- A common command code with nothing to read. -/
def State.cccDone (s : State) : State := { s with mgt := { s.mgt with nack := false } }
def State.cccNack (s : State) : State := { s with mgt := { s.mgt with nack := true } }

/-! ### Commands (R424, R425) -/

/-- A whole register read or written is in the bus's reach. -/
def State.mgtReaches (s : State) (a : Nat) (write : Bool) : Bool :=
  let pl := s.placeOf a 8
  pl = .nowhere || s.reaches Requester.mgt pl 8 write

/-- MGT_READ (R424): a decode error reads zero (R24). -/
def execMgtRead (addr : Addr) (s : State) : Host.Outcome State Fault Refusal :=
  if !s.mgtUp then ok s
  else
    let reached := s.mgtReaches addr.toNat false
    let (s, bs) := s.siteLoad Requester.mgt addr.toNat 8
    ok (if reached then s.mgtAnswer .ok bs else s.mgtAnswer .accessDenied [])

/-- MGT_WRITE (R424, R425). -/
def execMgtWrite (addr : Addr) (data : Word64) (s : State) : Host.Outcome State Fault Refusal :=
  if !s.mgtUp then ok s
  else
    let reached := s.mgtReaches addr.toNat true
    let s := s.siteStore Requester.mgt false addr.toNat (leBytes 8 data.toNat)
    ok (s.mgtAnswer (if reached then .ok else .accessDenied) [])

/-- The outcome of a STATE command: a status and the two words R328 gives it. -/
def State.stateAnswer (s : State) (st : Status) (w0 w1 : Nat) : State :=
  (s.mgtAnswer st (leBytes 4 w0 ++ leBytes 4 w1)).alert alStateDone

/-- A STATE command refused for which R328 gives no words: no data (R424). -/
def State.stateRefuse (s : State) (st : Status) : State := s.mgtAnswer st []

/-- An entry, a detach or a re-test is being decided (R424). -/
def State.stateBusy (s : State) : Bool :=
  s.power.entry.isSome || s.detach.isSome || s.wakes || (s.start.retest && !s.start.released && s.site ≠ stFallow)

/-- STATE 0: a wake. -/
def State.stateWake (s : State) : State := (s.wakeFor .mgtWake).stateAnswer .ok 0 0

/-- STATE 1 to 4: an entry, as `POWER_STATE` makes it. -/
def State.stateEnter (s : State) (target : Nat) : State :=
  if s.stateBusy then s.stateRefuse .busy
  else if s.site = stFallow ∨ !s.start.released then s.stateRefuse .notReady
  else if s.site = stSlack ∨ s.site = stPond ∨ s.site = stTrickle then s.stateRefuse .refusedState
  else match s.entryCondition target with
    | some c => (s.refuseEntry target).stateAnswer .refusedState 0 c
    | none => { s.startEntry target none with mgt := { s.mgt with stateEntry := true, resp := [], nack := false } }

/-- STATE 5: a re-test (R346), which starts a site in `FALLOW` again. -/
def State.stateRetest (s : State) : State :=
  if s.stateBusy then s.stateRefuse .busy
  else if s.site = stFallow then s.retestNow.stateAnswer .ok 0 0
  else if !s.start.released then s.stateRefuse .notReady
  else s.stateRefuse .refusedState

/-- STATE 6: a detach is cancelled before the fence is asked for (R354). A `DETACH_PREPARE` that is still draining is
answered REFUSED_STATE. -/
def State.stateCancel (s : State) : State :=
  if s.site = stDetaching ∧ !s.start.fenceReq ∧ !s.start.fencing ∧ !s.start.noReturn then
    let s := { (s.setSite stFlow).logEvent with detach := none }
    let s := match s.handed.find? fun h => h.begun && h.pkt.op = 0x4B with
      | some h => s.finishHanded h (.refuse .refusedState)
      | none => s
    s.stateAnswer .ok 0 0
  else if s.stateBusy then s.stateRefuse .busy
  else s.stateRefuse .refusedState

/-- MGT_STATE (R424): every request but a wake needs the owner role. -/
def execMgtState (arg : Byte) (s : State) : Host.Outcome State Fault Refusal :=
  if !s.mgtUp then ok s
  else if arg.toNat > 6 then ok (s.mgtAnswer .badParam [])
  else if arg ≠ 0 ∧ !s.mgt.owner then ok (s.mgtAnswer .accessDenied [])
  else ok (match arg.toNat with
    | 0 => s.stateWake
    | 5 => s.stateRetest
    | 6 => s.stateCancel
    | t => s.stateEnter t)

/-- MGT_NONCE (R424). -/
def execMgtNonce (s : State) : Host.Outcome State Fault Refusal :=
  if !s.mgtUp then ok s
  else
    let n := Config.random128 s.freeUses
    let s := s.useFree
    ok ({ s with mgt := { s.mgt with nonce := some n } }.mgtAnswer .ok (leBytes 16 n.toNat))

/-- MGT_ROLE (R425). -/
def execMgtRole (hmac : BitVec 384) (s : State) : Host.Outcome State Fault Refusal :=
  if !s.mgtUp then ok s
  else match s.mgt.nonce with
  | some n =>
    if hmac = Config.ownerHmac n Config.serial then ok ({ s with mgt := { s.mgt with owner := true } }.mgtAnswer .ok [])
    else ok (s.mgtAnswer .accessDenied [])
  | none => ok (s.mgtAnswer .accessDenied [])

/-- ALERT_ACK (R424, R426): a cause set in the same cycle stays set (R7). -/
def execAlertAck (mask : Byte) (s : State) : Host.Outcome State Fault Refusal :=
  if !s.mgtUp then ok s
  else
    let s := s.plainStore .devMgtAlert 0 (maskOf 0 8) (mask.setWidth 64)
    let left := s.reg .devMgtAlert
    ok ({ s with mgt := { s.mgt with ibi := s.mgt.ibi.filter fun i => bit left i.toNat } }.mgtAnswer .ok [])

/-! ### Common command codes (R422) -/

/-- ENTDAA: a target without a dynamic address that wins the round takes it. -/
def execEntdaa (won : Bool) (addr : BitVec 7) (s : State) : Host.Outcome State Fault Refusal :=
  if !s.mgtUp then ok s
  else if won ∧ s.mgt.dyn.isNone then ok { s with mgt := { s.mgt with dyn := some addr, nack := false } }
  else ok s

/-- SETDASA: for the static address, while no dynamic address is held. -/
def execSetdasa (static addr : BitVec 7) (s : State) : Host.Outcome State Fault Refusal :=
  if !s.mgtUp ∨ static ≠ s.cfg.siteAddr then ok s
  else if s.mgt.dyn.isSome then ok s.cccNack
  else ok { s with mgt := { s.mgt with dyn := some addr, nack := false } }

/-- SETNEWDA. -/
def execSetnewda (addr : BitVec 7) (s : State) : Host.Outcome State Fault Refusal :=
  if !s.mgtUp ∨ s.mgt.dyn.isNone then ok s
  else ok { s with mgt := { s.mgt with dyn := some addr, nack := false } }

/-- RSTDAA: the dynamic address and the owner role end (R425). -/
def execRstdaa (s : State) : Host.Outcome State Fault Refusal :=
  if !s.mgtUp then ok s
  else ok { s with mgt := { s.mgt with dyn := none, owner := false, nack := false } }

/-- Event bits of ENEC and DISEC (I3C Basic): interrupts, controller role, Hot-Join. -/
def eventBits : Byte := 0x0B

/-- ENEC. -/
def execEnec (events : Byte) (s : State) : Host.Outcome State Fault Refusal :=
  if !s.mgtUp then ok s
  else ok { s with mgt := { s.mgt with events := s.mgt.events ||| (events &&& eventBits), nack := false } }

/-- DISEC. -/
def execDisec (events : Byte) (s : State) : Host.Outcome State Fault Refusal :=
  if !s.mgtUp then ok s
  else ok { s with mgt := { s.mgt with events := s.mgt.events &&& ~~~events, nack := false } }

/-- A number of `n` bytes, highest first, as a common command code returns it. -/
def beBytes (n v : Nat) : List Byte := (leBytes n v).reverse

/-- GETPID: the manufacturer's identifier is left open; the low 32 bits are the serial number's. -/
def execGetpid (s : State) : Host.Outcome State Fault Refusal :=
  if !s.mgtUp then ok s
  else ok (s.cccAnswer (beBytes 2 (fld (Config.i3c 0) 0 16) ++ beBytes 4 (fld Config.serial 0 32)))

/-- GETBCR: interrupts with payload, no speed limitation, a target; the bits in between are left open. -/
def execGetbcr (s : State) : Host.Outcome State Fault Refusal :=
  if !s.mgtUp then ok s
  else ok (s.cccAnswer [BitVec.ofNat 8 (6 + fld (Config.i3c 1) 3 3 * 8)])

/-- GETDCR: left open. -/
def execGetdcr (s : State) : Host.Outcome State Fault Refusal :=
  if !s.mgtUp then ok s
  else ok (s.cccAnswer [(Config.i3c 2).setWidth 8])

/-- GETSTATUS: left open, a fresh value each time. -/
def execGetstatus (s : State) : Host.Outcome State Fault Refusal :=
  if !s.mgtUp then ok s
  else ok (s.useFree.cccAnswer (beBytes 2 (fld (s.freeVal 71) 0 16)))

/-- GETMWL. -/
def execGetmwl (s : State) : Host.Outcome State Fault Refusal :=
  if !s.mgtUp then ok s else ok (s.cccAnswer (beBytes 2 s.mgt.mwl))

/-- GETMRL: with the one byte of an interrupt's payload. -/
def execGetmrl (s : State) : Host.Outcome State Fault Refusal :=
  if !s.mgtUp then ok s else ok (s.cccAnswer (beBytes 2 s.mgt.mrl ++ [1]))

/-- SETMWL: at most the 64 bytes of R422. -/
def execSetmwl (len : BitVec 16) (s : State) : Host.Outcome State Fault Refusal :=
  if !s.mgtUp then ok s else ok { s with mgt := { s.mgt with mwl := min 64 len.toNat, nack := false } }

/-- SETMRL. -/
def execSetmrl (len : BitVec 16) (s : State) : Host.Outcome State Fault Refusal :=
  if !s.mgtUp then ok s else ok { s with mgt := { s.mgt with mrl := min 64 len.toNat, nack := false } }

/-- UNSUPPORTED_CCC: answered with NACK. -/
def execUnsupportedCcc (_code : Byte) (s : State) : Host.Outcome State Fault Refusal :=
  if !s.mgtUp then ok s else ok s.cccNack

/-- MGT_BUS_RESET (R425): the role ends, and what a transfer would have returned. -/
def execMgtBusReset (s : State) : Host.Outcome State Fault Refusal :=
  if !s.mgtUp then ok s else ok { s with mgt := { s.mgt with owner := false, resp := [], nack := false } }

/-- MGT_ADDRESS_MATCH_WAKE (R330): the header is not acknowledged. -/
def execMgtAddressMatchWake (addr : BitVec 7) (s : State) : Host.Outcome State Fault Refusal :=
  if s.site = stDry ∧ s.start.pwrGood ∧ addr ≠ 0x7E ∧ (addr = s.cfg.siteAddr ∨ s.mgt.dyn = some addr) then
    ok s.dryWake.cccNack
  else ok s

end Sys2Proof.Machine
end

