-- ==== Sys2Proof/Machine/MatrixPackets.lean ====
section
/-! DEFINITION. The matrix packets. A packet command is the packet entering its source's fetch buffer and,
where nothing of the source is ahead of it and it can be, its dispatch (`State.arrive`, log entry 3). -/

namespace Sys2Proof.Machine

/-- MATMUL (R85–R117). -/
def execMatmul (src : Src) (pkt : Packet) (s : State) : Host.Outcome State Fault Refusal :=
  ok (s.arrive src { pkt with opcode := 0x18 })

/-- MATMUL_ACC (R117): the outputs are loaded into the accumulators first. -/
def execMatmulAcc (src : Src) (pkt : Packet) (s : State) : Host.Outcome State Fault Refusal :=
  ok (s.arrive src { pkt with opcode := 0x19 })

end Sys2Proof.Machine
end

