-- ==== Sys2Proof/Machine/Repeats.lean ====
section
/-! DEFINITION. Repeat-to-classify (R104, R105, R133, R142, R264–R268): what a mismatch and its repeats count, record and
leave of the packet. -/

namespace Sys2Proof.Machine

/-! ### Cells (R103, R271) -/

/-- Cell row or column of a line; line 64 is the check line. -/
def cellOf (n : Nat) : Nat := if n ≥ 64 then 8 else n % 8

/-- The cell the failing lines name: where row lines of one cell row and column lines of one cell column cross; a
check-lane cell where only lines of one kind, or only the corner, fails; none otherwise. -/
def cellNamed (rows cols : List Nat) : Nat :=
  match (rows.map cellOf).eraseDups, (cols.map cellOf).eraseDups with
  | [r], [c] => r * 16 + c
  | [r], [] => r * 16 + 8
  | [], [c] => 8 * 16 + c
  | [], [] => 8 * 16 + 8
  | _, _ => noBit

/-! ### Ends -/

/-- A lane of a matrix packet, or the tile of another packet, ends with `INTERNAL`: its open tile closes broken, and
what else the packet does goes on. -/
def State.endInternal (s : State) (f : Flight) (lane : Nat) : State :=
  let s := s.post { Event.of .site 0xFFFF 0 clsInternal .none with ctx := f.ctx, failed := true }
  let mine := match f.plan with
    | st :: _ => !f.isMatrix || st.lane = lane
    | [] => false
  let idx := match f.plan with
    | .write _ _ _ i _ :: _ => i
    | .read _ _ _ i _ :: _ => i
    | _ => 0
  if mine then
    let s := match f.phase with
      | .writing b d => s.closeBroken b d
      | .reading b d => s.releaseReader b d
      | _ => s
    let s := s.putFlight (f.failAt lane idx .internal)
    let s := match f.phase with
      | .writing b d => s.afterBreak b d
      | .reading b d => if dReaders (s.descOf b d) = 0 then s.afterReads b d else s
      | .heldWrite b d => s.fixWait b d
      | _ => s
    (s.go f.id).runReady
  else s.putFlight { f with dead := f.dead ++ [(lane, .internal)] }

/-- DETAIL of classes 0x10 and 0x11 (R287). -/
def repeatDetail (f : Flight) (r : Repeat) (pass : Bool) : List Byte :=
  let int := f.isMatrix && (f.blockShape r.lane).2.2
  -- repeats that ended: those that failed, and the present one if it passed
  let units := (r.fails.map (·.1)).drop 1 ++ if pass then (r.now.map (·.1)).toList else []
  let p1 := pass && r.fails.length = 1
  let p2 := pass && r.fails.length = 2
  leBytes 4 f.pkt.seq.toNat
    ++ [BitVec.ofNat 8 (if f.isMatrix then r.lane else ((r.fails.head?).map (·.2)).getD 0), BitVec.ofNat 8 r.rows,
        BitVec.ofNat 8 r.cols, if int then 0 else 1]
    ++ leBytes 2 (units.getD 0 0xFFFF) ++ leBytes 2 (units.getD 1 0xFFFF) ++ [BitVec.ofNat 8 (p1.toNat + 2 * p2.toNat), 0, 0, 0]

/-- What the units that failed count (R265, R266): the failing unit one transient event where the first repeat passes,
every failing unit one unresolved event otherwise, one event for a unit that failed twice. -/
def Repeat.verdicts (r : Repeat) (pass : Bool) : List (Nat × Nat × Verdict) :=
  let firsts := r.fails.foldl (fun (l : List (Nat × Nat)) x => if l.any fun y => y.1 = x.1 then l else l ++ [x]) []
  firsts.map fun x => (x.1, x.2, if pass ∧ r.fails.length = 1 then .transient else .unresolved)

/-- An operand tile read again for the repeat has another GENERATION than the failed computation read (R267). -/
def Flight.operandChanged (f : Flight) (r : Repeat) : Bool :=
  r.gens.any fun x => match f.genAt.find? fun y => y.1 = x.1 with
    | some y => y.2 ≠ x.2
    | none => false

/-- Post the events of a mismatch whose repeats are over; a changed operand leaves the original one unclassified (R267). -/
def State.postRepeat (s : State) (f : Flight) (r : Repeat) (pass : Bool) : State :=
  let changed := f.operandChanged r
  (r.verdicts pass).zipIdx.foldl (fun (s : State) x =>
    s.post { Event.of f.kind f.basin x.1.1 (if f.isMatrix then clsMxe else clsVxe)
        (if x.2 = 0 ∧ changed then .unclassified else x.1.2.2) with
      bit := x.1.2.1, ctx := f.ctx, failed := !pass, detail := repeatDetail f r pass }) s

/-- MISMATCH of a unit (R104, R133, R142). -/
def State.countMismatch (s : State) (kind : UnitKind) (b u : Nat) : State :=
  match kind with
  | .mxe => s.bump (.mxeCnt b u) 48 16
  | .vxe => s.bump (.vxeCnt b u) 48 16
  | _ => s.bump (.sxeCnt b u) 48 16

/-- Reads that a repeat makes again for the output at a write step (R264, R267): for a matrix lane its operands; for a tile
of a VXE or screen the input tiles it is made of. The spec does not say what a screen's repeat reads: a gather's panel is read again,
its selectors and S are not, and nothing is for the histogram tile (DESIGN CHOICE, log entry 81). -/
def Flight.readsAgain (f : Flight) (idx lane : Nat) : List PStep :=
  let b := f.basin
  let p := f.pkt
  let xs := fun role => (List.range p.vTiles).map fun i => PStep.read b (p.vX + i) role i 0
  let y := if !vHasY p then [] else if p.vBcast = 1 then [PStep.read b p.vY roleY 0 0]
    else [PStep.read b (p.vY + idx) roleY idx 0]
  let panel := fun q => (List.range p.sBlocks).map fun j => PStep.read b (p.sSrc + q * p.sPStep + j * p.sStep) roleSrc j 0
  if f.isMatrix then laneReads b p lane
  else if f.isOp 0x1C then
    if vIsRow p.vOp ∧ !vTwoPass p.vOp then xs roleX
    else (if vTwoPass p.vOp then xs roleX1 else []) ++ y ++ [.read b (p.vX + idx) roleX idx 0]
  else if f.isOp 0x1E then (List.range p.tTiles).map fun i => PStep.read b (p.tX + i) roleX i 0
  else if f.isOp 0x22 then
    if p.sMode = 0 then panel (idx / 16) else if idx = 0 then [.read b p.sSel roleSel 0 0] else panel (idx - 1)
  else if f.isOp 0x23 then []
  else [.read b (p.sSrc + idx) roleSrc idx 0]

/-- A repeat starts (R264): its unit is taken where one is idle, and the operands are read again. A matrix lane's repeat
goes on after the packet's other blocks, another engine's tile in place. -/
def State.startRepeat (s : State) (f : Flight) (r : Repeat) (idx : Nat) : State :=
  let (s, r) := if r.same ∧ f.isMatrix then (s, r) else s.takeUnit f r
  let again := PStep.again r.lane :: f.readsAgain idx r.lane
  let plan := if f.isMatrix then
      (f.plan.filter fun st => st.lane ≠ r.lane) ++ again ++ f.plan.filter fun st => st.lane = r.lane
    else again ++ f.plan
  (s.putFlight { f.putRep r with
    plan := plan, phase := .run, made := none, repeats := f.repeats + 1
    alerts := f.alerts ||| alRetried ||| alertIf r.spare alSpare }).go f.id

/-- A comparison of lane `lane`'s output `idx` failed on the unit that made it (R104, R133, R142, R264–R268): counted,
then repeated on another unit, or given up. `place` is the cell or lane it names; `rows` and `cols` the failing lines. -/
def State.mismatch (s : State) (f : Flight) (idx lane place rows cols : Nat) : State :=
  let u := f.maker lane
  let s := s.countMismatch f.kind f.basin u
  let r := (f.repOf lane).getD
    { lane := lane, fails := [], now := none, same := (s.othersInService f [u]).isEmpty, spare := false, gens := f.genAt
      rows := rows, cols := cols }
  let s := s.freeUnit f r
  let r := { r with fails := r.fails ++ [(u, place)], now := none }
  -- a screen's mismatch is an event at once and is repeated once (R142, R268)
  let last := decide (r.fails.length = 3) || (decide (r.fails.length = 2) && (r.same || f.isScreen))
  let s := if f.isScreen then s.post { Event.of .screen f.basin u clsScreen .none with ctx := f.ctx, failed := last } else s
  if last then
    let mine := f.opened.filter fun x => (List.range f.pkt.mOTiles).any fun t => f.pkt.oDesc lane t = x.2
    let f := { f with opened := f.opened.filter fun x => !mine.contains x }
    let s := if f.isScreen then s else
      (r.verdicts false).foldl (fun (s : State) x => s.dueNow f.kind f.basin x.1) (s.postRepeat f r false)
    let f := { f with rep := f.rep.filter fun x => x.lane ≠ lane }
    let s := ((s.putFlight f).closeOpened mine).endInternal f lane
    mine.foldl (fun (s : State) x => s.afterBreak x.1 x.2) s
  else
    -- with no third unit in service the second repeat runs on the failing one (DEDUCED, log entry 70)
    let r := if r.fails.length = 2 ∧ (s.othersInService f (r.fails.map (·.1))).isEmpty then { r with same := true } else r
    s.startRepeat f r idx

/-- A comparison of lane `lane`'s output passed: what a mismatch before it left is recorded, and the output goes to its
gate. `ws` are the accumulators of a matrix block. -/
def State.comparePass (s : State) (f : Flight) (lane : Nat) (ws : List AccWord) : State :=
  let (s, f) := match f.repOf lane with
    | some r => (if f.isScreen then s else s.postRepeat f r true, f.putRep { r with fails := [] })
    | none => (s, f)
  let (s, f) := if f.isMatrix then s.startReadout f lane ws else (s, f)
  let drops := match f.made with | some m => if f.isScreen then m.dropped else 0 | none => 0
  let s := s.bump (.sxeCnt f.basin f.unit0) 32 16 drops
  let f := if drops = 0 then f else f.addWord 0 drops
  (s.putFlight { f with phase := .run, passed := lane :: f.passed }).go f.id

/-- The step a comparing flight stands at. -/
def Flight.comparing? (f : Flight) : Option (Nat × Nat) :=
  match f.phase, f.plan with
  | .comparing, .write _ _ _ idx lane :: _ => some (idx, lane)
  | _, _ => none

/-- A comparison an engine makes now: output and lane of the step, in a cycle in which engines take a step (R331, R333). -/
def State.compares (s : State) (f : Flight) : Option (Nat × Nat) := if s.dutyAt s.cycle then f.comparing? else none

/-- The comparison of a matrix block by an MXE that met `up` (R102, R103). -/
def State.compareBlock (s : State) (f : Flight) (idx lane : Nat) (up : Upset) : State :=
  let ws := upsetWords up (laneWords f lane)
  let bad := failingLines f lane ws up
  if bad.isEmpty then s.comparePass f lane ws
  else
    let rows := bad.filter (· < 64)
    let cols := (bad.filter fun n => 64 ≤ n ∧ n < 128).map (· - 64)
    s.mismatch f idx lane (cellNamed rows cols) rows.length cols.length

/-- A comparison none of whose units meets an upset. -/
def State.compareNow (s : State) (i : Nat) : State :=
  match s.flight? i with
  | some f =>
    match f.comparing? with
    | some (idx, lane) => if f.isMatrix then s.compareBlock f idx lane Upset.none else s.comparePass f lane []
    | none => s
  | none => s

/-- The comparisons that stand are made, in a cycle in which engines take a step (R331), and what waited for a unit goes on: part of
an idle cycle (log entry 2). -/
def State.compareAll (s : State) : State :=
  let due := if s.dutyAt s.cycle then (s.flights.filter fun f => f.comparing?.isSome).map (·.id) else []
  (due.foldl State.compareNow s).runReady

/-- A readout difference met as a tile of a matrix block is to close (R105): the block is repeated, the tile stays open for the
repeat's bytes (DEDUCED, log entry 80), and what has closed of the block stays closed. -/
def State.readoutMismatch (s : State) (f : Flight) (b d idx lane : Nat) (m : Made) (wrong : List (Nat × Byte)) : State :=
  let s := s.landWords b (dExtentBase (s.descOf b d) * 4) (m.outBytes wrong) []
  let f := { f with
    phase := .run, made := none, pend := none, opened := (b, d) :: f.opened
    passed := f.passed.filter (· ≠ lane), accs := f.accs.filter fun x => x.1 ≠ lane }
  (s.putFlight f).mismatch f idx lane noBit 0 0

/-- TILE_CLOSE (R45, R48, R53, R77, R105): `wrong` bytes came out of the writer other than they were made. -/
def execTileClose (f : Nat) (wrong : List (Nat × Byte)) (s : State) : Host.Outcome State Fault Refusal :=
  ok (match s.flight? f with
    | some x =>
      match x.phase, x.plan, x.made with
      | .writing b d, .write _ _ _ idx lane :: _, some m =>
        if s.burstsDue f ∨ s.startsBeats x (dExtentBase (s.descOf b d)) (s.writeLen x b d m) then s
        else if x.isMatrix ∧ x.pend.isSome ∧ m.readoutDiffers (s.descOf b d) wrong then
          s.readoutMismatch x b d idx lane m wrong
        else s.tileCloseOf f wrong
      | _, _, _ => s.tileCloseOf f wrong
    | none => s)

/-- MXE_REPEAT (R101–R104, R264–R267): the comparison of a lane's block, by the MXE of the packet or of a repeat. -/
def execMxeRepeat (f lane : Nat) (up : Upset) (s : State) : Host.Outcome State Fault Refusal :=
  ok (match s.flight? f with
    | some x =>
      match s.compares x with
      | some (idx, l) => if x.isMatrix && l = lane then s.compareBlock x idx lane up else s
      | none => s
    | none => s)

/-- VXE_REPEAT (R133, R264–R267): the shadow lane disagrees over lane `vlane`. -/
def execVxeRepeat (f vlane : Nat) (s : State) : Host.Outcome State Fault Refusal :=
  ok (match s.flight? f with
    | some x =>
      match s.compares x with
      | some (idx, _) => if x.kind = .vxe then s.mismatch x idx 0 vlane 0 0 else s
      | none => s
    | none => s)

/-- SCREEN_REPEAT (R142): the two datapaths disagree. -/
def execScreenRepeat (f : Nat) (s : State) : Host.Outcome State Fault Refusal :=
  ok (match s.flight? f with
    | some x =>
      match s.compares x with
      | some (idx, _) => if x.kind = .screen then s.mismatch x idx 0 noBit 0 0 else s
      | none => s
    | none => s)

end Sys2Proof.Machine
end

