-- ==== Sys2Proof/Machine/Riders.lean ====
section
/-! DEFINITION. The ditch riders' own events: fetches, dispatch, replies, increments; requests tried again, tiles closed
and reads ended (R45–R47, R53, R199–R202, R209, R211, R219). -/

namespace Sys2Proof.Machine

/-- The word a ring's next packet, or its next reply, stands in. -/
def State.slotWord (s : State) (r : Nat) (reply : Bool) : Nat :=
  if reply then (s.rfld (.ringRpl r) 0 18 * 256 + s.rfld (.ringRtail r) 0 32 % s.rplEntries r * 32) / 64
  else (s.rfld (.ringCmd r) 0 18 * 256 + s.ringHead r % 2 ^ s.rfld (.ringCmd r) 40 4 * 64) / 64

/-- RING_FETCH (R201, R202, R209, R235): in the cycle of its beat through the ditch-rider turnout. -/
def execRingFetch (ring : Nat) (s : State) : Host.Outcome State Fault Refusal :=
  ok (if s.ringFetchable ring ∧ s.ringHead ring ≠ s.ringTail ring then
      let (t, ready) := s.beatFor (s.rfld (.ringCmd ring) 48 8) (.fetch (.ring ring)) .read (s.slotWord ring false) 1
      if ready then t.fetchRing ring else t
    else s)

/-- A list's fetch reads a word: it is fetched, and its place is the context's (R211). -/
def State.listReads (s : State) (b k : Nat) : Option Nat :=
  match s.list? b k with
  | some l => if s.listFetchable l && !(l.buf.any (·.err.isSome)) && (s.listPlace l).isNone then some (l.pc / 64) else none
  | none => none

/-- LIST_FETCH (R209, R211, R235): in the cycle of its beat, where it reads a packet. -/
def execListFetch (b slot : Nat) (s : State) : Host.Outcome State Fault Refusal :=
  ok (match s.listReads b slot with
    | some w =>
      let (t, ready) := s.beatFor b (.fetch (.list b slot)) .read w 1
      if ready then t.fetchList b slot else t
    | none => s.fetchList b slot)

/-- A reply is written in the cycle of its beat (R158, R202). -/
def State.replyBeat (s : State) (r : Nat) : State × Bool :=
  let (t, ready) := s.beatFor (s.rfld (.ringCmd r) 48 8) (.fetch (.ring r)) .write (s.slotWord r true) 1
  (if ready then t.landBeats else t, ready)

/-- PACKET_DISPATCH (R207, R209, R219): one group of a ready source whose turn it is, once a cycle in a basin. -/
def execPacketDispatch (src : Src) (s : State) : Host.Outcome State Fault Refusal := ok (s.ride src).runReady

/-- A ring packet Rosog has held for 100 µs unfinished and may accept (R219), outside a scrub (R370). -/
def State.acceptable (s : State) (h : Handed) : Bool :=
  match h.src with
  | .ring r => s.site ≠ stScrub && !h.accepted && (h.begun || s.rosogTurn h) && (h.taken.any fun t => decide (s.now - t ≥ 100 * rootPerUs)) && s.rplFree r
  | _ => false

/-- The `ACCEPTED` reply of a packet (R205, R219). -/
def State.acceptedReply (s : State) (h : Handed) : Reply :=
  (s.marked h.src h.basin h.pkt { Outcome.ok with status := .accepted }).reply h.pkt false (s.cycle - h.startCycle)

/-- ACCEPTED_REPLY (R219): posted for the oldest such packet, whose ring then goes on. -/
def execAcceptedReply (s : State) : Host.Outcome State Fault Refusal :=
  ok (match s.handed.find? s.acceptable with
    | some h =>
      match h.src with
      | .ring r =>
        let (s, ready) := s.replyBeat r
        if !ready then s else
        let s := s.writeReply r (s.acceptedReply h)
        let s := { s with handed := s.handed.map fun (x : Handed) => if x = h then { x with accepted := true } else x }
        s.holdSrc h.src false
      | _ => s
    | none => s)

/-- A ring has a reply to write, outside a scrub (R370). -/
def State.replyDue (s : State) (r : Nat) : Bool :=
  s.site ≠ stScrub && (!(s.ring r).waiting.isEmpty || !(s.ring r).unreserved.isEmpty && s.rplFree r)

/-- REPLY_WRITE (R202). -/
def execReplyWrite (ring : Nat) (s : State) : Host.Outcome State Fault Refusal :=
  ok (if s.replyDue ring then
      let (t, ready) := s.replyBeat ring
      if ready then t.replyOut ring else t
    else s)

/-- GAUGE_INCREMENT (R53, R54, R216). -/
def execGaugeIncrement (b g : Nat) (s : State) : Host.Outcome State Fault Refusal := ok (s.landIncs b g)

/-- A request in a hold slot that does not wait for a close is tried again (R47): one that waits for a restore stays held. -/
def State.retryHeld (s : State) (i : Nat) (slot : Bool) : State :=
  match s.flight? i with
  | some f =>
    if f.inSlot ≠ slot ∨ f.waitClose then s
    else match f.phase with
      | .restoring b d => s.hold f (.restoring b d) b d false
      | .heldRead _ _ | .heldWrite _ _ => (s.retry i).runReady
      | _ => s
  | none => s

/-- HOLD_RETRY (R47). -/
def execHoldRetry (f : Nat) (s : State) : Host.Outcome State Fault Refusal := ok (s.retryHeld f true)

/-- RETURNED_REQUEST_REISSUE (R47, R193). -/
def execReturnedRequestReissue (f : Nat) (s : State) : Host.Outcome State Fault Refusal := ok (s.retryHeld f false)

/-- TILE_READ_END (R46, R242–R245). -/
def execTileReadEnd (f : Nat) (s : State) : Host.Outcome State Fault Refusal := ok (s.tileReadEndOf f)

end Sys2Proof.Machine
end

