-- ==== Sys2Proof/Machine/ScreenPackets.lean ====
section
/-! DEFINITION. The screen packets. A packet command is the packet entering its source's fetch buffer and,
where nothing of the source is ahead of it and it can be, its dispatch (`State.arrive`, log entry 3). -/

namespace Sys2Proof.Machine

/-- COMPACT (R135, R80): re-encoding in N:M, bitmap or coordinate-list layout. -/
def execCompact (src : Src) (pkt : Packet) (s : State) : Host.Outcome State Fault Refusal :=
  ok (s.arrive src { pkt with opcode := 0x20 })

/-- EXPAND (R135): re-encoding in dense layout. -/
def execExpand (src : Src) (pkt : Packet) (s : State) : Host.Outcome State Fault Refusal :=
  ok (s.arrive src { pkt with opcode := 0x21 })

/-- GATHER_ROWS (R136, R137): selected rows, or the operands of a row-gather. -/
def execGatherRows (src : Src) (pkt : Packet) (s : State) : Host.Outcome State Fault Refusal :=
  ok (s.arrive src { pkt with opcode := 0x22 })

/-- ZERO_MAP (R138): zero maps and magnitudes written back, and a histogram. -/
def execZeroMap (src : Src) (pkt : Packet) (s : State) : Host.Outcome State Fault Refusal :=
  ok (s.arrive src { pkt with opcode := 0x23 })

/-- CONVERT (R135): another layout or element type. -/
def execConvert (src : Src) (pkt : Packet) (s : State) : Host.Outcome State Fault Refusal :=
  ok (s.arrive src { pkt with opcode := 0x24 })

end Sys2Proof.Machine
end

