-- ==== Sys2Proof/Machine/SpdmRequests.lean ====
section
/-! DEFINITION. SPDM and TDISP requests as they reach the responder (R380–R386). -/

namespace Sys2Proof.Machine

/-- GET_VERSION (R380). -/
def execGetVersion (r : SpdmReq) (s : State) : Host.Outcome State Fault Refusal := ok (s.request r .getVersion)

/-- GET_CAPABILITIES (R380). -/
def execGetCapabilities (r : SpdmReq) (s : State) : Host.Outcome State Fault Refusal := ok (s.request r .getCapabilities)

/-- NEGOTIATE_ALGORITHMS (R380). -/
def execNegotiateAlgorithms (r : SpdmReq) (supported : Bool) (s : State) : Host.Outcome State Fault Refusal :=
  ok (s.request r (.negotiate supported))

/-- GET_DIGESTS (R380). -/
def execGetDigests (r : SpdmReq) (s : State) : Host.Outcome State Fault Refusal := ok (s.request r .getDigests)

/-- GET_CERTIFICATE (R380): slot 0 alone. -/
def execGetCertificate (r : SpdmReq) (s : State) : Host.Outcome State Fault Refusal := ok (s.request r .getCertificate)

/-- CHALLENGE (R380). -/
def execChallenge (r : SpdmReq) (s : State) : Host.Outcome State Fault Refusal := ok (s.request r .challenge)

/-- GET_MEASUREMENTS (R381, R382). -/
def execGetMeasurements (r : SpdmReq) (s : State) : Host.Outcome State Fault Refusal := ok (s.request r .getMeasurements)

/-- KEY_EXCHANGE (R359, R380). -/
def execKeyExchange (r : SpdmReq) (entropyOk : Bool) (s : State) : Host.Outcome State Fault Refusal :=
  ok (s.request r (.keyExchange entropyOk))

/-- FINISH (R380, R382). -/
def execFinish (r : SpdmReq) (verified : Bool) (s : State) : Host.Outcome State Fault Refusal :=
  ok (s.request r (.finish verified))

/-- END_SESSION (R382, R384). -/
def execEndSession (r : SpdmReq) (s : State) : Host.Outcome State Fault Refusal := ok (s.request r .endSession)

/-- RESPOND_IF_READY (R386). -/
def execRespondIfReady (r : SpdmReq) (s : State) : Host.Outcome State Fault Refusal := ok (s.respondHeld r)

/-- Any other SPDM request (R380). -/
def execSpdmUnsupportedRequest (r : SpdmReq) (code : Byte) (s : State) : Host.Outcome State Fault Refusal :=
  ok (s.request r (.unsupported code))

/-- GET_TDISP_VERSION (R383). -/
def execGetTdispVersion (r : SpdmReq) (iface : Nat) (s : State) : Host.Outcome State Fault Refusal :=
  ok (s.request r (.tdispVersion iface))

/-- GET_TDISP_CAPABILITIES (R383). -/
def execGetTdispCapabilities (r : SpdmReq) (iface : Nat) (s : State) : Host.Outcome State Fault Refusal :=
  ok (s.request r (.tdispCapabilities iface))

/-- LOCK_INTERFACE_REQUEST (R384, R387). -/
def execLockInterfaceRequest (r : SpdmReq) (iface : Nat) (noFwUpdate : Bool) (s : State) :
    Host.Outcome State Fault Refusal := ok (s.request r (.lockInterface iface noFwUpdate))

/-- GET_DEVICE_INTERFACE_REPORT (R383). -/
def execGetDeviceInterfaceReport (r : SpdmReq) (iface : Nat) (s : State) : Host.Outcome State Fault Refusal :=
  ok (s.request r (.interfaceReport iface))

/-- GET_DEVICE_INTERFACE_STATE (R383, R384). -/
def execGetDeviceInterfaceState (r : SpdmReq) (iface : Nat) (s : State) : Host.Outcome State Fault Refusal :=
  ok (s.request r (.interfaceState iface))

/-- START_INTERFACE_REQUEST (R384). -/
def execStartInterfaceRequest (r : SpdmReq) (iface : Nat) (s : State) : Host.Outcome State Fault Refusal :=
  ok (s.request r (.startInterface iface))

/-- STOP_INTERFACE_REQUEST (R368, R384). -/
def execStopInterfaceRequest (r : SpdmReq) (iface : Nat) (s : State) : Host.Outcome State Fault Refusal :=
  ok (s.request r (.stopInterface iface))

/-- The TDISP requests that are not supported (R383). -/
def execTdispUnsupportedRequest (r : SpdmReq) (iface : Nat) (code : Byte) (s : State) :
    Host.Outcome State Fault Refusal := ok (s.request r (.tdispUnsupported iface code))

end Sys2Proof.Machine
end

