-- ==== Sys2Proof/Machine/Scrubs.lean ====
section
/-! DEFINITION. A scrub in its cycles and what follows it (R368–R370): the timetable is `State.scrubWork`. -/

namespace Sys2Proof.Machine

/-- A context's own destruction is answered on ring 8, in the slot reserved there (R223). -/
def State.answerSelf (s : State) (h : Handed) (c : Nat) (o : Outcome) : State :=
  let s := { s with handed := s.handed.filter (· ≠ h) }
  let rp := o.reply h.pkt false (s.cycle - h.startCycle)
  s.queueReply 8 { rp with otherRing := true, ring := c }

/-- A destroyed context's packet is answered, where one asked. -/
def State.answerDestroy (s : State) (c : Nat) (h : Option Handed) (lists packets locks : Nat) (alerts : Byte) : State :=
  let o := Outcome.words lists packets locks s.tScrub
  match h.bind fun x => s.handed? x.src x.pkt with
  | none => s
  | some h =>
    if h.src = .ring c ∧ c < 8 then s.answerSelf h c { o with alerts := alerts, status := o.status.withAlerts alerts }
    else s.finishHanded h o

/-- The stop is answered: in the packet's buffer, or as the responder's response. -/
def State.answerStop (s : State) (h : Option Handed) : State :=
  let s := s.say .tdispStopped
  match h.bind fun x => s.handed? x.src x.pkt with
  | none => s
  | some h =>
    let (s, o) := s.writeResponse h.basin (h.pkt.p 22 0 32) (h.pkt.p 26 0 16) (h.pkt.p 28 0 32 = 0)
    s.finishHanded h o

/-- What follows a scrub. -/
def State.afterScrub (s : State) (x : ScrubRun) : State :=
  match x.what with
  | .destroy h lists packets locks alerts => (s.removeContext x.ctx).answerDestroy x.ctx h lists packets locks alerts
  | .stop h => (s.stopDone x.ctx x.levees).answerStop h

/-- A granted debug unlock takes effect once the last scrub is over (R372). -/
def State.unlockOn (s : State) : State :=
  match s.hg.unlock with
  | some w => if s.scrubbing then s else ({ s with hg := { s.hg with unlock := none } }.debugUnlock).hgReply w Outcome.ok
  | none => s

/-- What was held back goes on: the culverts' messages and a divider change that waited (R312, R369). -/
def State.resume (s : State) : State :=
  let s := (List.range 4).foldl (fun (s : State) c => s.grantCulvert ((s.culvert c).exchanges.length + 1) c) s
  match s.power.divWait with
  | some d => if s.power.supply.isNone then { s with power := { s.power with divWait := none } }.setDiv d else s
  | none => s

/-- T_SCRUB has passed: STATE returns, the context ends or is unlocked, and the next scrub begins. -/
def State.endScrub (s : State) (x : ScrubRun) (was : Nat) : State :=
  let s := { (s.setSite was).logEvent with scrubs := s.scrubs.drop 1 }
  ((s.afterScrub x).beginScrub.unlockOn.resume).runReady

/-- One cycle of the running scrub: the present one is its `cycle - c0`-th, the work is of the one that has ended. -/
def State.scrubOn (s : State) : State :=
  match s.scrubs with
  | [] => s
  | x :: _ => match x.began with
    | none => s.beginScrub
    | some (c0, r0, was) =>
      if s.site ≠ stScrub ∨ s.cycle ≤ c0 then s
      else
        let s := s.scrubWork x.ctx (s.cycle - c0 - 1) (s.now - r0) (match x.what with | .stop _ => true | _ => false)
        if s.cycle - c0 ≥ s.tScrub then s.endScrub x was else s

end Sys2Proof.Machine
end

