-- ==== Sys2Proof/Machine/Watch.lean ====
section
/-! DEFINITION. What the site does at its intervals: the regulator (R180), the lock scan (R50), the wait audit
(R195–R197), the hardened-register check (R258, R259), service time kept (R269, R314). -/

namespace Sys2Proof

open Machine

/-- The basin of a packet's completion gauge, for a packet dispatched in basin `b`; none where it is on another site
or the packet has none (R53, R145). -/
def Packet.gaugeHome (p : Packet) (b : Nat) : Option Nat :=
  if p.inc = 0 ∨ p.op = 0x13 then none
  else if p.gaugeElsewhere then some p.fDstBasin
  else some b

/-- A packet of basin `b` names gauge `g` of basin `gb` as completion gauge, SRC_GAUGE or ESC_GAUGE (R195). -/
def Packet.feeds (p : Packet) (b gb g : Nat) : Bool :=
  (p.gaugeHome b = some gb && p.gauge = g)
    || (b = gb && !(p.op = 0x03 || p.op = 0x04 || p.op = 0x05) && p.gaugeOperands.contains g)

end Sys2Proof

namespace Sys2Proof.Machine

/-! ### The regulator (R180) -/

/-- A right is bounded in a basin (R180). -/
def State.bounded (s : State) (b r : Nat) : Bool :=
  let v := s.reg (.trnLatCfg b r)
  bit v 63 && decide (fld v 0 16 ≠ 0) && !bit v 62

/-- A right is at floor on every turnout of a basin (R180). -/
def State.atFloor (s : State) (b r : Nat) : Bool :=
  (List.range s.cfg.turnouts).all fun t =>
    decide (s.rfld (.trnOtCfg b t) (4 * r) 4 - s.depth b r * s.regStep b ≤ s.regFloor b)

def State.setDepth (s : State) (b r v : Nat) : State := s.putFld (.trnLatCfg b r) 48 4 v

/-- Rights of classes below `q`. -/
def State.rightsBelow (s : State) (b q : Nat) : List Nat := (List.range 16).filter fun r => s.qosOf b r < q

/-- Rights below a class lowered by a step. -/
def State.lowerBelow (s : State) (b q : Nat) : State :=
  (s.rightsBelow b q).foldl (fun (s : State) r => s.setDepth b r (min (s.depth b r + 1) 15)) s

/-- Every lowered right restored by a step. -/
def State.restoreDepths (s : State) (b : Nat) : State :=
  (List.range 16).foldl (fun (s : State) r => if s.depth b r > 0 then s.setDepth b r (s.depth b r - 1) else s) s

/-- The regulator's action at the end of an interval (R180). -/
def State.regulate (s : State) (b : Nat) : State :=
  let g := s.regulator b
  let ex := (List.range 16).filter fun r => s.bounded b r && g.exceeded.contains r
  if ex.isEmpty then
    let n := g.clean + 1
    let s := if n = s.regRestore b then s.restoreDepths b else s
    s.putRegulator ⟨b, if n = s.regRestore b then 0 else n, [], [], [], s.cycle + 1, s.regLog2 b⟩
  else
    let q := (ex.map (s.qosOf b)).foldl max 0
    let s := s.lowerBelow b q
    let hit := if (s.rightsBelow b q).all (s.atFloor b) then ex.filter fun r => s.qosOf b r = q else []
    let s := hit.foldl (fun (s : State) r => s.bump (.trnLatSt b r) 48 16) s
    let s := ex.foldl (fun (s : State) r => s.bump (.trnLatSt b r) 32 16) s
    s.putRegulator ⟨b, 0, [], hit, [], s.cycle + 1, s.regLog2 b⟩

/-- The present cycle is the last of a regulator's interval (R180, R181). -/
def State.intervalOver (s : State) (b : Nat) : Bool :=
  decide ((s.regulator b).start + 2 ^ (s.regulator b).log2 ≤ s.cycle + 1)

/-- Every regulator whose interval ends with this cycle acts. -/
def State.regulateAll (s : State) : State :=
  s.liveBasins.foldl (fun (s : State) b => if s.intervalOver b then s.regulate b else s) s

/-- A burst of a right has ended with a latency above its bound (R180, R183). -/
def State.exceeds (s : State) (b r : Nat) : State :=
  let g := s.regulator b
  if g.afresh.contains r ∨ g.exceeded.contains r then s else s.putRegulator { g with exceeded := r :: g.exceeded }

/-! ### The lock scan (R50) -/

/-- Locks of a basin whose leases have run out: none runs under a thermal trip (R327). -/
def State.expired (s : State) (b : Nat) : List Lock :=
  s.locks.filter fun l => l.basin = b && !s.start.thermTrip && decide (l.deadline ≤ s.now)

/-- LOCK_LEASE_SCAN (R50, R327). -/
def execLockLeaseScan (b : Nat) (s : State) : Host.Outcome State Fault Refusal :=
  ok (if s.flowRuns ∧ s.live b then
      (s.expired b).foldl (fun (s : State) (l : Lock) => (s.breakLock l.basin l.desc).afterBreak l.basin l.desc) s
    else s)

/-! ### The wait audit (R195–R197) -/

/-- A packet in flight anywhere on the site feeds a gauge. -/
def State.fed (s : State) (b g : Nat) : Bool :=
  (s.flights.any fun f => f.arrival.isNone && !f.restore && f.pkt.feeds f.basin b g)
    || (s.waits.any fun w => w.pkt.feeds w.basin b g)
    || (s.handed.any fun h => h.pkt.feeds h.basin b g)
    || s.lists.any fun l => l.spawner ≠ .headgate && l.spawnPkt.feeds (s.basinOf l.spawner) b g

/-- What the audit keeps of a wait. -/
def State.snapOf (s : State) (w : Wait) : Src × Nat × Nat × BitVec 32 × BitVec 32 :=
  (w.src, w.basin, w.gauge, w.target, s.count w.basin w.gauge)

/-- A wait is stalled (R195). -/
def State.stalled (s : State) (w : Wait) : Bool :=
  s.auditSnap.contains (s.snapOf w) && !s.fed w.basin w.gauge

/-- A wait's place: its basin, then its source. -/
def State.waitOrder (s : State) (w : Wait) : Nat := w.basin * 65536 + (s.callerOf w.src).owner.toNat

/-- Waits in ascending basin and list order (R197). -/
def State.insertWait (s : State) (w : Wait) : List Wait → List Wait
  | [] => [w]
  | x :: xs =>
    if s.waitOrder w < s.waitOrder x then w :: x :: xs else x :: s.insertWait w xs
def State.sortWaits (s : State) (ws : List Wait) : List Wait := ws.foldl (fun a w => s.insertWait w a) []

/-- One entry of the audit's detail (R197). -/
def State.auditEntry (s : State) (w : Wait) : List Byte :=
  leBytes 2 w.basin ++ leBytes 2 (s.callerOf w.src).owner.toNat ++ leBytes 4 w.gauge ++ leBytes 4 w.target.toNat
    ++ leBytes 4 (s.count w.basin w.gauge).toNat

/-- The audit's detail (R197). -/
def State.auditDetail (s : State) (c : Nat) (ws : List Wait) : List Byte :=
  let kept := (s.sortWaits ws).take 64
  [BitVec.ofNat 8 c, if ws.length > 64 then 1 else 0] ++ leBytes 2 kept.length ++ leBytes 2 (min ws.length 0xFFFF)
    ++ leBytes 2 0 ++ leBytes 4 s.auditMs ++ leBytes 4 0 ++ kept.flatMap s.auditEntry

/-- The audit record of a context and its fault. -/
def State.auditFault (s : State) (c : Nat) (ws : List Wait) : State :=
  let e : Event := { Event.of .site 0xFFFF 0 clsAudit .none with
    ctx := c, failed := true, detail := s.auditDetail c ws }
  (s.record e 0 8 false false).faultContext c

/-- The audit of the active context: its stalled waits fault it. -/
def State.audit (s : State) : State :=
  let snap := s.waits.map s.snapOf
  let t := match s.active with
    | some c =>
      let ws := s.waits.filter fun (w : Wait) => w.ctx = c && s.stalled w
      if ws.isEmpty then s else s.auditFault c ws
    | none => s
  { t with auditSnap := snap, auditMs := s.auditNext, auditFrom := s.now }

/-- The interval of the next audit is over. -/
def State.auditDue (s : State) : Bool := decide (s.auditFrom + s.auditMs * rootPerMs ≤ s.now)

/-- WAIT_AUDIT (R195–R197). -/
def execWaitAudit (s : State) : Host.Outcome State Fault Refusal :=
  ok (if s.rosogUp ∧ s.flowRuns ∧ s.auditDue then s.audit else s)

/-! ### Hardened registers (R258, R259) -/

/-- A mask register of R252, which is neither hardened nor a log. -/
def Reg.isMask : Reg → Bool
  | .bsnFlipChk _ | .bsnFlipData _ _ => true
  | _ => false

/-- A log of errors (R5, R237, R361). -/
def Reg.isLog : Reg → Bool
  | .errDecodeAddr | .errDecodeSrc | .secViolLog | .bsnEccLog _ => true
  | _ => false

/-- A register of read-only counters (R199, R310, R314). -/
def Reg.countsOnly : Reg → Bool
  | .sphRdCnt _ | .sphWrCnt _ | .clkEventSeq | .ringHead _ | .ringRtail _ => true
  | _ => false

/-- The hardened bits of a register, and those under the parity bit of a counter or log register: its others. -/
def Reg.hardened (r : Reg) : Word64 := if r.isMask then 0 else r.access.rw
def Reg.parityBits (r : Reg) : Word64 :=
  if r.isLog || r.countsOnly || r.access.counter != 0 then ~~~r.hardened else 0

/-- A dissenting copy is rewritten from the majority: the register reads as before. -/
def State.dissent (s : State) (r : Reg) : State :=
  let s := (s.bump .errHardenSt 48 16).putFld .errHardenSt 0 27 (r.offset / 8)
  s.post { Event.of .register (r.basin?.getD 0xFFFF) 0 clsDissent .none with loc := r.offset / 8 }

/-- Upsets of a counter or log register: an odd number is a parity error, which zeroes it, its hardened fields apart; an even
number goes unseen. -/
def State.parityUpset (s : State) (r : Reg) (x : Word64) : State :=
  if (bitsSet x 64).length % 2 = 1 then (s.putReg r (s.reg r &&& ~~~r.parityBits)).bump .errHardenSt 32 16
  else s.putReg r (s.reg r ^^^ x)

/-- Only a turnout that exists has registers; the others' offsets read zero (R433). -/
def Reg.present (r : Reg) (c : SiteConfig) : Bool :=
  match r with
  | .trnArbSt _ t | .trnOtCfg _ t | .trnOtCur _ t => decide (t < c.turnouts)
  | _ => true

/-- HARDEN_CHECK (R258, R259). -/
def execHardenCheck (addr : Addr) (_copy : Nat) (flips : Word64) (s : State) : Host.Outcome State Fault Refusal :=
  if !s.start.released then ok s
  else if addr.toNat < regBase then ok s
  else match Reg.ofOffset s.cfg ((addr.toNat - regBase) / 8 * 8) with
    | none => ok s
    | some r =>
      let p := flips &&& r.parityBits
      let s' := if flips &&& r.hardened = 0 then s else s.dissent r
      ok (if !r.present s.cfg then s else if p = 0 then s' else s'.parityUpset r p)

/-! ### Service time (R269, R314) -/

/-- SERVICE_TIME_PERSIST (R269). -/
def execServiceTimePersist (s : State) : Host.Outcome State Fault Refusal :=
  ok (if s.start.released ∧ !s.controlDown then s.persist else s)

end Sys2Proof.Machine
end

