-- ==== Sys2Proof/Machine/Time.lean ====
section
/-! DEFINITION. What an idle cycle does: the clocks go on (R311, R313), service seconds and reply stalls are counted
(R199, R269), and what waited for time or for the site to drain goes on (R180, R335, R354, R385, R394, R403). -/

namespace Sys2Proof.Machine

/-- A ring whose replies stall counts the cycle; 1,024 of them are a unit of RPL_STALLS (R199, R202). -/
def State.countStall (s : State) (r : Nat) : State :=
  if s.repliesStall r then
    let q := s.ring r
    if q.stall + 1 ≥ 1024 then (s.putRing r { q with stall := 0 }).bump (.ringSt r) 16 16
    else s.putRing r { q with stall := q.stall + 1 }
  else s

/-- The arbiters' part of a cycle: bursts that may go are issued, stalls are counted, the decisions not made yet are made,
the cycle's beats and fills happen and the copiers' writes, latencies are taken, and regulators whose interval ends act. -/
def State.arbitrate (s : State) : State :=
  ((s.issueWaiting.countHeld.decideAll.landBeats.fillRows.copierWrites).settleBeats State.exceeds).regulateAll

/-- The siphons' part of a cycle: their grants, and the flights that wait for one (R297, R301, R302). -/
def State.stackCycle (s : State) : State :=
  let s := s.grantBlocks
  if s.flights.any fun f => f.phase = .awaitStack then s.runReady else s

/-- What a flow cycle does at its end. -/
def State.flowCycle (s : State) : State :=
  if s.flowRuns then (((List.range 9).foldl State.countStall s.arbitrate).compareAll).stackCycle
  else s

/-- A second of service time, whenever the root counter passes a whole second (R269). -/
def State.countSecond (s : State) (before : Nat) : State :=
  if s.start.released ∧ s.now / rootPerS > before / rootPerS then
    { s with cistern := { s.cistern with serviceS := s.cistern.serviceS + 1 } }
  else s

/-- A wake from a sleep state is complete (R320). -/
def State.wakeOn (s : State) : State := if s.wakes then s.wakeDone else s

/-- What waited for time to pass or for the site to drain. -/
def State.goOn (s : State) : State :=
  ((s.wakeOn.scrubOn.marginExpire.detachOn.handoverOn).partialOn).imgVerified.serveWaiting.debugOn.reshadowOn

/-- A packet whose turn has come is taken by Rosog (R219). -/
def State.takeHanded (s : State) : State :=
  { s with handed := s.handed.map fun (h : Handed) =>
      if h.taken.isNone ∧ s.rosogTurn h ∧ s.rosogServes h then { h with taken := some s.now } else h }

/-- At the boundary of two flow cycles the divider is switched, if that is due (R312). -/
def State.boundary (s : State) : State := if s.flowRuns then s.switchDiv else s

/-- One cycle with no command (log entry 2). -/
def State.tick (s : State) : State :=
  (({ s.flowCycle.takeHanded with rode := [], sram := [] }.tickClock).boundary.countSecond s.now).goOn

/-- REGULATOR_INTERVAL_END (R180, R183): the last cycle of the interval ends, the regulator acting after every burst that ends and
every write that falls in it. -/
def execRegulatorIntervalEnd (b : Nat) (s : State) : Host.Outcome State Fault Refusal :=
  ok (if s.flowRuns ∧ s.live b ∧ s.intervalOver b then s.tick else s)

end Sys2Proof.Machine
end

