-- ==== Sys2Proof/Machine/VectorPackets.lean ====
section
/-! DEFINITION. The VXE packets. A packet command is the packet entering its source's fetch buffer and,
where nothing of the source is ahead of it and it can be, its dispatch (`State.arrive`, log entry 3). -/

namespace Sys2Proof.Machine

/-- VECTOR (R121–R129). -/
def execVector (src : Src) (pkt : Packet) (s : State) : Host.Outcome State Fault Refusal :=
  ok (s.arrive src { pkt with opcode := 0x1C })

/-- TOPK (R130, R131). -/
def execTopk (src : Src) (pkt : Packet) (s : State) : Host.Outcome State Fault Refusal :=
  ok (s.arrive src { pkt with opcode := 0x1E })

end Sys2Proof.Machine
end

