-- ==== Sys2Proof/Machine/Dispatch.lean ====
section
/-! DEFINITION. What a command does: one arm per row of the command table, each a call of its own meaning. -/

namespace Sys2Proof.Machine

def exec (i : Instr) (s : State) : Host.Outcome State Fault Refusal :=
  match i with
  | .nop src pkt => Sys2Proof.Machine.execNop src pkt s
  | .fence src pkt => Sys2Proof.Machine.execFence src pkt s
  | .waitGauge src pkt => Sys2Proof.Machine.execWaitGauge src pkt s
  | .setGauge src pkt => Sys2Proof.Machine.execSetGauge src pkt s
  | .addGauge src pkt => Sys2Proof.Machine.execAddGauge src pkt s
  | .runList src pkt => Sys2Proof.Machine.execRunList src pkt s
  | .ret src pkt => Sys2Proof.Machine.execRet src pkt s
  | .move src pkt => Sys2Proof.Machine.execMove src pkt s
  | .load src pkt => Sys2Proof.Machine.execLoad src pkt s
  | .store src pkt => Sys2Proof.Machine.execStore src pkt s
  | .send src pkt => Sys2Proof.Machine.execSend src pkt s
  | .fill src pkt => Sys2Proof.Machine.execFill src pkt s
  | .matmul src pkt => Sys2Proof.Machine.execMatmul src pkt s
  | .matmulAcc src pkt => Sys2Proof.Machine.execMatmulAcc src pkt s
  | .vector src pkt => Sys2Proof.Machine.execVector src pkt s
  | .topk src pkt => Sys2Proof.Machine.execTopk src pkt s
  | .reduceWrite src pkt => Sys2Proof.Machine.execReduceWrite src pkt s
  | .compact src pkt => Sys2Proof.Machine.execCompact src pkt s
  | .expand src pkt => Sys2Proof.Machine.execExpand src pkt s
  | .gatherRows src pkt => Sys2Proof.Machine.execGatherRows src pkt s
  | .zeroMap src pkt => Sys2Proof.Machine.execZeroMap src pkt s
  | .convert src pkt => Sys2Proof.Machine.execConvert src pkt s
  | .tileLock src pkt => Sys2Proof.Machine.execTileLock src pkt s
  | .tileUnlock src pkt => Sys2Proof.Machine.execTileUnlock src pkt s
  | .query src pkt => Sys2Proof.Machine.execQuery src pkt s
  | .statsRead src pkt => Sys2Proof.Machine.execStatsRead src pkt s
  | .ctxCreate src pkt entropyOk => Sys2Proof.Machine.execCtxCreate src pkt entropyOk s
  | .ctxSwitch src pkt => Sys2Proof.Machine.execCtxSwitch src pkt s
  | .ctxDestroy src pkt => Sys2Proof.Machine.execCtxDestroy src pkt s
  | .rightAdmit src pkt => Sys2Proof.Machine.execRightAdmit src pkt s
  | .rightRelease src pkt => Sys2Proof.Machine.execRightRelease src pkt s
  | .modelLoad src pkt keyOk tagsOk body => Sys2Proof.Machine.execModelLoad src pkt keyOk tagsOk body s
  | .powerState src pkt => Sys2Proof.Machine.execPowerState src pkt s
  | .testSchedule src pkt => Sys2Proof.Machine.execTestSchedule src pkt s
  | .faultLogRead src pkt => Sys2Proof.Machine.execFaultLogRead src pkt s
  | .detachPrepare src pkt => Sys2Proof.Machine.execDetachPrepare src pkt s
  | .attachComplete src pkt => Sys2Proof.Machine.execAttachComplete src pkt s
  | .configSet src pkt => Sys2Proof.Machine.execConfigSet src pkt s
  | .spdmMessage src pkt tagOk => Sys2Proof.Machine.execSpdmMessage src pkt tagOk s
  | .keyInstall src pkt tagOk => Sys2Proof.Machine.execKeyInstall src pkt tagOk s
  | .ownerLock src pkt => Sys2Proof.Machine.execOwnerLock src pkt s
  | .weightKeyBind src pkt tagOk => Sys2Proof.Machine.execWeightKeyBind src pkt tagOk s
  | .imgBegin h pkt data keyOk => Sys2Proof.Machine.execImgBegin h pkt data keyOk s
  | .imgData h pkt data => Sys2Proof.Machine.execImgData h pkt data s
  | .imgEnd h pkt data verified => Sys2Proof.Machine.execImgEnd h pkt data verified s
  | .imgAbort h pkt data => Sys2Proof.Machine.execImgAbort h pkt data s
  | .imgActivate h pkt data digestOk windowUs => Sys2Proof.Machine.execImgActivate h pkt data digestOk windowUs s
  | .imgStatus h pkt data => Sys2Proof.Machine.execImgStatus h pkt data s
  | .nonce h pkt data => Sys2Proof.Machine.execNonce h pkt data s
  | .token h pkt data sigOk => Sys2Proof.Machine.execToken h pkt data sigOk s
  | .retest h pkt data => Sys2Proof.Machine.execRetest h pkt data s
  | .partialReset h pkt data imageOk => Sys2Proof.Machine.execPartialReset h pkt data imageOk s
  | .hgDebugRead h payload => Sys2Proof.Machine.execHgDebugRead h payload s
  | .hgDebugWrite h payload => Sys2Proof.Machine.execHgDebugWrite h payload s
  | .hgFetch h => Sys2Proof.Machine.execHgFetch h s
  | .mgtRead addr => Sys2Proof.Machine.execMgtRead addr s
  | .mgtWrite addr data => Sys2Proof.Machine.execMgtWrite addr data s
  | .mgtState arg => Sys2Proof.Machine.execMgtState arg s
  | .mgtNonce => Sys2Proof.Machine.execMgtNonce s
  | .mgtRole hmac => Sys2Proof.Machine.execMgtRole hmac s
  | .alertAck mask => Sys2Proof.Machine.execAlertAck mask s
  | .entdaa won addr => Sys2Proof.Machine.execEntdaa won addr s
  | .setdasa static addr => Sys2Proof.Machine.execSetdasa static addr s
  | .setnewda addr => Sys2Proof.Machine.execSetnewda addr s
  | .rstdaa => Sys2Proof.Machine.execRstdaa s
  | .enec events => Sys2Proof.Machine.execEnec events s
  | .disec events => Sys2Proof.Machine.execDisec events s
  | .getpid => Sys2Proof.Machine.execGetpid s
  | .getbcr => Sys2Proof.Machine.execGetbcr s
  | .getdcr => Sys2Proof.Machine.execGetdcr s
  | .getstatus => Sys2Proof.Machine.execGetstatus s
  | .getmwl => Sys2Proof.Machine.execGetmwl s
  | .getmrl => Sys2Proof.Machine.execGetmrl s
  | .setmwl len => Sys2Proof.Machine.execSetmwl len s
  | .setmrl len => Sys2Proof.Machine.execSetmrl len s
  | .unsupportedCcc code => Sys2Proof.Machine.execUnsupportedCcc code s
  | .mgtBusReset => Sys2Proof.Machine.execMgtBusReset s
  | .mgtAddressMatchWake addr => Sys2Proof.Machine.execMgtAddressMatchWake addr s
  | .getVersion r => Sys2Proof.Machine.execGetVersion r s
  | .getCapabilities r => Sys2Proof.Machine.execGetCapabilities r s
  | .negotiateAlgorithms r supported => Sys2Proof.Machine.execNegotiateAlgorithms r supported s
  | .getDigests r => Sys2Proof.Machine.execGetDigests r s
  | .getCertificate r => Sys2Proof.Machine.execGetCertificate r s
  | .challenge r => Sys2Proof.Machine.execChallenge r s
  | .getMeasurements r => Sys2Proof.Machine.execGetMeasurements r s
  | .keyExchange r entropyOk => Sys2Proof.Machine.execKeyExchange r entropyOk s
  | .finish r verified => Sys2Proof.Machine.execFinish r verified s
  | .endSession r => Sys2Proof.Machine.execEndSession r s
  | .respondIfReady r => Sys2Proof.Machine.execRespondIfReady r s
  | .spdmUnsupportedRequest r code => Sys2Proof.Machine.execSpdmUnsupportedRequest r code s
  | .getTdispVersion r iface => Sys2Proof.Machine.execGetTdispVersion r iface s
  | .getTdispCapabilities r iface => Sys2Proof.Machine.execGetTdispCapabilities r iface s
  | .lockInterfaceRequest r iface noFwUpdate => Sys2Proof.Machine.execLockInterfaceRequest r iface noFwUpdate s
  | .getDeviceInterfaceReport r iface => Sys2Proof.Machine.execGetDeviceInterfaceReport r iface s
  | .getDeviceInterfaceState r iface => Sys2Proof.Machine.execGetDeviceInterfaceState r iface s
  | .startInterfaceRequest r iface => Sys2Proof.Machine.execStartInterfaceRequest r iface s
  | .stopInterfaceRequest r iface => Sys2Proof.Machine.execStopInterfaceRequest r iface s
  | .tdispUnsupportedRequest r iface code => Sys2Proof.Machine.execTdispUnsupportedRequest r iface code s
  | .doorbellWrite who ring tail => Sys2Proof.Machine.execDoorbellWrite who ring tail s
  | .rheadWrite who ring rhead => Sys2Proof.Machine.execRheadWrite who ring rhead s
  | .ringFetch ring => Sys2Proof.Machine.execRingFetch ring s
  | .listFetch b slot => Sys2Proof.Machine.execListFetch b slot s
  | .packetDispatch src => Sys2Proof.Machine.execPacketDispatch src s
  | .acceptedReply => Sys2Proof.Machine.execAcceptedReply s
  | .replyWrite ring => Sys2Proof.Machine.execReplyWrite ring s
  | .windowLoad who addr size => Sys2Proof.Machine.execWindowLoad who addr size s
  | .windowStore who addr size data => Sys2Proof.Machine.execWindowStore who addr size data s
  | .descriptorDefine who b d word data => Sys2Proof.Machine.execDescriptorDefine who b d word data s
  | .gaugeWindowWrite who b g data => Sys2Proof.Machine.execGaugeWindowWrite who b g data s
  | .registerWrite who addr size data => Sys2Proof.Machine.execRegisterWrite who addr size data s
  | .ctlRemapWrite who machineMode data fenceI => Sys2Proof.Machine.execCtlRemapWrite who machineMode data fenceI s
  | .trnLatStRead who b r => Sys2Proof.Machine.execTrnLatStRead who b r s
  | .streamCfgWrite who b e data => Sys2Proof.Machine.execStreamCfgWrite who b e data s
  | .arbCfgWrite who b data => Sys2Proof.Machine.execArbCfgWrite who b data s
  | .regCfgWrite who addr data => Sys2Proof.Machine.execRegCfgWrite who addr data s
  | .flipArm who b data => Sys2Proof.Machine.execFlipArm who b data s
  | .remapInstall who b k e data => Sys2Proof.Machine.execRemapInstall who b k e data s
  | .remapCopy b k e => Sys2Proof.Machine.execRemapCopy b k e s
  | .spareBankStart who b data => Sys2Proof.Machine.execSpareBankStart who b data s
  | .spareCopierRead b n => Sys2Proof.Machine.execSpareCopierRead b n s
  | .spareBankActive b n => Sys2Proof.Machine.execSpareBankActive b n s
  | .scrubCfgWrite who b data => Sys2Proof.Machine.execScrubCfgWrite who b data s
  | .keeperModeWrite who data => Sys2Proof.Machine.execKeeperModeWrite who data s
  | .vreqGrantWrite who data => Sys2Proof.Machine.execVreqGrantWrite who data s
  | .capWrite who data => Sys2Proof.Machine.execCapWrite who data s
  | .fullResWrite who data => Sys2Proof.Machine.execFullResWrite who data s
  | .regionTableWrite who n half data => Sys2Proof.Machine.execRegionTableWrite who n half data s
  | .leveeWrite who b n half data => Sys2Proof.Machine.execLeveeWrite who b n half data s
  | .burstArrival b who kind word n => Sys2Proof.Machine.execBurstArrival b who kind word n s
  | .checkDecision b c => Sys2Proof.Machine.execCheckDecision b c s
  | .parkOnScrubber b k => Sys2Proof.Machine.execParkOnScrubber b k s
  | .scrubRead b what => Sys2Proof.Machine.execScrubRead b what s
  | .holdRetry f => Sys2Proof.Machine.execHoldRetry f s
  | .returnedRequestReissue f => Sys2Proof.Machine.execReturnedRequestReissue f s
  | .tileClose f wrong => Sys2Proof.Machine.execTileClose f wrong s
  | .gaugeIncrement b g => Sys2Proof.Machine.execGaugeIncrement b g s
  | .shadowRestore b => Sys2Proof.Machine.execShadowRestore b s
  | .mxeRepeat f lane up => Sys2Proof.Machine.execMxeRepeat f lane up s
  | .vxeRepeat f vlane => Sys2Proof.Machine.execVxeRepeat f vlane s
  | .screenRepeat f => Sys2Proof.Machine.execScreenRepeat f s
  | .faultEvent => Sys2Proof.Machine.execFaultEvent s
  | .spareSubstitution b furrow slot => Sys2Proof.Machine.execSpareSubstitution b furrow slot s
  | .basinRetireComplete b => Sys2Proof.Machine.execBasinRetireComplete b s
  | .basinRetireImmediate b fillOk => Sys2Proof.Machine.execBasinRetireImmediate b fillOk s
  | .infieldTestDue kind b u => Sys2Proof.Machine.execInfieldTestDue kind b u s
  | .infieldTestStart kind b u => Sys2Proof.Machine.execInfieldTestStart kind b u s
  | .infieldTestEnd kind b u pass us => Sys2Proof.Machine.execInfieldTestEnd kind b u pass us s
  | .testForced b u => Sys2Proof.Machine.execTestForced b u s
  | .regulatorIntervalEnd b => Sys2Proof.Machine.execRegulatorIntervalEnd b s
  | .lockLeaseScan b => Sys2Proof.Machine.execLockLeaseScan b s
  | .waitAudit => Sys2Proof.Machine.execWaitAudit s
  | .hardenCheck addr copy flips => Sys2Proof.Machine.execHardenCheck addr copy flips s
  | .serviceTimePersist => Sys2Proof.Machine.execServiceTimePersist s
  | .siphonRequest n who block write => Sys2Proof.Machine.execSiphonRequest n who block write s
  | .siphonBlockRead n block fail1 fail2 mapLost => Sys2Proof.Machine.execSiphonBlockRead n block fail1 fail2 mapLost s
  | .siphonBlockWrite n block offset data => Sys2Proof.Machine.execSiphonBlockWrite n block offset data s
  | .combinerFlush n page => Sys2Proof.Machine.execCombinerFlush n page s
  | .refreshSlot n temp onDieCorrection fail1 fail2 => Sys2Proof.Machine.execRefreshSlot n temp onDieCorrection fail1 fail2 s
  | .linkCalibration n weak margin => Sys2Proof.Machine.execLinkCalibration n weak margin s
  | .siphonOutOfService n => Sys2Proof.Machine.execSiphonOutOfService n s
  | .culvertArrival c m rec tagOk => Sys2Proof.Machine.execCulvertArrival c m rec tagOk s
  | .culvertResponse c xtag status => Sys2Proof.Machine.execCulvertResponse c xtag status s
  | .flitReplay c => Sys2Proof.Machine.execFlitReplay c s
  | .culvertLaneFail c outbound => Sys2Proof.Machine.execCulvertLaneFail c outbound s
  | .culvertTrained c ok => Sys2Proof.Machine.execCulvertTrained c ok s
  | .fenceReqAssert => Sys2Proof.Machine.execFenceReqAssert s
  | .fenceReqDeassert => Sys2Proof.Machine.execFenceReqDeassert s
  | .fenceComplete => Sys2Proof.Machine.execFenceComplete s
  | .fenceTimeout => Sys2Proof.Machine.execFenceTimeout s
  | .powerGoodRise => Sys2Proof.Machine.execPowerGoodRise s
  | .powerGoodFall => Sys2Proof.Machine.execPowerGoodFall s
  | .devResetAssert => Sys2Proof.Machine.execDevResetAssert s
  | .devResetDeassert => Sys2Proof.Machine.execDevResetDeassert s
  | .startStep r => Sys2Proof.Machine.execStartStep r s
  | .release ms => Sys2Proof.Machine.execRelease ms s
  | .startStepTimeout => Sys2Proof.Machine.execStartStepTimeout s
  | .clockLoss => Sys2Proof.Machine.execClockLoss s
  | .clockRestart => Sys2Proof.Machine.execClockRestart s
  | .keeperBrownOut => Sys2Proof.Machine.execKeeperBrownOut s
  | .keeperReady => Sys2Proof.Machine.execKeeperReady s
  | .thermalTrip => Sys2Proof.Machine.execThermalTrip s
  | .thermalTripRelease => Sys2Proof.Machine.execThermalTripRelease s
  | .powerSample r => Sys2Proof.Machine.execPowerSample r s
  | .powerMsUpdate predicted => Sys2Proof.Machine.execPowerMsUpdate predicted s
  | .supplySettled => Sys2Proof.Machine.execSupplySettled s
  | .vreqTimeout => Sys2Proof.Machine.execVreqTimeout s
  | .canaryCheck errors => Sys2Proof.Machine.execCanaryCheck errors s
  | .marginStep => Sys2Proof.Machine.execMarginStep s
  | .drainTimeout code => Sys2Proof.Machine.execDrainTimeout code s
  | .entryCommit => Sys2Proof.Machine.execEntryCommit s
  | .entryAbort w => Sys2Proof.Machine.execEntryAbort w s
  | .sleepWake w => Sys2Proof.Machine.execSleepWake w s
  | .trickleSample r => Sys2Proof.Machine.execTrickleSample r s
  | .controlWatchdog imageOk => Sys2Proof.Machine.execControlWatchdog imageOk s
  | .handoverPointTimeout => Sys2Proof.Machine.execHandoverPointTimeout s
  | .handoverWatchdog imageOk => Sys2Proof.Machine.execHandoverWatchdog imageOk s
  | .bootSlotCopyDone verified => Sys2Proof.Machine.execBootSlotCopyDone verified s
  | .jtagIdcode => Sys2Proof.Machine.execJtagIdcode s
  | .jtagBypass tdi => Sys2Proof.Machine.execJtagBypass tdi s
  | .jtagSamplePreload bits => Sys2Proof.Machine.execJtagSamplePreload bits s
  | .jtagExtest bits => Sys2Proof.Machine.execJtagExtest bits s
  | .jtagIeee1687Access write bits => Sys2Proof.Machine.execJtagIeee1687Access write bits s
  | .tapReset => Sys2Proof.Machine.execTapReset s
  | .tileReadEnd f => Sys2Proof.Machine.execTileReadEnd f s
  | .culvertCreditReceived c flits => Sys2Proof.Machine.execCulvertCreditReceived c flits s
  | .siphonLinkReplay n => Sys2Proof.Machine.execSiphonLinkReplay n s
  | .supplyOutOfTolerance out => Sys2Proof.Machine.execSupplyOutOfTolerance out s

end Sys2Proof.Machine
end

