-- ==== Sys2Proof/Machine/Ciphers.lean ====
section
/-! DEFINITION. What the stacks hold of a line and of a block (R298): AES-256 (FIPS 197), XTS, and the MAC of a block by
AES-256-CMAC (NIST SP 800-38B), under the keys loaded in the siphon's key slots. `State.stack` keeps each line in the clear; these
say how it stands in the stack. The key material is left open (`Config.free`, purposes 82 to 84). -/

namespace Sys2Proof.Machine

/-! ### AES-256 -/

/-- Multiplication by x in GF(2^8). -/
def xtime (a : Byte) : Byte := (a <<< 1) ^^^ (if a.getLsbD 7 then 0x1B else 0)

/-- Multiplication in GF(2^8). -/
def gmul (a b : Byte) : Byte :=
  ((List.range 8).foldl (fun (x : Byte × Byte) i => (if b.getLsbD i then x.1 ^^^ x.2 else x.1, xtime x.2)) (0, a)).1

/-- The inverse in GF(2^8), 0 for 0: a to the power 254. -/
def ginv (a : Byte) : Byte := (List.range 6).foldl (fun (x : Byte) _ => gmul (gmul x x) a) a |> fun x => gmul x x

/-- The S-box. -/
def sbox (a : Byte) : Byte :=
  let b := ginv a
  b ^^^ b.rotateLeft 1 ^^^ b.rotateLeft 2 ^^^ b.rotateLeft 3 ^^^ b.rotateLeft 4 ^^^ 0x63

def xorBytes (x y : List Byte) : List Byte := List.zipWith (· ^^^ ·) x y

/-- The sixty words of the key schedule of a 32-byte key. -/
def keyWords (key : List Byte) : List (List Byte) :=
  ((List.range 52).foldl (fun (a : List (List Byte) × Byte) i =>
    let t := a.1.getLastD []
    let t' := if i % 8 = 0 then xorBytes ((t.drop 1 ++ t.take 1).map sbox) [a.2, 0, 0, 0]
      else if i % 8 = 4 then t.map sbox else t
    (a.1 ++ [xorBytes (a.1.getD i []) t'], if i % 8 = 0 then xtime a.2 else a.2))
    ((List.range 8).map fun i => (key.drop (4 * i)).take 4, 1)).1

def shiftRows (x : List Byte) : List Byte :=
  (List.range 16).map fun i => x.getD ((i / 4 + i % 4) % 4 * 4 + i % 4) 0

def mixColumns (x : List Byte) : List Byte :=
  (List.range 16).map fun i =>
    let c := fun (k : Nat) => x.getD (i / 4 * 4 + (i + k) % 4) 0
    xtime (c 0) ^^^ xtime (c 1) ^^^ c 1 ^^^ c 2 ^^^ c 3

/-- AES-256 of a 16-byte block. -/
def aes256 (key block : List Byte) : List Byte :=
  let ws := keyWords key
  let rk := fun (r : Nat) => ((ws.drop (4 * r)).take 4).flatten
  let x := (List.range 13).foldl (fun (x : List Byte) r =>
    xorBytes (mixColumns (shiftRows (x.map sbox))) (rk (r + 1))) (xorBytes block (rk 0))
  xorBytes (shiftRows (x.map sbox)) (rk 14)

/-! ### XTS and CMAC -/

/-- A tweak multiplied by x: its 128 bits little-endian. -/
def nextTweak (t : List Byte) : List Byte :=
  let n := leNat t
  leBytes 16 (Nat.xor (n * 2 % 2 ^ 128) (if n ≥ 2 ^ 127 then 0x87 else 0))

/-- AES-256-XTS of whole 16-byte blocks, from a tweak already encrypted. -/
def xtsBlocks (key : List Byte) : List Byte → List (List Byte) → List Byte
  | _, [] => []
  | t, p :: ps => xorBytes (aes256 key (xorBytes p t)) t ++ xtsBlocks key (nextTweak t) ps

/-- A CMAC subkey: its 128 bits big-endian. -/
def cmacKey (x : List Byte) : List Byte := (nextTweak x.reverse).reverse

/-- AES-256-CMAC of `n` whole 16-byte blocks and a part of one. -/
def cmac (key m : List Byte) : List Byte :=
  let n := m.length / 16
  let k2 := cmacKey (cmacKey (aes256 key (List.replicate 16 0)))
  let x := (List.range n).foldl (fun (x : List Byte) i => aes256 key (xorBytes x ((m.drop (16 * i)).take 16)))
    (List.replicate 16 0)
  let last := m.drop (16 * n) ++ [0x80]
  aes256 key (xorBytes (xorBytes x (last ++ List.replicate (16 - last.length) 0)) k2)

/-! ### Lines and blocks as the stacks hold them (R298) -/

/-- A 32-byte key of a generation and context: the two of the XTS pair and the CMAC key, by purpose. -/
def stackKey (purpose keyId : Nat) : List Byte :=
  (List.range 4).flatMap fun i => leBytes 8 (Config.free purpose (keyId * 4 + i)).toNat

/-- The place of a physical offset of a siphon: the tweak of a line, the end of a block's MAC input. -/
def placeOfLine (sph phys : Nat) : Nat := sph * 2 ^ 32 + phys

/-- Line `j` of a block as the stack holds it: encrypted under the key its siphon's slot holds, at its own place. -/
def State.storedLine (s : State) (sph block j : Nat) : List Byte :=
  let k := s.blockKeyId sph block
  let clear := ((s.blockBytes sph block).drop (64 * j)).take 64
  let t := aes256 (stackKey 83 k) (leBytes 16 (placeOfLine sph (block * 256 + 64 * j)))
  xtsBlocks (stackKey 82 k) t ((List.range 4).map fun i => (clear.drop (16 * i)).take 16)

/-- A block's MAC: the leftmost 64 bits over its ciphertext and its place. -/
def State.blockMac (s : State) (sph block : Nat) : List Byte :=
  (cmac (stackKey 84 (s.blockKeyId sph block))
    ((List.range 4).flatMap (s.storedLine sph block) ++ leBytes 8 (placeOfLine sph (block * 256)))).take 8

end Sys2Proof.Machine
end

