-- ==== Sys2Proof/Machine/Pins.lean ====
section
/-! DEFINITION. The levels of the site's outputs (R410, R411) outside EXTEST, as functions of the state: `none` is a pin that is not
driven, an open-drain output released, or a tri-state output at high impedance. -/

namespace Sys2Proof.Machine

/-- An open-drain output: low while asserted in a powered site, else released. -/
def State.openDrain (s : State) (asserted : Bool) : Option Bool :=
  if s.start.pwrGood && asserted then some false else none

/-- `MGT_ALERT_N`: asserted while any cause is pending (R426). -/
def State.mgtAlertN (s : State) : Option Bool := s.openDrain (s.reg .devMgtAlert ≠ 0)

/-- `HG_ATTN_N`: low while any response is queued (R393). -/
def State.hgAttnN (s : State) : Option Bool := s.openDrain !s.hg.queue.isEmpty

/-- `THERM_TRIP_N`: follows the thermal trip, but is released in `DRY` (R411, R430). -/
def State.thermTripN (s : State) : Option Bool := s.openDrain (s.start.thermTrip && s.site ≠ stDry)

/-- `DEV_FENCE_ACK`: driven from step 1 on (R351, R410). -/
def State.fenceAckPin (s : State) : Option Bool := if s.start.pwrGood then some s.start.fenceAck else none

/-- Bits of bytes as the headgate sends them, least significant first (R391). -/
def bitsOf (bs : List Byte) : List Bool := bs.flatMap fun b => (List.range 8).map fun i => bit b i

/-- `HG_DO` over the clocks after the request CRC of a fetch: the response frame; at any other clock it is low (R392, R410). -/
def State.hgDo (s : State) (clock : Nat) : Bool := (bitsOf s.hg.out.frame).getD clock false

/-- `TDO` over the clocks of a data scan; high impedance at any other clock (R410, R431). -/
def State.tdo (s : State) (clock : Nat) : Option Bool := s.tap.out[clock]?

end Sys2Proof.Machine
end

