-- ==== Sys2Proof/Safety.lean ====
section
/-! DEFINITION. The terms statements use: states in which nothing but the command itself acts, and runs that never stop. -/

namespace Sys2Proof.Machine

/-- `k` steps from `s` all answer a next state, the last of them `t`. -/
def runs : Nat → State → Option State
  | 0, s => some s
  | k + 1, s => match step s with
    | .next t => runs k t
    | _ => none

/-- A run of `k` steps neither faults nor is refused. -/
def SafeFor (k : Nat) (s : State) : Prop := (runs k s).isSome

/-- The site is powered and in no sleep state, nor on its way to one: an access wakes nothing (R322, R411). -/
def State.Awake (s : State) : Prop :=
  s.start.pwrGood = true ∧ (s.site = stFlow ∨ s.site = stFallow ∨ s.site = stDetaching ∨ s.site = stAttaching)

/-- No packet at work is ready to go on, or waits for a unit, a write path or a siphon: each waits at a gate, for a word, for a
comparison or for a response. -/
def State.AtRest (s : State) : Prop := ∀ f ∈ s.flights, f.phase ≠ .run ∧ f.waiting = false

/-- No physical memory protection entry bars the control core from an address (R13). -/
def State.CoreFree (s : State) : Prop := ∀ k a n, s.core.permits k a n = true

/-- The site is awake and at rest, and its core may access what it reaches: a register access has its own effect alone. -/
def State.Quiet (s : State) : Prop := s.Awake ∧ s.AtRest ∧ s.CoreFree

/-- An access of `n` bytes by `who` meets register `r`: `r` is built, and the requester reaches it (R433, R434). -/
def State.Meets (s : State) (who : Requester) (r : Reg) (n : Nat) (write : Bool) : Prop :=
  s.placeOf r.addr.toNat n = .reg r 0 ∧ s.reaches who (.reg r 0) n write = true

/-- `t` is `s` with register `r` at `v`: no other register, and no memory, descriptor or gauge, has changed. -/
def State.OnlyReg (s t : State) (r : Reg) (v : Word64) : Prop :=
  t.reg r = v ∧ (∀ r', r' ≠ r → t.reg r' = s.reg r') ∧ t.mem = s.mem ∧ t.memChk = s.memChk ∧ t.desc = s.desc ∧
    t.gauge = s.gauge ∧ t.stack = s.stack ∧ t.ctxs = s.ctxs ∧ t.rings = s.rings ∧ t.cistern = s.cistern

/-- An access of `n` bytes at a site address: any but those at the core's own addresses (R28); the core's is aligned (R13). -/
def OnSite (who : Requester) (a n : Nat) : Prop :=
  who ≠ .coreLocal ∧ who ≠ .coreFetch ∧ who ≠ .coreAtomic ∧ (who = .core → a < 2 ^ 48 ∧ a % n = 0)

/-- The outcome of a store-conditional: with its condition met the core is as stored and `loadOut` is 0; else nothing is stored and
`loadOut` is 1. The reservation is over (R13). -/
def State.StoresIf (s : State) (o : Host.Outcome State Fault Refusal) (met : Prop) (stored : CtlCore) : Prop :=
  (met → o = .next { s with core := { stored with reserved := none }, loadOut := 0 }) ∧
    (¬ met → o = .next { s with core := { s.core with reserved := none }, loadOut := 1 })

/-- From `s` to `t` a burst has been sent, queued or granted, or has moved its data: beats, queues and what the arbiters count are all
that has changed (R158–R165). -/
def State.OnlyBursts (s t : State) : Prop :=
  { t with beats := s.beats, arbs := s.arbs, turnWait := s.turnWait, regs := s.regs, fresh := s.fresh } = s ∧
    ∀ r, (∀ b k, r ≠ .trnArbSt b k) → t.reg r = s.reg r

/-- In a site that is awake an access is performed now, in `u`: it has its beat, or its turn at its siphon, where it needs one; and no
memory protection bars the core (R13, R56, R169, R301). -/
def State.Performs (s : State) (who : Requester) (a n : Nat) (write : Bool) (u : State) : Prop :=
  s.Awake ∧ s.accessReady who a n write = (u, true) ∧ u.Awake ∧ u.CoreFree

/-- From `s` to `t` an access that is not performed now has changed nothing but bursts; the headgate's has taken its bank (R169). -/
def State.Waits (s t : State) (who : Requester) : Prop := who ≠ .headgate → s.OnlyBursts t

/-- From `s` to `t` an access of `who` to an address that nothing populates has been counted and, where VALID was clear, recorded;
nothing else has changed, and no time has passed (R24, R27). -/
def State.DecodeErrorTo (s t : State) (who : Requester) (a : Word64) (write : Bool) : Prop :=
  t.rfld .errDecodeCnt 0 32 = min (s.rfld .errDecodeCnt 0 32 + 1) (2 ^ 32 - 1) ∧
    (bit (s.reg .errDecodeAddr) 63 = false → bit (t.reg .errDecodeAddr) 63 = true ∧
      t.rfld .errDecodeAddr 0 48 = a.toNat ∧ t.reg .errDecodeSrc =
        BitVec.ofNat 64 (write.toNat * 2 ^ 32 + who.decodeSource * 2 ^ 16 + 0xFF * 2 ^ 8)) ∧
    (bit (s.reg .errDecodeAddr) 63 = true → t.reg .errDecodeAddr = s.reg .errDecodeAddr ∧
      t.reg .errDecodeSrc = s.reg .errDecodeSrc) ∧
    (∀ r, r ≠ .errDecodeCnt → r ≠ .errDecodeAddr → r ≠ .errDecodeSrc → t.reg r = s.reg r) ∧
    t.mem = s.mem ∧ t.memChk = s.memChk ∧ t.desc = s.desc ∧ t.gauge = s.gauge ∧ t.stack = s.stack ∧ t.cycle = s.cycle

/-- A register after a whole store of `v` by the core: its RW fields are `v`'s, every other bit stays (R435). -/
def State.stored (s : State) (r : Reg) (v : Word64) : Word64 := (s.reg r &&& ~~~r.access.rw) ||| (v &&& r.access.rw)

/-- The physical word that holds word `w` of basin `b` (R34, R35, R255, R256). -/
def State.wordAt (s : State) (b w : Nat) : Nat :=
  s.cfg.wordNo b (s.physBank b (s.bankRow b w).1)
    (s.physRow b (s.physBank b (s.bankRow b w).1) (s.bankRow b w).2)

/-- Nothing but the word itself is touched when it is read or written: its code is clean, its bank is not being copied, and no flip
is armed (R231, R252, R256). -/
def State.Plain (s : State) (b w : Nat) : Prop :=
  nget s.memChk 0 (s.wordAt b w) = 0 ∧ s.copyingTo b (s.bankRow b w).1 = none ∧ bit (s.reg (.bsnFlipCfg b)) 63 = false

/-- From `v` to `t` the reply `rp` of ring `k` has been written (R202, R205): its 32 bytes stand in the slot that RTAIL selected, no
other byte of memory has changed, and RTAIL has advanced. -/
def State.ReplyLands (v t : State) (k : Nat) (rp : Reply) : Prop :=
  t.rfld (.ringRtail k) 0 32 = (v.rfld (.ringRtail k) 0 32 + 1) % 2 ^ 32 ∧
    ∀ b off at0, b = v.rfld (.ringCmd k) 48 8 →
      off = v.rfld (.ringRpl k) 0 18 * 256 + v.rfld (.ringRtail k) 0 32 % v.rplEntries k * 32 → v.Plain b (off / 64) →
      at0 = v.wordAt b (off / 64) * 64 + off % 64 →
      (∀ i, i < 32 → nget t.mem 0 (at0 + i) = (({ rp with cycles := v.cyclesFor k rp.cycles } : Reply).bytes
        (decide (v.rfld (.ringRtail k) 0 32 / v.rplEntries k % 2 = 0))).getD i 0) ∧
      (∀ j, ¬ (at0 ≤ j ∧ j < at0 + 32) → nget t.mem 0 j = nget v.mem 0 j) ∧ t.desc = v.desc ∧ t.gauge = v.gauge

/-- From `v` to `t` the bytes `bs` have been written from byte `off` of basin `b` on, and no other byte of memory has changed; the words
they lie in hold no error, and no two of them lie in one place (R34, R56). -/
def State.BytesLand (v t : State) (b off : Nat) (bs : List Byte) : Prop :=
  (∀ i j, i < bs.length → j < bs.length → v.Plain b ((off + i) / 64) ∧
    (v.wordAt b ((off + i) / 64) = v.wordAt b ((off + j) / 64) → (off + i) / 64 = (off + j) / 64)) →
  (∀ i, i < bs.length → nget t.mem 0 (v.wordAt b ((off + i) / 64) * 64 + (off + i) % 64) = bs.getD i 0) ∧
    ∀ k, (∀ i, i < bs.length → k ≠ v.wordAt b ((off + i) / 64) * 64 + (off + i) % 64) →
      nget t.mem 0 k = nget v.mem 0 k

/-- The 64 bytes of word `w` of basin `b` (R34, R56). -/
def State.bytesOf (s : State) (b w : Nat) : List Byte := (List.range 64).map fun i => nget s.mem 0 (s.wordAt b w * 64 + i)

/-- The numbers of a register name something the configuration has (R433). -/
def Reg.Built (cfg : SiteConfig) (r : Reg) : Prop :=
  match r with
  | .ringCmd k | .ringRpl k | .ringDb k | .ringHead k | .ringRtail k | .ringRhead k | .ringSt k | .ringPwr k => k < 9
  | .pwrBasinSt b => b < cfg.basins
  | .secCtxSt c => c < 8
  | .culSt c | .culCfg c | .culE1St c => c < 4
  | .sphSt i | .sphCfg i | .sphRdCnt i | .sphWrCnt i | .sphIntSt i | .sphPatrol i | .sphLinkSt i | .sphQst i =>
    i < cfg.siphons
  | .sphRgnA n | .sphRgnB n => 0 < cfg.siphons ∧ n < 64
  | .bsnBankCfg b | .bsnTileCfg b | .bsnTileSt b | .bsnFmtSt b | .bsnArbCfg b | .bsnArbSt b | .bsnEccSt b
  | .bsnEccLog b | .bsnScrubCfg b | .bsnScrubLap b | .bsnScrubSt b | .bsnChkSt b | .bsnSpareMap b | .bsnFlipCfg b
  | .bsnFlipChk b | .trnQosMap b | .trnRegCfg b => b < cfg.basins
  | .bsnFlipData b i => b < cfg.basins ∧ i < 8
  | .bsnBankCorr b k => b < cfg.basins ∧ k < cfg.physBanks
  | .bsnRemap b k e => b < cfg.basins ∧ k < cfg.physBanks ∧ e < 4
  | .bsnLeveeA b n | .bsnLeveeB b n => b < cfg.basins ∧ n < 32
  | .trnArbSt b t | .trnOtCfg b t | .trnOtCur b t => b < cfg.basins ∧ t < 47
  | .trnLatCfg b r | .trnLatSt b r => b < cfg.basins ∧ r < 16
  | .trnStreamCfg b e | .trnStreamSt b e => b < cfg.basins ∧ e < 256
  | .mxeSt b u | .mxeCnt b u | .mxeSkip b u | .mxePred b u | .mxePredMap b u =>
    b < cfg.basins ∧ u < cfg.activeMxe + cfg.spareMxe
  | .vxeSt b v | .vxeCnt b v => b < cfg.basins ∧ v < 16
  | .sxeSt b x | .sxeCnt b x | .flmSt b x | .flmCnt b x => b < cfg.basins ∧ x < 4
  | _ => True

/-- The responder takes `r` now, whatever its version: after release, no transition or scrub under way, and the message plain or
authentic in a session of its ring (R368, R382, R386). -/
def State.Hears (s : State) (r : SpdmReq) : Prop :=
  s.start.released = true ∧ s.notReadyNow = false ∧ s.scrubbing = false ∧
    (r.session = 0 ∨ ∃ x, s.session? r.session.toNat = some x ∧ x.ring = r.ring ∧ r.tagOk = true)

/-- The responder takes `r` now, and its version is 1.2 or 1.3 (R380). -/
def State.Listens (s : State) (r : SpdmReq) : Prop := s.Hears r ∧ (r.version = 0x12 ∨ r.version = 0x13)

/-- A TDISP request in a finished, attested session of ring 8 to the interface of a resident context (R383). -/
def State.ListensTdisp (s : State) (r : SpdmReq) (c : Nat) : Prop :=
  s.Listens r ∧ s.tdispSession r = true ∧ c < 8 ∧ s.resident c = true

/-! ### Idle cycles and scrubs -/

/-- Nothing waits for time to pass or for the site to drain, and Rosog has nothing in hand. -/
def State.NothingDue (s : State) : Prop :=
  s.handed = [] ∧ s.rings = [] ∧ s.scrubs = [] ∧ s.reshadows = [] ∧ s.detach = none ∧ s.handover = none ∧
    s.controlDown = false ∧ s.power.lowClearAt = none ∧ s.hg.waiting = [] ∧ s.hg.ending = none ∧ s.hg.waitingDebug = [] ∧
    s.hg.unlock = none ∧ s.wakes = false

/-- A scrub may begin now: none runs, no divider change is in progress, and the site is in `FLOW` or detaching (R312, R368). -/
def State.MayScrub (s : State) : Prop :=
  s.scrubs = [] ∧ s.power.divTo = none ∧ (s.site = stFlow ∨ s.site = stDetaching)

/-- Every check of basin `b` has a fill of `n` cycles before it that covers `areas` (R168). -/
def State.FillAhead (s t : State) (b n : Nat) (areas : List (Nat × Nat)) : Prop :=
  ∀ k, k < s.cfg.checks → ⟨b, k, s.cycle + 2, s.cycle + 2 + n, areas, 0⟩ ∈ t.fillRes

/-- The scrub of context `c`, asked for in `s`, is in its first cycle in `t` (R369): STATE reads 8, no levee entry of the context is
left, and in every live basin every check begins a fill of rows + 1 cycles that covers the context's regions. -/
def State.ScrubBegun (s t : State) (c : Nat) (what : ScrubFor) : Prop :=
  t.site = stScrub ∧ (∀ b ∈ t.liveBasins, ∀ l ∈ t.levees b, l.ctx ≠ c) ∧ ∃ es,
    t.scrubs = [⟨c, what, some (s.cycle, s.now, s.site), es⟩] ∧
    ∀ b ∈ s.liveBasins,
      s.FillAhead t b (s.cfg.rows + 1) (leveeAreas es b) ∧
      ∀ l ∈ s.levees b, l.ctx = c → l.kind ≠ 2 →
        ∃ a ∈ leveeAreas es b, a.1 ≤ l.base * 4 ∧ (l.base + l.len) * 4 ≤ a.2

/-- The scrub `x`, alone, ends in this cycle: it began in cycle `c0` of a site whose STATE was `was`, and T_SCRUB has passed (R369).
`unlock` is the token that waits for it (R372). -/
def State.ScrubEnds (s : State) (x : ScrubRun) (c0 was : Nat) (unlock : Option HgFrame) : Prop :=
  s.scrubs = [x] ∧ (∃ r0, x.began = some (c0, r0, was)) ∧ (was = stFlow ∨ was = stDetaching) ∧ s.site = stScrub ∧
    s.cycle = c0 + s.tScrub ∧ s.hg.unlock = unlock ∧ s.power.divWait = none ∧ s.flights = [] ∧
    ∀ c, c < 4 → (s.culvert c).exchanges = []

/-- `n` cycles in which fills alone happen (R168). -/
def State.fillCycles : Nat → State → State
  | 0, s => s
  | n + 1, s => fillCycles n { s.fillRows with cycle := s.cycle + 1 }

/-! ### Packets -/

/-- It is the turn of `src` in its ditch rider's round of this cycle (R209). -/
def State.Turn (s : State) (src : Src) : Prop :=
  s.rode.contains (s.basinOf src) = false ∧ s.nextSource (s.basinOf src) = some src

/-- Gauge `g` of basin `b` alone has changed, from `s` to `t` (R52). -/
def State.OnlyGauge (s t : State) (b g : Nat) : Prop :=
  ∀ b' g', g' < 4096 → (b' ≠ b ∨ g' ≠ g) → t.count b' g' = s.count b' g' ∧ t.gctx b' g' = s.gctx b' g'

/-- No list is ending. -/
def State.ListsRun (s : State) : Prop := ∀ l ∈ s.lists, l.ending = none

/-- The state with packet `p` just fetched from `src` (R201, R211). -/
def State.fetched (s : State) (src : Src) (p : Packet) : State :=
  match src with
  | .ring r => s.ringTake r p false
  | .list b k => match s.list? b k with | some l => s.listTake l p none | none => s
  | .headgate => s

/-- `src` takes packet `p` with nothing ahead of it and can dispatch it, in `t`, as `fe`; it passes the checks common to all packets
(R201, R207, R209, R211). -/
def State.Offers (s : State) (src : Src) (p : Packet) (t : State) (fe : Fetched) : Prop :=
  s.buffered src = 0 ∧
    (match src with
      | .ring r => s.ringFetchable r = true
      | .list b k => (s.list? b k).any s.listFetchable = true
      | .headgate => False) ∧
    t = s.fetched src p ∧ t.head? src = some fe ∧ fe.pkt = p ∧ t.commonCheck src fe = none ∧
    t.ListsRun ∧ t.AtRest

/-- It passes those of its opcode too. -/
def State.Takes (s : State) (src : Src) (p : Packet) (t : State) (fe : Fetched) : Prop :=
  s.Offers src p t fe ∧ (p.op < 0x40 → t.streamCheck src p = none)

/-- A reply to packet `p` with status `st`, to which alerts may be added, and first result word `w0` (R205, R228). -/
def Reply.Answers (rp : Reply) (p : Packet) (st : Status) (w0 : BitVec 32) (fromList : Bool) : Prop :=
  rp.opcode = p.opcode ∧ rp.seq = p.seq ∧ rp.tag = p.tag ∧ rp.fromList = fromList ∧ rp.w0 = w0 ∧
    (rp.status = st ∨ st = .ok ∧ rp.status = .okAlert)

/-- From `t` to `u`, packet `p` of `src` has completed with `st`: a ring has one more reply to write; a list counts it, and
replies where the status is not OK or the packet asks for it (R202, R213, R215). -/
def State.Completed (t u : State) (src : Src) (p : Packet) (st : Status) (w0 : BitVec 32) : Prop :=
  match src with
  | .ring k => ∃ rp, (u.ring k).waiting = (t.ring k).waiting ++ [rp] ∧ rp.Answers p st w0 false
  | .list b k => ∃ l l', t.list? b k = some l ∧ u.list? b k = some l' ∧ l'.completed = l.completed + 1 ∧
      (st ≠ .ok ∨ p.replyFlag = true →
        ∃ rp, (u.ring l.ctx).unreserved = (t.ring l.ctx).unreserved ++ [rp] ∧ rp.Answers p st w0 true)
  | .headgate => False

/-- Packet `p` of `src` stands before Rosog as `h`, in `t`: handed over before, or on its arrival; it is Rosog's turn for it, and the
site, if it is attaching, takes it (R219, R340). -/
def State.Serves (s : State) (src : Src) (p : Packet) (t : State) (h : Handed) : Prop :=
  t = (if (s.handed? src p).isSome then s else s.arrive src p) ∧ t.handed? src p = some h ∧ t.rosogServes h = true ∧
    t.rosogTurn h = true ∧ (t.site = stAttaching → takenAttaching h = true) ∧ t.ListsRun ∧
    match src with
    | .ring _ => True
    | .list b k => (t.list? b k).isSome = true ∧ t.spawnOf src = h.spawn
    | .headgate => False

/-- From `t` to `u` Rosog has completed `h` with OK and four result words; a list shows them only in a reply it asked for (R205,
R215, R219). -/
def State.Served (t u : State) (h : Handed) (w0 w1 w2 w3 : Nat) : Prop :=
  h ∉ u.handed ∧
    match h.src with
    | .ring k => ∃ rp, (u.ring k).waiting = (t.ring k).waiting ++ [rp] ∧
        rp.Answers h.pkt .ok (BitVec.ofNat 32 w0) false ∧ rp.w1 = BitVec.ofNat 32 w1 ∧ rp.w2 = BitVec.ofNat 32 w2 ∧
        rp.w3 = BitVec.ofNat 32 w3
    | src => t.Completed u src h.pkt .ok (BitVec.ofNat 32 w0)

/-- Nothing stored has changed: memory, descriptors, gauges, stack. -/
def State.SameStores (s t : State) : Prop :=
  t.mem = s.mem ∧ t.memChk = s.memChk ∧ t.desc = s.desc ∧ t.gauge = s.gauge ∧ t.stack = s.stack

/-- The increment a packet's completion makes due (R53, R208). -/
def dueOf (b : Nat) (p : Packet) : List DueInc := if p.inc = 0 then [] else [⟨b, p.gauge, p.inc.toNat⟩]

/-- The packets engines run that begin with the read of a tile, as their sources give them. -/
def readingPacket : Instr → Option (Src × Packet)
  | .move src p => some (src, { p with opcode := 0x10 })
  | .store src p => some (src, { p with opcode := 0x12 })
  | .send src p => some (src, { p with opcode := 0x13 })
  | .matmul src p => some (src, { p with opcode := 0x18 })
  | .matmulAcc src p => some (src, { p with opcode := 0x19 })
  | .vector src p => some (src, { p with opcode := 0x1C })
  | .reduceWrite src p => some (src, { p with opcode := 0x1D })
  | .topk src p => some (src, { p with opcode := 0x1E })
  | .compact src p => some (src, { p with opcode := 0x20 })
  | .expand src p => some (src, { p with opcode := 0x21 })
  | .gatherRows src p => some (src, { p with opcode := 0x22 })
  | .zeroMap src p => some (src, { p with opcode := 0x23 })
  | .convert src p => some (src, { p with opcode := 0x24 })
  | _ => none

/-- A write of `len` bytes by `c` finds its tile free (R46, R236). -/
def State.WriteFree (s : State) (c : Caller) (b d len : Nat) : Prop :=
  s.descBad b d = false ∧ dBound (s.descOf b d) = false ∧ len ≤ dExtentLen (s.descOf b d) * 256 ∧
    s.lockedByOther b d c = false ∧ dWriteWait (s.descOf b d) = false ∧ dOpen (s.descOf b d) = false ∧
    dReaders (s.descOf b d) = 0

/-- No packet waits at a tile's gate. -/
def State.NoneAt (s : State) (b d : Nat) : Prop := ∀ f ∈ s.flights, f.atTile ≠ some (b, d)

/-- Every packet at work has a number below the next one. -/
def State.Numbered (s : State) : Prop := ∀ f ∈ s.flights, f.id < s.nextFlight

/-! ### The headgate -/

/-- A frame's type, header, payload and whether its payload is in form; fetches apart (R392). -/
def frameOf : Instr → Option (Byte × HgHdr × List Byte × Bool)
  | .imgBegin h p d _ => some (0x01, h, { p with opcode := 0xC0 }.bytes ++ d, decide (d.length ≤ 8192))
  | .imgData h p d => some (0x01, h, { p with opcode := 0xC1 }.bytes ++ d, decide (d.length ≤ 8192))
  | .imgEnd h p d _ => some (0x01, h, { p with opcode := 0xC2 }.bytes ++ d, decide (d.length ≤ 8192))
  | .imgAbort h p d => some (0x01, h, { p with opcode := 0xC3 }.bytes ++ d, decide (d.length ≤ 8192))
  | .imgActivate h p d _ _ => some (0x01, h, { p with opcode := 0xC4 }.bytes ++ d, decide (d.length ≤ 8192))
  | .imgStatus h p d => some (0x01, h, { p with opcode := 0xC5 }.bytes ++ d, decide (d.length ≤ 8192))
  | .nonce h p d => some (0x01, h, { p with opcode := 0xC8 }.bytes ++ d, decide (d.length ≤ 8192))
  | .token h p d _ => some (0x01, h, { p with opcode := 0xC9 }.bytes ++ d, decide (d.length ≤ 8192))
  | .retest h p d => some (0x01, h, { p with opcode := 0xCA }.bytes ++ d, decide (d.length ≤ 8192))
  | .partialReset h p d _ => some (0x01, h, { p with opcode := 0xCB }.bytes ++ d, decide (d.length ≤ 8192))
  | .hgDebugRead h pl => some (0x02, h, pl, debugOk pl && decide (pl.length = 16))
  | .hgDebugWrite h pl => some (0x03, h, pl, debugOk pl && decide (pl.length = 16 + debugSize pl))
  | _ => none

/-- The headgate answers, in a site that is awake (R338, R411). -/
def State.HgListens (s : State) : Prop := s.hgUp = true ∧ s.Awake

/-- A frame is executed next, in `t`: right in form, not a repeat, in sequence, with room for its response (R393). -/
def State.HgTakes (s : State) (typ : Byte) (h : HgHdr) (payload : List Byte) (t : State) : Prop :=
  s.HgListens ∧ s.hgFull = false ∧ h.good typ payload = true ∧ s.hgRepeated h = none ∧ s.hgNext h = true ∧ t = s.hgTake h

/-- The service packet of a frame is decided now, in `t`: nothing it waits for, no check common to service packets in its way (R394). -/
def State.HgServes (s : State) (h : HgHdr) (p : Packet) (d : List Byte) (t : State) : Prop :=
  s.HgTakes 0x01 h (p.bytes ++ d) t ∧ d.length ≤ 8192 ∧ t.hgWaits = false ∧ t.serviceCheck p = none

/-- From `t` to `u` the reply to service packet `p` is queued, with a status and four result words (R205, R392). -/
def State.HgAnswered (t u : State) (h : HgHdr) (p : Packet) (st : Status) (w0 w1 w2 w3 : Nat) : Prop :=
  ∃ rp : Reply, u.hg.queue = t.hg.queue ++ [⟨0x81, h.fseq, 0, rp.bytes false⟩] ∧ rp.Answers p st (BitVec.ofNat 32 w0) false ∧
    rp.w1 = BitVec.ofNat 32 w1 ∧ rp.w2 = BitVec.ofNat 32 w2 ∧ rp.w3 = BitVec.ofNat 32 w3

/-- No lock is Rosog's. -/
def State.NoRosogLock (s : State) : Prop := ∀ l ∈ s.locks, fld l.caller.owner 13 3 ≠ 3

/-! ### Invariants -/

/-- The test port drives the pins only under `DEV_RESET_N`, and in EXTEST alone (R431). -/
def State.PinsSafe (s : State) : Prop :=
  s.tap.driven = true → s.tap.instr = .extest ∧ s.start.resetAsserted = true

/-- Memory in its canonical form: addresses strictly rising, and no entry equal to the zero an unlisted address reads as. -/
abbrev Memory.wf {ν : Type} [DecidableEq ν] [OfNat ν 0] (m : List (Nat × ν)) : Prop := nwf 0 m = true

/-- Basin memory and its check bits, descriptors, gauges and stack memory are in canonical form. -/
def State.Canonical (s : State) : Prop :=
  Memory.wf s.mem ∧ Memory.wf s.memChk ∧ Memory.wf s.desc ∧ Memory.wf s.gauge ∧ Memory.wf s.stack

end Sys2Proof.Machine
end

