-- ==== Sys2Proof/Certificates/Slice0/Obligations.lean ====
section
/-! DEFINITION. What is to be proved about the machine: one proposition per obligation, each with the rule it states. -/

open Sys2Proof Sys2Proof.Machine

/-! ### The queue, and what ends a run -/

/-- A step takes the command at the front of the queue and is that command's effect on the rest of the state. -/
def Obligations.StepRunsFront : Prop :=
  ∀ (c : Instr) (cs : List Instr) (s : State), s.pending = c :: cs → step s = exec c { s with pending := cs }

/-- With no command waiting a step is one cycle: a flow cycle, of FLOW_DIV root cycles, while the flow clock runs, else an
always-on cycle of 240 (R311). That the cycle passes is the model's choice (log entry 2). -/
def Obligations.IdleStepIsOneCycle : Prop :=
  ∀ s : State, s.pending = [] → s.NothingDue → ∃ t, step s = .next t ∧ t.pending = [] ∧
      t.cycle = (if s.flowRuns then s.cycle + 1 else s.cycle) ∧
      t.reg .clkRootCnt = s.reg .clkRootCnt + BitVec.ofNat 64 (if s.flowRuns then s.rfld .pwrPerf 16 4 else 240)

/-- Every command completes in every state, but an access to the embedded instruments while TEST_EN is set and the test port has
power. Both are the model's choices: a command that the spec gives no effect in a state leaves it (log entry 4), and the instruments'
behaviour is not given (R431, log entry 47). -/
def Obligations.OnlyInstrumentsStop : Prop :=
  ∀ (c : Instr) (s : State),
    (∃ t, exec c s = .next t) ∨
      (∃ w bits, c = .jtagIeee1687Access w bits ∧ s.start.pwrGood = true ∧ s.testEn = true ∧
        exec c s = .refused .instrument)

/-! ### The test port (R431) -/

/-- The public instructions, while the port has power; EXTEST drives the pins only under `DEV_RESET_N`, else it is BYPASS; a
reset ends any instruction. What the sampled pins read is open (log entry 47). Outside test enable the instrument network reads
all zero and ignores writes; in test enable an access reaches instruments whose behaviour the spec does not give. -/
def Obligations.TestPort : Prop :=
  (∀ (s : State), s.start.pwrGood = true →
     exec .jtagIdcode s = .next { s with tap := { s.tap with
       instr := .idcode, driven := false, out := (List.range 32).map fun i => (0x100E2B4F : BitVec 32).getLsbD i } } ∧
     (∀ x, exec (.jtagBypass x) s = .next { s with tap := { s.tap with
       instr := .bypass, bypassBit := x, driven := false, out := [false] } }) ∧
     (∀ bs, ∃ o, exec (.jtagSamplePreload bs) s = .next { s with
       freeUses := s.freeUses + 1
       tap := { s.tap with instr := .sample, boundary := bs, driven := false, out := o } }) ∧
     (∀ bs, s.start.resetAsserted = true → ∃ o, exec (.jtagExtest bs) s = .next { s with
       freeUses := s.freeUses + 1
       tap := { s.tap with instr := .extest, boundary := bs, driven := true, out := o } }) ∧
     (∀ bs, s.start.resetAsserted = false → ∃ b o, exec (.jtagExtest bs) s = .next { s with
       tap := { s.tap with instr := .bypass, bypassBit := b, driven := false, out := o } }) ∧
     exec .tapReset s = .next { s with tap := { s.tap with instr := .reset, driven := false, out := [] } }) ∧
  (∀ (s : State) (w : Bool) (bits : List Bool), s.start.pwrGood = true →
     (s.testEn = false → exec (.jtagIeee1687Access w bits) s = .next { s with tap := { s.tap with
       instr := .instruments, driven := false, out := if w then [] else List.replicate bits.length false } }) ∧
     (s.testEn = true → exec (.jtagIeee1687Access w bits) s = .refused .instrument))

/-! ### The management bus (R422–R426) -/

/-- Dynamic addresses: ENTDAA for a target that holds none and wins the round, SETDASA over the static address, SETNEWDA,
RSTDAA, which also ends the owner role (R422, R425). Common command codes that set and read: events, and transfer lengths, where
64 bytes are the largest (R422). Codes that identify the target, and the NACK of every other code. GETPID ends in the low 32 bits of
the serial number; the bits no rule gives are open. The event bits 0x0B, that a larger length sets 64, and the byte order of lengths are
the model's (log entry 35, PRESUMED). -/
def Obligations.CommonCommandCodes : Prop :=
  (∀ (s : State), s.mgtUp = true →
     (∀ a, s.mgt.dyn = none →
       exec (.entdaa true a) s = .next { s with mgt := { s.mgt with dyn := some a, nack := false } } ∧
       exec (.setdasa s.cfg.siteAddr a) s = .next { s with mgt := { s.mgt with dyn := some a, nack := false } }) ∧
     (∀ a, s.mgt.dyn ≠ none →
       exec (.setnewda a) s = .next { s with mgt := { s.mgt with dyn := some a, nack := false } }) ∧
     exec .rstdaa s = .next { s with mgt := { s.mgt with dyn := none, owner := false, nack := false } }) ∧
  (∀ (s : State), s.mgtUp = true →
     (∀ e, exec (.enec e) s =
       .next { s with mgt := { s.mgt with events := s.mgt.events ||| (e &&& 0x0B), nack := false } }) ∧
     (∀ e, exec (.disec e) s =
       .next { s with mgt := { s.mgt with events := s.mgt.events &&& ~~~e, nack := false } }) ∧
     (∀ n, exec (.setmwl n) s = .next { s with mgt := { s.mgt with mwl := min 64 n.toNat, nack := false } }) ∧
     (∀ n, exec (.setmrl n) s = .next { s with mgt := { s.mgt with mrl := min 64 n.toNat, nack := false } }) ∧
     exec .getmwl s = .next { s with mgt := { s.mgt with resp := (leBytes 2 s.mgt.mwl).reverse, nack := false } } ∧
     exec .getmrl s = .next { s with mgt := { s.mgt with resp := (leBytes 2 s.mgt.mrl).reverse ++ [1], nack := false } }) ∧
  (∀ (s : State), s.mgtUp = true →
     (∃ hi : List Byte, hi.length = 2 ∧ exec .getpid s = .next { s with mgt := { s.mgt with
       resp := hi ++ (leBytes 4 (Config.serial.toNat % 2 ^ 32)).reverse, nack := false } }) ∧
     (∃ x : Byte, x.getLsbD 0 = false ∧ x.getLsbD 1 = true ∧ x.getLsbD 2 = true ∧
       exec .getbcr s = .next { s with mgt := { s.mgt with resp := [x], nack := false } }) ∧
     (∃ x : Byte, exec .getdcr s = .next { s with mgt := { s.mgt with resp := [x], nack := false } }) ∧
     (∃ x : List Byte, x.length = 2 ∧ exec .getstatus s =
       .next { s with freeUses := s.freeUses + 1, mgt := { s.mgt with resp := x, nack := false } }) ∧
     (∀ c, exec (.unsupportedCcc c) s = .next { s with mgt := { s.mgt with nack := true } }))

/-- The owner role: a fresh nonce; ROLE grants it for the HMAC over the last nonce and the serial number alone; a bus reset ends
it (R425). STATE 0 wakes a sleeping site, and answers OK there and in one that is awake; every other request needs the owner role.
The owner's: 1 to 4 enter as `POWER_STATE` does, or are refused with the condition; 5 starts a site in `FALLOW` again; 6 cancels a
detach before the fence is asked for; BUSY while another is being decided (R328, R346, R354, R424). `MGT_ALERT_N` is low while a
cause is pending; ALERT_ACK clears the causes it names (R426); a matching address header in `DRY` is not acknowledged and starts
the wake at fuse load (R330). That STATE 0 raises the completion cause, ACCESS_DENIED for a missing role or a wrong HMAC, and
REFUSED_STATE where nothing is to be re-tested or cancelled are the model's choices (log entry 34). -/
def Obligations.OwnerRoleAndBusState : Prop :=
  (∀ (s : State), s.mgtUp = true →
     (∃ n, exec .mgtNonce s = .next { s with
       freeUses := s.freeUses + 1
       mgt := { s.mgt with nonce := some n, resp := 0 :: leBytes 16 n.toNat, nack := false } }) ∧
     (∀ n h, s.mgt.nonce = some n → h = Config.ownerHmac n Config.serial →
       exec (.mgtRole h) s = .next { s with mgt := { s.mgt with owner := true, resp := [0], nack := false } }) ∧
     (∀ h, (∀ n, s.mgt.nonce = some n → h ≠ Config.ownerHmac n Config.serial) →
       exec (.mgtRole h) s = .next { s with mgt := { s.mgt with resp := [0x20], nack := false } }) ∧
     exec .mgtBusReset s = .next { s with mgt := { s.mgt with owner := false, resp := [], nack := false } }) ∧
  (∀ (s : State),
     (s.mgtUp = true → s.Awake → ∃ t, exec (.mgtState 0) s = .next t ∧ t.site = s.site ∧
       t.mgt.resp = List.replicate 9 0 ∧ bit (t.reg .devMgtAlert) 5 = true) ∧
     (s.mgtUp = true → (s.site = stSlack ∨ s.site = stPond ∨ s.site = stTrickle) → ∃ t, exec (.mgtState 0) s = .next t ∧
       t.site = stFlow ∧ t.mgt.resp = List.replicate 9 0 ∧ bit (t.reg .devMgtAlert) 5 = true ∧ s.SameStores t) ∧
     (∀ a : Byte, s.mgtUp = true → 0 < a.toNat → a.toNat ≤ 6 → s.mgt.owner = false →
       exec (.mgtState a) s = .next { s with mgt := { s.mgt with resp := [0x20], nack := false } }) ∧
     (∀ a : Byte, s.mgtUp = true → s.mgt.owner = true → 1 ≤ a.toNat → a.toNat ≤ 5 → s.stateBusy = true →
       exec (.mgtState a) s = .next { s with mgt := { s.mgt with resp := [0x24], nack := false } }) ∧
     (∀ a : Byte, s.mgtUp = true → s.mgt.owner = true → 1 ≤ a.toNat → a.toNat ≤ 4 → s.stateBusy = false →
       s.start.released = true → s.Awake → s.site ≠ stFallow →
       (s.entryCondition a.toNat = none → ∃ t e, exec (.mgtState a) s = .next t ∧ t.site = stEntering ∧
         t.power.entry = some e ∧ e.target = a.toNat ∧ e.step = 3 ∧ e.src = none ∧ t.mgt.stateEntry = true ∧
         s.SameStores t) ∧
       (∀ c, s.entryCondition a.toNat = some c → ∃ t, exec (.mgtState a) s = .next t ∧ t.site = s.site ∧
         t.mgt.resp = 0x22 :: (leBytes 4 0 ++ leBytes 4 c) ∧ t.rfld .pwrEntrySt 6 2 = 1 ∧ s.SameStores t)) ∧
     (s.mgtUp = true → s.mgt.owner = true →
       (s.stateBusy = false → s.site = stFallow → ∃ t, exec (.mgtState 5) s = .next t ∧ t.start.step = 3 ∧
         t.start.released = false ∧ t.mgt.resp = List.replicate 9 0) ∧
       (s.site = stDetaching → s.start.fenceReq = false → s.start.fencing = false → s.start.noReturn = false →
         ∃ t, exec (.mgtState 6) s = .next t ∧ t.site = stFlow ∧ t.detach = none ∧ t.mgt.resp = List.replicate 9 0) ∧
       (s.stateBusy = false → s.start.released = true → s.site ≠ stFallow → s.site ≠ stDetaching →
         exec (.mgtState 5) s = .next { s with mgt := { s.mgt with resp := [0x22], nack := false } } ∧
         exec (.mgtState 6) s = .next { s with mgt := { s.mgt with resp := [0x22], nack := false } })) ∧
     (s.start.pwrGood = true → s.mgtAlertN = if s.reg .devMgtAlert = 0 then none else some false) ∧
     (∀ m : Byte, s.mgtUp = true → s.fresh = [] → ∃ t, exec (.alertAck m) s = .next t ∧
       t.reg .devMgtAlert = s.reg .devMgtAlert &&& ~~~(m.setWidth 64) ∧ t.mgt.resp = [0]) ∧
     (∀ a, s.site = stDry → s.start.pwrGood = true → s.mgt.dyn = some a → a ≠ 0x7E →
       ∃ t, exec (.mgtAddressMatchWake a) s = .next t ∧ t.mgt.nack = true ∧ t.site = stWaking ∧ t.start.released = false))

/-- READ and WRITE of a whole register (R424, R425): within reach READ answers OK with the value; a WRITE of the power cap by
the owner within 150 to 620 W sets it, and one of the alert causes clears those it names (R426); beyond the bus's reach both answer
ACCESS_DENIED, which is the model's choice where R425 says ignored and logged (log entry 34), and the register stays. -/
def Obligations.BusReadsAndWrites : Prop :=
  ∀ (s : State) (r : Reg), s.mgtUp = true → s.placeOf r.addr.toNat 8 = .reg r 0 →
    (s.mgtReg r false = true → (∀ b k, r ≠ .trnLatSt b k) → exec (.mgtRead r.addr) s = .next { s with
      mgt := { s.mgt with resp := 0 :: leBytes 8 (s.regValue .mgt r).toNat, nack := false } }) ∧
    (s.mgtReg r false = false → ∃ t, exec (.mgtRead r.addr) s = .next t ∧ t.mgt.resp = [0x20]) ∧
    (∀ v, s.mgt.owner = true → s.AtRest → 150 ≤ v.toNat / 2 ^ 48 → v.toNat / 2 ^ 48 ≤ 620 → r = .pwrCap →
      ∃ t, exec (.mgtWrite r.addr v) s = .next t ∧ t.mgt.resp = [0] ∧ t.rfld .pwrCap 48 16 = v.toNat / 2 ^ 48) ∧
    (∀ v, s.mgtReg r true = true → s.AtRest → s.fresh = [] → r = .devMgtAlert → ∃ t, exec (.mgtWrite r.addr v) s = .next t ∧
      t.mgt.resp = [0] ∧ t.reg .devMgtAlert = s.reg .devMgtAlert &&& ~~~(v &&& 0xFF)) ∧
    (∀ v, s.mgtReg r true = false → ∃ t, exec (.mgtWrite r.addr v) s = .next t ∧ t.mgt.resp = [0x20] ∧
      (r.block ≠ .sec → t.reg r = s.reg r))

/-! ### The responder (R379–R387) -/

/-- SPDM requests answered at once: versions, in any version; in 1.2 or 1.3 capabilities, the one algorithm set, the alias certificate
in slot 0 alone, the challenge, and an error for every other request; in another version an error (R380). -/
def Obligations.ResponderAnswers : Prop :=
  (∀ (s : State) (r : SpdmReq), s.Hears r →
    exec (.getVersion r) s = .next { s with spdm := { s.spdm with resp := .versions } } ∧
    (r.version ≠ 0x12 → r.version ≠ 0x13 →
      exec (.getCapabilities r) s = .next { s with spdm := { s.spdm with resp := .errorUnsupported 0xE1 } } ∧
      (∀ x, exec (.negotiateAlgorithms r x) s = .next { s with spdm := { s.spdm with resp := .errorUnsupported 0xE3 } }) ∧
      exec (.getDigests r) s = .next { s with spdm := { s.spdm with resp := .errorUnsupported 0x81 } } ∧
      exec (.getMeasurements r) s = .next { s with spdm := { s.spdm with resp := .errorUnsupported 0xE0 } } ∧
      ∀ x, exec (.keyExchange r x) s = .next { s with spdm := { s.spdm with resp := .errorUnsupported 0xE4 } })) ∧
  ∀ (s : State) (r : SpdmReq), s.Listens r →
    exec (.getCapabilities r) s = .next { s with spdm := { s.spdm with resp := .capabilities } } ∧
    exec (.negotiateAlgorithms r true) s =
      .next { s with spdm := { s.spdm with resp := .algorithms, negotiated := true } } ∧
    (∃ e, exec (.negotiateAlgorithms r false) s = .next { s with spdm := { s.spdm with resp := .errorUnsupported e } }) ∧
    exec (.getDigests r) s = .next { s with spdm := { s.spdm with resp := .digests s.spdm.aliasGen } } ∧
    (r.param1.toNat % 16 = 0 →
      exec (.getCertificate r) s = .next { s with spdm := { s.spdm with resp := .certificate s.spdm.aliasGen } } ∧
      exec (.challenge r) s = .next { s with spdm := { s.spdm with resp := .challengeAuth s.spdm.aliasGen } }) ∧
    (r.param1.toNat % 16 ≠ 0 →
      (∃ e, exec (.getCertificate r) s = .next { s with spdm := { s.spdm with resp := .errorUnsupported e } }) ∧
      (∃ e, exec (.challenge r) s = .next { s with spdm := { s.spdm with resp := .errorUnsupported e } })) ∧
    (∀ c, exec (.spdmUnsupportedRequest r c) s = .next { s with spdm := { s.spdm with resp := .errorUnsupported c } })

/-- Sessions: up to 8, for certificate slot 0; a failed health test leaves a key exchange unanswered (R359); FINISH with the right
data finishes one, with wrong data ends it; END_SESSION ends one; a signed measurement exchange inside a finished session attests it
(R380–R382). In a handover's window or a partial reset each ring's request is kept and answered ResponseNotReady, with the RDT
exponent of the transition; RESPOND_IF_READY answers the kept request once it is over, and only for its own token (R386). -/
def Obligations.SessionsAndTransitions : Prop :=
  (∀ (s : State) (r : SpdmReq), s.Listens r →
     (s.spdm.sessions.length < 8 → r.param2.toNat % 16 = 0 →
       (∃ t i, exec (.keyExchange r true) s = .next t ∧ t.spdm.resp = .keyExchangeRsp i ∧
         s.session? i = none ∧ t.spdm.sessions = s.spdm.sessions ++ [⟨i, r.ring, false, false⟩]) ∧
       exec (.keyExchange r false) s = .next { s with spdm := { s.spdm with resp := .none } }) ∧
     (8 ≤ s.spdm.sessions.length → r.param2.toNat % 16 = 0 → ∀ e,
       exec (.keyExchange r e) s = .next { s with spdm := { s.spdm with resp := .errorBusy } }) ∧
     (r.param2.toNat % 16 ≠ 0 → ∀ e,
       exec (.keyExchange r e) s = .next { s with spdm := { s.spdm with resp := .errorUnsupported 0xE4 } }) ∧
     (∀ x, s.session? r.session.toNat = some x →
       (∃ t, exec (.finish r true) s = .next t ∧ t.spdm.resp = .finishRsp ∧
         t.session? x.id = some { x with finished := true }) ∧
       (∃ t, exec (.finish r false) s = .next t ∧ t.spdm.resp = .errorUnexpected ∧ t.session? x.id = none) ∧
       (∃ t, exec (.endSession r) s = .next t ∧ t.spdm.resp = .endSessionAck ∧ t.session? x.id = none)) ∧
     (∀ bs, s.measurementsOf r.param2.toNat = some bs → (r.param1.getLsbD 0 = true → r.slot.toNat % 16 = 0) →
       ∃ t, exec (.getMeasurements r) s = .next t ∧ t.spdm.resp = .measurements bs (r.param1.getLsbD 0) ∧
         t.mem = s.mem ∧ t.regs = s.regs ∧ ∀ x, s.session? r.session.toNat = some x → x.finished = true →
           r.param1.getLsbD 0 = true → t.session? x.id = some { x with attested := true })) ∧
  (∀ (s : State) (r : SpdmReq) (c : SpdmCall) (i : Instr), s.start.released = true → s.scrubbing = false →
     s.notReadyNow = true → (i = .getVersion r ∧ c = .getVersion ∨ i = .getDigests r ∧ c = .getDigests) → ∃ t token,
       exec i s = .next t ∧ t.heldOf r.ring = some (token, r, c) ∧
       t.spdm.resp = .responseNotReady (if s.controlDown then 16 else 13) 1 token ∧
       ∀ k, k ≠ r.ring → t.heldOf k = s.heldOf k) ∧
  (∀ (s : State) (r r0 : SpdmReq) (c : SpdmCall) (token : Nat), s.start.released = true → s.scrubbing = false →
     s.heldOf r.ring = some (token, r0, c) → r0.session = r.session →
     (r.param2.toNat = token → s.notReadyNow = false → r0.session = 0 → c = .getVersion →
       exec (.respondIfReady r) s = .next { s with spdm := { s.spdm with
         resp := .versions, held := s.spdm.held.filter fun x => x.2.1.ring ≠ r.ring } }) ∧
     (r.param2.toNat = token → s.notReadyNow = true →
       exec (.respondIfReady r) s = .next { s with spdm := { s.spdm with
         resp := .responseNotReady (if s.controlDown then 16 else 13) 1 token } }) ∧
     (r.param2.toNat ≠ token →
       exec (.respondIfReady r) s = .next { s with spdm := { s.spdm with resp := .errorUnexpected } }))

/-- TDISP: versions, capabilities, the interface report and state; an unlocked interface is locked to the session, a locked one
runs; the stop of any other than an unlocked one scrubs the context, unless a health test fails, and is answered after the scrub: new
keys, the levee entries again, `CONFIG_UNLOCKED`. The requests that are not supported are refused (R359, R368, R369, R383, R384). -/
def Obligations.TdispRequests : Prop :=
  (∀ (s : State) (c c0 was : Nat) (es : List (Nat × Nat × Word64 × Word64)) (x : ScrubRun), x.ctx = c → x.what = .stop none →
    x.levees = es → s.ScrubEnds x c0 was none → c < 8 →
    s.scrubOn.site = was ∧ s.scrubOn.scrubs = [] ∧ s.scrubOn.spdm.resp = .tdispStopped ∧ s.scrubOn.tdisp c = 0 ∧
      s.scrubOn.rfld (.secCtxSt c) 32 8 = 0xFF ∧ (s.scrubOn.ctx c).keyGen = s.freeUses + 1 ∧
      (s.scrubOn.ctx c).resident = (s.ctx c).resident ∧ s.scrubOn.ring c = { RingRun.empty with stats := (s.ring c).stats } ∧
      ((es.map fun e => (e.1, e.2.1)).Nodup → ∀ e ∈ es, s.scrubOn.reg (.bsnLeveeA e.1 e.2.1) = e.2.2.1 ∧
        s.scrubOn.reg (.bsnLeveeB e.1 e.2.1) = e.2.2.2)) ∧
  ∀ (s : State) (r : SpdmReq) (c : Nat), s.ListensTdisp r c →
    exec (.getTdispVersion r c) s = .next { s with spdm := { s.spdm with resp := .tdispVersion } } ∧
    exec (.getTdispCapabilities r c) s = .next { s with spdm := { s.spdm with resp := .tdispCapabilities } } ∧
    (∃ l, exec (.getDeviceInterfaceReport r c) s = .next { s with spdm := { s.spdm with resp := .tdispReport l } }) ∧
    exec (.getDeviceInterfaceState r c) s = .next { s with spdm := { s.spdm with resp := .tdispState (s.tdisp c) } } ∧
    (∀ k, ∃ e, exec (.tdispUnsupportedRequest r c k) s = .next { s with spdm := { s.spdm with resp := .tdispError e } }) ∧
    (∀ no, s.tdisp c = 0 → (s.reg .secObsCfg).getLsbD 0 = false → ∃ t, exec (.lockInterfaceRequest r c no) s = .next t ∧
      t.spdm.resp = .tdispLocked ∧ t.tdisp c = 1 ∧ t.rfld (.secCtxSt c) 32 8 = r.session.toNat % 256) ∧
    (s.tdisp c = 1 → ∃ t, exec (.startInterfaceRequest r c) s = .next t ∧ t.spdm.resp = .tdispStarted ∧ t.tdisp c = 2) ∧
    (s.tdisp c ≠ 0 → r.entropyOk = true → s.MayScrub → ∃ t, exec (.stopInterfaceRequest r c) s = .next t ∧
      s.ScrubBegun t c (.stop none) ∧ t.spdm.resp = s.spdm.resp) ∧
    (s.tdisp c ≠ 0 → r.entropyOk = false →
      exec (.stopInterfaceRequest r c) s = .next { s with spdm := { s.spdm with resp := .none } })

/-! ### The window (R20–R27, R38, R52, R361–R365, R432–R435) -/

/-- Every built register is found at its own offset, so no two share one (R432, R433). -/
def Obligations.RegisterMap : Prop :=
  ∀ (cfg : SiteConfig) (r : Reg), cfg.wf = true → r.Built cfg → Reg.ofOffset cfg r.offset = some r

/-- A store within a word of a basin's memory, in the cycle of its beat, after the beats that have that cycle, lands in its bytes,
little-endian, and in no other byte; no descriptor, gauge or stack byte changes; before its beat it waits (R56, R158, R169). A
store of the core to its data RAM lands there, and one that the local map or its alignment forbids raises the core's exception and
stores nothing (R13, R28). A store-conditional stores where its address is reserved; one of the core's stores within its site-map
window is a store on the site map (R13, R28). -/
def Obligations.MemoryStores : Prop :=
  (∀ (s u w : State) (who : Requester) (a : Word64) (n b off : Nat) (v : Word64), n ≤ 8 → OnSite who a.toNat n →
    s.Awake → s.CoreFree →
    (s.Performs who a.toNat n true u → u.memoryUp = true → u.placeOf a.toNat n = .mem b off →
      u.reaches who (.mem b off) n true = true → off % 64 + n ≤ 64 → w = u.landBeats → w.AtRest → w.Plain b (off / 64) →
      ∃ t, exec (.windowStore who a n v) s = .next t ∧
        (∀ i, i < n → nget t.mem 0 (w.wordAt b (off / 64) * 64 + off % 64 + i) = v.extractLsb' (8 * i) 8) ∧
        (∀ k, ¬ (w.wordAt b (off / 64) * 64 + off % 64 ≤ k ∧ k < w.wordAt b (off / 64) * 64 + off % 64 + n) →
          nget t.mem 0 k = nget w.mem 0 k) ∧
        t.desc = w.desc ∧ t.gauge = w.gauge ∧ t.stack = w.stack) ∧
    (s.accessReady who a.toNat n true = (u, false) →
      exec (.windowStore who a n v) s = .next u ∧ s.Waits u who)) ∧
  (∀ (s : State) (a : Word64) (n : Nat) (v : Word64), s.windowUp = true → siteOf a.toNat = none →
    (∀ o, s.localAccess .store a.toNat n = .ok (.dataRam o) →
      exec (.windowStore .coreLocal a n v) s = .next { s with core := s.core.putRam o (leBytes n v.toNat) } ∧
      s.StoresIf (exec (.windowStore .coreAtomic a n v) s) (s.core.reserved = some a.toNat)
        (s.core.putRam o (leBytes n v.toNat)) ∧
      ∀ i, i < n → (s.core.putRam o (leBytes n v.toNat)).bytesAt (.dataRam (o + i)) 1 = [v.extractLsb' (8 * i) 8]) ∧
    (∀ e, s.localAccess .store a.toNat n = .error e →
      exec (.windowStore .coreLocal a n v) s = .next (s.localTrap .store e a.toNat))) ∧
  (∀ (s : State) (a : Word64) (n x : Nat) (v : Word64), siteOf a.toNat = some x →
    exec (.windowStore .coreLocal a n v) s = exec (.windowStore .core (BitVec.ofNat 64 x) n v) s ∧
    (∀ e, s.windowUp = true → s.coreCheck .store a.toNat n = some e →
      exec (.windowStore .coreLocal a n v) s = .next (s.localTrap .store e a.toNat)))

/-- A decode error through an address window reads zero or writes nothing, is counted, and is recorded where
ERR_DECODE_ADDR.VALID is clear, with its source and no basin (R24, R27). That it takes no time, where R24 says the time of an access to
populated memory, is the model's choice (log entries 2 and 13), and so is SOURCE 0x40 for the management bus (log entry 34). -/
def Obligations.DecodeErrorsAnswered : Prop :=
  ∀ (s : State) (who : Requester) (a : Word64) (n : Nat) (v : Word64), s.Awake → s.CoreFree → OnSite who a.toNat n → n ≤ 8 →
    s.placeOf a.toNat n = .nowhere →
    ∃ t u, exec (.windowLoad who a n) s = .next t ∧ exec (.windowStore who a n v) s = .next u ∧ t.loadOut = 0 ∧
      s.DecodeErrorTo t who a false ∧ s.DecodeErrorTo u who a true

/-- A load within a word of a basin's memory, in the cycle of its beat, returns what is there before the writes of that cycle; before
its beat it waits (R56, R158, R169); one beyond the requester's reach reads zero and is counted
(R362). A read of TRN_LAT_ST gives its value and clears the high-water mark (R179, R182). A load or fetch of the core in its
local map gives the bytes there, or raises the core's exception and loads nothing; a load-reserved reserves its address too;
a load or fetch of the core within its site-map window is a load on the site map (R13, R28). -/
def Obligations.WindowLoads : Prop :=
  (∀ (s : State) (who : Requester) (a : Word64) (n : Nat), s.Quiet → OnSite who a.toNat n → n ≤ 8 →
     (∀ u b off, s.Performs who a.toNat n false u → u.placeOf a.toNat n = .mem b off →
       u.reaches who (.mem b off) n false = true → u.memoryUp = true → off % 64 + n ≤ 64 → u.Plain b (off / 64) →
       ∃ t, exec (.windowLoad who a n) s = .next t ∧
         t.loadOut = BitVec.ofNat 64 (leNat (((u.bytesOf b (off / 64)).drop (off % 64)).take n)) ∧ t.mem = u.mem ∧
         t.desc = u.desc) ∧
     (∀ u, s.accessReady who a.toNat n false = (u, false) →
       exec (.windowLoad who a n) s = .next u ∧ s.Waits u who) ∧
     (s.placeOf a.toNat n ≠ .nowhere → s.reaches who (s.placeOf a.toNat n) n false = false →
       ∃ t, exec (.windowLoad who a n) s = .next t ∧ t.loadOut = 0 ∧
         t.rfld .secViolCnt 0 32 = min (s.rfld .secViolCnt 0 32 + 1) (2 ^ 32 - 1) ∧ t.mem = s.mem ∧ t.desc = s.desc)) ∧
  (∀ (s : State) (who : Requester) (b r : Nat), s.Quiet → b < 64 → r < 16 → s.Meets who (.trnLatSt b r) 8 false →
     ∃ t, exec (.trnLatStRead who b r) s = .next t ∧ t.loadOut = s.reg (.trnLatSt b r) ∧
       t.reg (.trnLatSt b r) = setFld (s.reg (.trnLatSt b r)) 0 16 0 ∧ t.mem = s.mem) ∧
  (∀ (s : State) (k : LocalKind) (who : Requester) (a : Word64) (n : Nat), s.windowUp = true → siteOf a.toNat = none →
     (who = .coreLocal ∧ k = .load ∨ who = .coreFetch ∧ k = .fetch ∨ who = .coreAtomic ∧ k = .load) →
     (∀ p, s.localAccess k a.toNat n = .ok p → exec (.windowLoad who a n) s = .next { s with
       core := if who = .coreAtomic then { s.core with reserved := some a.toNat } else s.core,
       loadOut := BitVec.ofNat 64 (leNat (s.core.bytesAt p n)) }) ∧
     (∀ e, s.localAccess k a.toNat n = .error e → exec (.windowLoad who a n) s = .next { s.localTrap k e a.toNat with
       loadOut := 0 })) ∧
  (∀ (s : State) (a : Word64) (n x : Nat), siteOf a.toNat = some x →
     exec (.windowLoad .coreLocal a n) s = exec (.windowLoad .core (BitVec.ofNat 64 x) n) s)

/-- A store by the core sets the RW fields of a configuration register and nothing else (R6, R434, R435): the regulator's
limits, the region table, the levees, culvert and tile configuration, QoS levels. Of a register without such fields it sets the
counters, clears the W1C bits it has ones for, and leaves what is RO (R7, R435). A tenant clears no counter of its ring: the store is
refused (R435). A requester other than the core and an unlocked headgate changes no configuration field (R434), but for RING_CMD and
RING_RPL, which such a requester sees as RO and which ignore it (R199). That a refused store is counted and logged in the SEC block is
the model's reading (log entry 32, DEDUCED). -/
def Obligations.ConfigurationStores : Prop :=
  (∀ (s : State) (v : Word64), s.Quiet → s.fresh = [] →
     (∀ r, s.Meets .core r 8 true → ((∃ b, r = .bsnTileCfg b) ∨ (∃ b, r = .trnQosMap b) ∨ (∃ c, r = .culCfg c)) →
       ∃ t, exec (.registerWrite .core r.addr 8 v) s = .next t ∧ s.OnlyReg t r (s.stored r v)) ∧
     (∀ r, s.Meets .core r 8 true → ((∃ b, r = .trnRegCfg b) ∨ (∃ b k, r = .trnOtCfg b k ∧ k < s.cfg.turnouts) ∨
       (∃ b k, r = .trnLatCfg b k)) →
       ∃ t, exec (.regCfgWrite .core r.addr v) s = .next t ∧ s.OnlyReg t r (s.stored r v)) ∧
     (∀ n half, n < 64 → s.Meets .core (if half then .sphRgnB n else .sphRgnA n) 8 true →
       ∃ t, exec (.regionTableWrite .core n half v) s = .next t ∧
         s.OnlyReg t (if half then .sphRgnB n else .sphRgnA n) (s.stored (if half then .sphRgnB n else .sphRgnA n) v)) ∧
     (∀ b n half, b < 64 → n < 32 → s.Meets .core (if half then .bsnLeveeB b n else .bsnLeveeA b n) 8 true →
       ∃ t, exec (.leveeWrite .core b n half v) s = .next t ∧ s.OnlyReg t (if half then .bsnLeveeB b n else .bsnLeveeA b n)
         (s.stored (if half then .bsnLeveeB b n else .bsnLeveeA b n) v)) ∧
     (∀ r, s.Meets .core r 8 true → (r.access.writer = .anyone ∨ r.access = .ro) → (∀ k, r ≠ .ringDb k ∧ r ≠ .ringRhead k) →
       r ≠ .secSt → (∀ c, r ≠ .secCtxSt c) → (∀ b k, r = .trnArbSt b k → k < s.cfg.turnouts) →
       ∃ t, exec (.registerWrite .core r.addr 8 v) s = .next t ∧ s.OnlyReg t r
         (((s.reg r &&& ~~~r.access.counter) ||| (v &&& r.access.counter)) &&& ~~~(v &&& r.access.w1c)))) ∧
  (∀ (s : State) (c : Nat) (v : Word64), s.Quiet → c < 8 → s.Meets (.iface c) (.ringSt c) 8 true →
     ∃ t, exec (.registerWrite (.iface c) (Reg.ringSt c).addr 8 v) s = .next t ∧ t.reg (.ringSt c) = s.reg (.ringSt c) ∧
       t.rfld .secViolCnt 0 32 = min (s.rfld .secViolCnt 0 32 + 1) (2 ^ 32 - 1) ∧ t.mem = s.mem) ∧
  (∀ (s : State) (who : Requester) (r : Reg) (v : Word64), s.Quiet → s.placeOf r.addr.toNat 8 = .reg r 0 →
     r.access.writer = .rosog → (∀ b k, r = .trnOtCfg b k → k < s.cfg.turnouts) → who ≠ .core →
     who ≠ .headgate → OnSite who r.addr.toNat 8 →
     (r ≠ .pwrCap → (∀ k, r.block ≠ .ring k) → ∃ t, exec (.registerWrite who r.addr 8 v) s = .next t ∧ t.reg r = s.reg r ∧
       t.rfld .secViolCnt 0 32 = min (s.rfld .secViolCnt 0 32 + 1) (2 ^ 32 - 1) ∧ t.mem = s.mem) ∧
     (∀ k, r.block = .ring k → s.reaches who (.reg r 0) 8 true = true → ∃ t, exec (.registerWrite who r.addr 8 v) s = .next t ∧
       t.regs = s.regs ∧ t.mem = s.mem))

/-- Stores with an effect of their own: a stream entry whose STREAM or CTX changes forgets its range (R112), arbiter
settings start the checks' counts afresh (R172), a flip is armed in test enable alone (R252), scrubbing stops in test enable
alone (R251). A changed remap entry serves no row until its row is copied (R255); STATE 1 written to a first spare bank, all
spares idle, starts a copy of the logical bank, with the spare's remap entries clear (R256, R257). -/
def Obligations.BasinStores : Prop :=
  (∀ (s : State) (b : Nat) (v : Word64), s.Quiet → s.fresh = [] → b < 64 →
     (∀ e, e < 256 → s.Meets .core (.trnStreamCfg b e) 8 true → ∃ t, exec (.streamCfgWrite .core b e v) s = .next t ∧
       t.reg (.trnStreamCfg b e) = s.stored (.trnStreamCfg b e) v ∧
       t.reg (.trnStreamSt b e) = (if fld (s.reg (.trnStreamCfg b e)) 0 12 = fld v 0 12 ∧
         fld (s.reg (.trnStreamCfg b e)) 24 4 = fld v 24 4 then s.reg (.trnStreamSt b e) else 0)) ∧
     (s.Meets .core (.bsnArbCfg b) 8 true → ∃ t, exec (.arbCfgWrite .core b v) s = .next t ∧
       s.OnlyReg t (.bsnArbCfg b) (s.stored (.bsnArbCfg b) v) ∧ ∀ a ∈ t.arbs, a.basin = b → a.count = 0) ∧
     (s.Meets .core (.bsnFlipCfg b) 8 true →
       (s.testEn = true → ∃ t, exec (.flipArm .core b v) s = .next t ∧ fld (t.reg (.bsnFlipCfg b)) 0 9 = fld v 0 9 ∧
         bit (t.reg (.bsnFlipCfg b)) 63 = bit v 63) ∧
       (s.testEn = false → ∃ t, exec (.flipArm .core b v) s = .next t ∧
         t.reg (.bsnFlipCfg b) = s.reg (.bsnFlipCfg b))) ∧
     (s.Meets .core (.bsnScrubCfg b) 8 true → ∃ t, exec (.scrubCfgWrite .core b v) s = .next t ∧
       s.OnlyReg t (.bsnScrubCfg b) (if bit v 0 ∨ s.testEn = true then s.stored (.bsnScrubCfg b) v else s.reg (.bsnScrubCfg b)))) ∧
  (∀ (s : State) (b : Nat) (v : Word64), s.Quiet → b < 64 →
     (∀ k e, k < 260 → e < 4 → s.Meets .core (.bsnRemap b k e) 8 true → ∃ t, exec (.remapInstall .core b k e v) s = .next t ∧
       s.OnlyReg t (.bsnRemap b k e) (s.stored (.bsnRemap b k e) v) ∧
       (s.stored (.bsnRemap b k e) v ≠ s.reg (.bsnRemap b k e) → (b, k, e) ∉ t.remapped)) ∧
     (s.Meets .core (.bsnSpareMap b) 8 true → s.reg (.bsnSpareMap b) = 0 → fld v 14 2 = 1 → fld v 30 2 = 0 → fld v 46 2 = 0 →
       fld v 62 2 = 0 → ∃ t, exec (.spareBankStart .core b v) s = .next t ∧ t.spareState b 0 = 1 ∧
         t.spareLogical b 0 = fld v 0 8 ∧ (∃ c ∈ t.spareCopies, c.basin = b ∧ c.spare = 0 ∧ c.old = fld v 0 8 ∧ c.row = 0) ∧
         (∀ e, e < 4 → t.reg (.bsnRemap b s.cfg.banks e) = 0) ∧ t.mem = s.mem))

/-- Control registers with rules of their own: CTL_REMAP for the core in machine mode alone (R29), the keeper's low mode refused
above its load (R318), a cap within 150 to 620 W (R332), full resolution not while an interface is locked (R388), a grant that
differs from its request fails it (R316). That a cap out of its range leaves the cap as it was is the model's choice (log entry 33). -/
def Obligations.ControlStores : Prop :=
  ∀ (s : State) (v : Word64), s.Quiet → s.fresh = [] →
    (s.Meets .core .ctlRemap 8 true →
      (∃ t, exec (.ctlRemapWrite .core true v false) s = .next t ∧ s.OnlyReg t .ctlRemap (s.stored .ctlRemap v)) ∧
      (∃ t, exec (.ctlRemapWrite .core false v false) s = .next t ∧ t.reg .ctlRemap = s.reg .ctlRemap)) ∧
    (s.Meets .core .pwrKeeper 8 true →
      (bit v 0 = true → s.loadMa ≤ 36 → ∃ t, exec (.keeperModeWrite .core v) s = .next t ∧ t.rfld .pwrKeeper 0 2 = 1) ∧
      (bit v 0 = true → 36 < s.loadMa → ∃ t, exec (.keeperModeWrite .core v) s = .next t ∧ t.reg .pwrKeeper = s.reg .pwrKeeper) ∧
      (bit v 0 = false → ∃ t, exec (.keeperModeWrite .core v) s = .next t ∧ t.rfld .pwrKeeper 0 1 = 0)) ∧
    (∀ who, s.Meets who .pwrCap 8 true → ∃ t, exec (.capWrite who v) s = .next t ∧ t.rfld .pwrCap 48 16 =
      (if 150 ≤ fld v 48 16 ∧ fld v 48 16 ≤ 620 then fld v 48 16 else s.rfld .pwrCap 48 16)) ∧
    (s.Meets .mgt .secObsCfg 8 true → ∃ t, exec (.fullResWrite .mgt v) s = .next t ∧ t.reg .secObsCfg =
      (if bit v 0 = true ∧ ((List.range 8).any fun c => s.tdisp c = 1 ∨ s.tdisp c = 2) = true then s.reg .secObsCfg
       else setFld (s.reg .secObsCfg) 0 1 (fld v 0 1))) ∧
    (∀ q, s.Meets .mgt .pwrVreq 8 true → s.power.supply = some q → s.power.entry = none → s.power.sramWant = 0 →
      (fld v 16 8 = s.coreReq → fld v 24 8 = s.sramReq → ∃ t, exec (.vreqGrantWrite .mgt v) s = .next t ∧
        t.rfld .pwrVreq 63 1 = 0 ∧ t.coreGrant = fld v 16 8 ∧ t.sramGrant = fld v 24 8 ∧
        t.power.supply = some { q with granted := true, startRoot := s.now }) ∧
      (fld v 16 8 ≠ s.coreReq ∨ fld v 24 8 ≠ s.sramReq → ∃ t, exec (.vreqGrantWrite .mgt v) s = .next t ∧ t.rfld .pwrVreq 63 1 = 0 ∧
        t.power.supply = none ∧ t.power.divWait = none ∧ t.rfld .pwrVreq 0 8 = q.prevCore % 256 ∧
        t.rfld .pwrPerf 32 16 = min (s.rfld .pwrPerf 32 16 + 1) (2 ^ 16 - 1)))

/-- Word 0 or 1 of a tile that is not in use written by Rosog redefines it: stale, unbroken, its last write forgotten, its
generation counted, its code made afresh; in use, it stays and the write is logged (R37, R38, R236). A gauge written through the
window: COUNT takes the value before the increments that land in the cycle, CTX changes for Rosog alone (R52, R53). That the write to a tile
in use is recorded as an access violation is the model's reading (log entry 32, DEDUCED). -/
def Obligations.DescriptorsAndGaugesWritten : Prop :=
  (∀ (s : State) (b d word : Nat) (v : Word64), s.Quiet → s.memoryUp = true → b < s.cfg.basins → s.cfg.basins ≤ 64 →
     s.live b = true → d < 16384 → word < 2 →
     (s.descBusy .core b d = false → ∃ t, exec (.descriptorDefine .core b d word v) s = .next t ∧
       dStale (t.descOf b d) = true ∧ dBroken (t.descOf b d) = false ∧ dPayloadLen (t.descOf b d) = 0 ∧
       dZmapValid (t.descOf b d) = false ∧ dGen (t.descOf b d) = dGen (s.descOf b d) + 1 ∧
       (word = 0 → dExtentBase (t.descOf b d) = fld v 0 18 ∧ dFormat (t.descOf b d) = fld v 40 8) ∧
       (word = 1 → dRows (t.descOf b d) = fld v 0 9 ∧ dCols (t.descOf b d) = fld v 16 13) ∧
       nget t.descChk 0 (dkey b d) = 0 ∧ (∀ k, k ≠ dkey b d → nget t.desc 0 k = nget s.desc 0 k) ∧ t.mem = s.mem) ∧
     (s.descBusy .core b d = true → ∃ t, exec (.descriptorDefine .core b d word v) s = .next t ∧ t.desc = s.desc ∧
       t.rfld .secViolCnt 0 32 = min (s.rfld .secViolCnt 0 32 + 1) (2 ^ 32 - 1))) ∧
  (∀ (s : State) (who : Requester) (b g : Nat) (v : Word64), s.Quiet → s.memoryUp = true → b < s.cfg.basins →
     s.cfg.basins ≤ 64 → s.live b = true → g < 4096 → s.reaches who (.gauge b g 0) 8 true = true → s.waits = [] →
     ∃ t, exec (.gaugeWindowWrite who b g v) s = .next t ∧
       t.count b g = v.extractLsb' 0 32 + BitVec.ofNat 32 (s.landedOn b g) ∧
       t.gctx b g = (if who = .core then fld v 32 4 else s.gctx b g) ∧
       s.OnlyGauge t b g ∧ t.mem = s.mem ∧ t.desc = s.desc)

/-! ### Rings (R198–R205, R209, R219) -/

/-- TAIL and RHEAD written by the host are taken when they lie within the ring and go forward, else counted as errors (R200).
Fetches, in the cycle of their beats: the 64 bytes of the slot that HEAD selects are a packet that enters the ring's buffer, HEAD advances
and a reply slot is reserved (R199–R203); those at a list's offset enter its buffer and the list goes on 64 bytes, and a place the list
may not fetch from is its error (R211). Replies, in the cycle of theirs: ACCEPTED for a packet Rosog has held 100 µs lets its ring go on
(R219); a reply waiting for its slot takes it, and its reservation ends. A reply's 32 bytes land in the slot that RTAIL selects, which
advances, and nothing else changes (R202, R205). That a reply is a burst of its own is the model's (log entry 17). -/
def Obligations.RingsMove : Prop :=
  (∀ (s : State) (who : Requester) (k : Nat) (v : BitVec 32), s.Quiet → k < 9 → s.ringState k ≠ 0 →
     (s.Meets who (.ringDb k) 4 true →
       ∃ t, exec (.doorbellWrite who k v) s = .next t ∧
         if (v.toNat + 2 ^ 32 - s.ringHead k) % 2 ^ 32 ≤ 2 ^ s.rfld (.ringCmd k) 40 4 ∧
           (v.toNat + 2 ^ 32 - s.ringTail k) % 2 ^ 32 < 2 ^ 31
         then t.ringTail k = v.toNat ∧ (∀ r, r ≠ .ringDb k → t.reg r = s.reg r)
         else t.ringTail k = s.ringTail k ∧ t.rfld (.ringSt k) 48 16 = min (s.rfld (.ringSt k) 48 16 + 1) (2 ^ 16 - 1)) ∧
     (s.Meets who (.ringRhead k) 4 true →
       ∃ t, exec (.rheadWrite who k v) s = .next t ∧
         if (s.rfld (.ringRtail k) 0 32 + 2 ^ 32 - v.toNat) % 2 ^ 32 ≤ s.rplEntries k ∧
           (v.toNat + 2 ^ 32 - s.rfld (.ringRhead k) 0 32) % 2 ^ 32 < 2 ^ 31
         then t.rfld (.ringRhead k) 0 32 = v.toNat ∧ (∀ r, r ≠ .ringRhead k → t.reg r = s.reg r)
         else t.rfld (.ringRhead k) 0 32 = s.rfld (.ringRhead k) 0 32 ∧
           t.rfld (.ringSt k) 48 16 = min (s.rfld (.ringSt k) 48 16 + 1) (2 ^ 16 - 1))) ∧
  (∀ (s : State),
     (∀ k b w u, s.ringFetchable k = true → s.ringHead k ≠ s.ringTail k → b = s.rfld (.ringCmd k) 48 8 →
       w = (s.rfld (.ringCmd k) 0 18 * 256 + s.ringHead k % 2 ^ s.rfld (.ringCmd k) 40 4 * 64) / 64 →
       s.beatFor b (.fetch (.ring k)) .read w 1 = (u, true) → u.Plain b w → ∃ t fe, exec (.ringFetch k) s = .next t ∧
       fe.pkt = Packet.ofBytes (u.bytesOf b w) ∧ fe.err = none ∧ t.ringHead k = (s.ringHead k + 1) % 2 ^ 32 ∧ t.ringTail k = s.ringTail k ∧
       (t.ring k).buf = (s.ring k).buf ++ [fe] ∧ (t.ring k).reserved = (s.ring k).reserved + 1 ∧ t.mem = s.mem) ∧
     (∀ k b u, s.ringFetchable k = true → s.ringHead k ≠ s.ringTail k → b = s.rfld (.ringCmd k) 48 8 →
       s.beatFor b (.fetch (.ring k)) .read (s.slotWord k false) 1 = (u, false) →
       exec (.ringFetch k) s = .next u ∧ s.OnlyBursts u) ∧
     (∀ b k l u, s.list? b k = some l → s.listFetchable l = true → l.buf.any (·.err.isSome) = false →
       (∀ st, s.listPlace l = some st → ∃ t fe, exec (.listFetch b k) s = .next t ∧ fe.off = l.pc ∧ fe.err = some st ∧
         t.list? b k = some { l with buf := l.buf ++ [fe], pc := l.pc + 64 } ∧ s.SameStores t) ∧
       (s.listPlace l = none → s.beatFor b (.fetch (.list b k)) .read (l.pc / 64) 1 = (u, true) → u.Plain b (l.pc / 64) →
         l.pc % 64 = 0 → ∃ t fe, exec (.listFetch b k) s = .next t ∧ fe.off = l.pc ∧ fe.err = none ∧
         fe.pkt = Packet.ofBytes (u.bytesOf b (l.pc / 64)) ∧
         t.list? b k = some { l with buf := l.buf ++ [fe], pc := l.pc + 64 } ∧ s.SameStores t))) ∧
  (∀ (s v : State),
     (∀ h k, s.handed.find? s.acceptable = some h → h.src = .ring k → s.replyBeat k = (v, true) →
       ∃ t, exec .acceptedReply s = .next t ∧ v.ReplyLands t k (v.acceptedReply h) ∧ (t.ring k).held = false ∧
       { h with accepted := true } ∈ t.handed ∧ t.handed.length = s.handed.length) ∧
     (∀ k rp rest, s.replyDue k = true → s.replyBeat k = (v, true) → (v.ring k).waiting = rp :: rest →
       ∃ t, exec (.replyWrite k) s = .next t ∧ v.ReplyLands t k rp ∧ (t.ring k).waiting = rest ∧
       (t.ring k).reserved = (v.ring k).reserved - 1) ∧
     (∀ k, s.replyDue k = true → s.replyBeat k = (v, false) → exec (.replyWrite k) s = .next v ∧ s.OnlyBursts v))

/-- Dispatch of the source whose turn it is: a ring's packet that fails a check common to all is refused with that status, its gauge
untouched; a control packet passes to Rosog and its source is held; a ring's `NOP` completes at once (R207, R209, R219). -/
def Obligations.Dispatches : Prop :=
  ∀ (s : State) (src : Src) (fe : Fetched), s.AtRest → s.Turn src → s.head? src = some fe →
    (∀ k st, src = .ring k → s.commonCheck src fe = some st → st.failed = true →
      (s.ring k).buf = [fe] → s.lists = [] →
      ∃ t rp, exec (.packetDispatch src) s = .next t ∧ (t.ring k).waiting = (s.ring k).waiting ++ [rp] ∧
        rp.status = st ∧ rp.seq = fe.pkt.seq ∧ rp.tag = fe.pkt.tag ∧ rp.cycles = 0 ∧ t.dueIncs = s.dueIncs) ∧
    (s.commonCheck src fe = none → 0x40 ≤ fe.pkt.op → ∃ t h, exec (.packetDispatch src) s = .next t ∧
      t.handed = s.handed ++ [h] ∧ h.src = src ∧ h.pkt = fe.pkt ∧ h.accepted = false ∧ t.head? src = none) ∧
    (∀ k, src = .ring k → s.commonCheck src fe = none → s.streamCheck src fe.pkt = none → fe.pkt.op = 0x01 →
      (s.ring k).buf = [fe] → s.lists = [] →
      ∃ t rp, exec (.packetDispatch src) s = .next t ∧ (t.ring k).waiting = (s.ring k).waiting ++ [rp] ∧
        rp.opcode = 0x01 ∧ rp.seq = fe.pkt.seq ∧ rp.tag = fe.pkt.tag ∧
        t.dueIncs = s.dueIncs ++ (if fe.pkt.inc = 0 then [] else [⟨s.basinOf src, fe.pkt.gauge, fe.pkt.inc.toNat⟩]))

/-! ### Packets the ditch rider executes itself (R49, R50, R54, R211–R217) -/

/-- `NOP` completes at dispatch; a `FENCE` at the head of its source waits, and all after it, until every earlier packet of the
source has completed, and then completes at once; a non-zero byte of their parameters is refused (R217). A completion makes the
packet's increment due once, and changes nothing stored. -/
def Obligations.NopAndFence : Prop :=
  ∀ (s t : State) (src : Src) (p : Packet) (fe : Fetched),
    (s.Takes src { p with opcode := 0x01 } t fe → ∃ u, exec (.nop src p) s = .next u ∧
      t.Completed u src fe.pkt .ok 0 ∧ u.dueIncs = s.dueIncs ++ dueOf (t.basinOf src) p ∧ s.SameStores u) ∧
    (s.Takes src { p with opcode := 0x02 } t fe →
      (t.inFlight src = 0 → ∃ u, exec (.fence src p) s = .next u ∧ t.Completed u src fe.pkt .ok 0 ∧
        u.dueIncs = s.dueIncs ++ dueOf (t.basinOf src) p ∧ s.SameStores u) ∧
      (t.inFlight src ≠ 0 → exec (.fence src p) s = .next t ∧ exec (.packetDispatch src) t = .next t)) ∧
    (∀ k c, src = .ring k → fe.pkt.reservedClear [] = false →
      (s.Offers src { p with opcode := 0x01 } t fe ∧ c = Instr.nop src p ∨
        s.Offers src { p with opcode := 0x02 } t fe ∧ c = Instr.fence src p) →
      ∃ u, exec c s = .next u ∧ t.Completed u src fe.pkt .badParam 0 ∧ u.dueIncs = s.dueIncs ∧ s.SameStores u)

/-- `SET_GAUGE` gives COUNT the value before the increments that land in the cycle, `ADD_GAUGE` adds modulo 2^32; `WAIT_GAUGE`
completes with COUNT once the gauge has reached its target, and parks its source until then (R54, R216). -/
def Obligations.GaugePackets : Prop :=
  ∀ (s t : State) (src : Src) (p : Packet) (fe : Fetched), s.waits = [] →
    (s.Takes src { p with opcode := 0x04 } t fe → ∃ u, exec (.setGauge src p) s = .next u ∧
      t.Completed u src fe.pkt .ok 0 ∧
      u.count (t.basinOf src) (p.p 16 0 12) =
        BitVec.ofNat 32 (p.p 20 0 32) + BitVec.ofNat 32 (s.landedOn (t.basinOf src) (p.p 16 0 12)) ∧
      s.OnlyGauge u (t.basinOf src) (p.p 16 0 12) ∧ u.mem = s.mem ∧ u.desc = s.desc) ∧
    (s.Takes src { p with opcode := 0x05 } t fe → ∃ u, exec (.addGauge src p) s = .next u ∧
      t.Completed u src fe.pkt .ok 0 ∧
      u.count (t.basinOf src) (p.p 16 0 12) =
        s.count (t.basinOf src) (p.p 16 0 12) + BitVec.ofNat 32 (p.p 20 0 32) ∧
      s.OnlyGauge u (t.basinOf src) (p.p 16 0 12) ∧ u.mem = s.mem ∧ u.desc = s.desc) ∧
    (s.Takes src { p with opcode := 0x03 } t fe →
      (reached (s.count (t.basinOf src) (p.p 16 0 12)) (BitVec.ofNat 32 (p.p 20 0 32)) = true →
        ∃ u, exec (.waitGauge src p) s = .next u ∧ s.SameStores u ∧ u.waits = [] ∧
          t.Completed u src fe.pkt .ok (s.count (t.basinOf src) (p.p 16 0 12))) ∧
      (reached (s.count (t.basinOf src) (p.p 16 0 12)) (BitVec.ofNat 32 (p.p 20 0 32)) = false →
        ∃ u w, exec (.waitGauge src p) s = .next u ∧ s.SameStores u ∧ u.waits = [w] ∧ w.src = src ∧
          w.basin = t.basinOf src ∧ w.gauge = p.p 16 0 12 ∧ w.target = BitVec.ofNat 32 (p.p 20 0 32) ∧ u.head? src = none))

/-- `RUN_LIST`: a call goes on at its offset and comes back after itself; a spawn takes the lowest free slot, with the packet's
context and a spawn number of its own. `RETURN` goes back to the innermost caller, or ends the list, whose slot is freed and
whose spawning packet answers, once nothing of it is in flight (R211–R213). -/
def Obligations.Lists : Prop :=
  ∀ (s t : State) (src : Src) (p : Packet) (fe : Fetched),
    (∀ b k l, s.Takes src { p with opcode := 0x08 } t fe → p.rlSpawn = false → src = .list b k → t.list? b k = some l →
      ∃ u l', exec (.runList src p) s = .next u ∧ u.list? b k = some l' ∧ l'.pc = p.rlOffset ∧
        l'.calls = (fe.off + 64) :: l.calls ∧ l'.buf = [] ∧ l'.completed = l.completed + 1 ∧ s.SameStores u) ∧
    (∀ k, s.Takes src { p with opcode := 0x08 } t fe → p.rlSpawn = true → t.freeListSlot p.rlBasin = some k →
      ∃ u l, exec (.runList src p) s = .next u ∧ u.list? p.rlBasin k = some l ∧ l.pc = p.rlOffset ∧
        l.ctx = (t.ctxOf src).getD 0 ∧ l.spawner = src ∧ l.spawn = s.nextSpawn + 1 ∧ u.nextSpawn = s.nextSpawn + 1 ∧
        l.ending = none ∧ l.calls = [] ∧ l.buf = [] ∧ s.SameStores u) ∧
    (∀ b k l off rest, s.Takes src { p with opcode := 0x09 } t fe → src = .list b k → t.list? b k = some l →
      l.calls = off :: rest → ∃ u l', exec (.ret src p) s = .next u ∧ u.list? b k = some l' ∧ l'.pc = off ∧
        l'.calls = rest ∧ l'.buf = [] ∧ l'.completed = l.completed + 1 ∧ s.SameStores u) ∧
    (∀ b k l r, s.Takes src { p with opcode := 0x09 } t fe → src = .list b k → t.list? b k = some l → l.calls = [] →
      t.inFlight src = 0 → l.spawner = .ring r → ∃ u rp, exec (.ret src p) s = .next u ∧ u.list? b k = none ∧
        (u.ring r).waiting = (t.ring r).waiting ++ [rp] ∧
        rp.Answers l.spawnPkt .ok (BitVec.ofNat 32 (l.completed + 1)) false ∧ s.SameStores u)

/-- `TILE_LOCK` on a free tile takes its lock for a lease and writes the owner into the descriptor; on a broken one it clears
BROKEN and answers `TILE_BROKEN`; on another's it answers `BUSY`. `TILE_UNLOCK` by the owner frees the tile (R49–R51). -/
def Obligations.Locks : Prop :=
  ∀ (s t : State) (src : Src) (p : Packet) (fe : Fetched) (b d : Nat), b = t.basinOf src → d = p.p 16 0 14 →
    (s.Takes src { p with opcode := 0x28 } t fe →
      (dBroken (s.descOf b d) = false → dOwner (s.descOf b d) = 0 → (s.locks.filter fun l => l.basin = b).length < 256 →
        ∃ u, exec (.tileLock src p) s = .next u ∧ t.Completed u src fe.pkt .ok 0 ∧
          u.descOf b d = setFld (s.descOf b d) 104 16 (t.callerOf src).owner.toNat ∧
          u.locks = s.locks ++ [⟨b, d, t.callerOf src, (t.ctxOf src).getD 0, s.now + s.lease b⟩] ∧
          (∀ k, k ≠ dkey b d → nget u.desc 0 k = nget s.desc 0 k) ∧ u.mem = s.mem ∧ u.gauge = s.gauge) ∧
      (∀ k, src = .ring k → dBroken (s.descOf b d) = true → ∃ u, exec (.tileLock src p) s = .next u ∧
          t.Completed u src fe.pkt .tileBroken 0 ∧ dBroken (u.descOf b d) = false ∧ u.locks = s.locks) ∧
      (∀ k, src = .ring k → dBroken (s.descOf b d) = false → s.lockedByOther b d (t.callerOf src) = true →
        ∃ u, exec (.tileLock src p) s = .next u ∧ t.Completed u src fe.pkt .busy 0 ∧ u.desc = s.desc ∧ u.locks = s.locks)) ∧
    (s.Takes src { p with opcode := 0x29 } t fe → s.NoneAt b d →
      (s.ownsLock b d (t.callerOf src) = true → ∃ u, exec (.tileUnlock src p) s = .next u ∧
        t.Completed u src fe.pkt .ok 0 ∧ dOwner (u.descOf b d) = 0 ∧
        u.locks = s.locks.filter (fun l => !(l.basin = b ∧ l.desc = d)) ∧ u.mem = s.mem) ∧
      (∀ k, src = .ring k → s.ownsLock b d (t.callerOf src) = false → dBroken (s.descOf b d) = false →
        ∃ u, exec (.tileUnlock src p) s = .next u ∧ t.Completed u src fe.pkt .accessDenied 0 ∧
          u.desc = s.desc ∧ u.locks = s.locks))

/-! ### Packets engines run (R44–R48, R114–R153) -/

/-- A packet that reads tiles first takes its engine's units and opens its first read: READERS counts it, and nothing of its
tile or of memory changes (R44, R46, R92, R121). `FILL` and `LOAD` take a flume and, where no other write has its path, open their
first tile to be written: a `FILL` at once, a `LOAD` once its record's header fits the tile and the record's first block has been
read without an integrity failure (R143, R144, R146, R148). -/
def Obligations.EnginesBegin : Prop :=
  (∀ (c : Instr) (src : Src) (p : Packet) (s t : State) (fe : Fetched) (b d role i l : Nat) (rest : List PStep),
     readingPacket c = some (src, p) → s.Takes src p t fe → s.Numbered → (t.startStream src fe).isSome = true →
     planOf (t.basinOf src) p = .read b d role i l :: rest → s.gateRead b d (t.callerOf src) = .grant →
     ∃ u f, exec c s = .next u ∧ f ∈ u.flights ∧ f.id = s.nextFlight ∧ f.src = src ∧ f.pkt.opcode = p.opcode ∧
       f.pkt.tag = p.tag ∧ f.phase = .reading b d ∧ f.units ≠ [] ∧ (∀ x ∈ f.units, u.unitState x = 1) ∧
       dReaders (u.descOf b d) = dReaders (s.descOf b d) + 1 ∧ u.mem = s.mem ∧ u.gauge = s.gauge ∧
       (∀ k, k ≠ dkey b d → nget u.desc 0 k = nget s.desc 0 k)) ∧
  (∀ (src : Src) (p : Packet) (s t : State) (fe : Fetched), s.Numbered → (t.startStream src fe).isSome = true →
     (∀ g ∈ s.flights, g.onPath (t.basinOf src) g.turnout = false) →
     (s.Takes src { p with opcode := 0x14 } t fe →
       s.WriteFree (t.callerOf src) (t.basinOf src) p.fDst
         (fillMade (s.descOf (t.basinOf src) p.fDst) (ofF32 p.fFill)).bytes.length →
       ∃ u f, exec (.fill src p) s = .next u ∧ f ∈ u.flights ∧ f.id = s.nextFlight ∧ f.pkt.tag = p.tag ∧
         f.phase = .writing (t.basinOf src) p.fDst ∧ dOpen (u.descOf (t.basinOf src) p.fDst) = true) ∧
     (∀ h : RecHdr, s.Takes src { p with opcode := 0x11 } t fe → t.stackFree p.fStack (p.fStride * 256) false = true →
       (t.stackRead p.fStack 256 (some (.flight t.nextFlight))).2.2 = [] →
       h = recordParse ((t.stackRead p.fStack 256 (some (.flight t.nextFlight))).2.1.take 64) →
       h.fits (s.descOf (t.basinOf src) p.fDst) = true → s.WriteFree (t.callerOf src) (t.basinOf src) p.fDst h.len →
       ∃ u f, exec (.load src p) s = .next u ∧ f ∈ u.flights ∧ f.id = s.nextFlight ∧ f.pkt.tag = p.tag ∧
         f.phase = .writing (t.basinOf src) p.fDst ∧ dOpen (u.descOf (t.basinOf src) p.fDst) = true))

/-- A request held at a gate and tried again: granted once nothing bars it, a read's `READERS` counted, a write's tile opened; a
read that is still barred is held with one attempt more (R46, R47). -/
def Obligations.HeldRequests : Prop :=
  ∀ (s : State) (f : Flight) (b d role i l : Nat) (rest : List PStep) (c : Instr), s.flight? f.id = some f →
    c = (if f.inSlot then Instr.holdRetry f.id else .returnedRequestReissue f.id) → f.waitClose = false →
    (∀ g ∈ s.flights, g.phase ≠ .run ∧ g.waiting = false) →
    (f.phase = .heldRead b d → f.plan = .read b d role i l :: rest → f.dropped (.read b d role i l) = false →
      (s.gateRead b d f.caller = .grant → ∃ u g, exec c s = .next u ∧ u.flight? f.id = some g ∧ g.phase = .reading b d ∧
        g.attempts = 0 ∧ g.inSlot = false ∧ dReaders (u.descOf b d) = dReaders (s.descOf b d) + 1 ∧ u.mem = s.mem ∧
        u.gauge = s.gauge) ∧
      (dOpen (s.descOf b d) = true → s.descBad b d = false → dStale (s.descOf b d) = false →
        ∃ u g, exec c s = .next u ∧ u.flight? f.id = some g ∧ g.phase = .heldRead b d ∧ g.attempts = f.attempts + 1 ∧
          u.mem = s.mem ∧ u.gauge = s.gauge)) ∧
    (∀ m, f.phase = .heldWrite b d → f.plan = .write b d role i l :: rest → f.dropped (.write b d role i l) = false →
      f.made = some m → f.isReduce = false → f.mustCompare l m = false → (b, d) ∉ f.opened → (f.isScreen = true → m.violation = false) →
      (s.putFlight { f with phase := .run }).gateWrite b d { f with phase := .run } m.bytes.length false = .grant →
      s.pathTaken f b = false → ∃ u g, exec c s = .next u ∧ u.flight? f.id = some g ∧ g.phase = .writing b d ∧
        g.made = some m ∧ g.attempts = 0 ∧ g.inSlot = false ∧ dOpen (u.descOf b d) = true ∧ u.mem = s.mem ∧ u.gauge = s.gauge)

/-- A write with no burst to come ends: what no burst brought lands, and the tile's close records length, check, zero map and the
rest, clears OPEN, BROKEN and stale, and counts the generation, and its increment is due in the next cycle; a write whose check or
reduce fails closes broken, and one whose tile was lost ends (R45, R48, R53, R77, R151). Then what waits for the close goes on. A matrix
tile whose written bytes have another balance than its check row formed is counted and its block repeated (R105); that the tile stays
open for the repeat's bytes is the model's reading (log entry 80, DEDUCED). A read with no burst to come, or with an uncorrectable word,
ends: a tile that verifies is delivered and READERS falls, and after the last read what waits for it goes on; one that does not verify
is read again, once, and counted; an index beyond its operand ends a strict packet with `INDEX_RANGE` (R46, R81, R242–R244). -/
def Obligations.TilesEnd : Prop :=
  (∀ (s : State) (f : Flight) (b d role i l b' d' : Nat) (rest : List PStep) (wrong : List (Nat × Byte)),
     s.flight? f.id = some f → f.phase = .writing b d → f.plan = .write b' d' role i l :: rest → s.burstsDue f.id = false →
     (∀ (p p1 p2 : PendingClose) (m m1 : Made) (s1 s2 : State), f.pend = some p → f.made = some m →
       s.startsBeats f (dExtentBase (s.descOf b d)) (s.writeLen f b d m) = false →
       (f.isMatrix = true → m.readoutDiffers (s.descOf b d) wrong = false) →
       s.landRest f b d role i p m = (s1, p1, m1) → s1.cameOut f b d p1 m1 wrong = (s2, p2) →
       (p2.broken = false → ∃ (t : State) (g : Flight),
         exec (.tileClose f.id wrong) s = .next (((t.afterClose b d).go f.id).runReady) ∧
         t.descOf b d = closeDesc (s.descOf b d) p2 ∧ dOpen (t.descOf b d) = false ∧ dBroken (t.descOf b d) = false ∧
         dStale (t.descOf b d) = false ∧ dPayloadLen (t.descOf b d) = p2.payloadLen % 2 ^ 13 ∧
         dCheck (t.descOf b d) = p2.check ∧ dGen (t.descOf b d) = dGen (s.descOf b d) + 1 ∧
         (∀ k, k ≠ dkey b d → nget t.desc 0 k = nget s.desc 0 k) ∧
         t.dueIncs = s.dueIncs ++ (if p2.inc = 0 then [] else [⟨p2.gaugeBasin, p2.gauge, p2.inc⟩]) ∧
         t.flight? f.id = some g ∧ g.phase = .run ∧ t.mem = s2.mem ∧ t.gauge = s.gauge) ∧
       (p2.broken = true → ∃ t : State, exec (.tileClose f.id wrong) s = .next (((t.afterBreak b d).go f.id).runReady) ∧
         dOpen (t.descOf b d) = false ∧ dBroken (t.descOf b d) = true ∧ dStale (t.descOf b d) = true ∧
         (∀ k, k ≠ dkey b d → nget t.desc 0 k = nget s.desc 0 k) ∧ t.dueIncs = s.dueIncs ∧ t.mem = s2.mem ∧
         t.gauge = s.gauge)) ∧
     (∀ m, f.isMatrix = true → f.pend.isSome = true → f.made = some m → f.repOf l = none →
       s.startsBeats f (dExtentBase (s.descOf b d)) (s.writeLen f b d m) = false →
       m.readoutDiffers (s.descOf b d) wrong = true → ∃ (t : State) (g : Flight), exec (.tileClose f.id wrong) s = .next (t.go f.id) ∧
         t.flight? f.id = some g ∧ (b, d) ∈ g.opened ∧ PStep.again l ∈ g.plan ∧ l ∉ g.passed ∧
         g.repeats = f.repeats + 1 ∧ t.desc = s.desc ∧ t.gauge = s.gauge ∧
         t.rfld (.mxeCnt f.basin (f.maker l)) 48 16 = min (s.rfld (.mxeCnt f.basin (f.maker l)) 48 16 + 1) (2 ^ 16 - 1)) ∧
     (f.pend = none → (∀ m, f.made = some m →
         s.startsBeats f (dExtentBase (s.descOf b d)) (s.writeLen f b d m) = false) →
       exec (.tileClose f.id wrong) s = .next (((s.putFlight (f.failAt l i .tileBroken)).go f.id).runReady))) ∧
  (∀ (s s0 t : State) (f : Flight) (b d role i l b' d' : Nat) (rest : List PStep) (rows : List Nat) (v : BitVec 512)
     (bs : List Byte) (bad : Bool) (dec : Decoded), s.flight? f.id = some f → f.phase = .reading b d →
     f.plan = .read b' d' role i l :: rest → v = s.descOf b d →
     (f.aborted = true ∨ s.burstsDue f.id = false ∧ s.startsBeats f (dExtentBase v) (dPayloadLen v) = false) →
     s0 = (if f.aborted then s.dropBursts f.id else s) →
     rows = unfetchedRows v (if f.isMatrix && role = roleA then s0.lanePlan f l v else []) →
     s0.readPayload b (dExtentBase v) (dPayloadLen v) f.reader (fun w => rows.isEmpty || fetchedWord v rows w) f.got =
       (t, bs, bad) →
     dec = decodeTile (f.path (elemOf (dFormat v))) v bs →
     (bad = false → dec.index = true → f.pkt.strict = true → f.restore = false → f.isMatrix = false → f.indexed = false →
       dStale v = false → ∃ (u : State) (g : Flight),
         exec (.tileReadEnd f.id) s =
           .next (((if dReaders v ≤ 1 then u.afterReads b d else u).go f.id).runReady) ∧
         u.flight? f.id = some g ∧ g.dead = [(0, .indexRange)] ∧ g.fmtAlerts = f.fmtAlerts + 1 ∧ u.mem = s.mem ∧
         u.rfld (.bsnFmtSt b) 16 16 = min (t.rfld (.bsnFmtSt b) 16 16 + 1) (2 ^ 16 - 1)) ∧
     (bad = false → (f.pkt.strict = true → dec.index = false ∧ role ≠ roleSel) →
       (if rows.isEmpty then dec.tile else clearRows dec.tile rows).checkOf (s.weightClass b v) = dCheck v →
       ∃ (u : State) (g : Flight),
         exec (.tileReadEnd f.id) s =
           .next (((if dReaders v ≤ 1 then u.afterReads b d else u).go f.id).runReady) ∧
         dReaders (u.descOf b d) = dReaders v - 1 ∧ u.flight? f.id = some g ∧ g.phase = .run ∧ g.plan = rest ∧
         u.mem = s.mem ∧ u.gauge = s.gauge) ∧
     ((bad = true ∨ (if rows.isEmpty then dec.tile else clearRows dec.tile rows).checkOf (s.weightClass b v) ≠ dCheck v) →
       (f.pkt.strict = true → dec.index = false ∧ role ≠ roleSel) → f.retries = 0 →
       ∃ u g, exec (.tileReadEnd f.id) s = .next u ∧ u.flight? f.id = some g ∧
         g = { f with retries := 1, asked := [], got := [], indexed := g.indexed, fmtAlerts := g.fmtAlerts } ∧
         u.desc = s.desc ∧ u.mem = s.mem ∧ u.gauge = s.gauge ∧
         u.rfld (.bsnChkSt b) 48 16 = min (t.rfld (.bsnChkSt b) 48 16 + 1) (2 ^ 16 - 1)))

/-- Increments due on a gauge land together, modulo 2^32, and are due no more; a wait whose target the gauge then reaches
completes with the count; a single error of the gauge's line is corrected and counted (R53, R54, R216, R236). -/
def Obligations.IncrementsLand : Prop :=
  ∀ (s : State) (b g n : Nat), s.ListsRun → g < 4096 →
    n = ((s.dueIncs.filter fun x => x.basin = b ∧ x.gauge = g).map (·.inc)).sum → n ≠ 0 →
    (s.waits = [] → ∃ u, exec (.gaugeIncrement b g) s = .next u ∧ u.count b g = s.count b g + BitVec.ofNat 32 n ∧
      u.dueIncs = s.dueIncs.filter (fun x => !(x.basin = b ∧ x.gauge = g)) ∧
      s.OnlyGauge u b g ∧ u.mem = s.mem ∧ u.desc = s.desc ∧ (s.lineFinding b g = .clean → u.regs = s.regs) ∧
      (∀ i, s.lineFinding b g = .corrected i →
        u.rfld (.bsnEccSt b) 32 32 = min (s.rfld (.bsnEccSt b) 32 32 + 1) (2 ^ 32 - 1))) ∧
    (∀ w r, s.waits = [w] → w.basin = b → w.gauge = g → w.src = .ring r →
      reached (s.count b g + BitVec.ofNat 32 n) w.target = true → ∃ u rp, exec (.gaugeIncrement b g) s = .next u ∧
        u.waits = [] ∧ (u.ring r).waiting = (s.ring r).waiting ++ [rp] ∧
        rp.Answers w.pkt .ok (s.count b g + BitVec.ofNat 32 n) false)

/-! ### Packets Rosog executes (R185–R189, R219–R227, R280–R282, R289, R328, R353–R356, R372–R387) -/

/-- `QUERY`: the site's configuration, a context, a right of the asker's context, a basin, the lost and recorded fault events
(R225). `STATS_READ` gives a ring's counters to its own context, packets completed and failed exactly, the others to a sixteenth where
full resolution is off; `FAULT_LOG_READ` copies the records asked for, those of the asker alone if it is a context, into its buffer and
nowhere else, and says where to go on (R226, R289, R388). Where the owner's buffer may lie is the model's reading (log entry 33). -/
def Obligations.QueriesAnswer : Prop :=
  (∀ (s t : State) (src : Src) (p : Packet) (h : Handed) (a : Nat), s.Serves src { p with opcode := 0x40 } t h →
     h.pkt.reservedClear queryFields = true → a = p.p 17 0 8 →
     (p.p 16 0 8 = 0 → ∃ u, exec (.query src p) s = .next u ∧ t.SameStores u ∧
       t.Served u h (t.cfg.config0.toNat % 2 ^ 32) (t.cfg.config0.toNat / 2 ^ 32) (t.cfg.config1.toNat % 2 ^ 32)
         (t.cfg.config1.toNat / 2 ^ 32)) ∧
     (p.p 16 0 8 = 1 → a < 8 → (t.ctxOf src = none ∨ t.ctxOf src = some a) → ∃ u, exec (.query src p) s = .next u ∧
       t.SameStores u ∧ t.ctxs = u.ctxs ∧ t.Served u h
         ((t.resident a).toNat + 2 * (decide (t.active = some a)).toNat + 4 * (t.ctx a).faulted.toNat +
           8 * (decide (t.ringState a = 4)).toNat) (t.ctx a).base
         ((t.regions.filter fun x => some x.entry = (t.ctx a).stackRgn).map fun x => x.len / 2 ^ 24).sum
         (t.lists.filter fun l => l.ctx = a).length) ∧
     (∀ c x, p.p 16 0 8 = 2 → a < 16 → t.ctxOf src = some c →
       (t.ctx c).admissions.find? (fun y => y.right = a) = some x → ∃ u, exec (.query src p) s = .next u ∧
         t.SameStores u ∧ t.Served u h (if x.suspended then 2 else 1) x.bound x.furrow x.stack) ∧
     (p.p 16 0 8 = 3 → a < t.cfg.basins → ∃ u, exec (.query src p) s = .next u ∧ t.SameStores u ∧
       t.Served u h (64 - (t.lists.filter fun l => l.basin = a).length) (t.waits.filter fun w => w.basin = a).length
         (t.inFlightBasin a) ((t.live a).toNat + 2 * (t.retiring.contains a).toNat)) ∧
     (p.p 16 0 8 = 4 → src = .ring 8 → a < t.cfg.basins → ∃ u, exec (.query src p) s = .next u ∧ t.SameStores u ∧
       t.Served u h (nget t.lostEvents 0 a) (t.events.filter fun e => e.basin = a).length 0 0)) ∧
  (∀ (s t : State) (src : Src) (p : Packet) (h : Handed) (obs : Nat → Nat),
     (s.Serves src { p with opcode := 0x41 } t h → h.pkt.reservedClear statsFields = true → p.p 16 0 12 = 0 →
       p.p 17 7 1 = 1 → p.p 18 0 8 = 0 →
       (∀ n, obs n = if bit (t.reg .secObsCfg) 0 then min n (2 ^ 32 - 1) else min n (2 ^ 32 - 1) / 16 * 16) →
       ∃ u, exec (.statsRead src p) s = .next u ∧ t.SameStores u ∧
         t.Served u h (min (t.ring h.ctx).stats.completed (2 ^ 32 - 1)) (min (t.ring h.ctx).stats.failed (2 ^ 32 - 1))
           (obs ((t.ring h.ctx).stats.busy / 1024)) (obs (t.ring h.ctx).stats.alerted)) ∧
     (∀ b off bs n next, s.Serves src { p with opcode := 0x4A } t h → h.pkt.reservedClear faultLogFields = true →
       p.p 24 0 48 % 256 = 0 → 0 < p.p 30 0 8 → p.p 30 0 8 ≤ 128 →
       t.logBuffer (t.ctxOf src) (p.p 24 0 48) (p.p 30 0 8 * 256) = some (b, off) →
       copyRecords (logWants h.pkt (t.ctxOf src)) (p.p 30 0 8 * 256) (t.logMark h.pkt) t.cistern.records ([], 0, none) =
         (bs, n, next) →
       ∃ u m, exec (.faultLogRead src p) s = .next u ∧ m = next.getD (max (p.p 16 0 64) t.cistern.nextId) ∧
         t.Served u h n bs.length (m % 2 ^ 32) (m / 2 ^ 32) ∧ t.BytesLand u b off bs ∧
         u.cistern.records = t.cistern.records ∧ u.desc = t.desc ∧ u.gauge = t.gauge))

/-- `CTX_CREATE` without RECOVER: where the request is sound, the context is free and there is space, the context becomes
resident, with its region at the lowest offset free in every masked basin, a levee entry in each, its rings at the region's
start and its ring paused (R43, R220, R363). After a debug unlock it is refused (R372). -/
def Obligations.ContextsCreated : Prop :=
  ∀ (s t : State) (p : Packet) (h : Handed) (a : CreateAsk) (base : Nat),
    s.Serves (.ring 8) { p with opcode := 0x42 } t h → h.pkt.isRecovery = false →
    h.pkt.reservedClear createFields = true → a = h.pkt.createAsk → t.createBad a = false →
    (t.unlocked = true → ∀ k, ∃ u rp, exec (.ctxCreate (.ring 8) p k) s = .next u ∧
      (u.ring 8).waiting = (t.ring 8).waiting ++ [rp] ∧ rp.Answers h.pkt .refusedState 0 false ∧ u.ctxs = t.ctxs ∧
      t.SameStores u) ∧
    (t.unlocked = false → t.resident a.ctx = false → t.lifecycleBusy h = false → t.maskRetired a.mask = false →
    (∀ b ∈ bitsSet a.mask 64, b ∉ t.retiring ∧ (t.freeLevee b).isSome) →
    lowestFit (t.takenInAll (bitsSet a.mask 64)) t.cfg.spaceGranules a.len = some base →
    (a.stack ≠ 0 → (t.fitStack a.islocal a.stack).isSome) →
    ∃ u w3, exec (.ctxCreate (.ring 8) p true) s = .next u ∧ t.Served u h base base (base + a.cmdGranules) w3 ∧
      u.resident a.ctx = true ∧ (u.ctx a.ctx).base = base ∧ (u.ctx a.ctx).len = a.len ∧ (u.ctx a.ctx).mask = a.mask ∧
      u.ringState a.ctx = 2 ∧ u.reg (.ringRpl a.ctx) = BitVec.ofNat 64 (a.rplLog * 2 ^ 40 + base + a.cmdGranules) ∧
      (∀ b ∈ bitsSet a.mask 64, ∃ n, t.freeLevee b = some n ∧
        u.reg (.bsnLeveeA b n) = BitVec.ofNat 64 (2 ^ 63 + a.ctx * 2 ^ 56 + a.len * 2 ^ 32 + base)) ∧
      u.mem = t.mem ∧ u.active = t.active)

/-- A faulted context recovers, its lists gone and HEAD at TAIL (R221). `CTX_SWITCH` to the active context changes nothing; to another
it pauses the outgoing context's ring and, where nothing dispatched is at work, starts the incoming one's, and stays with Rosog else
(R222, R366). `CTX_DESTROY` from ring 8 or from the context's own ring, with no packet of another context at work, ends every list and
packet of the context, breaks its locks, drops its levee entries and begins its scrub; the scrub sweeps its descriptors and gauges and
destroys its keys and sessions, each in its cycle; after T_SCRUB the context and its ring are gone and the packet is answered on ring 8
with what it ended (R223, R368, R369). A fill of areas that do not overlap, of rows + 1 cycles or more, leaves their words zero and, where
no spare is being filled, no other byte changed (R168). The scrub's order within its timetable is the model's (log entry 23). -/
def Obligations.ContextsRecoverSwitchAndEnd : Prop :=
  (∀ (s t : State) (src : Src) (p : Packet) (h : Handed) (c : Nat),
     (s.Serves src { p with opcode := 0x42 } t h → c < 8 → h.pkt.isRecovery = true →
       h.pkt.params = BitVec.ofNat 384 (16 + c) → (src = .ring 8 ∨ src = .ring c) → (t.ctx c).faulted = true →
       t.rfld (.secCtxSt c) 4 4 = 0 → t.lifecycleBusy h = false →
       ∃ u, exec (.ctxCreate src p true) s = .next u ∧ t.Served u h (t.lists.filter fun l => l.ctx = c).length 0 0 0 ∧
         (u.ctx c).faulted = false ∧ (∀ l ∈ u.lists, l.ctx ≠ c) ∧ u.rfld (.ringHead c) 0 32 = t.ringTail c ∧
         t.SameStores u) ∧
     (s.Serves src { p with opcode := 0x43 } t h → c = p.p 16 0 3 → h.pkt.reservedClear [(16, 0, 3)] = true →
       t.resident c = true →
       (t.active = some c → ∃ u, exec (.ctxSwitch src p) s = .next u ∧ t.Served u h 0 0 0 0 ∧ u.active = some c ∧
         t.SameStores u) ∧
       (t.active ≠ some c → t.lifecycleBusy h = false → t.packetsRun = false →
         ∃ u, exec (.ctxSwitch src p) s = .next u ∧ t.Served u h 0 0 0 0 ∧ u.active = some c ∧
           (t.ringState c = 2 → u.ringState c = 1) ∧
           (∀ c', t.active = some c' → t.ringState c' = 1 → u.ringState c' = 2) ∧ t.SameStores u) ∧
       (t.active ≠ some c → t.lifecycleBusy h = false → t.packetsRun = true →
         ∃ u, exec (.ctxSwitch src p) s = .next u ∧ u.active = none ∧ t.SameStores u ∧
           { h with begun := true } ∈ u.handed ∧ (∀ c', t.active = some c' → t.ringState c' = 1 → u.ringState c' = 2)))) ∧
  (∀ (s t : State) (src : Src) (p : Packet) (h : Handed) (c : Nat), s.Serves src { p with opcode := 0x44 } t h →
     c = p.p 16 0 3 → h.pkt.reservedClear [(16, 0, 3)] = true → t.resident c = true → t.ringState c ≠ 4 →
     t.lifecycleBusy h = false → t.MayScrub → (∀ f ∈ t.flights, f.ctx = c ∧ f.restore = false) →
     (src = .ring 8 ∨ src = .ring c ∧ t.ctxOf src = some c ∧ t.rplFree 8 = true) →
     ∃ u alerts, exec (.ctxDestroy src p) s = .next u ∧ { h with begun := true } ∈ u.handed ∧
       (u.ring 8).waiting = (t.ring 8).waiting ∧
       (src = .ring c → (u.ring 8).reserved = (t.ring 8).reserved + 1) ∧ u.ringState c = 4 ∧ u.flights = [] ∧
       (∀ l ∈ u.lists, l.ctx ≠ c) ∧ (∀ w ∈ u.waits, w.ctx ≠ c) ∧
       (∀ l ∈ u.locks, l.ctx = c → fld l.caller.owner 13 3 = 3) ∧
       t.ScrubBegun u c (.destroy (some h) (t.lists.filter fun l => l.ctx = c).length
         ((t.ctxFlights c).length + (t.waits.filter fun w => w.ctx = c).length +
           (t.lists.filter fun l => l.ctx = c ∧ l.spawner ≠ .headgate).length +
           (t.handed.filter fun x => x.ctx = c ∧ x.src ≠ .ring 8 ∧ x ≠ h).length)
         (t.locks.filter fun l => l.ctx = c && fld l.caller.owner 13 3 ≠ 3).length alerts)) ∧
  (∀ (s : State) (x : ScrubRun) (c c0 was lists packets locks : Nat) (alerts : Byte) (h0 h : Handed), x.ctx = c → c < 8 →
     x.what = .destroy (some h0) lists packets locks alerts → s.ScrubEnds x c0 was none →
     s.handed? h0.src h0.pkt = some h → (h.src = .ring 8 ∨ h.src = .ring c) →
     ∃ rp, (s.scrubOn.ring 8).waiting = (s.ring 8).waiting ++ [rp] ∧ rp.Answers h.pkt .ok (BitVec.ofNat 32 lists) false ∧
       rp.w1 = BitVec.ofNat 32 packets ∧ rp.w2 = BitVec.ofNat 32 locks ∧ rp.w3 = BitVec.ofNat 32 s.tScrub ∧
       (h.src = .ring c → rp.otherRing = true ∧ rp.ring = c) ∧ h ∉ s.scrubOn.handed ∧ s.scrubOn.site = was ∧
       s.scrubOn.scrubs = [] ∧ s.scrubOn.ctx c = .absent ∧ s.scrubOn.ringState c = 0 ∧ s.scrubOn.active ≠ some c ∧
       s.scrubOn.mem = s.mem) ∧
  (∀ (s t : State) (c k root b : Nat) (keep : Bool), t = s.scrubWork c k root keep →
     (∀ d, d < 16384 → (d < 16320 → d / 16 = k → dCtx (s.descOf b d) = c → t.descOf b d = 0) ∧
       (dCtx (s.descOf b d) ≠ c → t.descOf b d = s.descOf b d)) ∧
     (∀ g, g < 4032 → g / 8 = k → nget s.gaugeChk 0 (b * 512 + k) = 0 → s.gctx b g = c →
       t.count b g = 0 ∧ t.gctx b g = 0) ∧
     (k = 511 → ∀ u, t.reg (.mxePred b u) = 0 ∧ t.reg (.mxePredMap b u) = 0) ∧
     (k = 6015 → c < 8 → (∀ x ∈ t.spdm.sessions, x.ring ≠ c) ∧ ∀ i, t.keySlot c i = .empty)) ∧
  (∀ (s : State) (b n : Nat) (areas : List (Nat × Nat)), s.cfg.wf = true → b < s.cfg.basins → s.frozenAt = [] →
     bit (s.reg (.bsnFlipCfg b)) 63 = false → s.cfg.rows + 1 ≤ n → (∀ a ∈ areas, a.2 * 64 ≤ s.cfg.basinBytes) →
     areas.Pairwise (fun a a' => a.2 ≤ a'.1 ∨ a'.2 ≤ a.1) →
     s.fillRes = (List.range s.cfg.checks).map (fun k => (⟨b, k, s.cycle, s.cycle + n, areas, 0⟩ : FillRun)) →
     (∀ a ∈ areas, ∀ w, a.1 ≤ w → w < a.2 → nget (s.fillCycles n).memChk 0 (s.wordAt b w) = 0 ∧
       ∀ i, i < 64 → nget (s.fillCycles n).mem 0 (s.wordAt b w * 64 + i) = 0) ∧
     ((∀ k, s.copyingTo b k = none) → ∀ j, (∀ a ∈ areas, ∀ w, a.1 ≤ w → w < a.2 → j / 64 ≠ s.wordAt b w) →
       nget (s.fillCycles n).mem 0 j = nget s.mem 0 j))

/-- `RIGHT_ADMIT` within every pool records the admission in place of the right's earlier one and, for the active context, sets
EN and BOUND in its basins, and names the pool of least headroom, the first tested among equals; where it exceeds a pool it is refused
and names the first such pool. `RIGHT_RELEASE` drops it and says how many it dropped (R184–R187). -/
def Obligations.RightsAdmittedAndReleased : Prop :=
  ∀ (s t : State) (src : Src) (p : Packet) (h : Handed),
    (∀ a others pre q post, s.Serves src { p with opcode := 0x45 } t h → a = h.pkt.admission →
      h.pkt.reservedClear admitFields = true → t.admitBad a = false → t.maskRetired a.mask = false →
      others = ((t.ctx h.ctx).admissions.filter fun x => x.right ≠ a.right) → t.pools = pre ++ q :: post →
      ((∀ x ∈ t.pools, reservedIn others x + a.inPool x ≤ t.admissible x) →
        (∀ x ∈ pre, t.admissible q - (reservedIn others q + a.inPool q) < t.admissible x - (reservedIn others x + a.inPool x)) →
        (∀ x ∈ post, t.admissible q - (reservedIn others q + a.inPool q) ≤ t.admissible x - (reservedIn others x + a.inPool x)) →
        ∃ u, exec (.rightAdmit src p) s = .next u ∧
          t.Served u h (q.basin * 256 + q.code) (t.admissible q - (reservedIn others q + a.inPool q)) (t.admissible q)
            (reservedIn others q) ∧
          (u.ctx h.ctx).admissions = others ++ [a] ∧
          (t.active = some h.ctx → ∀ b ∈ bitsSet a.mask 64,
            u.rfld (.trnLatCfg b a.right) 63 1 = 1 ∧ u.rfld (.trnLatCfg b a.right) 0 16 = a.bound) ∧ t.SameStores u) ∧
      (∀ k, src = .ring k → (∀ x ∈ pre, reservedIn others x + a.inPool x ≤ t.admissible x) →
        t.admissible q < reservedIn others q + a.inPool q → ∃ u rp, exec (.rightAdmit src p) s = .next u ∧
          (u.ring k).waiting = (t.ring k).waiting ++ [rp] ∧
          rp.Answers h.pkt .oversubscribed (BitVec.ofNat 32 (q.basin * 256 + q.code)) false ∧
          rp.w1 = BitVec.ofNat 32 (reservedIn others q + a.inPool q - t.admissible q) ∧
          rp.w2 = BitVec.ofNat 32 (t.admissible q) ∧ rp.w3 = BitVec.ofNat 32 (reservedIn others q) ∧
          u.ctxs = t.ctxs ∧ t.SameStores u)) ∧
    (s.Serves src { p with opcode := 0x46 } t h → h.pkt.reservedClear [(16, 0, 4)] = true →
      ∃ u, exec (.rightRelease src p) s = .next u ∧
        t.Served u h ((t.ctx h.ctx).admissions.filter fun x => x.right = p.p 16 0 4).length 0 0 0 ∧
        (∀ a ∈ (u.ctx h.ctx).admissions, a.right ≠ p.p 16 0 4) ∧ t.SameStores u)

/-- `CONFIG_SET` from ring 8: class map, regulator and tile registers take the value in every masked basin; a new AUDIT_MS waits
for the next audit (R195, R227). -/
def Obligations.ConfigurationSet : Prop :=
  ∀ (s t : State) (p : Packet) (h : Handed) (v : Word64), s.Serves (.ring 8) { p with opcode := 0x4D } t h →
    v = BitVec.ofNat 64 (p.p 24 0 64) → h.pkt.reservedClear configFields = true →
    t.configBad (p.p 16 0 8) (p.p 17 0 16) v (BitVec.ofNat 64 (p.p 32 0 64)) = false →
    (∀ r : Nat → Reg, (p.p 16 0 8 = 1 ∧ r = .trnQosMap ∨ p.p 16 0 8 = 3 ∧ r = .trnRegCfg ∨ p.p 16 0 8 = 5 ∧ r = .bsnTileCfg) →
      t.maskRetired (BitVec.ofNat 64 (p.p 32 0 64)) = false → ∃ u, exec (.configSet (.ring 8) p) s = .next u ∧
        t.Served u h 0 0 0 0 ∧ (∀ b ∈ bitsSet (BitVec.ofNat 64 (p.p 32 0 64)) 64, u.reg (r b) = v) ∧
        (∀ b, b ∉ bitsSet (BitVec.ofNat 64 (p.p 32 0 64)) 64 → u.reg (r b) = t.reg (r b)) ∧ t.SameStores u) ∧
    (p.p 16 0 8 = 6 → ∃ u, exec (.configSet (.ring 8) p) s = .next u ∧ t.Served u h 0 0 0 0 ∧ u.auditNext = v.toNat ∧
      u.auditMs = t.auditMs ∧ u.regs = t.regs ∧ t.SameStores u)

/-- `MODEL_LOAD` of a sound package: with its range readable, its header and tags authentic and its tiles and descriptors sound,
each basin's weight region is recorded at the base Rosog found, every tile's descriptor is bound at its place, and the reply counts
the tiles, their granules and the most any basin took (R224, R373–R375). -/
def Obligations.ModelsLoad : Prop :=
  ∀ (s t : State) (src : Src) (p : Packet) (h : Handed) (hd body : List Byte) (len base : Nat) (ts : List PkgTile),
    s.Serves src { p with opcode := 0x47 } t h → h.pkt.reservedClear pkgFields = true → p.pkgAddr % 256 = 0 →
    t.unbuilt p.pkgMask = false → p.pkgDesc ≤ 16319 → t.pkgRange h.ctx p.pkgAddr 256 = none →
    t.maskRetired p.pkgMask = false → (∀ b ∈ bitsSet p.pkgMask 64, b ∉ t.retiring) →
    t.pkgFree p.pkgAddr 256 = true → (p.pkgShadow = true → t.streamRoom = true) →
    (t.pkgRead p.pkgAddr 256).2.2 = true → hd = (t.pkgRead p.pkgAddr 256).2.1 →
    len = 256 + leNat ((hd.drop 16).take 8) + 16 * cdiv (leNat ((hd.drop 16).take 8)) (2 ^ 20) →
    t.pkgRange h.ctx p.pkgAddr len = none → (t.pkgRead p.pkgAddr 256).1.pkgFree p.pkgAddr len = true →
    ((t.pkgRead p.pkgAddr 256).1.pkgRead (p.pkgAddr + 256) (len - 256)).2.2 = true →
    t.pkgHeader h.ctx p.pkgSlot hd body = true → pkgTiles p.pkgDesc (leNat ((hd.drop 12).take 4)) body = some ts →
    (∀ x ∈ ts, x.sound = true ∧ bit p.pkgMask x.basin = true ∧ t.descAllotted h.ctx x.basin x.desc = true) →
    (p.pkgShadow = true → t.cfg.siphons ≠ 0 ∧ (ts = [] ∨ (t.fitStack false (shadowUnits ts)).isSome = true)) →
    t.loadDescBad ts = false → (∀ b ∈ bitsSet p.pkgMask 64, needIn ts b = 0 ∨ (t.freeLevee b).isSome) →
    t.weightBase h.ctx ts (bitsSet p.pkgMask 64) p.pkgAddr len = some base → t.rfld (.secCtxSt h.ctx) 4 4 = 0 →
    ∃ u, exec (.modelLoad src p true true body) s = .next u ∧
      t.Served u h ts.length ((ts.map (·.granules)).foldl (· + ·) 0) base (mostIn ts (bitsSet p.pkgMask 64)) ∧
      (u.ctx h.ctx).placed = (t.ctx h.ctx).placed ++ ((bitsSet p.pkgMask 64).filter fun b => needIn ts b ≠ 0).map
        (fun b => (⟨b, base, needIn ts b, some p.pkgSlot⟩ : Placed)) ∧
      ((ts.map fun x => (x.basin, x.desc)).Nodup → ∀ x ∈ layTiles base ts [],
        dBound (u.descOf x.1.basin x.1.desc) = true ∧ dExtentBase (u.descOf x.1.basin x.1.desc) = x.2 % 2 ^ 18 ∧
        dCtx (u.descOf x.1.basin x.1.desc) = h.ctx % 16 ∧ dFormat (u.descOf x.1.basin x.1.desc) = x.1.hdr.fmt % 2 ^ 8)

/-- `POWER_STATE`: a cap, a policy whose zero fields leave what was, and the entry into a sleep state: dispatch stops at once
where no precondition bars it, else the packet ends `REFUSED_STATE` with the condition (R323, R325, R328). `TEST_SCHEDULE`: a
policy whose zero fields leave what was but for DEFER_D; a unit made due, whose packet waits for its test; the report (R282). -/
def Obligations.PowerAskedAndTestsScheduled : Prop :=
  (∀ (s t : State) (p : Packet) (h : Handed), s.Serves (.ring 8) { p with opcode := 0x48 } t h → powerBad h.pkt = false →
     (p.p 16 0 8 = 1 → ∃ u, exec (.powerState (.ring 8) p) s = .next u ∧ t.Served u h 0 0 0 0 ∧
       u.rfld .pwrCap 48 16 = p.p 18 0 16 ∧ t.SameStores u) ∧
     (p.p 16 0 8 = 2 → ∃ u, exec (.powerState (.ring 8) p) s = .next u ∧ t.Served u h 0 0 0 0 ∧
       u.rfld .pwrCfg 0 10 = (if p.p 20 0 16 = 0 then t.rfld .pwrCfg 0 10 else p.p 20 0 16 % 2 ^ 10) ∧
       u.rfld .pwrTherm 40 8 = (if p.p 30 0 8 = 0 then t.rfld .pwrTherm 40 8 else p.p 30 0 8) ∧ t.SameStores u) ∧
     (p.p 16 0 8 = 0 → t.entryCondition (p.p 17 0 3) = none → ∃ u e, exec (.powerState (.ring 8) p) s = .next u ∧
       u.site = stEntering ∧ u.power.entry = some e ∧ e.target = p.p 17 0 3 ∧ e.step = 3 ∧ e.src = some (.ring 8, h.pkt) ∧
       { h with begun := true } ∈ u.handed ∧ t.SameStores u) ∧
     (∀ c, p.p 16 0 8 = 0 → t.entryCondition (p.p 17 0 3) = some c → ∃ u rp, exec (.powerState (.ring 8) p) s = .next u ∧
       (u.ring 8).waiting = (t.ring 8).waiting ++ [rp] ∧ rp.Answers h.pkt .refusedState 0 false ∧
       rp.w1 = BitVec.ofNat 32 c ∧ u.site = t.site ∧ u.rfld .pwrEntrySt 6 2 = 1 ∧ t.SameStores u)) ∧
  (∀ (s t : State) (p : Packet) (h : Handed), s.Serves (.ring 8) { p with opcode := 0x49 } t h → t.testBad h.pkt = false →
     h.begun = false →
     (p.p 16 0 8 = 0 → ∃ u, exec (.testSchedule (.ring 8) p) s = .next u ∧ t.Served u h 0 0 0 0 ∧
       u.cistern.policy.deferD = p.p 19 0 8 ∧
       u.cistern.policy.intervalH = (if p.p 17 0 8 = 0 then t.cistern.policy.intervalH else p.p 17 0 8) ∧ u.regs = t.regs ∧
       t.SameStores u) ∧
     (∀ k b n, p.p 16 0 8 = 1 → h.pkt.testUnit = (k, b, n) → t.live b = true → (t.unitRec k b n).retired = false →
       t.unitState ⟨k, b, n⟩ ≠ 5 → ∃ u, exec (.testSchedule (.ring 8) p) s = .next u ∧
         (u.unitRec k b n).due.isSome ∧ (Src.ring 8, h.pkt) ∈ (u.unitRec k b n).reply ∧
         { h with begun := true } ∈ u.handed ∧ u.regs = t.regs ∧ t.SameStores u) ∧
     (∀ late, p.p 16 0 8 = 2 → late = (t.dueUnits.filter fun x => x.1 = .mxe && (t.freeMxe x.2.1).isNone) →
       ∃ u w2, exec (.testSchedule (.ring 8) p) s = .next u ∧
       t.Served u h t.dueUnits.length late.length w2 t.testsDone ∧
       (∀ x ∈ late, (t.cistern.serviceS - x.2.2.2) / 3600 ≤ w2) ∧
       (w2 = 0 ∨ ∃ x ∈ late, w2 = (t.cistern.serviceS - x.2.2.2) / 3600) ∧ u.cistern = t.cistern ∧ t.SameStores u))

/-- `DETACH_PREPARE` with no context left detaches the site: where every block is drained it answers at once, else the packet stays with
Rosog, the site detaching. With FORCE and no packet at work it first destroys what contexts there are, each with its scrub. Once all is
drained and scrubbed, what the cistern keeps is written and the packet is answered (R353, R354). -/
def Obligations.SiteDetaches : Prop :=
  ∀ (s t : State) (p : Packet) (h : Handed), s.Serves (.ring 8) { p with opcode := 0x4B } t h →
    h.pkt.reservedClear detachFields = true → h.begun = false → t.detachRefused = false →
    t.scrubs = [] → (∀ x ∈ t.handed, x.pkt.op = 0x4B → x = h) →
    (t.residents = [] → (t.startDetach.begin h).refusers (some (.ring 8, h.pkt)) = [] → ∃ u,
      exec (.detachPrepare (.ring 8) p) s = .next u ∧ t.Served u h 0 0 t.cistern.serviceS 0 ∧ u.site = stDetaching ∧
      u.detach = none ∧ u.cistern.savedS = t.cistern.serviceS ∧ bit (u.reg .devMgtAlert) 2 = true ∧ t.SameStores u) ∧
    (t.residents = [] → (t.startDetach.begin h).refusers (some (.ring 8, h.pkt)) ≠ [] → ∃ u,
      exec (.detachPrepare (.ring 8) p) s = .next u ∧ u.site = stDetaching ∧ u.detach = some (0, 0) ∧
      { h with begun := true } ∈ u.handed ∧ t.SameStores u) ∧
    (t.residents ≠ [] → p.p 16 0 1 = 1 → t.flights = [] → t.power.divTo = none → ∃ u,
      exec (.detachPrepare (.ring 8) p) s = .next u ∧ u.site = stScrub ∧
      u.detach = some (t.residents.length, t.residents.length * t.tScrub) ∧ { h with begun := true } ∈ u.handed ∧
      u.scrubs.map (·.ctx) = t.residents ∧ ∀ c ∈ t.residents, u.ringState c = 4) ∧
    (∀ (v : State) (n cycles : Nat), v.detach = some (n, cycles) → v.handed = [{ h with begun := true }] → h.src = .ring 8 →
      h.pkt.op = 0x4B →
      v.refusers (some (.ring 8, h.pkt)) = [] → v.scrubs = [] → v.ListsRun →
      ∃ u rp, v.detachOn = u ∧ (u.ring 8).waiting = (v.ring 8).waiting ++ [rp] ∧
        rp.Answers h.pkt .ok (BitVec.ofNat 32 n) false ∧ rp.w1 = BitVec.ofNat 32 cycles ∧
        rp.w2 = BitVec.ofNat 32 v.cistern.serviceS ∧ u.detach = none ∧ u.cistern.savedS = v.cistern.serviceS ∧
        bit (u.reg .devMgtAlert) 2 = true ∧ u.start.noReturn = v.start.fenceReq)

/-- `ATTACH_COMPLETE` is decided in the order of R356: a reserved field or SITE_ID 0xFFFF, a site that is not attaching;
otherwise the site identifier is recorded and the reply says what is in service. -/
def Obligations.AttachCompletes : Prop :=
  ∀ (s t : State) (p : Packet) (h : Handed), s.Serves (.ring 8) { p with opcode := 0x4C } t h →
    (h.pkt.reservedClear [(16, 0, 16)] = false ∨ p.p 16 0 16 = 0xFFFF → ∃ u rp,
      exec (.attachComplete (.ring 8) p) s = .next u ∧ (u.ring 8).waiting = (t.ring 8).waiting ++ [rp] ∧
      rp.Answers h.pkt .badParam 0 false ∧ u.site = t.site ∧ u.siteId = t.siteId ∧ u.attached = t.attached ∧
      t.SameStores u) ∧
    (h.pkt.reservedClear [(16, 0, 16)] = true → p.p 16 0 16 ≠ 0xFFFF → t.site ≠ stAttaching → ∃ u rp,
      exec (.attachComplete (.ring 8) p) s = .next u ∧ (u.ring 8).waiting = (t.ring 8).waiting ++ [rp] ∧
      rp.Answers h.pkt .refusedState 0 false ∧ u.site = t.site ∧ u.siteId = t.siteId ∧ u.attached = t.attached ∧
      t.SameStores u) ∧
    (h.pkt.reservedClear [(16, 0, 16)] = true → p.p 16 0 16 ≠ 0xFFFF → t.site = stAttaching → ∃ u,
      exec (.attachComplete (.ring 8) p) s = .next u ∧
      t.Served u h t.liveBasins.length t.siphonsUp.length t.activeMxes (t.rfld .devStartSt 16 16) ∧ u.site = stFlow ∧
      u.attached = true ∧ u.siteId = p.p 16 0 16 ∧ t.SameStores u)

/-- `OWNER_LOCK`: the owner locks and unlocks, a context releases itself and takes that back, and the anti-rollback counter
rises to a number both slots allow, never above them and never down (R358, R387). -/
def Obligations.OwnerLocks : Prop :=
  ∀ (s t : State) (src : Src) (p : Packet) (h : Handed), s.Serves src { p with opcode := 0x83 } t h →
    h.pkt.reservedClear lockAskFields = true →
    (∀ v : Bool, t.ctxOf src = none → p.p 16 0 8 = (if v then 0 else 1) → ∃ u, exec (.ownerLock src p) s = .next u ∧
      t.Served u h 0 0 0 0 ∧ u.cistern = { t.cistern with ownerLock := v } ∧ bit (u.reg .secSt) 5 = v ∧ t.SameStores u) ∧
    (∀ (v : Bool) (c : Nat), t.ctxOf src = some c → h.ctx = c → p.p 16 0 8 = (if v then 2 else 3) →
      ∃ u, exec (.ownerLock src p) s = .next u ∧ t.Served u h 0 0 0 0 ∧ (u.ctx c).released = v ∧ u.cistern = t.cistern ∧
        t.SameStores u) ∧
    (∀ n, t.ctxOf src = none → p.p 16 0 8 = 4 → n = p.p 17 0 8 →
      (t.cistern.arCounter ≤ n → n ≤ 64 → n ≤ t.cistern.slotA.svn → n ≤ t.cistern.slotB.svn →
        ∃ u, exec (.ownerLock src p) s = .next u ∧ t.Served u h 0 0 0 0 ∧
          u.cistern = { t.cistern with arCounter := n } ∧ t.SameStores u) ∧
      (n < t.cistern.arCounter → ∃ u, exec (.ownerLock src p) s = .next u ∧ u.cistern = t.cistern ∧ h ∉ u.handed))

/-- Keys: with an attested session of the issuing context's ring and an authentic blob that can be read, `KEY_INSTALL` puts a job
key that no other slot holds into a slot that no weight region uses, and `WEIGHT_KEY_BIND` a weight key whose member list names
the site; removing a key empties its slot (R360, R373, R377). `SPDM_MESSAGE`: a plain request in a sound buffer, but for a key
exchange and a repetition, is answered into the other buffer, with the response's length in word 0; GET_VERSION gives the
versions. The response's bytes but for its code are open (R379, R380), and the codes are the DMTF's, which the spec does not give
(log entry 26, PRESUMED). -/
def Obligations.KeysAndMessages : Prop :=
  (∀ (s t : State) (src : Src) (p : Packet) (h : Handed) (c slot : Nat), c < 8 → h.ctx = c → t.ctxOf src = some c →
     slot = p.p 16 0 4 → slot < (t.ctx c).keySlots.length → t.slotInUse c slot = false → t.frozen c = false →
     (s.Serves src { p with opcode := 0x81 } t h → h.pkt.reservedClear installFields = true →
       (p.p 17 1 1 = 1 → ∃ u, exec (.keyInstall src p true) s = .next u ∧ t.Served u h 0 0 0 0 ∧
         u.keySlot c slot = .empty ∧ t.SameStores u) ∧
       (p.p 17 1 1 = 0 → p.p 18 0 32 ≠ 0 → p.p 22 0 32 % 64 = 0 →
         t.homeBuffer (some c) h.basin (p.p 22 0 32) 60 = true → t.keySession c (p.p 26 0 32) = true →
         (t.readRange h.basin (p.p 22 0 32) 60 ⟨3, ditchTurnout⟩).2.2 = false →
         t.jobElsewhere c slot (BitVec.ofNat 32 (p.p 18 0 32)) = false →
         ∃ u, exec (.keyInstall src p true) s = .next u ∧ t.Served u h 0 0 0 0 ∧
           u.keySlot c slot = .job (BitVec.ofNat 32 (p.p 18 0 32)) (decide (p.p 17 0 1 = 1)) 0 [] ∧ t.SameStores u)) ∧
     (∀ ms, s.Serves src { p with opcode := 0x84 } t h → h.pkt.reservedClear bindFields = true →
       0 < p.p 17 0 8 → p.p 17 0 8 ≤ 64 → p.p 18 0 32 ≠ 0 → p.p 22 0 32 % 64 = 0 →
       p.p 30 0 32 % 64 = 0 → t.homeBuffer (some c) h.basin (p.p 22 0 32) 60 = true →
       t.homeBuffer (some c) h.basin (p.p 30 0 32) (2 * p.p 17 0 8) = true →
       (t.readRange h.basin (p.p 22 0 32) 60 ⟨3, ditchTurnout⟩).2.2 = false →
       (t.readRange h.basin (p.p 30 0 32) (2 * p.p 17 0 8) ⟨3, ditchTurnout⟩).2 = (ms, false) →
       t.siteId ∈ membersOf ms → t.keySession c (p.p 26 0 32) = true → (∀ j e n l, t.keySlot c slot ≠ .job j e n l) →
       ∃ u, exec (.weightKeyBind src p true) s = .next u ∧ t.Served u h (p.p 18 0 32) 0 0 0 ∧
         u.keySlot c slot = .set (BitVec.ofNat 32 (p.p 18 0 32)) (membersOf ms) ∧ t.SameStores u)) ∧
  (∀ (s t : State) (src : Src) (p : Packet) (h : Handed) (m : List Byte) (bad : Bool),
     s.Serves src { p with opcode := 0x80 } t h → s.notReadyNow = false → t.notReadyNow = false →
     h.pkt.reservedClear spdmFields = true → p.p 16 0 32 % 64 = 0 → p.p 22 0 32 % 64 = 0 → 4 ≤ p.p 20 0 16 →
     p.p 20 0 16 ≤ 4160 → 4 ≤ p.p 26 0 16 → p.p 26 0 16 ≤ 4160 → p.p 28 0 32 = 0 →
     t.spdmBuffer (t.ctxOf src) h.basin (p.p 16 0 32) (p.p 20 0 16) t.cfg.ownerReq = true →
     t.spdmBuffer (t.ctxOf src) h.basin (p.p 22 0 32) (p.p 26 0 16) t.cfg.ownerRsp = true →
     (t.readRange h.basin (p.p 16 0 32) (p.p 20 0 16) ⟨3, ditchTurnout⟩).2 = (m, bad) →
     m.getD 1 0 ≠ 0xE4 → m.getD 1 0 ≠ 0xFF → t.scrubs = [] → t.session? 0 = none →
     ∃ u len, exec (.spdmMessage src p true) s = .next u ∧ h ∉ u.handed ∧
       t.Completed u src h.pkt .ok (BitVec.ofNat 32 len) ∧ 4 ≤ len ∧ len ≤ p.p 26 0 16 ∧
       (bad = false → m.getD 1 0 = 0x84 → u.spdm.resp = .versions) ∧
       (bad = false → m.getD 1 0 ≠ 0x84 → m.getD 0 0 ≠ 0x12 → m.getD 0 0 ≠ 0x13 →
         ∃ e, u.spdm.resp = .errorUnsupported e))

/-! ### The headgate and firmware (R385, R391–R409) -/

/-- Frames: a full queue drops and counts one; a bad form answers 1, a number out of sequence 2, each counted; a repeated frame
has its response again; a fetch sends the oldest response, or an empty one. A debug frame reads the register it names, or writes
it where it is a class map or a culvert's configuration (R392–R394). A response has the request's layout; `HG_ATTN_N` is low while
one is queued. That a full queue is seen before a bad form, and that a fetch takes no sequence number, are the model's choices
(log entry 48); which frames fill the queue is its reading (log entry 78, DEDUCED). -/
def Obligations.HeadgateFrames : Prop :=
  ∀ (s : State), s.HgListens →
    (∀ c typ h pl wf, frameOf c = some (typ, h, pl, wf) →
      (s.hgFull = true → ∃ t, exec c s = .next t ∧ t.hg = s.hg ∧
        t.rfld .cstHgSt 0 8 = min (s.rfld .cstHgSt 0 8 + 1) (2 ^ 8 - 1) ∧ s.SameStores t) ∧
      (s.hgFull = false → (wf = false ∨ h.good typ pl = false) → ∃ t, exec c s = .next t ∧
        t.hg = { s.hg with queue := s.hg.queue ++ [⟨typ ||| 0x80, h.fseq, 1, []⟩] } ∧
        t.rfld .cstHgSt 16 16 = min (s.rfld .cstHgSt 16 16 + 1) (2 ^ 16 - 1) ∧ s.SameStores t) ∧
      (∀ x, s.hgFull = false → wf = true → h.good typ pl = true → s.hgRepeated h = some x →
        exec c s = .next { s with hg := { s.hg with queue := s.hg.queue ++ [x] } }) ∧
      (∀ q, s.hgFull = false → wf = true → h.good typ pl = true → s.hgRepeated h = none → s.hg.lastSeq = some q →
        h.fseq ≠ q + 1 → ∃ t, exec c s = .next t ∧
          t.hg = { s.hg with queue := s.hg.queue ++ [⟨typ ||| 0x80, h.fseq, 2, []⟩] } ∧
          t.rfld .cstHgSt 8 8 = min (s.rfld .cstHgSt 8 8 + 1) (2 ^ 8 - 1) ∧ s.SameStores t)) ∧
    (∀ h, h.good 0x04 [] = true →
      (s.hg.queue = [] → exec (.hgFetch h) s = .next { s with hg := { s.hg with out := ⟨0x80, 0, 0, []⟩ } }) ∧
      (∀ x rest, s.hg.queue = x :: rest →
        exec (.hgFetch h) s = .next { s with hg := { s.hg with queue := rest, out := x } })) ∧
    (∀ h, h.good 0x04 [] = false → ∃ t, exec (.hgFetch h) s = .next t ∧ t.hg.out = ⟨0x84, h.fseq, 1, []⟩ ∧
      t.hg.queue = s.hg.queue) ∧
    (s.hgAttnN = if s.hg.queue = [] then none else some false) ∧
    (∀ x : HgResp, x.payload.length < 2 ^ 16 → x.frame.length = x.payload.length + 12 ∧ x.frame.take 2 = [x.typ, x.fseq] ∧
      leNat ((x.frame.drop 2).take 2) = x.payload.length ∧ (x.frame.drop 4).take 4 = [x.fstatus, 0, 0, 0] ∧
      (x.frame.drop 8).take x.payload.length = x.payload ∧
      leNat (x.frame.drop (x.payload.length + 8)) = crc32c (x.frame.take (x.payload.length + 8))) ∧
    (∀ h pl t r, s.HgTakes 0x02 h pl t → debugOk pl = true → pl.length = 16 → t.hg.waitingDebug = [] → t.windowUp = true →
      t.Meets .headgate r 8 false →
      (∀ b k, r ≠ .trnLatSt b k) → debugAddr pl = r.addr.toNat → debugSize pl = 8 →
      ∃ u, exec (.hgDebugRead h pl) s = .next u ∧ u.regs = t.regs ∧ s.SameStores u ∧
        u.hg.queue = s.hg.queue ++ [⟨0x82, h.fseq, 0, leBytes 8 (t.regValue .headgate r).toNat⟩]) ∧
    (∀ h pl t r, s.HgTakes 0x03 h pl t → debugOk pl = true → pl.length = 16 + debugSize pl → t.hg.waitingDebug = [] → t.windowUp = true →
      t.AtRest → s.fresh = [] → t.Meets .headgate r 8 true → ((∃ b, r = .trnQosMap b) ∨ (∃ c, r = .culCfg c)) →
      debugAddr pl = r.addr.toNat → debugSize pl = 8 → (∀ b, r.basin? = some b → t.live b = true) →
      ∃ u, exec (.hgDebugWrite h pl) s = .next u ∧ s.SameStores u ∧
        u.reg r = t.stored r (BitVec.ofNat 64 (leNat (pl.drop 16))) ∧ (∀ r', r' ≠ r → u.reg r' = t.reg r') ∧
        u.hg.queue = s.hg.queue ++ [⟨0x83, h.fseq, 0, []⟩])

/-- Staging: a sound header opens the slot; data come in order and are counted; the end persists RECEIVED, and once all has come the
image is verified while Rosog goes on, and one that does not verify empties the slot; an abort empties it; a status shows it (R398–R400,
R406, R407, R409). That the verification ends in a later idle cycle is the model's choice (log entry 49). -/
def Obligations.ImagesStaged : Prop :=
  ∀ (s t : State) (h : HgHdr) (p : Packet) (d : List Byte),
    (∀ k x, s.HgServes h { p with opcode := 0xC0 } d t → p.reservedClear [] = true → t.updateRefusal false = none →
      t.stage = 0 → headerOk d = true → numAt d 10 2 = 0xE2 → t.cfg.acceptedBy d = true → bodyLenOk (numAt d 24 4) = true →
      x = imageOf d →
      (k = true → t.cistern.arCounter ≤ x.svn → x.svn ≤ 64 → bit t.cistern.revoked x.keyIndex = false →
        ∃ u, exec (.imgBegin h p d k) s = .next u ∧ t.HgAnswered u h { p with opcode := 0xC0 } .ok 0 0 0 0 ∧
          u.cistern = { t.cistern with staged := some x, stagedBytes := d, receivedKept := 0 } ∧ u.stage = 1 ∧
          u.received = 0 ∧ t.SameStores u) ∧
      ((k = false ∨ x.svn < t.cistern.arCounter ∨ 64 < x.svn ∨ bit t.cistern.revoked x.keyIndex = true) →
        ∃ u, exec (.imgBegin h p d k) s = .next u ∧ t.HgAnswered u h { p with opcode := 0xC0 } .accessDenied 0 0 0 0 ∧
          u.cistern = t.cistern ∧ u.stage = 0 ∧ t.SameStores u)) ∧
    (∀ x, s.HgServes h { p with opcode := 0xC1 } d t → p.reservedClear [(16, 0, 32)] = true → d ≠ [] →
      t.cistern.staged = some x → x.rest < 2 ^ 20 → t.stage = 1 →
      (p.p 16 0 32 = t.received → t.received + d.length ≤ x.rest →
        (d.length % 256 = 0 ∨ t.received + d.length = x.rest) → ∃ u, exec (.imgData h p d) s = .next u ∧
          t.HgAnswered u h { p with opcode := 0xC1 } .ok 0 0 0 0 ∧ u.received = t.received + d.length ∧ u.stage = 1 ∧
          u.cistern.staged = some x ∧ u.cistern.stagedBytes = t.cistern.stagedBytes ++ d ∧ t.SameStores u) ∧
      (p.p 16 0 32 ≠ t.received → ∃ u, exec (.imgData h p d) s = .next u ∧
        t.HgAnswered u h { p with opcode := 0xC1 } .badParam t.received 0 0 0 ∧ u.cistern = t.cistern ∧ t.SameStores u)) ∧
    (∀ v x, s.HgServes h { p with opcode := 0xC2 } [] t → p.reservedClear [] = true → t.cistern.staged = some x →
      t.stage ≤ 2 →
      (t.received ≠ x.rest → ∃ u, exec (.imgEnd h p [] v) s = .next u ∧
        t.HgAnswered u h { p with opcode := 0xC2 } .size t.received 0 0 0 ∧ t.SameStores u ∧
        u.cistern = { t.cistern with receivedKept := t.received } ∧ u.stage = t.stage) ∧
      (t.received = x.rest → ∃ u, exec (.imgEnd h p [] v) s = .next u ∧ u.hg.queue = t.hg.queue ∧ t.SameStores u ∧
        u.hg.ending = some ⟨h, { p with opcode := 0xC2 }, [], v, 0⟩ ∧ u.stage = t.stage ∧
        u.cistern = { t.cistern with receivedKept := t.received })) ∧
    (∀ (v u : State) w x, v.hg.ending = some w → v.cistern.staged = some x → v.controlDown = false → v.imgVerified = u →
      u.hg.ending = none ∧ v.SameStores u ∧
      (v.mayRun x w.verdict = true → v.HgAnswered u w.hdr w.pkt .ok x.svn x.bodyLen (fld x.build 0 32) (fld x.build 32 32) ∧
        u.stage = 2 ∧ u.cistern.staged = some { x with body := (v.cistern.stagedBytes.drop 512).take x.bodyLen }) ∧
      (v.mayRun x w.verdict = false → v.HgAnswered u w.hdr w.pkt .accessDenied 0 0 0 0 ∧ u.stage = 0 ∧
        u.cistern.staged = none ∧ u.rfld .cstFwSt 48 16 = min (v.rfld .cstFwSt 48 16 + 1) (2 ^ 16 - 1))) ∧
    (s.HgServes h { p with opcode := 0xC3 } [] t → p.reservedClear [] = true → t.stage ≠ 3 →
      ∃ u, exec (.imgAbort h p []) s = .next u ∧ t.HgAnswered u h { p with opcode := 0xC3 } .ok t.stage 0 0 0 ∧
        u.stage = 0 ∧ u.cistern.staged = none ∧ u.cistern.copyPending = false ∧ t.SameStores u) ∧
    (s.HgServes h { p with opcode := 0xC5 } [] t → p.reservedClear [] = true →
      ∃ u, exec (.imgStatus h p []) s = .next u ∧ u.cistern = t.cistern ∧ u.regs = t.regs ∧ t.SameStores u ∧
        t.HgAnswered u h { p with opcode := 0xC5 } .ok (t.rfld .cstFwSt 0 32) (t.rfld .cstFwSt 32 32)
          ((t.cistern.staged.map (·.bodyLen)).getD 0) ((t.cistern.staged.map (·.svn)).getD 0))

/-- Activation: MODE 1 marks the image for the next start; MODE 0 loads the standby half and, where nothing of Rosog's is in execution,
opens the window: the state block is saved, the instruction-RAM halves change places and the core starts at 0; else it waits for that,
`BUSY` in the end. A window that has passed, with a state block the new image accepts, closes: the image runs and the packet is answered.
Once its copy verifies the standby slot is the active one (R401–R405). Partial resets, by the packet and by either watchdog: the control
domain goes down, data as they were (R385, R404). That the window's length is an operand of the
packet, and that a reset before the window opens ends a handover with `INTERNAL`, are the model's choices (log entry 49). -/
def Obligations.HandoversAndPartialResets : Prop :=
  (∀ (s t : State) (h : HgHdr) (p : Packet) (v : Bool) (us : Nat) (x : ImageInfo),
     (s.HgServes h { p with opcode := 0xC4 } [] t → p.reservedClear [(16, 0, 8)] = true → t.stage = 2 →
       t.updateRefusal true = none → t.cistern.staged = some x → t.cistern.arCounter ≤ x.svn →
       (p.p 16 0 8 = 1 → ∃ u, exec (.imgActivate h p [] v us) s = .next u ∧
         t.HgAnswered u h { p with opcode := 0xC4 } .ok 0 0 0 0 ∧ u.cistern.copyPending = true ∧ u.activeB = t.activeB ∧
         u.cistern = { t.cistern with boot := u.cistern.boot } ∧ u.stage = 4 ∧ u.running = t.running ∧ t.SameStores u) ∧
       (p.p 16 0 8 = 0 → v = true → x.live = true → x.stateMin ≤ t.running.stateVer →
         ∃ u w, exec (.imgActivate h p [] v us) s = .next u ∧ w = ⟨h, { p with opcode := 0xC4 }, [], v, us⟩ ∧
           u.running = t.running ∧ u.stage = t.stage ∧ u.hg.queue = t.hg.queue ∧ t.SameStores u ∧
           (if bit (t.reg .ctlRemap) 1 then u.core.iramA else u.core.iramB) = loadHalf x.body ∧
           (t.atHandoverPoint = true → u.handover = some ⟨4, w, t.now⟩ ∧ u.core.pc = 0 ∧
             u.core.blockVer = some t.running.stateVer ∧ u.rfld .ctlRemap 1 1 = 1 - t.rfld .ctlRemap 1 1 ∧
             u.rfld .ctlRemap 0 1 = t.rfld .ctlRemap 0 1 ∧ u.core.fetchMap = u.reg .ctlRemap) ∧
           (t.atHandoverPoint = false → u.handover = some ⟨2, w, 0⟩ ∧ u.reg .ctlRemap = t.reg .ctlRemap))) ∧
     (∀ w n sv, s.handover = some ⟨4, w, n⟩ → s.cistern.staged = some x → s.controlDown = false → w.windowUs ≤ 5000 →
       n + w.windowUs * rootPerUs ≤ s.now → s.core.blockVer = some sv → x.stateMin ≤ sv → sv ≤ x.stateVer →
       ∃ u, s.handoverOn = u ∧ s.HgAnswered u w.hdr w.pkt .ok w.windowUs x.svn 0 0 ∧ u.running = x ∧ u.handover = none ∧
         u.stage = 3 ∧ u.auditFrom = s.now ∧ u.rfld .secSt 40 8 = x.svn % 256 ∧ u.cistern = s.cistern ∧
         u.reg .ctlRemap = s.reg .ctlRemap ∧ s.SameStores u) ∧
     (∀ w n, s.handover = some ⟨4, w, n⟩ → s.now < n + w.windowUs * rootPerUs → s.handoverOn = s) ∧
     (∀ w n, s.handover = some ⟨2, w, n⟩ → ∃ u, exec .handoverPointTimeout s = .next u ∧ u.handover = none ∧
       s.HgAnswered u w.hdr w.pkt .busy 0 0 0 0 ∧ u.cistern = s.cistern ∧ u.regs = s.regs ∧ u.running = s.running) ∧
     (s.cistern.staged = some x → s.stage = 3 → s.start.released = true → s.controlDown = false →
       (∃ u, exec (.bootSlotCopyDone true) s = .next u ∧ u.activeB = !s.activeB ∧ u.slotInfo u.activeB = x ∧
         u.slotInfo s.activeB = s.slotInfo s.activeB ∧ u.stage = 0 ∧ u.cistern.staged = none ∧ s.SameStores u) ∧
       exec (.bootSlotCopyDone false) s = .next s)) ∧
  (∀ (s : State) (ok : Bool), s.NoRosogLock →
     (s.start.released = true → s.controlDown = false → s.site ≠ stFallow → s.stage ≠ 1 → exec (.controlWatchdog ok) s =
       .next { s with controlDown := true, downSince := s.now, downOk := ok, hg := { s.hg with ending := none } }) ∧
     (∀ w n, s.handover = some ⟨4, w, n⟩ → s.controlDown = false → s.stage ≠ 1 → exec (.handoverWatchdog ok) s =
       .next { s with controlDown := true, downSince := s.now, downOk := ok, hg := { s.hg with ending := none } }) ∧
     (s.controlDown = true → s.downSince + 60 * rootPerMs ≤ s.now → s.handover = none →
       s.mayRun (s.slotInfo s.activeB) s.downOk = true → ∃ u, s.partialOn = u ∧ u.controlDown = false ∧
         u.running = s.slotInfo s.activeB ∧ u.core.iramA = loadHalf (s.slotInfo s.activeB).body ∧
         u.core.dataRam = s.core.dataRam ∧ u.rfld .ctlRemap 0 2 = 0 ∧ s.SameStores u) ∧
     (s.controlDown = true → s.downSince + 60 * rootPerMs ≤ s.now →
       s.mayRun (s.slotInfo s.activeB) s.downOk = false → s.partialOn.site = stFallow) ∧
     (∀ t h p, s.HgServes h { p with opcode := 0xCB } [] t → p.reservedClear [] = true → t.start.released = true →
       t.site ≠ stFallow → ∃ u, exec (.partialReset h p [] ok) s = .next u ∧ u.controlDown = true ∧ u.downOk = ok ∧
         t.HgAnswered u h { p with opcode := 0xCB } .ok 0 0 0 0 ∧ t.SameStores u ∧
         (t.stage = 1 → u.received = t.cistern.receivedKept % 2 ^ 20) ∧ (t.stage ≠ 1 → u.regs = t.regs ∧ u.cistern = t.cistern)))

/-- Nonces; tokens, each bound to the last nonce and to this part: a debug unlock destroys every context first, scrub included,
and then sets TEST_EN and is answered; a revocation sets its key's bit, a service token clears the unit summary; another token
changes nothing of that (R372, R395, R408). A re-test starts a site in `FALLOW` again at fuse load (R346). That a re-test outside
`FALLOW` is `REFUSED_STATE` and its reply stays queued over the start are the model's choices (log entry 50). -/
def Obligations.TokensAndRetests : Prop :=
  ∀ (s t : State) (h : HgHdr) (p : Packet) (d : List Byte) (v : Bool),
    (s.HgServes h { p with opcode := 0xC8 } [] t → p.reservedClear [] = true → ∃ (u : State) (n : BitVec 128),
      exec (.nonce h p []) s = .next u ∧ u.hg.nonce = some n ∧ u.regs = t.regs ∧ t.SameStores u ∧
        t.HgAnswered u h { p with opcode := 0xC8 } .ok (fld n 0 32) (fld n 32 32) (fld n 64 32) (fld n 96 32)) ∧
    (s.HgServes h { p with opcode := 0xC9 } d t → p.reservedClear [] = true → d.length = 7680 →
      (t.tokenOk d v = true → numAt d 0 1 = 1 → t.cistern.ownerLock = false → (∀ c, c < 8 → t.lockedCtx c = false) →
        (t.residents = [] → ∃ u, exec (.token h p d v) s = .next u ∧ t.HgAnswered u h { p with opcode := 0xC9 } .ok 0 0 0 0 ∧
          u.unlocked = true ∧ u.testEn = true ∧ u.hg.nonce = none ∧ t.SameStores u) ∧
        (t.residents ≠ [] → t.flights = [] → t.MayScrub → ∃ u, exec (.token h p d v) s = .next u ∧ u.hg.queue = t.hg.queue ∧
          u.hg.nonce = none ∧ u.unlocked = t.unlocked ∧ u.site = stScrub ∧ u.scrubs.map (·.ctx) = t.residents ∧
          u.hg.unlock = some ⟨h, { p with opcode := 0xC9 }, d, v, 0⟩ ∧ ∀ c ∈ t.residents, u.ringState c = 4)) ∧
      (∀ k, t.tokenOk d v = true → numAt d 0 1 = 2 → k = numAt d 2 1 → t.cistern.slotA.keyIndex ≠ k →
        t.cistern.slotB.keyIndex ≠ k → (t.cistern.staged.any fun x => x.keyIndex = k) = false →
        ∃ u, exec (.token h p d v) s = .next u ∧ t.HgAnswered u h { p with opcode := 0xC9 } .ok 0 0 0 0 ∧
          u.cistern = { t.cistern with revoked := setBit t.cistern.revoked k true } ∧ u.hg.nonce = none ∧ u.regs = t.regs ∧
          t.SameStores u) ∧
      (t.tokenOk d v = true → numAt d 0 1 = 3 → t.residents = [] → ∃ u, exec (.token h p d v) s = .next u ∧
        t.HgAnswered u h { p with opcode := 0xC9 } .ok 0 0 0 0 ∧ (∀ x ∈ u.cistern.units, x.retired = false ∧ x.events = []) ∧
        u.cistern.records = t.cistern.records ∧ u.hg.nonce = none ∧ u.regs = t.regs ∧ t.SameStores u) ∧
      (t.tokenOk d v = false → ∃ u, exec (.token h p d v) s = .next u ∧
        t.HgAnswered u h { p with opcode := 0xC9 } .accessDenied 0 0 0 0 ∧ u.cistern = t.cistern ∧ u.regs = t.regs ∧
        t.SameStores u)) ∧
    (∀ (x : ScrubRun) (c0 was : Nat) (w : HgFrame), s.ScrubEnds x c0 was (some w) → x.ctx < 8 →
      (∃ lists packets locks alerts, x.what = .destroy none lists packets locks alerts) →
      (∀ c, c < 8 → c ≠ x.ctx → s.resident c = false) →
      s.HgAnswered s.scrubOn w.hdr w.pkt .ok 0 0 0 0 ∧ s.scrubOn.unlocked = true ∧ s.scrubOn.testEn = true ∧
        s.scrubOn.hg.unlock = none ∧ s.scrubOn.site = was ∧ ∀ c, c < 8 → s.scrubOn.resident c = false) ∧
    (s.HgServes h { p with opcode := 0xCA } [] t → p.reservedClear [] = true →
      (t.site = stFallow → ∃ u, exec (.retest h p []) s = .next u ∧ u.start.step = 3 ∧ u.start.released = false ∧
        t.HgAnswered u h { p with opcode := 0xCA } .ok 0 0 0 0) ∧
      (t.site ≠ stFallow → ∃ u, exec (.retest h p []) s = .next u ∧ u.regs = t.regs ∧ u.start = t.start ∧ t.SameStores u ∧
        t.HgAnswered u h { p with opcode := 0xCA } .refusedState 0 0 0 0))

/-! ### Banks, arbiters, repairs (R156–R180, R249–R257) -/

/-- With no burst waiting before it, a burst of a flight, a fetch or the window waits at its turnout while its right's limit or a
full queue holds it back; else it is queued, or bypasses the decision on a parked bank; what no turnout asks for is no burst. A
decision grants the one queued burst of its basin that fits, and every AGE_N-th grant is an age grant; one whose turn it is and
that does not fit has the check's age turn from then on. An idle bank side parks on the scrubber (R158–R165, R177). -/
def Obligations.BurstsArbitrated : Prop :=
  ∀ (s : State) (b : Nat), s.flowRuns = true → s.live b = true →
    (∀ who kind w n, (s.burstShape b w n = false ∨ s.sender b who kind w n = none) →
      exec (.burstArrival b who kind w n) s = .next s) ∧
    (∀ who kind w n t right e c, s.burstShape b w n = true → s.turnWait = [] → s.sender b who kind w n = some (t, right) →
      e = ⟨who, t, right, s.requestQos b t right, kind, w, n, s.cycle, s.cycle⟩ → c = (s.burstBank b e 0).2 →
      (s.heldBack b e = true → ∃ u, exec (.burstArrival b who kind w n) s = .next u ∧
        u.turnWait = [(b, { e with qos := 0 })] ∧ u.arbs = s.arbs ∧ u.beats = s.beats ∧ u.regs = s.regs ∧ s.SameStores u) ∧
      (s.heldBack b e = false → s.bypasses b c e = false → ∃ u, exec (.burstArrival b who kind w n) s = .next u ∧
        u.turnWait = [] ∧ (u.arb b c).queue = (s.arb b c).queue ++ [e] ∧ u.beats = s.beats ∧ u.regs = s.regs ∧
        s.SameStores u) ∧
      (s.heldBack b e = false → s.bypasses b c e = true → ∃ u, exec (.burstArrival b who kind w n) s = .next u ∧
        u.turnWait = [] ∧ (u.arb b c).queue = (s.arb b c).queue ∧ u.beats = s.beats ++ s.burstBeats b c e s.cycle ∧
        s.SameStores u ∧ u.rfld (.trnArbSt b t) 0 16 = min (s.rfld (.trnArbSt b t) 0 16 + 1) (2 ^ 16 - 1))) ∧
    (∀ c e, c < s.cfg.checks → s.turnWait = [] → s.mayIssueAt (s.cycle + 1) = true → (b, c) ∉ s.decided →
      (∀ c', c' ≠ c → (s.arb b c').queue = []) → s.turnoutReserved b c e.turnout = false → (s.arb b c).queue = [e] →
      (s.arb b c).ageTurn = false → e.qos < 8 →
      (s.burstFits b c e (s.cycle + 1) = true → ∃ u, exec (.checkDecision b c) s = .next u ∧
        (u.arb b c).queue = [] ∧ u.beats = s.beats ++ s.burstBeats b c e (s.cycle + 1) ∧ s.SameStores u ∧
        u.rfld (.trnArbSt b e.turnout) 32 32 = min (s.rfld (.trnArbSt b e.turnout) 32 32 + 1) (2 ^ 32 - 1) ∧
        (if (s.arb b c).count + 1 < s.arbAgeN b then (u.arb b c).count = (s.arb b c).count + 1
         else (u.arb b c).count = 0 ∧ u.rfld (.bsnArbSt b) 48 16 = min (s.rfld (.bsnArbSt b) 48 16 + 1) (2 ^ 16 - 1))) ∧
      (s.burstFits b c e (s.cycle + 1) = false → s.arbAgeN b ≤ (s.arb b c).count + 1 →
        ∃ u, exec (.checkDecision b c) s = .next u ∧ (u.arb b c).ageTurn = true ∧ (u.arb b c).queue = [e] ∧
          u.beats = s.beats ∧ u.regs = s.regs ∧ s.SameStores u)) ∧
    (∀ k, k < s.cfg.physBanks → s.sideIdle b k = true → (∀ x ∈ s.beats, s.cycle ≤ x.cycle + 2) →
      ∃ u, exec (.parkOnScrubber b k) s = .next u ∧ u.parkedOn b k false = some (25, s.cycle - 1) ∧ u.regs = s.regs ∧ u.mem = s.mem)

/-- The scrubber reads the next parked bank at its row, descriptors and lines in order, in a cycle in which nothing else takes
them, and counts what it corrects; a canary row that is due goes first, its pattern turned (R334). A remapped row is copied word
for word and then serves. A spare bank's copier reads the old bank's rows one by one, at least every 16 cycles, to write each two
cycles later; the spare serves once all are written, and a spare that it replaces is set aside (R249, R250, R255, R256). None of
these beats starts before a change of FLOW_DIV (R312); that a canary row takes one beat of the scrubber's, for its read and its
write, is the model's choice (log entry 60). -/
def Obligations.BanksScrubbedAndRepaired : Prop :=
  ∀ (s : State) (b : Nat), s.flowRuns = true → s.live b = true →
    (bit (s.reg (.bsnScrubCfg b)) 0 = true → s.power.divTo = none →
      (∀ k row, s.scrubNext b = some k → row = nget (s.scrubber b).rows 0 k % s.cfg.rows →
        (s.beats.any fun x => x.basin = b && x.turnout = 25 && x.cycle = s.cycle) = false →
        (∀ n, s.canaryNext b k = some n → ∃ u, exec (.scrubRead b (.bank k)) s = .next u ∧ u.scrubber b = s.scrubber b ∧
          u.power.canaryDue = s.power.canaryDue.erase n ∧ u.regs = s.regs ∧ s.SameStores u ∧
          u.power.canaryFlipped = (if s.power.canaryFlipped.contains n then s.power.canaryFlipped.erase n
            else n :: s.power.canaryFlipped)) ∧
        (s.canaryNext b k = none → s.syndrome (s.cfg.wordNo b k (s.physRow b k row)) = 0 → ∃ u, exec (.scrubRead b (.bank k)) s = .next u ∧
          (u.scrubber b).lastBank = k ∧ nget (u.scrubber b).rows 0 k = (row + 1) % s.cfg.rows ∧ u.mem = s.mem ∧
          u.events = s.events) ∧
        (∀ i, s.canaryNext b k = none → findingOf (s.syndrome (s.cfg.wordNo b k (s.physRow b k row))) = .corrected i →
          ∃ u, exec (.scrubRead b (.bank k)) s = .next u ∧
            u.rfld (.bsnScrubSt b) 16 16 = min (s.rfld (.bsnScrubSt b) 16 16 + 1) (2 ^ 16 - 1))) ∧
      (∀ d, d = (s.scrubber b).descs % 16384 → nget s.descChk 0 (dkey b d) = 0 → s.mayWalk b = true → (s.scrubber b).lines < 512 →
        ∃ u, exec (.scrubRead b (.desc d)) s = .next u ∧ (u.scrubber b).descs = (s.scrubber b).descs + 1 ∧
          u.desc = s.desc ∧ u.events = s.events) ∧
      (∀ j, j = (s.scrubber b).lines % 512 → nget s.gaugeChk 0 (b * 512 + j) = 0 → s.mayWalk b = true →
        (s.scrubber b).descs < 16384 → ∃ u, exec (.scrubRead b (.line j)) s = .next u ∧ (u.scrubber b).lines = (s.scrubber b).lines + 1 ∧
          u.gauge = s.gauge ∧ u.events = s.events)) ∧
    (bit (s.reg (.bsnFlipCfg b)) 63 = false → s.power.divTo = none →
      (∀ k e row, k < s.cfg.physBanks → e < 4 → bit (s.reg (.bsnRemap b k e)) 63 = true →
        row = s.rfld (.bsnRemap b k e) 0 12 → row < s.cfg.rows → (b, k, e) ∉ s.remapped →
        s.sideFree b (s.checkOfBank b k) k false s.cycle = true → s.sideFree b (s.checkOfBank b k) k true s.cycle = true →
        s.syndrome (s.cfg.wordNo b k (s.physRow b k row)) = 0 → ∃ u, exec (.remapCopy b k e) s = .next u ∧
          (b, k, e) ∈ u.remapped ∧ u.regs = s.regs ∧ ∀ i, i < 64 →
            nget u.mem 0 (s.cfg.wordNo b k (s.cfg.rows + e) * 64 + i) =
              nget s.mem 0 (s.cfg.wordNo b k (s.physRow b k row) * 64 + i)) ∧
      (∀ i c w, s.spareCopy? b i = some c → c.row < s.cfg.rows → w = s.cfg.wordNo b c.old (s.physRow b c.old c.row) →
        s.syndrome w = 0 →
        ((s.scrubBanks b).contains c.old = true →
          (s.beats.any fun x => x.basin = b && x.turnout = 25 && x.cycle = s.cycle) = false →
          ∃ u, exec (.spareCopierRead b i) s = .next u ∧ s.SameStores u ∧ u.regs = s.regs ∧
            { c with row := c.row + 1, due := c.due ++ [(c.row, s.cycle, s.rawWord w, 0)] } ∈ u.spareCopies) ∧
        ((s.scrubBanks b).contains c.old = false → c.lastRead + 16 ≤ s.cycle → s.beats = [] →
          ∃ u, exec (.spareCopierRead b i) s = .next u ∧ s.SameStores u ∧ u.regs = s.regs ∧
            (b, s.checkOfBank b c.old, s.cycle + 1) ∈ u.frozenAt ∧
            { c with row := c.row + 1, lastRead := s.cycle, due := c.due ++ [(c.row, s.cycle + 1, s.rawWord w, 0)] } ∈
              u.spareCopies)) ∧
      (∀ i c, s.spareCopy? b i = some c → s.cfg.rows ≤ c.row → c.due = [] → i < 4 →
        ∃ u, exec (.spareBankActive b i) s = .next u ∧ u.spareState b i = 2 ∧ u.spareLogical b i = s.spareLogical b i ∧
          c ∉ u.spareCopies ∧ u.mem = s.mem ∧
          ∀ j, j < 4 → j ≠ i → c.old = s.cfg.banks + j → u.spareState b j = 3))

/-! ### Repeats, restores, faults, tests (R104, R133, R142, R246, R264–R282) -/

/-- A block's comparison that no line fails lets its lane be read out. One that fails is counted on the MXE and the block is
repeated; the lane whose second repeat fails too ends `INTERNAL`. So it is with a VXE's tile, and with a screen's, which is
repeated once (R102–R104, R133, R142, R264–R266). In a cycle that the duty leaves out no engine compares (R331). A due shadow
restore takes an idle flume and, once its record's first block has been read and its header fits the tile, opens the tile (R246).
-/
def Obligations.RepeatsAndRestores : Prop :=
  (∀ (s : State) (f : Flight) (idx lane : Nat), s.flight? f.id = some f → s.compares f = some (idx, lane) →
    (∀ up ws, f.isMatrix = true → ws = upsetWords up (laneWords f lane) →
      (failingLines f lane ws up = [] →
        ∃ t g, exec (.mxeRepeat f.id lane up) s = .next (t.go f.id) ∧ t.flight? f.id = some g ∧ g.phase = .run ∧
          lane ∈ g.passed ∧ (lane, ws) ∈ g.accs ∧ g.plan = f.plan ∧ s.SameStores t) ∧
      (failingLines f lane ws up ≠ [] →
        (f.repOf lane = none → ∃ t g, exec (.mxeRepeat f.id lane up) s = .next (t.go f.id) ∧ t.flight? f.id = some g ∧
          g.phase = .run ∧ PStep.again lane ∈ g.plan ∧ g.dead = f.dead ∧ g.repeats = f.repeats + 1 ∧
          g.alerts &&& 0x40 = 0x40 ∧ s.SameStores t ∧ t.rfld (.mxeCnt f.basin (f.maker lane)) 48 16 =
            min (s.rfld (.mxeCnt f.basin (f.maker lane)) 48 16 + 1) (2 ^ 16 - 1)) ∧
        (∀ r, f.repOf lane = some r → r.fails.length = 2 → lane ≠ sharedLane → f.opened = [] →
          ∃ t g, exec (.mxeRepeat f.id lane up) s = .next ((t.go f.id).runReady) ∧ t.flight? f.id = some g ∧
            (lane, Status.internal) ∈ g.dead ∧ s.SameStores t))) ∧
    (∀ vl, f.kind = .vxe →
      (f.repOf 0 = none → ∃ t g, exec (.vxeRepeat f.id vl) s = .next (t.go f.id) ∧ t.flight? f.id = some g ∧
        g.phase = .run ∧ PStep.again 0 ∈ g.plan ∧ g.dead = f.dead ∧ g.repeats = f.repeats + 1 ∧
        g.alerts &&& 0x40 = 0x40 ∧ s.SameStores t ∧ t.rfld (.vxeCnt f.basin f.unit0) 48 16 =
          min (s.rfld (.vxeCnt f.basin f.unit0) 48 16 + 1) (2 ^ 16 - 1)) ∧
      (∀ r, f.repOf 0 = some r → r.fails.length = 2 → f.opened = [] → ∃ t g, exec (.vxeRepeat f.id vl) s = .next ((t.go f.id).runReady) ∧
        t.flight? f.id = some g ∧ g.dead = [(0, .internal)] ∧ s.SameStores t)) ∧
    (f.kind = .screen →
      (f.repOf 0 = none → ∃ t g, exec (.screenRepeat f.id) s = .next (t.go f.id) ∧ t.flight? f.id = some g ∧
        g.phase = .run ∧ PStep.again 0 ∈ g.plan ∧ g.dead = f.dead ∧ g.repeats = f.repeats + 1 ∧
        g.alerts &&& 0x40 = 0x40 ∧ s.SameStores t ∧ t.rfld (.sxeCnt f.basin f.unit0) 48 16 =
          min (s.rfld (.sxeCnt f.basin f.unit0) 48 16 + 1) (2 ^ 16 - 1)) ∧
      (∀ r, f.repOf 0 = some r → r.fails.length = 1 → f.opened = [] → ∃ t g, exec (.screenRepeat f.id) s = .next ((t.go f.id).runReady) ∧
        t.flight? f.id = some g ∧ g.dead = [(0, .internal)] ∧ s.SameStores t))) ∧
  (∀ (s : State) (f : Flight) (l vl : Nat) (up : Upset), s.flight? f.id = some f → s.dutyAt s.cycle = false →
    exec (.mxeRepeat f.id l up) s = .next s ∧ exec (.vxeRepeat f.id vl) s = .next s ∧
      exec (.screenRepeat f.id) s = .next s) ∧
  (∀ (s : State) (b d n a : Nat) (v : BitVec 512) (h : RecHdr), s.Numbered → s.AtRest →
    s.restores.find? (fun x => x.1 = b) = some (b, d) → s.idleUnit .flume b = some n → v = s.descOf b d →
    a = stackBase + dShadow v * 256 → s.stackFree a 5440 false = true → (s.stackRead a 256 (some (.flight s.nextFlight))).2.2 = [] →
    h = recordParse ((s.stackRead a 256 (some (.flight s.nextFlight))).2.1.take 64) → h.fits v = true → h.check = dCheck v →
    s.descBad b d = false → h.len ≤ dExtentLen v * 256 → s.lockedByOther b d Caller.rosog = false →
    dWriteWait v = false → dOpen v = false → dReaders v = 0 → (∀ g ∈ s.flights, g.onPath b (20 + n) = false) →
    ∃ u f, exec (.shadowRestore b) s = .next u ∧ f ∈ u.flights ∧ f.id = s.nextFlight ∧ f.restore = true ∧
      f.phase = .writing b d ∧ f.units = [⟨.flume, b, n⟩] ∧ dOpen (u.descOf b d) = true ∧ (b, d) ∉ u.restores)

/-- Rosog takes the oldest event and records it: a classified event of an engine is added to its unit's history, and one that
makes the unit permanent retires it, once idle or without a slot. A substitution gives the slot to a free spare with its predictor
empty, or folds it. A basin retires once no context holds any of it, or at once, its locked interfaces in `ERROR`: its words are
filled with zeros in the cycles that follow (what such a fill leaves is in `ContextsRecoverSwitchAndEnd`); a fill that fails ends
in `FALLOW` (R168, R270–R278, R384). That the fill outlasts the retirement is the model's choice (log entry 23). -/
def Obligations.FaultsActedOn : Prop :=
  ∀ (s : State),
    (∀ e rest, s.events = e :: rest → s.eventsServed = true → s.AtRest →
      ((e.kind = .culvert ∨ e.kind = .register ∨ e.kind = .site) → ∃ u, exec .faultEvent s = .next u ∧ u.events = rest ∧
        u.cistern.units = s.cistern.units ∧ u.cistern.nextId = s.cistern.nextId + 1 ∧ s.SameStores u) ∧
      (∀ v, (e.kind = .mxe ∨ e.kind = .vxe ∨ e.kind = .screen ∨ e.kind = .flume) → e.verdict ≠ .unclassified →
        v = { s with events := rest }.addEvent e →
        (v.permanentUnit (v.unitRec e.kind e.basin e.unit) = false → ∃ u, exec .faultEvent s = .next u ∧ u.events = rest ∧
          u.cistern.units = v.cistern.units ∧ u.cistern.nextId = s.cistern.nextId + 1 ∧ s.SameStores u) ∧
        (v.permanentUnit (v.unitRec e.kind e.basin e.unit) = true → e.kind = .mxe →
          (s.unitRec .mxe e.basin e.unit).retired = false → (s.unitRec .mxe e.basin e.unit).testing = false →
          s.slotOf e.basin e.unit = none → ∃ u, exec .faultEvent s = .next u ∧
            u.unitState ⟨.mxe, e.basin, e.unit⟩ = 5 ∧ (u.unitRec .mxe e.basin e.unit).retired = true ∧ s.SameStores u) ∧
        (v.permanentUnit (v.unitRec e.kind e.basin e.unit) = true → e.kind ≠ .mxe →
          (s.unitRec e.kind e.basin e.unit).retired = false → (s.unitRec e.kind e.basin e.unit).testing = false →
          s.unitState ⟨e.kind, e.basin, e.unit⟩ = 0 → ∃ u, exec .faultEvent s = .next u ∧
            u.unitState ⟨e.kind, e.basin, e.unit⟩ = 5 ∧ (u.unitRec e.kind e.basin e.unit).retired = true ∧
            s.SameStores u))) ∧
    (∀ b f k n x, s.substs.find? (fun x => x.basin = b ∧ x.furrow = f ∧ x.slot = k) = some x → s.mxeAt b f k = some n →
      s.unitState ⟨.mxe, b, n⟩ = 0 → ∃ u, exec (.spareSubstitution b f k) s = .next u ∧ x ∉ u.substs ∧
        u.unitState ⟨.mxe, b, n⟩ = 5 ∧ u.rfld (.mxeSt b n) 32 8 = 0xFF ∧ s.SameStores u ∧
        ∀ v, s.freeMxe b = some v → u.rfld (.mxeSt b v) 32 8 = f ∧ u.rfld (.mxeSt b v) 24 8 = k ∧
          u.unitState ⟨.mxe, b, v⟩ = 0 ∧ u.reg (.mxePred b v) = 0 ∧ u.reg (.mxePredMap b v) = 0 ∧
          (x.bit7 = true → (b, f, k) ∈ u.bit7Due)) ∧
    (∀ b, b < s.cfg.basins → b < 64 → s.live b = true →
      (∀ r, r < 9 → s.ringState r ≠ 0 → s.rfld (.ringCmd r) 48 8 ≠ b) →
      (b ∈ s.retiring → s.holdsAny b = false → ∃ u, exec (.basinRetireComplete b) s = .next u ∧ u.live b = false ∧
        (∀ b', b' ≠ b → u.live b' = s.live b') ∧ b ∉ u.retiring ∧ (b, true) ∈ u.cistern.basinsLeft ∧ s.SameStores u ∧
        s.FillAhead u b (cdiv (s.cfg.basinBytes / 64) s.cfg.banks + 1) [(0, s.cfg.basinBytes / 64)]) ∧
      (s.flights = [] → s.waits = [] → s.handed = [] → s.lists = [] →
        (∃ u, exec (.basinRetireImmediate b true) s = .next u ∧ u.live b = false ∧
          s.FillAhead u b (cdiv (s.cfg.basinBytes / 64) s.cfg.banks + 1) [(0, s.cfg.basinBytes / 64)] ∧
          ∀ c, c < 8 → s.resident c = true → bit (s.ctx c).mask b = true → (s.tdisp c = 1 ∨ s.tdisp c = 2) → u.tdisp c = 3) ∧
        (∃ u, exec (.basinRetireImmediate b false) s = .next u ∧ u.site = stFallow)))

/-- In-field tests, none of which starts in an entry: a unit falls due once its interval is past; an idle VXE or a free spare is
tested at once, an MXE in a slot once a spare takes the slot, deferred with none, forced in the end; a test's end puts a passing
unit back in service, in the slot that nothing took meanwhile, and retires a failing one (R279–R281, R323). That each attempt at a deferred
test is recorded, and that a forced test folds its slot until it ends, are the model's choices (log entry 39). -/
def Obligations.UnitsTested : Prop :=
  ∀ (s : State) (kind : UnitKind) (b n : Nat),
    (s.testable kind b n = true → (s.unitRec kind b n).testing = false →
      (s.intervalPast (s.unitRec kind b n) = true → ∃ u, exec (.infieldTestDue kind b n) s = .next u ∧ u.regs = s.regs ∧
        s.SameStores u ∧ (u.unitRec kind b n).due = some ((s.unitRec kind b n).due.getD s.cistern.serviceS)) ∧
      (s.intervalPast (s.unitRec kind b n) = false → exec (.infieldTestDue kind b n) s = .next s) ∧
      (∀ t, (s.unitRec kind b n).due = some t → s.power.entry = none →
        ((kind = .mxe ∧ s.unitState ⟨.mxe, b, n⟩ = 3 ∨ kind = .vxe ∧ s.unitState ⟨.vxe, b, n⟩ = 0) →
          ∃ u, exec (.infieldTestStart kind b n) s = .next u ∧ u.unitState ⟨kind, b, n⟩ = 4 ∧
            (u.unitRec kind b n).testing = true ∧ s.SameStores u) ∧
        (∀ f k, kind = .mxe → s.unitState ⟨.mxe, b, n⟩ = 0 → s.slotOf b n = some (f, k) → s.furrowTesting b f = false →
          s.listBoundary b f = true →
          (∀ v, s.freeMxe b = some v → ∃ u, exec (.infieldTestStart kind b n) s = .next u ∧
            u.unitState ⟨.mxe, b, n⟩ = 4 ∧ u.slotOf b v = some (f, k) ∧ u.unitState ⟨.mxe, b, v⟩ = 0 ∧
            (u.unitRec .mxe b n).testing = true ∧ (u.unitRec .mxe b n).heldSlot = some (f, k) ∧ s.SameStores u) ∧
          (s.freeMxe b = none → s.cistern.policy.deferD ≠ 0 → ∃ u, exec (.infieldTestStart kind b n) s = .next u ∧
            u.slotOf b n = some (f, k) ∧ u.cistern.nextId = s.cistern.nextId + 1 ∧
            u.unitRec .mxe b n = { s.unitRec .mxe b n with waitFrom := none } ∧ s.SameStores u) ∧
          (s.freeMxe b = none → s.cistern.policy.deferD * 86400 ≤ s.cistern.serviceS - t →
            ∃ u, exec (.testForced b n) s = .next u ∧ u.unitState ⟨.mxe, b, n⟩ = 4 ∧ u.slotOf b n = none ∧
              (u.unitRec .mxe b n).testing = true ∧ (u.unitRec .mxe b n).heldSlot = some (f, k) ∧ s.SameStores u)))) ∧
    (∀ pass us, (kind = .mxe ∨ kind = .vxe) → (s.unitRec kind b n).testing = true → (s.unitRec kind b n).reply = [] →
      (s.unitRec kind b n).retired = false → (s.unitRec kind b n).heldSlot = none →
      ∃ u, exec (.infieldTestEnd kind b n pass us) s = .next u ∧ s.SameStores u ∧ u.testsDone = s.testsDone + 1 ∧
        u.unitState ⟨kind, b, n⟩ = (if pass then (if kind = .mxe then 3 else 0) else 5) ∧
        (u.unitRec kind b n).testing = false ∧ (u.unitRec kind b n).retired = !pass) ∧
    (∀ us f k, kind = .mxe → (s.unitRec kind b n).testing = true → (s.unitRec kind b n).reply = [] →
      (s.unitRec kind b n).retired = false → (s.unitRec kind b n).heldSlot = some (f, k) → s.mxeAt b f k = none → f < 255 →
      k < 256 → ∃ u, exec (.infieldTestEnd kind b n true us) s = .next u ∧ s.SameStores u ∧
        u.unitState ⟨.mxe, b, n⟩ = 0 ∧ u.slotOf b n = some (f, k) ∧ (u.unitRec kind b n).testing = false)

/-! ### Intervals (R50, R180, R195–R197, R258, R269) -/

/-- The last cycle of an interval is the cycle that REGULATOR_INTERVAL_END ends, with all that is due in it; at its end the
regulator lowers every right below the class of those that exceeded their bound, or after RESTORE clean intervals raises the
lowered ones (R180); an expired lease breaks its lock (R50); the audit faults the active context of a stalled wait and keeps the
counts it saw (R195–R197). The checker restores a dissenting copy of a hardened register, which reads as before, and counts it; an
odd number of flips in a counter or a log is a parity error, which zeroes it (R258). Service time is kept in the cistern (R269,
R314). Which registers are hardened, and that a parity error clears only the others' bits, are the model's choices (log entries
45, 74). -/
def Obligations.IntervalsAndCheckers : Prop :=
  (∀ (s : State) (b : Nat), s.flowRuns = true → s.live b = true →
     (s.intervalOver b = false → exec (.regulatorIntervalEnd b) s = .next s) ∧
     (s.intervalOver b = true → exec (.regulatorIntervalEnd b) s = .next s.tick) ∧
     (s.liveBasins = [b] → s.regulateAll = if s.intervalOver b then s.regulate b else s) ∧
     (∀ ex u, u = s.regulate b →
       ex = (List.range 16).filter (fun r => s.bounded b r && (s.regulator b).exceeded.contains r) →
       (ex = [] → s.SameStores u ∧ (u.regulator b).start = s.cycle + 1 ∧ (u.regulator b).exceeded = [] ∧
         (u.regulator b).clean =
           (if (s.regulator b).clean + 1 = s.regRestore b then 0 else (s.regulator b).clean + 1) ∧
         ∀ r, r < 16 →
           u.depth b r = s.depth b r - (if (s.regulator b).clean + 1 = s.regRestore b then 1 else 0)) ∧
       (∀ q, ex ≠ [] → q = (ex.map (s.qosOf b)).foldl max 0 →
         s.SameStores u ∧ (u.regulator b).clean = 0 ∧ (u.regulator b).exceeded = [] ∧
         (∀ r, r < 16 → u.depth b r = (if s.qosOf b r < q then min (s.depth b r + 1) 15 else s.depth b r)) ∧
         ∀ r ∈ ex, u.rfld (.trnLatSt b r) 32 16 = min (s.rfld (.trnLatSt b r) 32 16 + 1) (2 ^ 16 - 1))) ∧
     (s.expired b = [] → exec (.lockLeaseScan b) s = .next s) ∧
     (∀ l, s.expired b = [l] → s.NoneAt l.basin l.desc → ∃ u, exec (.lockLeaseScan b) s = .next u ∧
       u.locks = s.locks.filter (fun x => !(x.basin = l.basin ∧ x.desc = l.desc)) ∧
       dOwner (u.descOf l.basin l.desc) = 0 ∧ dBroken (u.descOf l.basin l.desc) = true ∧
       dStale (u.descOf l.basin l.desc) = true ∧ u.mem = s.mem ∧ u.gauge = s.gauge ∧
       u.rfld (.bsnTileSt l.basin) 48 16 = min (s.rfld (.bsnTileSt l.basin) 48 16 + 1) (2 ^ 16 - 1)) ∧
     (s.rosogUp = true →
       (s.auditDue = false → exec .waitAudit s = .next s) ∧
       (s.auditDue = true → (∀ c w, s.active = some c → w ∈ s.waits → w.ctx = c → s.stalled w = false) →
         exec .waitAudit s = .next
           { s with auditSnap := s.waits.map s.snapOf, auditMs := s.auditNext, auditFrom := s.now }) ∧
       (∀ c w, s.auditDue = true → s.active = some c → s.resident c = true → (s.ctx c).faulted = false →
         w ∈ s.waits → w.ctx = c → s.stalled w = true → s.flights = [] →
         ∃ u, exec .waitAudit s = .next u ∧ (u.ctx c).faulted = true ∧ (∀ x ∈ u.waits, x.ctx ≠ c) ∧
           u.auditSnap = s.waits.map s.snapOf ∧ u.auditMs = s.auditNext ∧ u.auditFrom = s.now))) ∧
  (∀ (s : State), s.start.released = true →
     (∀ r k x, Reg.ofOffset s.cfg ((r.addr.toNat - regBase) / 8 * 8) = some r → regBase ≤ r.addr.toNat → r ≠ .errHardenSt →
       (r.present s.cfg = false → exec (.hardenCheck r.addr k x) s = .next s) ∧
       (r.present s.cfg = true → x &&& r.hardened ≠ 0 → x &&& r.parityBits = 0 → ∃ u, exec (.hardenCheck r.addr k x) s = .next u ∧
         (∀ r', r' ≠ .errHardenSt → u.reg r' = s.reg r') ∧ s.SameStores u ∧
         u.rfld .errHardenSt 48 16 = min (s.rfld .errHardenSt 48 16 + 1) (2 ^ 16 - 1)) ∧
       (r.present s.cfg = true → x &&& r.hardened = 0 → (bitsSet (x &&& r.parityBits) 64).length % 2 = 1 →
         ∃ u, exec (.hardenCheck r.addr k x) s = .next u ∧ u.reg r = s.reg r &&& ~~~r.parityBits ∧
           (∀ r', r' ≠ r → r' ≠ .errHardenSt → u.reg r' = s.reg r') ∧ s.SameStores u ∧
           u.rfld .errHardenSt 32 16 = min (s.rfld .errHardenSt 32 16 + 1) (2 ^ 16 - 1))) ∧
     (s.controlDown = false → exec .serviceTimePersist s = .next { s with
       cistern := { s.cistern with savedS := s.cistern.serviceS, eventSeq := (s.reg .clkEventSeq).toNat } }))

/-! ### Siphons and culverts (R55, R147, R296–R307, R351, R352, R378, R413–R420) -/

/-- A request is queued and granted, or finds no entry; a block command performs the granted request for its block, whose
requester moves the data (the model's, log entry 76), or is an access of its own: a read is counted, tried a second time after one
failure and reported after two; a write of a whole block lands in it alone and seals it, one of part of a block that does not
verify leaves it poisoned; the combiner gathers a page and writes it whole (R296–R302). Refresh shows the stack's temperature and
patrols; a calibration round is counted, lets a siphon out of self-refresh serve, and a weak lane gives way to a spare of its
group; a siphon out of service takes nothing more; a replay on the link is invisible (R303–R308). -/
def Obligations.SiphonsServe : Prop :=
  (∀ (s : State) (i : Nat), i < s.cfg.siphons →
     (∀ who b q block w, s.sphState i = 1 → blockOk block = true → s.sphAsker who = some (b, q) →
       (s.queueRoom (s.siphon i) b = true → (s.siphon i).queue = [] → (s.siphon i).grantedAt ≠ some s.cycle →
         ∃ u, exec (.siphonRequest i who block w) s = .next u ∧ (u.siphon i).queue = [] ∧ s.SameStores u ∧
           (u.siphon i).granted = (s.siphon i).granted ++ [⟨who, b, q, block, w, s.now, (s.siphon i).accepted⟩]) ∧
       (s.queueRoom (s.siphon i) b = false → ∃ u, exec (.siphonRequest i who block w) s = .next u ∧ s.SameStores u ∧
         u.rfld (.sphQst i) 0 16 = min (s.rfld (.sphQst i) 0 16 + 1) (2 ^ 16 - 1))) ∧
     (∀ block f1 f2 q, s.sphState i = 1 → blockOk block = true → (s.siphon i).performs block false = true →
       (s.siphon i).request block false = some q →
       exec (.siphonBlockRead i block f1 f2 false) s = .next (s.perform i q f1 f2)) ∧
     (∀ block o d q, s.sphState i = 1 → blockOk block = true → (s.siphon i).performs block true = true →
       (s.siphon i).request block true = some q → s.pageValid i (block / 16) = true →
       exec (.siphonBlockWrite i block o d) s = .next (s.perform i q d.fail1 d.fail2)) ∧
     (∀ block f1 f2, s.sphState i = 1 → blockOk block = true → (s.siphon i).performs block false = true →
       (s.siphon i).request block false = none → s.pageCombining i (block / 16) = none →
       (∀ lost, s.pageValid i (block / 16) = true → s.blockGood i block = true →
         ∃ u, exec (.siphonBlockRead i block f1 f2 lost) s = .next u ∧ s.SameStores u ∧
           u.reg (.sphRdCnt i) = s.reg (.sphRdCnt i) + 1 ∧ u.blockGood i block = !(f1 && f2) ∧
           u.rfld (.sphIntSt i) 48 16 =
             (if f1 then min (s.rfld (.sphIntSt i) 48 16 + 1) (2 ^ 16 - 1) else s.rfld (.sphIntSt i) 48 16) ∧
           u.rfld (.sphIntSt i) 32 16 =
             (if f1 && !f2 then min (s.rfld (.sphIntSt i) 32 16 + 1) (2 ^ 16 - 1) else s.rfld (.sphIntSt i) 32 16) ∧
           u.rfld (.sphIntSt i) 16 16 =
             (if f1 && f2 then min (s.rfld (.sphIntSt i) 16 16 + 1) (2 ^ 16 - 1) else s.rfld (.sphIntSt i) 16 16)) ∧
       (∀ lost, s.pageValid i (block / 16) = true → s.blockGood i block = false →
         ∃ u, exec (.siphonBlockRead i block f1 f2 lost) s = .next u ∧ s.SameStores u ∧
           u.rfld (.sphIntSt i) 16 16 = min (s.rfld (.sphIntSt i) 16 16 + 1) (2 ^ 16 - 1)) ∧
       (s.pageValid i (block / 16) = false → ∃ u, exec (.siphonBlockRead i block f1 f2 false) s = .next u ∧
         u.regs = s.regs ∧ s.SameStores u) ∧
       (∃ u, exec (.siphonBlockRead i block f1 f2 true) s = .next u ∧ u.pageValid i (block / 16) = true ∧ s.SameStores u)) ∧
     (∀ block o bs d good, bs ≠ [] → o + bs.length ≤ 256 → s.sphState i = 1 → blockOk block = true → d.bytes = bs →
       (s.siphon i).performs block true = true → (s.siphon i).request block true = none →
       s.pageCombining i (block / 16) = none →
       good = (decide (bs.length = 256) || s.blockGood i block && !(d.fail1 && d.fail2)) →
       (s.pageValid i (block / 16) = true → ∃ u, exec (.siphonBlockWrite i block o d) s = .next u ∧
         u.reg (.sphWrCnt i) = s.reg (.sphWrCnt i) + 1 ∧ u.mem = s.mem ∧ u.desc = s.desc ∧ u.gauge = s.gauge ∧
         u.blockGood i block = good ∧
         u.rfld (.sphIntSt i) 0 16 = (if good then s.rfld (.sphIntSt i) 0 16
           else min (s.rfld (.sphIntSt i) 0 16 + 1) (2 ^ 16 - 1)) ∧
         (∀ j, j < bs.length → nget u.stack 0 (cellKey i (block * 256 + o) + j) = bs.getD j 0) ∧
         ∀ k, (k < cellKey i (block * 256 + o) ∨ cellKey i (block * 256 + o) + bs.length ≤ k) →
           nget u.stack 0 k = nget s.stack 0 k) ∧
       (s.pageValid i (block / 16) = false → (s.combinerPages i).length < 16 →
         ∃ u, exec (.siphonBlockWrite i block o d) s = .next u ∧ u.pages = s.pages ∧ u.mem = s.mem ∧ u.desc = s.desc ∧
           u.gauge = s.gauge ∧ u.combining = s.combining ++
             [(pageKey i (block / 16), pageBytes (block % 16 * 256 + o) bs.length, s.now)])) ∧
     (∀ page m since, s.pageCombining i page = some (m, since) →
       (since + 256 * rootPerSph ≤ s.now → ∃ u, exec (.combinerFlush i page) s = .next u ∧ u.pageValid i page = true ∧
         u.pageCombining i page = none ∧ u.reg (.sphWrCnt i) = s.reg (.sphWrCnt i) + 16 ∧ s.SameStores u ∧
         ∀ j, j < 16 → u.blockGood i (page * 16 + j) = true) ∧
       (s.now < since + 256 * rootPerSph → exec (.combinerFlush i page) s = .next s))) ∧
  (∀ (s : State) (i : Nat), i < s.cfg.siphons →
     (∀ temp c f1 f2, s.sphState i = 1 →
       (bit (s.reg (.sphCfg i)) 8 = false → ∃ u, exec (.refreshSlot i temp c f1 f2) s = .next u ∧
         u.rfld (.sphSt i) 16 8 = temp % 256 ∧ u.rfld (.sphSt i) 0 1 = (if 85 < temp then 1 else 0) ∧
         u.siphon i = s.siphon i ∧ s.SameStores u) ∧
       (∀ n, bit (s.reg (.sphCfg i)) 8 = true → s.nextPatrol i (s.siphon i).patrol = some n → n + 1 < patrolBlocks →
         (∀ q ∈ (s.siphon i).queue ++ (s.siphon i).granted, q.write = true → q.block ≠ n) → s.blockGood i n = true →
         ∃ u, exec (.refreshSlot i temp c f1 f2) s = .next u ∧ u.rfld (.sphSt i) 16 8 = temp % 256 ∧
           (u.siphon i).patrol = n + 1 ∧ s.SameStores u ∧ u.rfld (.sphPatrol i) 0 16 =
             (if c && !(f1 && f2) then min (s.rfld (.sphPatrol i) 0 16 + 1) (2 ^ 16 - 1) else s.rfld (.sphPatrol i) 0 16))) ∧
     (∀ margin, (s.sphState i = 1 ∧ (s.site = stFlow ∨ s.site = stSlack) ∨ s.sphState i = 3 ∧ s.site ≠ stPond ∧
         s.site ≠ stTrickle ∧ s.site ≠ stFallow ∧ s.site ≠ stEntering) →
       (∃ u, exec (.linkCalibration i [] margin) s = .next u ∧ u.sphState i = 1 ∧
         u.rfld (.sphLinkSt i) 32 32 = min (s.rfld (.sphLinkSt i) 32 32 + 1) (2 ^ 32 - 1) ∧
         u.rfld (.sphLinkSt i) 0 16 = margin % 2 ^ 16 ∧ u.cistern = s.cistern ∧ s.SameStores u) ∧
       (∀ l, l < 384 → s.retiredIn i (l / 32) < 2 → ∃ u, exec (.linkCalibration i [l] margin) s = .next u ∧
         u.cistern.lanesRetired = (i, l) :: s.cistern.lanesRetired ∧
         u.rfld (.sphLinkSt i) 16 8 = s.rfld (.sphLinkSt i) 16 8 - 1 ∧ u.sphState i = 1 ∧ s.SameStores u)) ∧
     (s.placements = [] → ∃ u, exec (.siphonOutOfService i) s = .next u ∧ u.sphState i = 2 ∧ s.SameStores u ∧
       (s.sphState i ≠ 2 → (u.siphon i).queue = [] ∧ (u.siphon i).granted = [] ∧ ∀ x ∈ u.combining, x.1 / 2 ^ 20 ≠ i)) ∧
     exec (.siphonLinkReplay i) s = .next s)

/-- An arrival within the credits granted that no job key here opens is answered `ACCESS_DENIED` and counted; one with a key, a
fresh counter and a tile of its context that it fits opens its tile. A response answers its tile. Credits let a waiting message
go. A failed lane uses a spare; with none left the culvert is fenced for good (R55, R147, R378, R413–R417). In a scrub no arrival
and no response is accepted (R369). Which states of a link take what, and that an unknown status is `INTERNAL`, are the model's
choices (log entry 46). -/
def Obligations.CulvertsCarry : Prop :=
  ∀ (s : State) (c : Nat), c < 4 → s.start.released = true →
   (s.site = stScrub → (∀ m rec ok, exec (.culvertArrival c m rec ok) s = .next s) ∧
     ∀ x st, exec (.culvertResponse c x st) s = .next s) ∧
   (s.site ≠ stScrub →
    (∀ m rec ok n, s.Awake → s.site ≠ stFallow → s.site ≠ stDetaching → s.culState c = culUp → m.typ = 1 →
      n = messageFlits (if bit m.flags 1 then 64 * cdiv rec.length 65 else rec.length) (bit m.flags 1) →
      n ≤ s.creditsOut c → s.jobHome m.jobId = none → ∃ u, exec (.culvertArrival c m rec ok) s = .next u ∧ s.SameStores u ∧
        (u.culvert c).responses = (s.culvert c).responses ++ [(m.xtag, .accessDenied)] ∧
        u.rfld (.culSt c) 16 16 = min (s.rfld (.culSt c) 16 16 + 1) (2 ^ 16 - 1)) ∧
    (∀ m rec cx k j n seen b d, s.Awake → s.site ≠ stFallow → s.site ≠ stDetaching → s.culState c = culUp → m.typ = 1 →
      s.AtRest → s.Numbered → s.jobHome m.jobId = some (cx, k) → s.keySlot cx k = .job j false n seen →
      (s.keySlot cx k).accepts m.srcSite.toNat m.counter.toNat = true → b = m.destBasin.toNat → d = fld m.dstDesc 0 14 →
      bit m.flags 0 = false → bit m.flags 1 = false → messageFlits rec.length false ≤ s.creditsOut c → s.live b = true →
      s.landingDenied cx m = false → s.landingFits m rec = true → (∀ g ∈ s.flights, g.onPath b (20 + c) = false) →
      s.WriteFree Caller.none b d (recordParse (rec.take 64)).len →
      ∃ u f, exec (.culvertArrival c m rec true) s = .next u ∧ f ∈ u.flights ∧ f.id = s.nextFlight ∧
        f.arrival.isSome = true ∧ f.phase = .writing b d ∧ dOpen (u.descOf b d) = true ∧
        (u.culvert c).responses = (s.culvert c).responses) ∧
    (∀ x st e f r, (s.culvert c).exchanges.find? (fun y => y.xtag = x && y.sent) = some e →
      s.flight? e.flight = some f → f.responses = [(e.tile, none)] →
      (f.phase ≠ .responses → ∃ u g, exec (.culvertResponse c x st) s = .next u ∧ s.SameStores u ∧
        (u.culvert c).exchanges = (s.culvert c).exchanges.filter (·.xtag ≠ e.xtag) ∧
        u.flight? e.flight = some g ∧ g.responses = [(e.tile, some (responseStatus st))]) ∧
      (f.phase = .responses → f.plan = [] → f.isOp 0x13 = true → f.src = .ring r → s.ListsRun → s.AtRest →
        (∀ g ∈ s.flights, g.id = f.id → g = f) → ∃ u rp, exec (.culvertResponse c x st) s = .next u ∧
          s.flights.length = u.flights.length + (s.flights.filter fun g => g.id = f.id).length ∧
          (u.ring r).waiting = (s.ring r).waiting ++ [rp] ∧ rp.tag = f.pkt.tag ∧ rp.seq = f.pkt.seq ∧
          (responseStatus st ≠ .ok → rp.status = responseStatus st))) ∧
    (s.culState c = culUp →
      (∃ u, exec (.flitReplay c) s = .next u ∧ s.SameStores u ∧
        u.rfld (.culSt c) 48 16 = min (s.rfld (.culSt c) 48 16 + 1) (2 ^ 16 - 1)) ∧
      (∀ n, (s.culvert c).exchanges = [] → ∃ u, exec (.culvertCreditReceived c n) s = .next u ∧ s.SameStores u ∧
        (u.culvert c).credits = min 1024 ((s.culvert c).credits + n)) ∧
      (∀ n e, (s.culvert c).exchanges = [e] → e.sent = false → e.flits ≤ min 1024 ((s.culvert c).credits + n) →
        ∃ u, exec (.culvertCreditReceived c n) s = .next u ∧ s.SameStores u ∧
          (u.culvert c).exchanges = [{ e with sent := true }] ∧
          (u.culvert c).credits = min 1024 ((s.culvert c).credits + n) - e.flits)) ∧
    (∀ out lo, lo = (if out then 40 else 32) → s.culState c ≠ culFailed →
      (s.rfld (.culSt c) lo 8 ≠ 0 → ∃ u, exec (.culvertLaneFail c out) s = .next u ∧ u.culState c = s.culState c ∧
        u.rfld (.culSt c) lo 8 = s.rfld (.culSt c) lo 8 - 1 ∧ s.SameStores u) ∧
      (s.rfld (.culSt c) lo 8 = 0 → (s.culvert c).exchanges = [] → ∃ u, exec (.culvertLaneFail c out) s = .next u ∧
        u.culState c = culFailed ∧ c ∈ u.cistern.culRetired ∧ s.SameStores u)) ∧
    (∀ good, s.culState c = culTraining → ∃ u, exec (.culvertTrained c good) s = .next u ∧
      u.culState c = (if good then culUp else culFailed) ∧ s.SameStores u ∧
      ((∀ c', c' < 4 → c' ≠ c → s.culState c' ≠ culTraining) → u.start.fenceAck = false)))

/-- The fence: asserted, every working culvert is fenced; acknowledged once no exchange remains, or at the time limit, which
drops what remains; deasserted, working culverts train (R351, R352, R429). -/
def Obligations.FenceHolds : Prop :=
  ∀ (s : State), s.start.released = true → s.flights = [] →
    (s.site ≠ stDry → s.start.fencing = false → ∃ u, exec .fenceReqAssert s = .next u ∧ u.start.fenceReq = true ∧
      u.start.fencing = (!s.start.fenceAck || !u.exchangesDone) ∧ s.SameStores u ∧
      ∀ c, c < 4 → u.culState c = (if s.culState c = culFailed then culFailed else culFenced)) ∧
    (s.start.pwrGood = true → s.start.fenceAck = true → s.start.fencing = false → s.site ≠ stFallow → s.site ≠ stDry →
      ∃ u, exec .fenceReqDeassert s = .next u ∧ u.start.fenceReq = false ∧ s.SameStores u ∧
        ∀ c, c < 4 → u.culState c = (if s.culState c = culFailed then culFailed else culTraining)) ∧
    (s.start.fencing = true → s.start.fenceReq = true →
      (s.exchangesDone = true → exec .fenceComplete s = .next { s with
        start := { s.start with fencing := false, fenceAck := true } }) ∧
      (s.exchangesDone = false → exec .fenceComplete s = .next s) ∧
      (∃ u, exec .fenceTimeout s = .next u ∧ u.start.fenceAck = true ∧ u.start.fencing = false ∧ s.SameStores u ∧
        ∀ c, c < 4 → (u.culvert c).exchanges = []))

/-! ### Start, power, sleep (R311–R349) -/

/-- What starts a start, and what it leaves: power, the reset pin, the clock, the keeper (R313, R317, R338, R339). The steps of
a start, one after another; the boot image is the active slot's, else the other's, else `FALLOW`; known-answer tests that fail
end in `FALLOW`; step 6 waits for VDD_CORE to settle (R347); release leaves an attaching site with ring 8 running; a step that times out
ends in `FALLOW` (R338–R344, R348). What each step finds is an operand of START_STEP, and the cause of a step that
times out where R343 names none is open: the model's choices (log entries 5, 61); ramping is shown in step 5 alone (log entry 77). -/
def Obligations.StartsRun : Prop :=
  (∀ (s : State),
     (s.start.pwrGood = false → ∃ u, exec .powerGoodRise s = .next u ∧ u.start.pwrGood = true ∧ u.start.step = 1 ∧
       u.start.released = false ∧ u.cistern.records = s.cistern.records ∧ u.mem = []) ∧
     (s.start.pwrGood = true → ∃ u, exec .powerGoodFall s = .next u ∧ u.start.pwrGood = false ∧ u.start.step = 0 ∧
       u.start.released = false ∧ u.cistern.records = s.cistern.records ∧ u.mem = [] ∧ u.tap.driven = false) ∧
     (s.start.pwrGood = true → 3 ≤ s.start.step → ∃ u, exec .devResetAssert s = .next u ∧ u.start.resetAsserted = true ∧
       u.start.step = 3 ∧ u.start.released = false ∧ u.rfld .pwrSt 32 8 = 1 ∧ u.reg .clkRootCnt = s.reg .clkRootCnt ∧
       u.cistern.records = s.cistern.records) ∧
     (s.start.resetAsserted = true → s.start.pwrGood = true → s.start.step = 3 → s.start.clockLost = false →
       ∃ u, exec .devResetDeassert s = .next u ∧ u.start.resetAsserted = false ∧ u.rfld .devStartSt 48 4 = 3 ∧
         u.tap.instr ≠ .extest) ∧
     (s.start.pwrGood = true → s.start.clockLost = false → ∃ u, exec .clockLoss s = .next u ∧ u.start.clockLost = true ∧
       u.start.step = (if s.start.step < 3 then s.start.step else 3) ∧ (3 ≤ s.start.step → u.start.released = false) ∧
       u.rfld .pwrSt 32 8 = 3 ∧ u.rfld .clkSt 0 2 = 2 ∧
       u.rfld .clkSt 48 16 = min (s.rfld .clkSt 48 16 + 1) (2 ^ 16 - 1)) ∧
     (s.start.clockLost = true → ∃ u, exec .clockRestart s = .next u ∧ u.start.clockLost = false ∧
       u.start.step = s.start.step ∧ u.cistern = s.cistern) ∧
     (s.start.pwrGood = true → ∃ u, exec .keeperBrownOut s = .next u ∧ u.start.step = 1 ∧ u.start.released = false ∧
       u.rfld .pwrSt 32 8 = 2 ∧ u.mem = [])) ∧
  (∀ (s : State) (r : StepResult), s.startHeld = false →
     (s.start.step = 1 → ∃ u, exec (.startStep r) s = .next u ∧ u.start.step = 2) ∧
     (s.start.step = 2 → ∃ u, exec (.startStep r) s = .next u ∧ u.start.step = 3) ∧
     (s.start.step = 3 → ∃ u, exec (.startStep r) s = .next u ∧ u.start.step = 4 ∧ u.rfld .clkSt 0 2 = 1 ∧
       u.rfld .devStartSt 48 4 = 4) ∧
     (s.start.step = 4 → s.cistern.copyPending = false →
       (∀ b o, s.bootSlot (bit r.imagesOk 0) (bit r.imagesOk 1) = some (b, o) → ∃ u, exec (.startStep r) s = .next u ∧
         u.start.step = 5 ∧ u.running = s.slotInfo b ∧ u.rfld .devStartSt 40 1 = b.toNat ∧
         u.rfld .devStartSt 41 1 = o.toNat ∧ u.rfld .secSt 40 8 = (s.slotInfo b).svn % 256) ∧
       (s.bootSlot (bit r.imagesOk 0) (bit r.imagesOk 1) = none → ∃ u, exec (.startStep r) s = .next u ∧
         u.site = stFallow ∧ u.rfld .devStartSt 56 8 = 1)) ∧
     (s.start.step = 5 →
       (r.katFailed ≠ 0 → ∃ u, exec (.startStep r) s = .next u ∧ u.site = stFallow ∧ u.rfld .devStartSt 56 8 = 2) ∧
       (∀ v, v = ({ s with start := { s.start with ms := s.start.ms + r.ms } }.putFld .devStartRes 32 8
           r.katFailed.toNat).verdicts r → v.fallowCause r = none →
         ∃ u, exec (.startStep r) s = .next u ∧ u.start.step = 6 ∧ u.reg .devBasinLive = v.reg .devBasinLive)) ∧
     (s.start.step = 6 → s.coreSettled = false → exec (.startStep r) s = .next s) ∧
     (s.start.step = 6 → s.coreSettled = true → ∃ u, exec (.startStep r) s = .next u ∧ u.start.step = 7 ∧ u.rfld .pwrPerf 16 4 = 4 ∧
       bit (u.reg .pwrCfg) 40 = true) ∧
     (∀ ms, s.start.step = 7 → ∃ u, exec (.release ms) s = .next u ∧ u.start.released = true ∧ u.start.step = 8 ∧
       u.site = stAttaching ∧ u.ringState 8 = 1 ∧ bit (u.reg .devMgtAlert) 1 = true ∧ u.cistern.blank = false ∧
       u.rfld .devStartSt 43 1 = s.cistern.blank.toNat ∧ u.duty = 16) ∧
     (s.start.step ≠ 0 → ∃ u, exec .startStepTimeout s = .next u ∧ u.site = stFallow ∧ u.mem = [] ∧
       (s.start.step = 4 → u.rfld .devStartSt 56 8 = 1)))

/-- The power manager: readings, the duty the cap allows, the lowest of a millisecond published; supply requests settled or
failed; the trip, the margin, the keeper's READY (R315–R317, R331–R335). A canary raise holds MARGIN_LOW until its level has settled and for
a millisecond more. That duty is compared in exact numbers, that it stands during a trip, and that what the sensors and canaries read is an
operand, are the model's choices (log entries 5, 60). -/
def Obligations.PowerManaged : Prop :=
  ∀ (s : State),
    (s.managing = true →
      (∀ r, ∃ u, exec (.powerSample r) s = .next u ∧ u.power.samples = (r.total :: s.power.samples).take 100 ∧
        u.rfld .pwrPower 32 16 = min r.total 0xFFFF ∧ u.rfld .pwrTherm 56 8 = r.dieMax % 256 ∧ s.SameStores u ∧
        (s.start.thermTrip = true ∨ s.site = stScrub → u.duty = s.duty) ∧
        (s.start.thermTrip = false → s.site ≠ stScrub → s.hot r = false → s.power.thermal = false → u.duty =
          min (capDuty s.capUnits ((r.total :: s.power.samples).take 100) r.total r.static s.duty) 16) ∧
        (s.start.thermTrip = false → s.hot r = true → 1 ≤ s.duty → u.duty ≤ s.duty)) ∧
      (∀ n, s.power.dMs ≠ [] → ∃ u, exec (.powerMsUpdate n) s = .next u ∧ u.power.dMs = [] ∧ s.SameStores u ∧
        u.rfld .pwrPerf 8 5 = minDuty s.power.dMs)) ∧
    (s.start.pwrGood = true → s.site ≠ stDry → s.start.thermTrip = false → ∃ u, exec .thermalTrip s = .next u ∧
      u.start.thermTrip = true ∧ u.thermTripN = some false ∧ bit (u.reg .devMgtAlert) 6 = true ∧ s.SameStores u ∧
      u.rfld .pwrTherm 16 16 = min (s.rfld .pwrTherm 16 16 + 1) (2 ^ 16 - 1)) ∧
    (s.start.thermTrip = true → (∀ cyc, s.mayIssueAt cyc = false) ∧ ∃ u, exec .thermalTripRelease s = .next u ∧
      u.start.thermTrip = false ∧ u.thermTripN = none ∧ u.duty = 1 ∧ u.power.thermal = true ∧ s.SameStores u) ∧
    (∀ q, s.power.supply = some q → s.power.entry = none → s.power.sramWant = 0 →
      (q.granted = true → s.power.divWait = none → ∃ u, exec .supplySettled s = .next u ∧ u.power.supply = none ∧
        u.coreReq = s.coreReq ∧ u.sramReq = s.sramReq ∧ u.flowDiv = s.flowDiv ∧ s.SameStores u ∧
        (s.power.lowCanary ≠ 0 → s.power.lowCanary ≤ s.sramGrant → u.power.lowCanary = 0 ∧
          u.power.lowClearAt = some (s.now + rootPerMs)) ∧
        (s.sramGrant < s.power.lowCanary → u.power.lowCanary = s.power.lowCanary ∧ bit (u.reg .pwrMargin) 63 = true)) ∧
      (q.granted = false → ∃ u, exec .vreqTimeout s = .next u ∧ u.power.supply = none ∧ u.power.divWait = none ∧
        u.coreReq = q.prevCore % 256 ∧ u.sramReq = q.prevSram % 256 ∧ u.flowDiv = s.flowDiv ∧ s.SameStores u ∧
        u.rfld .pwrPerf 32 16 = min (s.rfld .pwrPerf 32 16 + 1) (2 ^ 16 - 1))) ∧
    (∃ u, exec (.supplyOutOfTolerance true) s = .next u ∧ bit (u.reg .pwrMargin) 63 = true ∧
      u.power.outOfTolerance = true ∧ s.SameStores u) ∧
    (s.power.keeperPending = true → ∃ u, exec .keeperReady s = .next u ∧ u.rfld .pwrKeeper 1 1 = 1 ∧
      u.power.keeperPending = false ∧ s.SameStores u) ∧
    (s.flowRuns = true → exec (.canaryCheck 0) s = .next s.dueCanaries ∧
      ∀ b k, s.live b = true → b < s.cfg.basins → k < 2 * s.cfg.checks → b * 32 + k ∈ s.dueCanaries.power.canaryDue) ∧
    (∀ n, s.flowRuns = true → n ≠ 0 → s.power.supply = none → ∃ u, exec (.canaryCheck n) s = .next u ∧ s.SameStores u ∧
      u.power.canaryDue = s.dueCanaries.power.canaryDue ∧
      u.rfld .pwrMargin 32 16 = min (s.rfld .pwrMargin 32 16 + n) (2 ^ 16 - 1) ∧
      (s.tracking = true → s.sramReq < 150 → u.sramReq = min (s.sramReq + 4) 150 ∧ bit (u.reg .pwrMargin) 63 = true)) ∧
    (s.tracking = true → s.power.canaryError = false → s.power.supply = none → s.power.noLowerUntil ≤ s.now →
      s.rfld .pwrMargin 0 8 + 1 ≤ s.sramReq → ∃ u, exec .marginStep s = .next u ∧ u.sramReq = s.sramReq - 1 ∧
        u.coreReq = s.coreReq ∧ s.SameStores u)

/-- Sleep: a drained entry commits, but the power manager refuses it without the keeper's READY; one that does not drain is
refused by the block that is busy; a wake event aborts it, or is kept for its last point. A wake begins with the banks that were
in retention ramping; at its end, with the next idle cycle, the site is in `FLOW` with memory as it was and the leases stopped
meanwhile, under a thermal trip until that is over too (R320–R329, R333); its siphons serve from their calibration on (R308). That
the wake takes until the next idle cycle, and how a refuser is named and the drain timed, are the model's choices (log entries 28,
29); that a siphon shows STATE 3 until its calibration is log entry 76. -/
def Obligations.SitesSleepAndWake : Prop :=
  ∀ (s : State),
    (∀ e, s.power.entry = some e → e.src = none →
      (∀ code, e.step = 3 → ∃ u, exec (.drainTimeout code) s = .next u ∧ u.site = stFlow ∧ u.power.entry = none ∧
        u.rfld .pwrEntrySt 6 2 = 2 ∧ u.rfld .pwrEntrySt 32 16 = min (s.rfld .pwrEntrySt 32 16 + 1) (2 ^ 16 - 1) ∧
        u.rfld .pwrRefuser 56 8 = (s.refusers none).foldl min code % 256 ∧ s.SameStores u) ∧
      (s.refusers none = [] → s.power.divTo = none → bit (s.reg .pwrKeeper) 1 = false → ∃ u, exec .entryCommit s = .next u ∧
        u.site = stFlow ∧ u.power.entry = none ∧ u.rfld .pwrRefuser 56 8 = 0x74 ∧ s.SameStores u) ∧
      (s.refusers none = [] → s.power.divTo = none → bit (s.reg .pwrKeeper) 1 = true → e.step = 3 → e.woken = false →
        s.power.supply = none → s.sramReq = 140 → s.sramGrant = 140 →
        1 ≤ e.target → e.target ≤ 4 → ∃ u, exec .entryCommit s = .next u ∧ u.power.entry = none ∧
          u.site = (match e.target with | 1 => stSlack | 2 => stPond | 3 => stTrickle | _ => stDry) ∧
          u.rfld .pwrEntrySt 48 16 = min (s.rfld .pwrEntrySt 48 16 + 1) (2 ^ 16 - 1)) ∧
      ((s.refusers none ≠ [] ∨ s.power.divTo ≠ none) → exec .entryCommit s = .next s) ∧
      (∀ w, w ≠ .threshold → e.step = 3 → ∃ u, exec (.entryAbort w) s = .next u ∧ u.site = stFlow ∧ u.power.entry = none ∧
        u.rfld .pwrEntrySt 6 2 = 3 ∧ u.rfld .pwrEntrySt 0 2 = (if s.now = e.startRoot then 1 else 2) ∧
        u.rfld .pwrEntrySt 16 16 = min (s.rfld .pwrEntrySt 16 16 + 1) (2 ^ 16 - 1) ∧ s.SameStores u) ∧
      (∀ w, w ≠ .threshold → e.step = 4 →
        exec (.entryAbort w) s = .next { s with power := { s.power with entry := some { e with woken := true } } })) ∧
    (∀ w, (s.site = stTrickle ∨ w ≠ .threshold ∧ (s.site = stSlack ∨ s.site = stPond)) →
      ∃ u, exec (.sleepWake w) s = .next u ∧ u.site = stWaking ∧ s.SameStores u ∧ (∀ i, u.sphState i = s.sphState i) ∧
        u.locks = s.locks ∧
        (s.site ≠ stSlack → ∀ b ∈ s.liveBasins, u.reg (.pwrBasinSt b) = BitVec.ofNat 64 (4 ^ s.cfg.checks - 1)) ∧
        (s.start.released = true → ∃ v, u.wakeOn = v ∧ v.site = stFlow ∧ s.SameStores v ∧
          (∀ b ∈ s.liveBasins, v.reg (.pwrBasinSt b) = BitVec.ofNat 64 ((4 ^ s.cfg.checks - 1) / 3)) ∧
          (s.start.thermTrip = false →
            v.locks = s.locks.map (fun l => { l with deadline := l.deadline + (s.now - s.power.sleepStart) })) ∧
          (s.start.thermTrip = true → v.locks = s.locks))) ∧
    (∀ r, s.site = stTrickle → ∃ u, exec (.trickleSample r) s = .next u ∧ s.SameStores u ∧
      u.rfld .pwrTrickle 32 32 = min (s.rfld .pwrTrickle 32 32 + 1) (2 ^ 32 - 1) ∧
      (s.trickleCause r = 0 → u.site = stTrickle) ∧
      (s.trickleCause r ≠ 0 → u.site = stWaking ∧ u.rfld .pwrTrickle 0 4 = s.trickleCause r ∧
        bit (u.reg .devMgtAlert) 7 = true))

/-! ### What every step keeps -/

/-- No step makes the test port drive the pins of a site that is not in reset (R431). -/
def Obligations.PinsDrivenOnlyInReset : Prop :=
  ∀ (s t : State), s.PinsSafe → step s = .next t → t.PinsSafe

/-- The fused counter, which 64 fuses hold, never falls, and advances only through `OWNER_LOCK` ACTION 4, and never during a
start (R358). -/
def Obligations.NoRollback : Prop :=
  ∀ (s t : State), s.cistern.arCounter ≤ 64 → step s = .next t →
    t.cistern.arCounter ≤ 64 ∧ s.cistern.arCounter ≤ t.cistern.arCounter ∧
    (t.cistern.arCounter ≠ s.cistern.arCounter → ∃ src p rest, s.pending = .ownerLock src p :: rest ∧
      p.p 16 0 8 = 4 ∧ t.cistern.arCounter = p.p 17 0 8 ∧ s.start.released = true)

/-- Every step keeps basin memory, its check bits, the descriptors, the gauges and stack memory in canonical form. -/
def Obligations.StoresStayCanonical : Prop :=
  ∀ (s t : State), s.Canonical → step s = .next t → t.Canonical

/-- A step uses up the command at the front of the queue alone. No step changes what was fixed at design time (R18), and the
revocation fuse of a key stays blown (R357). -/
def Obligations.QueueAndDesignKept : Prop :=
  ∀ (s t : State), step s = .next t → t.pending = s.pending.drop 1 ∧ t.cfg = s.cfg ∧
    ∀ k, k < 4 → bit s.cistern.revoked k = true → bit t.cistern.revoked k = true

/-- The site at release: the invariants hold; it is attaching, with ring 8 present and every other ring absent, no context, no
packet at work, all of memory zero, in the standard configuration (R18, R220, R253, R340). That the model starts at release is
log entry 1. -/
def Obligations.ReleaseState : Prop :=
  State.reset.PinsSafe ∧ State.reset.Canonical ∧ State.reset.cistern.arCounter ≤ 64 ∧ State.reset.pending = [] ∧
    State.reset.cfg = SiteConfig.standard ∧
    State.reset.site = stAttaching ∧ State.reset.ringState 8 = 1 ∧ (∀ r, r < 8 → State.reset.ringState r = 0) ∧
    State.reset.residents = [] ∧ State.reset.flights = [] ∧ (∀ b w, State.reset.readWord b w Reader.scrub =
      (State.reset, List.replicate 64 0, false))
end

