-- ==== Sys2Proof/Laws/Bits.lean ====
section
/-! SUPPORT. Laws of the storage lists (read after write, canonical form) and of bit fields. -/

namespace Sys2Proof.Machine

variable {κ ν : Type} [DecidableEq κ]

/-! ### Lists with any key -/

theorem kget_kdel_self (m : List (κ × ν)) (d : ν) (k : κ) : kget (kdel m k) d k = d := by
  induction m with
  | nil => rfl
  | cons x t ih =>
    obtain ⟨k', v⟩ := x
    by_cases h : k' = k <;> simp [kdel, kget, h, ih]

theorem kget_kdel_ne (m : List (κ × ν)) (d : ν) {k k' : κ} (h : k' ≠ k) : kget (kdel m k) d k' = kget m d k' := by
  induction m with
  | nil => rfl
  | cons x t ih =>
    obtain ⟨j, v⟩ := x
    by_cases hj : j = k
    · subst hj; simp [kdel, kget, ih, Ne.symm h]
    · simp [kdel, kget, hj, ih]

@[simp] theorem kget_nil (d : ν) (k : κ) : kget ([] : List (κ × ν)) d k = d := rfl

/-- A key reads back what was put under it. -/
@[simp] theorem kget_kset_self [DecidableEq ν] (m : List (κ × ν)) (d : ν) (k : κ) (v : ν) : kget (kset m d k v) d k = v := by
  unfold kset
  split
  · next h => rw [kget_kdel_self, h]
  · simp [kget]

/-- Every other key reads as before. -/
@[simp] theorem kget_kset_ne [DecidableEq ν] (m : List (κ × ν)) (d d' : ν) {k k' : κ} (h : k' ≠ k) (v : ν) :
    kget (kset m d k v) d' k' = kget m d' k' := by
  unfold kset
  split
  · exact kget_kdel_ne m d' h
  · simp [kget, Ne.symm h, kget_kdel_ne m d' h]

/-! ### Lists with number keys -/

theorem nget_ndel_self (m : List (Nat × ν)) (d : ν) (k : Nat) : nget (ndel m k) d k = d := by
  induction m with
  | nil => rfl
  | cons x t ih =>
    obtain ⟨k', v⟩ := x
    by_cases h : k' = k <;> simp [ndel, nget, h, ih]

theorem nget_ndel_ne (m : List (Nat × ν)) (d : ν) {k k' : Nat} (h : k' ≠ k) : nget (ndel m k) d k' = nget m d k' := by
  induction m with
  | nil => rfl
  | cons x t ih =>
    obtain ⟨j, v⟩ := x
    by_cases hj : j = k
    · subst hj; simp [ndel, nget, ih, Ne.symm h]
    · simp [ndel, nget, hj, ih]

theorem nget_nins_self (m : List (Nat × ν)) (d : ν) (k : Nat) (v : ν) : nget (nins m k v) d k = v := by
  induction m with
  | nil => simp [nins, nget]
  | cons x t ih =>
    obtain ⟨j, w⟩ := x
    unfold nins
    split
    · simp [nget]
    · split
      · simp [nget]
      · next h _ => simp [nget, h, ih]

theorem nget_nins_ne (m : List (Nat × ν)) (d : ν) {k k' : Nat} (h : k' ≠ k) (v : ν) :
    nget (nins m k v) d k' = nget m d k' := by
  induction m with
  | nil => simp [nins, nget, Ne.symm h]
  | cons x t ih =>
    obtain ⟨j, w⟩ := x
    unfold nins
    split
    · next hj => subst hj; simp [nget, Ne.symm h]
    · split
      · simp [nget, Ne.symm h]
      · simp [nget, ih]

@[simp] theorem nget_nil (d : ν) (k : Nat) : nget ([] : List (Nat × ν)) d k = d := rfl

/-- A key reads back what was put under it. -/
@[simp] theorem nget_nset_self [DecidableEq ν] (m : List (Nat × ν)) (d : ν) (k : Nat) (v : ν) : nget (nset m d k v) d k = v := by
  unfold nset
  split
  · next h => rw [nget_ndel_self, h]
  · exact nget_nins_self m d k v

/-- Every other key reads as before. -/
@[simp] theorem nget_nset_ne [DecidableEq ν] (m : List (Nat × ν)) (d d' : ν) {k k' : Nat} (h : k' ≠ k) (v : ν) :
    nget (nset m d k v) d' k' = nget m d' k' := by
  unfold nset
  split
  · exact nget_ndel_ne m d' h
  · exact nget_nins_ne m d' h v

/-- Read after write, either way. -/
theorem nget_nset [DecidableEq ν] (m : List (Nat × ν)) (d : ν) (k k' : Nat) (v : ν) :
    nget (nset m d k v) d k' = if k' = k then v else nget m d k' := by
  split
  · next h => subst h; simp
  · next h => simp [h]

/-! ### The canonical form -/

/-- The canonical form, as the list's order and the values it holds. -/
theorem nwf_iff [DecidableEq ν] (d : ν) (m : List (Nat × ν)) :
    nwf d m = true ↔ m.Pairwise (fun x y => x.1 < y.1) ∧ ∀ x ∈ m, x.2 ≠ d := by
  induction m with
  | nil => simp [nwf]
  | cons x t ih =>
    obtain ⟨k, v⟩ := x
    cases t with
    | nil => simp [nwf]
    | cons y t =>
      obtain ⟨k', v'⟩ := y
      simp only [nwf, Bool.and_eq_true, ih, decide_eq_true_eq, bne_iff_ne, List.pairwise_cons, List.mem_cons,
        forall_eq_or_imp]
      constructor
      · rintro ⟨⟨hk, hv⟩, ⟨h1, h2⟩, h3⟩
        exact ⟨⟨⟨hk, fun a ha => lt_trans hk (h1 a ha)⟩, h1, h2⟩, hv, h3⟩
      · rintro ⟨⟨⟨hk, _⟩, h1, h2⟩, hv, h3⟩
        exact ⟨⟨hk, hv⟩, ⟨h1, h2⟩, h3⟩

@[simp] theorem nwf_nil [DecidableEq ν] (d : ν) : nwf d ([] : List (Nat × ν)) = true := rfl

/-- Dropping entries keeps the canonical form. -/
theorem nwf_filter [DecidableEq ν] {d : ν} {m : List (Nat × ν)} (p : Nat × ν → Bool) (h : nwf d m = true) :
    nwf d (m.filter p) = true := by
  rw [nwf_iff] at h ⊢
  exact ⟨h.1.filter p, fun x hx => h.2 x (List.mem_of_mem_filter hx)⟩

theorem ndel_eq_filter (m : List (Nat × ν)) (k : Nat) : ndel m k = m.filter fun x => !decide (x.1 = k) := by
  induction m with
  | nil => rfl
  | cons x t ih =>
    obtain ⟨j, v⟩ := x
    by_cases h : j = k <;> simp [ndel, h, ih]

theorem mem_nins {m : List (Nat × ν)} {k : Nat} {v : ν} {x : Nat × ν} (h : x ∈ nins m k v) : x = (k, v) ∨ x ∈ m := by
  induction m with
  | nil => exact .inl (by simpa [nins] using h)
  | cons y t ih =>
    obtain ⟨j, w⟩ := y
    unfold nins at h
    split at h
    · rcases List.mem_cons.1 h with h | h
      · exact .inl h
      · exact .inr (List.mem_cons_of_mem _ h)
    · split at h
      · rcases List.mem_cons.1 h with h | h
        · exact .inl h
        · exact .inr h
      · rcases List.mem_cons.1 h with h | h
        · exact .inr (h ▸ List.mem_cons_self)
        · exact (ih h).imp id (List.mem_cons_of_mem _)

theorem pairwise_nins {m : List (Nat × ν)} (k : Nat) (v : ν) (h : m.Pairwise fun x y => x.1 < y.1) :
    (nins m k v).Pairwise fun x y => x.1 < y.1 := by
  induction m with
  | nil => simp [nins]
  | cons y t ih =>
    obtain ⟨j, w⟩ := y
    obtain ⟨hj, ht⟩ := List.pairwise_cons.1 h
    unfold nins
    split
    · next hk => subst hk; exact List.pairwise_cons.2 ⟨hj, ht⟩
    · split
      · next hk =>
        refine List.pairwise_cons.2 ⟨fun x hx => ?_, h⟩
        rcases List.mem_cons.1 hx with rfl | hx
        · exact hk
        · exact lt_trans hk (hj x hx)
      · next hne hk =>
        refine List.pairwise_cons.2 ⟨fun x hx => ?_, ih ht⟩
        rcases mem_nins hx with rfl | hx
        · show j < k
          omega
        · exact hj x hx

/-- A write keeps the canonical form. -/
theorem nwf_nset [DecidableEq ν] {d : ν} {m : List (Nat × ν)} (k : Nat) (v : ν) (h : nwf d m = true) : nwf d (nset m d k v) = true := by
  unfold nset
  split
  · rw [ndel_eq_filter]; exact nwf_filter _ h
  · next hv =>
    rw [nwf_iff] at h ⊢
    refine ⟨pairwise_nins k v h.1, fun x hx => ?_⟩
    rcases mem_nins hx with rfl | hx
    · exact hv
    · exact h.2 x hx

/-! ### Bit fields -/

/-- A field is the word's extract. -/
theorem fld_eq_extract {w : Nat} (x : BitVec w) (lo n : Nat) : fld x lo n = (x.extractLsb' lo n).toNat := by
  simp [fld, Nat.shiftRight_eq_div_pow]

/-- A field fits in its width. -/
theorem fld_lt {w : Nat} (x : BitVec w) (lo n : Nat) : fld x lo n < 2 ^ n := Nat.mod_lt _ (Nat.two_pow_pos n)

/-- The bits of a word with a field replaced. -/
theorem getLsbD_setFld {w : Nat} (x : BitVec w) (lo n v i : Nat) (hi : i < w) :
    (setFld x lo n v).getLsbD i = if lo ≤ i ∧ i < lo + n then v.testBit (i - lo) else x.getLsbD i := by
  unfold setFld
  have hm : ((2 ^ n - 1) * 2 ^ lo).testBit i = (decide (lo ≤ i) && decide (i - lo < n)) := by
    rw [Nat.testBit_mul_two_pow, Nat.testBit_two_pow_sub_one]
  have hv : (v % 2 ^ n * 2 ^ lo).testBit i = (decide (lo ≤ i) && (decide (i - lo < n) && v.testBit (i - lo))) := by
    rw [Nat.testBit_mul_two_pow, Nat.testBit_mod_two_pow]
  simp only [BitVec.getLsbD_or, BitVec.getLsbD_and, BitVec.getLsbD_not, BitVec.getLsbD_ofNat, hi, hm, hv,
    decide_true, Bool.true_and]
  by_cases h1 : lo ≤ i <;> by_cases h2 : i - lo < n
  · have : i < lo + n := by omega
    simp [h1, h2, this]
  · have : ¬ i < lo + n := by omega
    simp [h1, h2, this]
  · simp [h1]
  · simp [h1]

/-- A field reads back what it was set to, cut to its width. -/
theorem fld_setFld_self {w : Nat} (x : BitVec w) (lo n v : Nat) (h : lo + n ≤ w) :
    fld (setFld x lo n v) lo n = v % 2 ^ n := by
  rw [fld_eq_extract]
  refine Nat.eq_of_testBit_eq fun i => ?_
  rw [Nat.testBit_mod_two_pow, BitVec.testBit_toNat, BitVec.getLsbD_extractLsb']
  by_cases hi : i < n
  · rw [getLsbD_setFld _ _ _ _ _ (by omega)]
    simp [hi]
  · simp [hi]

/-- A field that does not meet the one set reads as before. -/
theorem fld_setFld_ne {w : Nat} (x : BitVec w) (lo n lo' n' v : Nat) (h : lo' + n' ≤ lo ∨ lo + n ≤ lo') :
    fld (setFld x lo n v) lo' n' = fld x lo' n' := by
  rw [fld_eq_extract, fld_eq_extract]
  congr 1
  refine BitVec.eq_of_getLsbD_eq fun i hi => ?_
  rw [BitVec.getLsbD_extractLsb', BitVec.getLsbD_extractLsb']
  by_cases hw : lo' + i < w
  · rw [getLsbD_setFld _ _ _ _ _ hw, if_neg (by omega)]
  · simp [BitVec.getLsbD_of_ge _ _ (Nat.le_of_not_lt hw)]

/-- A bit outside the field set reads as before. -/
theorem bit_setFld_ne {w : Nat} (x : BitVec w) (lo n v i : Nat) (h : i < lo ∨ lo + n ≤ i) :
    bit (setFld x lo n v) i = bit x i := by
  unfold bit
  by_cases hw : i < w
  · rw [getLsbD_setFld _ _ _ _ _ hw, if_neg (by omega)]
  · simp [BitVec.getLsbD_of_ge _ _ (Nat.le_of_not_lt hw)]

end Sys2Proof.Machine
end

