-- ==== Sys2Proof/Laws/State.lean ====
section
/-! SUPPORT. What each update of the state leaves as it was, field by field, and what reading back gives: no later proof
unfolds a record update. -/

namespace Sys2Proof.Machine

variable (s : State)

/-! ### Reading back -/

@[simp] theorem State.reg_putReg_self (r : Reg) (v : Word64) : (s.putReg r v).reg r = v := by
  simp [State.reg, State.putReg]

@[simp] theorem State.reg_putReg_ne {r r' : Reg} (h : r' ≠ r) (v : Word64) : (s.putReg r v).reg r' = s.reg r' := by
  simp [State.reg, State.putReg, h]

/-- A register read after one is written. -/
theorem State.reg_putReg (r r' : Reg) (v : Word64) : (s.putReg r v).reg r' = if r' = r then v else s.reg r' := by
  split
  · next h => subst h; simp
  · next h => simp [h]

@[simp] theorem State.reg_putFld_ne {r r' : Reg} (h : r' ≠ r) (lo n v : Nat) : (s.putFld r lo n v).reg r' = s.reg r' := by
  simp [State.putFld, h]

@[simp] theorem State.reg_putFld_self (r : Reg) (lo n v : Nat) : (s.putFld r lo n v).reg r = setFld (s.reg r) lo n v := by
  simp [State.putFld]

/-- A field reads back what it was set to, cut to its width. -/
@[simp] theorem State.rfld_putFld_self (r : Reg) (lo n v : Nat) (h : lo + n ≤ 64) :
    (s.putFld r lo n v).rfld r lo n = v % 2 ^ n := by
  simp [State.rfld, fld_setFld_self _ _ _ _ h]

/-- A field apart from the one set, or of another register, reads as before. -/
theorem State.rfld_putFld_ne (r r' : Reg) (lo n lo' n' v : Nat) (h : r' ≠ r ∨ lo' + n' ≤ lo ∨ lo + n ≤ lo') :
    (s.putFld r lo n v).rfld r' lo' n' = s.rfld r' lo' n' := by
  by_cases hr : r' = r
  · subst hr
    simp [State.rfld, fld_setFld_ne _ _ _ _ _ _ (h.resolve_left (fun h => h rfl))]
  · simp [State.rfld, hr]

@[simp] theorem State.reg_bump_ne {r r' : Reg} (h : r' ≠ r) (lo n k : Nat) : (s.bump r lo n k).reg r' = s.reg r' := by
  unfold State.bump
  split
  · rfl
  · exact State.reg_putFld_ne s h lo n _

/-- A counter goes up and stops at its largest value. -/
@[simp] theorem State.rfld_bump_self (r : Reg) (lo n : Nat) (h : lo + n ≤ 64) :
    (s.bump r lo n).rfld r lo n = min (s.rfld r lo n + 1) (2 ^ n - 1) := by
  have e : (s.bump r lo n).rfld r lo n = (s.putFld r lo n (satAdd n (s.rfld r lo n) 1)).rfld r lo n := rfl
  have p : 0 < 2 ^ n := Nat.two_pow_pos n
  rw [e, State.rfld_putFld_self s r lo n _ h, satAdd, Nat.mod_eq_of_lt]
  omega

@[simp] theorem State.reg_setW1c_ne {r r' : Reg} (h : r' ≠ r) (m : Word64) : (s.setW1c r m).reg r' = s.reg r' :=
  State.reg_putReg_ne s h _

@[simp] theorem State.reg_setW1c_self (r : Reg) (m : Word64) : (s.setW1c r m).reg r = s.reg r ||| m :=
  State.reg_putReg_self s r _

@[simp] theorem State.site_setSite (v : Nat) : (s.setSite v).site = v % 16 :=
  State.rfld_putFld_self s .pwrSt 0 4 v (by decide)

theorem dkey_inj {b d b' d' : Nat} (h : d < 16384) (h' : d' < 16384) (e : dkey b d = dkey b' d') : b = b' ∧ d = d' := by
  unfold dkey at e
  omega

theorem gkey_inj {b g b' g' : Nat} (h : g < 4096) (h' : g' < 4096) (e : gkey b g = gkey b' g') : b = b' ∧ g = g' := by
  unfold gkey at e
  omega

/-- A word written whole or in part reads back as written: its correctable error is gone (R234). -/
@[simp] theorem correctWord_afterPart (v : BitVec 512) (m : List (Nat × BitVec 48)) (k : Nat) :
    correctWord v (nget (afterPart m k) 0 k) = v := by
  have z : findingOf 0 = .clean := rfl
  unfold afterPart correctWord
  cases e : findingOf (nget m 0 k) with
  | corrected i => simp only [nget_nset_self, z]
  | clean => simp only [e]
  | bad r c => simp only [e]

@[simp] theorem State.descOf_putDesc_self (b d : Nat) (v : BitVec 512) : (s.putDesc b d v).descOf b d = v := by
  unfold State.descOf State.putDesc
  simp only [nget_nset_self, correctWord_afterPart]

theorem nget_afterPart_ne {m : List (Nat × BitVec 48)} {j k : Nat} (h : j ≠ k) : nget (afterPart m k) 0 j = nget m 0 j := by
  unfold afterPart
  split
  · rw [nget_nset_ne _ _ _ h]
  · rfl

@[simp] theorem State.descOf_putDesc_ne {b d b' d' : Nat} (h : dkey b' d' ≠ dkey b d) (v : BitVec 512) :
    (s.putDesc b d v).descOf b' d' = s.descOf b' d' := by
  unfold State.descOf State.putDesc
  simp only [nget_nset_ne _ _ _ h, nget_afterPart_ne h]

/-- The line of a gauge follows from its key. -/
theorem lineKey_eq (b g : Nat) : lineKey b g = gkey b g / 8 := by unfold lineKey gkey; omega

/-- No correctable error is left in a line once a gauge of it has been written. -/
theorem State.mendLine_finding (b g : Nat) (i : Nat) : (s.mendLine b g).lineFinding b g ≠ .corrected i := by
  unfold State.lineFinding State.mendLine
  cases e : findingOf (nget s.gaugeChk 0 (lineKey b g)) with
  | corrected j => simp only [State.lineFinding, e, Option.isSome_some, if_true, nget_nset_self]; intro h; cases h
  | clean => simp only [State.lineFinding, e, Option.isSome_none, Bool.false_eq_true, if_false]; intro h; cases h
  | bad r c => simp only [State.lineFinding, e, Option.isSome_none, Bool.false_eq_true, if_false]; intro h; cases h

@[simp] theorem State.count_putCount_self (b g : Nat) (v : BitVec 32) : (s.putCount b g v).count b g = v := by
  have e : (s.putCount b g v).lineFinding b g = (s.mendLine b g).lineFinding b g := rfl
  unfold State.count State.gaugeField
  rw [e]
  split
  · next i h => exact (s.mendLine_finding b g i h).elim
  · unfold State.putCount
    simp only [nget_nset_self, BitVec.ofNat_toNat, BitVec.setWidth_eq]

/-- COUNT depends on a gauge's key alone. -/
theorem State.count_key {b g b' g' : Nat} (h : gkey b' g' = gkey b g) : s.count b' g' = s.count b g := by
  have l : lineKey b' g' = lineKey b g := by rw [lineKey_eq, lineKey_eq, h]
  have m : g' % 8 = g % 8 := by unfold gkey at h; omega
  unfold State.count State.gaugeField State.lineFinding
  rw [h, l, m]

/-- A bit of a line mended changes no COUNT. -/
theorem State.count_mendLine (b g b' g' : Nat) : (s.mendLine b g).count b' g' = s.count b' g' := by
  cases e : s.lineFinding b g with
  | clean => have : s.mendLine b g = s := by (unfold State.mendLine; simp only [e]; rfl)
             rw [this]
  | bad r c => have : s.mendLine b g = s := by (unfold State.mendLine; simp only [e]; rfl)
               rw [this]
  | corrected i =>
    by_cases hl : lineKey b' g' = lineKey b g
    · have hf : ∀ j, (s.mendLine b g).lineFinding b' g' ≠ .corrected j := by
        intro j hj
        exact s.mendLine_finding b g j (by unfold State.lineFinding at hj ⊢; rwa [hl] at hj)
      have hs : s.lineFinding b' g' = .corrected i := by rw [← e]; unfold State.lineFinding; rw [hl]
      by_cases hi : i < 512
      · by_cases hk : gkey b' g' = gkey b (g / 8 * 8 + i / 64)
        · rw [State.count_key s hk, State.count, State.gaugeField]
          split
          · next j hj => exact (hf j hj).elim
          · unfold State.mendLine
            simp only [e, Option.filter, hi, decide_true, if_true, Option.map_some, hk, nget_nset_self, BitVec.ofNat_toNat,
              BitVec.setWidth_eq]
        · have hn : i / 64 ≠ g' % 8 := by
            intro h
            apply hk
            rw [lineKey_eq, lineKey_eq] at hl
            unfold gkey at hl ⊢
            omega
          have hr : s.count b' g' = BitVec.ofNat 32 (nget s.gauge 0 (gkey b' g')).toNat := by
            unfold State.count State.gaugeField
            simp only [hs, hn, false_and, if_false]
          rw [hr, State.count, State.gaugeField]
          split
          · next j hj => exact (hf j hj).elim
          · unfold State.mendLine
            simp only [e, Option.filter, hi, decide_true, if_true, Option.map_some]
            rw [nget_nset_ne _ _ _ hk]
      · have hr : s.count b' g' = BitVec.ofNat 32 (nget s.gauge 0 (gkey b' g')).toNat := by
          have hn : i / 64 ≠ g' % 8 := by omega
          unfold State.count State.gaugeField
          simp only [hs, hn, false_and, if_false]
        rw [hr, State.count, State.gaugeField]
        split
        · next j hj => exact (hf j hj).elim
        · unfold State.mendLine
          simp only [e, Option.filter, hi, decide_false, Bool.false_eq_true, if_false, Option.map_none]
    · have hs : (s.mendLine b g).lineFinding b' g' = s.lineFinding b' g' := by
        unfold State.lineFinding State.mendLine
        simp only [e, Option.isSome_some, if_true]
        rw [nget_nset_ne _ _ _ hl]
      have hg : nget (s.mendLine b g).gauge 0 (gkey b' g') = nget s.gauge 0 (gkey b' g') := by
        unfold State.mendLine
        by_cases hi : i < 512
        · simp only [e, Option.filter, hi, decide_true, if_true, Option.map_some]
          rw [nget_nset_ne]
          intro hk
          apply hl
          rw [lineKey_eq, lineKey_eq, hk]
          unfold gkey
          omega
        · simp only [e, Option.filter, hi, decide_false, Bool.false_eq_true, if_false, Option.map_none]
      unfold State.count State.gaugeField
      rw [hs, hg]

@[simp] theorem State.count_putCount_ne {b g b' g' : Nat} (h : gkey b' g' ≠ gkey b g) (v : BitVec 32) :
    (s.putCount b g v).count b' g' = s.count b' g' := by
  have e : (s.putCount b g v).count b' g' = (s.mendLine b g).count b' g' := by
    have hf : (s.putCount b g v).lineFinding b' g' = (s.mendLine b g).lineFinding b' g' := rfl
    unfold State.count State.gaugeField
    rw [hf]
    unfold State.putCount
    simp only
    rw [nget_nset_ne _ _ _ h]
  rw [e, State.count_mendLine]

@[simp] theorem State.ctx_putCtx_self (c : Nat) (r : CtxRec) : (s.putCtx c r).ctx c = r := by
  simp [State.ctx, State.putCtx]

@[simp] theorem State.ctx_putCtx_ne {c c' : Nat} (h : c' ≠ c) (r : CtxRec) : (s.putCtx c r).ctx c' = s.ctx c' := by
  simp [State.ctx, State.putCtx, h]

@[simp] theorem State.ring_putRing_self (r : Nat) (v : RingRun) : (s.putRing r v).ring r = v := by
  simp [State.ring, State.putRing]

@[simp] theorem State.ring_putRing_ne {r r' : Nat} (h : r' ≠ r) (v : RingRun) : (s.putRing r v).ring r' = s.ring r' := by
  simp [State.ring, State.putRing, h]

@[simp] theorem State.siphon_putSiphon_self (i : Nat) (v : Siphon) : (s.putSiphon i v).siphon i = v := by
  simp [State.siphon, State.putSiphon]

@[simp] theorem State.siphon_putSiphon_ne {i i' : Nat} (h : i' ≠ i) (v : Siphon) :
    (s.putSiphon i v).siphon i' = s.siphon i' := by
  simp [State.siphon, State.putSiphon, h]

@[simp] theorem State.culvert_putCulvert_self (c : Nat) (v : Culvert) : (s.putCulvert c v).culvert c = v := by
  simp [State.culvert, State.putCulvert]

@[simp] theorem State.culvert_putCulvert_ne {c c' : Nat} (h : c' ≠ c) (v : Culvert) :
    (s.putCulvert c v).culvert c' = s.culvert c' := by
  simp [State.culvert, State.putCulvert, h]

/-! ### What stays -/

/-- `putReg` changes regs alone. -/
@[simp] theorem State.putReg_keeps (r : Reg) (v : Word64) :
    (s.putReg r v).pending = s.pending ∧ (s.putReg r v).cfg = s.cfg ∧ (s.putReg r v).cycle = s.cycle ∧ (s.putReg r v).fresh =
    s.fresh ∧ (s.putReg r v).freeUses = s.freeUses ∧ (s.putReg r v).mem = s.mem ∧ (s.putReg r v).memChk = s.memChk ∧ (s.putReg
    r v).desc = s.desc ∧ (s.putReg r v).descChk = s.descChk ∧ (s.putReg r v).gauge = s.gauge ∧ (s.putReg r v).gaugeCtx =
    s.gaugeCtx ∧ (s.putReg r v).gaugeChk = s.gaugeChk ∧ (s.putReg r v).landed = s.landed ∧ (s.putReg r v).stack = s.stack ∧
    (s.putReg r v).pages = s.pages ∧ (s.putReg r v).combining = s.combining ∧ (s.putReg r v).macs = s.macs ∧ (s.putReg r
    v).badBlocks = s.badBlocks ∧ (s.putReg r v).siphons = s.siphons ∧ (s.putReg r v).flights = s.flights ∧ (s.putReg r
    v).nextFlight = s.nextFlight ∧ (s.putReg r v).staging = s.staging ∧ (s.putReg r v).keyGens = s.keyGens ∧ (s.putReg r
    v).sphKeys = s.sphKeys ∧ (s.putReg r v).reshadows = s.reshadows ∧ (s.putReg r v).oldSends = s.oldSends ∧ (s.putReg r
    v).locks = s.locks ∧ (s.putReg r v).waits = s.waits ∧ (s.putReg r v).dueIncs = s.dueIncs ∧ (s.putReg r v).sram = s.sram ∧
    (s.putReg r v).lists = s.lists ∧ (s.putReg r v).slotStats = s.slotStats ∧ (s.putReg r v).nextSpawn = s.nextSpawn ∧
    (s.putReg r v).rings = s.rings ∧ (s.putReg r v).riders = s.riders ∧ (s.putReg r v).rode = s.rode ∧ (s.putReg r v).handed =
    s.handed ∧ (s.putReg r v).active = s.active ∧ (s.putReg r v).ctxs = s.ctxs ∧ (s.putReg r v).auditMs = s.auditMs ∧
    (s.putReg r v).auditNext = s.auditNext ∧ (s.putReg r v).auditFrom = s.auditFrom ∧ (s.putReg r v).auditSnap = s.auditSnap ∧
    (s.putReg r v).arbs = s.arbs ∧ (s.putReg r v).beats = s.beats ∧ (s.putReg r v).parks = s.parks ∧ (s.putReg r v).turnWait =
    s.turnWait ∧ (s.putReg r v).decided = s.decided ∧ (s.putReg r v).frozenAt = s.frozenAt ∧ (s.putReg r v).fillRes =
    s.fillRes ∧ (s.putReg r v).scrubs = s.scrubs ∧ (s.putReg r v).regulators = s.regulators ∧ (s.putReg r v).scrubbers =
    s.scrubbers ∧ (s.putReg r v).spareCopies = s.spareCopies ∧ (s.putReg r v).remapped = s.remapped ∧ (s.putReg r v).substs =
    s.substs ∧ (s.putReg r v).bit7Due = s.bit7Due ∧ (s.putReg r v).retiring = s.retiring ∧ (s.putReg r v).restores =
    s.restores ∧ (s.putReg r v).placements = s.placements ∧ (s.putReg r v).events = s.events ∧ (s.putReg r v).lostEvents =
    s.lostEvents ∧ (s.putReg r v).testsDone = s.testsDone ∧ (s.putReg r v).detach = s.detach ∧ (s.putReg r v).culverts =
    s.culverts ∧ (s.putReg r v).nextXtag = s.nextXtag ∧ (s.putReg r v).siteId = s.siteId ∧ (s.putReg r v).attached =
    s.attached ∧ (s.putReg r v).cistern = s.cistern ∧ (s.putReg r v).running = s.running ∧ (s.putReg r v).power = s.power ∧
    (s.putReg r v).start = s.start ∧ (s.putReg r v).hg = s.hg ∧ (s.putReg r v).mgt = s.mgt ∧ (s.putReg r v).spdm = s.spdm ∧
    (s.putReg r v).tap = s.tap ∧ (s.putReg r v).handover = s.handover ∧ (s.putReg r v).core = s.core ∧ (s.putReg r
    v).controlDown = s.controlDown ∧ (s.putReg r v).downSince = s.downSince ∧ (s.putReg r v).downOk = s.downOk ∧ (s.putReg r
    v).loadOut = s.loadOut := by
  repeat' constructor

/-- `putFld` changes regs alone. -/
@[simp] theorem State.putFld_keeps (r : Reg) (lo n v : Nat) :
    (s.putFld r lo n v).pending = s.pending ∧ (s.putFld r lo n v).cfg = s.cfg ∧ (s.putFld r lo n v).cycle = s.cycle ∧
    (s.putFld r lo n v).fresh = s.fresh ∧ (s.putFld r lo n v).freeUses = s.freeUses ∧ (s.putFld r lo n v).mem = s.mem ∧
    (s.putFld r lo n v).memChk = s.memChk ∧ (s.putFld r lo n v).desc = s.desc ∧ (s.putFld r lo n v).descChk = s.descChk ∧
    (s.putFld r lo n v).gauge = s.gauge ∧ (s.putFld r lo n v).gaugeCtx = s.gaugeCtx ∧ (s.putFld r lo n v).gaugeChk =
    s.gaugeChk ∧ (s.putFld r lo n v).landed = s.landed ∧ (s.putFld r lo n v).stack = s.stack ∧ (s.putFld r lo n v).pages =
    s.pages ∧ (s.putFld r lo n v).combining = s.combining ∧ (s.putFld r lo n v).macs = s.macs ∧ (s.putFld r lo n v).badBlocks
    = s.badBlocks ∧ (s.putFld r lo n v).siphons = s.siphons ∧ (s.putFld r lo n v).flights = s.flights ∧ (s.putFld r lo n
    v).nextFlight = s.nextFlight ∧ (s.putFld r lo n v).staging = s.staging ∧ (s.putFld r lo n v).keyGens = s.keyGens ∧
    (s.putFld r lo n v).sphKeys = s.sphKeys ∧ (s.putFld r lo n v).reshadows = s.reshadows ∧ (s.putFld r lo n v).oldSends =
    s.oldSends ∧ (s.putFld r lo n v).locks = s.locks ∧ (s.putFld r lo n v).waits = s.waits ∧ (s.putFld r lo n v).dueIncs =
    s.dueIncs ∧ (s.putFld r lo n v).sram = s.sram ∧ (s.putFld r lo n v).lists = s.lists ∧ (s.putFld r lo n v).slotStats =
    s.slotStats ∧ (s.putFld r lo n v).nextSpawn = s.nextSpawn ∧ (s.putFld r lo n v).rings = s.rings ∧ (s.putFld r lo n
    v).riders = s.riders ∧ (s.putFld r lo n v).rode = s.rode ∧ (s.putFld r lo n v).handed = s.handed ∧ (s.putFld r lo n
    v).active = s.active ∧ (s.putFld r lo n v).ctxs = s.ctxs ∧ (s.putFld r lo n v).auditMs = s.auditMs ∧ (s.putFld r lo n
    v).auditNext = s.auditNext ∧ (s.putFld r lo n v).auditFrom = s.auditFrom ∧ (s.putFld r lo n v).auditSnap = s.auditSnap ∧
    (s.putFld r lo n v).arbs = s.arbs ∧ (s.putFld r lo n v).beats = s.beats ∧ (s.putFld r lo n v).parks = s.parks ∧ (s.putFld
    r lo n v).turnWait = s.turnWait ∧ (s.putFld r lo n v).decided = s.decided ∧ (s.putFld r lo n v).frozenAt = s.frozenAt ∧
    (s.putFld r lo n v).fillRes = s.fillRes ∧ (s.putFld r lo n v).scrubs = s.scrubs ∧ (s.putFld r lo n v).regulators =
    s.regulators ∧ (s.putFld r lo n v).scrubbers = s.scrubbers ∧ (s.putFld r lo n v).spareCopies = s.spareCopies ∧ (s.putFld r
    lo n v).remapped = s.remapped ∧ (s.putFld r lo n v).substs = s.substs ∧ (s.putFld r lo n v).bit7Due = s.bit7Due ∧
    (s.putFld r lo n v).retiring = s.retiring ∧ (s.putFld r lo n v).restores = s.restores ∧ (s.putFld r lo n v).placements =
    s.placements ∧ (s.putFld r lo n v).events = s.events ∧ (s.putFld r lo n v).lostEvents = s.lostEvents ∧ (s.putFld r lo n
    v).testsDone = s.testsDone ∧ (s.putFld r lo n v).detach = s.detach ∧ (s.putFld r lo n v).culverts = s.culverts ∧ (s.putFld
    r lo n v).nextXtag = s.nextXtag ∧ (s.putFld r lo n v).siteId = s.siteId ∧ (s.putFld r lo n v).attached = s.attached ∧
    (s.putFld r lo n v).cistern = s.cistern ∧ (s.putFld r lo n v).running = s.running ∧ (s.putFld r lo n v).power = s.power ∧
    (s.putFld r lo n v).start = s.start ∧ (s.putFld r lo n v).hg = s.hg ∧ (s.putFld r lo n v).mgt = s.mgt ∧ (s.putFld r lo n
    v).spdm = s.spdm ∧ (s.putFld r lo n v).tap = s.tap ∧ (s.putFld r lo n v).handover = s.handover ∧ (s.putFld r lo n v).core
    = s.core ∧ (s.putFld r lo n v).controlDown = s.controlDown ∧ (s.putFld r lo n v).downSince = s.downSince ∧ (s.putFld r lo
    n v).downOk = s.downOk ∧ (s.putFld r lo n v).loadOut = s.loadOut := by
  repeat' constructor

/-- `bump` changes regs and fresh alone. -/
@[simp] theorem State.bump_keeps (r : Reg) (lo n k : Nat) :
    (s.bump r lo n k).pending = s.pending ∧ (s.bump r lo n k).cfg = s.cfg ∧ (s.bump r lo n k).cycle = s.cycle ∧ (s.bump r lo n
    k).freeUses = s.freeUses ∧ (s.bump r lo n k).mem = s.mem ∧ (s.bump r lo n k).memChk = s.memChk ∧ (s.bump r lo n k).desc =
    s.desc ∧ (s.bump r lo n k).descChk = s.descChk ∧ (s.bump r lo n k).gauge = s.gauge ∧ (s.bump r lo n k).gaugeCtx =
    s.gaugeCtx ∧ (s.bump r lo n k).gaugeChk = s.gaugeChk ∧ (s.bump r lo n k).landed = s.landed ∧ (s.bump r lo n k).stack =
    s.stack ∧ (s.bump r lo n k).pages = s.pages ∧ (s.bump r lo n k).combining = s.combining ∧ (s.bump r lo n k).macs = s.macs
    ∧ (s.bump r lo n k).badBlocks = s.badBlocks ∧ (s.bump r lo n k).siphons = s.siphons ∧ (s.bump r lo n k).flights =
    s.flights ∧ (s.bump r lo n k).nextFlight = s.nextFlight ∧ (s.bump r lo n k).staging = s.staging ∧ (s.bump r lo n
    k).keyGens = s.keyGens ∧ (s.bump r lo n k).sphKeys = s.sphKeys ∧ (s.bump r lo n k).reshadows = s.reshadows ∧ (s.bump r lo
    n k).oldSends = s.oldSends ∧ (s.bump r lo n k).locks = s.locks ∧ (s.bump r lo n k).waits = s.waits ∧ (s.bump r lo n
    k).dueIncs = s.dueIncs ∧ (s.bump r lo n k).sram = s.sram ∧ (s.bump r lo n k).lists = s.lists ∧ (s.bump r lo n k).slotStats
    = s.slotStats ∧ (s.bump r lo n k).nextSpawn = s.nextSpawn ∧ (s.bump r lo n k).rings = s.rings ∧ (s.bump r lo n k).riders =
    s.riders ∧ (s.bump r lo n k).rode = s.rode ∧ (s.bump r lo n k).handed = s.handed ∧ (s.bump r lo n k).active = s.active ∧
    (s.bump r lo n k).ctxs = s.ctxs ∧ (s.bump r lo n k).auditMs = s.auditMs ∧ (s.bump r lo n k).auditNext = s.auditNext ∧
    (s.bump r lo n k).auditFrom = s.auditFrom ∧ (s.bump r lo n k).auditSnap = s.auditSnap ∧ (s.bump r lo n k).arbs = s.arbs ∧
    (s.bump r lo n k).beats = s.beats ∧ (s.bump r lo n k).parks = s.parks ∧ (s.bump r lo n k).turnWait = s.turnWait ∧ (s.bump
    r lo n k).decided = s.decided ∧ (s.bump r lo n k).frozenAt = s.frozenAt ∧ (s.bump r lo n k).fillRes = s.fillRes ∧ (s.bump
    r lo n k).scrubs = s.scrubs ∧ (s.bump r lo n k).regulators = s.regulators ∧ (s.bump r lo n k).scrubbers = s.scrubbers ∧
    (s.bump r lo n k).spareCopies = s.spareCopies ∧ (s.bump r lo n k).remapped = s.remapped ∧ (s.bump r lo n k).substs =
    s.substs ∧ (s.bump r lo n k).bit7Due = s.bit7Due ∧ (s.bump r lo n k).retiring = s.retiring ∧ (s.bump r lo n k).restores =
    s.restores ∧ (s.bump r lo n k).placements = s.placements ∧ (s.bump r lo n k).events = s.events ∧ (s.bump r lo n
    k).lostEvents = s.lostEvents ∧ (s.bump r lo n k).testsDone = s.testsDone ∧ (s.bump r lo n k).detach = s.detach ∧ (s.bump r
    lo n k).culverts = s.culverts ∧ (s.bump r lo n k).nextXtag = s.nextXtag ∧ (s.bump r lo n k).siteId = s.siteId ∧ (s.bump r
    lo n k).attached = s.attached ∧ (s.bump r lo n k).cistern = s.cistern ∧ (s.bump r lo n k).running = s.running ∧ (s.bump r
    lo n k).power = s.power ∧ (s.bump r lo n k).start = s.start ∧ (s.bump r lo n k).hg = s.hg ∧ (s.bump r lo n k).mgt = s.mgt
    ∧ (s.bump r lo n k).spdm = s.spdm ∧ (s.bump r lo n k).tap = s.tap ∧ (s.bump r lo n k).handover = s.handover ∧ (s.bump r lo
    n k).core = s.core ∧ (s.bump r lo n k).controlDown = s.controlDown ∧ (s.bump r lo n k).downSince = s.downSince ∧ (s.bump r
    lo n k).downOk = s.downOk ∧ (s.bump r lo n k).loadOut = s.loadOut := by
  unfold State.bump
  split <;> simp

/-- `bumpWrap` changes regs alone. -/
@[simp] theorem State.bumpWrap_keeps (r : Reg) (lo n k : Nat) :
    (s.bumpWrap r lo n k).pending = s.pending ∧ (s.bumpWrap r lo n k).cfg = s.cfg ∧ (s.bumpWrap r lo n k).cycle = s.cycle ∧
    (s.bumpWrap r lo n k).fresh = s.fresh ∧ (s.bumpWrap r lo n k).freeUses = s.freeUses ∧ (s.bumpWrap r lo n k).mem = s.mem ∧
    (s.bumpWrap r lo n k).memChk = s.memChk ∧ (s.bumpWrap r lo n k).desc = s.desc ∧ (s.bumpWrap r lo n k).descChk = s.descChk
    ∧ (s.bumpWrap r lo n k).gauge = s.gauge ∧ (s.bumpWrap r lo n k).gaugeCtx = s.gaugeCtx ∧ (s.bumpWrap r lo n k).gaugeChk =
    s.gaugeChk ∧ (s.bumpWrap r lo n k).landed = s.landed ∧ (s.bumpWrap r lo n k).stack = s.stack ∧ (s.bumpWrap r lo n k).pages
    = s.pages ∧ (s.bumpWrap r lo n k).combining = s.combining ∧ (s.bumpWrap r lo n k).macs = s.macs ∧ (s.bumpWrap r lo n
    k).badBlocks = s.badBlocks ∧ (s.bumpWrap r lo n k).siphons = s.siphons ∧ (s.bumpWrap r lo n k).flights = s.flights ∧
    (s.bumpWrap r lo n k).nextFlight = s.nextFlight ∧ (s.bumpWrap r lo n k).staging = s.staging ∧ (s.bumpWrap r lo n
    k).keyGens = s.keyGens ∧ (s.bumpWrap r lo n k).sphKeys = s.sphKeys ∧ (s.bumpWrap r lo n k).reshadows = s.reshadows ∧
    (s.bumpWrap r lo n k).oldSends = s.oldSends ∧ (s.bumpWrap r lo n k).locks = s.locks ∧ (s.bumpWrap r lo n k).waits =
    s.waits ∧ (s.bumpWrap r lo n k).dueIncs = s.dueIncs ∧ (s.bumpWrap r lo n k).sram = s.sram ∧ (s.bumpWrap r lo n k).lists =
    s.lists ∧ (s.bumpWrap r lo n k).slotStats = s.slotStats ∧ (s.bumpWrap r lo n k).nextSpawn = s.nextSpawn ∧ (s.bumpWrap r lo
    n k).rings = s.rings ∧ (s.bumpWrap r lo n k).riders = s.riders ∧ (s.bumpWrap r lo n k).rode = s.rode ∧ (s.bumpWrap r lo n
    k).handed = s.handed ∧ (s.bumpWrap r lo n k).active = s.active ∧ (s.bumpWrap r lo n k).ctxs = s.ctxs ∧ (s.bumpWrap r lo n
    k).auditMs = s.auditMs ∧ (s.bumpWrap r lo n k).auditNext = s.auditNext ∧ (s.bumpWrap r lo n k).auditFrom = s.auditFrom ∧
    (s.bumpWrap r lo n k).auditSnap = s.auditSnap ∧ (s.bumpWrap r lo n k).arbs = s.arbs ∧ (s.bumpWrap r lo n k).beats =
    s.beats ∧ (s.bumpWrap r lo n k).parks = s.parks ∧ (s.bumpWrap r lo n k).turnWait = s.turnWait ∧ (s.bumpWrap r lo n
    k).decided = s.decided ∧ (s.bumpWrap r lo n k).frozenAt = s.frozenAt ∧ (s.bumpWrap r lo n k).fillRes = s.fillRes ∧
    (s.bumpWrap r lo n k).scrubs = s.scrubs ∧ (s.bumpWrap r lo n k).regulators = s.regulators ∧ (s.bumpWrap r lo n
    k).scrubbers = s.scrubbers ∧ (s.bumpWrap r lo n k).spareCopies = s.spareCopies ∧ (s.bumpWrap r lo n k).remapped =
    s.remapped ∧ (s.bumpWrap r lo n k).substs = s.substs ∧ (s.bumpWrap r lo n k).bit7Due = s.bit7Due ∧ (s.bumpWrap r lo n
    k).retiring = s.retiring ∧ (s.bumpWrap r lo n k).restores = s.restores ∧ (s.bumpWrap r lo n k).placements = s.placements ∧
    (s.bumpWrap r lo n k).events = s.events ∧ (s.bumpWrap r lo n k).lostEvents = s.lostEvents ∧ (s.bumpWrap r lo n
    k).testsDone = s.testsDone ∧ (s.bumpWrap r lo n k).detach = s.detach ∧ (s.bumpWrap r lo n k).culverts = s.culverts ∧
    (s.bumpWrap r lo n k).nextXtag = s.nextXtag ∧ (s.bumpWrap r lo n k).siteId = s.siteId ∧ (s.bumpWrap r lo n k).attached =
    s.attached ∧ (s.bumpWrap r lo n k).cistern = s.cistern ∧ (s.bumpWrap r lo n k).running = s.running ∧ (s.bumpWrap r lo n
    k).power = s.power ∧ (s.bumpWrap r lo n k).start = s.start ∧ (s.bumpWrap r lo n k).hg = s.hg ∧ (s.bumpWrap r lo n k).mgt =
    s.mgt ∧ (s.bumpWrap r lo n k).spdm = s.spdm ∧ (s.bumpWrap r lo n k).tap = s.tap ∧ (s.bumpWrap r lo n k).handover =
    s.handover ∧ (s.bumpWrap r lo n k).core = s.core ∧ (s.bumpWrap r lo n k).controlDown = s.controlDown ∧ (s.bumpWrap r lo n
    k).downSince = s.downSince ∧ (s.bumpWrap r lo n k).downOk = s.downOk ∧ (s.bumpWrap r lo n k).loadOut = s.loadOut := by
  repeat' constructor

/-- `setW1c` changes regs and fresh alone. -/
@[simp] theorem State.setW1c_keeps (r : Reg) (m : Word64) :
    (s.setW1c r m).pending = s.pending ∧ (s.setW1c r m).cfg = s.cfg ∧ (s.setW1c r m).cycle = s.cycle ∧ (s.setW1c r m).freeUses
    = s.freeUses ∧ (s.setW1c r m).mem = s.mem ∧ (s.setW1c r m).memChk = s.memChk ∧ (s.setW1c r m).desc = s.desc ∧ (s.setW1c r
    m).descChk = s.descChk ∧ (s.setW1c r m).gauge = s.gauge ∧ (s.setW1c r m).gaugeCtx = s.gaugeCtx ∧ (s.setW1c r m).gaugeChk =
    s.gaugeChk ∧ (s.setW1c r m).landed = s.landed ∧ (s.setW1c r m).stack = s.stack ∧ (s.setW1c r m).pages = s.pages ∧
    (s.setW1c r m).combining = s.combining ∧ (s.setW1c r m).macs = s.macs ∧ (s.setW1c r m).badBlocks = s.badBlocks ∧ (s.setW1c
    r m).siphons = s.siphons ∧ (s.setW1c r m).flights = s.flights ∧ (s.setW1c r m).nextFlight = s.nextFlight ∧ (s.setW1c r
    m).staging = s.staging ∧ (s.setW1c r m).keyGens = s.keyGens ∧ (s.setW1c r m).sphKeys = s.sphKeys ∧ (s.setW1c r
    m).reshadows = s.reshadows ∧ (s.setW1c r m).oldSends = s.oldSends ∧ (s.setW1c r m).locks = s.locks ∧ (s.setW1c r m).waits
    = s.waits ∧ (s.setW1c r m).dueIncs = s.dueIncs ∧ (s.setW1c r m).sram = s.sram ∧ (s.setW1c r m).lists = s.lists ∧ (s.setW1c
    r m).slotStats = s.slotStats ∧ (s.setW1c r m).nextSpawn = s.nextSpawn ∧ (s.setW1c r m).rings = s.rings ∧ (s.setW1c r
    m).riders = s.riders ∧ (s.setW1c r m).rode = s.rode ∧ (s.setW1c r m).handed = s.handed ∧ (s.setW1c r m).active = s.active
    ∧ (s.setW1c r m).ctxs = s.ctxs ∧ (s.setW1c r m).auditMs = s.auditMs ∧ (s.setW1c r m).auditNext = s.auditNext ∧ (s.setW1c r
    m).auditFrom = s.auditFrom ∧ (s.setW1c r m).auditSnap = s.auditSnap ∧ (s.setW1c r m).arbs = s.arbs ∧ (s.setW1c r m).beats
    = s.beats ∧ (s.setW1c r m).parks = s.parks ∧ (s.setW1c r m).turnWait = s.turnWait ∧ (s.setW1c r m).decided = s.decided ∧
    (s.setW1c r m).frozenAt = s.frozenAt ∧ (s.setW1c r m).fillRes = s.fillRes ∧ (s.setW1c r m).scrubs = s.scrubs ∧ (s.setW1c r
    m).regulators = s.regulators ∧ (s.setW1c r m).scrubbers = s.scrubbers ∧ (s.setW1c r m).spareCopies = s.spareCopies ∧
    (s.setW1c r m).remapped = s.remapped ∧ (s.setW1c r m).substs = s.substs ∧ (s.setW1c r m).bit7Due = s.bit7Due ∧ (s.setW1c r
    m).retiring = s.retiring ∧ (s.setW1c r m).restores = s.restores ∧ (s.setW1c r m).placements = s.placements ∧ (s.setW1c r
    m).events = s.events ∧ (s.setW1c r m).lostEvents = s.lostEvents ∧ (s.setW1c r m).testsDone = s.testsDone ∧ (s.setW1c r
    m).detach = s.detach ∧ (s.setW1c r m).culverts = s.culverts ∧ (s.setW1c r m).nextXtag = s.nextXtag ∧ (s.setW1c r m).siteId
    = s.siteId ∧ (s.setW1c r m).attached = s.attached ∧ (s.setW1c r m).cistern = s.cistern ∧ (s.setW1c r m).running =
    s.running ∧ (s.setW1c r m).power = s.power ∧ (s.setW1c r m).start = s.start ∧ (s.setW1c r m).hg = s.hg ∧ (s.setW1c r
    m).mgt = s.mgt ∧ (s.setW1c r m).spdm = s.spdm ∧ (s.setW1c r m).tap = s.tap ∧ (s.setW1c r m).handover = s.handover ∧
    (s.setW1c r m).core = s.core ∧ (s.setW1c r m).controlDown = s.controlDown ∧ (s.setW1c r m).downSince = s.downSince ∧
    (s.setW1c r m).downOk = s.downOk ∧ (s.setW1c r m).loadOut = s.loadOut := by
  repeat' constructor

/-- `setSite` changes regs alone. -/
@[simp] theorem State.setSite_keeps (v : Nat) :
    (s.setSite v).pending = s.pending ∧ (s.setSite v).cfg = s.cfg ∧ (s.setSite v).cycle = s.cycle ∧ (s.setSite v).fresh =
    s.fresh ∧ (s.setSite v).freeUses = s.freeUses ∧ (s.setSite v).mem = s.mem ∧ (s.setSite v).memChk = s.memChk ∧ (s.setSite
    v).desc = s.desc ∧ (s.setSite v).descChk = s.descChk ∧ (s.setSite v).gauge = s.gauge ∧ (s.setSite v).gaugeCtx = s.gaugeCtx
    ∧ (s.setSite v).gaugeChk = s.gaugeChk ∧ (s.setSite v).landed = s.landed ∧ (s.setSite v).stack = s.stack ∧ (s.setSite
    v).pages = s.pages ∧ (s.setSite v).combining = s.combining ∧ (s.setSite v).macs = s.macs ∧ (s.setSite v).badBlocks =
    s.badBlocks ∧ (s.setSite v).siphons = s.siphons ∧ (s.setSite v).flights = s.flights ∧ (s.setSite v).nextFlight =
    s.nextFlight ∧ (s.setSite v).staging = s.staging ∧ (s.setSite v).keyGens = s.keyGens ∧ (s.setSite v).sphKeys = s.sphKeys ∧
    (s.setSite v).reshadows = s.reshadows ∧ (s.setSite v).oldSends = s.oldSends ∧ (s.setSite v).locks = s.locks ∧ (s.setSite
    v).waits = s.waits ∧ (s.setSite v).dueIncs = s.dueIncs ∧ (s.setSite v).sram = s.sram ∧ (s.setSite v).lists = s.lists ∧
    (s.setSite v).slotStats = s.slotStats ∧ (s.setSite v).nextSpawn = s.nextSpawn ∧ (s.setSite v).rings = s.rings ∧ (s.setSite
    v).riders = s.riders ∧ (s.setSite v).rode = s.rode ∧ (s.setSite v).handed = s.handed ∧ (s.setSite v).active = s.active ∧
    (s.setSite v).ctxs = s.ctxs ∧ (s.setSite v).auditMs = s.auditMs ∧ (s.setSite v).auditNext = s.auditNext ∧ (s.setSite
    v).auditFrom = s.auditFrom ∧ (s.setSite v).auditSnap = s.auditSnap ∧ (s.setSite v).arbs = s.arbs ∧ (s.setSite v).beats =
    s.beats ∧ (s.setSite v).parks = s.parks ∧ (s.setSite v).turnWait = s.turnWait ∧ (s.setSite v).decided = s.decided ∧
    (s.setSite v).frozenAt = s.frozenAt ∧ (s.setSite v).fillRes = s.fillRes ∧ (s.setSite v).scrubs = s.scrubs ∧ (s.setSite
    v).regulators = s.regulators ∧ (s.setSite v).scrubbers = s.scrubbers ∧ (s.setSite v).spareCopies = s.spareCopies ∧
    (s.setSite v).remapped = s.remapped ∧ (s.setSite v).substs = s.substs ∧ (s.setSite v).bit7Due = s.bit7Due ∧ (s.setSite
    v).retiring = s.retiring ∧ (s.setSite v).restores = s.restores ∧ (s.setSite v).placements = s.placements ∧ (s.setSite
    v).events = s.events ∧ (s.setSite v).lostEvents = s.lostEvents ∧ (s.setSite v).testsDone = s.testsDone ∧ (s.setSite
    v).detach = s.detach ∧ (s.setSite v).culverts = s.culverts ∧ (s.setSite v).nextXtag = s.nextXtag ∧ (s.setSite v).siteId =
    s.siteId ∧ (s.setSite v).attached = s.attached ∧ (s.setSite v).cistern = s.cistern ∧ (s.setSite v).running = s.running ∧
    (s.setSite v).power = s.power ∧ (s.setSite v).start = s.start ∧ (s.setSite v).hg = s.hg ∧ (s.setSite v).mgt = s.mgt ∧
    (s.setSite v).spdm = s.spdm ∧ (s.setSite v).tap = s.tap ∧ (s.setSite v).handover = s.handover ∧ (s.setSite v).core =
    s.core ∧ (s.setSite v).controlDown = s.controlDown ∧ (s.setSite v).downSince = s.downSince ∧ (s.setSite v).downOk =
    s.downOk ∧ (s.setSite v).loadOut = s.loadOut := by
  repeat' constructor

/-- `setStage` changes regs alone. -/
@[simp] theorem State.setStage_keeps (v : Nat) :
    (s.setStage v).pending = s.pending ∧ (s.setStage v).cfg = s.cfg ∧ (s.setStage v).cycle = s.cycle ∧ (s.setStage v).fresh =
    s.fresh ∧ (s.setStage v).freeUses = s.freeUses ∧ (s.setStage v).mem = s.mem ∧ (s.setStage v).memChk = s.memChk ∧
    (s.setStage v).desc = s.desc ∧ (s.setStage v).descChk = s.descChk ∧ (s.setStage v).gauge = s.gauge ∧ (s.setStage
    v).gaugeCtx = s.gaugeCtx ∧ (s.setStage v).gaugeChk = s.gaugeChk ∧ (s.setStage v).landed = s.landed ∧ (s.setStage v).stack
    = s.stack ∧ (s.setStage v).pages = s.pages ∧ (s.setStage v).combining = s.combining ∧ (s.setStage v).macs = s.macs ∧
    (s.setStage v).badBlocks = s.badBlocks ∧ (s.setStage v).siphons = s.siphons ∧ (s.setStage v).flights = s.flights ∧
    (s.setStage v).nextFlight = s.nextFlight ∧ (s.setStage v).staging = s.staging ∧ (s.setStage v).keyGens = s.keyGens ∧
    (s.setStage v).sphKeys = s.sphKeys ∧ (s.setStage v).reshadows = s.reshadows ∧ (s.setStage v).oldSends = s.oldSends ∧
    (s.setStage v).locks = s.locks ∧ (s.setStage v).waits = s.waits ∧ (s.setStage v).dueIncs = s.dueIncs ∧ (s.setStage v).sram
    = s.sram ∧ (s.setStage v).lists = s.lists ∧ (s.setStage v).slotStats = s.slotStats ∧ (s.setStage v).nextSpawn =
    s.nextSpawn ∧ (s.setStage v).rings = s.rings ∧ (s.setStage v).riders = s.riders ∧ (s.setStage v).rode = s.rode ∧
    (s.setStage v).handed = s.handed ∧ (s.setStage v).active = s.active ∧ (s.setStage v).ctxs = s.ctxs ∧ (s.setStage
    v).auditMs = s.auditMs ∧ (s.setStage v).auditNext = s.auditNext ∧ (s.setStage v).auditFrom = s.auditFrom ∧ (s.setStage
    v).auditSnap = s.auditSnap ∧ (s.setStage v).arbs = s.arbs ∧ (s.setStage v).beats = s.beats ∧ (s.setStage v).parks =
    s.parks ∧ (s.setStage v).turnWait = s.turnWait ∧ (s.setStage v).decided = s.decided ∧ (s.setStage v).frozenAt = s.frozenAt
    ∧ (s.setStage v).fillRes = s.fillRes ∧ (s.setStage v).scrubs = s.scrubs ∧ (s.setStage v).regulators = s.regulators ∧
    (s.setStage v).scrubbers = s.scrubbers ∧ (s.setStage v).spareCopies = s.spareCopies ∧ (s.setStage v).remapped = s.remapped
    ∧ (s.setStage v).substs = s.substs ∧ (s.setStage v).bit7Due = s.bit7Due ∧ (s.setStage v).retiring = s.retiring ∧
    (s.setStage v).restores = s.restores ∧ (s.setStage v).placements = s.placements ∧ (s.setStage v).events = s.events ∧
    (s.setStage v).lostEvents = s.lostEvents ∧ (s.setStage v).testsDone = s.testsDone ∧ (s.setStage v).detach = s.detach ∧
    (s.setStage v).culverts = s.culverts ∧ (s.setStage v).nextXtag = s.nextXtag ∧ (s.setStage v).siteId = s.siteId ∧
    (s.setStage v).attached = s.attached ∧ (s.setStage v).cistern = s.cistern ∧ (s.setStage v).running = s.running ∧
    (s.setStage v).power = s.power ∧ (s.setStage v).start = s.start ∧ (s.setStage v).hg = s.hg ∧ (s.setStage v).mgt = s.mgt ∧
    (s.setStage v).spdm = s.spdm ∧ (s.setStage v).tap = s.tap ∧ (s.setStage v).handover = s.handover ∧ (s.setStage v).core =
    s.core ∧ (s.setStage v).controlDown = s.controlDown ∧ (s.setStage v).downSince = s.downSince ∧ (s.setStage v).downOk =
    s.downOk ∧ (s.setStage v).loadOut = s.loadOut := by
  repeat' constructor

/-- `useFree` changes freeUses alone. -/
@[simp] theorem State.useFree_keeps :
    (s.useFree).pending = s.pending ∧ (s.useFree).cfg = s.cfg ∧ (s.useFree).cycle = s.cycle ∧ (s.useFree).regs = s.regs ∧
    (s.useFree).fresh = s.fresh ∧ (s.useFree).mem = s.mem ∧ (s.useFree).memChk = s.memChk ∧ (s.useFree).desc = s.desc ∧
    (s.useFree).descChk = s.descChk ∧ (s.useFree).gauge = s.gauge ∧ (s.useFree).gaugeCtx = s.gaugeCtx ∧ (s.useFree).gaugeChk =
    s.gaugeChk ∧ (s.useFree).landed = s.landed ∧ (s.useFree).stack = s.stack ∧ (s.useFree).pages = s.pages ∧
    (s.useFree).combining = s.combining ∧ (s.useFree).macs = s.macs ∧ (s.useFree).badBlocks = s.badBlocks ∧
    (s.useFree).siphons = s.siphons ∧ (s.useFree).flights = s.flights ∧ (s.useFree).nextFlight = s.nextFlight ∧
    (s.useFree).staging = s.staging ∧ (s.useFree).keyGens = s.keyGens ∧ (s.useFree).sphKeys = s.sphKeys ∧
    (s.useFree).reshadows = s.reshadows ∧ (s.useFree).oldSends = s.oldSends ∧ (s.useFree).locks = s.locks ∧ (s.useFree).waits
    = s.waits ∧ (s.useFree).dueIncs = s.dueIncs ∧ (s.useFree).sram = s.sram ∧ (s.useFree).lists = s.lists ∧
    (s.useFree).slotStats = s.slotStats ∧ (s.useFree).nextSpawn = s.nextSpawn ∧ (s.useFree).rings = s.rings ∧
    (s.useFree).riders = s.riders ∧ (s.useFree).rode = s.rode ∧ (s.useFree).handed = s.handed ∧ (s.useFree).active = s.active
    ∧ (s.useFree).ctxs = s.ctxs ∧ (s.useFree).auditMs = s.auditMs ∧ (s.useFree).auditNext = s.auditNext ∧
    (s.useFree).auditFrom = s.auditFrom ∧ (s.useFree).auditSnap = s.auditSnap ∧ (s.useFree).arbs = s.arbs ∧ (s.useFree).beats
    = s.beats ∧ (s.useFree).parks = s.parks ∧ (s.useFree).turnWait = s.turnWait ∧ (s.useFree).decided = s.decided ∧
    (s.useFree).frozenAt = s.frozenAt ∧ (s.useFree).fillRes = s.fillRes ∧ (s.useFree).scrubs = s.scrubs ∧
    (s.useFree).regulators = s.regulators ∧ (s.useFree).scrubbers = s.scrubbers ∧ (s.useFree).spareCopies = s.spareCopies ∧
    (s.useFree).remapped = s.remapped ∧ (s.useFree).substs = s.substs ∧ (s.useFree).bit7Due = s.bit7Due ∧ (s.useFree).retiring
    = s.retiring ∧ (s.useFree).restores = s.restores ∧ (s.useFree).placements = s.placements ∧ (s.useFree).events = s.events ∧
    (s.useFree).lostEvents = s.lostEvents ∧ (s.useFree).testsDone = s.testsDone ∧ (s.useFree).detach = s.detach ∧
    (s.useFree).culverts = s.culverts ∧ (s.useFree).nextXtag = s.nextXtag ∧ (s.useFree).siteId = s.siteId ∧
    (s.useFree).attached = s.attached ∧ (s.useFree).cistern = s.cistern ∧ (s.useFree).running = s.running ∧ (s.useFree).power
    = s.power ∧ (s.useFree).start = s.start ∧ (s.useFree).hg = s.hg ∧ (s.useFree).mgt = s.mgt ∧ (s.useFree).spdm = s.spdm ∧
    (s.useFree).tap = s.tap ∧ (s.useFree).handover = s.handover ∧ (s.useFree).core = s.core ∧ (s.useFree).controlDown =
    s.controlDown ∧ (s.useFree).downSince = s.downSince ∧ (s.useFree).downOk = s.downOk ∧ (s.useFree).loadOut = s.loadOut := by
  repeat' constructor

/-- `putDesc` changes desc and descChk and sram alone. -/
@[simp] theorem State.putDesc_keeps (b d : Nat) (v : BitVec 512) :
    (s.putDesc b d v).pending = s.pending ∧ (s.putDesc b d v).cfg = s.cfg ∧ (s.putDesc b d v).cycle = s.cycle ∧ (s.putDesc b d
    v).regs = s.regs ∧ (s.putDesc b d v).fresh = s.fresh ∧ (s.putDesc b d v).freeUses = s.freeUses ∧ (s.putDesc b d v).mem =
    s.mem ∧ (s.putDesc b d v).memChk = s.memChk ∧ (s.putDesc b d v).gauge = s.gauge ∧ (s.putDesc b d v).gaugeCtx = s.gaugeCtx
    ∧ (s.putDesc b d v).gaugeChk = s.gaugeChk ∧ (s.putDesc b d v).landed = s.landed ∧ (s.putDesc b d v).stack = s.stack ∧
    (s.putDesc b d v).pages = s.pages ∧ (s.putDesc b d v).combining = s.combining ∧ (s.putDesc b d v).macs = s.macs ∧
    (s.putDesc b d v).badBlocks = s.badBlocks ∧ (s.putDesc b d v).siphons = s.siphons ∧ (s.putDesc b d v).flights = s.flights
    ∧ (s.putDesc b d v).nextFlight = s.nextFlight ∧ (s.putDesc b d v).staging = s.staging ∧ (s.putDesc b d v).keyGens =
    s.keyGens ∧ (s.putDesc b d v).sphKeys = s.sphKeys ∧ (s.putDesc b d v).reshadows = s.reshadows ∧ (s.putDesc b d v).oldSends
    = s.oldSends ∧ (s.putDesc b d v).locks = s.locks ∧ (s.putDesc b d v).waits = s.waits ∧ (s.putDesc b d v).dueIncs =
    s.dueIncs ∧ (s.putDesc b d v).lists = s.lists ∧ (s.putDesc b d v).slotStats = s.slotStats ∧ (s.putDesc b d v).nextSpawn =
    s.nextSpawn ∧ (s.putDesc b d v).rings = s.rings ∧ (s.putDesc b d v).riders = s.riders ∧ (s.putDesc b d v).rode = s.rode ∧
    (s.putDesc b d v).handed = s.handed ∧ (s.putDesc b d v).active = s.active ∧ (s.putDesc b d v).ctxs = s.ctxs ∧ (s.putDesc b
    d v).auditMs = s.auditMs ∧ (s.putDesc b d v).auditNext = s.auditNext ∧ (s.putDesc b d v).auditFrom = s.auditFrom ∧
    (s.putDesc b d v).auditSnap = s.auditSnap ∧ (s.putDesc b d v).arbs = s.arbs ∧ (s.putDesc b d v).beats = s.beats ∧
    (s.putDesc b d v).parks = s.parks ∧ (s.putDesc b d v).turnWait = s.turnWait ∧ (s.putDesc b d v).decided = s.decided ∧
    (s.putDesc b d v).frozenAt = s.frozenAt ∧ (s.putDesc b d v).fillRes = s.fillRes ∧ (s.putDesc b d v).scrubs = s.scrubs ∧
    (s.putDesc b d v).regulators = s.regulators ∧ (s.putDesc b d v).scrubbers = s.scrubbers ∧ (s.putDesc b d v).spareCopies =
    s.spareCopies ∧ (s.putDesc b d v).remapped = s.remapped ∧ (s.putDesc b d v).substs = s.substs ∧ (s.putDesc b d v).bit7Due
    = s.bit7Due ∧ (s.putDesc b d v).retiring = s.retiring ∧ (s.putDesc b d v).restores = s.restores ∧ (s.putDesc b d
    v).placements = s.placements ∧ (s.putDesc b d v).events = s.events ∧ (s.putDesc b d v).lostEvents = s.lostEvents ∧
    (s.putDesc b d v).testsDone = s.testsDone ∧ (s.putDesc b d v).detach = s.detach ∧ (s.putDesc b d v).culverts = s.culverts
    ∧ (s.putDesc b d v).nextXtag = s.nextXtag ∧ (s.putDesc b d v).siteId = s.siteId ∧ (s.putDesc b d v).attached = s.attached
    ∧ (s.putDesc b d v).cistern = s.cistern ∧ (s.putDesc b d v).running = s.running ∧ (s.putDesc b d v).power = s.power ∧
    (s.putDesc b d v).start = s.start ∧ (s.putDesc b d v).hg = s.hg ∧ (s.putDesc b d v).mgt = s.mgt ∧ (s.putDesc b d v).spdm =
    s.spdm ∧ (s.putDesc b d v).tap = s.tap ∧ (s.putDesc b d v).handover = s.handover ∧ (s.putDesc b d v).core = s.core ∧
    (s.putDesc b d v).controlDown = s.controlDown ∧ (s.putDesc b d v).downSince = s.downSince ∧ (s.putDesc b d v).downOk =
    s.downOk ∧ (s.putDesc b d v).loadOut = s.loadOut := by
  repeat' constructor

/-- `putCount` changes gauge and gaugeCtx and gaugeChk and sram alone. -/
@[simp] theorem State.putCount_keeps (b g : Nat) (v : BitVec 32) :
    (s.putCount b g v).pending = s.pending ∧ (s.putCount b g v).cfg = s.cfg ∧ (s.putCount b g v).cycle = s.cycle ∧ (s.putCount
    b g v).regs = s.regs ∧ (s.putCount b g v).fresh = s.fresh ∧ (s.putCount b g v).freeUses = s.freeUses ∧ (s.putCount b g
    v).mem = s.mem ∧ (s.putCount b g v).memChk = s.memChk ∧ (s.putCount b g v).desc = s.desc ∧ (s.putCount b g v).descChk =
    s.descChk ∧ (s.putCount b g v).landed = s.landed ∧ (s.putCount b g v).stack = s.stack ∧ (s.putCount b g v).pages = s.pages
    ∧ (s.putCount b g v).combining = s.combining ∧ (s.putCount b g v).macs = s.macs ∧ (s.putCount b g v).badBlocks =
    s.badBlocks ∧ (s.putCount b g v).siphons = s.siphons ∧ (s.putCount b g v).flights = s.flights ∧ (s.putCount b g
    v).nextFlight = s.nextFlight ∧ (s.putCount b g v).staging = s.staging ∧ (s.putCount b g v).keyGens = s.keyGens ∧
    (s.putCount b g v).sphKeys = s.sphKeys ∧ (s.putCount b g v).reshadows = s.reshadows ∧ (s.putCount b g v).oldSends =
    s.oldSends ∧ (s.putCount b g v).locks = s.locks ∧ (s.putCount b g v).waits = s.waits ∧ (s.putCount b g v).dueIncs =
    s.dueIncs ∧ (s.putCount b g v).lists = s.lists ∧ (s.putCount b g v).slotStats = s.slotStats ∧ (s.putCount b g v).nextSpawn
    = s.nextSpawn ∧ (s.putCount b g v).rings = s.rings ∧ (s.putCount b g v).riders = s.riders ∧ (s.putCount b g v).rode =
    s.rode ∧ (s.putCount b g v).handed = s.handed ∧ (s.putCount b g v).active = s.active ∧ (s.putCount b g v).ctxs = s.ctxs ∧
    (s.putCount b g v).auditMs = s.auditMs ∧ (s.putCount b g v).auditNext = s.auditNext ∧ (s.putCount b g v).auditFrom =
    s.auditFrom ∧ (s.putCount b g v).auditSnap = s.auditSnap ∧ (s.putCount b g v).arbs = s.arbs ∧ (s.putCount b g v).beats =
    s.beats ∧ (s.putCount b g v).parks = s.parks ∧ (s.putCount b g v).turnWait = s.turnWait ∧ (s.putCount b g v).decided =
    s.decided ∧ (s.putCount b g v).frozenAt = s.frozenAt ∧ (s.putCount b g v).fillRes = s.fillRes ∧ (s.putCount b g v).scrubs
    = s.scrubs ∧ (s.putCount b g v).regulators = s.regulators ∧ (s.putCount b g v).scrubbers = s.scrubbers ∧ (s.putCount b g
    v).spareCopies = s.spareCopies ∧ (s.putCount b g v).remapped = s.remapped ∧ (s.putCount b g v).substs = s.substs ∧
    (s.putCount b g v).bit7Due = s.bit7Due ∧ (s.putCount b g v).retiring = s.retiring ∧ (s.putCount b g v).restores =
    s.restores ∧ (s.putCount b g v).placements = s.placements ∧ (s.putCount b g v).events = s.events ∧ (s.putCount b g
    v).lostEvents = s.lostEvents ∧ (s.putCount b g v).testsDone = s.testsDone ∧ (s.putCount b g v).detach = s.detach ∧
    (s.putCount b g v).culverts = s.culverts ∧ (s.putCount b g v).nextXtag = s.nextXtag ∧ (s.putCount b g v).siteId = s.siteId
    ∧ (s.putCount b g v).attached = s.attached ∧ (s.putCount b g v).cistern = s.cistern ∧ (s.putCount b g v).running =
    s.running ∧ (s.putCount b g v).power = s.power ∧ (s.putCount b g v).start = s.start ∧ (s.putCount b g v).hg = s.hg ∧
    (s.putCount b g v).mgt = s.mgt ∧ (s.putCount b g v).spdm = s.spdm ∧ (s.putCount b g v).tap = s.tap ∧ (s.putCount b g
    v).handover = s.handover ∧ (s.putCount b g v).core = s.core ∧ (s.putCount b g v).controlDown = s.controlDown ∧ (s.putCount
    b g v).downSince = s.downSince ∧ (s.putCount b g v).downOk = s.downOk ∧ (s.putCount b g v).loadOut = s.loadOut := by
  repeat' constructor

/-- `putGctx` changes gauge and gaugeCtx and gaugeChk and sram alone. -/
@[simp] theorem State.putGctx_keeps (b g c : Nat) :
    (s.putGctx b g c).pending = s.pending ∧ (s.putGctx b g c).cfg = s.cfg ∧ (s.putGctx b g c).cycle = s.cycle ∧ (s.putGctx b g
    c).regs = s.regs ∧ (s.putGctx b g c).fresh = s.fresh ∧ (s.putGctx b g c).freeUses = s.freeUses ∧ (s.putGctx b g c).mem =
    s.mem ∧ (s.putGctx b g c).memChk = s.memChk ∧ (s.putGctx b g c).desc = s.desc ∧ (s.putGctx b g c).descChk = s.descChk ∧
    (s.putGctx b g c).landed = s.landed ∧ (s.putGctx b g c).stack = s.stack ∧ (s.putGctx b g c).pages = s.pages ∧ (s.putGctx b
    g c).combining = s.combining ∧ (s.putGctx b g c).macs = s.macs ∧ (s.putGctx b g c).badBlocks = s.badBlocks ∧ (s.putGctx b
    g c).siphons = s.siphons ∧ (s.putGctx b g c).flights = s.flights ∧ (s.putGctx b g c).nextFlight = s.nextFlight ∧
    (s.putGctx b g c).staging = s.staging ∧ (s.putGctx b g c).keyGens = s.keyGens ∧ (s.putGctx b g c).sphKeys = s.sphKeys ∧
    (s.putGctx b g c).reshadows = s.reshadows ∧ (s.putGctx b g c).oldSends = s.oldSends ∧ (s.putGctx b g c).locks = s.locks ∧
    (s.putGctx b g c).waits = s.waits ∧ (s.putGctx b g c).dueIncs = s.dueIncs ∧ (s.putGctx b g c).lists = s.lists ∧ (s.putGctx
    b g c).slotStats = s.slotStats ∧ (s.putGctx b g c).nextSpawn = s.nextSpawn ∧ (s.putGctx b g c).rings = s.rings ∧
    (s.putGctx b g c).riders = s.riders ∧ (s.putGctx b g c).rode = s.rode ∧ (s.putGctx b g c).handed = s.handed ∧ (s.putGctx b
    g c).active = s.active ∧ (s.putGctx b g c).ctxs = s.ctxs ∧ (s.putGctx b g c).auditMs = s.auditMs ∧ (s.putGctx b g
    c).auditNext = s.auditNext ∧ (s.putGctx b g c).auditFrom = s.auditFrom ∧ (s.putGctx b g c).auditSnap = s.auditSnap ∧
    (s.putGctx b g c).arbs = s.arbs ∧ (s.putGctx b g c).beats = s.beats ∧ (s.putGctx b g c).parks = s.parks ∧ (s.putGctx b g
    c).turnWait = s.turnWait ∧ (s.putGctx b g c).decided = s.decided ∧ (s.putGctx b g c).frozenAt = s.frozenAt ∧ (s.putGctx b
    g c).fillRes = s.fillRes ∧ (s.putGctx b g c).scrubs = s.scrubs ∧ (s.putGctx b g c).regulators = s.regulators ∧ (s.putGctx
    b g c).scrubbers = s.scrubbers ∧ (s.putGctx b g c).spareCopies = s.spareCopies ∧ (s.putGctx b g c).remapped = s.remapped ∧
    (s.putGctx b g c).substs = s.substs ∧ (s.putGctx b g c).bit7Due = s.bit7Due ∧ (s.putGctx b g c).retiring = s.retiring ∧
    (s.putGctx b g c).restores = s.restores ∧ (s.putGctx b g c).placements = s.placements ∧ (s.putGctx b g c).events =
    s.events ∧ (s.putGctx b g c).lostEvents = s.lostEvents ∧ (s.putGctx b g c).testsDone = s.testsDone ∧ (s.putGctx b g
    c).detach = s.detach ∧ (s.putGctx b g c).culverts = s.culverts ∧ (s.putGctx b g c).nextXtag = s.nextXtag ∧ (s.putGctx b g
    c).siteId = s.siteId ∧ (s.putGctx b g c).attached = s.attached ∧ (s.putGctx b g c).cistern = s.cistern ∧ (s.putGctx b g
    c).running = s.running ∧ (s.putGctx b g c).power = s.power ∧ (s.putGctx b g c).start = s.start ∧ (s.putGctx b g c).hg =
    s.hg ∧ (s.putGctx b g c).mgt = s.mgt ∧ (s.putGctx b g c).spdm = s.spdm ∧ (s.putGctx b g c).tap = s.tap ∧ (s.putGctx b g
    c).handover = s.handover ∧ (s.putGctx b g c).core = s.core ∧ (s.putGctx b g c).controlDown = s.controlDown ∧ (s.putGctx b
    g c).downSince = s.downSince ∧ (s.putGctx b g c).downOk = s.downOk ∧ (s.putGctx b g c).loadOut = s.loadOut := by
  repeat' constructor

/-- `putCtx` changes ctxs alone. -/
@[simp] theorem State.putCtx_keeps (c : Nat) (r : CtxRec) :
    (s.putCtx c r).pending = s.pending ∧ (s.putCtx c r).cfg = s.cfg ∧ (s.putCtx c r).cycle = s.cycle ∧ (s.putCtx c r).regs =
    s.regs ∧ (s.putCtx c r).fresh = s.fresh ∧ (s.putCtx c r).freeUses = s.freeUses ∧ (s.putCtx c r).mem = s.mem ∧ (s.putCtx c
    r).memChk = s.memChk ∧ (s.putCtx c r).desc = s.desc ∧ (s.putCtx c r).descChk = s.descChk ∧ (s.putCtx c r).gauge = s.gauge
    ∧ (s.putCtx c r).gaugeCtx = s.gaugeCtx ∧ (s.putCtx c r).gaugeChk = s.gaugeChk ∧ (s.putCtx c r).landed = s.landed ∧
    (s.putCtx c r).stack = s.stack ∧ (s.putCtx c r).pages = s.pages ∧ (s.putCtx c r).combining = s.combining ∧ (s.putCtx c
    r).macs = s.macs ∧ (s.putCtx c r).badBlocks = s.badBlocks ∧ (s.putCtx c r).siphons = s.siphons ∧ (s.putCtx c r).flights =
    s.flights ∧ (s.putCtx c r).nextFlight = s.nextFlight ∧ (s.putCtx c r).staging = s.staging ∧ (s.putCtx c r).keyGens =
    s.keyGens ∧ (s.putCtx c r).sphKeys = s.sphKeys ∧ (s.putCtx c r).reshadows = s.reshadows ∧ (s.putCtx c r).oldSends =
    s.oldSends ∧ (s.putCtx c r).locks = s.locks ∧ (s.putCtx c r).waits = s.waits ∧ (s.putCtx c r).dueIncs = s.dueIncs ∧
    (s.putCtx c r).sram = s.sram ∧ (s.putCtx c r).lists = s.lists ∧ (s.putCtx c r).slotStats = s.slotStats ∧ (s.putCtx c
    r).nextSpawn = s.nextSpawn ∧ (s.putCtx c r).rings = s.rings ∧ (s.putCtx c r).riders = s.riders ∧ (s.putCtx c r).rode =
    s.rode ∧ (s.putCtx c r).handed = s.handed ∧ (s.putCtx c r).active = s.active ∧ (s.putCtx c r).auditMs = s.auditMs ∧
    (s.putCtx c r).auditNext = s.auditNext ∧ (s.putCtx c r).auditFrom = s.auditFrom ∧ (s.putCtx c r).auditSnap = s.auditSnap ∧
    (s.putCtx c r).arbs = s.arbs ∧ (s.putCtx c r).beats = s.beats ∧ (s.putCtx c r).parks = s.parks ∧ (s.putCtx c r).turnWait =
    s.turnWait ∧ (s.putCtx c r).decided = s.decided ∧ (s.putCtx c r).frozenAt = s.frozenAt ∧ (s.putCtx c r).fillRes =
    s.fillRes ∧ (s.putCtx c r).scrubs = s.scrubs ∧ (s.putCtx c r).regulators = s.regulators ∧ (s.putCtx c r).scrubbers =
    s.scrubbers ∧ (s.putCtx c r).spareCopies = s.spareCopies ∧ (s.putCtx c r).remapped = s.remapped ∧ (s.putCtx c r).substs =
    s.substs ∧ (s.putCtx c r).bit7Due = s.bit7Due ∧ (s.putCtx c r).retiring = s.retiring ∧ (s.putCtx c r).restores =
    s.restores ∧ (s.putCtx c r).placements = s.placements ∧ (s.putCtx c r).events = s.events ∧ (s.putCtx c r).lostEvents =
    s.lostEvents ∧ (s.putCtx c r).testsDone = s.testsDone ∧ (s.putCtx c r).detach = s.detach ∧ (s.putCtx c r).culverts =
    s.culverts ∧ (s.putCtx c r).nextXtag = s.nextXtag ∧ (s.putCtx c r).siteId = s.siteId ∧ (s.putCtx c r).attached =
    s.attached ∧ (s.putCtx c r).cistern = s.cistern ∧ (s.putCtx c r).running = s.running ∧ (s.putCtx c r).power = s.power ∧
    (s.putCtx c r).start = s.start ∧ (s.putCtx c r).hg = s.hg ∧ (s.putCtx c r).mgt = s.mgt ∧ (s.putCtx c r).spdm = s.spdm ∧
    (s.putCtx c r).tap = s.tap ∧ (s.putCtx c r).handover = s.handover ∧ (s.putCtx c r).core = s.core ∧ (s.putCtx c
    r).controlDown = s.controlDown ∧ (s.putCtx c r).downSince = s.downSince ∧ (s.putCtx c r).downOk = s.downOk ∧ (s.putCtx c
    r).loadOut = s.loadOut := by
  repeat' constructor

/-- `putRing` changes rings alone. -/
@[simp] theorem State.putRing_keeps (r : Nat) (v : RingRun) :
    (s.putRing r v).pending = s.pending ∧ (s.putRing r v).cfg = s.cfg ∧ (s.putRing r v).cycle = s.cycle ∧ (s.putRing r v).regs
    = s.regs ∧ (s.putRing r v).fresh = s.fresh ∧ (s.putRing r v).freeUses = s.freeUses ∧ (s.putRing r v).mem = s.mem ∧
    (s.putRing r v).memChk = s.memChk ∧ (s.putRing r v).desc = s.desc ∧ (s.putRing r v).descChk = s.descChk ∧ (s.putRing r
    v).gauge = s.gauge ∧ (s.putRing r v).gaugeCtx = s.gaugeCtx ∧ (s.putRing r v).gaugeChk = s.gaugeChk ∧ (s.putRing r
    v).landed = s.landed ∧ (s.putRing r v).stack = s.stack ∧ (s.putRing r v).pages = s.pages ∧ (s.putRing r v).combining =
    s.combining ∧ (s.putRing r v).macs = s.macs ∧ (s.putRing r v).badBlocks = s.badBlocks ∧ (s.putRing r v).siphons =
    s.siphons ∧ (s.putRing r v).flights = s.flights ∧ (s.putRing r v).nextFlight = s.nextFlight ∧ (s.putRing r v).staging =
    s.staging ∧ (s.putRing r v).keyGens = s.keyGens ∧ (s.putRing r v).sphKeys = s.sphKeys ∧ (s.putRing r v).reshadows =
    s.reshadows ∧ (s.putRing r v).oldSends = s.oldSends ∧ (s.putRing r v).locks = s.locks ∧ (s.putRing r v).waits = s.waits ∧
    (s.putRing r v).dueIncs = s.dueIncs ∧ (s.putRing r v).sram = s.sram ∧ (s.putRing r v).lists = s.lists ∧ (s.putRing r
    v).slotStats = s.slotStats ∧ (s.putRing r v).nextSpawn = s.nextSpawn ∧ (s.putRing r v).riders = s.riders ∧ (s.putRing r
    v).rode = s.rode ∧ (s.putRing r v).handed = s.handed ∧ (s.putRing r v).active = s.active ∧ (s.putRing r v).ctxs = s.ctxs ∧
    (s.putRing r v).auditMs = s.auditMs ∧ (s.putRing r v).auditNext = s.auditNext ∧ (s.putRing r v).auditFrom = s.auditFrom ∧
    (s.putRing r v).auditSnap = s.auditSnap ∧ (s.putRing r v).arbs = s.arbs ∧ (s.putRing r v).beats = s.beats ∧ (s.putRing r
    v).parks = s.parks ∧ (s.putRing r v).turnWait = s.turnWait ∧ (s.putRing r v).decided = s.decided ∧ (s.putRing r
    v).frozenAt = s.frozenAt ∧ (s.putRing r v).fillRes = s.fillRes ∧ (s.putRing r v).scrubs = s.scrubs ∧ (s.putRing r
    v).regulators = s.regulators ∧ (s.putRing r v).scrubbers = s.scrubbers ∧ (s.putRing r v).spareCopies = s.spareCopies ∧
    (s.putRing r v).remapped = s.remapped ∧ (s.putRing r v).substs = s.substs ∧ (s.putRing r v).bit7Due = s.bit7Due ∧
    (s.putRing r v).retiring = s.retiring ∧ (s.putRing r v).restores = s.restores ∧ (s.putRing r v).placements = s.placements
    ∧ (s.putRing r v).events = s.events ∧ (s.putRing r v).lostEvents = s.lostEvents ∧ (s.putRing r v).testsDone = s.testsDone
    ∧ (s.putRing r v).detach = s.detach ∧ (s.putRing r v).culverts = s.culverts ∧ (s.putRing r v).nextXtag = s.nextXtag ∧
    (s.putRing r v).siteId = s.siteId ∧ (s.putRing r v).attached = s.attached ∧ (s.putRing r v).cistern = s.cistern ∧
    (s.putRing r v).running = s.running ∧ (s.putRing r v).power = s.power ∧ (s.putRing r v).start = s.start ∧ (s.putRing r
    v).hg = s.hg ∧ (s.putRing r v).mgt = s.mgt ∧ (s.putRing r v).spdm = s.spdm ∧ (s.putRing r v).tap = s.tap ∧ (s.putRing r
    v).handover = s.handover ∧ (s.putRing r v).core = s.core ∧ (s.putRing r v).controlDown = s.controlDown ∧ (s.putRing r
    v).downSince = s.downSince ∧ (s.putRing r v).downOk = s.downOk ∧ (s.putRing r v).loadOut = s.loadOut := by
  repeat' constructor

/-- `putSiphon` changes siphons alone. -/
@[simp] theorem State.putSiphon_keeps (i : Nat) (v : Siphon) :
    (s.putSiphon i v).pending = s.pending ∧ (s.putSiphon i v).cfg = s.cfg ∧ (s.putSiphon i v).cycle = s.cycle ∧ (s.putSiphon i
    v).regs = s.regs ∧ (s.putSiphon i v).fresh = s.fresh ∧ (s.putSiphon i v).freeUses = s.freeUses ∧ (s.putSiphon i v).mem =
    s.mem ∧ (s.putSiphon i v).memChk = s.memChk ∧ (s.putSiphon i v).desc = s.desc ∧ (s.putSiphon i v).descChk = s.descChk ∧
    (s.putSiphon i v).gauge = s.gauge ∧ (s.putSiphon i v).gaugeCtx = s.gaugeCtx ∧ (s.putSiphon i v).gaugeChk = s.gaugeChk ∧
    (s.putSiphon i v).landed = s.landed ∧ (s.putSiphon i v).stack = s.stack ∧ (s.putSiphon i v).pages = s.pages ∧ (s.putSiphon
    i v).combining = s.combining ∧ (s.putSiphon i v).macs = s.macs ∧ (s.putSiphon i v).badBlocks = s.badBlocks ∧ (s.putSiphon
    i v).flights = s.flights ∧ (s.putSiphon i v).nextFlight = s.nextFlight ∧ (s.putSiphon i v).staging = s.staging ∧
    (s.putSiphon i v).keyGens = s.keyGens ∧ (s.putSiphon i v).sphKeys = s.sphKeys ∧ (s.putSiphon i v).reshadows = s.reshadows
    ∧ (s.putSiphon i v).oldSends = s.oldSends ∧ (s.putSiphon i v).locks = s.locks ∧ (s.putSiphon i v).waits = s.waits ∧
    (s.putSiphon i v).dueIncs = s.dueIncs ∧ (s.putSiphon i v).sram = s.sram ∧ (s.putSiphon i v).lists = s.lists ∧ (s.putSiphon
    i v).slotStats = s.slotStats ∧ (s.putSiphon i v).nextSpawn = s.nextSpawn ∧ (s.putSiphon i v).rings = s.rings ∧
    (s.putSiphon i v).riders = s.riders ∧ (s.putSiphon i v).rode = s.rode ∧ (s.putSiphon i v).handed = s.handed ∧ (s.putSiphon
    i v).active = s.active ∧ (s.putSiphon i v).ctxs = s.ctxs ∧ (s.putSiphon i v).auditMs = s.auditMs ∧ (s.putSiphon i
    v).auditNext = s.auditNext ∧ (s.putSiphon i v).auditFrom = s.auditFrom ∧ (s.putSiphon i v).auditSnap = s.auditSnap ∧
    (s.putSiphon i v).arbs = s.arbs ∧ (s.putSiphon i v).beats = s.beats ∧ (s.putSiphon i v).parks = s.parks ∧ (s.putSiphon i
    v).turnWait = s.turnWait ∧ (s.putSiphon i v).decided = s.decided ∧ (s.putSiphon i v).frozenAt = s.frozenAt ∧ (s.putSiphon
    i v).fillRes = s.fillRes ∧ (s.putSiphon i v).scrubs = s.scrubs ∧ (s.putSiphon i v).regulators = s.regulators ∧
    (s.putSiphon i v).scrubbers = s.scrubbers ∧ (s.putSiphon i v).spareCopies = s.spareCopies ∧ (s.putSiphon i v).remapped =
    s.remapped ∧ (s.putSiphon i v).substs = s.substs ∧ (s.putSiphon i v).bit7Due = s.bit7Due ∧ (s.putSiphon i v).retiring =
    s.retiring ∧ (s.putSiphon i v).restores = s.restores ∧ (s.putSiphon i v).placements = s.placements ∧ (s.putSiphon i
    v).events = s.events ∧ (s.putSiphon i v).lostEvents = s.lostEvents ∧ (s.putSiphon i v).testsDone = s.testsDone ∧
    (s.putSiphon i v).detach = s.detach ∧ (s.putSiphon i v).culverts = s.culverts ∧ (s.putSiphon i v).nextXtag = s.nextXtag ∧
    (s.putSiphon i v).siteId = s.siteId ∧ (s.putSiphon i v).attached = s.attached ∧ (s.putSiphon i v).cistern = s.cistern ∧
    (s.putSiphon i v).running = s.running ∧ (s.putSiphon i v).power = s.power ∧ (s.putSiphon i v).start = s.start ∧
    (s.putSiphon i v).hg = s.hg ∧ (s.putSiphon i v).mgt = s.mgt ∧ (s.putSiphon i v).spdm = s.spdm ∧ (s.putSiphon i v).tap =
    s.tap ∧ (s.putSiphon i v).handover = s.handover ∧ (s.putSiphon i v).core = s.core ∧ (s.putSiphon i v).controlDown =
    s.controlDown ∧ (s.putSiphon i v).downSince = s.downSince ∧ (s.putSiphon i v).downOk = s.downOk ∧ (s.putSiphon i
    v).loadOut = s.loadOut := by
  repeat' constructor

/-- `putCulvert` changes culverts alone. -/
@[simp] theorem State.putCulvert_keeps (c : Nat) (v : Culvert) :
    (s.putCulvert c v).pending = s.pending ∧ (s.putCulvert c v).cfg = s.cfg ∧ (s.putCulvert c v).cycle = s.cycle ∧
    (s.putCulvert c v).regs = s.regs ∧ (s.putCulvert c v).fresh = s.fresh ∧ (s.putCulvert c v).freeUses = s.freeUses ∧
    (s.putCulvert c v).mem = s.mem ∧ (s.putCulvert c v).memChk = s.memChk ∧ (s.putCulvert c v).desc = s.desc ∧ (s.putCulvert c
    v).descChk = s.descChk ∧ (s.putCulvert c v).gauge = s.gauge ∧ (s.putCulvert c v).gaugeCtx = s.gaugeCtx ∧ (s.putCulvert c
    v).gaugeChk = s.gaugeChk ∧ (s.putCulvert c v).landed = s.landed ∧ (s.putCulvert c v).stack = s.stack ∧ (s.putCulvert c
    v).pages = s.pages ∧ (s.putCulvert c v).combining = s.combining ∧ (s.putCulvert c v).macs = s.macs ∧ (s.putCulvert c
    v).badBlocks = s.badBlocks ∧ (s.putCulvert c v).siphons = s.siphons ∧ (s.putCulvert c v).flights = s.flights ∧
    (s.putCulvert c v).nextFlight = s.nextFlight ∧ (s.putCulvert c v).staging = s.staging ∧ (s.putCulvert c v).keyGens =
    s.keyGens ∧ (s.putCulvert c v).sphKeys = s.sphKeys ∧ (s.putCulvert c v).reshadows = s.reshadows ∧ (s.putCulvert c
    v).oldSends = s.oldSends ∧ (s.putCulvert c v).locks = s.locks ∧ (s.putCulvert c v).waits = s.waits ∧ (s.putCulvert c
    v).dueIncs = s.dueIncs ∧ (s.putCulvert c v).sram = s.sram ∧ (s.putCulvert c v).lists = s.lists ∧ (s.putCulvert c
    v).slotStats = s.slotStats ∧ (s.putCulvert c v).nextSpawn = s.nextSpawn ∧ (s.putCulvert c v).rings = s.rings ∧
    (s.putCulvert c v).riders = s.riders ∧ (s.putCulvert c v).rode = s.rode ∧ (s.putCulvert c v).handed = s.handed ∧
    (s.putCulvert c v).active = s.active ∧ (s.putCulvert c v).ctxs = s.ctxs ∧ (s.putCulvert c v).auditMs = s.auditMs ∧
    (s.putCulvert c v).auditNext = s.auditNext ∧ (s.putCulvert c v).auditFrom = s.auditFrom ∧ (s.putCulvert c v).auditSnap =
    s.auditSnap ∧ (s.putCulvert c v).arbs = s.arbs ∧ (s.putCulvert c v).beats = s.beats ∧ (s.putCulvert c v).parks = s.parks ∧
    (s.putCulvert c v).turnWait = s.turnWait ∧ (s.putCulvert c v).decided = s.decided ∧ (s.putCulvert c v).frozenAt =
    s.frozenAt ∧ (s.putCulvert c v).fillRes = s.fillRes ∧ (s.putCulvert c v).scrubs = s.scrubs ∧ (s.putCulvert c v).regulators
    = s.regulators ∧ (s.putCulvert c v).scrubbers = s.scrubbers ∧ (s.putCulvert c v).spareCopies = s.spareCopies ∧
    (s.putCulvert c v).remapped = s.remapped ∧ (s.putCulvert c v).substs = s.substs ∧ (s.putCulvert c v).bit7Due = s.bit7Due ∧
    (s.putCulvert c v).retiring = s.retiring ∧ (s.putCulvert c v).restores = s.restores ∧ (s.putCulvert c v).placements =
    s.placements ∧ (s.putCulvert c v).events = s.events ∧ (s.putCulvert c v).lostEvents = s.lostEvents ∧ (s.putCulvert c
    v).testsDone = s.testsDone ∧ (s.putCulvert c v).detach = s.detach ∧ (s.putCulvert c v).nextXtag = s.nextXtag ∧
    (s.putCulvert c v).siteId = s.siteId ∧ (s.putCulvert c v).attached = s.attached ∧ (s.putCulvert c v).cistern = s.cistern ∧
    (s.putCulvert c v).running = s.running ∧ (s.putCulvert c v).power = s.power ∧ (s.putCulvert c v).start = s.start ∧
    (s.putCulvert c v).hg = s.hg ∧ (s.putCulvert c v).mgt = s.mgt ∧ (s.putCulvert c v).spdm = s.spdm ∧ (s.putCulvert c v).tap
    = s.tap ∧ (s.putCulvert c v).handover = s.handover ∧ (s.putCulvert c v).core = s.core ∧ (s.putCulvert c v).controlDown =
    s.controlDown ∧ (s.putCulvert c v).downSince = s.downSince ∧ (s.putCulvert c v).downOk = s.downOk ∧ (s.putCulvert c
    v).loadOut = s.loadOut := by
  repeat' constructor

/-- `putList` changes lists alone. -/
@[simp] theorem State.putList_keeps (l : ListRun) :
    (s.putList l).pending = s.pending ∧ (s.putList l).cfg = s.cfg ∧ (s.putList l).cycle = s.cycle ∧ (s.putList l).regs =
    s.regs ∧ (s.putList l).fresh = s.fresh ∧ (s.putList l).freeUses = s.freeUses ∧ (s.putList l).mem = s.mem ∧ (s.putList
    l).memChk = s.memChk ∧ (s.putList l).desc = s.desc ∧ (s.putList l).descChk = s.descChk ∧ (s.putList l).gauge = s.gauge ∧
    (s.putList l).gaugeCtx = s.gaugeCtx ∧ (s.putList l).gaugeChk = s.gaugeChk ∧ (s.putList l).landed = s.landed ∧ (s.putList
    l).stack = s.stack ∧ (s.putList l).pages = s.pages ∧ (s.putList l).combining = s.combining ∧ (s.putList l).macs = s.macs ∧
    (s.putList l).badBlocks = s.badBlocks ∧ (s.putList l).siphons = s.siphons ∧ (s.putList l).flights = s.flights ∧ (s.putList
    l).nextFlight = s.nextFlight ∧ (s.putList l).staging = s.staging ∧ (s.putList l).keyGens = s.keyGens ∧ (s.putList
    l).sphKeys = s.sphKeys ∧ (s.putList l).reshadows = s.reshadows ∧ (s.putList l).oldSends = s.oldSends ∧ (s.putList l).locks
    = s.locks ∧ (s.putList l).waits = s.waits ∧ (s.putList l).dueIncs = s.dueIncs ∧ (s.putList l).sram = s.sram ∧ (s.putList
    l).slotStats = s.slotStats ∧ (s.putList l).nextSpawn = s.nextSpawn ∧ (s.putList l).rings = s.rings ∧ (s.putList l).riders
    = s.riders ∧ (s.putList l).rode = s.rode ∧ (s.putList l).handed = s.handed ∧ (s.putList l).active = s.active ∧ (s.putList
    l).ctxs = s.ctxs ∧ (s.putList l).auditMs = s.auditMs ∧ (s.putList l).auditNext = s.auditNext ∧ (s.putList l).auditFrom =
    s.auditFrom ∧ (s.putList l).auditSnap = s.auditSnap ∧ (s.putList l).arbs = s.arbs ∧ (s.putList l).beats = s.beats ∧
    (s.putList l).parks = s.parks ∧ (s.putList l).turnWait = s.turnWait ∧ (s.putList l).decided = s.decided ∧ (s.putList
    l).frozenAt = s.frozenAt ∧ (s.putList l).fillRes = s.fillRes ∧ (s.putList l).scrubs = s.scrubs ∧ (s.putList l).regulators
    = s.regulators ∧ (s.putList l).scrubbers = s.scrubbers ∧ (s.putList l).spareCopies = s.spareCopies ∧ (s.putList
    l).remapped = s.remapped ∧ (s.putList l).substs = s.substs ∧ (s.putList l).bit7Due = s.bit7Due ∧ (s.putList l).retiring =
    s.retiring ∧ (s.putList l).restores = s.restores ∧ (s.putList l).placements = s.placements ∧ (s.putList l).events =
    s.events ∧ (s.putList l).lostEvents = s.lostEvents ∧ (s.putList l).testsDone = s.testsDone ∧ (s.putList l).detach =
    s.detach ∧ (s.putList l).culverts = s.culverts ∧ (s.putList l).nextXtag = s.nextXtag ∧ (s.putList l).siteId = s.siteId ∧
    (s.putList l).attached = s.attached ∧ (s.putList l).cistern = s.cistern ∧ (s.putList l).running = s.running ∧ (s.putList
    l).power = s.power ∧ (s.putList l).start = s.start ∧ (s.putList l).hg = s.hg ∧ (s.putList l).mgt = s.mgt ∧ (s.putList
    l).spdm = s.spdm ∧ (s.putList l).tap = s.tap ∧ (s.putList l).handover = s.handover ∧ (s.putList l).core = s.core ∧
    (s.putList l).controlDown = s.controlDown ∧ (s.putList l).downSince = s.downSince ∧ (s.putList l).downOk = s.downOk ∧
    (s.putList l).loadOut = s.loadOut := by
  repeat' constructor

/-- `freeSlot` changes lists alone. -/
@[simp] theorem State.freeSlot_keeps (l : ListRun) :
    (s.freeSlot l).pending = s.pending ∧ (s.freeSlot l).cfg = s.cfg ∧ (s.freeSlot l).cycle = s.cycle ∧ (s.freeSlot l).regs =
    s.regs ∧ (s.freeSlot l).fresh = s.fresh ∧ (s.freeSlot l).freeUses = s.freeUses ∧ (s.freeSlot l).mem = s.mem ∧ (s.freeSlot
    l).memChk = s.memChk ∧ (s.freeSlot l).desc = s.desc ∧ (s.freeSlot l).descChk = s.descChk ∧ (s.freeSlot l).gauge = s.gauge
    ∧ (s.freeSlot l).gaugeCtx = s.gaugeCtx ∧ (s.freeSlot l).gaugeChk = s.gaugeChk ∧ (s.freeSlot l).landed = s.landed ∧
    (s.freeSlot l).stack = s.stack ∧ (s.freeSlot l).pages = s.pages ∧ (s.freeSlot l).combining = s.combining ∧ (s.freeSlot
    l).macs = s.macs ∧ (s.freeSlot l).badBlocks = s.badBlocks ∧ (s.freeSlot l).siphons = s.siphons ∧ (s.freeSlot l).flights =
    s.flights ∧ (s.freeSlot l).nextFlight = s.nextFlight ∧ (s.freeSlot l).staging = s.staging ∧ (s.freeSlot l).keyGens =
    s.keyGens ∧ (s.freeSlot l).sphKeys = s.sphKeys ∧ (s.freeSlot l).reshadows = s.reshadows ∧ (s.freeSlot l).oldSends =
    s.oldSends ∧ (s.freeSlot l).locks = s.locks ∧ (s.freeSlot l).waits = s.waits ∧ (s.freeSlot l).dueIncs = s.dueIncs ∧
    (s.freeSlot l).sram = s.sram ∧ (s.freeSlot l).slotStats = s.slotStats ∧ (s.freeSlot l).nextSpawn = s.nextSpawn ∧
    (s.freeSlot l).rings = s.rings ∧ (s.freeSlot l).riders = s.riders ∧ (s.freeSlot l).rode = s.rode ∧ (s.freeSlot l).handed =
    s.handed ∧ (s.freeSlot l).active = s.active ∧ (s.freeSlot l).ctxs = s.ctxs ∧ (s.freeSlot l).auditMs = s.auditMs ∧
    (s.freeSlot l).auditNext = s.auditNext ∧ (s.freeSlot l).auditFrom = s.auditFrom ∧ (s.freeSlot l).auditSnap = s.auditSnap ∧
    (s.freeSlot l).arbs = s.arbs ∧ (s.freeSlot l).beats = s.beats ∧ (s.freeSlot l).parks = s.parks ∧ (s.freeSlot l).turnWait =
    s.turnWait ∧ (s.freeSlot l).decided = s.decided ∧ (s.freeSlot l).frozenAt = s.frozenAt ∧ (s.freeSlot l).fillRes =
    s.fillRes ∧ (s.freeSlot l).scrubs = s.scrubs ∧ (s.freeSlot l).regulators = s.regulators ∧ (s.freeSlot l).scrubbers =
    s.scrubbers ∧ (s.freeSlot l).spareCopies = s.spareCopies ∧ (s.freeSlot l).remapped = s.remapped ∧ (s.freeSlot l).substs =
    s.substs ∧ (s.freeSlot l).bit7Due = s.bit7Due ∧ (s.freeSlot l).retiring = s.retiring ∧ (s.freeSlot l).restores =
    s.restores ∧ (s.freeSlot l).placements = s.placements ∧ (s.freeSlot l).events = s.events ∧ (s.freeSlot l).lostEvents =
    s.lostEvents ∧ (s.freeSlot l).testsDone = s.testsDone ∧ (s.freeSlot l).detach = s.detach ∧ (s.freeSlot l).culverts =
    s.culverts ∧ (s.freeSlot l).nextXtag = s.nextXtag ∧ (s.freeSlot l).siteId = s.siteId ∧ (s.freeSlot l).attached =
    s.attached ∧ (s.freeSlot l).cistern = s.cistern ∧ (s.freeSlot l).running = s.running ∧ (s.freeSlot l).power = s.power ∧
    (s.freeSlot l).start = s.start ∧ (s.freeSlot l).hg = s.hg ∧ (s.freeSlot l).mgt = s.mgt ∧ (s.freeSlot l).spdm = s.spdm ∧
    (s.freeSlot l).tap = s.tap ∧ (s.freeSlot l).handover = s.handover ∧ (s.freeSlot l).core = s.core ∧ (s.freeSlot
    l).controlDown = s.controlDown ∧ (s.freeSlot l).downSince = s.downSince ∧ (s.freeSlot l).downOk = s.downOk ∧ (s.freeSlot
    l).loadOut = s.loadOut := by
  repeat' constructor

/-- `queueReply` changes rings alone. -/
@[simp] theorem State.queueReply_keeps (r : Nat) (rp : Reply) :
    (s.queueReply r rp).pending = s.pending ∧ (s.queueReply r rp).cfg = s.cfg ∧ (s.queueReply r rp).cycle = s.cycle ∧
    (s.queueReply r rp).regs = s.regs ∧ (s.queueReply r rp).fresh = s.fresh ∧ (s.queueReply r rp).freeUses = s.freeUses ∧
    (s.queueReply r rp).mem = s.mem ∧ (s.queueReply r rp).memChk = s.memChk ∧ (s.queueReply r rp).desc = s.desc ∧
    (s.queueReply r rp).descChk = s.descChk ∧ (s.queueReply r rp).gauge = s.gauge ∧ (s.queueReply r rp).gaugeCtx = s.gaugeCtx
    ∧ (s.queueReply r rp).gaugeChk = s.gaugeChk ∧ (s.queueReply r rp).landed = s.landed ∧ (s.queueReply r rp).stack = s.stack
    ∧ (s.queueReply r rp).pages = s.pages ∧ (s.queueReply r rp).combining = s.combining ∧ (s.queueReply r rp).macs = s.macs ∧
    (s.queueReply r rp).badBlocks = s.badBlocks ∧ (s.queueReply r rp).siphons = s.siphons ∧ (s.queueReply r rp).flights =
    s.flights ∧ (s.queueReply r rp).nextFlight = s.nextFlight ∧ (s.queueReply r rp).staging = s.staging ∧ (s.queueReply r
    rp).keyGens = s.keyGens ∧ (s.queueReply r rp).sphKeys = s.sphKeys ∧ (s.queueReply r rp).reshadows = s.reshadows ∧
    (s.queueReply r rp).oldSends = s.oldSends ∧ (s.queueReply r rp).locks = s.locks ∧ (s.queueReply r rp).waits = s.waits ∧
    (s.queueReply r rp).dueIncs = s.dueIncs ∧ (s.queueReply r rp).sram = s.sram ∧ (s.queueReply r rp).lists = s.lists ∧
    (s.queueReply r rp).slotStats = s.slotStats ∧ (s.queueReply r rp).nextSpawn = s.nextSpawn ∧ (s.queueReply r rp).riders =
    s.riders ∧ (s.queueReply r rp).rode = s.rode ∧ (s.queueReply r rp).handed = s.handed ∧ (s.queueReply r rp).active =
    s.active ∧ (s.queueReply r rp).ctxs = s.ctxs ∧ (s.queueReply r rp).auditMs = s.auditMs ∧ (s.queueReply r rp).auditNext =
    s.auditNext ∧ (s.queueReply r rp).auditFrom = s.auditFrom ∧ (s.queueReply r rp).auditSnap = s.auditSnap ∧ (s.queueReply r
    rp).arbs = s.arbs ∧ (s.queueReply r rp).beats = s.beats ∧ (s.queueReply r rp).parks = s.parks ∧ (s.queueReply r
    rp).turnWait = s.turnWait ∧ (s.queueReply r rp).decided = s.decided ∧ (s.queueReply r rp).frozenAt = s.frozenAt ∧
    (s.queueReply r rp).fillRes = s.fillRes ∧ (s.queueReply r rp).scrubs = s.scrubs ∧ (s.queueReply r rp).regulators =
    s.regulators ∧ (s.queueReply r rp).scrubbers = s.scrubbers ∧ (s.queueReply r rp).spareCopies = s.spareCopies ∧
    (s.queueReply r rp).remapped = s.remapped ∧ (s.queueReply r rp).substs = s.substs ∧ (s.queueReply r rp).bit7Due =
    s.bit7Due ∧ (s.queueReply r rp).retiring = s.retiring ∧ (s.queueReply r rp).restores = s.restores ∧ (s.queueReply r
    rp).placements = s.placements ∧ (s.queueReply r rp).events = s.events ∧ (s.queueReply r rp).lostEvents = s.lostEvents ∧
    (s.queueReply r rp).testsDone = s.testsDone ∧ (s.queueReply r rp).detach = s.detach ∧ (s.queueReply r rp).culverts =
    s.culverts ∧ (s.queueReply r rp).nextXtag = s.nextXtag ∧ (s.queueReply r rp).siteId = s.siteId ∧ (s.queueReply r
    rp).attached = s.attached ∧ (s.queueReply r rp).cistern = s.cistern ∧ (s.queueReply r rp).running = s.running ∧
    (s.queueReply r rp).power = s.power ∧ (s.queueReply r rp).start = s.start ∧ (s.queueReply r rp).hg = s.hg ∧ (s.queueReply
    r rp).mgt = s.mgt ∧ (s.queueReply r rp).spdm = s.spdm ∧ (s.queueReply r rp).tap = s.tap ∧ (s.queueReply r rp).handover =
    s.handover ∧ (s.queueReply r rp).core = s.core ∧ (s.queueReply r rp).controlDown = s.controlDown ∧ (s.queueReply r
    rp).downSince = s.downSince ∧ (s.queueReply r rp).downOk = s.downOk ∧ (s.queueReply r rp).loadOut = s.loadOut := by
  repeat' constructor

/-- `queueUnreserved` changes rings alone. -/
@[simp] theorem State.queueUnreserved_keeps (r : Nat) (rp : Reply) :
    (s.queueUnreserved r rp).pending = s.pending ∧ (s.queueUnreserved r rp).cfg = s.cfg ∧ (s.queueUnreserved r rp).cycle =
    s.cycle ∧ (s.queueUnreserved r rp).regs = s.regs ∧ (s.queueUnreserved r rp).fresh = s.fresh ∧ (s.queueUnreserved r
    rp).freeUses = s.freeUses ∧ (s.queueUnreserved r rp).mem = s.mem ∧ (s.queueUnreserved r rp).memChk = s.memChk ∧
    (s.queueUnreserved r rp).desc = s.desc ∧ (s.queueUnreserved r rp).descChk = s.descChk ∧ (s.queueUnreserved r rp).gauge =
    s.gauge ∧ (s.queueUnreserved r rp).gaugeCtx = s.gaugeCtx ∧ (s.queueUnreserved r rp).gaugeChk = s.gaugeChk ∧
    (s.queueUnreserved r rp).landed = s.landed ∧ (s.queueUnreserved r rp).stack = s.stack ∧ (s.queueUnreserved r rp).pages =
    s.pages ∧ (s.queueUnreserved r rp).combining = s.combining ∧ (s.queueUnreserved r rp).macs = s.macs ∧ (s.queueUnreserved r
    rp).badBlocks = s.badBlocks ∧ (s.queueUnreserved r rp).siphons = s.siphons ∧ (s.queueUnreserved r rp).flights = s.flights
    ∧ (s.queueUnreserved r rp).nextFlight = s.nextFlight ∧ (s.queueUnreserved r rp).staging = s.staging ∧ (s.queueUnreserved r
    rp).keyGens = s.keyGens ∧ (s.queueUnreserved r rp).sphKeys = s.sphKeys ∧ (s.queueUnreserved r rp).reshadows = s.reshadows
    ∧ (s.queueUnreserved r rp).oldSends = s.oldSends ∧ (s.queueUnreserved r rp).locks = s.locks ∧ (s.queueUnreserved r
    rp).waits = s.waits ∧ (s.queueUnreserved r rp).dueIncs = s.dueIncs ∧ (s.queueUnreserved r rp).sram = s.sram ∧
    (s.queueUnreserved r rp).lists = s.lists ∧ (s.queueUnreserved r rp).slotStats = s.slotStats ∧ (s.queueUnreserved r
    rp).nextSpawn = s.nextSpawn ∧ (s.queueUnreserved r rp).riders = s.riders ∧ (s.queueUnreserved r rp).rode = s.rode ∧
    (s.queueUnreserved r rp).handed = s.handed ∧ (s.queueUnreserved r rp).active = s.active ∧ (s.queueUnreserved r rp).ctxs =
    s.ctxs ∧ (s.queueUnreserved r rp).auditMs = s.auditMs ∧ (s.queueUnreserved r rp).auditNext = s.auditNext ∧
    (s.queueUnreserved r rp).auditFrom = s.auditFrom ∧ (s.queueUnreserved r rp).auditSnap = s.auditSnap ∧ (s.queueUnreserved r
    rp).arbs = s.arbs ∧ (s.queueUnreserved r rp).beats = s.beats ∧ (s.queueUnreserved r rp).parks = s.parks ∧
    (s.queueUnreserved r rp).turnWait = s.turnWait ∧ (s.queueUnreserved r rp).decided = s.decided ∧ (s.queueUnreserved r
    rp).frozenAt = s.frozenAt ∧ (s.queueUnreserved r rp).fillRes = s.fillRes ∧ (s.queueUnreserved r rp).scrubs = s.scrubs ∧
    (s.queueUnreserved r rp).regulators = s.regulators ∧ (s.queueUnreserved r rp).scrubbers = s.scrubbers ∧ (s.queueUnreserved
    r rp).spareCopies = s.spareCopies ∧ (s.queueUnreserved r rp).remapped = s.remapped ∧ (s.queueUnreserved r rp).substs =
    s.substs ∧ (s.queueUnreserved r rp).bit7Due = s.bit7Due ∧ (s.queueUnreserved r rp).retiring = s.retiring ∧
    (s.queueUnreserved r rp).restores = s.restores ∧ (s.queueUnreserved r rp).placements = s.placements ∧ (s.queueUnreserved r
    rp).events = s.events ∧ (s.queueUnreserved r rp).lostEvents = s.lostEvents ∧ (s.queueUnreserved r rp).testsDone =
    s.testsDone ∧ (s.queueUnreserved r rp).detach = s.detach ∧ (s.queueUnreserved r rp).culverts = s.culverts ∧
    (s.queueUnreserved r rp).nextXtag = s.nextXtag ∧ (s.queueUnreserved r rp).siteId = s.siteId ∧ (s.queueUnreserved r
    rp).attached = s.attached ∧ (s.queueUnreserved r rp).cistern = s.cistern ∧ (s.queueUnreserved r rp).running = s.running ∧
    (s.queueUnreserved r rp).power = s.power ∧ (s.queueUnreserved r rp).start = s.start ∧ (s.queueUnreserved r rp).hg = s.hg ∧
    (s.queueUnreserved r rp).mgt = s.mgt ∧ (s.queueUnreserved r rp).spdm = s.spdm ∧ (s.queueUnreserved r rp).tap = s.tap ∧
    (s.queueUnreserved r rp).handover = s.handover ∧ (s.queueUnreserved r rp).core = s.core ∧ (s.queueUnreserved r
    rp).controlDown = s.controlDown ∧ (s.queueUnreserved r rp).downSince = s.downSince ∧ (s.queueUnreserved r rp).downOk =
    s.downOk ∧ (s.queueUnreserved r rp).loadOut = s.loadOut := by
  repeat' constructor

/-- `putFlight` changes flights alone. -/
@[simp] theorem State.putFlight_keeps (f : Flight) :
    (s.putFlight f).pending = s.pending ∧ (s.putFlight f).cfg = s.cfg ∧ (s.putFlight f).cycle = s.cycle ∧ (s.putFlight f).regs
    = s.regs ∧ (s.putFlight f).fresh = s.fresh ∧ (s.putFlight f).freeUses = s.freeUses ∧ (s.putFlight f).mem = s.mem ∧
    (s.putFlight f).memChk = s.memChk ∧ (s.putFlight f).desc = s.desc ∧ (s.putFlight f).descChk = s.descChk ∧ (s.putFlight
    f).gauge = s.gauge ∧ (s.putFlight f).gaugeCtx = s.gaugeCtx ∧ (s.putFlight f).gaugeChk = s.gaugeChk ∧ (s.putFlight
    f).landed = s.landed ∧ (s.putFlight f).stack = s.stack ∧ (s.putFlight f).pages = s.pages ∧ (s.putFlight f).combining =
    s.combining ∧ (s.putFlight f).macs = s.macs ∧ (s.putFlight f).badBlocks = s.badBlocks ∧ (s.putFlight f).siphons =
    s.siphons ∧ (s.putFlight f).nextFlight = s.nextFlight ∧ (s.putFlight f).staging = s.staging ∧ (s.putFlight f).keyGens =
    s.keyGens ∧ (s.putFlight f).sphKeys = s.sphKeys ∧ (s.putFlight f).reshadows = s.reshadows ∧ (s.putFlight f).oldSends =
    s.oldSends ∧ (s.putFlight f).locks = s.locks ∧ (s.putFlight f).waits = s.waits ∧ (s.putFlight f).dueIncs = s.dueIncs ∧
    (s.putFlight f).sram = s.sram ∧ (s.putFlight f).lists = s.lists ∧ (s.putFlight f).slotStats = s.slotStats ∧ (s.putFlight
    f).nextSpawn = s.nextSpawn ∧ (s.putFlight f).rings = s.rings ∧ (s.putFlight f).riders = s.riders ∧ (s.putFlight f).rode =
    s.rode ∧ (s.putFlight f).handed = s.handed ∧ (s.putFlight f).active = s.active ∧ (s.putFlight f).ctxs = s.ctxs ∧
    (s.putFlight f).auditMs = s.auditMs ∧ (s.putFlight f).auditNext = s.auditNext ∧ (s.putFlight f).auditFrom = s.auditFrom ∧
    (s.putFlight f).auditSnap = s.auditSnap ∧ (s.putFlight f).arbs = s.arbs ∧ (s.putFlight f).beats = s.beats ∧ (s.putFlight
    f).parks = s.parks ∧ (s.putFlight f).turnWait = s.turnWait ∧ (s.putFlight f).decided = s.decided ∧ (s.putFlight
    f).frozenAt = s.frozenAt ∧ (s.putFlight f).fillRes = s.fillRes ∧ (s.putFlight f).scrubs = s.scrubs ∧ (s.putFlight
    f).regulators = s.regulators ∧ (s.putFlight f).scrubbers = s.scrubbers ∧ (s.putFlight f).spareCopies = s.spareCopies ∧
    (s.putFlight f).remapped = s.remapped ∧ (s.putFlight f).substs = s.substs ∧ (s.putFlight f).bit7Due = s.bit7Due ∧
    (s.putFlight f).retiring = s.retiring ∧ (s.putFlight f).restores = s.restores ∧ (s.putFlight f).placements = s.placements
    ∧ (s.putFlight f).events = s.events ∧ (s.putFlight f).lostEvents = s.lostEvents ∧ (s.putFlight f).testsDone = s.testsDone
    ∧ (s.putFlight f).detach = s.detach ∧ (s.putFlight f).culverts = s.culverts ∧ (s.putFlight f).nextXtag = s.nextXtag ∧
    (s.putFlight f).siteId = s.siteId ∧ (s.putFlight f).attached = s.attached ∧ (s.putFlight f).cistern = s.cistern ∧
    (s.putFlight f).running = s.running ∧ (s.putFlight f).power = s.power ∧ (s.putFlight f).start = s.start ∧ (s.putFlight
    f).hg = s.hg ∧ (s.putFlight f).mgt = s.mgt ∧ (s.putFlight f).spdm = s.spdm ∧ (s.putFlight f).tap = s.tap ∧ (s.putFlight
    f).handover = s.handover ∧ (s.putFlight f).core = s.core ∧ (s.putFlight f).controlDown = s.controlDown ∧ (s.putFlight
    f).downSince = s.downSince ∧ (s.putFlight f).downOk = s.downOk ∧ (s.putFlight f).loadOut = s.loadOut := by
  repeat' constructor

/-- `dropFlight` changes flights alone. -/
@[simp] theorem State.dropFlight_keeps (f : Flight) :
    (s.dropFlight f).pending = s.pending ∧ (s.dropFlight f).cfg = s.cfg ∧ (s.dropFlight f).cycle = s.cycle ∧ (s.dropFlight
    f).regs = s.regs ∧ (s.dropFlight f).fresh = s.fresh ∧ (s.dropFlight f).freeUses = s.freeUses ∧ (s.dropFlight f).mem =
    s.mem ∧ (s.dropFlight f).memChk = s.memChk ∧ (s.dropFlight f).desc = s.desc ∧ (s.dropFlight f).descChk = s.descChk ∧
    (s.dropFlight f).gauge = s.gauge ∧ (s.dropFlight f).gaugeCtx = s.gaugeCtx ∧ (s.dropFlight f).gaugeChk = s.gaugeChk ∧
    (s.dropFlight f).landed = s.landed ∧ (s.dropFlight f).stack = s.stack ∧ (s.dropFlight f).pages = s.pages ∧ (s.dropFlight
    f).combining = s.combining ∧ (s.dropFlight f).macs = s.macs ∧ (s.dropFlight f).badBlocks = s.badBlocks ∧ (s.dropFlight
    f).siphons = s.siphons ∧ (s.dropFlight f).nextFlight = s.nextFlight ∧ (s.dropFlight f).staging = s.staging ∧ (s.dropFlight
    f).keyGens = s.keyGens ∧ (s.dropFlight f).sphKeys = s.sphKeys ∧ (s.dropFlight f).reshadows = s.reshadows ∧ (s.dropFlight
    f).oldSends = s.oldSends ∧ (s.dropFlight f).locks = s.locks ∧ (s.dropFlight f).waits = s.waits ∧ (s.dropFlight f).dueIncs
    = s.dueIncs ∧ (s.dropFlight f).sram = s.sram ∧ (s.dropFlight f).lists = s.lists ∧ (s.dropFlight f).slotStats = s.slotStats
    ∧ (s.dropFlight f).nextSpawn = s.nextSpawn ∧ (s.dropFlight f).rings = s.rings ∧ (s.dropFlight f).riders = s.riders ∧
    (s.dropFlight f).rode = s.rode ∧ (s.dropFlight f).handed = s.handed ∧ (s.dropFlight f).active = s.active ∧ (s.dropFlight
    f).ctxs = s.ctxs ∧ (s.dropFlight f).auditMs = s.auditMs ∧ (s.dropFlight f).auditNext = s.auditNext ∧ (s.dropFlight
    f).auditFrom = s.auditFrom ∧ (s.dropFlight f).auditSnap = s.auditSnap ∧ (s.dropFlight f).arbs = s.arbs ∧ (s.dropFlight
    f).beats = s.beats ∧ (s.dropFlight f).parks = s.parks ∧ (s.dropFlight f).turnWait = s.turnWait ∧ (s.dropFlight f).decided
    = s.decided ∧ (s.dropFlight f).frozenAt = s.frozenAt ∧ (s.dropFlight f).fillRes = s.fillRes ∧ (s.dropFlight f).scrubs =
    s.scrubs ∧ (s.dropFlight f).regulators = s.regulators ∧ (s.dropFlight f).scrubbers = s.scrubbers ∧ (s.dropFlight
    f).spareCopies = s.spareCopies ∧ (s.dropFlight f).remapped = s.remapped ∧ (s.dropFlight f).substs = s.substs ∧
    (s.dropFlight f).bit7Due = s.bit7Due ∧ (s.dropFlight f).retiring = s.retiring ∧ (s.dropFlight f).restores = s.restores ∧
    (s.dropFlight f).placements = s.placements ∧ (s.dropFlight f).events = s.events ∧ (s.dropFlight f).lostEvents =
    s.lostEvents ∧ (s.dropFlight f).testsDone = s.testsDone ∧ (s.dropFlight f).detach = s.detach ∧ (s.dropFlight f).culverts =
    s.culverts ∧ (s.dropFlight f).nextXtag = s.nextXtag ∧ (s.dropFlight f).siteId = s.siteId ∧ (s.dropFlight f).attached =
    s.attached ∧ (s.dropFlight f).cistern = s.cistern ∧ (s.dropFlight f).running = s.running ∧ (s.dropFlight f).power =
    s.power ∧ (s.dropFlight f).start = s.start ∧ (s.dropFlight f).hg = s.hg ∧ (s.dropFlight f).mgt = s.mgt ∧ (s.dropFlight
    f).spdm = s.spdm ∧ (s.dropFlight f).tap = s.tap ∧ (s.dropFlight f).handover = s.handover ∧ (s.dropFlight f).core = s.core
    ∧ (s.dropFlight f).controlDown = s.controlDown ∧ (s.dropFlight f).downSince = s.downSince ∧ (s.dropFlight f).downOk =
    s.downOk ∧ (s.dropFlight f).loadOut = s.loadOut := by
  repeat' constructor

/-- `unlock` changes desc and descChk and sram and locks alone. -/
@[simp] theorem State.unlock_keeps (b d : Nat) :
    (s.unlock b d).pending = s.pending ∧ (s.unlock b d).cfg = s.cfg ∧ (s.unlock b d).cycle = s.cycle ∧ (s.unlock b d).regs =
    s.regs ∧ (s.unlock b d).fresh = s.fresh ∧ (s.unlock b d).freeUses = s.freeUses ∧ (s.unlock b d).mem = s.mem ∧ (s.unlock b
    d).memChk = s.memChk ∧ (s.unlock b d).gauge = s.gauge ∧ (s.unlock b d).gaugeCtx = s.gaugeCtx ∧ (s.unlock b d).gaugeChk =
    s.gaugeChk ∧ (s.unlock b d).landed = s.landed ∧ (s.unlock b d).stack = s.stack ∧ (s.unlock b d).pages = s.pages ∧
    (s.unlock b d).combining = s.combining ∧ (s.unlock b d).macs = s.macs ∧ (s.unlock b d).badBlocks = s.badBlocks ∧ (s.unlock
    b d).siphons = s.siphons ∧ (s.unlock b d).flights = s.flights ∧ (s.unlock b d).nextFlight = s.nextFlight ∧ (s.unlock b
    d).staging = s.staging ∧ (s.unlock b d).keyGens = s.keyGens ∧ (s.unlock b d).sphKeys = s.sphKeys ∧ (s.unlock b
    d).reshadows = s.reshadows ∧ (s.unlock b d).oldSends = s.oldSends ∧ (s.unlock b d).waits = s.waits ∧ (s.unlock b
    d).dueIncs = s.dueIncs ∧ (s.unlock b d).lists = s.lists ∧ (s.unlock b d).slotStats = s.slotStats ∧ (s.unlock b
    d).nextSpawn = s.nextSpawn ∧ (s.unlock b d).rings = s.rings ∧ (s.unlock b d).riders = s.riders ∧ (s.unlock b d).rode =
    s.rode ∧ (s.unlock b d).handed = s.handed ∧ (s.unlock b d).active = s.active ∧ (s.unlock b d).ctxs = s.ctxs ∧ (s.unlock b
    d).auditMs = s.auditMs ∧ (s.unlock b d).auditNext = s.auditNext ∧ (s.unlock b d).auditFrom = s.auditFrom ∧ (s.unlock b
    d).auditSnap = s.auditSnap ∧ (s.unlock b d).arbs = s.arbs ∧ (s.unlock b d).beats = s.beats ∧ (s.unlock b d).parks =
    s.parks ∧ (s.unlock b d).turnWait = s.turnWait ∧ (s.unlock b d).decided = s.decided ∧ (s.unlock b d).frozenAt = s.frozenAt
    ∧ (s.unlock b d).fillRes = s.fillRes ∧ (s.unlock b d).scrubs = s.scrubs ∧ (s.unlock b d).regulators = s.regulators ∧
    (s.unlock b d).scrubbers = s.scrubbers ∧ (s.unlock b d).spareCopies = s.spareCopies ∧ (s.unlock b d).remapped = s.remapped
    ∧ (s.unlock b d).substs = s.substs ∧ (s.unlock b d).bit7Due = s.bit7Due ∧ (s.unlock b d).retiring = s.retiring ∧ (s.unlock
    b d).restores = s.restores ∧ (s.unlock b d).placements = s.placements ∧ (s.unlock b d).events = s.events ∧ (s.unlock b
    d).lostEvents = s.lostEvents ∧ (s.unlock b d).testsDone = s.testsDone ∧ (s.unlock b d).detach = s.detach ∧ (s.unlock b
    d).culverts = s.culverts ∧ (s.unlock b d).nextXtag = s.nextXtag ∧ (s.unlock b d).siteId = s.siteId ∧ (s.unlock b
    d).attached = s.attached ∧ (s.unlock b d).cistern = s.cistern ∧ (s.unlock b d).running = s.running ∧ (s.unlock b d).power
    = s.power ∧ (s.unlock b d).start = s.start ∧ (s.unlock b d).hg = s.hg ∧ (s.unlock b d).mgt = s.mgt ∧ (s.unlock b d).spdm =
    s.spdm ∧ (s.unlock b d).tap = s.tap ∧ (s.unlock b d).handover = s.handover ∧ (s.unlock b d).core = s.core ∧ (s.unlock b
    d).controlDown = s.controlDown ∧ (s.unlock b d).downSince = s.downSince ∧ (s.unlock b d).downOk = s.downOk ∧ (s.unlock b
    d).loadOut = s.loadOut := by
  repeat' constructor

/-- `putUnitRec` changes cistern alone. -/
@[simp] theorem State.putUnitRec_keeps (r : UnitRec) :
    (s.putUnitRec r).pending = s.pending ∧ (s.putUnitRec r).cfg = s.cfg ∧ (s.putUnitRec r).cycle = s.cycle ∧ (s.putUnitRec
    r).regs = s.regs ∧ (s.putUnitRec r).fresh = s.fresh ∧ (s.putUnitRec r).freeUses = s.freeUses ∧ (s.putUnitRec r).mem =
    s.mem ∧ (s.putUnitRec r).memChk = s.memChk ∧ (s.putUnitRec r).desc = s.desc ∧ (s.putUnitRec r).descChk = s.descChk ∧
    (s.putUnitRec r).gauge = s.gauge ∧ (s.putUnitRec r).gaugeCtx = s.gaugeCtx ∧ (s.putUnitRec r).gaugeChk = s.gaugeChk ∧
    (s.putUnitRec r).landed = s.landed ∧ (s.putUnitRec r).stack = s.stack ∧ (s.putUnitRec r).pages = s.pages ∧ (s.putUnitRec
    r).combining = s.combining ∧ (s.putUnitRec r).macs = s.macs ∧ (s.putUnitRec r).badBlocks = s.badBlocks ∧ (s.putUnitRec
    r).siphons = s.siphons ∧ (s.putUnitRec r).flights = s.flights ∧ (s.putUnitRec r).nextFlight = s.nextFlight ∧ (s.putUnitRec
    r).staging = s.staging ∧ (s.putUnitRec r).keyGens = s.keyGens ∧ (s.putUnitRec r).sphKeys = s.sphKeys ∧ (s.putUnitRec
    r).reshadows = s.reshadows ∧ (s.putUnitRec r).oldSends = s.oldSends ∧ (s.putUnitRec r).locks = s.locks ∧ (s.putUnitRec
    r).waits = s.waits ∧ (s.putUnitRec r).dueIncs = s.dueIncs ∧ (s.putUnitRec r).sram = s.sram ∧ (s.putUnitRec r).lists =
    s.lists ∧ (s.putUnitRec r).slotStats = s.slotStats ∧ (s.putUnitRec r).nextSpawn = s.nextSpawn ∧ (s.putUnitRec r).rings =
    s.rings ∧ (s.putUnitRec r).riders = s.riders ∧ (s.putUnitRec r).rode = s.rode ∧ (s.putUnitRec r).handed = s.handed ∧
    (s.putUnitRec r).active = s.active ∧ (s.putUnitRec r).ctxs = s.ctxs ∧ (s.putUnitRec r).auditMs = s.auditMs ∧ (s.putUnitRec
    r).auditNext = s.auditNext ∧ (s.putUnitRec r).auditFrom = s.auditFrom ∧ (s.putUnitRec r).auditSnap = s.auditSnap ∧
    (s.putUnitRec r).arbs = s.arbs ∧ (s.putUnitRec r).beats = s.beats ∧ (s.putUnitRec r).parks = s.parks ∧ (s.putUnitRec
    r).turnWait = s.turnWait ∧ (s.putUnitRec r).decided = s.decided ∧ (s.putUnitRec r).frozenAt = s.frozenAt ∧ (s.putUnitRec
    r).fillRes = s.fillRes ∧ (s.putUnitRec r).scrubs = s.scrubs ∧ (s.putUnitRec r).regulators = s.regulators ∧ (s.putUnitRec
    r).scrubbers = s.scrubbers ∧ (s.putUnitRec r).spareCopies = s.spareCopies ∧ (s.putUnitRec r).remapped = s.remapped ∧
    (s.putUnitRec r).substs = s.substs ∧ (s.putUnitRec r).bit7Due = s.bit7Due ∧ (s.putUnitRec r).retiring = s.retiring ∧
    (s.putUnitRec r).restores = s.restores ∧ (s.putUnitRec r).placements = s.placements ∧ (s.putUnitRec r).events = s.events ∧
    (s.putUnitRec r).lostEvents = s.lostEvents ∧ (s.putUnitRec r).testsDone = s.testsDone ∧ (s.putUnitRec r).detach = s.detach
    ∧ (s.putUnitRec r).culverts = s.culverts ∧ (s.putUnitRec r).nextXtag = s.nextXtag ∧ (s.putUnitRec r).siteId = s.siteId ∧
    (s.putUnitRec r).attached = s.attached ∧ (s.putUnitRec r).running = s.running ∧ (s.putUnitRec r).power = s.power ∧
    (s.putUnitRec r).start = s.start ∧ (s.putUnitRec r).hg = s.hg ∧ (s.putUnitRec r).mgt = s.mgt ∧ (s.putUnitRec r).spdm =
    s.spdm ∧ (s.putUnitRec r).tap = s.tap ∧ (s.putUnitRec r).handover = s.handover ∧ (s.putUnitRec r).core = s.core ∧
    (s.putUnitRec r).controlDown = s.controlDown ∧ (s.putUnitRec r).downSince = s.downSince ∧ (s.putUnitRec r).downOk =
    s.downOk ∧ (s.putUnitRec r).loadOut = s.loadOut := by
  repeat' constructor

/-- `putArb` changes arbs alone. -/
@[simp] theorem State.putArb_keeps (a : CheckArb) :
    (s.putArb a).pending = s.pending ∧ (s.putArb a).cfg = s.cfg ∧ (s.putArb a).cycle = s.cycle ∧ (s.putArb a).regs = s.regs ∧
    (s.putArb a).fresh = s.fresh ∧ (s.putArb a).freeUses = s.freeUses ∧ (s.putArb a).mem = s.mem ∧ (s.putArb a).memChk =
    s.memChk ∧ (s.putArb a).desc = s.desc ∧ (s.putArb a).descChk = s.descChk ∧ (s.putArb a).gauge = s.gauge ∧ (s.putArb
    a).gaugeCtx = s.gaugeCtx ∧ (s.putArb a).gaugeChk = s.gaugeChk ∧ (s.putArb a).landed = s.landed ∧ (s.putArb a).stack =
    s.stack ∧ (s.putArb a).pages = s.pages ∧ (s.putArb a).combining = s.combining ∧ (s.putArb a).macs = s.macs ∧ (s.putArb
    a).badBlocks = s.badBlocks ∧ (s.putArb a).siphons = s.siphons ∧ (s.putArb a).flights = s.flights ∧ (s.putArb a).nextFlight
    = s.nextFlight ∧ (s.putArb a).staging = s.staging ∧ (s.putArb a).keyGens = s.keyGens ∧ (s.putArb a).sphKeys = s.sphKeys ∧
    (s.putArb a).reshadows = s.reshadows ∧ (s.putArb a).oldSends = s.oldSends ∧ (s.putArb a).locks = s.locks ∧ (s.putArb
    a).waits = s.waits ∧ (s.putArb a).dueIncs = s.dueIncs ∧ (s.putArb a).sram = s.sram ∧ (s.putArb a).lists = s.lists ∧
    (s.putArb a).slotStats = s.slotStats ∧ (s.putArb a).nextSpawn = s.nextSpawn ∧ (s.putArb a).rings = s.rings ∧ (s.putArb
    a).riders = s.riders ∧ (s.putArb a).rode = s.rode ∧ (s.putArb a).handed = s.handed ∧ (s.putArb a).active = s.active ∧
    (s.putArb a).ctxs = s.ctxs ∧ (s.putArb a).auditMs = s.auditMs ∧ (s.putArb a).auditNext = s.auditNext ∧ (s.putArb
    a).auditFrom = s.auditFrom ∧ (s.putArb a).auditSnap = s.auditSnap ∧ (s.putArb a).beats = s.beats ∧ (s.putArb a).parks =
    s.parks ∧ (s.putArb a).turnWait = s.turnWait ∧ (s.putArb a).decided = s.decided ∧ (s.putArb a).frozenAt = s.frozenAt ∧
    (s.putArb a).fillRes = s.fillRes ∧ (s.putArb a).scrubs = s.scrubs ∧ (s.putArb a).regulators = s.regulators ∧ (s.putArb
    a).scrubbers = s.scrubbers ∧ (s.putArb a).spareCopies = s.spareCopies ∧ (s.putArb a).remapped = s.remapped ∧ (s.putArb
    a).substs = s.substs ∧ (s.putArb a).bit7Due = s.bit7Due ∧ (s.putArb a).retiring = s.retiring ∧ (s.putArb a).restores =
    s.restores ∧ (s.putArb a).placements = s.placements ∧ (s.putArb a).events = s.events ∧ (s.putArb a).lostEvents =
    s.lostEvents ∧ (s.putArb a).testsDone = s.testsDone ∧ (s.putArb a).detach = s.detach ∧ (s.putArb a).culverts = s.culverts
    ∧ (s.putArb a).nextXtag = s.nextXtag ∧ (s.putArb a).siteId = s.siteId ∧ (s.putArb a).attached = s.attached ∧ (s.putArb
    a).cistern = s.cistern ∧ (s.putArb a).running = s.running ∧ (s.putArb a).power = s.power ∧ (s.putArb a).start = s.start ∧
    (s.putArb a).hg = s.hg ∧ (s.putArb a).mgt = s.mgt ∧ (s.putArb a).spdm = s.spdm ∧ (s.putArb a).tap = s.tap ∧ (s.putArb
    a).handover = s.handover ∧ (s.putArb a).core = s.core ∧ (s.putArb a).controlDown = s.controlDown ∧ (s.putArb a).downSince
    = s.downSince ∧ (s.putArb a).downOk = s.downOk ∧ (s.putArb a).loadOut = s.loadOut := by
  repeat' constructor

/-- `putScrubber` changes scrubbers alone. -/
@[simp] theorem State.putScrubber_keeps (x : Scrubber) :
    (s.putScrubber x).pending = s.pending ∧ (s.putScrubber x).cfg = s.cfg ∧ (s.putScrubber x).cycle = s.cycle ∧ (s.putScrubber
    x).regs = s.regs ∧ (s.putScrubber x).fresh = s.fresh ∧ (s.putScrubber x).freeUses = s.freeUses ∧ (s.putScrubber x).mem =
    s.mem ∧ (s.putScrubber x).memChk = s.memChk ∧ (s.putScrubber x).desc = s.desc ∧ (s.putScrubber x).descChk = s.descChk ∧
    (s.putScrubber x).gauge = s.gauge ∧ (s.putScrubber x).gaugeCtx = s.gaugeCtx ∧ (s.putScrubber x).gaugeChk = s.gaugeChk ∧
    (s.putScrubber x).landed = s.landed ∧ (s.putScrubber x).stack = s.stack ∧ (s.putScrubber x).pages = s.pages ∧
    (s.putScrubber x).combining = s.combining ∧ (s.putScrubber x).macs = s.macs ∧ (s.putScrubber x).badBlocks = s.badBlocks ∧
    (s.putScrubber x).siphons = s.siphons ∧ (s.putScrubber x).flights = s.flights ∧ (s.putScrubber x).nextFlight =
    s.nextFlight ∧ (s.putScrubber x).staging = s.staging ∧ (s.putScrubber x).keyGens = s.keyGens ∧ (s.putScrubber x).sphKeys =
    s.sphKeys ∧ (s.putScrubber x).reshadows = s.reshadows ∧ (s.putScrubber x).oldSends = s.oldSends ∧ (s.putScrubber x).locks
    = s.locks ∧ (s.putScrubber x).waits = s.waits ∧ (s.putScrubber x).dueIncs = s.dueIncs ∧ (s.putScrubber x).sram = s.sram ∧
    (s.putScrubber x).lists = s.lists ∧ (s.putScrubber x).slotStats = s.slotStats ∧ (s.putScrubber x).nextSpawn = s.nextSpawn
    ∧ (s.putScrubber x).rings = s.rings ∧ (s.putScrubber x).riders = s.riders ∧ (s.putScrubber x).rode = s.rode ∧
    (s.putScrubber x).handed = s.handed ∧ (s.putScrubber x).active = s.active ∧ (s.putScrubber x).ctxs = s.ctxs ∧
    (s.putScrubber x).auditMs = s.auditMs ∧ (s.putScrubber x).auditNext = s.auditNext ∧ (s.putScrubber x).auditFrom =
    s.auditFrom ∧ (s.putScrubber x).auditSnap = s.auditSnap ∧ (s.putScrubber x).arbs = s.arbs ∧ (s.putScrubber x).beats =
    s.beats ∧ (s.putScrubber x).parks = s.parks ∧ (s.putScrubber x).turnWait = s.turnWait ∧ (s.putScrubber x).decided =
    s.decided ∧ (s.putScrubber x).frozenAt = s.frozenAt ∧ (s.putScrubber x).fillRes = s.fillRes ∧ (s.putScrubber x).scrubs =
    s.scrubs ∧ (s.putScrubber x).regulators = s.regulators ∧ (s.putScrubber x).spareCopies = s.spareCopies ∧ (s.putScrubber
    x).remapped = s.remapped ∧ (s.putScrubber x).substs = s.substs ∧ (s.putScrubber x).bit7Due = s.bit7Due ∧ (s.putScrubber
    x).retiring = s.retiring ∧ (s.putScrubber x).restores = s.restores ∧ (s.putScrubber x).placements = s.placements ∧
    (s.putScrubber x).events = s.events ∧ (s.putScrubber x).lostEvents = s.lostEvents ∧ (s.putScrubber x).testsDone =
    s.testsDone ∧ (s.putScrubber x).detach = s.detach ∧ (s.putScrubber x).culverts = s.culverts ∧ (s.putScrubber x).nextXtag =
    s.nextXtag ∧ (s.putScrubber x).siteId = s.siteId ∧ (s.putScrubber x).attached = s.attached ∧ (s.putScrubber x).cistern =
    s.cistern ∧ (s.putScrubber x).running = s.running ∧ (s.putScrubber x).power = s.power ∧ (s.putScrubber x).start = s.start
    ∧ (s.putScrubber x).hg = s.hg ∧ (s.putScrubber x).mgt = s.mgt ∧ (s.putScrubber x).spdm = s.spdm ∧ (s.putScrubber x).tap =
    s.tap ∧ (s.putScrubber x).handover = s.handover ∧ (s.putScrubber x).core = s.core ∧ (s.putScrubber x).controlDown =
    s.controlDown ∧ (s.putScrubber x).downSince = s.downSince ∧ (s.putScrubber x).downOk = s.downOk ∧ (s.putScrubber
    x).loadOut = s.loadOut := by
  repeat' constructor

/-- `park` changes parks alone. -/
@[simp] theorem State.park_keeps (p : Park) :
    (s.park p).pending = s.pending ∧ (s.park p).cfg = s.cfg ∧ (s.park p).cycle = s.cycle ∧ (s.park p).regs = s.regs ∧ (s.park
    p).fresh = s.fresh ∧ (s.park p).freeUses = s.freeUses ∧ (s.park p).mem = s.mem ∧ (s.park p).memChk = s.memChk ∧ (s.park
    p).desc = s.desc ∧ (s.park p).descChk = s.descChk ∧ (s.park p).gauge = s.gauge ∧ (s.park p).gaugeCtx = s.gaugeCtx ∧
    (s.park p).gaugeChk = s.gaugeChk ∧ (s.park p).landed = s.landed ∧ (s.park p).stack = s.stack ∧ (s.park p).pages = s.pages
    ∧ (s.park p).combining = s.combining ∧ (s.park p).macs = s.macs ∧ (s.park p).badBlocks = s.badBlocks ∧ (s.park p).siphons
    = s.siphons ∧ (s.park p).flights = s.flights ∧ (s.park p).nextFlight = s.nextFlight ∧ (s.park p).staging = s.staging ∧
    (s.park p).keyGens = s.keyGens ∧ (s.park p).sphKeys = s.sphKeys ∧ (s.park p).reshadows = s.reshadows ∧ (s.park p).oldSends
    = s.oldSends ∧ (s.park p).locks = s.locks ∧ (s.park p).waits = s.waits ∧ (s.park p).dueIncs = s.dueIncs ∧ (s.park p).sram
    = s.sram ∧ (s.park p).lists = s.lists ∧ (s.park p).slotStats = s.slotStats ∧ (s.park p).nextSpawn = s.nextSpawn ∧ (s.park
    p).rings = s.rings ∧ (s.park p).riders = s.riders ∧ (s.park p).rode = s.rode ∧ (s.park p).handed = s.handed ∧ (s.park
    p).active = s.active ∧ (s.park p).ctxs = s.ctxs ∧ (s.park p).auditMs = s.auditMs ∧ (s.park p).auditNext = s.auditNext ∧
    (s.park p).auditFrom = s.auditFrom ∧ (s.park p).auditSnap = s.auditSnap ∧ (s.park p).arbs = s.arbs ∧ (s.park p).beats =
    s.beats ∧ (s.park p).turnWait = s.turnWait ∧ (s.park p).decided = s.decided ∧ (s.park p).frozenAt = s.frozenAt ∧ (s.park
    p).fillRes = s.fillRes ∧ (s.park p).scrubs = s.scrubs ∧ (s.park p).regulators = s.regulators ∧ (s.park p).scrubbers =
    s.scrubbers ∧ (s.park p).spareCopies = s.spareCopies ∧ (s.park p).remapped = s.remapped ∧ (s.park p).substs = s.substs ∧
    (s.park p).bit7Due = s.bit7Due ∧ (s.park p).retiring = s.retiring ∧ (s.park p).restores = s.restores ∧ (s.park
    p).placements = s.placements ∧ (s.park p).events = s.events ∧ (s.park p).lostEvents = s.lostEvents ∧ (s.park p).testsDone
    = s.testsDone ∧ (s.park p).detach = s.detach ∧ (s.park p).culverts = s.culverts ∧ (s.park p).nextXtag = s.nextXtag ∧
    (s.park p).siteId = s.siteId ∧ (s.park p).attached = s.attached ∧ (s.park p).cistern = s.cistern ∧ (s.park p).running =
    s.running ∧ (s.park p).power = s.power ∧ (s.park p).start = s.start ∧ (s.park p).hg = s.hg ∧ (s.park p).mgt = s.mgt ∧
    (s.park p).spdm = s.spdm ∧ (s.park p).tap = s.tap ∧ (s.park p).handover = s.handover ∧ (s.park p).core = s.core ∧ (s.park
    p).controlDown = s.controlDown ∧ (s.park p).downSince = s.downSince ∧ (s.park p).downOk = s.downOk ∧ (s.park p).loadOut =
    s.loadOut := by
  repeat' constructor

/-- `hgQueue` changes hg alone. -/
@[simp] theorem State.hgQueue_keeps (x : HgResp) :
    (s.hgQueue x).pending = s.pending ∧ (s.hgQueue x).cfg = s.cfg ∧ (s.hgQueue x).cycle = s.cycle ∧ (s.hgQueue x).regs =
    s.regs ∧ (s.hgQueue x).fresh = s.fresh ∧ (s.hgQueue x).freeUses = s.freeUses ∧ (s.hgQueue x).mem = s.mem ∧ (s.hgQueue
    x).memChk = s.memChk ∧ (s.hgQueue x).desc = s.desc ∧ (s.hgQueue x).descChk = s.descChk ∧ (s.hgQueue x).gauge = s.gauge ∧
    (s.hgQueue x).gaugeCtx = s.gaugeCtx ∧ (s.hgQueue x).gaugeChk = s.gaugeChk ∧ (s.hgQueue x).landed = s.landed ∧ (s.hgQueue
    x).stack = s.stack ∧ (s.hgQueue x).pages = s.pages ∧ (s.hgQueue x).combining = s.combining ∧ (s.hgQueue x).macs = s.macs ∧
    (s.hgQueue x).badBlocks = s.badBlocks ∧ (s.hgQueue x).siphons = s.siphons ∧ (s.hgQueue x).flights = s.flights ∧ (s.hgQueue
    x).nextFlight = s.nextFlight ∧ (s.hgQueue x).staging = s.staging ∧ (s.hgQueue x).keyGens = s.keyGens ∧ (s.hgQueue
    x).sphKeys = s.sphKeys ∧ (s.hgQueue x).reshadows = s.reshadows ∧ (s.hgQueue x).oldSends = s.oldSends ∧ (s.hgQueue x).locks
    = s.locks ∧ (s.hgQueue x).waits = s.waits ∧ (s.hgQueue x).dueIncs = s.dueIncs ∧ (s.hgQueue x).sram = s.sram ∧ (s.hgQueue
    x).lists = s.lists ∧ (s.hgQueue x).slotStats = s.slotStats ∧ (s.hgQueue x).nextSpawn = s.nextSpawn ∧ (s.hgQueue x).rings =
    s.rings ∧ (s.hgQueue x).riders = s.riders ∧ (s.hgQueue x).rode = s.rode ∧ (s.hgQueue x).handed = s.handed ∧ (s.hgQueue
    x).active = s.active ∧ (s.hgQueue x).ctxs = s.ctxs ∧ (s.hgQueue x).auditMs = s.auditMs ∧ (s.hgQueue x).auditNext =
    s.auditNext ∧ (s.hgQueue x).auditFrom = s.auditFrom ∧ (s.hgQueue x).auditSnap = s.auditSnap ∧ (s.hgQueue x).arbs = s.arbs
    ∧ (s.hgQueue x).beats = s.beats ∧ (s.hgQueue x).parks = s.parks ∧ (s.hgQueue x).turnWait = s.turnWait ∧ (s.hgQueue
    x).decided = s.decided ∧ (s.hgQueue x).frozenAt = s.frozenAt ∧ (s.hgQueue x).fillRes = s.fillRes ∧ (s.hgQueue x).scrubs =
    s.scrubs ∧ (s.hgQueue x).regulators = s.regulators ∧ (s.hgQueue x).scrubbers = s.scrubbers ∧ (s.hgQueue x).spareCopies =
    s.spareCopies ∧ (s.hgQueue x).remapped = s.remapped ∧ (s.hgQueue x).substs = s.substs ∧ (s.hgQueue x).bit7Due = s.bit7Due
    ∧ (s.hgQueue x).retiring = s.retiring ∧ (s.hgQueue x).restores = s.restores ∧ (s.hgQueue x).placements = s.placements ∧
    (s.hgQueue x).events = s.events ∧ (s.hgQueue x).lostEvents = s.lostEvents ∧ (s.hgQueue x).testsDone = s.testsDone ∧
    (s.hgQueue x).detach = s.detach ∧ (s.hgQueue x).culverts = s.culverts ∧ (s.hgQueue x).nextXtag = s.nextXtag ∧ (s.hgQueue
    x).siteId = s.siteId ∧ (s.hgQueue x).attached = s.attached ∧ (s.hgQueue x).cistern = s.cistern ∧ (s.hgQueue x).running =
    s.running ∧ (s.hgQueue x).power = s.power ∧ (s.hgQueue x).start = s.start ∧ (s.hgQueue x).mgt = s.mgt ∧ (s.hgQueue x).spdm
    = s.spdm ∧ (s.hgQueue x).tap = s.tap ∧ (s.hgQueue x).handover = s.handover ∧ (s.hgQueue x).core = s.core ∧ (s.hgQueue
    x).controlDown = s.controlDown ∧ (s.hgQueue x).downSince = s.downSince ∧ (s.hgQueue x).downOk = s.downOk ∧ (s.hgQueue
    x).loadOut = s.loadOut := by
  repeat' constructor

/-- `hgExecuted` changes hg alone. -/
@[simp] theorem State.hgExecuted_keeps (h : HgHdr) (x : HgResp) :
    (s.hgExecuted h x).pending = s.pending ∧ (s.hgExecuted h x).cfg = s.cfg ∧ (s.hgExecuted h x).cycle = s.cycle ∧
    (s.hgExecuted h x).regs = s.regs ∧ (s.hgExecuted h x).fresh = s.fresh ∧ (s.hgExecuted h x).freeUses = s.freeUses ∧
    (s.hgExecuted h x).mem = s.mem ∧ (s.hgExecuted h x).memChk = s.memChk ∧ (s.hgExecuted h x).desc = s.desc ∧ (s.hgExecuted h
    x).descChk = s.descChk ∧ (s.hgExecuted h x).gauge = s.gauge ∧ (s.hgExecuted h x).gaugeCtx = s.gaugeCtx ∧ (s.hgExecuted h
    x).gaugeChk = s.gaugeChk ∧ (s.hgExecuted h x).landed = s.landed ∧ (s.hgExecuted h x).stack = s.stack ∧ (s.hgExecuted h
    x).pages = s.pages ∧ (s.hgExecuted h x).combining = s.combining ∧ (s.hgExecuted h x).macs = s.macs ∧ (s.hgExecuted h
    x).badBlocks = s.badBlocks ∧ (s.hgExecuted h x).siphons = s.siphons ∧ (s.hgExecuted h x).flights = s.flights ∧
    (s.hgExecuted h x).nextFlight = s.nextFlight ∧ (s.hgExecuted h x).staging = s.staging ∧ (s.hgExecuted h x).keyGens =
    s.keyGens ∧ (s.hgExecuted h x).sphKeys = s.sphKeys ∧ (s.hgExecuted h x).reshadows = s.reshadows ∧ (s.hgExecuted h
    x).oldSends = s.oldSends ∧ (s.hgExecuted h x).locks = s.locks ∧ (s.hgExecuted h x).waits = s.waits ∧ (s.hgExecuted h
    x).dueIncs = s.dueIncs ∧ (s.hgExecuted h x).sram = s.sram ∧ (s.hgExecuted h x).lists = s.lists ∧ (s.hgExecuted h
    x).slotStats = s.slotStats ∧ (s.hgExecuted h x).nextSpawn = s.nextSpawn ∧ (s.hgExecuted h x).rings = s.rings ∧
    (s.hgExecuted h x).riders = s.riders ∧ (s.hgExecuted h x).rode = s.rode ∧ (s.hgExecuted h x).handed = s.handed ∧
    (s.hgExecuted h x).active = s.active ∧ (s.hgExecuted h x).ctxs = s.ctxs ∧ (s.hgExecuted h x).auditMs = s.auditMs ∧
    (s.hgExecuted h x).auditNext = s.auditNext ∧ (s.hgExecuted h x).auditFrom = s.auditFrom ∧ (s.hgExecuted h x).auditSnap =
    s.auditSnap ∧ (s.hgExecuted h x).arbs = s.arbs ∧ (s.hgExecuted h x).beats = s.beats ∧ (s.hgExecuted h x).parks = s.parks ∧
    (s.hgExecuted h x).turnWait = s.turnWait ∧ (s.hgExecuted h x).decided = s.decided ∧ (s.hgExecuted h x).frozenAt =
    s.frozenAt ∧ (s.hgExecuted h x).fillRes = s.fillRes ∧ (s.hgExecuted h x).scrubs = s.scrubs ∧ (s.hgExecuted h x).regulators
    = s.regulators ∧ (s.hgExecuted h x).scrubbers = s.scrubbers ∧ (s.hgExecuted h x).spareCopies = s.spareCopies ∧
    (s.hgExecuted h x).remapped = s.remapped ∧ (s.hgExecuted h x).substs = s.substs ∧ (s.hgExecuted h x).bit7Due = s.bit7Due ∧
    (s.hgExecuted h x).retiring = s.retiring ∧ (s.hgExecuted h x).restores = s.restores ∧ (s.hgExecuted h x).placements =
    s.placements ∧ (s.hgExecuted h x).events = s.events ∧ (s.hgExecuted h x).lostEvents = s.lostEvents ∧ (s.hgExecuted h
    x).testsDone = s.testsDone ∧ (s.hgExecuted h x).detach = s.detach ∧ (s.hgExecuted h x).culverts = s.culverts ∧
    (s.hgExecuted h x).nextXtag = s.nextXtag ∧ (s.hgExecuted h x).siteId = s.siteId ∧ (s.hgExecuted h x).attached = s.attached
    ∧ (s.hgExecuted h x).cistern = s.cistern ∧ (s.hgExecuted h x).running = s.running ∧ (s.hgExecuted h x).power = s.power ∧
    (s.hgExecuted h x).start = s.start ∧ (s.hgExecuted h x).mgt = s.mgt ∧ (s.hgExecuted h x).spdm = s.spdm ∧ (s.hgExecuted h
    x).tap = s.tap ∧ (s.hgExecuted h x).handover = s.handover ∧ (s.hgExecuted h x).core = s.core ∧ (s.hgExecuted h
    x).controlDown = s.controlDown ∧ (s.hgExecuted h x).downSince = s.downSince ∧ (s.hgExecuted h x).downOk = s.downOk ∧
    (s.hgExecuted h x).loadOut = s.loadOut := by
  repeat' constructor

/-- `say` changes spdm alone. -/
@[simp] theorem State.say_keeps (x : SpdmResp) :
    (s.say x).pending = s.pending ∧ (s.say x).cfg = s.cfg ∧ (s.say x).cycle = s.cycle ∧ (s.say x).regs = s.regs ∧ (s.say
    x).fresh = s.fresh ∧ (s.say x).freeUses = s.freeUses ∧ (s.say x).mem = s.mem ∧ (s.say x).memChk = s.memChk ∧ (s.say
    x).desc = s.desc ∧ (s.say x).descChk = s.descChk ∧ (s.say x).gauge = s.gauge ∧ (s.say x).gaugeCtx = s.gaugeCtx ∧ (s.say
    x).gaugeChk = s.gaugeChk ∧ (s.say x).landed = s.landed ∧ (s.say x).stack = s.stack ∧ (s.say x).pages = s.pages ∧ (s.say
    x).combining = s.combining ∧ (s.say x).macs = s.macs ∧ (s.say x).badBlocks = s.badBlocks ∧ (s.say x).siphons = s.siphons ∧
    (s.say x).flights = s.flights ∧ (s.say x).nextFlight = s.nextFlight ∧ (s.say x).staging = s.staging ∧ (s.say x).keyGens =
    s.keyGens ∧ (s.say x).sphKeys = s.sphKeys ∧ (s.say x).reshadows = s.reshadows ∧ (s.say x).oldSends = s.oldSends ∧ (s.say
    x).locks = s.locks ∧ (s.say x).waits = s.waits ∧ (s.say x).dueIncs = s.dueIncs ∧ (s.say x).sram = s.sram ∧ (s.say x).lists
    = s.lists ∧ (s.say x).slotStats = s.slotStats ∧ (s.say x).nextSpawn = s.nextSpawn ∧ (s.say x).rings = s.rings ∧ (s.say
    x).riders = s.riders ∧ (s.say x).rode = s.rode ∧ (s.say x).handed = s.handed ∧ (s.say x).active = s.active ∧ (s.say
    x).ctxs = s.ctxs ∧ (s.say x).auditMs = s.auditMs ∧ (s.say x).auditNext = s.auditNext ∧ (s.say x).auditFrom = s.auditFrom ∧
    (s.say x).auditSnap = s.auditSnap ∧ (s.say x).arbs = s.arbs ∧ (s.say x).beats = s.beats ∧ (s.say x).parks = s.parks ∧
    (s.say x).turnWait = s.turnWait ∧ (s.say x).decided = s.decided ∧ (s.say x).frozenAt = s.frozenAt ∧ (s.say x).fillRes =
    s.fillRes ∧ (s.say x).scrubs = s.scrubs ∧ (s.say x).regulators = s.regulators ∧ (s.say x).scrubbers = s.scrubbers ∧ (s.say
    x).spareCopies = s.spareCopies ∧ (s.say x).remapped = s.remapped ∧ (s.say x).substs = s.substs ∧ (s.say x).bit7Due =
    s.bit7Due ∧ (s.say x).retiring = s.retiring ∧ (s.say x).restores = s.restores ∧ (s.say x).placements = s.placements ∧
    (s.say x).events = s.events ∧ (s.say x).lostEvents = s.lostEvents ∧ (s.say x).testsDone = s.testsDone ∧ (s.say x).detach =
    s.detach ∧ (s.say x).culverts = s.culverts ∧ (s.say x).nextXtag = s.nextXtag ∧ (s.say x).siteId = s.siteId ∧ (s.say
    x).attached = s.attached ∧ (s.say x).cistern = s.cistern ∧ (s.say x).running = s.running ∧ (s.say x).power = s.power ∧
    (s.say x).start = s.start ∧ (s.say x).hg = s.hg ∧ (s.say x).mgt = s.mgt ∧ (s.say x).tap = s.tap ∧ (s.say x).handover =
    s.handover ∧ (s.say x).core = s.core ∧ (s.say x).controlDown = s.controlDown ∧ (s.say x).downSince = s.downSince ∧ (s.say
    x).downOk = s.downOk ∧ (s.say x).loadOut = s.loadOut := by
  repeat' constructor

/-- `mgtAnswer` changes mgt alone. -/
@[simp] theorem State.mgtAnswer_keeps (st : Status) (data : List Byte) :
    (s.mgtAnswer st data).pending = s.pending ∧ (s.mgtAnswer st data).cfg = s.cfg ∧ (s.mgtAnswer st data).cycle = s.cycle ∧
    (s.mgtAnswer st data).regs = s.regs ∧ (s.mgtAnswer st data).fresh = s.fresh ∧ (s.mgtAnswer st data).freeUses = s.freeUses
    ∧ (s.mgtAnswer st data).mem = s.mem ∧ (s.mgtAnswer st data).memChk = s.memChk ∧ (s.mgtAnswer st data).desc = s.desc ∧
    (s.mgtAnswer st data).descChk = s.descChk ∧ (s.mgtAnswer st data).gauge = s.gauge ∧ (s.mgtAnswer st data).gaugeCtx =
    s.gaugeCtx ∧ (s.mgtAnswer st data).gaugeChk = s.gaugeChk ∧ (s.mgtAnswer st data).landed = s.landed ∧ (s.mgtAnswer st
    data).stack = s.stack ∧ (s.mgtAnswer st data).pages = s.pages ∧ (s.mgtAnswer st data).combining = s.combining ∧
    (s.mgtAnswer st data).macs = s.macs ∧ (s.mgtAnswer st data).badBlocks = s.badBlocks ∧ (s.mgtAnswer st data).siphons =
    s.siphons ∧ (s.mgtAnswer st data).flights = s.flights ∧ (s.mgtAnswer st data).nextFlight = s.nextFlight ∧ (s.mgtAnswer st
    data).staging = s.staging ∧ (s.mgtAnswer st data).keyGens = s.keyGens ∧ (s.mgtAnswer st data).sphKeys = s.sphKeys ∧
    (s.mgtAnswer st data).reshadows = s.reshadows ∧ (s.mgtAnswer st data).oldSends = s.oldSends ∧ (s.mgtAnswer st data).locks
    = s.locks ∧ (s.mgtAnswer st data).waits = s.waits ∧ (s.mgtAnswer st data).dueIncs = s.dueIncs ∧ (s.mgtAnswer st data).sram
    = s.sram ∧ (s.mgtAnswer st data).lists = s.lists ∧ (s.mgtAnswer st data).slotStats = s.slotStats ∧ (s.mgtAnswer st
    data).nextSpawn = s.nextSpawn ∧ (s.mgtAnswer st data).rings = s.rings ∧ (s.mgtAnswer st data).riders = s.riders ∧
    (s.mgtAnswer st data).rode = s.rode ∧ (s.mgtAnswer st data).handed = s.handed ∧ (s.mgtAnswer st data).active = s.active ∧
    (s.mgtAnswer st data).ctxs = s.ctxs ∧ (s.mgtAnswer st data).auditMs = s.auditMs ∧ (s.mgtAnswer st data).auditNext =
    s.auditNext ∧ (s.mgtAnswer st data).auditFrom = s.auditFrom ∧ (s.mgtAnswer st data).auditSnap = s.auditSnap ∧ (s.mgtAnswer
    st data).arbs = s.arbs ∧ (s.mgtAnswer st data).beats = s.beats ∧ (s.mgtAnswer st data).parks = s.parks ∧ (s.mgtAnswer st
    data).turnWait = s.turnWait ∧ (s.mgtAnswer st data).decided = s.decided ∧ (s.mgtAnswer st data).frozenAt = s.frozenAt ∧
    (s.mgtAnswer st data).fillRes = s.fillRes ∧ (s.mgtAnswer st data).scrubs = s.scrubs ∧ (s.mgtAnswer st data).regulators =
    s.regulators ∧ (s.mgtAnswer st data).scrubbers = s.scrubbers ∧ (s.mgtAnswer st data).spareCopies = s.spareCopies ∧
    (s.mgtAnswer st data).remapped = s.remapped ∧ (s.mgtAnswer st data).substs = s.substs ∧ (s.mgtAnswer st data).bit7Due =
    s.bit7Due ∧ (s.mgtAnswer st data).retiring = s.retiring ∧ (s.mgtAnswer st data).restores = s.restores ∧ (s.mgtAnswer st
    data).placements = s.placements ∧ (s.mgtAnswer st data).events = s.events ∧ (s.mgtAnswer st data).lostEvents =
    s.lostEvents ∧ (s.mgtAnswer st data).testsDone = s.testsDone ∧ (s.mgtAnswer st data).detach = s.detach ∧ (s.mgtAnswer st
    data).culverts = s.culverts ∧ (s.mgtAnswer st data).nextXtag = s.nextXtag ∧ (s.mgtAnswer st data).siteId = s.siteId ∧
    (s.mgtAnswer st data).attached = s.attached ∧ (s.mgtAnswer st data).cistern = s.cistern ∧ (s.mgtAnswer st data).running =
    s.running ∧ (s.mgtAnswer st data).power = s.power ∧ (s.mgtAnswer st data).start = s.start ∧ (s.mgtAnswer st data).hg =
    s.hg ∧ (s.mgtAnswer st data).spdm = s.spdm ∧ (s.mgtAnswer st data).tap = s.tap ∧ (s.mgtAnswer st data).handover =
    s.handover ∧ (s.mgtAnswer st data).core = s.core ∧ (s.mgtAnswer st data).controlDown = s.controlDown ∧ (s.mgtAnswer st
    data).downSince = s.downSince ∧ (s.mgtAnswer st data).downOk = s.downOk ∧ (s.mgtAnswer st data).loadOut = s.loadOut := by
  repeat' constructor

/-- `post` changes events and lostEvents alone. -/
@[simp] theorem State.post_keeps (e : Event) :
    (s.post e).pending = s.pending ∧ (s.post e).cfg = s.cfg ∧ (s.post e).cycle = s.cycle ∧ (s.post e).regs = s.regs ∧ (s.post
    e).fresh = s.fresh ∧ (s.post e).freeUses = s.freeUses ∧ (s.post e).mem = s.mem ∧ (s.post e).memChk = s.memChk ∧ (s.post
    e).desc = s.desc ∧ (s.post e).descChk = s.descChk ∧ (s.post e).gauge = s.gauge ∧ (s.post e).gaugeCtx = s.gaugeCtx ∧
    (s.post e).gaugeChk = s.gaugeChk ∧ (s.post e).landed = s.landed ∧ (s.post e).stack = s.stack ∧ (s.post e).pages = s.pages
    ∧ (s.post e).combining = s.combining ∧ (s.post e).macs = s.macs ∧ (s.post e).badBlocks = s.badBlocks ∧ (s.post e).siphons
    = s.siphons ∧ (s.post e).flights = s.flights ∧ (s.post e).nextFlight = s.nextFlight ∧ (s.post e).staging = s.staging ∧
    (s.post e).keyGens = s.keyGens ∧ (s.post e).sphKeys = s.sphKeys ∧ (s.post e).reshadows = s.reshadows ∧ (s.post e).oldSends
    = s.oldSends ∧ (s.post e).locks = s.locks ∧ (s.post e).waits = s.waits ∧ (s.post e).dueIncs = s.dueIncs ∧ (s.post e).sram
    = s.sram ∧ (s.post e).lists = s.lists ∧ (s.post e).slotStats = s.slotStats ∧ (s.post e).nextSpawn = s.nextSpawn ∧ (s.post
    e).rings = s.rings ∧ (s.post e).riders = s.riders ∧ (s.post e).rode = s.rode ∧ (s.post e).handed = s.handed ∧ (s.post
    e).active = s.active ∧ (s.post e).ctxs = s.ctxs ∧ (s.post e).auditMs = s.auditMs ∧ (s.post e).auditNext = s.auditNext ∧
    (s.post e).auditFrom = s.auditFrom ∧ (s.post e).auditSnap = s.auditSnap ∧ (s.post e).arbs = s.arbs ∧ (s.post e).beats =
    s.beats ∧ (s.post e).parks = s.parks ∧ (s.post e).turnWait = s.turnWait ∧ (s.post e).decided = s.decided ∧ (s.post
    e).frozenAt = s.frozenAt ∧ (s.post e).fillRes = s.fillRes ∧ (s.post e).scrubs = s.scrubs ∧ (s.post e).regulators =
    s.regulators ∧ (s.post e).scrubbers = s.scrubbers ∧ (s.post e).spareCopies = s.spareCopies ∧ (s.post e).remapped =
    s.remapped ∧ (s.post e).substs = s.substs ∧ (s.post e).bit7Due = s.bit7Due ∧ (s.post e).retiring = s.retiring ∧ (s.post
    e).restores = s.restores ∧ (s.post e).placements = s.placements ∧ (s.post e).testsDone = s.testsDone ∧ (s.post e).detach =
    s.detach ∧ (s.post e).culverts = s.culverts ∧ (s.post e).nextXtag = s.nextXtag ∧ (s.post e).siteId = s.siteId ∧ (s.post
    e).attached = s.attached ∧ (s.post e).cistern = s.cistern ∧ (s.post e).running = s.running ∧ (s.post e).power = s.power ∧
    (s.post e).start = s.start ∧ (s.post e).hg = s.hg ∧ (s.post e).mgt = s.mgt ∧ (s.post e).spdm = s.spdm ∧ (s.post e).tap =
    s.tap ∧ (s.post e).handover = s.handover ∧ (s.post e).core = s.core ∧ (s.post e).controlDown = s.controlDown ∧ (s.post
    e).downSince = s.downSince ∧ (s.post e).downOk = s.downOk ∧ (s.post e).loadOut = s.loadOut := by
  unfold State.post
  split <;> simp

end Sys2Proof.Machine
end

