-- ==== Sys2Proof/Laws/Bursts.lean ====
section
/-! SUPPORT. What sending a burst changes: bursts, beats and their arbiters' counts alone. -/

namespace Sys2Proof.Machine

variable {s t u : State}

theorem State.OnlyBursts.refl (s : State) : s.OnlyBursts s := ⟨rfl, fun _ _ => rfl⟩

theorem State.OnlyBursts.trans (h : s.OnlyBursts t) (k : t.OnlyBursts u) : s.OnlyBursts u := by
  refine ⟨?_, fun r hr => (k.2 r hr).trans (h.2 r hr)⟩
  have e := congrArg (fun x : State => { x with
    beats := s.beats, arbs := s.arbs, turnWait := s.turnWait, regs := s.regs, fresh := s.fresh }) k.1
  exact e.trans h.1

theorem State.putArb_bursts (s : State) (a : CheckArb) : s.OnlyBursts (s.putArb a) := ⟨rfl, fun _ _ => rfl⟩

theorem State.bump_bursts (s : State) (b k lo n i : Nat) : s.OnlyBursts (s.bump (.trnArbSt b k) lo n i) := by
  refine ⟨?_, fun r hr => s.reg_bump_ne (hr b k) lo n i⟩
  unfold State.bump
  split <;> rfl

theorem State.grantBurst_bursts (s : State) (b c : Nat) (e : Burst) (t0 : Nat) : s.OnlyBursts (s.grantBurst b c e t0) :=
  .trans (t := { s with beats := s.beats ++ s.burstBeats b c e t0 }) ⟨rfl, fun _ _ => rfl⟩ (State.bump_bursts _ _ _ _ _ _)

theorem State.issue_bursts (s : State) (b : Nat) (e : Burst) : s.OnlyBursts (s.issue b e) := by
  unfold State.issue
  simp only
  split
  · exact (State.putArb_bursts _ _).trans ((State.grantBurst_bursts _ _ _ _ _).trans (State.bump_bursts _ _ _ _ _ _))
  · exact State.putArb_bursts _ _

theorem State.issueWaiting_bursts (s : State) : s.OnlyBursts s.issueWaiting := by
  unfold State.issueWaiting
  have key : ∀ (l : List (Nat × Burst)) (t : State), s.OnlyBursts t → s.OnlyBursts (l.foldl (fun (s : State) x =>
      if s.heldBack x.1 x.2 then s else { s with turnWait := s.turnWait.erase x }.issue x.1 x.2) t) := by
    intro l
    induction l with
    | nil => exact fun _ h => h
    | cons x l ih =>
      intro t h
      refine ih _ ?_
      beta_reduce
      split
      · exact h
      · exact h.trans (.trans (t := { t with turnWait := t.turnWait.erase x }) ⟨rfl, fun _ _ => rfl⟩ (State.issue_bursts _ _ _))
  exact key s.turnWait s (.refl s)

/-- A burst of a fetch or of the window that arrives changes nothing else. -/
theorem execBurstArrival_bursts (s t : State) (b : Nat) (who : BurstSrc) (kind : BurstKind) (w n : Nat)
    (hw : ∀ i, who ≠ .flight i) (h : execBurstArrival b who kind w n s = .next t) : s.OnlyBursts t := by
  have note : ∀ x : State, x.noteAsked who w n = x := fun x => by
    unfold State.noteAsked
    split
    · next i => exact (hw i rfl).elim
    · rfl
  unfold execBurstArrival at h
  split at h
  · cases h; exact .refl s
  · split at h
    · cases h; exact .refl s
    · cases h
      rw [note]
      refine (State.issueWaiting_bursts s).trans ?_
      unfold State.burstReady
      split
      · exact ⟨rfl, fun _ _ => rfl⟩
      · exact State.issue_bursts _ _ _

/-- A fetch or a window access that asks for its beat changes bursts alone, whether it has it or not. -/
theorem State.beatFor_bursts (s : State) (b : Nat) (who : BurstSrc) (kind : BurstKind) (w n : Nat) (hw : ∀ i, who ≠ .flight i) :
    s.OnlyBursts (s.beatFor b who kind w n).1 := by
  have use : ∀ x : State, x.OnlyBursts (x.useBeat b who (decide (kind = .write)) w) := fun x => ⟨rfl, fun _ _ => rfl⟩
  unfold State.beatFor
  simp only
  split
  · exact use s
  · split
    · exact .refl s
    · split
      · next t h =>
        have k := execBurstArrival_bursts s t b who kind w n hw h
        split
        · exact k.trans (use t)
        · exact k
      · exact .refl s

end Sys2Proof.Machine
end

