-- ==== Sys2Proof/Laws/Memory.lean ====
section
/-! SUPPORT. Laws of the stores: read after write in basin memory, and every operation on basin memory, check bits,
descriptors, gauges and stack memory keeps their canonical form. Operations that only read keep the stores themselves. -/

namespace Sys2Proof.Machine

/-! ### Consecutive cells -/

/-- What a store of consecutive bytes leaves in each cell. -/
theorem nget_putBytes (m : List Host.Cell) (k : Nat) (bs : List Byte) (j : Nat) :
    nget (putBytes m k bs) 0 j = if k ≤ j ∧ j < k + bs.length then bs.getD (j - k) 0 else nget m 0 j := by
  induction bs generalizing m k with
  | nil => simp [putBytes]
  | cons x t ih =>
    simp only [putBytes, ih, nget_nset, List.length_cons]
    by_cases h : j = k
    · subst h; simp
    · by_cases h2 : k + 1 ≤ j ∧ j < k + 1 + t.length
      · rw [if_pos h2, if_pos (by omega), show j - k = (j - (k + 1)) + 1 by omega, List.getD_cons_succ]
      · rw [if_neg h2, if_neg h, if_neg (by omega)]

/-- A store of consecutive bytes keeps the canonical form. -/
theorem nwf_putBytes (bs : List Byte) {m : List Host.Cell} (k : Nat) (h : Memory.wf m) : Memory.wf (putBytes m k bs) := by
  induction bs generalizing m k with
  | nil => exact h
  | cons x t ih => exact ih (k + 1) (nwf_nset k x h)

/-! ### Operations that store nothing -/

/-- Memory is canonical right after reset. -/
theorem State.reset_canonical : State.reset.Canonical := ⟨rfl, rfl, rfl, rfl, rfl⟩

theorem State.SameStores.refl (s : State) : s.SameStores s := ⟨rfl, rfl, rfl, rfl, rfl⟩

theorem State.SameStores.trans {s t u : State} (h : s.SameStores t) (k : t.SameStores u) : s.SameStores u := by
  obtain ⟨a, b, c, d, e⟩ := h
  obtain ⟨a', b', c', d', e'⟩ := k
  exact ⟨a'.trans a, b'.trans b, c'.trans c, d'.trans d, e'.trans e⟩

/-- A state with the same stores is canonical too. -/
theorem State.Canonical.of_same {s t : State} (c : s.Canonical) (h : s.SameStores t) : t.Canonical := by
  obtain ⟨a, b, d, e, f⟩ := h
  simpa only [State.Canonical, a, b, d, e, f] using c

/-- A fold keeps what its step keeps. -/
theorem foldl_keeps {α β : Type} (P : β → Prop) (f : β → α → β) (hf : ∀ b a, P b → P (f b a)) (l : List α) (b : β) (h : P b) :
    P (l.foldl f b) := by
  induction l generalizing b with
  | nil => exact h
  | cons a t ih => exact ih _ (hf b a h)

variable (s : State)

theorem State.eccLog_same (b kind bank row r c t : Nat) : s.SameStores (s.eccLog b kind bank row r c t) := by
  unfold State.eccLog
  split <;> simp [State.SameStores]

theorem State.noteFinding_same (b pb row : Nat) (rd : Reader) (f : Finding) : s.SameStores (s.noteFinding b pb row rd f) := by
  unfold State.noteFinding
  split
  · exact State.SameStores.refl s
  · simp [State.SameStores]
  · next r c =>
    refine .trans (.trans (t := s.bump (.bsnEccSt b) 16 16) ?_ (State.eccLog_same _ b rd.kind pb row r c rd.turnout)) ?_ <;>
      simp [State.SameStores]

theorem State.noteBadDesc_same (b d t : Nat) : s.SameStores (s.noteBadDesc b d t) := by
  unfold State.noteBadDesc
  split
  · next r c _ =>
    refine .trans (.trans (t := s.bump (.bsnEccSt b) 16 16) ?_ (State.eccLog_same _ b 6 0x1FF d r c t)) ?_ <;>
      simp [State.SameStores]
  · exact State.SameStores.refl s

theorem State.readDesc_same (b d : Nat) : s.SameStores (s.readDesc b d).1 := by
  unfold State.readDesc
  split <;> simp [State.SameStores]

theorem State.readPhys_same (b pb row : Nat) (rd : Reader) : s.SameStores (s.readPhys b pb row rd).1 :=
  State.noteFinding_same _ _ _ _ _ _

theorem State.readWord_same (b w : Nat) (rd : Reader) : s.SameStores (s.readWord b w rd).1 :=
  State.readPhys_same _ _ _ _ _

/-- A read of basin memory changes counters and logs alone. -/
theorem State.readRange_same (b off len : Nat) (rd : Reader) : s.SameStores (s.readRange b off len rd).1 := by
  unfold State.readRange
  have key := foldl_keeps (fun a : State × List Byte × Bool => s.SameStores a.1)
    (fun a i => ((a.1.readWord b (off / 64 + i) rd).1, a.2.1 ++ (a.1.readWord b (off / 64 + i) rd).2.1,
      a.2.2 || (a.1.readWord b (off / 64 + i) rd).2.2))
    (fun a i h => h.trans (State.readWord_same _ _ _ _)) (List.range (cdiv (off % 64 + len) 64)) (s, [], false)
    (State.SameStores.refl s)
  exact key

theorem State.decodeError_same (src a : Nat) (w : Bool) : s.SameStores (s.decodeError src a w) := by
  unfold State.decodeError
  simp only
  split <;> simp [State.SameStores]

theorem State.violation_same (src a : Nat) (w : Bool) : s.SameStores (s.violation src a w) := by
  unfold State.violation
  simp only
  split <;> simp [State.SameStores]

theorem State.siphonEvent_same (sph block kind : Nat) : s.SameStores (s.siphonEvent sph block kind) := by
  simp [State.siphonEvent, State.SameStores]

theorem State.verifyBlock_same (sph block : Nat) (f1 f2 : Bool) : s.SameStores (s.verifyBlock sph block f1 f2).1 := by
  unfold State.verifyBlock
  simp only
  split
  · exact State.SameStores.refl s
  · split
    · simp [State.SameStores, State.siphonEvent]
    · split <;> simp [State.SameStores, State.siphonEvent, State.damage]

/-- A read of stack memory changes counters, events and what is known damaged alone. -/
theorem State.readBlock_same (sph block : Nat) (f1 f2 : Bool) : s.SameStores (s.readBlock sph block f1 f2).1 := by
  unfold State.readBlock
  split
  · simp [State.SameStores, State.siphonEvent]
  · split
    · exact State.SameStores.refl s
    · split
      · exact State.SameStores.refl s
      · exact .trans (t := s.bumpWrap (.sphRdCnt sph) 0 64) (by simp [State.SameStores]) (State.verifyBlock_same _ _ _ _ _)

theorem State.movedBlock_same (who : Option SphSrc) (sph block : Nat) : s.SameStores (s.movedBlock who sph block) := by
  unfold State.movedBlock
  split <;> simp [State.SameStores]

theorem State.stackRead_same (a len : Nat) (who : Option SphSrc) : s.SameStores (s.stackRead a len who).1 := by
  unfold State.stackRead
  refine foldl_keeps (fun x : State × List Byte × List Nat => s.SameStores x.1) _ (fun x p h => ?_) _ (s, [], []) (State.SameStores.refl s)
  obtain ⟨t, bs, bad⟩ := x
  simp only
  split
  · exact h
  · next sph phys _ =>
    have k := (h.trans (State.movedBlock_same t who sph (phys / 256))).trans
      (State.readBlock_same _ sph (phys / 256) (t.macOf who sph (phys / 256)).1 (t.macOf who sph (phys / 256)).2)
    split <;> exact k

/-- The 16 blocks of a page sealed. -/
theorem State.seal_same (sph block : Nat) : s.SameStores (s.seal sph block) := by simp [State.SameStores, State.seal]

theorem State.flushPage_same (sph page : Nat) : s.SameStores (s.flushPage sph page) := by
  unfold State.flushPage
  split
  · have key := foldl_keeps (fun t : State => s.SameStores t) (fun (t : State) i => t.seal sph (page * 16 + i))
      (fun t i h => h.trans (State.seal_same t _ _)) (List.range 16) s (State.SameStores.refl s)
    exact key.trans (by simp [State.SameStores])
  · exact State.SameStores.refl s

/-- Reserving the write sides stores nothing. -/
theorem State.startFill_same (b : Nat) (areas : List (Nat × Nat)) (n : Nat) : s.SameStores (s.startFill b areas n) :=
  ⟨rfl, rfl, rfl, rfl, rfl⟩

/-! ### Operations that store -/

variable {s}

theorem State.putDesc_canonical (b d : Nat) (v : BitVec 512) (c : s.Canonical) : (s.putDesc b d v).Canonical := by
  obtain ⟨h1, h2, h3, h4, h5⟩ := c
  exact ⟨h1, h2, nwf_nset _ _ h3, h4, h5⟩

/-- A gauge line put right keeps the canonical form. -/
theorem State.mendLine_canonical (b g : Nat) (c : s.Canonical) : (s.mendLine b g).Canonical := by
  obtain ⟨h1, h2, h3, h4, h5⟩ := c
  refine ⟨h1, h2, h3, ?_, h5⟩
  unfold State.mendLine
  simp only
  split
  · exact nwf_nset _ _ h4
  · exact h4

theorem State.putCount_canonical (b g : Nat) (v : BitVec 32) (c : s.Canonical) : (s.putCount b g v).Canonical := by
  obtain ⟨h1, h2, h3, h4, h5⟩ := State.mendLine_canonical b g c
  exact ⟨h1, h2, h3, nwf_nset _ _ h4, h5⟩

/-- Bytes and a deviation under a word's keys. -/
theorem State.Canonical.put_word (c : s.Canonical) (n : Nat) (d : List Byte) (dev : BitVec 48) :
    State.Canonical { s with mem := putBytes s.mem (n * 64) d, memChk := nset s.memChk 0 n dev } := by
  obtain ⟨h1, h2, h3, h4, h5⟩ := c
  exact ⟨nwf_putBytes _ _ h1, nwf_nset _ _ h2, h3, h4, h5⟩

/-- A physical word stored, through the flip registers or not (R252). -/
theorem State.storePhys_canonical (b pb row : Nat) (d : List Byte) (dev : BitVec 48) (c : s.Canonical) :
    (s.storePhys b pb row d dev).Canonical := by
  obtain ⟨h1, h2, h3, h4, h5⟩ := c
  unfold State.storePhys
  simp only
  split
  · have c' := State.Canonical.put_word ⟨h1, h2, h3, h4, h5⟩ (s.cfg.wordNo b pb row)
      ((List.range 64).map fun i => d.getD i 0 ^^^ (s.flipMask b).extractLsb' (8 * i) 8)
      (dev ^^^ bankCode (s.flipMask b) ^^^ (s.reg (.bsnFlipChk b)).extractLsb' 0 48)
    refine c'.of_same ?_
    have key := fun u : State => foldl_keeps (fun t : State => u.SameStores t)
      (fun (t : State) i => t.putReg (.bsnFlipData b i) 0) (fun t i h => h.trans (by simp [State.SameStores]))
      (List.range 8) (u.putReg (.bsnFlipChk b) 0) (by simp [State.SameStores])
    exact (key _).trans (by simp [State.SameStores])
  · exact ⟨nwf_putBytes _ _ h1, nwf_nset _ _ h2, h3, h4, h5⟩

theorem State.storeRow_canonical (b bank row : Nat) (d : List Byte) (dev : BitVec 48) (c : s.Canonical) :
    (s.storeRow b bank row d dev).Canonical := by
  unfold State.storeRow
  simp only
  split
  · exact (State.storePhys_canonical _ _ _ _ _ (State.storePhys_canonical _ _ _ _ _ c)).of_same ⟨rfl, rfl, rfl, rfl, rfl⟩
  · exact State.storePhys_canonical _ _ _ _ _ c

theorem State.writeWord_canonical (b w : Nat) (d : List Byte) (c : s.Canonical) : (s.writeWord b w d).Canonical :=
  State.storeRow_canonical _ _ _ _ _ c

theorem State.writePart_canonical (b w o : Nat) (bs : List Byte) (rd : Reader) (c : s.Canonical) :
    (s.writePart b w o bs rd).Canonical := by
  unfold State.writePart
  split
  · exact State.writeWord_canonical _ _ _ c
  · simp only
    have c' := c.of_same (State.readWord_same s b w rd)
    generalize (s.readWord b w rd).1 = t at c' ⊢
    split
    · exact (State.storeRow_canonical b _ _ _ _ c').of_same ⟨(State.bump_keeps _ _ _ _ _).2.2.2.2.1, by simp, by simp, by simp, by simp⟩
    · exact State.storeRow_canonical _ _ _ _ _ c'

theorem State.writeWords_canonical (b w : Nat) (bs : List Byte) (c : s.Canonical) : (s.writeWords b w bs).Canonical :=
  foldl_keeps State.Canonical _ (fun _ _ h => State.writeWord_canonical _ _ _ h) _ _ c

/-- A write of basin memory keeps the canonical form. -/
theorem State.writeRange_canonical (b off : Nat) (bs : List Byte) (rd : Reader) (c : s.Canonical) :
    (s.writeRange b off bs rd).Canonical :=
  foldl_keeps State.Canonical _ (fun _ _ h => State.writePart_canonical _ _ _ _ _ h) _ _ c

theorem State.zeroWhere_canonical (b : Nat) (z : Nat → Bool) (c : s.Canonical) : (s.zeroWhere b z).Canonical := by
  obtain ⟨h1, h2, h3, h4, h5⟩ := c
  have key : ∀ (p : Nat × Byte → Bool) (q : Nat × BitVec 48 → Bool) (u : State), u.mem = s.mem.filter p →
      u.memChk = s.memChk.filter q → u.desc = s.desc → u.gauge = s.gauge → u.stack = s.stack → u.Canonical :=
    fun p q u a b d e f => by
      simp only [State.Canonical, a, b, d, e, f]
      exact ⟨nwf_filter _ h1, nwf_filter _ h2, h3, h4, h5⟩
  unfold State.zeroWhere
  simp only
  split
  · split
    · exact State.writeWord_canonical _ _ _ (key _ _ _ rfl rfl rfl rfl rfl)
    · exact key _ _ _ rfl rfl rfl rfl rfl
  · exact key _ _ _ rfl rfl rfl rfl rfl

/-- The bank-side fills of a cycle keep the canonical form (R168). -/
theorem State.fillRows_canonical (c : s.Canonical) : s.fillRows.Canonical := by
  have key := foldl_keeps State.Canonical (fun (t : State) f => t.zeroWhere f.basin (s.fillsWord f))
    (fun t f h => State.zeroWhere_canonical _ _ h) (s.fillRes.filter s.fillActs) s c
  exact key.of_same ⟨rfl, rfl, rfl, rfl, rfl⟩

theorem State.clearPage_canonical (sph page : Nat) (c : s.Canonical) : (s.clearPage sph page).Canonical := by
  obtain ⟨h1, h2, h3, h4, h5⟩ := c
  exact ⟨h1, h2, h3, h4, nwf_filter _ h5⟩

theorem State.clearRegion_canonical (r : Region) (c : s.Canonical) : (s.clearRegion r).Canonical :=
  c.of_same ⟨rfl, rfl, rfl, rfl, rfl⟩

/-- Stack bytes stored keep the canonical form, with any bookkeeping beside them. -/
theorem State.Canonical.stack_put {t : State} (c : t.Canonical) (key : Nat) (bs : List Byte) {u : State}
    (h : u.mem = t.mem ∧ u.memChk = t.memChk ∧ u.desc = t.desc ∧ u.gauge = t.gauge ∧ u.stack = putBytes t.stack key bs) :
    u.Canonical := by
  obtain ⟨h1, h2, h3, h4, h5⟩ := c
  obtain ⟨a, b, d, e, f⟩ := h
  simp only [State.Canonical, a, b, d, e, f]
  exact ⟨h1, h2, h3, h4, nwf_putBytes _ _ h5⟩

/-- A write that the combiner gathers keeps the canonical form (R297). -/
theorem State.combine_canonical (sph block o : Nat) (bs : List Byte) (c : s.Canonical) : (s.combine sph block o bs).Canonical := by
  have room : (s.combinerSlot sph (block / 16)).Canonical := by
    unfold State.combinerSlot
    split
    · split
      · exact c.of_same (State.flushPage_same _ _ _)
      · exact c
    · exact c
  have fin : ∀ (p : Prop) [Decidable p] (u : State), u.Canonical →
      State.Canonical (if p then u.flushPage sph (block / 16) else u) := fun p _ u h => by
    split
    · exact h.of_same (State.flushPage_same _ _ _)
    · exact h
  unfold State.combine
  refine fin _ _ (State.Canonical.stack_put (t := if ((s.combinerSlot sph (block / 16)).pageCombining sph (block / 16)).isNone then
    (s.combinerSlot sph (block / 16)).clearPage sph (block / 16) else s.combinerSlot sph (block / 16)) ?_ (cellKey sph (block * 256 + o)) bs ⟨rfl, rfl, rfl, rfl, rfl⟩)
  split
  · exact State.clearPage_canonical _ _ room
  · exact room

/-- A write of stack memory keeps the canonical form. -/
theorem State.writeBlock_canonical (sph block o : Nat) (bs : List Byte) (f1 f2 : Bool) (c : s.Canonical) :
    (s.writeBlock sph block o bs f1 f2).Canonical := by
  unfold State.writeBlock
  simp only
  split
  · exact c
  split
  · exact c.of_same (by simp [State.SameStores, State.siphonEvent])
  split
  · have c' : (s.bumpWrap (.sphWrCnt sph) 0 64).Canonical := c.of_same (by simp [State.SameStores])
    split
    · exact c'.stack_put _ bs ⟨rfl, rfl, rfl, rfl, rfl⟩
    · have c'' := c'.of_same (State.readBlock_same _ sph block f1 f2)
      split
      · exact c''.stack_put _ bs ⟨rfl, rfl, rfl, rfl, rfl⟩
      · exact c''.stack_put (cellKey sph (block * 256 + o)) bs (by simp [State.damage, State.seal])
  · exact State.combine_canonical _ _ _ _ c

theorem State.stackWrite_canonical (a : Nat) (bs : List Byte) (who : Option SphSrc) (c : s.Canonical) :
    (s.stackWrite a bs who).Canonical := by
  refine foldl_keeps State.Canonical _ (fun t p h => ?_) _ _ c
  split
  · exact h
  · exact State.writeBlock_canonical _ _ _ _ _ _ (h.of_same (State.movedBlock_same _ _ _ _))

/-! ### The control core's memories -/

/-- An image placed in an instruction-RAM half is in canonical form. -/
theorem loadHalf_wf (body : List Byte) : Memory.wf (loadHalf body) := nwf_putBytes _ 0 rfl

/-- A local store keeps the canonical form of the core's memories, and leaves every other store as it was (R28). -/
theorem State.localStore_wf (a : Nat) (bs : List Byte)
    (h : Memory.wf s.core.iramA ∧ Memory.wf s.core.iramB ∧ Memory.wf s.core.dataRam) :
    Memory.wf (s.localStore a bs).core.iramA ∧ Memory.wf (s.localStore a bs).core.iramB ∧
      Memory.wf (s.localStore a bs).core.dataRam ∧ s.SameStores (s.localStore a bs) := by
  obtain ⟨h1, h2, h3⟩ := h
  unfold State.localStore
  split
  · unfold State.localTrap
    split <;> exact ⟨h1, h2, h3, rfl, rfl, rfl, rfl, rfl⟩
  · exact ⟨h1, nwf_putBytes _ _ h2, h3, rfl, rfl, rfl, rfl, rfl⟩
  · exact ⟨nwf_putBytes _ _ h1, h2, h3, rfl, rfl, rfl, rfl, rfl⟩
  · exact ⟨h1, h2, nwf_putBytes _ _ h3, rfl, rfl, rfl, rfl, rfl⟩
  · exact ⟨h1, h2, h3, rfl, rfl, rfl, rfl, rfl⟩

end Sys2Proof.Machine
end

