-- ==== Sys2Proof/Laws/Packets.lean ====
section
/-! SUPPORT. What the shared operations of control packets and of headgate frames do, case by case, so that no later
proof unfolds them. -/

namespace Sys2Proof.Machine

variable (s : State)

/-! ### Control packets -/

/-- A control packet Rosog serves, in a site that takes it: what its execution answers is finished, or goes on. -/
theorem State.control_served {s t : State} {src : Src} {p : Packet} {h : Handed}
    (k : State → Handed → State × Option Outcome) (hs : s.Serves src p t h) :
    s.control src p k = match k t h with
      | (u, some o) => u.finishHanded h o
      | (u, none) => u.begin h := by
  obtain ⟨rfl, h1, h2, h3, h4, -⟩ := hs
  unfold State.control
  simp only [h1, h2, h3, Bool.not_true, Bool.or_self, Bool.false_eq_true, if_false]
  rw [if_neg (fun hb => by simp [h4 hb.1] at hb)]
  all_goals rfl

/-- Everything a control packet can do: it is not before Rosog, it waits, it is refused while attaching, or it is executed. -/
theorem State.control_cases (src : Src) (p : Packet) (k : State → Handed → State × Option Outcome) :
    let t := if (s.handed? src p).isSome then s else s.arrive src p
    (t.handed? src p = none ∧ s.control src p k = t) ∨
    ∃ h, t.handed? src p = some h ∧
      (((t.rosogServes h = false ∨ t.rosogTurn h = false) ∧ s.control src p k = t) ∨
       (t.site = stAttaching ∧ takenAttaching h = false ∧ s.control src p k = t.finishHanded h (.refuse .refusedState)) ∨
       (∃ u o, k t h = (u, some o) ∧ s.control src p k = u.finishHanded h o) ∨
       (∃ u, k t h = (u, none) ∧ s.control src p k = u.begin h)) := by
  intro t
  have e : s.control src p k = match t.handed? src p with
      | none => t
      | some h =>
        if !t.rosogServes h || !t.rosogTurn h then t
        else if t.site = stAttaching ∧ !takenAttaching h then t.finishHanded h (.refuse .refusedState)
        else match k t h with
          | (u, some o) => u.finishHanded h o
          | (u, none) => u.begin h := rfl
  rw [e]
  clear_value t
  cases t.handed? src p with
  | none => exact .inl ⟨rfl, rfl⟩
  | some h =>
    refine .inr ⟨h, rfl, ?_⟩
    simp only
    split
    · next hw => exact .inl ⟨by simpa using hw, rfl⟩
    · split
      · next ha => exact .inr (.inl ⟨ha.1, by simpa using ha.2, rfl⟩)
      · split
        · next u o hk => exact .inr (.inr (.inl ⟨u, o, hk, rfl⟩))
        · next u hk => exact .inr (.inr (.inr ⟨u, hk, rfl⟩))

/-! ### The headgate -/

/-- In a site that is awake nothing has to wake. -/
theorem State.wakeFor_awake {s : State} (h : s.Awake) (w : WakeEvent) : s.wakeFor w = s := by
  obtain ⟨-, h⟩ := h
  unfold State.wakeFor State.wakesFrom State.wakes
  rcases h with h | h | h | h <;>
    simp [h, stFlow, stFallow, stDetaching, stAttaching, stEntering, stTrickle, stSlack, stPond, stWaking]

/-- With a full queue a frame is dropped and counted (R393). -/
theorem State.hgFrame_full {s : State} (u : s.HgListens) (typ : Byte) (h : HgHdr) (pl : List Byte) (wf : Bool)
    (run : State → State) (hq : s.hgFull = true) : s.hgFrame typ h pl wf run = s.bump .cstHgSt 0 8 := by
  unfold State.hgFrame
  simp [u.1, State.wakeFor_awake u.2, hq]

/-- A frame in bad form is answered with its CRC error (R393). -/
theorem State.hgFrame_bad {s : State} (u : s.HgListens) (typ : Byte) (h : HgHdr) (pl : List Byte) (wf : Bool)
    (run : State → State) (hq : s.hgFull = false) (hb : wf = false ∨ h.good typ pl = false) :
    s.hgFrame typ h pl wf run = (s.bump .cstHgSt 16 16).hgQueue ⟨typ ||| 0x80, h.fseq, 1, []⟩ := by
  unfold State.hgFrame
  rcases hb with hb | hb <;> simp [u.1, State.wakeFor_awake u.2, hq, hb]

/-- A repeated frame gets its response again; one out of sequence is refused (R393). -/
theorem State.hgFrame_again {s : State} (u : s.HgListens) (typ : Byte) (h : HgHdr) (pl : List Byte)
    (run : State → State) (hq : s.hgFull = false) (hg : h.good typ pl = true) :
    (∀ x, s.hgRepeated h = some x → s.hgFrame typ h pl true run = s.hgQueue x) ∧
    (s.hgRepeated h = none → s.hgNext h = false →
      s.hgFrame typ h pl true run = (s.bump .cstHgSt 8 8).hgQueue ⟨typ ||| 0x80, h.fseq, 2, []⟩) := by
  constructor
  · intro x hx
    unfold State.hgFrame
    simp [u.1, State.wakeFor_awake u.2, hq, hg, hx]
  · intro hx hn
    unfold State.hgFrame
    simp [u.1, State.wakeFor_awake u.2, hq, hg, hx, hn]

/-- A frame taken is run. -/
theorem State.hgFrame_taken {s t : State} {typ : Byte} {h : HgHdr} {pl : List Byte} (run : State → State)
    (ht : s.HgTakes typ h pl t) : s.hgFrame typ h pl true run = run t := by
  obtain ⟨u, hq, hg, hx, hn, rfl⟩ := ht
  unfold State.hgFrame
  simp [u.1, State.wakeFor_awake u.2, hq, hg, hx, hn]

/-- A service packet whose frame is served is decided by `ask`, and answered unless it goes on (R394, R395). -/
theorem State.service_served {s t : State} {h : HgHdr} {p : Packet} {d : List Byte} {w : HgFrame}
    (ask : State → HgFrame → State × Option Outcome) (hw : w.hdr = h ∧ w.pkt = p ∧ w.data = d) (hs : s.HgServes h p d t) :
    s.service w ask = match ask t w with
      | (u, some o) => u.hgReply w o
      | (u, none) => u := by
  obtain ⟨rfl, rfl, rfl⟩ := hw
  obtain ⟨ht, hl, hn, hc⟩ := hs
  unfold State.service
  rw [show decide (w.data.length ≤ 8192) = true from by simpa using hl, State.hgFrame_taken _ ht]
  simp only [hn, Bool.false_eq_true, if_false, State.serve, hc]
  all_goals rfl

end Sys2Proof.Machine
end

