-- ==== Sys2Proof/Laws/Supplies.lean ====
section
/-! SUPPORT. What TRACKING says (R335, R337). -/

namespace Sys2Proof.Machine

/-- SRAM tracking is on where it is enabled, in `FLOW` and `SLACK`, and no suspension runs (R335). -/
theorem State.tracking_eq (s : State) :
    s.tracking = (bit (s.reg .pwrCfg) 40 && (s.site = stFlow || s.site = stSlack) &&
      decide (s.cistern.serviceS ≥ s.power.suspendedUntil)) := by
  have key : ∀ (x : Word64) (b : Bool), bit (setFld x 62 1 b.toNat) 62 = b := by
    intro x b
    unfold bit
    rw [getLsbD_setFld _ _ _ _ _ (by decide)]
    cases b <;> rfl
  unfold State.tracking State.showMargin
  rw [State.reg_putFld_self, key]

end Sys2Proof.Machine
end

