-- ==== Sys2Proof/Tests/Slice0.lean ====
section
/-! SUPPORT. Checks of the model: ill-formed commands, the spec's own examples, and for every statement a state and
operands that meet its hypotheses. Expected values come from the spec's text, not from a run of the model. -/

namespace Sys2Proof.Tests

open Sys2Proof.Machine

set_option Elab.async false

/-! ### States -/

/-- The state an outcome answers. -/
def out (o : Host.Outcome State Fault Refusal) : State :=
  match o with
  | .next t => t
  | _ => State.reset

/-- The site in `FLOW`, attached, with no context. -/
def flow : State := { State.reset.setSite stFlow with attached := true, siteId := 1 }

/-- A resident context with all of basin 0. -/
def own : CtxRec := { CtxRec.absent with resident := true, createNo := 1, mask := 1, len := 131072 }

/-- Context 0 active in basin 0, its levee and allotment all of it, rings of 16 entries. -/
def job : State :=
  { flow with
    active := some 0, ctxs := [(0, own)]
    regs := [(.pwrSt, 0), (.ringSt 0, 1), (.ringCmd 0, BitVec.ofNat 64 (4 * 2 ^ 40)),
      (.ringRpl 0, BitVec.ofNat 64 (4 * 2 ^ 40 + 4)), (.bsnLeveeA 0 0, BitVec.ofNat 64 (2 ^ 63 + 131072 * 2 ^ 32)),
      (.bsnLeveeB 0 0, BitVec.ofNat 64 (16320 * 2 ^ 32 + 4032))] }

/-- A packet with these parameters, the next of a ring that has fetched none. -/
def pk (op : Byte) (params : Nat) : Packet := ⟨op, 0, 0, 0, 1, 0, 0, 0, BitVec.ofNat 384 params⟩

/-- It as fetched. -/
def fe (p : Packet) : Fetched := ⟨p, 0, true, 1, none⟩

/-- A descriptor of a dense I8 tile of `rows` by `cols` elements in one granule at `g` (R37, R58). -/
def tile (g rows cols : Nat) : BitVec 512 := BitVec.ofNat 512 (g + 2 ^ 18 + rows * 2 ^ 64 + cols * 2 ^ 80)

/-- A register's field, after a command. -/
def regAfter (c : Instr) (s : State) (r : Reg) (lo n : Nat) : Nat := (out (exec c s)).rfld r lo n

/-! ### Ill-formed commands: one for each check -/

theorem test_wf_ring : Instr.wf (.ringFetch 9) = false := by decide
theorem test_wf_ring_ok : Instr.wf (.ringFetch 8) = true := by decide
theorem test_wf_src_list : Instr.wf (.nop (.list 0 64) (pk 1 0)) = false := by decide +kernel
theorem test_wf_src_basin : Instr.wf (.nop (.list 64 0) (pk 1 0)) = false := by decide +kernel
theorem test_wf_src_ok : Instr.wf (.nop (.list 63 63) (pk 1 0)) = true := by decide +kernel
theorem test_wf_frame : Instr.wf (.imgAbort ⟨0, 0, 0, 0⟩ (pk 0xC3 0) (List.replicate 8193 0)) = false := by decide +kernel
theorem test_wf_debug : Instr.wf (.hgDebugRead ⟨0, 0, 0, 0⟩ (List.replicate 8257 0)) = false := by decide +kernel
theorem test_wf_request : Instr.wf (.getVersion ⟨9, 0, true, 0, 0, 0x12, 0, true⟩) = false := by decide
theorem test_wf_interface : Instr.wf (.getTdispVersion ⟨8, 0, true, 0, 0, 0x12, 0, true⟩ 8) = false := by decide
theorem test_wf_requester : Instr.wf (.doorbellWrite (.iface 9) 0 0) = false := by decide
theorem test_wf_size_zero : Instr.wf (.windowLoad .core 0 0) = false := by decide
theorem test_wf_size_over : Instr.wf (.windowStore .core 0 65 0) = false := by decide
theorem test_wf_size_ok : Instr.wf (.registerWrite .core 0 8 0) = true := by decide
theorem test_wf_list_slot : Instr.wf (.listFetch 0 64) = false := by decide
theorem test_wf_descriptor : Instr.wf (.descriptorDefine .core 0 16384 0 0) = false := by decide
theorem test_wf_descriptor_word : Instr.wf (.descriptorDefine .core 0 0 8 0) = false := by decide
theorem test_wf_gauge : Instr.wf (.gaugeWindowWrite .core 0 4096 0) = false := by decide
theorem test_wf_right : Instr.wf (.trnLatStRead .core 0 16) = false := by decide
theorem test_wf_stream : Instr.wf (.streamCfgWrite .core 0 256 0) = false := by decide
theorem test_wf_arb : Instr.wf (.arbCfgWrite .core 64 0) = false := by decide
theorem test_wf_remap : Instr.wf (.remapInstall .core 0 260 0 0) = false := by decide
theorem test_wf_remap_entry : Instr.wf (.remapCopy 0 259 4) = false := by decide
theorem test_wf_spare : Instr.wf (.spareCopierRead 0 4) = false := by decide
theorem test_wf_region : Instr.wf (.regionTableWrite .core 64 false 0) = false := by decide
theorem test_wf_levee : Instr.wf (.leveeWrite .core 0 32 false 0) = false := by decide
theorem test_wf_burst : Instr.wf (.burstArrival 0 .window .read 0 5) = false := by decide
theorem test_wf_check : Instr.wf (.checkDecision 0 16) = false := by decide
theorem test_wf_bank : Instr.wf (.parkOnScrubber 0 260) = false := by decide
theorem test_wf_lane : Instr.wf (.mxeRepeat 0 8 .none) = false := by decide
theorem test_wf_upset : Instr.wf (.mxeRepeat 0 0 ⟨[], [(129, 1, 0)]⟩) = false := by decide
theorem test_wf_wrong : Instr.wf (.tileClose 0 [(5376, 0)]) = false := by decide
theorem test_wf_vector_lane : Instr.wf (.vxeRepeat 0 64) = false := by decide
theorem test_wf_slot : Instr.wf (.spareSubstitution 0 20 0) = false := by decide
theorem test_wf_unit : Instr.wf (.infieldTestDue .mxe 0 16384) = false := by decide
theorem test_wf_copy : Instr.wf (.hardenCheck 0 3 0) = false := by decide
theorem test_wf_siphon : Instr.wf (.siphonRequest 32 .window 0 true) = false := by decide
theorem test_wf_block : Instr.wf (.siphonBlockRead 0 16252928 true true false) = false := by decide +kernel
theorem test_wf_block_bytes : Instr.wf (.siphonBlockWrite 0 0 256 ⟨[0], false, false⟩) = false := by decide
theorem test_wf_page : Instr.wf (.combinerFlush 0 1015808) = false := by decide +kernel
theorem test_wf_culvert : Instr.wf (.flitReplay 4) = false := by decide

/-! ### How hypotheses are shown -/

/-- `State.Takes` as a check, its state the one after the fetch. -/
def takes (s : State) (src : Src) (p : Packet) (f : Fetched) : Bool :=
  let t := s.fetched src p
  decide (s.buffered src = 0) &&
    (match src with
      | .ring r => s.ringFetchable r
      | .list b k => (s.list? b k).any s.listFetchable
      | .headgate => false) &&
    decide (t.head? src = some f) && decide (f.pkt = p) && decide (t.commonCheck src f = none) &&
    decide (t.lists.all fun l => l.ending = none) && decide (t.flights.all fun g => g.phase ≠ .run ∧ g.waiting = false) &&
    decide (p.op < 0x40 → t.streamCheck src p = none)

theorem takes_sound {s : State} {src : Src} {p : Packet} {f : Fetched} (h : takes s src p f = true) :
    s.Takes src p (s.fetched src p) f := by
  simp only [takes, Bool.and_eq_true, decide_eq_true_eq, List.all_eq_true] at h
  obtain ⟨⟨⟨⟨⟨⟨⟨h1, h2⟩, h3⟩, h4⟩, h5⟩, h6⟩, h7⟩, h8⟩ := h
  refine ⟨⟨h1, ?_, rfl, h3, h4, h5, fun l hl => h6 l hl, fun g hg => h7 g hg⟩, h8⟩
  cases src with
  | ring r => exact h2
  | list b k => exact h2
  | headgate => cases h2

/-- The state in which Rosog meets a packet. -/
def met (s : State) (src : Src) (p : Packet) : State := if (s.handed? src p).isSome then s else s.arrive src p

/-- `State.Serves` as a check. -/
def serves (s : State) (src : Src) (p : Packet) (h : Handed) : Bool :=
  let t := met s src p
  decide (t.handed? src p = some h) && t.rosogServes h && t.rosogTurn h &&
    decide (t.site = stAttaching → takenAttaching h = true) && decide (t.lists.all fun l => l.ending = none) &&
    (match src with
      | .ring _ => true
      | .list b k => (t.list? b k).isSome && decide (t.spawnOf src = h.spawn)
      | .headgate => false)

theorem serves_sound {s : State} {src : Src} {p : Packet} {h : Handed} (e : serves s src p h = true) :
    s.Serves src p (met s src p) h := by
  simp only [serves, Bool.and_eq_true, decide_eq_true_eq, List.all_eq_true] at e
  obtain ⟨⟨⟨⟨⟨h1, h2⟩, h3⟩, h4⟩, h5⟩, h6⟩ := e
  refine ⟨rfl, h1, h2, h3, h4, fun l hl => h5 l hl, ?_⟩
  cases src with
  | ring r => trivial
  | list b k => simpa using h6
  | headgate => cases h6

/-- The frame header that goes with a payload: its length and CRC. -/
def hdr (typ seq : Byte) (pl : List Byte) : HgHdr :=
  let h : HgHdr := ⟨seq, BitVec.ofNat 16 pl.length, 0, 0⟩
  { h with crc := BitVec.ofNat 32 (crc32c (h.bytes typ ++ pl)) }

/-! ### A state and operands for each statement's hypotheses -/

theorem witness_StepRunsFront : ({ State.reset with pending := [.tapReset, .mgtNonce] }).pending = .tapReset :: [.mgtNonce] := rfl

/-- An idle step, with the flow clock running and, unpowered, with it stopped. -/
theorem witness_IdleStepIsOneCycle :
    (flow.pending = [] ∧ flow.NothingDue ∧ flow.flowRuns = true) ∧
    (let s := { flow with start := { flow.start with clockLost := true } }
     s.NothingDue ∧ s.flowRuns = false) := by
  unfold State.NothingDue
  refine ⟨⟨rfl, ?_, ?_⟩, ?_, ?_⟩ <;> decide +kernel

theorem witness_TestPort :
    flow.start.pwrGood = true ∧ flow.start.resetAsserted = false ∧ flow.testEn = false ∧
    ({ flow with start := { flow.start with resetAsserted := true } }).start.resetAsserted = true ∧
    (flow.putFld .secSt 7 1 1).testEn = true := by
  refine ⟨rfl, rfl, ?_, rfl, ?_⟩ <;> decide +kernel

theorem witness_CommonCommandCodes :
    flow.mgtUp = true ∧ flow.mgt.dyn = none ∧ ({ flow with mgt := { flow.mgt with dyn := some 0x08 } }).mgt.dyn ≠ none := by
  refine ⟨by decide +kernel, rfl, by decide⟩

/-- The site with its owner on the bus, and an entry under way. -/
def owned : State := { flow with mgt := { flow.mgt with owner := true }, regs := (.pwrMargin, 0) :: flow.regs }
def ownedEntering : State := { owned with power := { owned.power with entry := some ⟨1, 3, none, 0, false, 0, false, false⟩ } }

/-- Awake; the last nonce answered rightly and wrongly; no owner; the smallest and the largest state asked for; asleep in
`DRY` under its own address. -/
theorem witness_OwnerRoleAndBusState :
    (flow.mgtUp = true ∧ flow.Awake ∧ flow.fresh = [] ∧ flow.mgt.owner = false) ∧
    (∀ n : BitVec 128, ({ flow with mgt := { flow.mgt with nonce := some n } }).mgt.nonce = some n) ∧
    (∀ n : BitVec 128, ({ flow with mgt := { flow.mgt with nonce := some n } }).mgt.nonce = some n ∧
      Config.ownerHmac n Config.serial + 1 ≠ Config.ownerHmac n Config.serial) ∧
    (0 < (1 : Byte).toNat ∧ (6 : Byte).toNat ≤ 6) ∧
    ((flow.setSite stDry).site = stDry ∧ (flow.setSite stDry).start.pwrGood = true ∧
      ({ flow.setSite stDry with mgt := { flow.mgt with dyn := some 0x08 } }).mgt.dyn = some 0x08 ∧ (0x08 : BitVec 7) ≠ 0x7E) ∧
    (flow.setSite stSlack).mgtUp = true ∧ (flow.setSite stPond).mgtUp = true ∧ (flow.setSite stTrickle).mgtUp = true := by
  refine ⟨⟨by decide +kernel, ?_, rfl, rfl⟩, fun n => rfl, fun n => ⟨rfl, fun h => ?_⟩, by decide,
    ⟨by decide +kernel, rfl, rfl, by decide⟩, ?_, ?_, ?_⟩
  · unfold State.Awake; decide +kernel
  · have := congrArg (· - Config.ownerHmac n Config.serial) h
    simp at this
  all_goals decide +kernel

/-- What the owner asks for: an entry, with no precondition in its way and with the thermal trip; one thing at a time; a re-test and the
end of a detach; neither. -/
theorem witness_OwnerRoleAndBusState_owner :
    (owned.mgtUp = true ∧ owned.mgt.owner = true ∧ owned.stateBusy = false ∧ owned.start.released = true ∧ owned.Awake ∧
      owned.site ≠ stFallow ∧ owned.site ≠ stDetaching ∧ owned.entryCondition 1 = none ∧ owned.entryCondition 4 = none ∧
      ({ owned with start := { owned.start with thermTrip := true } }).entryCondition 4 = some 7) ∧
    (ownedEntering.mgtUp = true ∧ ownedEntering.stateBusy = true) ∧
    ((owned.setSite stFallow).mgtUp = true ∧ (owned.setSite stFallow).stateBusy = false ∧ (owned.setSite stFallow).site = stFallow) ∧
    (let s := { owned.setSite stDetaching with start := { flow.start with fenceReq := false } }
     s.mgtUp = true ∧ s.site = stDetaching ∧ s.start.fenceReq = false ∧ s.start.fencing = false ∧ s.start.noReturn = false) := by
  unfold State.Awake
  refine ⟨?_, ?_, ?_, ?_⟩ <;> decide +kernel

/-- Within reach (PWR_CAP, by the owner, at both ends of its range), and beyond it (CTL_REMAP). -/
theorem witness_BusReadsAndWrites :
    (flow.mgtUp = true ∧ flow.AtRest ∧ flow.placeOf Reg.pwrCap.addr.toNat 8 = .reg .pwrCap 0 ∧
      flow.mgtReg .pwrCap false = true) ∧
    (({ flow with mgt := { flow.mgt with owner := true } }).mgt.owner = true ∧
      150 ≤ (BitVec.ofNat 64 (150 * 2 ^ 48)).toNat / 2 ^ 48 ∧ (BitVec.ofNat 64 (620 * 2 ^ 48)).toNat / 2 ^ 48 ≤ 620) ∧
    (flow.placeOf Reg.ctlRemap.addr.toNat 8 = .reg .ctlRemap 0 ∧ flow.mgtReg .ctlRemap false = false ∧
      flow.mgtReg .ctlRemap true = false ∧ Reg.ctlRemap.block ≠ .sec) ∧
    (flow.mgtReg .devMgtAlert true = true ∧ flow.placeOf Reg.devMgtAlert.addr.toNat 8 = .reg .devMgtAlert 0 ∧ flow.fresh = []) := by
  refine ⟨⟨by decide +kernel, fun f h => (List.not_mem_nil h).elim, by decide +kernel, by decide +kernel⟩, ⟨rfl, ?_, ?_⟩, ?_, ?_⟩ <;>
    decide +kernel

/-- A handover in its step `k`, its window of 5000 µs opened at the start. -/
def moving (k : Nat) : State := { flow with handover := some ⟨k, ⟨⟨0, 0, 0, 0⟩, pk 0xC4 0, [], true, 5000⟩, 0⟩ }
/-- A plain request, of certificate slot 0, and one in a session. -/
def ask (p1 p2 : Byte) : SpdmReq := ⟨8, 0, true, p1, p2, 0x12, 0, true⟩
def askIn (i : BitVec 32) : SpdmReq := ⟨8, i, true, 1, 0xFF, 0x13, 0, true⟩
/-- A finished, attested session of ring 8. -/
def talk (fin att : Bool) : State := { job with spdm := { flow.spdm with sessions := [⟨1, 8, fin, att⟩] } }

theorem plain_hears (p1 p2 : Byte) : flow.Hears (ask p1 p2) := ⟨rfl, by decide +kernel, by decide +kernel, .inl rfl⟩
theorem plain_listens (p1 p2 : Byte) : flow.Listens (ask p1 p2) := ⟨plain_hears p1 p2, .inl rfl⟩

theorem witness_ResponderAnswers :
    (flow.Hears { ask 0 0 with version := 0x11 } ∧ ({ ask 0 0 with version := 0x11 }).version ≠ 0x12 ∧
      ({ ask 0 0 with version := 0x11 }).version ≠ 0x13) ∧ flow.Listens (ask 0xF0 0) ∧ (ask 0xF0 0).param1.toNat % 16 = 0 ∧
      flow.Listens (ask 0x0F 0) ∧ (ask 0x0F 0).param1.toNat % 16 ≠ 0 :=
  ⟨⟨⟨rfl, by decide +kernel, by decide +kernel, .inl rfl⟩, by decide, by decide⟩, plain_listens _ _, by decide,
    plain_listens _ _, by decide⟩

/-- Room for one session more, none; a session to finish and end; all measurements; a kept request, its token, another. -/
theorem witness_SessionsAndTransitions :
    (flow.Listens (ask 1 0xFF) ∧ (ask 1 0xFF).slot.toNat % 16 = 0 ∧ (flow.measurementsOf 0xFF).isSome ∧
      flow.Listens (ask 1 0xF0) ∧ flow.spdm.sessions.length < 8 ∧ (ask 1 0xF0).param2.toNat % 16 = 0 ∧
      (ask 1 0xFF).param2.toNat % 16 ≠ 0) ∧
    8 ≤ ({ flow with spdm := { flow.spdm with sessions := List.replicate 8 ⟨1, 8, true, true⟩ } }).spdm.sessions.length ∧
    ((talk false false).Listens (askIn 1) ∧ (talk true false).session? (askIn 1).session.toNat = some ⟨1, 8, true, false⟩) ∧
    (let s := { flow with spdm := { flow.spdm with held := [(7, ask 0 7, .getVersion)] } }
     s.start.released = true ∧ s.scrubbing = false ∧ s.heldOf 8 = some (7, ask 0 7, .getVersion) ∧ (ask 0 7).param2.toNat = 7 ∧
      s.notReadyNow = false ∧ (ask 0 7).session = 0 ∧ ({ s with controlDown := true }).notReadyNow = true ∧
      ({ s with controlDown := true }).scrubbing = false ∧ (moving 4).notReadyNow = true ∧ (ask 0 8).param2.toNat ≠ 7) := by
  refine ⟨⟨plain_listens 1 0xFF, by decide, by decide +kernel, plain_listens 1 0xF0, by decide +kernel⟩, by decide +kernel,
    ⟨⟨⟨rfl, by decide +kernel, by decide +kernel, .inr ⟨⟨1, 8, false, false⟩, by decide +kernel, rfl, rfl⟩⟩, .inr rfl⟩,
      by decide +kernel⟩, ?_⟩
  decide +kernel

/-- The scrub of context `c`, begun in cycle 0, in the cycle T_SCRUB. -/
def scrubEnding (c : Nat) (what : ScrubFor) (es : List (Nat × Nat × Word64 × Word64)) (s : State) : State :=
  { s.setSite stScrub with cycle := s.tScrub, scrubs := [⟨c, what, some (0, 0, stFlow), es⟩] }

theorem scrub_ends {s : State} {c : Nat} {what : ScrubFor} {es : List (Nat × Nat × Word64 × Word64)}
    (h1 : (scrubEnding c what es s).site = stScrub) (h2 : s.power.divWait = none) (h3 : s.flights = []) (h4 : s.culverts = []) :
    (scrubEnding c what es s).ScrubEnds ⟨c, what, some (0, 0, stFlow), es⟩ 0 stFlow s.hg.unlock :=
  ⟨rfl, ⟨0, rfl⟩, .inl rfl, h1, (Nat.zero_add _).symm, rfl, h2, h3,
    fun k _ => by simp [State.culvert, scrubEnding, State.setSite, h4, Culvert.idle]⟩

/-- What a scrub took away, as it comes back. -/
def tookLevee : List (Nat × Nat × Word64 × Word64) := [(0, 0, job.reg (.bsnLeveeA 0 0), job.reg (.bsnLeveeB 0 0))]

theorem job_settles : job.MayScrub := ⟨rfl, rfl, .inl (by decide +kernel)⟩

/-- An attested session of ring 8, the interface of a resident context in each of its states; a stop's scrub that ends. -/
theorem witness_TdispRequests :
    (scrubEnding 7 (.stop none) tookLevee flow).ScrubEnds ⟨7, .stop none, some (0, 0, stFlow), tookLevee⟩ 0 stFlow none ∧
    (tookLevee.map fun e => (e.1, e.2.1)).Nodup ∧ (talk true true).MayScrub ∧ (askIn 1).entropyOk = true ∧
    (talk true true).ListensTdisp (askIn 1) 0 ∧ (talk true true).tdisp 0 = 0 ∧
      ((talk true true).reg .secObsCfg).getLsbD 0 = false ∧ ((talk true true).putFld (.secCtxSt 0) 4 4 1).tdisp 0 = 1 ∧
      ((talk true true).putFld (.secCtxSt 0) 4 4 3).tdisp 0 ≠ 0 := by
  refine ⟨scrub_ends ?_ rfl rfl rfl, ?_, ⟨rfl, rfl, .inl ?_⟩, rfl,
    ⟨⟨⟨rfl, ?_, ?_, .inr ⟨⟨1, 8, true, true⟩, ?_, rfl, rfl⟩⟩, .inr rfl⟩, ?_, ?_, ?_⟩, ?_, ?_, ?_, ?_⟩ <;>
    decide +kernel

theorem witness_RegisterMap :
    SiteConfig.standard.wf = true ∧ (Reg.trnStreamCfg 63 255).Built .standard ∧ (Reg.devId).Built .standard := by
  refine ⟨by decide +kernel, ?_, ?_⟩
  · unfold Reg.Built; decide
  · unfold Reg.Built; decide

/-- At reset no protection entry is on. -/
theorem core_free {s : State} (h : s.core = CtlCore.reset) : s.CoreFree := by
  intro k a n
  have hr : ∀ i ∈ List.range 16, CtlCore.reset.pmpRange i = (0, 0) := by decide
  unfold CtlCore.permits
  dsimp only
  rw [h, List.find?_eq_none.mpr]
  · rfl
  · intro i hi
    simp [hr i hi]

theorem job_quiet : job.Quiet := ⟨⟨rfl, by decide +kernel⟩, fun _ h => (List.not_mem_nil h).elim, core_free rfl⟩
theorem flow_quiet : flow.Quiet := ⟨⟨rfl, by decide +kernel⟩, fun _ h => (List.not_mem_nil h).elim, core_free rfl⟩

theorem iface_onSite (k a n : Nat) : OnSite (.iface k) a n :=
  ⟨fun h => Requester.noConfusion h, fun h => Requester.noConfusion h, fun h => Requester.noConfusion h, fun h => Requester.noConfusion h⟩

/-- Its sender's beat of the present cycle is at hand, to read or to write word `w` of basin 0. -/
def atBeat (who : BurstSrc) (write : Bool) (w : Nat) (s : State) : State :=
  { s with beats := [{ Beat.lone 0 0 0 write ditchTurnout s.cycle with who := some who, word := w, done := false }] }
/-- The beat the headgate has taken. -/
def taken (write : Bool) (w : Nat) (s : State) : State :=
  let pb := s.physBank 0 (s.bankRow 0 w).1
  { s with beats := [{ Beat.lone 0 ((s.bankRow 0 w).1 / 16) pb write headgateTurnout s.cycle with word := w, done := false }] }

/-- What an access that has its beat leaves. -/
def ready (s : State) (who : Requester) (a n : Nat) (write : Bool) : State := (s.accessReady who a n write).1

theorem performs {s : State} {who : Requester} {a n : Nat} {write : Bool} (h : s.Awake)
    (e : (s.accessReady who a n write).2 = true) (g : (ready s who a n write).Awake)
    (c : (ready s who a n write).core = CtlCore.reset) : s.Performs who a n write (ready s who a n write) :=
  ⟨h, Prod.ext rfl e, g, core_free c⟩

/-- The last eight bytes of the first word, and the last byte of the basin; the headgate's taken bank; a store that waits; the core's
data RAM, an address of no local store, and a misaligned one. -/
theorem witness_MemoryStores :
    (let s := atBeat .window true 0 job
     let u := ready s (.iface 0) 0x38 8 true
     s.Awake ∧ s.CoreFree ∧ s.Performs (.iface 0) 0x38 8 true u ∧ u.memoryUp = true ∧ u.placeOf (0x38 : Addr).toNat 8 = .mem 0 0x38 ∧
      0x38 % 64 + 8 ≤ 64 ∧ u.landBeats.AtRest ∧ u.landBeats.Plain 0 0 ∧ u.reaches (.iface 0) (.mem 0 0x38) 8 true = true) ∧
    (let s := atBeat .window true 524287 job
     (s.accessReady (.iface 0) 0x1FFFFFF 1 true).2 = true ∧ job.placeOf (0x1FFFFFF : Addr).toNat 1 = .mem 0 0x1FFFFFF ∧
      job.reaches (.iface 0) (.mem 0 0x1FFFFFF) 1 true = true) ∧
    ((taken true 0 job).accessReady .headgate 0x38 8 true).2 = true ∧ (job.accessReady (.iface 0) 0x38 8 true).2 = false ∧
    (job.windowUp = true ∧ siteOf 0x27FFF8 = none ∧ job.localAccess .store 0x27FFF8 8 = .ok (.dataRam 0x7FFF8) ∧
      job.localAccess .store 0x280000 8 = .error 7 ∧ job.localAccess .store 0x200001 8 = .error 6 ∧
      siteOf 0x2000000000000 = none ∧ job.localAccess .store 0x2000000000000 8 = .error 7) ∧
    (siteOf 0x1FFFFFFFFFFFF = some 0xFFFFFFFFFFFF ∧ job.coreCheck .store 0x1FFFFFFFFFFFF 2 = some 6) := by
  have aw : (atBeat .window true 0 job).Awake := ⟨rfl, by decide +kernel⟩
  refine ⟨⟨aw, core_free rfl, performs aw ?_ ⟨?_, ?_⟩ ?_, ?_, ?_, by decide, fun f h => ?_, ?_, ?_⟩, ?_, ?_, ?_,
    ⟨by decide +kernel, rfl, rfl, rfl, rfl, rfl, rfl⟩, rfl, rfl⟩
  case refine_7 =>
    have e : (ready (atBeat .window true 0 job) (.iface 0) 0x38 8 true).landBeats.flights = [] := by decide +kernel
    rw [e] at h
    exact (List.not_mem_nil h).elim
  all_goals try unfold State.Plain
  all_goals decide +kernel

/-- A byte beyond the last basin, and one in the part of the map that holds nothing. -/
theorem witness_DecodeErrorsAnswered :
    flow.Awake ∧ flow.CoreFree ∧ OnSite (.iface 8) 0x800000000000 8 ∧ flow.placeOf (0x800000000000 : Addr).toNat 8 = .nowhere ∧ flow.placeOf (0x0FFFFFFFFFFF : Addr).toNat 1 = .nowhere ∧
      bit (flow.reg .errDecodeAddr) 63 = false := by
  refine ⟨flow_quiet.1, flow_quiet.2.2, iface_onSite 8 _ _, ?_⟩
  decide +kernel

/-- A register met by a whole access of the core. -/
theorem core_meets {s : State} {r : Reg} {n : Nat} {w : Bool} (h : s.placeOf r.addr.toNat n = .reg r 0) : s.Meets .core r n w :=
  ⟨h, rfl⟩

theorem witness_WindowLoads :
    ((atBeat .window false 0 job).Quiet ∧
      (let u := ready (atBeat .window false 0 job) (.iface 0) 0x38 8 false
       (atBeat .window false 0 job).Performs (.iface 0) 0x38 8 false u ∧ u.placeOf (0x38 : Addr).toNat 8 = .mem 0 0x38 ∧
        u.reaches (.iface 0) (.mem 0 0x38) 8 false = true ∧ u.memoryUp = true ∧ u.Plain 0 0) ∧
      (job.accessReady (.iface 0) 0x38 8 false).2 = false) ∧
    (job.placeOf (0x38 : Addr).toNat 8 ≠ .nowhere ∧ job.reaches (.iface 1) (job.placeOf (0x38 : Addr).toNat 8) 8 false = false) ∧
    flow.Meets .core (.trnLatSt 63 15) 8 false ∧
    (job.windowUp = true ∧ job.localAccess .load 0x200000 8 = .ok (.dataRam 0) ∧ job.localAccess .fetch 0 2 = .ok (.rom 0) ∧
      job.localAccess .load 0x10000 8 = .error 5 ∧ job.localAccess .fetch 1 2 = .error 0) := by
  have aw : (atBeat .window false 0 job).Awake := ⟨rfl, by decide +kernel⟩
  refine ⟨⟨⟨aw, fun _ h => (List.not_mem_nil h).elim, core_free rfl⟩,
    ⟨performs aw ?_ ⟨?_, ?_⟩ ?_, ?_, ?_, ?_, ?_⟩, ?_⟩, by decide +kernel, core_meets ?_, ?_, rfl, rfl, rfl, rfl⟩
  all_goals try unfold State.Plain
  all_goals decide +kernel

/-- First and last of each kind; a tenant's store to a configuration register. -/
theorem witness_ConfigurationStores :
    (flow.Meets .core (.bsnTileCfg 0) 8 true ∧ flow.Meets .core (.trnQosMap 63) 8 true ∧ flow.Meets .core (.culCfg 3) 8 true) ∧
    (flow.Meets .core (.trnRegCfg 63) 8 true ∧ flow.Meets .core (.trnOtCfg 0 46) 8 true ∧
      flow.Meets .core (.trnLatCfg 63 15) 8 true) ∧
    (flow.Meets .core (.sphRgnA 0) 8 true ∧ flow.Meets .core (.sphRgnB 63) 8 true) ∧
    (flow.Meets .core (.bsnLeveeA 63 31) 8 true ∧ flow.Meets .core (.bsnLeveeB 0 0) 8 true) ∧ flow.fresh = [] ∧
    (flow.Meets .core .devMgtAlert 8 true ∧ Reg.devMgtAlert.access.writer = .anyone ∧ Reg.devMgtAlert.access.w1c ≠ 0 ∧
      flow.Meets .core (.bsnScrubSt 63) 8 true ∧ (Reg.bsnScrubSt 63).access.writer = .anyone ∧
      (Reg.bsnScrubSt 63).access.counter ≠ 0 ∧ flow.Meets .core .devId 8 true ∧ Reg.devId.access = .ro) ∧
    (job.Quiet ∧ job.Meets (.iface 0) (.ringSt 0) 8 true) ∧
    (flow.placeOf (Reg.bsnTileCfg 0).addr.toNat 8 = .reg (.bsnTileCfg 0) 0 ∧ (Reg.bsnTileCfg 0).access.writer = .rosog) ∧
    (job.placeOf (Reg.ringCmd 0).addr.toNat 8 = .reg (.ringCmd 0) 0 ∧ (Reg.ringCmd 0).access.writer = .rosog ∧
      (Reg.ringCmd 0).block = .ring 0 ∧ job.reaches (.iface 0) (.reg (.ringCmd 0) 0) 8 true = true) := by
  refine ⟨⟨core_meets ?_, core_meets ?_, core_meets ?_⟩, ⟨core_meets ?_, core_meets ?_, core_meets ?_⟩,
    ⟨core_meets ?_, core_meets ?_⟩, ⟨core_meets ?_, core_meets ?_⟩, rfl, ⟨core_meets ?_, ?_, ?_, core_meets ?_, ?_, ?_,
    core_meets ?_, ?_⟩, ⟨job_quiet, ?_, ?_⟩, ?_, ?_⟩ <;> decide +kernel

/-- In test enable and outside it; an entry beyond the last physical bank's is not met. -/
theorem witness_BasinStores :
    (flow.Meets .core (.trnStreamCfg 63 255) 8 true ∧ flow.Meets .core (.bsnArbCfg 63) 8 true ∧
      flow.Meets .core (.bsnFlipCfg 0) 8 true ∧ flow.Meets .core (.bsnScrubCfg 0) 8 true) ∧
    (flow.testEn = false ∧ (flow.putFld .secSt 7 1 1).testEn = true ∧ (flow.putFld .secSt 7 1 1).Meets .core (.bsnFlipCfg 0) 8 true) ∧
    (flow.Meets .core (.bsnRemap 0 0 3) 8 true ∧ flow.stored (.bsnRemap 0 0 3) (BitVec.ofNat 64 (2 ^ 63)) ≠ flow.reg (.bsnRemap 0 0 3)) ∧
    (flow.Meets .core (.bsnSpareMap 0) 8 true ∧ flow.reg (.bsnSpareMap 0) = 0 ∧ fld (BitVec.ofNat 64 (2 ^ 14 + 255)) 14 2 = 1 ∧
      fld (BitVec.ofNat 64 (2 ^ 14 + 255)) 30 2 = 0 ∧ fld (BitVec.ofNat 64 (2 ^ 14 + 255)) 46 2 = 0 ∧
      fld (BitVec.ofNat 64 (2 ^ 14 + 255)) 62 2 = 0) := by
  refine ⟨⟨core_meets ?_, core_meets ?_, core_meets ?_, core_meets ?_⟩, ⟨?_, ?_, core_meets ?_⟩, ⟨core_meets ?_, ?_⟩,
    core_meets ?_, ?_⟩ <;> decide +kernel

/-- The keeper's load above its low limit (36) and below it; a request granted as asked and otherwise. -/
def light : State := { flow with power := { flow.power with sensorsOn := false, driversOn := false } }
def asked : State := { flow with power := { flow.power with supply := some ⟨144, 140, 0, false⟩ } }

theorem witness_ControlStores :
    (flow.Meets .core .ctlRemap 8 true ∧ flow.Meets .core .pwrKeeper 8 true ∧ flow.Meets .core .pwrCap 8 true) ∧
    (light.Meets .core .pwrKeeper 8 true ∧ light.loadMa ≤ 36 ∧ 36 < flow.loadMa) ∧
    flow.Meets .mgt .pwrVreq 8 true ∧
    (({ flow with mgt := { flow.mgt with owner := true } }).Meets .mgt .secObsCfg 8 true) ∧
    (asked.Meets .mgt .pwrVreq 8 true ∧ asked.power.supply = some ⟨144, 140, 0, false⟩ ∧ asked.power.entry = none ∧
      asked.power.sramWant = 0 ∧ fld (BitVec.ofNat 64 (asked.coreReq * 2 ^ 16 + asked.sramReq * 2 ^ 24)) 16 8 = asked.coreReq ∧
      fld (BitVec.ofNat 64 (asked.coreReq * 2 ^ 16 + asked.sramReq * 2 ^ 24)) 24 8 = asked.sramReq ∧
      fld (0 : Word64) 16 8 ≠ asked.coreReq) := by
  refine ⟨⟨core_meets ?_, core_meets ?_, core_meets ?_⟩, ⟨core_meets ?_, ?_⟩, ⟨?_, ?_⟩, ⟨?_, ?_⟩, ⟨?_, ?_⟩, ?_⟩ <;> decide +kernel

/-- A descriptor idle and one with a write open; a gauge of the context. -/
theorem witness_DescriptorsAndGaugesWritten :
    (job.memoryUp = true ∧ 0 < job.cfg.basins ∧ job.cfg.basins ≤ 64 ∧ job.live 0 = true ∧ job.live 63 = true ∧
      job.descBusy .core 0 16383 = false) ∧
    (job.putDesc 0 5 (setBit (tile 16 1 32) 120 true)).descBusy .core 0 5 = true ∧
    (job.reaches (.iface 0) (.gauge 0 4031 0) 8 true = true ∧ job.waits = [] ∧ job.reaches .core (.gauge 63 4095 0) 8 true = true) := by
  refine ⟨?_, ?_, ?_⟩ <;> decide +kernel

/-- A reply that waits. -/
def rep : Reply := ⟨0x01, .ok, 0, false, false, 0, 1, 0, 0, 0, 0, 0, 0⟩
/-- A list in slot 0 of basin 0, at the start of the basin. -/
def run0 : ListRun := ⟨0, 0, 0, 1, 0, 0, [], .ring 0, 0, pk 8 0, 0, 0, [], false, none, 0, 0, 0, 0⟩
def listed : State := { job with lists := [run0] }

/-- A ring with a packet posted, and one with a reply waiting. -/
def posted : State := job.putFld (.ringDb 0) 0 32 1
def replying (s : State) : State := s.putRing 0 { RingRun.empty with waiting := [rep] }

/-- A pointer in the ring and one behind it; fetches with their beat at hand and not; a list's from where it may and may not; a packet
held 100 µs; a reply waiting. -/
theorem witness_RingsMove :
    (job.Meets (.iface 0) (.ringDb 0) 4 true ∧ job.Meets (.iface 0) (.ringRhead 0) 4 true ∧ job.ringState 0 ≠ 0 ∧
      ((16 : BitVec 32).toNat + 2 ^ 32 - job.ringHead 0) % 2 ^ 32 ≤ 2 ^ job.rfld (.ringCmd 0) 40 4 ∧
      ¬ ((17 : BitVec 32).toNat + 2 ^ 32 - job.ringHead 0) % 2 ^ 32 ≤ 2 ^ job.rfld (.ringCmd 0) 40 4) ∧
    (let s := atBeat (.fetch (.ring 0)) false 0 posted
     let r := s.beatFor 0 (.fetch (.ring 0)) .read 0 1
     s.ringFetchable 0 = true ∧ s.ringHead 0 ≠ s.ringTail 0 ∧ s.rfld (.ringCmd 0) 48 8 = 0 ∧
      (s.rfld (.ringCmd 0) 0 18 * 256 + s.ringHead 0 % 2 ^ s.rfld (.ringCmd 0) 40 4 * 64) / 64 = 0 ∧ r.2 = true ∧ r.1.Plain 0 0) ∧
    (posted.beatFor 0 (.fetch (.ring 0)) .read (posted.slotWord 0 false) 1).2 = false ∧
    (let s := atBeat (.fetch (.list 0 0)) false 0 listed
     let r := s.beatFor 0 (.fetch (.list 0 0)) .read (run0.pc / 64) 1
     s.list? 0 0 = some run0 ∧ s.listFetchable run0 = true ∧ run0.buf.any (·.err.isSome) = false ∧ s.listPlace run0 = none ∧
      run0.pc % 64 = 0 ∧ r.2 = true ∧ r.1.Plain 0 (run0.pc / 64)) ∧
    ({ job with lists := [{ run0 with pc := 2 ^ 25 }] }).listPlace { run0 with pc := 2 ^ 25 } = some .badParam ∧
    (let h : Handed := ⟨.ring 0, 0, pk 0x40 0, 0, 0, 0, 0, some 0, false, true⟩
     let s := (atBeat (.fetch (.ring 0)) true (job.slotWord 0 true) { job with handed := [h] }).putReg .clkRootCnt 600000
     s.handed.find? s.acceptable = some h ∧ (s.replyBeat 0).2 = true) ∧
    (let s := replying (atBeat (.fetch (.ring 0)) true (job.slotWord 0 true) job)
     s.replyDue 0 = true ∧ (s.replyBeat 0).2 = true ∧ ((s.replyBeat 0).1.ring 0).waiting = [rep]) ∧
    ((replying job).replyDue 0 = true ∧ ((replying job).replyBeat 0).2 = false) := by
  refine ⟨⟨⟨?_, ?_⟩, ⟨?_, ?_⟩, ?_⟩, ?_, ?_, ?_, ?_, ?_, ?_, ?_⟩
  all_goals try unfold State.Plain
  all_goals decide +kernel

/-- A head that fails a check, a control packet, a `NOP`. -/
def atHead (p : Packet) : State := job.putRing 0 { RingRun.empty with buf := [fe p], reserved := 1 }

theorem witness_Dispatches :
    ((atHead (pk 0xFF 0)).head? (.ring 0) = some (fe (pk 0xFF 0)) ∧
      (atHead (pk 0xFF 0)).Turn (.ring 0) ∧
      (atHead (pk 0xFF 0)).commonCheck (.ring 0) (fe (pk 0xFF 0)) = some .badOpcode ∧ Status.badOpcode.failed = true) ∧
    ((atHead (pk 0x40 0)).head? (.ring 0) = some (fe (pk 0x40 0)) ∧ (atHead (pk 0x40 0)).Turn (.ring 0) ∧
      (atHead (pk 0x40 0)).commonCheck (.ring 0) (fe (pk 0x40 0)) = none) ∧
    ((atHead (pk 0x01 0)).head? (.ring 0) = some (fe (pk 0x01 0)) ∧ (atHead (pk 0x01 0)).Turn (.ring 0) ∧
      (atHead (pk 0x01 0)).commonCheck (.ring 0) (fe (pk 0x01 0)) = none ∧
      (atHead (pk 0x01 0)).streamCheck (.ring 0) (pk 0x01 0) = none ∧ (atHead (pk 0x01 0)).lists = []) ∧ (atHead (pk 0x01 0)).AtRest := by
  refine ⟨?_, ?_, ?_, fun _ h => (List.not_mem_nil h).elim⟩
  all_goals try unfold State.Turn
  all_goals decide +kernel

/-! ### Packets and tiles -/

/-- Tiles 0 and 1 of basin 0, the first written. -/
def tile0 : BitVec 512 := tile 16 1 32 + BitVec.ofNat 512 (33 * 2 ^ 24)
def tiled : State := (job.putDesc 0 0 tile0).putDesc 0 1 (tile 17 1 32)

/-- `MOVE`, `FILL` of one tile, from 0 to 1, on any flume. -/
def moveP : Packet := pk 0x10 (2 ^ 16 + 2 ^ 32 + 2 ^ 58)
def fillP : Packet := pk 0x14 (2 ^ 16 + 2 ^ 32 + 2 ^ 58)

/-- A packet of ring 0 in flight, its plan and phase given. -/
def flying (p : Packet) (plan : List PStep) (ph : Phase) : Flight :=
  { tiled.flightOf (.ring 0) (fe p) p [⟨.flume, 0, 0⟩] plan 0 [] with phase := ph }
def inAir (f : Flight) : State := { tiled with flights := [f], nextFlight := 1 }

theorem witness_NopAndFence :
    job.Takes (.ring 0) { pk 0x01 0 with opcode := 0x01 } (job.fetched (.ring 0) (pk 0x01 0)) (fe (pk 0x01 0)) ∧
    (job.Takes (.ring 0) { pk 0x02 0 with opcode := 0x02 } (job.fetched (.ring 0) (pk 0x02 0)) (fe (pk 0x02 0)) ∧
      (job.fetched (.ring 0) (pk 0x02 0)).inFlight (.ring 0) = 0) ∧
    (let s := inAir (flying moveP [] (.reading 0 0))
     s.Takes (.ring 0) { pk 0x02 0 with opcode := 0x02 } (s.fetched (.ring 0) (pk 0x02 0)) (fe (pk 0x02 0)) ∧
      (s.fetched (.ring 0) (pk 0x02 0)).inFlight (.ring 0) ≠ 0) ∧
    (∃ t, job.Offers (.ring 0) { pk 0x01 1 with opcode := 0x01 } t (fe (pk 0x01 1)) ∧ (fe (pk 0x01 1)).pkt.reservedClear [] = false) ∧
    (listed.Takes (.list 0 0) { pk 0x01 0 with opcode := 0x01 } (listed.fetched (.list 0 0) (pk 0x01 0)) ⟨pk 0x01 0, 0, true, 0, none⟩) := by
  refine ⟨takes_sound ?_, ⟨takes_sound ?_, ?_⟩, ⟨takes_sound ?_, ?_⟩, ⟨job.fetched (.ring 0) (pk 0x01 1),
    ⟨?_, ?_, rfl, ?_, rfl, ?_, fun _ h => (List.not_mem_nil h).elim, fun _ h => (List.not_mem_nil h).elim⟩, ?_⟩, takes_sound ?_⟩
  all_goals decide +kernel

theorem witness_GaugePackets :
    job.waits = [] ∧
    job.Takes (.ring 0) { pk 0x04 (4031 + 7 * 2 ^ 32) with opcode := 0x04 } (job.fetched (.ring 0) (pk 0x04 (4031 + 7 * 2 ^ 32)))
      (fe (pk 0x04 (4031 + 7 * 2 ^ 32))) ∧
    job.Takes (.ring 0) { pk 0x05 0 with opcode := 0x05 } (job.fetched (.ring 0) (pk 0x05 0)) (fe (pk 0x05 0)) ∧
    (job.Takes (.ring 0) { pk 0x03 (2 ^ 32) with opcode := 0x03 } (job.fetched (.ring 0) (pk 0x03 (2 ^ 32))) (fe (pk 0x03 (2 ^ 32))) ∧
      reached (job.count 0 0) (BitVec.ofNat 32 ((pk 0x03 (2 ^ 32)).p 20 0 32)) = false) ∧
    reached (job.count 0 0) 0 = true ∧ reached (0 : BitVec 32) 0x80000001 = true ∧ reached (0 : BitVec 32) 0x80000000 = false := by
  refine ⟨rfl, takes_sound ?_, takes_sound ?_, ⟨takes_sound ?_, ?_⟩, ?_, ?_, ?_⟩ <;> decide +kernel

/-- A call, a spawn, a return to a caller, a return that ends the list. -/
theorem witness_Lists :
    (listed.Takes (.list 0 0) { pk 0x08 256 with opcode := 0x08 } (listed.fetched (.list 0 0) (pk 0x08 256))
        ⟨pk 0x08 256, 0, true, 0, none⟩ ∧ (pk 0x08 256).rlSpawn = false ∧
      ((listed.fetched (.list 0 0) (pk 0x08 256)).list? 0 0).isSome = true) ∧
    (job.Takes (.ring 0) { pk 0x08 (2 ^ 40) with opcode := 0x08 } (job.fetched (.ring 0) (pk 0x08 (2 ^ 40))) (fe (pk 0x08 (2 ^ 40))) ∧
      (pk 0x08 (2 ^ 40)).rlSpawn = true ∧ (job.fetched (.ring 0) (pk 0x08 (2 ^ 40))).freeListSlot 0 = some 0) ∧
    (let s := { job with lists := [{ run0 with calls := [64] }] }
     s.Takes (.list 0 0) { pk 0x09 0 with opcode := 0x09 } (s.fetched (.list 0 0) (pk 0x09 0)) ⟨pk 0x09 0, 0, true, 0, none⟩ ∧
      ((s.fetched (.list 0 0) (pk 0x09 0)).list? 0 0).map (·.calls) = some [64]) ∧
    (listed.Takes (.list 0 0) { pk 0x09 0 with opcode := 0x09 } (listed.fetched (.list 0 0) (pk 0x09 0))
        ⟨pk 0x09 0, 0, true, 0, none⟩ ∧ (listed.fetched (.list 0 0) (pk 0x09 0)).inFlight (.list 0 0) = 0 ∧
      ((listed.fetched (.list 0 0) (pk 0x09 0)).list? 0 0).map (·.spawner) = some (.ring 0)) := by
  refine ⟨⟨takes_sound ?_, ?_⟩, ⟨takes_sound ?_, ?_⟩, ⟨takes_sound ?_, ?_⟩, takes_sound ?_, ?_⟩ <;> decide +kernel

/-- A free tile; a broken one; another's; the caller's; one nobody has locked. -/
def lockP : Packet := pk 0x28 0
def unlockP : Packet := pk 0x29 0
def mine : State :=
  { tiled.putDesc 0 0 (setFld tile0 104 16 0x4000) with locks := [⟨0, 0, ⟨0x4000, 0⟩, 0, 0⟩] }
def theirs : State :=
  { tiled.putDesc 0 0 (setFld tile0 104 16 0x2000) with locks := [⟨0, 0, ⟨0x2000, 1⟩, 0, 0⟩] }

theorem witness_Locks :
    (tiled.Takes (.ring 0) { lockP with opcode := 0x28 } (tiled.fetched (.ring 0) lockP) (fe lockP) ∧
      dBroken (tiled.descOf 0 0) = false ∧ dOwner (tiled.descOf 0 0) = 0 ∧ tiled.locks.length < 256) ∧
    (let s := tiled.putDesc 0 0 (setBit tile0 121 true)
     s.Takes (.ring 0) { lockP with opcode := 0x28 } (s.fetched (.ring 0) lockP) (fe lockP) ∧ dBroken (s.descOf 0 0) = true) ∧
    (theirs.Takes (.ring 0) { lockP with opcode := 0x28 } (theirs.fetched (.ring 0) lockP) (fe lockP) ∧
      theirs.lockedByOther 0 0 ((theirs.fetched (.ring 0) lockP).callerOf (.ring 0)) = true) ∧
    (mine.Takes (.ring 0) { unlockP with opcode := 0x29 } (mine.fetched (.ring 0) unlockP) (fe unlockP) ∧ mine.NoneAt 0 0 ∧
      mine.ownsLock 0 0 ((mine.fetched (.ring 0) unlockP).callerOf (.ring 0)) = true) ∧
    (tiled.Takes (.ring 0) { unlockP with opcode := 0x29 } (tiled.fetched (.ring 0) unlockP) (fe unlockP) ∧
      tiled.ownsLock 0 0 ((tiled.fetched (.ring 0) unlockP).callerOf (.ring 0)) = false) := by
  refine ⟨⟨takes_sound ?_, ?_⟩, ⟨takes_sound ?_, ?_⟩, ⟨takes_sound ?_, ?_⟩,
    ⟨takes_sound ?_, fun _ h => (List.not_mem_nil h).elim, ?_⟩, takes_sound ?_, ?_⟩ <;> decide +kernel

/-- Context 0 with a stack region of one unit, and in it the record of tile 0. -/
def stacked : State :=
  (tiled.addRegion 0 false 0 0 1 0 (List.range 32)).stackWrite stackBase
    (recordHeader tile0 false ++ List.replicate 33 0)
def loadP : Packet := pk 0x11 (2 ^ 16 + 2 ^ 32 + 2 ^ 58 + stackBase * 2 ^ 64 + 2 * 2 ^ 112)

theorem witness_EnginesBegin :
    (readingPacket (.move (.ring 0) moveP) = some (.ring 0, moveP) ∧
      tiled.Takes (.ring 0) moveP (tiled.fetched (.ring 0) moveP) (fe moveP) ∧ tiled.Numbered ∧
      ((tiled.fetched (.ring 0) moveP).startStream (.ring 0) (fe moveP)).isSome = true ∧
      planOf ((tiled.fetched (.ring 0) moveP).basinOf (.ring 0)) moveP = [.read 0 0 roleSrc 0 0, .write 0 1 0 0 0] ∧
      tiled.gateRead 0 0 ((tiled.fetched (.ring 0) moveP).callerOf (.ring 0)) = .grant) ∧
    (tiled.Takes (.ring 0) { fillP with opcode := 0x14 } (tiled.fetched (.ring 0) fillP) (fe fillP) ∧
      ((tiled.fetched (.ring 0) fillP).startStream (.ring 0) (fe fillP)).isSome = true ∧ tiled.flights = [] ∧
      tiled.WriteFree ((tiled.fetched (.ring 0) fillP).callerOf (.ring 0)) 0 fillP.fDst
        (fillMade (tiled.descOf 0 fillP.fDst) (ofF32 fillP.fFill)).bytes.length) := by
  refine ⟨⟨rfl, takes_sound ?_, fun _ h => (List.not_mem_nil h).elim, ?_, ?_, ?_⟩, takes_sound ?_, ?_, ?_⟩
  all_goals try unfold State.WriteFree
  all_goals decide +kernel

theorem stacked_flights : stacked.flights.isEmpty = true := by decide +kernel

theorem witness_EnginesBegin_load :
    stacked.Takes (.ring 0) { loadP with opcode := 0x11 } (stacked.fetched (.ring 0) loadP) (fe loadP) ∧
      ((stacked.fetched (.ring 0) loadP).startStream (.ring 0) (fe loadP)).isSome = true ∧
      (stacked.fetched (.ring 0) loadP).nextFlight = 0 ∧ stacked.Numbered ∧ (∀ g ∈ stacked.flights, g.onPath 0 g.turnout = false) ∧
      (stacked.fetched (.ring 0) loadP).stackFree loadP.fStack (loadP.fStride * 256) false = true ∧
      ((stacked.fetched (.ring 0) loadP).stackRead loadP.fStack 256 (some (.flight 0))).2.2 = [] ∧
      (let h := recordParse (((stacked.fetched (.ring 0) loadP).stackRead loadP.fStack 256 (some (.flight 0))).2.1.take 64)
       h.fits (stacked.descOf 0 1) = true ∧ h.len = 33 ∧
        stacked.WriteFree ((stacked.fetched (.ring 0) loadP).callerOf (.ring 0)) 0 1 h.len) := by
  have e := List.isEmpty_iff.1 stacked_flights
  refine ⟨takes_sound ?_, ?_, ?_, fun _ h => ?_, fun _ h => ?_, ?_, ?_, ?_⟩
  case refine_4 => rw [e] at h; cases h
  case refine_5 => rw [e] at h; cases h
  all_goals try unfold State.WriteFree
  all_goals decide +kernel

/-- Reads held in a slot and returned, of a tile free and of an open one; a write held, its tile free. -/
theorem witness_HeldRequests :
    (let f := { flying moveP [.read 0 0 roleSrc 0 0, .write 0 1 0 0 0] (.heldRead 0 0) with attempts := 1, inSlot := true }
     (inAir f).flight? f.id = some f ∧ f.waitClose = false ∧ f.dropped (.read 0 0 roleSrc 0 0) = false ∧
      (inAir f).gateRead 0 0 f.caller = .grant ∧ (∀ g ∈ (inAir f).flights, g.phase ≠ .run ∧ g.waiting = false)) ∧
    (let f := { flying moveP [.read 0 0 roleSrc 0 0, .write 0 1 0 0 0] (.heldRead 0 0) with attempts := 1 }
     let s := (inAir f).putDesc 0 0 (setBit tile0 120 true)
     s.flight? f.id = some f ∧ f.inSlot = false ∧ dOpen (s.descOf 0 0) = true ∧ s.descBad 0 0 = false ∧
      dStale (s.descOf 0 0) = false) ∧
    (let f := { flying fillP [.write 0 1 0 0 0] (.heldWrite 0 1) with attempts := 1, made := some (fillMade (tile 17 1 32) (ofF32 0)) }
     let s := inAir f
     s.flight? f.id = some f ∧ f.dropped (.write 0 1 0 0 0) = false ∧ f.isReduce = false ∧
      f.mustCompare 0 (fillMade (tile 17 1 32) (ofF32 0)) = false ∧ (0, 1) ∉ f.opened ∧ f.isScreen = false ∧
      (s.putFlight { f with phase := .run }).gateWrite 0 1 { f with phase := .run }
        (fillMade (tile 17 1 32) (ofF32 0)).bytes.length false = .grant ∧ s.pathTaken f 0 = false) := by
  refine ⟨⟨?_, ?_, ?_, ?_, fun g hg => ?_⟩, ?_, ?_⟩
  · decide +kernel
  · decide +kernel
  · decide +kernel
  · decide +kernel
  · rw [List.mem_singleton.1 hg]
    decide
  · decide +kernel
  · decide +kernel

/-- A write about to close, sound and lost; a read that verifies and one with a lost word. -/
def closing : PendingClose := ⟨33, 0, 0, false, false, 0, 0, none, false, 5, 0, 1, false⟩
def madeZero : Made := fillMade (tile 17 1 32) (ofF32 0)
def writer (b : Bool) : Flight :=
  { flying fillP [.write 0 1 0 0 0] (.writing 0 1) with pend := some { closing with broken := b }, made := some madeZero }
def reader : Flight := flying moveP [.read 0 0 roleSrc 0 0, .write 0 1 0 0 0] (.reading 0 0)
def zeroTile : DTile := (decodeTile .vector tile0 (List.replicate 33 0)).tile
/-- Tile 0 with the check of what it holds, and two readers. -/
def readable : State := (inAir reader).putDesc 0 0 (setFld (setFld tile0 128 64 (zeroTile.checkOf false).toNat) 336 8 2)

/-- Whether the write closes broken: what its gate found, its tile, the bytes that came out otherwise. -/
def closesBroken (b : Bool) (m : Made) (wrong : List (Nat × Byte)) : Bool :=
  let x := (inAir (writer b)).landRest (writer b) 0 1 0 0 { closing with broken := b } m
  (x.1.cameOut (writer b) 0 1 x.2.1 x.2.2 wrong).2.broken

/-- A matrix packet's tile about to close. -/
def matWriter : Flight :=
  { flying (pk 0x18 0) [.write 0 1 roleO 0 0] (.writing 0 1) with
    units := [⟨.mxe, 0, 0⟩], pend := some closing, made := some madeZero }
/-- A strict packet's read of a coordinate list whose index lies beyond its 32 columns (R81). -/
def listTile : BitVec 512 := setFld (setFld tile0 40 8 0x30) 24 13 9
def listBytes : List Byte := [1, 0, 0, 0, 0xFF, 0xFF, 0xFF, 0xFF, 127]
def strictReader : Flight := { reader with pkt := { moveP with flags := 4 } }

theorem witness_TilesEnd :
    ((inAir (writer false)).flight? 0 = some (writer false) ∧ (writer false).phase = .writing 0 1 ∧ (writer false).plan = [.write 0 1 0 0 0] ∧
      (writer false).pend = some closing ∧ (writer false).made = some madeZero ∧ (inAir (writer false)).burstsDue 0 = false ∧
      (inAir (writer false)).startsBeats (writer false) 17 ((inAir (writer false)).writeLen (writer false) 0 1 madeZero) = false ∧
      (writer false).isMatrix = false ∧ closesBroken false madeZero [] = false ∧ closesBroken true madeZero [] = true ∧
      closesBroken false { madeZero with carried := some 0 } [(32, 1)] = true) ∧
    ((inAir matWriter).flight? 0 = some matWriter ∧ matWriter.isMatrix = true ∧ matWriter.pend.isSome = true ∧
      matWriter.made = some madeZero ∧ matWriter.repOf 0 = none ∧ (inAir matWriter).burstsDue 0 = false ∧
      (inAir matWriter).startsBeats matWriter 17 ((inAir matWriter).writeLen matWriter 0 1 madeZero) = false ∧
      madeZero.readoutDiffers ((inAir matWriter).descOf 0 1) [(1, 1)] = true ∧
      madeZero.readoutDiffers ((inAir matWriter).descOf 0 1) [] = false) ∧
    ({ writer false with pend := none }).pend = none ∧
    (readable.flight? 0 = some reader ∧ reader.phase = .reading 0 0 ∧ readable.burstsDue 0 = false ∧ roleSrc ≠ roleSel ∧
      unfetchedRows (readable.descOf 0 0) [] = [] ∧ reader.isMatrix = false ∧
      (readable.readPayload 0 16 33 reader.reader (fun _ => true) reader.got).2 = (List.replicate 33 0, false) ∧
      (decodeTile .vector (readable.descOf 0 0) (List.replicate 33 0)).index = false ∧
      (decodeTile .vector (readable.descOf 0 0) (List.replicate 33 0)).tile.checkOf (readable.weightClass 0 (readable.descOf 0 0)) =
        dCheck (readable.descOf 0 0) ∧ 1 < dReaders (readable.descOf 0 0)) ∧
    (readable.startsBeats reader 16 33 = false ∧ reader.aborted = false ∧
      ({ reader with got := [(64, List.replicate 64 0, true)] }).aborted = true) ∧
    (let s := { readable with memChk := [(readable.wordAt 0 64, 3)] }
     (s.readPayload 0 16 33 reader.reader (fun _ => true) reader.got).2.2 = true ∧ reader.retries = 0) ∧
    ((decodeTile .vector listTile listBytes).index = true ∧ dStale listTile = false ∧ strictReader.pkt.strict = true ∧
      strictReader.restore = false ∧ strictReader.isMatrix = false ∧ strictReader.indexed = false) := by
  refine ⟨?_, ?_, ?_, ?_, ?_, ?_⟩ <;> decide +kernel

/-- An increment due on the last gauge; a wait it satisfies. -/
def waited : Wait := ⟨.ring 0, 0, 0, 0, 5, 1, pk 0x03 5, 0, 0⟩
theorem witness_IncrementsLand :
    (let s := { job with dueIncs := [⟨0, 4031, 0xFFFF⟩] }
     s.ListsRun ∧ ((s.dueIncs.filter fun x => x.basin = 0 ∧ x.gauge = 4031).map (·.inc)).sum ≠ 0 ∧ s.waits = []) ∧
    (let s := { job with dueIncs := [⟨0, 5, 1⟩], waits := [waited] }
     ((s.dueIncs.filter fun x => x.basin = 0 ∧ x.gauge = 5).map (·.inc)).sum = 1 ∧ s.waits = [waited] ∧ waited.src = .ring 0 ∧
      reached (s.count 0 5 + 1) waited.target = true) ∧
    job.lineFinding 0 5 = .clean ∧ ({ job with gaugeChk := [(0, 1)] }).lineFinding 0 5 = .corrected 512 := by
  refine ⟨⟨fun _ h => (List.not_mem_nil h).elim, ?_, rfl⟩, ?_⟩ <;> decide +kernel

/-! ### Control packets -/

/-- The packet as Rosog holds it once it has arrived. -/
def hand (s : State) (src : Src) (p : Packet) : Handed :=
  ((met s src p).handed? src p).getD ⟨src, 0, p, 0, 0, 0, 0, none, false, false⟩

/-- What a packet's parameters hold: (first bit, value). -/
def sum2 (l : List (Nat × Nat)) : Nat := (l.map fun x => x.2 * 2 ^ x.1).foldl (· + ·) 0
/-- Byte `k` of a packet begins its parameters at byte 16. -/
def at16 (k bit v : Nat) : Nat × Nat := ((k - 16) * 8 + bit, v)

/-- As it is met: where it is served. -/
abbrev servedAs (s : State) (src : Src) (p : Packet) : Prop := s.Serves src p (met s src p) (hand s src p)

def queryP (sel a : Nat) : Packet := pk 0x40 (sel + a * 256)
def admitted : Admission := ⟨0, 0, 1, 10, 0, 0, 0, 0, [0, 0, 0, 0], [0, 0, 0, 0], false⟩
def withAdmission : State := { job with ctxs := [(0, { own with admissions := [admitted] })] }

theorem witness_QueriesAnswer :
    (servedAs job (.ring 8) { queryP 0 0 with opcode := 0x40 } ∧ (hand job (.ring 8) (queryP 0 0)).pkt.reservedClear queryFields = true) ∧
    (servedAs job (.ring 0) { queryP 1 0 with opcode := 0x40 } ∧ servedAs job (.ring 8) { queryP 1 7 with opcode := 0x40 } ∧
      (met job (.ring 0) (queryP 1 0)).ctxOf (.ring 0) = some 0 ∧ (met job (.ring 8) (queryP 1 7)).ctxOf (.ring 8) = none) ∧
    (servedAs withAdmission (.ring 0) { queryP 2 0 with opcode := 0x40 } ∧
      ((met withAdmission (.ring 0) (queryP 2 0)).ctx 0).admissions.find? (fun y => y.right = 0) = some admitted) ∧
    (servedAs job (.ring 0) { queryP 3 63 with opcode := 0x40 } ∧ servedAs job (.ring 8) { queryP 4 0 with opcode := 0x40 } ∧
      63 < job.cfg.basins) := by
  refine ⟨⟨serves_sound ?_, ?_⟩, ⟨serves_sound ?_, serves_sound ?_, ?_⟩, ⟨serves_sound ?_, ?_⟩, serves_sound ?_,
    serves_sound ?_, ?_⟩ <;> decide +kernel

def statsP : Packet := pk 0x41 (128 * 256)
/-- 128 units of 256 bytes at address 0, record 0 on; one unit. -/
def logP : Packet := pk 0x4A (sum2 [at16 30 0 128])
def logP1 : Packet := pk 0x4A (sum2 [at16 30 0 1])
/-- A record of context 0's, 216 bytes. -/
def logged : State := { job with cistern := { job.cistern with records := [(0, 2, 0, List.replicate 216 0x43)], nextId := 1 } }

theorem bytes_apart {v : State} {n : Nat}
    (h : ∀ i, i < (n + 63) / 64 → v.Plain 0 i ∧ ∀ j, j < (n + 63) / 64 → v.wordAt 0 i = v.wordAt 0 j → i = j) :
    ∀ i j, i < n → j < n → v.Plain 0 ((0 + i) / 64) ∧
      (v.wordAt 0 ((0 + i) / 64) = v.wordAt 0 ((0 + j) / 64) → (0 + i) / 64 = (0 + j) / 64) :=
  fun i j hi hj => ⟨(h _ (by omega)).1, (h _ (by omega)).2 _ (by omega)⟩

theorem witness_QueriesAnswer_logs :
    (servedAs job (.ring 0) { statsP with opcode := 0x41 } ∧ (hand job (.ring 0) statsP).pkt.reservedClear statsFields = true ∧
      statsP.p 16 0 12 = 0 ∧ statsP.p 17 7 1 = 1 ∧ statsP.p 18 0 8 = 0) ∧
    (servedAs job (.ring 0) { logP with opcode := 0x4A } ∧ (hand job (.ring 0) logP).pkt.reservedClear faultLogFields = true ∧
      logP.p 24 0 48 % 256 = 0 ∧ logP.p 30 0 8 = 128 ∧
      (met job (.ring 0) logP).logBuffer ((met job (.ring 0) logP).ctxOf (.ring 0)) (logP.p 24 0 48) (logP.p 30 0 8 * 256) =
        some (0, 0)) ∧
    (servedAs logged (.ring 0) { logP1 with opcode := 0x4A } ∧
      (let t := met logged (.ring 0) logP1
       let h := hand logged (.ring 0) logP1
       t.logBuffer (t.ctxOf (.ring 0)) (logP1.p 24 0 48) (logP1.p 30 0 8 * 256) = some (0, 0) ∧
        copyRecords (logWants h.pkt (t.ctxOf (.ring 0))) 256 (t.logMark h.pkt) t.cistern.records ([], 0, none) =
          (List.replicate 216 0x43, 1, none)) ∧
      ∀ i j, i < 216 → j < 216 → logged.Plain 0 ((0 + i) / 64) ∧
        (logged.wordAt 0 ((0 + i) / 64) = logged.wordAt 0 ((0 + j) / 64) → (0 + i) / 64 = (0 + j) / 64)) := by
  refine ⟨⟨serves_sound ?_, ?_⟩, ⟨serves_sound ?_, ?_⟩, serves_sound ?_, ?_, bytes_apart ?_⟩
  all_goals try unfold State.Plain
  all_goals decide +kernel

/-- Context 7, home in basin 63 of basins 1 and 63, rings of 16, a region of 64 KiB, no stack region; and one unit of stack. -/
def createP (stack : Nat) : Packet :=
  pk 0x42 (sum2 [at16 16 0 7, at16 17 0 63, at16 18 0 0x44, at16 20 0 (2 + 2 ^ 63), at16 28 0 64, at16 30 0 stack])

/-- The hypotheses on a packet that creates. -/
def createSound (p : Packet) : Bool :=
  let t := met job (.ring 8) p
  let h := hand job (.ring 8) p
  let a := h.pkt.createAsk
  !h.pkt.isRecovery && h.pkt.reservedClear createFields && !t.createBad a && !t.resident a.ctx && !t.lifecycleBusy h &&
    !t.maskRetired a.mask && ((bitsSet a.mask 64).all fun b => !t.retiring.contains b && (t.freeLevee b).isSome) &&
    (lowestFit (t.takenInAll (bitsSet a.mask 64)) t.cfg.spaceGranules a.len).isSome &&
    decide (a.stack ≠ 0 → (t.fitStack a.islocal a.stack).isSome)

/-- A debug unlock granted. -/
def unlocked : State := job.putFld .secSt 6 1 1

theorem witness_ContextsCreated :
    (servedAs job (.ring 8) { createP 0 with opcode := 0x42 } ∧ createSound (createP 0) = true) ∧
    (servedAs job (.ring 8) { createP 1 with opcode := 0x42 } ∧ createSound (createP 1) = true) ∧
    ((met job (.ring 8) (createP 0)).unlocked = false ∧ servedAs unlocked (.ring 8) { createP 0 with opcode := 0x42 } ∧
      (met unlocked (.ring 8) (createP 0)).unlocked = true) := by
  refine ⟨⟨serves_sound ?_, ?_⟩, ⟨serves_sound ?_, ?_⟩, ?_, serves_sound ?_, ?_⟩ <;> decide +kernel

/-- Context 0 faulted, its ring suspended; a second context resident; one whose packet is at work. -/
def faulted : State := { (job.putFld (.ringSt 0) 0 4 3) with ctxs := [(0, { own with faulted := true })] }
def two : State := { job with ctxs := [(0, own), (1, { own with createNo := 2 })] }
def recoverP : Packet := pk 0x42 16
def switchP : Packet := pk 0x43 1
def destroyP : Packet := pk 0x44 0
def twoAtWork : State := { two with flights := [flying moveP [] (.reading 0 0)], nextFlight := 1 }

theorem witness_ContextsRecoverSwitchAndEnd :
    (servedAs faulted (.ring 8) { recoverP with opcode := 0x42 } ∧ (hand faulted (.ring 8) recoverP).pkt.isRecovery = true ∧
      (hand faulted (.ring 8) recoverP).pkt.params = BitVec.ofNat 384 (16 + 0) ∧
      ((met faulted (.ring 8) recoverP).ctx 0).faulted = true ∧ (met faulted (.ring 8) recoverP).rfld (.secCtxSt 0) 4 4 = 0 ∧
      (met faulted (.ring 8) recoverP).lifecycleBusy (hand faulted (.ring 8) recoverP) = false) ∧
    (servedAs two (.ring 8) { switchP with opcode := 0x43 } ∧ switchP.p 16 0 3 = 1 ∧ (met two (.ring 8) switchP).resident 1 = true ∧
      (hand two (.ring 8) switchP).pkt.reservedClear [(16, 0, 3)] = true ∧
      (met two (.ring 8) switchP).active ≠ some 1 ∧ (met two (.ring 8) switchP).packetsRun = false ∧
      (met two (.ring 8) switchP).lifecycleBusy (hand two (.ring 8) switchP) = false) ∧
    (servedAs twoAtWork (.ring 8) { switchP with opcode := 0x43 } ∧ (met twoAtWork (.ring 8) switchP).packetsRun = true) ∧
    (servedAs twoAtWork (.ring 8) { destroyP with opcode := 0x44 } ∧
      (hand twoAtWork (.ring 8) destroyP).pkt.reservedClear [(16, 0, 3)] = true ∧
      (met twoAtWork (.ring 8) destroyP).resident 0 = true ∧ (met twoAtWork (.ring 8) destroyP).ringState 0 ≠ 4 ∧
      (met twoAtWork (.ring 8) destroyP).lifecycleBusy (hand twoAtWork (.ring 8) destroyP) = false ∧
      ((met twoAtWork (.ring 8) destroyP).flights.all fun f => f.ctx = 0 && !f.restore) = true ∧
      (met twoAtWork (.ring 8) destroyP).MayScrub) ∧
    (servedAs job (.ring 0) { destroyP with opcode := 0x44 } ∧ (met job (.ring 0) destroyP).ctxOf (.ring 0) = some 0 ∧
      (met job (.ring 0) destroyP).rplFree 8 = true) := by
  refine ⟨⟨serves_sound ?_, ?_⟩, ⟨serves_sound ?_, ?_⟩, ⟨serves_sound ?_, ?_⟩, ⟨serves_sound ?_, ?_, ?_, ?_, ?_, ?_, ⟨?_, ?_, .inl ?_⟩⟩,
    serves_sound ?_, ?_⟩ <;> decide +kernel

/-- The packet that destroys context 0, from ring 8 and from the context's own ring, and its scrub's end. -/
def ender (src : Src) : Handed := ⟨src, 0, destroyP, 0, 0, 8, 0, some 0, false, true⟩
def endingOf (src : Src) : State :=
  scrubEnding 0 (.destroy (some (ender src)) 0 1 0 0) tookLevee { job with handed := [ender src] }
/-- Every check of the last basin begins to fill 16 words at its start and 16 at its end. -/
def filling : State :=
  { flow with
    cycle := 5
    fillRes := (List.range flow.cfg.checks).map fun k => ⟨63, k, 5, 5 + 2049, [(0, 16), (524272, 524288)], 0⟩ }

theorem witness_ContextsRecoverSwitchAndEnd_scrub :
    ((endingOf (.ring 8)).ScrubEnds ⟨0, .destroy (some (ender (.ring 8))) 0 1 0 0, some (0, 0, stFlow), tookLevee⟩ 0 stFlow none ∧
      (endingOf (.ring 8)).handed? (.ring 8) destroyP = some (ender (.ring 8))) ∧
    ((endingOf (.ring 0)).ScrubEnds ⟨0, .destroy (some (ender (.ring 0))) 0 1 0 0, some (0, 0, stFlow), tookLevee⟩ 0 stFlow none ∧
      (endingOf (.ring 0)).handed? (.ring 0) destroyP = some (ender (.ring 0))) ∧
    (dCtx (tiled.descOf 0 0) = 0 ∧ nget job.gaugeChk 0 (0 * 512 + 503) = 0 ∧ job.gctx 0 4031 = 0) ∧
    (filling.cfg.wf = true ∧ 63 < filling.cfg.basins ∧ filling.frozenAt = [] ∧ bit (filling.reg (.bsnFlipCfg 63)) 63 = false ∧
      filling.cfg.rows + 1 ≤ 2049 ∧ 524288 * 64 ≤ filling.cfg.basinBytes ∧ (∀ k, filling.copyingTo 63 k = none) ∧
      [(0, 16), (524272, 524288)].Pairwise (fun a a' : Nat × Nat => a.2 ≤ a'.1 ∨ a'.2 ≤ a.1) ∧ filling.cycle = 5) := by
  refine ⟨⟨scrub_ends ?_ rfl rfl rfl, ?_⟩, ⟨scrub_ends ?_ rfl rfl rfl, ?_⟩, ?_, ?_, ?_, rfl, ?_, ?_, ?_, fun _ => rfl, ?_, rfl⟩ <;>
    decide +kernel

/-- Only basin 0 in service. -/
def alone : State := withAdmission.putReg .devBasinLive 1
/-- Right 15, a furrow bandwidth in basin 0; then its release. -/
def admitP : Packet := pk 0x45 (sum2 [at16 16 0 15, at16 20 0 1, at16 28 0 10])
def releaseP : Packet := pk 0x46 0

/-- The rights of "Admission, a power cap and the return" (R184–R186), in basin 0, the one in service. -/
def admissions : State :=
  let z := [0, 0, 0, 0]
  { alone with
    regs := (.pwrPerf, BitVec.ofNat 64 (4 * 2 ^ 16 + 16 * 2 ^ 8 + 16)) ::
      ((List.range 4).map fun c => (Reg.culSt c, setFld (alone.reg (.culSt c)) 0 4 culUp)) ++ alone.regs
    ctxs := [(0, { own with admissions := [⟨4, 0, 1, 2400, 0, 0, 300, 30000, z, z, false⟩, ⟨8, 0, 1, 600, 0, 0, 0, 6000, z, z, false⟩] })] }
def admit12 (furrow : Nat) : Packet :=
  pk 0x45 (sum2 [at16 16 0 12, at16 18 0 400, at16 20 0 1, at16 28 0 furrow, at16 34 0 200, at16 36 0 6000])
/-- Whether every pool holds right 12 too, which is not admitted yet, whether the first pool has the least headroom, and whether the packet is
sound. -/
def headroomFirst (furrow : Nat) : Bool × Bool × Bool :=
  let t := met admissions (.ring 0) (admit12 furrow)
  let h := hand admissions (.ring 0) (admit12 furrow)
  let a := h.pkt.admission
  let need := fun q => reservedIn ((t.ctx h.ctx).admissions.filter fun x => x.right ≠ a.right) q + a.inPool q
  match t.pools with
  | q :: post => (decide (need q ≤ t.admissible q) && post.all fun x => decide (need x ≤ t.admissible x),
      post.all fun x => decide (t.admissible q - need q ≤ t.admissible x - need x),
      h.pkt.reservedClear admitFields && !t.admitBad a && !t.maskRetired a.mask)
  | [] => (false, false, false)

theorem witness_RightsAdmittedAndReleased :
    (servedAs alone (.ring 0) { admitP with opcode := 0x45 } ∧
      (let t := met alone (.ring 0) admitP
       let h := hand alone (.ring 0) admitP
       let a := h.pkt.admission
       h.pkt.reservedClear admitFields = true ∧ t.admitBad a = false ∧ t.maskRetired a.mask = false ∧ t.active = some h.ctx ∧
        (t.pools.all fun q => decide (reservedIn ((t.ctx h.ctx).admissions.filter fun x => x.right ≠ a.right) q + a.inPool q ≤
          t.admissible q)) = true)) ∧
    ((servedAs admissions (.ring 0) { admit12 450 with opcode := 0x45 } ∧ headroomFirst 450 = (true, true, true)) ∧
      servedAs admissions (.ring 0) { admit12 500 with opcode := 0x45 } ∧ headroomFirst 500 = (false, true, true)) ∧
    (servedAs alone (.ring 0) { releaseP with opcode := 0x46 } ∧
      (hand alone (.ring 0) releaseP).pkt.reservedClear [(16, 0, 4)] = true) := by
  refine ⟨⟨serves_sound ?_, ?_⟩, ⟨⟨serves_sound ?_, ?_⟩, serves_sound ?_, ?_⟩, serves_sound ?_, ?_⟩ <;> decide +kernel

/-- An item with its value, in every basin. -/
def configP (item v : Nat) : Packet := pk 0x4D (sum2 [at16 16 0 item, at16 24 0 v, at16 32 0 (if item = 6 then 0 else 2 ^ 64 - 1)])
def configSound (item v : Nat) : Bool :=
  let p := configP item v
  let t := met job (.ring 8) p
  (hand job (.ring 8) p).pkt.reservedClear configFields && !t.maskRetired (BitVec.ofNat 64 (p.p 32 0 64)) &&
    !t.configBad (p.p 16 0 8) (p.p 17 0 16) (BitVec.ofNat 64 (p.p 24 0 64)) (BitVec.ofNat 64 (p.p 32 0 64))

/-- Class map, regulator at 8, tile registers at the most µs, and both ends of AUDIT_MS. -/
theorem witness_ConfigurationSet :
    (servedAs job (.ring 8) { configP 1 0x7777777777777777 with opcode := 0x4D } ∧ configSound 1 0x7777777777777777 = true) ∧
    (servedAs job (.ring 8) { configP 3 0x010108 with opcode := 0x4D } ∧ configSound 3 0x010108 = true ∧
      configSound 3 8 = false) ∧
    (servedAs job (.ring 8) { configP 5 100000 with opcode := 0x4D } ∧ configSound 5 100000 = true) ∧
    (servedAs job (.ring 8) { configP 6 10 with opcode := 0x4D } ∧ configSound 6 10 = true ∧ configSound 6 10000 = true ∧
      configSound 6 9 = false) := by
  refine ⟨⟨serves_sound ?_, ?_⟩, ⟨serves_sound ?_, ?_⟩, ⟨serves_sound ?_, ?_⟩, serves_sound ?_, ?_⟩ <;> decide +kernel

/-- A package of one tile for basin 0: its header (set 7), its body of 256 bytes, as R374 lays them out. -/
def pkgBody : List Byte :=
  List.replicate 64 0 ++ recordHeader (setFld tile0 128 64 (zeroTile.checkOf true).toNat) true ++ List.replicate 128 0
def pkgHead : List Byte :=
  [0x45, 0x32, 0x57, 0x47, 0x48, 0x54, 0x30, 0x31] ++ leBytes 4 7 ++ leBytes 4 1 ++ leBytes 8 256 ++ List.replicate 232 0
/-- It lies in context 0's stack region of one unit; key slot 0 holds set 7, of which site 1 is a member. -/
def packed : State :=
  let s := ((flow.putFld (.secCtxSt 0) 0 1 0).addRegion 0 false 0 0 1 0 (List.range 32))
  { s with
    active := some 0, regs := s.regs ++ job.regs
    ctxs := [(0, { own with keySlots := KeySlot.set 7 [1] :: List.replicate 7 .empty })]
    }.stackWrite stackBase (pkgHead ++ List.replicate 272 0xA5)
/-- Slot 0, no shadow, basin 0, descriptors from 16319. -/
def loadModelP : Packet := pk 0x47 (sum2 [at16 16 0 stackBase, at16 24 0 1, at16 32 0 16319])

theorem witness_ModelsLoad :
    servedAs packed (.ring 0) { loadModelP with opcode := 0x47 } ∧
    (let t := met packed (.ring 0) loadModelP
     let h := hand packed (.ring 0) loadModelP
     let p := loadModelP
     let r1 := t.pkgRead p.pkgAddr 256
     let r2 := r1.1.pkgRead (p.pkgAddr + 256) 272
     h.pkt.reservedClear pkgFields = true ∧ t.pkgRange h.ctx p.pkgAddr 256 = none ∧ r1.2 = (pkgHead, true) ∧
       256 + leNat ((pkgHead.drop 16).take 8) + 16 * cdiv (leNat ((pkgHead.drop 16).take 8)) (2 ^ 20) = 528 ∧
       t.pkgRange h.ctx p.pkgAddr 528 = none ∧ r2.2.2 = true ∧ t.pkgHeader h.ctx p.pkgSlot pkgHead pkgBody = true ∧
       p.pkgAddr % 256 = 0 ∧ t.unbuilt p.pkgMask = false ∧ t.maskRetired p.pkgMask = false ∧ t.retiring = [] ∧
       ((pkgTiles p.pkgDesc 1 pkgBody).any fun ts => (ts.all fun x => x.sound && bit p.pkgMask x.basin &&
         t.descAllotted h.ctx x.basin x.desc) && !t.loadDescBad ts &&
         (t.weightBase h.ctx ts (bitsSet p.pkgMask 64) p.pkgAddr 528).isSome) = true ∧
       (t.freeLevee 0).isSome ∧ t.rfld (.secCtxSt h.ctx) 4 4 = 0 ∧ t.pkgFree p.pkgAddr 256 = true ∧
       r1.1.pkgFree p.pkgAddr 528 = true ∧ p.pkgShadow = false ∧ t.streamRoom = true) := by
  refine ⟨serves_sound ?_, ?_⟩ <;> decide +kernel

/-- A cap at both ends of its range; a policy; an entry into `SLACK`, free and barred by a switch that Rosog executes. -/
def capP (w : Nat) : Packet := pk 0x48 (sum2 [at16 16 0 1, at16 18 0 w])
def policyP : Packet := pk 0x48 (sum2 [at16 16 0 2, at16 20 0 1000, at16 30 0 85])
def slackP : Packet := pk 0x48 (sum2 [at16 16 0 0, at16 17 0 1])
def tripped : State := { job with start := { job.start with thermTrip := true } }

theorem witness_PowerAskedAndTestsScheduled :
    (servedAs job (.ring 8) { capP 150 with opcode := 0x48 } ∧ powerBad (capP 150) = false ∧ powerBad (capP 620) = false ∧
      powerBad (capP 621) = true ∧ (hand job (.ring 8) (capP 150)).pkt = capP 150) ∧
    (servedAs job (.ring 8) { policyP with opcode := 0x48 } ∧ powerBad policyP = false) ∧
    (servedAs job (.ring 8) { slackP with opcode := 0x48 } ∧ powerBad slackP = false ∧
      (met job (.ring 8) slackP).entryCondition 1 = none) ∧
    (servedAs tripped (.ring 8) { slackP with opcode := 0x48 } ∧ (met tripped (.ring 8) slackP).entryCondition 1 = some 7) := by
  refine ⟨⟨serves_sound ?_, ?_⟩, ⟨serves_sound ?_, ?_⟩, ⟨serves_sound ?_, ?_⟩, serves_sound ?_, ?_⟩ <;> decide +kernel

/-- A policy; MXE 14 of the last basin, and a vector unit; a report. -/
def testP (a : Nat) (l : List (Nat × Nat)) : Packet := pk 0x49 (sum2 (at16 16 0 a :: l))
def testSound (p : Packet) : Bool :=
  !(met job (.ring 8) p).testBad (hand job (.ring 8) p).pkt && !(hand job (.ring 8) p).begun
def testUnit1 : Packet := testP 1 [at16 24 0 63, at16 26 0 14]

theorem witness_PowerAskedAndTestsScheduled_tests :
    (servedAs job (.ring 8) { testP 0 [at16 17 0 168, at16 19 0 14] with opcode := 0x49 } ∧
      testSound (testP 0 [at16 17 0 168, at16 19 0 14]) = true ∧ testSound (testP 0 [at16 19 0 15]) = false) ∧
    (servedAs job (.ring 8) { testUnit1 with opcode := 0x49 } ∧ testSound testUnit1 = true ∧
      (hand job (.ring 8) testUnit1).pkt.testUnit = (.mxe, 63, 14) ∧
      (let t := met job (.ring 8) testUnit1
       t.live 63 = true ∧ (t.unitRec .mxe 63 14).retired = false ∧ t.unitState ⟨.mxe, 63, 14⟩ ≠ 5)) ∧
    (servedAs job (.ring 8) { testP 2 [] with opcode := 0x49 } ∧ testSound (testP 2 []) = true) := by
  refine ⟨⟨serves_sound ?_, ?_⟩, ⟨serves_sound ?_, ?_⟩, serves_sound ?_, ?_⟩ <;> decide +kernel

/-- Drained; with a shadow restore outstanding in the last basin; by force, a context resident. -/
def empty : State := { flow with regs := [(.pwrSt, 0)] }
def detachP : Packet := pk 0x4B 0
def draining : State := { empty with restores := [(63, 5)] }

def detachSound (s : State) (p : Packet) : Bool :=
  let t := met s (.ring 8) p
  let h := hand s (.ring 8) p
  h.pkt.reservedClear detachFields && !h.begun && !t.detachRefused &&
    (t.residents.isEmpty || decide (p.p 16 0 1 = 1) && t.flights.isEmpty) &&
    (t.handed.all fun x => decide (x.pkt.op = 0x4B → x = h))

theorem witness_SiteDetaches :
    (servedAs empty (.ring 8) { detachP with opcode := 0x4B } ∧ detachSound empty detachP = true ∧
      ((met empty (.ring 8) detachP).startDetach.begin (hand empty (.ring 8) detachP)).refusers
        (some (.ring 8, (hand empty (.ring 8) detachP).pkt)) = []) ∧
    (servedAs draining (.ring 8) { detachP with opcode := 0x4B } ∧ detachSound draining detachP = true ∧
      ((met draining (.ring 8) detachP).startDetach.begin (hand draining (.ring 8) detachP)).refusers
        (some (.ring 8, (hand draining (.ring 8) detachP).pkt)) ≠ []) ∧
    (servedAs job (.ring 8) { pk 0x4B 1 with opcode := 0x4B } ∧ detachSound job (pk 0x4B 1) = true ∧
      (met job (.ring 8) (pk 0x4B 1)).residents = [0] ∧ (met job (.ring 8) (pk 0x4B 1)).scrubs = [] ∧
      (met job (.ring 8) (pk 0x4B 1)).power.divTo = none) ∧
    (let h := hand empty (.ring 8) detachP
     let v := { (met empty (.ring 8) detachP).startDetach with detach := some (8, 48000), handed := [{ h with begun := true }] }
     v.ListsRun ∧ h.src = .ring 8 ∧ h.pkt.op = 0x4B ∧ v.refusers (some (.ring 8, h.pkt)) = [] ∧ v.scrubs = []) := by
  refine ⟨⟨serves_sound ?_, ?_⟩, ⟨serves_sound ?_, ?_⟩, ⟨serves_sound ?_, ?_⟩, fun _ h => ?_, ?_⟩
  case refine_7 =>
    have e : (met empty (.ring 8) detachP).startDetach.lists = [] := by decide +kernel
    have h' := h
    simp only [e] at h'
    exact (List.not_mem_nil h').elim
  all_goals decide +kernel

/-- As released, and attached; the last identifier a site may have, the one it may not, and a reserved bit. -/
def attachP (v : Nat) : Packet := pk 0x4C v
def fresh : State := State.reset

theorem witness_AttachCompletes :
    (servedAs fresh (.ring 8) { attachP 0xFFFE with opcode := 0x4C } ∧
      (hand fresh (.ring 8) (attachP 0xFFFE)).pkt.reservedClear [(16, 0, 16)] = true ∧ (attachP 0xFFFE).p 16 0 16 = 0xFFFE ∧
      (met fresh (.ring 8) (attachP 0xFFFE)).site = stAttaching) ∧
    (servedAs fresh (.ring 8) { attachP 0xFFFF with opcode := 0x4C } ∧ (attachP 0xFFFF).p 16 0 16 = 0xFFFF) ∧
    (servedAs fresh (.ring 8) { attachP 0x10001 with opcode := 0x4C } ∧
      (hand fresh (.ring 8) (attachP 0x10001)).pkt.reservedClear [(16, 0, 16)] = false) ∧
    (servedAs job (.ring 8) { attachP 2 with opcode := 0x4C } ∧ (met job (.ring 8) (attachP 2)).site ≠ stAttaching ∧
      (hand job (.ring 8) (attachP 2)).pkt.reservedClear [(16, 0, 16)] = true) := by
  refine ⟨⟨serves_sound ?_, ?_⟩, ⟨serves_sound ?_, ?_⟩, ⟨serves_sound ?_, ?_⟩, serves_sound ?_, ?_⟩ <;> decide +kernel

/-- Lock, unlock; a context's release, taken back; the counter at what both slots allow, and below what it was. -/
def lockAsk (a n : Nat) : Packet := pk 0x83 (a + n * 256)
def versioned : State :=
  { job with
    cistern := { job.cistern with
      arCounter := 3, slotA := { job.cistern.slotA with svn := 64 }, slotB := { job.cistern.slotB with svn := 64 } } }

theorem witness_OwnerLocks :
    (servedAs job (.ring 8) { lockAsk 0 0 with opcode := 0x83 } ∧ servedAs job (.ring 8) { lockAsk 1 0 with opcode := 0x83 } ∧
      (hand job (.ring 8) (lockAsk 0 0)).pkt.reservedClear lockAskFields = true ∧
      (met job (.ring 8) (lockAsk 0 0)).ctxOf (.ring 8) = none) ∧
    (servedAs job (.ring 0) { lockAsk 2 0 with opcode := 0x83 } ∧ servedAs job (.ring 0) { lockAsk 3 0 with opcode := 0x83 } ∧
      (hand job (.ring 0) (lockAsk 2 0)).pkt.reservedClear lockAskFields = true ∧
      (met job (.ring 0) (lockAsk 2 0)).ctxOf (.ring 0) = some 0 ∧ (hand job (.ring 0) (lockAsk 2 0)).ctx = 0) ∧
    (servedAs versioned (.ring 8) { lockAsk 4 64 with opcode := 0x83 } ∧ (lockAsk 4 64).p 17 0 8 = 64 ∧
      (met versioned (.ring 8) (lockAsk 4 64)).cistern.slotA.svn = 64 ∧ (met versioned (.ring 8) (lockAsk 4 64)).cistern.slotB.svn = 64) ∧
    (servedAs versioned (.ring 8) { lockAsk 4 2 with opcode := 0x83 } ∧
      (met versioned (.ring 8) (lockAsk 4 2)).cistern.arCounter = 3) := by
  refine ⟨⟨serves_sound ?_, serves_sound ?_, ?_⟩, ⟨serves_sound ?_, serves_sound ?_, ?_⟩, ⟨serves_sound ?_, ?_⟩,
    serves_sound ?_, ?_⟩ <;> decide +kernel

/-- A session of ring 0 attested; the key slots hold nothing; a list that names site 1 at byte 65600 of basin 0. -/
def trusted : State :=
  let s := { job with
    siteId := 1, spdm := { job.spdm with sessions := [⟨5, 0, true, true⟩] }
    ctxs := [(0, { own with keySlots := List.replicate 8 .empty })] }
  s.writeWords 0 1025 [1, 0]
def removeP : Packet := pk 0x81 (sum2 [at16 17 1 1])
def installP : Packet := pk 0x81 (sum2 [at16 18 0 9, at16 22 0 65536, at16 26 0 5])
def bindP : Packet := pk 0x84 (sum2 [at16 17 0 1, at16 18 0 7, at16 22 0 65536, at16 26 0 5, at16 30 0 65600])

theorem witness_KeysAndMessages_keys :
    (servedAs trusted (.ring 0) { removeP with opcode := 0x81 } ∧ servedAs trusted (.ring 0) { installP with opcode := 0x81 } ∧
      (let t := met trusted (.ring 0) removeP
       let h := hand trusted (.ring 0) removeP
       h.ctx = 0 ∧ removeP.p 16 0 4 < (t.ctx 0).keySlots.length ∧ t.slotInUse 0 0 = false ∧ t.frozen 0 = false ∧
         h.pkt.reservedClear installFields = true ∧ removeP.p 17 1 1 = 1) ∧
      (let t := met trusted (.ring 0) installP
       let h := hand trusted (.ring 0) installP
       let r := t.readRange h.basin 65536 60 ⟨3, ditchTurnout⟩
       h.pkt.reservedClear installFields = true ∧ installP.p 17 1 1 = 0 ∧ installP.p 18 0 32 = 9 ∧ installP.p 22 0 32 = 65536 ∧
         t.homeBuffer (some 0) h.basin 65536 60 = true ∧ t.keySession 0 5 = true ∧ r.2.2 = false ∧
         t.jobElsewhere 0 0 9 = false)) ∧
    (servedAs trusted (.ring 0) { bindP with opcode := 0x84 } ∧
      (let t := met trusted (.ring 0) bindP
       let h := hand trusted (.ring 0) bindP
       let r := t.readRange h.basin 65536 60 ⟨3, ditchTurnout⟩
       let q := t.readRange h.basin 65600 2 ⟨3, ditchTurnout⟩
       h.pkt.reservedClear bindFields = true ∧ t.homeBuffer (some 0) h.basin 65536 60 = true ∧
         t.homeBuffer (some 0) h.basin 65600 2 = true ∧ r.2.2 = false ∧ q.2 = ([1, 0], false) ∧
         t.siteId ∈ membersOf [1, 0] ∧ t.keySession 0 5 = true ∧
         t.keySlot 0 0 = .empty)) := by
  refine ⟨⟨serves_sound ?_, serves_sound ?_, ?_⟩, serves_sound ?_, ?_⟩ <;> decide +kernel

/-- GET_VERSION in a buffer of context 0, its answer to go beside it; the shortest lengths. -/
def messageP : Packet := pk 0x80 (sum2 [at16 16 0 65536, at16 20 0 4, at16 22 0 65600, at16 26 0 4])
def asking : State := job.writeWords 0 1024 [0x12, 0x84, 0, 0]

theorem witness_KeysAndMessages_messages :
    servedAs asking (.ring 0) { messageP with opcode := 0x80 } ∧
    (let t := met asking (.ring 0) messageP
     let h := hand asking (.ring 0) messageP
     let r := t.readRange h.basin 65536 4 ⟨3, ditchTurnout⟩
     asking.notReadyNow = false ∧ h.pkt.reservedClear spdmFields = true ∧ messageP.p 20 0 16 = 4 ∧ messageP.p 26 0 16 = 4 ∧
       messageP.p 28 0 32 = 0 ∧ t.spdmBuffer (t.ctxOf (.ring 0)) h.basin 65536 4 t.cfg.ownerReq = true ∧
       t.spdmBuffer (t.ctxOf (.ring 0)) h.basin 65600 4 t.cfg.ownerRsp = true ∧ r.2 = ([0x12, 0x84, 0, 0], false) ∧
       t.notReadyNow = false ∧ t.scrubs = [] ∧ t.session? 0 = none) ∧
    (let s := job.writeWords 0 1024 [0x11, 0x81, 0, 0]
     servedAs s (.ring 0) { messageP with opcode := 0x80 } ∧
      ((met s (.ring 0) messageP).readRange 0 65536 4 ⟨3, ditchTurnout⟩).2 = ([0x11, 0x81, 0, 0], false)) := by
  refine ⟨serves_sound ?_, ?_, serves_sound ?_, ?_⟩ <;> decide +kernel

/-! ### The headgate -/

theorem crcByte_lt (n c : Nat) (h : c < 2 ^ 32) : crcByte 0x82F63B78 n c < 2 ^ 32 := by
  induction n generalizing c with
  | zero => exact h
  | succ n ih =>
    apply ih
    split
    · exact Nat.xor_lt_two_pow (by omega) (by decide)
    · omega

theorem crc32c_lt (bs : List Byte) : crc32c bs < 2 ^ 32 := by
  refine Nat.xor_lt_two_pow (by decide) ?_
  suffices ∀ c, c < 2 ^ 32 → bs.foldl (fun c b => crcByte 0x82F63B78 8 (Nat.xor c b.toNat)) c < 2 ^ 32 from this _ (by decide)
  induction bs with
  | nil => exact fun _ h => h
  | cons b bs ih =>
    intro c h
    exact ih _ (crcByte_lt _ _ (Nat.xor_lt_two_pow h (Nat.lt_of_lt_of_le b.isLt (by decide))))

theorem hdr_good (typ seq : Byte) (pl : List Byte) (h : pl.length < 2 ^ 16) : (hdr typ seq pl).good typ pl = true := by
  simp only [HgHdr.good, hdr, HgHdr.bytes, BitVec.toNat_ofNat, Nat.mod_eq_of_lt h, Nat.mod_eq_of_lt (crc32c_lt _),
    decide_true, Bool.and_self]

theorem flow_hg : flow.HgListens := ⟨by decide +kernel, by unfold State.Awake; decide +kernel⟩

/-- No frame has come, none waits, no response is queued. -/
def HgFresh (s : State) : Prop :=
  (s.hg.queue = [] ∧ s.hg.waiting = [] ∧ s.handover = none ∧ s.hg.ending = none ∧ s.hg.unlock = none ∧ s.hg.waitingDebug = []) ∧
    s.hg.last = [] ∧ s.hg.lastSeq = none

/-- The first frame after a start is in sequence, whatever its number, and repeats none. -/
theorem first_frame {s : State} {typ seq : Byte} {pl : List Byte} (h1 : s.HgListens) (h2 : HgFresh s) (h3 : pl.length < 2 ^ 16) :
    s.HgTakes typ (hdr typ seq pl) pl (s.hgTake (hdr typ seq pl)) := by
  obtain ⟨⟨q, w, o, e, u, d⟩, l, n⟩ := h2
  refine ⟨h1, ?_, hdr_good _ _ _ h3, ?_, ?_, rfl⟩
  · rw [State.hgFull, q, w, o, e, u, d]; decide
  · rw [State.hgRepeated, l]; rfl
  · rw [State.hgNext, n]

/-- The state once frame 7 is taken. -/
def taken7 (s : State) : State := { s.bump .cstHgSt 32 32 with hg := { s.hg with lastSeq := some 7 } }

/-- A service packet as the first frame. -/
def svcHdr (op : Byte) (p : Packet) (d : List Byte) : HgHdr := hdr 0x01 7 ({ p with opcode := op }.bytes ++ d)

theorem first_service {s : State} {op : Byte} {p : Packet} {d : List Byte} (h1 : s.HgListens) (h2 : HgFresh s)
    (h3 : d.length ≤ 8192) (h4 : (taken7 s).hgWaits = false) (h5 : (taken7 s).serviceCheck { p with opcode := op } = none) :
    s.HgServes (svcHdr op p d) { p with opcode := op } d (taken7 s) := by
  refine ⟨first_frame h1 h2 ?_, h3, h4, h5⟩
  have : ({ p with opcode := op } : Packet).bytes.length = 64 := by simp [Packet.bytes, leBytes]
  rw [List.length_append]
  omega

theorem flow_fresh : HgFresh flow := ⟨⟨rfl, rfl, rfl, rfl, rfl, rfl⟩, rfl, rfl⟩

/-- A debug frame of 8 bytes on the class map of the last basin. -/
def debugPl (r : Reg) : List Byte := leBytes 6 r.addr.toNat ++ [0, 0, 1] ++ List.replicate 7 0
def busyHg (n : Nat) : State := { flow with hg := { flow.hg with queue := List.replicate n ⟨0x81, 0, 0, []⟩ } }
def statusHdr : HgHdr := svcHdr 0xC5 (pk 0xC5 0) []
/-- It has been executed. -/
def after : State := { flow with hg := { flow.hg with last := [(7, statusHdr.crc, ⟨0x81, 7, 0, []⟩)], lastSeq := some 7 } }

theorem listens_hg {s : State} (h : s.hgUp = true) (p : s.start.pwrGood = true) (q : s.site = stFlow) : s.HgListens := ⟨h, p, .inl q⟩

/-- A full queue; a packet's frame in form and a debug frame that is not; a repeat; a frame out of sequence. -/
theorem witness_HeadgateFrames :
    ((busyHg 4).HgListens ∧ (busyHg 4).hgFull = true) ∧
    (∃ typ h pl, frameOf (.hgDebugRead (hdr 2 7 [0]) [0]) = some (typ, h, pl, false)) ∧
    ((busyHg 3).HgListens ∧ (busyHg 3).hgFull = false) ∧
    ∃ pl, frameOf (.imgStatus statusHdr (pk 0xC5 0) []) = some (0x01, statusHdr, pl, true) ∧ statusHdr.good 0x01 pl = true ∧
      after.HgListens ∧ after.hgRepeated statusHdr = some ⟨0x81, 7, 0, []⟩ ∧ flow.hgRepeated statusHdr = none ∧
      after.hg.lastSeq = some 7 ∧ after.hgRepeated (svcHdr 0xC5 (pk 0xC5 1) []) = none ∧ (svcHdr 0xC5 (pk 0xC5 1) []).fseq ≠ 7 + 1 := by
  refine ⟨⟨listens_hg ?_ rfl ?_, ?_⟩, ⟨_, _, _, rfl⟩, ⟨listens_hg ?_ rfl ?_, ?_⟩, _, rfl, hdr_good _ _ _ ?_, listens_hg ?_ rfl ?_, ?_⟩
  all_goals decide +kernel

/-- DEBUG_UNLOCKED. -/
def open_ : State := flow.putFld .secSt 6 1 1

theorem open_fresh : HgFresh open_ := flow_fresh
theorem open_hg : open_.HgListens := listens_hg (by decide +kernel) rfl (by decide +kernel)

theorem witness_HeadgateFrames_debug :
    flow.HgListens ∧ (hdr 0x04 7 []).good 0x04 [] = true ∧ flow.hg.queue = [] ∧ (busyHg 3).hg.queue ≠ [] ∧
    ({ hdr 0x04 7 [] with crc := 0 }).good 0x04 [] = false ∧
    (open_.HgTakes 0x02 (hdr 0x02 7 (debugPl (.trnQosMap 63))) (debugPl (.trnQosMap 63)) (taken7 open_) ∧
      debugOk (debugPl (.trnQosMap 63)) = true ∧ (debugPl (.trnQosMap 63)).length = 16 ∧ (taken7 open_).hg.waitingDebug = [] ∧
      (taken7 open_).windowUp = true ∧
      (taken7 open_).Meets .headgate (.trnQosMap 63) 8 false ∧ debugAddr (debugPl (.trnQosMap 63)) = (Reg.trnQosMap 63).addr.toNat ∧
      debugSize (debugPl (.trnQosMap 63)) = 8) ∧
    (let pl := debugPl (.culCfg 3) ++ List.replicate 8 0xFF
     open_.HgTakes 0x03 (hdr 0x03 7 pl) pl (taken7 open_) ∧ debugOk pl = true ∧ pl.length = 16 + debugSize pl ∧
       (taken7 open_).AtRest ∧ open_.fresh = [] ∧ (taken7 open_).Meets .headgate (.culCfg 3) 8 true ∧
       debugAddr pl = (Reg.culCfg 3).addr.toNat ∧ debugSize pl = 8 ∧ (Reg.culCfg 3).basin? = none ∧
       (taken7 open_).Meets .headgate (.trnQosMap 63) 8 true ∧ (taken7 open_).live 63 = true) := by
  refine ⟨flow_hg, hdr_good _ _ _ (by decide), rfl, ?_, ?_, ⟨first_frame open_hg open_fresh ?_, ?_, ?_, rfl, ?_, ⟨?_, ?_⟩, ?_, ?_⟩,
    first_frame open_hg open_fresh ?_, ?_, ?_, fun _ h => (List.not_mem_nil h).elim, rfl, ⟨?_, ?_⟩, ?_, ?_, ?_, ⟨?_, ?_⟩, ?_⟩
  all_goals decide +kernel

/-- A header of 512 bytes for this site (R396): SVN `n`, key `k`, a body of 4 KiB, live with state block version 1. -/
def header (n k : Byte) : List Byte :=
  imageMagic ++ [1, 0, 0xE2, 0, 0, 0, 0, 0, 0, 255, 7, 7, 0, 255, 0, 255] ++ [0, 0x10, 0, 0] ++ [n, k, 1, 0] ++
    [1, 0, 0, 0] ++ List.replicate 476 0

def beginOk (s : State) (n k : Byte) : Bool :=
  let t := taken7 s
  let d := header n k
  t.updateRefusal false = none && t.stage = 0 && headerOk d && numAt d 10 2 = 0xE2 && t.cfg.acceptedBy d && bodyLenOk (numAt d 24 4)

/-- A raised counter and a revoked key, so that all four kinds of image come. -/
def raised : State := { flow with regs := (.pwrMargin, 0) :: flow.regs, cistern := { flow.cistern with arCounter := 3, revoked := 1 } }

theorem witness_ImagesStaged_begin :
    raised.HgServes (svcHdr 0xC0 (pk 0xC0 0) (header 64 3)) { pk 0xC0 0 with opcode := 0xC0 } (header 64 3) (taken7 raised) ∧
    (pk 0xC0 0).reservedClear [] = true ∧ beginOk raised 64 3 = true ∧ raised.cistern.arCounter ≤ (imageOf (header 64 3)).svn ∧
    bit raised.cistern.revoked (imageOf (header 64 3)).keyIndex = false ∧ beginOk raised 2 3 = true ∧
    (imageOf (header 2 3)).svn < raised.cistern.arCounter ∧ beginOk raised 64 0 = true ∧
    bit raised.cistern.revoked (imageOf (header 64 0)).keyIndex = true := by
  refine ⟨first_service ⟨by decide +kernel, flow_hg.2⟩ flow_fresh ?_ ?_ ?_, ?_⟩ <;> decide +kernel

/-- Staged with `n` bytes of its 11,520 received. -/
def staging (n : Nat) (sg : Nat) : State :=
  { (flow.putFld .cstFwSt 28 4 sg).putFld .cstFwSt 0 20 n with
    cistern := { flow.cistern with staged := some (imageOf (header 64 3)) } }

theorem staging_listens (n sg : Nat) (h : (staging n sg).hgUp = true) (q : (staging n sg).site = stFlow) : (staging n sg).HgListens :=
  ⟨h, rfl, .inl q⟩

/-- The first 256 bytes; the last 256; a place that is not the next. -/
theorem witness_ImagesStaged_data :
    (let d : List Byte := List.replicate 256 0xA5
     (staging 0 1).HgServes (svcHdr 0xC1 (pk 0xC1 0) d) { pk 0xC1 0 with opcode := 0xC1 } d (taken7 (staging 0 1)) ∧
       (pk 0xC1 0).reservedClear [(16, 0, 32)] = true ∧ (taken7 (staging 0 1)).received = 0 ∧ (taken7 (staging 0 1)).stage = 1 ∧
       (imageOf (header 64 3)).rest = 11520 ∧ d.length = 256) ∧
    (let d : List Byte := List.replicate 256 0xA5
     (staging 11264 1).HgServes (svcHdr 0xC1 (pk 0xC1 11264) d) { pk 0xC1 11264 with opcode := 0xC1 } d (taken7 (staging 11264 1)) ∧
       (taken7 (staging 11264 1)).received = 11264 ∧ (pk 0xC1 11264).p 16 0 32 = 11264 ∧ (pk 0xC1 0).p 16 0 32 ≠ 11264) := by
  refine ⟨⟨first_service (staging_listens _ _ ?_ ?_) flow_fresh ?_ ?_ ?_, ?_⟩,
    first_service (staging_listens _ _ ?_ ?_) flow_fresh ?_ ?_ ?_, ?_⟩ <;> decide +kernel

/-- An `IMG_END` whose image is being verified. -/
def verifying (ok : Bool) : State :=
  { staging 11520 1 with hg := { flow.hg with ending := some ⟨⟨0, 0, 0, 0⟩, pk 0xC2 0, [], ok, 0⟩ } }

/-- The end, early and in time; the verdict decides whether it may run; an abort; a status. -/
theorem witness_ImagesStaged_end :
    ((staging 11264 1).HgServes (svcHdr 0xC2 (pk 0xC2 0) []) { pk 0xC2 0 with opcode := 0xC2 } [] (taken7 (staging 11264 1)) ∧
      (taken7 (staging 11264 1)).received ≠ (imageOf (header 64 3)).rest) ∧
    ((staging 11520 1).HgServes (svcHdr 0xC2 (pk 0xC2 0) []) { pk 0xC2 0 with opcode := 0xC2 } [] (taken7 (staging 11520 1)) ∧
      (taken7 (staging 11520 1)).received = (imageOf (header 64 3)).rest ∧ (taken7 (staging 11520 1)).stage ≤ 2 ∧
      (taken7 (staging 11520 1)).mayRun (imageOf (header 64 3)) true = true ∧
      (taken7 (staging 11520 1)).mayRun (imageOf (header 64 3)) false = false) ∧
    ((staging 0 2).HgServes (svcHdr 0xC3 (pk 0xC3 0) []) { pk 0xC3 0 with opcode := 0xC3 } [] (taken7 (staging 0 2)) ∧
      (taken7 (staging 0 2)).stage ≠ 3) ∧
    (staging 0 4).HgServes (svcHdr 0xC5 (pk 0xC5 0) []) { pk 0xC5 0 with opcode := 0xC5 } [] (taken7 (staging 0 4)) ∧
    (let v := verifying true
     (∃ w, v.hg.ending = some w ∧ w.verdict = true) ∧ v.cistern.staged = some (imageOf (header 64 3)) ∧ v.controlDown = false ∧
       v.mayRun (imageOf (header 64 3)) true = true ∧ v.mayRun (imageOf (header 64 3)) false = false ∧
       ∃ w, (verifying false).hg.ending = some w ∧ w.verdict = false) := by
  refine ⟨⟨first_service (staging_listens _ _ ?_ ?_) flow_fresh ?_ ?_ ?_, ?_⟩,
    ⟨first_service (staging_listens _ _ ?_ ?_) flow_fresh ?_ ?_ ?_, ?_⟩,
    ⟨first_service (staging_listens _ _ ?_ ?_) flow_fresh ?_ ?_ ?_, ?_⟩,
    first_service (staging_listens _ _ ?_ ?_) flow_fresh ?_ ?_ ?_, ⟨_, rfl, rfl⟩, rfl, rfl, ?_, ?_, _, rfl, rfl⟩ <;> decide +kernel

/-- The image verified, its service time and its copy to come; nothing of Rosog's in execution, or an attach that is. -/
def verified (sg : Nat) : State := { staging 11520 sg with regs := (.pwrMargin, 0) :: (staging 11520 sg).regs }
def attachHeld : Handed := ⟨.ring 8, 0, pk 0x4B 0, 0, 0, 8, 0, some 0, false, true⟩
def verifiedBusy : State := { verified 2 with handed := [attachHeld] }
def activateP (m : Nat) : Packet := pk 0xC4 m

/-- `us` µs after the window opened. -/
def inWindow (us : Nat) : State :=
  { verified 2 with
    handover := (moving 4).handover, core := { flow.core with block := some (1, 0) }
    regs := (.clkRootCnt, BitVec.ofNat 64 (us * rootPerUs)) :: (verified 2).regs }

theorem witness_HandoversAndPartialResets_activation :
    ((verified 2).HgServes (svcHdr 0xC4 (activateP 1) []) { activateP 1 with opcode := 0xC4 } [] (taken7 (verified 2)) ∧
      (activateP 1).reservedClear [(16, 0, 8)] = true ∧ (activateP 1).p 16 0 8 = 1 ∧ (taken7 (verified 2)).stage = 2 ∧
      (taken7 (verified 2)).updateRefusal true = none ∧
      (taken7 (verified 2)).cistern.arCounter ≤ (imageOf (header 64 3)).svn) ∧
    ((verified 2).HgServes (svcHdr 0xC4 (activateP 0) []) { activateP 0 with opcode := 0xC4 } [] (taken7 (verified 2)) ∧
      (activateP 0).p 16 0 8 = 0 ∧ (imageOf (header 64 3)).live = true ∧
      (imageOf (header 64 3)).stateMin ≤ (taken7 (verified 2)).running.stateVer ∧ (taken7 (verified 2)).atHandoverPoint = true ∧
      (taken7 (verified 2)).running.stateVer ≤ (imageOf (header 64 3)).stateVer) ∧
    (verifiedBusy.HgServes (svcHdr 0xC4 (activateP 0) []) { activateP 0 with opcode := 0xC4 } [] (taken7 verifiedBusy) ∧
      (taken7 verifiedBusy).atHandoverPoint = false) ∧
    (∃ w n, (moving 2).handover = some ⟨2, w, n⟩) ∧
    (let s := inWindow 5000
     ∃ w, s.handover = some ⟨4, w, 0⟩ ∧ s.cistern.staged = some (imageOf (header 64 3)) ∧ s.controlDown = false ∧
      w.windowUs ≤ 5000 ∧ 0 + w.windowUs * rootPerUs ≤ s.now ∧ s.core.blockVer = some 1 ∧
      (imageOf (header 64 3)).stateMin ≤ 1 ∧ 1 ≤ (imageOf (header 64 3)).stateVer ∧
      (inWindow 4999).now < 0 + w.windowUs * rootPerUs) ∧
    (verified 3).cistern.staged = some (imageOf (header 64 3)) ∧ (verified 3).stage = 3 ∧ (verified 3).start.released = true ∧
      (verified 3).controlDown = false := by
  refine ⟨⟨first_service ⟨?_, rfl, .inl ?_⟩ flow_fresh ?_ ?_ ?_, ?_⟩, ⟨first_service ⟨?_, rfl, .inl ?_⟩ flow_fresh ?_ ?_ ?_, ?_⟩,
    ⟨first_service ⟨?_, rfl, .inl ?_⟩ flow_fresh ?_ ?_ ?_, ?_⟩, ⟨_, _, rfl⟩,
    ⟨_, rfl, rfl, rfl, ?_, ?_, rfl, ?_, ?_, ?_⟩, rfl, ?_, rfl, rfl⟩ <;> decide +kernel

/-- 60 ms after the control domain went down, the image of the active slot sound or not. -/
def downFor60 (ok : Bool) : State :=
  { flow with controlDown := true, downOk := ok, regs := (.clkRootCnt, BitVec.ofNat 64 (60 * rootPerMs)) :: flow.regs }

theorem witness_HandoversAndPartialResets_resets :
    ((downFor60 true).NoRosogLock ∧ (downFor60 true).controlDown = true ∧
      (downFor60 true).downSince + 60 * rootPerMs ≤ (downFor60 true).now ∧ (downFor60 true).handover = none ∧
      (downFor60 true).mayRun ((downFor60 true).slotInfo (downFor60 true).activeB) (downFor60 true).downOk = true ∧
      (downFor60 false).mayRun ((downFor60 false).slotInfo (downFor60 false).activeB) (downFor60 false).downOk = false) ∧
    (flow.NoRosogLock ∧ flow.controlDown = false ∧ flow.site ≠ stFallow ∧ flow.stage ≠ 1) ∧
    ((moving 4).NoRosogLock ∧ (∃ w n, (moving 4).handover = some ⟨4, w, n⟩) ∧ (moving 4).stage ≠ 1) ∧
    (flow.HgServes (svcHdr 0xCB (pk 0xCB 0) []) { pk 0xCB 0 with opcode := 0xCB } [] (taken7 flow) ∧
      (pk 0xCB 0).reservedClear [] = true ∧ (taken7 flow).site ≠ stFallow ∧ (taken7 (staging 256 1)).stage = 1) := by
  refine ⟨⟨fun _ h => (List.not_mem_nil h).elim, rfl, ?_, rfl, ?_, ?_⟩, ⟨fun _ h => (List.not_mem_nil h).elim, rfl, ?_, ?_⟩,
    ⟨fun _ h => (List.not_mem_nil h).elim, ⟨_, _, rfl⟩, ?_⟩, first_service flow_hg flow_fresh ?_ ?_ ?_, ?_⟩ <;> decide +kernel

theorem leNat_leBytes (n v : Nat) : leNat (leBytes n v) = v % 256 ^ n := by
  induction n generalizing v with
  | zero => simp [leBytes, leNat, Nat.mod_one]
  | succ n ih =>
    simp only [leBytes, leNat, ih, BitVec.toNat_ofNat]
    rw [show 256 ^ (n + 1) = 256 * 256 ^ n by rw [Nat.pow_succ, Nat.mul_comm], Nat.mod_mul]

/-- A token of a kind, key and detail for this part, its nonce zero (R408). -/
def token (kind key detail : Byte) : List Byte :=
  [kind, key, detail, 0, 0, 0, 0, 0] ++ leBytes 8 Config.serial.toNat ++ List.replicate 7664 0

theorem token_serial (a b c : Byte) : numAt (token a b c) 8 8 = Config.serial.toNat := by
  have h : numAt (token a b c) 8 8 = leNat (leBytes 8 Config.serial.toNat) := rfl
  rw [h, leNat_leBytes]
  exact Nat.mod_eq_of_lt Config.serial.isLt

/-- The last nonce was zero. -/
def nonced : State := { flow with hg := { flow.hg with nonce := some 0 } }

theorem token_ok {s : State} {a b c : Byte} (h1 : tokenForm (token a b c) = true)
    (h2 : (s.hg.nonce == some (BitVec.ofNat 128 (numAt (token a b c) 16 16))) = true)
    (h3 : (decide (numAt (token a b c) 0 1 = 1) || !bit s.cistern.revoked (numAt (token a b c) 1 1)) = true) :
    s.tokenOk (token a b c) true = true := by
  rw [State.tokenOk, h1, h2, h3, token_serial, decide_eq_true rfl]
  rfl

theorem token_length (a b c : Byte) : (token a b c).length = 7680 := by
  simp only [token, List.length_append, List.length_replicate]
  rfl

/-- With a context resident; and at the end of its scrub, the unlock waiting for it. -/
def noncedJob : State := { job with hg := { job.hg with nonce := some 0 } }
def unlockEnding : State :=
  scrubEnding 0 (.destroy none 0 0 0 0) tookLevee
    { job with hg := { job.hg with unlock := some ⟨⟨0, 0, 0, 0⟩, pk 0xC9 0, [], true, 0⟩ } }

theorem nonced_hg : nonced.HgListens := ⟨by decide +kernel, flow_hg.2⟩

theorem token_served (a b c : Byte) :
    nonced.HgServes (svcHdr 0xC9 (pk 0xC9 0) (token a b c)) { pk 0xC9 0 with opcode := 0xC9 } (token a b c) (taken7 nonced) ∧
      (pk 0xC9 0).reservedClear [] = true ∧ (token a b c).length = 7680 := by
  have h := token_length a b c
  exact ⟨first_service nonced_hg flow_fresh (by omega) (by decide +kernel) (by decide +kernel), by decide +kernel, h⟩

/-- The first and the last key that may be revoked. -/
theorem witness_TokensAndRetests :
    (flow.HgServes (svcHdr 0xC8 (pk 0xC8 0) []) { pk 0xC8 0 with opcode := 0xC8 } [] (taken7 flow) ∧
      (pk 0xC8 0).reservedClear [] = true) ∧
    ((taken7 nonced).tokenOk (token 1 0 0) true = true ∧ numAt (token 1 0 0) 0 1 = 1 ∧ (taken7 nonced).cistern.ownerLock = false ∧
      ((List.range 8).all fun c => !(taken7 nonced).lockedCtx c) = true) ∧
    ((taken7 noncedJob).tokenOk (token 1 0 0) true = true ∧ (taken7 noncedJob).residents = [0] ∧ (taken7 noncedJob).flights = [] ∧
      (taken7 noncedJob).MayScrub ∧ (taken7 nonced).residents = [] ∧
      noncedJob.HgServes (svcHdr 0xC9 (pk 0xC9 0) (token 1 0 0)) { pk 0xC9 0 with opcode := 0xC9 } (token 1 0 0) (taken7 noncedJob)) ∧
    (∃ w, (unlockEnding).ScrubEnds ⟨0, .destroy none 0 0 0 0, some (0, 0, stFlow), tookLevee⟩ 0 stFlow (some w) ∧
      (List.range 8).all (fun c => c = 0 || !unlockEnding.resident c) = true) ∧
    ((taken7 nonced).tokenOk (token 2 0 3) true = true ∧ numAt (token 2 0 3) 0 1 = 2 ∧ numAt (token 2 0 3) 2 1 = 3 ∧
      (taken7 nonced).cistern.slotA.keyIndex ≠ 3 ∧ (taken7 nonced).cistern.slotB.keyIndex ≠ 3 ∧
      ((taken7 nonced).cistern.staged.any fun x => x.keyIndex = 3) = false) ∧
    ((taken7 nonced).tokenOk (token 3 0 0) true = true ∧ numAt (token 3 0 0) 0 1 = 3 ∧ (taken7 nonced).residents = []) ∧
    (taken7 nonced).tokenOk (token 4 0 0) true = false := by
  refine ⟨⟨first_service flow_hg flow_fresh ?_ ?_ ?_, ?_⟩, ⟨token_ok ?_ ?_ ?_, ?_⟩,
    ⟨token_ok ?_ ?_ ?_, ?_, rfl, ⟨rfl, rfl, .inl ?_⟩, ?_, first_service ⟨?_, rfl, .inl ?_⟩ flow_fresh ?_ ?_ ?_⟩,
    ⟨_, scrub_ends ?_ rfl rfl rfl, ?_⟩, ⟨token_ok ?_ ?_ ?_, ?_⟩, ⟨token_ok ?_ ?_ ?_, ?_⟩, ?_⟩
  case refine_17 => rw [token_length]; decide
  all_goals decide +kernel

theorem witness_TokensAndRetests_retest :
    (let s := flow.setSite stFallow
     s.HgServes (svcHdr 0xCA (pk 0xCA 0) []) { pk 0xCA 0 with opcode := 0xCA } [] (taken7 s) ∧ (taken7 s).site = stFallow) ∧
    (flow.HgServes (svcHdr 0xCA (pk 0xCA 0) []) { pk 0xCA 0 with opcode := 0xCA } [] (taken7 flow) ∧ (taken7 flow).site ≠ stFallow ∧
      (pk 0xCA 0).reservedClear [] = true) := by
  refine ⟨⟨first_service ⟨?_, ?_, .inr (.inl ?_)⟩ flow_fresh ?_ ?_ ?_, ?_⟩, first_service flow_hg flow_fresh ?_ ?_ ?_, ?_⟩ <;> decide +kernel

/-! ### Banks, repeats, faults and tests -/

/-- A list of right 15 in the last basin fetches the four words at its end; its queue full at their check. -/
def lister : State := { flow with lists := [{ run0 with basin := 63, right := 15 }] }
def fetcher : BurstSrc := .fetch (.list 63 0)
def lastBurst (s : State) : Burst :=
  ⟨fetcher, ditchTurnout, 15, s.requestQos 63 ditchTurnout 15, .read, 524284, 4, s.cycle, s.cycle⟩
def atCheck (s : State) : Nat := (s.burstBank 63 (lastBurst s) 0).2
def queued (n : Nat) : State :=
  { lister with cycle := 100, arbs := [⟨63, atCheck lister, List.replicate n (lastBurst lister), 0, false, 0, List.replicate 8 0⟩] }
/-- One of its bank sides is taken in the next cycle, and the next grant is an age grant. -/
def barred : State :=
  { queued 1 with
    beats := [Beat.lone 63 (atCheck lister) (lister.burstBank 63 (lastBurst lister) 0).1 false scrubTurnout 101]
    arbs := [⟨63, atCheck lister, [lastBurst lister], 7, false, 0, List.replicate 8 0⟩] }
/-- Sixteen bursts of right 15 still outstanding at its turnout. -/
def limited : State :=
  { lister with
    beats := List.replicate 16 { Beat.lone 63 0 0 false ditchTurnout 0 with last := some (15, 0, 2 ^ 20), done := false } }
/-- The bank sides of its words are parked on its turnout. -/
def parkedOn0 : State :=
  { lister with
    parks := (List.range 4).map fun i => ⟨63, (lister.burstBank 63 (lastBurst lister) i).1, false, ditchTurnout, 0⟩ }

/-- A burst at `who`'s turnout as it would enter its check: whether its limit or a full queue holds it, whether it bypasses. -/
def heldAndBypass (s : State) : Bool × Bool := (s.heldBack 63 (lastBurst s), s.bypasses 63 (atCheck s) (lastBurst s))

theorem witness_BurstsArbitrated :
    (lister.flowRuns = true ∧ lister.live 63 = true ∧ lister.burstShape 63 524284 4 = true ∧
      lister.burstShape 63 15 2 = false ∧ lister.sender 63 (.flight 0) .read 0 1 = none) ∧
    (lister.turnWait = [] ∧ lister.sender 63 fetcher .read 524284 4 = some (ditchTurnout, 15) ∧
      heldAndBypass lister = (false, false)) ∧
    (limited.sender 63 fetcher .read 524284 4 = some (ditchTurnout, 15) ∧ (heldAndBypass limited).1 = true) ∧
    ((queued 4).sender 63 fetcher .read 524284 4 = some (ditchTurnout, 15) ∧ (heldAndBypass (queued 4)).1 = true ∧
      (queued 4).atLimit 63 ditchTurnout 15 = false) ∧
    (parkedOn0.sender 63 fetcher .read 524284 4 = some (ditchTurnout, 15) ∧ heldAndBypass parkedOn0 = (false, true)) ∧
    ((queued 1).flowRuns = true ∧ (queued 1).live 63 = true ∧ (queued 1).mayIssueAt 101 = true ∧ (queued 1).decided = [] ∧
      atCheck lister < flow.cfg.checks ∧ ((queued 1).arb 63 (atCheck lister)).queue = [lastBurst lister] ∧
      ((queued 1).arb 63 (atCheck lister)).ageTurn = false ∧ (lastBurst lister).qos < 8 ∧
      (queued 1).burstFits 63 (atCheck lister) (lastBurst lister) 101 = true ∧
      (queued 1).turnoutReserved 63 (atCheck lister) ditchTurnout = false ∧
      ((List.range 16).all fun c => decide (c ≠ atCheck lister → ((queued 1).arb 63 c).queue = [])) = true) ∧
    (barred.flowRuns = true ∧ barred.burstFits 63 (atCheck lister) (lastBurst lister) 101 = false ∧
      barred.arbAgeN 63 ≤ (barred.arb 63 (atCheck lister)).count + 1 ∧
      (barred.arb 63 (atCheck lister)).queue = [lastBurst lister]) ∧
    (259 < flow.cfg.physBanks ∧ ({ flow with cycle := 17 }).sideIdle 63 259 = true ∧ flow.beats = [] ∧
      ({ flow with cycle := 16 }).sideIdle 63 259 = false) := by
  refine ⟨?_, ?_, ?_, ?_, ?_, ?_, ?_, ?_⟩ <;> decide +kernel

/-- Bank 0 parked on the scrubber, its row clean and with one bit in error. -/
def scrubbing : State := { flow with parks := [⟨0, 0, false, 25, 0⟩], regs := (.bsnScrubCfg 0, 1) :: flow.regs }
def flawed : State := { scrubbing with memChk := [(scrubbing.cfg.wordNo 0 0 (scrubbing.physRow 0 0 0), 1)] }
/-- The second canary row of its check is due. -/
def canaries : State := { scrubbing with power := { scrubbing.power with canaryDue := [1] } }
/-- The last entry of bank 0's remap table names the last row; a spare of bank 0 part copied, and copied whole. -/
def remapping : State := { flow with regs := (.bsnRemap 0 0 3, BitVec.ofNat 64 (2 ^ 63 + 2047)) :: flow.regs }
def copying (row : Nat) : State := { scrubbing with spareCopies := [⟨0, 3, 0, row, 0, []⟩] }
/-- The same where nothing is parked on the scrubber, 16 cycles on; and spare 0 given up for spare 3, copied whole. -/
def forcing : State := { flow with cycle := 16, spareCopies := [⟨0, 3, 0, 0, 0, []⟩] }
def replacing : State := { scrubbing with spareCopies := [⟨0, 3, 256, 2048, 0, []⟩] }

theorem witness_BanksScrubbedAndRepaired :
    (bit (scrubbing.reg (.bsnScrubCfg 0)) 0 = true ∧ scrubbing.power.divTo = none ∧ scrubbing.scrubNext 0 = some 0 ∧ scrubbing.beats = [] ∧
      scrubbing.syndrome (scrubbing.cfg.wordNo 0 0 (scrubbing.physRow 0 0 0)) = 0 ∧ scrubbing.live 0 = true ∧
      scrubbing.flowRuns = true ∧ nget (scrubbing.scrubber 0).rows 0 0 % scrubbing.cfg.rows = 0) ∧
    (scrubbing.canaryNext 0 0 = none ∧ canaries.scrubNext 0 = some 0 ∧ canaries.canaryNext 0 0 = some 1) ∧
    (flawed.scrubNext 0 = some 0 ∧
      ∃ i, findingOf (flawed.syndrome (flawed.cfg.wordNo 0 0 (flawed.physRow 0 0 0))) = .corrected i) ∧
    ((scrubbing.scrubber 0).descs % 16384 = 0 ∧ scrubbing.descChk = [] ∧ (scrubbing.scrubber 0).lines < 512 ∧
      scrubbing.gaugeChk = [] ∧ scrubbing.mayWalk 0 = true ∧ (scrubbing.scrubber 0).descs < 16384) ∧
    (bit (remapping.reg (.bsnFlipCfg 0)) 63 = false ∧ bit (remapping.reg (.bsnRemap 0 0 3)) 63 = true ∧
      remapping.rfld (.bsnRemap 0 0 3) 0 12 < remapping.cfg.rows ∧ (0, 0, 3) ∉ remapping.remapped ∧
      remapping.sideFree 0 (remapping.checkOfBank 0 0) 0 false 0 = true ∧ remapping.sideFree 0 (remapping.checkOfBank 0 0) 0 true 0 = true ∧
      remapping.memChk = []) ∧
    ((copying 0).spareCopy? 0 3 = some ⟨0, 3, 0, 0, 0, []⟩ ∧ ((copying 0).scrubBanks 0).contains 0 = true ∧
      (copying 0).syndrome ((copying 0).cfg.wordNo 0 0 ((copying 0).physRow 0 0 0)) = 0) ∧
    (forcing.spareCopy? 0 3 = some ⟨0, 3, 0, 0, 0, []⟩ ∧ (forcing.scrubBanks 0).contains 0 = false ∧ 0 + 16 ≤ forcing.cycle ∧
      forcing.beats = [] ∧ forcing.syndrome (forcing.cfg.wordNo 0 0 (forcing.physRow 0 0 0)) = 0 ∧ forcing.live 0 = true ∧
      forcing.flowRuns = true ∧ bit (forcing.reg (.bsnFlipCfg 0)) 63 = false) ∧
    ((copying 2048).spareCopy? 0 3 = some ⟨0, 3, 0, 2048, 0, []⟩ ∧ (copying 2048).cfg.rows ≤ 2048 ∧
      replacing.spareCopy? 0 3 = some ⟨0, 3, 256, 2048, 0, []⟩ ∧ 256 = replacing.cfg.banks + 0) := by
  refine ⟨?_, ?_, ⟨?_, 512, ?_⟩, ?_⟩ <;> decide +kernel

/-- Comparisons that stand: of a lane's block of one row and one column, of a vector packet's tile, of a screen's; `k`
comparisons of it have failed before. -/
def matP : Packet := pk 0x18 (sum2 [at16 33 0 3])
def oneTile : DTile := { zeroTile with codes := 1 :: List.replicate 31 0 }
def failed (l k : Nat) : List Repeat :=
  if k = 0 then [] else [⟨l, (List.range k).map fun i => (i, 0), none, false, false, [], 0, 0⟩]
def lanes (k : Nat) : Flight :=
  { flying matP [.write 0 1 roleO 0 0, .write 0 2 roleO 0 1] .comparing with
    units := [⟨.mxe, 0, 0⟩, ⟨.mxe, 0, 1⟩], rep := failed 0 k
    bufs := [⟨roleA, 0, oneTile, [], 0, []⟩, ⟨roleB, laneIdx 0 0, oneTile, [], 0, []⟩] }
def vecF (k : Nat) : Flight :=
  { flying (pk 0x1C 0) [.write 0 1 0 0 0] .comparing with units := [⟨.vxe, 0, 15⟩], rep := failed 0 k }
def scrF (k : Nat) : Flight :=
  { flying (pk 0x20 0) [.write 0 1 0 0 0] .comparing with units := [⟨.screen, 0, 3⟩], rep := failed 0 k }

theorem witness_RepeatsAndRestores :
    ((inAir (lanes 0)).flight? 0 = some (lanes 0) ∧ (lanes 0).id = 0 ∧ (inAir (lanes 0)).compares (lanes 0) = some (0, 0) ∧
      (lanes 0).isMatrix = true ∧
      failingLines (lanes 0) 0 (upsetWords .none (laneWords (lanes 0) 0)) .none = [] ∧
      failingLines (lanes 0) 0 (upsetWords ⟨[], [(0, 1, 0)]⟩ (laneWords (lanes 0) 0)) ⟨[], [(0, 1, 0)]⟩ = [0] ∧
      failingLines (lanes 0) 0 (upsetWords ⟨[(0, 7)], []⟩ (laneWords (lanes 0) 0)) ⟨[(0, 7)], []⟩ = [0, 64, 128] ∧
      (lanes 0).repOf 0 = none) ∧
    ((inAir (lanes 2)).flight? 0 = some (lanes 2) ∧ ((lanes 2).repOf 0).map (·.fails.length) = some 2 ∧ 0 ≠ sharedLane) ∧
    ((inAir (vecF 0)).flight? 0 = some (vecF 0) ∧ (inAir (vecF 0)).compares (vecF 0) = some (0, 0) ∧ (vecF 0).kind = .vxe ∧
      (vecF 0).repOf 0 = none ∧ ((vecF 2).repOf 0).map (·.fails.length) = some 2) ∧
    ((inAir (scrF 0)).flight? 0 = some (scrF 0) ∧ (inAir (scrF 0)).compares (scrF 0) = some (0, 0) ∧ (scrF 0).kind = .screen ∧
      (scrF 0).repOf 0 = none ∧ ((scrF 1).repOf 0).map (·.fails.length) = some 1) ∧
    ({ inAir (lanes 0) with regs := (.pwrPerf, 1) :: flow.regs }).dutyAt 0 = false := by
  refine ⟨?_, ?_, ?_, ?_, ?_⟩ <;> decide +kernel

/-- Tile 0 broken, its record in a shadow region of one unit. -/
def shadowed : State :=
  let v := setBit (setFld tile0 128 64 (zeroTile.checkOf false).toNat) 447 true
  { ((flow.putDesc 0 0 v).addRegion 0 false 15 0 1 0 (List.range 32)).stackWrite stackBase (recordHeader v false ++ List.replicate 33 0) with
    restores := [(0, 0)] }

theorem shadowed_flights : shadowed.flights.isEmpty = true := by decide +kernel

theorem witness_RepeatsAndRestores_shadow :
    (shadowed.Numbered ∧ shadowed.AtRest ∧ shadowed.restores.find? (fun x => x.1 = 0) = some (0, 0) ∧
      shadowed.idleUnit .flume 0 = some 0) ∧
    (let r := shadowed.stackRead (stackBase + dShadow (shadowed.descOf 0 0) * 256) 256
     let h := recordParse (r.2.1.take 64)
     shadowed.stackFree (stackBase + dShadow (shadowed.descOf 0 0) * 256) 5440 false = true ∧
       r.2.2 = [] ∧ h.fits (shadowed.descOf 0 0) = true ∧ h.check = dCheck (shadowed.descOf 0 0) ∧
       shadowed.descBad 0 0 = false ∧ h.len ≤ dExtentLen (shadowed.descOf 0 0) * 256 ∧
       shadowed.lockedByOther 0 0 Caller.rosog = false ∧ dWriteWait (shadowed.descOf 0 0) = false ∧
       dOpen (shadowed.descOf 0 0) = false ∧ dReaders (shadowed.descOf 0 0) = 0) := by
  have e := List.isEmpty_iff.1 shadowed_flights
  refine ⟨⟨fun _ h => ?_, fun _ h => ?_, ?_⟩, ?_⟩
  case refine_1 => rw [e] at h; cases h
  case refine_2 => rw [e] at h; cases h
  all_goals decide +kernel

/-- An event of a culvert; one of an MXE that is free as a spare, its first, and one more than its unit may have; the same
of an idle VXE. -/
def eventOf (k : UnitKind) : Event := Event.of k 63 (if k = .mxe then 160 else 15) (if k = .mxe then clsMxe else clsVxe) .transient
def told (k : UnitKind) (n : Nat) : State :=
  { flow with
    events := [eventOf k]
    cistern := { flow.cistern with
      units := [{ UnitRec.fresh k 63 (eventOf k).unit with
        events := List.replicate n ⟨0, (eventOf k).cls, .transient, 0, noBit, 0, false⟩ }] } }
/-- What history makes of it. -/
def toldAfter (k : UnitKind) (n : Nat) : State := { told k n with events := [] }.addEvent (eventOf k)

theorem witness_FaultsActedOn :
    (let e := Event.of .culvert 0xFF 3 clsCulvert .none
     let s := { flow with events := [e] }
     s.events = [e] ∧ s.eventsServed = true ∧ s.flights = []) ∧
    ((told .mxe 0).events = [eventOf .mxe] ∧ (told .mxe 0).eventsServed = true ∧
      (toldAfter .mxe 0).permanentUnit ((toldAfter .mxe 0).unitRec .mxe 63 160) = false) ∧
    ((toldAfter .mxe 20).permanentUnit ((toldAfter .mxe 20).unitRec .mxe 63 160) = true ∧
      ((told .mxe 20).unitRec .mxe 63 160).retired = false ∧ ((told .mxe 20).unitRec .mxe 63 160).testing = false ∧
      (told .mxe 20).slotOf 63 160 = none) ∧
    ((toldAfter .vxe 20).permanentUnit ((toldAfter .vxe 20).unitRec .vxe 63 15) = true ∧ (told .vxe 20).eventsServed = true ∧
      ((told .vxe 20).unitRec .vxe 63 15).retired = false ∧ ((told .vxe 20).unitRec .vxe 63 15).testing = false ∧
      (told .vxe 20).unitState ⟨.vxe, 63, 15⟩ = 0) := by
  refine ⟨⟨rfl, ?_, rfl⟩, ?_, ?_, ?_⟩ <;> decide +kernel

/-- A slot whose MXE is permanent; a basin nobody holds, and one that is held. -/
def substituting : State := { flow with substs := [⟨63, 19, 7, true⟩] }

theorem witness_FaultsActedOn_repairs :
    (substituting.substs.find? (fun x => x.basin = 63 ∧ x.furrow = 19 ∧ x.slot = 7) = some ⟨63, 19, 7, true⟩ ∧
      substituting.mxeAt 63 19 7 = some 159 ∧ substituting.unitState ⟨.mxe, 63, 159⟩ = 0 ∧ substituting.freeMxe 63 = some 160) ∧
    (let s := { flow with retiring := [63] }
     s.live 63 = true ∧ s.holdsAny 63 = false ∧ bit (s.reg (.bsnFlipCfg 63)) 63 = false ∧ s.flights = [] ∧ s.waits = [] ∧ s.handed = [] ∧ s.lists = [] ∧
       (List.range 9).all (fun r => s.ringState r = 0 || s.rfld (.ringCmd r) 48 8 ≠ 63) = true) ∧
    (let s := { job with ctxs := [(0, { own with mask := allOnes })] }.putFld (.secCtxSt 0) 4 4 2
     s.resident 0 = true ∧ bit (s.ctx 0).mask 63 = true ∧ s.tdisp 0 = 2) := by
  refine ⟨?_, ?_, ?_⟩ <;> decide +kernel

/-- A unit due: the last VXE; a free spare; an MXE in a slot, with a spare and with none. -/
def dueAt (k : UnitKind) (u : Nat) (s : State) : State :=
  { s with cistern := { s.cistern with units := [{ UnitRec.fresh k 63 u with due := some 0 }] } }
def noSpare : State := { flow with regs := ((List.range (flow.cfg.spareMxe)).map fun i =>
  (Reg.mxeSt 63 (flow.cfg.activeMxe + i), setFld (Reg.resetValue flow.cfg (.mxeSt 63 (flow.cfg.activeMxe + i))) 20 4 5)) ++ flow.regs }
def overdue : State := { dueAt .mxe 159 noSpare with cistern := { (dueAt .mxe 159 noSpare).cistern with serviceS := 14 * 86400 } }
/-- A day after the last test; a unit in its test, taken from no slot and from slot 7 of furrow 19. -/
def dayOn : State := { flow with cistern := { flow.cistern with serviceS := 24 * 3600 } }
def inTest (k : UnitKind) (u : Nat) (h : Option (Nat × Nat)) : State :=
  { flow with
    regs := (.mxeSt 63 159, setFld (flow.reg (.mxeSt 63 159)) 20 20 0xFFFF4) :: flow.regs
    cistern := { flow.cistern with units := [{ UnitRec.fresh k 63 u with testing := true, heldSlot := h }] } }

theorem witness_UnitsTested :
    (dayOn.testable .vxe 63 15 = true ∧ (dayOn.unitRec .vxe 63 15).testing = false ∧
      dayOn.intervalPast (dayOn.unitRec .vxe 63 15) = true ∧ flow.testable .vxe 63 15 = true ∧
      flow.intervalPast (flow.unitRec .vxe 63 15) = false) ∧
    ((dueAt .vxe 15 flow).testable .vxe 63 15 = true ∧ ((dueAt .vxe 15 flow).unitRec .vxe 63 15).due = some 0 ∧
      (dueAt .vxe 15 flow).unitState ⟨.vxe, 63, 15⟩ = 0 ∧ (dueAt .vxe 15 flow).power.entry = none) ∧
    ((dueAt .mxe 160 flow).testable .mxe 63 160 = true ∧ (dueAt .mxe 160 flow).unitState ⟨.mxe, 63, 160⟩ = 3) ∧
    ((dueAt .mxe 159 flow).testable .mxe 63 159 = true ∧ (dueAt .mxe 159 flow).unitState ⟨.mxe, 63, 159⟩ = 0 ∧
      (dueAt .mxe 159 flow).slotOf 63 159 = some (19, 7) ∧ (dueAt .mxe 159 flow).furrowTesting 63 19 = false ∧
      (dueAt .mxe 159 flow).listBoundary 63 19 = true ∧ (dueAt .mxe 159 flow).freeMxe 63 = some 160) ∧
    (overdue.freeMxe 63 = none ∧ overdue.cistern.policy.deferD ≠ 0 ∧ overdue.cistern.policy.deferD * 86400 ≤ overdue.cistern.serviceS - 0 ∧
      overdue.slotOf 63 159 = some (19, 7)) ∧
    (let r := (inTest .vxe 15 none).unitRec .vxe 63 15
     r.testing = true ∧ r.reply = [] ∧ r.retired = false ∧ r.heldSlot = none) ∧
    (let r := (inTest .mxe 159 (some (19, 7))).unitRec .mxe 63 159
     r.testing = true ∧ r.reply = [] ∧ r.retired = false ∧ r.heldSlot = some (19, 7) ∧
       (inTest .mxe 159 (some (19, 7))).mxeAt 63 19 7 = none) := by
  refine ⟨?_, ?_, ?_, ?_, ?_, ?_, ?_⟩ <;> decide +kernel

/-! ### Intervals, siphons, culverts, starts, power and sleep -/

/-- Right 15 exceeded its bound; a lock of tile 0 whose lease is over; a wait the last audit saw as it is, nothing feeding it. -/
def exceeding : State :=
  { flow with regs := (.trnLatCfg 63 15, BitVec.ofNat 64 (2 ^ 63 + 64)) :: flow.regs, cycle := 1023, regulators := [⟨63, 0, [15], [], [], 0, 10⟩] }
/-- At the end of an interval with nothing recorded; 50 ms after an audit. -/
def ending : State := { flow with cycle := 1023 }
def audited (s : State) : State := { s with regs := (.clkRootCnt, BitVec.ofNat 64 (50 * rootPerMs)) :: s.regs }
def leased (deadline : Nat) : State :=
  { tiled.putDesc 0 0 (setFld tile0 104 16 0x4000) with locks := [⟨0, 0, ⟨0x4000, 0⟩, 0, deadline⟩] }
def stuck : State :=
  audited { job with waits := [waited], auditSnap := [(.ring 0, 0, waited.gauge, waited.target, job.count 0 waited.gauge)] }

theorem witness_IntervalsAndCheckers :
    (flow.flowRuns = true ∧ flow.live 63 = true ∧ flow.intervalOver 63 = false ∧ ({ flow with cycle := 1022 }).intervalOver 63 = false) ∧
    (ending.flowRuns = true ∧ ending.live 63 = true ∧ ending.intervalOver 63 = true ∧
      (List.range 16).filter (fun r => ending.bounded 63 r && (ending.regulator 63).exceeded.contains r) = []) ∧
    (exceeding.flowRuns = true ∧ exceeding.live 63 = true ∧ exceeding.intervalOver 63 = true ∧
      (List.range 16).filter (fun r => exceeding.bounded 63 r && (exceeding.regulator 63).exceeded.contains r) = [15]) ∧
    flow.expired 63 = [] ∧
    ((leased 0).expired 0 = [⟨0, 0, ⟨0x4000, 0⟩, 0, 0⟩] ∧ (leased 0).NoneAt 0 0 ∧ (leased 1).expired 0 = []) ∧
    (job.rosogUp = true ∧ job.waits = [] ∧ job.auditDue = false ∧ (audited job).rosogUp = true ∧ (audited job).auditDue = true) ∧
    (stuck.rosogUp = true ∧ stuck.auditDue = true ∧ stuck.active = some 0 ∧ stuck.resident 0 = true ∧ (stuck.ctx 0).faulted = false ∧ stuck.waits = [waited] ∧
      waited.ctx = 0 ∧ stuck.stalled waited = true ∧ stuck.flights = []) := by
  refine ⟨?_, ?_, ?_, ?_, ⟨?_, fun _ h => (List.not_mem_nil h).elim, ?_⟩, ?_, ?_⟩ <;> decide +kernel

/-- The last copy bit of a regulator; one bit of a violation log's count. -/
theorem witness_IntervalsAndCheckers_hardening :
    flow.start.released = true ∧ flow.controlDown = false ∧
    (Reg.ofOffset flow.cfg (((Reg.trnRegCfg 63).addr.toNat - regBase) / 8 * 8) = some (.trnRegCfg 63) ∧
      regBase ≤ (Reg.trnRegCfg 63).addr.toNat ∧ Reg.trnRegCfg 63 ≠ .errHardenSt ∧ (1 : Word64) &&& (Reg.trnRegCfg 63).hardened ≠ 0 ∧
      (1 : Word64) &&& (Reg.trnRegCfg 63).parityBits = 0) ∧
    (Reg.ofOffset flow.cfg ((Reg.errDecodeAddr.addr.toNat - regBase) / 8 * 8) = some .errDecodeAddr ∧
      regBase ≤ Reg.errDecodeAddr.addr.toNat ∧ (1 : Word64) &&& Reg.errDecodeAddr.hardened = 0 ∧
      (bitsSet ((1 : Word64) &&& Reg.errDecodeAddr.parityBits) 64).length % 2 = 1) ∧
    ((Reg.trnRegCfg 63).present flow.cfg = true ∧ Reg.errDecodeAddr.present flow.cfg = true ∧
      (Reg.trnArbSt 63 46).present { SiteConfig.standard with activeMxe := 152 } = false) := by
  refine ⟨rfl, rfl, ?_, ?_, ?_⟩ <;> decide +kernel

/-- Requests that fill siphon 31's queue. -/
def asks (n : Nat) : State :=
  { flow with siphons := [(31, { Siphon.idle with queue := List.replicate n ⟨.window, 0, 0, 15, false, 0, 0⟩ })] }
/-- A valid page, its blocks sealed with Rosog's key, and damaged; a page gathering its blocks. -/
def paged : State := { flow with pages := [pageKey 31 0], macs := (List.range 16).map fun i => (blockKey 31 i, 15) }
def damaged : State := { paged with badBlocks := [blockKey 31 15] }
def gathering (since : Nat) : State :=
  { flow with combining := [(pageKey 31 0, 1, since)], regs := (.clkRootCnt, BitVec.ofNat 64 1536) :: flow.regs }

theorem witness_SiphonsServe_requests :
    (31 < flow.cfg.siphons ∧ flow.sphState 31 = 1 ∧ blockOk 15 = true ∧ blockOk 16252927 = true ∧
      flow.sphAsker .window = some (0, flow.rfld (.bsnArbCfg 0) 8 3) ∧ flow.queueRoom (flow.siphon 31) 0 = true ∧
      (flow.siphon 31).queue = [] ∧ (flow.siphon 31).grantedAt = none) ∧
    ((inAir { flying moveP [] (.reading 0 0) with restore := true }).sphAsker (.flight 0)).isSome = true ∧
    ((asks 772).queueRoom ((asks 772).siphon 31) 0 = false ∧ (asks 771).queueRoom ((asks 771).siphon 31) 0 = true) := by
  refine ⟨?_, ?_, ?_⟩ <;> decide +kernel

/-- A request of the window for block 15 granted. -/
def grantedReq (w : Bool) : SphReq := ⟨.window, 0, 0, 15, w, 0, 0⟩
def granted (w : Bool) : State := { paged with siphons := [(31, { Siphon.idle with granted := [grantedReq w] })] }

theorem witness_SiphonsServe_blocks :
    (paged.sphState 31 = 1 ∧ (paged.siphon 31).performs 15 false = true ∧ (paged.siphon 31).performs 15 true = true ∧
      paged.pageValid 31 (15 / 16) = true ∧ paged.pageCombining 31 (15 / 16) = none ∧ paged.blockGood 31 15 = true) ∧
    (damaged.pageValid 31 (15 / 16) = true ∧ damaged.blockGood 31 15 = false) ∧
    (flow.pageValid 31 (15 / 16) = false ∧ flow.pageCombining 31 (15 / 16) = none ∧ (flow.combinerPages 31).length < 16) ∧
    ((gathering 0).pageCombining 31 0 = some (1, 0) ∧ 0 + 256 * rootPerSph ≤ (gathering 0).now ∧
      (gathering 1).pageCombining 31 0 = some (1, 1) ∧ (gathering 1).now < 1 + 256 * rootPerSph) ∧
    (paged.pageCombining 31 0 = none ∧ 254 + 2 ≤ 256 ∧ (paged.siphon 31).request 15 false = none ∧
      (paged.siphon 31).request 15 true = none) ∧
    ((granted false).sphState 31 = 1 ∧ ((granted false).siphon 31).performs 15 false = true ∧
      ((granted false).siphon 31).request 15 false = some (grantedReq false) ∧
      ((granted true).siphon 31).performs 15 true = true ∧ ((granted true).siphon 31).request 15 true = some (grantedReq true) ∧
      (granted true).pageValid 31 (15 / 16) = true) := by
  refine ⟨?_, ?_, ?_, ?_, ?_, ?_⟩ <;> decide +kernel

/-- Patrol off and on; a siphon out of self-refresh, its calibration to come. -/
theorem witness_SiphonsServe_upkeep :
    (let s := { flow with regs := (.sphCfg 31, 0) :: flow.regs }
     s.sphState 31 = 1 ∧ bit (s.reg (.sphCfg 31)) 8 = false) ∧
    (let s := { paged with regs := (.sphCfg 31, BitVec.ofNat 64 (2 ^ 8)) :: paged.regs }
     s.sphState 31 = 1 ∧ bit (s.reg (.sphCfg 31)) 8 = true ∧ s.nextPatrol 31 (s.siphon 31).patrol = some 0 ∧
      0 + 1 < patrolBlocks ∧ (s.siphon 31).queue = [] ∧ (s.siphon 31).granted = [] ∧ s.blockGood 31 0 = true) ∧
    (let s := { flow with regs := (.sphSt 31, 0x300) :: flow.regs }
     s.sphState 31 = 3 ∧ s.site ≠ stPond ∧ s.site ≠ stTrickle ∧ s.site ≠ stFallow ∧ s.site ≠ stEntering) ∧
    (flow.site = stFlow ∧ flow.sphState 31 = 1) ∧
    (flow.site ≠ stEntering ∧ 383 < 384 ∧ flow.retiredIn 31 (383 / 32) < 2 ∧ flow.placements = []) := by
  refine ⟨?_, ?_, ?_, ?_, ?_⟩ <;> decide +kernel

/-- Culvert 3 up; a key of job 9 in context 0's first slot; a message of the next counter to tile 1. -/
def linked : State :=
  { tiled with
    regs := (.culSt 3, setFld (tiled.reg (.culSt 3)) 0 4 culUp) :: tiled.regs
    ctxs := [(0, { own with keySlots := KeySlot.job 9 false 0 [] :: List.replicate 7 .empty })] }
def msg (job : Nat) : CulMsg := ⟨1, 0, 2, 1, 0, 0, BitVec.ofNat 32 job, 1, 1, 0, 0, 2, 77⟩
def record : List Byte := recordHeader tile0 false ++ List.replicate 33 0

theorem linked_awake : linked.Awake := ⟨rfl, .inl (by decide +kernel)⟩

theorem witness_CulvertsCarry_arrivals :
    (3 < 4 ∧ linked.start.released = true ∧ linked.Awake ∧ linked.site ≠ stFallow ∧ linked.site ≠ stDetaching ∧
      linked.culState 3 = culUp ∧ (msg 8).typ = 1 ∧ messageFlits 97 false ≤ linked.creditsOut 3 ∧ record.length = 97 ∧ linked.jobHome (msg 8).jobId = none) ∧
    (linked.AtRest ∧ linked.Numbered ∧ linked.jobHome (msg 9).jobId = some (0, 0) ∧ linked.keySlot 0 0 = .job 9 false 0 [] ∧
      (linked.keySlot 0 0).accepts (msg 9).srcSite.toNat (msg 9).counter.toNat = true ∧ bit (msg 9).flags 0 = false ∧ bit (msg 9).flags 1 = false ∧ linked.live 0 = true ∧
      linked.landingDenied 0 (msg 9) = false ∧ linked.landingFits (msg 9) record = true ∧
      linked.WriteFree Caller.none 0 1 (recordParse (record.take 64)).len) := by
  refine ⟨⟨by decide, rfl, linked_awake, ?_⟩, fun _ h => (List.not_mem_nil h).elim, fun _ h => (List.not_mem_nil h).elim, ?_, ?_, ?_, ?_, ?_, ?_, ?_, ?_, ?_⟩
  all_goals try unfold State.WriteFree
  all_goals decide +kernel

/-- A message of flight 0 sent over culvert 3, awaited in its last phase and before; one that waits for credits. -/
def wayOut (sent : Bool) : Exchange := ⟨77, 0, 0, 4, 0, sent, msg 9, record⟩
def sender (ph : Phase) : Flight := { flying (pk 0x13 0) [] ph with responses := [(0, none)] }
def sending (ph : Phase) : State := { linked with flights := [sender ph], nextFlight := 1, culverts := [(3, { Culvert.idle with exchanges := [wayOut true] })] }
def unsent : State := { linked with culverts := [(3, { Culvert.idle with exchanges := [wayOut false] })] }
/-- Its outbound side has one spare lane, none. -/
def spare (n : Nat) : State := { linked with regs := (.culSt 3, setFld (linked.reg (.culSt 3)) 40 8 n) :: linked.regs }
def training : State := { linked with regs := (.culSt 3, setFld (linked.reg (.culSt 3)) 0 4 culTraining) :: linked.regs }

theorem witness_CulvertsCarry_exchanges :
    ((linked.setSite stScrub).site = stScrub ∧ (linked.setSite stScrub).start.released = true) ∧
    (((sending (.reading 0 0)).culvert 3).exchanges.find? (fun y => y.xtag = 77 && y.sent) = some (wayOut true) ∧
      (sending (.reading 0 0)).flight? 0 = some (sender (.reading 0 0)) ∧ (sender (.reading 0 0)).phase ≠ .responses) ∧
    ((sending .responses).flight? 0 = some (sender .responses) ∧ (sender .responses).isOp 0x13 = true ∧
      (sender .responses).src = .ring 0 ∧ (sending .responses).AtRest ∧ (sending .responses).ListsRun ∧
      ∀ g ∈ (sending .responses).flights, g.id = 0 → g = sender .responses) ∧
    (linked.culvert 3).exchanges = [] ∧
    ((unsent.culvert 3).exchanges = [wayOut false] ∧ unsent.culState 3 = culUp ∧
      (wayOut false).flits ≤ min 1024 ((unsent.culvert 3).credits + 4)) ∧
    ((spare 1).culState 3 ≠ culFailed ∧ (spare 1).rfld (.culSt 3) 40 8 = 1 ∧ (spare 0).rfld (.culSt 3) 40 8 = 0 ∧
      ((spare 0).culvert 3).exchanges = []) ∧
    training.culState 3 = culTraining := by
  refine ⟨?_, ?_, ⟨?_, ?_, rfl, ?_, fun _ h => (List.not_mem_nil h).elim, fun g h _ => List.mem_singleton.1 h⟩, ?_, ?_, ?_, ?_⟩
  case refine_5 => intro g h; rw [List.mem_singleton.1 h]; decide
  all_goals decide +kernel

theorem witness_FenceHolds :
    (linked.start.released = true ∧ linked.flights = [] ∧ linked.site ≠ stDry ∧ linked.start.fencing = false) ∧
    (let s := { linked with start := { linked.start with fenceAck := true } }
     s.start.pwrGood = true ∧ s.start.fenceAck = true ∧ s.site ≠ stFallow ∧ s.start.fencing = false ∧ s.site ≠ stDry) ∧
    (let s := { linked with start := { linked.start with fencing := true, fenceReq := true } }
     s.exchangesDone = true ∧ ({ s with culverts := [(3, { Culvert.idle with exchanges := [wayOut true] })] }).exchangesDone = false) := by
  refine ⟨⟨rfl, rfl, ?_, ?_⟩, ?_, ?_⟩ <;> decide +kernel

/-! ### Starts, power, sleep -/

/-- The site in step `k` of a start, powered. -/
def step_ (k : Nat) : State :=
  { flow with start := { flow.start with step := k, released := false }, regs := (.pwrSt, 9) :: flow.regs }
def noResult : StepResult := ⟨7, 0, false, false, 0, 0, [], 0, [], [], [], [], [], [], [], 0, 1⟩

theorem witness_StartsRun_pins :
    ({ flow with start := { flow.start with pwrGood := false } }).start.pwrGood = false ∧
    (flow.start.pwrGood = true ∧ 3 ≤ flow.start.step ∧ flow.start.clockLost = false ∧ flow.site ≠ stDry) ∧
    (let s := { step_ 3 with start := { (step_ 3).start with resetAsserted := true } }
     s.start.resetAsserted = true ∧ s.start.pwrGood = true ∧ s.start.step = 3 ∧ s.start.clockLost = false) ∧
    ({ flow with start := { flow.start with clockLost := true } }).start.clockLost = true := by
  refine ⟨rfl, ?_, ?_, rfl⟩ <;> decide +kernel

/-- Images that run and images that do not; a step with a failed known-answer test, and one without. -/
theorem witness_StartsRun_steps :
    ((step_ 1).startHeld = false ∧ (step_ 2).startHeld = false ∧ (step_ 3).startHeld = false) ∧
    ((step_ 4).startHeld = false ∧ (step_ 4).cistern.copyPending = false ∧ (step_ 4).bootSlot true true = some (false, false) ∧
      (step_ 4).bootSlot false false = none) ∧
    ((step_ 5).startHeld = false ∧ ({ noResult with katFailed := 1 } : StepResult).katFailed ≠ 0 ∧
      (({ step_ 5 with start := { (step_ 5).start with ms := (step_ 5).start.ms + 1 } }.putFld .devStartRes 32 8 0).verdicts
        noResult).fallowCause noResult = none) ∧
    ((step_ 6).startHeld = false ∧ (step_ 6).coreSettled = true ∧ (step_ 7).startHeld = false ∧ (step_ 4).start.step ≠ 0 ∧
      ({ step_ 6 with power := { flow.power with supply := some ⟨140, 140, 0, true⟩ } }).coreSettled = false) := by
  refine ⟨?_, ?_, ?_, ?_⟩ <;> decide +kernel

/-- A hot and a cool reading; the thermal trip; requests granted and not. -/
def cold : PowerReading := ⟨2400, 800, 60, 60⟩
def settling (g : Bool) : State := { flow with power := { flow.power with supply := some ⟨140, 140, 0, g⟩ } }
def trip : State := { flow with start := { flow.start with thermTrip := true } }

/-- PWR_MARGIN listed, so that nothing open is read. -/
def tracked : State := { flow with regs := (.pwrMargin, 0) :: (.pwrCfg, BitVec.ofNat 64 (2 ^ 40)) :: flow.regs }

/-- A raise that a canary asked for, to a level below the grant and above it. -/
def raisedTo (v : Nat) : State := { settling true with power := { (settling true).power with lowCanary := v } }

theorem witness_PowerManaged :
    (flow.managing = true ∧ flow.hot cold = false ∧ flow.power.thermal = false ∧ flow.hot ⟨2400, 800, 100, 84⟩ = true ∧ 1 ≤ flow.duty ∧
      flow.start.thermTrip = false) ∧
    ({ flow with power := { flow.power with dMs := [16, 15] } }).power.dMs ≠ [] ∧ trip.start.thermTrip = true ∧
    (∃ q, (settling true).power.supply = some q ∧ (settling true).power.entry = none ∧ (settling true).power.sramWant = 0 ∧
      q.granted = true ∧ (settling true).power.divWait = none) ∧
    ((raisedTo 4).power.lowCanary ≠ 0 ∧ (raisedTo 4).power.lowCanary ≤ (raisedTo 4).sramGrant ∧
      (raisedTo 250).sramGrant < (raisedTo 250).power.lowCanary) ∧
    (flow.start.pwrGood = true ∧ flow.site ≠ stDry ∧ flow.site ≠ stScrub ∧ (flow.setSite stScrub).managing = true) ∧
    (∃ q, (settling false).power.supply = some q ∧ q.granted = false) ∧
    ({ flow with power := { flow.power with keeperPending := true } }).power.keeperPending = true ∧
    (tracked.flowRuns = true ∧ tracked.power.supply = none ∧ tracked.tracking = true ∧ tracked.sramReq < 150 ∧
      tracked.power.canaryError = false ∧ tracked.power.noLowerUntil ≤ tracked.now ∧ tracked.rfld .pwrMargin 0 8 + 1 ≤ tracked.sramReq) := by
  refine ⟨?_, ?_, rfl, ⟨_, rfl, rfl, rfl, rfl, rfl⟩, ?_, ?_, ⟨_, rfl, rfl⟩, rfl, ?_, ?_, ?_, ?_⟩
  case refine_7 => rw [State.tracking_eq]; decide +kernel
  all_goals decide +kernel

/-- An entry of the owner's to state `k`, in drain and ready to commit, its keeper ready or not. -/
def entering (k st : Nat) (ready : Bool := true) : State :=
  { empty with
    regs := [(.pwrSt, 9), (.pwrMargin, 0), (.pwrKeeper, if ready then 2 else 0)]
    power := { empty.power with entry := some ⟨k, st, none, 0, false, 0, false, false⟩, supply := none } }
def asleep (k : Nat) : State := { empty with regs := [(.pwrSt, BitVec.ofNat 64 k), (.pwrMargin, 0)] }

theorem witness_SitesSleepAndWake :
    (∃ e, (entering 4 3).power.entry = some e ∧ e.src = none ∧ (entering 4 3).refusers none = [] ∧ e.step = 3 ∧ e.woken = false ∧
      (entering 4 3).power.divTo = none ∧ bit ((entering 4 3).reg .pwrKeeper) 1 = true ∧ (entering 4 3).power.supply = none ∧ (entering 4 3).sramReq = 140 ∧ (entering 4 3).sramGrant = 140 ∧ e.target = 4) ∧
    ((entering 4 3 false).refusers none = [] ∧ (entering 4 3 false).power.divTo = none ∧
      bit ((entering 4 3 false).reg .pwrKeeper) 1 = false) ∧
    (({ entering 1 3 with restores := [(63, 5)] }).refusers none ≠ [] ∧
      ({ entering 1 3 with power := { (entering 1 3).power with divTo := some (5, 64) } }).power.divTo ≠ none) ∧
    (∃ e, (entering 1 4).power.entry = some e ∧ e.src = none ∧ e.step = 4) ∧
    ((asleep stPond).start.released = true ∧ (asleep stPond).start.thermTrip = false ∧ (asleep stPond).sphState 0 = 1 ∧
      ({ asleep stPond with start := { flow.start with thermTrip := true } }).site = stPond) ∧
    (WakeEvent.culvert ≠ .threshold ∧ (asleep stSlack).site = stSlack ∧ (asleep stPond).site = stPond ∧
      (asleep stTrickle).site = stTrickle) ∧
    ((asleep stTrickle).trickleCause ⟨0, 0, 0, false⟩ = 0 ∧ (asleep stTrickle).trickleCause ⟨0, 0, 0, true⟩ = 4) := by
  refine ⟨⟨_, rfl, rfl, ?_, rfl, rfl, rfl, ?_, rfl, ?_, ?_, rfl⟩, ?_, ?_, ⟨_, rfl, rfl, rfl⟩, ?_, ?_, ?_⟩ <;> decide +kernel

/-! ### Invariants at release, and states a step leads on from -/

/-- A site in reset whose test port drives the pins. -/
def driven : State :=
  { flow with start := { flow.start with resetAsserted := true }, tap := { flow.tap with instr := .extest, driven := true } }
/-- A key revoked, the counter at its last fuse. -/
def worn : State := { flow with cistern := { flow.cistern with arCounter := 64, revoked := 8 } }

theorem witness_PinsDrivenOnlyInReset :
    State.reset.PinsSafe ∧ driven.PinsSafe ∧ driven.tap.driven = true ∧ ∃ t, step driven = .next t :=
  ⟨(fun h => by cases h), fun _ => ⟨rfl, rfl⟩, rfl, _, rfl⟩

theorem witness_NoRollback :
    State.reset.cistern.arCounter ≤ 64 ∧ worn.cistern.arCounter ≤ 64 ∧ ∃ t, step worn = .next t := by
  refine ⟨?_, ?_, _, rfl⟩ <;> decide +kernel

theorem witness_StoresStayCanonical : State.reset.Canonical ∧ tiled.Canonical ∧ ∃ t, step tiled = .next t := by
  refine ⟨?_, ?_, _, rfl⟩ <;> unfold State.Canonical <;> decide +kernel

theorem witness_QueueAndDesignKept : bit worn.cistern.revoked 3 = true ∧
    ∃ t, step { worn with pending := [.tapReset, .mgtNonce] } = .next t := ⟨by decide +kernel, _, rfl⟩

/-! ### The spec's worked examples -/

/-- "Where a word lands" (R34, R35): site address 0x0A73_A000 and the word after it. -/
theorem test_word_place : flow.placeOf 0xA73A000 8 = .mem 5 0x73A000 ∧ flow.bankRow 5 (0x73A000 / 64) = (78, 462) ∧
    flow.bankRow 5 (0x73A040 / 64) = (79, 462) := by decide +kernel

/-- "Three addresses from one incident" (R432, R441, R442). -/
theorem test_register_addresses : (Reg.mxeCnt 5 37).addr = 0x301162508 ∧ (Reg.trnLatSt 20 12).addr = 0x3015110C8 ∧
    (Reg.sphPatrol 12).addr = 0x3002C0028 := by decide +kernel

/-- "One record, striped and local" (R291, R293, R294). -/
theorem test_stripes :
    let r : Region := ⟨0, false, 2, 0, 2 ^ 32, 0, 2 ^ 32 - 1⟩
    windowOf 0x80041A00 = 0x004080041A00 ∧ r.locate .standard 0x80041A00 = (1, 0x04002A00) ∧
      r.locate .standard 0x80042000 = (2, 0x04002000) := by decide +kernel
theorem test_slices :
    let r : Region := ⟨1, true, 2, 0x8000, 2 ^ 30, 2 ^ 32, 2 ^ 32 - 1⟩
    windowOf 0x118000000 = 0x004120000000 ∧ r.locate .standard 0x118000000 = (12, 0x08000000) := by decide +kernel

/-- "One S4 block" (R64, R70): thirty values of 0.2, 3.1 at column 5, −1.9 at column 17, as FP32. -/
def s4Block : List Val :=
  (List.range 32).map fun i => ofF32 (if i = 5 then 0x40466666 else if i = 17 then 0xBFF33333 else 0x3E4CCCCD)
theorem test_s4_block : exactScale 6 true s4Block = 0x7A ∧
    (encodeS4Block 0x7A s4Block).2.1 = [(5, 0x63), (17, 0xC3)] ∧
    (encodeS4Block 0x7A s4Block).1 = (List.range 32).map (fun i => if i = 5 ∨ i = 17 then 0 else 6) ∧
    leBytes 4 (recordOf [(5, 0x63), (17, 0xC3)]) = [0x65, 0x2C, 0x0E, 0x0B] := by decide +kernel

/-- R63: 460 and the tie 464 round to 448; 470 saturates and counts. -/
theorem test_e4m3_rounding : fpE4M3.encode (.fin 460 0) = (0x7E, false) ∧ fpE4M3.encode (.fin 464 0) = (0x7E, false) ∧
    fpE4M3.encode (.fin 470 0) = (0x7E, true) := by decide +kernel

/-- R240: the stream of words 5, 7, 1 has S1 = 13 and S2 = 30. -/
theorem test_balance : checkBalance [5, 0, 0, 0, 7, 0, 0, 0, 1, 0, 0, 0] = BitVec.ofNat 64 (30 * 2 ^ 32 + 13) := by decide +kernel

/-- "Routing, gathering and combining": 0 + 0.62109375 × 1.5 = 0.931640625 in FP32 (R149). -/
theorem test_reduce : (reduceElem fpFp32 .zero (ofF32 0x3F1F0000) (ofF32 0x3FC00000)).2 = (0x3F6E8000, false) := by decide +kernel

/-- "One flipped bit, then two" (R230, R231): row 3 holds 1.0; bit 126 inverted; bits 126 and 98. -/
def oneWord : BitVec 512 := BitVec.ofNat 512 (0x3F800000 * 2 ^ 96)
theorem test_code : bankCode oneWord = 0x3F8000000008 ∧
    findingOf (bankCode (oneWord ^^^ BitVec.ofNat 512 (2 ^ 126)) ^^^ bankCode oneWord) = .corrected 126 ∧
    findingOf (bankCode (oneWord ^^^ BitVec.ofNat 512 (2 ^ 126 + 2 ^ 98)) ^^^ bankCode oneWord) = .bad 0 2 := by decide +kernel

/-- "One activation tile, three flag settings": the dense length of 64 × 64 I8 (R58, R66). -/
theorem test_lengths : denseLen 0 64 64 = 4224 := by decide +kernel

/-- "A layer list in basin 12": the bytes of packet 2 (R204). -/
theorem test_packet_bytes :
    (⟨3, 0, 0x42, 0, 3, 0, 0, 0, BitVec.ofNat 384 (0x4D + 0x40 * 2 ^ 32)⟩ : Packet).bytes =
      [3, 0, 0x42, 0, 3, 0, 0, 0, 0, 0, 0, 0, 0, 0, 0, 0, 0x4D, 0, 0, 0, 0x40, 0, 0, 0] ++ List.replicate 40 0 := by decide +kernel
/-- Slot 0 of basin 12 is list 768 (R37). -/
theorem test_list_owner : fld (job.callerOf (.list 12 0)).owner 0 13 = 768 := by decide +kernel

/-- "A refusal, then an abort": NAME is "BSN12 " (R337). -/
theorem test_refuser : refuserName 0x0C = leNat [0x42, 0x53, 0x4E, 0x31, 0x32, 0x20] := by decide +kernel

/-- "A cell that fails twice" (R103): rows 19 and 11 with columns 45 and 61 cross at cell (3, 5); MXE 37 serves furrow 4, slot 5. -/
theorem test_cell : cellNamed [19] [45] = cellNamed [11] [61] ∧ cellNamed [19] [45] = 3 * 16 + 5 ∧
    flow.slotOf 5 37 = some (4, 5) := by decide +kernel

/-- "A burst that loses", cycle 0: VXE 3 is granted banks 66 to 69 in cycles 1 to 4, furrow 4 stays queued (R163). -/
def vxe3 : Burst := ⟨.flight 1, 3, 10, 5, .read, 66, 4, 0, 0⟩
def furrow4 : Burst := ⟨.flight 0, 31, 4, 2, .read, 64, 4, 0, 0⟩
def contested : State := { flow with arbs := [⟨5, 4, [furrow4, vxe3], 0, false, 0, List.replicate 8 0⟩] }
theorem test_arbitration :
    let t := out (exec (.checkDecision 5 4) contested)
    (t.arb 5 4).queue = [furrow4] ∧ t.beats.map (fun x => (x.bank, x.cycle)) = [(66, 1), (67, 2), (68, 3), (69, 4)] := by
  decide +kernel
theorem test_reset_qos : flow.requestQos 5 31 4 = 2 ∧ flow.requestQos 5 3 10 = 5 := by decide +kernel

/-- "One late stretch", interval 0: DEPTH of rights 0 to 11 becomes 1, and a field of 15 reads 11 (R178, R180). -/
def late : State :=
  { flow with
    regs := (.trnLatCfg 20 12, BitVec.ofNat 64 (2 ^ 63 + 400)) :: (.trnOtCfg 20 31, 0x00000000000F0000) :: flow.regs
    cycle := 1023, regulators := [⟨20, 0, [12], [], [], 0, 10⟩] }
theorem test_regulator :
    let t := out (exec (.regulatorIntervalEnd 20) late)
    (List.range 16).map (t.depth 20) = [1, 1, 1, 1, 1, 1, 1, 1, 1, 1, 1, 1, 0, 0, 0, 0] ∧ t.otCur 20 31 4 = 11 := by decide +kernel

/-- "Admission, a power cap and the return": words of the refusal and of the grant (R184–R186). -/
def rightReply (furrow : Nat) : Option Reply :=
  ((out (exec (.rightAdmit (.ring 0) (admit12 furrow)) admissions)).ring 0).waiting.getLast?
theorem test_oversubscribed :
    (rightReply 500).map (fun r => (r.status, r.w0, r.w1, r.w2, r.w3)) = some (.oversubscribed, 0, 44, 3456, 3000) := by decide +kernel
theorem test_admitted : (rightReply 450).map (fun r => (r.status, r.w0, r.w1)) = some (.ok, 0, 6) := by decide +kernel

/-- "Creating a context", masked to its home basin alone, its region cut to 256 units: words 0, 0, 0x80, 0
(R220), its region from granule 0. -/
def create2 : Packet :=
  pk 0x42 (sum2 [at16 16 0 2, at16 17 0 2, at16 18 0 0x99, at16 19 0 14, at16 20 0 4, at16 28 0 256, at16 30 0 256])
def created2 : State := out (exec (.ctxCreate (.ring 8) create2 true) empty)
theorem test_create :
    (created2.ring 8).waiting.map (fun r => (r.status, r.w0, r.w1, r.w2, r.w3)) = [(.ok, 0, 0, 0x80, 0)] ∧
      (created2.ctx 2).base = 0 ∧ (created2.ctx 2).len = 256 * 4 := by decide +kernel

/-- "Attaching a site with one failed basin" (R356), here with one basin left: words 1, 31, 160 and 180, 160 being the active MXEs
of a standard basin. -/
def oneLeft : State :=
  { State.reset with regs := [(.devBasinLive, 1), (.sphSt 20, 0x200)] ++ State.reset.regs }
theorem test_attach :
    let t := out (exec (.attachComplete (.ring 8) (attachP 17)) oneLeft)
    (t.ring 8).waiting.map (fun r => (r.status, r.w0, r.w1, r.w2, r.w3)) = [(.ok, 1, 31, 160, 180)] ∧ t.siteId = 17 := by
  decide +kernel

/-- AES-256 of R298, on the example vector of FIPS 197, C.3. -/
theorem test_aes256 :
    aes256 ((List.range 32).map (BitVec.ofNat 8 ·)) ((List.range 16).map fun i => BitVec.ofNat 8 (i * 17)) =
      [0x8E, 0xA2, 0xB7, 0xCA, 0x51, 0x67, 0x45, 0xBF, 0xEA, 0xFC, 0x49, 0x90, 0x4B, 0x49, 0x60, 0x89] := by decide +kernel

/-! ### Rules of the spec, one step each -/

/-- A gauge wraps (R52): 0xFFFF_FFFF and 1 give 0, which satisfies a target it reached before the wrap. -/
theorem test_gauge_wraps : (out (exec (.setGauge (.ring 0) (pk 0x04 (7 + 0xFFFFFFFF * 2 ^ 32))) job)).count 0 7 = 0xFFFFFFFF ∧
    reached 0 0xFFFFFFFF = true := by decide +kernel

/-- A broken tile answers a lock once (R49). -/
theorem test_lock_broken :
    let s := tiled.putDesc 0 0 (setBit tile0 121 true)
    let t := out (exec (.tileLock (.ring 0) lockP) s)
    (t.ring 0).waiting.map (·.status) = [.tileBroken] ∧ dBroken (t.descOf 0 0) = false ∧ t.locks = [] := by decide +kernel

/-- A `NOP` with a parameter bit set (R203, R217). -/
theorem test_reserved_bit : ((out (exec (.nop (.ring 0) (pk 0x01 1)) job)).ring 0).waiting.map (·.status) = [.badParam] := by
  decide +kernel

/-- IDCODE reads 0x100E_2B4F (R431). -/
theorem test_idcode :
    (out (exec .jtagIdcode flow)).tap.out = (List.range 32).map (fun i => decide (0x100E2B4F / 2 ^ i % 2 = 1)) := by decide +kernel

end Sys2Proof.Tests
end

section
/-! SUPPORT. Packets that complete at dispatch: what reading the lines a packet names leaves as it was, what one completed packet
does to its source's accounts, and how a packet that finds its source empty is dispatched. -/

namespace Sys2Proof.Machine

/-! ### Counted and logged reads (R235, R236) -/

/-- From `s` to `t` reads of descriptors or gauge lines have been counted, logged and posted, and nothing else has changed. -/
def State.OnlyNoted (s t : State) : Prop :=
  { t with regs := s.regs, fresh := s.fresh, sram := s.sram, events := s.events, lostEvents := s.lostEvents } = s ∧
    ∀ r, (∀ b, r ≠ .bsnEccSt b ∧ r ≠ .bsnEccLog b) → t.reg r = s.reg r

theorem State.OnlyNoted.refl (s : State) : s.OnlyNoted s := ⟨rfl, fun _ _ => rfl⟩

theorem State.OnlyNoted.trans {s t u : State} (h : s.OnlyNoted t) (k : t.OnlyNoted u) : s.OnlyNoted u := by
  refine ⟨?_, fun r hr => (k.2 r hr).trans (h.2 r hr)⟩
  have e := congrArg (fun x : State => { x with
    regs := s.regs, fresh := s.fresh, sram := s.sram, events := s.events, lostEvents := s.lostEvents }) k.1
  exact e.trans h.1

theorem State.markSram_onlyNoted (s : State) (b : Nat) : s.OnlyNoted { s with sram := markSram s.sram b } :=
  ⟨rfl, fun _ _ => rfl⟩

theorem State.bump_onlyNoted (s : State) (b lo n i : Nat) : s.OnlyNoted (s.bump (.bsnEccSt b) lo n i) := by
  refine ⟨?_, fun _ hr => s.reg_bump_ne (hr b).1 lo n i⟩
  unfold State.bump
  split <;> rfl

theorem State.putReg_onlyNoted (s : State) (b : Nat) (v : Word64) : s.OnlyNoted (s.putReg (.bsnEccLog b) v) :=
  ⟨rfl, fun _ hr => s.reg_putReg_ne (hr b).2 v⟩

theorem State.setW1c_onlyNoted (s : State) (b : Nat) (m : Word64) : s.OnlyNoted (s.setW1c (.bsnEccLog b) m) :=
  ⟨rfl, fun _ hr => s.reg_setW1c_ne (hr b).2 m⟩

theorem State.eccLog_onlyNoted (s : State) (b kind bank row r c t : Nat) :
    s.OnlyNoted (s.eccLog b kind bank row r c t) := by
  unfold State.eccLog
  split
  · exact .refl s
  · exact (s.putReg_onlyNoted b _).trans (State.setW1c_onlyNoted _ b _)

theorem State.post_onlyNoted (s : State) (e : Event) : s.OnlyNoted (s.post e) := by
  unfold State.post
  split <;> exact ⟨rfl, fun _ _ => rfl⟩

theorem State.readDesc_onlyNoted (s : State) (b d : Nat) : s.OnlyNoted (s.readDesc b d).1 := by
  unfold State.readDesc
  split
  · exact (s.markSram_onlyNoted b).trans (State.bump_onlyNoted _ b 32 32 1)
  · exact s.markSram_onlyNoted b

theorem State.noteBadDesc_onlyNoted (s : State) (b d t : Nat) (ends : Bool) :
    s.OnlyNoted (s.noteBadDesc b d t ends) := by
  unfold State.noteBadDesc
  split
  · exact ((s.bump_onlyNoted b 16 16 1).trans (State.eccLog_onlyNoted _ _ _ _ _ _ _ _)).trans (State.post_onlyNoted _ _)
  · exact .refl s

theorem State.noteLine_onlyNoted (s : State) (b j t : Nat) : s.OnlyNoted (s.noteLine b j t) := by
  unfold State.noteLine
  refine (s.markSram_onlyNoted b).trans ?_
  generalize ({ s with sram := markSram s.sram b } : State) = v
  simp only
  split
  · exact .refl v
  · exact v.bump_onlyNoted b 32 32 1
  · exact ((v.bump_onlyNoted b 16 16 1).trans (State.eccLog_onlyNoted _ _ _ _ _ _ _ _)).trans (State.post_onlyNoted _ _)

/-- The reads at a packet's dispatch are counted and logged, and change nothing else. -/
theorem State.readNamed_onlyNoted (s : State) (b : Nat) (p : Packet) : s.OnlyNoted (s.readNamed b p) := by
  unfold State.readNamed
  refine foldl_keeps s.OnlyNoted _ (fun t x h => h.trans (t.noteLine_onlyNoted _ _ _)) _ _ ?_
  refine foldl_keeps s.OnlyNoted _ (fun t x h => h.trans ?_) _ _ (.refl s)
  exact (t.readDesc_onlyNoted x.1 x.2).trans (State.noteBadDesc_onlyNoted _ _ _ _ _)

section
variable {s t : State} (h : s.OnlyNoted t)
include h

theorem State.OnlyNoted.same : s.SameStores t :=
  ⟨(congrArg State.mem h.1 :), (congrArg State.memChk h.1 :), (congrArg State.desc h.1 :), (congrArg State.gauge h.1 :),
    (congrArg State.stack h.1 :)⟩

theorem State.OnlyNoted.dueIncs : t.dueIncs = s.dueIncs := (congrArg State.dueIncs h.1 :)

theorem State.OnlyNoted.lists : t.lists = s.lists := (congrArg State.lists h.1 :)

theorem State.OnlyNoted.list? (b k : Nat) : t.list? b k = s.list? b k := by
  simp only [State.list?, h.lists]

theorem State.OnlyNoted.ring (k : Nat) : t.ring k = s.ring k :=
  (congrArg (fun x : State => x.ring k) h.1 :)

theorem State.OnlyNoted.spawnOf (src : Src) : t.spawnOf src = s.spawnOf src := by
  cases src with
  | list b k => simp only [State.spawnOf, h.list?]
  | ring r => rfl
  | headgate => rfl

theorem State.OnlyNoted.basinOf (src : Src) : t.basinOf src = s.basinOf src := by
  cases src with
  | ring r =>
    have hreg : t.reg (.ringCmd r) = s.reg (.ringCmd r) := h.2 _ fun b => by simp
    simp only [State.basinOf, State.rfld, hreg]
  | list b k => rfl
  | headgate => rfl

theorem State.OnlyNoted.inFlight (src : Src) : t.inFlight src = s.inFlight src := by
  have hf : t.flights = s.flights := (congrArg State.flights h.1 :)
  have hw : t.waits = s.waits := (congrArg State.waits h.1 :)
  have hh : t.handed = s.handed := (congrArg State.handed h.1 :)
  simp only [State.inFlight, hf, hw, hh, h.lists, h.spawnOf]

/-- A packet that completes after such reads has completed from the state before them. -/
theorem State.OnlyNoted.completed {u : State} {src : Src} {p : Packet} {st : Status} {w0 : BitVec 32}
    (c : t.Completed u src p st w0) : s.Completed u src p st w0 := by
  cases src with
  | ring k => simpa only [State.Completed, h.ring] using c
  | list b k => simpa only [State.Completed, h.ring, h.list?] using c
  | headgate => exact c

end

/-! ### Lists written and read back -/

/-- A list put in its slot is what the slot reads. -/
theorem State.list?_putList_self {s : State} {b k : Nat} {l l' : ListRun} (h : s.list? b k = some l)
    (hb : l'.basin = l.basin) (hk : l'.slot = l.slot) : (s.putList l').list? b k = some l' := by
  have hl : l.basin = b ∧ l.slot = k := by simpa using List.find?_some h
  obtain ⟨rfl, rfl⟩ := hl
  have hp : (fun x : ListRun => decide (x.basin = l.basin ∧ x.slot = l.slot)) ∘
      (fun x => if x.basin = l'.basin ∧ x.slot = l'.slot then l' else x) =
      fun x => decide (x.basin = l.basin ∧ x.slot = l.slot) := by
    funext x
    simp only [Function.comp_apply, hb, hk]
    split
    · next hx => simp [hb, hk, hx]
    · rfl
  unfold State.list? at h ⊢
  rw [State.putList, List.find?_map, hp, h]
  simp [hb, hk]

/-- Lists stay unended when one that has not ended is put among them. -/
theorem State.ListsRun.putList {s : State} (h : s.ListsRun) {l : ListRun} (hl : l.ending = none) :
    (s.putList l).ListsRun := by
  intro x hx
  obtain ⟨y, hy, rfl⟩ := List.mem_map.mp hx
  split
  · exact hl
  · exact h y hy

/-- With no list ending there is none to settle. -/
theorem State.settle_of_listsRun {s : State} (h : s.ListsRun) (n : Nat) : s.settle n = s := by
  cases n with
  | zero => rfl
  | succ n =>
    have hnone : (s.lists.find? fun l => l.ending.isSome && decide (s.inFlight (.list l.basin l.slot) = 0)) = none := by
      rw [List.find?_eq_none]
      intro l hl
      simp [h l hl]
    simp only [State.settle, hnone]

/-! ### A packet finished (R205, R208, R213, R215) -/

/-- Bit 5 turns no status into a failure, nor a failure into anything else. -/
theorem Status.failed_withAlerts (st : Status) (al : Byte) : (st.withAlerts al).failed = st.failed := by
  unfold Status.withAlerts
  split
  · next h => rw [h.1]; rfl
  · rfl

theorem State.marked_failed (s : State) (src : Src) (b : Nat) (p : Packet) (o : Outcome) :
    (s.marked src b p o).status.failed = o.status.failed := Status.failed_withAlerts _ _

/-- The reply of a marked outcome answers its packet with the outcome's status and first word. -/
theorem State.marked_answers (s : State) (src : Src) (b : Nat) (p : Packet) (o : Outcome) (fromList : Bool) (cycles : Nat) :
    ((s.marked src b p o).reply p fromList cycles).Answers p o.status o.w0 fromList := by
  refine ⟨rfl, rfl, rfl, rfl, rfl, ?_⟩
  simp only [Outcome.reply, State.marked, Status.withAlerts]
  split
  · next h => exact .inr ⟨h.1, rfl⟩
  · exact .inl rfl

/-- A status other than `OK` keeps its packet's reply due. -/
theorem State.marked_ne_ok (s : State) (src : Src) (b : Nat) (p : Packet) {o : Outcome} (h : o.status ≠ .ok) :
    (s.marked src b p o).status ≠ .ok := by
  simp [State.marked, Status.withAlerts, h]

/-- From `s` to `v` counters have been added and the increments `due` made due: lists, replies and stores are as they were. -/
structure State.Accounted (s v : State) (due : List DueInc) : Prop where
  lists : v.lists = s.lists
  waiting : ∀ k, (v.ring k).waiting = (s.ring k).waiting
  unreserved : ∀ k, (v.ring k).unreserved = (s.ring k).unreserved
  dueIncs : v.dueIncs = s.dueIncs ++ due
  same : s.SameStores v

theorem State.Accounted.trans_stats {s v w : State} {due : List DueInc} (h : s.Accounted v due) (k : v.Accounted w []) :
    s.Accounted w due where
  lists := k.lists.trans h.lists
  waiting i := (k.waiting i).trans (h.waiting i)
  unreserved i := (k.unreserved i).trans (h.unreserved i)
  dueIncs := by rw [k.dueIncs, List.append_nil, h.dueIncs]
  same := h.same.trans k.same

theorem State.Accounted.list? {s v : State} {due : List DueInc} (h : s.Accounted v due) (b k : Nat) :
    v.list? b k = s.list? b k := by
  simp only [State.list?, h.lists]

theorem State.addStats_accounted (s : State) (src : Src) (st : Stats) : s.Accounted (s.addStats src st) [] := by
  cases src with
  | ring r =>
    refine ⟨rfl, fun k => ?_, fun k => ?_, (List.append_nil _).symm, .refl s⟩ <;>
    · by_cases hk : k = r
      · subst hk; simp [State.addStats]
      · simp [State.addStats, hk]
  | list b k => exact ⟨rfl, fun _ => rfl, fun _ => rfl, (List.append_nil _).symm, .refl s⟩
  | headgate => exact ⟨rfl, fun _ => rfl, fun _ => rfl, (List.append_nil _).symm, .refl s⟩

/-- A completion that counts for its gauge makes the packet's increment due once (R53, R208). -/
theorem State.dueInc_accounted (s : State) (b : Nat) (p : Packet) (c : Prop) [Decidable c] :
    s.Accounted (if c then s.dueInc b p.gauge p.inc.toNat else s) (if c then dueOf b p else []) := by
  have none_due : s.Accounted s [] := ⟨rfl, fun _ => rfl, fun _ => rfl, (List.append_nil _).symm, .refl s⟩
  have h0 : p.inc.toNat = 0 ↔ p.inc = 0 := by simp [BitVec.toNat_eq]
  simp only [State.dueInc, dueOf, h0]
  by_cases hc : c
  · by_cases hi : p.inc = 0
    · simpa only [hc, hi, if_true] using none_due
    · simp only [hc, hi, if_true, if_false]
      exact ⟨rfl, fun _ => rfl, fun _ => rfl, rfl, .refl s⟩
  · simpa only [hc, if_false] using none_due

/-- From `s` to `u` a packet of `src` has completed with an outcome: its reply or its list's count, the increments `due`, no
list ending, nothing stored. -/
structure State.Finishes (s u : State) (src : Src) (p : Packet) (o : Outcome) (due : List DueInc) : Prop where
  completed : s.Completed u src p o.status o.w0
  dueIncs : u.dueIncs = s.dueIncs ++ due
  same : s.SameStores u
  run : u.ListsRun

/-- A finished packet of a ring: its increment, its account, its reply (R202, R205, R208). -/
theorem State.packetDone_ring_eq (s : State) (k spawn off : Nat) (p : Packet) (b start : Nat) (o : Outcome) (once : Bool)
    (extra : Stats) :
    ∃ st, s.packetDone (.ring k) spawn off p b start o once extra =
      ((if once = true ∧ o.status.failed = false then s.dueInc b p.gauge p.inc.toNat else s).addStats (.ring k) st).queueReply k
        ((s.marked (.ring k) b p o).reply p false (s.cycle - start)) := by
  simp only [State.packetDone, State.marked_failed, Bool.not_eq_true']
  exact ⟨_, rfl⟩

/-- A finished packet of a running list that has not failed: its increment, its account, the list's (R208, R213). -/
theorem State.packetDone_list_eq (s : State) (b k off : Nat) (p : Packet) (bs start : Nat) {o : Outcome}
    (hok : o.status.failed = false) (extra : Stats) :
    ∃ st, s.packetDone (.list b k) (s.spawnOf (.list b k)) off p bs start o true extra =
      ((s.dueInc bs p.gauge p.inc.toNat).addStats (.list b k) st).listPacketDone b k off p (s.marked (.list b k) bs p o)
        (s.cycle - start) := by
  have hspawn : (s.dueInc bs p.gauge p.inc.toNat).spawnOf (.list b k) = s.spawnOf (.list b k) := by
    unfold State.dueInc
    split <;> rfl
  simp only [State.packetDone, State.marked_failed, hok, Bool.not_false, and_self, if_true, hspawn]
  exact ⟨_, rfl⟩

/-- A ring's packet completes with any outcome: its increment is due where it has not failed. -/
theorem State.packetDone_ring {s : State} (hrun : s.ListsRun) (k spawn off : Nat) (p : Packet) (b start : Nat) (o : Outcome)
    (once : Bool) (extra : Stats) :
    s.Finishes (s.packetDone (.ring k) spawn off p b start o once extra) (.ring k) p o
      (if once = true ∧ o.status.failed = false then dueOf b p else []) := by
  obtain ⟨st, e⟩ := s.packetDone_ring_eq k spawn off p b start o once extra
  have hv := (s.dueInc_accounted b p (once = true ∧ o.status.failed = false)).trans_stats
    (State.addStats_accounted _ (.ring k) st)
  rw [e]
  refine ⟨⟨_, ?_, s.marked_answers (.ring k) b p o false (s.cycle - start)⟩, ?_, hv.same.trans ?_, fun l hl => hrun l ?_⟩
  · simp [State.queueReply, hv.waiting]
  · simpa using hv.dueIncs
  · simp [State.SameStores]
  · simpa [hv.lists] using hl

/-- What the account of a packet that has not failed leaves of its list: one more completed, and its place, context and course as they
were. -/
structure ListRun.CountedTo (l l' : ListRun) : Prop where
  basin : l'.basin = l.basin
  slot : l'.slot = l.slot
  ctx : l'.ctx = l.ctx
  ending : l'.ending = l.ending
  completed : l'.completed = l.completed + 1

/-- The account of a list's packet that has not failed: the list counts it, and replies where it is asked to. -/
theorem State.listPacketDone_passed {s : State} {b k : Nat} {l : ListRun} (hl : s.list? b k = some l) (off : Nat) (p : Packet)
    {o : Outcome} (hok : o.status.failed = false) (cycles : Nat) :
    ∃ l', l.CountedTo l' ∧ s.listPacketDone b k off p o cycles =
      if o.status ≠ .ok ∨ p.replyFlag then (s.putList l').queueUnreserved l.ctx (o.reply p true cycles) else s.putList l' := by
  unfold State.listPacketDone
  simp only [hl, hok, Bool.false_eq_true, if_false, false_and]
  refine ⟨{ l with completed := l.completed + 1, alerts := l.alerts ||| o.alerts, held := l.held && decide (p.op < 0x40) }, ?_, rfl⟩
  exact ⟨rfl, rfl, rfl, rfl, rfl⟩

/-- A list's packet that does not fail is counted, answers where it asks to, makes its increment due and ends nothing. -/
theorem State.packetDone_list {s : State} (hrun : s.ListsRun) {b k : Nat} {l : ListRun} (hl : s.list? b k = some l)
    (off : Nat) (p : Packet) (bs start : Nat) {o : Outcome} (hok : o.status.failed = false) (extra : Stats) :
    s.Finishes (s.packetDone (.list b k) (s.spawnOf (.list b k)) off p bs start o true extra) (.list b k) p o (dueOf bs p) := by
  have hfail : (s.marked (.list b k) bs p o).status.failed = false := (s.marked_failed _ _ _ _).trans hok
  have hreply := s.marked_answers (.list b k) bs p o true (s.cycle - start)
  have hdue : o.status ≠ .ok → (s.marked (.list b k) bs p o).status ≠ .ok := s.marked_ne_ok _ _ _
  have hend : l.ending = none := hrun l (List.mem_of_find?_eq_some hl)
  obtain ⟨st, e⟩ := s.packetDone_list_eq b k off p bs start hok extra
  have hv : s.Accounted ((s.dueInc bs p.gauge p.inc.toNat).addStats (.list b k) st) (dueOf bs p) := by
    simpa only [if_true] using (s.dueInc_accounted bs p True).trans_stats (State.addStats_accounted _ (.list b k) st)
  generalize (s.dueInc bs p.gauge p.inc.toNat).addStats (.list b k) st = v at e hv
  obtain ⟨l', hc, hdone⟩ := State.listPacketDone_passed ((hv.list? b k).trans hl) off p hfail (s.cycle - start)
  have hput : (v.putList l').list? b k = some l' := State.list?_putList_self ((hv.list? b k).trans hl) hc.basin hc.slot
  have hrun' : (v.putList l').ListsRun :=
    State.ListsRun.putList (fun x hx => hrun x (by rwa [hv.lists] at hx)) (hc.ending.trans hend)
  rw [e, hdone]
  split
  · refine ⟨⟨l, l', hl, hput, hc.completed, fun _ => ⟨_, ?_, hreply⟩⟩, ?_, hv.same.trans ?_, hrun'⟩
    · have hring : (v.putList l').ring l.ctx = v.ring l.ctx := rfl
      simp [State.queueUnreserved, hring, hv.unreserved]
    · simpa using hv.dueIncs
    · simp [State.SameStores]
  · next hno =>
    refine ⟨⟨l, l', hl, hput, hc.completed, fun hr => (hno (hr.imp_left hdue)).elim⟩, hv.dueIncs, hv.same.trans ?_, hrun'⟩
    simp [State.SameStores]

/-! ### A packet that completes at its dispatch -/

/-- A source that can hold a packet: a ring, or a slot whose list runs. -/
def State.HasSource (s : State) : Src → Prop
  | .ring _ => True
  | .list b k => ∃ l, s.list? b k = some l
  | .headgate => False

theorem State.hasSource_of_head? {s : State} {src : Src} {fe : Fetched} (h : s.head? src = some fe) : s.HasSource src := by
  cases src with
  | ring r => trivial
  | headgate => cases h
  | list b k =>
    unfold State.head? at h
    cases hl : s.list? b k with
    | none => simp [hl] at h
    | some l => exact ⟨l, hl⟩

/-- A packet that does not fail completes at its dispatch. -/
theorem State.doneNow_finishes {s : State} (hrun : s.ListsRun) {src : Src} (hsrc : s.HasSource src) (fe : Fetched) {o : Outcome}
    (hok : o.status.failed = false) :
    s.Finishes (s.doneNow src fe o) src fe.pkt o (dueOf (s.basinOf src) fe.pkt) := by
  have key : s.Finishes (s.packetDone src (s.spawnOf src) fe.off fe.pkt (s.basinOf src) s.cycle o true Stats.zero) src fe.pkt o
      (dueOf (s.basinOf src) fe.pkt) := by
    cases src with
    | ring k => simpa only [hok, and_self, if_true] using
        State.packetDone_ring hrun k (s.spawnOf (.ring k)) fe.off fe.pkt (s.basinOf (.ring k)) s.cycle o true Stats.zero
    | list b k =>
      obtain ⟨l, hl⟩ := hsrc
      exact State.packetDone_list hrun hl fe.off fe.pkt _ s.cycle hok Stats.zero
    | headgate => exact hsrc.elim
  simpa only [State.doneNow, State.finish, State.settle_of_listsRun key.run] using key

/-- A refusal of a ring's packet completes it and makes nothing due (R207). -/
theorem State.finish_refuse_ring {s : State} (hrun : s.ListsRun) (k spawn off : Nat) (p : Packet) (b start : Nat) (st : Status) :
    s.Finishes (s.finish (.ring k) spawn off p b start (Outcome.refuse st) false) (.ring k) p (Outcome.refuse st) [] := by
  have key := State.packetDone_ring hrun k spawn off p b start (Outcome.refuse st) false Stats.zero
  simpa only [Bool.false_eq_true, false_and, if_false, State.finish, State.settle_of_listsRun key.run] using key

/-! ### The head leaves its buffer -/

theorem State.popHead_list {s : State} {b k : Nat} {l : ListRun} (h : s.list? b k = some l) :
    s.popHead (.list b k) = s.putList { l with buf := l.buf.drop 1 } := by
  simp only [State.popHead, h]

theorem State.popHead_same (s : State) (src : Src) : s.SameStores (s.popHead src) := by
  cases src with
  | ring r => simp [State.popHead, State.SameStores]
  | list b k =>
    cases hl : s.list? b k with
    | none => simpa only [State.popHead, hl] using .refl s
    | some l => simp [State.popHead_list hl, State.SameStores]
  | headgate => exact .refl s

theorem State.popHead_dueIncs (s : State) (src : Src) : (s.popHead src).dueIncs = s.dueIncs := by
  cases src with
  | ring r => simp [State.popHead]
  | list b k =>
    cases hl : s.list? b k with
    | none => simp only [State.popHead, hl]
    | some l => simp [State.popHead_list hl]
  | headgate => rfl

theorem State.popHead_basinOf (s : State) (src : Src) : (s.popHead src).basinOf src = s.basinOf src := by
  cases src with
  | ring r => simp [State.popHead, State.basinOf, State.rfld, State.reg]
  | list b k => rfl
  | headgate => rfl

theorem State.ListsRun.popHead {s : State} (h : s.ListsRun) (src : Src) : (s.popHead src).ListsRun := by
  cases src with
  | ring r => exact h
  | headgate => exact h
  | list b k =>
    cases hl : s.list? b k with
    | none => simpa only [State.popHead, hl] using h
    | some l => rw [State.popHead_list hl]; exact h.putList (h l (List.mem_of_find?_eq_some hl))

theorem State.HasSource.of_onlyNoted {s t : State} {src : Src} (h : s.HasSource src) (hn : s.OnlyNoted t) : t.HasSource src := by
  cases src with
  | ring k => trivial
  | list b k => simpa only [State.HasSource, hn.list?] using h
  | headgate => exact h

theorem State.HasSource.popHead {s : State} {src : Src} (h : s.HasSource src) : (s.popHead src).HasSource src := by
  cases src with
  | ring r => trivial
  | headgate => exact h
  | list b k =>
    obtain ⟨l, hl⟩ := h
    rw [State.popHead_list hl]
    exact ⟨_, State.list?_putList_self hl rfl rfl⟩

/-- A packet that completes after leaving its buffer has completed from the state in which it stood there. -/
theorem State.Completed.of_popHead {s u : State} {src : Src} {p : Packet} {st : Status} {w0 : BitVec 32} (hs : s.HasSource src)
    (h : (s.popHead src).Completed u src p st w0) : s.Completed u src p st w0 := by
  cases src with
  | headgate => exact h
  | ring k => simpa [State.Completed, State.popHead] using h
  | list b k =>
    obtain ⟨l, hl⟩ := hs
    rw [State.popHead_list hl] at h
    obtain ⟨x, l', hx, hu, hn, hr⟩ := h
    have hput := State.list?_putList_self (l' := { l with buf := l.buf.drop 1 }) hl rfl rfl
    obtain rfl := Option.some.inj (hput.symm.trans hx)
    exact ⟨l, l', hl, hu, hn, hr⟩

/-- What finishes a packet popped off its buffer, after the reads at its dispatch, finishes it from the state before them. -/
theorem State.Finishes.of_popHead {t w u : State} {src : Src} {p : Packet} {o : Outcome} {due : List DueInc} (hn : t.OnlyNoted w)
    (hs : t.HasSource src) (h : (w.popHead src).Finishes u src p o due) : t.Finishes u src p o due where
  completed := hn.completed (h.completed.of_popHead (hs.of_onlyNoted hn))
  dueIncs := by rw [h.dueIncs, State.popHead_dueIncs, hn.dueIncs]
  same := hn.same.trans ((State.popHead_same w src).trans h.same)
  run := h.run

/-! ### A packet that finds its source empty (R201, R207, R209) -/

/-- A packet's fetch changes no store and makes nothing due. -/
theorem State.ringTake_keeps (s : State) (r : Nat) (p : Packet) (bad : Bool) :
    s.SameStores (s.ringTake r p bad) ∧ (s.ringTake r p bad).dueIncs = s.dueIncs := by
  simp only [State.ringTake, State.SameStores]
  split_ifs <;> simp

theorem State.fetched_keeps (s : State) (src : Src) (p : Packet) :
    s.SameStores (s.fetched src p) ∧ (s.fetched src p).dueIncs = s.dueIncs := by
  cases src with
  | ring r => exact s.ringTake_keeps r p false
  | headgate => exact ⟨.refl s, rfl⟩
  | list b k =>
    cases hl : s.list? b k with
    | none => simp [State.fetched, hl, State.SameStores]
    | some l => simp [State.fetched, hl, State.listTake, State.SameStores]

theorem State.dispatchGroup_one (s : State) (src : Src) :
    s.dispatchGroup 1 src = ((s.dispatchOne src).map Prod.fst).getD s := by
  unfold State.dispatchGroup
  cases s.dispatchOne src with
  | none => rfl
  | some x => simp [State.dispatchGroup]

section
variable {s t : State} {src : Src} {p : Packet} {fe : Fetched}

theorem State.Offers.pkt_eq (h : s.Offers src p t fe) : fe.pkt = p := by
  obtain ⟨-, -, -, -, hpkt, -⟩ := h
  exact hpkt

/-- A packet that its source takes with nothing ahead of it is fetched and dispatched alone. -/
theorem State.Offers.arrive (h : s.Offers src p t fe) : s.arrive src p = ((t.dispatchOne src).map Prod.fst).getD t := by
  obtain ⟨hbuf, hfetch, rfl, -⟩ := h
  rw [← State.dispatchGroup_one]
  cases src with
  | ring r => simp only [State.arrive, hbuf, hfetch, State.fetched, if_true]
  | headgate => exact hfetch.elim
  | list b k =>
    cases hl : s.list? b k with
    | none => simp [hl] at hfetch
    | some l =>
      have hl' : s.listFetchable l = true := by simpa [hl] using hfetch
      simp only [State.arrive, hbuf, hl, hl', State.fetched, if_true]

/-- A stream packet at the head that passes all its checks reads what it names and starts, or waits. -/
theorem State.Takes.dispatchOne (h : s.Takes src p t fe) (hop : p.op < 0x40) :
    (t.dispatchOne src).map Prod.fst = (t.readNamed (t.basinOf src) p).startStream src fe := by
  obtain ⟨⟨-, -, -, hhead, rfl, hcommon, -⟩, hstream⟩ := h
  simp only [State.dispatchOne, hhead, hcommon, hstream hop, if_neg (Nat.not_le.mpr hop), Option.map_map]
  exact Option.map_id'

/-- A stream packet at the head that fails a check of its opcode is refused with that check's status. -/
theorem State.Offers.dispatchOne_refused (h : s.Offers src p t fe) (hop : p.op < 0x40) {r : Refusal1}
    (hr : t.streamCheck src p = some r) (hc : r.status ≠ .checkFail) :
    (t.dispatchOne src).map Prod.fst = some (t.refuseHead src fe r.status r.decode) := by
  obtain ⟨-, -, -, hhead, rfl, hcommon, -⟩ := h
  simp only [State.dispatchOne, hhead, hcommon, hr, if_neg (Nat.not_le.mpr hop), if_neg hc, Option.map_some]

end

/-- A source whose head waits has no turn. -/
theorem State.ride_of_waiting {s : State} {src : Src} (h : s.dispatchOne src = none) : s.ride src = s := by
  have hnext : s.nextSource (s.basinOf src) ≠ some src := by
    intro hn
    have hmem : src ∈ (s.sourcesOf (s.basinOf src)).filter s.readySource := by
      simp only [State.nextSource, Option.or_eq_some_iff] at hn
      rcases hn with hn | ⟨-, hn⟩
      · exact List.mem_of_find?_eq_some hn
      · exact List.mem_of_head? hn
    have hready := (List.mem_filter.mp hmem).2
    simp [State.readySource, h] at hready
  simp [State.ride, hnext]

/-- With every flight at rest none goes on. -/
theorem State.runReady_of_atRest {s : State} (h : s.AtRest) : s.runReady = s := by
  have hnone : (s.flights.filter fun f => f.phase = .run || f.waiting) = [] := by
    rw [List.filter_eq_nil_iff]
    intro f hf
    obtain ⟨hrun, hwait⟩ := h f hf
    simp [hrun, hwait]
  simp only [State.runReady, hnone, List.map_nil, List.foldl_nil]

/-! ### NOP and FENCE (R217) -/

theorem State.startStream_nop (s : State) (src : Src) {fe : Fetched} (h : fe.pkt.op = 0x01) :
    s.startStream src fe = some ((s.popHead src).doneNow src fe Outcome.ok) := by
  simp only [State.startStream, h]

theorem State.startStream_fence (s : State) (src : Src) {fe : Fetched} (h : fe.pkt.op = 0x02) :
    s.startStream src fe = if s.inFlight src = 0 then some ((s.popHead src).doneNow src fe Outcome.ok) else none := by
  simp only [State.startStream, h]

/-- A parameter bit of a `NOP` or a `FENCE` that is set is refused. -/
theorem State.streamCheck_reserved (s : State) (src : Src) {p : Packet} (hop : p.op = 0x01 ∨ p.op = 0x02)
    (h : p.reservedClear [] = false) : s.streamCheck src p = some ⟨.badParam, false⟩ := by
  rcases hop with hop | hop <;>
    simp [State.streamCheck, hop, State.simpleCheck, h, firstOf, refuse1]

/-- The state an arrival leaves when its packet completes: the source's packet has completed from the fetch on, its increment is due
once, nothing stored has changed. -/
theorem State.Finishes.arrived {s t u : State} {src : Src} {p : Packet} {fe : Fetched} {o : Outcome} {due : List DueInc}
    (h : s.Offers src p t fe) (f : t.Finishes u src fe.pkt o due) :
    t.Completed u src fe.pkt o.status o.w0 ∧ u.dueIncs = s.dueIncs ++ due ∧ s.SameStores u := by
  obtain ⟨-, -, rfl, -⟩ := h
  obtain ⟨hsame, hdue⟩ := s.fetched_keeps src p
  exact ⟨f.completed, by rw [f.dueIncs, hdue], hsame.trans f.same⟩

/-- A stream packet that starts by completing has completed on its arrival, and its increment is due once. -/
theorem State.Takes.completes {s t : State} {src : Src} {p : Packet} {fe : Fetched} (h : s.Takes src p t fe) (hop : p.op < 0x40)
    (hstart : (t.readNamed (t.basinOf src) p).startStream src fe =
      some (((t.readNamed (t.basinOf src) p).popHead src).doneNow src fe Outcome.ok)) :
    t.Completed (s.arrive src p) src fe.pkt .ok 0 ∧ (s.arrive src p).dueIncs = s.dueIncs ++ dueOf (t.basinOf src) p ∧
      s.SameStores (s.arrive src p) := by
  rw [h.1.arrive, h.dispatchOne hop, hstart, Option.getD_some]
  obtain ⟨hoff, -⟩ := h
  obtain ⟨-, -, -, hhead, rfl, -, hrun, -⟩ := id hoff
  have hn := t.readNamed_onlyNoted (t.basinOf src) fe.pkt
  have hs := State.hasSource_of_head? hhead
  have hrunN : (t.readNamed (t.basinOf src) fe.pkt).ListsRun := fun l hl => hrun l (by rwa [hn.lists] at hl)
  have hdone := State.doneNow_finishes (hrunN.popHead src) (hs.of_onlyNoted hn).popHead fe (o := Outcome.ok) rfl
  rw [State.popHead_basinOf, hn.basinOf] at hdone
  exact State.Finishes.arrived hoff (.of_popHead hn hs hdone)

/-- A stream packet that cannot start stays at its head: its arrival fetches it, and its source has no turn. -/
theorem State.Takes.waits {s t : State} {src : Src} {p : Packet} {fe : Fetched} (h : s.Takes src p t fe) (hop : p.op < 0x40)
    (hstart : (t.readNamed (t.basinOf src) p).startStream src fe = none) : s.arrive src p = t ∧ t.ride src = t := by
  have hnone : (t.dispatchOne src).map Prod.fst = none := (h.dispatchOne hop).trans hstart
  exact ⟨by rw [h.1.arrive, hnone, Option.getD_none], State.ride_of_waiting (Option.map_eq_none_iff.mp hnone)⟩

theorem State.refuseHead_ring (s : State) (k : Nat) (fe : Fetched) (st : Status) :
    s.refuseHead (.ring k) fe st false = (s.popHead (.ring k)).finish (.ring k) ((s.popHead (.ring k)).spawnOf (.ring k)) fe.off
      fe.pkt ((s.popHead (.ring k)).basinOf (.ring k)) (s.popHead (.ring k)).cycle (Outcome.refuse st) false := by
  simp [State.refuseHead]

/-- A ring's stream packet that fails a check of its opcode is refused on its arrival: nothing is due (R207). -/
theorem State.Offers.refused_ring {s t : State} {k : Nat} {p : Packet} {fe : Fetched} (h : s.Offers (.ring k) p t fe)
    (hop : p.op < 0x40) {st : Status} (hc : t.streamCheck (.ring k) p = some ⟨st, false⟩) (hst : st ≠ .checkFail) :
    t.Completed (s.arrive (.ring k) p) (.ring k) fe.pkt st 0 ∧ (s.arrive (.ring k) p).dueIncs = s.dueIncs ∧
      s.SameStores (s.arrive (.ring k) p) := by
  rw [h.arrive, h.dispatchOne_refused hop hc hst, Option.getD_some, State.refuseHead_ring]
  obtain ⟨-, -, -, hhead, -, -, hrun, -⟩ := id h
  have hdone := State.finish_refuse_ring (hrun.popHead (.ring k)) k ((t.popHead (.ring k)).spawnOf (.ring k)) fe.off fe.pkt
    ((t.popHead (.ring k)).basinOf (.ring k)) (t.popHead (.ring k)).cycle st
  obtain ⟨hcomp, hdue, hsame⟩ := State.Finishes.arrived h (.of_popHead (.refl t) (State.hasSource_of_head? hhead) hdone)
  exact ⟨hcomp, hdue.trans (List.append_nil _), hsame⟩

/-- Settles O21: a packet that starts by completing has completed on arrival, a `FENCE` that cannot start leaves its source without a
turn, and the check of reserved bytes refuses either. -/
theorem nopAndFence : Obligations.NopAndFence := by
  unfold Obligations.NopAndFence
  intro s t src p fe
  have nop_op : ({ p with opcode := 0x01 } : Packet).op = 0x01 := rfl
  have fence_op : ({ p with opcode := 0x02 } : Packet).op = 0x02 := rfl
  refine ⟨fun h => ?nop, fun h => ⟨fun hnone => ?fence, fun hsome => ?waits⟩, fun k c hsrc hres hof => ?refused⟩
  case nop =>
    have hop : fe.pkt.op = 0x01 := h.1.pkt_eq ▸ nop_op
    exact ⟨_, rfl, h.completes (nop_op.trans_lt (by decide)) (State.startStream_nop _ _ hop)⟩
  case fence =>
    have hop : fe.pkt.op = 0x02 := h.1.pkt_eq ▸ fence_op
    have hidle := ((t.readNamed_onlyNoted (t.basinOf src) { p with opcode := 0x02 }).inFlight src).trans hnone
    exact ⟨_, rfl, h.completes (fence_op.trans_lt (by decide)) (by rw [State.startStream_fence _ _ hop, if_pos hidle])⟩
  case waits =>
    have hop : fe.pkt.op = 0x02 := h.1.pkt_eq ▸ fence_op
    have hbusy := ((t.readNamed_onlyNoted (t.basinOf src) { p with opcode := 0x02 }).inFlight src).trans_ne hsome
    obtain ⟨harrive, hride⟩ := h.waits (fence_op.trans_lt (by decide)) (by rw [State.startStream_fence _ _ hop, if_neg hbusy])
    obtain ⟨-, -, -, -, -, -, -, hrest⟩ := h.1
    exact ⟨congrArg ok harrive, congrArg ok (by rw [hride, State.runReady_of_atRest hrest])⟩
  case refused =>
    subst hsrc
    rcases hof with ⟨h, rfl⟩ | ⟨h, rfl⟩ <;> rw [h.pkt_eq] at hres
    · have hbad := t.streamCheck_reserved (.ring k) (.inl nop_op) hres
      exact ⟨_, rfl, h.refused_ring (nop_op.trans_lt (by decide)) hbad (by decide)⟩
    · have hbad := t.streamCheck_reserved (.ring k) (.inr fence_op) hres
      exact ⟨_, rfl, h.refused_ring (fence_op.trans_lt (by decide)) hbad (by decide)⟩

end Sys2Proof.Machine
end

section
/-! SUPPORT. A ring's control packet that Rosog finishes: what its reply says, and what its end leaves as it was. -/

namespace Sys2Proof.Machine

/-! ### A ring's packet leaves Rosog's hands (R205, R219) -/

/-- From `s` to `t` a ring's packet has been finished: handed packets, rings and due increments are all that has changed. -/
def State.OnlyRings (s t : State) : Prop :=
  { t with handed := s.handed, rings := s.rings, dueIncs := s.dueIncs } = s

theorem State.OnlyRings.refl (s : State) : s.OnlyRings s := rfl

theorem State.OnlyRings.trans {s t u : State} (h : s.OnlyRings t) (k : t.OnlyRings u) : s.OnlyRings u := by
  have e := congrArg (fun x : State => { x with handed := s.handed, rings := s.rings, dueIncs := s.dueIncs }) k
  exact e.trans h

section
variable {s t : State} (h : s.OnlyRings t)
include h

theorem State.OnlyRings.same : s.SameStores t :=
  ⟨(congrArg State.mem h :), (congrArg State.memChk h :), (congrArg State.desc h :), (congrArg State.gauge h :),
    (congrArg State.stack h :)⟩

theorem State.OnlyRings.site : t.site = s.site := (congrArg State.site h :)

theorem State.OnlyRings.siteId : t.siteId = s.siteId := (congrArg State.siteId h :)

theorem State.OnlyRings.attached : t.attached = s.attached := (congrArg State.attached h :)

theorem State.OnlyRings.lists : t.lists = s.lists := (congrArg State.lists h :)

end

theorem State.putRing_onlyRings (s : State) (r : Nat) (v : RingRun) : s.OnlyRings (s.putRing r v) := rfl

theorem State.dueInc_onlyRings (s : State) (b g inc : Nat) : s.OnlyRings (s.dueInc b g inc) := by
  unfold State.dueInc
  split <;> rfl

/-- A source held or let go keeps its replies. -/
theorem State.ring_holdSrc_waiting (s : State) (r k : Nat) (held : Bool) :
    ((s.holdSrc (.ring r) held).ring k).waiting = (s.ring k).waiting := by
  by_cases hk : k = r
  · subst hk; simp [State.holdSrc]
  · simp [State.holdSrc, hk]

/-- The reply `rp` to packet `p` carries what outcome `o` says, from no list. -/
def Reply.Carries (rp : Reply) (p : Packet) (o : Outcome) : Prop :=
  rp.Answers p o.status o.w0 false ∧ rp.w1 = o.w1 ∧ rp.w2 = o.w2 ∧ rp.w3 = o.w3

/-- A packet of a ring finished: its reply waits last in its ring, and the packets in Rosog's hands are as they were. -/
theorem State.finish_ring {s : State} (hrun : s.ListsRun) (k spawn off : Nat) (p : Packet) (b start : Nat) (o : Outcome)
    (once : Bool) :
    ∃ u rp, s.finish (.ring k) spawn off p b start o once = u ∧ (u.ring k).waiting = (s.ring k).waiting ++ [rp] ∧
      rp.Carries p o ∧ u.handed = s.handed ∧ s.OnlyRings u := by
  obtain ⟨st, e⟩ := s.packetDone_ring_eq k spawn off p b start o once Stats.zero
  have hsettle : s.finish (.ring k) spawn off p b start o once =
      s.packetDone (.ring k) spawn off p b start o once Stats.zero :=
    State.settle_of_listsRun (State.packetDone_ring hrun k spawn off p b start o once Stats.zero).run _
  have hacc := (s.dueInc_accounted b p (once = true ∧ o.status.failed = false)).trans_stats
    (State.addStats_accounted _ (.ring k) st)
  have hdue : s.OnlyRings (if once = true ∧ o.status.failed = false then s.dueInc b p.gauge p.inc.toNat else s) := by
    split
    · exact s.dueInc_onlyRings b p.gauge p.inc.toNat
    · exact .refl s
  have hhanded : (if once = true ∧ o.status.failed = false then s.dueInc b p.gauge p.inc.toNat else s).handed = s.handed := by
    unfold State.dueInc
    split_ifs <;> rfl
  refine ⟨_, (s.marked (.ring k) b p o).reply p false (s.cycle - start), hsettle.trans e, ?_,
    ⟨s.marked_answers (.ring k) b p o false _, rfl, rfl, rfl⟩, ?_, hdue.trans ?_⟩
  · simp [State.queueReply, hacc.waiting]
  · simpa [State.queueReply, State.addStats] using hhanded
  · exact (State.putRing_onlyRings _ k _).trans (State.putRing_onlyRings _ k _)

/-- Rosog finishes a handed packet once it has let it and its ring go. -/
theorem State.finishHanded_ring_eq (s : State) {h : Handed} {k : Nat} (hsrc : h.src = .ring k) (o : Outcome) :
    ∃ w, s.finishHanded h o = w.finish (.ring k) h.spawn h.off h.pkt h.basin h.startCycle o true ∧ h ∉ w.handed ∧
      (w.ring k).waiting = (s.ring k).waiting ∧ s.OnlyRings w := by
  simp only [State.finishHanded, hsrc]
  split
  · exact ⟨_, rfl, by simp [State.holdSrc], State.ring_holdSrc_waiting _ k k _, rfl⟩
  · exact ⟨_, rfl, by simp, rfl, rfl⟩

/-- Rosog has finished a ring's packet: it is out of its hands, its reply waits last in its ring, and nothing stored, no list and no
register has changed. -/
theorem State.finishHanded_ring {s : State} (hrun : s.ListsRun) {h : Handed} {k : Nat} (hsrc : h.src = .ring k) (o : Outcome) :
    ∃ rp, ((s.finishHanded h o).ring k).waiting = (s.ring k).waiting ++ [rp] ∧ rp.Carries h.pkt o ∧
      h ∉ (s.finishHanded h o).handed ∧ s.OnlyRings (s.finishHanded h o) := by
  obtain ⟨w, e, hgone, hwait, hw⟩ := s.finishHanded_ring_eq hsrc o
  obtain ⟨u, rp, hfin, hreply, hrp, hhanded, hu⟩ :=
    State.finish_ring (s := w) (fun l hl => hrun l (hw.lists ▸ hl)) k h.spawn h.off h.pkt h.basin h.startCycle o true
  rw [e, hfin]
  exact ⟨rp, hreply.trans (by rw [hwait]), hrp, hhanded ▸ hgone, hw.trans hu⟩

/-! ### A control packet of a ring, decided (R219) -/

section
variable {s t : State} {src : Src} {p : Packet} {h : Handed}

theorem State.Serves.source (hs : s.Serves src p t h) : h.src = src ∧ h.pkt = p := by
  obtain ⟨-, hfind, -⟩ := hs
  simpa using List.find?_some hfind

theorem State.Serves.listsRun (hs : s.Serves src p t h) : t.ListsRun := by
  obtain ⟨-, -, -, -, -, hrun, -⟩ := hs
  exact hrun

/-- A ring's control packet that its decision refuses is answered with the status; beside its ring, Rosog's hands and
what is due, nothing has changed. -/
theorem State.Serves.refused {k : Nat} (hs : s.Serves (.ring k) p t h) {ask : State → Handed → State × Option Outcome}
    {st : Status} (hask : ask t h = (t, some (.refuse st))) :
    ∃ rp, ((s.control (.ring k) p ask).ring k).waiting = (t.ring k).waiting ++ [rp] ∧ rp.Answers h.pkt st 0 false ∧
      t.OnlyRings (s.control (.ring k) p ask) := by
  obtain ⟨rp, hwait, ⟨hans, -⟩, -, honly⟩ := State.finishHanded_ring hs.listsRun hs.source.1 (.refuse st)
  rw [State.control_served ask hs, hask]
  exact ⟨rp, hwait, hans, honly⟩

/-- A ring's control packet that its decision completes, in a state with the ring's replies as they were, is served; beside
its ring, Rosog's hands and what is due, the site is as the decision left it. -/
theorem State.Serves.completed {k : Nat} (hs : s.Serves (.ring k) p t h) {ask : State → Handed → State × Option Outcome}
    {v : State} {w0 w1 w2 w3 : Nat} (hask : ask t h = (v, some (.words w0 w1 w2 w3))) (hlists : v.lists = t.lists)
    (hrings : v.rings = t.rings) :
    t.Served (s.control (.ring k) p ask) h w0 w1 w2 w3 ∧ v.OnlyRings (s.control (.ring k) p ask) := by
  have hrun : v.ListsRun := fun l hl => hs.listsRun l (hlists ▸ hl)
  have hring : v.ring k = t.ring k := by simp only [State.ring, hrings]
  obtain ⟨rp, hwait, ⟨hans, hw1, hw2, hw3⟩, hgone, honly⟩ := State.finishHanded_ring hrun hs.source.1 (.words w0 w1 w2 w3)
  rw [State.control_served ask hs, hask]
  simp only [State.Served, hs.source.1, ← hring]
  exact ⟨⟨hgone, rp, hwait, hans, hw1, hw2, hw3⟩, honly⟩

end

end Sys2Proof.Machine
end

section
/-! SUPPORT. `ATTACH_COMPLETE`: its decision, case by case, and the site it leaves attached (R355, R356). -/

namespace Sys2Proof.Machine

/-! ### The site attached -/

/-- From `s` to `t` at most STATE, what the site was attached as, the event log's number (in the cistern too) and MARGIN_LOW with
TRACKING have changed. -/
def State.OnlyAttached (s t : State) : Prop :=
  { t with regs := s.regs, cistern := s.cistern, siteId := s.siteId, attached := s.attached } = s ∧
    ∀ r, r ≠ .pwrSt → r ≠ .clkEventSeq → r ≠ .pwrMargin → t.reg r = s.reg r

theorem State.OnlyAttached.trans {s t u : State} (h : s.OnlyAttached t) (k : t.OnlyAttached u) : s.OnlyAttached u := by
  refine ⟨?_, fun r hst hseq hmar => (k.2 r hst hseq hmar).trans (h.2 r hst hseq hmar)⟩
  have e := congrArg (fun x : State => { x with
    regs := s.regs, cistern := s.cistern, siteId := s.siteId, attached := s.attached }) k.1
  exact e.trans h.1

theorem State.putFld_onlyAttached (s : State) {r : Reg} (hr : r = .pwrSt ∨ r = .clkEventSeq ∨ r = .pwrMargin) (lo n v : Nat) :
    s.OnlyAttached (s.putFld r lo n v) := by
  refine ⟨rfl, fun r' hst hseq hmar => s.reg_putFld_ne ?_ lo n v⟩
  rcases hr with rfl | rfl | rfl
  · exact hst
  · exact hseq
  · exact hmar

theorem State.setSite_onlyAttached (s : State) (v : Nat) : s.OnlyAttached (s.setSite v) :=
  s.putFld_onlyAttached (.inl rfl) 0 4 v

theorem State.logEvent_onlyAttached (s : State) : s.OnlyAttached s.logEvent := by
  simp only [State.logEvent]
  split <;> exact ⟨rfl, fun _ _ hseq _ => s.reg_putReg_ne hseq _⟩

theorem State.showMargin_onlyAttached (s : State) : s.OnlyAttached s.showMargin :=
  (s.putFld_onlyAttached (.inr (.inr rfl)) 63 1 _).trans (State.putFld_onlyAttached _ (.inr (.inr rfl)) 62 1 _)

/-- The site's identifier recorded (R356). -/
def State.recordSite (s : State) (id : Nat) : State := { s with siteId := id, attached := true }

theorem State.recordSite_onlyAttached (s : State) (id : Nat) : s.OnlyAttached (s.recordSite id) :=
  ⟨rfl, fun _ _ _ _ => rfl⟩

/-- The site as an `ATTACH_COMPLETE` with identifier `id` leaves it, before TRACKING shows it (R356). -/
def State.attachedAs (s : State) (id : Nat) : State := (s.setSite stFlow).logEvent.recordSite id

theorem State.attachedAs_onlyAttached (s : State) (id : Nat) : s.OnlyAttached (s.attachedAs id) :=
  ((s.setSite_onlyAttached stFlow).trans (State.logEvent_onlyAttached _)).trans (State.recordSite_onlyAttached _ id)

/-- Logging an event changes no state of the site. -/
theorem State.site_logEvent (s : State) : s.logEvent.site = s.site := by
  have hst : Reg.pwrSt ≠ .clkEventSeq := by decide
  simp only [State.logEvent]
  split <;> exact congrArg (fld · 0 4) (s.reg_putReg_ne hst _)

/-- Showing MARGIN_LOW and TRACKING changes no state of the site. -/
theorem State.site_showMargin (s : State) : s.showMargin.site = s.site := by
  simp [State.showMargin, State.site, State.rfld]

theorem State.site_recordSite (s : State) (id : Nat) : (s.recordSite id).site = s.site := rfl

theorem State.site_attachedAs (s : State) (id : Nat) : (s.attachedAs id).site = stFlow :=
  (State.site_recordSite _ id).trans ((State.site_logEvent (s.setSite stFlow)).trans (s.site_setSite stFlow))

/-! ### What an attach leaves as it was -/

section
variable {s t : State} (h : s.OnlyAttached t)
include h

theorem State.OnlyAttached.same : s.SameStores t :=
  ⟨(congrArg State.mem h.1 :), (congrArg State.memChk h.1 :), (congrArg State.desc h.1 :), (congrArg State.gauge h.1 :),
    (congrArg State.stack h.1 :)⟩

theorem State.OnlyAttached.lists : t.lists = s.lists := (congrArg State.lists h.1 :)

theorem State.OnlyAttached.rings : t.rings = s.rings := (congrArg State.rings h.1 :)

theorem State.OnlyAttached.cfg : t.cfg = s.cfg := (congrArg State.cfg h.1 :)

/-- A field of any register that an attach does not write. -/
theorem State.OnlyAttached.rfld {r : Reg} (hst : r ≠ .pwrSt) (hseq : r ≠ .clkEventSeq) (hmar : r ≠ .pwrMargin) (lo n : Nat) :
    t.rfld r lo n = s.rfld r lo n := congrArg (fld · lo n) (h.2 r hst hseq hmar)

theorem State.OnlyAttached.liveBasins : t.liveBasins = s.liveBasins := by
  have hlive : t.live = s.live := funext fun b => congrArg (bit · b) (h.2 .devBasinLive nofun nofun nofun)
  rw [State.liveBasins, State.liveBasins, h.cfg, hlive]

theorem State.OnlyAttached.siphonsUp : t.siphonsUp = s.siphonsUp := by
  rw [State.siphonsUp, State.siphonsUp, h.cfg]
  refine List.filter_congr fun i _ => ?_
  rw [h.rfld (r := .sphSt i) nofun nofun nofun]

theorem State.OnlyAttached.activeMxes : t.activeMxes = s.activeMxes := by
  have hst (b u lo n : Nat) : t.rfld (.mxeSt b u) lo n = s.rfld (.mxeSt b u) lo n :=
    h.rfld (r := .mxeSt b u) nofun nofun nofun lo n
  have hunit (b u : Nat) : t.unitState ⟨.mxe, b, u⟩ = s.unitState ⟨.mxe, b, u⟩ := hst b u 20 4
  rw [State.activeMxes, State.activeMxes, h.liveBasins, h.cfg]
  refine congrArg (List.foldl (· + ·) 0) (List.map_congr_left fun b _ => congrArg List.length ?_)
  refine List.filter_congr fun u _ => ?_
  rw [hst, hunit]

end

/-! ### Its decision -/

section
variable (s : State) {h : Handed}

/-- A reserved field that is set, or SITE_ID 0xFFFF, is decided first. -/
theorem State.attachAsk_bad (hbad : h.pkt.reservedClear [(16, 0, 16)] = false ∨ h.pkt.p 16 0 16 = 0xFFFF) :
    s.attachAsk h = (s, some (.refuse .badParam)) := by
  rcases hbad with hbad | hbad <;> simp [State.attachAsk, hbad]

variable (hres : h.pkt.reservedClear [(16, 0, 16)] = true) (hid : h.pkt.p 16 0 16 ≠ 0xFFFF)
include hres hid

theorem State.attachAsk_notAttaching (hsite : s.site ≠ stAttaching) : s.attachAsk h = (s, some (.refuse .refusedState)) := by
  simp [State.attachAsk, hres, hid, hsite]

theorem State.attachAsk_attaching (hsite : s.site = stAttaching) :
    s.attachAsk h = ((s.attachedAs (h.pkt.p 16 0 16)).showMargin,
      some (.words s.liveBasins.length s.siphonsUp.length s.activeMxes (s.rfld .devStartSt 16 16))) := by
  have hsame := s.attachedAs_onlyAttached (h.pkt.p 16 0 16)
  rw [← hsame.liveBasins, ← hsame.siphonsUp, ← hsame.activeMxes, ← hsame.rfld (r := .devStartSt) nofun nofun nofun]
  simp [State.attachAsk, State.attachedAs, State.recordSite, hres, hid, hsite]

end

/-- Settles O37: the decision's three cases, each finished as a ring's packet is. -/
theorem attachCompletes : Obligations.AttachCompletes := by
  unfold Obligations.AttachCompletes
  intro s t p h hs
  have hparam : p.p 16 0 16 = h.pkt.p 16 0 16 := by rw [hs.source.2]; rfl
  rw [hparam]
  refine ⟨fun hbad => ?bad, fun hres hid hsite => ?notAttaching, fun hres hid hsite => ?attaching⟩
  case bad =>
    obtain ⟨rp, hwait, hans, honly⟩ := hs.refused (t.attachAsk_bad hbad)
    exact ⟨_, rp, rfl, hwait, hans, honly.site, honly.siteId, honly.attached, honly.same⟩
  case notAttaching =>
    obtain ⟨rp, hwait, hans, honly⟩ := hs.refused (t.attachAsk_notAttaching hres hid hsite)
    exact ⟨_, rp, rfl, hwait, hans, honly.site, honly.siteId, honly.attached, honly.same⟩
  case attaching =>
    have hv := (t.attachedAs_onlyAttached (h.pkt.p 16 0 16)).trans (State.showMargin_onlyAttached _)
    obtain ⟨hserved, honly⟩ := hs.completed (t.attachAsk_attaching hres hid hsite) hv.lists hv.rings
    have hflow := honly.site.trans ((State.site_showMargin _).trans (t.site_attachedAs _))
    exact ⟨_, rfl, hserved, hflow, honly.attached, honly.siteId, hv.same.trans honly.same⟩

end Sys2Proof.Machine
end

section
/-! SUPPORT. The fused counter (R358): no operation of the site changes it, `OWNER_LOCK`'s decision apart. Folds, branches and
outcomes keep it where their parts do. -/

namespace Sys2Proof.Machine

/-- A fold keeps the fused counter where its step does. -/
@[simp] theorem State.arCounter_foldl {α : Type} (f : State → α → State)
    (hf : ∀ s x, (f s x).cistern.arCounter = s.cistern.arCounter) (l : List α) (s : State) :
    (l.foldl f s).cistern.arCounter = s.cistern.arCounter := by
  induction l generalizing s with
  | nil => rfl
  | cons x l ih => exact (ih (f s x)).trans (hf s x)

/-- The same for a fold that carries something beside the state. -/
@[simp] theorem State.arCounter_foldl_fst {α β : Type} (f : State × β → α → State × β)
    (hf : ∀ a x, (f a x).1.cistern.arCounter = a.1.cistern.arCounter) (l : List α) (a : State × β) :
    (l.foldl f a).1.cistern.arCounter = a.1.cistern.arCounter := by
  induction l generalizing a with
  | nil => rfl
  | cons x l ih => exact (ih (f a x)).trans (hf a x)

@[simp] theorem State.arCounter_ite (c : Prop) [Decidable c] (s t : State) :
    (if c then s else t).cistern.arCounter = if c then s.cistern.arCounter else t.cistern.arCounter := by
  split <;> rfl

@[simp] theorem State.arCounter_ite_fst {β : Type} (c : Prop) [Decidable c] (a b : State × β) :
    (if c then a else b).1.cistern.arCounter = if c then a.1.cistern.arCounter else b.1.cistern.arCounter := by
  split <;> rfl

section
variable (s : State)

/-- The state an outcome leads to, if any, has the fused counter of `s`. -/
def State.KeepsCounter (o : Host.Outcome State Fault Refusal) : Prop :=
  ∀ t, o = .next t → t.cistern.arCounter = s.cistern.arCounter

@[simp] theorem State.keepsCounter_next (t : State) :
    s.KeepsCounter (.next t) ↔ t.cistern.arCounter = s.cistern.arCounter := by
  simp [State.KeepsCounter]

@[simp] theorem State.keepsCounter_ok (t : State) : s.KeepsCounter (ok t) ↔ t.cistern.arCounter = s.cistern.arCounter :=
  s.keepsCounter_next t

@[simp] theorem State.keepsCounter_refused (r : Refusal) : s.KeepsCounter (.refused r) := by
  simp [State.KeepsCounter]

@[simp] theorem State.keepsCounter_ite (c : Prop) [Decidable c] (o o' : Host.Outcome State Fault Refusal) :
    s.KeepsCounter (if c then o else o') ↔ if c then s.KeepsCounter o else s.KeepsCounter o' := by
  split <;> rfl

end

end Sys2Proof.Machine
end

section
/-! SUPPORT. The fused counter (R358) under registers, memory, replies, gates and stack memory. As in the sections after it,
each operation of the model has one lemma, in the order of the model: the branches of its definition change the state by operations
that keep the counter. An operation that is only ever a part of one other is unfolded there. -/

namespace Sys2Proof.Machine

variable (s : State)

/-! ### Registers, events, memory, descriptors and gauges -/

@[simp] theorem State.arCounter_logEvent : s.logEvent.cistern.arCounter = s.cistern.arCounter := by simp [State.logEvent]

@[simp] theorem State.arCounter_decodeError (source a write) :
    (s.decodeError source a write).cistern.arCounter = s.cistern.arCounter := by
  unfold State.decodeError; split <;> simp

@[simp] theorem State.arCounter_violation (source a write) :
    (s.violation source a write).cistern.arCounter = s.cistern.arCounter := by
  unfold State.violation; split <;> simp

@[simp] theorem State.arCounter_eccLog (b kind bank row r c turnout) :
    (s.eccLog b kind bank row r c turnout).cistern.arCounter = s.cistern.arCounter := by
  unfold State.eccLog; split <;> simp

@[simp] theorem State.arCounter_noteFinding (b pb row rd f) :
    (s.noteFinding b pb row rd f).cistern.arCounter = s.cistern.arCounter := by
  unfold State.noteFinding; split <;> simp

@[simp] theorem State.arCounter_readPhys (b pb row rd) :
    (s.readPhys b pb row rd).1.cistern.arCounter = s.cistern.arCounter := by
  simp [State.readPhys]

@[simp] theorem State.arCounter_readWord (b w rd) : (s.readWord b w rd).1.cistern.arCounter = s.cistern.arCounter := by
  simp [State.readWord]

@[simp] theorem State.arCounter_storePhys (b pb prow d dev) :
    (s.storePhys b pb prow d dev).cistern.arCounter = s.cistern.arCounter := by
  simp [State.storePhys]

@[simp] theorem State.arCounter_storeRow (b bank row d dev) :
    (s.storeRow b bank row d dev).cistern.arCounter = s.cistern.arCounter := by
  unfold State.storeRow; split <;> simp

@[simp] theorem State.arCounter_writeWord (b w d) : (s.writeWord b w d).cistern.arCounter = s.cistern.arCounter := by
  simp [State.writeWord]

@[simp] theorem State.arCounter_writePart (b w o bs rd) :
    (s.writePart b w o bs rd).cistern.arCounter = s.cistern.arCounter := by
  unfold State.writePart; split <;> simp

@[simp] theorem State.arCounter_readRange (b off len rd) :
    (s.readRange b off len rd).1.cistern.arCounter = s.cistern.arCounter := by
  simp [State.readRange]

@[simp] theorem State.arCounter_writeRange (b off bs rd) :
    (s.writeRange b off bs rd).cistern.arCounter = s.cistern.arCounter := by
  simp [State.writeRange]

@[simp] theorem State.arCounter_startFill (b areas n) : (s.startFill b areas n).cistern.arCounter = s.cistern.arCounter := by
  simp [State.startFill]

@[simp] theorem State.arCounter_zeroWhere (b p) : (s.zeroWhere b p).cistern.arCounter = s.cistern.arCounter := by
  simp only [State.zeroWhere]; repeat' split
  all_goals simp

@[simp] theorem State.arCounter_fillRows : s.fillRows.cistern.arCounter = s.cistern.arCounter := by simp [State.fillRows]

@[simp] theorem State.arCounter_readDesc (b d) : (s.readDesc b d).1.cistern.arCounter = s.cistern.arCounter := by
  unfold State.readDesc; split <;> simp

@[simp] theorem State.arCounter_noteBadDesc (b d turnout ends) :
    (s.noteBadDesc b d turnout ends).cistern.arCounter = s.cistern.arCounter := by
  unfold State.noteBadDesc; split <;> simp

@[simp] theorem State.arCounter_noteLine (b j turnout) :
    (s.noteLine b j turnout).cistern.arCounter = s.cistern.arCounter := by
  simp only [State.noteLine]; split <;> simp

@[simp] theorem State.arCounter_mendLine (b g) : (s.mendLine b g).cistern.arCounter = s.cistern.arCounter := by
  unfold State.mendLine; split <;> simp

@[simp] theorem State.arCounter_tickClock : s.tickClock.cistern.arCounter = s.cistern.arCounter := by
  unfold State.tickClock; split <;> simp

/-! ### Packets answered and lists ended -/

@[simp] theorem State.arCounter_writeReply (r rp) : (s.writeReply r rp).cistern.arCounter = s.cistern.arCounter := by
  simp [State.writeReply]

@[simp] theorem State.arCounter_dueInc (b g inc) : (s.dueInc b g inc).cistern.arCounter = s.cistern.arCounter := by
  unfold State.dueInc; split <;> simp

@[simp] theorem State.arCounter_addStats (src st) : (s.addStats src st).cistern.arCounter = s.cistern.arCounter := by
  unfold State.addStats; split <;> simp

@[simp] theorem State.arCounter_endList (b k st) : (s.endList b k st).cistern.arCounter = s.cistern.arCounter := by
  unfold State.endList; split <;> simp

@[simp] theorem State.arCounter_listPacketDone (b k off p o cycles) :
    (s.listPacketDone b k off p o cycles).cistern.arCounter = s.cistern.arCounter := by
  unfold State.listPacketDone; split <;> simp

@[simp] theorem State.arCounter_packetDone (src spawn off p basin start o once extra) :
    (s.packetDone src spawn off p basin start o once extra).cistern.arCounter = s.cistern.arCounter := by
  unfold State.packetDone; split <;> simp

@[simp] theorem State.arCounter_settle (n) : (State.settle n s).cistern.arCounter = s.cistern.arCounter := by
  induction n generalizing s with
  | zero => rfl
  | succ n ih =>
    rw [State.settle]
    split
    · rfl
    · simp [ih]

@[simp] theorem State.arCounter_finish (src spawn off p basin start o once extra) :
    (s.finish src spawn off p basin start o once extra).cistern.arCounter = s.cistern.arCounter := by
  simp [State.finish]

/-! ### Operands of a matrix packet -/

@[simp] theorem State.arCounter_streamClose (b d) : (s.streamClose b d).cistern.arCounter = s.cistern.arCounter := by
  unfold State.streamClose; split <;> simp

@[simp] theorem State.arCounter_stagePair (f idx b u lane) :
    (s.stagePair f idx b u lane).cistern.arCounter = s.cistern.arCounter := by
  simp [State.stagePair]

@[simp] theorem State.arCounter_predict (b u d) : (s.predict b u d).cistern.arCounter = s.cistern.arCounter := by
  unfold State.predict; split <;> simp

/-! ### Tiles read and written at the gates -/

@[simp] theorem State.arCounter_hold (f ph b d setsWait) :
    (s.hold f ph b d setsWait).cistern.arCounter = s.cistern.arCounter := by
  simp [State.hold]

@[simp] theorem State.arCounter_fixWait (b d) : (s.fixWait b d).cistern.arCounter = s.cistern.arCounter := by
  unfold State.fixWait; split <;> simp

@[simp] theorem State.arCounter_readPayload (b base len rd want got) :
    (s.readPayload b base len rd want got).1.cistern.arCounter = s.cistern.arCounter := by
  unfold State.readPayload
  refine State.arCounter_foldl_fst _ (fun a i => ?_) _ (s, _)
  dsimp only
  split_ifs
  · rfl
  · rfl
  · split <;> simp

@[simp] theorem State.arCounter_closeBroken (b d) : (s.closeBroken b d).cistern.arCounter = s.cistern.arCounter := by
  simp [State.closeBroken]

@[simp] theorem State.arCounter_openTile (b d) : (s.openTile b d).cistern.arCounter = s.cistern.arCounter := by
  simp [State.openTile]

@[simp] theorem State.arCounter_landWords (b w bs skip) :
    (s.landWords b w bs skip).cistern.arCounter = s.cistern.arCounter := by
  simp [State.landWords]

@[simp] theorem State.arCounter_breakLock (b d) : (s.breakLock b d).cistern.arCounter = s.cistern.arCounter := by
  simp [State.breakLock]

/-! ### Culverts -/

@[simp] theorem State.arCounter_grantCulvert (n c) : (State.grantCulvert n s c).cistern.arCounter = s.cistern.arCounter := by
  induction n generalizing s with
  | zero => rfl
  | succ n ih =>
    rw [State.grantCulvert]
    split
    · rfl
    · dsimp only
      split
      · rfl
      · split <;> simp [ih]

@[simp] theorem State.arCounter_countSend (c slot) : (s.countSend c slot).cistern.arCounter = s.cistern.arCounter := by
  simp [State.countSend]

@[simp] theorem State.arCounter_sendRecord (f i record job e1 n) :
    (s.sendRecord f i record job e1 n).cistern.arCounter = s.cistern.arCounter := by
  unfold State.sendRecord; split <;> simp

/-! ### Stack memory -/

@[simp] theorem State.arCounter_siphonEvent (sph block kind) :
    (s.siphonEvent sph block kind).cistern.arCounter = s.cistern.arCounter := by
  simp [State.siphonEvent]

@[simp] theorem State.arCounter_loadKeys (c gen) : (s.loadKeys c gen).cistern.arCounter = s.cistern.arCounter := by
  simp [State.loadKeys]

@[simp] theorem State.arCounter_seal (sph block) : (s.seal sph block).cistern.arCounter = s.cistern.arCounter := by
  simp [State.seal]

@[simp] theorem State.arCounter_damage (sph block) : (s.damage sph block).cistern.arCounter = s.cistern.arCounter := by
  simp [State.damage]

@[simp] theorem State.arCounter_verifyBlock (sph block fail1 fail2) :
    (s.verifyBlock sph block fail1 fail2).1.cistern.arCounter = s.cistern.arCounter := by
  unfold State.verifyBlock; split <;> simp

@[simp] theorem State.arCounter_readBlock (sph block fail1 fail2) :
    (s.readBlock sph block fail1 fail2).1.cistern.arCounter = s.cistern.arCounter := by
  unfold State.readBlock
  split_ifs <;> simp

@[simp] theorem State.arCounter_clearPage (sph page) : (s.clearPage sph page).cistern.arCounter = s.cistern.arCounter := by
  simp [State.clearPage]

@[simp] theorem State.arCounter_flushPage (sph page) : (s.flushPage sph page).cistern.arCounter = s.cistern.arCounter := by
  unfold State.flushPage; split <;> simp

@[simp] theorem State.arCounter_combinerSlot (sph page) :
    (s.combinerSlot sph page).cistern.arCounter = s.cistern.arCounter := by
  unfold State.combinerSlot; split <;> simp

@[simp] theorem State.arCounter_writeBlock (sph block o bs fail1 fail2) :
    (s.writeBlock sph block o bs fail1 fail2).cistern.arCounter = s.cistern.arCounter := by
  unfold State.writeBlock; split <;> simp [State.combine]

@[simp] theorem State.arCounter_loseMap (sph page) : (s.loseMap sph page).cistern.arCounter = s.cistern.arCounter := by
  simp [State.loseMap]

@[simp] theorem State.arCounter_movedBlock (who sph block) :
    (s.movedBlock who sph block).cistern.arCounter = s.cistern.arCounter := by
  unfold State.movedBlock; split <;> simp

@[simp] theorem State.arCounter_stackRead (a len who) : (s.stackRead a len who).1.cistern.arCounter = s.cistern.arCounter := by
  unfold State.stackRead
  refine State.arCounter_foldl_fst _ (fun acc p => ?_) _ (s, _)
  dsimp only
  split
  · rfl
  · split <;> simp

@[simp] theorem State.arCounter_stackWrite (a bs who) : (s.stackWrite a bs who).cistern.arCounter = s.cistern.arCounter := by
  unfold State.stackWrite
  refine State.arCounter_foldl _ (fun t p => ?_) _ s
  split <;> simp

@[simp] theorem State.arCounter_clearRegion (r) : (s.clearRegion r).cistern.arCounter = s.cistern.arCounter := by
  unfold State.clearRegion; split <;> simp

end Sys2Proof.Machine
end

section
/-! SUPPORT. The fused counter (R358) under packets at work, dispatch and control packets. -/

namespace Sys2Proof.Machine

variable (s : State)

/-! ### Packets at work -/

@[simp] theorem State.arCounter_skipAccount (f v lanes) :
    (s.skipAccount f v lanes).1.cistern.arCounter = s.cistern.arCounter := by
  simp [State.skipAccount]

@[simp] theorem State.arCounter_releaseReader (b d) : (s.releaseReader b d).cistern.arCounter = s.cistern.arCounter := by
  simp [State.releaseReader]

@[simp] theorem State.arCounter_readFailed (f b d) : (s.readFailed f b d).cistern.arCounter = s.cistern.arCounter := by
  simp [State.readFailed, State.findingsFailed]

@[simp] theorem State.arCounter_oldWords (b base len rd got) :
    (s.oldWords b base len rd got).1.cistern.arCounter = s.cistern.arCounter := by
  unfold State.oldWords
  refine State.arCounter_foldl_fst _ (fun a i => ?_) _ (s, _)
  dsimp only
  split <;> simp

@[simp] theorem State.arCounter_landSum (b w d bad) : (s.landSum b w d bad).cistern.arCounter = s.cistern.arCounter := by
  unfold State.landSum; split <;> simp

@[simp] theorem State.arCounter_failHead (f lane idx st) :
    (s.failHead f lane idx st).cistern.arCounter = s.cistern.arCounter := by
  simp [State.failHead]

@[simp] theorem State.arCounter_askRead (f b d idx lane) :
    (s.askRead f b d idx lane).cistern.arCounter = s.cistern.arCounter := by
  simp only [State.askRead]; split <;> simp

@[simp] theorem State.arCounter_askWrite (f b d role idx lane) :
    (s.askWrite f b d role idx lane).cistern.arCounter = s.cistern.arCounter := by
  simp only [State.askWrite]; repeat' split
  all_goals simp [State.waitPath, State.startWrite]

@[simp] theorem State.arCounter_zmapStep (f b d i) : (s.zmapStep f b d i).cistern.arCounter = s.cistern.arCounter := by
  simp [State.zmapStep]

@[simp] theorem State.arCounter_stackStep (f i) : (s.stackStep f i).cistern.arCounter = s.cistern.arCounter := by
  unfold State.stackStep; split <;> simp

@[simp] theorem State.arCounter_recordStep (f i) : (s.recordStep f i).cistern.arCounter = s.cistern.arCounter := by
  unfold State.recordStep; split <;> simp

@[simp] theorem State.arCounter_sendStep (f i) : (s.sendStep f i).cistern.arCounter = s.cistern.arCounter := by
  unfold State.sendStep; split <;> simp [State.takeCounter]

@[simp] theorem State.arCounter_planStep (f) : (s.planStep f).cistern.arCounter = s.cistern.arCounter := by
  unfold State.planStep; split <;> simp

@[simp] theorem State.arCounter_setUnit (u v) : (s.setUnit u v).cistern.arCounter = s.cistern.arCounter := by
  unfold State.setUnit; split <;> simp

@[simp] theorem State.arCounter_takeUnit (f r) : (s.takeUnit f r).1.cistern.arCounter = s.cistern.arCounter := by
  simp only [State.takeUnit]; split <;> simp

@[simp] theorem State.arCounter_freeUnit (f r) : (s.freeUnit f r).cistern.arCounter = s.cistern.arCounter := by
  unfold State.freeUnit; split <;> simp

@[simp] theorem State.arCounter_againStep (f lane) : (s.againStep f lane).cistern.arCounter = s.cistern.arCounter := by
  unfold State.againStep; split <;> simp

@[simp] theorem State.arCounter_releaseUnits (us) : (s.releaseUnits us).cistern.arCounter = s.cistern.arCounter := by
  simp [State.releaseUnits]

@[simp] theorem State.arCounter_respond (c xtag st) : (s.respond c xtag st).cistern.arCounter = s.cistern.arCounter := by
  simp [State.respond]

@[simp] theorem State.arCounter_dropRequests (i) : (s.dropRequests i).cistern.arCounter = s.cistern.arCounter := by
  simp [State.dropRequests]

@[simp] theorem State.arCounter_closeOpened (ts) : (s.closeOpened ts).cistern.arCounter = s.cistern.arCounter := by
  simp [State.closeOpened]

@[simp] theorem State.arCounter_endFlight (f) : (s.endFlight f).cistern.arCounter = s.cistern.arCounter := by
  unfold State.endFlight; repeat' split
  all_goals simp [State.restoreEnd]

@[simp] theorem State.arCounter_runFlight (n i) : (State.runFlight n s i).cistern.arCounter = s.cistern.arCounter := by
  induction n generalizing s with
  | zero => rfl
  | succ n ih =>
    rw [State.runFlight]
    split
    · rfl
    · split_ifs
      · rfl
      · split
        · simp
        · split_ifs
          · simp [ih]
          · rw [ih]
            split <;> simp

@[simp] theorem State.arCounter_go (i) : (s.go i).cistern.arCounter = s.cistern.arCounter := by simp [State.go]

@[simp] theorem State.arCounter_retry (i) : (s.retry i).cistern.arCounter = s.cistern.arCounter := by
  unfold State.retry; repeat' split
  all_goals simp

@[simp] theorem State.arCounter_retryAll (is) : (s.retryAll is).cistern.arCounter = s.cistern.arCounter := by
  simp [State.retryAll]

@[simp] theorem State.arCounter_afterBreak (b d) : (s.afterBreak b d).cistern.arCounter = s.cistern.arCounter := by
  simp [State.afterBreak]

@[simp] theorem State.arCounter_afterReads (b d) : (s.afterReads b d).cistern.arCounter = s.cistern.arCounter := by
  simp [State.afterReads]

@[simp] theorem State.arCounter_wakeFlight (i) : (s.wakeFlight i).cistern.arCounter = s.cistern.arCounter := by
  unfold State.wakeFlight; split <;> simp

@[simp] theorem State.arCounter_runReady : s.runReady.cistern.arCounter = s.cistern.arCounter := by simp [State.runReady]

@[simp] theorem State.arCounter_closeAccount (f b d role idx lane m) :
    (s.closeAccount f b d role idx lane m).1.cistern.arCounter = s.cistern.arCounter := by
  unfold State.closeAccount; split <;> simp

@[simp] theorem State.arCounter_cameOut (f b d p m wrong) :
    (s.cameOut f b d p m wrong).1.cistern.arCounter = s.cistern.arCounter := by
  unfold State.cameOut; split <;> simp

@[simp] theorem State.arCounter_carriedEvent (f b) : (s.carriedEvent f b).cistern.arCounter = s.cistern.arCounter := by
  unfold State.carriedEvent; split <;> simp

@[simp] theorem State.arCounter_landRest (f b d role idx p m) :
    (s.landRest f b d role idx p m).1.cistern.arCounter = s.cistern.arCounter := by
  unfold State.landRest; split <;> simp [State.reduceEnd]

@[simp] theorem State.arCounter_endWrite (f b d role idx lane wrong) :
    (s.endWrite f b d role idx lane wrong).cistern.arCounter = s.cistern.arCounter := by
  unfold State.endWrite; split <;> simp [State.closeTile, State.endRepeats, State.afterClose]

@[simp] theorem State.arCounter_dropBursts (i) : (s.dropBursts i).cistern.arCounter = s.cistern.arCounter := by
  simp [State.dropBursts]

@[simp] theorem State.arCounter_tileCloseOf (i wrong) : (s.tileCloseOf i wrong).cistern.arCounter = s.cistern.arCounter := by
  unfold State.tileCloseOf; repeat' split
  all_goals simp

/-- The state the end of a read leaves. -/
def ReadEnd.state : ReadEnd → State
  | .delivered s _ => s
  | .again s => s
  | .ended s _ => s

@[simp] theorem State.arCounter_deliver (f b role idx lane v bs dec lanes) :
    (s.deliver f b role idx lane v bs dec lanes).state.cistern.arCounter = s.cistern.arCounter := by
  simp [State.deliver, ReadEnd.state]

/-- The end of a read: the payload is read first; then the tile is delivered, read again, or the read ends. -/
@[simp] theorem State.arCounter_readEnd (f b d role idx lane) :
    (s.readEnd f b d role idx lane).state.cistern.arCounter = s.cistern.arCounter := by
  unfold State.readEnd
  extract_lets v weight lanes rows
  have hread := s.arCounter_readPayload b (dExtentBase v) (dPayloadLen v) f.reader
    (fun w => rows.isEmpty || fetchedWord v rows w) f.got
  split
  next t bs bad e =>
  rw [e] at hread
  extract_lets dec dec' beyond index first u f' u1 u2 u3 u4 pending u5 v' u6
  have hu : u.cistern.arCounter = s.cistern.arCounter := by simpa [u] using hread
  split
  · simp [ReadEnd.state, hu]
  · split
    · simp [u2, u1, hu]
    · split
      · simp [u3, ReadEnd.state, hu]
      · split <;> simp [u6, u5, u4, u3, ReadEnd.state, hu]

@[simp] theorem State.arCounter_tileReadEndOf (i) : (s.tileReadEndOf i).cistern.arCounter = s.cistern.arCounter := by
  unfold State.tileReadEndOf
  split
  · rfl
  · next f _ =>
    split
    · next b d _ _ role idx lane _ _ _ =>
      split
      · rfl
      · extract_lets u free
        have hu : u.cistern.arCounter = s.cistern.arCounter := by simp [u]
        have hfree : ∀ t, (free t).cistern.arCounter = t.cistern.arCounter := by simp [free]
        clear_value free
        have hend := u.arCounter_readEnd f b d role idx lane
        split <;> next e =>
          rw [e] at hend
          simp only [ReadEnd.state] at hend
          simp [hfree, hend, hu]
    · rfl

@[simp] theorem State.arCounter_killFlight (f) : (s.killFlight f).cistern.arCounter = s.cistern.arCounter := by
  unfold State.killFlight; split <;> simp

/-! ### Ditch riders, dispatch and packets in Rosog's hands -/

@[simp] theorem State.arCounter_gaugeSet (b g v) : (s.gaugeSet b g v).cistern.arCounter = s.cistern.arCounter := by
  simp [State.gaugeSet]

@[simp] theorem State.arCounter_setGaugeTo (b g v) : (s.setGaugeTo b g v).cistern.arCounter = s.cistern.arCounter := by
  simp [State.setGaugeTo]

@[simp] theorem State.arCounter_landIncs (b g) : (s.landIncs b g).cistern.arCounter = s.cistern.arCounter := by
  simp [State.landIncs]

@[simp] theorem State.arCounter_ringTake (r p bad) : (s.ringTake r p bad).cistern.arCounter = s.cistern.arCounter := by
  simp [State.ringTake]

@[simp] theorem State.arCounter_fetchRing (r) : (s.fetchRing r).cistern.arCounter = s.cistern.arCounter := by
  unfold State.fetchRing; split <;> simp

@[simp] theorem State.arCounter_listTake (l p err) : (s.listTake l p err).cistern.arCounter = s.cistern.arCounter := by
  simp [State.listTake]

@[simp] theorem State.arCounter_fetchList (b k) : (s.fetchList b k).cistern.arCounter = s.cistern.arCounter := by
  simp only [State.fetchList]; repeat' split
  all_goals simp

@[simp] theorem State.arCounter_popHead (src) : (s.popHead src).cistern.arCounter = s.cistern.arCounter := by
  unfold State.popHead; repeat' split
  all_goals simp

@[simp] theorem State.arCounter_holdSrc (src h) : (s.holdSrc src h).cistern.arCounter = s.cistern.arCounter := by
  unfold State.holdSrc; repeat' split
  all_goals simp

@[simp] theorem State.arCounter_launch (f) : (s.launch f).cistern.arCounter = s.cistern.arCounter := by simp [State.launch]

@[simp] theorem State.arCounter_occupy (u last) : (s.occupy u last).cistern.arCounter = s.cistern.arCounter := by
  unfold State.occupy; split <;> simp

@[simp] theorem State.arCounter_startUnit (src fe kind u any last) :
    ((s.startUnit src fe kind u any last).getD s).cistern.arCounter = s.cistern.arCounter := by
  unfold State.startUnit
  dsimp only
  split <;> simp

@[simp] theorem State.arCounter_startMatrix (src fe) :
    ((s.startMatrix src fe).getD s).cistern.arCounter = s.cistern.arCounter := by
  unfold State.startMatrix
  dsimp only
  split
  · rfl
  · split <;> simp

@[simp] theorem State.arCounter_doneNow (src fe o) : (s.doneNow src fe o).cistern.arCounter = s.cistern.arCounter := by
  simp [State.doneNow]

@[simp] theorem State.arCounter_startWait (src fe) : (s.startWait src fe).cistern.arCounter = s.cistern.arCounter := by
  simp [State.startWait]

@[simp] theorem State.arCounter_startGauge (src fe) : (s.startGauge src fe).cistern.arCounter = s.cistern.arCounter := by
  simp [State.startGauge]

@[simp] theorem State.arCounter_startList (src fe) : (s.startList src fe).cistern.arCounter = s.cistern.arCounter := by
  simp only [State.startList]; repeat' split
  all_goals simp [State.spawnList]

@[simp] theorem State.arCounter_startReturn (src fe) : (s.startReturn src fe).cistern.arCounter = s.cistern.arCounter := by
  unfold State.startReturn; repeat' split
  all_goals simp

@[simp] theorem State.arCounter_lockTile (c ctx b d) : (s.lockTile c ctx b d).1.cistern.arCounter = s.cistern.arCounter := by
  unfold State.lockTile; split <;> simp

@[simp] theorem State.arCounter_unlockTile (c b d) : (s.unlockTile c b d).1.cistern.arCounter = s.cistern.arCounter := by
  unfold State.unlockTile; split <;> simp [State.wake]

@[simp] theorem State.arCounter_startLock (src fe) : (s.startLock src fe).cistern.arCounter = s.cistern.arCounter := by
  unfold State.startLock; split <;> simp

@[simp] theorem State.arCounter_startStream (src fe) :
    ((s.startStream src fe).getD s).cistern.arCounter = s.cistern.arCounter := by
  unfold State.startStream
  dsimp only
  split
  case h_2 => split <;> simp
  all_goals simp

@[simp] theorem State.arCounter_refuseHead (src fe st decode) :
    (s.refuseHead src fe st decode).cistern.arCounter = s.cistern.arCounter := by
  simp only [State.refuseHead]; repeat' split
  all_goals simp

@[simp] theorem State.arCounter_hand (src fe) : (s.hand src fe).cistern.arCounter = s.cistern.arCounter := by
  simp [State.hand]

@[simp] theorem State.arCounter_readNamed (b p) : (s.readNamed b p).cistern.arCounter = s.cistern.arCounter := by
  simp [State.readNamed]

theorem State.arCounter_dispatchOne {src t stop} (h : s.dispatchOne src = some (t, stop)) :
    t.cistern.arCounter = s.cistern.arCounter := by
  unfold State.dispatchOne at h
  dsimp only at h
  split at h
  · cases h
  · next fe _ =>
    split at h
    · cases h
      simp
    · split at h
      · cases h
        simp
      · split at h
        · cases h
          split <;> simp
        · obtain ⟨u, hu, e⟩ := Option.map_eq_some_iff.mp h
          cases e
          simpa [hu] using (s.readNamed (s.basinOf src) fe.pkt).arCounter_startStream src fe

@[simp] theorem State.arCounter_dispatchGroup (n src) :
    (State.dispatchGroup n s src).cistern.arCounter = s.cistern.arCounter := by
  induction n generalizing s with
  | zero => rfl
  | succ n ih =>
    rw [State.dispatchGroup]
    split
    · rfl
    · next t stop h => split <;> simp [ih, s.arCounter_dispatchOne h]

@[simp] theorem State.arCounter_ride (src) : (s.ride src).cistern.arCounter = s.cistern.arCounter := by simp [State.ride]

@[simp] theorem State.arCounter_arrive (src p) : (s.arrive src p).cistern.arCounter = s.cistern.arCounter := by
  unfold State.arrive
  dsimp only
  split
  · split_ifs <;> simp
  · split
    · split_ifs <;> simp
    · rfl
  · rfl

@[simp] theorem State.arCounter_finishHanded (h o) : (s.finishHanded h o).cistern.arCounter = s.cistern.arCounter := by
  simp [State.finishHanded]

@[simp] theorem State.arCounter_begin (h) : (s.begin h).cistern.arCounter = s.cistern.arCounter := by simp [State.begin]

/-- A control packet keeps the fused counter where its execution does. -/
@[simp] theorem State.arCounter_control (src p) (k : State → Handed → State × Option Outcome)
    (hk : ∀ t h, (k t h).1.cistern.arCounter = t.cistern.arCounter) :
    (s.control src p k).cistern.arCounter = s.cistern.arCounter := by
  have hmet : (if (s.handed? src p).isSome then s else s.arrive src p).cistern.arCounter = s.cistern.arCounter := by simp
  rcases s.control_cases src p k with ⟨-, e⟩ | ⟨h, -, ⟨-, e⟩ | ⟨-, -, e⟩ | ⟨u, o, hu, e⟩ | ⟨u, hu, e⟩⟩
  · rw [e, hmet]
  · rw [e, hmet]
  · rw [e, State.arCounter_finishHanded, hmet]
  all_goals
    have hku := (congrArg (·.1.cistern.arCounter) hu).symm.trans (hk _ h)
    simpa [e] using hku.trans hmet

end Sys2Proof.Machine
end

section
/-! SUPPORT. The fused counter (R358) under contexts, rights, checks, supplies and sleep. -/

namespace Sys2Proof.Machine

variable (s : State)

/-! ### Rights suspended and restored -/

@[simp] theorem State.arCounter_putRegulator (r) : (s.putRegulator r).cistern.arCounter = s.cistern.arCounter := by
  unfold State.putRegulator; split <;> simp

@[simp] theorem State.arCounter_startAfresh (b right) : (s.startAfresh b right).cistern.arCounter = s.cistern.arCounter := by
  simp [State.startAfresh]

@[simp] theorem State.arCounter_setBound (b r en bound) :
    (s.setBound b r en bound).cistern.arCounter = s.cistern.arCounter := by
  simp [State.setBound]

@[simp] theorem State.arCounter_setSuspended (b r v) : (s.setSuspended b r v).cistern.arCounter = s.cistern.arCounter := by
  unfold State.setSuspended; split <;> simp

@[simp] theorem State.arCounter_markSuspended (c right v) :
    (s.markSuspended c right v).cistern.arCounter = s.cistern.arCounter := by
  simp [State.markSuspended]

@[simp] theorem State.arCounter_suspendWhile (c l) : (State.suspendWhile c l s).cistern.arCounter = s.cistern.arCounter := by
  induction l generalizing s with
  | nil => rfl
  | cons a l ih => simp [State.suspendWhile, ih]

@[simp] theorem State.arCounter_restoreWhile (c l) : (State.restoreWhile c l s).cistern.arCounter = s.cistern.arCounter := by
  induction l generalizing s with
  | nil => rfl
  | cons a l ih => simp [State.restoreWhile, ih]

@[simp] theorem State.arCounter_recompute : s.recompute.cistern.arCounter = s.cistern.arCounter := by
  simp only [State.recompute]; split <;> simp

/-! ### Supplies and the divider -/

@[simp] theorem State.arCounter_alert (i) : (s.alert i).cistern.arCounter = s.cistern.arCounter := by simp [State.alert]

@[simp] theorem State.arCounter_requestSupply (core sram) :
    (s.requestSupply core sram).cistern.arCounter = s.cistern.arCounter := by
  unfold State.requestSupply; split <;> simp

@[simp] theorem State.arCounter_showMargin : s.showMargin.cistern.arCounter = s.cistern.arCounter := by
  simp [State.showMargin]

@[simp] theorem State.arCounter_raiseSram (level) : (s.raiseSram level).cistern.arCounter = s.cistern.arCounter := by
  unfold State.raiseSram; split <;> simp

@[simp] theorem State.arCounter_marginSuspend : s.marginSuspend.cistern.arCounter = s.cistern.arCounter := by
  unfold State.marginSuspend; split <;> simp

@[simp] theorem State.arCounter_showLoad : s.showLoad.cistern.arCounter = s.cistern.arCounter := by simp [State.showLoad]

/-! ### The fault history -/

@[simp] theorem State.arCounter_putUnitRec (r) : (s.putUnitRec r).cistern.arCounter = s.cistern.arCounter := by
  unfold State.putUnitRec; split <;> simp

@[simp] theorem State.arCounter_addEvent (e) : (s.addEvent e).cistern.arCounter = s.cistern.arCounter := by
  simp [State.addEvent]

@[simp] theorem State.arCounter_dueNow (k b u) : (s.dueNow k b u).cistern.arCounter = s.cistern.arCounter := by
  simp [State.dueNow]

@[simp] theorem State.arCounter_record (e severity action threshold added) :
    (s.record e severity action threshold added).cistern.arCounter = s.cistern.arCounter := by
  simp [State.record]

@[simp] theorem State.arCounter_recordAction (kind b u cls action failed loc) :
    (s.recordAction kind b u cls action failed loc).cistern.arCounter = s.cistern.arCounter := by
  unfold State.recordAction; split <;> simp

@[simp] theorem State.arCounter_enterFallow (cause start) :
    (s.enterFallow cause start).cistern.arCounter = s.cistern.arCounter := by
  unfold State.enterFallow; split <;> simp

/-! ### Contexts, levees and rings -/

@[simp] theorem State.arCounter_addLevee (b kind ctx base len alloc) :
    (s.addLevee b kind ctx base len alloc).cistern.arCounter = s.cistern.arCounter := by
  unfold State.addLevee; split <;> simp [State.putLevee]

@[simp] theorem State.arCounter_ownAllotment (b ctx al) :
    (s.ownAllotment b ctx al).cistern.arCounter = s.cistern.arCounter := by
  simp [State.ownAllotment]

@[simp] theorem State.arCounter_addRegion (n islocal ctx phys units base set) :
    (s.addRegion n islocal ctx phys units base set).cistern.arCounter = s.cistern.arCounter := by
  simp only [State.addRegion]; split <;> simp

@[simp] theorem State.arCounter_dropRegion (n) : (s.dropRegion n).cistern.arCounter = s.cistern.arCounter := by
  unfold State.dropRegion; split <;> simp

@[simp] theorem State.arCounter_killAll (fs) : (s.killAll fs).cistern.arCounter = s.cistern.arCounter := by
  simp [State.killAll]

@[simp] theorem State.arCounter_breakLocks (c) : (s.breakLocks c).1.cistern.arCounter = s.cistern.arCounter := by
  simp [State.breakLocks]

@[simp] theorem State.arCounter_endFaulted (src p basin start) :
    (s.endFaulted src p basin start).cistern.arCounter = s.cistern.arCounter := by
  simp only [State.endFaulted]; repeat' split
  all_goals simp

@[simp] theorem State.arCounter_faultContext (c) : (s.faultContext c).cistern.arCounter = s.cistern.arCounter := by
  unfold State.faultContext; split <;> simp

@[simp] theorem State.arCounter_endWork (c keep) : (s.endWork c keep).1.cistern.arCounter = s.cistern.arCounter := by
  simp [State.endWork]

@[simp] theorem State.arCounter_clearEngines (c) : (s.clearEngines c).cistern.arCounter = s.cistern.arCounter := by
  simp [State.clearEngines]

@[simp] theorem State.arCounter_killArrivals (c) : (s.killArrivals c).cistern.arCounter = s.cistern.arCounter := by
  unfold State.killArrivals
  refine (State.arCounter_foldl _ (fun t f => ?_) _ _).trans (by simp)
  split <;> simp

@[simp] theorem State.arCounter_beginScrub : s.beginScrub.cistern.arCounter = s.cistern.arCounter := by
  unfold State.beginScrub; split <;> simp

@[simp] theorem State.arCounter_askScrub (c what) : (s.askScrub c what).cistern.arCounter = s.cistern.arCounter := by
  simp [State.askScrub]

@[simp] theorem State.arCounter_destroyKeys (c keep) : (s.destroyKeys c keep).cistern.arCounter = s.cistern.arCounter := by
  unfold State.destroyKeys; split <;> simp

@[simp] theorem State.arCounter_scrubWork (c k root keep) :
    (s.scrubWork c k root keep).cistern.arCounter = s.cistern.arCounter := by
  unfold State.scrubWork; split <;> simp [State.sweepDescs, State.sweepLine, State.sweepPages]

@[simp] theorem State.arCounter_setTdisp (c v) : (s.setTdisp c v).cistern.arCounter = s.cistern.arCounter := by
  simp [State.setTdisp]

@[simp] theorem State.arCounter_clearRing (r) : (s.clearRing r).cistern.arCounter = s.cistern.arCounter := by
  simp [State.clearRing]

@[simp] theorem State.arCounter_showSessions : s.showSessions.cistern.arCounter = s.cistern.arCounter := by
  simp [State.showSessions]

@[simp] theorem State.arCounter_destroyContext (c h keep) :
    (s.destroyContext c h keep).cistern.arCounter = s.cistern.arCounter := by
  unfold State.destroyContext; split <;> simp

/-! ### Basins and their reserve -/

@[simp] theorem State.arCounter_ctxBound (c b right en bound) :
    (s.ctxBound c b right en bound).cistern.arCounter = s.cistern.arCounter := by
  simp [State.ctxBound]

@[simp] theorem State.arCounter_setStreamCfg (b e v) : (s.setStreamCfg b e v).cistern.arCounter = s.cistern.arCounter := by
  simp [State.setStreamCfg]

@[simp] theorem State.arCounter_setArbCfg (b lanes v) : (s.setArbCfg b lanes v).cistern.arCounter = s.cistern.arCounter := by
  unfold State.setArbCfg; split <;> simp

@[simp] theorem State.arCounter_copyOut (b w n) : (s.copyOut b w n).1.cistern.arCounter = s.cistern.arCounter := by
  simp [State.copyOut]

@[simp] theorem State.arCounter_copyIn (b w ws) : (s.copyIn b w ws).cistern.arCounter = s.cistern.arCounter := by
  simp [State.copyIn]

/-- The two copies of the reserve are followed one after the other: each is a long fold, which no step here unfolds. -/
@[simp] theorem State.arCounter_changeHash (b v) : (s.changeHash b v).cistern.arCounter = s.cistern.arCounter := by
  generalize e : s.changeHash b v = t
  unfold State.changeHash at e
  split at e
  · rw [e]
  · extract_lets w at e
    have hout := s.arCounter_copyOut b w liveReserve
    split at e
    next u ws hu =>
    rw [hu] at hout
    split at e
    · next o _ =>
      extract_lets v' at e
      have hv : v'.cistern.arCounter = u.cistern.arCounter := by simp [v']
      have hback := v'.arCounter_copyOut o (w + liveReserve) liveReserve
      split at e
      next x back hx =>
      rw [hx] at hback
      rw [← e, State.arCounter_copyIn]
      exact hback.trans (hv.trans hout)
    · rw [← e]
      simpa using hout

/-! ### Rights admitted -/

@[simp] theorem State.arCounter_clearBounds (c right mask) :
    (s.clearBounds c right mask).cistern.arCounter = s.cistern.arCounter := by
  simp [State.clearBounds]

@[simp] theorem State.arCounter_grantAdmission (h) : (s.grantAdmission h).1.cistern.arCounter = s.cistern.arCounter := by
  simp only [State.grantAdmission]; repeat' split
  all_goals simp

@[simp] theorem State.arCounter_releaseRight (h) : (s.releaseRight h).1.cistern.arCounter = s.cistern.arCounter := by
  simp [State.releaseRight]

/-! ### Checks and turnouts -/

@[simp] theorem State.arCounter_grantBurst (b c e t0) : (s.grantBurst b c e t0).cistern.arCounter = s.cistern.arCounter := by
  simp [State.grantBurst]

@[simp] theorem State.arCounter_grantRanked (b c n l) : (s.grantRanked b c n l).cistern.arCounter = s.cistern.arCounter := by
  induction l generalizing s with
  | nil => rfl
  | cons e l ih => simp [State.grantRanked, ih]

@[simp] theorem State.arCounter_decision (b c) : (s.decision b c).cistern.arCounter = s.cistern.arCounter := by
  simp only [State.decision]; repeat' split
  all_goals simp

@[simp] theorem State.arCounter_decideOnce (b c) : (s.decideOnce b c).cistern.arCounter = s.cistern.arCounter := by
  unfold State.decideOnce; split <;> simp

@[simp] theorem State.arCounter_decideThrough (b c) : (s.decideThrough b c).cistern.arCounter = s.cistern.arCounter := by
  simp [State.decideThrough]

@[simp] theorem State.arCounter_issue (b e) : (s.issue b e).cistern.arCounter = s.cistern.arCounter := by simp [State.issue]

@[simp] theorem State.arCounter_issueWaiting : s.issueWaiting.cistern.arCounter = s.cistern.arCounter := by
  simp [State.issueWaiting]

@[simp] theorem State.arCounter_burstReady (b e) : (s.burstReady b e).cistern.arCounter = s.cistern.arCounter := by
  unfold State.burstReady; split <;> simp

@[simp] theorem State.arCounter_noteAsked (who word n) :
    (s.noteAsked who word n).cistern.arCounter = s.cistern.arCounter := by
  unfold State.noteAsked; repeat' split
  all_goals simp

@[simp] theorem State.execBurstArrival_keepsCounter (b who kind word n) :
    s.KeepsCounter (execBurstArrival b who kind word n s) := by
  unfold execBurstArrival; repeat' split
  all_goals simp

@[simp] theorem State.arCounter_useBeat (b who write word) :
    (s.useBeat b who write word).cistern.arCounter = s.cistern.arCounter := by
  simp [State.useBeat]

@[simp] theorem State.arCounter_beatFor (b who kind word n) :
    (s.beatFor b who kind word n).1.cistern.arCounter = s.cistern.arCounter := by
  unfold State.beatFor
  dsimp only
  split_ifs
  · simp
  · rfl
  · split
    · next t h =>
      have ht := s.execBurstArrival_keepsCounter b who kind word n t h
      split_ifs <;> simp [ht]
    · rfl

@[simp] theorem State.execCheckDecision_keepsCounter (b c) : s.KeepsCounter (execCheckDecision b c s) := by
  unfold execCheckDecision; split <;> simp

@[simp] theorem State.arCounter_decideAll : s.decideAll.cistern.arCounter = s.cistern.arCounter := by simp [State.decideAll]

@[simp] theorem State.arCounter_countHeld : s.countHeld.cistern.arCounter = s.cistern.arCounter := by simp [State.countHeld]

@[simp] theorem State.arCounter_readBeat (x) : (s.readBeat x).cistern.arCounter = s.cistern.arCounter := by
  simp only [State.readBeat]; repeat' split
  all_goals simp

@[simp] theorem State.arCounter_writeBeat (x) : (s.writeBeat x).cistern.arCounter = s.cistern.arCounter := by
  unfold State.writeBeat; repeat' split
  all_goals simp

@[simp] theorem State.arCounter_landBeats : s.landBeats.cistern.arCounter = s.cistern.arCounter := by simp [State.landBeats]

@[simp] theorem State.arCounter_freezeCheck (b c) : (s.freezeCheck b c).cistern.arCounter = s.cistern.arCounter := by
  simp [State.freezeCheck]

@[simp] theorem State.arCounter_takeSide (b c bank w turnout) :
    (s.takeSide b c bank w turnout).cistern.arCounter = s.cistern.arCounter := by
  simp [State.takeSide]

@[simp] theorem State.execParkOnScrubber_keepsCounter (b k) : s.KeepsCounter (execParkOnScrubber b k s) := by
  unfold execParkOnScrubber; split <;> simp

@[simp] theorem State.arCounter_settleBeats (k : State → Nat → Nat → State)
    (hk : ∀ t b n, (k t b n).cistern.arCounter = t.cistern.arCounter) :
    (s.settleBeats k).cistern.arCounter = s.cistern.arCounter := by
  simp only [State.settleBeats]
  rw [State.arCounter_foldl _ (by simp), State.arCounter_foldl]
  intro t x
  split
  · split_ifs <;> simp [hk]
  · rfl

@[simp] theorem State.arCounter_endLap (b) : (s.endLap b).cistern.arCounter = s.cistern.arCounter := by
  unfold State.endLap; split <;> simp

@[simp] theorem State.arCounter_scrubFound (b kind unit loc f) :
    (s.scrubFound b kind unit loc f).cistern.arCounter = s.cistern.arCounter := by
  unfold State.scrubFound; split <;> simp

@[simp] theorem State.arCounter_scrubBank (b k) : (s.scrubBank b k).cistern.arCounter = s.cistern.arCounter := by
  simp [State.scrubBank]

@[simp] theorem State.arCounter_readCanary (b k n) : (s.readCanary b k n).cistern.arCounter = s.cistern.arCounter := by
  simp [State.readCanary]

@[simp] theorem State.arCounter_scrubDesc (b d) : (s.scrubDesc b d).cistern.arCounter = s.cistern.arCounter := by
  simp [State.scrubDesc]

@[simp] theorem State.arCounter_scrubLine (b j) : (s.scrubLine b j).cistern.arCounter = s.cistern.arCounter := by
  simp [State.scrubLine]

@[simp] theorem State.execScrubRead_keepsCounter (b what) : s.KeepsCounter (execScrubRead b what s) := by
  unfold execScrubRead; repeat' split
  all_goals simp

/-! ### Settings -/

@[simp] theorem State.arCounter_placeBuffer (c bytes bs) :
    (s.placeBuffer c bytes bs).1.cistern.arCounter = s.cistern.arCounter := by
  simp only [State.placeBuffer]; repeat' split
  all_goals simp

@[simp] theorem State.arCounter_putItem (c item idx v b) :
    (s.putItem c item idx v b).cistern.arCounter = s.cistern.arCounter := by
  unfold State.putItem; split <;> simp [State.ctxOt]

@[simp] theorem State.arCounter_configSet (h) : (s.configSet h).1.cistern.arCounter = s.cistern.arCounter := by
  simp only [State.configSet, State.arCounter_ite_fst]
  repeat' split
  all_goals simp

/-! ### Control packets of contexts -/

@[simp] theorem State.arCounter_createContext (a base stack) :
    (s.createContext a base stack).cistern.arCounter = s.cistern.arCounter := by
  have hlevees : ∀ al (bs : List Nat), (bs.foldl (fun (t : State) b =>
      (t.addLevee b 0 a.ctx base a.len al).ownAllotment b a.ctx al) s).cistern.arCounter = s.cistern.arCounter := by simp
  unfold State.createContext
  simp only [State.useFree_keeps, State.arCounter_loadKeys, State.putCtx_keeps, State.putReg_keeps, State.putFld_keeps,
    State.arCounter_clearRing]
  split
  · rw [State.arCounter_addRegion, hlevees]
  · rw [hlevees]

@[simp] theorem State.arCounter_create (h entropyOk) : (s.create h entropyOk).1.cistern.arCounter = s.cistern.arCounter := by
  simp only [State.create]; repeat' split
  all_goals simp

@[simp] theorem State.arCounter_recover (h) : (s.recover h).1.cistern.arCounter = s.cistern.arCounter := by
  simp [State.recover]

@[simp] theorem State.arCounter_pauseActive : s.pauseActive.cistern.arCounter = s.cistern.arCounter := by
  unfold State.pauseActive; split <;> simp

@[simp] theorem State.arCounter_switchTo (h) : (s.switchTo h).1.cistern.arCounter = s.cistern.arCounter := by
  unfold State.switchTo; split <;> simp [State.loadLimits]

@[simp] theorem State.arCounter_selfDestroy (h c) : (s.selfDestroy h c).cistern.arCounter = s.cistern.arCounter := by
  unfold State.selfDestroy; split <;> simp

@[simp] theorem State.arCounter_destroy (h) : (s.destroy h).1.cistern.arCounter = s.cistern.arCounter := by
  unfold State.destroy; split <;> simp

/-! ### What a loss of power leaves -/

@[simp] theorem State.arCounter_goneCold (keep) : (s.goneCold keep).cistern.arCounter = s.cistern.arCounter := by
  simp [State.goneCold]

@[simp] theorem State.arCounter_persist : s.persist.cistern.arCounter = s.cistern.arCounter := by simp [State.persist]

@[simp] theorem State.arCounter_replyOut (r) : (s.replyOut r).cistern.arCounter = s.cistern.arCounter := by
  simp only [State.replyOut]; split <;> simp

/-! ### Sleep and wake -/

@[simp] theorem State.arCounter_noteEntry (target outcome point) :
    (s.noteEntry target outcome point).cistern.arCounter = s.cistern.arCounter := by
  simp [State.noteEntry]

@[simp] theorem State.arCounter_answerEntry (e o) : (s.answerEntry e o).cistern.arCounter = s.cistern.arCounter := by
  unfold State.answerEntry; repeat' split
  all_goals simp

@[simp] theorem State.arCounter_startEntry (target src) :
    (s.startEntry target src).cistern.arCounter = s.cistern.arCounter := by
  simp [State.startEntry]

@[simp] theorem State.arCounter_refuseEntry (target) : (s.refuseEntry target).cistern.arCounter = s.cistern.arCounter := by
  simp [State.refuseEntry]

@[simp] theorem State.arCounter_refusedBy (e code) : (s.refusedBy e code).cistern.arCounter = s.cistern.arCounter := by
  simp [State.refusedBy]

@[simp] theorem State.arCounter_abortAt (e point) : (s.abortAt e point).cistern.arCounter = s.cistern.arCounter := by
  simp [State.abortAt]

@[simp] theorem State.arCounter_abortEntry : s.abortEntry.cistern.arCounter = s.cistern.arCounter := by
  unfold State.abortEntry; split <;> simp

@[simp] theorem State.arCounter_setBanks (v) : (s.setBanks v).cistern.arCounter = s.cistern.arCounter := by
  simp [State.setBanks]

@[simp] theorem State.arCounter_keeperNormal : s.keeperNormal.cistern.arCounter = s.cistern.arCounter := by
  simp [State.keeperNormal]

@[simp] theorem State.arCounter_commitEntry (e) : (s.commitEntry e).cistern.arCounter = s.cistern.arCounter := by
  unfold State.commitEntry; split <;> simp [State.siphonsTo, State.keeperLow]

@[simp] theorem State.arCounter_entryOn (e) : (s.entryOn e).cistern.arCounter = s.cistern.arCounter := by
  unfold State.entryOn; split <;> simp [State.stopCredits, State.repliesOut]

@[simp] theorem State.execEntryCommit_keepsCounter : s.KeepsCounter (execEntryCommit s) := by
  unfold execEntryCommit; split <;> simp

@[simp] theorem State.execDrainTimeout_keepsCounter (code) : s.KeepsCounter (execDrainTimeout code s) := by
  unfold execDrainTimeout; split <;> simp

@[simp] theorem State.execEntryAbort_keepsCounter (w) : s.KeepsCounter (execEntryAbort w s) := by
  unfold execEntryAbort; split <;> simp

@[simp] theorem State.arCounter_wakeStart : s.wakeStart.cistern.arCounter = s.cistern.arCounter := by
  unfold State.wakeStart; split <;> simp

@[simp] theorem State.arCounter_wakeDone : s.wakeDone.cistern.arCounter = s.cistern.arCounter := by simp [State.wakeDone]

@[simp] theorem State.arCounter_wakeFor (w) : (s.wakeFor w).cistern.arCounter = s.cistern.arCounter := by
  unfold State.wakeFor; split <;> simp [State.wakeUp]

@[simp] theorem State.execSleepWake_keepsCounter (w) : s.KeepsCounter (execSleepWake w s) := by
  unfold execSleepWake; split <;> simp

@[simp] theorem State.execTrickleSample_keepsCounter (r) : s.KeepsCounter (execTrickleSample r s) := by
  unfold execTrickleSample; split <;> simp

@[simp] theorem State.arCounter_putNonzero (r lo n v) : (s.putNonzero r lo n v).cistern.arCounter = s.cistern.arCounter := by
  unfold State.putNonzero; split <;> simp

@[simp] theorem State.arCounter_setPolicy (p) : (s.setPolicy p).cistern.arCounter = s.cistern.arCounter := by
  unfold State.setPolicy; split <;> simp

@[simp] theorem State.arCounter_powerAsk (h) : (s.powerAsk h).1.cistern.arCounter = s.cistern.arCounter := by
  simp only [State.powerAsk]; repeat' split
  all_goals simp

/-! ### Attach and detach -/

@[simp] theorem State.arCounter_detachOn : s.detachOn.cistern.arCounter = s.cistern.arCounter := by
  unfold State.detachOn; split <;> simp

@[simp] theorem State.arCounter_detachAsk (h) : (s.detachAsk h).1.cistern.arCounter = s.cistern.arCounter := by
  unfold State.detachAsk; split <;> simp [State.startDetach]

@[simp] theorem State.arCounter_attachAsk (h) : (s.attachAsk h).1.cistern.arCounter = s.cistern.arCounter := by
  unfold State.attachAsk; split <;> simp

end Sys2Proof.Machine
end

section
/-! SUPPORT. The fused counter (R358) under loads and stores, security packets and repairs. -/

namespace Sys2Proof.Machine

variable (s : State)

/-! ### The control core -/

@[simp] theorem State.arCounter_localTrap (k cause a) : (s.localTrap k cause a).cistern.arCounter = s.cistern.arCounter := by
  unfold State.localTrap; split <;> simp

@[simp] theorem State.arCounter_localLoad (k a n) : (s.localLoad k a n).1.cistern.arCounter = s.cistern.arCounter := by
  unfold State.localLoad; split <;> simp

@[simp] theorem State.arCounter_localStore (a bs) : (s.localStore a bs).cistern.arCounter = s.cistern.arCounter := by
  unfold State.localStore; split <;> simp

@[simp] theorem State.arCounter_placeImage (x) : (s.placeImage x).cistern.arCounter = s.cistern.arCounter := by
  simp [State.placeImage]

@[simp] theorem State.arCounter_loadStandby (x) : (s.loadStandby x).cistern.arCounter = s.cistern.arCounter := by
  unfold State.loadStandby; split <;> simp

@[simp] theorem State.arCounter_swapHalves : s.swapHalves.cistern.arCounter = s.cistern.arCounter := by
  simp [State.swapHalves]

@[simp] theorem State.arCounter_saveBlock : s.saveBlock.cistern.arCounter = s.cistern.arCounter := by simp [State.saveBlock]

/-! ### Queries -/

@[simp] theorem State.arCounter_query (h) : (s.query h).1.cistern.arCounter = s.cistern.arCounter := by
  simp only [State.query]; repeat' split
  all_goals simp

@[simp] theorem State.arCounter_statsOf (h) : (s.statsOf h).1.cistern.arCounter = s.cistern.arCounter := by
  simp only [State.statsOf]; repeat' split
  all_goals simp

@[simp] theorem State.arCounter_faultLog (h) : (s.faultLog h).1.cistern.arCounter = s.cistern.arCounter := by
  simp only [State.faultLog]; repeat' split
  all_goals simp

/-! ### Models loaded -/

@[simp] theorem State.arCounter_pkgRead (a len) : (s.pkgRead a len).1.cistern.arCounter = s.cistern.arCounter := by
  simp only [State.pkgRead]; repeat' split
  all_goals simp

@[simp] theorem State.arCounter_placeTile (c x) : (s.placeTile c x).cistern.arCounter = s.cistern.arCounter := by
  unfold State.placeTile; split <;> simp [State.writeWords]

@[simp] theorem State.arCounter_unplaceTile (x) : (s.unplaceTile x).cistern.arCounter = s.cistern.arCounter := by
  simp [State.unplaceTile, State.zeroWords]

@[simp] theorem State.arCounter_placeModel (p c base ts bs shadow) :
    (s.placeModel p c base ts bs shadow).cistern.arCounter = s.cistern.arCounter := by
  unfold State.placeModel; split <;> simp

@[simp] theorem State.arCounter_rangeRefuse (r) : (s.rangeRefuse r).1.cistern.arCounter = s.cistern.arCounter := by
  unfold State.rangeRefuse; split <;> simp

@[simp] theorem State.arCounter_loadModel (h keyOk tagsOk body) :
    (s.loadModel h keyOk tagsOk body).1.cistern.arCounter = s.cistern.arCounter := by
  unfold State.loadModel
  extract_lets p c bs refuse s0
  have hrefuse : ∀ t st, (refuse t st).1.cistern.arCounter = t.cistern.arCounter := fun _ _ => rfl
  clear_value refuse
  split
  · exact hrefuse _ _
  · split
    · simp
    · split
      · exact hrefuse _ _
      · split
        · rfl
        · have hhead := s.arCounter_pkgRead p.pkgAddr 256
          generalize s.pkgRead p.pkgAddr 256 = head at hhead ⊢
          split
          next t hd ok0 =>
          extract_lets bodyLen len
          split
          · simpa using hhead
          · split
            · rfl
            · have hrest := t.arCounter_pkgRead (p.pkgAddr + 256) (if ok0 then len - 256 else 0)
              generalize t.pkgRead (p.pkgAddr + 256) (if ok0 then len - 256 else 0) = rest at hrest ⊢
              split
              next u _ ok1 =>
              have hu : u.cistern.arCounter = s.cistern.arCounter := hrest.trans hhead
              dsimp only
              split
              · rw [hrefuse, hu]
              · split
                · rw [hrefuse, hu]
                · split
                  · rw [hrefuse, hu]
                  · split
                    · split
                      · rw [hrefuse, hu]
                      · simp [hu]
                    · simp [hrefuse, hu]
                    · rw [hrefuse, hu]
                    · exact hu

/-! ### The responder -/

@[simp] theorem State.arCounter_showReleased (c) : (s.showReleased c).cistern.arCounter = s.cistern.arCounter := by
  simp [State.showReleased]

@[simp] theorem State.arCounter_tdispError (c) : (s.tdispError c).cistern.arCounter = s.cistern.arCounter := by
  unfold State.tdispError; split <;> simp

@[simp] theorem State.arCounter_restoreLevees (c es) : (s.restoreLevees c es).cistern.arCounter = s.cistern.arCounter := by
  simp [State.restoreLevees]

@[simp] theorem State.arCounter_dropSession (i) : (s.dropSession i).cistern.arCounter = s.cistern.arCounter := by
  simp [State.dropSession]

@[simp] theorem State.arCounter_tdispAt (r c) (k : State → State) (hk : (k s).cistern.arCounter = s.cistern.arCounter) :
    (s.tdispAt r c k).cistern.arCounter = s.cistern.arCounter := by
  unfold State.tdispAt
  split_ifs <;> simp [hk]

@[simp] theorem State.arCounter_lockIface (session c noFw) :
    (s.lockIface session c noFw).cistern.arCounter = s.cistern.arCounter := by
  unfold State.lockIface; split <;> simp

@[simp] theorem State.arCounter_answer (r c) : (s.answer r c).cistern.arCounter = s.cistern.arCounter := by
  simp only [State.answer]; repeat' split
  all_goals simp [State.stopContext, State.putSession]

@[simp] theorem State.arCounter_notReady (token) : (s.notReady token).cistern.arCounter = s.cistern.arCounter := by
  unfold State.notReady; split <;> simp

@[simp] theorem State.arCounter_request (r c) : (s.request r c).cistern.arCounter = s.cistern.arCounter := by
  unfold State.request; repeat' split
  all_goals simp [State.answerLater]

@[simp] theorem State.arCounter_respondHeld (r) : (s.respondHeld r).cistern.arCounter = s.cistern.arCounter := by
  unfold State.respondHeld; repeat' split
  all_goals simp

/-! ### Keys, messages and the owner -/

@[simp] theorem State.arCounter_writeResponse (b off cap plain) :
    (s.writeResponse b off cap plain).1.cistern.arCounter = s.cistern.arCounter := by
  simp [State.writeResponse]

@[simp] theorem State.arCounter_spdmMessage (h tagOk) :
    (s.spdmMessage h tagOk).1.cistern.arCounter = s.cistern.arCounter := by
  unfold State.spdmMessage; split <;> simp

@[simp] theorem State.arCounter_spdmTemplate (src p tagOk) :
    (s.spdmTemplate src p tagOk).cistern.arCounter = s.cistern.arCounter := by
  unfold State.spdmTemplate
  extract_lets t
  have ht : t.cistern.arCounter = s.cistern.arCounter := by simp [t]
  clear_value t
  split
  · exact ht
  · next h _ =>
    have hmade := t.arCounter_spdmMessage h tagOk
    split <;> next e => rw [e] at hmade; simpa [ht] using hmade

@[simp] theorem State.execSpdmMessage_keepsCounter (src pkt tagOk) : s.KeepsCounter (execSpdmMessage src pkt tagOk s) := by
  unfold execSpdmMessage; split <;> simp

@[simp] theorem State.arCounter_setKeySlot (c i k) : (s.setKeySlot c i k).cistern.arCounter = s.cistern.arCounter := by
  simp [State.setKeySlot]

@[simp] theorem State.arCounter_replaceKey (c i k) : (s.replaceKey c i k).cistern.arCounter = s.cistern.arCounter := by
  unfold State.replaceKey; split <;> simp

@[simp] theorem State.arCounter_bindKey (h tagOk) : (s.bindKey h tagOk).1.cistern.arCounter = s.cistern.arCounter := by
  simp [State.bindKey]

@[simp] theorem State.arCounter_installKey (h tagOk) : (s.installKey h tagOk).1.cistern.arCounter = s.cistern.arCounter := by
  simp [State.installKey]

@[simp] theorem State.arCounter_showOwner : s.showOwner.cistern.arCounter = s.cistern.arCounter := by simp [State.showOwner]

/-! ### Loads and stores -/

@[simp] theorem State.arCounter_readReg (who r o n) : (s.readReg who r o n).1.cistern.arCounter = s.cistern.arCounter := by
  unfold State.readReg; split <;> simp

@[simp] theorem State.arCounter_afterStore (r lanes) : (s.afterStore r lanes).cistern.arCounter = s.cistern.arCounter := by
  unfold State.afterStore
  rw [← List.foldl_reverse]
  refine State.arCounter_foldl _ (fun t u => ?_) _ _
  split
  · split <;> simp
  · split <;> simp
  · rfl

@[simp] theorem State.arCounter_plainStore (r rw lanes data) :
    (s.plainStore r rw lanes data).cistern.arCounter = s.cistern.arCounter := by
  simp [State.plainStore]

@[simp] theorem State.arCounter_consumed (r rhead) : (s.consumed r rhead).cistern.arCounter = s.cistern.arCounter := by
  unfold State.consumed; split <;> simp

@[simp] theorem State.arCounter_nextSupply : s.nextSupply.cistern.arCounter = s.cistern.arCounter := by
  unfold State.nextSupply; split <;> simp

@[simp] theorem State.arCounter_supplyFailed : s.supplyFailed.cistern.arCounter = s.cistern.arCounter := by
  simp only [State.supplyFailed]; repeat' split
  all_goals simp

@[simp] theorem State.arCounter_grantStore (lanes data) :
    (s.grantStore lanes data).cistern.arCounter = s.cistern.arCounter := by
  simp only [State.grantStore]; repeat' split
  all_goals simp

@[simp] theorem State.arCounter_keeperStore (src a low) :
    (s.keeperStore src a low).cistern.arCounter = s.cistern.arCounter := by
  unfold State.keeperStore; split <;> simp

@[simp] theorem State.arCounter_remapStore (b k e v) : (s.remapStore b k e v).cistern.arCounter = s.cistern.arCounter := by
  simp [State.remapStore]

@[simp] theorem State.arCounter_spareStore (b i st logical) :
    (s.spareStore b i st logical).cistern.arCounter = s.cistern.arCounter := by
  simp [State.spareStore]

@[simp] theorem State.arCounter_rosogStore (r lanes data src a) :
    (s.rosogStore r lanes data src a).cistern.arCounter = s.cistern.arCounter := by
  unfold State.rosogStore; split <;> simp [State.spareMapStore]

@[simp] theorem State.arCounter_writeReg (who machine r o n data) :
    (s.writeReg who machine r o n data).cistern.arCounter = s.cistern.arCounter := by
  unfold State.writeReg; repeat' split
  all_goals simp [State.doorbell]

@[simp] theorem State.arCounter_descStore (who b d o n bs) :
    (s.descStore who b d o n bs).cistern.arCounter = s.cistern.arCounter := by
  unfold State.descStore; split <;> simp

@[simp] theorem State.arCounter_openBytes (n) : (s.openBytes n).1.cistern.arCounter = s.cistern.arCounter := by
  simp [State.openBytes]

@[simp] theorem State.arCounter_loadAt (who pl n) : (s.loadAt who pl n).1.cistern.arCounter = s.cistern.arCounter := by
  unfold State.loadAt; split <;> simp

@[simp] theorem State.arCounter_storeAt (who machine pl bs) :
    (s.storeAt who machine pl bs).cistern.arCounter = s.cistern.arCounter := by
  unfold State.storeAt; split <;> simp [State.gaugeStore]

@[simp] theorem State.arCounter_mapLoad (who a n) : (s.mapLoad who a n).1.cistern.arCounter = s.cistern.arCounter := by
  simp only [State.mapLoad]; repeat' split
  all_goals simp

@[simp] theorem State.arCounter_mapStore (who machine a bs) :
    (s.mapStore who machine a bs).cistern.arCounter = s.cistern.arCounter := by
  simp only [State.mapStore]; repeat' split
  all_goals simp

@[simp] theorem State.arCounter_coreLoad (k a n) : (s.coreLoad k a n).1.cistern.arCounter = s.cistern.arCounter := by
  unfold State.coreLoad; repeat' split
  all_goals simp

@[simp] theorem State.arCounter_coreStore (machine a bs) :
    (s.coreStore machine a bs).cistern.arCounter = s.cistern.arCounter := by
  unfold State.coreStore; repeat' split
  all_goals simp

@[simp] theorem State.arCounter_conditional (a bs) : (s.conditional a bs).cistern.arCounter = s.cistern.arCounter := by
  unfold State.conditional; split <;> simp

@[simp] theorem State.arCounter_siteLoad (who a n) : (s.siteLoad who a n).1.cistern.arCounter = s.cistern.arCounter := by
  unfold State.siteLoad; repeat' split
  all_goals simp [State.reserve]

@[simp] theorem State.arCounter_siteStore (who machine a bs) :
    (s.siteStore who machine a bs).cistern.arCounter = s.cistern.arCounter := by
  unfold State.siteStore; repeat' split
  all_goals simp

@[simp] theorem State.arCounter_storeReg (who machine r v) :
    (s.storeReg who machine r v).cistern.arCounter = s.cistern.arCounter := by
  simp [State.storeReg]

@[simp] theorem State.arCounter_memoryReady (who b off n write) :
    (s.memoryReady who b off n write).1.cistern.arCounter = s.cistern.arCounter := by
  unfold State.memoryReady; split <;> simp [State.headgateBeat]

@[simp] theorem State.arCounter_accessReady (who a n write) :
    (s.accessReady who a n write).1.cistern.arCounter = s.cistern.arCounter := by
  unfold State.accessReady; repeat' split
  all_goals simp

@[simp] theorem State.arCounter_wakeByAccess (who a n write) :
    (s.wakeByAccess who a n write).cistern.arCounter = s.cistern.arCounter := by
  unfold State.wakeByAccess; repeat' split
  all_goals simp

@[simp] theorem State.execRegisterWrite_keepsCounter (who addr size data) :
    s.KeepsCounter (execRegisterWrite who addr size data s) := by
  unfold execRegisterWrite; split <;> simp

@[simp] theorem State.arCounter_fenceI : s.fenceI.cistern.arCounter = s.cistern.arCounter := by simp [State.fenceI]

@[simp] theorem State.execCtlRemapWrite_keepsCounter (who machineMode data fenceI) :
    s.KeepsCounter (execCtlRemapWrite who machineMode data fenceI s) := by
  unfold execCtlRemapWrite; split <;> simp

@[simp] theorem State.execRegCfgWrite_keepsCounter (who addr data) : s.KeepsCounter (execRegCfgWrite who addr data s) := by
  unfold execRegCfgWrite; split <;> simp

@[simp] theorem State.execRegionTableWrite_keepsCounter (who n half data) :
    s.KeepsCounter (execRegionTableWrite who n half data s) := by
  unfold execRegionTableWrite; split <;> simp

@[simp] theorem State.execLeveeWrite_keepsCounter (who b n half data) :
    s.KeepsCounter (execLeveeWrite who b n half data s) := by
  unfold execLeveeWrite; split <;> simp

/-! ### Rows and banks replaced -/

@[simp] theorem State.arCounter_moveRow (b pb row) : (s.moveRow b pb row).cistern.arCounter = s.cistern.arCounter := by
  simp [State.moveRow]

@[simp] theorem State.arCounter_copyRow (c t last) : (s.copyRow c t last).cistern.arCounter = s.cistern.arCounter := by
  simp [State.copyRow]

@[simp] theorem State.arCounter_copierWrites : s.copierWrites.cistern.arCounter = s.cistern.arCounter := by
  simp [State.copierWrites]

@[simp] theorem State.execSpareCopierRead_keepsCounter (b i) : s.KeepsCounter (execSpareCopierRead b i s) := by
  unfold execSpareCopierRead; split <;> simp

@[simp] theorem State.execSpareBankActive_keepsCounter (b i) : s.KeepsCounter (execSpareBankActive b i s) := by
  unfold execSpareBankActive; split <;> simp

end Sys2Proof.Machine
end

section
/-! SUPPORT. The fused counter (R358) under siphons, faults, tests, links, power, starts and the headgate: no
start changes it. -/

namespace Sys2Proof.Machine

variable (s : State)

/-! ### Siphons at work -/

@[simp] theorem State.arCounter_perform (i q fail1 fail2) :
    (s.perform i q fail1 fail2).cistern.arCounter = s.cistern.arCounter := by
  simp [State.perform]

@[simp] theorem State.arCounter_enqueue (i who b qos block write) :
    (s.enqueue i who b qos block write).cistern.arCounter = s.cistern.arCounter := by
  simp [State.enqueue]

@[simp] theorem State.arCounter_grantBlock (i) : (s.grantBlock i).cistern.arCounter = s.cistern.arCounter := by
  simp only [State.grantBlock]; split <;> simp

@[simp] theorem State.arCounter_grantOnce (i) : (s.grantOnce i).cistern.arCounter = s.cistern.arCounter := by
  unfold State.grantOnce; split <;> simp

@[simp] theorem State.arCounter_grantBlocks : s.grantBlocks.cistern.arCounter = s.cistern.arCounter := by
  simp [State.grantBlocks]

@[simp] theorem State.execSiphonRequest_keepsCounter (i who block write) :
    s.KeepsCounter (execSiphonRequest i who block write s) := by
  unfold execSiphonRequest; repeat' split
  all_goals simp

@[simp] theorem State.execSiphonBlockRead_keepsCounter (i block fail1 fail2 mapLost) :
    s.KeepsCounter (execSiphonBlockRead i block fail1 fail2 mapLost s) := by
  simp only [execSiphonBlockRead]; repeat' split
  all_goals simp

@[simp] theorem State.execSiphonBlockWrite_keepsCounter (i block offset data) :
    s.KeepsCounter (execSiphonBlockWrite i block offset data s) := by
  unfold execSiphonBlockWrite; split <;> simp

@[simp] theorem State.execCombinerFlush_keepsCounter (i page) : s.KeepsCounter (execCombinerFlush i page s) := by
  unfold execCombinerFlush; split <;> simp

@[simp] theorem State.arCounter_patrolLap (i) : (s.patrolLap i).cistern.arCounter = s.cistern.arCounter := by
  simp [State.patrolLap]

@[simp] theorem State.arCounter_patrolBlock (i block correction fail1 fail2) :
    (s.patrolBlock i block correction fail1 fail2).cistern.arCounter = s.cistern.arCounter := by
  simp [State.patrolBlock]

@[simp] theorem State.arCounter_patrolOn (i correction fail1 fail2) :
    (s.patrolOn i correction fail1 fail2).cistern.arCounter = s.cistern.arCounter := by
  unfold State.patrolOn
  extract_lets found
  have hfound : ∀ t n, found = some (t, n) → t.cistern.arCounter = s.cistern.arCounter := by
    intro t n h
    simp only [found] at h
    split at h
    · cases h
      rfl
    · obtain ⟨m, -, e⟩ := Option.map_eq_some_iff.mp h
      cases e
      simp
  clear_value found
  split
  · rfl
  · next t n =>
    have ht := hfound t n rfl
    simp [ht]

@[simp] theorem State.execRefreshSlot_keepsCounter (i temp onDieCorrection fail1 fail2) :
    s.KeepsCounter (execRefreshSlot i temp onDieCorrection fail1 fail2 s) := by
  unfold execRefreshSlot; split <;> simp

@[simp] theorem State.arCounter_writeShadows (u l) : (s.writeShadows u l).cistern.arCounter = s.cistern.arCounter := by
  induction l generalizing s u with
  | nil => rfl
  | cons x l ih =>
    obtain ⟨b, d, v, bs⟩ := x
    have hone : ∀ a data v' p,
        ({ (s.stackWrite a data).putDesc b d v' with placements := p } : State).cistern.arCounter = s.cistern.arCounter := by
      simp
    rw [State.writeShadows, ih]
    exact hone _ _ _ _

@[simp] theorem State.arCounter_reshadow (c ts) : (s.reshadow c ts).cistern.arCounter = s.cistern.arCounter := by
  simp only [State.reshadow]; repeat' split
  all_goals simp

@[simp] theorem State.arCounter_reshadowOn : s.reshadowOn.cistern.arCounter = s.cistern.arCounter := by
  unfold State.reshadowOn; split <;> simp

@[simp] theorem State.arCounter_siphonOut (i) : (s.siphonOut i).cistern.arCounter = s.cistern.arCounter := by
  unfold State.siphonOut; split <;> simp

@[simp] theorem State.execSiphonOutOfService_keepsCounter (i) : s.KeepsCounter (execSiphonOutOfService i s) := by
  unfold execSiphonOutOfService; split <;> simp

@[simp] theorem State.arCounter_retireLane (i lane) : (s.retireLane i lane).cistern.arCounter = s.cistern.arCounter := by
  unfold State.retireLane; split <;> simp

@[simp] theorem State.arCounter_linkRound (i weak margin) :
    (s.linkRound i weak margin).cistern.arCounter = s.cistern.arCounter := by
  simp [State.linkRound]

@[simp] theorem State.execLinkCalibration_keepsCounter (i weak margin) :
    s.KeepsCounter (execLinkCalibration i weak margin s) := by
  unfold execLinkCalibration; split <;> simp

/-! ### Faults and their actions -/

@[simp] theorem State.arCounter_keepBasin (b done) : (s.keepBasin b done).cistern.arCounter = s.cistern.arCounter := by
  simp [State.keepBasin]

@[simp] theorem State.arCounter_setPending (b kind u loc) :
    (s.setPending b kind u loc).cistern.arCounter = s.cistern.arCounter := by
  unfold State.setPending; split <;> simp

@[simp] theorem State.arCounter_checkPending (b kind u) :
    (s.checkPending b kind u).cistern.arCounter = s.cistern.arCounter := by
  unfold State.checkPending; split <;> simp

@[simp] theorem State.arCounter_markRetired (kind b u) :
    (s.markRetired kind b u).cistern.arCounter = s.cistern.arCounter := by
  simp [State.markRetired]

@[simp] theorem State.arCounter_setMxe (b u furrow slot st) :
    (s.setMxe b u furrow slot st).cistern.arCounter = s.cistern.arCounter := by
  simp [State.setMxe]

@[simp] theorem State.arCounter_retireMxe (b u) : (s.retireMxe b u).cistern.arCounter = s.cistern.arCounter := by
  simp only [State.retireMxe]; repeat' split
  all_goals simp

@[simp] theorem State.arCounter_retireUnit (kind b u) : (s.retireUnit kind b u).cistern.arCounter = s.cistern.arCounter := by
  unfold State.retireUnit; split <;> simp

@[simp] theorem State.arCounter_takeSlot (b furrow slot u spare st) :
    (s.takeSlot b furrow slot u spare st).cistern.arCounter = s.cistern.arCounter := by
  simp [State.takeSlot]

@[simp] theorem State.execSpareSubstitution_keepsCounter (b furrow slot) :
    s.KeepsCounter (execSpareSubstitution b furrow slot s) := by
  simp only [execSpareSubstitution]; repeat' split
  all_goals simp

@[simp] theorem State.arCounter_bankFaulty (b pb row) :
    (s.bankFaulty b pb row).1.cistern.arCounter = s.cistern.arCounter := by
  simp only [State.bankFaulty]; repeat' split
  all_goals simp [State.startSpare]

@[simp] theorem State.arCounter_actOnBank (b pb row rowBad bankBad) :
    (s.actOnBank b pb row rowBad bankBad).1.cistern.arCounter = s.cistern.arCounter := by
  unfold State.actOnBank; repeat' split
  all_goals simp [State.installRemap]

@[simp] theorem State.arCounter_recordEvent (e action permanent) :
    (s.recordEvent e action permanent).cistern.arCounter = s.cistern.arCounter := by
  unfold State.recordEvent; split <;> simp

@[simp] theorem State.arCounter_rewriteLine (b j) : (s.rewriteLine b j).cistern.arCounter = s.cistern.arCounter := by
  unfold State.rewriteLine; split <;> simp

@[simp] theorem State.arCounter_lineEvent (e) : (s.lineEvent e).cistern.arCounter = s.cistern.arCounter := by
  unfold State.lineEvent; split <;> simp [State.rebuildDesc]

@[simp] theorem State.arCounter_engineEvent (e) : (s.engineEvent e).cistern.arCounter = s.cistern.arCounter := by
  unfold State.engineEvent; split <;> simp

@[simp] theorem State.arCounter_siphonEventDone (e) : (s.siphonEventDone e).cistern.arCounter = s.cistern.arCounter := by
  unfold State.siphonEventDone; split <;> simp

@[simp] theorem State.arCounter_handleEvent (e) : (s.handleEvent e).cistern.arCounter = s.cistern.arCounter := by
  unfold State.handleEvent; split <;> simp [State.bankEvent]

@[simp] theorem State.execFaultEvent_keepsCounter : s.KeepsCounter (execFaultEvent s) := by
  unfold execFaultEvent; split <;> simp

@[simp] theorem State.arCounter_moveRing (r to_) : (s.moveRing r to_).cistern.arCounter = s.cistern.arCounter := by
  unfold State.moveRing; split <;> simp

@[simp] theorem State.arCounter_moveRings (b) : (s.moveRings b).cistern.arCounter = s.cistern.arCounter := by
  unfold State.moveRings
  refine State.arCounter_foldl _ (fun t r => ?_) _ _
  split
  · split <;> simp
  · rfl

@[simp] theorem State.arCounter_retireBasin (b failed) :
    (s.retireBasin b failed).cistern.arCounter = s.cistern.arCounter := by
  simp [State.retireBasin, State.dropBasin]

@[simp] theorem State.execBasinRetireComplete_keepsCounter (b) : s.KeepsCounter (execBasinRetireComplete b s) := by
  unfold execBasinRetireComplete; split <;> simp

@[simp] theorem State.arCounter_endFlights (fs st) : (s.endFlights fs st).cistern.arCounter = s.cistern.arCounter := by
  unfold State.endFlights
  refine (State.arCounter_foldl _ (fun t f => ?_) _ _).trans (by simp)
  split
  · simp
  · split <;> simp

@[simp] theorem State.arCounter_endBasin (b) : (s.endBasin b).cistern.arCounter = s.cistern.arCounter := by
  simp [State.endBasin]

@[simp] theorem State.execBasinRetireImmediate_keepsCounter (b fillOk) :
    s.KeepsCounter (execBasinRetireImmediate b fillOk s) := by
  unfold execBasinRetireImmediate; split <;> simp

/-! ### Tests in the field -/

@[simp] theorem State.execShadowRestore_keepsCounter (b) : s.KeepsCounter (execShadowRestore b s) := by
  unfold execShadowRestore; split <;> simp

@[simp] theorem State.arCounter_beginTest (kind b u held) :
    (s.beginTest kind b u held).cistern.arCounter = s.cistern.arCounter := by
  simp [State.beginTest]

@[simp] theorem State.arCounter_forceTest (b u furrow slot) :
    (s.forceTest b u furrow slot).cistern.arCounter = s.cistern.arCounter := by
  simp [State.forceTest]

@[simp] theorem State.arCounter_startMxeTest (b u) : (s.startMxeTest b u).cistern.arCounter = s.cistern.arCounter := by
  unfold State.startMxeTest; repeat' split
  all_goals simp

@[simp] theorem State.execInfieldTestStart_keepsCounter (kind b u) : s.KeepsCounter (execInfieldTestStart kind b u s) := by
  unfold execInfieldTestStart; split <;> simp

@[simp] theorem State.execTestForced_keepsCounter (b u) : s.KeepsCounter (execTestForced b u s) := by
  simp only [execTestForced]; split <;> simp

@[simp] theorem State.arCounter_placeTested (kind b u pass held) :
    (s.placeTested kind b u pass held).cistern.arCounter = s.cistern.arCounter := by
  unfold State.placeTested; repeat' split
  all_goals simp

@[simp] theorem State.arCounter_refillSlot (b held) : (s.refillSlot b held).cistern.arCounter = s.cistern.arCounter := by
  unfold State.refillSlot
  split
  · split
    · extract_lets t
      have ht : t.cistern.arCounter = s.cistern.arCounter := by simp [t]
      simpa using ht
    · rfl
  · rfl

@[simp] theorem State.execInfieldTestEnd_keepsCounter (kind b u pass us) :
    s.KeepsCounter (execInfieldTestEnd kind b u pass us s) := by
  simp only [execInfieldTestEnd]
  split
  · simp
  · rw [State.keepsCounter_ok, State.arCounter_foldl]
    · simp
    · intro t x
      split <;> simp

@[simp] theorem State.arCounter_testAsk (h) : (s.testAsk h).1.cistern.arCounter = s.cistern.arCounter := by
  simp only [State.testAsk]; repeat' split
  all_goals simp

/-! ### The test port -/

@[simp] theorem State.execJtagIdcode_keepsCounter : s.KeepsCounter (execJtagIdcode s) := by
  unfold execJtagIdcode; split <;> simp

@[simp] theorem State.execJtagBypass_keepsCounter (tdi) : s.KeepsCounter (execJtagBypass tdi s) := by
  unfold execJtagBypass; split <;> simp

@[simp] theorem State.execJtagSamplePreload_keepsCounter (bits) : s.KeepsCounter (execJtagSamplePreload bits s) := by
  unfold execJtagSamplePreload; split <;> simp

@[simp] theorem State.execJtagExtest_keepsCounter (bits) : s.KeepsCounter (execJtagExtest bits s) := by
  unfold execJtagExtest; split <;> simp

@[simp] theorem State.execJtagIeee1687Access_keepsCounter (write bits) :
    s.KeepsCounter (execJtagIeee1687Access write bits s) := by
  unfold execJtagIeee1687Access; split <;> simp

/-! ### Culvert links -/

@[simp] theorem State.arCounter_culEvent (c kind site job) :
    (s.culEvent c kind site job).cistern.arCounter = s.cistern.arCounter := by
  simp [State.culEvent]

@[simp] theorem State.arCounter_discard (cu m) : (s.discard cu m).cistern.arCounter = s.cistern.arCounter := by
  simp [State.discard]

@[simp] theorem State.arCounter_arrives (cu m record tagOk) :
    (s.arrives cu m record tagOk).cistern.arCounter = s.cistern.arCounter := by
  unfold State.arrives; repeat' split
  all_goals simp [State.land]

@[simp] theorem State.arCounter_takeCredits (c xtag flits) :
    (s.takeCredits c xtag flits).cistern.arCounter = s.cistern.arCounter := by
  simp [State.takeCredits]

@[simp] theorem State.arCounter_tileAnswered (flight tile st) :
    (s.tileAnswered flight tile st).cistern.arCounter = s.cistern.arCounter := by
  unfold State.tileAnswered; split <;> simp

@[simp] theorem State.arCounter_endExchange (c e st) : (s.endExchange c e st).cistern.arCounter = s.cistern.arCounter := by
  simp [State.endExchange]

@[simp] theorem State.execCulvertResponse_keepsCounter (c xtag status) :
    s.KeepsCounter (execCulvertResponse c xtag status s) := by
  unfold execCulvertResponse; repeat' split
  all_goals simp

@[simp] theorem State.execCulvertCreditReceived_keepsCounter (c flits) :
    s.KeepsCounter (execCulvertCreditReceived c flits s) := by
  unfold execCulvertCreditReceived; split <;> simp

@[simp] theorem State.execFlitReplay_keepsCounter (c) : s.KeepsCounter (execFlitReplay c s) := by
  unfold execFlitReplay; split <;> simp

@[simp] theorem State.arCounter_trainingDone : s.trainingDone.cistern.arCounter = s.cistern.arCounter := by
  unfold State.trainingDone; split <;> simp

@[simp] theorem State.arCounter_unfence : s.unfence.cistern.arCounter = s.cistern.arCounter := by
  unfold State.unfence; split <;> simp [State.trainCulverts]

@[simp] theorem State.arCounter_dropExchanges (c) : (s.dropExchanges c).cistern.arCounter = s.cistern.arCounter := by
  simp [State.dropExchanges]

@[simp] theorem State.arCounter_fence : s.fence.cistern.arCounter = s.cistern.arCounter := by
  simp [State.fence, State.dropUnsent]

@[simp] theorem State.arCounter_fenced : s.fenced.cistern.arCounter = s.cistern.arCounter := by simp [State.fenced]

@[simp] theorem State.execFenceComplete_keepsCounter : s.KeepsCounter (execFenceComplete s) := by
  unfold execFenceComplete; split <;> simp

@[simp] theorem State.execFenceTimeout_keepsCounter : s.KeepsCounter (execFenceTimeout s) := by
  unfold execFenceTimeout; split <;> simp

@[simp] theorem State.execCulvertTrained_keepsCounter (c ok_) : s.KeepsCounter (execCulvertTrained c ok_ s) := by
  unfold execCulvertTrained; split <;> simp

@[simp] theorem State.execCulvertLaneFail_keepsCounter (c outbound) : s.KeepsCounter (execCulvertLaneFail c outbound s) := by
  unfold execCulvertLaneFail; split <;> simp

/-! ### Power management -/

@[simp] theorem State.arCounter_thermalDuty (r want) : (s.thermalDuty r want).1.cistern.arCounter = s.cistern.arCounter := by
  unfold State.thermalDuty; split <;> simp

@[simp] theorem State.arCounter_marginExpire : s.marginExpire.cistern.arCounter = s.cistern.arCounter := by
  unfold State.marginExpire; split <;> simp

@[simp] theorem State.arCounter_sample (r) : (s.sample r).cistern.arCounter = s.cistern.arCounter := by simp [State.sample]

@[simp] theorem State.execPowerSample_keepsCounter (r) : s.KeepsCounter (execPowerSample r s) := by
  unfold execPowerSample; split <;> simp

@[simp] theorem State.arCounter_setDiv (div) : (s.setDiv div).cistern.arCounter = s.cistern.arCounter := by
  unfold State.setDiv; split <;> simp

@[simp] theorem State.arCounter_switchDiv : s.switchDiv.cistern.arCounter = s.cistern.arCounter := by
  unfold State.switchDiv; split <;> simp [State.putDiv]

@[simp] theorem State.arCounter_faster : s.faster.cistern.arCounter = s.cistern.arCounter := by
  unfold State.faster; split <;> simp

@[simp] theorem State.arCounter_divRule (ds full predicted) :
    (s.divRule ds full predicted).cistern.arCounter = s.cistern.arCounter := by
  unfold State.divRule; split <;> simp [State.slower]

@[simp] theorem State.arCounter_publish (ds full) : (s.publish ds full).cistern.arCounter = s.cistern.arCounter := by
  unfold State.publish; split <;> simp

@[simp] theorem State.arCounter_average (n) : (s.average n).cistern.arCounter = s.cistern.arCounter := by
  unfold State.average; split <;> simp

@[simp] theorem State.arCounter_msUpdate (predicted) : (s.msUpdate predicted).cistern.arCounter = s.cistern.arCounter := by
  unfold State.msUpdate; split <;> simp

@[simp] theorem State.execPowerMsUpdate_keepsCounter (predicted) : s.KeepsCounter (execPowerMsUpdate predicted s) := by
  unfold execPowerMsUpdate; split <;> simp

@[simp] theorem State.arCounter_settled : s.settled.cistern.arCounter = s.cistern.arCounter := by
  simp only [State.settled]; repeat' split
  all_goals simp

@[simp] theorem State.execSupplySettled_keepsCounter : s.KeepsCounter (execSupplySettled s) := by
  unfold execSupplySettled; split <;> simp

@[simp] theorem State.execVreqTimeout_keepsCounter : s.KeepsCounter (execVreqTimeout s) := by
  unfold execVreqTimeout; split <;> simp

@[simp] theorem State.execKeeperReady_keepsCounter : s.KeepsCounter (execKeeperReady s) := by
  unfold execKeeperReady; split <;> simp

@[simp] theorem State.execThermalTrip_keepsCounter : s.KeepsCounter (execThermalTrip s) := by
  unfold execThermalTrip; split <;> simp

@[simp] theorem State.execThermalTripRelease_keepsCounter : s.KeepsCounter (execThermalTripRelease s) := by
  unfold execThermalTripRelease; split <;> simp

@[simp] theorem State.arCounter_canaryError : s.canaryError.cistern.arCounter = s.cistern.arCounter := by
  simp [State.canaryError]

@[simp] theorem State.arCounter_dueCanaries : s.dueCanaries.cistern.arCounter = s.cistern.arCounter := by
  simp [State.dueCanaries]

@[simp] theorem State.execCanaryCheck_keepsCounter (errors) : s.KeepsCounter (execCanaryCheck errors s) := by
  unfold execCanaryCheck; split <;> simp

@[simp] theorem State.execMarginStep_keepsCounter : s.KeepsCounter (execMarginStep s) := by
  unfold execMarginStep; split <;> simp

/-! ### Starts -/

@[simp] theorem State.arCounter_showStep (k) : (s.showStep k).cistern.arCounter = s.cistern.arCounter := by
  simp [State.showStep]

@[simp] theorem State.arCounter_openStart : s.openStart.cistern.arCounter = s.cistern.arCounter := by simp [State.openStart]

@[simp] theorem State.arCounter_enterFuses : s.enterFuses.cistern.arCounter = s.cistern.arCounter := by
  simp [State.enterFuses]

@[simp] theorem Cistern.arCounter_firstUse (c : Cistern) : c.firstUse.arCounter = c.arCounter := rfl

@[simp] theorem State.arCounter_fromCistern : s.fromCistern.cistern.arCounter = s.cistern.arCounter := by
  unfold State.fromCistern
  extract_lets c seq t u
  have hc : c.arCounter = s.cistern.arCounter := by
    simp only [c]
    split <;> rfl
  split <;> exact hc

@[simp] theorem State.arCounter_enterBoot : s.enterBoot.cistern.arCounter = s.cistern.arCounter := by simp [State.enterBoot]

@[simp] theorem State.arCounter_enterStep (k) : (s.enterStep k).cistern.arCounter = s.cistern.arCounter := by
  simp [State.enterStep]

@[simp] theorem State.arCounter_enterAlwaysOn : s.enterAlwaysOn.cistern.arCounter = s.cistern.arCounter := by
  simp [State.enterAlwaysOn]

@[simp] theorem State.arCounter_steadyClock : s.steadyClock.cistern.arCounter = s.cistern.arCounter := by
  unfold State.steadyClock; split <;> simp

@[simp] theorem State.arCounter_restart (keep st) : (s.restart keep st).cistern.arCounter = s.cistern.arCounter := by
  simp [State.restart, State.dropRequest]

@[simp] theorem State.arCounter_restartCold (cause) : (s.restartCold cause).cistern.arCounter = s.cistern.arCounter := by
  simp [State.restartCold]

@[simp] theorem State.execPowerGoodRise_keepsCounter : s.KeepsCounter (execPowerGoodRise s) := by
  unfold execPowerGoodRise; split <;> simp

@[simp] theorem State.execPowerGoodFall_keepsCounter : s.KeepsCounter (execPowerGoodFall s) := by
  unfold execPowerGoodFall; split <;> simp

@[simp] theorem State.execClockLoss_keepsCounter : s.KeepsCounter (execClockLoss s) := by
  unfold execClockLoss; split <;> simp

@[simp] theorem State.execClockRestart_keepsCounter : s.KeepsCounter (execClockRestart s) := by
  unfold execClockRestart; split <;> simp

@[simp] theorem State.execKeeperBrownOut_keepsCounter : s.KeepsCounter (execKeeperBrownOut s) := by
  unfold execKeeperBrownOut; split <;> simp

@[simp] theorem State.arCounter_retestNow : s.retestNow.cistern.arCounter = s.cistern.arCounter := by simp [State.retestNow]

@[simp] theorem State.arCounter_dryWake : s.dryWake.cistern.arCounter = s.cistern.arCounter := by simp [State.dryWake]

@[simp] theorem Cistern.arCounter_writeBoot (c : Cistern) (slotB pending) :
    (c.writeBoot slotB pending).arCounter = c.arCounter := rfl

@[simp] theorem State.arCounter_setActive (b) : (s.setActive b).cistern.arCounter = s.cistern.arCounter := by
  simp [State.setActive]

@[simp] theorem State.arCounter_markCopy (pending) : (s.markCopy pending).cistern.arCounter = s.cistern.arCounter := by
  unfold State.markCopy; split <;> simp

@[simp] theorem State.arCounter_putSlot (b x) : (s.putSlot b x).cistern.arCounter = s.cistern.arCounter := by
  unfold State.putSlot; split <;> simp

@[simp] theorem State.arCounter_emptyStaging : s.emptyStaging.cistern.arCounter = s.cistern.arCounter := by
  simp [State.emptyStaging]

@[simp] theorem State.arCounter_fwFail : s.fwFail.cistern.arCounter = s.cistern.arCounter := by simp [State.fwFail]

@[simp] theorem State.arCounter_copyAtStart (verified) :
    (s.copyAtStart verified).cistern.arCounter = s.cistern.arCounter := by
  unfold State.copyAtStart; repeat' split
  all_goals simp

@[simp] theorem State.arCounter_showImage : s.showImage.cistern.arCounter = s.cistern.arCounter := by simp [State.showImage]

@[simp] theorem State.arCounter_fillCheck (b c) : (s.fillCheck b c).cistern.arCounter = s.cistern.arCounter := by
  simp [State.fillCheck]

@[simp] theorem State.arCounter_boot (r) : (s.boot r).cistern.arCounter = s.cistern.arCounter := by
  simp only [State.boot]; split <;> simp [State.rampBanks]

@[simp] theorem State.arCounter_finishSpares (b) : (s.finishSpares b).cistern.arCounter = s.cistern.arCounter := by
  simp [State.finishSpares]

@[simp] theorem State.arCounter_noteStartFault (kind b u cls action row) :
    (s.noteStartFault kind b u cls action row).cistern.arCounter = s.cistern.arCounter := by
  simp [State.noteStartFault]

@[simp] theorem State.arCounter_loseBasin (b) : (s.loseBasin b).cistern.arCounter = s.cistern.arCounter := by
  simp [State.loseBasin]

@[simp] theorem State.arCounter_basinOut (b) : (s.basinOut b).cistern.arCounter = s.cistern.arCounter := by
  unfold State.basinOut; split <;> simp

@[simp] theorem State.arCounter_startBank (b pb) : (s.startBank b pb).cistern.arCounter = s.cistern.arCounter := by
  simp only [State.startBank]; repeat' split
  all_goals simp

@[simp] theorem State.arCounter_startRow (b pb row) : (s.startRow b pb row).cistern.arCounter = s.cistern.arCounter := by
  unfold State.startRow; split <;> simp

@[simp] theorem State.arCounter_placeMxe (b u) : (s.placeMxe b u).cistern.arCounter = s.cistern.arCounter := by
  unfold State.placeMxe; repeat' split
  all_goals simp

@[simp] theorem State.arCounter_failUnit (kind b u) : (s.failUnit kind b u).cistern.arCounter = s.cistern.arCounter := by
  unfold State.failUnit; split <;> simp

@[simp] theorem State.arCounter_placeRetired : s.placeRetired.cistern.arCounter = s.cistern.arCounter := by
  unfold State.placeRetired
  refine State.arCounter_foldl _ (fun t u => ?_) _ _
  split
  · rfl
  · split <;> simp

@[simp] theorem State.arCounter_loseEmpty : s.loseEmpty.cistern.arCounter = s.cistern.arCounter := by simp [State.loseEmpty]

@[simp] theorem State.arCounter_startSiphonOut (i) : (s.startSiphonOut i).cistern.arCounter = s.cistern.arCounter := by
  simp [State.startSiphonOut]

@[simp] theorem State.arCounter_startCulvertOut (c) : (s.startCulvertOut c).cistern.arCounter = s.cistern.arCounter := by
  unfold State.startCulvertOut; split <;> simp

@[simp] theorem State.arCounter_startLane (x) : (s.startLane x).cistern.arCounter = s.cistern.arCounter := by
  unfold State.startLane; split <;> simp

@[simp] theorem State.arCounter_startLinks (r) : (s.startLinks r).cistern.arCounter = s.cistern.arCounter := by
  simp [State.startLinks]

@[simp] theorem State.arCounter_completeRetirements : s.completeRetirements.cistern.arCounter = s.cistern.arCounter := by
  simp [State.completeRetirements]

@[simp] theorem State.arCounter_pendEmpty : s.pendEmpty.cistern.arCounter = s.cistern.arCounter := by
  unfold State.pendEmpty
  refine State.arCounter_foldl _ (fun t b => ?_) _ _
  split <;> simp

@[simp] theorem State.arCounter_selfTest (r) : (s.selfTest r).cistern.arCounter = s.cistern.arCounter := by
  simp only [State.selfTest]; split <;> simp [State.verdicts]

@[simp] theorem State.arCounter_loadTrims : s.loadTrims.cistern.arCounter = s.cistern.arCounter := by simp [State.loadTrims]

@[simp] theorem State.arCounter_storeTrims : s.storeTrims.cistern.arCounter = s.cistern.arCounter := by
  simp [State.storeTrims]

@[simp] theorem State.arCounter_calibrate (r) : (s.calibrate r).cistern.arCounter = s.cistern.arCounter := by
  unfold State.calibrate
  extract_lets t u v
  have ht : t.cistern.arCounter = s.cistern.arCounter := by simp [t]
  have hu : u.cistern.arCounter = t.cistern.arCounter := by
    refine State.arCounter_foldl _ (fun t i => ?_) _ _
    split <;> simp
  simp [v, hu, ht]

@[simp] theorem State.execStartStep_keepsCounter (r) : s.KeepsCounter (execStartStep r s) := by
  simp only [execStartStep]; repeat' split
  all_goals simp

@[simp] theorem State.execStartStepTimeout_keepsCounter : s.KeepsCounter (execStartStepTimeout s) := by
  unfold execStartStepTimeout; split <;> simp

@[simp] theorem State.arCounter_hotJoin : s.hotJoin.cistern.arCounter = s.cistern.arCounter := by
  unfold State.hotJoin; split <;> simp

@[simp] theorem State.execRelease_keepsCounter (ms) : s.KeepsCounter (execRelease ms s) := by
  unfold execRelease; split <;> simp

/-! ### The headgate -/

@[simp] theorem State.arCounter_hgTake (h) : (s.hgTake h).cistern.arCounter = s.cistern.arCounter := by simp [State.hgTake]

/-- A headgate frame keeps the fused counter where what it runs does. -/
@[simp] theorem State.arCounter_hgFrame (typ h payload wellFormed) (run : State → State)
    (hk : ∀ t, (run t).cistern.arCounter = t.cistern.arCounter) :
    (s.hgFrame typ h payload wellFormed run).cistern.arCounter = s.cistern.arCounter := by
  unfold State.hgFrame
  dsimp only
  split
  · rfl
  · simp only [State.arCounter_ite]
    split
    · simp
    · split
      · simp
      · split <;> simp [hk]

@[simp] theorem State.arCounter_debugMade (x) : (s.debugMade x).1.cistern.arCounter = s.cistern.arCounter := by
  unfold State.debugMade; split <;> simp

@[simp] theorem State.arCounter_debugAsk (x) : (s.debugAsk x).cistern.arCounter = s.cistern.arCounter := by
  have hmade := s.arCounter_debugMade x
  unfold State.debugAsk
  split
  · rfl
  · split <;> next e => rw [e] at hmade; exact hmade

@[simp] theorem State.arCounter_debugOn : s.debugOn.cistern.arCounter = s.cistern.arCounter := by
  unfold State.debugOn
  split
  · rfl
  · next x _ _ =>
    have hmade := s.arCounter_debugMade x
    split <;> next e => rw [e] at hmade; exact hmade

@[simp] theorem State.execHgFetch_keepsCounter (h) : s.KeepsCounter (execHgFetch h s) := by
  simp only [execHgFetch]; repeat' split
  all_goals simp

@[simp] theorem State.arCounter_hgReply (w o) : (s.hgReply w o).cistern.arCounter = s.cistern.arCounter := by
  simp [State.hgReply]

@[simp] theorem State.arCounter_serve (w) (k : State → HgFrame → State × Option Outcome)
    (hk : ∀ t h, (k t h).1.cistern.arCounter = t.cistern.arCounter) :
    (s.serve w k).cistern.arCounter = s.cistern.arCounter := by
  unfold State.serve
  split
  · simp
  · split <;> next h => simp [← hk s w, h]

@[simp] theorem State.arCounter_service (w) (k : State → HgFrame → State × Option Outcome)
    (hk : ∀ t h, (k t h).1.cistern.arCounter = t.cistern.arCounter) :
    (s.service w k).cistern.arCounter = s.cistern.arCounter := by
  refine s.arCounter_hgFrame _ _ _ _ _ fun t => ?_
  split
  · rfl
  · exact t.arCounter_serve w k hk

/-! ### Images, tokens and handovers -/

@[simp] theorem State.arCounter_setReceived (n) : (s.setReceived n).cistern.arCounter = s.cistern.arCounter := by
  simp [State.setReceived]

@[simp] theorem State.arCounter_noteFrame : s.noteFrame.cistern.arCounter = s.cistern.arCounter := by simp [State.noteFrame]

@[simp] theorem State.arCounter_imgBeginAsk (w) : (s.imgBeginAsk w).1.cistern.arCounter = s.cistern.arCounter := by
  unfold State.imgBeginAsk
  extract_lets d x t c0 c
  have ht : t.cistern.arCounter = s.cistern.arCounter := by simp [t]
  split
  · exact ht
  · split
    · exact ht
    · clear_value t
      have hc : c.arCounter = t.cistern.arCounter := by simp [c, c0]
      clear_value c
      split_ifs <;> simp [hc, ht]

@[simp] theorem State.arCounter_imgDataAsk (w) : (s.imgDataAsk w).1.cistern.arCounter = s.cistern.arCounter := by
  simp only [State.imgDataAsk]; split <;> simp

@[simp] theorem State.arCounter_imgEndAsk (w) : (s.imgEndAsk w).1.cistern.arCounter = s.cistern.arCounter := by
  simp only [State.imgEndAsk]; repeat' split
  all_goals simp

@[simp] theorem State.arCounter_imgVerdict (verified x) :
    (s.imgVerdict verified x).1.cistern.arCounter = s.cistern.arCounter := by
  unfold State.imgVerdict; split <;> simp

@[simp] theorem State.arCounter_imgVerified : s.imgVerified.cistern.arCounter = s.cistern.arCounter := by
  unfold State.imgVerified; split <;> simp

@[simp] theorem State.arCounter_imgAbortAsk (w) : (s.imgAbortAsk w).1.cistern.arCounter = s.cistern.arCounter := by
  unfold State.imgAbortAsk; split <;> simp

@[simp] theorem State.arCounter_imgStatusAsk (w) : (s.imgStatusAsk w).1.cistern.arCounter = s.cistern.arCounter := by
  unfold State.imgStatusAsk; split <;> simp

@[simp] theorem State.arCounter_handoverOn : s.handoverOn.cistern.arCounter = s.cistern.arCounter := by
  unfold State.handoverOn; split <;> simp [State.openWindow, State.closeWindow]

@[simp] theorem State.arCounter_imgActivateAsk (w) : (s.imgActivateAsk w).1.cistern.arCounter = s.cistern.arCounter := by
  unfold State.imgActivateAsk; repeat' split
  all_goals simp

@[simp] theorem State.execHandoverPointTimeout_keepsCounter : s.KeepsCounter (execHandoverPointTimeout s) := by
  unfold execHandoverPointTimeout; split <;> simp

@[simp] theorem State.execBootSlotCopyDone_keepsCounter (verified) : s.KeepsCounter (execBootSlotCopyDone verified s) := by
  unfold execBootSlotCopyDone; split <;> simp

@[simp] theorem State.arCounter_partialStart (imageOk) :
    (s.partialStart imageOk).cistern.arCounter = s.cistern.arCounter := by
  simp [State.partialStart]

@[simp] theorem State.arCounter_handoverFailed : s.handoverFailed.cistern.arCounter = s.cistern.arCounter := by
  unfold State.handoverFailed; split <;> simp

@[simp] theorem State.arCounter_partialOn : s.partialOn.cistern.arCounter = s.cistern.arCounter := by
  unfold State.partialOn; split <;> simp [State.partialEnd]

@[simp] theorem State.execControlWatchdog_keepsCounter (imageOk) : s.KeepsCounter (execControlWatchdog imageOk s) := by
  unfold execControlWatchdog; split <;> simp

@[simp] theorem State.execHandoverWatchdog_keepsCounter (imageOk) : s.KeepsCounter (execHandoverWatchdog imageOk s) := by
  unfold execHandoverWatchdog; split <;> simp

@[simp] theorem State.arCounter_partialResetAsk (w) : (s.partialResetAsk w).1.cistern.arCounter = s.cistern.arCounter := by
  unfold State.partialResetAsk; split <;> simp

@[simp] theorem State.arCounter_nonceAsk (w) : (s.nonceAsk w).1.cistern.arCounter = s.cistern.arCounter := by
  unfold State.nonceAsk; split <;> simp

@[simp] theorem State.arCounter_debugUnlock : s.debugUnlock.cistern.arCounter = s.cistern.arCounter := by
  simp [State.debugUnlock]

@[simp] theorem State.arCounter_tokenAsk (w) : (s.tokenAsk w).1.cistern.arCounter = s.cistern.arCounter := by
  simp only [State.tokenAsk]; repeat' split
  all_goals simp [State.clearSummary]

@[simp] theorem State.arCounter_retestAsk (w) : (s.retestAsk w).1.cistern.arCounter = s.cistern.arCounter := by
  unfold State.retestAsk; split <;> simp

@[simp] theorem State.arCounter_serviceAsk (w) : (s.serviceAsk w).1.cistern.arCounter = s.cistern.arCounter := by
  unfold State.serviceAsk; split <;> simp

@[simp] theorem State.arCounter_serveWaiting : s.serveWaiting.cistern.arCounter = s.cistern.arCounter := by
  unfold State.serveWaiting; split <;> simp

end Sys2Proof.Machine
end

section
/-! SUPPORT. The fused counter (R358) under the management bus, repeats, SPDM, scrubs, watches and the idle cycle. -/

namespace Sys2Proof.Machine

variable (s : State)

/-! ### The management bus -/

@[simp] theorem State.arCounter_cccAnswer (data) : (s.cccAnswer data).cistern.arCounter = s.cistern.arCounter := by
  simp [State.cccAnswer]

@[simp] theorem State.arCounter_cccNack : s.cccNack.cistern.arCounter = s.cistern.arCounter := by simp [State.cccNack]

@[simp] theorem State.execMgtRead_keepsCounter (addr) : s.KeepsCounter (execMgtRead addr s) := by
  unfold execMgtRead; split <;> simp

@[simp] theorem State.execMgtWrite_keepsCounter (addr data) : s.KeepsCounter (execMgtWrite addr data s) := by
  unfold execMgtWrite; split <;> simp

@[simp] theorem State.arCounter_stateAnswer (st w0 w1) :
    (s.stateAnswer st w0 w1).cistern.arCounter = s.cistern.arCounter := by
  simp [State.stateAnswer]

@[simp] theorem State.arCounter_stateRefuse (st) : (s.stateRefuse st).cistern.arCounter = s.cistern.arCounter := by
  simp [State.stateRefuse]

@[simp] theorem State.arCounter_stateWake : s.stateWake.cistern.arCounter = s.cistern.arCounter := by simp [State.stateWake]

@[simp] theorem State.arCounter_stateEnter (target) : (s.stateEnter target).cistern.arCounter = s.cistern.arCounter := by
  unfold State.stateEnter; repeat' split
  all_goals simp

@[simp] theorem State.arCounter_stateRetest : s.stateRetest.cistern.arCounter = s.cistern.arCounter := by
  unfold State.stateRetest; split <;> simp

@[simp] theorem State.arCounter_stateCancel : s.stateCancel.cistern.arCounter = s.cistern.arCounter := by
  simp only [State.stateCancel]; repeat' split
  all_goals simp

@[simp] theorem State.execMgtState_keepsCounter (arg) : s.KeepsCounter (execMgtState arg s) := by
  unfold execMgtState; repeat' split
  all_goals simp

@[simp] theorem State.execMgtNonce_keepsCounter : s.KeepsCounter (execMgtNonce s) := by unfold execMgtNonce; split <;> simp

@[simp] theorem State.execMgtRole_keepsCounter (hmac) : s.KeepsCounter (execMgtRole hmac s) := by
  unfold execMgtRole; repeat' split
  all_goals simp

@[simp] theorem State.execAlertAck_keepsCounter (mask) : s.KeepsCounter (execAlertAck mask s) := by
  unfold execAlertAck; split <;> simp

@[simp] theorem State.execEntdaa_keepsCounter (won addr) : s.KeepsCounter (execEntdaa won addr s) := by
  unfold execEntdaa; split <;> simp

@[simp] theorem State.execSetdasa_keepsCounter (static addr) : s.KeepsCounter (execSetdasa static addr s) := by
  unfold execSetdasa; split <;> simp

@[simp] theorem State.execSetnewda_keepsCounter (addr) : s.KeepsCounter (execSetnewda addr s) := by
  unfold execSetnewda; split <;> simp

@[simp] theorem State.execRstdaa_keepsCounter : s.KeepsCounter (execRstdaa s) := by unfold execRstdaa; split <;> simp

@[simp] theorem State.execEnec_keepsCounter (events) : s.KeepsCounter (execEnec events s) := by
  unfold execEnec; split <;> simp

@[simp] theorem State.execDisec_keepsCounter (events) : s.KeepsCounter (execDisec events s) := by
  unfold execDisec; split <;> simp

@[simp] theorem State.execGetpid_keepsCounter : s.KeepsCounter (execGetpid s) := by unfold execGetpid; split <;> simp

@[simp] theorem State.execGetbcr_keepsCounter : s.KeepsCounter (execGetbcr s) := by unfold execGetbcr; split <;> simp

@[simp] theorem State.execGetdcr_keepsCounter : s.KeepsCounter (execGetdcr s) := by unfold execGetdcr; split <;> simp

@[simp] theorem State.execGetstatus_keepsCounter : s.KeepsCounter (execGetstatus s) := by
  unfold execGetstatus; split <;> simp

@[simp] theorem State.execGetmwl_keepsCounter : s.KeepsCounter (execGetmwl s) := by unfold execGetmwl; split <;> simp

@[simp] theorem State.execGetmrl_keepsCounter : s.KeepsCounter (execGetmrl s) := by unfold execGetmrl; split <;> simp

@[simp] theorem State.execSetmwl_keepsCounter (len) : s.KeepsCounter (execSetmwl len s) := by
  unfold execSetmwl; split <;> simp

@[simp] theorem State.execSetmrl_keepsCounter (len) : s.KeepsCounter (execSetmrl len s) := by
  unfold execSetmrl; split <;> simp

@[simp] theorem State.execUnsupportedCcc_keepsCounter (_code) : s.KeepsCounter (execUnsupportedCcc _code s) := by
  unfold execUnsupportedCcc; split <;> simp

@[simp] theorem State.execMgtBusReset_keepsCounter : s.KeepsCounter (execMgtBusReset s) := by
  unfold execMgtBusReset; split <;> simp

@[simp] theorem State.execMgtAddressMatchWake_keepsCounter (addr) : s.KeepsCounter (execMgtAddressMatchWake addr s) := by
  unfold execMgtAddressMatchWake; split <;> simp

/-! ### Repeats and writes that end -/

@[simp] theorem State.arCounter_endInternal (f lane) : (s.endInternal f lane).cistern.arCounter = s.cistern.arCounter := by
  unfold State.endInternal; repeat' split
  all_goals simp

@[simp] theorem State.arCounter_postRepeat (f r pass) : (s.postRepeat f r pass).cistern.arCounter = s.cistern.arCounter := by
  simp [State.postRepeat]

@[simp] theorem State.arCounter_countMismatch (kind b u) :
    (s.countMismatch kind b u).cistern.arCounter = s.cistern.arCounter := by
  unfold State.countMismatch; split <;> simp

@[simp] theorem State.arCounter_mismatch (f idx lane place rows cols) :
    (s.mismatch f idx lane place rows cols).cistern.arCounter = s.cistern.arCounter := by
  simp [State.mismatch, State.startRepeat]

@[simp] theorem State.arCounter_comparePass (f lane ws) :
    (s.comparePass f lane ws).cistern.arCounter = s.cistern.arCounter := by
  simp only [State.comparePass]; split <;> simp [State.startReadout]

@[simp] theorem State.arCounter_compareBlock (f idx lane up) :
    (s.compareBlock f idx lane up).cistern.arCounter = s.cistern.arCounter := by
  simp [State.compareBlock]

@[simp] theorem State.arCounter_compareNow (i) : (s.compareNow i).cistern.arCounter = s.cistern.arCounter := by
  unfold State.compareNow; repeat' split
  all_goals simp

@[simp] theorem State.arCounter_compareAll : s.compareAll.cistern.arCounter = s.cistern.arCounter := by
  unfold State.compareAll; split <;> simp

@[simp] theorem State.arCounter_readoutMismatch (f b d idx lane m wrong) :
    (s.readoutMismatch f b d idx lane m wrong).cistern.arCounter = s.cistern.arCounter := by
  simp [State.readoutMismatch]

@[simp] theorem State.execTileClose_keepsCounter (f wrong) : s.KeepsCounter (execTileClose f wrong s) := by
  unfold execTileClose; repeat' split
  all_goals simp

@[simp] theorem State.execMxeRepeat_keepsCounter (f lane up) : s.KeepsCounter (execMxeRepeat f lane up s) := by
  unfold execMxeRepeat; repeat' split
  all_goals simp

@[simp] theorem State.execVxeRepeat_keepsCounter (f vlane) : s.KeepsCounter (execVxeRepeat f vlane s) := by
  unfold execVxeRepeat; repeat' split
  all_goals simp

@[simp] theorem State.execScreenRepeat_keepsCounter (f) : s.KeepsCounter (execScreenRepeat f s) := by
  unfold execScreenRepeat; repeat' split
  all_goals simp

/-! ### Commands of the riders -/

@[simp] theorem State.execRingFetch_keepsCounter (ring) : s.KeepsCounter (execRingFetch ring s) := by
  unfold execRingFetch; split <;> simp

@[simp] theorem State.execListFetch_keepsCounter (b slot) : s.KeepsCounter (execListFetch b slot s) := by
  unfold execListFetch; split <;> simp

@[simp] theorem State.arCounter_replyBeat (r) : (s.replyBeat r).1.cistern.arCounter = s.cistern.arCounter := by
  simp [State.replyBeat]

@[simp] theorem State.execAcceptedReply_keepsCounter : s.KeepsCounter (execAcceptedReply s) := by
  simp only [execAcceptedReply]; repeat' split
  all_goals simp

@[simp] theorem State.execReplyWrite_keepsCounter (ring) : s.KeepsCounter (execReplyWrite ring s) := by
  unfold execReplyWrite; split <;> simp

@[simp] theorem State.arCounter_retryHeld (i slot) : (s.retryHeld i slot).cistern.arCounter = s.cistern.arCounter := by
  unfold State.retryHeld; repeat' split
  all_goals simp

/-! ### Scrubs -/

@[simp] theorem State.arCounter_answerDestroy (c h lists packets locks alerts) :
    (s.answerDestroy c h lists packets locks alerts).cistern.arCounter = s.cistern.arCounter := by
  unfold State.answerDestroy; split <;> simp [State.answerSelf]

@[simp] theorem State.arCounter_answerStop (h) : (s.answerStop h).cistern.arCounter = s.cistern.arCounter := by
  simp only [State.answerStop]; split <;> simp

@[simp] theorem State.arCounter_afterScrub (x) : (s.afterScrub x).cistern.arCounter = s.cistern.arCounter := by
  unfold State.afterScrub; split <;> simp [State.removeContext, State.stopDone]

@[simp] theorem State.arCounter_unlockOn : s.unlockOn.cistern.arCounter = s.cistern.arCounter := by
  unfold State.unlockOn; split <;> simp

@[simp] theorem State.arCounter_resume : s.resume.cistern.arCounter = s.cistern.arCounter := by
  simp only [State.resume]; split <;> simp

@[simp] theorem State.arCounter_scrubOn : s.scrubOn.cistern.arCounter = s.cistern.arCounter := by
  unfold State.scrubOn; repeat' split
  all_goals simp [State.endScrub]

/-! ### Watches -/

@[simp] theorem State.arCounter_setDepth (b r v) : (s.setDepth b r v).cistern.arCounter = s.cistern.arCounter := by
  simp [State.setDepth]

@[simp] theorem State.arCounter_lowerBelow (b q) : (s.lowerBelow b q).cistern.arCounter = s.cistern.arCounter := by
  simp [State.lowerBelow]

@[simp] theorem State.arCounter_restoreDepths (b) : (s.restoreDepths b).cistern.arCounter = s.cistern.arCounter := by
  simp [State.restoreDepths]

@[simp] theorem State.arCounter_regulateAll : s.regulateAll.cistern.arCounter = s.cistern.arCounter := by
  simp [State.regulateAll, State.regulate]

@[simp] theorem State.arCounter_exceeds (b r) : (s.exceeds b r).cistern.arCounter = s.cistern.arCounter := by
  simp [State.exceeds]

@[simp] theorem State.execLockLeaseScan_keepsCounter (b) : s.KeepsCounter (execLockLeaseScan b s) := by
  unfold execLockLeaseScan; split <;> simp

@[simp] theorem State.arCounter_audit : s.audit.cistern.arCounter = s.cistern.arCounter := by
  unfold State.audit; split <;> simp [State.auditFault]

@[simp] theorem State.execWaitAudit_keepsCounter : s.KeepsCounter (execWaitAudit s) := by
  unfold execWaitAudit; split <;> simp

@[simp] theorem State.arCounter_dissent (r) : (s.dissent r).cistern.arCounter = s.cistern.arCounter := by
  simp [State.dissent]

@[simp] theorem State.arCounter_parityUpset (r x) : (s.parityUpset r x).cistern.arCounter = s.cistern.arCounter := by
  unfold State.parityUpset; split <;> simp

@[simp] theorem State.execHardenCheck_keepsCounter (addr _copy flips) :
    s.KeepsCounter (execHardenCheck addr _copy flips s) := by
  unfold execHardenCheck; repeat' split
  all_goals simp

@[simp] theorem State.execServiceTimePersist_keepsCounter : s.KeepsCounter (execServiceTimePersist s) := by
  unfold execServiceTimePersist; split <;> simp

/-! ### An idle cycle -/

@[simp] theorem State.arCounter_countStall (r) : (s.countStall r).cistern.arCounter = s.cistern.arCounter := by
  unfold State.countStall; split <;> simp

@[simp] theorem State.arCounter_flowCycle : s.flowCycle.cistern.arCounter = s.cistern.arCounter := by
  unfold State.flowCycle; split <;> simp [State.arbitrate, State.stackCycle]

@[simp] theorem State.arCounter_countSecond (before) : (s.countSecond before).cistern.arCounter = s.cistern.arCounter := by
  unfold State.countSecond; split <;> simp

@[simp] theorem State.arCounter_wakeOn : s.wakeOn.cistern.arCounter = s.cistern.arCounter := by
  unfold State.wakeOn; split <;> simp

@[simp] theorem State.arCounter_boundary : s.boundary.cistern.arCounter = s.cistern.arCounter := by
  unfold State.boundary; split <;> simp

@[simp] theorem State.arCounter_tick : s.tick.cistern.arCounter = s.cistern.arCounter := by
  simp [State.tick, State.goOn, State.takeHanded]

@[simp] theorem State.execRegulatorIntervalEnd_keepsCounter (b) : s.KeepsCounter (execRegulatorIntervalEnd b s) := by
  unfold execRegulatorIntervalEnd; split <;> simp

end Sys2Proof.Machine
end

section
/-! SUPPORT. The fused counter (R358) under every command but `OWNER_LOCK`. -/

namespace Sys2Proof.Machine

variable (s : State)

/-- No command but `OWNER_LOCK` changes the fused counter. A command that is one operation of the site, as most are, is unfolded
here; the others have their lemma in the model's order. -/
theorem State.exec_keepsCounter {i : Instr} (hi : ∀ src p, i ≠ .ownerLock src p) : s.KeepsCounter (exec i s) := by
  cases i
  case ownerLock src p => exact absurd rfl (hi src p)
  all_goals simp [exec, execRightAdmit, execRightRelease, execConfigSet, execCtxCreate, execCtxSwitch, execCtxDestroy,
    execPowerState, execDetachPrepare, execAttachComplete, execQuery, execStatsRead, execFaultLogRead,
    execModelLoad, execWeightKeyBind, execKeyInstall, execWindowLoad, execWindowStore, execDescriptorDefine,
    execGaugeWindowWrite, execTrnLatStRead, execStreamCfgWrite, execArbCfgWrite, execFlipArm, execRemapInstall,
    execSpareBankStart, execScrubCfgWrite, execKeeperModeWrite, execVreqGrantWrite, execCapWrite, execFullResWrite,
    execDoorbellWrite, execRheadWrite, execRemapCopy, execSiphonLinkReplay, execInfieldTestDue, execTestSchedule,
    execTapReset, execCulvertArrival, execFenceReqAssert, execFenceReqDeassert, execSupplyOutOfTolerance,
    execDevResetAssert, execDevResetDeassert, execHgDebugRead, execHgDebugWrite, execImgBegin, execImgData,
    execImgEnd, execImgAbort, execImgActivate, execImgStatus, execNonce, execToken, execRetest, execPartialReset,
    execMove, execLoad, execStore, execSend, execFill, execReduceWrite, execNop, execFence, execWaitGauge,
    execSetGauge, execAddGauge, execRunList, execRet, execTileLock, execTileUnlock, execMatmul, execMatmulAcc,
    execPacketDispatch, execGaugeIncrement, execHoldRetry, execReturnedRequestReissue, execTileReadEnd,
    execCompact, execExpand, execGatherRows, execZeroMap, execConvert, execGetVersion, execGetCapabilities,
    execNegotiateAlgorithms, execGetDigests, execGetCertificate, execChallenge, execGetMeasurements,
    execKeyExchange, execFinish, execEndSession, execRespondIfReady, execSpdmUnsupportedRequest,
    execGetTdispVersion, execGetTdispCapabilities, execLockInterfaceRequest, execGetDeviceInterfaceReport,
    execGetDeviceInterfaceState, execStartInterfaceRequest, execStopInterfaceRequest, execTdispUnsupportedRequest,
    execVector, execTopk]

end Sys2Proof.Machine
end

section
/-! SUPPORT. `OWNER_LOCK` and the fused counter (R358, R387): what ACTION 4 sets it to, and why no start serves it. -/

namespace Sys2Proof.Machine

variable (s : State)

/-! ### A start serves no control packet -/

/-- A site that is not released dispatches nothing. -/
theorem State.dispatchOne_unreleased (hs : s.start.released = false) (src : Src) : s.dispatchOne src = none := by
  have hhead : s.head? src = none := by
    have hd : s.dispatching = false := by simp [State.dispatching, hs]
    unfold State.head?
    simp only [hd, Bool.false_and, Bool.false_eq_true, if_false]
    split
    · rfl
    · split <;> rfl
    · rfl
  simp [State.dispatchOne, hhead]

theorem State.dispatchGroup_unreleased (hs : s.start.released = false) (n : Nat) (src : Src) : s.dispatchGroup n src = s := by
  cases n with
  | zero => rfl
  | succ n => simp [State.dispatchGroup, s.dispatchOne_unreleased hs src]

theorem State.start_ringTake (r : Nat) (p : Packet) (bad : Bool) : (s.ringTake r p bad).start = s.start := by
  simp only [State.ringTake]
  split_ifs <;> simp

/-- A packet that arrives in a start leaves the start as it is. -/
theorem State.start_arrive_unreleased (hs : s.start.released = false) (src : Src) (p : Packet) :
    (s.arrive src p).start = s.start := by
  unfold State.arrive
  dsimp only
  split
  case h_1 r =>
    have ht := s.start_ringTake r p false
    have hgroup := (s.ringTake r p false).dispatchGroup_unreleased (ht ▸ hs) 1 (.ring r)
    split_ifs <;> simp [hgroup, ht]
  case h_2 b k =>
    split
    · next l _ =>
      have ht : (s.listTake l p none).start = s.start := by simp [State.listTake]
      have hgroup := (s.listTake l p none).dispatchGroup_unreleased (ht ▸ hs) 1 (.list b k)
      split_ifs <;> simp [hgroup, ht]
    · rfl
  case h_3 => rfl

theorem State.rosogServes_unreleased (hs : s.start.released = false) (h : Handed) : s.rosogServes h = false := by
  simp [State.rosogServes, State.rosogUp, hs]

/-- In a start a control packet is not served: it arrives, at most. -/
theorem State.control_unreleased (hs : s.start.released = false) (src : Src) (p : Packet)
    (k : State → Handed → State × Option Outcome) :
    s.control src p k = if (s.handed? src p).isSome then s else s.arrive src p := by
  unfold State.control
  extract_lets t
  have ht : t.start.released = false := by
    simp only [t]
    split
    · exact hs
    · rw [s.start_arrive_unreleased hs, hs]
  split
  · rfl
  · exact if_pos (by simp [t.rosogServes_unreleased ht])

/-! ### The decision -/

/-- What `OWNER_LOCK` can do to the fused counter: nothing, or, with ACTION 4, an advance to the packet's SVN, at most 64. -/
def State.CounterMoved (p : Packet) (t : State) : Prop :=
  t.cistern.arCounter = s.cistern.arCounter ∨
    p.p 16 0 8 = 4 ∧ s.cistern.arCounter ≤ p.p 17 0 8 ∧ p.p 17 0 8 ≤ 64 ∧ t.cistern.arCounter = p.p 17 0 8

/-- A packet found in Rosog's hands is the one asked for. -/
theorem State.handed?_source {s : State} {src : Src} {p : Packet} {h : Handed} (hh : s.handed? src p = some h) :
    h.src = src ∧ h.pkt = p := by
  simpa using List.find?_some hh

@[simp] theorem State.cistern_showOwner : s.showOwner.cistern = s.cistern := by
  simp [State.showOwner]

theorem State.ownerLockAsk_counter (h : Handed) : s.CounterMoved h.pkt (s.ownerLockAsk h).1 := by
  unfold State.ownerLockAsk
  extract_lets p action svn own k
  have haction : h.pkt.p 16 0 8 = action := rfl
  clear_value action
  split
  · exact .inl rfl
  · next hform =>
    split
    · exact .inl rfl
    · split
      case h_5 hne0 hne1 hne2 hne3 =>
        have h4 : action = 4 := by
          simp only [Bool.or_eq_true, decide_eq_true_eq, not_or, not_lt] at hform
          simp only [imp_false] at hne0 hne1 hne2 hne3
          omega
        split
        · exact .inl rfl
        · next hrange =>
          have hsvn : ¬(h.pkt.p 17 0 8 < s.cistern.arCounter ∨ h.pkt.p 17 0 8 > 64 ∨
            h.pkt.p 17 0 8 > s.cistern.slotA.svn ∨ h.pkt.p 17 0 8 > s.cistern.slotB.svn) := hrange
          exact .inr ⟨haction.trans h4, by omega, by omega, by simp [svn, p]⟩
      all_goals exact .inl (by simp [k])

theorem State.counterMoved_of_ask {s u : State} {h : Handed} {o : Option Outcome} (hu : s.ownerLockAsk h = (u, o)) :
    s.CounterMoved h.pkt u := by
  simpa [hu] using s.ownerLockAsk_counter h

/-- `OWNER_LOCK` moves the fused counter in no start, and otherwise as its decision does. -/
theorem State.execOwnerLock_counter {src : Src} {p : Packet} {t : State} (he : execOwnerLock src p s = .next t) :
    t.cistern.arCounter = s.cistern.arCounter ∨ s.start.released = true ∧ s.CounterMoved p t := by
  obtain rfl : s.control src { p with opcode := 0x83 } State.ownerLockAsk = t := by
    simpa [execOwnerLock, ok] using he
  cases hs : s.start.released with
  | false =>
    left
    rw [s.control_unreleased hs]
    simp
  | true =>
    refine .inr ⟨rfl, ?_⟩
    have hmet : (if (s.handed? src { p with opcode := 0x83 }).isSome then s
        else s.arrive src { p with opcode := 0x83 }).cistern.arCounter = s.cistern.arCounter := by simp
    rcases s.control_cases src { p with opcode := 0x83 } State.ownerLockAsk with
      ⟨-, e⟩ | ⟨h, hh, ⟨-, e⟩ | ⟨-, -, e⟩ | ⟨u, o, hu, e⟩ | ⟨u, hu, e⟩⟩
    · exact .inl (by rw [e, hmet])
    · exact .inl (by rw [e, hmet])
    · exact .inl (by rw [e, State.arCounter_finishHanded, hmet])
    all_goals
      have hdone := State.counterMoved_of_ask hu
      rw [(State.handed?_source hh).2] at hdone
      simp only [State.CounterMoved, hmet] at hdone
      simp only [State.CounterMoved, e, State.arCounter_finishHanded, State.arCounter_begin]
      exact hdone

/-- Settles O57: a step that runs no `OWNER_LOCK` keeps the counter, and `OWNER_LOCK` moves it as R358 says. -/
theorem noRollback : Obligations.NoRollback := by
  unfold Obligations.NoRollback
  intro s t hs hstep
  unfold step at hstep
  split at hstep
  · cases hstep
    simp [hs]
  · next c cs hpending =>
    by_cases hc : ∃ src p, c = .ownerLock src p
    · obtain ⟨src, p, rfl⟩ := hc
      rcases State.execOwnerLock_counter _ hstep with hkeep | ⟨hrel, hkeep | ⟨h4, hup, hle, hset⟩⟩
      · exact ⟨hkeep.trans_le hs, hkeep.ge, fun hne => absurd hkeep hne⟩
      · exact ⟨hkeep.trans_le hs, hkeep.ge, fun hne => absurd hkeep hne⟩
      · exact ⟨hset.trans_le hle, hup.trans hset.ge, fun _ => ⟨src, p, cs, hpending, h4, hset, hrel⟩⟩
    · have hkeep := State.exec_keepsCounter { s with pending := cs } (fun src p e => hc ⟨src, p, e⟩) t hstep
      exact ⟨hkeep.trans_le hs, hkeep.ge, fun hne => absurd hkeep hne⟩

end Sys2Proof.Machine
end

section
set_option Elab.async false -- the whole text is compiled in one process, within a fixed memory
/-! SUPPORT. What every step keeps, in one relation: the queue and the design (R18), the revocation fuses (R357), the safety of the
test port's pins (R431) and the canonical form of the stores. Most operations leave all of it exactly as it was; those that do not
keep it in this sense. -/

namespace Sys2Proof.Machine

/-- The part of a state that what every step keeps speaks of. -/
structure Lasting where
  pending : List Instr
  cfg : SiteConfig
  revoked : BitVec 4
  tap : Tap
  inReset : Bool
  mem : List Host.Cell
  memChk : List (Nat × BitVec 48)
  desc : List (Nat × BitVec 512)
  gauge : List (Nat × BitVec 32)
  stack : List Host.Cell

/-- What lasts of a state. Its equation, by the pattern, opens a state that is written out, and no other. -/
def State.lasting : State → Lasting
  | { pending := p, cfg := c, cistern := i, tap := t, start := a, mem := m, memChk := k, desc := d, gauge := g, stack := x, .. } =>
    ⟨p, c, i.revoked, t, a.resetAsserted, m, k, d, g, x⟩

@[simp] theorem State.lasting_mk : type_of% @State.lasting.eq_1 := State.lasting.eq_1

@[simp] theorem State.lasting_eta (s : State) :
    (⟨s.pending, s.cfg, s.cistern.revoked, s.tap, s.start.resetAsserted, s.mem, s.memChk, s.desc, s.gauge, s.stack⟩ : Lasting) =
      s.lasting := (rfl)

/-- From `r` to `x` the queue and the design are the same, a blown revocation fuse stays blown, pins that were safe are safe, and
stores in canonical form are still so. -/
structure Lasting.Keeps (r x : Lasting) : Prop where
  pending : x.pending = r.pending
  cfg : x.cfg = r.cfg
  revoked : ∀ k, bit r.revoked k = true → bit x.revoked k = true
  pins : (r.tap.driven = true → r.tap.instr = .extest ∧ r.inReset = true) →
    x.tap.driven = true → x.tap.instr = .extest ∧ x.inReset = true
  canonical : Memory.wf r.mem ∧ Memory.wf r.memChk ∧ Memory.wf r.desc ∧ Memory.wf r.gauge ∧ Memory.wf r.stack →
    Memory.wf x.mem ∧ Memory.wf x.memChk ∧ Memory.wf x.desc ∧ Memory.wf x.gauge ∧ Memory.wf x.stack

@[refl, simp] theorem Lasting.Keeps.refl (r : Lasting) : r.Keeps r := ⟨rfl, rfl, fun _ h => h, fun h => h, fun h => h⟩

theorem Lasting.Keeps.trans {r x y : Lasting} (h : r.Keeps x) (k : x.Keeps y) : r.Keeps y :=
  ⟨k.pending.trans h.pending, k.cfg.trans h.cfg, fun i e => k.revoked i (h.revoked i e), fun e => k.pins (h.pins e),
    fun e => k.canonical (h.canonical e)⟩

/-- The same relation under a name that no lemma opens: the other side of each lemma on an operation that keeps. -/
def Lasting.Kept (r x : Lasting) : Prop := r.Keeps x

/-- An operation that keeps, as a rewriting rule without a premise: rules of this form follow one another through any number of
operations. -/
theorem Lasting.Keeps.rule {r x y : Lasting} (h : x.Keeps y) : r.Keeps y ↔ r.Keeps x ∨ r.Kept y :=
  ⟨.inr, fun e => e.elim (·.trans h) id⟩

/-- Where stores alone have changed it is their form that matters. -/
theorem Lasting.Keeps.of_stores (s t : State) (hp : t.pending = s.pending) (hc : t.cfg = s.cfg)
    (hr : t.cistern.revoked = s.cistern.revoked) (ht : t.tap = s.tap) (ha : t.start.resetAsserted = s.start.resetAsserted)
    (h : s.Canonical → t.Canonical) : s.lasting.Keeps t.lasting :=
  ⟨hp, hc, fun _ e => (congrArg (bit · _) hr).trans e, fun e => by
    change t.tap.driven = true → t.tap.instr = .extest ∧ t.start.resetAsserted = true
    rw [ht, ha]
    exact e, h⟩

/-! ### The test port at rest, and stores written -/

section
variable (r : Lasting) (s : State)

/-- The test port drives nothing. -/
@[simp] theorem Lasting.keeps_undriven (t : Tap) (h : t.driven = false) :
    r.Keeps ⟨s.pending, s.cfg, s.cistern.revoked, t, s.start.resetAsserted, s.mem, s.memChk, s.desc, s.gauge, s.stack⟩ ↔
      r.Keeps s.lasting ∨ r.Kept ⟨s.pending, s.cfg, s.cistern.revoked, t, s.start.resetAsserted, s.mem, s.memChk, s.desc, s.gauge,
      s.stack⟩ :=
  Lasting.Keeps.rule ⟨rfl, rfl, fun _ h => h, fun _ e => absurd (h.symm.trans e) (by decide), fun h => h⟩

/-- A revocation fuse blown (R357). -/
@[simp] theorem Lasting.keeps_revoked (k : Nat) :
    r.Keeps ⟨s.pending, s.cfg, setBit s.cistern.revoked k true, s.tap, s.start.resetAsserted, s.mem, s.memChk, s.desc, s.gauge,
      s.stack⟩ ↔ r.Keeps s.lasting ∨ r.Kept ⟨s.pending, s.cfg, setBit s.cistern.revoked k true, s.tap, s.start.resetAsserted, s.mem,
      s.memChk, s.desc, s.gauge, s.stack⟩ := by
  refine Lasting.Keeps.rule ⟨rfl, rfl, fun i h => ?_, fun h => h, fun h => h⟩
  have hi : i < 4 := BitVec.lt_of_getLsbD h
  unfold bit setBit
  rw [getLsbD_setFld _ _ _ _ _ hi]
  split
  · next hk =>
    obtain rfl : i = k := by omega
    simp
  · exact h

/-- A word of memory written with its check bits. -/
@[simp] theorem Lasting.keeps_word (a n : Nat) (d : List Byte) (v : BitVec 48) :
    r.Keeps ⟨s.pending, s.cfg, s.cistern.revoked, s.tap, s.start.resetAsserted, putBytes s.mem a d, nset s.memChk 0#48 n v, s.desc,
      s.gauge, s.stack⟩ ↔ r.Keeps s.lasting ∨ r.Kept ⟨s.pending, s.cfg, s.cistern.revoked, s.tap, s.start.resetAsserted,
      putBytes s.mem a d, nset s.memChk 0#48 n v, s.desc, s.gauge, s.stack⟩ :=
  Lasting.Keeps.rule ⟨rfl, rfl, fun _ h => h, fun h => h, fun ⟨h1, h2, h⟩ => ⟨nwf_putBytes _ _ h1, nwf_nset _ _ h2, h⟩⟩

/-- Words of memory made zero. -/
@[simp] theorem Lasting.keeps_memFilter (p : Host.Cell → Bool) (q : Nat × BitVec 48 → Bool) :
    r.Keeps ⟨s.pending, s.cfg, s.cistern.revoked, s.tap, s.start.resetAsserted, s.mem.filter p, s.memChk.filter q, s.desc, s.gauge,
      s.stack⟩ ↔ r.Keeps s.lasting ∨ r.Kept ⟨s.pending, s.cfg, s.cistern.revoked, s.tap, s.start.resetAsserted, s.mem.filter p,
      s.memChk.filter q, s.desc, s.gauge, s.stack⟩ :=
  Lasting.Keeps.rule ⟨rfl, rfl, fun _ h => h, fun h => h, fun ⟨h1, h2, h⟩ => ⟨nwf_filter _ h1, nwf_filter _ h2, h⟩⟩

/-- All of memory lost. -/
@[simp] theorem Lasting.keeps_memGone :
    r.Keeps ⟨s.pending, s.cfg, s.cistern.revoked, s.tap, s.start.resetAsserted, [], [], s.desc, s.gauge, s.stack⟩ ↔
      r.Keeps s.lasting ∨ r.Kept ⟨s.pending, s.cfg, s.cistern.revoked, s.tap, s.start.resetAsserted, [], [], s.desc, s.gauge,
      s.stack⟩ :=
  Lasting.Keeps.rule ⟨rfl, rfl, fun _ h => h, fun h => h, fun ⟨_, _, h⟩ => ⟨rfl, rfl, h⟩⟩

/-- Descriptors made zero. -/
@[simp] theorem Lasting.keeps_descFilter (p : Nat × BitVec 512 → Bool) :
    r.Keeps ⟨s.pending, s.cfg, s.cistern.revoked, s.tap, s.start.resetAsserted, s.mem, s.memChk, s.desc.filter p, s.gauge,
      s.stack⟩ ↔ r.Keeps s.lasting ∨ r.Kept ⟨s.pending, s.cfg, s.cistern.revoked, s.tap, s.start.resetAsserted, s.mem, s.memChk,
      s.desc.filter p, s.gauge, s.stack⟩ :=
  Lasting.Keeps.rule ⟨rfl, rfl, fun _ h => h, fun h => h, fun ⟨h1, h2, h3, h⟩ => ⟨h1, h2, nwf_filter _ h3, h⟩⟩

/-- Gauges made zero. -/
@[simp] theorem Lasting.keeps_gaugeFilter (p : Nat × BitVec 32 → Bool) :
    r.Keeps ⟨s.pending, s.cfg, s.cistern.revoked, s.tap, s.start.resetAsserted, s.mem, s.memChk, s.desc, s.gauge.filter p,
      s.stack⟩ ↔ r.Keeps s.lasting ∨ r.Kept ⟨s.pending, s.cfg, s.cistern.revoked, s.tap, s.start.resetAsserted, s.mem, s.memChk,
      s.desc, s.gauge.filter p, s.stack⟩ :=
  Lasting.Keeps.rule ⟨rfl, rfl, fun _ h => h, fun h => h, fun ⟨h1, h2, h3, h4, h⟩ => ⟨h1, h2, h3, nwf_filter _ h4, h⟩⟩

/-- Bytes of stack memory written. -/
@[simp] theorem Lasting.keeps_stackBytes (a : Nat) (d : List Byte) :
    r.Keeps ⟨s.pending, s.cfg, s.cistern.revoked, s.tap, s.start.resetAsserted, s.mem, s.memChk, s.desc, s.gauge,
      putBytes s.stack a d⟩ ↔ r.Keeps s.lasting ∨ r.Kept ⟨s.pending, s.cfg, s.cistern.revoked, s.tap, s.start.resetAsserted, s.mem,
      s.memChk, s.desc, s.gauge, putBytes s.stack a d⟩ :=
  Lasting.Keeps.rule ⟨rfl, rfl, fun _ h => h, fun h => h, fun ⟨h1, h2, h3, h4, h5⟩ => ⟨h1, h2, h3, h4, nwf_putBytes _ _ h5⟩⟩

/-- Bytes of stack memory made zero. -/
@[simp] theorem Lasting.keeps_stackFilter (p : Host.Cell → Bool) :
    r.Keeps ⟨s.pending, s.cfg, s.cistern.revoked, s.tap, s.start.resetAsserted, s.mem, s.memChk, s.desc, s.gauge,
      s.stack.filter p⟩ ↔ r.Keeps s.lasting ∨ r.Kept ⟨s.pending, s.cfg, s.cistern.revoked, s.tap, s.start.resetAsserted, s.mem,
      s.memChk, s.desc, s.gauge, s.stack.filter p⟩ :=
  Lasting.Keeps.rule ⟨rfl, rfl, fun _ h => h, fun h => h, fun ⟨h1, h2, h3, h4, h5⟩ => ⟨h1, h2, h3, h4, nwf_filter _ h5⟩⟩

end

/-! ### Folds, branches and outcomes -/

@[simp] theorem State.lasting_ite (c : Prop) [Decidable c] (s t : State) :
    (if c then s else t).lasting = if c then s.lasting else t.lasting := by
  split <;> rfl

@[simp] theorem State.lasting_ite_fst {β : Type} (c : Prop) [Decidable c] (a b : State × β) :
    (if c then a else b).1.lasting = if c then a.1.lasting else b.1.lasting := by
  split <;> rfl

@[simp] theorem Lasting.keeps_ite (r : Lasting) (c : Prop) [Decidable c] (x y : Lasting) :
    r.Keeps (if c then x else y) ↔ if c then r.Keeps x else r.Keeps y := by
  split <;> rfl

/-- A fold leaves what its step leaves. -/
@[simp] theorem State.lasting_foldl {α : Type} (f : State → α → State) (hf : ∀ s x, (f s x).lasting = s.lasting) (l : List α)
    (s : State) : (l.foldl f s).lasting = s.lasting := by
  induction l generalizing s with
  | nil => rfl
  | cons x l ih => exact (ih (f s x)).trans (hf s x)

/-- The same for a fold that carries something beside the state. -/
@[simp] theorem State.lasting_foldl_fst {α β : Type} (f : State × β → α → State × β)
    (hf : ∀ a x, (f a x).1.lasting = a.1.lasting) (l : List α) (a : State × β) : (l.foldl f a).1.lasting = a.1.lasting := by
  induction l generalizing a with
  | nil => rfl
  | cons x l ih => exact (ih (f a x)).trans (hf a x)

/-- A fold keeps what its step keeps. -/
theorem Lasting.Keeps.foldl {α : Type} {f : State → α → State}
    (hf : ∀ (s : State) x, s.lasting.Keeps (f s x).lasting) (l : List α)
    (s : State) : s.lasting.Keeps (l.foldl f s).lasting := by
  induction l generalizing s with
  | nil => exact .refl _
  | cons x l ih => exact (hf s x).trans (ih (f s x))

/-- The same for a fold that carries something beside the state. -/
theorem Lasting.Keeps.foldl_fst {α β : Type} {f : State × β → α → State × β} (hf : ∀ (a : State × β) x, a.1.lasting.Keeps (f a x).1.lasting)
    (l : List α) (a : State × β) : a.1.lasting.Keeps (l.foldl f a).1.lasting := by
  induction l generalizing a with
  | nil => exact .refl _
  | cons x l ih => exact (hf a x).trans (ih (f a x))

@[simp] theorem Lasting.keeps_foldl {α : Type} (r : Lasting) (f : State → α → State)
    (hf : ∀ (s : State) x, s.lasting.Keeps (f s x).lasting)
    (l : List α) (s : State) : r.Keeps (l.foldl f s).lasting ↔ r.Keeps s.lasting ∨ r.Kept (l.foldl f s).lasting :=
  (Lasting.Keeps.foldl hf l s).rule

@[simp] theorem Lasting.keeps_foldl_fst {α β : Type} (r : Lasting) (f : State × β → α → State × β)
    (hf : ∀ (a : State × β) x, a.1.lasting.Keeps (f a x).1.lasting) (l : List α) (a : State × β) :
    r.Keeps (l.foldl f a).1.lasting ↔ r.Keeps a.1.lasting ∨ r.Kept (l.foldl f a).1.lasting :=
  (Lasting.Keeps.foldl_fst hf l a).rule

/-- The state an outcome leads to, if any, keeps what `s` has. -/
def State.KeepsIn (s : State) (o : Host.Outcome State Fault Refusal) : Prop := ∀ t, o = .next t → s.lasting.Keeps t.lasting

@[simp] theorem State.keepsIn_next (s t : State) : s.KeepsIn (.next t) ↔ s.lasting.Keeps t.lasting := by
  simp [State.KeepsIn]

@[simp] theorem State.keepsIn_ok (s t : State) : s.KeepsIn (ok t) ↔ s.lasting.Keeps t.lasting := s.keepsIn_next t

@[simp] theorem State.keepsIn_refused (s : State) (r : Refusal) : s.KeepsIn (.refused r) := by
  simp [State.KeepsIn]

@[simp] theorem State.keepsIn_ite (s : State) (c : Prop) [Decidable c] (o o' : Host.Outcome State Fault Refusal) :
    s.KeepsIn (if c then o else o') ↔ if c then s.KeepsIn o else s.KeepsIn o' := by
  split <;> rfl

end Sys2Proof.Machine
end

section
set_option Elab.async false -- the whole text is compiled in one process, within a fixed memory
/-! SUPPORT. What lasts (see above) under the updates of one field or record of the state. -/

namespace Sys2Proof.Machine

variable (l₀ : Lasting) (s : State)

@[simp] theorem State.lasting_putReg (k v) : (s.putReg k v).lasting = s.lasting := (rfl)

@[simp] theorem State.lasting_putFld (k lo n v) : (s.putFld k lo n v).lasting = s.lasting := (rfl)

@[simp] theorem State.lasting_bump (k lo n i) : (s.bump k lo n i).lasting = s.lasting := by
  unfold State.bump; split <;> rfl

@[simp] theorem State.lasting_bumpWrap (k lo n i) : (s.bumpWrap k lo n i).lasting = s.lasting := (rfl)

@[simp] theorem State.lasting_setW1c (k m) : (s.setW1c k m).lasting = s.lasting := (rfl)

@[simp] theorem State.lasting_setSite (v) : (s.setSite v).lasting = s.lasting := (rfl)

@[simp] theorem State.lasting_setStage (v) : (s.setStage v).lasting = s.lasting := (rfl)

@[simp] theorem State.lasting_useFree : s.useFree.lasting = s.lasting := (rfl)

@[simp] theorem State.lasting_putCtx (c v) : (s.putCtx c v).lasting = s.lasting := (rfl)

@[simp] theorem State.lasting_putRing (k v) : (s.putRing k v).lasting = s.lasting := (rfl)

@[simp] theorem State.lasting_putSiphon (i v) : (s.putSiphon i v).lasting = s.lasting := (rfl)

@[simp] theorem State.lasting_putCulvert (c v) : (s.putCulvert c v).lasting = s.lasting := (rfl)

@[simp] theorem State.lasting_putList (l) : (s.putList l).lasting = s.lasting := (rfl)

@[simp] theorem State.lasting_freeSlot (l) : (s.freeSlot l).lasting = s.lasting := (rfl)

@[simp] theorem State.lasting_queueReply (k rp) : (s.queueReply k rp).lasting = s.lasting := (rfl)

@[simp] theorem State.lasting_queueUnreserved (k rp) : (s.queueUnreserved k rp).lasting = s.lasting := (rfl)

@[simp] theorem State.lasting_putFlight (f) : (s.putFlight f).lasting = s.lasting := (rfl)

@[simp] theorem State.lasting_dropFlight (f) : (s.dropFlight f).lasting = s.lasting := (rfl)

@[simp] theorem State.lasting_putArb (a) : (s.putArb a).lasting = s.lasting := (rfl)

@[simp] theorem State.lasting_putScrubber (x) : (s.putScrubber x).lasting = s.lasting := (rfl)

@[simp] theorem State.lasting_park (p) : (s.park p).lasting = s.lasting := (rfl)

@[simp] theorem State.lasting_hgQueue (x) : (s.hgQueue x).lasting = s.lasting := (rfl)

@[simp] theorem State.lasting_hgExecuted (h x) : (s.hgExecuted h x).lasting = s.lasting := (rfl)

@[simp] theorem State.lasting_say (x) : (s.say x).lasting = s.lasting := (rfl)

@[simp] theorem State.lasting_mgtAnswer (st data) : (s.mgtAnswer st data).lasting = s.lasting := (rfl)

@[simp] theorem State.lasting_post (e) : (s.post e).lasting = s.lasting := by
  unfold State.post; split <;> rfl

@[simp] theorem Lasting.keeps_putDesc (b d v) :
    l₀.Keeps (s.putDesc b d v).lasting ↔ l₀.Keeps s.lasting ∨ l₀.Kept (s.putDesc b d v).lasting :=
  (Lasting.Keeps.of_stores s (s.putDesc b d v) rfl rfl rfl rfl rfl (State.putDesc_canonical b d v)).rule

@[simp] theorem Lasting.keeps_mendLine (b g) :
    l₀.Keeps (s.mendLine b g).lasting ↔ l₀.Keeps s.lasting ∨ l₀.Kept (s.mendLine b g).lasting := by
  refine (Lasting.Keeps.of_stores s (s.mendLine b g) ?_ ?_ ?_ ?_ ?_ (State.mendLine_canonical b g)).rule <;> (unfold State.mendLine; split <;> rfl)

@[simp] theorem Lasting.keeps_putCount (b g v) :
    l₀.Keeps (s.putCount b g v).lasting ↔ l₀.Keeps s.lasting ∨ l₀.Kept (s.putCount b g v).lasting :=
  (Lasting.Keeps.of_stores s (s.putCount b g v) (by simp) (by simp) (by simp) (by simp) (by simp) (State.putCount_canonical b g v)).rule

/-- A descriptor's new value, in a state written out, comes from its update. -/
@[simp] theorem State.lasting_putDesc_desc (b d v) :
    (⟨s.pending, s.cfg, s.cistern.revoked, s.tap, s.start.resetAsserted, s.mem, s.memChk, (s.putDesc b d v).desc, s.gauge,
      s.stack⟩ : Lasting) = (s.putDesc b d v).lasting := (rfl)

@[simp] theorem State.lasting_unlock_desc (b d) :
    (⟨s.pending, s.cfg, s.cistern.revoked, s.tap, s.start.resetAsserted, s.mem, s.memChk, (s.unlock b d).desc, s.gauge,
      s.stack⟩ : Lasting) = (s.unlock b d).lasting := (rfl)

@[simp] theorem State.lasting_putCount_gauge (b g v) :
    (⟨s.pending, s.cfg, s.cistern.revoked, s.tap, s.start.resetAsserted, s.mem, s.memChk, s.desc, (s.putCount b g v).gauge,
      s.stack⟩ : Lasting) = (s.putCount b g v).lasting := by
  rw [← State.lasting_eta (s.putCount b g v)]
  simp only [State.putCount_keeps]

@[simp] theorem Lasting.keeps_putGctx (b g c) :
    l₀.Keeps (s.putGctx b g c).lasting ↔ l₀.Keeps s.lasting ∨ l₀.Kept (s.putGctx b g c).lasting := by
  refine Lasting.Keeps.rule ?_
  simp [State.putGctx]

@[simp] theorem Lasting.keeps_unlock (b d) :
    l₀.Keeps (s.unlock b d).lasting ↔ l₀.Keeps s.lasting ∨ l₀.Kept (s.unlock b d).lasting :=
  Lasting.Keeps.rule ((s.lasting.keeps_putDesc s b d _).2 (.inl (.refl _)))

end Sys2Proof.Machine
end

section
/-! SUPPORT. What lasts under registers, memory, replies, gates and stack memory. As in the sections after it, each operation of the
model has one lemma, in the order of the model: an equation where it leaves all of it as it was, else a rule. An operation that is only
ever a part of one other is unfolded there. -/

namespace Sys2Proof.Machine

variable (l₀ : Lasting) (s : State)

/-! ### Registers, events, memory, descriptors and gauges -/

@[simp] theorem State.lasting_logEvent :
    s.logEvent.lasting = s.lasting := by simp [State.logEvent]

@[simp] theorem State.lasting_decodeError (source a write) :
    (s.decodeError source a write).lasting = s.lasting := by
  unfold State.decodeError; split <;> simp

@[simp] theorem State.lasting_violation (source a write) :
    (s.violation source a write).lasting = s.lasting := by
  unfold State.violation; split <;> simp

@[simp] theorem State.lasting_eccLog (b kind bank row r c turnout) :
    (s.eccLog b kind bank row r c turnout).lasting = s.lasting := by
  unfold State.eccLog; split <;> simp

@[simp] theorem State.lasting_noteFinding (b pb row rd f) :
    (s.noteFinding b pb row rd f).lasting = s.lasting := by
  unfold State.noteFinding; split <;> simp

@[simp] theorem State.lasting_readPhys (b pb row rd) :
    (s.readPhys b pb row rd).1.lasting = s.lasting := by
  simp [State.readPhys]

@[simp] theorem State.lasting_readWord (b w rd) :
    (s.readWord b w rd).1.lasting = s.lasting := by
  simp [State.readWord]

@[simp] theorem Lasting.keeps_storePhys (b pb prow d dev) :
    l₀.Keeps (s.storePhys b pb prow d dev).lasting ↔ l₀.Keeps s.lasting ∨ l₀.Kept (s.storePhys b pb prow d dev).lasting := by
  refine Lasting.Keeps.rule ?_
  unfold State.storePhys
  dsimp only
  split <;> simp

@[simp] theorem Lasting.keeps_storeRow (b bank row d dev) :
    l₀.Keeps (s.storeRow b bank row d dev).lasting ↔ l₀.Keeps s.lasting ∨ l₀.Kept (s.storeRow b bank row d dev).lasting := by
  refine Lasting.Keeps.rule ?_
  unfold State.storeRow; split <;> simp

@[simp] theorem Lasting.keeps_writeWord (b w d) :
    l₀.Keeps (s.writeWord b w d).lasting ↔ l₀.Keeps s.lasting ∨ l₀.Kept (s.writeWord b w d).lasting := by
  refine Lasting.Keeps.rule ?_
  simp [State.writeWord]

@[simp] theorem Lasting.keeps_writePart (b w o bs rd) :
    l₀.Keeps (s.writePart b w o bs rd).lasting ↔ l₀.Keeps s.lasting ∨ l₀.Kept (s.writePart b w o bs rd).lasting := by
  refine Lasting.Keeps.rule ?_
  unfold State.writePart; split <;> simp

@[simp] theorem State.lasting_readRange (b off len rd) : (s.readRange b off len rd).1.lasting = s.lasting := by
  unfold State.readRange; simp

@[simp] theorem Lasting.keeps_writeRange (b off bs rd) :
    l₀.Keeps (s.writeRange b off bs rd).lasting ↔ l₀.Keeps s.lasting ∨ l₀.Kept (s.writeRange b off bs rd).lasting := by
  refine Lasting.Keeps.rule ?_
  simp [State.writeRange]

@[simp] theorem State.lasting_startFill (b areas n) :
    (s.startFill b areas n).lasting = s.lasting := by
  simp [State.startFill]

@[simp] theorem Lasting.keeps_zeroWhere (b p) :
    l₀.Keeps (s.zeroWhere b p).lasting ↔ l₀.Keeps s.lasting ∨ l₀.Kept (s.zeroWhere b p).lasting := by
  refine Lasting.Keeps.rule ?_
  simp only [State.zeroWhere]; repeat' split
  all_goals simp

@[simp] theorem Lasting.keeps_fillRows :
    l₀.Keeps s.fillRows.lasting ↔ l₀.Keeps s.lasting ∨ l₀.Kept s.fillRows.lasting := by
  refine Lasting.Keeps.rule ?_
  simp [State.fillRows]

@[simp] theorem State.lasting_readDesc (b d) :
    (s.readDesc b d).1.lasting = s.lasting := by
  unfold State.readDesc; split <;> simp

@[simp] theorem State.lasting_noteBadDesc (b d turnout ends) :
    (s.noteBadDesc b d turnout ends).lasting = s.lasting := by
  unfold State.noteBadDesc; split <;> simp

@[simp] theorem State.lasting_noteLine (b j turnout) :
    (s.noteLine b j turnout).lasting = s.lasting := by
  simp only [State.noteLine]; split <;> simp


@[simp] theorem State.lasting_tickClock :
    s.tickClock.lasting = s.lasting := by
  unfold State.tickClock; split <;> simp

/-! ### Packets answered and lists ended -/

@[simp] theorem Lasting.keeps_writeReply (k rp) :
    l₀.Keeps (s.writeReply k rp).lasting ↔ l₀.Keeps s.lasting ∨ l₀.Kept (s.writeReply k rp).lasting := by
  refine Lasting.Keeps.rule ?_
  simp [State.writeReply]

@[simp] theorem State.lasting_dueInc (b g inc) :
    (s.dueInc b g inc).lasting = s.lasting := by
  unfold State.dueInc; split <;> simp

@[simp] theorem State.lasting_addStats (src st) :
    (s.addStats src st).lasting = s.lasting := by
  unfold State.addStats; split <;> simp

@[simp] theorem State.lasting_endList (b k st) :
    (s.endList b k st).lasting = s.lasting := by
  unfold State.endList; split <;> simp

@[simp] theorem State.lasting_listPacketDone (b k off p o cycles) :
    (s.listPacketDone b k off p o cycles).lasting = s.lasting := by
  unfold State.listPacketDone; split <;> simp

@[simp] theorem State.lasting_packetDone (src spawn off p basin start o once extra) :
    (s.packetDone src spawn off p basin start o once extra).lasting = s.lasting := by
  unfold State.packetDone; split <;> simp

@[simp] theorem State.lasting_settle (n) :
    (State.settle n s).lasting = s.lasting := by
  induction n generalizing s with
  | zero => rfl
  | succ n ih =>
    rw [State.settle]
    split
    · rfl
    · simp [ih]

@[simp] theorem State.lasting_finish (src spawn off p basin start o once extra) :
    (s.finish src spawn off p basin start o once extra).lasting = s.lasting := by
  simp [State.finish]

/-! ### Operands of a matrix packet -/

@[simp] theorem State.lasting_streamClose (b d) :
    (s.streamClose b d).lasting = s.lasting := by
  unfold State.streamClose; split <;> simp

@[simp] theorem State.lasting_stagePair (f idx b u lane) :
    (s.stagePair f idx b u lane).lasting = s.lasting := by
  simp [State.stagePair]

@[simp] theorem State.lasting_predict (b u d) :
    (s.predict b u d).lasting = s.lasting := by
  unfold State.predict; split <;> simp

/-! ### Tiles read and written at the gates -/

@[simp] theorem Lasting.keeps_hold (f ph b d setsWait) :
    l₀.Keeps (s.hold f ph b d setsWait).lasting ↔ l₀.Keeps s.lasting ∨ l₀.Kept (s.hold f ph b d setsWait).lasting := by
  refine Lasting.Keeps.rule ?_
  simp [State.hold]

@[simp] theorem Lasting.keeps_fixWait (b d) :
    l₀.Keeps (s.fixWait b d).lasting ↔ l₀.Keeps s.lasting ∨ l₀.Kept (s.fixWait b d).lasting := by
  refine Lasting.Keeps.rule ?_
  unfold State.fixWait; split <;> simp

@[simp] theorem State.lasting_readPayload (b base len rd want got) :
    (s.readPayload b base len rd want got).1.lasting = s.lasting := by
  unfold State.readPayload
  refine State.lasting_foldl_fst _ (fun a i => ?_) _ (s, _)
  dsimp only
  split_ifs
  · rfl
  · rfl
  · split <;> simp

@[simp] theorem Lasting.keeps_closeBroken (b d) :
    l₀.Keeps (s.closeBroken b d).lasting ↔ l₀.Keeps s.lasting ∨ l₀.Kept (s.closeBroken b d).lasting := by
  refine Lasting.Keeps.rule ?_
  simp [State.closeBroken]

@[simp] theorem Lasting.keeps_openTile (b d) :
    l₀.Keeps (s.openTile b d).lasting ↔ l₀.Keeps s.lasting ∨ l₀.Kept (s.openTile b d).lasting := by
  refine Lasting.Keeps.rule ?_
  simp [State.openTile]

@[simp] theorem Lasting.keeps_landWords (b w bs skip) :
    l₀.Keeps (s.landWords b w bs skip).lasting ↔ l₀.Keeps s.lasting ∨ l₀.Kept (s.landWords b w bs skip).lasting := by
  refine Lasting.Keeps.rule ?_
  simp [State.landWords]

@[simp] theorem Lasting.keeps_breakLock (b d) :
    l₀.Keeps (s.breakLock b d).lasting ↔ l₀.Keeps s.lasting ∨ l₀.Kept (s.breakLock b d).lasting := by
  refine Lasting.Keeps.rule ?_
  simp [State.breakLock]

/-! ### Culverts -/

@[simp] theorem State.lasting_grantCulvert (n c) :
    (State.grantCulvert n s c).lasting = s.lasting := by
  induction n generalizing s with
  | zero => rfl
  | succ n ih =>
    rw [State.grantCulvert]
    split
    · rfl
    · dsimp only
      split
      · rfl
      · split <;> simp [ih]

@[simp] theorem State.lasting_countSend (c slot) :
    (s.countSend c slot).lasting = s.lasting := by
  simp [State.countSend]

@[simp] theorem State.lasting_sendRecord (f i record job e1 n) :
    (s.sendRecord f i record job e1 n).lasting = s.lasting := by
  unfold State.sendRecord; split <;> simp

/-! ### Stack memory -/

@[simp] theorem State.lasting_siphonEvent (sph block kind) :
    (s.siphonEvent sph block kind).lasting = s.lasting := by
  simp [State.siphonEvent]

@[simp] theorem State.lasting_loadKeys (c gen) :
    (s.loadKeys c gen).lasting = s.lasting := by
  simp [State.loadKeys]

@[simp] theorem State.lasting_seal (sph block) :
    (s.seal sph block).lasting = s.lasting := by
  simp [State.seal]

@[simp] theorem State.lasting_damage (sph block) :
    (s.damage sph block).lasting = s.lasting := by
  simp [State.damage]

@[simp] theorem State.lasting_verifyBlock (sph block fail1 fail2) :
    (s.verifyBlock sph block fail1 fail2).1.lasting = s.lasting := by
  unfold State.verifyBlock; split <;> simp

@[simp] theorem State.lasting_readBlock (sph block fail1 fail2) :
    (s.readBlock sph block fail1 fail2).1.lasting = s.lasting := by
  unfold State.readBlock
  split_ifs <;> simp

@[simp] theorem Lasting.keeps_clearPage (sph page) :
    l₀.Keeps (s.clearPage sph page).lasting ↔ l₀.Keeps s.lasting ∨ l₀.Kept (s.clearPage sph page).lasting := by
  refine Lasting.Keeps.rule ?_
  simp only [State.clearPage, State.lasting_mk, Lasting.keeps_stackFilter, Lasting.Keeps.refl, true_or]

@[simp] theorem State.lasting_flushPage (sph page) :
    (s.flushPage sph page).lasting = s.lasting := by
  unfold State.flushPage; split <;> simp

@[simp] theorem State.lasting_combinerSlot (sph page) :
    (s.combinerSlot sph page).lasting = s.lasting := by
  unfold State.combinerSlot; split <;> simp

@[simp] theorem Lasting.keeps_writeBlock (sph block o bs fail1 fail2) :
    l₀.Keeps (s.writeBlock sph block o bs fail1 fail2).lasting ↔
      l₀.Keeps s.lasting ∨ l₀.Kept (s.writeBlock sph block o bs fail1 fail2).lasting := by
  refine Lasting.Keeps.rule ?_
  unfold State.writeBlock; split <;> simp [State.combine]

@[simp] theorem State.lasting_loseMap (sph page) :
    (s.loseMap sph page).lasting = s.lasting := by
  simp [State.loseMap]

@[simp] theorem State.lasting_movedBlock (who sph block) :
    (s.movedBlock who sph block).lasting = s.lasting := by
  unfold State.movedBlock; split <;> simp

@[simp] theorem State.lasting_stackRead (a len who) :
    (s.stackRead a len who).1.lasting = s.lasting := by
  unfold State.stackRead
  refine State.lasting_foldl_fst _ (fun acc p => ?_) _ (s, _)
  dsimp only
  split
  · rfl
  · split <;> simp

@[simp] theorem Lasting.keeps_stackWrite (a bs who) :
    l₀.Keeps (s.stackWrite a bs who).lasting ↔ l₀.Keeps s.lasting ∨ l₀.Kept (s.stackWrite a bs who).lasting := by
  refine (Lasting.Keeps.foldl (fun t p => ?_) _ s).rule
  split <;> simp

@[simp] theorem State.lasting_clearRegion (x) : (s.clearRegion x).lasting = s.lasting := by simp [State.clearRegion]

end Sys2Proof.Machine
end

section
set_option Elab.async false -- the whole text is compiled in one process, within a fixed memory
/-! SUPPORT. What lasts under packets at work, dispatch and control packets. -/

namespace Sys2Proof.Machine

variable (l₀ : Lasting) (s : State)

/-! ### Packets at work -/

@[simp] theorem State.lasting_skipAccount (f v lanes) :
    (s.skipAccount f v lanes).1.lasting = s.lasting := by
  simp [State.skipAccount]

@[simp] theorem Lasting.keeps_releaseReader (b d) :
    l₀.Keeps (s.releaseReader b d).lasting ↔ l₀.Keeps s.lasting ∨ l₀.Kept (s.releaseReader b d).lasting := by
  refine Lasting.Keeps.rule ?_
  simp [State.releaseReader]

@[simp] theorem State.lasting_readFailed (f b d) :
    (s.readFailed f b d).lasting = s.lasting := by
  simp [State.readFailed, State.findingsFailed]

@[simp] theorem State.lasting_oldWords (b base len rd got) :
    (s.oldWords b base len rd got).1.lasting = s.lasting := by
  unfold State.oldWords
  refine State.lasting_foldl_fst _ (fun a i => ?_) _ (s, _)
  dsimp only
  split <;> simp

@[simp] theorem Lasting.keeps_landSum (b w d bad) :
    l₀.Keeps (s.landSum b w d bad).lasting ↔ l₀.Keeps s.lasting ∨ l₀.Kept (s.landSum b w d bad).lasting := by
  refine Lasting.Keeps.rule ?_
  unfold State.landSum; split <;> simp

@[simp] theorem State.lasting_failHead (f lane idx st) :
    (s.failHead f lane idx st).lasting = s.lasting := by
  simp [State.failHead]

@[simp] theorem Lasting.keeps_askRead (f b d idx lane) :
    l₀.Keeps (s.askRead f b d idx lane).lasting ↔ l₀.Keeps s.lasting ∨ l₀.Kept (s.askRead f b d idx lane).lasting := by
  refine Lasting.Keeps.rule ?_
  simp only [State.askRead]; split <;> simp

@[simp] theorem Lasting.keeps_askWrite (f b d role idx lane) :
    l₀.Keeps (s.askWrite f b d role idx lane).lasting ↔
      l₀.Keeps s.lasting ∨ l₀.Kept (s.askWrite f b d role idx lane).lasting := by
  refine Lasting.Keeps.rule ?_
  simp only [State.askWrite]; repeat' split
  all_goals simp [State.waitPath, State.startWrite]

@[simp] theorem Lasting.keeps_zmapStep (f b d i) :
    l₀.Keeps (s.zmapStep f b d i).lasting ↔ l₀.Keeps s.lasting ∨ l₀.Kept (s.zmapStep f b d i).lasting := by
  refine Lasting.Keeps.rule ?_
  simp [State.zmapStep]

@[simp] theorem Lasting.keeps_stackStep (f i) :
    l₀.Keeps (s.stackStep f i).lasting ↔ l₀.Keeps s.lasting ∨ l₀.Kept (s.stackStep f i).lasting := by
  refine Lasting.Keeps.rule ?_
  unfold State.stackStep; split <;> simp

@[simp] theorem State.lasting_recordStep (f i) :
    (s.recordStep f i).lasting = s.lasting := by
  unfold State.recordStep; split <;> simp

@[simp] theorem State.lasting_sendStep (f i) :
    (s.sendStep f i).lasting = s.lasting := by
  unfold State.sendStep; split <;> simp [State.takeCounter]

@[simp] theorem State.lasting_planStep (f) :
    (s.planStep f).lasting = s.lasting := by
  unfold State.planStep; split <;> simp

@[simp] theorem State.lasting_setUnit (u v) :
    (s.setUnit u v).lasting = s.lasting := by
  unfold State.setUnit; split <;> simp

@[simp] theorem State.lasting_takeUnit (f r) :
    (s.takeUnit f r).1.lasting = s.lasting := by
  simp only [State.takeUnit]; split <;> simp

@[simp] theorem State.lasting_freeUnit (f r) :
    (s.freeUnit f r).lasting = s.lasting := by
  unfold State.freeUnit; split <;> simp

@[simp] theorem State.lasting_againStep (f lane) :
    (s.againStep f lane).lasting = s.lasting := by
  unfold State.againStep; split <;> simp

@[simp] theorem State.lasting_releaseUnits (us) :
    (s.releaseUnits us).lasting = s.lasting := by
  simp [State.releaseUnits]

@[simp] theorem State.lasting_respond (c xtag st) :
    (s.respond c xtag st).lasting = s.lasting := by
  simp [State.respond]

@[simp] theorem State.lasting_dropRequests (i) :
    (s.dropRequests i).lasting = s.lasting := by
  simp [State.dropRequests]

@[simp] theorem Lasting.keeps_closeOpened (ts) :
    l₀.Keeps (s.closeOpened ts).lasting ↔ l₀.Keeps s.lasting ∨ l₀.Kept (s.closeOpened ts).lasting := by
  refine Lasting.Keeps.rule ?_
  simp [State.closeOpened]

@[simp] theorem Lasting.keeps_endFlight (f) :
    l₀.Keeps (s.endFlight f).lasting ↔ l₀.Keeps s.lasting ∨ l₀.Kept (s.endFlight f).lasting := by
  refine Lasting.Keeps.rule ?_
  unfold State.endFlight; repeat' split
  all_goals simp [State.restoreEnd]

@[simp] theorem Lasting.keeps_runFlight (n i) :
    l₀.Keeps (State.runFlight n s i).lasting ↔ l₀.Keeps s.lasting ∨ l₀.Kept (State.runFlight n s i).lasting := by
  refine Lasting.Keeps.rule ?_
  induction n generalizing s with
  | zero => rfl
  | succ n ih =>
    rw [State.runFlight]
    split
    · rfl
    · split_ifs
      · rfl
      · split
        · simp
        · split_ifs
          · simp [(ih _).rule]
          · rw [(ih _).rule]
            split <;> simp

@[simp] theorem Lasting.keeps_go (i) :
    l₀.Keeps (s.go i).lasting ↔ l₀.Keeps s.lasting ∨ l₀.Kept (s.go i).lasting := by
  refine Lasting.Keeps.rule ?_
  simp [State.go]

@[simp] theorem Lasting.keeps_retry (i) :
    l₀.Keeps (s.retry i).lasting ↔ l₀.Keeps s.lasting ∨ l₀.Kept (s.retry i).lasting := by
  refine Lasting.Keeps.rule ?_
  unfold State.retry; repeat' split
  all_goals simp

@[simp] theorem Lasting.keeps_retryAll (is) :
    l₀.Keeps (s.retryAll is).lasting ↔ l₀.Keeps s.lasting ∨ l₀.Kept (s.retryAll is).lasting := by
  refine Lasting.Keeps.rule ?_
  simp [State.retryAll]

@[simp] theorem Lasting.keeps_afterBreak (b d) :
    l₀.Keeps (s.afterBreak b d).lasting ↔ l₀.Keeps s.lasting ∨ l₀.Kept (s.afterBreak b d).lasting := by
  refine Lasting.Keeps.rule ?_
  simp [State.afterBreak]

@[simp] theorem Lasting.keeps_afterReads (b d) :
    l₀.Keeps (s.afterReads b d).lasting ↔ l₀.Keeps s.lasting ∨ l₀.Kept (s.afterReads b d).lasting := by
  refine Lasting.Keeps.rule ?_
  simp [State.afterReads]

@[simp] theorem Lasting.keeps_wakeFlight (i) :
    l₀.Keeps (s.wakeFlight i).lasting ↔ l₀.Keeps s.lasting ∨ l₀.Kept (s.wakeFlight i).lasting := by
  refine Lasting.Keeps.rule ?_
  unfold State.wakeFlight; split <;> simp

@[simp] theorem Lasting.keeps_runReady :
    l₀.Keeps s.runReady.lasting ↔ l₀.Keeps s.lasting ∨ l₀.Kept s.runReady.lasting := by
  refine Lasting.Keeps.rule ?_
  simp [State.runReady]

@[simp] theorem State.lasting_closeAccount (f b d role idx lane m) :
    (s.closeAccount f b d role idx lane m).1.lasting = s.lasting := by
  unfold State.closeAccount; split <;> simp

@[simp] theorem Lasting.keeps_cameOut (f b d p m wrong) :
    l₀.Keeps (s.cameOut f b d p m wrong).1.lasting ↔ l₀.Keeps s.lasting ∨ l₀.Kept (s.cameOut f b d p m wrong).1.lasting := by
  refine Lasting.Keeps.rule ?_
  unfold State.cameOut; split <;> simp

@[simp] theorem State.lasting_carriedEvent (f b) :
    (s.carriedEvent f b).lasting = s.lasting := by
  unfold State.carriedEvent; split <;> simp

@[simp] theorem Lasting.keeps_landRest (f b d role idx p m) :
    l₀.Keeps (s.landRest f b d role idx p m).1.lasting ↔
      l₀.Keeps s.lasting ∨ l₀.Kept (s.landRest f b d role idx p m).1.lasting := by
  refine Lasting.Keeps.rule ?_
  unfold State.landRest; split <;> simp [State.reduceEnd]

@[simp] theorem Lasting.keeps_endWrite (f b d role idx lane wrong) :
    l₀.Keeps (s.endWrite f b d role idx lane wrong).lasting ↔
      l₀.Keeps s.lasting ∨ l₀.Kept (s.endWrite f b d role idx lane wrong).lasting := by
  refine Lasting.Keeps.rule ?_
  unfold State.endWrite; split <;> simp [State.closeTile, State.endRepeats, State.afterClose]

@[simp] theorem State.lasting_dropBursts (i) :
    (s.dropBursts i).lasting = s.lasting := by
  simp [State.dropBursts]

@[simp] theorem Lasting.keeps_tileCloseOf (i wrong) :
    l₀.Keeps (s.tileCloseOf i wrong).lasting ↔ l₀.Keeps s.lasting ∨ l₀.Kept (s.tileCloseOf i wrong).lasting := by
  refine Lasting.Keeps.rule ?_
  unfold State.tileCloseOf; repeat' split
  all_goals simp

@[simp] theorem State.lasting_deliver (f b role idx lane v bs dec lanes) :
    (s.deliver f b role idx lane v bs dec lanes).state.lasting = s.lasting := by
  simp [State.deliver, ReadEnd.state]

@[simp] theorem Lasting.keeps_readEnd (f b d role idx lane) :
    l₀.Keeps (s.readEnd f b d role idx lane).state.lasting ↔
      l₀.Keeps s.lasting ∨ l₀.Kept (s.readEnd f b d role idx lane).state.lasting := by
  refine Lasting.Keeps.rule ?_
  unfold State.readEnd
  extract_lets v weight lanes rows
  have hread := s.lasting_readPayload b (dExtentBase v) (dPayloadLen v) f.reader
    (fun w => rows.isEmpty || fetchedWord v rows w) f.got
  split
  next t bs bad e =>
  rw [e] at hread
  extract_lets dec dec' beyond index first u f' u1 u2 u3 u4 pending u5 v' u6
  have hu : u.lasting = s.lasting := by simpa [u] using hread
  split
  · simp [ReadEnd.state, hu]
  · split
    · simp [u2, u1, hu]
    · split
      · simp [u3, ReadEnd.state, hu]
      · split <;> simp [u6, u5, u4, u3, ReadEnd.state, hu]

@[simp] theorem Lasting.keeps_tileReadEndOf (i) :
    l₀.Keeps (s.tileReadEndOf i).lasting ↔ l₀.Keeps s.lasting ∨ l₀.Kept (s.tileReadEndOf i).lasting := by
  refine Lasting.Keeps.rule ?_
  unfold State.tileReadEndOf
  split
  · rfl
  · next f _ =>
    split
    · next b d _ _ role idx lane _ _ _ =>
      split
      · rfl
      · extract_lets u free
        have hu : u.lasting = s.lasting := by simp [u]
        have hfree : ∀ t : State, t.lasting.Keeps (free t).lasting := by simp [free]
        clear_value free
        have hend : s.lasting.Keeps (u.readEnd f b d role idx lane).state.lasting := by simp [hu]
        split <;> next e =>
          rw [e] at hend
          simp only [ReadEnd.state] at hend
          simp [(hfree _).rule, hend]
    · rfl

@[simp] theorem Lasting.keeps_killFlight (f) :
    l₀.Keeps (s.killFlight f).lasting ↔ l₀.Keeps s.lasting ∨ l₀.Kept (s.killFlight f).lasting := by
  refine Lasting.Keeps.rule ?_
  unfold State.killFlight; split <;> simp

/-! ### Ditch riders, dispatch and packets in Rosog's hands -/

@[simp] theorem Lasting.keeps_gaugeSet (b g v) :
    l₀.Keeps (s.gaugeSet b g v).lasting ↔ l₀.Keeps s.lasting ∨ l₀.Kept (s.gaugeSet b g v).lasting := by
  refine Lasting.Keeps.rule ?_
  simp [State.gaugeSet]

@[simp] theorem Lasting.keeps_setGaugeTo (b g v) :
    l₀.Keeps (s.setGaugeTo b g v).lasting ↔ l₀.Keeps s.lasting ∨ l₀.Kept (s.setGaugeTo b g v).lasting := by
  refine Lasting.Keeps.rule ?_
  simp [State.setGaugeTo]

@[simp] theorem Lasting.keeps_landIncs (b g) :
    l₀.Keeps (s.landIncs b g).lasting ↔ l₀.Keeps s.lasting ∨ l₀.Kept (s.landIncs b g).lasting := by
  refine Lasting.Keeps.rule ?_
  simp [State.landIncs]

@[simp] theorem State.lasting_ringTake (r p bad) :
    (s.ringTake r p bad).lasting = s.lasting := by
  simp [State.ringTake]

@[simp] theorem State.lasting_fetchRing (r) :
    (s.fetchRing r).lasting = s.lasting := by
  unfold State.fetchRing; split <;> simp

@[simp] theorem State.lasting_listTake (l p err) :
    (s.listTake l p err).lasting = s.lasting := by
  simp [State.listTake]

@[simp] theorem State.lasting_fetchList (b k) :
    (s.fetchList b k).lasting = s.lasting := by
  simp only [State.fetchList]; repeat' split
  all_goals simp

@[simp] theorem State.lasting_popHead (src) :
    (s.popHead src).lasting = s.lasting := by
  unfold State.popHead; repeat' split
  all_goals simp

@[simp] theorem State.lasting_holdSrc (src h) :
    (s.holdSrc src h).lasting = s.lasting := by
  unfold State.holdSrc; repeat' split
  all_goals simp

@[simp] theorem Lasting.keeps_launch (f) :
    l₀.Keeps (s.launch f).lasting ↔ l₀.Keeps s.lasting ∨ l₀.Kept (s.launch f).lasting := by
  refine Lasting.Keeps.rule ?_
  simp [State.launch]

@[simp] theorem State.lasting_occupy (u last) :
    (s.occupy u last).lasting = s.lasting := by
  unfold State.occupy; split <;> simp

@[simp] theorem Lasting.keeps_startUnit (src fe kind u any last) :
    l₀.Keeps ((s.startUnit src fe kind u any last).getD s).lasting ↔
      l₀.Keeps s.lasting ∨ l₀.Kept ((s.startUnit src fe kind u any last).getD s).lasting := by
  refine Lasting.Keeps.rule ?_
  unfold State.startUnit
  dsimp only
  split <;> simp

@[simp] theorem Lasting.keeps_startMatrix (src fe) :
    l₀.Keeps ((s.startMatrix src fe).getD s).lasting ↔
      l₀.Keeps s.lasting ∨ l₀.Kept ((s.startMatrix src fe).getD s).lasting := by
  refine Lasting.Keeps.rule ?_
  unfold State.startMatrix
  dsimp only
  split
  · rfl
  · split <;> simp

@[simp] theorem State.lasting_doneNow (src fe o) :
    (s.doneNow src fe o).lasting = s.lasting := by
  simp [State.doneNow]

@[simp] theorem State.lasting_startWait (src fe) :
    (s.startWait src fe).lasting = s.lasting := by
  simp [State.startWait]

@[simp] theorem Lasting.keeps_startGauge (src fe) :
    l₀.Keeps (s.startGauge src fe).lasting ↔ l₀.Keeps s.lasting ∨ l₀.Kept (s.startGauge src fe).lasting := by
  refine Lasting.Keeps.rule ?_
  simp [State.startGauge]

@[simp] theorem State.lasting_startList (src fe) :
    (s.startList src fe).lasting = s.lasting := by
  simp only [State.startList]; repeat' split
  all_goals simp [State.spawnList]

@[simp] theorem State.lasting_startReturn (src fe) :
    (s.startReturn src fe).lasting = s.lasting := by
  unfold State.startReturn; repeat' split
  all_goals simp

@[simp] theorem Lasting.keeps_lockTile (c ctx b d) :
    l₀.Keeps (s.lockTile c ctx b d).1.lasting ↔ l₀.Keeps s.lasting ∨ l₀.Kept (s.lockTile c ctx b d).1.lasting := by
  refine Lasting.Keeps.rule ?_
  unfold State.lockTile; split <;> simp

@[simp] theorem Lasting.keeps_unlockTile (c b d) :
    l₀.Keeps (s.unlockTile c b d).1.lasting ↔ l₀.Keeps s.lasting ∨ l₀.Kept (s.unlockTile c b d).1.lasting := by
  refine Lasting.Keeps.rule ?_
  unfold State.unlockTile; split <;> simp [State.wake]

@[simp] theorem Lasting.keeps_startLock (src fe) :
    l₀.Keeps (s.startLock src fe).lasting ↔ l₀.Keeps s.lasting ∨ l₀.Kept (s.startLock src fe).lasting := by
  refine Lasting.Keeps.rule ?_
  unfold State.startLock; split <;> simp

@[simp] theorem Lasting.keeps_startStream (src fe) :
    l₀.Keeps ((s.startStream src fe).getD s).lasting ↔
      l₀.Keeps s.lasting ∨ l₀.Kept ((s.startStream src fe).getD s).lasting := by
  refine Lasting.Keeps.rule ?_
  unfold State.startStream
  dsimp only
  split
  case h_2 => split <;> simp
  all_goals simp

@[simp] theorem State.lasting_refuseHead (src fe st decode) :
    (s.refuseHead src fe st decode).lasting = s.lasting := by
  simp only [State.refuseHead]; repeat' split
  all_goals simp

@[simp] theorem State.lasting_hand (src fe) :
    (s.hand src fe).lasting = s.lasting := by
  simp [State.hand]

@[simp] theorem State.lasting_readNamed (b p) :
    (s.readNamed b p).lasting = s.lasting := by
  simp [State.readNamed]

theorem Lasting.keeps_dispatchOne {src t stop} (h : s.dispatchOne src = some (t, stop)) : s.lasting.Keeps t.lasting := by
  unfold State.dispatchOne at h
  dsimp only at h
  split at h
  · cases h
  · next fe _ =>
    split at h
    · cases h
      simp
    · split at h
      · cases h
        simp
      · split at h
        · cases h
          split <;> simp
        · obtain ⟨u, hu, e⟩ := Option.map_eq_some_iff.mp h
          cases e
          have hstart := (s.lasting.keeps_startStream (s.readNamed (s.basinOf src) fe.pkt) src fe).2 (by simp)
          simpa [hu] using hstart

@[simp] theorem Lasting.keeps_dispatchGroup (n src) :
    l₀.Keeps (State.dispatchGroup n s src).lasting ↔ l₀.Keeps s.lasting ∨ l₀.Kept (State.dispatchGroup n s src).lasting := by
  refine Lasting.Keeps.rule ?_
  induction n generalizing s with
  | zero => rfl
  | succ n ih =>
    rw [State.dispatchGroup]
    split
    · rfl
    · next t stop h => split <;> simp [(ih _).rule, Lasting.keeps_dispatchOne s h]

@[simp] theorem Lasting.keeps_ride (src) :
    l₀.Keeps (s.ride src).lasting ↔ l₀.Keeps s.lasting ∨ l₀.Kept (s.ride src).lasting := by
  refine Lasting.Keeps.rule ?_
  simp [State.ride]

@[simp] theorem Lasting.keeps_arrive (src p) :
    l₀.Keeps (s.arrive src p).lasting ↔ l₀.Keeps s.lasting ∨ l₀.Kept (s.arrive src p).lasting := by
  refine Lasting.Keeps.rule ?_
  unfold State.arrive
  dsimp only
  split
  · split_ifs <;> simp
  · split
    · split_ifs <;> simp
    · rfl
  · rfl

@[simp] theorem State.lasting_finishHanded (h o) :
    (s.finishHanded h o).lasting = s.lasting := by
  simp [State.finishHanded]

@[simp] theorem State.lasting_begin (h) :
    (s.begin h).lasting = s.lasting := by simp [State.begin]

/-- A control packet keeps what its execution keeps. -/
@[simp] theorem Lasting.keeps_control (src p) (k : State → Handed → State × Option Outcome)
    (hk : ∀ (t : State) h, t.lasting.Keeps (k t h).1.lasting) :
    l₀.Keeps (s.control src p k).lasting ↔ l₀.Keeps s.lasting ∨ l₀.Kept (s.control src p k).lasting := by
  refine Lasting.Keeps.rule ?_
  have hmet : s.lasting.Keeps (if (s.handed? src p).isSome then s else s.arrive src p).lasting := by simp
  rcases s.control_cases src p k with ⟨-, e⟩ | ⟨h, -, ⟨-, e⟩ | ⟨-, -, e⟩ | ⟨u, o, hu, e⟩ | ⟨u, hu, e⟩⟩
  · rwa [e]
  · rwa [e]
  · rwa [e, State.lasting_finishHanded]
  all_goals
    have hku := hk (if (s.handed? src p).isSome then s else s.arrive src p) h
    rw [hu] at hku
    simpa [e] using hmet.trans hku

end Sys2Proof.Machine
end

section
set_option Elab.async false -- the whole text is compiled in one process, within a fixed memory
/-! SUPPORT. What lasts under contexts, rights, checks, supplies and sleep. -/

namespace Sys2Proof.Machine

variable (l₀ : Lasting) (s : State)

/-! ### Rights suspended and restored -/

@[simp] theorem State.lasting_putRegulator (r) :
    (s.putRegulator r).lasting = s.lasting := by
  unfold State.putRegulator; split <;> simp

@[simp] theorem State.lasting_startAfresh (b right) :
    (s.startAfresh b right).lasting = s.lasting := by
  simp [State.startAfresh]

@[simp] theorem State.lasting_setBound (b r en bound) :
    (s.setBound b r en bound).lasting = s.lasting := by
  simp [State.setBound]

@[simp] theorem State.lasting_setSuspended (b r v) :
    (s.setSuspended b r v).lasting = s.lasting := by
  unfold State.setSuspended; split <;> simp

@[simp] theorem State.lasting_markSuspended (c right v) :
    (s.markSuspended c right v).lasting = s.lasting := by
  simp [State.markSuspended]

@[simp] theorem State.lasting_suspendWhile (c l) :
    (State.suspendWhile c l s).lasting = s.lasting := by
  induction l generalizing s with
  | nil => rfl
  | cons a l ih => simp [State.suspendWhile, ih]

@[simp] theorem State.lasting_restoreWhile (c l) :
    (State.restoreWhile c l s).lasting = s.lasting := by
  induction l generalizing s with
  | nil => rfl
  | cons a l ih => simp [State.restoreWhile, ih]

@[simp] theorem State.lasting_recompute :
    s.recompute.lasting = s.lasting := by
  simp only [State.recompute]; split <;> simp

/-! ### Supplies and the divider -/

@[simp] theorem State.lasting_alert (i) :
    (s.alert i).lasting = s.lasting := by simp [State.alert]

@[simp] theorem State.lasting_requestSupply (core sram) :
    (s.requestSupply core sram).lasting = s.lasting := by
  unfold State.requestSupply; split <;> simp

@[simp] theorem State.lasting_showMargin :
    s.showMargin.lasting = s.lasting := by
  simp [State.showMargin]

@[simp] theorem State.lasting_raiseSram (level) :
    (s.raiseSram level).lasting = s.lasting := by
  unfold State.raiseSram; split <;> simp

@[simp] theorem State.lasting_marginSuspend :
    s.marginSuspend.lasting = s.lasting := by
  unfold State.marginSuspend; split <;> simp

@[simp] theorem State.lasting_showLoad :
    s.showLoad.lasting = s.lasting := by simp [State.showLoad]

/-! ### The fault history -/

@[simp] theorem State.revoked_putUnitRec (u) : (s.putUnitRec u).cistern.revoked = s.cistern.revoked := by
  unfold State.putUnitRec; split <;> rfl

@[simp] theorem State.lasting_putUnitRec (r) :
    (s.putUnitRec r).lasting = s.lasting := by
  unfold State.putUnitRec; split <;> simp

@[simp] theorem State.lasting_addEvent (e) :
    (s.addEvent e).lasting = s.lasting := by
  simp [State.addEvent]

@[simp] theorem State.lasting_dueNow (k b u) :
    (s.dueNow k b u).lasting = s.lasting := by
  simp [State.dueNow]

@[simp] theorem State.lasting_record (e severity action threshold added) :
    (s.record e severity action threshold added).lasting = s.lasting := by
  simp [State.record]

@[simp] theorem State.lasting_recordAction (kind b u cls action failed loc) :
    (s.recordAction kind b u cls action failed loc).lasting = s.lasting := by
  unfold State.recordAction; split <;> simp

@[simp] theorem Lasting.keeps_enterFallow (cause start) :
    l₀.Keeps (s.enterFallow cause start).lasting ↔ l₀.Keeps s.lasting ∨ l₀.Kept (s.enterFallow cause start).lasting := by
  refine Lasting.Keeps.rule ?_
  unfold State.enterFallow
  extract_lets t u e w x y z
  have hz : z.lasting = s.lasting := by
    simp only [z, y, x, w, u, t]
    simp
  clear_value z
  simp [hz]

/-! ### Contexts, levees and rings -/

@[simp] theorem State.lasting_addLevee (b kind ctx base len alloc) :
    (s.addLevee b kind ctx base len alloc).lasting = s.lasting := by
  unfold State.addLevee; split <;> simp [State.putLevee]

@[simp] theorem Lasting.keeps_ownAllotment (b ctx al) :
    l₀.Keeps (s.ownAllotment b ctx al).lasting ↔ l₀.Keeps s.lasting ∨ l₀.Kept (s.ownAllotment b ctx al).lasting := by
  refine Lasting.Keeps.rule ?_
  simp [State.ownAllotment]

@[simp] theorem State.lasting_addRegion (n islocal ctx phys units base set) :
    (s.addRegion n islocal ctx phys units base set).lasting = s.lasting := by
  simp only [State.addRegion]; split <;> simp

@[simp] theorem State.lasting_dropRegion (n) :
    (s.dropRegion n).lasting = s.lasting := by
  unfold State.dropRegion; split <;> simp

@[simp] theorem Lasting.keeps_killAll (fs) :
    l₀.Keeps (s.killAll fs).lasting ↔ l₀.Keeps s.lasting ∨ l₀.Kept (s.killAll fs).lasting := by
  refine Lasting.Keeps.rule ?_
  simp [State.killAll]

@[simp] theorem Lasting.keeps_breakLocks (c) :
    l₀.Keeps (s.breakLocks c).1.lasting ↔ l₀.Keeps s.lasting ∨ l₀.Kept (s.breakLocks c).1.lasting := by
  refine Lasting.Keeps.rule ?_
  simp [State.breakLocks]

@[simp] theorem State.lasting_endFaulted (src p basin start) :
    (s.endFaulted src p basin start).lasting = s.lasting := by
  simp only [State.endFaulted]; repeat' split
  all_goals simp

@[simp] theorem Lasting.keeps_faultContext (c) :
    l₀.Keeps (s.faultContext c).lasting ↔ l₀.Keeps s.lasting ∨ l₀.Kept (s.faultContext c).lasting := by
  refine Lasting.Keeps.rule ?_
  unfold State.faultContext; split <;> simp

@[simp] theorem Lasting.keeps_endWork (c keep) :
    l₀.Keeps (s.endWork c keep).1.lasting ↔ l₀.Keeps s.lasting ∨ l₀.Kept (s.endWork c keep).1.lasting := by
  refine Lasting.Keeps.rule ?_
  simp [State.endWork]

@[simp] theorem State.lasting_clearEngines (c) :
    (s.clearEngines c).lasting = s.lasting := by
  simp [State.clearEngines]

@[simp] theorem Lasting.keeps_killArrivals (c) :
    l₀.Keeps (s.killArrivals c).lasting ↔ l₀.Keeps s.lasting ∨ l₀.Kept (s.killArrivals c).lasting := by
  refine Lasting.Keeps.rule ?_
  unfold State.killArrivals
  refine .trans ?_ (Lasting.Keeps.foldl (fun t f => ?_) _ _)
  · simp
  · split <;> simp

@[simp] theorem Lasting.keeps_beginScrub :
    l₀.Keeps s.beginScrub.lasting ↔ l₀.Keeps s.lasting ∨ l₀.Kept s.beginScrub.lasting := by
  refine Lasting.Keeps.rule ?_
  unfold State.beginScrub; split <;> simp

@[simp] theorem Lasting.keeps_askScrub (c what) :
    l₀.Keeps (s.askScrub c what).lasting ↔ l₀.Keeps s.lasting ∨ l₀.Kept (s.askScrub c what).lasting := by
  refine Lasting.Keeps.rule ?_
  simp [State.askScrub]

@[simp] theorem State.lasting_destroyKeys (c keep) :
    (s.destroyKeys c keep).lasting = s.lasting := by
  unfold State.destroyKeys; split <;> simp

@[simp] theorem Lasting.keeps_scrubWork (c k root keep) :
    l₀.Keeps (s.scrubWork c k root keep).lasting ↔ l₀.Keeps s.lasting ∨ l₀.Kept (s.scrubWork c k root keep).lasting := by
  refine Lasting.Keeps.rule ?_
  unfold State.scrubWork; split <;> simp [State.sweepDescs, State.sweepLine, State.sweepPages]

@[simp] theorem State.lasting_setTdisp (c v) :
    (s.setTdisp c v).lasting = s.lasting := by
  simp [State.setTdisp]

@[simp] theorem State.lasting_clearRing (r) :
    (s.clearRing r).lasting = s.lasting := by
  simp [State.clearRing]

@[simp] theorem State.lasting_showSessions :
    s.showSessions.lasting = s.lasting := by
  simp [State.showSessions]

@[simp] theorem Lasting.keeps_destroyContext (c h keep) :
    l₀.Keeps (s.destroyContext c h keep).lasting ↔ l₀.Keeps s.lasting ∨ l₀.Kept (s.destroyContext c h keep).lasting := by
  refine Lasting.Keeps.rule ?_
  unfold State.destroyContext; split <;> simp

/-! ### Basins and their reserve -/

@[simp] theorem State.lasting_ctxBound (c b right en bound) :
    (s.ctxBound c b right en bound).lasting = s.lasting := by
  simp [State.ctxBound]

@[simp] theorem State.lasting_setStreamCfg (b e v) :
    (s.setStreamCfg b e v).lasting = s.lasting := by
  simp [State.setStreamCfg]

@[simp] theorem State.lasting_setArbCfg (b lanes v) :
    (s.setArbCfg b lanes v).lasting = s.lasting := by
  unfold State.setArbCfg; split <;> simp

@[simp] theorem State.lasting_copyOut (b w n) :
    (s.copyOut b w n).1.lasting = s.lasting := by
  simp [State.copyOut]

@[simp] theorem Lasting.keeps_copyIn (b w ws) :
    l₀.Keeps (s.copyIn b w ws).lasting ↔ l₀.Keeps s.lasting ∨ l₀.Kept (s.copyIn b w ws).lasting := by
  refine Lasting.Keeps.rule ?_
  simp [State.copyIn]

/-- The two copies of the reserve are followed one after the other: each is a long fold, which no step here unfolds. -/
@[simp] theorem Lasting.keeps_changeHash (b v) :
    l₀.Keeps (s.changeHash b v).lasting ↔ l₀.Keeps s.lasting ∨ l₀.Kept (s.changeHash b v).lasting := by
  refine Lasting.Keeps.rule ?_
  generalize e : s.changeHash b v = t
  unfold State.changeHash at e
  split at e
  · rw [e]
  · extract_lets w at e
    have hout := s.lasting_copyOut b w liveReserve
    split at e
    next u ws hu =>
    rw [hu] at hout
    split at e
    · next o _ =>
      extract_lets v' at e
      have hv : s.lasting.Keeps v'.lasting := by simp [v', hout]
      have hback := v'.lasting_copyOut o (w + liveReserve) liveReserve
      split at e
      next x back hx =>
      rw [hx] at hback
      rw [← e, Lasting.keeps_copyIn, hback]
      exact .inl hv
    · rw [← e]
      simp [hout]

/-! ### Rights admitted -/

@[simp] theorem State.lasting_clearBounds (c right mask) :
    (s.clearBounds c right mask).lasting = s.lasting := by
  simp [State.clearBounds]

@[simp] theorem State.lasting_grantAdmission (h) :
    (s.grantAdmission h).1.lasting = s.lasting := by
  simp only [State.grantAdmission]; repeat' split
  all_goals simp

@[simp] theorem State.lasting_releaseRight (h) :
    (s.releaseRight h).1.lasting = s.lasting := by
  simp [State.releaseRight]

/-! ### Checks and turnouts -/

@[simp] theorem State.lasting_grantBurst (b c e t0) :
    (s.grantBurst b c e t0).lasting = s.lasting := by
  simp [State.grantBurst]

@[simp] theorem State.lasting_grantRanked (b c n l) :
    (s.grantRanked b c n l).lasting = s.lasting := by
  induction l generalizing s with
  | nil => rfl
  | cons e l ih => simp [State.grantRanked, ih]

@[simp] theorem State.lasting_decision (b c) :
    (s.decision b c).lasting = s.lasting := by
  simp only [State.decision]; repeat' split
  all_goals simp

@[simp] theorem State.lasting_decideOnce (b c) :
    (s.decideOnce b c).lasting = s.lasting := by
  unfold State.decideOnce; split <;> simp

@[simp] theorem State.lasting_decideThrough (b c) :
    (s.decideThrough b c).lasting = s.lasting := by
  simp [State.decideThrough]

@[simp] theorem State.lasting_issue (b e) :
    (s.issue b e).lasting = s.lasting := by simp [State.issue]

@[simp] theorem State.lasting_issueWaiting :
    s.issueWaiting.lasting = s.lasting := by
  simp [State.issueWaiting]

@[simp] theorem State.lasting_burstReady (b e) :
    (s.burstReady b e).lasting = s.lasting := by
  unfold State.burstReady; split <;> simp

@[simp] theorem State.lasting_noteAsked (who word n) :
    (s.noteAsked who word n).lasting = s.lasting := by
  unfold State.noteAsked; repeat' split
  all_goals simp

theorem State.lasting_execBurstArrival {b who kind word n} {t : State} (h : execBurstArrival b who kind word n s = .next t) :
    t.lasting = s.lasting := by
  unfold execBurstArrival at h
  repeat' split at h
  all_goals
    cases h
    simp

@[simp] theorem State.keepsIn_execBurstArrival (b who kind word n) : s.KeepsIn (execBurstArrival b who kind word n s) := by
  intro t h
  rw [s.lasting_execBurstArrival h]

@[simp] theorem State.lasting_useBeat (b who write word) :
    (s.useBeat b who write word).lasting = s.lasting := by
  simp [State.useBeat]

@[simp] theorem State.lasting_beatFor (b who kind word n) :
    (s.beatFor b who kind word n).1.lasting = s.lasting := by
  unfold State.beatFor
  dsimp only
  split_ifs
  · simp
  · rfl
  · split
    · next t h =>
      have ht := s.lasting_execBurstArrival h
      split_ifs <;> simp [ht]
    · rfl

@[simp] theorem State.keepsIn_execCheckDecision (b c) : s.KeepsIn (execCheckDecision b c s) := by
  unfold execCheckDecision; split <;> simp

@[simp] theorem State.lasting_decideAll :
    s.decideAll.lasting = s.lasting := by simp [State.decideAll]

@[simp] theorem State.lasting_countHeld :
    s.countHeld.lasting = s.lasting := by simp [State.countHeld]

@[simp] theorem State.lasting_readBeat (x) :
    (s.readBeat x).lasting = s.lasting := by
  simp only [State.readBeat]; repeat' split
  all_goals simp

@[simp] theorem Lasting.keeps_writeBeat (x) :
    l₀.Keeps (s.writeBeat x).lasting ↔ l₀.Keeps s.lasting ∨ l₀.Kept (s.writeBeat x).lasting := by
  refine Lasting.Keeps.rule ?_
  unfold State.writeBeat; repeat' split
  all_goals simp

@[simp] theorem Lasting.keeps_landBeats :
    l₀.Keeps s.landBeats.lasting ↔ l₀.Keeps s.lasting ∨ l₀.Kept s.landBeats.lasting := by
  refine Lasting.Keeps.rule ?_
  simp [State.landBeats]

@[simp] theorem State.lasting_freezeCheck (b c) :
    (s.freezeCheck b c).lasting = s.lasting := by
  simp [State.freezeCheck]

@[simp] theorem Lasting.keeps_takeSide (b c bank w turnout) :
    l₀.Keeps (s.takeSide b c bank w turnout).lasting ↔
      l₀.Keeps s.lasting ∨ l₀.Kept (s.takeSide b c bank w turnout).lasting := by
  refine Lasting.Keeps.rule ?_
  simp [State.takeSide]

@[simp] theorem State.keepsIn_execParkOnScrubber (b k) : s.KeepsIn (execParkOnScrubber b k s) := by
  unfold execParkOnScrubber; split <;> simp

/-- What a latency beyond its limit does is an operand: it keeps, so the end of the beats keeps. -/
@[simp] theorem State.lasting_settleBeats (k : State → Nat → Nat → State)
    (hk : ∀ t b n, (k t b n).lasting = t.lasting) : (s.settleBeats k).lasting = s.lasting := by
  simp only [State.settleBeats]
  rw [State.lasting_mk, State.lasting_eta, State.lasting_foldl _ (by simp), State.lasting_foldl]
  intro t x
  split
  · split_ifs <;> simp [hk]
  · rfl

@[simp] theorem State.lasting_endLap (b) :
    (s.endLap b).lasting = s.lasting := by
  unfold State.endLap; split <;> simp

@[simp] theorem State.lasting_scrubFound (b kind unit loc f) :
    (s.scrubFound b kind unit loc f).lasting = s.lasting := by
  unfold State.scrubFound; split <;> simp

@[simp] theorem State.lasting_scrubBank (b k) :
    (s.scrubBank b k).lasting = s.lasting := by
  simp [State.scrubBank]

@[simp] theorem State.lasting_readCanary (b k n) :
    (s.readCanary b k n).lasting = s.lasting := by
  simp [State.readCanary]

@[simp] theorem State.lasting_scrubDesc (b d) :
    (s.scrubDesc b d).lasting = s.lasting := by
  simp [State.scrubDesc]

@[simp] theorem State.lasting_scrubLine (b j) :
    (s.scrubLine b j).lasting = s.lasting := by
  simp [State.scrubLine]

@[simp] theorem State.keepsIn_execScrubRead (b what) : s.KeepsIn (execScrubRead b what s) := by
  unfold execScrubRead; repeat' split
  all_goals simp

/-! ### Settings -/

@[simp] theorem State.lasting_placeBuffer (c bytes bs) :
    (s.placeBuffer c bytes bs).1.lasting = s.lasting := by
  simp only [State.placeBuffer]; repeat' split
  all_goals simp

@[simp] theorem Lasting.keeps_putItem (c item idx v b) :
    l₀.Keeps (s.putItem c item idx v b).lasting ↔ l₀.Keeps s.lasting ∨ l₀.Kept (s.putItem c item idx v b).lasting := by
  refine Lasting.Keeps.rule ?_
  unfold State.putItem; split <;> simp [State.ctxOt]

@[simp] theorem Lasting.keeps_configSet (h) :
    l₀.Keeps (s.configSet h).1.lasting ↔ l₀.Keeps s.lasting ∨ l₀.Kept (s.configSet h).1.lasting := by
  refine Lasting.Keeps.rule ?_
  simp only [State.configSet, State.lasting_ite_fst]
  repeat' split
  all_goals simp

/-! ### Control packets of contexts -/

@[simp] theorem Lasting.keeps_createContext (a base stack) :
    l₀.Keeps (s.createContext a base stack).lasting ↔ l₀.Keeps s.lasting ∨ l₀.Kept (s.createContext a base stack).lasting := by
  refine Lasting.Keeps.rule ?_
  have hlevees : ∀ al (bs : List Nat), s.lasting.Keeps (bs.foldl (fun (t : State) b =>
      (t.addLevee b 0 a.ctx base a.len al).ownAllotment b a.ctx al) s).lasting := by simp
  unfold State.createContext
  simp only [State.lasting_useFree, State.lasting_loadKeys, State.lasting_putCtx, State.lasting_putReg, State.lasting_putFld,
    State.lasting_clearRing]
  split
  · rw [State.lasting_addRegion]
    exact hlevees _ _
  · exact hlevees _ _

@[simp] theorem Lasting.keeps_create (h entropyOk) :
    l₀.Keeps (s.create h entropyOk).1.lasting ↔ l₀.Keeps s.lasting ∨ l₀.Kept (s.create h entropyOk).1.lasting := by
  refine Lasting.Keeps.rule ?_
  simp only [State.create]; repeat' split
  all_goals simp

@[simp] theorem State.lasting_recover (h) :
    (s.recover h).1.lasting = s.lasting := by
  simp [State.recover]

@[simp] theorem State.lasting_pauseActive :
    s.pauseActive.lasting = s.lasting := by
  unfold State.pauseActive; split <;> simp

@[simp] theorem State.lasting_switchTo (h) :
    (s.switchTo h).1.lasting = s.lasting := by
  unfold State.switchTo; split <;> simp [State.loadLimits]

@[simp] theorem Lasting.keeps_selfDestroy (h c) :
    l₀.Keeps (s.selfDestroy h c).lasting ↔ l₀.Keeps s.lasting ∨ l₀.Kept (s.selfDestroy h c).lasting := by
  refine Lasting.Keeps.rule ?_
  unfold State.selfDestroy; split <;> simp

@[simp] theorem Lasting.keeps_destroy (h) :
    l₀.Keeps (s.destroy h).1.lasting ↔ l₀.Keeps s.lasting ∨ l₀.Kept (s.destroy h).1.lasting := by
  refine Lasting.Keeps.rule ?_
  unfold State.destroy; split <;> simp

/-! ### What a loss of power leaves -/

@[simp] theorem Lasting.keeps_goneCold (keep) :
    l₀.Keeps (s.goneCold keep).lasting ↔ l₀.Keeps s.lasting ∨ l₀.Kept (s.goneCold keep).lasting := by
  refine Lasting.Keeps.rule ?_
  simp only [State.goneCold, State.lasting_foldl, State.lasting_putReg, State.lasting_putFld, State.lasting_mk, implies_true]
  exact ⟨rfl, rfl, fun _ h => h, fun h => h, fun _ => ⟨rfl, rfl, rfl, rfl, rfl⟩⟩

@[simp] theorem State.lasting_persist :
    s.persist.lasting = s.lasting := by simp [State.persist]

@[simp] theorem Lasting.keeps_replyOut (r) :
    l₀.Keeps (s.replyOut r).lasting ↔ l₀.Keeps s.lasting ∨ l₀.Kept (s.replyOut r).lasting := by
  refine Lasting.Keeps.rule ?_
  simp only [State.replyOut]; split <;> simp

/-! ### Sleep and wake -/

@[simp] theorem State.lasting_noteEntry (target outcome point) :
    (s.noteEntry target outcome point).lasting = s.lasting := by
  simp [State.noteEntry]

@[simp] theorem State.lasting_answerEntry (e o) :
    (s.answerEntry e o).lasting = s.lasting := by
  unfold State.answerEntry; repeat' split
  all_goals simp

@[simp] theorem State.lasting_startEntry (target src) :
    (s.startEntry target src).lasting = s.lasting := by
  simp [State.startEntry]

@[simp] theorem State.lasting_refuseEntry (target) :
    (s.refuseEntry target).lasting = s.lasting := by
  simp [State.refuseEntry]

@[simp] theorem State.lasting_refusedBy (e code) :
    (s.refusedBy e code).lasting = s.lasting := by
  simp [State.refusedBy]

@[simp] theorem State.lasting_abortAt (e point) :
    (s.abortAt e point).lasting = s.lasting := by
  simp [State.abortAt]

@[simp] theorem State.lasting_abortEntry :
    s.abortEntry.lasting = s.lasting := by
  unfold State.abortEntry; split <;> simp

@[simp] theorem State.lasting_setBanks (v) :
    (s.setBanks v).lasting = s.lasting := by
  simp [State.setBanks]

@[simp] theorem State.lasting_keeperNormal :
    s.keeperNormal.lasting = s.lasting := by
  simp [State.keeperNormal]

@[simp] theorem Lasting.keeps_commitEntry (e) :
    l₀.Keeps (s.commitEntry e).lasting ↔ l₀.Keeps s.lasting ∨ l₀.Kept (s.commitEntry e).lasting := by
  refine Lasting.Keeps.rule ?_
  unfold State.commitEntry; split <;> simp [State.siphonsTo, State.keeperLow]

@[simp] theorem State.lasting_stopCredits : s.stopCredits.lasting = s.lasting := by
  simp [State.stopCredits]

@[simp] theorem Lasting.keeps_repliesOut (k) :
    l₀.Keeps (s.repliesOut k).lasting ↔ l₀.Keeps s.lasting ∨ l₀.Kept (s.repliesOut k).lasting := by
  refine Lasting.Keeps.rule ?_
  simp [State.repliesOut]

@[simp] theorem Lasting.keeps_entryOn (e) :
    l₀.Keeps (s.entryOn e).lasting ↔ l₀.Keeps s.lasting ∨ l₀.Kept (s.entryOn e).lasting := by
  refine Lasting.Keeps.rule ?_
  unfold State.entryOn; split <;> simp

@[simp] theorem State.keepsIn_execEntryCommit : s.KeepsIn (execEntryCommit s) := by
  unfold execEntryCommit; split <;> simp

@[simp] theorem State.keepsIn_execDrainTimeout (code) : s.KeepsIn (execDrainTimeout code s) := by
  unfold execDrainTimeout; split <;> simp

@[simp] theorem State.keepsIn_execEntryAbort (w) : s.KeepsIn (execEntryAbort w s) := by
  unfold execEntryAbort; split <;> simp

@[simp] theorem State.lasting_wakeStart :
    s.wakeStart.lasting = s.lasting := by
  unfold State.wakeStart; split <;> simp

@[simp] theorem State.lasting_wakeDone :
    s.wakeDone.lasting = s.lasting := by simp [State.wakeDone]

@[simp] theorem State.lasting_wakeFor (w) :
    (s.wakeFor w).lasting = s.lasting := by
  unfold State.wakeFor; split <;> simp [State.wakeUp]

@[simp] theorem State.keepsIn_execSleepWake (w) : s.KeepsIn (execSleepWake w s) := by
  unfold execSleepWake; split <;> simp

@[simp] theorem State.keepsIn_execTrickleSample (r) : s.KeepsIn (execTrickleSample r s) := by
  unfold execTrickleSample; split <;> simp

@[simp] theorem State.lasting_putNonzero (r lo n v) :
    (s.putNonzero r lo n v).lasting = s.lasting := by
  unfold State.putNonzero; split <;> simp

@[simp] theorem State.lasting_setPolicy (p) :
    (s.setPolicy p).lasting = s.lasting := by
  unfold State.setPolicy; split <;> simp

@[simp] theorem State.lasting_powerAsk (h) :
    (s.powerAsk h).1.lasting = s.lasting := by
  simp only [State.powerAsk]; repeat' split
  all_goals simp

/-! ### Attach and detach -/

@[simp] theorem State.lasting_detachOn : s.detachOn.lasting = s.lasting := by
  unfold State.detachOn; split <;> simp [State.persist]

@[simp] theorem Lasting.keeps_detachAsk (h) :
    l₀.Keeps (s.detachAsk h).1.lasting ↔ l₀.Keeps s.lasting ∨ l₀.Kept (s.detachAsk h).1.lasting := by
  refine Lasting.Keeps.rule ?_
  unfold State.detachAsk; split <;> simp [State.startDetach]

@[simp] theorem State.lasting_attachAsk (h) :
    (s.attachAsk h).1.lasting = s.lasting := by
  unfold State.attachAsk; split <;> simp

end Sys2Proof.Machine
end

section
set_option Elab.async false -- the whole text is compiled in one process, within a fixed memory
/-! SUPPORT. What lasts under loads and stores, security packets and repairs. -/

namespace Sys2Proof.Machine

variable (l₀ : Lasting) (s : State)

/-! ### The control core -/

@[simp] theorem State.lasting_localTrap (k cause a) :
    (s.localTrap k cause a).lasting = s.lasting := by
  unfold State.localTrap; split <;> simp

@[simp] theorem State.lasting_localLoad (k a n) :
    (s.localLoad k a n).1.lasting = s.lasting := by
  unfold State.localLoad; split <;> simp

@[simp] theorem State.lasting_localStore (a bs) :
    (s.localStore a bs).lasting = s.lasting := by
  unfold State.localStore; split <;> simp

@[simp] theorem State.lasting_placeImage (x) :
    (s.placeImage x).lasting = s.lasting := by
  simp [State.placeImage]

@[simp] theorem State.lasting_loadStandby (x) :
    (s.loadStandby x).lasting = s.lasting := by
  unfold State.loadStandby; split <;> simp

@[simp] theorem State.lasting_swapHalves :
    s.swapHalves.lasting = s.lasting := by
  simp [State.swapHalves]

@[simp] theorem State.lasting_saveBlock :
    s.saveBlock.lasting = s.lasting := by simp [State.saveBlock]

/-! ### Queries -/

@[simp] theorem State.lasting_query (h) :
    (s.query h).1.lasting = s.lasting := by
  simp only [State.query]; repeat' split
  all_goals simp

@[simp] theorem State.lasting_statsOf (h) :
    (s.statsOf h).1.lasting = s.lasting := by
  simp only [State.statsOf]; repeat' split
  all_goals simp

@[simp] theorem Lasting.keeps_faultLog (h) :
    l₀.Keeps (s.faultLog h).1.lasting ↔ l₀.Keeps s.lasting ∨ l₀.Kept (s.faultLog h).1.lasting := by
  refine Lasting.Keeps.rule ?_
  simp only [State.faultLog]; repeat' split
  all_goals simp

/-! ### Models loaded -/

@[simp] theorem State.lasting_pkgRead (a len) :
    (s.pkgRead a len).1.lasting = s.lasting := by
  simp only [State.pkgRead]; repeat' split
  all_goals simp

@[simp] theorem Lasting.keeps_placeTile (c x) :
    l₀.Keeps (s.placeTile c x).lasting ↔ l₀.Keeps s.lasting ∨ l₀.Kept (s.placeTile c x).lasting := by
  refine Lasting.Keeps.rule ?_
  unfold State.placeTile; split <;> simp [State.writeWords]

@[simp] theorem Lasting.keeps_unplaceTile (x) :
    l₀.Keeps (s.unplaceTile x).lasting ↔ l₀.Keeps s.lasting ∨ l₀.Kept (s.unplaceTile x).lasting := by
  refine Lasting.Keeps.rule ?_
  simp [State.unplaceTile, State.zeroWords]

@[simp] theorem Lasting.keeps_placeModel (p c base ts bs shadow) :
    l₀.Keeps (s.placeModel p c base ts bs shadow).lasting ↔
      l₀.Keeps s.lasting ∨ l₀.Kept (s.placeModel p c base ts bs shadow).lasting := by
  refine Lasting.Keeps.rule ?_
  unfold State.placeModel; split <;> simp

@[simp] theorem State.lasting_rangeRefuse (r) :
    (s.rangeRefuse r).1.lasting = s.lasting := by
  unfold State.rangeRefuse; split <;> simp

@[simp] theorem Lasting.keeps_loadModel (h keyOk tagsOk body) :
    l₀.Keeps (s.loadModel h keyOk tagsOk body).1.lasting ↔
      l₀.Keeps s.lasting ∨ l₀.Kept (s.loadModel h keyOk tagsOk body).1.lasting := by
  refine Lasting.Keeps.rule ?_
  unfold State.loadModel
  extract_lets p c bs refuse s0
  have hrefuse : ∀ t st, (refuse t st).1.lasting = t.lasting := fun _ _ => rfl
  clear_value refuse
  split
  · simp [hrefuse]
  · split
    · simp
    · split
      · simp [hrefuse]
      · split
        · rfl
        · have hhead := s.lasting_pkgRead p.pkgAddr 256
          generalize s.pkgRead p.pkgAddr 256 = head at hhead ⊢
          split
          next t hd ok0 =>
          extract_lets bodyLen len
          split
          · simp [hhead]
          · split
            · rfl
            · have hrest := t.lasting_pkgRead (p.pkgAddr + 256) (if ok0 then len - 256 else 0)
              generalize t.pkgRead (p.pkgAddr + 256) (if ok0 then len - 256 else 0) = rest at hrest ⊢
              split
              next u _ ok1 =>
              have hu : u.lasting = s.lasting := hrest.trans hhead
              dsimp only
              split
              · rw [hrefuse, hu]
              · split
                · rw [hrefuse, hu]
                · split
                  · rw [hrefuse, hu]
                  · split
                    · split
                      · rw [hrefuse, hu]
                      · simp [hu]
                    · simp [hrefuse, hu]
                    · rw [hrefuse, hu]
                    · simp [hu]

/-! ### The responder -/

@[simp] theorem State.lasting_showReleased (c) :
    (s.showReleased c).lasting = s.lasting := by
  simp [State.showReleased]

@[simp] theorem Lasting.keeps_tdispError (c) :
    l₀.Keeps (s.tdispError c).lasting ↔ l₀.Keeps s.lasting ∨ l₀.Kept (s.tdispError c).lasting := by
  refine Lasting.Keeps.rule ?_
  unfold State.tdispError; split <;> simp

@[simp] theorem Lasting.keeps_restoreLevees (c es) :
    l₀.Keeps (s.restoreLevees c es).lasting ↔ l₀.Keeps s.lasting ∨ l₀.Kept (s.restoreLevees c es).lasting := by
  refine Lasting.Keeps.rule ?_
  simp [State.restoreLevees]

@[simp] theorem Lasting.keeps_dropSession (i) :
    l₀.Keeps (s.dropSession i).lasting ↔ l₀.Keeps s.lasting ∨ l₀.Kept (s.dropSession i).lasting := by
  refine Lasting.Keeps.rule ?_
  simp [State.dropSession]

@[simp] theorem Lasting.keeps_tdispAt (r c) (k : State → State) (hk : ∀ t : State, t.lasting.Keeps (k t).lasting) :
    l₀.Keeps (s.tdispAt r c k).lasting ↔ l₀.Keeps s.lasting ∨ l₀.Kept (s.tdispAt r c k).lasting := by
  refine Lasting.Keeps.rule ?_
  unfold State.tdispAt; split <;> simp [(hk _).rule]

@[simp] theorem Lasting.keeps_lockIface (session c noFw) :
    l₀.Keeps (s.lockIface session c noFw).lasting ↔ l₀.Keeps s.lasting ∨ l₀.Kept (s.lockIface session c noFw).lasting := by
  refine Lasting.Keeps.rule ?_
  unfold State.lockIface; split <;> simp

@[simp] theorem Lasting.keeps_answer (r c) :
    l₀.Keeps (s.answer r c).lasting ↔ l₀.Keeps s.lasting ∨ l₀.Kept (s.answer r c).lasting := by
  refine Lasting.Keeps.rule ?_
  simp only [State.answer]; repeat' split
  all_goals simp [State.stopContext, State.putSession]

@[simp] theorem State.lasting_notReady (token) :
    (s.notReady token).lasting = s.lasting := by
  unfold State.notReady; split <;> simp

@[simp] theorem Lasting.keeps_request (r c) :
    l₀.Keeps (s.request r c).lasting ↔ l₀.Keeps s.lasting ∨ l₀.Kept (s.request r c).lasting := by
  refine Lasting.Keeps.rule ?_
  unfold State.request; repeat' split
  all_goals simp [State.answerLater]

@[simp] theorem Lasting.keeps_respondHeld (r) :
    l₀.Keeps (s.respondHeld r).lasting ↔ l₀.Keeps s.lasting ∨ l₀.Kept (s.respondHeld r).lasting := by
  refine Lasting.Keeps.rule ?_
  unfold State.respondHeld; repeat' split
  all_goals simp

/-! ### Keys, messages and the owner -/

@[simp] theorem Lasting.keeps_writeResponse (b off cap plain) :
    l₀.Keeps (s.writeResponse b off cap plain).1.lasting ↔
      l₀.Keeps s.lasting ∨ l₀.Kept (s.writeResponse b off cap plain).1.lasting := by
  refine Lasting.Keeps.rule ?_
  simp [State.writeResponse]

@[simp] theorem Lasting.keeps_spdmMessage (h tagOk) :
    l₀.Keeps (s.spdmMessage h tagOk).1.lasting ↔ l₀.Keeps s.lasting ∨ l₀.Kept (s.spdmMessage h tagOk).1.lasting := by
  refine Lasting.Keeps.rule ?_
  unfold State.spdmMessage; split <;> simp

@[simp] theorem Lasting.keeps_spdmTemplate (src p tagOk) :
    l₀.Keeps (s.spdmTemplate src p tagOk).lasting ↔ l₀.Keeps s.lasting ∨ l₀.Kept (s.spdmTemplate src p tagOk).lasting := by
  refine Lasting.Keeps.rule ?_
  unfold State.spdmTemplate
  extract_lets t
  have ht : s.lasting.Keeps t.lasting := by simp [t]
  clear_value t
  split
  · exact ht
  · next h _ =>
    have hmade : s.lasting.Keeps (t.spdmMessage h tagOk).1.lasting := by simp [ht]
    split <;> next e => rw [e] at hmade; simpa using hmade

@[simp] theorem State.keepsIn_execSpdmMessage (src pkt tagOk) : s.KeepsIn (execSpdmMessage src pkt tagOk s) := by
  unfold execSpdmMessage; split <;> simp

@[simp] theorem State.lasting_setKeySlot (c i k) :
    (s.setKeySlot c i k).lasting = s.lasting := by
  simp [State.setKeySlot]

@[simp] theorem State.lasting_replaceKey (c i k) :
    (s.replaceKey c i k).lasting = s.lasting := by
  unfold State.replaceKey; split <;> simp

@[simp] theorem State.lasting_bindKey (h tagOk) :
    (s.bindKey h tagOk).1.lasting = s.lasting := by
  simp [State.bindKey]

@[simp] theorem State.lasting_installKey (h tagOk) :
    (s.installKey h tagOk).1.lasting = s.lasting := by
  simp [State.installKey]

@[simp] theorem State.lasting_showOwner :
    s.showOwner.lasting = s.lasting := by simp [State.showOwner]

/-! ### Loads and stores -/

@[simp] theorem State.lasting_readReg (who r o n) :
    (s.readReg who r o n).1.lasting = s.lasting := by
  unfold State.readReg; split <;> simp

@[simp] theorem State.lasting_afterStore (r lanes) :
    (s.afterStore r lanes).lasting = s.lasting := by
  unfold State.afterStore
  rw [← List.foldl_reverse]
  refine State.lasting_foldl _ (fun t u => ?_) _ _
  split
  · split <;> simp
  · split <;> simp
  · rfl

@[simp] theorem State.lasting_plainStore (r rw lanes data) :
    (s.plainStore r rw lanes data).lasting = s.lasting := by
  simp [State.plainStore]

@[simp] theorem State.lasting_consumed (r rhead) :
    (s.consumed r rhead).lasting = s.lasting := by
  unfold State.consumed; split <;> simp

@[simp] theorem State.lasting_nextSupply :
    s.nextSupply.lasting = s.lasting := by
  unfold State.nextSupply; split <;> simp

@[simp] theorem State.lasting_supplyFailed :
    s.supplyFailed.lasting = s.lasting := by
  simp only [State.supplyFailed]; repeat' split
  all_goals simp

@[simp] theorem State.lasting_grantStore (lanes data) :
    (s.grantStore lanes data).lasting = s.lasting := by
  simp only [State.grantStore]; repeat' split
  all_goals simp

@[simp] theorem State.lasting_keeperStore (src a low) :
    (s.keeperStore src a low).lasting = s.lasting := by
  unfold State.keeperStore; split <;> simp

@[simp] theorem State.lasting_remapStore (b k e v) :
    (s.remapStore b k e v).lasting = s.lasting := by
  simp [State.remapStore]

@[simp] theorem State.lasting_spareStore (b i st logical) :
    (s.spareStore b i st logical).lasting = s.lasting := by
  simp [State.spareStore]

@[simp] theorem State.lasting_rosogStore (r lanes data src a) :
    (s.rosogStore r lanes data src a).lasting = s.lasting := by
  unfold State.rosogStore; split <;> simp [State.spareMapStore]

@[simp] theorem State.lasting_writeReg (who machine r o n data) :
    (s.writeReg who machine r o n data).lasting = s.lasting := by
  unfold State.writeReg; repeat' split
  all_goals simp [State.doorbell]

@[simp] theorem Lasting.keeps_descStore (who b d o n bs) :
    l₀.Keeps (s.descStore who b d o n bs).lasting ↔ l₀.Keeps s.lasting ∨ l₀.Kept (s.descStore who b d o n bs).lasting := by
  refine Lasting.Keeps.rule ?_
  unfold State.descStore; split <;> simp

@[simp] theorem State.lasting_openBytes (n) :
    (s.openBytes n).1.lasting = s.lasting := by
  simp [State.openBytes]

@[simp] theorem State.lasting_loadAt (who pl n) :
    (s.loadAt who pl n).1.lasting = s.lasting := by
  unfold State.loadAt; split <;> simp

@[simp] theorem Lasting.keeps_storeAt (who machine pl bs) :
    l₀.Keeps (s.storeAt who machine pl bs).lasting ↔ l₀.Keeps s.lasting ∨ l₀.Kept (s.storeAt who machine pl bs).lasting := by
  refine Lasting.Keeps.rule ?_
  unfold State.storeAt; split <;> simp [State.gaugeStore]

@[simp] theorem State.lasting_mapLoad (who a n) :
    (s.mapLoad who a n).1.lasting = s.lasting := by
  simp only [State.mapLoad]; repeat' split
  all_goals simp

@[simp] theorem Lasting.keeps_mapStore (who machine a bs) :
    l₀.Keeps (s.mapStore who machine a bs).lasting ↔ l₀.Keeps s.lasting ∨ l₀.Kept (s.mapStore who machine a bs).lasting := by
  refine Lasting.Keeps.rule ?_
  simp only [State.mapStore]; repeat' split
  all_goals simp

@[simp] theorem State.lasting_coreLoad (k a n) :
    (s.coreLoad k a n).1.lasting = s.lasting := by
  unfold State.coreLoad; repeat' split
  all_goals simp

@[simp] theorem Lasting.keeps_coreStore (machine a bs) :
    l₀.Keeps (s.coreStore machine a bs).lasting ↔ l₀.Keeps s.lasting ∨ l₀.Kept (s.coreStore machine a bs).lasting := by
  refine Lasting.Keeps.rule ?_
  unfold State.coreStore; repeat' split
  all_goals simp

@[simp] theorem Lasting.keeps_conditional (a bs) :
    l₀.Keeps (s.conditional a bs).lasting ↔ l₀.Keeps s.lasting ∨ l₀.Kept (s.conditional a bs).lasting := by
  refine Lasting.Keeps.rule ?_
  unfold State.conditional; split <;> simp

@[simp] theorem State.lasting_siteLoad (who a n) :
    (s.siteLoad who a n).1.lasting = s.lasting := by
  unfold State.siteLoad; repeat' split
  all_goals simp [State.reserve]

@[simp] theorem Lasting.keeps_siteStore (who machine a bs) :
    l₀.Keeps (s.siteStore who machine a bs).lasting ↔ l₀.Keeps s.lasting ∨ l₀.Kept (s.siteStore who machine a bs).lasting := by
  refine Lasting.Keeps.rule ?_
  unfold State.siteStore; repeat' split
  all_goals simp

@[simp] theorem Lasting.keeps_storeReg (who machine r v) :
    l₀.Keeps (s.storeReg who machine r v).lasting ↔ l₀.Keeps s.lasting ∨ l₀.Kept (s.storeReg who machine r v).lasting := by
  refine Lasting.Keeps.rule ?_
  simp [State.storeReg]

@[simp] theorem Lasting.keeps_memoryReady (who b off n write) :
    l₀.Keeps (s.memoryReady who b off n write).1.lasting ↔
      l₀.Keeps s.lasting ∨ l₀.Kept (s.memoryReady who b off n write).1.lasting := by
  refine Lasting.Keeps.rule ?_
  unfold State.memoryReady; split <;> simp [State.headgateBeat]

@[simp] theorem Lasting.keeps_accessReady (who a n write) :
    l₀.Keeps (s.accessReady who a n write).1.lasting ↔
      l₀.Keeps s.lasting ∨ l₀.Kept (s.accessReady who a n write).1.lasting := by
  refine Lasting.Keeps.rule ?_
  unfold State.accessReady; repeat' split
  all_goals simp

@[simp] theorem State.lasting_wakeByAccess (who a n write) :
    (s.wakeByAccess who a n write).lasting = s.lasting := by
  unfold State.wakeByAccess; repeat' split
  all_goals simp

@[simp] theorem State.keepsIn_execRegisterWrite (who addr size data) :
    s.KeepsIn (execRegisterWrite who addr size data s) := by
  unfold execRegisterWrite; split <;> simp

@[simp] theorem State.lasting_fenceI :
    s.fenceI.lasting = s.lasting := by simp [State.fenceI]

@[simp] theorem State.keepsIn_execCtlRemapWrite (who machineMode data fenceI) :
    s.KeepsIn (execCtlRemapWrite who machineMode data fenceI s) := by
  unfold execCtlRemapWrite; split <;> simp

@[simp] theorem State.keepsIn_execRegCfgWrite (who addr data) : s.KeepsIn (execRegCfgWrite who addr data s) := by
  unfold execRegCfgWrite; split <;> simp

@[simp] theorem State.keepsIn_execRegionTableWrite (who n half data) :
    s.KeepsIn (execRegionTableWrite who n half data s) := by
  unfold execRegionTableWrite; split <;> simp

@[simp] theorem State.keepsIn_execLeveeWrite (who b n half data) :
    s.KeepsIn (execLeveeWrite who b n half data s) := by
  unfold execLeveeWrite; split <;> simp

/-! ### Rows and banks replaced -/

@[simp] theorem State.lasting_moveRow (b pb row) :
    (s.moveRow b pb row).lasting = s.lasting := by
  simp [State.moveRow]

@[simp] theorem State.lasting_copyRow (c t last) :
    (s.copyRow c t last).lasting = s.lasting := by
  simp [State.copyRow]

@[simp] theorem Lasting.keeps_copierWrites :
    l₀.Keeps s.copierWrites.lasting ↔ l₀.Keeps s.lasting ∨ l₀.Kept s.copierWrites.lasting := by
  refine Lasting.Keeps.rule ?_
  simp [State.copierWrites]

@[simp] theorem State.keepsIn_execSpareCopierRead (b i) : s.KeepsIn (execSpareCopierRead b i s) := by
  unfold execSpareCopierRead; split <;> simp

@[simp] theorem State.keepsIn_execSpareBankActive (b i) : s.KeepsIn (execSpareBankActive b i s) := by
  unfold execSpareBankActive; split <;> simp

end Sys2Proof.Machine
end

section
set_option Elab.async false -- the whole text is compiled in one process, within a fixed memory
/-! SUPPORT. What lasts under siphons, faults, tests, links, power, starts and the headgate. -/

namespace Sys2Proof.Machine

variable (l₀ : Lasting) (s : State)

/-! ### Siphons at work -/

@[simp] theorem Lasting.keeps_perform (i q fail1 fail2) :
    l₀.Keeps (s.perform i q fail1 fail2).lasting ↔ l₀.Keeps s.lasting ∨ l₀.Kept (s.perform i q fail1 fail2).lasting := by
  refine Lasting.Keeps.rule ?_
  simp [State.perform]

@[simp] theorem State.lasting_enqueue (i who b qos block write) :
    (s.enqueue i who b qos block write).lasting = s.lasting := by
  simp [State.enqueue]

@[simp] theorem State.lasting_grantBlock (i) :
    (s.grantBlock i).lasting = s.lasting := by
  simp only [State.grantBlock]; split <;> simp

@[simp] theorem State.lasting_grantOnce (i) :
    (s.grantOnce i).lasting = s.lasting := by
  unfold State.grantOnce; split <;> simp

@[simp] theorem State.lasting_grantBlocks :
    s.grantBlocks.lasting = s.lasting := by
  simp [State.grantBlocks]

@[simp] theorem State.keepsIn_execSiphonRequest (i who block write) :
    s.KeepsIn (execSiphonRequest i who block write s) := by
  unfold execSiphonRequest; repeat' split
  all_goals simp

@[simp] theorem State.keepsIn_execSiphonBlockRead (i block fail1 fail2 mapLost) :
    s.KeepsIn (execSiphonBlockRead i block fail1 fail2 mapLost s) := by
  simp only [execSiphonBlockRead]; repeat' split
  all_goals simp

@[simp] theorem State.keepsIn_execSiphonBlockWrite (i block offset data) :
    s.KeepsIn (execSiphonBlockWrite i block offset data s) := by
  unfold execSiphonBlockWrite; split <;> simp

@[simp] theorem State.keepsIn_execCombinerFlush (i page) : s.KeepsIn (execCombinerFlush i page s) := by
  unfold execCombinerFlush; split <;> simp

@[simp] theorem State.lasting_patrolLap (i) :
    (s.patrolLap i).lasting = s.lasting := by
  simp [State.patrolLap]

@[simp] theorem State.lasting_patrolBlock (i block correction fail1 fail2) :
    (s.patrolBlock i block correction fail1 fail2).lasting = s.lasting := by
  simp [State.patrolBlock]

@[simp] theorem State.lasting_patrolOn (i correction fail1 fail2) :
    (s.patrolOn i correction fail1 fail2).lasting = s.lasting := by
  unfold State.patrolOn
  extract_lets found
  have hfound : ∀ t n, found = some (t, n) → t.lasting = s.lasting := by
    intro t n h
    simp only [found] at h
    split at h
    · cases h
      rfl
    · obtain ⟨m, -, e⟩ := Option.map_eq_some_iff.mp h
      cases e
      simp
  clear_value found
  split
  · rfl
  · next t n =>
    have ht := hfound t n rfl
    simp [ht]

@[simp] theorem State.keepsIn_execRefreshSlot (i temp onDieCorrection fail1 fail2) :
    s.KeepsIn (execRefreshSlot i temp onDieCorrection fail1 fail2 s) := by
  unfold execRefreshSlot; split <;> simp

@[simp] theorem Lasting.keeps_writeShadows (u l) :
    l₀.Keeps (s.writeShadows u l).lasting ↔ l₀.Keeps s.lasting ∨ l₀.Kept (s.writeShadows u l).lasting := by
  refine Lasting.Keeps.rule ?_
  induction l generalizing s u with
  | nil => rfl
  | cons x l ih =>
    obtain ⟨b, d, v, bs⟩ := x
    have hone : ∀ a data v' p, s.lasting.Keeps
        ({ (s.stackWrite a data).putDesc b d v' with placements := p } : State).lasting := by
      simp
    rw [State.writeShadows]
    exact (hone _ _ _ _).trans (ih _ _)

@[simp] theorem Lasting.keeps_reshadow (c ts) :
    l₀.Keeps (s.reshadow c ts).lasting ↔ l₀.Keeps s.lasting ∨ l₀.Kept (s.reshadow c ts).lasting := by
  refine Lasting.Keeps.rule ?_
  simp only [State.reshadow]; repeat' split
  all_goals simp

@[simp] theorem Lasting.keeps_reshadowOn :
    l₀.Keeps s.reshadowOn.lasting ↔ l₀.Keeps s.lasting ∨ l₀.Kept s.reshadowOn.lasting := by
  refine Lasting.Keeps.rule ?_
  unfold State.reshadowOn; split <;> simp

@[simp] theorem Lasting.keeps_siphonOut (i) :
    l₀.Keeps (s.siphonOut i).lasting ↔ l₀.Keeps s.lasting ∨ l₀.Kept (s.siphonOut i).lasting := by
  refine Lasting.Keeps.rule ?_
  unfold State.siphonOut; split <;> simp

@[simp] theorem State.keepsIn_execSiphonOutOfService (i) : s.KeepsIn (execSiphonOutOfService i s) := by
  unfold execSiphonOutOfService; split <;> simp

@[simp] theorem Lasting.keeps_retireLane (i lane) :
    l₀.Keeps (s.retireLane i lane).lasting ↔ l₀.Keeps s.lasting ∨ l₀.Kept (s.retireLane i lane).lasting := by
  refine Lasting.Keeps.rule ?_
  unfold State.retireLane; split <;> simp

@[simp] theorem Lasting.keeps_linkRound (i weak margin) :
    l₀.Keeps (s.linkRound i weak margin).lasting ↔ l₀.Keeps s.lasting ∨ l₀.Kept (s.linkRound i weak margin).lasting := by
  refine Lasting.Keeps.rule ?_
  simp [State.linkRound]

@[simp] theorem State.keepsIn_execLinkCalibration (i weak margin) :
    s.KeepsIn (execLinkCalibration i weak margin s) := by
  unfold execLinkCalibration; split <;> simp

/-! ### Faults and their actions -/

@[simp] theorem State.lasting_keepBasin (b done) :
    (s.keepBasin b done).lasting = s.lasting := by
  simp [State.keepBasin]

@[simp] theorem State.lasting_setPending (b kind u loc) :
    (s.setPending b kind u loc).lasting = s.lasting := by
  unfold State.setPending; split <;> simp

@[simp] theorem State.lasting_checkPending (b kind u) :
    (s.checkPending b kind u).lasting = s.lasting := by
  unfold State.checkPending; split <;> simp

@[simp] theorem State.lasting_markRetired (kind b u) :
    (s.markRetired kind b u).lasting = s.lasting := by
  simp [State.markRetired]

@[simp] theorem State.lasting_setMxe (b u furrow slot st) :
    (s.setMxe b u furrow slot st).lasting = s.lasting := by
  simp [State.setMxe]

@[simp] theorem State.lasting_retireMxe (b u) :
    (s.retireMxe b u).lasting = s.lasting := by
  simp only [State.retireMxe]; repeat' split
  all_goals simp

@[simp] theorem State.lasting_retireUnit (kind b u) :
    (s.retireUnit kind b u).lasting = s.lasting := by
  unfold State.retireUnit; split <;> simp

@[simp] theorem State.lasting_takeSlot (b furrow slot u spare st) :
    (s.takeSlot b furrow slot u spare st).lasting = s.lasting := by
  simp [State.takeSlot]

@[simp] theorem State.keepsIn_execSpareSubstitution (b furrow slot) :
    s.KeepsIn (execSpareSubstitution b furrow slot s) := by
  simp only [execSpareSubstitution]; repeat' split
  all_goals simp

@[simp] theorem State.lasting_bankFaulty (b pb row) :
    (s.bankFaulty b pb row).1.lasting = s.lasting := by
  simp only [State.bankFaulty]; repeat' split
  all_goals simp [State.startSpare]

@[simp] theorem State.lasting_actOnBank (b pb row rowBad bankBad) :
    (s.actOnBank b pb row rowBad bankBad).1.lasting = s.lasting := by
  unfold State.actOnBank; repeat' split
  all_goals simp [State.installRemap]

@[simp] theorem State.lasting_recordEvent (e action permanent) :
    (s.recordEvent e action permanent).lasting = s.lasting := by
  unfold State.recordEvent; split <;> simp

@[simp] theorem Lasting.keeps_rewriteLine (b j) :
    l₀.Keeps (s.rewriteLine b j).lasting ↔ l₀.Keeps s.lasting ∨ l₀.Kept (s.rewriteLine b j).lasting := by
  refine Lasting.Keeps.rule ?_
  unfold State.rewriteLine; split <;> simp

@[simp] theorem Lasting.keeps_lineEvent (e) :
    l₀.Keeps (s.lineEvent e).lasting ↔ l₀.Keeps s.lasting ∨ l₀.Kept (s.lineEvent e).lasting := by
  refine Lasting.Keeps.rule ?_
  unfold State.lineEvent; split <;> simp [State.rebuildDesc]

@[simp] theorem State.lasting_engineEvent (e) :
    (s.engineEvent e).lasting = s.lasting := by
  unfold State.engineEvent; split <;> simp

@[simp] theorem Lasting.keeps_siphonEventDone (e) :
    l₀.Keeps (s.siphonEventDone e).lasting ↔ l₀.Keeps s.lasting ∨ l₀.Kept (s.siphonEventDone e).lasting := by
  refine Lasting.Keeps.rule ?_
  unfold State.siphonEventDone; split <;> simp

@[simp] theorem Lasting.keeps_handleEvent (e) :
    l₀.Keeps (s.handleEvent e).lasting ↔ l₀.Keeps s.lasting ∨ l₀.Kept (s.handleEvent e).lasting := by
  refine Lasting.Keeps.rule ?_
  unfold State.handleEvent; split <;> simp [State.bankEvent]

@[simp] theorem State.keepsIn_execFaultEvent : s.KeepsIn (execFaultEvent s) := by
  unfold execFaultEvent; split <;> simp

@[simp] theorem Lasting.keeps_moveRing (r to_) :
    l₀.Keeps (s.moveRing r to_).lasting ↔ l₀.Keeps s.lasting ∨ l₀.Kept (s.moveRing r to_).lasting := by
  refine Lasting.Keeps.rule ?_
  unfold State.moveRing; split <;> simp

@[simp] theorem Lasting.keeps_moveRings (b) :
    l₀.Keeps (s.moveRings b).lasting ↔ l₀.Keeps s.lasting ∨ l₀.Kept (s.moveRings b).lasting := by
  refine (Lasting.Keeps.foldl (fun t k => ?_) _ s).rule
  split
  · split <;> simp
  · rfl

@[simp] theorem State.lasting_retireBasin (b failed) :
    (s.retireBasin b failed).lasting = s.lasting := by
  simp [State.retireBasin, State.dropBasin]

@[simp] theorem State.keepsIn_execBasinRetireComplete (b) : s.KeepsIn (execBasinRetireComplete b s) := by
  unfold execBasinRetireComplete; split <;> simp

@[simp] theorem Lasting.keeps_endFlights (fs st) :
    l₀.Keeps (s.endFlights fs st).lasting ↔ l₀.Keeps s.lasting ∨ l₀.Kept (s.endFlights fs st).lasting := by
  refine Lasting.Keeps.rule ?_
  unfold State.endFlights
  refine .trans ?_ (Lasting.Keeps.foldl (fun t f => ?_) _ _)
  · simp
  · split
    · simp
    · split <;> simp

@[simp] theorem Lasting.keeps_endBasin (b) :
    l₀.Keeps (s.endBasin b).lasting ↔ l₀.Keeps s.lasting ∨ l₀.Kept (s.endBasin b).lasting := by
  refine Lasting.Keeps.rule ?_
  simp [State.endBasin]

@[simp] theorem State.keepsIn_execBasinRetireImmediate (b fillOk) :
    s.KeepsIn (execBasinRetireImmediate b fillOk s) := by
  unfold execBasinRetireImmediate; split <;> simp

/-! ### Tests in the field -/

@[simp] theorem State.keepsIn_execShadowRestore (b) : s.KeepsIn (execShadowRestore b s) := by
  unfold execShadowRestore; split <;> simp

@[simp] theorem State.lasting_beginTest (kind b u held) :
    (s.beginTest kind b u held).lasting = s.lasting := by
  simp [State.beginTest]

@[simp] theorem State.lasting_forceTest (b u furrow slot) :
    (s.forceTest b u furrow slot).lasting = s.lasting := by
  simp [State.forceTest]

@[simp] theorem State.lasting_startMxeTest (b u) :
    (s.startMxeTest b u).lasting = s.lasting := by
  unfold State.startMxeTest; repeat' split
  all_goals simp

@[simp] theorem State.keepsIn_execInfieldTestStart (kind b u) : s.KeepsIn (execInfieldTestStart kind b u s) := by
  unfold execInfieldTestStart; split <;> simp

@[simp] theorem State.keepsIn_execTestForced (b u) : s.KeepsIn (execTestForced b u s) := by
  simp only [execTestForced]; split <;> simp

@[simp] theorem State.lasting_placeTested (kind b u pass held) :
    (s.placeTested kind b u pass held).lasting = s.lasting := by
  unfold State.placeTested; repeat' split
  all_goals simp

@[simp] theorem State.lasting_refillSlot (b held) :
    (s.refillSlot b held).lasting = s.lasting := by
  unfold State.refillSlot
  split
  · split
    · extract_lets t
      have ht : t.lasting = s.lasting := by simp [t]
      simpa using ht
    · rfl
  · rfl

@[simp] theorem State.keepsIn_execInfieldTestEnd (kind b u pass us) :
    s.KeepsIn (execInfieldTestEnd kind b u pass us s) := by
  simp only [execInfieldTestEnd]
  split
  · simp
  · rw [State.keepsIn_ok]
    refine .trans ?_ (Lasting.Keeps.foldl (fun t x => ?_) _ _)
    · simp
    · split <;> simp

@[simp] theorem State.lasting_testAsk (h) :
    (s.testAsk h).1.lasting = s.lasting := by
  simp only [State.testAsk]; repeat' split
  all_goals simp

/-! ### The test port -/

@[simp] theorem State.keepsIn_execJtagIdcode : s.KeepsIn (execJtagIdcode s) := by
  unfold execJtagIdcode; split <;> simp

@[simp] theorem State.keepsIn_execJtagBypass (tdi) : s.KeepsIn (execJtagBypass tdi s) := by
  unfold execJtagBypass; split <;> simp [Tap.bypass]

@[simp] theorem State.keepsIn_execJtagSamplePreload (bits) : s.KeepsIn (execJtagSamplePreload bits s) := by
  unfold execJtagSamplePreload; split <;> simp

/-- Pins are driven in reset, and there alone. -/
@[simp] theorem State.keepsIn_execJtagExtest (bits) : s.KeepsIn (execJtagExtest bits s) := by
  unfold execJtagExtest
  split
  · simp
  · split
    · next h =>
      rw [State.keepsIn_ok]
      exact ⟨rfl, rfl, fun _ e => e, fun _ _ => ⟨rfl, h⟩, fun e => e⟩
    · simp

@[simp] theorem State.keepsIn_execJtagIeee1687Access (write bits) :
    s.KeepsIn (execJtagIeee1687Access write bits s) := by
  unfold execJtagIeee1687Access; split <;> simp

/-! ### Culvert links -/

@[simp] theorem State.lasting_culEvent (c kind site job) :
    (s.culEvent c kind site job).lasting = s.lasting := by
  simp [State.culEvent]

@[simp] theorem State.lasting_discard (cu m) :
    (s.discard cu m).lasting = s.lasting := by
  simp [State.discard]

@[simp] theorem Lasting.keeps_arrives (cu m record tagOk) :
    l₀.Keeps (s.arrives cu m record tagOk).lasting ↔ l₀.Keeps s.lasting ∨ l₀.Kept (s.arrives cu m record tagOk).lasting := by
  refine Lasting.Keeps.rule ?_
  unfold State.arrives; repeat' split
  all_goals simp [State.land]

@[simp] theorem State.lasting_takeCredits (c xtag flits) :
    (s.takeCredits c xtag flits).lasting = s.lasting := by
  simp [State.takeCredits]

@[simp] theorem Lasting.keeps_tileAnswered (flight tile st) :
    l₀.Keeps (s.tileAnswered flight tile st).lasting ↔
      l₀.Keeps s.lasting ∨ l₀.Kept (s.tileAnswered flight tile st).lasting := by
  refine Lasting.Keeps.rule ?_
  unfold State.tileAnswered; split <;> simp

@[simp] theorem Lasting.keeps_endExchange (c e st) :
    l₀.Keeps (s.endExchange c e st).lasting ↔ l₀.Keeps s.lasting ∨ l₀.Kept (s.endExchange c e st).lasting := by
  refine Lasting.Keeps.rule ?_
  simp [State.endExchange]

@[simp] theorem State.keepsIn_execCulvertResponse (c xtag status) :
    s.KeepsIn (execCulvertResponse c xtag status s) := by
  unfold execCulvertResponse; repeat' split
  all_goals simp

@[simp] theorem State.keepsIn_execCulvertCreditReceived (c flits) :
    s.KeepsIn (execCulvertCreditReceived c flits s) := by
  unfold execCulvertCreditReceived; split <;> simp

@[simp] theorem State.keepsIn_execFlitReplay (c) : s.KeepsIn (execFlitReplay c s) := by
  unfold execFlitReplay; split <;> simp

@[simp] theorem State.lasting_trainingDone :
    s.trainingDone.lasting = s.lasting := by
  unfold State.trainingDone; split <;> simp

@[simp] theorem State.lasting_unfence :
    s.unfence.lasting = s.lasting := by
  unfold State.unfence; split <;> simp [State.trainCulverts]

@[simp] theorem Lasting.keeps_dropExchanges (c) :
    l₀.Keeps (s.dropExchanges c).lasting ↔ l₀.Keeps s.lasting ∨ l₀.Kept (s.dropExchanges c).lasting := by
  refine Lasting.Keeps.rule ?_
  simp [State.dropExchanges]

@[simp] theorem Lasting.keeps_dropUnsent (c) :
    l₀.Keeps (s.dropUnsent c).lasting ↔ l₀.Keeps s.lasting ∨ l₀.Kept (s.dropUnsent c).lasting := by
  refine Lasting.Keeps.rule ?_
  simp [State.dropUnsent]

@[simp] theorem Lasting.keeps_fence :
    l₀.Keeps s.fence.lasting ↔ l₀.Keeps s.lasting ∨ l₀.Kept s.fence.lasting := by
  refine Lasting.Keeps.rule ?_
  simp [State.fence]

@[simp] theorem State.lasting_fenced :
    s.fenced.lasting = s.lasting := by simp [State.fenced]

@[simp] theorem State.keepsIn_execFenceComplete : s.KeepsIn (execFenceComplete s) := by
  unfold execFenceComplete; split <;> simp

@[simp] theorem State.keepsIn_execFenceTimeout : s.KeepsIn (execFenceTimeout s) := by
  unfold execFenceTimeout; split <;> simp

@[simp] theorem State.keepsIn_execCulvertTrained (c ok_) : s.KeepsIn (execCulvertTrained c ok_ s) := by
  unfold execCulvertTrained; split <;> simp

@[simp] theorem State.keepsIn_execCulvertLaneFail (c outbound) : s.KeepsIn (execCulvertLaneFail c outbound s) := by
  unfold execCulvertLaneFail; split <;> simp

/-! ### Power management -/

@[simp] theorem State.lasting_thermalDuty (r want) :
    (s.thermalDuty r want).1.lasting = s.lasting := by
  unfold State.thermalDuty; split <;> simp

@[simp] theorem State.lasting_marginExpire :
    s.marginExpire.lasting = s.lasting := by
  unfold State.marginExpire; split <;> simp

@[simp] theorem State.lasting_sample (r) :
    (s.sample r).lasting = s.lasting := by simp [State.sample]

@[simp] theorem State.keepsIn_execPowerSample (r) : s.KeepsIn (execPowerSample r s) := by
  unfold execPowerSample; split <;> simp

@[simp] theorem State.lasting_setDiv (div) :
    (s.setDiv div).lasting = s.lasting := by
  unfold State.setDiv; split <;> simp

@[simp] theorem State.lasting_switchDiv :
    s.switchDiv.lasting = s.lasting := by
  unfold State.switchDiv; split <;> simp [State.putDiv]

@[simp] theorem State.lasting_faster :
    s.faster.lasting = s.lasting := by
  unfold State.faster; split <;> simp

@[simp] theorem State.lasting_divRule (ds full predicted) :
    (s.divRule ds full predicted).lasting = s.lasting := by
  unfold State.divRule; split <;> simp [State.slower]

@[simp] theorem State.lasting_publish (ds full) :
    (s.publish ds full).lasting = s.lasting := by
  unfold State.publish; split <;> simp

@[simp] theorem State.lasting_average (n) :
    (s.average n).lasting = s.lasting := by
  unfold State.average; split <;> simp

@[simp] theorem State.lasting_msUpdate (predicted) :
    (s.msUpdate predicted).lasting = s.lasting := by
  unfold State.msUpdate; split <;> simp

@[simp] theorem State.keepsIn_execPowerMsUpdate (predicted) : s.KeepsIn (execPowerMsUpdate predicted s) := by
  unfold execPowerMsUpdate; split <;> simp

@[simp] theorem Lasting.keeps_settled :
    l₀.Keeps s.settled.lasting ↔ l₀.Keeps s.lasting ∨ l₀.Kept s.settled.lasting := by
  refine Lasting.Keeps.rule ?_
  simp only [State.settled]; repeat' split
  all_goals simp

@[simp] theorem State.keepsIn_execSupplySettled : s.KeepsIn (execSupplySettled s) := by
  unfold execSupplySettled; split <;> simp

@[simp] theorem State.keepsIn_execVreqTimeout : s.KeepsIn (execVreqTimeout s) := by
  unfold execVreqTimeout; split <;> simp

@[simp] theorem State.keepsIn_execKeeperReady : s.KeepsIn (execKeeperReady s) := by
  unfold execKeeperReady; split <;> simp

@[simp] theorem State.keepsIn_execThermalTrip : s.KeepsIn (execThermalTrip s) := by
  unfold execThermalTrip; split <;> simp

@[simp] theorem State.keepsIn_execThermalTripRelease : s.KeepsIn (execThermalTripRelease s) := by
  unfold execThermalTripRelease; split <;> simp

@[simp] theorem State.lasting_canaryError :
    s.canaryError.lasting = s.lasting := by
  simp [State.canaryError]

@[simp] theorem State.lasting_dueCanaries :
    s.dueCanaries.lasting = s.lasting := by
  simp [State.dueCanaries]

@[simp] theorem State.keepsIn_execCanaryCheck (errors) : s.KeepsIn (execCanaryCheck errors s) := by
  unfold execCanaryCheck; split <;> simp

@[simp] theorem State.keepsIn_execMarginStep : s.KeepsIn (execMarginStep s) := by
  unfold execMarginStep; split <;> simp

/-! ### Starts -/

@[simp] theorem State.lasting_showStep (k) :
    (s.showStep k).lasting = s.lasting := by
  simp [State.showStep]

@[simp] theorem State.lasting_openStart :
    s.openStart.lasting = s.lasting := by simp [State.openStart]

@[simp] theorem State.lasting_enterFuses :
    s.enterFuses.lasting = s.lasting := by
  simp [State.enterFuses]

@[simp] theorem Cistern.revoked_firstUse (c : Cistern) : c.firstUse.revoked = c.revoked := rfl

@[simp] theorem State.lasting_fromCistern : s.fromCistern.lasting = s.lasting := by
  unfold State.fromCistern
  extract_lets c seq t u
  have hc : c.revoked = s.cistern.revoked := by
    simp only [c]
    split <;> rfl
  have hu : u.lasting = s.lasting := by simp only [u, t, State.lasting_putReg, State.lasting_mk, hc, State.lasting_eta]
  split
  · exact hu
  · exact hu

@[simp] theorem State.lasting_enterBoot :
    s.enterBoot.lasting = s.lasting := by simp [State.enterBoot]

@[simp] theorem State.lasting_enterStep (k) :
    (s.enterStep k).lasting = s.lasting := by
  simp [State.enterStep, State.showStep]

@[simp] theorem State.lasting_enterAlwaysOn :
    s.enterAlwaysOn.lasting = s.lasting := by
  simp [State.enterAlwaysOn]

@[simp] theorem State.lasting_steadyClock :
    s.steadyClock.lasting = s.lasting := by
  unfold State.steadyClock; split <;> simp

@[simp] theorem Lasting.keeps_restart (keep st) :
    l₀.Keeps (s.restart keep st).lasting ↔ l₀.Keeps s.lasting ∨ l₀.Kept (s.restart keep st).lasting := by
  refine Lasting.Keeps.rule ?_
  simp [State.restart, State.dropRequest]

@[simp] theorem Lasting.keeps_restartCold (cause) :
    l₀.Keeps (s.restartCold cause).lasting ↔ l₀.Keeps s.lasting ∨ l₀.Kept (s.restartCold cause).lasting := by
  refine Lasting.Keeps.rule ?_
  simp [State.restartCold]

@[simp] theorem State.keepsIn_execPowerGoodRise : s.KeepsIn (execPowerGoodRise s) := by
  unfold execPowerGoodRise; split <;> simp

@[simp] theorem State.keepsIn_execPowerGoodFall : s.KeepsIn (execPowerGoodFall s) := by
  unfold execPowerGoodFall; split <;> simp [Tap.rest]

@[simp] theorem State.keepsIn_execClockLoss : s.KeepsIn (execClockLoss s) := by
  unfold execClockLoss; split <;> simp

@[simp] theorem State.keepsIn_execClockRestart : s.KeepsIn (execClockRestart s) := by
  unfold execClockRestart; split <;> simp

@[simp] theorem State.keepsIn_execKeeperBrownOut : s.KeepsIn (execKeeperBrownOut s) := by
  unfold execKeeperBrownOut; split <;> simp

@[simp] theorem Lasting.keeps_retestNow :
    l₀.Keeps s.retestNow.lasting ↔ l₀.Keeps s.lasting ∨ l₀.Kept s.retestNow.lasting := by
  refine Lasting.Keeps.rule ?_
  simp [State.retestNow]

@[simp] theorem Lasting.keeps_dryWake :
    l₀.Keeps s.dryWake.lasting ↔ l₀.Keeps s.lasting ∨ l₀.Kept s.dryWake.lasting := by
  refine Lasting.Keeps.rule ?_
  simp [State.dryWake]

@[simp] theorem Cistern.revoked_writeBoot (c : Cistern) (slotB pending) : (c.writeBoot slotB pending).revoked = c.revoked := rfl

@[simp] theorem State.lasting_setActive (b) :
    (s.setActive b).lasting = s.lasting := by
  simp [State.setActive]

@[simp] theorem State.lasting_markCopy (pending) :
    (s.markCopy pending).lasting = s.lasting := by
  unfold State.markCopy; split <;> simp

@[simp] theorem State.lasting_putSlot (b x) :
    (s.putSlot b x).lasting = s.lasting := by
  unfold State.putSlot; split <;> simp

@[simp] theorem State.lasting_emptyStaging :
    s.emptyStaging.lasting = s.lasting := by
  simp [State.emptyStaging]

@[simp] theorem State.lasting_fwFail :
    s.fwFail.lasting = s.lasting := by simp [State.fwFail]

@[simp] theorem State.lasting_copyAtStart (verified) :
    (s.copyAtStart verified).lasting = s.lasting := by
  unfold State.copyAtStart; repeat' split
  all_goals simp

@[simp] theorem State.lasting_showImage :
    s.showImage.lasting = s.lasting := by simp [State.showImage]

@[simp] theorem Lasting.keeps_fillCheck (b c) :
    l₀.Keeps (s.fillCheck b c).lasting ↔ l₀.Keeps s.lasting ∨ l₀.Kept (s.fillCheck b c).lasting := by
  refine Lasting.Keeps.rule ?_
  simp [State.fillCheck]

@[simp] theorem Lasting.keeps_boot (r) :
    l₀.Keeps (s.boot r).lasting ↔ l₀.Keeps s.lasting ∨ l₀.Kept (s.boot r).lasting := by
  refine Lasting.Keeps.rule ?_
  simp only [State.boot]; split <;> simp [State.rampBanks]

@[simp] theorem State.lasting_finishSpares (b) :
    (s.finishSpares b).lasting = s.lasting := by
  simp [State.finishSpares]

@[simp] theorem State.lasting_noteStartFault (kind b u cls action row) :
    (s.noteStartFault kind b u cls action row).lasting = s.lasting := by
  simp [State.noteStartFault]

@[simp] theorem State.lasting_loseBasin (b) :
    (s.loseBasin b).lasting = s.lasting := by
  simp [State.loseBasin]

@[simp] theorem State.lasting_basinOut (b) :
    (s.basinOut b).lasting = s.lasting := by
  unfold State.basinOut; split <;> simp

@[simp] theorem State.lasting_startBank (b pb) :
    (s.startBank b pb).lasting = s.lasting := by
  simp only [State.startBank]; repeat' split
  all_goals simp

@[simp] theorem State.lasting_startRow (b pb row) :
    (s.startRow b pb row).lasting = s.lasting := by
  unfold State.startRow; split <;> simp

@[simp] theorem State.lasting_placeMxe (b u) :
    (s.placeMxe b u).lasting = s.lasting := by
  unfold State.placeMxe; repeat' split
  all_goals simp

@[simp] theorem State.lasting_failUnit (kind b u) :
    (s.failUnit kind b u).lasting = s.lasting := by
  unfold State.failUnit; split <;> simp

@[simp] theorem State.lasting_placeRetired :
    s.placeRetired.lasting = s.lasting := by
  unfold State.placeRetired
  refine State.lasting_foldl _ (fun t u => ?_) _ _
  split
  · rfl
  · split <;> simp

@[simp] theorem State.lasting_loseEmpty :
    s.loseEmpty.lasting = s.lasting := by simp [State.loseEmpty]

@[simp] theorem State.lasting_startSiphonOut (i) :
    (s.startSiphonOut i).lasting = s.lasting := by
  simp [State.startSiphonOut]

@[simp] theorem State.lasting_startCulvertOut (c) :
    (s.startCulvertOut c).lasting = s.lasting := by
  unfold State.startCulvertOut; split <;> simp

@[simp] theorem Lasting.keeps_startLane (x) :
    l₀.Keeps (s.startLane x).lasting ↔ l₀.Keeps s.lasting ∨ l₀.Kept (s.startLane x).lasting := by
  refine Lasting.Keeps.rule ?_
  unfold State.startLane; split <;> simp

@[simp] theorem Lasting.keeps_startLinks (r) :
    l₀.Keeps (s.startLinks r).lasting ↔ l₀.Keeps s.lasting ∨ l₀.Kept (s.startLinks r).lasting := by
  refine Lasting.Keeps.rule ?_
  simp [State.startLinks]

@[simp] theorem State.lasting_completeRetirements :
    s.completeRetirements.lasting = s.lasting := by
  simp [State.completeRetirements]

@[simp] theorem State.lasting_pendEmpty :
    s.pendEmpty.lasting = s.lasting := by
  unfold State.pendEmpty
  refine State.lasting_foldl _ (fun t b => ?_) _ _
  split <;> simp

@[simp] theorem Lasting.keeps_selfTest (r) :
    l₀.Keeps (s.selfTest r).lasting ↔ l₀.Keeps s.lasting ∨ l₀.Kept (s.selfTest r).lasting := by
  refine Lasting.Keeps.rule ?_
  simp only [State.selfTest]; split <;> simp [State.verdicts]

@[simp] theorem State.lasting_loadTrims :
    s.loadTrims.lasting = s.lasting := by simp [State.loadTrims]

@[simp] theorem State.lasting_storeTrims :
    s.storeTrims.lasting = s.lasting := by
  simp [State.storeTrims]

@[simp] theorem Lasting.keeps_calibrate (r) :
    l₀.Keeps (s.calibrate r).lasting ↔ l₀.Keeps s.lasting ∨ l₀.Kept (s.calibrate r).lasting := by
  refine Lasting.Keeps.rule ?_
  unfold State.calibrate
  extract_lets t u v
  have ht : t.lasting = s.lasting := by simp [t]
  have hu : t.lasting.Keeps u.lasting := by
    refine Lasting.Keeps.foldl (fun t i => ?_) _ _
    split <;> simp
  rw [ht] at hu
  simp [v, hu]

@[simp] theorem State.keepsIn_execStartStep (r) : s.KeepsIn (execStartStep r s) := by
  simp only [execStartStep]; repeat' split
  all_goals simp

@[simp] theorem State.keepsIn_execStartStepTimeout : s.KeepsIn (execStartStepTimeout s) := by
  unfold execStartStepTimeout; split <;> simp

@[simp] theorem State.lasting_hotJoin :
    s.hotJoin.lasting = s.lasting := by
  unfold State.hotJoin; split <;> simp

@[simp] theorem State.keepsIn_execRelease (ms) : s.KeepsIn (execRelease ms s) := by
  unfold execRelease; split <;> simp

/-! ### The headgate -/

@[simp] theorem State.lasting_hgTake (h) :
    (s.hgTake h).lasting = s.lasting := by simp [State.hgTake]

/-- A frame keeps what its execution keeps. -/
@[simp] theorem Lasting.keeps_hgFrame (typ h payload wellFormed) (run : State → State)
    (hk : ∀ t : State, t.lasting.Keeps (run t).lasting) :
    l₀.Keeps (s.hgFrame typ h payload wellFormed run).lasting ↔
      l₀.Keeps s.lasting ∨ l₀.Kept (s.hgFrame typ h payload wellFormed run).lasting := by
  refine Lasting.Keeps.rule ?_
  unfold State.hgFrame
  dsimp only
  split
  · rfl
  · simp only [State.lasting_ite, Lasting.keeps_ite]
    split
    · simp
    · split
      · simp
      · split <;> simp [(hk _).rule]

@[simp] theorem Lasting.keeps_debugMade (x) :
    l₀.Keeps (s.debugMade x).1.lasting ↔ l₀.Keeps s.lasting ∨ l₀.Kept (s.debugMade x).1.lasting := by
  refine Lasting.Keeps.rule ?_
  unfold State.debugMade; split <;> simp

@[simp] theorem Lasting.keeps_debugAsk (x) :
    l₀.Keeps (s.debugAsk x).lasting ↔ l₀.Keeps s.lasting ∨ l₀.Kept (s.debugAsk x).lasting := by
  refine Lasting.Keeps.rule ?_
  have hmade := (s.lasting.keeps_debugMade s x).2 (.inl (.refl _))
  unfold State.debugAsk
  split
  · rfl
  · split <;> next e => rw [e] at hmade; simpa using hmade

@[simp] theorem Lasting.keeps_debugOn :
    l₀.Keeps s.debugOn.lasting ↔ l₀.Keeps s.lasting ∨ l₀.Kept s.debugOn.lasting := by
  refine Lasting.Keeps.rule ?_
  unfold State.debugOn
  split
  · rfl
  · next x _ _ =>
    have hmade := (s.lasting.keeps_debugMade s x).2 (.inl (.refl _))
    split <;> next e => rw [e] at hmade; simpa using hmade

@[simp] theorem State.keepsIn_execHgFetch (h) : s.KeepsIn (execHgFetch h s) := by
  simp only [execHgFetch]; repeat' split
  all_goals simp

@[simp] theorem State.lasting_hgReply (w o) :
    (s.hgReply w o).lasting = s.lasting := by
  simp [State.hgReply]

@[simp] theorem Lasting.keeps_serve (w) (k : State → HgFrame → State × Option Outcome)
    (hk : ∀ (t : State) h, t.lasting.Keeps (k t h).1.lasting) :
    l₀.Keeps (s.serve w k).lasting ↔ l₀.Keeps s.lasting ∨ l₀.Kept (s.serve w k).lasting := by
  refine Lasting.Keeps.rule ?_
  unfold State.serve
  split
  · simp
  · have hw := hk s w
    split <;> next h => rw [h] at hw; simpa using hw

@[simp] theorem Lasting.keeps_service (w) (k : State → HgFrame → State × Option Outcome)
    (hk : ∀ (t : State) h, t.lasting.Keeps (k t h).1.lasting) :
    l₀.Keeps (s.service w k).lasting ↔ l₀.Keeps s.lasting ∨ l₀.Kept (s.service w k).lasting := by
  refine l₀.keeps_hgFrame s _ _ _ _ _ fun t => ?_
  split
  · simp
  · simp [hk]

/-! ### Images, tokens and handovers -/

@[simp] theorem State.lasting_setReceived (n) :
    (s.setReceived n).lasting = s.lasting := by
  simp [State.setReceived]

@[simp] theorem State.lasting_noteFrame :
    s.noteFrame.lasting = s.lasting := by simp [State.noteFrame]

@[simp] theorem State.lasting_imgBeginAsk (w) :
    (s.imgBeginAsk w).1.lasting = s.lasting := by
  unfold State.imgBeginAsk
  extract_lets d x t c0 c
  have ht : t.lasting = s.lasting := by simp [t]
  split
  · exact ht
  · split
    · exact ht
    · clear_value t
      have hc : c.revoked = t.cistern.revoked := by simp [c, c0]
      clear_value c
      split_ifs <;> simp [hc, ht]

@[simp] theorem State.lasting_imgDataAsk (w) :
    (s.imgDataAsk w).1.lasting = s.lasting := by
  simp only [State.imgDataAsk]; split <;> simp

@[simp] theorem State.lasting_imgEndAsk (w) :
    (s.imgEndAsk w).1.lasting = s.lasting := by
  simp only [State.imgEndAsk]; repeat' split
  all_goals simp

@[simp] theorem State.lasting_imgVerdict (verified x) :
    (s.imgVerdict verified x).1.lasting = s.lasting := by
  unfold State.imgVerdict; split <;> simp

@[simp] theorem State.lasting_imgVerified :
    s.imgVerified.lasting = s.lasting := by
  unfold State.imgVerified; split <;> simp

@[simp] theorem State.lasting_imgAbortAsk (w) :
    (s.imgAbortAsk w).1.lasting = s.lasting := by
  unfold State.imgAbortAsk; split <;> simp

@[simp] theorem State.lasting_imgStatusAsk (w) :
    (s.imgStatusAsk w).1.lasting = s.lasting := by
  unfold State.imgStatusAsk; split <;> simp

@[simp] theorem State.lasting_handoverOn :
    s.handoverOn.lasting = s.lasting := by
  unfold State.handoverOn; split <;> simp [State.openWindow, State.closeWindow]

@[simp] theorem State.lasting_imgActivateAsk (w) :
    (s.imgActivateAsk w).1.lasting = s.lasting := by
  unfold State.imgActivateAsk; repeat' split
  all_goals simp

@[simp] theorem State.keepsIn_execHandoverPointTimeout : s.KeepsIn (execHandoverPointTimeout s) := by
  unfold execHandoverPointTimeout; split <;> simp

@[simp] theorem State.keepsIn_execBootSlotCopyDone (verified) : s.KeepsIn (execBootSlotCopyDone verified s) := by
  unfold execBootSlotCopyDone; split <;> simp

@[simp] theorem Lasting.keeps_partialStart (imageOk) :
    l₀.Keeps (s.partialStart imageOk).lasting ↔ l₀.Keeps s.lasting ∨ l₀.Kept (s.partialStart imageOk).lasting := by
  refine Lasting.Keeps.rule ?_
  simp [State.partialStart, State.setReceived]

@[simp] theorem State.lasting_handoverFailed :
    s.handoverFailed.lasting = s.lasting := by
  unfold State.handoverFailed; split <;> simp

@[simp] theorem Lasting.keeps_partialOn :
    l₀.Keeps s.partialOn.lasting ↔ l₀.Keeps s.lasting ∨ l₀.Kept s.partialOn.lasting := by
  refine Lasting.Keeps.rule ?_
  unfold State.partialOn; split <;> simp [State.partialEnd]

@[simp] theorem State.keepsIn_execControlWatchdog (imageOk) : s.KeepsIn (execControlWatchdog imageOk s) := by
  unfold execControlWatchdog; split <;> simp

@[simp] theorem State.keepsIn_execHandoverWatchdog (imageOk) : s.KeepsIn (execHandoverWatchdog imageOk s) := by
  unfold execHandoverWatchdog; split <;> simp

@[simp] theorem Lasting.keeps_partialResetAsk (w) :
    l₀.Keeps (s.partialResetAsk w).1.lasting ↔ l₀.Keeps s.lasting ∨ l₀.Kept (s.partialResetAsk w).1.lasting := by
  refine Lasting.Keeps.rule ?_
  unfold State.partialResetAsk; split <;> simp

@[simp] theorem State.lasting_nonceAsk (w) :
    (s.nonceAsk w).1.lasting = s.lasting := by
  unfold State.nonceAsk; split <;> simp

@[simp] theorem State.lasting_debugUnlock :
    s.debugUnlock.lasting = s.lasting := by
  simp [State.debugUnlock]

@[simp] theorem Lasting.keeps_tokenAsk (w) :
    l₀.Keeps (s.tokenAsk w).1.lasting ↔ l₀.Keeps s.lasting ∨ l₀.Kept (s.tokenAsk w).1.lasting := by
  refine Lasting.Keeps.rule ?_
  simp only [State.tokenAsk]; repeat' split
  all_goals simp [State.clearSummary]

@[simp] theorem Lasting.keeps_retestAsk (w) :
    l₀.Keeps (s.retestAsk w).1.lasting ↔ l₀.Keeps s.lasting ∨ l₀.Kept (s.retestAsk w).1.lasting := by
  refine Lasting.Keeps.rule ?_
  unfold State.retestAsk; split <;> simp

@[simp] theorem Lasting.keeps_serviceAsk (w) :
    l₀.Keeps (s.serviceAsk w).1.lasting ↔ l₀.Keeps s.lasting ∨ l₀.Kept (s.serviceAsk w).1.lasting := by
  refine Lasting.Keeps.rule ?_
  unfold State.serviceAsk; split <;> simp

@[simp] theorem Lasting.keeps_serveWaiting :
    l₀.Keeps s.serveWaiting.lasting ↔ l₀.Keeps s.lasting ∨ l₀.Kept s.serveWaiting.lasting := by
  refine Lasting.Keeps.rule ?_
  unfold State.serveWaiting; split <;> simp

end Sys2Proof.Machine
end

section
set_option Elab.async false -- the whole text is compiled in one process, within a fixed memory
/-! SUPPORT. What lasts under the management bus, repeats, SPDM, scrubs, watches and the idle cycle. -/

namespace Sys2Proof.Machine

variable (l₀ : Lasting) (s : State)

/-! ### The management bus -/

@[simp] theorem State.lasting_cccAnswer (data) :
    (s.cccAnswer data).lasting = s.lasting := by
  simp [State.cccAnswer]

@[simp] theorem State.lasting_cccNack :
    s.cccNack.lasting = s.lasting := by simp [State.cccNack]

@[simp] theorem State.keepsIn_execMgtRead (addr) : s.KeepsIn (execMgtRead addr s) := by
  unfold execMgtRead; split <;> simp

@[simp] theorem State.keepsIn_execMgtWrite (addr data) : s.KeepsIn (execMgtWrite addr data s) := by
  unfold execMgtWrite; split <;> simp

@[simp] theorem State.lasting_stateAnswer (st w0 w1) :
    (s.stateAnswer st w0 w1).lasting = s.lasting := by
  simp [State.stateAnswer]

@[simp] theorem State.lasting_stateRefuse (st) :
    (s.stateRefuse st).lasting = s.lasting := by
  simp [State.stateRefuse]

@[simp] theorem State.lasting_stateWake :
    s.stateWake.lasting = s.lasting := by simp [State.stateWake]

@[simp] theorem State.lasting_stateEnter (target) :
    (s.stateEnter target).lasting = s.lasting := by
  unfold State.stateEnter; repeat' split
  all_goals simp

@[simp] theorem Lasting.keeps_stateRetest :
    l₀.Keeps s.stateRetest.lasting ↔ l₀.Keeps s.lasting ∨ l₀.Kept s.stateRetest.lasting := by
  refine Lasting.Keeps.rule ?_
  unfold State.stateRetest; split <;> simp

@[simp] theorem State.lasting_stateCancel :
    s.stateCancel.lasting = s.lasting := by
  simp only [State.stateCancel]; repeat' split
  all_goals simp

@[simp] theorem State.keepsIn_execMgtState (arg) : s.KeepsIn (execMgtState arg s) := by
  unfold execMgtState; repeat' split
  all_goals simp

@[simp] theorem State.keepsIn_execMgtNonce : s.KeepsIn (execMgtNonce s) := by unfold execMgtNonce; split <;> simp

@[simp] theorem State.keepsIn_execMgtRole (hmac) : s.KeepsIn (execMgtRole hmac s) := by
  unfold execMgtRole; repeat' split
  all_goals simp

@[simp] theorem State.keepsIn_execAlertAck (mask) : s.KeepsIn (execAlertAck mask s) := by
  unfold execAlertAck; split <;> simp

@[simp] theorem State.keepsIn_execEntdaa (won addr) : s.KeepsIn (execEntdaa won addr s) := by
  unfold execEntdaa; split <;> simp

@[simp] theorem State.keepsIn_execSetdasa (static addr) : s.KeepsIn (execSetdasa static addr s) := by
  unfold execSetdasa; split <;> simp

@[simp] theorem State.keepsIn_execSetnewda (addr) : s.KeepsIn (execSetnewda addr s) := by
  unfold execSetnewda; split <;> simp

@[simp] theorem State.keepsIn_execRstdaa : s.KeepsIn (execRstdaa s) := by unfold execRstdaa; split <;> simp

@[simp] theorem State.keepsIn_execEnec (events) : s.KeepsIn (execEnec events s) := by
  unfold execEnec; split <;> simp

@[simp] theorem State.keepsIn_execDisec (events) : s.KeepsIn (execDisec events s) := by
  unfold execDisec; split <;> simp

@[simp] theorem State.keepsIn_execGetpid : s.KeepsIn (execGetpid s) := by unfold execGetpid; split <;> simp

@[simp] theorem State.keepsIn_execGetbcr : s.KeepsIn (execGetbcr s) := by unfold execGetbcr; split <;> simp

@[simp] theorem State.keepsIn_execGetdcr : s.KeepsIn (execGetdcr s) := by unfold execGetdcr; split <;> simp

@[simp] theorem State.keepsIn_execGetstatus : s.KeepsIn (execGetstatus s) := by
  unfold execGetstatus; split <;> simp

@[simp] theorem State.keepsIn_execGetmwl : s.KeepsIn (execGetmwl s) := by unfold execGetmwl; split <;> simp

@[simp] theorem State.keepsIn_execGetmrl : s.KeepsIn (execGetmrl s) := by unfold execGetmrl; split <;> simp

@[simp] theorem State.keepsIn_execSetmwl (len) : s.KeepsIn (execSetmwl len s) := by
  unfold execSetmwl; split <;> simp

@[simp] theorem State.keepsIn_execSetmrl (len) : s.KeepsIn (execSetmrl len s) := by
  unfold execSetmrl; split <;> simp

@[simp] theorem State.keepsIn_execUnsupportedCcc (_code) : s.KeepsIn (execUnsupportedCcc _code s) := by
  unfold execUnsupportedCcc; split <;> simp

@[simp] theorem State.keepsIn_execMgtBusReset : s.KeepsIn (execMgtBusReset s) := by
  unfold execMgtBusReset; split <;> simp

@[simp] theorem State.keepsIn_execMgtAddressMatchWake (addr) : s.KeepsIn (execMgtAddressMatchWake addr s) := by
  unfold execMgtAddressMatchWake; split <;> simp

/-! ### Repeats and writes that end -/

@[simp] theorem Lasting.keeps_endInternal (f lane) :
    l₀.Keeps (s.endInternal f lane).lasting ↔ l₀.Keeps s.lasting ∨ l₀.Kept (s.endInternal f lane).lasting := by
  refine Lasting.Keeps.rule ?_
  unfold State.endInternal; repeat' split
  all_goals simp

@[simp] theorem Lasting.keeps_postRepeat (f r pass) :
    l₀.Keeps (s.postRepeat f r pass).lasting ↔ l₀.Keeps s.lasting ∨ l₀.Kept (s.postRepeat f r pass).lasting := by
  refine Lasting.Keeps.rule ?_
  simp [State.postRepeat]

@[simp] theorem State.lasting_countMismatch (kind b u) :
    (s.countMismatch kind b u).lasting = s.lasting := by
  unfold State.countMismatch; split <;> simp

@[simp] theorem Lasting.keeps_mismatch (f idx lane place rows cols) :
    l₀.Keeps (s.mismatch f idx lane place rows cols).lasting ↔
      l₀.Keeps s.lasting ∨ l₀.Kept (s.mismatch f idx lane place rows cols).lasting := by
  refine Lasting.Keeps.rule ?_
  simp [State.mismatch, State.startRepeat]

@[simp] theorem Lasting.keeps_comparePass (f lane ws) :
    l₀.Keeps (s.comparePass f lane ws).lasting ↔ l₀.Keeps s.lasting ∨ l₀.Kept (s.comparePass f lane ws).lasting := by
  refine Lasting.Keeps.rule ?_
  simp only [State.comparePass]; split <;> simp [State.startReadout]

@[simp] theorem Lasting.keeps_compareBlock (f idx lane up) :
    l₀.Keeps (s.compareBlock f idx lane up).lasting ↔ l₀.Keeps s.lasting ∨ l₀.Kept (s.compareBlock f idx lane up).lasting := by
  refine Lasting.Keeps.rule ?_
  simp [State.compareBlock]

@[simp] theorem Lasting.keeps_compareNow (i) :
    l₀.Keeps (s.compareNow i).lasting ↔ l₀.Keeps s.lasting ∨ l₀.Kept (s.compareNow i).lasting := by
  refine Lasting.Keeps.rule ?_
  unfold State.compareNow; repeat' split
  all_goals simp

@[simp] theorem Lasting.keeps_compareAll :
    l₀.Keeps s.compareAll.lasting ↔ l₀.Keeps s.lasting ∨ l₀.Kept s.compareAll.lasting := by
  refine Lasting.Keeps.rule ?_
  unfold State.compareAll; split <;> simp

@[simp] theorem Lasting.keeps_readoutMismatch (f b d idx lane m wrong) :
    l₀.Keeps (s.readoutMismatch f b d idx lane m wrong).lasting ↔
      l₀.Keeps s.lasting ∨ l₀.Kept (s.readoutMismatch f b d idx lane m wrong).lasting := by
  refine Lasting.Keeps.rule ?_
  simp [State.readoutMismatch]

@[simp] theorem State.keepsIn_execTileClose (f wrong) : s.KeepsIn (execTileClose f wrong s) := by
  unfold execTileClose; repeat' split
  all_goals simp

@[simp] theorem State.keepsIn_execMxeRepeat (f lane up) : s.KeepsIn (execMxeRepeat f lane up s) := by
  unfold execMxeRepeat; repeat' split
  all_goals simp

@[simp] theorem State.keepsIn_execVxeRepeat (f vlane) : s.KeepsIn (execVxeRepeat f vlane s) := by
  unfold execVxeRepeat; repeat' split
  all_goals simp

@[simp] theorem State.keepsIn_execScreenRepeat (f) : s.KeepsIn (execScreenRepeat f s) := by
  unfold execScreenRepeat; repeat' split
  all_goals simp

/-! ### Commands of the riders -/

@[simp] theorem State.keepsIn_execRingFetch (ring) : s.KeepsIn (execRingFetch ring s) := by
  unfold execRingFetch; split <;> simp

@[simp] theorem State.keepsIn_execListFetch (b slot) : s.KeepsIn (execListFetch b slot s) := by
  unfold execListFetch; split <;> simp

@[simp] theorem Lasting.keeps_replyBeat (r) :
    l₀.Keeps (s.replyBeat r).1.lasting ↔ l₀.Keeps s.lasting ∨ l₀.Kept (s.replyBeat r).1.lasting := by
  refine Lasting.Keeps.rule ?_
  simp [State.replyBeat]

@[simp] theorem State.keepsIn_execAcceptedReply : s.KeepsIn (execAcceptedReply s) := by
  simp only [execAcceptedReply]; repeat' split
  all_goals simp

@[simp] theorem State.keepsIn_execReplyWrite (ring) : s.KeepsIn (execReplyWrite ring s) := by
  unfold execReplyWrite; split <;> simp

@[simp] theorem Lasting.keeps_retryHeld (i slot) :
    l₀.Keeps (s.retryHeld i slot).lasting ↔ l₀.Keeps s.lasting ∨ l₀.Kept (s.retryHeld i slot).lasting := by
  refine Lasting.Keeps.rule ?_
  unfold State.retryHeld; repeat' split
  all_goals simp

/-! ### Scrubs -/

@[simp] theorem State.lasting_answerDestroy (c h lists packets locks alerts) :
    (s.answerDestroy c h lists packets locks alerts).lasting = s.lasting := by
  unfold State.answerDestroy; split <;> simp [State.answerSelf]

@[simp] theorem Lasting.keeps_answerStop (h) :
    l₀.Keeps (s.answerStop h).lasting ↔ l₀.Keeps s.lasting ∨ l₀.Kept (s.answerStop h).lasting := by
  refine Lasting.Keeps.rule ?_
  simp only [State.answerStop]; split <;> simp

@[simp] theorem Lasting.keeps_afterScrub (x) :
    l₀.Keeps (s.afterScrub x).lasting ↔ l₀.Keeps s.lasting ∨ l₀.Kept (s.afterScrub x).lasting := by
  refine Lasting.Keeps.rule ?_
  unfold State.afterScrub; split <;> simp [State.removeContext, State.stopDone]

@[simp] theorem Lasting.keeps_unlockOn :
    l₀.Keeps s.unlockOn.lasting ↔ l₀.Keeps s.lasting ∨ l₀.Kept s.unlockOn.lasting := by
  refine Lasting.Keeps.rule ?_
  unfold State.unlockOn; split <;> simp

@[simp] theorem State.lasting_resume :
    s.resume.lasting = s.lasting := by
  simp only [State.resume]; split <;> simp

@[simp] theorem Lasting.keeps_scrubOn :
    l₀.Keeps s.scrubOn.lasting ↔ l₀.Keeps s.lasting ∨ l₀.Kept s.scrubOn.lasting := by
  refine Lasting.Keeps.rule ?_
  unfold State.scrubOn; repeat' split
  all_goals simp [State.endScrub]

/-! ### Watches -/

@[simp] theorem State.lasting_setDepth (b r v) :
    (s.setDepth b r v).lasting = s.lasting := by
  simp [State.setDepth]

@[simp] theorem State.lasting_lowerBelow (b q) :
    (s.lowerBelow b q).lasting = s.lasting := by
  simp [State.lowerBelow]

@[simp] theorem State.lasting_restoreDepths (b) :
    (s.restoreDepths b).lasting = s.lasting := by
  simp [State.restoreDepths]

@[simp] theorem State.lasting_regulateAll :
    s.regulateAll.lasting = s.lasting := by
  simp [State.regulateAll, State.regulate]

@[simp] theorem State.lasting_exceeds (b r) :
    (s.exceeds b r).lasting = s.lasting := by
  simp [State.exceeds]

@[simp] theorem State.keepsIn_execLockLeaseScan (b) : s.KeepsIn (execLockLeaseScan b s) := by
  unfold execLockLeaseScan; split <;> simp

@[simp] theorem Lasting.keeps_audit :
    l₀.Keeps s.audit.lasting ↔ l₀.Keeps s.lasting ∨ l₀.Kept s.audit.lasting := by
  refine Lasting.Keeps.rule ?_
  unfold State.audit; split <;> simp [State.auditFault]

@[simp] theorem State.keepsIn_execWaitAudit : s.KeepsIn (execWaitAudit s) := by
  unfold execWaitAudit; split <;> simp

@[simp] theorem State.lasting_dissent (r) :
    (s.dissent r).lasting = s.lasting := by
  simp [State.dissent]

@[simp] theorem State.lasting_parityUpset (r x) :
    (s.parityUpset r x).lasting = s.lasting := by
  unfold State.parityUpset; split <;> simp

@[simp] theorem State.keepsIn_execHardenCheck (addr _copy flips) :
    s.KeepsIn (execHardenCheck addr _copy flips s) := by
  unfold execHardenCheck; repeat' split
  all_goals simp

@[simp] theorem State.keepsIn_execServiceTimePersist : s.KeepsIn (execServiceTimePersist s) := by
  unfold execServiceTimePersist; split <;> simp

/-! ### An idle cycle -/

@[simp] theorem State.lasting_countStall (r) :
    (s.countStall r).lasting = s.lasting := by
  unfold State.countStall; split <;> simp

@[simp] theorem Lasting.keeps_flowCycle :
    l₀.Keeps s.flowCycle.lasting ↔ l₀.Keeps s.lasting ∨ l₀.Kept s.flowCycle.lasting := by
  refine Lasting.Keeps.rule ?_
  unfold State.flowCycle; split <;> simp [State.arbitrate, State.stackCycle]

@[simp] theorem State.lasting_countSecond (before) :
    (s.countSecond before).lasting = s.lasting := by
  unfold State.countSecond; split <;> simp

@[simp] theorem State.lasting_wakeOn :
    s.wakeOn.lasting = s.lasting := by
  unfold State.wakeOn; split <;> simp

@[simp] theorem State.lasting_boundary :
    s.boundary.lasting = s.lasting := by
  unfold State.boundary; split <;> simp

@[simp] theorem Lasting.keeps_tick :
    l₀.Keeps s.tick.lasting ↔ l₀.Keeps s.lasting ∨ l₀.Kept s.tick.lasting := by
  refine Lasting.Keeps.rule ?_
  simp [State.tick, State.goOn, State.takeHanded]

@[simp] theorem State.keepsIn_execRegulatorIntervalEnd (b) : s.KeepsIn (execRegulatorIntervalEnd b s) := by
  unfold execRegulatorIntervalEnd; split <;> simp

end Sys2Proof.Machine
end

section
set_option Elab.async false -- the whole text is compiled in one process, within a fixed memory
/-! SUPPORT. What lasts (see above) under every command, and the statements on it. -/

namespace Sys2Proof.Machine

variable (l₀ : Lasting) (s : State)

@[simp] theorem Lasting.keeps_ownerLockAsk (h) :
    l₀.Keeps (s.ownerLockAsk h).1.lasting ↔ l₀.Keeps s.lasting ∨ l₀.Kept (s.ownerLockAsk h).1.lasting := by
  refine Lasting.Keeps.rule ?_
  simp only [State.ownerLockAsk]; repeat' split
  all_goals simp

@[simp] theorem State.keepsIn_execTapReset : s.KeepsIn (execTapReset s) := by
  simp [execTapReset, Tap.rest]

/-- In reset EXTEST may drive the pins. -/
theorem State.keeps_resetAsserted :
    s.lasting.Keeps { s with start := { s.start with resetAsserted := true } : State }.lasting :=
  ⟨rfl, rfl, fun _ h => h, fun h hd => ⟨(h hd).1, rfl⟩, fun h => h⟩

@[simp] theorem State.keepsIn_execDevResetAssert : s.KeepsIn (execDevResetAssert s) := by
  simp only [execDevResetAssert]
  have hin := s.keeps_resetAsserted
  generalize ({ s with start := { s.start with resetAsserted := true } } : State) = t at hin ⊢
  split
  · simp [hin]
  · split <;> simp [hin]

/-- Out of reset an EXTEST scan becomes BYPASS: it drives the pins no more (R431). -/
theorem State.keeps_resetDeasserted :
    s.lasting.Keeps { s with start := { s.start with resetAsserted := false }, tap := s.tap.undrive : State }.lasting := by
  refine ⟨rfl, rfl, fun _ h => h, fun h hd => ?_, fun h => h⟩
  have hoff : s.tap.undrive.driven = false := by
    unfold Tap.undrive
    split
    · rfl
    · next hne => exact Bool.eq_false_iff.mpr fun e => hne (h e).1
  exact absurd (hoff.symm.trans hd) (by decide)

@[simp] theorem State.keepsIn_execDevResetDeassert : s.KeepsIn (execDevResetDeassert s) := by
  simp only [execDevResetDeassert]
  have hout := s.keeps_resetDeasserted
  generalize ({ s with start := { s.start with resetAsserted := false }, tap := s.tap.undrive } : State) = t at hout ⊢
  rw [State.keepsIn_ok]
  split
  · simp [hout]
  · exact hout

/-- Every command keeps what lasts. -/
theorem State.keepsIn_exec (i : Instr) : s.KeepsIn (exec i s) := by
  cases i
  all_goals simp [exec, execOwnerLock, execRightAdmit, execRightRelease, execConfigSet, execCtxCreate, execCtxSwitch, execCtxDestroy,
    execPowerState, execDetachPrepare, execAttachComplete, execQuery, execStatsRead, execFaultLogRead, execModelLoad,
    execWeightKeyBind, execKeyInstall, execWindowLoad, execWindowStore, execDescriptorDefine, execGaugeWindowWrite,
    execTrnLatStRead, execStreamCfgWrite, execArbCfgWrite, execFlipArm, execRemapInstall, execSpareBankStart, execScrubCfgWrite,
    execKeeperModeWrite, execVreqGrantWrite, execCapWrite, execFullResWrite, execDoorbellWrite, execRheadWrite, execRemapCopy,
    execSiphonLinkReplay, execInfieldTestDue, execTestSchedule, execCulvertArrival, execFenceReqAssert, execFenceReqDeassert,
    execSupplyOutOfTolerance, execHgDebugRead, execHgDebugWrite, execImgBegin, execImgData, execImgEnd, execImgAbort,
    execImgActivate, execImgStatus, execNonce, execToken, execRetest, execPartialReset, execMove, execLoad, execStore, execSend,
    execFill, execReduceWrite, execNop, execFence, execWaitGauge, execSetGauge, execAddGauge, execRunList, execRet, execTileLock,
    execTileUnlock, execMatmul, execMatmulAcc, execPacketDispatch, execGaugeIncrement, execHoldRetry, execReturnedRequestReissue,
    execTileReadEnd, execCompact, execExpand, execGatherRows, execZeroMap, execConvert, execGetVersion, execGetCapabilities,
    execNegotiateAlgorithms, execGetDigests, execGetCertificate, execChallenge, execGetMeasurements, execKeyExchange, execFinish,
    execEndSession, execRespondIfReady, execSpdmUnsupportedRequest, execGetTdispVersion, execGetTdispCapabilities,
    execLockInterfaceRequest, execGetDeviceInterfaceReport, execGetDeviceInterfaceState, execStartInterfaceRequest,
    execStopInterfaceRequest, execTdispUnsupportedRequest, execVector, execTopk]

/-- The queue apart, of which a step takes the front command, every step keeps what lasts. -/
theorem step_keeps {s t : State} (h : step s = .next t) :
    ({ s with pending := s.pending.drop 1 } : State).lasting.Keeps t.lasting := by
  unfold step at h
  split at h
  · next hp =>
    cases h
    have hs : ({ s with pending := s.pending.drop 1 } : State) = s := by rw [hp, List.drop_nil, ← hp]
    rw [hs]
    simp
  · next c cs hp =>
    rw [hp]
    exact State.keepsIn_exec _ c t h

/-- Settles O56: EXTEST in reset alone starts to drive the pins, and the end of a reset stops it. -/
theorem pinsDrivenOnlyInReset : Obligations.PinsDrivenOnlyInReset := by
  unfold Obligations.PinsDrivenOnlyInReset
  exact fun s t hs h => (step_keeps h).pins hs

/-- Settles O58: every write of a store goes through the operations on its list, which keep its form. -/
theorem storesStayCanonical : Obligations.StoresStayCanonical := by
  unfold Obligations.StoresStayCanonical
  exact fun s t hs h => (step_keeps h).canonical hs

/-- Settles O59: no command writes the queue or the design, and the one that writes a revocation fuse blows it. -/
theorem queueAndDesignKept : Obligations.QueueAndDesignKept := by
  unfold Obligations.QueueAndDesignKept
  intro s t h
  obtain ⟨hpending, hcfg, hrevoked, -, -⟩ := step_keeps h
  exact ⟨hpending, hcfg, fun k _ => hrevoked k⟩

end Sys2Proof.Machine
end

section
set_option Elab.async false -- the whole text is compiled in one process, within a fixed memory
/-! SUPPORT. Commands complete: all but an access to the embedded instruments in test enable. -/

namespace Sys2Proof.Machine

/-- A command that branches completes where each branch does. -/
theorem completes_ite {c : Prop} [Decidable c] {o o' : Host.Outcome State Fault Refusal} (h : ∃ t, o = .next t)
    (h' : ∃ t, o' = .next t) : ∃ t, (if c then o else o') = .next t := by
  split
  · exact h
  · exact h'

/-- The access to the instruments stops in test enable alone (R431). -/
theorem execJtagIeee1687Access_cases (w : Bool) (bits : List Bool) (s : State) :
    (∃ t, execJtagIeee1687Access w bits s = .next t) ∨
      s.start.pwrGood = true ∧ s.testEn = true ∧ execJtagIeee1687Access w bits s = .refused .instrument := by
  unfold execJtagIeee1687Access
  split
  · exact .inl ⟨_, rfl⟩
  · next hp =>
    split
    · next ht => exact .inr ⟨by simpa [State.tapRuns] using hp, ht, rfl⟩
    · exact .inl ⟨_, rfl⟩

/-- Every other command completes: most by their definition, the rest in each of their branches. -/
theorem exec_completes {c : Instr} (hc : ∀ w bits, c ≠ .jtagIeee1687Access w bits) (s : State) : ∃ t, exec c s = .next t := by
  cases c
  case jtagIeee1687Access w bits => exact absurd rfl (hc w bits)
  case hgFetch =>
    rw [exec]
    unfold execHgFetch; dsimp only; repeat' split
    all_goals exact ⟨_, rfl⟩
  case mgtState =>
    rw [exec]
    unfold execMgtState; repeat' split
    all_goals exact ⟨_, rfl⟩
  case mgtRole =>
    rw [exec]
    unfold execMgtRole; repeat' split
    all_goals exact ⟨_, rfl⟩
  case regCfgWrite =>
    rw [exec]
    unfold execRegCfgWrite; repeat' split
    all_goals exact ⟨_, rfl⟩
  case spareCopierRead =>
    rw [exec]
    unfold execSpareCopierRead; repeat' split
    all_goals exact ⟨_, rfl⟩
  case spareBankActive =>
    rw [exec]
    unfold execSpareBankActive; repeat' split
    all_goals exact ⟨_, rfl⟩
  case burstArrival =>
    rw [exec]
    unfold execBurstArrival; repeat' split
    all_goals exact ⟨_, rfl⟩
  case scrubRead =>
    rw [exec]
    unfold execScrubRead; dsimp only; repeat' split
    all_goals exact ⟨_, rfl⟩
  case shadowRestore =>
    rw [exec]
    unfold execShadowRestore; repeat' split
    all_goals exact ⟨_, rfl⟩
  case faultEvent =>
    rw [exec]
    unfold execFaultEvent; repeat' split
    all_goals exact ⟨_, rfl⟩
  case spareSubstitution =>
    rw [exec]
    unfold execSpareSubstitution; dsimp only; repeat' split
    all_goals exact ⟨_, rfl⟩
  case testForced =>
    rw [exec]
    unfold execTestForced; dsimp only; repeat' split
    all_goals exact ⟨_, rfl⟩
  case hardenCheck =>
    rw [exec]
    unfold execHardenCheck; repeat' split
    all_goals exact ⟨_, rfl⟩
  case siphonRequest =>
    rw [exec]
    unfold execSiphonRequest; repeat' split
    all_goals exact ⟨_, rfl⟩
  case siphonBlockRead =>
    rw [exec]
    unfold execSiphonBlockRead; dsimp only; repeat' split
    all_goals exact ⟨_, rfl⟩
  case siphonBlockWrite =>
    rw [exec]
    unfold execSiphonBlockWrite; dsimp only; repeat' split
    all_goals exact ⟨_, rfl⟩
  case combinerFlush =>
    rw [exec]
    unfold execCombinerFlush; repeat' split
    all_goals exact ⟨_, rfl⟩
  case bootSlotCopyDone =>
    rw [exec]
    unfold execBootSlotCopyDone; repeat' split
    all_goals exact ⟨_, rfl⟩
  case alertAck | basinRetireComplete | basinRetireImmediate | checkDecision | clockLoss | clockRestart
      | culvertArrival | culvertTrained | disec | enec | getbcr | getdcr | getmrl | getmwl | getpid | getstatus
      | infieldTestEnd | linkCalibration | mgtAddressMatchWake | mgtBusReset | mgtNonce | mgtRead | mgtWrite
      | parkOnScrubber | powerGoodFall | refreshSlot | registerWrite | release | remapCopy | rstdaa | setmrl | setmwl
      | setnewda | siphonOutOfService | startStep | thermalTrip | thermalTripRelease | unsupportedCcc | windowLoad =>
    exact completes_ite ⟨_, rfl⟩ ⟨_, rfl⟩
  case canaryCheck | culvertLaneFail | devResetAssert | entdaa | infieldTestStart | marginStep | setdasa
      | startStepTimeout | trickleSample =>
    exact completes_ite ⟨_, rfl⟩ (completes_ite ⟨_, rfl⟩ ⟨_, rfl⟩)
  all_goals exact ⟨_, rfl⟩

/-- Settles O3: the instruments' access apart, each command has a next state in every state. -/
theorem onlyInstrumentsStop : Obligations.OnlyInstrumentsStop := by
  unfold Obligations.OnlyInstrumentsStop
  intro c s
  by_cases hc : ∃ w bits, c = .jtagIeee1687Access w bits
  · obtain ⟨w, bits, rfl⟩ := hc
    exact (execJtagIeee1687Access_cases w bits s).imp id fun ⟨hp, ht, he⟩ => ⟨w, bits, rfl, hp, ht, he⟩
  · exact .inl (exec_completes (fun w bits e => hc ⟨w, bits, e⟩) s)

end Sys2Proof.Machine
end

section
set_option Elab.async false -- the whole text is compiled in one process, within a fixed memory
/-! SUPPORT. One step, the test port's public instructions, the bus's common command codes, and the site at release. -/

namespace Sys2Proof.Machine

/-- Settles O1: a step with a command waiting is that command. -/
theorem stepRunsFront : Obligations.StepRunsFront := by
  unfold Obligations.StepRunsFront
  intro c cs s hp
  rw [step, hp]

/-! ### The test port (R431) -/

/-- Settles O4: the port has power, so each instruction has its effect; EXTEST is BYPASS out of reset. -/
theorem testPort : Obligations.TestPort := by
  unfold Obligations.TestPort
  refine ⟨fun s hp => ?_, fun s w bits hp => ⟨fun ht => ?_, fun ht => ?_⟩⟩
  · have hruns : s.tapRuns = true := hp
    refine ⟨?_, fun x => ?_, fun bs => ⟨s.sampled bs.length, ?_⟩, fun bs ha => ⟨s.sampled bs.length, ?_⟩,
      fun bs ha => ⟨bs.getLastD s.tap.bypassBit, (false :: bs).take bs.length, ?_⟩, rfl⟩
    · rw [exec, execJtagIdcode, if_pos hruns]
      rfl
    · rw [exec, execJtagBypass, if_pos hruns]
      rfl
    · rw [exec, execJtagSamplePreload, if_pos hruns]
      rfl
    · rw [exec, execJtagExtest, hruns, ha]
      rfl
    · rw [exec, execJtagExtest, hruns, ha]
      rfl
  · have hen : bit (s.reg .secSt) 7 = false := ht
    rw [exec, execJtagIeee1687Access, State.tapRuns, hp, hen]
    rfl
  · have hen : bit (s.reg .secSt) 7 = true := ht
    rw [exec, execJtagIeee1687Access, State.tapRuns, hp, hen]
    rfl

/-! ### Common command codes (R422) -/

theorem leBytes_length (n v : Nat) : (leBytes n v).length = n := by
  induction n generalizing v with
  | zero => rfl
  | succ n ih => rw [leBytes, List.length_cons, ih]

theorem beBytes_length (n v : Nat) : (beBytes n v).length = n := by
  rw [beBytes, List.length_reverse, leBytes_length]

theorem fld_low (w : Word64) (n : Nat) : fld w 0 n = w.toNat % 2 ^ n := by
  simp [fld]

/-- The capability byte with its low three bits as R422 has them, whatever stands in the bits between. -/
theorem bcr_low (v : Nat) : (BitVec.ofNat 8 (6 + v * 8)).getLsbD 0 = false ∧ (BitVec.ofNat 8 (6 + v * 8)).getLsbD 1 = true ∧
    (BitVec.ofNat 8 (6 + v * 8)).getLsbD 2 = true := by
  simp only [BitVec.getLsbD_ofNat, Nat.testBit_eq_decide_div_mod_eq]
  refine ⟨?_, ?_, ?_⟩ <;> simp <;> omega

/-- Settles O5: each code has its one effect on the target. -/
theorem commonCommandCodes : Obligations.CommonCommandCodes := by
  unfold Obligations.CommonCommandCodes
  refine ⟨fun s hup => ⟨fun a hd => ⟨?_, ?_⟩, fun a hd => ?_, ?_⟩,
    fun s hup => ⟨fun e => ?_, fun e => ?_, fun n => ?_, fun n => ?_, ?_, ?_⟩,
    fun s hup => ⟨⟨beBytes 2 (fld (Config.i3c 0) 0 16), beBytes_length 2 _, ?_⟩,
      ⟨_, (bcr_low (fld (Config.i3c 1) 3 3)).1, (bcr_low _).2.1, (bcr_low _).2.2, ?_⟩, ⟨(Config.i3c 2).setWidth 8, ?_⟩,
      ⟨beBytes 2 (fld (s.freeVal 71) 0 16), beBytes_length 2 _, ?_⟩, fun c => ?_⟩⟩
  · simp [exec, execEntdaa, hup, hd, ok]
  · simp [exec, execSetdasa, hup, hd, ok]
  · simp [exec, execSetnewda, hup, hd, ok]
  · simp [exec, execRstdaa, hup, ok]
  · simp [exec, execEnec, hup, ok, eventBits]
  · simp [exec, execDisec, hup, ok]
  · simp [exec, execSetmwl, hup, ok]
  · simp [exec, execSetmrl, hup, ok]
  · simp [exec, execGetmwl, hup, ok, State.cccAnswer, beBytes]
  · simp [exec, execGetmrl, hup, ok, State.cccAnswer, beBytes]
  · rw [exec, execGetpid, hup, ← fld_low Config.serial 32]
    rfl
  · rw [exec, execGetbcr, hup]
    rfl
  · rw [exec, execGetdcr, hup]
    rfl
  · rw [exec, execGetstatus, hup]
    rfl
  · rw [exec, execUnsupportedCcc, hup]
    rfl

/-! ### The site at release -/

/-- A word that nothing has written holds zeros with good check bits: it reads zero, and nothing is found. -/
theorem State.readPhys_of_empty {s : State} (hm : s.mem = []) (hc : s.memChk = []) (b pb row : Nat) (rd : Reader) :
    s.readPhys b pb row rd = (s, List.replicate 64 0, false) := by
  have hraw : ∀ n, s.rawWord n = List.replicate 64 0 := fun n => by
    simp only [State.rawWord, hm, nget_nil]
    rfl
  have hsyn : ∀ n, s.syndrome n = 0 := fun n => by simp only [State.syndrome, hc, nget_nil]
  have hfind : findingOf 0 = .clean := by decide
  simp only [State.readPhys, hsyn, hfind, hraw, State.noteFinding]

/-- Settles O60: the state is written out; a word of memory that nothing has written reads zero without a finding. -/
theorem releaseState : Obligations.ReleaseState := by
  unfold Obligations.ReleaseState
  refine ⟨fun h => absurd h (by decide), State.reset_canonical, by decide, rfl, rfl, by decide, by decide, by decide, by decide, rfl, fun b w => ?_⟩
  exact State.readPhys_of_empty rfl rfl _ _ _ _

end Sys2Proof.Machine
end

section
set_option Elab.async false -- the whole text is compiled in one process, within a fixed memory
/-! SUPPORT. The responder takes what it hears and answers it (R380–R383). -/

namespace Sys2Proof.Machine

/-- What the responder hears in a version it keeps, it answers (R380, R382). -/
theorem State.Hears.request {s : State} {r : SpdmReq} (h : s.Hears r) {c : SpdmCall} (hv : versionFits r c = true) :
    s.request r c = s.answer r c := by
  obtain ⟨hrel, hready, hscrub, hsess⟩ := h
  simp only [State.request, hrel, hready, hscrub, hv]
  obtain hplain | ⟨x, hx, hring, htag⟩ := hsess
  · simp [hplain]
  · simp [hx, hring, htag]

/-- In another version it answers that it does not keep that version (R380). -/
theorem State.Hears.request_of_version {s : State} {r : SpdmReq} (h : s.Hears r) {c : SpdmCall} (hv : versionFits r c = false) :
    s.request r c = s.say (.errorUnsupported c.code) := by
  obtain ⟨hrel, hready, hscrub, _⟩ := h
  simp [State.request, hrel, hready, hscrub, hv]

theorem State.Listens.versionFits {s : State} {r : SpdmReq} (h : s.Listens r) (c : SpdmCall) : versionFits r c = true := by
  obtain ⟨_, hv | hv⟩ := h <;> simp [Machine.versionFits, hv]

theorem State.Listens.request {s : State} {r : SpdmReq} (h : s.Listens r) (c : SpdmCall) : s.request r c = s.answer r c :=
  h.1.request (h.versionFits c)

theorem slotZero_iff (slot : Byte) : slotZero slot = true ↔ slot.toNat % 16 = 0 := by
  simp [slotZero, fld]

theorem slotZero_eq_false (slot : Byte) : slotZero slot = false ↔ slot.toNat % 16 ≠ 0 := by
  simp [slotZero, fld]

/-- Settles O8: each request is heard, and its answer is written out; in another version there is the one error. -/
theorem responderAnswers : Obligations.ResponderAnswers := by
  unfold Obligations.ResponderAnswers
  refine ⟨fun s r h => ⟨?_, fun h2 h3 => ?_⟩, fun s r h => ?_⟩
  · rw [exec, execGetVersion, h.request (by simp [versionFits, SpdmCall.code])]
    rfl
  · have refuses : ∀ c : SpdmCall, c.code ≠ 0x84 → s.request r c = s.say (.errorUnsupported c.code) := fun c hc =>
      h.request_of_version (by simpa [versionFits] using ⟨⟨h2, h3⟩, hc⟩)
    refine ⟨congrArg ok (refuses .getCapabilities (by decide)), fun x => congrArg ok (refuses (.negotiate x) ?_),
      congrArg ok (refuses .getDigests (by decide)), congrArg ok (refuses .getMeasurements (by decide)),
      fun x => congrArg ok (refuses (.keyExchange x) ?_)⟩ <;> simp [SpdmCall.code]
  · refine ⟨congrArg ok (h.request _), congrArg ok (h.request (.negotiate true)), ⟨0xE3, congrArg ok (h.request (.negotiate false))⟩,
      congrArg ok (h.request _), fun hslot => ?_, fun hslot => ?_, fun c => congrArg ok (h.request (.unsupported c))⟩
    · have hz := (slotZero_iff _).2 hslot
      refine ⟨congrArg ok ((h.request .getCertificate).trans ?_), congrArg ok ((h.request .challenge).trans ?_)⟩
      · simp [State.answer, hz, State.say]
      · simp [State.answer, hz, State.say]
    · have hz := (slotZero_eq_false _).2 hslot
      refine ⟨⟨0x82, congrArg ok ((h.request .getCertificate).trans ?_)⟩, ⟨0x83, congrArg ok ((h.request .challenge).trans ?_)⟩⟩
      · simp [State.answer, hz, State.say]
      · simp [State.answer, hz, State.say]

end Sys2Proof.Machine
end

section
set_option Elab.async false -- the whole text is compiled in one process, within a fixed memory
/-! SUPPORT. What is read of a state through the updates of its other records. -/

namespace Sys2Proof.Machine

variable (s : State)

@[simp] theorem State.reg_through (r : Reg) :
    (s.useFree.reg r = s.reg r) ∧ (∀ c v, (s.putCtx c v).reg r = s.reg r) ∧ (∀ k v, (s.putRing k v).reg r = s.reg r) ∧
    (∀ i v, (s.putSiphon i v).reg r = s.reg r) ∧ (∀ c v, (s.putCulvert c v).reg r = s.reg r) ∧
    (∀ l, (s.putList l).reg r = s.reg r) ∧ (∀ l, (s.freeSlot l).reg r = s.reg r) ∧
    (∀ k rp, (s.queueReply k rp).reg r = s.reg r) ∧ (∀ k rp, (s.queueUnreserved k rp).reg r = s.reg r) ∧
    (∀ f, (s.putFlight f).reg r = s.reg r) ∧ (∀ f, (s.dropFlight f).reg r = s.reg r) ∧ (∀ a, (s.putArb a).reg r = s.reg r) ∧
    (∀ x, (s.putScrubber x).reg r = s.reg r) ∧ (∀ p, (s.park p).reg r = s.reg r) ∧ (∀ x, (s.hgQueue x).reg r = s.reg r) ∧
    (∀ h x, (s.hgExecuted h x).reg r = s.reg r) ∧ (∀ x, (s.say x).reg r = s.reg r) ∧
    (∀ st d, (s.mgtAnswer st d).reg r = s.reg r) ∧ (∀ b d v, (s.putDesc b d v).reg r = s.reg r) ∧
    (∀ b g v, (s.putCount b g v).reg r = s.reg r) ∧ (∀ b g c, (s.putGctx b g c).reg r = s.reg r) ∧
    (∀ c g, (s.loadKeys c g).reg r = s.reg r) := by
  refine ⟨?_, ?_, ?_, ?_, ?_, ?_, ?_, ?_, ?_, ?_, ?_, ?_, ?_, ?_, ?_, ?_, ?_, ?_, ?_, ?_, ?_, ?_⟩ <;> intros <;> rfl

@[simp] theorem State.rfld_through (r : Reg) (lo n : Nat) :
    (s.useFree.rfld r lo n = s.rfld r lo n) ∧ (∀ c v, (s.putCtx c v).rfld r lo n = s.rfld r lo n) ∧
    (∀ k v, (s.putRing k v).rfld r lo n = s.rfld r lo n) ∧ (∀ i v, (s.putSiphon i v).rfld r lo n = s.rfld r lo n) ∧
    (∀ c v, (s.putCulvert c v).rfld r lo n = s.rfld r lo n) ∧ (∀ l, (s.putList l).rfld r lo n = s.rfld r lo n) ∧
    (∀ l, (s.freeSlot l).rfld r lo n = s.rfld r lo n) ∧ (∀ k rp, (s.queueReply k rp).rfld r lo n = s.rfld r lo n) ∧
    (∀ k rp, (s.queueUnreserved k rp).rfld r lo n = s.rfld r lo n) ∧ (∀ f, (s.putFlight f).rfld r lo n = s.rfld r lo n) ∧
    (∀ f, (s.dropFlight f).rfld r lo n = s.rfld r lo n) ∧ (∀ a, (s.putArb a).rfld r lo n = s.rfld r lo n) ∧
    (∀ x, (s.putScrubber x).rfld r lo n = s.rfld r lo n) ∧ (∀ p, (s.park p).rfld r lo n = s.rfld r lo n) ∧
    (∀ x, (s.hgQueue x).rfld r lo n = s.rfld r lo n) ∧ (∀ h x, (s.hgExecuted h x).rfld r lo n = s.rfld r lo n) ∧
    (∀ x, (s.say x).rfld r lo n = s.rfld r lo n) ∧ (∀ st d, (s.mgtAnswer st d).rfld r lo n = s.rfld r lo n) ∧
    (∀ b d v, (s.putDesc b d v).rfld r lo n = s.rfld r lo n) ∧ (∀ b g v, (s.putCount b g v).rfld r lo n = s.rfld r lo n) ∧
    (∀ b g c, (s.putGctx b g c).rfld r lo n = s.rfld r lo n) ∧ (∀ c g, (s.loadKeys c g).rfld r lo n = s.rfld r lo n) := by
  refine ⟨?_, ?_, ?_, ?_, ?_, ?_, ?_, ?_, ?_, ?_, ?_, ?_, ?_, ?_, ?_, ?_, ?_, ?_, ?_, ?_, ?_, ?_⟩ <;> intros <;> rfl

@[simp] theorem State.ctx_through (c : Nat) :
    (∀ k v, (s.putReg k v).ctx c = s.ctx c) ∧ (∀ k lo n v, (s.putFld k lo n v).ctx c = s.ctx c) ∧
    (∀ k m, (s.setW1c k m).ctx c = s.ctx c) ∧ (∀ k lo n i, (s.bumpWrap k lo n i).ctx c = s.ctx c) ∧
    (∀ v, (s.setSite v).ctx c = s.ctx c) ∧ (∀ v, (s.setStage v).ctx c = s.ctx c) ∧ (s.useFree.ctx c = s.ctx c) ∧
    (∀ k v, (s.putRing k v).ctx c = s.ctx c) ∧ (∀ i v, (s.putSiphon i v).ctx c = s.ctx c) ∧
    (∀ c' v, (s.putCulvert c' v).ctx c = s.ctx c) ∧ (∀ l, (s.putList l).ctx c = s.ctx c) ∧
    (∀ l, (s.freeSlot l).ctx c = s.ctx c) ∧ (∀ k rp, (s.queueReply k rp).ctx c = s.ctx c) ∧
    (∀ k rp, (s.queueUnreserved k rp).ctx c = s.ctx c) ∧ (∀ f, (s.putFlight f).ctx c = s.ctx c) ∧
    (∀ f, (s.dropFlight f).ctx c = s.ctx c) ∧ (∀ a, (s.putArb a).ctx c = s.ctx c) ∧ (∀ x, (s.putScrubber x).ctx c = s.ctx c) ∧
    (∀ p, (s.park p).ctx c = s.ctx c) ∧ (∀ x, (s.hgQueue x).ctx c = s.ctx c) ∧ (∀ h x, (s.hgExecuted h x).ctx c = s.ctx c) ∧
    (∀ x, (s.say x).ctx c = s.ctx c) ∧ (∀ st d, (s.mgtAnswer st d).ctx c = s.ctx c) ∧
    (∀ b d v, (s.putDesc b d v).ctx c = s.ctx c) ∧ (∀ b g v, (s.putCount b g v).ctx c = s.ctx c) ∧
    (∀ b g c', (s.putGctx b g c').ctx c = s.ctx c) ∧ (∀ c' g, (s.loadKeys c' g).ctx c = s.ctx c) := by
  refine ⟨?_, ?_, ?_, ?_, ?_, ?_, ?_, ?_, ?_, ?_, ?_, ?_, ?_, ?_, ?_, ?_, ?_, ?_, ?_, ?_, ?_, ?_, ?_, ?_, ?_, ?_, ?_⟩ <;> intros <;> rfl

@[simp] theorem State.ring_through (k : Nat) :
    (∀ k' v, (s.putReg k' v).ring k = s.ring k) ∧ (∀ k' lo n v, (s.putFld k' lo n v).ring k = s.ring k) ∧
    (∀ k' m, (s.setW1c k' m).ring k = s.ring k) ∧ (∀ k' lo n i, (s.bumpWrap k' lo n i).ring k = s.ring k) ∧
    (∀ v, (s.setSite v).ring k = s.ring k) ∧ (∀ v, (s.setStage v).ring k = s.ring k) ∧ (s.useFree.ring k = s.ring k) ∧
    (∀ c v, (s.putCtx c v).ring k = s.ring k) ∧ (∀ i v, (s.putSiphon i v).ring k = s.ring k) ∧
    (∀ c v, (s.putCulvert c v).ring k = s.ring k) ∧ (∀ l, (s.putList l).ring k = s.ring k) ∧
    (∀ l, (s.freeSlot l).ring k = s.ring k) ∧ (∀ f, (s.putFlight f).ring k = s.ring k) ∧
    (∀ f, (s.dropFlight f).ring k = s.ring k) ∧ (∀ a, (s.putArb a).ring k = s.ring k) ∧
    (∀ x, (s.putScrubber x).ring k = s.ring k) ∧ (∀ p, (s.park p).ring k = s.ring k) ∧ (∀ x, (s.hgQueue x).ring k = s.ring k) ∧
    (∀ h x, (s.hgExecuted h x).ring k = s.ring k) ∧ (∀ x, (s.say x).ring k = s.ring k) ∧
    (∀ st d, (s.mgtAnswer st d).ring k = s.ring k) ∧ (∀ b d v, (s.putDesc b d v).ring k = s.ring k) ∧
    (∀ b g v, (s.putCount b g v).ring k = s.ring k) ∧ (∀ b g c, (s.putGctx b g c).ring k = s.ring k) ∧
    (∀ c g, (s.loadKeys c g).ring k = s.ring k) := by
  refine ⟨?_, ?_, ?_, ?_, ?_, ?_, ?_, ?_, ?_, ?_, ?_, ?_, ?_, ?_, ?_, ?_, ?_, ?_, ?_, ?_, ?_, ?_, ?_, ?_, ?_⟩ <;> intros <;> rfl

@[simp] theorem State.culvert_through (c : Nat) :
    (∀ k v, (s.putReg k v).culvert c = s.culvert c) ∧ (∀ k lo n v, (s.putFld k lo n v).culvert c = s.culvert c) ∧
    (∀ k m, (s.setW1c k m).culvert c = s.culvert c) ∧ (∀ k lo n i, (s.bumpWrap k lo n i).culvert c = s.culvert c) ∧
    (∀ v, (s.setSite v).culvert c = s.culvert c) ∧ (∀ v, (s.setStage v).culvert c = s.culvert c) ∧
    (s.useFree.culvert c = s.culvert c) ∧ (∀ c' v, (s.putCtx c' v).culvert c = s.culvert c) ∧
    (∀ k v, (s.putRing k v).culvert c = s.culvert c) ∧ (∀ i v, (s.putSiphon i v).culvert c = s.culvert c) ∧
    (∀ l, (s.putList l).culvert c = s.culvert c) ∧ (∀ l, (s.freeSlot l).culvert c = s.culvert c) ∧
    (∀ k rp, (s.queueReply k rp).culvert c = s.culvert c) ∧ (∀ k rp, (s.queueUnreserved k rp).culvert c = s.culvert c) ∧
    (∀ f, (s.putFlight f).culvert c = s.culvert c) ∧ (∀ f, (s.dropFlight f).culvert c = s.culvert c) ∧
    (∀ a, (s.putArb a).culvert c = s.culvert c) ∧ (∀ x, (s.putScrubber x).culvert c = s.culvert c) ∧
    (∀ p, (s.park p).culvert c = s.culvert c) ∧ (∀ x, (s.hgQueue x).culvert c = s.culvert c) ∧
    (∀ h x, (s.hgExecuted h x).culvert c = s.culvert c) ∧ (∀ x, (s.say x).culvert c = s.culvert c) ∧
    (∀ st d, (s.mgtAnswer st d).culvert c = s.culvert c) ∧ (∀ b d v, (s.putDesc b d v).culvert c = s.culvert c) ∧
    (∀ b g v, (s.putCount b g v).culvert c = s.culvert c) ∧ (∀ b g c', (s.putGctx b g c').culvert c = s.culvert c) ∧
    (∀ c' g, (s.loadKeys c' g).culvert c = s.culvert c) := by
  refine ⟨?_, ?_, ?_, ?_, ?_, ?_, ?_, ?_, ?_, ?_, ?_, ?_, ?_, ?_, ?_, ?_, ?_, ?_, ?_, ?_, ?_, ?_, ?_, ?_, ?_, ?_, ?_⟩ <;> intros <;> rfl

@[simp] theorem State.siphon_through (i : Nat) :
    (∀ k v, (s.putReg k v).siphon i = s.siphon i) ∧ (∀ k lo n v, (s.putFld k lo n v).siphon i = s.siphon i) ∧
    (∀ k m, (s.setW1c k m).siphon i = s.siphon i) ∧ (∀ k lo n i', (s.bumpWrap k lo n i').siphon i = s.siphon i) ∧
    (∀ v, (s.setSite v).siphon i = s.siphon i) ∧ (∀ v, (s.setStage v).siphon i = s.siphon i) ∧
    (s.useFree.siphon i = s.siphon i) ∧ (∀ c v, (s.putCtx c v).siphon i = s.siphon i) ∧
    (∀ k v, (s.putRing k v).siphon i = s.siphon i) ∧ (∀ c v, (s.putCulvert c v).siphon i = s.siphon i) ∧
    (∀ l, (s.putList l).siphon i = s.siphon i) ∧ (∀ l, (s.freeSlot l).siphon i = s.siphon i) ∧
    (∀ k rp, (s.queueReply k rp).siphon i = s.siphon i) ∧ (∀ k rp, (s.queueUnreserved k rp).siphon i = s.siphon i) ∧
    (∀ f, (s.putFlight f).siphon i = s.siphon i) ∧ (∀ f, (s.dropFlight f).siphon i = s.siphon i) ∧
    (∀ a, (s.putArb a).siphon i = s.siphon i) ∧ (∀ x, (s.putScrubber x).siphon i = s.siphon i) ∧
    (∀ p, (s.park p).siphon i = s.siphon i) ∧ (∀ x, (s.hgQueue x).siphon i = s.siphon i) ∧
    (∀ h x, (s.hgExecuted h x).siphon i = s.siphon i) ∧ (∀ x, (s.say x).siphon i = s.siphon i) ∧
    (∀ st d, (s.mgtAnswer st d).siphon i = s.siphon i) ∧ (∀ b d v, (s.putDesc b d v).siphon i = s.siphon i) ∧
    (∀ b g v, (s.putCount b g v).siphon i = s.siphon i) ∧ (∀ b g c, (s.putGctx b g c).siphon i = s.siphon i) ∧
    (∀ c g, (s.loadKeys c g).siphon i = s.siphon i) := by
  refine ⟨?_, ?_, ?_, ?_, ?_, ?_, ?_, ?_, ?_, ?_, ?_, ?_, ?_, ?_, ?_, ?_, ?_, ?_, ?_, ?_, ?_, ?_, ?_, ?_, ?_, ?_, ?_⟩ <;> intros <;> rfl

@[simp] theorem State.list?_through (b k : Nat) :
    (∀ k' v, (s.putReg k' v).list? b k = s.list? b k) ∧ (∀ k' lo n v, (s.putFld k' lo n v).list? b k = s.list? b k) ∧
    (∀ k' m, (s.setW1c k' m).list? b k = s.list? b k) ∧ (∀ k' lo n i, (s.bumpWrap k' lo n i).list? b k = s.list? b k) ∧
    (∀ v, (s.setSite v).list? b k = s.list? b k) ∧ (∀ v, (s.setStage v).list? b k = s.list? b k) ∧
    (s.useFree.list? b k = s.list? b k) ∧ (∀ c v, (s.putCtx c v).list? b k = s.list? b k) ∧
    (∀ k' v, (s.putRing k' v).list? b k = s.list? b k) ∧ (∀ i v, (s.putSiphon i v).list? b k = s.list? b k) ∧
    (∀ c v, (s.putCulvert c v).list? b k = s.list? b k) ∧ (∀ k' rp, (s.queueReply k' rp).list? b k = s.list? b k) ∧
    (∀ k' rp, (s.queueUnreserved k' rp).list? b k = s.list? b k) ∧ (∀ f, (s.putFlight f).list? b k = s.list? b k) ∧
    (∀ f, (s.dropFlight f).list? b k = s.list? b k) ∧ (∀ a, (s.putArb a).list? b k = s.list? b k) ∧
    (∀ x, (s.putScrubber x).list? b k = s.list? b k) ∧ (∀ p, (s.park p).list? b k = s.list? b k) ∧
    (∀ x, (s.hgQueue x).list? b k = s.list? b k) ∧ (∀ h x, (s.hgExecuted h x).list? b k = s.list? b k) ∧
    (∀ x, (s.say x).list? b k = s.list? b k) ∧ (∀ st d, (s.mgtAnswer st d).list? b k = s.list? b k) ∧
    (∀ b' d v, (s.putDesc b' d v).list? b k = s.list? b k) ∧ (∀ b' g v, (s.putCount b' g v).list? b k = s.list? b k) ∧
    (∀ b' g c, (s.putGctx b' g c).list? b k = s.list? b k) ∧ (∀ c g, (s.loadKeys c g).list? b k = s.list? b k) := by
  refine ⟨?_, ?_, ?_, ?_, ?_, ?_, ?_, ?_, ?_, ?_, ?_, ?_, ?_, ?_, ?_, ?_, ?_, ?_, ?_, ?_, ?_, ?_, ?_, ?_, ?_, ?_⟩ <;> intros <;> rfl

@[simp] theorem State.flight?_through (i : Nat) :
    (∀ k v, (s.putReg k v).flight? i = s.flight? i) ∧ (∀ k lo n v, (s.putFld k lo n v).flight? i = s.flight? i) ∧
    (∀ k m, (s.setW1c k m).flight? i = s.flight? i) ∧ (∀ k lo n i', (s.bumpWrap k lo n i').flight? i = s.flight? i) ∧
    (∀ v, (s.setSite v).flight? i = s.flight? i) ∧ (∀ v, (s.setStage v).flight? i = s.flight? i) ∧
    (s.useFree.flight? i = s.flight? i) ∧ (∀ c v, (s.putCtx c v).flight? i = s.flight? i) ∧
    (∀ k v, (s.putRing k v).flight? i = s.flight? i) ∧ (∀ i' v, (s.putSiphon i' v).flight? i = s.flight? i) ∧
    (∀ c v, (s.putCulvert c v).flight? i = s.flight? i) ∧ (∀ l, (s.putList l).flight? i = s.flight? i) ∧
    (∀ l, (s.freeSlot l).flight? i = s.flight? i) ∧ (∀ k rp, (s.queueReply k rp).flight? i = s.flight? i) ∧
    (∀ k rp, (s.queueUnreserved k rp).flight? i = s.flight? i) ∧ (∀ a, (s.putArb a).flight? i = s.flight? i) ∧
    (∀ x, (s.putScrubber x).flight? i = s.flight? i) ∧ (∀ p, (s.park p).flight? i = s.flight? i) ∧
    (∀ x, (s.hgQueue x).flight? i = s.flight? i) ∧ (∀ h x, (s.hgExecuted h x).flight? i = s.flight? i) ∧
    (∀ x, (s.say x).flight? i = s.flight? i) ∧ (∀ st d, (s.mgtAnswer st d).flight? i = s.flight? i) ∧
    (∀ b d v, (s.putDesc b d v).flight? i = s.flight? i) ∧ (∀ b g v, (s.putCount b g v).flight? i = s.flight? i) ∧
    (∀ b g c, (s.putGctx b g c).flight? i = s.flight? i) ∧ (∀ c g, (s.loadKeys c g).flight? i = s.flight? i) := by
  refine ⟨?_, ?_, ?_, ?_, ?_, ?_, ?_, ?_, ?_, ?_, ?_, ?_, ?_, ?_, ?_, ?_, ?_, ?_, ?_, ?_, ?_, ?_, ?_, ?_, ?_, ?_⟩ <;> intros <;> rfl

@[simp] theorem State.descOf_through (b d : Nat) :
    (∀ k v, (s.putReg k v).descOf b d = s.descOf b d) ∧ (∀ k lo n v, (s.putFld k lo n v).descOf b d = s.descOf b d) ∧
    (∀ k m, (s.setW1c k m).descOf b d = s.descOf b d) ∧ (∀ k lo n i, (s.bumpWrap k lo n i).descOf b d = s.descOf b d) ∧
    (∀ v, (s.setSite v).descOf b d = s.descOf b d) ∧ (∀ v, (s.setStage v).descOf b d = s.descOf b d) ∧
    (s.useFree.descOf b d = s.descOf b d) ∧ (∀ c v, (s.putCtx c v).descOf b d = s.descOf b d) ∧
    (∀ k v, (s.putRing k v).descOf b d = s.descOf b d) ∧ (∀ i v, (s.putSiphon i v).descOf b d = s.descOf b d) ∧
    (∀ c v, (s.putCulvert c v).descOf b d = s.descOf b d) ∧ (∀ l, (s.putList l).descOf b d = s.descOf b d) ∧
    (∀ l, (s.freeSlot l).descOf b d = s.descOf b d) ∧ (∀ k rp, (s.queueReply k rp).descOf b d = s.descOf b d) ∧
    (∀ k rp, (s.queueUnreserved k rp).descOf b d = s.descOf b d) ∧ (∀ f, (s.putFlight f).descOf b d = s.descOf b d) ∧
    (∀ f, (s.dropFlight f).descOf b d = s.descOf b d) ∧ (∀ a, (s.putArb a).descOf b d = s.descOf b d) ∧
    (∀ x, (s.putScrubber x).descOf b d = s.descOf b d) ∧ (∀ p, (s.park p).descOf b d = s.descOf b d) ∧
    (∀ x, (s.hgQueue x).descOf b d = s.descOf b d) ∧ (∀ h x, (s.hgExecuted h x).descOf b d = s.descOf b d) ∧
    (∀ x, (s.say x).descOf b d = s.descOf b d) ∧ (∀ st d', (s.mgtAnswer st d').descOf b d = s.descOf b d) ∧
    (∀ b' g v, (s.putCount b' g v).descOf b d = s.descOf b d) ∧ (∀ b' g c, (s.putGctx b' g c).descOf b d = s.descOf b d) ∧
    (∀ c g, (s.loadKeys c g).descOf b d = s.descOf b d) := by
  refine ⟨?_, ?_, ?_, ?_, ?_, ?_, ?_, ?_, ?_, ?_, ?_, ?_, ?_, ?_, ?_, ?_, ?_, ?_, ?_, ?_, ?_, ?_, ?_, ?_, ?_, ?_, ?_⟩ <;> intros <;> rfl

@[simp] theorem State.count_through (b g : Nat) :
    (∀ k v, (s.putReg k v).count b g = s.count b g) ∧ (∀ k lo n v, (s.putFld k lo n v).count b g = s.count b g) ∧
    (∀ k m, (s.setW1c k m).count b g = s.count b g) ∧ (∀ k lo n i, (s.bumpWrap k lo n i).count b g = s.count b g) ∧
    (∀ v, (s.setSite v).count b g = s.count b g) ∧ (∀ v, (s.setStage v).count b g = s.count b g) ∧
    (s.useFree.count b g = s.count b g) ∧ (∀ c v, (s.putCtx c v).count b g = s.count b g) ∧
    (∀ k v, (s.putRing k v).count b g = s.count b g) ∧ (∀ i v, (s.putSiphon i v).count b g = s.count b g) ∧
    (∀ c v, (s.putCulvert c v).count b g = s.count b g) ∧ (∀ l, (s.putList l).count b g = s.count b g) ∧
    (∀ l, (s.freeSlot l).count b g = s.count b g) ∧ (∀ k rp, (s.queueReply k rp).count b g = s.count b g) ∧
    (∀ k rp, (s.queueUnreserved k rp).count b g = s.count b g) ∧ (∀ f, (s.putFlight f).count b g = s.count b g) ∧
    (∀ f, (s.dropFlight f).count b g = s.count b g) ∧ (∀ a, (s.putArb a).count b g = s.count b g) ∧
    (∀ x, (s.putScrubber x).count b g = s.count b g) ∧ (∀ p, (s.park p).count b g = s.count b g) ∧
    (∀ x, (s.hgQueue x).count b g = s.count b g) ∧ (∀ h x, (s.hgExecuted h x).count b g = s.count b g) ∧
    (∀ x, (s.say x).count b g = s.count b g) ∧ (∀ st d, (s.mgtAnswer st d).count b g = s.count b g) ∧
    (∀ b' d v, (s.putDesc b' d v).count b g = s.count b g) ∧ (∀ c g', (s.loadKeys c g').count b g = s.count b g) := by
  refine ⟨?_, ?_, ?_, ?_, ?_, ?_, ?_, ?_, ?_, ?_, ?_, ?_, ?_, ?_, ?_, ?_, ?_, ?_, ?_, ?_, ?_, ?_, ?_, ?_, ?_, ?_⟩ <;> intros <;> rfl

@[simp] theorem State.gctx_through (b g : Nat) :
    (∀ k v, (s.putReg k v).gctx b g = s.gctx b g) ∧ (∀ k lo n v, (s.putFld k lo n v).gctx b g = s.gctx b g) ∧
    (∀ k m, (s.setW1c k m).gctx b g = s.gctx b g) ∧ (∀ k lo n i, (s.bumpWrap k lo n i).gctx b g = s.gctx b g) ∧
    (∀ v, (s.setSite v).gctx b g = s.gctx b g) ∧ (∀ v, (s.setStage v).gctx b g = s.gctx b g) ∧
    (s.useFree.gctx b g = s.gctx b g) ∧ (∀ c v, (s.putCtx c v).gctx b g = s.gctx b g) ∧
    (∀ k v, (s.putRing k v).gctx b g = s.gctx b g) ∧ (∀ i v, (s.putSiphon i v).gctx b g = s.gctx b g) ∧
    (∀ c v, (s.putCulvert c v).gctx b g = s.gctx b g) ∧ (∀ l, (s.putList l).gctx b g = s.gctx b g) ∧
    (∀ l, (s.freeSlot l).gctx b g = s.gctx b g) ∧ (∀ k rp, (s.queueReply k rp).gctx b g = s.gctx b g) ∧
    (∀ k rp, (s.queueUnreserved k rp).gctx b g = s.gctx b g) ∧ (∀ f, (s.putFlight f).gctx b g = s.gctx b g) ∧
    (∀ f, (s.dropFlight f).gctx b g = s.gctx b g) ∧ (∀ a, (s.putArb a).gctx b g = s.gctx b g) ∧
    (∀ x, (s.putScrubber x).gctx b g = s.gctx b g) ∧ (∀ p, (s.park p).gctx b g = s.gctx b g) ∧
    (∀ x, (s.hgQueue x).gctx b g = s.gctx b g) ∧ (∀ h x, (s.hgExecuted h x).gctx b g = s.gctx b g) ∧
    (∀ x, (s.say x).gctx b g = s.gctx b g) ∧ (∀ st d, (s.mgtAnswer st d).gctx b g = s.gctx b g) ∧
    (∀ b' d v, (s.putDesc b' d v).gctx b g = s.gctx b g) ∧ (∀ c g', (s.loadKeys c g').gctx b g = s.gctx b g) := by
  refine ⟨?_, ?_, ?_, ?_, ?_, ?_, ?_, ?_, ?_, ?_, ?_, ?_, ?_, ?_, ?_, ?_, ?_, ?_, ?_, ?_, ?_, ?_, ?_, ?_, ?_, ?_⟩ <;> intros <;> rfl

@[simp] theorem State.arb_through (b c : Nat) :
    (∀ k v, (s.putReg k v).arb b c = s.arb b c) ∧ (∀ k lo n v, (s.putFld k lo n v).arb b c = s.arb b c) ∧
    (∀ k m, (s.setW1c k m).arb b c = s.arb b c) ∧ (∀ k lo n i, (s.bumpWrap k lo n i).arb b c = s.arb b c) ∧
    (∀ v, (s.setSite v).arb b c = s.arb b c) ∧ (∀ v, (s.setStage v).arb b c = s.arb b c) ∧ (s.useFree.arb b c = s.arb b c) ∧
    (∀ c' v, (s.putCtx c' v).arb b c = s.arb b c) ∧ (∀ k v, (s.putRing k v).arb b c = s.arb b c) ∧
    (∀ i v, (s.putSiphon i v).arb b c = s.arb b c) ∧ (∀ c' v, (s.putCulvert c' v).arb b c = s.arb b c) ∧
    (∀ l, (s.putList l).arb b c = s.arb b c) ∧ (∀ l, (s.freeSlot l).arb b c = s.arb b c) ∧
    (∀ k rp, (s.queueReply k rp).arb b c = s.arb b c) ∧ (∀ k rp, (s.queueUnreserved k rp).arb b c = s.arb b c) ∧
    (∀ f, (s.putFlight f).arb b c = s.arb b c) ∧ (∀ f, (s.dropFlight f).arb b c = s.arb b c) ∧
    (∀ x, (s.putScrubber x).arb b c = s.arb b c) ∧ (∀ p, (s.park p).arb b c = s.arb b c) ∧
    (∀ x, (s.hgQueue x).arb b c = s.arb b c) ∧ (∀ h x, (s.hgExecuted h x).arb b c = s.arb b c) ∧
    (∀ x, (s.say x).arb b c = s.arb b c) ∧ (∀ st d, (s.mgtAnswer st d).arb b c = s.arb b c) ∧
    (∀ b' d v, (s.putDesc b' d v).arb b c = s.arb b c) ∧ (∀ b' g v, (s.putCount b' g v).arb b c = s.arb b c) ∧
    (∀ b' g c', (s.putGctx b' g c').arb b c = s.arb b c) ∧ (∀ c' g, (s.loadKeys c' g).arb b c = s.arb b c) := by
  refine ⟨?_, ?_, ?_, ?_, ?_, ?_, ?_, ?_, ?_, ?_, ?_, ?_, ?_, ?_, ?_, ?_, ?_, ?_, ?_, ?_, ?_, ?_, ?_, ?_, ?_, ?_, ?_⟩ <;> intros <;> rfl

@[simp] theorem State.scrubber_through (b : Nat) :
    (∀ k v, (s.putReg k v).scrubber b = s.scrubber b) ∧ (∀ k lo n v, (s.putFld k lo n v).scrubber b = s.scrubber b) ∧
    (∀ k m, (s.setW1c k m).scrubber b = s.scrubber b) ∧ (∀ k lo n i, (s.bumpWrap k lo n i).scrubber b = s.scrubber b) ∧
    (∀ v, (s.setSite v).scrubber b = s.scrubber b) ∧ (∀ v, (s.setStage v).scrubber b = s.scrubber b) ∧
    (s.useFree.scrubber b = s.scrubber b) ∧ (∀ c v, (s.putCtx c v).scrubber b = s.scrubber b) ∧
    (∀ k v, (s.putRing k v).scrubber b = s.scrubber b) ∧ (∀ i v, (s.putSiphon i v).scrubber b = s.scrubber b) ∧
    (∀ c v, (s.putCulvert c v).scrubber b = s.scrubber b) ∧ (∀ l, (s.putList l).scrubber b = s.scrubber b) ∧
    (∀ l, (s.freeSlot l).scrubber b = s.scrubber b) ∧ (∀ k rp, (s.queueReply k rp).scrubber b = s.scrubber b) ∧
    (∀ k rp, (s.queueUnreserved k rp).scrubber b = s.scrubber b) ∧ (∀ f, (s.putFlight f).scrubber b = s.scrubber b) ∧
    (∀ f, (s.dropFlight f).scrubber b = s.scrubber b) ∧ (∀ a, (s.putArb a).scrubber b = s.scrubber b) ∧
    (∀ p, (s.park p).scrubber b = s.scrubber b) ∧ (∀ x, (s.hgQueue x).scrubber b = s.scrubber b) ∧
    (∀ h x, (s.hgExecuted h x).scrubber b = s.scrubber b) ∧ (∀ x, (s.say x).scrubber b = s.scrubber b) ∧
    (∀ st d, (s.mgtAnswer st d).scrubber b = s.scrubber b) ∧ (∀ b' d v, (s.putDesc b' d v).scrubber b = s.scrubber b) ∧
    (∀ b' g v, (s.putCount b' g v).scrubber b = s.scrubber b) ∧ (∀ b' g c, (s.putGctx b' g c).scrubber b = s.scrubber b) ∧
    (∀ c g, (s.loadKeys c g).scrubber b = s.scrubber b) := by
  refine ⟨?_, ?_, ?_, ?_, ?_, ?_, ?_, ?_, ?_, ?_, ?_, ?_, ?_, ?_, ?_, ?_, ?_, ?_, ?_, ?_, ?_, ?_, ?_, ?_, ?_, ?_, ?_⟩ <;> intros <;> rfl

end Sys2Proof.Machine
end

section
set_option Elab.async false -- the whole text is compiled in one process, within a fixed memory
/-! SUPPORT. What packets at work, their ends and their replies leave alone: one record of the state's other fields and of the registers
that no packet at work writes. Each operation that is a part of such work has one equation, in the order of the model. -/

namespace Sys2Proof.Machine

/-- The registers that packets at work and their ends write: counters, logs and states of units. -/
def Reg.atWork : Reg → Bool
  | .sxeSt _ _ | .mxeSt _ _ | .vxeSt _ _ | .flmSt _ _ | .sxeCnt _ _ | .mxeCnt _ _ | .vxeCnt _ _ | .flmCnt _ _ | .sphWrCnt _
  | .sphRdCnt _ | .sphIntSt _ | .bsnChkSt _ | .bsnFmtSt _ | .culE1St _ | .bsnEccLog _ | .bsnEccSt _ | .bsnTileSt _
  | .secViolLog | .secViolCnt | .ringSt _ => true
  | _ => false

@[simp] theorem Reg.atWork_units (b u : Nat) :
    (sxeSt b u).atWork = true ∧ (mxeSt b u).atWork = true ∧ (vxeSt b u).atWork = true ∧ (flmSt b u).atWork = true ∧
    (sxeCnt b u).atWork = true ∧ (mxeCnt b u).atWork = true ∧ (vxeCnt b u).atWork = true ∧ (flmCnt b u).atWork = true :=
  ⟨rfl, rfl, rfl, rfl, rfl, rfl, rfl, rfl⟩

@[simp] theorem Reg.atWork_counters (b : Nat) :
    (sphWrCnt b).atWork = true ∧ (sphRdCnt b).atWork = true ∧ (sphIntSt b).atWork = true ∧ (bsnChkSt b).atWork = true ∧
    (bsnFmtSt b).atWork = true ∧ (culE1St b).atWork = true ∧ (bsnEccLog b).atWork = true ∧ (bsnEccSt b).atWork = true ∧
    (bsnTileSt b).atWork = true ∧ (ringSt b).atWork = true :=
  ⟨rfl, rfl, rfl, rfl, rfl, rfl, rfl, rfl, rfl, rfl⟩

@[simp] theorem Reg.atWork_violations : secViolLog.atWork = true ∧ secViolCnt.atWork = true := ⟨rfl, rfl⟩

/-- The part of a state that no packet's work changes. -/
structure Standing where
  still : Reg → Word64
  pending : List Instr
  cfg : SiteConfig
  cycle : Nat
  freeUses : Nat
  mem : List Host.Cell
  memChk : List (Nat × BitVec 48)
  gaugeCtx : List (Nat × Nat)
  gaugeChk : List (Nat × BitVec 48)
  staging : List Staging
  keyGens : List (Nat × Nat)
  sphKeys : List (Nat × Nat)
  reshadows : List (Nat × List (Nat × Nat))
  nextSpawn : Nat
  riders : List (Nat × Nat)
  rode : List Nat
  active : Option Nat
  auditMs : Nat
  auditNext : Nat
  auditFrom : Nat
  auditSnap : List (Src × Nat × Nat × BitVec 32 × BitVec 32)
  arbs : List CheckArb
  beats : List Beat
  parks : List Park
  turnWait : List (Nat × Burst)
  decided : List (Nat × Nat)
  frozenAt : List (Nat × Nat × Nat)
  fillRes : List FillRun
  scrubs : List ScrubRun
  regulators : List Regulator
  scrubbers : List Scrubber
  spareCopies : List SpareCopy
  remapped : List (Nat × Nat × Nat)
  substs : List Subst
  bit7Due : List (Nat × Nat × Nat)
  retiring : List Nat
  restores : List (Nat × Nat)
  placements : List (Nat × BitVec 512)
  testsDone : Nat
  detach : Option (Nat × Nat)
  siteId : Nat
  attached : Bool
  cistern : Cistern
  running : ImageInfo
  power : Power
  start : Start
  hg : Headgate
  mgt : Mgt
  spdm : Spdm
  tap : Tap
  handover : Option Handover
  core : CtlCore
  controlDown : Bool
  downSince : Nat
  downOk : Bool
  loadOut : Word64

/-- What stands of a state. Its equation, by the pattern, opens a state that is written out, and no other. -/
def State.standing : State → Standing
  | {
      regs := rs, pending := x0, cfg := x1, cycle := x2, freeUses := x3, mem := x4, memChk := x5, gaugeCtx := x6,
      gaugeChk := x7, staging := x8, keyGens := x9, sphKeys := x10, reshadows := x11, nextSpawn := x12, riders := x13,
      rode := x14, active := x15, auditMs := x16, auditNext := x17, auditFrom := x18, auditSnap := x19, arbs := x20,
      beats := x21, parks := x22, turnWait := x23, decided := x24, frozenAt := x25, fillRes := x26, scrubs := x27,
      regulators := x28, scrubbers := x29, spareCopies := x30, remapped := x31, substs := x32, bit7Due := x33, retiring := x34,
      restores := x35, placements := x36, testsDone := x37, detach := x38, siteId := x39, attached := x40, cistern := x41,
      running := x42, power := x43, start := x44, hg := x45, mgt := x46, spdm := x47, tap := x48, handover := x49, core := x50,
      controlDown := x51, downSince := x52, downOk := x53, loadOut := x54, .. } => {
      still := fun r => if r.atWork then 0#64 else kget rs (r.resetValue x1) r
      pending := x0, cfg := x1, cycle := x2, freeUses := x3, mem := x4, memChk := x5, gaugeCtx := x6, gaugeChk := x7,
      staging := x8, keyGens := x9, sphKeys := x10, reshadows := x11, nextSpawn := x12, riders := x13, rode := x14,
      active := x15, auditMs := x16, auditNext := x17, auditFrom := x18, auditSnap := x19, arbs := x20, beats := x21,
      parks := x22, turnWait := x23, decided := x24, frozenAt := x25, fillRes := x26, scrubs := x27, regulators := x28,
      scrubbers := x29, spareCopies := x30, remapped := x31, substs := x32, bit7Due := x33, retiring := x34, restores := x35,
      placements := x36, testsDone := x37, detach := x38, siteId := x39, attached := x40, cistern := x41, running := x42,
      power := x43, start := x44, hg := x45, mgt := x46, spdm := x47, tap := x48, handover := x49, core := x50,
      controlDown := x51, downSince := x52, downOk := x53, loadOut := x54 }

@[simp] theorem State.standing_mk : type_of% @State.standing.eq_1 := State.standing.eq_1

@[simp] theorem State.standing_eta (s : State) : ({
      still := fun r => if r.atWork then 0#64 else kget s.regs (r.resetValue s.cfg) r
      pending := s.pending, cfg := s.cfg, cycle := s.cycle, freeUses := s.freeUses, mem := s.mem, memChk := s.memChk,
      gaugeCtx := s.gaugeCtx, gaugeChk := s.gaugeChk, staging := s.staging, keyGens := s.keyGens, sphKeys := s.sphKeys,
      reshadows := s.reshadows, nextSpawn := s.nextSpawn, riders := s.riders, rode := s.rode, active := s.active,
      auditMs := s.auditMs, auditNext := s.auditNext, auditFrom := s.auditFrom, auditSnap := s.auditSnap, arbs := s.arbs,
      beats := s.beats, parks := s.parks, turnWait := s.turnWait, decided := s.decided, frozenAt := s.frozenAt,
      fillRes := s.fillRes, scrubs := s.scrubs, regulators := s.regulators, scrubbers := s.scrubbers,
      spareCopies := s.spareCopies, remapped := s.remapped, substs := s.substs, bit7Due := s.bit7Due, retiring := s.retiring,
      restores := s.restores, placements := s.placements, testsDone := s.testsDone, detach := s.detach, siteId := s.siteId,
      attached := s.attached, cistern := s.cistern, running := s.running, power := s.power, start := s.start, hg := s.hg,
      mgt := s.mgt, spdm := s.spdm, tap := s.tap, handover := s.handover, core := s.core, controlDown := s.controlDown,
      downSince := s.downSince, downOk := s.downOk, loadOut := s.loadOut } : Standing) = s.standing := (rfl)

theorem State.standing_still (s : State) {r : Reg} (h : r.atWork = false) : s.standing.still r = s.reg r :=
  if_neg (by rw [h]; exact Bool.false_ne_true)

/-- Registers that packets at work do not write are the same where what stands is. -/
theorem State.reg_of_standing {s t : State} (h : t.standing = s.standing) {r : Reg} (hr : r.atWork = false) : t.reg r = s.reg r := by
  rw [← t.standing_still hr, ← s.standing_still hr, h]

@[simp] theorem State.standing_putReg (s : State) (k : Reg) (v : Word64) (h : k.atWork = true) :
    (s.putReg k v).standing = s.standing := by
  refine congrArg (fun f => ({ s.standing with still := f } : Standing)) (funext fun r => ?_)
  split
  · rfl
  · next hr => exact State.reg_putReg_ne s (fun e => hr (by rw [e]; exact h)) v

@[simp] theorem State.standing_ite (c : Prop) [Decidable c] (s t : State) :
    (if c then s else t).standing = if c then s.standing else t.standing := by
  split <;> rfl

@[simp] theorem State.standing_ite_fst {β : Type} (c : Prop) [Decidable c] (a b : State × β) :
    (if c then a else b).1.standing = if c then a.1.standing else b.1.standing := by
  split <;> rfl

/-- A fold leaves what its step leaves. -/
@[simp] theorem State.standing_foldl {α : Type} (f : State → α → State) (hf : ∀ s x, (f s x).standing = s.standing) (l : List α)
    (s : State) : (l.foldl f s).standing = s.standing :=
  foldl_keeps (fun t : State => t.standing = s.standing) f (fun t x h => (hf t x).trans h) l s rfl

@[simp] theorem State.standing_foldl_fst {α β : Type} (f : State × β → α → State × β)
    (hf : ∀ a x, (f a x).1.standing = a.1.standing) (l : List α) (a : State × β) : (l.foldl f a).1.standing = a.1.standing :=
  foldl_keeps (fun b : State × β => b.1.standing = a.1.standing) f (fun b x h => (hf b x).trans h) l a rfl

end Sys2Proof.Machine
end

section
set_option Elab.async false -- the whole text is compiled in one process, within a fixed memory
/-! SUPPORT. What stands (see above) under the operations that packets' work is made of. -/

namespace Sys2Proof.Machine

variable (s : State)

/-! ### Fields and records -/

@[simp] theorem State.standing_putFld (k lo n v) (h : k.atWork = true) : (s.putFld k lo n v).standing = s.standing :=
  s.standing_putReg k _ h

@[simp] theorem State.standing_bump (k lo n i) (h : k.atWork = true) : (s.bump k lo n i).standing = s.standing := by
  unfold State.bump
  split
  · rfl
  · exact s.standing_putReg k _ h

@[simp] theorem State.standing_bumpWrap (k lo n i) (h : k.atWork = true) : (s.bumpWrap k lo n i).standing = s.standing :=
  s.standing_putReg k _ h

@[simp] theorem State.standing_setW1c (k m) (h : k.atWork = true) : (s.setW1c k m).standing = s.standing :=
  s.standing_putReg k _ h

@[simp] theorem State.standing_putSiphon (i v) : (s.putSiphon i v).standing = s.standing := (rfl)

@[simp] theorem State.standing_putDesc (b d v) : (s.putDesc b d v).standing = s.standing := (rfl)

@[simp] theorem State.standing_unlock (b d) : (s.unlock b d).standing = s.standing := (rfl)


@[simp] theorem State.standing_putCtx (c v) : (s.putCtx c v).standing = s.standing := (rfl)

@[simp] theorem State.standing_putRing (k v) : (s.putRing k v).standing = s.standing := (rfl)

@[simp] theorem State.standing_putCulvert (c v) : (s.putCulvert c v).standing = s.standing := (rfl)

@[simp] theorem State.standing_putList (l) : (s.putList l).standing = s.standing := (rfl)

@[simp] theorem State.standing_freeSlot (l) : (s.freeSlot l).standing = s.standing := (rfl)

@[simp] theorem State.standing_queueReply (k rp) : (s.queueReply k rp).standing = s.standing := (rfl)

@[simp] theorem State.standing_queueUnreserved (k rp) : (s.queueUnreserved k rp).standing = s.standing := (rfl)

@[simp] theorem State.standing_putFlight (f) : (s.putFlight f).standing = s.standing := (rfl)

@[simp] theorem State.standing_dropFlight (f) : (s.dropFlight f).standing = s.standing := (rfl)

@[simp] theorem State.standing_post (e) : (s.post e).standing = s.standing := by
  unfold State.post; split <;> rfl

@[simp] theorem State.standing_violation (source a write) :
    (s.violation source a write).standing = s.standing := by
  unfold State.violation; split <;> simp

@[simp] theorem State.standing_eccLog (b kind bank row r c turnout) :
    (s.eccLog b kind bank row r c turnout).standing = s.standing := by
  unfold State.eccLog; split <;> simp

@[simp] theorem State.standing_readDesc (b d) :
    (s.readDesc b d).1.standing = s.standing := by
  unfold State.readDesc; split <;> simp

@[simp] theorem State.standing_noteBadDesc (b d turnout ends) :
    (s.noteBadDesc b d turnout ends).standing = s.standing := by
  unfold State.noteBadDesc; split <;> simp

@[simp] theorem State.standing_dueInc (b g inc) :
    (s.dueInc b g inc).standing = s.standing := by
  unfold State.dueInc; split <;> simp

@[simp] theorem State.standing_addStats (src st) :
    (s.addStats src st).standing = s.standing := by
  unfold State.addStats; split <;> simp

@[simp] theorem State.standing_endList (b k st) :
    (s.endList b k st).standing = s.standing := by
  unfold State.endList; split <;> simp

@[simp] theorem State.standing_listPacketDone (b k off p o cycles) :
    (s.listPacketDone b k off p o cycles).standing = s.standing := by
  unfold State.listPacketDone; split <;> simp

@[simp] theorem State.standing_packetDone (src spawn off p basin start o once extra) :
    (s.packetDone src spawn off p basin start o once extra).standing = s.standing := by
  unfold State.packetDone; split <;> simp

@[simp] theorem State.standing_settle (n) :
    (State.settle n s).standing = s.standing := by
  induction n generalizing s with
  | zero => rfl
  | succ n ih =>
    rw [State.settle]
    split
    · rfl
    · simp [ih]

@[simp] theorem State.standing_finish (src spawn off p basin start o once extra) :
    (s.finish src spawn off p basin start o once extra).standing = s.standing := by
  simp [State.finish]

@[simp] theorem State.standing_hold (f ph b d setsWait) :
    (s.hold f ph b d setsWait).standing = s.standing := by
  simp [State.hold]

@[simp] theorem State.standing_fixWait (b d) :
    (s.fixWait b d).standing = s.standing := by
  unfold State.fixWait; split <;> simp

@[simp] theorem State.standing_closeBroken (b d) :
    (s.closeBroken b d).standing = s.standing := by
  simp [State.closeBroken]

@[simp] theorem State.standing_openTile (b d) :
    (s.openTile b d).standing = s.standing := by
  simp [State.openTile]

@[simp] theorem State.standing_breakLock (b d) :
    (s.breakLock b d).standing = s.standing := by
  simp [State.breakLock]

@[simp] theorem State.standing_grantCulvert (n c) :
    (State.grantCulvert n s c).standing = s.standing := by
  induction n generalizing s with
  | zero => rfl
  | succ n ih =>
    rw [State.grantCulvert]
    split
    · rfl
    · dsimp only
      split
      · rfl
      · split <;> simp [ih]

@[simp] theorem State.standing_countSend (c slot) :
    (s.countSend c slot).standing = s.standing := by
  simp [State.countSend]

@[simp] theorem State.standing_sendRecord (f i record job e1 n) :
    (s.sendRecord f i record job e1 n).standing = s.standing := by
  unfold State.sendRecord; split <;> simp

@[simp] theorem State.standing_siphonEvent (sph block kind) :
    (s.siphonEvent sph block kind).standing = s.standing := by
  simp [State.siphonEvent]

@[simp] theorem State.standing_seal (sph block) :
    (s.seal sph block).standing = s.standing := by
  simp [State.seal]

@[simp] theorem State.standing_damage (sph block) :
    (s.damage sph block).standing = s.standing := by
  simp [State.damage]

@[simp] theorem State.standing_verifyBlock (sph block fail1 fail2) :
    (s.verifyBlock sph block fail1 fail2).1.standing = s.standing := by
  unfold State.verifyBlock; split <;> simp

@[simp] theorem State.standing_readBlock (sph block fail1 fail2) :
    (s.readBlock sph block fail1 fail2).1.standing = s.standing := by
  unfold State.readBlock
  split_ifs <;> simp

@[simp] theorem State.standing_clearPage (sph page) :
    (s.clearPage sph page).standing = s.standing := by
  simp [State.clearPage]

theorem State.standing_withPages (c p) : ({ s with combining := c, pages := p } : State).standing = s.standing := (rfl)

@[simp] theorem State.standing_flushPage (sph page) :
    (s.flushPage sph page).standing = s.standing := by
  unfold State.flushPage
  split
  · rw [State.standing_withPages]
    simp
  · rfl

@[simp] theorem State.standing_combinerSlot (sph page) :
    (s.combinerSlot sph page).standing = s.standing := by
  unfold State.combinerSlot; split <;> simp

@[simp] theorem State.standing_writeBlock (sph block o bs fail1 fail2) :
    (s.writeBlock sph block o bs fail1 fail2).standing = s.standing := by
  unfold State.writeBlock
  split_ifs
  · rfl
  · simp
  · exact (State.standing_seal _ _ _).trans (State.standing_bumpWrap _ _ _ _ _ (by simp))
  · simp
  · simp [State.combine]

@[simp] theorem State.standing_movedBlock (who sph block) :
    (s.movedBlock who sph block).standing = s.standing := by
  unfold State.movedBlock; split <;> simp

@[simp] theorem State.standing_stackRead (a len who) :
    (s.stackRead a len who).1.standing = s.standing := by
  unfold State.stackRead
  refine State.standing_foldl_fst _ (fun acc p => ?_) _ (s, _)
  dsimp only
  split
  · rfl
  · split <;> simp

@[simp] theorem State.standing_stackWrite (a bs who) :
    (s.stackWrite a bs who).standing = s.standing := by
  refine State.standing_foldl _ (fun t p => ?_) _ s
  split <;> simp

@[simp] theorem State.standing_releaseReader (b d) :
    (s.releaseReader b d).standing = s.standing := by
  simp [State.releaseReader]

@[simp] theorem State.standing_readFailed (f b d) :
    (s.readFailed f b d).standing = s.standing := by
  simp [State.readFailed, State.findingsFailed]

@[simp] theorem State.standing_failHead (f lane idx st) :
    (s.failHead f lane idx st).standing = s.standing := by
  simp [State.failHead]

@[simp] theorem State.standing_askRead (f b d idx lane) :
    (s.askRead f b d idx lane).standing = s.standing := by
  simp only [State.askRead]; split <;> simp

@[simp] theorem State.standing_askWrite (f b d role idx lane) :
    (s.askWrite f b d role idx lane).standing = s.standing := by
  simp only [State.askWrite]; repeat' split
  all_goals simp [State.waitPath, State.startWrite]

@[simp] theorem State.standing_zmapStep (f b d i) :
    (s.zmapStep f b d i).standing = s.standing := by
  simp [State.zmapStep]

@[simp] theorem State.standing_stackStep (f i) :
    (s.stackStep f i).standing = s.standing := by
  unfold State.stackStep; split <;> simp

@[simp] theorem State.standing_recordStep (f i) :
    (s.recordStep f i).standing = s.standing := by
  unfold State.recordStep; split <;> simp

@[simp] theorem State.standing_sendStep (f i) :
    (s.sendStep f i).standing = s.standing := by
  unfold State.sendStep; split <;> simp [State.takeCounter]

@[simp] theorem State.standing_planStep (f) :
    (s.planStep f).standing = s.standing := by
  unfold State.planStep; split <;> simp

@[simp] theorem State.standing_setUnit (u v) :
    (s.setUnit u v).standing = s.standing := by
  unfold State.setUnit; split <;> simp

@[simp] theorem State.standing_takeUnit (f r) :
    (s.takeUnit f r).1.standing = s.standing := by
  simp only [State.takeUnit]; split <;> simp

@[simp] theorem State.standing_freeUnit (f r) :
    (s.freeUnit f r).standing = s.standing := by
  unfold State.freeUnit; split <;> simp

@[simp] theorem State.standing_againStep (f lane) :
    (s.againStep f lane).standing = s.standing := by
  unfold State.againStep; split <;> simp

@[simp] theorem State.standing_releaseUnits (us) :
    (s.releaseUnits us).standing = s.standing := by
  simp [State.releaseUnits]

@[simp] theorem State.standing_respond (c xtag st) :
    (s.respond c xtag st).standing = s.standing := by
  simp [State.respond]

@[simp] theorem State.standing_dropRequests (i) :
    (s.dropRequests i).standing = s.standing := by
  simp [State.dropRequests]

@[simp] theorem State.standing_closeOpened (ts) :
    (s.closeOpened ts).standing = s.standing := by
  simp [State.closeOpened]

@[simp] theorem State.standing_endFlight (f) :
    (s.endFlight f).standing = s.standing := by
  unfold State.endFlight; repeat' split
  all_goals simp [State.restoreEnd]

@[simp] theorem State.standing_runFlight (n i) :
    (State.runFlight n s i).standing = s.standing := by
  induction n generalizing s with
  | zero => rfl
  | succ n ih =>
    rw [State.runFlight]
    split
    · rfl
    · split_ifs
      · rfl
      · split
        · simp
        · split_ifs
          · simp [ih]
          · rw [ih]
            split <;> simp

@[simp] theorem State.standing_go (i) :
    (s.go i).standing = s.standing := by
  simp [State.go]

@[simp] theorem State.standing_retry (i) :
    (s.retry i).standing = s.standing := by
  unfold State.retry; repeat' split
  all_goals simp

@[simp] theorem State.standing_retryAll (is) :
    (s.retryAll is).standing = s.standing := by
  simp [State.retryAll]

@[simp] theorem State.standing_afterBreak (b d) :
    (s.afterBreak b d).standing = s.standing := by
  simp [State.afterBreak]

@[simp] theorem State.standing_afterReads (b d) :
    (s.afterReads b d).standing = s.standing := by
  simp [State.afterReads]

@[simp] theorem State.standing_wakeFlight (i) :
    (s.wakeFlight i).standing = s.standing := by
  unfold State.wakeFlight; split <;> simp

@[simp] theorem State.standing_runReady :
    s.runReady.standing = s.standing := by
  simp [State.runReady]

@[simp] theorem State.standing_killFlight (f) :
    (s.killFlight f).standing = s.standing := by
  unfold State.killFlight; split <;> simp

@[simp] theorem State.standing_holdSrc (src h) :
    (s.holdSrc src h).standing = s.standing := by
  unfold State.holdSrc; repeat' split
  all_goals simp

@[simp] theorem State.standing_killAll (fs) :
    (s.killAll fs).standing = s.standing := by
  simp [State.killAll]

@[simp] theorem State.standing_breakLocks (c) :
    (s.breakLocks c).1.standing = s.standing := by
  simp [State.breakLocks]

@[simp] theorem State.standing_endFaulted (src p basin start) :
    (s.endFaulted src p basin start).standing = s.standing := by
  simp only [State.endFaulted]; repeat' split
  all_goals simp

@[simp] theorem State.standing_faultContext (c) : (s.faultContext c).standing = s.standing := by
  unfold State.faultContext
  split
  · rfl
  · simp

end Sys2Proof.Machine
end

section
set_option Elab.async false -- the whole text is compiled in one process, within a fixed memory
/-! SUPPORT. The responder's sessions, and the requests it keeps over a transition (R380–R382, R386). -/

namespace Sys2Proof.Machine

variable {s : State}

/-! ### Sessions -/

theorem State.id_of_session? {i : Nat} {x : Session} (h : s.session? i = some x) : x.id = i := by
  simpa using List.find?_some h

/-- Eight numbers are in use only by eight sessions. -/
theorem State.session?_newSession (h : s.spdm.sessions.length < 8) : s.session? s.newSession = none := by
  unfold State.newSession
  cases hf : (List.range 8).find? fun i => (s.session? (i + 1)).isNone with
  | some i => simpa using List.find?_some hf
  | none =>
    exfalso
    have hsub : (List.range 8).map (· + 1) ⊆ s.spdm.sessions.map (·.id) := by
      intro j hj
      obtain ⟨i, hi, rfl⟩ := List.mem_map.1 hj
      have hsome := List.find?_eq_none.1 hf i hi
      obtain ⟨x, hx⟩ : ∃ x, s.session? (i + 1) = some x := by
        simpa [← Option.isSome_iff_exists, Option.isSome_iff_ne_none] using hsome
      exact List.mem_map.2 ⟨x, List.mem_of_find?_eq_some hx, State.id_of_session? hx⟩
    have hle := (List.subperm_of_subset (List.nodup_range.map (add_left_injective 1)) hsub).length_le
    simp at hle
    omega

theorem State.session?_putSession {i : Nat} {x y : Session} (hx : s.session? i = some x) (hy : y.id = x.id) :
    (s.putSession y).session? i = some y := by
  have hid := State.id_of_session? hx
  have hp : ((fun z : Session => decide (z.id = i)) ∘ fun z : Session => if z.id = y.id then y else z) =
      fun z : Session => decide (z.id = i) := by
    funext z
    simp only [Function.comp_apply]
    split
    · next hz => rw [hz]
    · rfl
  rw [State.session?, State.putSession, List.find?_map, hp]
  rw [State.session?] at hx
  simp [hx, hy]

theorem State.session?_putSession_id {i : Nat} {x y : Session} (hx : s.session? i = some x) (hy : y.id = x.id) :
    (s.putSession y).session? x.id = some y := by
  rw [State.id_of_session? hx]
  exact State.session?_putSession hx hy

theorem State.spdm_faultContext (s : State) (c : Nat) : (s.faultContext c).spdm = s.spdm :=
  congrArg Standing.spdm (s.standing_faultContext c)

theorem State.spdm_tdispError (s : State) (c : Nat) : (s.tdispError c).spdm = s.spdm := by
  unfold State.tdispError
  split
  · exact State.spdm_faultContext _ c
  · rfl

theorem State.sessions_dropSession (s : State) (i : Nat) :
    (s.dropSession i).spdm.sessions = s.spdm.sessions.filter fun x => x.id ≠ i := by
  have hfold := foldl_keeps (fun t : State => t.spdm = { s.spdm with sessions := s.spdm.sessions.filter fun x => x.id ≠ i })
    State.tdispError (fun t c h => (State.spdm_tdispError t c).trans h)
    ((List.range 8).filter fun c => s.rfld (.secCtxSt c) 32 8 = i)
    { s with spdm := { s.spdm with sessions := s.spdm.sessions.filter fun x => x.id ≠ i } } rfl
  exact congrArg Spdm.sessions hfold

theorem State.session?_dropSession (s : State) (i : Nat) : (s.dropSession i).session? i = none := by
  rw [State.session?, State.sessions_dropSession, List.find?_eq_none]
  simp

/-! ### Requests that wait (R386) -/

theorem State.heldOf_answerLater (s : State) (r : SpdmReq) (c : SpdmCall) :
    (s.answerLater r c).heldOf r.ring = some (s.spdm.token % 255 + 1, r, c) := by
  have hnone : (s.spdm.held.filter fun x => x.2.1.ring ≠ r.ring).find? (fun x => x.2.1.ring = r.ring) = none := by
    simp [List.find?_eq_none]
  exact (List.find?_append ..).trans ((congrArg (Option.or · _) hnone).trans (by simp))

theorem State.heldOf_answerLater_ne (s : State) (r : SpdmReq) (c : SpdmCall) {k : Nat} (hk : k ≠ r.ring) :
    (s.answerLater r c).heldOf k = s.heldOf k := by
  have hsame : (s.spdm.held.filter fun x => x.2.1.ring ≠ r.ring).find? (fun x => x.2.1.ring = k) = s.heldOf k := by
    rw [List.find?_filter, State.heldOf]
    congr 1
    funext x
    by_cases hx : x.2.1.ring = k <;> simp [hx, hk]
  exact (List.find?_append ..).trans ((congrArg (Option.or · _) hsame).trans (by simp [Ne.symm hk]))

/-- In a transition a request is kept (R386). -/
theorem State.request_of_notReady {r : SpdmReq} {c : SpdmCall} (hrel : s.start.released = true) (hscrub : s.scrubbing = false)
    (hwait : s.notReadyNow = true) : s.request r c = s.answerLater r c := by
  simp [State.request, hrel, hscrub, hwait]

/-- RESPOND_IF_READY finds the request its ring had kept. -/
theorem State.respondHeld_of_held {r r0 : SpdmReq} {c : SpdmCall} {token : Nat} (hrel : s.start.released = true)
    (hscrub : s.scrubbing = false) (hheld : s.heldOf r.ring = some (token, r0, c)) (hsess : r0.session = r.session) :
    s.respondHeld r = if r.param2.toNat ≠ token then s.say .errorUnexpected
      else if s.notReadyNow then s.notReady token
      else ({ s with spdm := { s.spdm with held := s.spdm.held.filter fun x => x.2.1.ring ≠ r.ring } }).request r0 c := by
  simp [State.respondHeld, hrel, hscrub, hheld, hsess]

/-! ### Answers in sessions -/

/-- A key exchange with slot 0, a free session and sound entropy opens the session (R359, R382). -/
theorem State.answer_keyExchange {r : SpdmReq} (hlen : s.spdm.sessions.length < 8) (hslot : r.param2.toNat % 16 = 0) :
    (s.answer r (.keyExchange true)).spdm.resp = .keyExchangeRsp s.newSession ∧
      (s.answer r (.keyExchange true)).spdm.sessions = s.spdm.sessions ++ [⟨s.newSession, r.ring, false, false⟩] := by
  simp only [State.answer, (slotZero_iff _).2 hslot, Nat.not_le.2 hlen]
  exact ⟨rfl, rfl⟩

theorem State.answer_keyExchange_unsound {r : SpdmReq} (hlen : s.spdm.sessions.length < 8) (hslot : r.param2.toNat % 16 = 0) :
    s.answer r (.keyExchange false) = s.say .none := by
  simp only [State.answer, (slotZero_iff _).2 hslot, Nat.not_le.2 hlen]
  rfl

theorem State.answer_keyExchange_full {r : SpdmReq} (hlen : 8 ≤ s.spdm.sessions.length) (hslot : r.param2.toNat % 16 = 0) (e : Bool) :
    s.answer r (.keyExchange e) = s.say .errorBusy := by
  simp only [State.answer, (slotZero_iff _).2 hslot, if_pos hlen]
  rfl

theorem State.answer_keyExchange_slot {r : SpdmReq} (hslot : r.param2.toNat % 16 ≠ 0) (e : Bool) :
    s.answer r (.keyExchange e) = s.say (.errorUnsupported 0xE4) := by
  simp only [State.answer, (slotZero_eq_false _).2 hslot]
  rfl

/-- A signed exchange inside a finished session attests it (R381). -/
theorem State.answer_getMeasurements {r : SpdmReq} {bs : List (Nat × List Word64)} (hbs : s.measurementsOf r.param2.toNat = some bs)
    (hsigned : r.param1.getLsbD 0 = true → r.slot.toNat % 16 = 0) :
    s.answer r .getMeasurements = (match s.session? r.session.toNat with
      | some x => if bit r.param1 0 && x.finished then s.putSession { x with attested := true } else s
      | none => s).say (.measurements bs (bit r.param1 0)) := by
  have hslot : ¬ (bit r.param1 0 = true ∧ (!slotZero r.slot) = true) := fun ⟨h1, h2⟩ => by
    rw [(slotZero_iff _).2 (hsigned h1)] at h2
    exact absurd h2 (by decide)
  simp only [State.answer, if_neg hslot, hbs] <;> rfl

/-- Settles O9: a request heard is answered, and its answer is written out; sessions are added, replaced and dropped in their list;
in a transition the request is kept for its ring. -/
theorem sessionsAndTransitions : Obligations.SessionsAndTransitions := by
  unfold Obligations.SessionsAndTransitions
  refine ⟨fun s r h => ⟨fun hlen hslot => ⟨?_, ?_⟩, fun hlen hslot e => ?_, fun hslot e => ?_, fun x hx => ⟨?_, ?_, ?_⟩,
    fun bs hbs hsigned => ?_⟩, fun s r c i hrel hscrub hwait hi => ?_,
    fun s r r0 c token hrel hscrub hheld hsess => ⟨fun htok hready hplain hc => ?_, fun htok hwait => ?_, fun htok => ?_⟩⟩
  · obtain ⟨hresp, hsessions⟩ := State.answer_keyExchange hlen hslot
    exact ⟨_, s.newSession, congrArg ok (h.request (.keyExchange true)), hresp, State.session?_newSession hlen, hsessions⟩
  · exact congrArg ok ((h.request _).trans (State.answer_keyExchange_unsound hlen hslot))
  · exact congrArg ok ((h.request _).trans (State.answer_keyExchange_full hlen hslot e))
  · exact congrArg ok ((h.request _).trans (State.answer_keyExchange_slot hslot e))
  · refine ⟨_, congrArg ok (h.request (.finish true)), ?_⟩
    simp only [State.answer, hx]
    exact ⟨rfl, State.session?_putSession_id hx rfl⟩
  · have hid := State.id_of_session? hx
    refine ⟨_, congrArg ok (h.request (.finish false)), ?_⟩
    simp only [State.answer, hx]
    exact ⟨rfl, hid ▸ State.session?_dropSession s _⟩
  · have hid := State.id_of_session? hx
    refine ⟨_, congrArg ok (h.request .endSession), ?_⟩
    simp only [State.answer, hx]
    exact ⟨rfl, hid ▸ State.session?_dropSession s _⟩
  · refine ⟨_, congrArg ok ((h.request .getMeasurements).trans (State.answer_getMeasurements hbs hsigned)), rfl, ?_⟩
    cases hx : s.session? r.session.toNat with
    | none => exact ⟨rfl, rfl, fun x hx' => absurd hx' (by simp)⟩
    | some x =>
      refine ⟨?_, ?_, fun x' hx' hfin hbit => ?_⟩
      · simp only
        split <;> rfl
      · simp only
        split <;> rfl
      · obtain rfl := Option.some.inj hx'
        have hif : (bit r.param1 0 && x.finished) = true := by rw [hfin]; exact (Bool.and_true _).trans hbit
        simp only [hif, if_true]
        exact State.session?_putSession_id hx rfl
  · have hi' : exec i s = ok (s.request r c) := by
      obtain ⟨rfl, rfl⟩ | ⟨rfl, rfl⟩ := hi <;> rfl
    refine ⟨_, _, hi'.trans (congrArg ok (State.request_of_notReady hrel hscrub hwait)), s.heldOf_answerLater r c, rfl,
      fun k hk => s.heldOf_answerLater_ne r c hk⟩
  · have hears : ({ s with spdm := { s.spdm with held := s.spdm.held.filter fun x => x.2.1.ring ≠ r.ring } } : State).Hears r0 :=
      ⟨hrel, hready, hscrub, .inl hplain⟩
    refine congrArg ok ((State.respondHeld_of_held hrel hscrub hheld hsess).trans ?_)
    rw [if_neg (not_not.2 htok), if_neg (by rw [hready]; exact Bool.false_ne_true), hc,
      hears.request (c := .getVersion) (by simp [versionFits, SpdmCall.code])]
    rfl
  · refine congrArg ok ((State.respondHeld_of_held hrel hscrub hheld hsess).trans ?_)
    rw [if_neg (not_not.2 htok), if_pos hwait]
    rfl
  · refine congrArg ok ((State.respondHeld_of_held hrel hscrub hheld hsess).trans ?_)
    simp only [if_pos htok]
    rfl

end Sys2Proof.Machine
end

section
set_option Elab.async false -- the whole text is compiled in one process, within a fixed memory
/-! SUPPORT. A scrub's first cycle (R368, R369), from whatever stands. -/

namespace Sys2Proof.Machine

/-! ### What is read of what stands -/

section
variable {s t : State} (h : t.standing = s.standing)
include h

theorem State.cfg_of_standing : t.cfg = s.cfg := congrArg Standing.cfg h

theorem State.site_of_standing : t.site = s.site := by
  rw [State.site, State.rfld, State.reg_of_standing h rfl]
  rfl

theorem State.now_of_standing : t.now = s.now := by
  rw [State.now, State.reg_of_standing h rfl]
  rfl

theorem State.live_of_standing (b : Nat) : t.live b = s.live b := by
  rw [State.live, State.reg_of_standing h rfl]
  rfl

theorem State.liveBasins_of_standing : t.liveBasins = s.liveBasins := by
  rw [State.liveBasins, State.cfg_of_standing h, funext (State.live_of_standing h)]
  rfl

theorem State.levees_of_standing (b : Nat) : t.levees b = s.levees b := by
  have hA : ∀ n, t.reg (.bsnLeveeA b n) = s.reg (.bsnLeveeA b n) := fun n => State.reg_of_standing h rfl
  have hB : ∀ n, t.reg (.bsnLeveeB b n) = s.reg (.bsnLeveeB b n) := fun n => State.reg_of_standing h rfl
  simp only [State.levees, hA, hB]

theorem State.MayScrub.of_standing (hm : s.MayScrub) : t.MayScrub := by
  obtain ⟨hscrubs, hdiv, hsite⟩ := hm
  refine ⟨(congrArg Standing.scrubs h).trans hscrubs, (congrArg (fun x => x.power.divTo) h).trans hdiv, ?_⟩
  rw [State.site_of_standing h]
  exact hsite

/-- What a scrub's first cycle shows speaks only of what stood before it. -/
theorem State.ScrubBegun.of_standing {u : State} {c : Nat} {what : ScrubFor} (hb : t.ScrubBegun u c what) : s.ScrubBegun u c what := by
  obtain ⟨hsite, hgone, es, hscrubs, hfill⟩ := hb
  refine ⟨hsite, hgone, es, ?_, fun b hlive => ?_⟩
  · rw [hscrubs, State.now_of_standing h, State.site_of_standing h, show t.cycle = s.cycle from congrArg Standing.cycle h]
  · obtain ⟨hf, hl⟩ := hfill b (by rw [State.liveBasins_of_standing h]; exact hlive)
    refine ⟨?_, fun l hl' => hl l (by rw [State.levees_of_standing h]; exact hl')⟩
    rw [State.cfg_of_standing h] at hf
    intro k hk
    have hk' := hf k (by rw [State.cfg_of_standing h]; exact hk)
    rwa [show t.cycle = s.cycle from congrArg Standing.cycle h] at hk'

end

/-! ### Work that ends -/

@[simp] theorem State.standing_endWork (s : State) (c : Nat) (keep : Option Handed) :
    (s.endWork c keep).1.standing = s.standing := by
  simp [State.endWork]

@[simp] theorem State.standing_killArrivals (s : State) (c : Nat) : (s.killArrivals c).standing = s.standing := by
  unfold State.killArrivals
  dsimp only
  rw [State.standing_foldl]
  · simp
  · intro t f
    split <;> simp

/-! ### Levee entries of a context (R41, R363) -/

/-- What a fold's step brings about for one element stands at its end, where no step undoes it. -/
theorem foldl_of_mem {α β : Type} {Q P : β → Prop} {f : β → α → β} (hQ : ∀ s x, Q s → Q (f s x)) (hP : ∀ s x, Q s → P s → P (f s x))
    {x : α} (hx : ∀ s, Q s → P (f s x)) {l : List α} (h : x ∈ l) (s : β) (hs : Q s) : P (l.foldl f s) := by
  induction l generalizing s with
  | nil => cases h
  | cons y ys ih =>
    obtain rfl | hmem := List.mem_cons.1 h
    · exact (foldl_keeps (fun s => Q s ∧ P s) f (fun s y h => ⟨hQ s y h.1, hP s y h.1 h.2⟩) ys (f s x) ⟨hQ s x hs, hx s hs⟩).2
    · exact ih hmem (f s y) (hQ s y hs)

theorem State.mem_levees {s : State} {b : Nat} {l : Levee} : l ∈ s.levees b ↔ ∃ n, n < 32 ∧ bit (s.reg (.bsnLeveeA b n)) 63 = true ∧
    l = ⟨fld (s.reg (.bsnLeveeA b n)) 60 3, fld (s.reg (.bsnLeveeA b n)) 56 4, fld (s.reg (.bsnLeveeA b n)) 0 18,
      fld (s.reg (.bsnLeveeA b n)) 32 19, fld (s.reg (.bsnLeveeB b n)) 50 14, fld (s.reg (.bsnLeveeB b n)) 32 14,
      fld (s.reg (.bsnLeveeB b n)) 16 12, fld (s.reg (.bsnLeveeB b n)) 0 12⟩ := by
  rw [State.levees, List.mem_filterMap]
  refine exists_congr fun n => and_congr List.mem_range ?_
  by_cases hbit : bit (s.reg (.bsnLeveeA b n)) 63 = true
  · simpa [hbit] using eq_comm
  · simp [hbit]

theorem State.mem_ctxLevees {s : State} {c : Nat} {e : Nat × Nat × Word64 × Word64} : e ∈ s.ctxLevees c ↔
    ∃ b n, b ∈ s.liveBasins ∧ n < 32 ∧ bit (s.reg (.bsnLeveeA b n)) 63 = true ∧ fld (s.reg (.bsnLeveeA b n)) 56 4 = c ∧
      e = (b, n, s.reg (.bsnLeveeA b n), s.reg (.bsnLeveeB b n)) := by
  simp only [State.ctxLevees, List.mem_flatMap, List.mem_filterMap, List.mem_range]
  refine exists_congr fun b => ?_
  rw [← exists_and_left]
  refine exists_congr fun n => and_congr_right fun _ => and_congr_right fun _ => ?_
  by_cases hbit : bit (s.reg (.bsnLeveeA b n)) 63 = true ∧ fld (s.reg (.bsnLeveeA b n)) 56 4 = c
  · simpa [hbit] using eq_comm
  · simpa [hbit] using fun h1 h2 => absurd ⟨h1, h2⟩ hbit

/-- Levee entries written zero. -/
def State.dropLevees (s : State) (es : List (Nat × Nat × Word64 × Word64)) : State :=
  es.foldl (fun (t : State) e => (t.putReg (.bsnLeveeA e.1 e.2.1) 0).putReg (.bsnLeveeB e.1 e.2.1) 0) s

theorem State.reg_dropLevees_of_mem (s : State) {es : List (Nat × Nat × Word64 × Word64)} {e : Nat × Nat × Word64 × Word64}
    (h : e ∈ es) : (s.dropLevees es).reg (.bsnLeveeA e.1 e.2.1) = 0 := by
  refine foldl_of_mem (Q := fun _ => True) (P := fun t : State => t.reg (.bsnLeveeA e.1 e.2.1) = 0) (fun _ _ _ => trivial)
    (fun t y _ ht => ?_) (fun t _ => ?_) h s trivial
  · rw [State.reg_putReg_ne _ (by simp), State.reg_putReg]
    split
    · rfl
    · exact ht
  · simp

theorem State.reg_dropLevees_ne (s : State) {es : List (Nat × Nat × Word64 × Word64)} {r : Reg}
    (h : ∀ e ∈ es, r ≠ .bsnLeveeA e.1 e.2.1 ∧ r ≠ .bsnLeveeB e.1 e.2.1) : (s.dropLevees es).reg r = s.reg r := by
  induction es generalizing s with
  | nil => rfl
  | cons e es ih =>
    obtain ⟨hA, hB⟩ := h e (by simp)
    refine (ih _ fun e' he' => h e' (List.mem_cons_of_mem _ he')).trans ?_
    simp [hA, hB]

/-! ### Areas of a fill -/

/-- Of the areas that contain one, a longest is contained in no other. -/
theorem exists_maximal_area {as : List (Nat × Nat)} (hle : ∀ x ∈ as, x.1 ≤ x.2) {w : Nat × Nat} (hw : w ∈ as) :
    ∃ a ∈ as, (a.1 ≤ w.1 ∧ w.2 ≤ a.2) ∧ ∀ y ∈ as, y.1 ≤ a.1 → a.2 ≤ y.2 → y = a := by
  obtain ⟨a, ha, hmax⟩ := Finset.exists_max_image (as.toFinset.filter fun x => x.1 ≤ w.1 ∧ w.2 ≤ x.2) (fun x => x.2 - x.1)
    ⟨w, by simp [hw]⟩
  obtain ⟨hmem, h1, h2⟩ : a ∈ as ∧ a.1 ≤ w.1 ∧ w.2 ≤ a.2 := by simpa using ha
  refine ⟨a, hmem, ⟨h1, h2⟩, fun y hy hy1 hy2 => ?_⟩
  have hlen : y.2 - y.1 ≤ a.2 - a.1 := hmax y (by
    rw [Finset.mem_filter, List.mem_toFinset]
    exact ⟨hy, by omega, by omega⟩)
  have hya := hle y hy
  have haa := hle a hmem
  exact Prod.ext (by omega) (by omega)

theorem mem_of_mem_leveeAreas {es : List (Nat × Nat × Word64 × Word64)} {b : Nat} {e : Nat × Nat × Word64 × Word64} (he : e ∈ es)
    (hb : e.1 = b) (hk : leveeKind e.2.2.1 ≠ 2) :
    ∃ a ∈ leveeAreas es b, a.1 ≤ (leveeWords e.2.2.1).1 ∧ (leveeWords e.2.2.1).2 ≤ a.2 := by
  have hmem : ∀ x, x ∈ ((es.filter fun x => x.1 = b && leveeKind x.2.2.1 ≠ 2).map fun x => leveeWords x.2.2.1).eraseDups ↔
      ∃ x' ∈ es, (x'.1 = b ∧ leveeKind x'.2.2.1 ≠ 2) ∧ leveeWords x'.2.2.1 = x := by
    simp [List.mem_eraseDups, and_assoc]
  obtain ⟨a, ha, hw, hmax⟩ := exists_maximal_area (fun x hx => by
    obtain ⟨x', -, -, rfl⟩ := (hmem x).1 hx
    simp only [leveeWords]
    omega) ((hmem _).2 ⟨e, he, ⟨hb, hk⟩, rfl⟩)
  refine ⟨a, List.mem_filter.2 ⟨ha, ?_⟩, hw⟩
  simp only [Bool.not_eq_true', List.any_eq_false, decide_eq_true_eq, not_and]
  exact fun y hy hne h1 h2 => hne (hmax y hy h1 h2)

/-! ### The first cycle -/

/-- The fill of a scrub's first cycle, commanded in each of a list of basins. -/
def State.startFills (s : State) (bs : List Nat) (es : List (Nat × Nat × Word64 × Word64)) (n : Nat) : State :=
  bs.foldl (fun (t : State) b => (t.startFill b (leveeAreas es b) n).bump (.bsnArbSt b) 16 16) s

theorem State.reg_startFills (s : State) (bs : List Nat) (es : List (Nat × Nat × Word64 × Word64)) (n : Nat) {r : Reg}
    (h : ∀ b, r ≠ .bsnArbSt b) : (s.startFills bs es n).reg r = s.reg r :=
  foldl_keeps (fun t : State => t.reg r = s.reg r) _ (fun t b ht => (State.reg_bump_ne (t.startFill b _ n) (h b) 16 16 1).trans ht) bs s rfl

/-- A fill changes neither the design nor the cycle. -/
theorem State.cfg_cycle_startFills (s : State) (bs : List Nat) (es : List (Nat × Nat × Word64 × Word64)) (n : Nat) :
    (s.startFills bs es n).cfg = s.cfg ∧ (s.startFills bs es n).cycle = s.cycle :=
  foldl_keeps (fun t : State => t.cfg = s.cfg ∧ t.cycle = s.cycle) _ (fun t b ht => by simpa [State.startFill] using ht) bs s ⟨rfl, rfl⟩

theorem State.fillAhead_startFills (s : State) {bs : List Nat} (es : List (Nat × Nat × Word64 × Word64)) (n : Nat) {b : Nat}
    (hb : b ∈ bs) : s.FillAhead (s.startFills bs es n) b n (leveeAreas es b) := by
  refine foldl_of_mem (Q := fun t : State => t.cfg = s.cfg ∧ t.cycle = s.cycle) (P := fun t => s.FillAhead t b n (leveeAreas es b))
    (fun t x ht => ?_) (fun t x _ hp k hk => ?_) (fun t ht k hk => ?_) hb s ⟨rfl, rfl⟩
  · simpa [State.startFill] using ht
  · simpa [State.startFill] using Or.inr (hp k hk)
  · obtain ⟨hcfg, hcycle⟩ := ht
    simpa [State.startFill, hcfg, hcycle] using Or.inl hk

theorem State.beginScrub_of_due {s : State} {x : ScrubRun} {rest : List ScrubRun} (hs : s.scrubs = x :: rest)
    (hx : x.began = none) (hdiv : s.power.divTo = none) (hsite : s.site = stFlow ∨ s.site = stDetaching) :
    s.beginScrub = { (((((s.killArrivals x.ctx).startFills (s.killArrivals x.ctx).liveBasins (s.ctxLevees x.ctx)
      (s.cfg.rows + 1)).dropLevees (s.ctxLevees x.ctx)).setSite stScrub).logEvent) with
        scrubs := { x with began := some (s.cycle, s.now, s.site), levees := s.ctxLevees x.ctx } :: rest } := by
  have hmay : ¬ (x.began.isSome = true ∨ s.power.divTo.isSome = true ∨ (!decide (s.site = stFlow ∨ s.site = stDetaching)) = true) := by
    simp [hx, hdiv, hsite]
  unfold State.beginScrub
  rw [hs]
  dsimp only
  rw [if_neg hmay]
  rfl

theorem State.reg_logEvent (s : State) {r : Reg} (h : r ≠ .clkEventSeq) : s.logEvent.reg r = s.reg r := by
  unfold State.logEvent
  dsimp only
  split
  · exact State.reg_putReg_ne s h _
  · exact State.reg_putReg_ne s h _

/-- Entries written zero change neither the design nor a fill. -/
theorem State.cfg_fillRes_dropLevees (s : State) (es : List (Nat × Nat × Word64 × Word64)) :
    (s.dropLevees es).cfg = s.cfg ∧ (s.dropLevees es).fillRes = s.fillRes :=
  foldl_keeps (fun t : State => t.cfg = s.cfg ∧ t.fillRes = s.fillRes)
    (fun (t : State) (e : Nat × Nat × Word64 × Word64) => (t.putReg (.bsnLeveeA e.1 e.2.1) 0).putReg (.bsnLeveeB e.1 e.2.1) 0)
    (fun _ _ ht => ht) es s ⟨rfl, rfl⟩

theorem State.cfg_fillRes_logEvent (s : State) : s.logEvent.cfg = s.cfg ∧ s.logEvent.fillRes = s.fillRes := by
  simp only [State.logEvent]
  split <;> exact ⟨rfl, rfl⟩

theorem State.site_withScrubs (s : State) (xs : List ScrubRun) : ({ s with scrubs := xs } : State).site = s.site := rfl

/-- A scrub that is due and may begin is in its first cycle: no entry of the context is left in a live basin. -/
theorem State.scrubBegun_beginScrub {s : State} {c : Nat} {what : ScrubFor} (hs : s.scrubs = [⟨c, what, none, []⟩])
    (hdiv : s.power.divTo = none) (hsite : s.site = stFlow ∨ s.site = stDetaching) : s.ScrubBegun s.beginScrub c what := by
  have heq := State.beginScrub_of_due hs rfl hdiv hsite
  have hstand := s.standing_killArrivals c
  generalize s.beginScrub = u at heq ⊢
  generalize s.killArrivals c = k at heq hstand
  have hcfg : u.cfg = s.cfg := by
    rw [heq]
    refine (State.cfg_fillRes_logEvent _).1.trans ((State.cfg_fillRes_dropLevees _ _).1.trans ?_)
    exact (State.cfg_cycle_startFills _ _ _ _).1.trans (State.cfg_of_standing hstand)
  have hfill : u.fillRes = (k.startFills k.liveBasins (s.ctxLevees c) (s.cfg.rows + 1)).fillRes := by
    rw [heq]
    exact (State.cfg_fillRes_logEvent _).2.trans (State.cfg_fillRes_dropLevees _ _).2
  have hreg : ∀ r : Reg, r ≠ .pwrSt → r ≠ .clkEventSeq →
      u.reg r = ((k.startFills k.liveBasins (s.ctxLevees c) (s.cfg.rows + 1)).dropLevees (s.ctxLevees c)).reg r := fun r h1 h2 => by
    rw [heq]
    exact (State.reg_logEvent _ h2).trans (State.reg_putFld_ne _ h1 _ _ _)
  have hkept : ∀ r : Reg, (∀ b, r ≠ .bsnArbSt b) → r.atWork = false →
      (k.startFills k.liveBasins (s.ctxLevees c) (s.cfg.rows + 1)).reg r = s.reg r := fun r h1 h2 =>
    (State.reg_startFills _ _ _ _ h1).trans (State.reg_of_standing hstand h2)
  have hlive : u.liveBasins = s.liveBasins := by
    have hl : u.reg .devBasinLive = s.reg .devBasinLive := by
      rw [hreg _ (by simp) (by simp), State.reg_dropLevees_ne _ (by simp)]
      exact hkept _ (by simp) rfl
    simp only [State.liveBasins, hcfg, funext fun b => show u.live b = s.live b by rw [State.live, hl]; rfl]
  refine ⟨?_, fun b hb l hl => ?_, s.ctxLevees c, ?_, fun b hb => ⟨fun i hi => ?_, fun l hl hc hkind => ?_⟩⟩
  · rw [heq]
    rw [State.site_withScrubs, State.site_logEvent, State.site_setSite]
    rfl
  · obtain ⟨n, hn, hbit, rfl⟩ := State.mem_levees.1 hl
    rw [hlive] at hb
    intro hctx
    rw [hreg _ (by simp) (by simp)] at hbit hctx
    by_cases hmem : ∃ e ∈ s.ctxLevees c, e.1 = b ∧ e.2.1 = n
    · obtain ⟨e, he, rfl, rfl⟩ := hmem
      rw [State.reg_dropLevees_of_mem _ he] at hbit
      exact absurd hbit (by decide)
    · have hsame : ((k.startFills k.liveBasins (s.ctxLevees c) (s.cfg.rows + 1)).dropLevees (s.ctxLevees c)).reg (.bsnLeveeA b n) =
          s.reg (.bsnLeveeA b n) := by
        rw [State.reg_dropLevees_ne _ (fun e he => ⟨fun h => hmem ⟨e, he, by simpa [eq_comm] using h⟩, by simp⟩)]
        exact hkept _ (by simp) rfl
      rw [hsame] at hbit hctx
      exact hmem ⟨_, State.mem_ctxLevees.2 ⟨b, n, hb, hn, hbit, hctx, rfl⟩, rfl, rfl⟩
  · rw [heq]
  · have hf := k.fillAhead_startFills (bs := k.liveBasins) (s.ctxLevees c) (s.cfg.rows + 1) (b := b) (by
      rw [State.liveBasins_of_standing hstand]; exact hb) i (by rw [State.cfg_of_standing hstand]; exact hi)
    rw [show k.cycle = s.cycle from congrArg Standing.cycle hstand] at hf
    rw [hfill]
    exact hf
  · obtain ⟨n, hn, hbit, rfl⟩ := State.mem_levees.1 hl
    exact mem_of_mem_leveeAreas (e := (b, n, s.reg (.bsnLeveeA b n), s.reg (.bsnLeveeB b n)))
      (State.mem_ctxLevees.2 ⟨b, n, hb, hn, hbit, hc, rfl⟩) rfl hkind

/-- From `s` to `t` registers, fills, scrubs and what is kept of events alone have changed. -/
def State.OnlyBegun (s t : State) : Prop :=
  { t with regs := s.regs, fresh := s.fresh, cistern := s.cistern, fillRes := s.fillRes, scrubs := s.scrubs } = s

theorem State.OnlyBegun.trans {s t u : State} (h : s.OnlyBegun t) (k : t.OnlyBegun u) : s.OnlyBegun u := by
  refine Eq.trans ?_ h
  exact congrArg (fun v : State => { v with
    regs := s.regs, fresh := s.fresh, cistern := s.cistern, fillRes := s.fillRes, scrubs := s.scrubs }) k

theorem State.startFills_onlyBegun (s : State) (bs : List Nat) (es : List (Nat × Nat × Word64 × Word64)) (n : Nat) :
    s.OnlyBegun (s.startFills bs es n) := by
  refine foldl_keeps s.OnlyBegun (fun (t : State) b => (t.startFill b (leveeAreas es b) n).bump (.bsnArbSt b) 16 16)
    (fun t b h => h.trans ?_) bs s rfl
  unfold State.bump
  split <;> rfl

theorem State.dropLevees_onlyBegun (s : State) (es : List (Nat × Nat × Word64 × Word64)) : s.OnlyBegun (s.dropLevees es) :=
  foldl_keeps s.OnlyBegun
    (fun (t : State) (e : Nat × Nat × Word64 × Word64) => (t.putReg (.bsnLeveeA e.1 e.2.1) 0).putReg (.bsnLeveeB e.1 e.2.1) 0)
    (fun _ _ h => h.trans rfl) es s rfl

theorem State.logEvent_onlyBegun (s : State) : s.OnlyBegun s.logEvent := by
  simp only [State.logEvent]
  split <;> rfl

/-- Beside the end of its arrivals, a scrub's first cycle changes registers, fills and the scrubs alone. -/
theorem State.beginScrub_onlyBegun {s : State} {x : ScrubRun} (hs : s.scrubs = [x]) (hx : x.began = none)
    (hdiv : s.power.divTo = none) (hsite : s.site = stFlow ∨ s.site = stDetaching) :
    (s.killArrivals x.ctx).OnlyBegun s.beginScrub := by
  rw [State.beginScrub_of_due hs hx hdiv hsite]
  generalize s.killArrivals x.ctx = k
  have hfills := k.startFills_onlyBegun k.liveBasins (s.ctxLevees x.ctx) (s.cfg.rows + 1)
  generalize k.startFills k.liveBasins (s.ctxLevees x.ctx) (s.cfg.rows + 1) = f at hfills ⊢
  have hset : f.OnlyBegun ((f.dropLevees (s.ctxLevees x.ctx)).setSite stScrub) := (f.dropLevees_onlyBegun _).trans rfl
  generalize (f.dropLevees (s.ctxLevees x.ctx)).setSite stScrub = w at hset ⊢
  exact hfills.trans (hset.trans (w.logEvent_onlyBegun.trans rfl))

/-- The same of a scrub asked for. -/
theorem State.MayScrub.askScrub_onlyBegun {s : State} (h : s.MayScrub) (c : Nat) (what : ScrubFor) :
    ∃ k : State, k = ({ s with scrubs := [⟨c, what, none, []⟩] } : State).killArrivals c ∧ k.OnlyBegun (s.askScrub c what) := by
  obtain ⟨hscrubs, hdiv, hsite⟩ := h
  refine ⟨_, rfl, ?_⟩
  have hb := State.beginScrub_onlyBegun (s := { s with scrubs := [⟨c, what, none, []⟩] }) (x := ⟨c, what, none, []⟩) rfl rfl hdiv hsite
  rw [State.askScrub, hscrubs]
  exact hb

/-- A scrub asked for where one may begin is in its first cycle at once. -/
theorem State.MayScrub.askScrub {s : State} (h : s.MayScrub) (c : Nat) (what : ScrubFor) :
    s.ScrubBegun (s.askScrub c what) c what := by
  obtain ⟨hscrubs, hdiv, hsite⟩ := h
  have hb : State.ScrubBegun { s with scrubs := [⟨c, what, none, []⟩] } _ c what := State.scrubBegun_beginScrub rfl hdiv hsite
  rw [State.askScrub, hscrubs]
  exact hb

end Sys2Proof.Machine
end

section
set_option Elab.async false -- the whole text is compiled in one process, within a fixed memory
/-! SUPPORT. A scrub's end (R369), and what follows the scrub of a stopped interface (R384). -/

namespace Sys2Proof.Machine

/-! ### The end of the timetable -/

/-- After T_SCRUB the timetable holds no more work. -/
theorem State.scrubWork_of_over (s : State) (c root : Nat) (keep : Bool) {k : Nat} (h : 6016 ≤ k) : s.scrubWork c k root keep = s := by
  simp only [State.scrubWork]
  rw [if_neg (show ¬ k < 1020 by omega), if_neg (show ¬ k < 504 by omega), if_neg (show ¬ k = 511 by omega),
    if_neg (show ¬ k < 5952 by omega), if_neg (show ¬ k = 6015 by omega)]

theorem State.ScrubEnds.scrubOn {s : State} {x : ScrubRun} {c0 was : Nat} {unlock : Option HgFrame} (h : s.ScrubEnds x c0 was unlock) :
    s.scrubOn = s.endScrub x was := by
  obtain ⟨hscrubs, ⟨r0, hbegan⟩, -, hsite, hcycle, -⟩ := h
  have hlong : 6144 ≤ s.tScrub := by
    unfold State.tScrub
    omega
  have hrun : ¬ (s.site ≠ stScrub ∨ s.cycle ≤ c0) := by omega
  unfold State.scrubOn
  rw [hscrubs]
  dsimp only
  rw [hbegan]
  dsimp only
  rw [if_neg hrun, State.scrubWork_of_over _ _ _ _ (by omega), if_pos (by omega)]

theorem Culvert.nextMessage_of_empty {c : Culvert} (h : c.exchanges = []) (n : Nat) : c.nextMessage n = none := by
  simp [Culvert.nextMessage, h]

theorem State.grantCulvert_of_empty {s : State} {c : Nat} (h : (s.culvert c).exchanges = []) (n : Nat) :
    State.grantCulvert n s c = s := by
  cases n with
  | zero => rfl
  | succ n =>
    rw [State.grantCulvert]
    split
    · rfl
    · simp only [Culvert.nextMessage_of_empty h]

theorem foldl_eq_self {α β : Type} {f : β → α → β} {s : β} {l : List α} (h : ∀ x ∈ l, f s x = s) : l.foldl f s = s := by
  induction l with
  | nil => rfl
  | cons x xs ih =>
    rw [List.foldl_cons, h x (by simp)]
    exact ih fun y hy => h y (List.mem_cons_of_mem x hy)

/-- Where nothing was held back the site goes on as it is. -/
theorem State.settled_after_scrub {s : State} (hscrubs : s.scrubs = []) (hunlock : s.hg.unlock = none)
    (hculverts : ∀ c, c < 4 → (s.culvert c).exchanges = []) (hdiv : s.power.divWait = none) (hflights : s.flights = []) :
    (s.beginScrub.unlockOn.resume).runReady = s := by
  have hbegin : s.beginScrub = s := by simp only [State.beginScrub, hscrubs]
  have hun : s.unlockOn = s := by simp only [State.unlockOn, hunlock]
  have hres : s.resume = s := by
    unfold State.resume
    rw [foldl_eq_self (f := fun (s : State) c => s.grantCulvert ((s.culvert c).exchanges.length + 1) c) fun c hc =>
      State.grantCulvert_of_empty (hculverts c (List.mem_range.1 hc)) _]
    dsimp only
    rw [hdiv]
  rw [hbegin, hun, hres]
  exact State.runReady_of_atRest fun f hf => by simp [hflights] at hf

/-! ### Levee entries put back (R363, R384) -/

/-- From `s` to `t` levee entries and the ownership of allotments alone have changed. -/
def State.OnlyOwned (s t : State) : Prop :=
  { t with regs := s.regs, desc := s.desc, descChk := s.descChk, gauge := s.gauge, gaugeCtx := s.gaugeCtx, gaugeChk := s.gaugeChk,
           sram := s.sram } = s ∧ ∀ r, (∀ b n, r ≠ .bsnLeveeA b n ∧ r ≠ .bsnLeveeB b n) → t.reg r = s.reg r

theorem State.OnlyOwned.refl (s : State) : s.OnlyOwned s := ⟨rfl, fun _ _ => rfl⟩

theorem State.OnlyOwned.trans {s t u : State} (h : s.OnlyOwned t) (k : t.OnlyOwned u) : s.OnlyOwned u := by
  refine ⟨?_, fun r hr => (k.2 r hr).trans (h.2 r hr)⟩
  refine Eq.trans ?_ h.1
  exact congrArg (fun v : State => { v with
    regs := s.regs, desc := s.desc, descChk := s.descChk, gauge := s.gauge, gaugeCtx := s.gaugeCtx, gaugeChk := s.gaugeChk,
    sram := s.sram }) k.1

theorem State.ownAllotment_onlyOwned (s : State) (b c : Nat) (al : Nat × Nat × Nat × Nat) :
    s.OnlyOwned (s.ownAllotment b c al) ∧ (s.ownAllotment b c al).regs = s.regs := by
  unfold State.ownAllotment
  refine foldl_keeps (fun t : State => s.OnlyOwned t ∧ t.regs = s.regs) (fun (t : State) i => t.putGctx b (al.2.2.1 + i) c)
    (fun t i h => ⟨h.1.trans ⟨rfl, fun _ _ => rfl⟩, h.2⟩) _ _ ?_
  exact foldl_keeps (fun t : State => s.OnlyOwned t ∧ t.regs = s.regs)
    (fun (t : State) i => t.putDesc b (al.1 + i) (setFld (t.descOf b (al.1 + i)) 96 4 c))
    (fun t i h => ⟨h.1.trans ⟨rfl, fun _ _ => rfl⟩, h.2⟩) _ s ⟨.refl s, rfl⟩

/-- One entry put back. -/
def State.restoreLevee (s : State) (c : Nat) (e : Nat × Nat × Word64 × Word64) : State :=
  let t := (s.putReg (.bsnLeveeA e.1 e.2.1) e.2.2.1).putReg (.bsnLeveeB e.1 e.2.1) e.2.2.2
  if leveeKind e.2.2.1 = 0 then
    t.ownAllotment e.1 c (fld e.2.2.2 50 14, fld e.2.2.2 32 14, fld e.2.2.2 16 12, fld e.2.2.2 0 12) else t

theorem State.restoreLevees_eq (s : State) (c : Nat) (es : List (Nat × Nat × Word64 × Word64)) :
    s.restoreLevees c es = es.foldl (fun t e => t.restoreLevee c e) s := rfl

theorem State.reg_restoreLevee (s : State) (c : Nat) (e : Nat × Nat × Word64 × Word64) (r : Reg) :
    (s.restoreLevee c e).reg r =
      if r = .bsnLeveeB e.1 e.2.1 then e.2.2.2 else if r = .bsnLeveeA e.1 e.2.1 then e.2.2.1 else s.reg r := by
  have hreg : (s.restoreLevee c e).reg r = ((s.putReg (.bsnLeveeA e.1 e.2.1) e.2.2.1).putReg (.bsnLeveeB e.1 e.2.1) e.2.2.2).reg r := by
    simp only [State.restoreLevee]
    split
    · obtain ⟨howned, hregs⟩ := State.ownAllotment_onlyOwned
        ((s.putReg (.bsnLeveeA e.1 e.2.1) e.2.2.1).putReg (.bsnLeveeB e.1 e.2.1) e.2.2.2) e.1 c
        (fld e.2.2.2 50 14, fld e.2.2.2 32 14, fld e.2.2.2 16 12, fld e.2.2.2 0 12)
      have hcfg := congrArg State.cfg howned.1
      unfold State.reg
      rw [hregs]
      exact congrArg (fun g => kget _ (r.resetValue g) r) hcfg
    · rfl
  rw [hreg, State.reg_putReg, State.reg_putReg]

theorem State.restoreLevee_onlyOwned (s : State) (c : Nat) (e : Nat × Nat × Word64 × Word64) :
    s.OnlyOwned (s.restoreLevee c e) := by
  refine ⟨?_, fun r hr => ?_⟩
  · simp only [State.restoreLevee]
    split
    · exact congrArg (fun v : State => { v with regs := s.regs }) (State.ownAllotment_onlyOwned _ _ _ _).1.1
    · rfl
  · rw [State.reg_restoreLevee, if_neg (hr _ _).2, if_neg (hr _ _).1]

theorem State.restoreLevees_onlyOwned (s : State) (c : Nat) (es : List (Nat × Nat × Word64 × Word64)) :
    s.OnlyOwned (s.restoreLevees c es) :=
  foldl_keeps s.OnlyOwned (fun t e => t.restoreLevee c e) (fun t e h => h.trans (t.restoreLevee_onlyOwned c e)) es s (.refl s)

theorem State.reg_restoreLevees_ne (s : State) (c : Nat) {es : List (Nat × Nat × Word64 × Word64)} {r : Reg}
    (h : ∀ x ∈ es, r ≠ .bsnLeveeA x.1 x.2.1 ∧ r ≠ .bsnLeveeB x.1 x.2.1) :
    (es.foldl (fun t e => t.restoreLevee c e) s).reg r = s.reg r := by
  induction es generalizing s with
  | nil => rfl
  | cons x xs ih =>
    obtain ⟨hA, hB⟩ := h x (by simp)
    refine (ih (s.restoreLevee c x) fun y hy => h y (List.mem_cons_of_mem x hy)).trans ?_
    rw [State.reg_restoreLevee, if_neg hB, if_neg hA]

/-- Each entry reads as it was put back, where no two are of one place. -/
theorem State.reg_restoreLevees (s : State) (c : Nat) {es : List (Nat × Nat × Word64 × Word64)}
    (hd : (es.map fun e => (e.1, e.2.1)).Nodup) {e : Nat × Nat × Word64 × Word64} (he : e ∈ es) :
    (s.restoreLevees c es).reg (.bsnLeveeA e.1 e.2.1) = e.2.2.1 ∧ (s.restoreLevees c es).reg (.bsnLeveeB e.1 e.2.1) = e.2.2.2 := by
  rw [State.restoreLevees_eq]
  induction es generalizing s with
  | nil => cases he
  | cons x xs ih =>
    rw [List.map_cons, List.nodup_cons] at hd
    obtain ⟨hx, hxs⟩ := hd
    obtain rfl | hmem := List.mem_cons.1 he
    · have hne : ∀ y ∈ xs, ¬ (e.1 = y.1 ∧ e.2.1 = y.2.1) := fun y hy h => hx (List.mem_map.2 ⟨y, hy, by rw [h.1, h.2]⟩)
      rw [List.foldl_cons, State.reg_restoreLevees_ne _ c fun y hy => ⟨by simpa using hne y hy, by simp⟩,
        State.reg_restoreLevees_ne _ c fun y hy => ⟨by simp, by simpa using hne y hy⟩, State.reg_restoreLevee, State.reg_restoreLevee]
      simp
    · exact ih (s.restoreLevee c x) hxs hmem

/-! ### A stop's end (R384) -/

/-- What a stop leaves as it was: all but keys, the ring and the context's record. -/
theorem State.stopDone_settles (s : State) (c : Nat) (es : List (Nat × Nat × Word64 × Word64)) :
    (s.stopDone c es).scrubs = s.scrubs ∧ (s.stopDone c es).hg = s.hg ∧ (s.stopDone c es).culverts = s.culverts ∧
      (s.stopDone c es).power = s.power ∧ (s.stopDone c es).flights = s.flights := by
  have h := (s.restoreLevees_onlyOwned c es).1
  generalize ht : s.restoreLevees c es = t at h
  have hstop : ∀ u, u = s.stopDone c es → u.scrubs = t.scrubs ∧ u.hg = t.hg ∧ u.culverts = t.culverts ∧ u.power = t.power ∧
      u.flights = t.flights := by
    rintro u rfl
    simp [State.stopDone, ht, State.loadKeys, State.setTdisp, State.showReleased, State.useFree, State.showSessions]
  obtain ⟨h1, h2, h3, h4, h5⟩ := hstop _ rfl
  exact ⟨h1.trans (congrArg State.scrubs h :), h2.trans (congrArg State.hg h :), h3.trans (congrArg State.culverts h :),
    h4.trans (congrArg State.power h :), h5.trans (congrArg State.flights h :)⟩

theorem State.reg_stopDone (s : State) (c : Nat) (es : List (Nat × Nat × Word64 × Word64)) {r : Reg} (h1 : r ≠ .ringDb c)
    (h2 : r ≠ .ringHead c) (h3 : r ≠ .ringRtail c) (h4 : r ≠ .ringRhead c) (h5 : r ≠ .ringSt c) (h6 : r ≠ .secCtxSt c)
    (h7 : r ≠ .secSt) : (s.stopDone c es).reg r = (s.restoreLevees c es).reg r := by
  simp [State.stopDone, State.setTdisp, State.showReleased, State.showSessions, h1, h2, h3, h4, h5, h6, h7]

theorem State.tdisp_stopDone (s : State) (c : Nat) (es : List (Nat × Nat × Word64 × Word64)) :
    (s.stopDone c es).tdisp c = 0 ∧ (s.stopDone c es).rfld (.secCtxSt c) 32 8 = 0xFF := by
  simp only [State.stopDone, State.showSessions, State.showReleased, State.setTdisp, State.tdisp]
  constructor
  · rw [State.rfld_putFld_ne _ _ _ _ _ _ _ _ (.inl (by simp)), (State.rfld_through ..).1,
      State.rfld_putFld_ne _ _ _ _ _ _ _ _ (.inr (.inr (by decide))), State.rfld_putFld_ne _ _ _ _ _ _ _ _ (.inr (.inl (by decide))),
      State.rfld_putFld_self _ _ _ _ _ (by decide)]
    rfl
  · rw [State.rfld_putFld_ne _ _ _ _ _ _ _ _ (.inl (by simp)), (State.rfld_through ..).1,
      State.rfld_putFld_ne _ _ _ _ _ _ _ _ (.inr (.inr (by decide))), State.rfld_putFld_self _ _ _ _ _ (by decide)]
    rfl

theorem State.records_stopDone (s : State) (c : Nat) (es : List (Nat × Nat × Word64 × Word64)) :
    ((s.stopDone c es).ctx c).keyGen = s.freeUses + 1 ∧ ((s.stopDone c es).ctx c).resident = (s.ctx c).resident ∧
      (s.stopDone c es).ring c = { RingRun.empty with stats := (s.ring c).stats } := by
  have h := (s.restoreLevees_onlyOwned c es).1
  have hctx : (s.restoreLevees c es).ctx c = s.ctx c := (congrArg (fun t : State => kget t.ctxs CtxRec.absent c) h :)
  have hring : (s.restoreLevees c es).ring c = s.ring c := (congrArg (fun t : State => kget t.rings RingRun.empty c) h :)
  have huses : (s.restoreLevees c es).freeUses = s.freeUses := (congrArg State.freeUses h :)
  simp [State.stopDone, State.setTdisp, State.showReleased, State.showSessions, hctx, hring, huses]

/-- An event logged changes a register and the cistern. -/
theorem State.logEvent_rest (s : State) : { s.logEvent with regs := s.regs, cistern := s.cistern } = s := by
  simp only [State.logEvent]
  split <;> rfl

/-- A scrub for a stop, alone, ends: STATE returns, and the stop is answered (R384). -/
theorem State.ScrubEnds.stopped {s : State} {x : ScrubRun} {c0 was : Nat} (h : s.ScrubEnds x c0 was none) (hwhat : x.what = .stop none) :
    s.scrubOn = (State.stopDone { (s.setSite was).logEvent with scrubs := [] } x.ctx x.levees).say .tdispStopped := by
  rw [h.scrubOn]
  obtain ⟨hscrubs, -, -, -, -, hunlock, hdiv, hflights, hculverts⟩ := h
  unfold State.endScrub
  rw [hscrubs]
  have hafter : State.afterScrub { (s.setSite was).logEvent with scrubs := [x].drop 1 } x =
      (State.stopDone { (s.setSite was).logEvent with scrubs := [] } x.ctx x.levees).say .tdispStopped := by
    unfold State.afterScrub
    rw [hwhat]
    rfl
  dsimp only
  rw [hafter]
  have hlog := State.logEvent_rest (s.setSite was)
  generalize hS : ({ (s.setSite was).logEvent with scrubs := [] } : State) = S
  obtain ⟨h1, h2, h3, h4, h5⟩ := S.stopDone_settles x.ctx x.levees
  have hhg : S.hg = s.hg := hS ▸ (congrArg State.hg hlog :)
  have hcul : S.culverts = s.culverts := hS ▸ (congrArg State.culverts hlog :)
  have hpower : S.power = s.power := hS ▸ (congrArg State.power hlog :)
  have hfl : S.flights = s.flights := hS ▸ (congrArg State.flights hlog :)
  refine State.settled_after_scrub (h1.trans (hS ▸ rfl)) ?_ (fun c hc => ?_) ?_ (h5.trans (hfl.trans hflights))
  · exact (congrArg (·.unlock) (h2.trans hhg)).trans hunlock
  · refine Eq.trans (congrArg (fun m => (kget m Culvert.idle c).exchanges) (h3.trans hcul)) (hculverts c hc)
  · exact (congrArg (·.divWait) (h4.trans hpower)).trans hdiv

/-! ### TDISP requests (R383, R384) -/

/-- A TDISP request that the responder takes reaches its interface. -/
theorem State.ListensTdisp.tdispAt {s : State} {r : SpdmReq} {c : Nat} (h : s.ListensTdisp r c) (k : State → State) :
    s.tdispAt r c k = k s := by
  obtain ⟨-, hsess, hc, hres⟩ := h
  unfold State.tdispAt
  rw [if_neg (by simp [hsess]), if_neg (by simp [hres, hc])]

theorem State.tdisp_setTdisp (s : State) (c : Nat) {v : Nat} (hv : v < 16) : (s.setTdisp c v).tdisp c = v :=
  (State.rfld_putFld_self s _ _ _ _ (by decide)).trans (Nat.mod_eq_of_lt hv)

/-- An unlocked interface is locked to the session (R384). -/
theorem State.lockIface_of_unlocked {s : State} {c : Nat} (i : Nat) (noFw : Bool) (hun : s.tdisp c = tdispUnlocked)
    (hobs : bit (s.reg .secObsCfg) 0 = false) : (s.lockIface i c noFw).spdm.resp = .tdispLocked ∧
      (s.lockIface i c noFw).tdisp c = tdispLocked ∧ (s.lockIface i c noFw).rfld (.secCtxSt c) 32 8 = i % 256 := by
  simp only [State.lockIface]
  rw [if_neg (not_not.2 hun), if_neg (by simp [hobs])]
  refine ⟨rfl, ?_, ?_⟩
  · simp only [State.tdisp, State.showReleased, State.setTdisp, State.rfld_through]
    rw [State.rfld_putFld_ne _ _ _ _ _ _ _ _ (.inr (.inr (by decide))), (State.rfld_through ..).2.1,
      State.rfld_putFld_ne _ _ _ _ _ _ _ _ (.inr (.inl (by decide))), State.rfld_putFld_self _ _ _ _ _ (by decide)]
    rfl
  · simp only [State.showReleased, State.setTdisp, State.rfld_through]
    rw [State.rfld_putFld_ne _ _ _ _ _ _ _ _ (.inr (.inr (by decide))), (State.rfld_through ..).2.1,
      State.rfld_putFld_self _ _ _ _ _ (by decide)]
    rfl

/-- A stop of an interface begins the scrub of its context, and is not answered yet (R384). -/
theorem State.MayScrub.stopContext {s : State} (h : s.MayScrub) (c : Nat) :
    s.ScrubBegun (s.stopContext c) c (.stop none) ∧ (s.stopContext c).spdm = s.spdm := by
  have hstand : ((s.endWork c none).1.breakLocks c).1.standing = s.standing := by simp
  unfold State.stopContext
  dsimp only
  generalize ((s.endWork c none).1.breakLocks c).1 = t at hstand ⊢
  have hmay := State.MayScrub.of_standing hstand h
  obtain ⟨k, hk, honly⟩ := hmay.askScrub_onlyBegun c (.stop none)
  refine ⟨(hmay.askScrub c _).of_standing hstand, (congrArg State.spdm honly :).trans ?_⟩
  rw [hk]
  exact (congrArg Standing.spdm (State.standing_killArrivals _ c)).trans (congrArg Standing.spdm hstand)

theorem State.reg_say (s : State) (a : SpdmResp) (r : Reg) : (s.say a).reg r = s.reg r := rfl

/-- What a scrub for a stop has left at its end (R384). -/
theorem State.ScrubEnds.stop_leaves {s : State} {x : ScrubRun} {c0 was : Nat} (h : s.ScrubEnds x c0 was none)
    (hwhat : x.what = .stop none) :
    s.scrubOn.site = was ∧ s.scrubOn.scrubs = [] ∧ s.scrubOn.spdm.resp = .tdispStopped ∧ s.scrubOn.tdisp x.ctx = 0 ∧
      s.scrubOn.rfld (.secCtxSt x.ctx) 32 8 = 0xFF ∧ (s.scrubOn.ctx x.ctx).keyGen = s.freeUses + 1 ∧
      (s.scrubOn.ctx x.ctx).resident = (s.ctx x.ctx).resident ∧
      s.scrubOn.ring x.ctx = { RingRun.empty with stats := (s.ring x.ctx).stats } ∧
      ((x.levees.map fun e => (e.1, e.2.1)).Nodup → ∀ e ∈ x.levees, s.scrubOn.reg (.bsnLeveeA e.1 e.2.1) = e.2.2.1 ∧
        s.scrubOn.reg (.bsnLeveeB e.1 e.2.1) = e.2.2.2) := by
  have hwas : was < 16 := by
    obtain ⟨-, -, hw, -⟩ := h
    rcases hw with rfl | rfl <;> decide
  have hlog := State.logEvent_rest (s.setSite was)
  rw [h.stopped hwhat]
  generalize hS : ({ (s.setSite was).logEvent with scrubs := [] } : State) = S
  have huses : S.freeUses = s.freeUses := hS ▸ (congrArg State.freeUses hlog :)
  have hctx : S.ctx x.ctx = s.ctx x.ctx := hS ▸ (congrArg (fun t : State => kget t.ctxs CtxRec.absent x.ctx) hlog :)
  have hring : S.ring x.ctx = s.ring x.ctx := hS ▸ (congrArg (fun t : State => kget t.rings RingRun.empty x.ctx) hlog :)
  have hsite : S.site = was := by
    rw [← hS, State.site_withScrubs, State.site_logEvent, State.site_setSite, Nat.mod_eq_of_lt hwas]
  obtain ⟨htdisp, hsess⟩ := S.tdisp_stopDone x.ctx x.levees
  obtain ⟨hgen, hres, hrun⟩ := S.records_stopDone x.ctx x.levees
  have hreg {r : Reg} (h : r ≠ .secSt ∧ (∀ c, r ≠ .secCtxSt c) ∧ r.block ≠ .ring x.ctx) :
      (S.stopDone x.ctx x.levees).reg r = (S.restoreLevees x.ctx x.levees).reg r := by
    obtain ⟨h1, h2, h3⟩ := h
    refine S.reg_stopDone x.ctx x.levees ?_ ?_ ?_ ?_ ?_ (h2 _) h1 <;> exact fun e => h3 (e ▸ rfl)
  have hscrubs : (S.stopDone x.ctx x.levees).scrubs = [] := (S.stopDone_settles x.ctx x.levees).1.trans (hS ▸ rfl)
  refine ⟨?_, hscrubs, rfl, htdisp, hsess, hgen.trans (by rw [huses]), hres.trans (by rw [hctx]), hrun.trans (by rw [hring]),
    fun hd e he => ?_⟩
  · have hst : (S.stopDone x.ctx x.levees).reg .pwrSt = S.reg .pwrSt :=
      (hreg (by simp [Reg.block])).trans ((S.restoreLevees_onlyOwned x.ctx x.levees).2 _ (by simp))
    exact (congrArg (fld · 0 4) hst).trans hsite
  · obtain ⟨hA, hB⟩ := S.reg_restoreLevees x.ctx hd he
    rw [State.reg_say, State.reg_say, hreg (by simp [Reg.block]), hreg (by simp [Reg.block])]
    exact ⟨hA, hB⟩

/-- Settles O10: the scrub's last cycle answers the stop; each request reaches its interface, and its answer is written out. -/
theorem tdispRequests : Obligations.TdispRequests := by
  unfold Obligations.TdispRequests
  refine ⟨fun s c c0 was es x hc hwhat hes h _ => ?_, fun s r c h => ?_⟩
  · subst hc hes
    exact h.stop_leaves hwhat
  · have hreq : ∀ q k, s.answer r q = s.tdispAt r c k → s.request r q = k s := fun q k hq =>
      (h.1.request q).trans (hq.trans (h.tdispAt k))
    have hstart := hreq (.startInterface c) (fun s =>
      if s.tdisp c = tdispLocked then (s.setTdisp c tdispRun).say .tdispStarted else s.say (.tdispError tdispInvalidState)) rfl
    have hstop := hreq (.stopInterface c) (fun s =>
      if s.tdisp c = tdispUnlocked then s.say (.tdispError tdispInvalidState)
      else if !r.entropyOk then s.say .none else s.stopContext c) rfl
    refine ⟨congrArg ok (hreq (.tdispVersion c) (fun s => s.say .tdispVersion) rfl),
      congrArg ok (hreq (.tdispCapabilities c) (fun s => s.say .tdispCapabilities) rfl),
      ⟨s.reportRanges c, congrArg ok (hreq (.interfaceReport c) (fun s => s.say (.tdispReport (s.reportRanges c))) rfl)⟩,
      congrArg ok (hreq (.interfaceState c) (fun s => s.say (.tdispState (s.tdisp c))) rfl),
      fun k => ⟨tdispUnsupportedRequest, congrArg ok ((h.1.request (.tdispUnsupported c k)).trans (if_pos h.2.1))⟩,
      fun no hun hobs => ?_, fun hlocked => ?_, fun hst hent hmay => ?_, fun hst hent => ?_⟩
    · refine ⟨_, congrArg ok (hreq (.lockInterface c no) (fun s => s.lockIface r.session.toNat c no) rfl), ?_⟩
      exact s.lockIface_of_unlocked _ no hun hobs
    · refine ⟨_, congrArg ok (hstart.trans (if_pos hlocked)), rfl, s.tdisp_setTdisp c (by decide)⟩
    · refine ⟨_, congrArg ok (hstop.trans ((if_neg hst).trans (if_neg (by simp [hent])))), (hmay.stopContext c).1, ?_⟩
      rw [(hmay.stopContext c).2]
    · exact congrArg ok (hstop.trans ((if_neg hst).trans (if_pos (by simp [hent]))))

end Sys2Proof.Machine
end

section
set_option Elab.async false -- the whole text is compiled in one process, within a fixed memory
/-! SUPPORT. Accesses of three bytes by the core: where the site address is a multiple of three, the address in the core's site-map
window is not, so the core raises its alignment exception and meets nothing on the site map (R13). Three statements about window accesses
allow such an access. -/

namespace Sys2Proof.Machine

/-- At release no protection entry is on. -/
theorem coreFree_of_reset {s : State} (h : s.core = CtlCore.reset) : s.CoreFree := by
  intro k a n
  have hr : ∀ i ∈ List.range 16, CtlCore.reset.pmpRange i = (0, 0) := by decide
  unfold CtlCore.permits
  dsimp only
  rw [h, List.find?_eq_none.mpr]
  · rfl
  · intro i hi
    simp [hr i hi]

theorem siteOf_window {a : Nat} (h : a < 2 ^ 48) : siteOf (2 ^ 48 + a) = some a := by
  have hin : 2 ^ 48 ≤ 2 ^ 48 + a ∧ 2 ^ 48 + a < 2 ^ 49 := by omega
  simp only [siteOf, if_pos hin, Nat.add_sub_cancel_left]

/-- An exception of the core on its site-map window is on no site address. -/
theorem State.siteAccess_of_coreCheck {s : State} {a n c : Nat} {write : Bool} (ha : a < 2 ^ 48)
    (hc : s.coreCheck (if write then .store else .load) (2 ^ 48 + a) n = some c) : s.siteAccess .core a n write = none := by
  have htraps : s.coreTraps (if write then .store else .load) (2 ^ 48 + a) n = true := by
    simp only [State.coreTraps, siteOf_window ha, hc, Option.isSome_some]
  simp only [State.siteAccess, reduceCtorEq, if_false, htraps, if_true]

theorem State.accessReady_of_siteAccess {s : State} {who : Requester} {a n : Nat} {write : Bool}
    (h : s.siteAccess who a n write = none) : s.accessReady who a n write = (s, true) := by
  simp [State.accessReady, h]

theorem State.wakeByAccess_of_siteAccess {s : State} {who : Requester} {a n : Nat} {write : Bool}
    (h : s.siteAccess who a n write = none) : s.wakeByAccess who a n write = s := by
  simp [State.wakeByAccess, h]

/-- A load of the core that raises an exception loads nothing (R13). -/
theorem State.windowLoad_of_coreCheck {s : State} {a : Word64} {n c : Nat} (hw : s.windowUp = true) (ha : a.toNat < 2 ^ 48)
    (hc : s.coreCheck .load (2 ^ 48 + a.toNat) n = some c) :
    exec (.windowLoad .core a n) s = .next { s.localTrap .load c (2 ^ 48 + a.toNat) with
      loadOut := BitVec.ofNat 64 (leNat (List.replicate n 0)) } := by
  have hnone : s.siteAccess .core a.toNat n false = none := s.siteAccess_of_coreCheck (write := false) ha hc
  simp only [exec, execWindowLoad, State.wakeByAccess_of_siteAccess hnone, State.accessReady_of_siteAccess hnone, State.siteLoad, hw,
    State.coreLoad, siteOf_window ha, hc]
  rfl

/-- A store of the core that raises an exception stores nothing (R13). -/
theorem State.windowStore_of_coreCheck {s : State} {a : Word64} {n c : Nat} {v : Word64} (hw : s.windowUp = true)
    (ha : a.toNat < 2 ^ 48) (hc : s.coreCheck .store (2 ^ 48 + a.toNat) n = some c) :
    exec (.windowStore .core a n v) s = .next (s.localTrap .store c (2 ^ 48 + a.toNat)) := by
  have hnone : s.siteAccess .core a.toNat n true = none := s.siteAccess_of_coreCheck (write := true) ha hc
  have hlen : (leBytes n v.toNat).length = n := leBytes_length n v.toNat
  simp only [exec, execWindowStore, State.wakeByAccess_of_siteAccess hnone, State.accessReady_of_siteAccess hnone, State.siteStore, hw,
    State.coreStore, siteOf_window ha, hlen, hc]
  rfl

/-- The site at release, with a one in the first byte of basin 0. -/
def State.oneAtZero : State := { State.reset with mem := [(State.reset.wordAt 0 0 * 64, 1)] }

theorem State.oneAtZero_awake : State.oneAtZero.Awake := ⟨rfl, by decide⟩

theorem State.oneAtZero_coreFree : State.oneAtZero.CoreFree := coreFree_of_reset rfl

theorem State.oneAtZero_atRest : State.oneAtZero.AtRest := fun _ h => (List.not_mem_nil h).elim

theorem State.oneAtZero_load : State.oneAtZero.coreCheck .load (2 ^ 48 + 0) 3 = some 4 := by decide

theorem State.oneAtZero_store : State.oneAtZero.coreCheck .store (2 ^ 48 + 0) 3 = some 6 := by decide

/-- The access of three bytes at basin 0's first byte is performed, and meets the core's exception. -/
theorem State.oneAtZero_performs (write : Bool) : State.oneAtZero.Performs .core 0 3 write State.oneAtZero := by
  have hnone : State.oneAtZero.siteAccess .core 0 3 write = none := by
    cases write
    · exact State.siteAccess_of_coreCheck (write := false) (by decide) State.oneAtZero_load
    · exact State.siteAccess_of_coreCheck (write := true) (by decide) State.oneAtZero_store
  exact ⟨State.oneAtZero_awake, State.accessReady_of_siteAccess hnone, State.oneAtZero_awake, State.oneAtZero_coreFree⟩

theorem State.oneAtZero_place : State.oneAtZero.placeOf 0 3 = .mem 0 0 := by decide +kernel

theorem State.oneAtZero_plain : State.oneAtZero.Plain 0 0 := by
  unfold State.Plain
  decide +kernel

theorem onSite_three {a : Nat} (h : a < 2 ^ 48) (h3 : a % 3 = 0) : OnSite .core a 3 :=
  ⟨by decide, by decide, by decide, fun _ => ⟨h, h3⟩⟩

/-- Refutes O13: the core's load of three bytes at `0x800000000001` is misaligned in its site-map window. It raises the core's
exception, and no decode error is counted. -/
theorem not_decodeErrorsAnswered : ¬ Obligations.DecodeErrorsAnswered := by
  unfold Obligations.DecodeErrorsAnswered
  intro h
  obtain ⟨t, u, hload, _, _, hcount, _⟩ := h State.oneAtZero .core 0x800000000001 3 0 State.oneAtZero_awake State.oneAtZero_coreFree
    (onSite_three (by decide) (by decide)) (by decide) (by decide +kernel)
  rw [State.windowLoad_of_coreCheck (c := 4) rfl (by decide) (by decide)] at hload
  obtain rfl := Host.Outcome.next.inj hload
  exact absurd hcount.1 (by decide)

/-- Refutes O14: the core's load of three bytes at 0 is misaligned in its site-map window. It loads zero, where the word holds a one. -/
theorem not_windowLoads : ¬ Obligations.WindowLoads := by
  unfold Obligations.WindowLoads
  intro h
  obtain ⟨hmem, _⟩ := h.1 State.oneAtZero .core 0 3 ⟨State.oneAtZero_awake, State.oneAtZero_atRest, State.oneAtZero_coreFree⟩
    (onSite_three (by decide) (by decide)) (by decide)
  obtain ⟨t, hload, hout, _⟩ := hmem State.oneAtZero 0 0 (State.oneAtZero_performs false) State.oneAtZero_place rfl rfl (by decide)
    State.oneAtZero_plain
  rw [State.windowLoad_of_coreCheck (c := 4) rfl (by decide) State.oneAtZero_load] at hload
  obtain rfl := Host.Outcome.next.inj hload
  exact absurd hout (by decide +kernel)

theorem State.oneAtZero_landBeats : State.oneAtZero.landBeats = State.oneAtZero := rfl

/-- Refutes O12: the core's store of three bytes at 0 is misaligned in its site-map window. It stores nothing. -/
theorem not_memoryStores : ¬ Obligations.MemoryStores := by
  unfold Obligations.MemoryStores
  intro h
  obtain ⟨hmem, _⟩ := h.1 State.oneAtZero State.oneAtZero State.oneAtZero .core 0 3 0 0 0 (by decide)
    (onSite_three (by decide) (by decide)) State.oneAtZero_awake State.oneAtZero_coreFree
  obtain ⟨t, hstore, hbytes, _⟩ := hmem (State.oneAtZero_performs true) rfl State.oneAtZero_place rfl (by decide)
    State.oneAtZero_landBeats.symm State.oneAtZero_atRest State.oneAtZero_plain
  rw [State.windowStore_of_coreCheck (c := 6) rfl (by decide) State.oneAtZero_store] at hstore
  obtain rfl := Host.Outcome.next.inj hstore
  exact absurd (hbytes 0 (by decide)) (by decide +kernel)

end Sys2Proof.Machine
end

section
set_option Elab.async false -- the whole text is compiled in one process, within a fixed memory
/-! SUPPORT. The register at a register's own offset (R432, R433): block by block. -/

namespace Sys2Proof.Machine

/-! ### Rows of a basin's block (R444) -/

section
variable {cfg : SiteConfig} (b : Nat) {n o : Nat}

theorem bsnReg_flipData (hn : n < 8) (ho : o = 0x180 + n * 8) : bsnReg cfg b o = some (.bsnFlipData b n) := by
  simp (disch := omega) only [bsnReg, ↓if_neg, ↓if_pos, Option.some.injEq, Reg.bsnFlipData.injEq, true_and]
  omega

theorem bsnReg_bankCorr (hn : n < cfg.physBanks) (ho : o = 0x800 + n * 8) : bsnReg cfg b o = some (.bsnBankCorr b n) := by
  simp (disch := omega) only [bsnReg, ↓if_neg, ↓if_pos, Option.some.injEq, Reg.bsnBankCorr.injEq, true_and]
  omega

variable (hp : cfg.physBanks ≤ 260)
include hp

theorem bsnReg_remap {e : Nat} (hn : n < cfg.physBanks) (he : e < 4) (ho : o = 0x2000 + n * 0x20 + e * 8) :
    bsnReg cfg b o = some (.bsnRemap b n e) := by
  simp (disch := omega) only [bsnReg, ↓if_neg, ↓if_pos, Option.some.injEq, Reg.bsnRemap.injEq, true_and]
  omega

theorem bsnReg_leveeA (hn : n < 32) (ho : o = 0x8000 + n * 0x10) : bsnReg cfg b o = some (.bsnLeveeA b n) := by
  simp (disch := omega) only [bsnReg, ↓if_neg, ↓if_pos, Option.some.injEq, Reg.bsnLeveeA.injEq, true_and]
  omega

theorem bsnReg_leveeB (hn : n < 32) (ho : o = 0x8008 + n * 0x10) : bsnReg cfg b o = some (.bsnLeveeB b n) := by
  simp (disch := omega) only [bsnReg, ↓if_neg, ↓if_pos, Option.some.injEq, Reg.bsnLeveeB.injEq, true_and]
  omega

theorem bsnReg_qosMap (ho : o = 0x10000) : bsnReg cfg b o = some (.trnQosMap b) := by
  simp (disch := omega) only [bsnReg, ↓if_neg, ↓if_pos]

theorem bsnReg_regCfg (ho : o = 0x10008) : bsnReg cfg b o = some (.trnRegCfg b) := by
  simp (disch := omega) only [bsnReg, ↓if_neg, ↓if_pos]

theorem bsnReg_arbSt (hn : n < 47) (ho : o = 0x10400 + n * 8) : bsnReg cfg b o = some (.trnArbSt b n) := by
  simp (disch := omega) only [bsnReg, ↓if_neg, ↓if_pos, Option.some.injEq, Reg.trnArbSt.injEq, true_and]
  omega

theorem bsnReg_otCfg (hn : n < 47) (ho : o = 0x10800 + n * 8) : bsnReg cfg b o = some (.trnOtCfg b n) := by
  simp (disch := omega) only [bsnReg, ↓if_neg, ↓if_pos, Option.some.injEq, Reg.trnOtCfg.injEq, true_and]
  omega

theorem bsnReg_otCur (hn : n < 47) (ho : o = 0x10C00 + n * 8) : bsnReg cfg b o = some (.trnOtCur b n) := by
  simp (disch := omega) only [bsnReg, ↓if_neg, ↓if_pos, Option.some.injEq, Reg.trnOtCur.injEq, true_and]
  omega

theorem bsnReg_latCfg (hn : n < 16) (ho : o = 0x11000 + n * 0x10) : bsnReg cfg b o = some (.trnLatCfg b n) := by
  simp (disch := omega) only [bsnReg, ↓if_neg, ↓if_pos, Option.some.injEq, Reg.trnLatCfg.injEq, true_and]
  omega

theorem bsnReg_latSt (hn : n < 16) (ho : o = 0x11008 + n * 0x10) : bsnReg cfg b o = some (.trnLatSt b n) := by
  simp (disch := omega) only [bsnReg, ↓if_neg, ↓if_pos, Option.some.injEq, Reg.trnLatSt.injEq, true_and]
  omega

theorem bsnReg_streamCfg (hn : n < 256) (ho : o = 0x18000 + n * 0x10) : bsnReg cfg b o = some (.trnStreamCfg b n) := by
  simp (disch := omega) only [bsnReg, ↓if_neg, ↓if_pos, Option.some.injEq, Reg.trnStreamCfg.injEq, true_and]
  omega

theorem bsnReg_streamSt (hn : n < 256) (ho : o = 0x18008 + n * 0x10) : bsnReg cfg b o = some (.trnStreamSt b n) := by
  simp (disch := omega) only [bsnReg, ↓if_neg, ↓if_pos, Option.some.injEq, Reg.trnStreamSt.injEq, true_and]
  omega

/-- An MXE's registers: which one, the place in the engine's block says. -/
theorem bsnReg_mxe {j : Nat} (hn : n < cfg.activeMxe + cfg.spareMxe) (hj : j < 0x100) (hj8 : j % 8 = 0) (ho : o = j + 0x20000 + n * 0x100) :
    bsnReg cfg b o = match (generalizing := false) j with
      | 0x00 => some (.mxeSt b n) | 0x08 => some (.mxeCnt b n) | 0x10 => some (.mxeSkip b n)
      | 0x18 => some (.mxePred b n) | 0x20 => some (.mxePredMap b n) | _ => none := by
  have hunit : (o - 0x20000) / 0x100 = n := by omega
  have hplace : o % 0x100 = j := by omega
  simp (disch := omega) only [bsnReg, ↓if_neg, ↓if_pos, hunit, hplace] <;> rfl

variable (hm : cfg.activeMxe + cfg.spareMxe ≤ 256)
include hm

theorem bsnReg_vxe {j : Nat} (hn : n < 16) (hj : j < 0x40) (hj8 : j % 8 = 0) (ho : o = j + 0x30000 + n * 0x40) :
    bsnReg cfg b o = match (generalizing := false) j with | 0 => some (.vxeSt b n) | 8 => some (.vxeCnt b n) | _ => none := by
  have hunit : (o - 0x30000) / 0x40 = n := by omega
  have hplace : o % 0x40 = j := by omega
  simp (disch := omega) only [bsnReg, ↓if_neg, ↓if_pos, hunit, hplace] <;> rfl

theorem bsnReg_sxe {j : Nat} (hn : n < 4) (hj : j < 0x40) (hj8 : j % 8 = 0) (ho : o = j + 0x30400 + n * 0x40) :
    bsnReg cfg b o = match (generalizing := false) j with | 0 => some (.sxeSt b n) | 8 => some (.sxeCnt b n) | _ => none := by
  have hunit : (o - 0x30400) / 0x40 = n := by omega
  have hplace : o % 0x40 = j := by omega
  simp (disch := omega) only [bsnReg, ↓if_neg, ↓if_pos, hunit, hplace] <;> rfl

theorem bsnReg_flm {j : Nat} (hn : n < 4) (hj : j < 0x40) (hj8 : j % 8 = 0) (ho : o = j + 0x30500 + n * 0x40) :
    bsnReg cfg b o = match (generalizing := false) j with | 0 => some (.flmSt b n) | 8 => some (.flmCnt b n) | _ => none := by
  have hunit : (o - 0x30500) / 0x40 = n := by omega
  have hplace : o % 0x40 = j := by omega
  simp (disch := omega) only [bsnReg, ↓if_neg, ↓if_pos, hunit, hplace] <;> rfl

end

/-! ### Blocks (R432) -/

section
variable {cfg : SiteConfig} {o : Nat}

theorem Reg.ofOffset_dev (x : Nat) (h : x < 0x10000) : Reg.ofOffset cfg x = devReg x := by
  simp (disch := omega) only [Reg.ofOffset, if_pos]

/-- A ring's registers: which one, the place in the ring's block says. -/
theorem devReg_ring {k j x : Nat} (hk : k < 9) (hj : j < 0x40) (hx : x = j + 0x1000 + k * 0x40) :
    devReg x = match (generalizing := false) j with
      | 0x00 => some (.ringCmd k) | 0x08 => some (.ringRpl k) | 0x10 => some (.ringDb k) | 0x18 => some (.ringHead k)
      | 0x20 => some (.ringRtail k) | 0x28 => some (.ringRhead k) | 0x30 => some (.ringSt k) | 0x38 => some (.ringPwr k)
      | _ => none := by
  have hring : (x - 0x1000) / 0x40 = k := by omega
  have hplace : (x - 0x1000) % 0x40 = j := by omega
  simp (disch := omega) only [devReg, if_pos, hring, hplace] <;> rfl

theorem Reg.ofOffset_pwr {x : Nat} (ho : o < 0x10000) (hx : x = 0x10000 + o) : Reg.ofOffset cfg x = pwrReg cfg o := by
  have hoff : x - 0x10000 = o := by omega
  simp (disch := omega) only [Reg.ofOffset, if_pos, if_neg, hoff]

theorem Reg.ofOffset_sec {x : Nat} (ho : o < 0x10000) (hx : x = 0x20000 + o) : Reg.ofOffset cfg x = secReg o := by
  have hoff : x - 0x20000 = o := by omega
  simp (disch := omega) only [Reg.ofOffset, if_pos, if_neg, hoff]

theorem pwrReg_basinSt {b : Nat} (hb : b < cfg.basins) : pwrReg cfg (0x400 + b * 8) = some (.pwrBasinSt b) := by
  simp (disch := omega) only [pwrReg, if_pos, Option.some.injEq, Reg.pwrBasinSt.injEq]
  omega

theorem secReg_ctxSt {c : Nat} (hc : c < 8) : secReg (0x100 + c * 8) = some (.secCtxSt c) := by
  simp (disch := omega) only [secReg, if_pos, Option.some.injEq, Reg.secCtxSt.injEq]
  omega

theorem Reg.ofOffset_cul {c x : Nat} (hc : c < 4) (ho : o < 0x10000) (hx : x = o + 0x100000 + c * 0x10000) :
    Reg.ofOffset cfg x = culReg c o := by
  have hunit : (x - 0x100000) / 0x10000 = c := by omega
  have hoff : x % 0x10000 = o := by omega
  simp (disch := omega) only [Reg.ofOffset, if_pos, if_neg, hunit, hoff]

theorem Reg.ofOffset_sph {i x : Nat} (hi : i < cfg.siphons) (ho : o < 0x10000) (hx : x = o + 0x200000 + i * 0x10000) :
    Reg.ofOffset cfg x = sphReg i o := by
  have hunit : (x - 0x200000) / 0x10000 = i := by omega
  have hoff : x % 0x10000 = o := by omega
  simp (disch := omega) only [Reg.ofOffset, if_pos, if_neg, hunit, hoff]

theorem sphReg_low (i : Nat) (ho : o < 0x40) :
    sphReg i o = match (generalizing := false) o with
      | 0x00 => some (.sphSt i) | 0x08 => some (.sphCfg i) | 0x10 => some (.sphRdCnt i) | 0x18 => some (.sphWrCnt i)
      | 0x20 => some (.sphIntSt i) | 0x28 => some (.sphPatrol i) | 0x30 => some (.sphLinkSt i) | 0x38 => some (.sphQst i)
      | _ => none := by
  have hlow : ¬ (i = 0 ∧ 0x8000 ≤ o ∧ o < 0x8400) := by omega
  simp only [sphReg, if_neg hlow] <;> rfl

theorem sphReg_region {n j x : Nat} (hn : n < 64) (hj : j < 0x10) (hx : x = j + 0x8000 + n * 0x10) :
    sphReg 0 x = match (generalizing := false) j with | 0 => some (.sphRgnA n) | 8 => some (.sphRgnB n) | _ => none := by
  have hunit : (x - 0x8000) / 0x10 = n := by omega
  have hplace : x % 0x10 = j := by omega
  have hin : True ∧ 0x8000 ≤ x ∧ x < 0x8400 := ⟨trivial, by omega⟩
  simp only [sphReg, hunit, hplace, if_pos hin] <;> rfl

/-- An offset of basin `b`'s block is found there: `q` is the place in a row of registers. -/
theorem Reg.ofOffset_basin (hs : cfg.siphons ≤ 32) {x b p q : Nat} (hb : b < cfg.basins) (ho : p + q < 0x40000)
    (hx : x = p + 0x1000000 + b * 0x40000 + q) : Reg.ofOffset cfg x = bsnReg cfg b (p + q) := by
  have hunit : (x - 0x1000000) / 0x40000 = b := by omega
  have hoff : x % 0x40000 = p + q := by omega
  simp (disch := omega) only [Reg.ofOffset, if_neg, if_pos, hunit, hoff]

/-- So are its first registers. -/
theorem Reg.ofOffset_basin_low (hs : cfg.siphons ≤ 32) {x b : Nat} (hb : b < cfg.basins) (ho : o < 0x40000)
    (hx : x = o + 0x1000000 + b * 0x40000) : Reg.ofOffset cfg x = bsnReg cfg b o :=
  Reg.ofOffset_basin (q := 0) hs hb ho hx

end

/-! ### The register map -/

/-- Settles O11, block by block. -/
theorem registerMap : Obligations.RegisterMap := by
  unfold Obligations.RegisterMap
  intro cfg r hwf hbuilt
  simp only [SiteConfig.wf, decide_eq_true_eq] at hwf
  have hs : cfg.siphons ≤ 32 := by omega
  have hm : cfg.activeMxe + cfg.spareMxe ≤ 256 := by omega
  have hp : cfg.physBanks ≤ 260 := by
    simp only [SiteConfig.physBanks, SiteConfig.banks]
    omega
  cases r <;> simp only [Reg.Built] at hbuilt
  case devId | devSerial | devConfig0 | devConfig1 | devBasinLive | devStartSt | devStartRes | devMgtAlert => rfl
  case ringCmd k | ringRpl k | ringDb k | ringHead k | ringRtail k | ringRhead k | ringSt k | ringPwr k =>
    exact (Reg.ofOffset_dev _ (by simp only [Reg.offset]; omega)).trans (devReg_ring hbuilt (by decide) rfl)
  case pwrSt | pwrCfg | pwrEntrySt | pwrRefuser | pwrKeeper | pwrVreq | pwrPerf | pwrCap | pwrPower | pwrTherm | pwrTrickle | pwrMargin =>
    rfl
  case clkSt =>
    exact (Reg.ofOffset_pwr (o := 0x800) (by decide) rfl).trans (by simp (disch := omega) only [pwrReg, if_neg])
  case clkRootCnt =>
    exact (Reg.ofOffset_pwr (o := 0x808) (by decide) rfl).trans (by simp (disch := omega) only [pwrReg, if_neg])
  case clkEventSeq =>
    exact (Reg.ofOffset_pwr (o := 0x810) (by decide) rfl).trans (by simp (disch := omega) only [pwrReg, if_neg])
  case pwrBasinSt b => exact (Reg.ofOffset_pwr (by omega) (by simp only [Reg.offset]; omega)).trans (pwrReg_basinSt hbuilt)
  case secSt | secObsCfg | secViolCnt | secViolLog => rfl
  case secCtxSt c => exact (Reg.ofOffset_sec (by omega) (by simp only [Reg.offset]; omega)).trans (secReg_ctxSt hbuilt)
  case ctlRemap | cstFwSt | cstHgSt | errDecodeAddr | errDecodeSrc | errDecodeCnt | errHardenSt => rfl
  case culSt c => exact (Reg.ofOffset_cul (o := 0x000) hbuilt (by decide) rfl).trans rfl
  case culCfg c => exact (Reg.ofOffset_cul (o := 0x008) hbuilt (by decide) rfl).trans rfl
  case culE1St c => exact (Reg.ofOffset_cul (o := 0x300) hbuilt (by decide) rfl).trans rfl
  case sphSt i | sphCfg i | sphRdCnt i | sphWrCnt i | sphIntSt i | sphPatrol i | sphLinkSt i | sphQst i =>
    exact (Reg.ofOffset_sph hbuilt (by decide) rfl).trans (sphReg_low i (by decide))
  case sphRgnA n =>
    obtain ⟨hsome, hn⟩ := hbuilt
    exact (Reg.ofOffset_sph (o := 0x8000 + n * 0x10) hsome (by omega) (by simp only [Reg.offset]; omega)).trans
      (sphReg_region (j := 0) hn (by decide) (by omega))
  case sphRgnB n =>
    obtain ⟨hsome, hn⟩ := hbuilt
    exact (Reg.ofOffset_sph (o := 0x8008 + n * 0x10) hsome (by omega) (by simp only [Reg.offset]; omega)).trans
      (sphReg_region (j := 8) hn (by decide) (by omega))
  case bsnBankCfg b | bsnTileCfg b | bsnTileSt b | bsnFmtSt b | bsnArbCfg b | bsnArbSt b | bsnEccSt b | bsnEccLog b | bsnScrubCfg b |
      bsnScrubLap b | bsnScrubSt b | bsnChkSt b | bsnSpareMap b | bsnFlipCfg b | bsnFlipChk b =>
    exact Reg.ofOffset_basin_low hs hbuilt (by decide) rfl
  case trnQosMap b => exact (Reg.ofOffset_basin_low hs hbuilt (by decide) rfl).trans (bsnReg_qosMap b hp rfl)
  case trnRegCfg b => exact (Reg.ofOffset_basin_low hs hbuilt (by decide) rfl).trans (bsnReg_regCfg b hp rfl)
  case bsnRemap b k e =>
    obtain ⟨hb, hk, he⟩ := hbuilt
    exact (Reg.ofOffset_basin hs (p := 0x2000) (q := k * 0x20 + e * 8) hb (by omega) (by simp only [Reg.offset]; omega)).trans
      (bsnReg_remap b hp hk he (by omega))
  all_goals obtain ⟨hb, hn⟩ := hbuilt
  all_goals refine (Reg.ofOffset_basin hs hb (by omega) rfl).trans ?_
  case bsnFlipData b i => exact bsnReg_flipData b hn rfl
  case bsnBankCorr b k => exact bsnReg_bankCorr b hn rfl
  case bsnLeveeA b n => exact bsnReg_leveeA b hp hn rfl
  case bsnLeveeB b n => exact bsnReg_leveeB b hp hn rfl
  case trnArbSt b n => exact bsnReg_arbSt b hp hn rfl
  case trnOtCfg b n => exact bsnReg_otCfg b hp hn rfl
  case trnOtCur b n => exact bsnReg_otCur b hp hn rfl
  case trnLatCfg b n => exact bsnReg_latCfg b hp hn rfl
  case trnLatSt b n => exact bsnReg_latSt b hp hn rfl
  case trnStreamCfg b n => exact bsnReg_streamCfg b hp hn rfl
  case trnStreamSt b n => exact bsnReg_streamSt b hp hn rfl
  case mxeSt b u | mxeCnt b u | mxeSkip b u | mxePred b u | mxePredMap b u => exact bsnReg_mxe b hp hn (by decide) (by decide) rfl
  case vxeSt b v | vxeCnt b v => exact bsnReg_vxe b hp hm hn (by decide) (by decide) rfl
  case sxeSt b x | sxeCnt b x => exact bsnReg_sxe b hp hm hn (by decide) (by decide) rfl
  case flmSt b f | flmCnt b f => exact bsnReg_flm b hp hm hn (by decide) (by decide) rfl

end Sys2Proof.Machine
end

section
set_option Elab.async false -- the whole text is compiled in one process, within a fixed memory
/-! SUPPORT. A site at work for counterexamples: context 0 active in basin 0, its packets on ring 0; and a lease taken in a thermal trip. -/

namespace Sys2Proof.Machine

/-! ### Concrete states and packets -/

/-- The state a command leaves. -/
def stateLeft (o : Host.Outcome State Fault Refusal) : State :=
  match o with
  | .next t => t
  | _ => State.reset

theorem stateLeft_of_next {o : Host.Outcome State Fault Refusal} {t : State} (h : o = .next t) : stateLeft o = t := by rw [h]; rfl

/-- Context 0 is active, its levee and allotment all of basin 0, and its ring has 16 entries. -/
def State.working : State :=
  { State.reset.setSite stFlow with
    active := some 0
    ctxs := [(0, { CtxRec.absent with resident := true, createNo := 1, mask := 1, len := 131072 })]
    regs := [(.pwrSt, 0), (.ringSt 0, 1), (.ringCmd 0, BitVec.ofNat 64 (4 * 2 ^ 40)),
      (.ringRpl 0, BitVec.ofNat 64 (4 * 2 ^ 40 + 4)), (.bsnLeveeA 0 0, BitVec.ofNat 64 (2 ^ 63 + 131072 * 2 ^ 32)),
      (.bsnLeveeB 0 0, BitVec.ofNat 64 (16320 * 2 ^ 32 + 4032))] }

/-- The first packet of a ring. -/
def firstPacket (op : Byte) (params : Nat) : Packet := ⟨op, 0, 0, 0, 1, 0, 0, 0, BitVec.ofNat 384 params⟩

/-- It, fetched in order. -/
def firstFetched (p : Packet) : Fetched := ⟨p, 0, true, 1, none⟩

/-- The conditions of `State.Takes` for a ring, decided. -/
def State.takesNow (s : State) (r : Nat) (p : Packet) (fe : Fetched) : Bool :=
  let t := s.fetched (.ring r) p
  decide (s.buffered (.ring r) = 0) && s.ringFetchable r && decide (t.head? (.ring r) = some fe) && decide (fe.pkt = p) &&
    decide (t.commonCheck (.ring r) fe = none) && t.lists.isEmpty && t.flights.isEmpty &&
    decide (t.streamCheck (.ring r) p = none)

theorem State.takes_of_takesNow {s : State} {r : Nat} {p : Packet} {fe : Fetched} (h : s.takesNow r p fe = true) :
    s.Takes (.ring r) p (s.fetched (.ring r) p) fe := by
  simp only [State.takesNow, Bool.and_eq_true, decide_eq_true_eq, List.isEmpty_iff] at h
  obtain ⟨⟨⟨⟨⟨⟨⟨hbuf, hfetch⟩, hhead⟩, hpkt⟩, hcommon⟩, hlists⟩, hflights⟩, hstream⟩ := h
  refine ⟨⟨hbuf, hfetch, rfl, hhead, hpkt, hcommon, fun l hl => ?_, fun f hf => ?_⟩, fun _ => hstream⟩
  · exact absurd (hlists ▸ hl) List.not_mem_nil
  · exact absurd (hflights ▸ hf) List.not_mem_nil

/-! ### A lock taken in a thermal trip (R49, R331) -/

/-- A tile of one row in basin 0; a thermal trip has begun one root period after the present. -/
def State.trippedTile : State :=
  { State.working.putDesc 0 0 (BitVec.ofNat 512 (16 + 2 ^ 18 + 2 ^ 64 + 32 * 2 ^ 80 + 33 * 2 ^ 24)) with
    start := { State.working.start with thermTrip := true }, power := { State.working.power with tripStart := 1 } }

/-- Refutes O24: a lease taken during a thermal trip runs from the trip's start, not from the present. -/
theorem not_locks : ¬ Obligations.Locks := by
  unfold Obligations.Locks
  intro h
  have htakes : State.trippedTile.Takes (.ring 0) { firstPacket 0x28 0 with opcode := 0x28 }
      (State.trippedTile.fetched (.ring 0) (firstPacket 0x28 0)) (firstFetched (firstPacket 0x28 0)) :=
    State.takes_of_takesNow (by decide +kernel)
  obtain ⟨hlock, -⟩ := h State.trippedTile (State.trippedTile.fetched (.ring 0) (firstPacket 0x28 0))
    (.ring 0) (firstPacket 0x28 0) (firstFetched (firstPacket 0x28 0)) 0 0 (by decide +kernel) (by decide +kernel)
  obtain ⟨hfree, -⟩ := hlock htakes
  obtain ⟨u, hexec, -, -, hlocks, -⟩ := hfree (by decide +kernel) (by decide +kernel) (by decide +kernel)
  rw [← stateLeft_of_next hexec] at hlocks
  have hdeadline := congrArg (List.map Lock.deadline) hlocks
  exact absurd hdeadline (by decide +kernel)

end Sys2Proof.Machine
end

section
set_option Elab.async false -- the whole text is compiled in one process, within a fixed memory
/-! SUPPORT. Register accesses through the window: where they land in a site that is awake, what a plain store leaves, and what a refused
one leaves (R362, R434, R435). -/

namespace Sys2Proof.Machine

/-! ### The window of a site that is awake -/

theorem State.Awake.windowUp {s : State} (h : s.Awake) : s.windowUp = true := by
  obtain ⟨hpwr, hsite⟩ := h
  have hdry : s.site ≠ stDry := by
    rcases hsite with e | e | e | e <;> rw [e] <;> decide
  simp [State.windowUp, hpwr, hdry]

/-- Flights as they were leave a site at rest as it is. -/
theorem State.AtRest.runReady {s t : State} (h : s.AtRest) (hf : t.flights = s.flights) : t.runReady = t :=
  State.runReady_of_atRest fun f hm => h f (hf ▸ hm)

theorem State.Awake.mapStore {s : State} (h : s.Awake) (who : Requester) (m : Bool) (a : Nat) (bs : List Byte) :
    s.mapStore who m a bs =
      if s.placeOf a bs.length = .nowhere then s.decodeError who.decodeSource a true
      else if !s.reaches who (s.placeOf a bs.length) bs.length true then s.violation who.violSource a true
      else (s.storeAt who m (s.placeOf a bs.length) bs).runReady := by
  cases hw : accessWake who (s.placeOf a bs.length) true with
  | none => simp only [State.mapStore, hw]
  | some w => simp only [State.mapStore, hw, State.wakeFor_awake h]

theorem State.Awake.mapLoad {s : State} (h : s.Awake) (who : Requester) (a n : Nat) :
    s.mapLoad who a n =
      if s.placeOf a n = .nowhere then (s.decodeError who.decodeSource a false, List.replicate n 0)
      else if !s.reaches who (s.placeOf a n) n false then (s.violation who.violSource a false, List.replicate n 0)
      else s.loadAt who (s.placeOf a n) n := by
  cases hw : accessWake who (s.placeOf a n) false with
  | none => simp only [State.mapLoad, hw]
  | some w => simp only [State.mapLoad, hw, State.wakeFor_awake h]

/-- An aligned access of 4 or 8 bytes raises no exception of a core that nothing bars. -/
theorem State.CoreFree.coreCheck {s : State} (h : s.CoreFree) (k : LocalKind) {a n : Nat} (hn : n = 4 ∨ n = 8) (ha : a % n = 0) :
    s.coreCheck k (2 ^ 48 + a) n = none := by
  have hmod : (2 ^ 48 + a) % n = 0 ∧ (2 ^ 48 + a) % 2 = 0 := by
    rcases hn with rfl | rfl <;> omega
  have hmax : max 1 n = n := by omega
  have hal : k.aligned (2 ^ 48 + a) n = true := by
    cases k <;> simp only [LocalKind.aligned, hmax, hmod, decide_true]
  simp only [State.coreCheck, hal, h k, Bool.not_true, Bool.false_eq_true, if_false]

/-- A requester's access on the site map. -/
theorem State.siteStore_onSite {s : State} (hA : s.Awake) (hC : s.CoreFree) {who : Requester} {a : Nat} {bs : List Byte}
    (hn : bs.length = 4 ∨ bs.length = 8) (hO : OnSite who a bs.length) (m : Bool) :
    s.siteStore who m a bs = s.mapStore who m a bs := by
  obtain ⟨h1, h2, h3, h4⟩ := hO
  unfold State.siteStore
  rw [hA.windowUp]
  cases who with
  | coreLocal => exact absurd rfl h1
  | coreFetch => exact absurd rfl h2
  | coreAtomic => exact absurd rfl h3
  | core =>
    obtain ⟨hlt, hal⟩ := h4 rfl
    simp only [State.coreStore, siteOf_window hlt, hC.coreCheck .store hn hal]
    rfl
  | headgate => rfl
  | mgt => rfl
  | iface k => rfl

theorem State.siteLoad_onSite {s : State} (hA : s.Awake) (hC : s.CoreFree) {who : Requester} {a n : Nat}
    (hn : n = 4 ∨ n = 8) (hO : OnSite who a n) : s.siteLoad who a n = s.mapLoad who a n := by
  obtain ⟨h1, h2, h3, h4⟩ := hO
  unfold State.siteLoad
  rw [hA.windowUp]
  cases who with
  | coreLocal => exact absurd rfl h1
  | coreFetch => exact absurd rfl h2
  | coreAtomic => exact absurd rfl h3
  | core =>
    obtain ⟨hlt, hal⟩ := h4 rfl
    simp only [State.coreLoad, siteOf_window hlt, hC.coreCheck .load hn hal]
    rfl
  | headgate => rfl
  | mgt => rfl
  | iface k => rfl

/-! ### An access that meets a register -/

/-- A place that is a register is in the register window, and its access is of 4 or 8 bytes, aligned (R6, R23). -/
theorem State.reg_of_placeOf {s : State} {a n : Nat} {r : Reg} {o : Nat} (h : s.placeOf a n = .reg r o) :
    (n = 4 ∨ n = 8) ∧ a % n = 0 ∧ regBase ≤ a ∧ a < regBase + 0x2000000 := by
  unfold State.placeOf at h
  split at h
  · cases h
  split at h
  · split at h
    · split at h <;> cases h
    · cases h
  split at h
  · dsimp only at h
    split at h <;> cases h
  split at h
  · dsimp only at h
    split at h <;> cases h
  split at h
  · next hin =>
    split at h
    · next hsize =>
      simp only [regSize, Bool.and_eq_true, Bool.or_eq_true, decide_eq_true_eq] at hsize
      exact ⟨hsize.1, hsize.2, hin⟩
    · cases h
  split at h
  · split at h
    · split at h <;> cases h
    · cases h
  · cases h

/-- A requester that reaches a register is on the site map. -/
theorem State.onSite_of_reaches {s : State} {who : Requester} {a n : Nat} {r : Reg} {o : Nat} {w : Bool}
    (hp : s.placeOf a n = .reg r o) (hr : s.reaches who (.reg r o) n w = true) : OnSite who a n := by
  obtain ⟨-, hal, -, hlt⟩ := State.reg_of_placeOf hp
  have h48 : a < 2 ^ 48 := lt_trans hlt (by decide)
  refine ⟨?_, ?_, ?_, fun _ => ⟨h48, hal⟩⟩ <;> rintro rfl <;> exact Bool.noConfusion hr

theorem State.Meets.onSite {s : State} {who : Requester} {r : Reg} {n : Nat} {w : Bool} (h : s.Meets who r n w) :
    OnSite who r.addr.toNat n := State.onSite_of_reaches h.1 h.2

theorem State.Meets.size {s : State} {who : Requester} {r : Reg} {n : Nat} {w : Bool} (h : s.Meets who r n w) : n = 4 ∨ n = 8 :=
  (State.reg_of_placeOf h.1).1

/-- A number's bytes, read back, are it (R5). -/
theorem leNat_of_leBytes (n v : Nat) : leNat (leBytes n v) = v % 256 ^ n := by
  induction n generalizing v with
  | zero => simp [leBytes, leNat, Nat.mod_one]
  | succ n ih =>
    have hpow : 256 ^ (n + 1) = 256 * 256 ^ n := by rw [Nat.pow_succ, Nat.mul_comm]
    simp only [leBytes, leNat, ih, BitVec.toNat_ofNat]
    rw [hpow, Nat.mod_mul]

/-- A store that meets a register writes it. -/
theorem State.Meets.siteStore {s : State} {who : Requester} {r : Reg} {n : Nat} (h : s.Meets who r n true) (hA : s.Awake)
    (hC : s.CoreFree) (m : Bool) {bs : List Byte} (hbs : bs.length = n) :
    s.siteStore who m r.addr.toNat bs = (s.writeReg who m r 0 n (BitVec.ofNat 64 (leNat bs))).runReady := by
  subst hbs
  have hne : Place.reg r 0 ≠ .nowhere := Place.noConfusion
  rw [State.siteStore_onSite hA hC h.size h.onSite, hA.mapStore]
  simp only [h.1, h.2, if_neg hne, State.storeAt, Nat.mul_zero, Nat.pow_zero, Nat.mul_one]
  rfl

/-- A store of a whole register. -/
theorem State.Meets.storeReg {s : State} {who : Requester} {r : Reg} (h : s.Meets who r 8 true) (hA : s.Awake) (hC : s.CoreFree)
    (m : Bool) (v : Word64) : s.storeReg who m r v = (s.writeReg who m r 0 8 v).runReady := by
  have hv : BitVec.ofNat 64 (leNat (leBytes 8 v.toNat)) = v := by
    rw [leNat_of_leBytes]
    exact BitVec.eq_of_toNat_eq (by rw [BitVec.toNat_ofNat]; have := v.isLt; omega)
  rw [State.storeReg, h.siteStore hA hC m (leBytes_length 8 v.toNat), hv]

theorem State.Meets.registerWrite {s : State} {who : Requester} {r : Reg} (h : s.Meets who r 8 true) (hA : s.Awake) (hC : s.CoreFree)
    (v : Word64) : exec (.registerWrite who r.addr 8 v) s = .next (s.writeReg who true r 0 8 v).runReady := by
  obtain ⟨-, -, hin⟩ := State.reg_of_placeOf h.1
  simp only [exec, execRegisterWrite, if_pos hin]
  exact congrArg Host.Outcome.next (h.storeReg hA hC true v)

/-- A store that its requester may not make is a violation (R362, R434). -/
theorem State.siteStore_refused {s : State} {who : Requester} {r : Reg} (hA : s.Awake) (hC : s.CoreFree)
    (hp : s.placeOf r.addr.toNat 8 = .reg r 0) (hO : OnSite who r.addr.toNat 8) (hr : s.reaches who (.reg r 0) 8 true = false)
    (m : Bool) (v : Word64) : s.storeReg who m r v = s.violation who.violSource r.addr.toNat true := by
  have hlen : (leBytes 8 v.toNat).length = 8 := leBytes_length 8 v.toNat
  have hne : Place.reg r 0 ≠ .nowhere := Place.noConfusion
  rw [State.storeReg, State.siteStore_onSite hA hC (.inr hlen) (hlen ▸ hO), hA.mapStore, hlen]
  simp only [hp, hr, if_neg hne, Bool.not_false, if_true]

/-! ### A refused access (R362, R389) -/

theorem State.reg_violation {s : State} {src a : Nat} {w : Bool} {r : Reg} (h1 : r ≠ .secViolCnt) (h2 : r ≠ .secViolLog) :
    (s.violation src a w).reg r = s.reg r := by
  unfold State.violation
  split <;> simp [h1, h2]

/-- A refused access is counted. -/
theorem State.count_violation (s : State) (src a : Nat) (w : Bool) :
    (s.violation src a w).rfld .secViolCnt 0 32 = min (s.rfld .secViolCnt 0 32 + 1) (2 ^ 32 - 1) := by
  have hbump : (s.bump .secViolCnt 0 32).rfld .secViolCnt 0 32 = min (s.rfld .secViolCnt 0 32 + 1) (2 ^ 32 - 1) :=
    s.rfld_bump_self .secViolCnt 0 32 (by decide)
  unfold State.violation
  split
  · exact hbump
  · refine Eq.trans (congrArg (fld · 0 32) ?_) hbump
    simp

/-- Beside its count and its log, a refused access leaves everything. -/
theorem State.violation_rest (s : State) (src a : Nat) (w : Bool) :
    { s.violation src a w with regs := s.regs, fresh := s.fresh } = s := by
  have hput (t : State) (r : Reg) (v : Word64) :
      { t.putReg r v with regs := s.regs, fresh := s.fresh } = { t with regs := s.regs, fresh := s.fresh } := rfl
  have hset (t : State) (r : Reg) (m : Word64) :
      { t.setW1c r m with regs := s.regs, fresh := s.fresh } = { t with regs := s.regs, fresh := s.fresh } := rfl
  have hbump : { s.bump .secViolCnt 0 32 with regs := s.regs, fresh := s.fresh } = s := by
    simp only [State.bump, Nat.one_ne_zero, if_false]
    exact hput s _ _
  unfold State.violation
  dsimp only
  split
  · exact hbump
  · rw [hset, hput, hbump]

theorem State.flights_violation (s : State) (src a : Nat) (w : Bool) : (s.violation src a w).flights = s.flights := by
  unfold State.violation
  split <;> simp

theorem State.mem_violation (s : State) (src a : Nat) (w : Bool) : (s.violation src a w).mem = s.mem := by
  unfold State.violation
  split <;> simp

/-! ### Plain stores (R7, R435) -/

theorem laneMask_whole : laneMask 0 8 = BitVec.allOnes 64 := by decide

/-- With no hardware count in the cycle a plain store is its fields' alone. -/
theorem State.plainStore_of_quiet {s : State} (h : s.fresh = []) (r : Reg) (rw lanes data : Word64) :
    s.plainStore r rw lanes data = s.putReg r (fieldStore (s.reg r) r.access rw lanes data) := by
  have hfresh : (s.putReg r (fieldStore (s.reg r) r.access rw lanes data)).fresh = [] := h
  simp only [State.plainStore, State.afterStore, hfresh, List.foldr_nil]

theorem State.onlyReg_putReg (s : State) (r : Reg) (v : Word64) : s.OnlyReg (s.putReg r v) r v :=
  ⟨s.reg_putReg_self r v, fun _ h => s.reg_putReg_ne h v, rfl, rfl, rfl, rfl, rfl, rfl, rfl, rfl⟩

/-- A whole store to a register Rosog alone writes: its RW fields are the store's (R435). -/
theorem fieldStore_whole {a : Access} (h1 : a.w1c = 0) (h2 : a.counter = 0) (old v : Word64) :
    fieldStore old a a.rw (laneMask 0 8) v = (old &&& ~~~a.rw) ||| (v &&& a.rw) := by
  simp only [fieldStore, laneMask_whole, BitVec.and_allOnes, h1, h2, BitVec.ofNat_eq_ofNat, BitVec.or_zero, BitVec.zero_and,
    BitVec.not_zero]

/-- A whole store to a register without RW fields sets its counters and clears its W1C bits (R435). -/
theorem fieldStore_counters (a : Access) (old v : Word64) :
    fieldStore old a 0 (laneMask 0 8) v = ((old &&& ~~~a.counter) ||| (v &&& a.counter)) &&& ~~~(v &&& a.w1c) := by
  simp only [fieldStore, laneMask_whole, BitVec.and_allOnes, BitVec.and_comm v a.w1c]
  simp

end Sys2Proof.Machine
end

section
set_option Elab.async false -- the whole text is compiled in one process, within a fixed memory
/-! SUPPORT. READ and WRITE over the management bus (R424–R426). -/

namespace Sys2Proof.Machine

theorem State.windowUp_of_mgtUp {s : State} (h : s.mgtUp = true) : s.windowUp = true := by
  simp only [State.mgtUp, Bool.and_eq_true] at h
  obtain ⟨⟨hpwr, -⟩, hdry⟩ := h
  simp only [State.windowUp, hpwr, hdry, Bool.and_self]

section
variable {s : State} {r : Reg} (hup : s.mgtUp = true) (hp : s.placeOf r.addr.toNat 8 = .reg r 0)
include hup hp

/-- The bus wakes no site by an access (R322). -/
theorem State.siteStore_mgt (m : Bool) (v : Word64) :
    s.siteStore .mgt m r.addr.toNat (leBytes 8 v.toNat) =
      if s.mgtReg r true then (s.writeReg .mgt m r 0 8 v).runReady
      else s.violation Requester.mgt.violSource r.addr.toNat true := by
  have hlen : (leBytes 8 v.toNat).length = 8 := leBytes_length 8 v.toNat
  have hne : Place.reg r 0 ≠ .nowhere := Place.noConfusion
  have hv : BitVec.ofNat 64 (leNat (leBytes 8 v.toNat)) = v := by
    rw [leNat_of_leBytes]
    exact BitVec.eq_of_toNat_eq (by rw [BitVec.toNat_ofNat]; have := v.isLt; omega)
  have hwin := State.windowUp_of_mgtUp hup
  simp only [State.siteStore, hwin, Bool.not_true, Bool.false_eq_true, if_false, State.mapStore, hlen, hp, accessWake, if_neg hne,
    State.reaches, State.storeAt, Nat.mul_zero, Nat.pow_zero, Nat.mul_one, hv]
  cases s.mgtReg r true <;> rfl

theorem State.siteLoad_mgt :
    s.siteLoad .mgt r.addr.toNat 8 =
      if s.mgtReg r false then s.readReg .mgt r 0 8
      else (s.violation Requester.mgt.violSource r.addr.toNat false, List.replicate 8 0) := by
  have hne : Place.reg r 0 ≠ .nowhere := Place.noConfusion
  have hwin := State.windowUp_of_mgtUp hup
  simp only [State.siteLoad, hwin, Bool.not_true, Bool.false_eq_true, if_false, State.mapLoad, hp, accessWake, if_neg hne,
    State.reaches, State.loadAt]
  cases s.mgtReg r false <;> rfl

omit hup in
theorem State.mgtReaches_reg (w : Bool) : s.mgtReaches r.addr.toNat w = s.mgtReg r w := by
  simp [State.mgtReaches, hp, State.reaches]

/-- A whole WRITE within reach or beyond it (R425). -/
theorem State.execMgtWrite_reg (v : Word64) :
    exec (.mgtWrite r.addr v) s = .next (if s.mgtReg r true then (s.writeReg .mgt false r 0 8 v).runReady.mgtAnswer .ok []
      else (s.violation Requester.mgt.violSource r.addr.toNat true).mgtAnswer .accessDenied []) := by
  simp only [exec, execMgtWrite, hup, Bool.not_true, Bool.false_eq_true, if_false, State.mgtReaches_reg hp,
    State.siteStore_mgt hup hp]
  cases s.mgtReg r true <;> rfl

theorem State.execMgtRead_reg :
    exec (.mgtRead r.addr) s = .next (if s.mgtReg r false then (s.readReg .mgt r 0 8).1.mgtAnswer .ok (s.readReg .mgt r 0 8).2
      else (s.violation Requester.mgt.violSource r.addr.toNat false).mgtAnswer .accessDenied []) := by
  simp only [exec, execMgtRead, hup, Bool.not_true, Bool.false_eq_true, if_false, State.mgtReaches_reg hp,
    State.siteLoad_mgt hup hp]
  cases s.mgtReg r false <;> rfl

end

/-- A register that is read without an effect (R179). -/
theorem State.readReg_plain (s : State) (who : Requester) {r : Reg} (h : ∀ b k, r ≠ .trnLatSt b k) :
    s.readReg who r 0 8 = (s, leBytes 8 (s.regValue who r).toNat) := by
  have hall : ((leBytes 8 (s.regValue who r).toNat).drop 0).take 8 = leBytes 8 (s.regValue who r).toNat :=
    List.take_of_length_le (by simp [leBytes_length])
  unfold State.readReg
  split
  · exact absurd rfl (h _ _)
  · exact congrArg (Prod.mk s) hall

/-- A store that carries no counter and no W1C bit meets no hardware count (R7). -/
theorem State.afterStore_none (s : State) (r : Reg) :
    (∀ r', (s.afterStore r 0).reg r' = s.reg r') ∧ (s.afterStore r 0).flights = s.flights := by
  unfold State.afterStore
  induction s.fresh with
  | nil => exact ⟨fun _ => rfl, rfl⟩
  | cons u l ih =>
    rw [List.foldr_cons]
    generalize List.foldr _ s l = t at ih ⊢
    obtain ⟨hreg, hflights⟩ := ih
    cases u with
    | bump r' lo w n => simpa using ⟨hreg, hflights⟩
    | stream b e base mag => exact ⟨hreg, hflights⟩
    | setBits r' m =>
      by_cases hr : r' = r
      · have hput : ∀ q, (t.putReg r (t.reg r)).reg q = t.reg q := fun q => by
          by_cases hq : q = r
          · rw [hq, State.reg_putReg_self]
          · exact t.reg_putReg_ne hq _
        simpa [hr, hput] using ⟨hreg, hflights⟩
      · simpa [hr] using ⟨hreg, hflights⟩

theorem State.reg_plainStore_unlogged {s : State} {r : Reg} {rw lanes data : Word64} (h : (r.access.counter ||| r.access.w1c) &&& lanes = 0) :
    (s.plainStore r rw lanes data).reg r = fieldStore (s.reg r) r.access rw lanes data ∧
      (s.plainStore r rw lanes data).flights = s.flights := by
  simp only [State.plainStore, h]
  obtain ⟨hreg, hflights⟩ := State.afterStore_none (s.putReg r (fieldStore (s.reg r) r.access rw lanes data)) r
  exact ⟨(hreg r).trans (s.reg_putReg_self r _), hflights⟩

/-! ### Fields of a stored value -/

/-- A field is told by its bits. -/
theorem fld_congr {w : Nat} {x y : BitVec w} {lo n : Nat} (h : ∀ i, lo ≤ i → i < lo + n → x.getLsbD i = y.getLsbD i) :
    fld x lo n = fld y lo n := by
  rw [fld_eq_extract, fld_eq_extract]
  refine congrArg BitVec.toNat (BitVec.eq_of_getLsbD_eq fun i hi => ?_)
  simp only [BitVec.getLsbD_extractLsb', hi, decide_true, Bool.true_and]
  exact h _ (Nat.le_add_right lo i) (Nat.add_lt_add_left hi lo)

/-- Bit `i` of a field's mask. -/
theorem getLsbD_maskOf (lo n i : Nat) : (maskOf lo n).getLsbD i = decide (lo ≤ i ∧ i < lo + n ∧ i < 64) := by
  have hbit : ((2 ^ n - 1) * 2 ^ lo).testBit i = (decide (i ≥ lo) && decide (i - lo < n)) := by
    rw [Nat.testBit_mul_two_pow, Nat.testBit_two_pow_sub_one]
  rw [maskOf, BitVec.getLsbD_ofNat, hbit, ← Bool.decide_and, ← Bool.decide_and]
  exact decide_eq_decide.2 (by omega)

/-- A store's bit: the store's where it is written, the register's elsewhere, and cleared by a one (R435). -/
theorem getLsbD_fieldStore (old : Word64) (a : Access) (rw lanes v : Word64) {i : Nat} (hi : i < 64) :
    (fieldStore old a rw lanes v).getLsbD i =
      ((if (rw.getLsbD i || a.counter.getLsbD i) && lanes.getLsbD i then v.getLsbD i else old.getLsbD i) &&
        !(a.w1c.getLsbD i && lanes.getLsbD i && v.getLsbD i)) := by
  simp only [fieldStore, BitVec.getLsbD_and, BitVec.getLsbD_or, BitVec.getLsbD_not, hi]
  generalize rw.getLsbD i = p, a.counter.getLsbD i = q, a.w1c.getLsbD i = c, lanes.getLsbD i = l, v.getLsbD i = x, old.getLsbD i = o
  revert p q c l x o
  decide

theorem getLsbD_laneMask_whole {i : Nat} (hi : i < 64) : (laneMask 0 8).getLsbD i = true := by
  rw [laneMask_whole, BitVec.getLsbD_allOnes]
  exact decide_eq_true hi

/-! ### What a WRITE of the cap and of the alert causes leaves -/

/-- A cap within its range is taken (R332). -/
theorem State.writeReg_cap (s : State) (v : Word64) (h150 : 150 ≤ v.toNat / 2 ^ 48) (h620 : v.toNat / 2 ^ 48 ≤ 620) :
    (s.writeReg .mgt false .pwrCap 0 8 v).rfld .pwrCap 48 16 = v.toNat / 2 ^ 48 ∧
      (s.writeReg .mgt false .pwrCap 0 8 v).flights = s.flights := by
  have hfld : fld v 48 16 = v.toNat / 2 ^ 48 := Nat.mod_eq_of_lt (by omega)
  have hcap (lanes : Word64) (hl : ∀ i, 48 ≤ i → i < 64 → lanes.getLsbD i = true) :
      fld (fieldStore (s.reg .pwrCap) Reg.pwrCap.access (maskOf 48 16) lanes v) 48 16 = v.toNat / 2 ^ 48 := by
    rw [← hfld]
    refine fld_congr fun i h1 h2 => ?_
    rw [getLsbD_fieldStore _ _ _ _ _ h2, hl i h1 h2]
    simp [Reg.access, getLsbD_maskOf, h1, h2]
  have hwhole := hcap (laneMask 0 8) fun i _ h => getLsbD_laneMask_whole h
  have hfield := hcap (laneMask 0 8 &&& maskOf 48 16) fun i h1 h2 => by
    simp [getLsbD_laneMask_whole h2, getLsbD_maskOf, h1, h2]
  have hlanes : (Reg.pwrCap.access.counter ||| Reg.pwrCap.access.w1c) &&& (laneMask 0 8 &&& maskOf 48 16) = 0 := by decide
  obtain ⟨hreg, hflights⟩ := s.reg_plainStore_unlogged (rw := maskOf 48 16) (data := v) hlanes
  simp only [State.writeReg, Reg.basin?, Bool.false_eq_true, if_false, if_true, hwhole, h150, h620, and_self]
  exact ⟨(congrArg (fld · 48 16) hreg).trans hfield, hflights⟩

/-- Alert causes that a store names are cleared (R426). -/
theorem State.writeReg_alert (s : State) (hfresh : s.fresh = []) (v : Word64) :
    s.writeReg .mgt false .devMgtAlert 0 8 v = s.putReg .devMgtAlert (s.reg .devMgtAlert &&& ~~~(v &&& 0xFF)) := by
  have hcount : Reg.devMgtAlert.access.counter = 0#64 := rfl
  have hcauses : Reg.devMgtAlert.access.w1c = 0xFF := by decide
  simp only [State.writeReg, Reg.basin?, Bool.false_eq_true, if_false, State.plainStore_of_quiet hfresh, fieldStore_counters, hcount,
    hcauses, BitVec.and_zero, BitVec.or_zero, BitVec.not_zero, BitVec.and_allOnes]
  rfl

/-- Settles O7. -/
theorem busReadsAndWrites : Obligations.BusReadsAndWrites := by
  unfold Obligations.BusReadsAndWrites
  intro s r hup hp
  refine ⟨fun hreach hlat => ?read, fun hno => ?readRefused, fun v hown hrest h150 h620 hr => ?cap, fun v hreach hrest hfresh hr => ?alert,
    fun v hno => ?writeRefused⟩
  case read =>
    rw [State.execMgtRead_reg hup hp, hreach, s.readReg_plain .mgt hlat]
    rfl
  case readRefused =>
    rw [State.execMgtRead_reg hup hp, hno]
    exact ⟨_, rfl, rfl⟩
  case cap =>
    subst hr
    have hreach : s.mgtReg .pwrCap true = true := by simp [State.mgtReg, hown]
    obtain ⟨hcap, hflights⟩ := s.writeReg_cap v (by simpa using h150) h620
    rw [State.execMgtWrite_reg hup hp, if_pos hreach, hrest.runReady hflights]
    exact ⟨_, rfl, rfl, hcap⟩
  case alert =>
    subst hr
    rw [State.execMgtWrite_reg hup hp, if_pos hreach, State.writeReg_alert s hfresh,
      hrest.runReady (t := s.putReg .devMgtAlert _) rfl]
    exact ⟨_, rfl, rfl, s.reg_putReg_self .devMgtAlert _⟩
  case writeRefused =>
    rw [State.execMgtWrite_reg hup hp, hno]
    refine ⟨_, rfl, rfl, fun hsec => State.reg_violation ?_ ?_⟩ <;> rintro rfl <;> exact hsec rfl

end Sys2Proof.Machine
end

section
set_option Elab.async false -- the whole text is compiled in one process, within a fixed memory
/-! SUPPORT. The owner role, STATE, alert acknowledgement and the wake by address (R424–R426, R330). -/

namespace Sys2Proof.Machine

/-! ### Stores kept, by what lasts -/

theorem State.sameStores_of_lasting {s t : State} (h : t.lasting = s.lasting) : s.SameStores t :=
  ⟨congrArg Lasting.mem h, congrArg Lasting.memChk h, congrArg Lasting.desc h, congrArg Lasting.gauge h, congrArg Lasting.stack h⟩

/-! ### Answers on the bus -/

theorem State.alert_rest (s : State) (i : Nat) : (s.alert i).mgt.resp = s.mgt.resp ∧ (∀ r, r ≠ .devMgtAlert → (s.alert i).reg r = s.reg r) ∧
    (s.alert i).start = s.start ∧ (s.alert i).detach = s.detach := by
  unfold State.alert
  dsimp only
  split
  · exact ⟨rfl, fun r h => s.reg_setW1c_ne h _, rfl, rfl⟩
  · exact ⟨rfl, fun r h => s.reg_setW1c_ne h _, rfl, rfl⟩

theorem State.bit_alert (s : State) {i : Nat} (hi : i < 64) : bit ((s.alert i).reg .devMgtAlert) i = true := by
  have hreg : (s.alert i).reg .devMgtAlert = s.reg .devMgtAlert ||| maskOf i 1 := by
    unfold State.alert
    dsimp only
    split
    · exact s.reg_setW1c_self .devMgtAlert _
    · exact s.reg_setW1c_self .devMgtAlert _
  rw [hreg, bit, BitVec.getLsbD_or, getLsbD_maskOf]
  simp [hi]

/-- A STATE command's answer: its bytes, the completion cause, and nothing of the site's state. -/
theorem State.stateAnswer_tells (s : State) (st : Status) (w0 w1 : Nat) :
    (s.stateAnswer st w0 w1).mgt.resp = BitVec.ofNat 8 st.code :: (leBytes 4 w0 ++ leBytes 4 w1) ∧
      bit ((s.stateAnswer st w0 w1).reg .devMgtAlert) 5 = true ∧
      (∀ r, r ≠ .devMgtAlert → (s.stateAnswer st w0 w1).reg r = s.reg r) ∧
      (s.stateAnswer st w0 w1).start = s.start ∧ (s.stateAnswer st w0 w1).detach = s.detach := by
  obtain ⟨hresp, hreg, hstart, hdetach⟩ := (s.mgtAnswer st (leBytes 4 w0 ++ leBytes 4 w1)).alert_rest alStateDone
  exact ⟨hresp, State.bit_alert _ (by decide), hreg, hstart, hdetach⟩

theorem State.site_stateAnswer (s : State) (st : Status) (w0 w1 : Nat) : (s.stateAnswer st w0 w1).site = s.site := by
  obtain ⟨-, -, hreg, -⟩ := s.stateAnswer_tells st w0 w1
  exact congrArg (fld · 0 4) (hreg .pwrSt (by simp))

/-! ### Requests of STATE (R328, R346, R354, R424) -/

/-- A wake that an access or a request completes leaves the site in `FLOW` (R320). -/
theorem State.site_wakeUp (s : State) : s.wakeUp.site = stFlow :=
  (State.site_showMargin _).trans (State.site_setSite _ stFlow)

theorem State.wakeFor_asleep {s : State} (h : s.site = stSlack ∨ s.site = stPond ∨ s.site = stTrickle) {w : WakeEvent}
    (hw : w ≠ .threshold) : s.wakeFor w = s.wakeUp := by
  have hne : s.site ≠ stEntering := by
    rcases h with e | e | e <;> rw [e] <;> decide
  have hfrom : s.wakesFrom w = true := by
    rcases h with e | e | e <;> simp [State.wakesFrom, e, hw]
  simp only [State.wakeFor, if_neg hne, hfrom, if_true]

theorem State.site_noteEntry (s : State) (target outcome point : Nat) : (s.noteEntry target outcome point).site = s.site := by
  refine (State.site_logEvent _).trans ?_
  simp [State.site, State.rfld]

theorem State.reg_logEvent_ne (s : State) {r : Reg} (h : r ≠ .clkEventSeq) : s.logEvent.reg r = s.reg r := by
  simp only [State.logEvent]
  split <;> exact s.reg_putReg_ne h _

/-- An entry's outcome is shown (R325). -/
theorem State.outcome_noteEntry (s : State) (target outcome point : Nat) :
    (s.noteEntry target outcome point).rfld .pwrEntrySt 6 2 = outcome % 4 := by
  refine (congrArg (fld · 6 2) (State.reg_logEvent_ne _ (by simp))).trans ?_
  refine (State.rfld_putFld_ne _ _ _ _ _ _ _ _ (.inr (.inr (by decide)))).trans ?_
  exact State.rfld_putFld_self _ _ _ _ _ (by decide)

theorem State.site_refuseEntry (s : State) (target : Nat) : (s.refuseEntry target).site = s.site := by
  refine (State.site_noteEntry _ _ _ _).trans ?_
  simp [State.site, State.rfld]

theorem State.start_foldl {α : Type} (f : State → α → State) (hf : ∀ t a, (f t a).start = t.start) (l : List α) (s : State) :
    (l.foldl f s).start = s.start := foldl_keeps (fun t : State => t.start = s.start) f (fun t a h => (hf t a).trans h) l s rfl

theorem State.start_putReg (s : State) (r : Reg) (v : Word64) : (s.putReg r v).start = s.start := (rfl)

theorem State.start_putFld (s : State) (r : Reg) (lo n v : Nat) : (s.putFld r lo n v).start = s.start := (rfl)

/-- What a start leaves is not released (R339). -/
theorem State.start_goneCold (s : State) (keep : Reg → Bool) : (s.goneCold keep).start = { s.start with
      released := false, fencing := false, fenceAck := true, cold := false, retest := false, noReturn := false } := by
  simp only [State.goneCold, State.start_foldl, State.start_putReg, State.start_putFld, implies_true]

/-- Step 3 begins, STATE as it is (R338). -/
theorem State.enterFuses_starts (s : State) :
    s.enterFuses.site = s.site ∧ s.enterFuses.start.step = 3 ∧ s.enterFuses.start.released = s.start.released := by
  unfold State.enterFuses
  dsimp only
  split
  · exact ⟨rfl, rfl, rfl⟩
  · refine ⟨congrArg (fld · 0 4) ?_, rfl, rfl⟩
    rw [State.openStart, State.showStep, State.reg_putFld_ne _ (by simp), State.reg_putReg_ne _ (by simp),
      State.reg_putReg_ne _ (by simp)]
    rfl

theorem State.reg_keeperNormal (s : State) {r : Reg} (h : r ≠ .pwrKeeper) : s.keeperNormal.reg r = s.reg r := by
  simp only [State.keeperNormal, State.showLoad]
  rw [State.reg_putFld_ne _ h, State.reg_putFld_ne _ h]
  rfl

theorem State.start_logEvent (s : State) : s.logEvent.start = s.start := by
  simp only [State.logEvent]
  split <;> rfl

/-- A start from fuse load: STATE as given, step 3, the site not released (R339, R350). -/
theorem State.restart_starts (s : State) (keep : Reg → Bool) {st : Nat} (hst : st < 16) :
    (s.restart keep st).site = st ∧ (s.restart keep st).start.step = 3 ∧ (s.restart keep st).start.released = false := by
  unfold State.restart
  dsimp only
  generalize hg : s.goneCold keep = g
  have hgone : g.start.released = false := hg ▸ congrArg Start.released (s.start_goneCold keep)
  have hsite : (g.setSite st).dropRequest.keeperNormal.site = st := by
    have h : (g.setSite st).dropRequest.keeperNormal.reg .pwrSt = (g.setSite st).reg .pwrSt :=
      (State.reg_keeperNormal _ (by simp)).trans (by simp [State.dropRequest])
    exact (congrArg (fld · 0 4) h).trans ((g.site_setSite st).trans (Nat.mod_eq_of_lt hst))
  generalize hk : (g.setSite st).dropRequest.keeperNormal = k at hsite
  have hrel : k.start.released = false := hk ▸ hgone
  obtain ⟨h1, h2, h3⟩ := State.enterFuses_starts { k with start := { k.start with ms := 0 } }
  exact ⟨h1.trans hsite, h2, h3.trans hrel⟩

/-- A re-test starts at step 3 (R346). -/
theorem State.retestNow_starts (s : State) : s.retestNow.start.step = 3 ∧ s.retestNow.start.released = false := by
  obtain ⟨-, hstep, hrel⟩ := s.restart_starts Reg.alwaysOn (st := 0) (by decide)
  have hlog := State.start_logEvent (s.restart Reg.alwaysOn 0)
  unfold State.retestNow
  dsimp only
  rw [hlog]
  exact ⟨hstep, hrel⟩

/-- A wake from `DRY` starts at fuse load (R330). -/
theorem State.dryWake_starts (s : State) : s.dryWake.site = stWaking ∧ s.dryWake.start.released = false := by
  obtain ⟨hsite, -, hrel⟩ :=
    State.restart_starts { s with mgt := { s.mgt with awake := true } } Reg.alwaysOn (st := stWaking) (by decide)
  unfold State.dryWake
  rw [State.site_logEvent, State.start_logEvent]
  exact ⟨hsite, hrel⟩

theorem State.cccNack_leaves (s : State) : s.cccNack.mgt.nack = true ∧ s.cccNack.site = s.site ∧ s.cccNack.start = s.start :=
  ⟨rfl, rfl, rfl⟩

/-- A handed packet finished changes no state of the site (R219). -/
theorem State.standing_finishHanded (s : State) (h : Handed) (o : Outcome) : (s.finishHanded h o).standing = s.standing := by
  simp only [State.finishHanded]
  split <;> simp

/-- A detach that is cancelled leaves the site in `FLOW` (R354). -/
theorem State.stateCancel_cancels {s : State} (h : s.site = stDetaching ∧ !s.start.fenceReq ∧ !s.start.fencing ∧ !s.start.noReturn) :
    s.stateCancel.site = stFlow ∧ s.stateCancel.detach = none ∧ s.stateCancel.mgt.resp = List.replicate 9 0 := by
  unfold State.stateCancel
  rw [if_pos h]
  generalize hv : ({ (s.setSite stFlow).logEvent with detach := none } : State) = v
  have hflow : (s.setSite stFlow).logEvent.site = stFlow := (State.site_logEvent (s.setSite stFlow)).trans (s.site_setSite stFlow)
  have hsite : v.site = stFlow := by
    rw [← hv]
    exact hflow
  have hdetach : v.detach = none := by rw [← hv]
  dsimp only
  split
  · next h _ =>
    have hstand := v.standing_finishHanded h (.refuse .refusedState)
    exact ⟨(State.site_stateAnswer _ _ _ _).trans ((State.site_of_standing hstand).trans hsite),
      (State.stateAnswer_tells _ _ _ _).2.2.2.2.trans ((congrArg Standing.detach hstand).trans hdetach), (State.stateAnswer_tells _ _ _ _).1⟩
  · exact ⟨(State.site_stateAnswer _ _ _ _).trans hsite, (State.stateAnswer_tells _ _ _ _).2.2.2.2.trans hdetach,
      (State.stateAnswer_tells _ _ _ _).1⟩

/-! ### The commands -/

section
variable {s : State} (hup : s.mgtUp = true)
include hup

theorem State.execMgtState_denied {a : Byte} (h0 : 0 < a.toNat) (h6 : a.toNat ≤ 6) (hown : s.mgt.owner = false) :
    exec (.mgtState a) s = .next (s.mgtAnswer .accessDenied []) := by
  have hne : a ≠ 0 := by rintro rfl; exact absurd h0 (by decide)
  have hle : ¬ a.toNat > 6 := by omega
  have hdenied : a ≠ 0 ∧ (!s.mgt.owner) = true := ⟨hne, by rw [hown]; rfl⟩
  simp only [exec, execMgtState, hup, Bool.not_true, Bool.false_eq_true, if_false, if_neg hle, if_pos hdenied] <;> rfl

/-- A wrong HMAC, or one without a nonce before it, grants no role (R425). -/
theorem State.execMgtRole_denied {h : BitVec 384} (hn : ∀ n, s.mgt.nonce = some n → h ≠ Config.ownerHmac n Config.serial) :
    exec (.mgtRole h) s = .next (s.mgtAnswer .accessDenied []) := by
  cases hnonce : s.mgt.nonce with
  | none => simp only [exec, execMgtRole, hup, hnonce] <;> rfl
  | some n => simp only [exec, execMgtRole, hup, hnonce, if_neg (hn n hnonce)] <;> rfl

theorem State.execMgtState_zero : exec (.mgtState 0) s = .next s.stateWake := by
  simp [exec, execMgtState, hup]
  rfl

variable (hown : s.mgt.owner = true)
include hown

theorem State.execMgtState_enter {a : Byte} (h1 : 1 ≤ a.toNat) (h4 : a.toNat ≤ 4) :
    exec (.mgtState a) s = .next (s.stateEnter a.toNat) := by
  have hle : ¬ a.toNat > 6 := by omega
  have hcases : a.toNat = 1 ∨ a.toNat = 2 ∨ a.toNat = 3 ∨ a.toNat = 4 := by omega
  simp only [exec, execMgtState, hup, hown, hle, Bool.not_true, Bool.false_eq_true, if_false, and_false]
  rcases hcases with e | e | e | e <;> rw [e] <;> rfl

theorem State.execMgtState_five : exec (.mgtState 5) s = .next s.stateRetest := by
  simp [exec, execMgtState, hup, hown]
  rfl

theorem State.execMgtState_six : exec (.mgtState 6) s = .next s.stateCancel := by
  simp [exec, execMgtState, hup, hown]
  rfl

/-- A request while another is being decided (R424). -/
theorem State.execMgtState_busy {a : Byte} (h1 : 1 ≤ a.toNat) (h5 : a.toNat ≤ 5) (hbusy : s.stateBusy = true) :
    exec (.mgtState a) s = .next (s.mgtAnswer .busy []) := by
  by_cases h : a.toNat ≤ 4
  · rw [State.execMgtState_enter hup hown h1 h, State.stateEnter, hbusy]
    rfl
  · have h5' : a = 5 := BitVec.eq_of_toNat_eq (by simp; omega)
    rw [h5', State.execMgtState_five hup hown, State.stateRetest, hbusy]
    rfl

end

/-- What an entry that the owner asks for does, in a site that is awake (R328). -/
theorem State.stateEnter_awake {s : State} {target : Nat} (hbusy : s.stateBusy = false) (hrel : s.start.released = true) (hA : s.Awake)
    (hf : s.site ≠ stFallow) :
    s.stateEnter target = match s.entryCondition target with
      | some c => (s.refuseEntry target).stateAnswer .refusedState 0 c
      | none => { s.startEntry target none with mgt := { s.mgt with stateEntry := true, resp := [], nack := false } } := by
  have hsleep : ¬ (s.site = stSlack ∨ s.site = stPond ∨ s.site = stTrickle) := by
    rcases hA.2 with e | e | e | e <;> rw [e] <;> decide
  simp only [State.stateEnter, hbusy, hrel, hf, if_neg hsleep, Bool.false_eq_true, if_false, Bool.not_true, or_self] <;> rfl

/-- ALERT_ACK's ones clear causes (R426). -/
theorem fieldStore_acknowledged (old : Word64) (m : Byte) :
    fieldStore old Reg.devMgtAlert.access 0 (maskOf 0 8) (m.setWidth 64) = old &&& ~~~(m.setWidth 64) := by
  refine BitVec.eq_of_getLsbD_eq fun i hi => ?_
  rw [getLsbD_fieldStore _ _ _ _ _ hi]
  have hm : ¬ i < 8 → m.getLsbD i = false := fun h => BitVec.getLsbD_of_ge m i (by omega)
  simp only [Reg.access, getLsbD_maskOf, BitVec.getLsbD_and, BitVec.getLsbD_not, BitVec.getLsbD_setWidth, hi, Nat.zero_le, Nat.zero_add,
    true_and, and_true, decide_true, Bool.true_and]
  by_cases h : i < 8
  · simp [h]
  · simp [h, hm h]

/-- Settles O6. -/
theorem ownerRoleAndBusState : Obligations.OwnerRoleAndBusState := by
  unfold Obligations.OwnerRoleAndBusState
  refine ⟨fun s hup => ⟨⟨Config.random128 s.freeUses, ?nonce⟩, fun n h hn hh => ?role, fun h hn => ?wrong, ?reset⟩, fun s => ⟨fun hup hA => ?awake,
    fun hup hsite => ?asleep, fun a hup h0 h6 hown => State.execMgtState_denied hup h0 h6 hown,
    fun a hup hown h1 h5 hbusy => State.execMgtState_busy hup hown h1 h5 hbusy,
    fun a hup hown h1 h4 hbusy hrel hA hf => ⟨fun hc => ?enters, fun c hc => ?refused⟩, fun hup hown => ⟨fun hbusy hf => ?retest,
      fun hd h1 h2 h3 => ?cancel, fun hbusy hrel hf hd => ⟨?retestNone, ?cancelNone⟩⟩, fun hpwr => ?pin, fun m hup hfresh => ?ack,
    fun a hdry hpwr hdyn ha => ?dry⟩⟩
  case nonce =>
    simp only [exec, execMgtNonce, hup]
    rfl
  case role =>
    simp only [exec, execMgtRole, hup, hn, if_pos hh]
    rfl
  case wrong => exact State.execMgtRole_denied hup hn
  case reset =>
    simp only [exec, execMgtBusReset, hup]
    rfl
  case awake =>
    rw [State.execMgtState_zero hup, State.stateWake, State.wakeFor_awake hA]
    obtain ⟨hresp, hbit, -⟩ := s.stateAnswer_tells .ok 0 0
    exact ⟨_, rfl, State.site_stateAnswer _ _ _ _, hresp, hbit⟩
  case asleep =>
    obtain ⟨hresp, hbit, -⟩ := s.wakeUp.stateAnswer_tells .ok 0 0
    have hlast : (s.wakeUp.stateAnswer .ok 0 0).lasting = s.lasting := by
      rw [State.lasting_stateAnswer, ← State.wakeFor_asleep hsite (w := .mgtWake) (by decide), State.lasting_wakeFor]
    rw [State.execMgtState_zero hup, State.stateWake, State.wakeFor_asleep hsite (by decide)]
    exact ⟨_, rfl, (State.site_stateAnswer _ _ _ _).trans s.site_wakeUp, hresp, hbit, State.sameStores_of_lasting hlast⟩
  case enters =>
    rw [State.execMgtState_enter hup hown h1 h4, State.stateEnter_awake hbusy hrel hA hf, hc]
    exact ⟨_, _, rfl, s.site_setSite stEntering, rfl, rfl, rfl, rfl, rfl, rfl, rfl, rfl, rfl, rfl⟩
  case refused =>
    rw [State.execMgtState_enter hup hown h1 h4, State.stateEnter_awake hbusy hrel hA hf, hc]
    obtain ⟨hresp, -, hreg, -⟩ := (s.refuseEntry a.toNat).stateAnswer_tells .refusedState 0 c
    refine ⟨_, rfl, (State.site_stateAnswer _ _ _ _).trans (s.site_refuseEntry _), hresp, ?_, State.sameStores_of_lasting (by simp)⟩
    exact (congrArg (fld · 6 2) (hreg .pwrEntrySt (by simp))).trans (State.outcome_noteEntry _ _ 1 0)
  case retest =>
    obtain ⟨hstep, hrel⟩ := s.retestNow_starts
    obtain ⟨hresp, -, -, hstart, -⟩ := s.retestNow.stateAnswer_tells .ok 0 0
    rw [State.execMgtState_five hup hown, State.stateRetest, hbusy, if_neg Bool.false_ne_true, if_pos hf]
    exact ⟨_, rfl, (congrArg Start.step hstart).trans hstep, (congrArg Start.released hstart).trans hrel, hresp⟩
  case cancel =>
    rw [State.execMgtState_six hup hown]
    exact ⟨_, rfl, State.stateCancel_cancels ⟨hd, by simp [h1], by simp [h2], by simp [h3]⟩⟩
  case retestNone =>
    rw [State.execMgtState_five hup hown, State.stateRetest, hbusy, hrel, if_neg Bool.false_ne_true, if_neg hf]
    rfl
  case cancelNone =>
    rw [State.execMgtState_six hup hown, State.stateCancel, if_neg fun h => hd h.1, hbusy]
    rfl
  case pin =>
    simp only [State.mgtAlertN, State.openDrain, hpwr]
    by_cases h : s.reg .devMgtAlert = 0 <;> simp [h]
  case ack =>
    simp only [exec, execAlertAck, hup, State.plainStore_of_quiet hfresh]
    exact ⟨_, rfl, (s.reg_putReg_self .devMgtAlert _).trans (fieldStore_acknowledged _ m), rfl⟩
  case dry =>
    have hwake : s.site = stDry ∧ s.start.pwrGood = true ∧ a ≠ 0x7E ∧ (a = s.cfg.siteAddr ∨ s.mgt.dyn = some a) :=
      ⟨hdry, hpwr, ha, .inr hdyn⟩
    simp only [exec, execMgtAddressMatchWake, if_pos hwake]
    obtain ⟨hsite, hrel⟩ := s.dryWake_starts
    obtain ⟨hnack, hsite', hstart⟩ := s.dryWake.cccNack_leaves
    exact ⟨_, rfl, hnack, hsite'.trans hsite, (congrArg (·.released) hstart).trans hrel⟩

end Sys2Proof.Machine
end

section
set_option Elab.async false -- the whole text is compiled in one process, within a fixed memory
/-! SUPPORT. Stores to configuration registers, counters and causes (R434, R435), and those that their register refuses. -/

namespace Sys2Proof.Machine

/-! ### Rosog's stores (R434, R435) -/

/-- A store of the control core to a register Rosog alone writes, with no rule of its own. -/
theorem State.rosogStore_plain {s : State} (hfresh : s.fresh = []) {r : Reg} (h1 : r.access.w1c = 0) (h2 : r.access.counter = 0)
    (v : Word64) : s.plainStore r r.access.rw (laneMask 0 8) v = s.putReg r (s.stored r v) := by
  rw [State.plainStore_of_quiet hfresh, fieldStore_whole h1 h2]
  rfl

/-- What a store leaves in a site at rest, from what it wrote. -/
theorem State.Meets.onlyReg {s : State} {r : Reg} {v : Word64} (hm : s.Meets .core r 8 true) (hq : s.Quiet) {x : Word64}
    (hw : ∃ t, s.writeReg .core true r 0 8 v = t ∧ t.flights = s.flights ∧ s.OnlyReg t r x) :
    ∃ t, s.storeReg .core true r v = t ∧ s.OnlyReg t r x := by
  obtain ⟨hA, hrest, hC⟩ := hq
  obtain ⟨t, ht, hf, honly⟩ := hw
  rw [hm.storeReg hA hC true v, ht, hrest.runReady hf]
  exact ⟨t, rfl, honly⟩

/-- Registers Rosog alone writes, with RW fields and no rule of their own. -/
def Reg.plainConfig : Reg → Bool
  | .trnOtCfg _ _ | .bsnTileCfg _ | .trnQosMap _ | .culCfg _ | .trnRegCfg _ | .sphRgnA _ | .sphRgnB _ | .bsnLeveeA _ _ | .bsnLeveeB _ _ => true
  | _ => false

theorem Reg.plainConfig_access {r : Reg} (h : r.plainConfig = true) :
    r.access.w1c = 0 ∧ r.access.counter = 0 ∧ r.access.writer = .rosog := by
  cases r <;> simp only [Reg.plainConfig, Bool.false_eq_true] at h <;> exact ⟨rfl, rfl, rfl⟩

/-- The control core's store to a register Rosog alone writes, where the site has what it configures. -/
theorem State.writeReg_core_rosog {s : State} {r : Reg} (h : r.access.writer = .rosog) (hcap : r ≠ .pwrCap)
    (hot : ∀ b k, r = .trnOtCfg b k → k < s.cfg.turnouts) (v : Word64) :
    s.writeReg .core true r 0 8 v = s.rosogStore r (laneMask 0 8) v 0xF r.addr.toNat := by
  unfold State.writeReg
  refine (if_neg ?_).trans ?_
  · cases r.basin? <;> simp
  split
  case h_1 | h_2 | h_3 | h_7 | h_8 | h_9 | h_10 | h_11 | h_13 | h_14 | h_15 => cases h
  case h_4 b k =>
    rw [if_neg (Nat.not_le.2 (hot b k rfl))]
    rfl
  case h_5 | h_6 => rfl
  case h_12 => exact absurd rfl hcap
  case h_16 =>
    rw [h]
    rfl

/-- A requester that is not Rosog is refused there (R434). -/
theorem State.writeReg_refused {s : State} {who : Requester} (hwho : who.rosog = false) {r : Reg} (h : r.access.writer = .rosog)
    (hcap : r ≠ .pwrCap) (hring : ∀ k, r.block ≠ .ring k) (hot : ∀ b k, r = .trnOtCfg b k → k < s.cfg.turnouts) (m : Bool)
    (v : Word64) : s.writeReg who m r 0 8 v = s.violation who.violSource r.addr.toNat true := by
  unfold State.writeReg
  refine ite_eq_left_iff.2 fun _ => ?_
  split
  case h_1 | h_2 | h_3 | h_7 | h_8 | h_9 | h_10 | h_11 | h_13 | h_14 | h_15 => cases h
  case h_4 =>
    rw [if_neg (Nat.not_le.2 (hot _ _ rfl)), hwho]
    rfl
  case h_5 | h_6 => exact absurd rfl (hring _)
  case h_12 => exact absurd rfl hcap
  case h_16 =>
    rw [h, hwho]
    rfl

/-- A ring's places are read-only to every other requester, which changes nothing (R199). -/
theorem State.writeReg_ignored (s : State) {who : Requester} (hwho : who.rosog = false) {r : Reg} (h : r.access.writer = .rosog)
    {k : Nat} (hring : r.block = .ring k) (m : Bool) (v : Word64) : s.writeReg who m r 0 8 v = s := by
  have hcases : r = .ringCmd k ∨ r = .ringRpl k := by
    cases r <;> simp_all [Reg.block, Reg.access, Access.counters, Access.ro]
  rcases hcases with rfl | rfl <;> simp [State.writeReg, Reg.basin?, hwho]

/-! ### Counters and causes (R7, R435) -/

/-- What the core's whole store leaves of a register without RW fields. -/
def State.counted (s : State) (r : Reg) (v : Word64) : Word64 :=
  ((s.reg r &&& ~~~r.access.counter) ||| (v &&& r.access.counter)) &&& ~~~(v &&& r.access.w1c)

/-- The control core's store to a register without RW fields. -/
theorem State.writeReg_counters {s : State} (hfresh : s.fresh = []) {r : Reg} (h : r.access.writer = .anyone ∨ r.access = .ro)
    (hdb : ∀ k, r ≠ .ringDb k ∧ r ≠ .ringRhead k) (hsec : r ≠ .secSt) (hctx : ∀ c, r ≠ .secCtxSt c)
    (harb : ∀ b k, r = .trnArbSt b k → k < s.cfg.turnouts) (v : Word64) :
    s.writeReg .core true r 0 8 v = s.putReg r (s.counted r v) := by
  have hplain : s.plainStore r 0 (laneMask 0 8) v = s.putReg r (s.counted r v) := by
    rw [State.plainStore_of_quiet hfresh, fieldStore_counters]
    rfl
  rw [← hplain]
  unfold State.writeReg
  refine (if_neg ?_).trans ?_
  · cases r.basin? <;> simp
  split
  case h_1 => exact absurd rfl (hdb _).1
  case h_2 => exact absurd rfl (hdb _).2
  case h_3 b k =>
    rw [if_neg (Nat.not_le.2 (harb b k rfl))]
    rfl
  case h_7 => exact absurd rfl hsec
  case h_8 => exact absurd rfl (hctx _)
  case h_4 | h_5 | h_6 | h_9 | h_10 | h_11 | h_12 | h_13 | h_14 | h_15 =>
    exact absurd h (by simp [Reg.access, Access.rosog, Access.ro, maskOf])
  case h_16 =>
    rcases h with h | h
    · rw [h]
      rfl
    · rw [h]
      rfl

/-- The core writes the store to them, no more. -/
theorem State.rosogStore_plainConfig {s : State} (hfresh : s.fresh = []) {r : Reg} (h : r.plainConfig = true) (v : Word64) (src a : Nat) :
    s.rosogStore r (laneMask 0 8) v src a = s.putReg r (s.stored r v) := by
  obtain ⟨h1, h2, -⟩ := Reg.plainConfig_access h
  rw [← State.rosogStore_plain hfresh h1 h2 v]
  cases r <;> simp only [Reg.plainConfig, Bool.false_eq_true] at h <;> rfl

/-- A latency limit: beside it, what the regulator has seen of the right starts afresh (R183). -/
theorem State.rosogStore_latCfg (s : State) (b k : Nat) (v : Word64) (src a : Nat) :
    ∃ t, s.rosogStore (.trnLatCfg b k) (laneMask 0 8) v src a = t ∧ t.flights = s.flights ∧
      s.OnlyReg t (.trnLatCfg b k) (s.stored (.trnLatCfg b k) v) := by
  have hput := s.onlyReg_putReg (.trnLatCfg b k) (s.stored (.trnLatCfg b k) v)
  have hval : fieldStore (s.reg (.trnLatCfg b k)) (Reg.trnLatCfg b k).access (Reg.trnLatCfg b k).access.rw (laneMask 0 8) v =
      s.stored (.trnLatCfg b k) v := fieldStore_whole rfl rfl _ v
  refine ⟨_, rfl, ?_⟩
  simp only [State.rosogStore, hval]
  split
  · exact ⟨rfl, hput⟩
  · exact ⟨rfl, hput⟩

/-! ### Configuration stores (R6, R199, R434, R435) -/

/-- The core's store to a configuration register sets its RW fields and nothing else. -/
theorem State.Meets.stores {s : State} {r : Reg} {v : Word64} (hq : s.Quiet) (hfresh : s.fresh = []) (hm : s.Meets .core r 8 true)
    (h : r.plainConfig = true) (hot : ∀ b k, r = .trnOtCfg b k → k < s.cfg.turnouts) :
    ∃ t, s.storeReg .core true r v = t ∧ s.OnlyReg t r (s.stored r v) := by
  obtain ⟨-, -, hwriter⟩ := Reg.plainConfig_access h
  have hcap : r ≠ .pwrCap := by rintro rfl; cases h
  refine hm.onlyReg hq ⟨s.putReg r (s.stored r v), ?_, rfl, s.onlyReg_putReg r _⟩
  rw [State.writeReg_core_rosog hwriter hcap hot, State.rosogStore_plainConfig hfresh h]

theorem State.execRegCfgWrite_reg {s : State} {who : Requester} {r : Reg} (hp : s.placeOf r.addr.toNat 8 = .reg r 0)
    (h : r.regulates = true) (v : Word64) : exec (.regCfgWrite who r.addr v) s = .next (s.storeReg who true r v) := by
  simp only [exec, execRegCfgWrite, hp, h, if_true]
  rfl

theorem State.execRegisterWrite_reg {s : State} {who : Requester} {r : Reg} (hp : s.placeOf r.addr.toNat 8 = .reg r 0) (v : Word64) :
    exec (.registerWrite who r.addr 8 v) s = .next (s.storeReg who true r v) := by
  obtain ⟨-, -, hin⟩ := State.reg_of_placeOf hp
  simp only [exec, execRegisterWrite, if_pos hin]
  rfl

/-- A store that is refused, whoever refuses it: counted, and its register as it was (R434). -/
theorem State.storeReg_refused {s : State} (hq : s.Quiet) {who : Requester} {r : Reg} (hp : s.placeOf r.addr.toNat 8 = .reg r 0)
    (hO : OnSite who r.addr.toNat 8) {v : Word64}
    (h : s.reaches who (.reg r 0) 8 true = true → s.writeReg who true r 0 8 v = s.violation who.violSource r.addr.toNat true) :
    s.storeReg who true r v = s.violation who.violSource r.addr.toNat true := by
  obtain ⟨hA, hrest, hC⟩ := hq
  cases hr : s.reaches who (.reg r 0) 8 true with
  | false => exact State.siteStore_refused hA hC hp hO hr true v
  | true =>
    have hm : s.Meets who r 8 true := ⟨hp, hr⟩
    rw [hm.storeReg hA hC true v, h hr, hrest.runReady (s.flights_violation _ _ _)]

/-- What a refused store to a register outside the violation log leaves. -/
theorem State.refused_leaves (s : State) (src a : Nat) {r : Reg} (h1 : r ≠ .secViolCnt) (h2 : r ≠ .secViolLog) :
    (s.violation src a true).reg r = s.reg r ∧
      (s.violation src a true).rfld .secViolCnt 0 32 = min (s.rfld .secViolCnt 0 32 + 1) (2 ^ 32 - 1) ∧
      (s.violation src a true).mem = s.mem :=
  ⟨State.reg_violation h1 h2, s.count_violation src a true, s.mem_violation src a true⟩

theorem Requester.rosog_false {who : Requester} (h1 : who ≠ .core) (h2 : who ≠ .headgate) : who.rosog = false := by
  cases who <;> simp_all [Requester.rosog]

/-- Settles O15. -/
theorem configurationStores : Obligations.ConfigurationStores := by
  unfold Obligations.ConfigurationStores
  refine ⟨fun s v hq hfresh => ⟨fun r hm hr => ?config, fun r hm hr => ?regulator, fun n half hn hm => ?region,
    fun b n half hb hn hm => ?levee, fun r hm hr hdb hsec hctx harb => ?counters⟩, fun s c v hq hc hm => ?tenant,
    fun s who r v hq hp hw hot hcore hhg hO => ⟨fun hcap hring => ?refused, fun k hring hreach => ?ring⟩⟩
  case config =>
    rw [State.execRegisterWrite_reg hm.1]
    obtain ⟨t, ht, honly⟩ := hm.stores (v := v) hq hfresh
      (by rcases hr with ⟨b, rfl⟩ | ⟨b, rfl⟩ | ⟨c, rfl⟩ <;> rfl)
      (by rcases hr with ⟨b, rfl⟩ | ⟨b, rfl⟩ | ⟨c, rfl⟩ <;> exact fun _ _ => nofun)
    exact ⟨t, congrArg _ ht, honly⟩
  case regulator =>
    rcases hr with ⟨b, rfl⟩ | ⟨b, k, rfl, hk⟩ | ⟨b, k, rfl⟩ <;> rw [State.execRegCfgWrite_reg hm.1 rfl]
    · obtain ⟨t, ht, honly⟩ := hm.stores (v := v) hq hfresh rfl (fun _ _ => nofun)
      exact ⟨t, congrArg _ ht, honly⟩
    · obtain ⟨t, ht, honly⟩ := hm.stores (v := v) hq hfresh rfl (fun _ _ e => by cases e; exact hk)
      exact ⟨t, congrArg _ ht, honly⟩
    · obtain ⟨t, ht, hrest⟩ := s.rosogStore_latCfg b k v 0xF (Reg.trnLatCfg b k).addr.toNat
      obtain ⟨t, ht, honly⟩ := hm.onlyReg hq (v := v)
        ⟨t, (State.writeReg_core_rosog rfl (by simp) (fun _ _ e => by cases e) v).trans ht, hrest⟩
      exact ⟨t, congrArg _ ht, honly⟩
  case region =>
    have hmod : n % 64 = n := Nat.mod_eq_of_lt hn
    obtain ⟨t, ht, honly⟩ := hm.stores (v := v) hq hfresh (by cases half <;> rfl) (by cases half <;> exact fun _ _ e => by cases e)
    refine ⟨t, ?_, honly⟩
    simp only [exec, execRegionTableWrite, hmod]
    exact congrArg _ ht
  case levee =>
    have hb' : b % 64 = b := Nat.mod_eq_of_lt hb
    have hn' : n % 32 = n := Nat.mod_eq_of_lt hn
    obtain ⟨t, ht, honly⟩ := hm.stores (v := v) hq hfresh (by cases half <;> rfl) (by cases half <;> exact fun _ _ e => by cases e)
    refine ⟨t, ?_, honly⟩
    simp only [exec, execLeveeWrite, hb', hn']
    exact congrArg _ ht
  case counters =>
    rw [State.execRegisterWrite_reg hm.1]
    obtain ⟨t, ht, honly⟩ := hm.onlyReg hq
      ⟨_, State.writeReg_counters hfresh hr hdb hsec hctx harb v, rfl, s.onlyReg_putReg r _⟩
    exact ⟨t, congrArg _ ht, honly⟩
  case tenant =>
    have hno : (Requester.iface c).clearsCounters = false := by
      unfold Requester.clearsCounters
      split <;> simp_all
    rw [State.execRegisterWrite_reg hm.1, State.storeReg_refused hq hm.1 hm.onSite fun _ => ?_]
    · exact ⟨_, rfl, s.refused_leaves _ _ (by simp) (by simp)⟩
    · simp [State.writeReg, Reg.basin?, Reg.access, Access.counters, hno]
  case refused =>
    have hrefused := State.storeReg_refused hq hp hO fun _ =>
      State.writeReg_refused (Requester.rosog_false hcore hhg) hw hcap hring hot true v
    rw [State.execRegisterWrite_reg hp, hrefused]
    refine ⟨_, rfl, s.refused_leaves _ _ ?_ ?_⟩ <;> rintro rfl <;> cases hw
  case ring =>
    obtain ⟨hA, hrest, hC⟩ := hq
    have hm : s.Meets who r 8 true := ⟨hp, hreach⟩
    rw [State.execRegisterWrite_reg hp, hm.storeReg hA hC true v,
      s.writeReg_ignored (Requester.rosog_false hcore hhg) hw hring, hrest.runReady rfl]
    exact ⟨s, rfl, rfl, rfl⟩

end Sys2Proof.Machine
end

section
set_option Elab.async false -- the whole text is compiled in one process, within a fixed memory
/-! SUPPORT. Basin registers whose stores have effects of their own (R112, R172, R251, R252, R255–R257). -/

namespace Sys2Proof.Machine

/-! ### What a whole store leaves in the fields that take it -/

/-- A whole store in a site at rest is what its register's rule writes. -/
theorem State.Meets.leaves {s t : State} {who : Requester} {r : Reg} (hm : s.Meets who r 8 true) (hq : s.Quiet) {m : Bool} {v : Word64}
    (ht : s.writeReg who m r 0 8 v = t) (hf : t.flights = s.flights) : s.storeReg who m r v = t := by
  obtain ⟨hA, hrest, hC⟩ := hq
  rw [hm.storeReg hA hC m v, ht, hrest.runReady hf]

theorem getLsbD_fieldStore_taken {a : Access} {rw : Word64} {i : Nat} (hi : i < 64) (hrw : rw.getLsbD i = true)
    (hw1c : a.w1c.getLsbD i = false) (old v : Word64) : (fieldStore old a rw (laneMask 0 8) v).getLsbD i = v.getLsbD i := by
  rw [getLsbD_fieldStore old a rw _ v hi, getLsbD_laneMask_whole hi, hrw, hw1c]
  simp

/-- A field that is the requester's to set takes the store's value. -/
theorem fld_fieldStore_taken {a : Access} {rw : Word64} {lo n : Nat} (hn : lo + n ≤ 64) (hrw : maskOf lo n &&& ~~~rw = 0)
    (hw1c : maskOf lo n &&& a.w1c = 0) (old v : Word64) : fld (fieldStore old a rw (laneMask 0 8) v) lo n = fld v lo n := by
  refine fld_congr fun i h1 h2 => ?_
  have hi : i < 64 := by omega
  have hmask : (maskOf lo n).getLsbD i = true := by rw [getLsbD_maskOf]; exact decide_eq_true ⟨h1, h2, hi⟩
  have hset := congrArg (BitVec.getLsbD · i) hrw
  have hclear := congrArg (BitVec.getLsbD · i) hw1c
  simp only [BitVec.getLsbD_and, BitVec.getLsbD_not, hmask, hi, decide_true, Bool.true_and, BitVec.ofNat_eq_ofNat, BitVec.getLsbD_zero,
    Bool.not_eq_false'] at hset hclear
  exact getLsbD_fieldStore_taken hi hset hclear old v

theorem State.stored_eq_fieldStore (s : State) {r : Reg} (h1 : r.access.w1c = 0) (h2 : r.access.counter = 0) (v : Word64) :
    fieldStore (s.reg r) r.access r.access.rw (laneMask 0 8) v = s.stored r v := fieldStore_whole h1 h2 _ v

theorem State.fld_stored (s : State) {r : Reg} (h1 : r.access.w1c = 0) (h2 : r.access.counter = 0) {lo n : Nat} (hn : lo + n ≤ 64)
    (hrw : maskOf lo n &&& ~~~r.access.rw = 0) (v : Word64) : fld (s.stored r v) lo n = fld v lo n := by
  rw [← s.stored_eq_fieldStore h1 h2]
  exact fld_fieldStore_taken hn hrw (by rw [h1]; simp) _ v

/-! ### Streams, the arbiter, remap entries -/

theorem State.setStreamCfg_leaves (s : State) (b e : Nat) (v : Word64) :
    (s.setStreamCfg b e v).reg (.trnStreamCfg b e) = v ∧
      (s.setStreamCfg b e v).reg (.trnStreamSt b e) = (if fld (s.reg (.trnStreamCfg b e)) 0 12 = fld v 0 12 ∧
        fld (s.reg (.trnStreamCfg b e)) 24 4 = fld v 24 4 then s.reg (.trnStreamSt b e) else 0) ∧
      (s.setStreamCfg b e v).flights = s.flights := by
  unfold State.setStreamCfg
  dsimp only
  split <;> simp

theorem State.setArbCfg_leaves (s : State) (b : Nat) (v : Word64) :
    s.OnlyReg (s.setArbCfg b (laneMask 0 8) v) (.bsnArbCfg b) v ∧
      (∀ a ∈ (s.setArbCfg b (laneMask 0 8) v).arbs, a.basin = b → a.count = 0) ∧
      (s.setArbCfg b (laneMask 0 8) v).flights = s.flights := by
  have hlanes : ¬ laneMask 0 8 &&& maskOf 0 7 = 0 := by decide
  simp only [State.setArbCfg, if_neg hlanes]
  refine ⟨s.onlyReg_putReg _ v, fun a ha hb => ?_, rfl⟩
  obtain ⟨a', -, rfl⟩ := List.mem_map.1 ha
  by_cases h : a'.basin = b
  · rw [if_pos h]
  · rw [if_neg h] at hb
    exact absurd hb h

theorem State.remapStore_leaves (s : State) (b k e : Nat) (v : Word64) :
    s.OnlyReg (s.remapStore b k e v) (.bsnRemap b k e) v ∧
      (v ≠ s.reg (.bsnRemap b k e) → (b, k, e) ∉ (s.remapStore b k e v).remapped) ∧
      (s.remapStore b k e v).flights = s.flights ∧ (s.remapStore b k e v).cfg = s.cfg ∧
      (s.remapStore b k e v).spareCopies = s.spareCopies := by
  unfold State.remapStore
  dsimp only
  split
  · next h => exact ⟨s.onlyReg_putReg _ v, fun hne => absurd h hne, rfl, rfl, rfl⟩
  · exact ⟨s.onlyReg_putReg _ v, fun _ => by simp, rfl, rfl, rfl⟩

/-! ### Spare banks (R256, R257) -/

/-- Spare 0 of a basin has begun to copy a logical bank, with its remap entries clear. -/
structure State.SpareBegun (s t : State) (b logical : Nat) : Prop where
  state : t.spareState b 0 = 1
  bank : t.spareLogical b 0 = logical
  copy : ∃ c ∈ t.spareCopies, c.basin = b ∧ c.spare = 0 ∧ c.old = logical ∧ c.row = 0
  remap : ∀ e, e < 4 → t.reg (.bsnRemap b s.cfg.banks e) = 0
  mem : t.mem = s.mem
  flights : t.flights = s.flights

theorem State.physBank_of_idle {s : State} {b : Nat} (h : s.reg (.bsnSpareMap b) = 0) (bank : Nat) : s.physBank b bank = bank := by
  have hidle : ((List.range 4).find? fun i => s.spareState b i = 2 ∧ s.spareLogical b i = bank) = none := by
    refine List.find?_eq_none.2 fun i _ => ?_
    have hst : s.spareState b i = 0 := by simp [State.spareState, State.rfld, h, fld]
    simp [hst]
  rw [State.physBank, hidle]

/-- The remap entries of a bank, cleared one after another. -/
theorem State.clearRemaps (s : State) (b i : Nat) :
    let t := (List.range 4).foldl (fun (s : State) e => s.remapStore b (s.cfg.banks + i) e 0) s
    (∀ e, e < 4 → t.reg (.bsnRemap b (s.cfg.banks + i) e) = 0) ∧ (∀ r, (∀ k e, r ≠ .bsnRemap b k e) → t.reg r = s.reg r) ∧
      t.mem = s.mem ∧ t.flights = s.flights := by
  have hreg (u : State) (k e : Nat) (r : Reg) :
      (u.remapStore b k e 0).reg r = if r = .bsnRemap b k e then 0 else u.reg r := by
    obtain ⟨⟨hself, hne, -⟩, -⟩ := u.remapStore_leaves b k e 0
    split
    · next h => rw [h, hself]
    · next h => exact hne r h
  have hcfg (u : State) (k e : Nat) : (u.remapStore b k e 0).cfg = u.cfg := (u.remapStore_leaves b k e 0).2.2.2.1
  have hmem (u : State) (k e : Nat) : (u.remapStore b k e 0).mem = u.mem := (u.remapStore_leaves b k e 0).1.2.2.1
  have hflights (u : State) (k e : Nat) : (u.remapStore b k e 0).flights = u.flights := (u.remapStore_leaves b k e 0).2.2.1
  simp only [List.range, List.range.loop, List.foldl_cons, List.foldl_nil, hreg, hcfg, hmem, hflights, Reg.bsnRemap.injEq, true_and,
    and_true]
  refine ⟨fun e he => ?_, fun r hr => ?_⟩
  · interval_cases e <;> simp
  · simp [hr]

/-- A spare bank's entry written, and no copy into it under way. -/
def State.spareMarked (s : State) (b i st logical : Nat) : State :=
  { (s.putFld (.bsnSpareMap b) (16 * i + 14) 2 st).putFld (.bsnSpareMap b) (16 * i) 8 logical with
    spareCopies := s.spareCopies.filter fun c => !(c.basin = b ∧ c.spare = i) }

theorem State.reg_spareMarked (s : State) (b i st logical : Nat) (r : Reg) :
    (s.spareMarked b i st logical).reg r =
      ((s.putFld (.bsnSpareMap b) (16 * i + 14) 2 st).putFld (.bsnSpareMap b) (16 * i) 8 logical).reg r := (rfl)

theorem State.spareMarked_rest (s : State) (b i st logical : Nat) :
    (s.spareMarked b i st logical).mem = s.mem ∧ (s.spareMarked b i st logical).flights = s.flights ∧
      (s.spareMarked b i st logical).cfg = s.cfg := ⟨rfl, rfl, rfl⟩

theorem State.spareMarked_leaves (s : State) (b : Nat) {i : Nat} (hi : i < 4) (st logical : Nat) :
    (s.spareMarked b i st logical).spareState b i = st % 4 ∧ (s.spareMarked b i st logical).spareLogical b i = logical % 256 ∧
      (∀ j, j ≠ i → (s.spareMarked b i st logical).spareState b j = s.spareState b j ∧
        (s.spareMarked b i st logical).spareLogical b j = s.spareLogical b j) := by
  simp only [State.spareState, State.spareLogical, State.rfld, State.reg_spareMarked, State.reg_putFld_self]
  refine ⟨?_, fld_setFld_self _ _ _ _ (by omega), fun j hj => ⟨?_, ?_⟩⟩
  · exact (fld_setFld_ne _ _ _ _ _ _ (by omega)).trans (fld_setFld_self _ _ _ _ (by omega))
  · rw [fld_setFld_ne _ _ _ _ _ _ (by omega), fld_setFld_ne _ _ _ _ _ _ (by omega)]
  · rw [fld_setFld_ne _ _ _ _ _ _ (by omega), fld_setFld_ne _ _ _ _ _ _ (by omega)]

theorem State.spareStore_of_start {s : State} {b i : Nat} (h : s.spareState b i ≠ 1) (l : Nat) :
    s.spareStore b i 1 l =
      (let u := (List.range 4).foldl (fun (s : State) e => s.remapStore b (s.cfg.banks + i) e 0) (s.spareMarked b i 1 l)
       { u with spareCopies := u.spareCopies ++ [⟨b, i, s.physBank b l, 0, 0, []⟩] }) := by
  have hst : ¬ (s.spareState b i = 1 ∧ 1 = 2) := by simp
  simp only [State.spareStore, if_neg hst]
  exact if_pos ⟨trivial, h⟩

theorem State.spareStore_of_idle (s : State) (b i l : Nat) : s.spareStore b i 0 l = s.spareMarked b i 0 l := by
  have hst : ¬ (s.spareState b i = 1 ∧ 0 = 2) := by simp
  simp only [State.spareStore, if_neg hst]
  refine (if_neg ?_).trans (if_pos ?_) <;> simp

theorem State.SpareBegun.of_cleared {s u t : State} {b logical : Nat} (hstate : u.spareState b 0 = 1)
    (hbank : u.spareLogical b 0 = logical) (hmem : u.mem = s.mem) (hflights : u.flights = s.flights) (hcfg : u.cfg = s.cfg)
    (ht : t = (List.range 4).foldl (fun (s : State) e => s.remapStore b (s.cfg.banks + 0) e 0) u) (c : SpareCopy)
    (hc : c.basin = b ∧ c.spare = 0 ∧ c.old = logical ∧ c.row = 0) :
    s.SpareBegun { t with spareCopies := t.spareCopies ++ [c] } b logical := by
  obtain ⟨hclear, hrest, hmem', hflights'⟩ := u.clearRemaps b 0
  rw [← ht] at hclear hrest hmem' hflights'
  have hmap := hrest (.bsnSpareMap b) (by simp)
  have hreg (r : Reg) : ({ t with spareCopies := t.spareCopies ++ [c] } : State).reg r = t.reg r := (rfl)
  exact {
    state := by rw [State.spareState, State.rfld, hreg, hmap]; exact hstate
    bank := by rw [State.spareLogical, State.rfld, hreg, hmap]; exact hbank
    copy := ⟨c, List.mem_append_right _ (List.mem_singleton.2 rfl), hc⟩
    remap := fun e he => by rw [hreg, ← hcfg]; exact hclear e he
    mem := hmem'.trans hmem
    flights := hflights'.trans hflights }

theorem State.spareStore_starts {s : State} {b logical : Nat} (h : s.reg (.bsnSpareMap b) = 0) (hl : logical < 256) :
    s.SpareBegun (s.spareStore b 0 1 logical) b logical := by
  have hidle : s.spareState b 0 ≠ 1 := by simp [State.spareState, State.rfld, h, fld]
  obtain ⟨hstate, hbank, -⟩ := s.spareMarked_leaves b (i := 0) (by decide) 1 logical
  obtain ⟨hmem, hflights, hcfg⟩ := s.spareMarked_rest b 0 1 logical
  rw [State.spareStore_of_start hidle, State.physBank_of_idle h]
  exact .of_cleared hstate (hbank.trans (Nat.mod_eq_of_lt hl)) hmem hflights hcfg rfl _ ⟨rfl, rfl, rfl, rfl⟩

/-- The entry of another spare bank, left idle. -/
theorem State.SpareBegun.idle {s t : State} {b logical : Nat} (h : s.SpareBegun t b logical) {i : Nat} (hi : i < 4) (h0 : 0 ≠ i) (l : Nat) :
    s.SpareBegun (t.spareStore b i 0 l) b logical := by
  rw [State.spareStore_of_idle]
  obtain ⟨-, -, hother⟩ := t.spareMarked_leaves b hi 0 l
  obtain ⟨hmem, hflights, -⟩ := t.spareMarked_rest b i 0 l
  obtain ⟨c, hc, hb, h0', hold, hrow⟩ := h.copy
  exact {
    state := (hother 0 h0).1.trans h.state
    bank := (hother 0 h0).2.trans h.bank
    copy := ⟨c, List.mem_filter.2 ⟨hc, by simp [h0', h0]⟩, hb, h0', hold, hrow⟩
    remap := fun e he => by
      rw [State.reg_spareMarked, State.reg_putFld_ne _ (by simp), State.reg_putFld_ne _ (by simp)]
      exact h.remap e he
    mem := hmem.trans h.mem
    flights := hflights.trans h.flights }

/-- The register's whole store: spare 0 begins, and the others stay idle. -/
theorem State.spareMapStore_starts {s : State} {b : Nat} {v : Word64} (h : s.reg (.bsnSpareMap b) = 0) (h0 : fld v 14 2 = 1)
    (h1 : fld v 30 2 = 0) (h2 : fld v 46 2 = 0) (h3 : fld v 62 2 = 0) : s.SpareBegun (s.spareMapStore b v) b (fld v 0 8) := by
  simp only [State.spareMapStore, List.range, List.range.loop, List.foldl_cons, List.foldl_nil, h0, h1, h2, h3, Nat.mul_zero, Nat.zero_add,
    Nat.mul_one, Nat.reduceMul, Nat.reduceAdd]
  exact (((State.spareStore_starts h (fld_lt v 0 8)).idle (by decide) (by decide) _).idle (by decide) (by decide) _).idle (by decide)
    (by decide) _

/-- Settles O16. -/
theorem basinStores : Obligations.BasinStores := by
  unfold Obligations.BasinStores
  refine ⟨fun s b v hq hfresh hb => ⟨fun e he hm => ?stream, fun hm => ?arbiter, fun hm => ⟨fun htest => ?flip, fun htest => ?noFlip⟩,
    fun hm => ?scrub⟩, fun s b v hq hb => ⟨fun k e hk he hm => ?remap, fun hm hidle h0 h1 h2 h3 => ?spare⟩⟩
  case stream =>
    have hb' : b % 64 = b := Nat.mod_eq_of_lt hb
    have he' : e % 256 = e := Nat.mod_eq_of_lt he
    obtain ⟨hcfg, hst, hflights⟩ := s.setStreamCfg_leaves b e (s.stored (.trnStreamCfg b e) v)
    have htaken (lo n : Nat) (hn : lo + n ≤ 64) (hrw : maskOf lo n &&& ~~~(Reg.trnStreamCfg 0 0).access.rw = 0) :=
      s.fld_stored (r := .trnStreamCfg b e) rfl rfl hn hrw v
    rw [htaken 0 12 (by decide) (by decide), htaken 24 4 (by decide) (by decide)] at hst
    refine ⟨_, ?_, hcfg, hst⟩
    simp only [exec, execStreamCfgWrite, hb', he']
    refine congrArg Host.Outcome.next (hm.leaves hq ?_ hflights)
    rw [State.writeReg_core_rosog rfl (by simp) (by simp), State.rosogStore, s.stored_eq_fieldStore rfl rfl]
  case arbiter =>
    have hb' : b % 64 = b := Nat.mod_eq_of_lt hb
    obtain ⟨honly, hcount, hflights⟩ := s.setArbCfg_leaves b (s.stored (.bsnArbCfg b) v)
    refine ⟨_, ?_, honly, hcount⟩
    simp only [exec, execArbCfgWrite, hb']
    refine congrArg Host.Outcome.next (hm.leaves hq ?_ hflights)
    rw [State.writeReg_core_rosog rfl (by simp) (by simp), State.rosogStore, s.stored_eq_fieldStore rfl rfl]
  case flip =>
    have hb' : b % 64 = b := Nat.mod_eq_of_lt hb
    refine ⟨s.putReg (.bsnFlipCfg b) (fieldStore (s.reg (.bsnFlipCfg b)) (Reg.bsnFlipCfg b).access (Reg.bsnFlipCfg b).access.rw
      (laneMask 0 8) v), ?_, ?_, ?_⟩
    · simp only [exec, execFlipArm, hb']
      refine congrArg Host.Outcome.next (hm.leaves hq ?_ rfl)
      simp only [State.writeReg, Reg.basin?, ne_eq, not_true_eq_false, decide_false, Bool.and_false, Bool.false_eq_true, if_false, htest,
        if_true]
      exact State.plainStore_of_quiet hfresh _ _ _ _
    · rw [State.reg_putReg_self]
      exact fld_fieldStore_taken (by decide) (by simp only [Reg.access]; decide) (by simp only [Reg.access]; decide) _ v
    · rw [State.reg_putReg_self]
      exact getLsbD_fieldStore_taken (by decide) (by simp only [Reg.access]; decide) (by simp only [Reg.access]; decide) _ v
  case noFlip =>
    have hb' : b % 64 = b := Nat.mod_eq_of_lt hb
    refine ⟨s.violation Requester.core.violSource (Reg.bsnFlipCfg b).addr.toNat true, ?_, State.reg_violation (by simp) (by simp)⟩
    simp only [exec, execFlipArm, hb']
    refine congrArg Host.Outcome.next (hm.leaves hq ?_ (s.flights_violation _ _ _))
    simp only [State.writeReg, Reg.basin?, ne_eq, not_true_eq_false, decide_false, Bool.and_false, Bool.false_eq_true, if_false, htest]
    rfl
  case scrub =>
    have hb' : b % 64 = b := Nat.mod_eq_of_lt hb
    have hbit : bit (s.stored (.bsnScrubCfg b) v) 0 = bit v 0 := by
      rw [← s.stored_eq_fieldStore rfl rfl]
      exact getLsbD_fieldStore_taken (by decide) (by simp only [Reg.access]; decide) (by simp only [Reg.access]; decide) _ v
    have hstore : s.writeReg .core true (.bsnScrubCfg b) 0 8 v =
        if bit v 0 ∨ s.testEn then s.putReg (.bsnScrubCfg b) (s.stored (.bsnScrubCfg b) v) else s := by
      rw [State.writeReg_core_rosog rfl (by simp) (by simp), State.rosogStore, s.stored_eq_fieldStore rfl rfl, hbit]
    simp only [exec, execScrubCfgWrite, hb']
    split at hstore
    · next h =>
      rw [if_pos h]
      exact ⟨_, congrArg Host.Outcome.next (hm.leaves hq hstore rfl), s.onlyReg_putReg _ _⟩
    · next h =>
      rw [if_neg h]
      exact ⟨s, congrArg Host.Outcome.next (hm.leaves hq hstore rfl), rfl, fun _ _ => rfl, rfl, rfl, rfl, rfl, rfl, rfl, rfl, rfl⟩
  case remap =>
    have hb' : b % 64 = b := Nat.mod_eq_of_lt hb
    have hk' : k % 260 = k := Nat.mod_eq_of_lt hk
    have he' : e % 4 = e := Nat.mod_eq_of_lt he
    obtain ⟨honly, hgone, hflights, -⟩ := s.remapStore_leaves b k e (s.stored (.bsnRemap b k e) v)
    refine ⟨_, ?_, honly, hgone⟩
    simp only [exec, execRemapInstall, hb', hk', he']
    refine congrArg Host.Outcome.next (hm.leaves hq ?_ hflights)
    rw [State.writeReg_core_rosog rfl (by simp) (by simp), State.rosogStore, s.stored_eq_fieldStore rfl rfl]
  case spare =>
    have hb' : b % 64 = b := Nat.mod_eq_of_lt hb
    have htaken (lo n : Nat) (hn : lo + n ≤ 64) (hrw : maskOf lo n &&& ~~~(Reg.bsnSpareMap 0).access.rw = 0) :=
      s.fld_stored (r := .bsnSpareMap b) rfl rfl hn hrw v
    have hbegun := State.spareMapStore_starts hidle ((htaken 14 2 (by decide) (by decide)).trans h0)
      ((htaken 30 2 (by decide) (by decide)).trans h1) ((htaken 46 2 (by decide) (by decide)).trans h2)
      ((htaken 62 2 (by decide) (by decide)).trans h3)
    rw [htaken 0 8 (by decide) (by decide)] at hbegun
    refine ⟨s.spareMapStore b (s.stored (.bsnSpareMap b) v), ?_, hbegun.state, hbegun.bank, hbegun.copy, hbegun.remap, hbegun.mem⟩
    simp only [exec, execSpareBankStart, hb']
    refine congrArg Host.Outcome.next (hm.leaves hq ?_ hbegun.flights)
    rw [State.writeReg_core_rosog rfl (by simp) (by simp), State.rosogStore, s.stored_eq_fieldStore rfl rfl]

end Sys2Proof.Machine
end

section
set_option Elab.async false -- the whole text is compiled in one process, within a fixed memory
/-! SUPPORT. Control registers whose stores have rules of their own (R29, R316, R318, R332, R388). -/

namespace Sys2Proof.Machine

/-- A field outside the lanes stored, or beside those that the requester may set, stays. -/
theorem fld_fieldStore_kept {a : Access} {rw lanes : Word64} {lo n : Nat} (hn : lo + n ≤ 64)
    (hset : maskOf lo n &&& ((rw ||| a.counter) &&& lanes) = 0) (hclear : maskOf lo n &&& (a.w1c &&& lanes) = 0) (old v : Word64) :
    fld (fieldStore old a rw lanes v) lo n = fld old lo n := by
  refine fld_congr fun i h1 h2 => ?_
  have hi : i < 64 := by omega
  have hmask : (maskOf lo n).getLsbD i = true := by rw [getLsbD_maskOf]; exact decide_eq_true ⟨h1, h2, hi⟩
  have hset := congrArg (BitVec.getLsbD · i) hset
  have hclear := congrArg (BitVec.getLsbD · i) hclear
  simp only [BitVec.getLsbD_and, BitVec.getLsbD_or, hmask, Bool.true_and, BitVec.ofNat_eq_ofNat, BitVec.getLsbD_zero] at hset hclear
  rw [getLsbD_fieldStore old a rw _ v hi, hset, hclear]
  simp

/-! ### The power cap (R332) -/

/-- A whole store of the cap, whoever stores it: taken within its range alone. -/
theorem State.writeReg_cap_whole {s : State} (hfresh : s.fresh = []) (who : Requester) (v : Word64) :
    (s.writeReg who true .pwrCap 0 8 v).rfld .pwrCap 48 16 =
        (if 150 ≤ fld v 48 16 ∧ fld v 48 16 ≤ 620 then fld v 48 16 else s.rfld .pwrCap 48 16) ∧
      (s.writeReg who true .pwrCap 0 8 v).flights = s.flights := by
  have htaken (lanes : Word64) (hl : lanes = laneMask 0 8 ∨ lanes = laneMask 0 8 &&& maskOf 48 16) :
      fld (fieldStore (s.reg .pwrCap) Reg.pwrCap.access (maskOf 48 16) lanes v) 48 16 = fld v 48 16 := by
    refine fld_congr fun i h1 h2 => ?_
    have hlane : lanes.getLsbD i = true := by
      rcases hl with rfl | rfl <;> simp [getLsbD_laneMask_whole h2, getLsbD_maskOf, h1, h2]
    rw [getLsbD_fieldStore _ _ _ _ _ h2, hlane]
    simp [Reg.access, getLsbD_maskOf, h1, h2]
  have hkept (lanes : Word64) (hl : lanes &&& maskOf 48 16 = 0) :
      fld (fieldStore (s.reg .pwrCap) Reg.pwrCap.access (maskOf 48 16) lanes v) 48 16 = fld (s.reg .pwrCap) 48 16 := by
    have hl' : maskOf 48 16 &&& lanes = 0 := by rw [BitVec.and_comm, hl]
    refine fld_fieldStore_kept (by decide) ?_ ?_ _ v
    · rw [BitVec.and_comm (_ ||| _), ← BitVec.and_assoc, hl']; simp
    · rw [BitVec.and_comm Reg.pwrCap.access.w1c, ← BitVec.and_assoc, hl']; simp
  simp only [State.writeReg, Reg.basin?, Bool.false_eq_true, if_false, State.plainStore_of_quiet hfresh, htaken _ (.inl rfl)]
  have hread (x : Word64) : (s.putReg .pwrCap x).rfld .pwrCap 48 16 = fld x 48 16 := by rw [State.rfld, State.reg_putReg_self]
  split <;> rw [hread] <;> split
  · exact ⟨htaken _ (.inr rfl), rfl⟩
  · exact ⟨hkept _ (by decide), rfl⟩
  · exact ⟨htaken _ (.inl rfl), rfl⟩
  · exact ⟨hkept _ (by decide), rfl⟩

/-! ### The keeper (R318) -/

theorem State.keeperStore_low {s : State} (h : s.loadMa ≤ 36) (src a : Nat) :
    s.keeperStore src a true = s.putFld .pwrKeeper 0 2 1 := by
  have hload : ¬ (true = true ∧ s.loadMa > 36) := by simpa using h
  rw [State.keeperStore, if_neg hload, if_pos rfl]

theorem State.keeperStore_refused {s : State} (h : 36 < s.loadMa) (src a : Nat) : s.keeperStore src a true = s.violation src a true :=
  if_pos ⟨rfl, h⟩

theorem State.keeperStore_normal (s : State) (src a : Nat) :
    (s.keeperStore src a false).rfld .pwrKeeper 0 1 = 0 ∧ (s.keeperStore src a false).flights = s.flights := by
  simp only [State.keeperStore, Bool.false_eq_true, false_and, if_false]
  split
  · exact ⟨(s.rfld_putFld_self .pwrKeeper 0 1 0 (by decide) :), rfl⟩
  · next h =>
    have hlt : s.rfld .pwrKeeper 0 1 < 2 ^ 1 := fld_lt _ 0 1
    exact ⟨by omega, rfl⟩

/-- The core's store of the keeper's mode. -/
theorem State.writeReg_keeper (s : State) (v : Word64) :
    s.writeReg .core true .pwrKeeper 0 8 v = s.keeperStore 0xF Reg.pwrKeeper.addr.toNat (bit v 0) := by
  have hlanes : ¬ laneMask 0 8 &&& 1 = 0 := by decide
  rw [State.writeReg_core_rosog rfl (by simp) (by simp), State.rosogStore]
  exact if_neg hlanes

/-! ### Full resolution (R388) -/

theorem State.writeReg_fullRes (s : State) (v : Word64) :
    s.writeReg .mgt true .secObsCfg 0 8 v =
      if bit v 0 = true ∧ ((List.range 8).any fun c => s.tdisp c = 1 ∨ s.tdisp c = 2) = true then s
      else s.putFld .secObsCfg 0 1 (fld v 0 1) := by
  have hlanes : ¬ laneMask 0 8 &&& 1 = 0 := by decide
  simp only [State.writeReg, Reg.basin?, Bool.false_eq_true, if_false, ne_eq, not_true_eq_false, if_neg hlanes]
  rfl

/-! ### The supply grant (R316) -/

/-- What a request for a supply level leaves when it fails and nothing waits for another. -/
theorem State.supplyFailed_leaves {s : State} {q : SupplyReq} (hq : s.power.supply = some q) (hentry : s.power.entry = none)
    (hwant : s.power.sramWant = 0) :
    s.supplyFailed.rfld .pwrVreq 63 1 = 0 ∧ s.supplyFailed.power.supply = none ∧ s.supplyFailed.power.divWait = none ∧
      s.supplyFailed.rfld .pwrVreq 0 8 = q.prevCore % 256 ∧
      s.supplyFailed.rfld .pwrPerf 32 16 = min (s.rfld .pwrPerf 32 16 + 1) (2 ^ 16 - 1) ∧ s.supplyFailed.flights = s.flights := by
  generalize hu : (((s.putFld .pwrVreq 0 8 q.prevCore).putFld .pwrVreq 8 8 q.prevSram).putFld .pwrVreq 63 1 0).bump .pwrPerf 32 16 = u
  have hpower : u.power = s.power := by simp [← hu]
  have hfailed : s.supplyFailed = { u with power := { u.power with supply := none, divWait := none } } := by
    have hno : ¬ (u.power.sramWant ≠ 0) := by simp [hpower, hwant]
    simp only [State.supplyFailed, hq, hu, hpower, hentry, State.nextSupply, hwant]
    exact if_neg fun h => h.2 rfl
  have hreg (r : Reg) : s.supplyFailed.reg r = u.reg r := by
    rw [hfailed]
    rfl
  have hvreq : u.reg .pwrVreq = setFld (setFld (setFld (s.reg .pwrVreq) 0 8 q.prevCore) 8 8 q.prevSram) 63 1 0 := by
    simp [← hu]
  have hperf : u.rfld .pwrPerf 32 16 = min (s.rfld .pwrPerf 32 16 + 1) (2 ^ 16 - 1) := by
    rw [← hu, State.rfld_bump_self _ _ _ _ (by decide), State.rfld_putFld_ne _ _ _ _ _ _ _ _ (.inl (by simp)),
      State.rfld_putFld_ne _ _ _ _ _ _ _ _ (.inl (by simp)), State.rfld_putFld_ne _ _ _ _ _ _ _ _ (.inl (by simp))]
  refine ⟨?_, by rw [hfailed], by rw [hfailed], ?_, ?_, ?_⟩
  · rw [State.rfld, hreg, hvreq]
    exact fld_setFld_self _ _ _ _ (by decide)
  · rw [State.rfld, hreg, hvreq, fld_setFld_ne _ _ _ _ _ _ (by decide), fld_setFld_ne _ _ _ _ _ _ (by decide)]
    exact fld_setFld_self _ _ _ _ (by decide)
  · rw [State.rfld, hreg]
    exact hperf
  · rw [hfailed]
    show u.flights = s.flights
    rw [← hu]
    simp

/-- The management controller's whole store of the grant: what is granted, and what the request becomes. -/
theorem State.writeReg_grant {s : State} (hfresh : s.fresh = []) {q : SupplyReq} (hq : s.power.supply = some q) (v : Word64) :
    ∃ u : State, u.coreGrant = fld v 16 8 ∧ u.sramGrant = fld v 24 8 ∧ u.coreReq = s.coreReq ∧ u.sramReq = s.sramReq ∧ u.power = s.power ∧
      u.flights = s.flights ∧ u.now = s.now ∧ (∀ r, r ≠ .pwrVreq → u.reg r = s.reg r) ∧
      s.writeReg .mgt true .pwrVreq 0 8 v =
        if fld v 16 8 = s.coreReq ∧ fld v 24 8 = s.sramReq then
          { u.putFld .pwrVreq 63 1 0 with power := { s.power with supply := some { q with granted := true, startRoot := s.now } } }
        else u.supplyFailed := by
  have hmask : ¬ laneMask 0 8 &&& maskOf 16 16 = 0 := by decide
  generalize hw : fieldStore (s.reg .pwrVreq) Reg.pwrVreq.access (maskOf 16 16) (laneMask 0 8) v = w
  have hcore : fld w 16 8 = fld v 16 8 := hw ▸ fld_fieldStore_taken (by decide) (by decide) (by decide) _ v
  have hsram : fld w 24 8 = fld v 24 8 := hw ▸ fld_fieldStore_taken (by decide) (by decide) (by decide) _ v
  have hcoreReq : fld w 0 8 = s.coreReq := hw ▸ fld_fieldStore_kept (by decide) (by decide) (by decide) _ v
  have hsramReq : fld w 8 8 = s.sramReq := hw ▸ fld_fieldStore_kept (by decide) (by decide) (by decide) _ v
  have hread (lo n : Nat) : (s.putReg .pwrVreq w).rfld .pwrVreq lo n = fld w lo n := by rw [State.rfld, State.reg_putReg_self]
  refine ⟨s.putReg .pwrVreq w, (hread 16 8).trans hcore, (hread 24 8).trans hsram, (hread 0 8).trans hcoreReq,
    (hread 8 8).trans hsramReq, rfl, rfl, congrArg BitVec.toNat (s.reg_putReg_ne (by simp) w), fun r hr => s.reg_putReg_ne hr w, ?_⟩
  have hstore : s.writeReg .mgt true .pwrVreq 0 8 v = s.grantStore (laneMask 0 8) v := by
    simp [State.writeReg, Reg.basin?]
  rw [hstore, State.grantStore, State.plainStore_of_quiet hfresh, hw]
  rw [if_neg hmask]
  have hpower : (s.putReg .pwrVreq w).power.supply = some q := hq
  simp only [hpower, State.coreGrant, State.sramGrant, State.coreReq, State.sramReq, hread, hcore, hsram]
  rw [hcoreReq, hsramReq]
  have hnow : (s.putReg .pwrVreq w |>.putFld .pwrVreq 63 1 0).now = s.now := by simp [State.now]
  rw [hnow]
  rfl

/-- Settles O17. -/
theorem controlStores : Obligations.ControlStores := by
  unfold Obligations.ControlStores
  refine fun s v hq hfresh => ⟨fun hm => ⟨?remap, ?user⟩, fun hm => ⟨fun hlow hload => ?low, fun hlow hload => ?heavy, fun hlow => ?normal⟩,
    fun who hm => ?cap, fun hm => ?fullRes, fun q hm hsupply hentry hwant => ⟨fun hcore hsram => ?granted, fun hne => ?failed⟩⟩
  case remap =>
    refine ⟨s.putReg .ctlRemap (s.stored .ctlRemap v), ?_, s.onlyReg_putReg _ _⟩
    simp only [exec, execCtlRemapWrite, Bool.false_eq_true, false_and, if_false]
    refine congrArg Host.Outcome.next (hm.leaves hq ?_ rfl)
    rw [← s.stored_eq_fieldStore rfl rfl, ← State.plainStore_of_quiet hfresh]
    simp [State.writeReg, Reg.basin?, Reg.access]
  case user =>
    refine ⟨s.violation Requester.core.violSource Reg.ctlRemap.addr.toNat true, ?_, State.reg_violation (by simp) (by simp)⟩
    simp only [exec, execCtlRemapWrite, Bool.false_eq_true, false_and, if_false]
    refine congrArg Host.Outcome.next (hm.leaves hq ?_ (s.flights_violation _ _ _))
    simp [State.writeReg, Reg.basin?]
  case low =>
    refine ⟨s.putFld .pwrKeeper 0 2 1, congrArg Host.Outcome.next (hm.leaves hq ?_ rfl), s.rfld_putFld_self _ _ _ _ (by decide)⟩
    rw [s.writeReg_keeper, hlow, State.keeperStore_low hload]
  case heavy =>
    refine ⟨_, congrArg Host.Outcome.next (hm.leaves hq ?_ (s.flights_violation 0xF Reg.pwrKeeper.addr.toNat true)),
      State.reg_violation (by simp) (by simp)⟩
    rw [s.writeReg_keeper, hlow, State.keeperStore_refused hload]
  case normal =>
    obtain ⟨hmode, hflights⟩ := s.keeperStore_normal 0xF Reg.pwrKeeper.addr.toNat
    refine ⟨_, congrArg Host.Outcome.next (hm.leaves hq ?_ hflights), hmode⟩
    rw [s.writeReg_keeper, hlow]
  case cap =>
    obtain ⟨hcap, hflights⟩ := State.writeReg_cap_whole hfresh who v
    exact ⟨_, congrArg Host.Outcome.next (hm.leaves hq rfl hflights), hcap⟩
  case fullRes =>
    have hstore := s.writeReg_fullRes v
    split at hstore
    · next h =>
      rw [if_pos h]
      exact ⟨s, congrArg Host.Outcome.next (hm.leaves hq hstore rfl), rfl⟩
    · next h =>
      rw [if_neg h]
      exact ⟨_, congrArg Host.Outcome.next (hm.leaves hq hstore rfl), s.reg_putFld_self _ _ _ _⟩
  case granted =>
    obtain ⟨u, hc, hs, hcr, hsr, hp, hf, hn, hreg, hstore⟩ := State.writeReg_grant hfresh hsupply v
    rw [if_pos ⟨hcore, hsram⟩] at hstore
    refine ⟨_, congrArg Host.Outcome.next (hm.leaves hq hstore hf), ?_, ?_, ?_, rfl⟩
    · exact u.rfld_putFld_self .pwrVreq 63 1 0 (by decide)
    · exact (u.rfld_putFld_ne .pwrVreq .pwrVreq 63 1 16 8 0 (.inr (.inl (by decide)))).trans hc
    · exact (u.rfld_putFld_ne .pwrVreq .pwrVreq 63 1 24 8 0 (.inr (.inl (by decide)))).trans hs
  case failed =>
    obtain ⟨u, hc, hs, hcr, hsr, hp, hf, hn, hreg, hstore⟩ := State.writeReg_grant hfresh hsupply v
    rw [if_neg (by tauto)] at hstore
    obtain ⟨hpending, hnone, hwait, hback, hcount, hflights⟩ := State.supplyFailed_leaves (s := u) (hp ▸ hsupply) (hp ▸ hentry) (hp ▸ hwant)
    refine ⟨_, congrArg Host.Outcome.next (hm.leaves hq hstore (hflights.trans hf)), hpending, hnone, hwait, hback, ?_⟩
    rw [hcount, State.rfld, hreg _ (by simp), State.rfld]

end Sys2Proof.Machine
end

section
set_option Elab.async false -- the whole text is compiled in one process, within a fixed memory
/-! SUPPORT. Descriptors redefined and gauges written through the window (R37, R38, R52, R53, R236). -/

namespace Sys2Proof.Machine

/-! ### The contexts of gauges (R52, R236) -/

section
variable (s : State)

/-- A gauge's field is what its line stores, where no bit of the line is to be corrected. -/
theorem State.gaugeField_of_uncorrected {s : State} {b g : Nat} (h : ∀ i, s.lineFinding b g ≠ .corrected i) (lo n v : Nat) :
    s.gaugeField b g lo n v = v := by
  unfold State.gaugeField
  split
  · next i hi => exact absurd hi (h i)
  · rfl

/-- The context of a gauge depends on its key alone. -/
theorem State.gctx_key {b g b' g' : Nat} (h : gkey b' g' = gkey b g) : s.gctx b' g' = s.gctx b g := by
  have hl : lineKey b' g' = lineKey b g := by rw [lineKey_eq, lineKey_eq, h]
  have hm : g' % 8 = g % 8 := by unfold gkey at h; omega
  unfold State.gctx State.gaugeField State.lineFinding
  rw [h, hl, hm]

theorem State.gctx_mendLine (b g b' g' : Nat) : (s.mendLine b g).gctx b' g' = s.gctx b' g' := by
  cases e : s.lineFinding b g with
  | clean =>
    have hsame : s.mendLine b g = s := by unfold State.mendLine; simp only [e]; rfl
    rw [hsame]
  | bad r c =>
    have hsame : s.mendLine b g = s := by unfold State.mendLine; simp only [e]; rfl
    rw [hsame]
  | corrected i =>
    have hctx : (s.mendLine b g).gaugeCtx =
        if i < 512 then nset s.gaugeCtx 0 (gkey b (g / 8 * 8 + i / 64)) (s.gctx b (g / 8 * 8 + i / 64)) else s.gaugeCtx := by
      unfold State.mendLine
      by_cases hi : i < 512 <;> simp [e, Option.filter, hi]
    have hchk : (s.mendLine b g).gaugeChk = nset s.gaugeChk 0 (lineKey b g) 0 := by
      unfold State.mendLine
      simp [e]
    have hread (h : ¬ (i < 512 ∧ gkey b' g' = gkey b (g / 8 * 8 + i / 64))) :
        nget (s.mendLine b g).gaugeCtx 0 (gkey b' g') = nget s.gaugeCtx 0 (gkey b' g') := by
      rw [hctx]
      split
      · next hi => exact nget_nset_ne _ _ _ (fun hk => h ⟨hi, hk⟩) _
      · rfl
    by_cases hl : lineKey b' g' = lineKey b g
    · have hfound : s.lineFinding b' g' = .corrected i := by rw [← e, State.lineFinding, hl]; rfl
      have hmended (j : Nat) : (s.mendLine b g).lineFinding b' g' ≠ .corrected j := by
        intro hj
        rw [State.lineFinding, hl] at hj
        exact s.mendLine_finding b g j hj
      rw [State.gctx, State.gaugeField_of_uncorrected hmended]
      by_cases hk : i < 512 ∧ gkey b' g' = gkey b (g / 8 * 8 + i / 64)
      · rw [hctx, if_pos hk.1, hk.2, nget_nset_self, s.gctx_key hk.2]
      · have hother : ¬ (i / 64 = g' % 8 ∧ 32 ≤ i % 64 ∧ i % 64 < 32 + 4) := by
          rintro ⟨hg, -, -⟩
          rw [lineKey_eq, lineKey_eq] at hl
          unfold gkey at hk hl
          omega
        rw [hread hk, State.gctx, State.gaugeField, hfound]
        exact (if_neg hother).symm
    · have hsame : (s.mendLine b g).lineFinding b' g' = s.lineFinding b' g' := by
        rw [State.lineFinding, hchk, nget_nset_ne _ _ _ hl, State.lineFinding]
      have hkey : ¬ (i < 512 ∧ gkey b' g' = gkey b (g / 8 * 8 + i / 64)) := by
        rintro ⟨hi, hk⟩
        rw [lineKey_eq, lineKey_eq, hk] at hl
        unfold gkey at hl
        omega
      rw [State.gctx, State.gaugeField, hsame, hread hkey]
      rfl

@[simp] theorem State.gctx_putCount (b g : Nat) (v : BitVec 32) (b' g' : Nat) : (s.putCount b g v).gctx b' g' = s.gctx b' g' :=
  s.gctx_mendLine b g b' g'

@[simp] theorem State.count_putGctx (b g c b' g' : Nat) : (s.putGctx b g c).count b' g' = s.count b' g' :=
  s.count_mendLine b g b' g'

@[simp] theorem State.gctx_putGctx_self (b g c : Nat) : (s.putGctx b g c).gctx b g = c := by
  have hmended : ∀ i, (s.putGctx b g c).lineFinding b g ≠ .corrected i := s.mendLine_finding b g
  rw [State.gctx, State.gaugeField_of_uncorrected hmended]
  simp only [State.putGctx, nget_nset_self]

@[simp] theorem State.gctx_putGctx_ne {b g b' g' : Nat} (h : gkey b' g' ≠ gkey b g) (c : Nat) :
    (s.putGctx b g c).gctx b' g' = s.gctx b' g' := by
  rw [← s.gctx_mendLine b g b' g']
  have hstored : nget (s.putGctx b g c).gaugeCtx 0 (gkey b' g') = nget (s.mendLine b g).gaugeCtx 0 (gkey b' g') :=
    nget_nset_ne _ _ _ h _
  rw [State.gctx, hstored]
  rfl

end

/-! ### Fields of a word stored in part -/

theorem getLsbD_of_fld {w : Nat} {m : BitVec w} {lo n i : Nat} (h1 : lo ≤ i) (h2 : i < lo + n) : m.getLsbD i = (fld m lo n).testBit (i - lo) := by
  have hi : i - lo < n := by omega
  rw [fld_eq_extract, BitVec.testBit_toNat, BitVec.getLsbD_extractLsb', Nat.add_sub_cancel' h1]
  simp [hi]

/-- A field whose bits the mask all has is the new one's. -/
theorem fld_merge_taken {w : Nat} (old data : BitVec w) {m : BitVec w} {lo n : Nat} (hn : lo + n ≤ w) (h : fld m lo n = 2 ^ n - 1) :
    fld ((old &&& ~~~m) ||| (data &&& m)) lo n = fld data lo n := by
  refine fld_congr fun i h1 h2 => ?_
  have hi : i < w := by omega
  have hm : m.getLsbD i = true := by
    rw [getLsbD_of_fld h1 h2, h, Nat.testBit_two_pow_sub_one]
    exact decide_eq_true (by omega)
  simp [BitVec.getLsbD_or, BitVec.getLsbD_and, BitVec.getLsbD_not, hm, hi, -BitVec.getLsbD_eq_getElem]

/-- A field none of whose bits the mask has is the old one's. -/
theorem fld_merge_kept {w : Nat} (old data : BitVec w) {m : BitVec w} {lo n : Nat} (hn : lo + n ≤ w) (h : fld m lo n = 0) :
    fld ((old &&& ~~~m) ||| (data &&& m)) lo n = fld old lo n := by
  refine fld_congr fun i h1 h2 => ?_
  have hi : i < w := by omega
  have hm : m.getLsbD i = false := by rw [getLsbD_of_fld h1 h2, h, Nat.zero_testBit]
  simp [BitVec.getLsbD_or, BitVec.getLsbD_and, BitVec.getLsbD_not, hm, hi, -BitVec.getLsbD_eq_getElem]

/-- A field of a word shifted into place. -/
theorem fld_shifted {w : Nat} (v : Word64) (lo n : Nat) {k : Nat} (hw : k + 64 ≤ w) :
    fld (BitVec.ofNat w (v.toNat * 2 ^ k)) (k + lo) n = fld v lo n := by
  have hlt : v.toNat * 2 ^ k < 2 ^ w := by
    calc v.toNat * 2 ^ k < 2 ^ 64 * 2 ^ k := Nat.mul_lt_mul_of_pos_right v.isLt (Nat.two_pow_pos k)
      _ = 2 ^ (k + 64) := by rw [Nat.pow_add, Nat.mul_comm]
      _ ≤ 2 ^ w := Nat.pow_le_pow_right (by decide) hw
  rw [fld, fld, BitVec.toNat_ofNat, Nat.mod_eq_of_lt hlt, Nat.pow_add, ← Nat.div_div_eq_div_mul,
    Nat.mul_div_cancel _ (Nat.two_pow_pos k)]

/-! ### A descriptor redefined (R38) -/

theorem fld_redefined (v : BitVec 512) {lo n : Nat} (h : lo + n ≤ 24 ∨ 37 ≤ lo ∧ lo + n ≤ 121) :
    fld (redefined v) lo n = fld v lo n := by
  simp only [redefined, dNextGen, setBit]
  repeat rw [fld_setFld_ne _ _ _ _ _ _ (by omega)]

/-- A redefined descriptor is stale and unbroken, with its last write forgotten and its generation counted. -/
theorem redefined_reads (v : BitVec 512) :
    dStale (redefined v) = true ∧ dBroken (redefined v) = false ∧ dPayloadLen (redefined v) = 0 ∧ dZmapValid (redefined v) = false ∧
      dGen (redefined v) = dGen v + 1 := by
  have hbit (x : BitVec 512) (i : Nat) (e : Bool) (hi : i < 512) : bit (setFld x i 1 e.toNat) i = e := by
    rw [bit, getLsbD_setFld _ _ _ _ _ hi, if_pos (by omega)]
    cases e <;> simp
  simp only [redefined, dNextGen, setBit, dStale, dBroken, dPayloadLen, dZmapValid]
  refine ⟨?_, ?_, ?_, ?_, ?_⟩
  · repeat rw [bit_setFld_ne _ _ _ _ _ (by decide)]
    exact hbit _ 125 true (by decide)
  · repeat rw [bit_setFld_ne _ _ _ _ _ (by decide)]
    exact hbit _ 121 false (by decide)
  · repeat rw [fld_setFld_ne _ _ _ _ _ _ (by decide)]
    exact fld_setFld_self _ _ _ _ (by decide)
  · repeat rw [bit_setFld_ne _ _ _ _ _ (by decide)]
    exact hbit _ 124 false (by decide)
  · refine BitVec.eq_of_toNat_eq ?_
    rw [dGen, ← fld_eq_extract, fld_setFld_self _ _ _ _ (by decide)]
    repeat rw [fld_setFld_ne _ _ _ _ _ _ (by decide)]
    rw [BitVec.toNat_add, dGen, ← fld_eq_extract]
    rfl

/-- The bits of a descriptor's word that the control core may store (R37). -/
def coreLanes (word : Nat) : BitVec 512 :=
  BitVec.ofNat 512 ((2 ^ (8 * 8) - 1) * 2 ^ (8 * (word * 8))) &&& (swBits ||| descReserved ||| rosogBits)

/-- A descriptor with one of its words stored by the control core. -/
def descWritten (old : BitVec 512) (word : Nat) (v : Word64) : BitVec 512 :=
  (old &&& ~~~coreLanes word) ||| (BitVec.ofNat 512 (v.toNat * 2 ^ (8 * (word * 8))) &&& coreLanes word)

theorem fld_descWritten_zero (old : BitVec 512) (v : Word64) :
    fld (descWritten old 0 v) 0 18 = fld v 0 18 ∧ fld (descWritten old 0 v) 40 8 = fld v 40 8 :=
  ⟨(fld_merge_taken _ _ (by decide) (by decide +kernel)).trans (fld_shifted v 0 18 (k := 0) (by decide)),
    (fld_merge_taken _ _ (by decide) (by decide +kernel)).trans (fld_shifted v 40 8 (k := 0) (by decide))⟩

theorem fld_descWritten_one (old : BitVec 512) (v : Word64) :
    fld (descWritten old 1 v) 64 9 = fld v 0 9 ∧ fld (descWritten old 1 v) 80 13 = fld v 16 13 :=
  ⟨(fld_merge_taken _ _ (by decide) (by decide +kernel)).trans (fld_shifted v 0 9 (k := 64) (by decide)),
    (fld_merge_taken _ _ (by decide) (by decide +kernel)).trans (fld_shifted v 16 13 (k := 64) (by decide))⟩

theorem dGen_descWritten (old : BitVec 512) {word : Nat} (hword : word < 2) (v : Word64) : dGen (descWritten old word v) = dGen old := by
  refine BitVec.eq_of_toNat_eq ?_
  rw [dGen, dGen, ← fld_eq_extract, ← fld_eq_extract]
  refine fld_merge_kept _ _ (by decide) ?_
  interval_cases word <;> decide +kernel

/-- A descriptor written whole, with its code made afresh (R236). -/
def State.recoded (s : State) (b d : Nat) (v : BitVec 512) : State :=
  { s.putDesc b d v with descChk := nset s.descChk 0 (dkey b d) 0 }

theorem State.descOf_recoded (s : State) (b d : Nat) (v : BitVec 512) : (s.recoded b d v).descOf b d = v := by
  have hclean : findingOf 0 = .clean := rfl
  simp only [State.recoded, State.descOf, State.putDesc, nget_nset_self, correctWord, hclean]

theorem State.recoded_rest (s : State) (b d : Nat) (v : BitVec 512) :
    nget (s.recoded b d v).descChk 0 (dkey b d) = 0 ∧
      (∀ k, k ≠ dkey b d → nget (s.recoded b d v).desc 0 k = nget s.desc 0 k) ∧
      (s.recoded b d v).mem = s.mem ∧ (s.recoded b d v).flights = s.flights :=
  ⟨by simp only [State.recoded, nget_nset_self], fun _ hk => by simp only [State.recoded, State.putDesc, nget_nset_ne _ _ _ hk], rfl, rfl⟩

/-- Word 0 or 1 of a descriptor stored by the control core to a tile that is not in use redefines it. -/
theorem State.descStore_redefines {s : State} {b d word : Nat} (v : Word64) (hword : word < 2) (h : s.descBusy .core b d = false) :
    s.descStore .core b d (word * 8) 8 (leBytes 8 v.toNat) =
      s.recoded b d (redefined (descWritten (s.descOf b d) word v)) := by
  have hle : leNat (leBytes 8 v.toNat) = v.toNat := by
    rw [leNat_of_leBytes]
    exact Nat.mod_eq_of_lt v.isLt
  have ho : word * 8 < 16 := by omega
  simp only [State.descStore, h, ho, decide_true, Bool.false_eq_true, and_false, if_false, if_true, hle]
  rfl

/-- An access of a requester that reaches a place lands there. -/
theorem State.siteStore_lands {s : State} (hq : s.Quiet) {who : Requester} {a : Nat} {bs : List Byte} {pl : Place}
    (hn : bs.length = 4 ∨ bs.length = 8) (hO : OnSite who a bs.length) (hp : s.placeOf a bs.length = pl) (hne : pl ≠ .nowhere)
    (hr : s.reaches who pl bs.length true = true) (m : Bool) : s.siteStore who m a bs = (s.storeAt who m pl bs).runReady := by
  obtain ⟨hA, -, hC⟩ := hq
  rw [State.siteStore_onSite hA hC hn hO, hA.mapStore, hp, if_neg hne, hr]
  rfl

theorem State.placeOf_desc {s : State} {b d o : Nat} (hb : b < s.cfg.basins) (hb' : s.cfg.basins ≤ 64) (hlive : s.live b = true)
    (hd : d < 16384) (ho : o ≤ 56) : s.placeOf (2 ^ 32 + b * 0x100000 + d * 64 + o) 8 = .desc b d o := by
  have h1 : ¬ 2 ^ 32 + b * 0x100000 + d * 64 + o < 2 ^ 32 := by omega
  have h2 : 2 ^ 32 ≤ 2 ^ 32 + b * 0x100000 + d * 64 + o ∧ 2 ^ 32 + b * 0x100000 + d * 64 + o < 2 ^ 32 + 0x4000000 := by omega
  have h3 : (2 ^ 32 + b * 0x100000 + d * 64 + o - 2 ^ 32) / 0x100000 = b := by omega
  have h4 : (2 ^ 32 + b * 0x100000 + d * 64 + o - 2 ^ 32) % 64 = o := by omega
  have h5 : (2 ^ 32 + b * 0x100000 + d * 64 + o - 2 ^ 32) % 0x100000 / 64 = d := by omega
  rw [State.placeOf, if_neg (by decide), if_neg h1, if_pos h2]
  simp only [h3, h4, h5]
  exact if_pos ⟨hb, hlive, by omega⟩

theorem State.placeOf_gauge {s : State} {b g : Nat} (hb : b < s.cfg.basins) (hb' : s.cfg.basins ≤ 64) (hlive : s.live b = true)
    (hg : g < 4096) : s.placeOf (2 ^ 33 + b * 0x8000 + g * 8) 8 = .gauge b g 0 := by
  have h1 : ¬ 2 ^ 33 + b * 0x8000 + g * 8 < 2 ^ 32 := by omega
  have h2 : ¬ (2 ^ 32 ≤ 2 ^ 33 + b * 0x8000 + g * 8 ∧ 2 ^ 33 + b * 0x8000 + g * 8 < 2 ^ 32 + 0x4000000) := by omega
  have h3 : 2 ^ 33 ≤ 2 ^ 33 + b * 0x8000 + g * 8 ∧ 2 ^ 33 + b * 0x8000 + g * 8 < 2 ^ 33 + 0x200000 := by omega
  have h4 : (2 ^ 33 + b * 0x8000 + g * 8 - 2 ^ 33) / 0x8000 = b := by omega
  have h5 : (2 ^ 33 + b * 0x8000 + g * 8 - 2 ^ 33) % 8 = 0 := by omega
  have h6 : (2 ^ 33 + b * 0x8000 + g * 8 - 2 ^ 33) % 0x8000 / 8 = g := by omega
  rw [State.placeOf, if_neg (by decide), if_neg h1, if_neg h2, if_pos h3]
  simp only [h4, h5, h6]
  exact if_pos ⟨hb, hlive, by decide⟩

/-! ### A gauge written (R52, R53) -/

/-- A gauge's COUNT set where no packet waits. -/
theorem State.gaugeSet_of_noWaits {s : State} (h : s.waits = []) (b g : Nat) (v : BitVec 32) :
    s.gaugeSet b g v = s.putCount b g v := by
  have hw : (s.putCount b g v).waits = [] := h
  simp only [State.gaugeSet, hw, List.filter_nil, List.foldl_nil]
  calc { s.putCount b g v with waits := [] }
    _ = { s.putCount b g v with waits := (s.putCount b g v).waits } := by rw [hw]
    _ = s.putCount b g v := rfl

/-- A requester's whole store to a gauge. -/
theorem State.gaugeStore_whole {s : State} (h : s.waits = []) (who : Requester) (b g : Nat) (v : Word64) :
    ∃ t, s.OnlyNoted t ∧ s.gaugeStore who b g 0 8 (leBytes 8 v.toNat) =
      (if who = .core then t.putGctx b g (fld v 32 4) else t).putCount b g
        (v.extractLsb' 0 32 + BitVec.ofNat 32 (s.landedOn b g)) := by
  have hle : BitVec.ofNat 64 (leNat (leBytes 8 v.toNat) * 2 ^ (8 * 0)) = v := by
    rw [leNat_of_leBytes]
    exact BitVec.eq_of_toNat_eq (by rw [BitVec.toNat_ofNat]; have := v.isLt; omega)
  have hctx : laneMask 0 8 &&& maskOf 32 4 ≠ 0 := by decide
  have hcount : laneMask 0 8 &&& maskOf 0 32 ≠ 0 := by decide
  have hv (old : Word64) : (old &&& ~~~laneMask 0 8) ||| (v &&& laneMask 0 8) = v := by
    rw [laneMask_whole, BitVec.and_allOnes]
    simp
  have hnoted := s.noteLine_onlyNoted b (g / 8) who.turnout
  refine ⟨_, hnoted, ?_⟩
  simp only [State.gaugeStore, hle, hv, hctx, hcount, if_true, ne_eq, not_false_eq_true, and_true]
  generalize s.noteLine b (g / 8) who.turnout = t at hnoted ⊢
  have hlanded : t.landedOn b g = s.landedOn b g := (congrArg (fun x : State => x.landedOn b g) hnoted.1 :)
  have hwaits : t.waits = [] := (congrArg State.waits hnoted.1 :).trans h
  rw [← hlanded]
  split
  · exact State.gaugeSet_of_noWaits (s := t.putGctx b g (fld v 32 4)) hwaits b g _
  · exact State.gaugeSet_of_noWaits hwaits b g _

theorem State.descStore_refused {s : State} {b d word : Nat} (bs : List Byte) (hword : word < 2) (h : s.descBusy .core b d = true) :
    s.descStore .core b d (word * 8) 8 bs =
      s.violation Requester.core.violSource (2 ^ 32 + b * 0x100000 + d * 64 + word * 8) true := by
  have ho : word * 8 < 16 := by omega
  simp only [State.descStore, h, ho, decide_true, and_self, if_true]

theorem State.desc_violation (s : State) (src a : Nat) (w : Bool) : (s.violation src a w).desc = s.desc := by
  unfold State.violation
  split <;> simp

theorem State.putCount_rest (s : State) (b g : Nat) (v : BitVec 32) :
    (s.putCount b g v).mem = s.mem ∧ (s.putCount b g v).desc = s.desc ∧ (s.putCount b g v).flights = s.flights := ⟨rfl, rfl, rfl⟩

theorem State.putGctx_rest (s : State) (b g c : Nat) :
    (s.putGctx b g c).mem = s.mem ∧ (s.putGctx b g c).desc = s.desc ∧ (s.putGctx b g c).flights = s.flights := ⟨rfl, rfl, rfl⟩

/-- What a gauge's context and count written leave. -/
theorem State.writtenGauge (t : State) {b g : Nat} (hg : g < 4096) (c : Option Nat) (v : BitVec 32) :
    let u := (c.elim t (t.putGctx b g ·)).putCount b g v
    u.count b g = v ∧ u.gctx b g = c.getD (t.gctx b g) ∧ t.OnlyGauge u b g ∧ u.mem = t.mem ∧ u.desc = t.desc ∧ u.flights = t.flights := by
  have hother {b' g' : Nat} (hg' : g' < 4096) (h : b' ≠ b ∨ g' ≠ g) : gkey b' g' ≠ gkey b g := fun e => by
    obtain ⟨e1, e2⟩ := gkey_inj hg' hg e
    omega
  cases c with
  | none =>
    dsimp only [Option.elim_none, Option.getD_none]
    refine ⟨t.count_putCount_self b g v, t.gctx_putCount b g v b g, fun b' g' hg' h => ?_, t.putCount_rest b g v⟩
    exact ⟨t.count_putCount_ne (hother hg' h) v, t.gctx_putCount b g v b' g'⟩
  | some c =>
    dsimp only [Option.elim_some, Option.getD_some]
    obtain ⟨hmem, hdesc, hflights⟩ := (t.putGctx b g c).putCount_rest b g v
    obtain ⟨hmem', hdesc', hflights'⟩ := t.putGctx_rest b g c
    refine ⟨(t.putGctx b g c).count_putCount_self b g v, ?_, fun b' g' hg' h => ⟨?_, ?_⟩, hmem.trans hmem', hdesc.trans hdesc',
      hflights.trans hflights'⟩
    · rw [(t.putGctx b g c).gctx_putCount, t.gctx_putGctx_self]
    · rw [(t.putGctx b g c).count_putCount_ne (hother hg' h), t.count_putGctx]
    · rw [(t.putGctx b g c).gctx_putCount, t.gctx_putGctx_ne (hother hg' h)]

/-- Settles O18. -/
theorem descriptorsAndGaugesWritten : Obligations.DescriptorsAndGaugesWritten := by
  unfold Obligations.DescriptorsAndGaugesWritten
  refine ⟨fun s b d word v hq hup hb hb' hlive hd hword => ?descriptor, fun s who b g v hq hup hb hb' hlive hg hreach hwaits => ?gauge⟩
  case descriptor =>
    have hO : OnSite .core (2 ^ 32 + b * 0x100000 + d * 64 + word * 8) (leBytes 8 v.toNat).length := by
      rw [leBytes_length]
      exact ⟨nofun, nofun, nofun, fun _ => by omega⟩
    have hplace : s.placeOf (2 ^ 32 + b * 0x100000 + d * 64 + word * 8) (leBytes 8 v.toNat).length = .desc b d (word * 8) := by
      rw [leBytes_length]
      exact State.placeOf_desc hb hb' hlive hd (by omega)
    have hexec : exec (.descriptorDefine .core b d word v) s =
        .next (s.descStore .core b d (word * 8) 8 (leBytes 8 v.toNat)).runReady := by
      have h1 : b % 64 = b := by omega
      have h2 : d % 16384 = d := by omega
      have h3 : word % 8 = word := by omega
      simp only [exec, execDescriptorDefine, h1, h2, h3]
      rw [State.siteStore_lands hq (by rw [leBytes_length]; exact .inr rfl) hO hplace nofun rfl]
      simp only [State.storeAt, hup, if_true, leBytes_length]
      rfl
    obtain ⟨-, hrest, -⟩ := hq
    refine ⟨fun hfree => ?_, fun hbusy => ?_⟩
    · obtain ⟨hchk, hother, hmem, hflights⟩ := s.recoded_rest b d (redefined (descWritten (s.descOf b d) word v))
      rw [State.descStore_redefines v hword hfree, hrest.runReady hflights] at hexec
      obtain ⟨hstale, hbroken, hlen, hzmap, hgen⟩ := redefined_reads (descWritten (s.descOf b d) word v)
      have hdesc := s.descOf_recoded b d (redefined (descWritten (s.descOf b d) word v))
      refine ⟨_, hexec, ?_⟩
      rw [hdesc, hgen, dGen_descWritten _ hword]
      refine ⟨hstale, hbroken, hlen, hzmap, rfl, ?_, ?_, hchk, hother, hmem⟩
      · rintro rfl
        exact ⟨(fld_redefined _ (by decide)).trans (fld_descWritten_zero _ v).1, (fld_redefined _ (by decide)).trans (fld_descWritten_zero _ v).2⟩
      · rintro rfl
        exact ⟨(fld_redefined _ (by decide)).trans (fld_descWritten_one _ v).1, (fld_redefined _ (by decide)).trans (fld_descWritten_one _ v).2⟩
    · rw [State.descStore_refused _ hword hbusy, hrest.runReady (s.flights_violation _ _ _)] at hexec
      exact ⟨_, hexec, s.desc_violation _ _ _, s.count_violation _ _ _⟩
  case gauge =>
    have hO : OnSite who (2 ^ 33 + b * 0x8000 + g * 8) (leBytes 8 v.toNat).length := by
      rw [leBytes_length]
      refine ⟨?_, ?_, ?_, fun _ => by omega⟩ <;> rintro rfl <;> exact Bool.noConfusion hreach
    have hplace : s.placeOf (2 ^ 33 + b * 0x8000 + g * 8) (leBytes 8 v.toNat).length = .gauge b g 0 := by
      rw [leBytes_length]
      exact State.placeOf_gauge hb hb' hlive hg
    have hexec : exec (.gaugeWindowWrite who b g v) s = .next (s.gaugeStore who b g 0 8 (leBytes 8 v.toNat)).runReady := by
      have h1 : b % 64 = b := by omega
      have h2 : g % 4096 = g := by omega
      simp only [exec, execGaugeWindowWrite, h1, h2]
      rw [State.siteStore_lands hq (by rw [leBytes_length]; exact .inr rfl) hO hplace nofun (by rw [leBytes_length]; exact hreach)]
      simp only [State.storeAt, hup, if_true, leBytes_length]
      rfl
    obtain ⟨-, hrest, -⟩ := hq
    obtain ⟨t, hnoted, hstore⟩ := State.gaugeStore_whole hwaits who b g v
    obtain ⟨hcount, hctx, honly, hmem, hdesc, hflights⟩ := t.writtenGauge (b := b) hg (if who = .core then some (fld v 32 4) else none)
      (v.extractLsb' 0 32 + BitVec.ofNat 32 (s.landedOn b g))
    have hstep : (if who = .core then t.putGctx b g (fld v 32 4) else t) =
        (if who = .core then some (fld v 32 4) else none).elim t (t.putGctx b g ·) := by split <;> rfl
    have hgauges (b' g' : Nat) : t.count b' g' = s.count b' g' ∧ t.gctx b' g' = s.gctx b' g' :=
      ⟨(congrArg (fun x : State => x.count b' g') hnoted.1 :), (congrArg (fun x : State => x.gctx b' g') hnoted.1 :)⟩
    rw [hstep] at hstore
    have hflights' := hflights.trans (congrArg State.flights hnoted.1 :)
    rw [hstore, hrest.runReady hflights'] at hexec
    refine ⟨_, hexec, hcount, ?_, fun b' g' hg' h => ?_, hmem.trans (congrArg State.mem hnoted.1 :),
      hdesc.trans (congrArg State.desc hnoted.1 :)⟩
    · rw [hctx, (hgauges b g).2]
      split <;> rfl
    · obtain ⟨h1, h2⟩ := honly b' g' hg' h
      exact ⟨h1.trans (hgauges b' g').1, h2.trans (hgauges b' g').2⟩

end Sys2Proof.Machine
end

section
set_option Elab.async false -- the whole text is compiled in one process, within a fixed memory
/-! SUPPORT. Increments that land, and packets that set, add to or await a gauge (R53, R54, R216). -/

namespace Sys2Proof.Machine

/-! ### What keeping accounts of packets leaves as it was -/

/-- From `s` to `t` packets have been fetched, read, completed and accounted for: sources, counters, logs, faults posted and due
increments are all that has changed. -/
def State.OnlyAccounts (s t : State) : Prop :=
  { t with regs := s.regs, fresh := s.fresh, sram := s.sram, events := s.events, lostEvents := s.lostEvents, rings := s.rings,
           lists := s.lists, dueIncs := s.dueIncs, slotStats := s.slotStats } = s

theorem State.OnlyAccounts.refl (s : State) : s.OnlyAccounts s := rfl

theorem State.OnlyAccounts.trans {s t u : State} (h : s.OnlyAccounts t) (k : t.OnlyAccounts u) : s.OnlyAccounts u := by
  have e := congrArg (fun x : State => { x with
    regs := s.regs, fresh := s.fresh, sram := s.sram, events := s.events, lostEvents := s.lostEvents, rings := s.rings,
    lists := s.lists, dueIncs := s.dueIncs, slotStats := s.slotStats }) k
  exact e.trans h

theorem State.OnlyNoted.accounts {s t : State} (h : s.OnlyNoted t) : s.OnlyAccounts t := by
  have e := congrArg (fun x : State => { x with rings := s.rings, lists := s.lists, dueIncs := s.dueIncs, slotStats := s.slotStats }) h.1
  exact e

section
variable {s t : State} (h : s.OnlyAccounts t)
include h

theorem State.OnlyAccounts.count (b g : Nat) : t.count b g = s.count b g := (congrArg (fun x : State => x.count b g) h :)

theorem State.OnlyAccounts.gctx (b g : Nat) : t.gctx b g = s.gctx b g := (congrArg (fun x : State => x.gctx b g) h :)

theorem State.OnlyAccounts.landedOn (b g : Nat) : t.landedOn b g = s.landedOn b g := (congrArg (fun x : State => x.landedOn b g) h :)

theorem State.OnlyAccounts.waits : t.waits = s.waits := (congrArg State.waits h :)

theorem State.OnlyAccounts.mem : t.mem = s.mem := (congrArg State.mem h :)

theorem State.OnlyAccounts.desc : t.desc = s.desc := (congrArg State.desc h :)

theorem State.OnlyAccounts.same : s.SameStores t :=
  ⟨(congrArg State.mem h :), (congrArg State.memChk h :), (congrArg State.desc h :), (congrArg State.gauge h :),
    (congrArg State.stack h :)⟩

theorem State.OnlyAccounts.onlyGauge (b g : Nat) : s.OnlyGauge t b g := fun b' g' _ _ => ⟨h.count b' g', h.gctx b' g'⟩

end

theorem State.putRing_accounts (s : State) (k : Nat) (q : RingRun) : s.OnlyAccounts (s.putRing k q) := rfl

theorem State.putList_accounts (s : State) (l : ListRun) : s.OnlyAccounts (s.putList l) := rfl

theorem State.putFld_accounts (s : State) (r : Reg) (lo n v : Nat) : s.OnlyAccounts (s.putFld r lo n v) := rfl

theorem State.bump_accounts (s : State) (r : Reg) (lo n k : Nat) : s.OnlyAccounts (s.bump r lo n k) := by
  unfold State.bump
  split <;> rfl

theorem State.OnlyAccounts.ite {s t u : State} {c : Prop} [Decidable c] (ht : s.OnlyAccounts t) (hu : s.OnlyAccounts u) :
    s.OnlyAccounts (if c then t else u) := by
  split
  · exact ht
  · exact hu

theorem State.ringTake_accounts (s : State) (k : Nat) (p : Packet) (bad : Bool) : s.OnlyAccounts (s.ringTake k p bad) := by
  have hhead (q : RingRun) (v : Nat) : s.OnlyAccounts ((s.putRing k q).putFld (.ringHead k) 0 32 v) := rfl
  have hcounted (c : Prop) [Decidable c] (q : RingRun) (v : Nat) : s.OnlyAccounts
      (if c then (s.putRing k q).putFld (.ringHead k) 0 32 v else ((s.putRing k q).putFld (.ringHead k) 0 32 v).bump (.ringSt k) 32 16) :=
    .ite (hhead q v) ((hhead q v).trans (State.bump_accounts _ _ _ _ _))
  simp only [State.ringTake]
  exact .ite ((hcounted _ _ _).trans (State.putFld_accounts _ _ _ _ _)) (hcounted _ _ _)

theorem State.fetched_accounts (s : State) (src : Src) (p : Packet) : s.OnlyAccounts (s.fetched src p) := by
  cases src with
  | ring r => exact s.ringTake_accounts r p false
  | headgate => exact .refl s
  | list b k =>
    cases hl : s.list? b k with
    | none => simp only [State.fetched, hl]; exact .refl s
    | some l => simp only [State.fetched, hl]; exact s.putList_accounts _

theorem State.popHead_accounts (s : State) (src : Src) : s.OnlyAccounts (s.popHead src) := by
  cases src with
  | ring r => exact s.putRing_accounts r _
  | headgate => exact .refl s
  | list b k =>
    cases hl : s.list? b k with
    | none => simp only [State.popHead, hl]; exact .refl s
    | some l => rw [State.popHead_list hl]; exact s.putList_accounts _

theorem State.addStats_accounts (s : State) (src : Src) (st : Stats) : s.OnlyAccounts (s.addStats src st) := by
  cases src <;> rfl

theorem State.dueInc_accounts (s : State) (b g n : Nat) : s.OnlyAccounts (s.dueInc b g n) := .ite (.refl s) rfl

/-- A packet completed at its dispatch leaves every gauge, every wait and all that is stored as it was. -/
theorem State.doneNow_accounts {s : State} (hrun : s.ListsRun) {src : Src} (hsrc : s.HasSource src) (fe : Fetched) {o : Outcome}
    (hok : o.status.failed = false) : s.OnlyAccounts (s.doneNow src fe o) := by
  cases src with
  | headgate => exact hsrc.elim
  | ring k =>
    obtain ⟨st, e⟩ := s.packetDone_ring_eq k (s.spawnOf (.ring k)) fe.off fe.pkt (s.basinOf (.ring k)) s.cycle o true Stats.zero
    have hrun' := (State.packetDone_ring hrun k (s.spawnOf (.ring k)) fe.off fe.pkt (s.basinOf (.ring k)) s.cycle o true Stats.zero).run
    rw [State.doneNow, State.finish, State.settle_of_listsRun hrun', e]
    exact ((State.OnlyAccounts.ite (s.dueInc_accounts _ _ _) (.refl s)).trans (State.addStats_accounts _ _ _)).trans
      (State.putRing_accounts _ _ _)
  | list b k =>
    obtain ⟨l, hl⟩ := hsrc
    obtain ⟨st, e⟩ := s.packetDone_list_eq b k fe.off fe.pkt (s.basinOf (.list b k)) s.cycle hok Stats.zero
    have hrun' := (State.packetDone_list hrun hl fe.off fe.pkt (s.basinOf (.list b k)) s.cycle hok Stats.zero).run
    have hlist : ((s.dueInc (s.basinOf (.list b k)) fe.pkt.gauge fe.pkt.inc.toNat).addStats (.list b k) st).list? b k = some l := by
      rw [← hl]
      unfold State.dueInc
      split <;> rfl
    have hfail := (s.marked_failed (.list b k) (s.basinOf (.list b k)) fe.pkt o).trans hok
    obtain ⟨l', -, hpassed⟩ := State.listPacketDone_passed hlist fe.off fe.pkt hfail (s.cycle - s.cycle)
    rw [State.doneNow, State.finish, State.settle_of_listsRun hrun', e, hpassed]
    exact ((s.dueInc_accounts _ _ _).trans (State.addStats_accounts _ _ _)).trans
      (.ite ((State.putList_accounts _ _).trans (State.putRing_accounts _ _ _)) (State.putList_accounts _ _))

/-! ### Increments that land (R53, R216) -/

/-- A gauge set, with no packet waiting any more. -/
def State.gaugeMet (s : State) (b g : Nat) (v : BitVec 32) : State := { s.putCount b g v with waits := [] }

theorem State.gaugeMet_rest (s : State) (b g : Nat) (v : BitVec 32) :
    (s.gaugeMet b g v).waits = [] ∧ (s.gaugeMet b g v).lists = s.lists ∧ ∀ k, (s.gaugeMet b g v).ring k = s.ring k :=
  ⟨rfl, rfl, fun _ => rfl⟩

/-- A gauge set that ends the one wait there is: its packet is finished with the count. -/
theorem State.gaugeSet_of_wait {s : State} {w : Wait} (h : s.waits = [w]) {b g : Nat} (hb : w.basin = b) (hg : w.gauge = g)
    {v : BitVec 32} (hv : reached v w.target = true) :
    s.gaugeSet b g v = (s.gaugeMet b g v).finish w.src w.spawn w.off w.pkt b w.startCycle
      (Outcome.words v.toNat 0 0 0) true := by
  have hw : (s.putCount b g v).waits = [w] := h
  simp only [State.gaugeSet, hw, hb, hg, hv, and_self, decide_true, List.filter_cons, Bool.not_true, Bool.false_eq_true, if_false,
    if_true, List.filter_nil, List.foldl_cons, List.foldl_nil]
  rfl

/-- What the increments of a gauge land on: their line is read, and they are due no more. -/
def State.landing (s : State) (b g n : Nat) : State :=
  { s.noteLine b (g / 8) ditchTurnout with
    dueIncs := s.dueIncs.filter fun d => !(d.basin = b ∧ d.gauge = g)
    landed := nset s.landed 0 (gkey b g) (s.landedOn b g + n) }

section
variable (s : State) (b g n : Nat)

theorem State.landing_gauges (b' g' : Nat) :
    (s.landing b g n).count b' g' = s.count b' g' ∧ (s.landing b g n).gctx b' g' = s.gctx b' g' := by
  have hnoted := (s.noteLine_onlyNoted b (g / 8) ditchTurnout).1
  exact ⟨(congrArg (fun x : State => x.count b' g') hnoted :), (congrArg (fun x : State => x.gctx b' g') hnoted :)⟩

theorem State.landing_rest :
    (s.landing b g n).waits = s.waits ∧ (s.landing b g n).lists = s.lists ∧ (∀ k, (s.landing b g n).ring k = s.ring k) ∧
      (s.landing b g n).mem = s.mem ∧ (s.landing b g n).desc = s.desc := by
  have hnoted := (s.noteLine_onlyNoted b (g / 8) ditchTurnout).1
  exact ⟨(congrArg State.waits hnoted :), (congrArg State.lists hnoted :), fun k => (congrArg (fun x : State => x.ring k) hnoted :),
    (congrArg State.mem hnoted :), (congrArg State.desc hnoted :)⟩

theorem State.regs_landing : (s.landing b g n).regs = (s.noteLine b (g / 8) ditchTurnout).regs := rfl

end

theorem State.lineFinding_line (s : State) (b g : Nat) : s.lineFinding b (g / 8 * 8) = s.lineFinding b g := by
  have hkey : lineKey b (g / 8 * 8) = lineKey b g := by
    unfold lineKey
    omega
  rw [State.lineFinding, hkey, State.lineFinding]

theorem State.landIncs_eq {s : State} {b g n : Nat}
    (hn : n = ((s.dueIncs.filter fun x => x.basin = b ∧ x.gauge = g).map (·.inc)).sum) (h0 : n ≠ 0) :
    s.landIncs b g = (s.landing b g n).gaugeSet b g (s.count b g + BitVec.ofNat 32 n) := by
  rw [List.sum_eq_foldl] at hn
  rw [← ((s.landing_gauges b g n) b g).1]
  simp only [State.landIncs, ← hn, if_neg h0]
  rfl

/-- Settles O28. -/
theorem incrementsLand : Obligations.IncrementsLand := by
  unfold Obligations.IncrementsLand
  refine fun s b g n hrun hg hn h0 => ⟨fun hwaits => ?alone, fun w r hwaits hb hg' hsrc hreach => ?waiting⟩
  case alone =>
    obtain ⟨hw, hlists, hring, hmem, hdesc⟩ := s.landing_rest b g n
    obtain ⟨hcount, -, honly, hmem', hdesc', -⟩ := (s.landing b g n).writtenGauge (b := b) hg none (s.count b g + BitVec.ofNat 32 n)
    have hland : s.landIncs b g = (s.landing b g n).putCount b g (s.count b g + BitVec.ofNat 32 n) := by
      rw [State.landIncs_eq hn h0, State.gaugeSet_of_noWaits (hw.trans hwaits)]
    refine ⟨_, congrArg Host.Outcome.next hland, hcount, rfl, fun b' g' h1 h2 => ?_, hmem'.trans hmem, hdesc'.trans hdesc,
      fun hclean => ?_, fun i hi => ?_⟩
    · obtain ⟨e1, e2⟩ := honly b' g' h1 h2
      obtain ⟨e3, e4⟩ := s.landing_gauges b g n b' g'
      exact ⟨e1.trans e3, e2.trans e4⟩
    · rw [← s.lineFinding_line] at hclean
      show (s.landing b g n).regs = s.regs
      rw [s.regs_landing, State.noteLine]
      simp only [State.lineFinding] at hclean ⊢
      rw [hclean]
    · rw [← s.lineFinding_line] at hi
      have hnote : s.noteLine b (g / 8) ditchTurnout = { s with sram := markSram s.sram b }.bump (.bsnEccSt b) 32 32 := by
        rw [State.noteLine]
        simp only [State.lineFinding] at hi ⊢
        rw [hi]
      have hregs : (s.landing b g n).rfld (.bsnEccSt b) 32 32 = (s.noteLine b (g / 8) ditchTurnout).rfld (.bsnEccSt b) 32 32 := rfl
      show (s.landing b g n).rfld (.bsnEccSt b) 32 32 = _
      rw [hregs, hnote, State.rfld_bump_self _ _ _ _ (by decide)]
      rfl
  case waiting =>
    obtain ⟨hw, hlists, hring, -, -⟩ := s.landing_rest b g n
    have hland := State.landIncs_eq hn h0
    rw [State.gaugeSet_of_wait (hw.trans hwaits) hb hg' hreach, hsrc] at hland
    obtain ⟨hmetWaits, hmetLists, hmetRing⟩ := (s.landing b g n).gaugeMet_rest b g (s.count b g + BitVec.ofNat 32 n)
    generalize (s.landing b g n).gaugeMet b g (s.count b g + BitVec.ofNat 32 n) = v at hland hmetWaits hmetLists hmetRing
    obtain ⟨u, rp, hfin, hreply, ⟨hans, -⟩, -, honly⟩ := State.finish_ring (s := v) (fun l hl => hrun l (hlists ▸ hmetLists ▸ hl)) r w.spawn w.off
      w.pkt b w.startCycle (Outcome.words (s.count b g + BitVec.ofNat 32 n).toNat 0 0 0) true
    refine ⟨u, rp, congrArg Host.Outcome.next (hland.trans hfin), (congrArg State.waits honly :).trans hmetWaits,
      by rw [hreply, hmetRing, hring], ?_⟩
    simpa only [Outcome.words, BitVec.ofNat_toNat, BitVec.setWidth_eq] using hans

end Sys2Proof.Machine
end

section
set_option Elab.async false -- the whole text is compiled in one process, within a fixed memory
/-! SUPPORT. Stream packets dispatched on their arrival, and those of gauges (R54, R209, R216). -/

namespace Sys2Proof.Machine

/-! ### A stream packet dispatched on its arrival -/

/-- The state in which a stream packet that its source takes starts: fetched, its lines read, off its buffer. -/
structure State.Dispatched (s t v : State) (src : Src) : Prop where
  accounts : s.OnlyAccounts v
  run : v.ListsRun
  source : v.HasSource src
  basin : v.basinOf src = t.basinOf src
  completes : ∀ {u : State} {p : Packet} {st : Status} {w0 : BitVec 32}, v.Completed u src p st w0 → t.Completed u src p st w0

section
variable {s t : State} {src : Src} {p : Packet} {fe : Fetched}

theorem State.Takes.dispatched (h : s.Takes src p t fe) :
    s.Dispatched t ((t.readNamed (t.basinOf src) p).popHead src) src := by
  obtain ⟨⟨-, -, rfl, hhead, -, -, hrun, -⟩, -⟩ := h
  have hn := (s.fetched src p).readNamed_onlyNoted ((s.fetched src p).basinOf src) p
  have hs := State.hasSource_of_head? hhead
  exact {
    accounts := ((s.fetched_accounts src p).trans hn.accounts).trans (State.popHead_accounts _ src)
    run := State.ListsRun.popHead (fun l hl => hrun l (by rwa [hn.lists] at hl)) src
    source := (hs.of_onlyNoted hn).popHead
    basin := (State.popHead_basinOf _ src).trans (hn.basinOf src)
    completes := fun hc => hn.completed (hc.of_popHead (hs.of_onlyNoted hn)) }

/-- What its opcode starts is what its arrival leaves. -/
theorem State.Takes.starts (h : s.Takes src p t fe) (hop : p.op < 0x40) {u : State}
    (hstart : (t.readNamed (t.basinOf src) p).startStream src fe = some u) : s.arrive src p = u := by
  rw [h.1.arrive, h.dispatchOne hop, hstart, Option.getD_some]

end

theorem State.Completed.congr {s t u : State} {src : Src} {p : Packet} {st : Status} {w0 : BitVec 32} (hring : ∀ k, t.ring k = s.ring k)
    (hlists : t.lists = s.lists) (h : t.Completed u src p st w0) : s.Completed u src p st w0 := by
  have hlist (b k : Nat) : t.list? b k = s.list? b k := by simp only [State.list?, hlists]
  cases src with
  | ring k => simpa only [State.Completed, hring] using h
  | list b k => simpa only [State.Completed, hring, hlist] using h
  | headgate => exact h

/-! ### SET_GAUGE and ADD_GAUGE (R54) -/

/-- A packet that sets a gauge no packet waits on, and completes. -/
theorem State.Dispatched.setsGauge {s t v : State} {src : Src} (d : s.Dispatched t v src) {fe : Fetched} {b g : Nat} (hg : g < 4096)
    (x : BitVec 32) :
    t.Completed ((v.putCount b g x).doneNow src fe Outcome.ok) src fe.pkt .ok 0 ∧
      ((v.putCount b g x).doneNow src fe Outcome.ok).count b g = x ∧
      s.OnlyGauge ((v.putCount b g x).doneNow src fe Outcome.ok) b g ∧
      ((v.putCount b g x).doneNow src fe Outcome.ok).mem = s.mem ∧
      ((v.putCount b g x).doneNow src fe Outcome.ok).desc = s.desc := by
  obtain ⟨hcount, -, honly, hmem, hdesc, -⟩ := v.writtenGauge (b := b) hg none x
  have hrun : (v.putCount b g x).ListsRun := d.run
  have hsource : (v.putCount b g x).HasSource src := by
    have := d.source
    cases src <;> exact this
  have hdone := State.doneNow_accounts hrun hsource fe (o := Outcome.ok) rfl
  have hfin := State.doneNow_finishes hrun hsource fe (o := Outcome.ok) rfl
  refine ⟨d.completes (.congr (fun _ => rfl) rfl hfin.completed), (hdone.count b g).trans hcount, fun b' g' h1 h2 => ?_,
    hdone.mem.trans (hmem.trans d.accounts.mem), hdone.desc.trans (hdesc.trans d.accounts.desc)⟩
  obtain ⟨e1, e2⟩ := honly b' g' h1 h2
  exact ⟨(hdone.count b' g').trans (e1.trans (d.accounts.count b' g')), (hdone.gctx b' g').trans (e2.trans (d.accounts.gctx b' g'))⟩

/-- How `SET_GAUGE` starts where no packet waits. -/
theorem State.startStream_setGauge {w : State} {src : Src} {fe : Fetched} (hop : fe.pkt.op = 0x04) (hwaits : (w.popHead src).waits = []) :
    w.startStream src fe = some (((w.popHead src).putCount ((w.popHead src).basinOf src) (fe.pkt.p 16 0 12)
      (BitVec.ofNat 32 (fe.pkt.p 20 0 32) +
        BitVec.ofNat 32 ((w.popHead src).landedOn ((w.popHead src).basinOf src) (fe.pkt.p 16 0 12)))).doneNow src fe Outcome.ok) := by
  simp only [State.startStream, hop, State.startGauge, if_true, State.setGaugeTo, State.gaugeSet_of_noWaits hwaits]

/-- How `ADD_GAUGE` starts where no packet waits. -/
theorem State.startStream_addGauge {w : State} {src : Src} {fe : Fetched} (hop : fe.pkt.op = 0x05) (hwaits : (w.popHead src).waits = []) :
    w.startStream src fe = some (((w.popHead src).putCount ((w.popHead src).basinOf src) (fe.pkt.p 16 0 12)
      ((w.popHead src).count ((w.popHead src).basinOf src) (fe.pkt.p 16 0 12) + BitVec.ofNat 32 (fe.pkt.p 20 0 32))).doneNow
        src fe Outcome.ok) := by
  have hset : ¬ (0x05 = 0x04) := by decide
  simp only [State.startStream, hop, State.startGauge, if_neg hset, State.gaugeSet_of_noWaits hwaits]

/-! ### WAIT_GAUGE (R216) -/

/-- A source one of whose packets waits on a gauge dispatches nothing. -/
theorem State.head?_of_waits {s : State} {src : Src} (h : ∃ w ∈ s.waits, w.src = src) : s.head? src = none := by
  have hany : (s.waits.any fun w => w.src = src) = true := by simpa using h
  unfold State.head?
  rw [hany]
  cases src with
  | ring r => simp
  | headgate => rfl
  | list b k => cases hl : s.list? b k <;> simp [hl]

/-- How `WAIT_GAUGE` starts. -/
theorem State.startStream_waitGauge (w : State) {src : Src} {fe : Fetched} (hop : fe.pkt.op = 0x03) :
    w.startStream src fe = some (w.startWait src fe) := by
  simp only [State.startStream, hop]

/-- Settles O22. -/
theorem gaugePackets : Obligations.GaugePackets := by
  unfold Obligations.GaugePackets
  intro s t src p fe hwaits
  have hg : p.p 16 0 12 < 4096 := fld_lt _ _ _
  refine ⟨fun h => ?set, fun h => ?add, fun h => ?wait⟩
  case set =>
    have d := h.dispatched
    have hop : ({ p with opcode := 0x04 } : Packet).op = 0x04 := rfl
    have hpkt := h.1.pkt_eq
    have hparam (i lo n : Nat) : fe.pkt.p i lo n = p.p i lo n := by rw [hpkt]; rfl
    have hstart := State.startStream_setGauge (hpkt ▸ hop) (d.accounts.waits.trans hwaits)
    rw [d.basin, hparam, hparam, d.accounts.landedOn] at hstart
    exact ⟨_, congrArg Host.Outcome.next (h.starts (hop.trans_lt (by decide)) hstart), d.setsGauge hg _⟩
  case add =>
    have d := h.dispatched
    have hop : ({ p with opcode := 0x05 } : Packet).op = 0x05 := rfl
    have hpkt := h.1.pkt_eq
    have hparam (i lo n : Nat) : fe.pkt.p i lo n = p.p i lo n := by rw [hpkt]; rfl
    have hstart := State.startStream_addGauge (hpkt ▸ hop) (d.accounts.waits.trans hwaits)
    rw [d.basin, hparam, hparam, d.accounts.count] at hstart
    exact ⟨_, congrArg Host.Outcome.next (h.starts (hop.trans_lt (by decide)) hstart), d.setsGauge hg _⟩
  case wait =>
    have d := h.dispatched
    have hop : ({ p with opcode := 0x03 } : Packet).op = 0x03 := rfl
    have hpkt := h.1.pkt_eq
    have hparam (i lo n : Nat) : fe.pkt.p i lo n = p.p i lo n := by rw [hpkt]; rfl
    have hstart := h.starts (hop.trans_lt (by decide)) (State.startStream_waitGauge _ (hpkt ▸ hop))
    simp only [State.startWait, hparam, d.basin, d.accounts.count] at hstart
    refine ⟨fun hreach => ?_, fun hreach => ?_⟩
    · rw [if_pos hreach] at hstart
      have hdone := State.doneNow_accounts d.run d.source fe
        (o := Outcome.words (s.count (t.basinOf src) (p.p 16 0 12)).toNat 0 0 0) rfl
      have hfin := State.doneNow_finishes d.run d.source fe
        (o := Outcome.words (s.count (t.basinOf src) (p.p 16 0 12)).toNat 0 0 0) rfl
      refine ⟨_, congrArg Host.Outcome.next hstart, (d.accounts.trans hdone).same, (d.accounts.trans hdone).waits.trans hwaits, ?_⟩
      simpa only [Outcome.words, BitVec.ofNat_toNat, BitVec.setWidth_eq] using d.completes hfin.completed
    · rw [if_neg (by simp [hreach]), d.accounts.waits, hwaits, List.nil_append] at hstart
      refine ⟨_, _, congrArg Host.Outcome.next hstart, d.accounts.same, rfl, rfl, rfl, rfl, rfl, ?_⟩
      exact State.head?_of_waits ⟨_, List.mem_singleton.2 rfl, rfl⟩

end Sys2Proof.Machine
end

section
set_option Elab.async false -- the whole text is compiled in one process, within a fixed memory
/-! SUPPORT. Lists: calls, spawns and returns (R211–R213). -/

namespace Sys2Proof.Machine

/-! ### Lists as their slots read them -/

/-- Putting a list replaces the one in its slot. -/
theorem State.list?_putList (s : State) (l : ListRun) (b k : Nat) :
    (s.putList l).list? b k = (s.list? b k).map fun x => if x.basin = l.basin ∧ x.slot = l.slot then l else x := by
  have hslot : (fun x : ListRun => decide (x.basin = b ∧ x.slot = k)) ∘
      (fun x => if x.basin = l.basin ∧ x.slot = l.slot then l else x) = fun x => decide (x.basin = b ∧ x.slot = k) := by
    funext x
    simp only [Function.comp_apply]
    split
    · next hx => simp [hx]
    · rfl
  unfold State.list? State.putList
  rw [List.find?_map, hslot]

theorem State.list?_slot {s : State} {b k : Nat} {l : ListRun} (h : s.list? b k = some l) : l.basin = b ∧ l.slot = k := by
  simpa using List.find?_some h

theorem State.list?_congr {s t : State} (h : t.lists = s.lists) (b k : Nat) : t.list? b k = s.list? b k := by
  simp only [State.list?, h]

/-- A list of whom a packet has completed that has not failed. -/
def ListRun.counted (l : ListRun) (p : Packet) (o : Outcome) : ListRun :=
  { l with completed := l.completed + 1, alerts := l.alerts ||| o.alerts, held := l.held && decide (p.op < 0x40) }

/-- A list's packet that has not failed: the list counts it, whatever else ends with it. -/
theorem State.packetDone_counts {s : State} {b k : Nat} {l : ListRun} (hl : s.list? b k = some l) (off : Nat) (p : Packet) (bs start : Nat)
    {o : Outcome} (hok : o.status.failed = false) (extra : Stats) :
    let u := s.packetDone (.list b k) (s.spawnOf (.list b k)) off p bs start o true extra
    u.lists = (s.putList (l.counted p (s.marked (.list b k) bs p o))).lists ∧ s.OnlyAccounts u ∧
      ∀ j, (u.ring j).waiting = (s.ring j).waiting := by
  obtain ⟨st, e⟩ := s.packetDone_list_eq b k off p bs start hok extra
  have hacc := (s.dueInc_accounts bs p.gauge p.inc.toNat).trans (State.addStats_accounts _ (.list b k) st)
  have hv : s.Accounted ((s.dueInc bs p.gauge p.inc.toNat).addStats (.list b k) st) (dueOf bs p) := by
    simpa only [if_true] using (s.dueInc_accounted bs p True).trans_stats (State.addStats_accounted _ (.list b k) st)
  have hfail : (s.marked (.list b k) bs p o).status.failed = false := (s.marked_failed _ _ _ _).trans hok
  simp only [e]
  generalize (s.dueInc bs p.gauge p.inc.toNat).addStats (.list b k) st = v at hacc hv
  have hpassed : v.listPacketDone b k off p (s.marked (.list b k) bs p o) (s.cycle - start) =
      if (s.marked (.list b k) bs p o).status ≠ .ok ∨ p.replyFlag then
        (v.putList (l.counted p (s.marked (.list b k) bs p o))).queueUnreserved l.ctx
          ((s.marked (.list b k) bs p o).reply p true (s.cycle - start))
      else v.putList (l.counted p (s.marked (.list b k) bs p o)) := by
    unfold State.listPacketDone
    simp only [(hv.list? b k).trans hl, hfail, Bool.false_eq_true, if_false, false_and]
    rfl
  rw [hpassed]
  have hlists : (v.putList (l.counted p (s.marked (.list b k) bs p o))).lists =
      (s.putList (l.counted p (s.marked (.list b k) bs p o))).lists := by
    simp only [State.putList, hv.lists]
  split
  · refine ⟨hlists, (hacc.trans (State.putList_accounts _ _)).trans (State.putRing_accounts _ _ _), fun j => ?_⟩
    rw [← hv.waiting j]
    by_cases hj : j = l.ctx
    · subst hj
      simp [State.queueUnreserved]
    · simp [State.queueUnreserved, hj]
  · exact ⟨hlists, hacc.trans (State.putList_accounts _ _), hv.waiting⟩

/-- A list's packet completed at its dispatch, with no list ending. -/
theorem State.doneNow_counts {s : State} (hrun : s.ListsRun) {b k : Nat} {l : ListRun} (hl : s.list? b k = some l) (fe : Fetched)
    {o : Outcome} (hok : o.status.failed = false) :
    (s.doneNow (.list b k) fe o).list? b k = some (l.counted fe.pkt (s.marked (.list b k) (s.basinOf (.list b k)) fe.pkt o)) ∧
      s.OnlyAccounts (s.doneNow (.list b k) fe o) := by
  obtain ⟨hlists, haccounts, -⟩ := State.packetDone_counts hl fe.off fe.pkt (s.basinOf (.list b k)) s.cycle hok Stats.zero
  have hrun' := (State.packetDone_list hrun hl fe.off fe.pkt (s.basinOf (.list b k)) s.cycle hok Stats.zero).run
  rw [State.doneNow, State.finish, State.settle_of_listsRun hrun']
  exact ⟨(State.list?_congr hlists b k).trans (State.list?_putList_self hl rfl rfl), haccounts⟩

/-! ### Calls and spawns (R211, R212) -/

theorem State.startStream_runList (w : State) {src : Src} {fe : Fetched} (hop : fe.pkt.op = 0x08) :
    w.startStream src fe = some (w.startList src fe) := by
  simp only [State.startStream, hop]

theorem State.startStream_return (w : State) {src : Src} {fe : Fetched} (hop : fe.pkt.op = 0x09) :
    w.startStream src fe = some (w.startReturn src fe) := by
  simp only [State.startStream, hop]

/-- The head's leaving its buffer keeps which slots hold a list. -/
theorem State.freeListSlot_popHead (s : State) (src : Src) (b : Nat) : (s.popHead src).freeListSlot b = s.freeListSlot b := by
  have hsome (k : Nat) : ((s.popHead src).list? b k).isNone = (s.list? b k).isNone := by
    cases src with
    | ring r => rfl
    | headgate => rfl
    | list b' k' =>
      cases hl : s.list? b' k' with
      | none => simp only [State.popHead, hl]
      | some l => rw [State.popHead_list hl, State.list?_putList, Option.isNone_map]
  simp only [State.freeListSlot, hsome]

theorem State.ctxOf_popHead (s : State) (src : Src) : (s.popHead src).ctxOf src = s.ctxOf src := by
  cases src with
  | ring r => rfl
  | headgate => rfl
  | list b k =>
    cases hl : s.list? b k with
    | none => simp only [State.popHead, hl]
    | some l =>
      have hput := State.list?_putList_self (l' := { l with buf := l.buf.drop 1 }) hl rfl rfl
      simp only [State.popHead_list hl, State.ctxOf, hput, hl, Option.map_some]

/-- The list that a packet spawns. -/
def State.spawned (s : State) (src : Src) (fe : Fetched) (k : Nat) : ListRun :=
  { basin := fe.pkt.rlBasin, slot := k, ctx := (s.ctxOf src).getD 0, spawn := s.nextSpawn + 1, right := fe.pkt.right,
    pc := fe.pkt.rlOffset, calls := [], spawner := src, spawnerSpawn := s.spawnOf src, spawnPkt := fe.pkt, spawnOff := fe.off,
    spawnCycle := s.cycle, buf := [], held := false, ending := none, failOff := 0xFFFFFFFF, completed := 0, passed := 0, alerts := 0 }

theorem State.spawnList_leaves (s : State) (src : Src) (fe : Fetched) (k : Nat) :
    (s.spawnList src fe k).lists = s.lists ++ [s.spawned src fe k] ∧ (s.spawnList src fe k).nextSpawn = s.nextSpawn + 1 ∧
      s.SameStores (s.spawnList src fe k) := ⟨rfl, rfl, rfl, rfl, rfl, rfl, rfl⟩

/-- A spawned list stands in its slot. -/
theorem State.list?_spawnList {s : State} {src : Src} {fe : Fetched} {k : Nat} (h : s.freeListSlot fe.pkt.rlBasin = some k) :
    (s.spawnList src fe k).list? fe.pkt.rlBasin k = some (s.spawned src fe k) := by
  have hfree : s.list? fe.pkt.rlBasin k = none := by simpa [State.freeListSlot] using List.find?_some h
  unfold State.list? at hfree ⊢
  rw [(s.spawnList_leaves src fe k).1, List.find?_append, hfree, Option.none_or]
  exact List.find?_cons_of_pos (by simp [State.spawned])

/-! ### Calls and returns (R211, R213) -/

/-- A list's packet that sends its list on elsewhere, and completes. -/
theorem State.listGoesOn {v : State} (hrun : v.ListsRun) {b k : Nat} {l l' : ListRun} (hl : v.list? b k = some l) (hb : l'.basin = l.basin)
    (hk : l'.slot = l.slot) (he : l'.ending = none) (fe : Fetched) :
    ∃ l'', ((v.putList l').doneNow (.list b k) fe Outcome.ok).list? b k = some l'' ∧ l''.pc = l'.pc ∧ l''.calls = l'.calls ∧
      l''.buf = l'.buf ∧ l''.completed = l'.completed + 1 ∧ v.SameStores ((v.putList l').doneNow (.list b k) fe Outcome.ok) := by
  obtain ⟨hlist, haccounts⟩ := State.doneNow_counts (hrun.putList he) (State.list?_putList_self hl hb hk) fe (o := Outcome.ok) rfl
  exact ⟨_, hlist, rfl, rfl, rfl, rfl, ((v.putList_accounts l').trans haccounts).same⟩

/-- A list's slot in the state in which its packet starts. -/
theorem State.list?_dispatched {t : State} {b k : Nat} (p : Packet) {l : ListRun} (hl : t.list? b k = some l) :
    ((t.readNamed (t.basinOf (.list b k)) p).popHead (.list b k)).list? b k = some { l with buf := l.buf.drop 1 } := by
  have hnoted := (t.readNamed_onlyNoted (t.basinOf (.list b k)) p).list? b k
  rw [State.popHead_list (hnoted.trans hl)]
  exact State.list?_putList_self (hnoted.trans hl) rfl rfl

/-- The one list that ends is found. -/
theorem State.find?_ending {s : State} {l : ListRun} (hl : l ∈ s.lists) (he : l.ending.isSome = true)
    (hidle : s.inFlight (.list l.basin l.slot) = 0) (hone : ∀ x ∈ s.lists, x.ending.isSome = true → x = l) :
    (s.lists.find? fun l => l.ending.isSome && decide (s.inFlight (.list l.basin l.slot) = 0)) = some l := by
  cases hf : s.lists.find? fun l => l.ending.isSome && decide (s.inFlight (.list l.basin l.slot) = 0) with
  | none => exact absurd (List.find?_eq_none.1 hf l hl) (by simp [he, hidle])
  | some x =>
    have hx := List.find?_some hf
    simp only [Bool.and_eq_true] at hx
    rw [hone x (List.mem_of_find?_eq_some hf) hx.1]

/-- A list spawned from a ring, the only one to end and with nothing of it in flight: its slot is freed and its spawning packet
answers. -/
theorem State.settle_ended {s : State} {l : ListRun} {r : Nat} (hl : l ∈ s.lists) (he : l.ending = some .ok)
    (hidle : s.inFlight (.list l.basin l.slot) = 0) (hone : ∀ x ∈ s.lists, x.ending.isSome = true → x = l) (hring : l.spawner = .ring r)
    (n : Nat) :
    ∃ u rp, s.settle (n + 1) = u ∧ u.list? l.basin l.slot = none ∧ (u.ring r).waiting = (s.ring r).waiting ++ [rp] ∧
      rp.Answers l.spawnPkt .ok (BitVec.ofNat 32 l.completed) false ∧ s.SameStores u := by
  have hrun : (s.freeSlot l).ListsRun := fun x hx => by
    obtain ⟨hmem, hslot⟩ := List.mem_filter.1 hx
    by_contra hend
    have := hone x hmem (Option.isSome_iff_ne_none.2 hend)
    simp [this] at hslot
  obtain ⟨u, rp, hfin, hwait, ⟨hans, -⟩, -, honly⟩ := State.finish_ring hrun r l.spawnerSpawn l.spawnOff l.spawnPkt
    ((s.freeSlot l).basinOf (.ring r)) l.spawnCycle l.outcome true
  have hdone := (State.packetDone_ring hrun r l.spawnerSpawn l.spawnOff l.spawnPkt ((s.freeSlot l).basinOf (.ring r)) l.spawnCycle
    l.outcome true Stats.zero).run
  rw [State.finish, State.settle_of_listsRun hdone] at hfin
  refine ⟨u, rp, ?_, ?_, hwait, ?_, ?_⟩
  · rw [State.settle, State.find?_ending hl (by rw [he]; rfl) hidle hone]
    simp only [hring]
    rw [← hfin]
    exact State.settle_of_listsRun hdone n
  · rw [State.list?_congr honly.lists]
    refine List.find?_eq_none.2 fun x hx => ?_
    simpa [Classical.or_iff_not_imp_left] using (List.mem_filter.1 hx).2
  · obtain ⟨h1, h2, h3, h4, h5, h6⟩ := hans
    have hstatus : l.outcome.status = .ok ∨ l.outcome.status = .okAlert := by
      simp only [ListRun.outcome, he, Option.getD_some, Status.withAlerts]
      split
      · exact .inr rfl
      · exact .inl rfl
    refine ⟨h1, h2, h3, h4, h5, ?_⟩
    rcases h6 with h6 | ⟨-, h6⟩
    · exact hstatus.imp h6.trans fun h => ⟨rfl, h6.trans h⟩
    · exact .inr ⟨rfl, h6⟩
  · exact honly.same

/-- The return of a list with no caller, nothing of which is in flight, ends it. -/
theorem State.lastReturn {w : State} (hrun : w.ListsRun) {b k r : Nat} {l : ListRun} (hl : w.list? b k = some l)
    (hidle : w.inFlight (.list b k) = 0) (hring : l.spawner = .ring r) (fe : Fetched) :
    ∃ u rp, (w.putList { l with buf := [], calls := [], ending := some .ok }).doneNow (.list b k) fe Outcome.ok = u ∧ u.list? b k = none ∧
      (u.ring r).waiting = (w.ring r).waiting ++ [rp] ∧ rp.Answers l.spawnPkt .ok (BitVec.ofNat 32 (l.completed + 1)) false ∧
      w.SameStores u := by
  obtain ⟨rfl, rfl⟩ := State.list?_slot hl
  have hput : (w.putList { l with buf := [], calls := [], ending := some .ok }).list? l.basin l.slot =
      some { l with buf := [], calls := [], ending := some .ok } :=
    State.list?_putList_self hl rfl rfl
  have hw := w.putList_accounts { l with buf := [], calls := [], ending := some .ok }
  have hringOf (j : Nat) : (w.putList { l with buf := [], calls := [], ending := some .ok }).ring j = w.ring j := rfl
  have hlistsOf : (w.putList { l with buf := [], calls := [], ending := some .ok }).lists =
      w.lists.map fun x => if x.basin = l.basin ∧ x.slot = l.slot then { l with buf := [], calls := [], ending := some .ok } else x := rfl
  generalize w.putList { l with buf := [], calls := [], ending := some .ok } = v at hput hw hringOf hlistsOf
  obtain ⟨hlists, haccounts, hwaiting⟩ := State.packetDone_counts hput fe.off fe.pkt (v.basinOf (.list l.basin l.slot)) v.cycle
    (o := Outcome.ok) rfl Stats.zero
  rw [State.doneNow, State.finish]
  generalize v.packetDone (.list l.basin l.slot) (v.spawnOf (.list l.basin l.slot)) fe.off fe.pkt (v.basinOf (.list l.basin l.slot)) v.cycle
    Outcome.ok true Stats.zero = x at hlists haccounts hwaiting
  generalize hl₂ : ({ l with buf := [], calls := [], ending := some .ok } : ListRun).counted fe.pkt
    (v.marked (.list l.basin l.slot) (v.basinOf (.list l.basin l.slot)) fe.pkt Outcome.ok) = l₂ at hlists
  have hslot : l₂.basin = l.basin ∧ l₂.slot = l.slot := by rw [← hl₂]; exact ⟨rfl, rfl⟩
  have hend : l₂.ending = some .ok := by rw [← hl₂]; rfl
  have hfrom : l₂.spawner = .ring r ∧ l₂.spawnPkt = l.spawnPkt ∧ l₂.completed = l.completed + 1 ∧ l₂.spawn = l.spawn := by
    rw [← hl₂]
    exact ⟨hring, rfl, rfl, rfl⟩
  obtain ⟨hspawner, hpkt, hcompleted, hspawn⟩ := hfrom
  have hother (y : ListRun) (hy : y ∈ x.lists) : y = l₂ ∨ y ∈ w.lists := by
    rw [hlists, State.putList, hlistsOf, List.map_map] at hy
    obtain ⟨z, hz, rfl⟩ := List.mem_map.1 hy
    by_cases hs : z.basin = l.basin ∧ z.slot = l.slot
    · exact .inl (by simp [hs, hslot])
    · exact .inr (by simpa [hs, hslot] using hz)
  have hfound : x.list? l.basin l.slot = some l₂ := by
    rw [State.list?_congr hlists]
    exact State.list?_putList_self hput hslot.1 hslot.2
  have hall := hw.trans haccounts
  have hidle' : x.inFlight (.list l₂.basin l₂.slot) = 0 := by
    have hspawnOf : x.spawnOf (.list l.basin l.slot) = w.spawnOf (.list l.basin l.slot) := by
      simp only [State.spawnOf, hfound, hl, hspawn]
    have hflights : x.flights = w.flights := (congrArg State.flights hall :)
    have hhanded : x.handed = w.handed := (congrArg State.handed hall :)
    rw [hslot.1, hslot.2]
    simp only [State.inFlight, hspawnOf, hflights, hhanded, hall.waits, Nat.add_eq_zero_iff, List.length_eq_zero_iff] at hidle ⊢
    refine ⟨hidle.1, List.filter_eq_nil_iff.2 fun y hy => ?_⟩
    rcases hother y hy with rfl | hy
    · simp [hspawner]
    · exact List.filter_eq_nil_iff.1 hidle.2 y hy
  have hone (y : ListRun) (hy : y ∈ x.lists) (he : y.ending.isSome = true) : y = l₂ := by
    rcases hother y hy with h | h
    · exact h
    · simp [hrun y h] at he
  obtain ⟨u, rp, hsettle, hgone, hwait, hans, hsame⟩ := State.settle_ended (List.mem_of_find?_eq_some hfound) hend hidle' hone hspawner
    x.lists.length
  rw [hslot.1, hslot.2] at hgone
  rw [hpkt, hcompleted] at hans
  exact ⟨u, rp, hsettle, hgone, by rw [hwait, hwaiting, hringOf], hans, hall.same.trans hsame⟩

/-- Settles O23. -/
theorem lists : Obligations.Lists := by
  unfold Obligations.Lists
  refine fun s t src p fe => ⟨fun b k l h hspawn hsrc hl => ?call, fun k h hspawn hfree => ?spawn, fun b k l off rest h hsrc hl hcalls => ?back,
    fun b k l r h hsrc hl hcalls hidle hring => ?ended⟩
  case call =>
    subst hsrc
    have hop : ({ p with opcode := 0x08 } : Packet).op = 0x08 := rfl
    have hpkt := h.1.pkt_eq
    have hspawn' : fe.pkt.rlSpawn = false := by rw [hpkt]; exact hspawn
    have hoff : fe.pkt.rlOffset = p.rlOffset := by rw [hpkt]; rfl
    have hstart := h.starts (hop.trans_lt (by decide)) (State.startStream_runList _ (hpkt ▸ hop))
    have d := h.dispatched
    have hl' := State.list?_dispatched { p with opcode := 0x08 } hl
    simp only [State.startList, hspawn', Bool.false_eq_true, if_false, hl', hoff] at hstart
    have hend : l.ending = none := d.run { l with buf := l.buf.drop 1 } (List.mem_of_find?_eq_some hl')
    obtain ⟨l'', hlist, hpc, hcalls, hbuf, hcompleted, hsame⟩ := State.listGoesOn d.run hl'
      (l' := { l with buf := [], calls := (fe.off + 64) :: l.calls, pc := p.rlOffset }) rfl rfl hend fe
    exact ⟨_, l'', congrArg Host.Outcome.next hstart, hlist, hpc, hcalls, hbuf, hcompleted, d.accounts.same.trans hsame⟩
  case spawn =>
    have hop : ({ p with opcode := 0x08 } : Packet).op = 0x08 := rfl
    have hpkt := h.1.pkt_eq
    have hspawn' : fe.pkt.rlSpawn = true := by rw [hpkt]; exact hspawn
    have hoff : fe.pkt.rlOffset = p.rlOffset := by rw [hpkt]; rfl
    have hbasin : fe.pkt.rlBasin = p.rlBasin := by rw [hpkt]; rfl
    have hstart := h.starts (hop.trans_lt (by decide)) (State.startStream_runList _ (hpkt ▸ hop))
    have d := h.dispatched
    have hnoted := t.readNamed_onlyNoted (t.basinOf src) { p with opcode := 0x08 }
    have hslot : ((t.readNamed (t.basinOf src) { p with opcode := 0x08 }).popHead src).freeListSlot p.rlBasin = some k := by
      rw [State.freeListSlot_popHead, ← hfree]
      simp only [State.freeListSlot, hnoted.list?]
    have hctx : ((t.readNamed (t.basinOf src) { p with opcode := 0x08 }).popHead src).ctxOf src = t.ctxOf src := by
      rw [State.ctxOf_popHead]
      cases src <;> simp only [State.ctxOf, hnoted.list?]
    have hnext : ((t.readNamed (t.basinOf src) { p with opcode := 0x08 }).popHead src).nextSpawn = s.nextSpawn :=
      (congrArg State.nextSpawn d.accounts :)
    simp only [State.startList, hspawn', if_true, hbasin, hslot] at hstart
    obtain ⟨-, hcount, hsame⟩ := State.spawnList_leaves _ src fe k
    refine ⟨_, _, congrArg Host.Outcome.next hstart, hbasin ▸ State.list?_spawnList (hbasin ▸ hslot), hoff, ?_, rfl, ?_, ?_, rfl, rfl, rfl,
      d.accounts.same.trans hsame⟩
    · exact congrArg (·.getD 0) hctx
    · exact congrArg (· + 1) hnext
    · exact hcount.trans (congrArg (· + 1) hnext)
  case back =>
    subst hsrc
    have hop : ({ p with opcode := 0x09 } : Packet).op = 0x09 := rfl
    have hnoted := t.readNamed_onlyNoted (t.basinOf (.list b k)) { p with opcode := 0x09 }
    have hl' := (hnoted.list? b k).trans hl
    have hstart := h.starts (hop.trans_lt (by decide)) (State.startStream_return _ (h.1.pkt_eq ▸ hop))
    obtain ⟨-, -, ht, -, -, -, hrun, -⟩ := h.1
    simp only [State.startReturn, hl', hcalls] at hstart
    have hrun' : (t.readNamed (t.basinOf (.list b k)) { p with opcode := 0x09 }).ListsRun := fun x hx => hrun x (by rwa [hnoted.lists] at hx)
    have hend : l.ending = none := hrun _ (List.mem_of_find?_eq_some hl)
    obtain ⟨l'', hlist, hpc, hcalls, hbuf, hcompleted, hsame⟩ := State.listGoesOn hrun' hl'
      (l' := { l with buf := [], calls := rest, pc := off }) rfl rfl hend fe
    have hfetched : s.SameStores t := ht ▸ (s.fetched_accounts _ _).same
    exact ⟨_, l'', congrArg Host.Outcome.next hstart, hlist, hpc, hcalls, hbuf, hcompleted, (hfetched.trans hnoted.same).trans hsame⟩
  case ended =>
    subst hsrc
    have hop : ({ p with opcode := 0x09 } : Packet).op = 0x09 := rfl
    have hnoted := t.readNamed_onlyNoted (t.basinOf (.list b k)) { p with opcode := 0x09 }
    have hl' := (hnoted.list? b k).trans hl
    have hstart := h.starts (hop.trans_lt (by decide)) (State.startStream_return _ (h.1.pkt_eq ▸ hop))
    obtain ⟨-, -, ht, -, -, -, hrun, -⟩ := h.1
    have hidle' := (hnoted.inFlight (.list b k)).trans hidle
    simp only [State.startReturn, hl', hcalls] at hstart
    have hrun' : (t.readNamed (t.basinOf (.list b k)) { p with opcode := 0x09 }).ListsRun := fun x hx => hrun x (by rwa [hnoted.lists] at hx)
    obtain ⟨u, rp, hdone, hgone, hwait, hans, hsame⟩ := State.lastReturn hrun' hl' hidle' hring fe
    have hfetched : s.SameStores t := ht ▸ (s.fetched_accounts _ _).same
    rw [hdone] at hstart
    exact ⟨u, rp, congrArg Host.Outcome.next hstart, hgone, by rw [hwait, hnoted.ring], hans,
      (hfetched.trans hnoted.same).trans hsame⟩

end Sys2Proof.Machine
end

section
set_option Elab.async false -- the whole text is compiled in one process, within a fixed memory
/-! SUPPORT. The turn of a source: its packet at the head is refused, handed to Rosog or completed (R207, R209, R219). -/

namespace Sys2Proof.Machine

/-! ### A turn that dispatches one packet -/

theorem State.dispatchGroup_last {s s' : State} {src : Src} {stop : Bool} (h : s.dispatchOne src = some (s', stop))
    (hlast : stop = false → s'.head? src = none) : s.dispatchGroup 4 src = s' := by
  cases stop with
  | true => simp only [State.dispatchGroup, h, if_true]
  | false =>
    have hnone : s'.dispatchOne src = none := by simp only [State.dispatchOne, hlast rfl]
    simp only [State.dispatchGroup, h, hnone, Bool.false_eq_true, if_false]

/-- The turn has gone on to the next source. -/
def State.turned (s : State) (src : Src) (b : Nat) (riders : List (Nat × Nat)) (rode : List Nat) : State :=
  { s with riders := nset riders 0 b (srcPlace src + 1), rode := b :: rode }

theorem State.turned_leaves (s : State) (src : Src) (b : Nat) (riders : List (Nat × Nat)) (rode : List Nat) :
    (s.turned src b riders rode).handed = s.handed ∧ (s.turned src b riders rode).dueIncs = s.dueIncs ∧
      (s.turned src b riders rode).flights = s.flights ∧ (∀ k, (s.turned src b riders rode).ring k = s.ring k) ∧
      ∀ src', (s.turned src b riders rode).head? src' = s.head? src' :=
  ⟨rfl, rfl, rfl, fun _ => rfl, fun _ => rfl⟩

/-- The source whose turn it is dispatches one packet, with every flight at rest. -/
theorem State.packetDispatch_one {s s' : State} {src : Src} {stop : Bool} (hrest : s.AtRest) (hturn : s.Turn src)
    (h : s.dispatchOne src = some (s', stop)) (hlast : stop = false → s'.head? src = none) (hf : s'.flights = s.flights) :
    exec (.packetDispatch src) s = .next (s'.turned src (s.basinOf src) s.riders s.rode) := by
  obtain ⟨hrode, hnext⟩ := hturn
  have hride : s.ride src = s'.turned src (s.basinOf src) s.riders s.rode := by
    rw [← State.dispatchGroup_last h hlast]
    simp only [State.ride, hrode, hnext, bne_self_eq_false, Bool.or_self, Bool.false_eq_true, if_false]
    rfl
  have hflights : (s'.turned src (s.basinOf src) s.riders s.rode).flights = s.flights := hf
  simp only [exec, execPacketDispatch, hride, hrest.runReady hflights]
  rfl

theorem State.head?_of_emptyBuf {s : State} {k : Nat} (h : (s.ring k).buf = []) : s.head? (.ring k) = none := by
  unfold State.head?
  simp [h]

/-- A ring's packet finished: the reply that waits last, and the buffer as it was. -/
theorem State.finish_ring_reply {s : State} (hrun : s.ListsRun) (k spawn off : Nat) (p : Packet) (b start : Nat) (o : Outcome) (once : Bool) :
    ((s.finish (.ring k) spawn off p b start o once).ring k).waiting =
        (s.ring k).waiting ++ [(s.marked (.ring k) b p o).reply p false (s.cycle - start)] ∧
      ((s.finish (.ring k) spawn off p b start o once).ring k).buf = (s.ring k).buf := by
  obtain ⟨st, e⟩ := s.packetDone_ring_eq k spawn off p b start o once Stats.zero
  have hring (c : Prop) [Decidable c] (j : Nat) : (if c then s.dueInc b p.gauge p.inc.toNat else s).ring j = s.ring j := by
    unfold State.dueInc
    split_ifs <;> rfl
  rw [State.finish, State.settle_of_listsRun (State.packetDone_ring hrun k spawn off p b start o once Stats.zero).run, e]
  constructor <;> simp [State.queueReply, State.addStats, hring]

/-! ### A packet handed to Rosog (R219) -/

theorem State.hand_sources (s : State) (src : Src) (fe : Fetched) :
    (∀ r, (s.hand src fe).ring r = ((s.popHead src).holdSrc src true).ring r) ∧
      ∀ b k, (s.hand src fe).list? b k = ((s.popHead src).holdSrc src true).list? b k := ⟨fun _ => rfl, fun _ _ => rfl⟩

theorem State.flights_holdSrc (s : State) (src : Src) (held : Bool) : (s.holdSrc src held).flights = s.flights := by
  cases src with
  | ring r => rfl
  | headgate => rfl
  | list b k =>
    cases hl : s.list? b k with
    | none => simp only [State.holdSrc, hl]
    | some l => simp only [State.holdSrc, hl]; rfl

theorem State.flights_hand (s : State) (src : Src) (fe : Fetched) : (s.hand src fe).flights = s.flights :=
  (State.flights_holdSrc _ src true).trans (congrArg State.flights (s.popHead_accounts src) :)

/-- A source held by a control packet dispatches nothing. -/
theorem State.head?_hand {s : State} {src : Src} {fe : Fetched} (h : s.head? src = some fe) : (s.hand src fe).head? src = none := by
  obtain ⟨hrings, hlists⟩ := s.hand_sources src fe
  cases src with
  | headgate => rfl
  | ring r =>
    have hheld : ((s.hand (.ring r) fe).ring r).held = true := by
      rw [hrings]
      simp [State.holdSrc]
    unfold State.head?
    simp only [hheld, Bool.not_true, Bool.and_false, Bool.false_and, Bool.false_eq_true, if_false]
  | list b k =>
    obtain ⟨l, hl⟩ := State.hasSource_of_head? h
    have hpop : (s.popHead (.list b k)).list? b k = some { l with buf := l.buf.drop 1 } := by
      rw [State.popHead_list hl]
      exact State.list?_putList_self hl rfl rfl
    have hheld : (s.hand (.list b k) fe).list? b k = some { l with buf := l.buf.drop 1, held := true } := by
      rw [hlists]
      simp only [State.holdSrc, hpop]
      exact State.list?_putList_self hpop rfl rfl
    unfold State.head?
    simp only [hheld, Bool.not_true, Bool.and_false, Bool.false_and, Bool.false_eq_true, if_false]

/-- The reply of a marked refusal carries its status. -/
theorem State.marked_refuse_status (s : State) (src : Src) (b : Nat) (p : Packet) {st : Status} (h : st.failed = true) :
    (s.marked src b p (Outcome.refuse st)).status = st := by
  have hok : st ≠ .ok := by
    rintro rfl
    cases h
  simp only [State.marked, Outcome.refuse, Status.withAlerts, hok, false_and, if_false]

/-- Settles O20. -/
theorem dispatches : Obligations.Dispatches := by
  unfold Obligations.Dispatches
  refine fun s src fe hrest hturn hhead => ⟨fun k st hsrc hcheck hfail hbuf hlists => ?refused, fun hcheck hop => ?handed,
    fun k hsrc hcheck hstream hop hbuf hlists => ?nop⟩
  case refused =>
    subst hsrc
    have hrun : (s.popHead (.ring k)).ListsRun := State.ListsRun.popHead (fun l hl => by simp [hlists] at hl) _
    have hpop : ((s.popHead (.ring k)).ring k).waiting = (s.ring k).waiting ∧ ((s.popHead (.ring k)).ring k).buf = [] := by
      simp [State.popHead, hbuf]
    obtain ⟨hwait, hempty⟩ := State.finish_ring_reply hrun k ((s.popHead (.ring k)).spawnOf (.ring k)) fe.off fe.pkt
      ((s.popHead (.ring k)).basinOf (.ring k)) (s.popHead (.ring k)).cycle (Outcome.refuse st) false
    have hdone := State.finish_refuse_ring hrun k ((s.popHead (.ring k)).spawnOf (.ring k)) fe.off fe.pkt
      ((s.popHead (.ring k)).basinOf (.ring k)) (s.popHead (.ring k)).cycle st
    obtain ⟨u, -, hfin, -, -, -, honly⟩ := State.finish_ring hrun k ((s.popHead (.ring k)).spawnOf (.ring k)) fe.off fe.pkt
      ((s.popHead (.ring k)).basinOf (.ring k)) (s.popHead (.ring k)).cycle (Outcome.refuse st) false
    rw [← s.refuseHead_ring] at hwait hempty hdone hfin
    subst hfin
    obtain ⟨stop, hone⟩ : ∃ stop, s.dispatchOne (.ring k) = some (s.refuseHead (.ring k) fe st false, stop) := by
      simp only [State.dispatchOne, hhead, hcheck]
      exact ⟨_, rfl⟩
    have hflights : (s.refuseHead (.ring k) fe st false).flights = s.flights :=
      (congrArg State.flights honly :).trans (congrArg State.flights (s.popHead_accounts (.ring k)) :)
    have hexec := State.packetDispatch_one hrest hturn hone (fun _ => State.head?_of_emptyBuf (hempty.trans hpop.2)) hflights
    obtain ⟨-, hdue, -, hring, -⟩ := (s.refuseHead (.ring k) fe st false).turned_leaves (.ring k) (s.basinOf (.ring k)) s.riders s.rode
    refine ⟨_, _, hexec, (congrArg RingRun.waiting (hring k)).trans (hwait.trans (by rw [hpop.1])),
      State.marked_refuse_status _ _ _ _ hfail, rfl, rfl, rfl, ?_⟩
    rw [hdue, hdone.dueIncs, State.popHead_dueIncs, List.append_nil]
  case handed =>
    have hone : s.dispatchOne src = some (s.hand src fe, true) := by
      simp [State.dispatchOne, hhead, hcheck, hop]
    obtain ⟨hhanded, -, -, -, hhead'⟩ := (s.hand src fe).turned_leaves src (s.basinOf src) s.riders s.rode
    exact ⟨_, _, State.packetDispatch_one hrest hturn hone nofun (s.flights_hand src fe), hhanded, rfl, rfl, rfl,
      (hhead' src).trans (State.head?_hand hhead)⟩
  case nop =>
    subst hsrc
    have hn := s.readNamed_onlyNoted (s.basinOf (.ring k)) fe.pkt
    have hv := hn.accounts.trans (State.popHead_accounts _ (.ring k))
    have hrun : ((s.readNamed (s.basinOf (.ring k)) fe.pkt).popHead (.ring k)).ListsRun :=
      State.ListsRun.popHead (fun l hl => by simp [hn.lists, hlists] at hl) _
    have hpop : (((s.readNamed (s.basinOf (.ring k)) fe.pkt).popHead (.ring k)).ring k).waiting = (s.ring k).waiting ∧
        (((s.readNamed (s.basinOf (.ring k)) fe.pkt).popHead (.ring k)).ring k).buf = [] := by
      simp [State.popHead, hn.ring, hbuf]
    have hdue : ((s.readNamed (s.basinOf (.ring k)) fe.pkt).popHead (.ring k)).dueIncs = s.dueIncs :=
      (State.popHead_dueIncs _ _).trans hn.dueIncs
    have hbasin : ((s.readNamed (s.basinOf (.ring k)) fe.pkt).popHead (.ring k)).basinOf (.ring k) = s.basinOf (.ring k) :=
      (State.popHead_basinOf _ _).trans (hn.basinOf _)
    have hstart := (s.readNamed (s.basinOf (.ring k)) fe.pkt).startStream_nop (.ring k) hop
    generalize (s.readNamed (s.basinOf (.ring k)) fe.pkt).popHead (.ring k) = v at hv hrun hpop hdue hbasin hstart
    obtain ⟨hwait, hempty⟩ := State.finish_ring_reply hrun k (v.spawnOf (.ring k)) fe.off fe.pkt (v.basinOf (.ring k)) v.cycle Outcome.ok true
    have hdone := State.doneNow_finishes hrun (src := .ring k) trivial fe (o := Outcome.ok) rfl
    have haccounts := State.doneNow_accounts hrun (src := .ring k) trivial fe (o := Outcome.ok) rfl
    rw [← State.doneNow] at hwait hempty
    have hone : s.dispatchOne (.ring k) = some (v.doneNow (.ring k) fe Outcome.ok, false) := by
      simp only [State.dispatchOne, hhead, hcheck, hstream, hstart, hop]
      rfl
    have hexec := State.packetDispatch_one hrest hturn hone (fun _ => State.head?_of_emptyBuf (hempty.trans hpop.2))
      (congrArg State.flights (hv.trans haccounts) :)
    obtain ⟨-, hdue', -, hring, -⟩ := (v.doneNow (.ring k) fe Outcome.ok).turned_leaves (.ring k) (s.basinOf (.ring k)) s.riders s.rode
    refine ⟨_, _, hexec, (congrArg RingRun.waiting (hring k)).trans (hwait.trans (by rw [hpop.1])),
      ?_, rfl, rfl, ?_⟩
    · exact BitVec.eq_of_toNat_eq hop
    · rw [hdue', hdone.dueIncs, hdue, hbasin]
      rfl

end Sys2Proof.Machine
end

section
set_option Elab.async false -- the whole text is compiled in one process, within a fixed memory
/-! SUPPORT. Words of a basin read and written where nothing but the word itself is touched (R34, R56), and what landing a cycle's beats
leaves of rings and of the packets in Rosog's hands. -/

namespace Sys2Proof.Machine

/-! ### What accesses to memory leave as it was -/

/-- From `s` to `t` words of basins have been read and written, by bursts or otherwise: memory, its codes, logs, faults posted, the
copies of spare banks, beats and the data of flights are all that has changed. -/
def State.OnlyMemory (s t : State) : Prop :=
  { t with mem := s.mem, memChk := s.memChk, regs := s.regs, fresh := s.fresh, events := s.events, lostEvents := s.lostEvents,
           spareCopies := s.spareCopies, flights := s.flights, beats := s.beats } = s

theorem State.OnlyMemory.refl (s : State) : s.OnlyMemory s := rfl

theorem State.OnlyMemory.trans {s t u : State} (h : s.OnlyMemory t) (k : t.OnlyMemory u) : s.OnlyMemory u := by
  have e := congrArg (fun x : State => { x with
    mem := s.mem, memChk := s.memChk, regs := s.regs, fresh := s.fresh, events := s.events, lostEvents := s.lostEvents,
    spareCopies := s.spareCopies, flights := s.flights, beats := s.beats }) k
  exact e.trans h

theorem State.OnlyMemory.ite {s t u : State} {c : Prop} [Decidable c] (ht : s.OnlyMemory t) (hu : s.OnlyMemory u) :
    s.OnlyMemory (if c then t else u) := by
  split
  · exact ht
  · exact hu

/-- A fold of accesses to memory is one. -/
theorem State.OnlyMemory.foldl {α : Type} {s t : State} (h : s.OnlyMemory t) (f : State → α → State)
    (hf : ∀ (u : State) (x : α), u.OnlyMemory (f u x)) (l : List α) : s.OnlyMemory (l.foldl f t) :=
  foldl_keeps s.OnlyMemory f (fun u x hu => hu.trans (hf u x)) l t h

section
variable (s : State)

theorem State.putReg_memory (r : Reg) (v : Word64) : s.OnlyMemory (s.putReg r v) := rfl

theorem State.putFld_memory (r : Reg) (lo n v : Nat) : s.OnlyMemory (s.putFld r lo n v) := rfl

theorem State.setW1c_memory (r : Reg) (m : Word64) : s.OnlyMemory (s.setW1c r m) := rfl

theorem State.bump_memory (r : Reg) (lo n k : Nat) : s.OnlyMemory (s.bump r lo n k) := by
  unfold State.bump
  split <;> rfl

theorem State.putFlight_memory (f : Flight) : s.OnlyMemory (s.putFlight f) := rfl

theorem State.stored_memory (m : List Host.Cell) (c : List (Nat × BitVec 48)) : s.OnlyMemory { s with mem := m, memChk := c } := rfl

theorem State.copies_memory (c : List SpareCopy) : s.OnlyMemory { s with spareCopies := c } := rfl

theorem State.beats_memory (b : List Beat) : s.OnlyMemory { s with beats := b } := rfl

theorem State.eccLog_memory (b kind bank row r c t : Nat) : s.OnlyMemory (s.eccLog b kind bank row r c t) :=
  .ite (.refl s) ((s.putReg_memory _ _).trans (State.setW1c_memory _ _ _))

theorem State.post_memory (e : Event) : s.OnlyMemory (s.post e) := by
  unfold State.post
  split <;> rfl

theorem State.noteFinding_memory (b pb row : Nat) (rd : Reader) (f : Finding) : s.OnlyMemory (s.noteFinding b pb row rd f) := by
  cases f with
  | clean => exact .refl s
  | corrected i =>
    exact ((s.bump_memory _ 32 32 1).trans (State.bump_memory _ _ 0 32 1)).trans ((State.putFld_memory _ _ _ _ _).trans (State.putFld_memory _ _ _ _ _))
  | bad r c => exact ((s.bump_memory _ 16 16 1).trans (State.eccLog_memory _ _ _ _ _ _ _ _)).trans (State.post_memory _ _)

theorem State.readWord_memory (b w : Nat) (rd : Reader) : s.OnlyMemory (s.readWord b w rd).1 := s.noteFinding_memory _ _ _ _ _

theorem State.storePhys_memory (b pb prow : Nat) (d : List Byte) (dev : BitVec 48) : s.OnlyMemory (s.storePhys b pb prow d dev) := by
  refine .ite (.trans (.trans ?_ (State.putFld_memory _ _ _ _ _)) (State.setW1c_memory _ _ _)) (s.stored_memory _ _)
  exact .foldl ((s.stored_memory _ _).trans (State.putReg_memory _ _ _)) _ (fun u i => u.putReg_memory _ _) _

theorem State.storeRow_memory (b bank row : Nat) (d : List Byte) (dev : BitVec 48) : s.OnlyMemory (s.storeRow b bank row d dev) := by
  have hfirst := s.storePhys_memory b (s.physBank b bank) (s.physRow b (s.physBank b bank) row) d dev
  cases hcopy : s.copyingTo b bank with
  | none => simpa only [State.storeRow, hcopy] using hfirst
  | some sp =>
    simp only [State.storeRow, hcopy]
    exact (hfirst.trans (State.storePhys_memory _ b sp _ d dev)).trans (State.copies_memory _ _)

theorem State.writeWord_memory (b w : Nat) (d : List Byte) : s.OnlyMemory (s.writeWord b w d) := s.storeRow_memory _ _ _ _ _

theorem State.writePart_memory (b w o : Nat) (bs : List Byte) (rd : Reader) : s.OnlyMemory (s.writePart b w o bs rd) := by
  refine .ite (s.writeWord_memory _ _ _) ?_
  have hstored := (s.readWord_memory b w rd).trans (State.storeRow_memory _ b ((s.readWord b w rd).1.bankRow b w).1
    ((s.readWord b w rd).1.bankRow b w).2 ((s.readWord b w rd).2.1.take o ++ bs ++ (s.readWord b w rd).2.1.drop (o + bs.length))
    (if (s.readWord b w rd).2.2 then poison else 0))
  exact .ite (hstored.trans (State.bump_memory _ _ _ _ _)) hstored

theorem State.writeRange_memory (b off : Nat) (bs : List Byte) (rd : Reader) : s.OnlyMemory (s.writeRange b off bs rd) :=
  .foldl (.refl s) _ (fun u _ => u.writePart_memory _ _ _ _ _) _

theorem State.landSum_memory (b w : Nat) (d : List Byte) (bad : Bool) : s.OnlyMemory (s.landSum b w d bad) :=
  .ite ((s.storeRow_memory _ _ _ _ _).trans (State.bump_memory _ _ _ _ _)) (s.storeRow_memory _ _ _ _ _)

theorem State.readBeat_memory (x : Beat) : s.OnlyMemory (s.readBeat x) := by
  unfold State.readBeat
  split
  · split
    · exact .ite ((s.readWord_memory _ _ _).trans (State.putFlight_memory _ _)) (.refl s)
    · exact .refl s
  · exact .refl s

theorem State.writeBeat_memory (x : Beat) : s.OnlyMemory (s.writeBeat x) := by
  unfold State.writeBeat
  split
  · split
    · split
      · exact .ite (.refl s) (.ite ((s.landSum_memory _ _ _ _).trans (State.putFlight_memory _ _))
          ((s.writeWord_memory _ _ _).trans (State.putFlight_memory _ _)))
      · exact .refl s
    · exact .refl s
  · exact .refl s

theorem State.landBeats_memory : s.OnlyMemory s.landBeats := by
  have hread := (State.OnlyMemory.refl s).foldl State.readBeat State.readBeat_memory
    ((s.beats.filter fun x => decide (x.cycle = s.cycle) && !x.done).filter (!·.write))
  have hwritten := hread.foldl State.writeBeat State.writeBeat_memory
    ((s.beats.filter fun x => decide (x.cycle = s.cycle) && !x.done).filter (·.write))
  exact .trans (.foldl hwritten _ (fun u x => u.putFld_memory _ _ _ _) _) (State.beats_memory _ _)

end

/-! ### Plain words -/

theorem State.readWord_plain {s : State} {b w : Nat} (h : s.Plain b w) (rd : Reader) : s.readWord b w rd = (s, s.bytesOf b w, false) := by
  obtain ⟨hclean, -, -⟩ := h
  have hfound : findingOf (s.syndrome (s.wordAt b w)) = .clean := by
    rw [State.syndrome, hclean]
    rfl
  rw [State.wordAt] at hfound
  simp only [State.readWord, State.readPhys, hfound]
  rfl

/-- A read within one word. -/
theorem State.readRange_word {s : State} {b off : Nat} (h : s.Plain b (off / 64)) (ho : off % 64 = 0) (rd : Reader) :
    s.readRange b off 64 rd = (s, s.bytesOf b (off / 64), false) := by
  have hn : cdiv (0 + 64) 64 = 1 := rfl
  have hlen : (s.bytesOf b (off / 64)).length = 64 := by simp [State.bytesOf]
  simp only [State.readRange, ho, hn, List.range_succ, List.range_zero, List.nil_append, List.foldl_cons, List.foldl_nil, Nat.add_zero,
    State.readWord_plain h, List.drop_zero, Bool.or_self]
  rw [List.take_of_length_le hlen.le]

/-- What storing a whole word with its code leaves. -/
theorem State.storeRow_plain {s : State} {b w : Nat} (h : s.Plain b w) (d : List Byte) :
    s.storeRow b (s.bankRow b w).1 (s.bankRow b w).2 d 0 =
      { s with mem := putBytes s.mem (s.wordAt b w * 64) d, memChk := nset s.memChk 0 (s.wordAt b w) 0 } := by
  obtain ⟨-, hcopy, hflip⟩ := h
  simp only [State.storeRow, hcopy, State.storePhys, hflip, Bool.false_eq_true, false_and, if_false]
  rfl

theorem getD_bytesOf (s : State) (b w i : Nat) (hi : i < 64) : (s.bytesOf b w).getD i 0 = nget s.mem 0 (s.wordAt b w * 64 + i) := by
  simp [State.bytesOf, hi]

/-- A word with some of its bytes replaced. -/
def spliced (old : List Byte) (o : Nat) (bs : List Byte) : List Byte := old.take o ++ bs ++ old.drop (o + bs.length)

theorem length_spliced {old : List Byte} {o : Nat} {bs : List Byte} (hold : old.length = 64) (hin : o + bs.length ≤ 64) :
    (spliced old o bs).length = 64 := by
  simp only [spliced, List.length_append, List.length_take, List.length_drop, hold]
  omega

theorem getD_spliced {old : List Byte} {o : Nat} {bs : List Byte} (hold : old.length = 64) (hin : o + bs.length ≤ 64) (i : Nat) :
    (spliced old o bs).getD i 0 = if o ≤ i ∧ i < o + bs.length then bs.getD (i - o) 0 else old.getD i 0 := by
  have ho : (old.take o).length = o := by rw [List.length_take, hold]; omega
  simp only [spliced, List.getD_eq_getElem?_getD, List.getElem?_append, List.length_append, ho, List.getElem?_take, List.getElem?_drop]
  rcases Nat.lt_or_ge i o with h1 | h1
  · have hno : ¬ (o ≤ i ∧ i < o + bs.length) := by omega
    rw [if_pos (by omega), if_pos h1, if_pos h1, if_neg hno]
  · rcases Nat.lt_or_ge i (o + bs.length) with h2 | h2
    · rw [if_pos h2, if_neg (by omega), if_pos ⟨h1, h2⟩]
    · rw [if_neg (by omega), if_neg (by omega), Nat.add_sub_cancel' h2]

/-- Part of a word written: its bytes land, and no other byte changes. -/
theorem State.writeRange_plain {s : State} {b off : Nat} (h : s.Plain b (off / 64)) {bs : List Byte} (h0 : 0 < bs.length)
    (hin : off % 64 + bs.length ≤ 64) (rd : Reader) :
    (∀ j, nget (s.writeRange b off bs rd).mem 0 j =
      if s.wordAt b (off / 64) * 64 + off % 64 ≤ j ∧ j < s.wordAt b (off / 64) * 64 + off % 64 + bs.length then
        bs.getD (j - (s.wordAt b (off / 64) * 64 + off % 64)) 0
      else nget s.mem 0 j) ∧ (s.writeRange b off bs rd).desc = s.desc ∧ (s.writeRange b off bs rd).gauge = s.gauge := by
  have hold : (s.bytesOf b (off / 64)).length = 64 := by simp [State.bytesOf]
  have hpart : s.writeRange b off bs rd = s.writePart b (off / 64) (off % 64) bs rd := by
    have hn : cdiv (off % 64 + bs.length) 64 = 1 := by unfold cdiv; omega
    have hhi : min bs.length (64 * (0 + 1) - off % 64) = bs.length := by omega
    simp only [State.writeRange, hn, List.range_succ, List.range_zero, List.nil_append, List.foldl_cons, List.foldl_nil, if_true,
      Nat.add_zero, hhi, List.take_length, List.drop_zero]
  have hword : s.writePart b (off / 64) (off % 64) bs rd = s.storeRow b (s.bankRow b (off / 64)).1 (s.bankRow b (off / 64)).2
      (spliced (s.bytesOf b (off / 64)) (off % 64) bs) 0 := by
    unfold State.writePart
    split
    · next hwhole =>
      obtain ⟨ho, hlen⟩ := hwhole
      have hall : spliced (s.bytesOf b (off / 64)) 0 bs = bs := by
        have hdrop : (s.bytesOf b (off / 64)).drop (0 + bs.length) = [] := List.drop_eq_nil_of_le (by omega)
        rw [spliced, hdrop, List.take_zero, List.nil_append, List.append_nil]
      rw [ho, hall]
      rfl
    · simp only [State.readWord_plain h, Bool.false_eq_true, if_false]
      rfl
  rw [hpart, hword, State.storeRow_plain h]
  refine ⟨fun j => ?_, rfl, rfl⟩
  rw [nget_putBytes, length_spliced hold hin, getD_spliced hold hin]
  have hread := getD_bytesOf s b (off / 64)
  generalize s.wordAt b (off / 64) * 64 = a at *
  generalize off % 64 = o at *
  by_cases hj : a ≤ j ∧ j < a + 64
  · rw [if_pos hj]
    have hsame : a + o ≤ j ∧ j < a + o + bs.length ↔ o ≤ j - a ∧ j - a < o + bs.length := by omega
    simp only [hsame]
    split
    · rw [Nat.sub_sub]
    · rw [hread _ (by omega), Nat.add_sub_cancel' hj.1]
  · rw [if_neg hj, if_neg (by omega)]

end Sys2Proof.Machine
end

section
set_option Elab.async false -- the whole text is compiled in one process, within a fixed memory
/-! SUPPORT. Rings: their pointers, their fetches and their replies (R199–R205, R211, R219). -/

namespace Sys2Proof.Machine

/-! ### Pointers the host writes (R200) -/

theorem fld_leBytes (v : BitVec 32) : fld (BitVec.ofNat 64 (leNat (leBytes 4 v.toNat))) 0 32 = v.toNat := by
  have hlt := v.isLt
  rw [leNat_of_leBytes, fld, BitVec.toNat_ofNat]
  omega

theorem State.doorbell_leaves {s : State} {k : Nat} (h : s.ringState k ≠ 0) (v : BitVec 32) :
    (s.doorbell k v.toNat).flights = s.flights ∧
      if (v.toNat + 2 ^ 32 - s.ringHead k) % 2 ^ 32 ≤ 2 ^ s.rfld (.ringCmd k) 40 4 ∧
        (v.toNat + 2 ^ 32 - s.ringTail k) % 2 ^ 32 < 2 ^ 31
      then (s.doorbell k v.toNat).ringTail k = v.toNat ∧ (∀ r, r ≠ .ringDb k → (s.doorbell k v.toNat).reg r = s.reg r)
      else (s.doorbell k v.toNat).ringTail k = s.ringTail k ∧
        (s.doorbell k v.toNat).rfld (.ringSt k) 48 16 = min (s.rfld (.ringSt k) 48 16 + 1) (2 ^ 16 - 1) := by
  simp only [State.doorbell, if_neg h]
  split
  · next hbad =>
    rw [if_neg (by omega)]
    refine ⟨by simp, ?_, s.rfld_bump_self (.ringSt k) 48 16 (by decide)⟩
    exact congrArg (fld · 0 32) (s.reg_bump_ne (by simp) 48 16 1)
  · next hgood =>
    rw [if_pos (by omega)]
    exact ⟨rfl, (State.rfld_putFld_self s (.ringDb k) 0 32 _ (by decide)).trans (Nat.mod_eq_of_lt v.isLt), fun r hr => s.reg_putFld_ne hr _ _ _⟩

theorem State.consumed_leaves {s : State} {k : Nat} (h : s.ringState k ≠ 0) (v : BitVec 32) :
    (s.consumed k v.toNat).flights = s.flights ∧
      if (s.rfld (.ringRtail k) 0 32 + 2 ^ 32 - v.toNat) % 2 ^ 32 ≤ s.rplEntries k ∧
        (v.toNat + 2 ^ 32 - s.rfld (.ringRhead k) 0 32) % 2 ^ 32 < 2 ^ 31
      then (s.consumed k v.toNat).rfld (.ringRhead k) 0 32 = v.toNat ∧ (∀ r, r ≠ .ringRhead k → (s.consumed k v.toNat).reg r = s.reg r)
      else (s.consumed k v.toNat).rfld (.ringRhead k) 0 32 = s.rfld (.ringRhead k) 0 32 ∧
        (s.consumed k v.toNat).rfld (.ringSt k) 48 16 = min (s.rfld (.ringSt k) 48 16 + 1) (2 ^ 16 - 1) := by
  simp only [State.consumed, if_neg h]
  split
  · next hbad =>
    rw [if_neg (by omega)]
    refine ⟨by simp, ?_, s.rfld_bump_self (.ringSt k) 48 16 (by decide)⟩
    exact congrArg (fld · 0 32) (s.reg_bump_ne (by simp) 48 16 1)
  · next hgood =>
    rw [if_pos (by omega)]
    exact ⟨rfl, (State.rfld_putFld_self s (.ringRhead k) 0 32 _ (by decide)).trans (Nat.mod_eq_of_lt v.isLt),
      fun r hr => s.reg_putFld_ne hr _ _ _⟩

/-! ### Fetches (R199, R201, R203, R211) -/

theorem State.ringTake_leaves {s : State} {k : Nat} (h : s.ringHead k ≠ s.ringTail k) (p : Packet) :
    ∃ fe, fe.pkt = p ∧ fe.err = none ∧ (s.ringTake k p false).ringHead k = (s.ringHead k + 1) % 2 ^ 32 ∧
      (s.ringTake k p false).ringTail k = s.ringTail k ∧ ((s.ringTake k p false).ring k).buf = (s.ring k).buf ++ [fe] ∧
      ((s.ringTake k p false).ring k).reserved = (s.ring k).reserved + 1 := by
  generalize hq : ({ s.ring k with
    buf := (s.ring k).buf ++ [⟨p, 0, p.seq = BitVec.ofNat 32 (s.ringHead k + 1), BitVec.ofNat 32 (s.ringHead k + 1), none⟩]
    reserved := (s.ring k).reserved + 1 } : RingRun) = q
  have htail : ((s.putRing k q).putFld (.ringHead k) 0 32 (s.ringHead k + 1)).ringTail k = s.ringTail k :=
    State.rfld_putFld_ne _ _ _ _ _ _ _ _ (.inl (by simp))
  have hhead : ((s.putRing k q).putFld (.ringHead k) 0 32 (s.ringHead k + 1)).ringHead k = (s.ringHead k + 1) % 2 ^ 32 :=
    State.rfld_putFld_self _ _ _ _ _ (by decide)
  have hring : ((s.putRing k q).putFld (.ringHead k) 0 32 (s.ringHead k + 1)).ring k = q := State.ring_putRing_self s k q
  have htake : s.ringTake k p false =
      (let t := (s.putRing k q).putFld (.ringHead k) 0 32 (s.ringHead k + 1)
       let t := if p.seq = BitVec.ofNat 32 (s.ringHead k + 1) then t else t.bump (.ringSt k) 32 16
       if s.ringHead k = t.ringTail k then t.putFld (.ringDb k) 0 32 (s.ringHead k + 1) else t) := by
    rw [← hq]
    simp [State.ringTake]
  generalize (s.putRing k q).putFld (.ringHead k) 0 32 (s.ringHead k + 1) = t at htail hhead hring htake
  have hbump (r : Reg) (hr : r ≠ .ringSt k) : (if p.seq = BitVec.ofNat 32 (s.ringHead k + 1) then t else t.bump (.ringSt k) 32 16).reg r =
      t.reg r := by
    split
    · rfl
    · exact t.reg_bump_ne hr 32 16 1
  have hbumpRing : (if p.seq = BitVec.ofNat 32 (s.ringHead k + 1) then t else t.bump (.ringSt k) 32 16).ring k = t.ring k := by
    split
    · rfl
    · simp [State.ring]
  have htail' : (if p.seq = BitVec.ofNat 32 (s.ringHead k + 1) then t else t.bump (.ringSt k) 32 16).ringTail k = s.ringTail k :=
    (congrArg (fld · 0 32) (hbump (.ringDb k) (by simp))).trans htail
  simp only [htail', if_neg h] at htake
  refine ⟨⟨p, 0, p.seq = BitVec.ofNat 32 (s.ringHead k + 1), BitVec.ofNat 32 (s.ringHead k + 1), none⟩, rfl, rfl, ?_, ?_, ?_, ?_⟩
  · rw [htake, State.ringHead, State.rfld, hbump _ (by simp)]
    exact hhead
  · rw [htake, htail']
  · rw [htake, hbumpRing, hring, ← hq]
  · rw [htake, hbumpRing, hring, ← hq]

theorem State.OnlyBursts.rfld {s t : State} (h : s.OnlyBursts t) {r : Reg} (hr : ∀ b k, r ≠ .trnArbSt b k) (lo n : Nat) :
    t.rfld r lo n = s.rfld r lo n := congrArg (fld · lo n) (h.2 r hr)

theorem State.OnlyBursts.ring {s t : State} (h : s.OnlyBursts t) (k : Nat) : t.ring k = s.ring k :=
  (congrArg (fun x : State => x.ring k) h.1 :)

theorem State.OnlyBursts.list? {s t : State} (h : s.OnlyBursts t) (b k : Nat) : t.list? b k = s.list? b k :=
  (congrArg (fun x : State => x.list? b k) h.1 :)

theorem State.OnlyBursts.same {s t : State} (h : s.OnlyBursts t) : s.SameStores t :=
  ⟨(congrArg State.mem h.1 :), (congrArg State.memChk h.1 :), (congrArg State.desc h.1 :), (congrArg State.gauge h.1 :),
    (congrArg State.stack h.1 :)⟩

/-- Bursts of its own leave a ring as fetchable as it was. -/
theorem State.OnlyBursts.ringFetchable {s t : State} (h : s.OnlyBursts t) (k : Nat) : t.ringFetchable k = s.ringFetchable k := by
  have hactive : t.active = s.active := (congrArg State.active h.1 :)
  have hsite : t.site = s.site := h.rfld (by simp) 0 4
  have hstate : t.ringState k = s.ringState k := h.rfld (by simp) 0 4
  have hused : t.rplUsed k = s.rplUsed k := by
    simp only [State.rplUsed, h.rfld (r := .ringRtail k) (by simp), h.rfld (r := .ringRhead k) (by simp)]
  have hentries : t.rplEntries k = s.rplEntries k := congrArg (2 ^ ·) (h.rfld (by simp) 40 4)
  have hreserved : t.rplReserved k = s.rplReserved k := congrArg RingRun.reserved (h.ring k)
  have hfree : t.rplFree k = s.rplFree k := by
    rw [State.rplFree, hused, hreserved, hentries, State.rplFree]
  simp only [State.ringFetchable, hsite, hstate, hactive, hfree, h.ring]

/-- The word of the slot that HEAD selects, fetched (R199, R201). -/
theorem State.fetchRing_plain {u : State} {k : Nat} (hfetch : u.ringFetchable k = true) (hne : u.ringHead k ≠ u.ringTail k)
    (hplain : u.Plain (u.rfld (.ringCmd k) 48 8) (u.slotWord k false)) :
    u.fetchRing k = u.ringTake k (Packet.ofBytes (u.bytesOf (u.rfld (.ringCmd k) 48 8) (u.slotWord k false))) false := by
  have hal : (u.rfld (.ringCmd k) 0 18 * 256 + u.ringHead k % 2 ^ u.rfld (.ringCmd k) 40 4 * 64) % 64 = 0 := by omega
  have hslot : u.slotWord k false = (u.rfld (.ringCmd k) 0 18 * 256 + u.ringHead k % 2 ^ u.rfld (.ringCmd k) 40 4 * 64) / 64 := rfl
  rw [hslot] at hplain ⊢
  rw [State.fetchRing, if_pos ⟨hfetch, hne⟩]
  simp only [State.readRange_word hplain hal]

/-- Bursts of its own leave a list as fetchable as it was, at its place. -/
theorem State.OnlyBursts.listFetchable {s t : State} (h : s.OnlyBursts t) (l : ListRun) :
    t.listFetchable l = s.listFetchable l ∧ t.listPlace l = s.listPlace l := by
  have hactive : t.active = s.active := (congrArg State.active h.1 :)
  have hcfg : t.cfg = s.cfg := (congrArg State.cfg h.1 :)
  have hsite : t.site = s.site := h.rfld (by simp) 0 4
  have hctx (c : Nat) : t.ctx c = s.ctx c := (congrArg (fun x : State => x.ctx c) h.1 :)
  have hlevees (b : Nat) : t.levees b = s.levees b := by
    simp only [State.levees, h.2 (.bsnLeveeA b _) (by simp), h.2 (.bsnLeveeB b _) (by simp)]
  have hlevee (c b off n : Nat) : t.bytesInLevee c b off n = s.bytesInLevee c b off n := by
    simp only [State.bytesInLevee, State.inLevee, hlevees]
  refine ⟨by simp only [State.listFetchable, hactive, hsite, hctx], ?_⟩
  rw [State.listPlace, hcfg, hlevee, State.listPlace]

/-- The word at a list's offset, fetched (R211). -/
theorem State.fetchList_plain {u : State} {b k : Nat} {l : ListRun} (hl : u.list? b k = some l) (hfetch : u.listFetchable l = true)
    (herr : l.buf.any (·.err.isSome) = false) (hplace : u.listPlace l = none) (hplain : u.Plain b (l.pc / 64)) (hal : l.pc % 64 = 0) :
    u.fetchList b k = u.listTake l (Packet.ofBytes (u.bytesOf b (l.pc / 64))) none := by
  simp only [State.fetchList, hl, hfetch, herr, hplace, Bool.not_true, Bool.false_eq_true, or_self, if_false,
    State.readRange_word hplain hal]

/-! ### Replies (R202, R205) -/

/-- A reply written lands in its slot, and RTAIL advances. -/
theorem State.writeReply_lands (v : State) (k : Nat) (rp : Reply) : v.ReplyLands (v.writeReply k rp) k rp := by
  refine ⟨State.rfld_putFld_self _ _ _ _ _ (by decide), ?_⟩
  rintro b off at0 rfl rfl hplain rfl
  generalize hrp : ({ rp with cycles := v.cyclesFor k rp.cycles } : Reply).bytes
    (decide (v.rfld (.ringRtail k) 0 32 / v.rplEntries k % 2 = 0)) = bs
  have hlen : bs.length = 32 := by rw [← hrp]; simp [Reply.bytes, leBytes_length]
  obtain ⟨hmem, hdesc, hgauge⟩ := State.writeRange_plain hplain (bs := bs) (by omega) (by omega) ⟨3, ditchTurnout⟩
  have hwrite : v.writeReply k rp = (v.writeRange (v.rfld (.ringCmd k) 48 8)
      (v.rfld (.ringRpl k) 0 18 * 256 + v.rfld (.ringRtail k) 0 32 % v.rplEntries k * 32) bs ⟨3, ditchTurnout⟩).putFld
        (.ringRtail k) 0 32 (v.rfld (.ringRtail k) 0 32 + 1) := by
    rw [← hrp]
    rfl
  rw [hwrite]
  refine ⟨fun i hi => ?_, fun j hj => ?_, hdesc, hgauge⟩
  · refine (hmem _).trans ?_
    rw [if_pos (by omega)]
    congr 1
    omega
  · refine (hmem j).trans (if_neg ?_)
    rwa [hlen]

theorem State.writeReply_rest (v : State) (k : Nat) (rp : Reply) :
    (∀ j, (v.writeReply k rp).ring j = v.ring j) ∧ (v.writeReply k rp).handed = v.handed := by
  have honly : v.OnlyMemory (v.writeReply k rp) := (v.writeRange_memory _ _ _ _).trans (State.putFld_memory _ _ _ _ _)
  exact ⟨fun j => (congrArg (fun x : State => x.ring j) honly :), (congrArg State.handed honly :)⟩

/-- A reply's beat leaves the packets in Rosog's hands as they are. -/
theorem State.handed_replyBeat (s : State) (k : Nat) : (s.replyBeat k).1.handed = s.handed := by
  have hburst : (s.beatFor (s.rfld (.ringCmd k) 48 8) (.fetch (.ring k)) .write (s.slotWord k true) 1).1.handed = s.handed :=
    (congrArg State.handed (s.beatFor_bursts _ (.fetch (.ring k)) .write _ 1 nofun).1 :)
  unfold State.replyBeat
  split
  next t ready h =>
  rw [h] at hburst
  dsimp only
  split
  · exact (congrArg State.handed t.landBeats_memory :).trans hburst
  · exact hburst

/-- Settles O19. -/
theorem ringsMove : Obligations.RingsMove := by
  unfold Obligations.RingsMove
  refine ⟨fun s who k v hq hk hstate => ⟨fun hm => ?doorbell, fun hm => ?rhead⟩,
    fun s => ⟨fun k b w u hfetch hne hb hw hbeat hplain => ?fetch, fun k b u hfetch hne hb hbeat => ?noBeat,
      fun b k l u hl hfetch herr => ⟨fun st hplace => ?badPlace, fun hplace hbeat hplain hal => ?listFetch⟩⟩,
    fun s v => ⟨fun h k hfind hsrc hbeat => ?accepted, fun k rp rest hdue hbeat hwaiting => ?reply, fun k hdue hbeat => ?noReplyBeat⟩⟩
  case doorbell =>
    obtain ⟨hA, hrest, hC⟩ := hq
    obtain ⟨hflights, hleaves⟩ := State.doorbell_leaves hstate v
    refine ⟨_, ?_, hleaves⟩
    have hk' : k % 9 = k := Nat.mod_eq_of_lt hk
    simp only [exec, execDoorbellWrite, hk']
    rw [hm.siteStore hA hC true (leBytes_length 4 _)]
    simp only [State.writeReg, Reg.basin?, Bool.false_eq_true, if_false, if_true, fld_leBytes, hrest.runReady hflights]
    rfl
  case rhead =>
    obtain ⟨hA, hrest, hC⟩ := hq
    obtain ⟨hflights, hleaves⟩ := State.consumed_leaves hstate v
    refine ⟨_, ?_, hleaves⟩
    have hk' : k % 9 = k := Nat.mod_eq_of_lt hk
    simp only [exec, execRheadWrite, hk']
    rw [hm.siteStore hA hC true (leBytes_length 4 _)]
    simp only [State.writeReg, Reg.basin?, Bool.false_eq_true, if_false, if_true, fld_leBytes, hrest.runReady hflights]
    rfl
  case fetch =>
    have hslot : s.slotWord k false = w := hw.symm
    rw [← hslot] at hbeat hplain
    rw [← hslot]
    subst hb
    have honly : s.OnlyBursts u := by
      have := s.beatFor_bursts (s.rfld (.ringCmd k) 48 8) (.fetch (.ring k)) .read (s.slotWord k false) 1 nofun
      rwa [hbeat] at this
    have hcmd (lo n : Nat) : u.rfld (.ringCmd k) lo n = s.rfld (.ringCmd k) lo n := honly.rfld (by simp) lo n
    have hhead : u.ringHead k = s.ringHead k := honly.rfld (by simp) 0 32
    have htail : u.ringTail k = s.ringTail k := honly.rfld (by simp) 0 32
    have hword : u.slotWord k false = s.slotWord k false := by
      simp only [State.slotWord, hcmd, hhead, Bool.false_eq_true, if_false]
    have hfetch' := State.fetchRing_plain (u := u) (k := k) (by rw [honly.ringFetchable, hfetch]) (by rw [hhead, htail]; exact hne)
      (by rw [hcmd, hword]; exact hplain)
    rw [hcmd, hword] at hfetch'
    obtain ⟨fe, hpkt, herr, hhead', htail', hbuf, hres⟩ := State.ringTake_leaves (s := u) (k := k) (by rw [hhead, htail]; exact hne)
      (Packet.ofBytes (u.bytesOf (s.rfld (.ringCmd k) 48 8) (s.slotWord k false)))
    refine ⟨u.fetchRing k, fe, ?_, hpkt, herr, ?_⟩
    · simp only [exec, execRingFetch, hfetch, hne, ne_eq, not_false_eq_true, and_self, if_true, hbeat]
      rfl
    · rw [hfetch', hhead', htail', hbuf, hres, hhead, htail, honly.ring]
      exact ⟨rfl, rfl, rfl, rfl, ((u.ringTake_accounts k _ false).mem).trans honly.same.1⟩
  case noBeat =>
    subst hb
    have honly := s.beatFor_bursts (s.rfld (.ringCmd k) 48 8) (.fetch (.ring k)) .read (s.slotWord k false) 1 nofun
    rw [hbeat] at honly
    refine ⟨?_, honly⟩
    simp only [exec, execRingFetch, hfetch, hne, ne_eq, not_false_eq_true, and_self, if_true, hbeat, Bool.false_eq_true, if_false]
    rfl
  case badPlace =>
    have hnone : s.listReads b k = none := by
      simp [State.listReads, hl, hplace]
    have hput : s.fetchList b k = s.listTake l Packet.zero (some st) := by
      simp only [State.fetchList, hl, hfetch, herr, hplace, Bool.not_true, Bool.false_eq_true, or_self, if_false]
    refine ⟨_, ⟨Packet.zero, l.pc, true, 0, some st⟩, ?_, rfl, rfl, State.list?_putList_self hl rfl rfl, (s.putList_accounts _).same⟩
    simp only [exec, execListFetch, hnone, hput]
    rfl
  case listFetch =>
    have hreads : s.listReads b k = some (l.pc / 64) := by
      simp only [State.listReads, hl, hfetch, herr, hplace, Bool.not_false, Option.isNone_none, Bool.and_self, if_true]
    have honly := s.beatFor_bursts b (.fetch (.list b k)) .read (l.pc / 64) 1 nofun
    rw [hbeat] at honly
    obtain ⟨hfetch', hplace'⟩ := honly.listFetchable l
    have hl' := (honly.list? b k).trans hl
    have htake := State.fetchList_plain hl' (hfetch'.trans hfetch) herr (hplace'.trans hplace) hplain hal
    refine ⟨u.fetchList b k, ⟨Packet.ofBytes (u.bytesOf b (l.pc / 64)), l.pc, true, 0, none⟩, ?_, rfl, rfl, rfl, ?_, ?_⟩
    · simp only [exec, execListFetch, hreads, hbeat, if_true]
      rfl
    · rw [htake]
      exact State.list?_putList_self hl' rfl rfl
    · rw [htake]
      exact honly.same.trans (u.putList_accounts _).same
  case accepted =>
    obtain ⟨hrings, hhanded⟩ := v.writeReply_rest k (v.acceptedReply h)
    have hlands := v.writeReply_lands k (v.acceptedReply h)
    have hkept : v.handed = s.handed := by
      have := s.handed_replyBeat k
      rwa [hbeat] at this
    have hmem : h ∈ v.handed := hkept ▸ List.mem_of_find?_eq_some hfind
    generalize hw : v.writeReply k (v.acceptedReply h) = w at hrings hhanded hlands
    refine ⟨{ w with handed := w.handed.map fun (x : Handed) => if x = h then { x with accepted := true } else x }.holdSrc (.ring k) false,
      ?_, hlands, ?_, ?_, ?_⟩
    · simp only [exec, execAcceptedReply, hfind, hsrc, hbeat, Bool.not_true, Bool.false_eq_true, if_false, hw]
      rfl
    · simp [State.holdSrc]
    · refine List.mem_map.2 ⟨h, by rw [hhanded]; exact hmem, if_pos rfl⟩
    · show (w.handed.map _).length = _
      rw [List.length_map, hhanded, hkept]
  case reply =>
    have hput := (v.putRing k { v.ring k with waiting := rest, reserved := (v.ring k).reserved - 1 }).writeReply_lands k rp
    obtain ⟨hrings, -⟩ := (v.putRing k { v.ring k with waiting := rest, reserved := (v.ring k).reserved - 1 }).writeReply_rest k rp
    refine ⟨v.replyOut k, ?_, ?_, ?_, ?_⟩
    · simp only [exec, execReplyWrite, hdue, hbeat, if_true]
      rfl
    · simp only [State.replyOut, hwaiting]
      exact hput
    · simp only [State.replyOut, hwaiting, hrings, State.ring_putRing_self]
    · simp only [State.replyOut, hwaiting, hrings, State.ring_putRing_self]
  case noReplyBeat =>
    have honly := s.beatFor_bursts (s.rfld (.ringCmd k) 48 8) (.fetch (.ring k)) .write (s.slotWord k true) 1 nofun
    have hv : (s.beatFor (s.rfld (.ringCmd k) 48 8) (.fetch (.ring k)) .write (s.slotWord k true) 1).1 = v := by
      unfold State.replyBeat at hbeat
      split at hbeat
      next t ready h =>
      obtain ⟨hv, rfl⟩ := Prod.mk.inj hbeat
      exact (congrArg Prod.fst h).trans hv
    refine ⟨?_, hv ▸ honly⟩
    simp only [exec, execReplyWrite, hdue, hbeat, if_true, Bool.false_eq_true, if_false]
    rfl

end Sys2Proof.Machine
end

section
set_option Elab.async false -- the whole text is compiled in one process, within a fixed memory
/-! SUPPORT. What recomputing the pools leaves (R188), the culverts' exchanges ended where no packet is at work, and the fence
(R351, R352, R429). -/

namespace Sys2Proof.Machine

/-! ### Recomputing the pools -/

/-- From `s` to `t` rights alone are suspended or restored: contexts' records, the regulators and the rights' registers may have
changed, nothing else (R188). -/
def State.OnlyRights (s t : State) : Prop :=
  { t with ctxs := s.ctxs, regs := s.regs, regulators := s.regulators } = s ∧
    ∀ r, (∀ b k, r ≠ .trnLatCfg b k) → t.reg r = s.reg r

theorem State.OnlyRights.refl (s : State) : s.OnlyRights s := ⟨rfl, fun _ _ => rfl⟩

theorem State.OnlyRights.trans {s t u : State} (h : s.OnlyRights t) (k : t.OnlyRights u) : s.OnlyRights u := by
  refine ⟨?_, fun r hr => (k.2 r hr).trans (h.2 r hr)⟩
  have e := congrArg (fun x : State => { x with ctxs := s.ctxs, regs := s.regs, regulators := s.regulators }) k.1
  exact e.trans h.1

theorem State.OnlyRights.ite {s t u : State} {c : Prop} [Decidable c] (ht : s.OnlyRights t) (hu : s.OnlyRights u) :
    s.OnlyRights (if c then t else u) := by
  split
  · exact ht
  · exact hu

section
variable (s : State)

theorem State.ctxs_rights (x : List (Nat × CtxRec)) : s.OnlyRights { s with ctxs := x } := ⟨rfl, fun _ _ => rfl⟩

theorem State.startAfresh_rights (b right : Nat) : s.OnlyRights (s.startAfresh b right) := ⟨rfl, fun _ _ => rfl⟩

theorem State.latCfg_rights (b right lo n v : Nat) : s.OnlyRights (s.putFld (.trnLatCfg b right) lo n v) :=
  ⟨rfl, fun _ hr => s.reg_putFld_ne (hr b right) lo n v⟩

theorem State.setSuspended_rights (b right : Nat) (v : Bool) : s.OnlyRights (s.setSuspended b right v) :=
  .ite (s.latCfg_rights b right 62 1 _) ((s.latCfg_rights b right 62 1 _).trans (State.startAfresh_rights _ b right))

theorem State.markSuspended_rights (c right : Nat) (v : Bool) : s.OnlyRights (s.markSuspended c right v) :=
  foldl_keeps s.OnlyRights _ (fun u b hu => hu.trans (u.setSuspended_rights b right v)) _ _ (s.ctxs_rights _)

theorem State.suspendWhile_rights (c : Nat) (l : List Admission) : s.OnlyRights (State.suspendWhile c l s) := by
  induction l generalizing s with
  | nil => exact .refl s
  | cons a l ih => exact .ite (.refl s) ((s.markSuspended_rights c a.right true).trans (ih _))

theorem State.restoreWhile_rights (c : Nat) (l : List Admission) : s.OnlyRights (State.restoreWhile c l s) := by
  induction l generalizing s with
  | nil => exact .refl s
  | cons a l ih => exact .ite ((s.markSuspended_rights c a.right false).trans (ih _)) (.refl s)

/-- Recomputing the pools suspends and restores rights, and does nothing else (R188). -/
theorem State.recompute_rights : s.OnlyRights s.recompute := by
  unfold State.recompute
  dsimp only
  split
  · exact s.ctxs_rights _
  · exact (s.ctxs_rights _).trans (.ite
      (.trans (.ite (.refl _) (State.suspendWhile_rights _ _ _)) (State.restoreWhile_rights _ _ _))
      (.ite (.refl _) (State.suspendWhile_rights _ _ _)))

end

section
variable {s t : State} (h : s.OnlyRights t)
include h

theorem State.OnlyRights.lasting : t.lasting = s.lasting := (congrArg State.lasting h.1 :)

theorem State.OnlyRights.same : s.SameStores t := State.sameStores_of_lasting h.lasting

theorem State.OnlyRights.start : t.start = s.start := (congrArg State.start h.1 :)

theorem State.OnlyRights.power : t.power = s.power := (congrArg State.power h.1 :)

theorem State.OnlyRights.cistern : t.cistern = s.cistern := (congrArg State.cistern h.1 :)

theorem State.OnlyRights.flights : t.flights = s.flights := (congrArg State.flights h.1 :)

theorem State.OnlyRights.culverts : t.culverts = s.culverts := (congrArg State.culverts h.1 :)

theorem State.OnlyRights.culvert (c : Nat) : t.culvert c = s.culvert c := congrArg (kget · Culvert.idle c) h.culverts

theorem State.OnlyRights.culState (c : Nat) : t.culState c = s.culState c := congrArg (fld · 0 4) (h.2 (.culSt c) (by simp))

theorem State.OnlyRights.exchangesDone : t.exchangesDone = s.exchangesDone := by
  simp only [State.exchangesDone, h.culvert, h.flights]

theorem State.OnlyRights.rfld (r : Reg) (hr : ∀ b k, r ≠ .trnLatCfg b k) (lo n : Nat) : t.rfld r lo n = s.rfld r lo n :=
  congrArg (fld · lo n) (h.2 r hr)

end

/-! ### Exchanges ended where no packet is at work -/

section
variable {s : State}

theorem State.flight?_of_none (h : s.flights = []) (i : Nat) : s.flight? i = none := by
  simp [State.flight?, h]

theorem State.endExchange_eq (h : s.flights = []) (c : Nat) (e : Exchange) (st : Status) :
    s.endExchange c e st =
      s.putCulvert c { s.culvert c with exchanges := (s.culvert c).exchanges.filter (·.xtag ≠ e.xtag) } := by
  have hf : (s.putCulvert c { s.culvert c with exchanges := (s.culvert c).exchanges.filter (·.xtag ≠ e.xtag) }).flight?
      e.flight = none := State.flight?_of_none h _
  simp only [State.endExchange, State.tileAnswered, hf]

end

/-- From `s` to `t` culverts' exchanges alone have ended. -/
structure State.OnlyEnds (s t : State) : Prop where
  rest : { t with culverts := s.culverts } = s
  kept : ∀ c, ∀ e ∈ (t.culvert c).exchanges, e ∈ (s.culvert c).exchanges

theorem State.OnlyEnds.refl (s : State) : s.OnlyEnds s := ⟨rfl, fun _ _ h => h⟩

theorem State.OnlyEnds.trans {s t u : State} (h : s.OnlyEnds t) (k : t.OnlyEnds u) : s.OnlyEnds u :=
  ⟨(congrArg (fun x : State => { x with culverts := s.culverts }) k.rest).trans h.rest, fun c e he => h.kept c e (k.kept c e he)⟩

section
variable {s t : State} (h : s.OnlyEnds t)
include h

theorem State.OnlyEnds.flights : t.flights = s.flights := (congrArg State.flights h.rest :)

theorem State.OnlyEnds.start : t.start = s.start := (congrArg State.start h.rest :)

theorem State.OnlyEnds.reg (r : Reg) : t.reg r = s.reg r := (congrArg (State.reg · r) h.rest :)

theorem State.OnlyEnds.culState (c : Nat) : t.culState c = s.culState c := congrArg (fld · 0 4) (h.reg (.culSt c))

theorem State.OnlyEnds.same : s.SameStores t :=
  State.sameStores_of_lasting (congrArg State.lasting h.rest :)

end

theorem State.endExchange_ends {s : State} (h : s.flights = []) (c : Nat) (e : Exchange) (st : Status) :
    s.OnlyEnds (s.endExchange c e st) := by
  rw [State.endExchange_eq h]
  refine ⟨rfl, fun c' x hx => ?_⟩
  by_cases hc : c' = c
  · subst hc
    rw [State.culvert_putCulvert_self] at hx
    exact (List.mem_filter.1 hx).1
  · rwa [State.culvert_putCulvert_ne _ hc] at hx

/-- Exchanges of a list end one after another. -/
theorem State.endAll_ends {s : State} (h : s.flights = []) (c : Nat) (l : List Exchange) (st : Status) :
    s.OnlyEnds (l.foldl (fun (t : State) e => t.endExchange c e st) s) := by
  induction l generalizing s with
  | nil => exact .refl s
  | cons e l ih =>
    have he := State.endExchange_ends h c e st
    exact he.trans (ih (he.flights.trans h))

/-- None of those of its list is left. -/
theorem State.endAll_gone {s : State} (h : s.flights = []) (c : Nat) (l : List Exchange) (st : Status) :
    ∀ e ∈ ((l.foldl (fun (t : State) e => t.endExchange c e st) s).culvert c).exchanges, ∀ x ∈ l, e.xtag ≠ x.xtag := by
  induction l generalizing s with
  | nil => simp
  | cons y l ih =>
    have hy := State.endExchange_ends h c y st
    have hrest := State.endAll_ends (hy.flights.trans h) c l st
    intro e he x hx
    rcases List.mem_cons.1 hx with rfl | hx
    · have hin := hrest.kept c e he
      rw [State.endExchange_eq h, State.culvert_putCulvert_self] at hin
      simpa using (List.mem_filter.1 hin).2
    · exact ih (hy.flights.trans h) e he x hx

theorem State.dropExchanges_ends {s : State} (h : s.flights = []) (c : Nat) : s.OnlyEnds (s.dropExchanges c) :=
  State.endAll_ends h c _ _

theorem State.dropExchanges_gone {s : State} (h : s.flights = []) (c : Nat) :
    ((s.dropExchanges c).culvert c).exchanges = [] := by
  refine List.eq_nil_iff_forall_not_mem.2 fun e he => ?_
  exact State.endAll_gone h c _ _ e he e ((State.dropExchanges_ends h c).kept c e he) rfl

theorem State.dropUnsent_ends {s : State} (h : s.flights = []) (c : Nat) : s.OnlyEnds (s.dropUnsent c) :=
  State.endAll_ends h c _ _

/-- Culvert by culvert, what ends exchanges of one culvert ends exchanges. -/
theorem State.OnlyEnds.foldl {f : State → Nat → State} (hf : ∀ (s : State) c, s.flights = [] → s.OnlyEnds (f s c)) (l : List Nat)
    {s : State} (h : s.flights = []) : s.OnlyEnds (l.foldl f s) := by
  induction l generalizing s with
  | nil => exact .refl s
  | cons c l ih => exact (hf s c h).trans (ih ((hf s c h).flights.trans h))

theorem State.dropAll_gone (l : List Nat) {s : State} (h : s.flights = []) :
    ∀ c ∈ l, ((l.foldl State.dropExchanges s).culvert c).exchanges = [] := by
  induction l generalizing s with
  | nil => simp
  | cons a l ih =>
    have ha := State.dropExchanges_ends h a
    intro c hc
    rcases List.mem_cons.1 hc with rfl | hc
    · refine List.eq_nil_iff_forall_not_mem.2 fun e he => ?_
      have hin := (State.OnlyEnds.foldl (fun s c hs => State.dropExchanges_ends hs c) l (ha.flights.trans h)).kept c e he
      rw [State.dropExchanges_gone h c] at hin
      exact List.not_mem_nil hin
    · exact ih (ha.flights.trans h) c hc

/-! ### Culverts fenced and trained -/

/-- Culvert `c`, unless it has failed, takes the record `v` and STATE `x`. -/
def State.culvertTo (v : State → Nat → Culvert) (x : Nat) (s : State) (c : Nat) : State :=
  if s.culState c = culFailed then s else (s.putCulvert c (v s c)).putFld (.culSt c) 0 4 x

section
variable (v : State → Nat → Culvert) (x : Nat)

theorem State.culvertTo_rest (s : State) (c : Nat) :
    (s.culvertTo v x c).lasting = s.lasting ∧ (s.culvertTo v x c).start = s.start ∧ (s.culvertTo v x c).flights = s.flights := by
  unfold State.culvertTo
  split
  · exact ⟨rfl, rfl, rfl⟩
  · exact ⟨rfl, rfl, rfl⟩

theorem State.culvertTo_reg (s : State) (c : Nat) {r : Reg} (hr : r ≠ .culSt c) : (s.culvertTo v x c).reg r = s.reg r := by
  unfold State.culvertTo
  split
  · rfl
  · exact State.reg_putFld_ne _ hr 0 4 x

theorem State.culState_culvertTo (hx : x < 16) (s : State) (c : Nat) :
    (s.culvertTo v x c).culState c = if s.culState c = culFailed then culFailed else x := by
  unfold State.culvertTo
  split
  · assumption
  · exact (State.rfld_putFld_self _ (.culSt c) 0 4 x (by decide)).trans (Nat.mod_eq_of_lt hx)

/-- The four culverts, one after another. -/
theorem State.culverts_to (s : State) (l : List Nat) (hl : l.Nodup) (hx : x < 16) :
    (l.foldl (State.culvertTo v x) s).lasting = s.lasting ∧ (l.foldl (State.culvertTo v x) s).start = s.start ∧
      (l.foldl (State.culvertTo v x) s).flights = s.flights ∧
      (∀ r, (∀ c, r ≠ .culSt c) → (l.foldl (State.culvertTo v x) s).reg r = s.reg r) ∧
      ∀ c, (l.foldl (State.culvertTo v x) s).culState c =
        if c ∈ l then (if s.culState c = culFailed then culFailed else x) else s.culState c := by
  induction l generalizing s with
  | nil => simp
  | cons a l ih =>
    obtain ⟨hal, hl⟩ := List.nodup_cons.1 hl
    obtain ⟨h1, h2, h3, h4, h5⟩ := ih (s.culvertTo v x a) hl
    obtain ⟨k1, k2, k3⟩ := s.culvertTo_rest v x a
    refine ⟨h1.trans k1, h2.trans k2, h3.trans k3, fun r hr => (h4 r hr).trans (s.culvertTo_reg v x a (hr a)), fun c => ?_⟩
    rw [List.foldl_cons, h5 c]
    by_cases hc : c = a
    · subst hc
      simp [hal, s.culState_culvertTo v x hx c]
    · have hk : (s.culvertTo v x a).culState c = s.culState c :=
        congrArg (fld · 0 4) (s.culvertTo_reg v x a (by simp [hc]))
      simp [hc, hk]

end

/-- A working culvert's record as it is fenced: what it has granted is owed (R351). -/
def fencedRecord (s : State) (c : Nat) : Culvert := { s.culvert c with owed := s.creditsOut c }

/-- A working culvert's record as it trains (R413). -/
def trainingRecord (s : State) (c : Nat) : Culvert := { s.culvert c with credits := 0, owed := 0 }

theorem State.trainingDone_rest (s : State) : s.trainingDone.lasting = s.lasting ∧ (∀ r, s.trainingDone.reg r = s.reg r) ∧
    s.trainingDone.start.fenceReq = s.start.fenceReq ∧ s.trainingDone.culverts = s.culverts ∧
    s.trainingDone.start.fencing = s.start.fencing := by
  unfold State.trainingDone
  split
  · exact ⟨rfl, fun _ => rfl, rfl, rfl, rfl⟩
  · exact ⟨rfl, fun _ => rfl, rfl, rfl, rfl⟩

/-- Working culverts train (R351). -/
theorem State.trainCulverts_trains (s : State) : s.SameStores s.trainCulverts ∧
    s.trainCulverts.start.fenceReq = s.start.fenceReq ∧
    ∀ c, c < 4 → s.trainCulverts.culState c = if s.culState c = culFailed then culFailed else culTraining := by
  obtain ⟨h1, h2, -, -, h5⟩ := State.culverts_to trainingRecord culTraining s (List.range 4) List.nodup_range (by decide)
  obtain ⟨k1, k2, k3, -, -⟩ := State.trainingDone_rest ((List.range 4).foldl (State.culvertTo trainingRecord culTraining) s)
  refine ⟨State.sameStores_of_lasting (k1.trans h1), k3.trans (congrArg Start.fenceReq h2), fun c hc => ?_⟩
  have hk := (congrArg (fld · 0 4) (k2 (.culSt c))).trans (h5 c)
  rwa [if_pos (List.mem_range.2 hc)] at hk

/-- The culverts as they are fenced, what has no credit ended. -/
def State.fencing (s : State) : State :=
  (List.range 4).foldl State.dropUnsent ((List.range 4).foldl (State.culvertTo fencedRecord culFenced) s)

/-- The fencing begins; it is over at once where the fence stands and no exchange remains (R352). -/
def State.fenceBegun (s : State) : State := { s with start := { s.start with
  fencing := !s.start.fenceAck || !s.exchangesDone, noReturn := s.start.noReturn || decide (s.site = stDetaching) } }

theorem State.fence_eq (s : State) : s.fence = s.fencing.fenceBegun.recompute := by
  have hf : (fun (s : State) c => if s.culState c = culFailed then s
      else (s.putCulvert c { s.culvert c with owed := s.creditsOut c }).putFld (.culSt c) 0 4 culFenced) =
      State.culvertTo fencedRecord culFenced := by
    funext s c
    rfl
  rw [State.fencing, ← hf, State.fenceBegun, State.fence]

theorem State.fenceBegun_rest (s : State) : s.fenceBegun.lasting = s.lasting ∧ s.fenceBegun.start.fenceReq = s.start.fenceReq ∧
    s.fenceBegun.start.fencing = (!s.start.fenceAck || !s.exchangesDone) ∧ s.fenceBegun.exchangesDone = s.exchangesDone ∧
    ∀ c, s.fenceBegun.culState c = s.culState c := ⟨rfl, rfl, rfl, rfl, fun _ => rfl⟩

/-- Every working culvert is fenced, and the fencing is over at once where the fence stands and no exchange remains (R351, R352). -/
theorem State.fence_fences {s : State} (h : s.flights = []) : s.SameStores s.fence ∧ s.fence.start.fenceReq = s.start.fenceReq ∧
    s.fence.start.fencing = (!s.start.fenceAck || !s.fence.exchangesDone) ∧
    ∀ c, c < 4 → s.fence.culState c = if s.culState c = culFailed then culFailed else culFenced := by
  obtain ⟨h1, h2, h3, -, h5⟩ := State.culverts_to fencedRecord culFenced s (List.range 4) List.nodup_range (by decide)
  have hends : ((List.range 4).foldl (State.culvertTo fencedRecord culFenced) s).OnlyEnds s.fencing :=
    State.OnlyEnds.foldl (fun s c hs => State.dropUnsent_ends hs c) _ (h3.trans h)
  have hstart : s.fencing.start = s.start := hends.start.trans h2
  rw [State.fence_eq]
  generalize s.fencing = w at hends hstart
  obtain ⟨k1, k2, k3, k4, k5⟩ := w.fenceBegun_rest
  have hr := State.recompute_rights w.fenceBegun
  refine ⟨((State.sameStores_of_lasting h1).trans (hends.same.trans (State.sameStores_of_lasting k1))).trans hr.same, ?_, ?_,
    fun c hc => ?_⟩
  · rw [hr.start, k2, hstart]
  · rw [hr.start, hr.exchangesDone, k3, k4, hstart]
  · have hk := (hends.culState c).trans (h5 c)
    rwa [hr.culState, k5, ← if_pos (c := c ∈ List.range 4) (List.mem_range.2 hc) (t := if s.culState c = culFailed then culFailed else culFenced) (e := s.culState c)]

/-! ### The time limit (R352) -/

theorem State.runReady_of_none {s : State} (h : s.flights = []) : s.runReady = s := by
  simp [State.runReady, h]

theorem State.killAll_nil {s : State} (h : s.flights = []) : s.killAll [] = s := by
  have hc : (s.culverts.map fun (x : Nat × Culvert) =>
      (x.1, { x.2 with exchanges := x.2.exchanges.filter fun e => e.sent || !([] : List Nat).contains e.flight })) = s.culverts := by
    simp
  have hf : (s.flights.filter fun f => !([] : List Nat).contains f.id) = s.flights := by simp
  have hk : s.killAll [] = ({ s with
      flights := s.flights.filter fun f => !([] : List Nat).contains f.id
      culverts := s.culverts.map fun (x : Nat × Culvert) =>
        (x.1, { x.2 with exchanges := x.2.exchanges.filter fun e => e.sent || !([] : List Nat).contains e.flight }) } :
      State).runReady := rfl
  rw [hk, hc, hf]
  exact State.runReady_of_none h

/-- The arrivals in part of culvert `c` are discarded. -/
def State.emptied (s : State) (c : Nat) : State := s.putCulvert c { s.culvert c with inbox := [], owed := 0 }

theorem State.emptied_rest (l : List Nat) (s : State) :
    (l.foldl State.emptied s).lasting = s.lasting ∧ (l.foldl State.emptied s).start = s.start ∧
      (l.foldl State.emptied s).flights = s.flights := by
  induction l generalizing s with
  | nil => exact ⟨rfl, rfl, rfl⟩
  | cons a l ih => exact ih (s.emptied a)

/-- At the limit the fence is acknowledged and no exchange is left. -/
theorem State.fenceTimeout_drops {s : State} (h : s.flights = []) (hreq : s.start.fenceReq = true) (hfen : s.start.fencing = true) :
    ∃ u, execFenceTimeout s = .next u ∧ u.start.fenceAck = true ∧ u.start.fencing = false ∧ s.SameStores u ∧
      ∀ c, c < 4 → (u.culvert c).exchanges = [] := by
  have hfil : (s.flights.filter fun f => f.arrival.isSome) = [] := by rw [h]; rfl
  obtain ⟨e1, e2, e3⟩ := State.emptied_rest (List.range 4) s
  have hnone := e3.trans h
  have hends := State.OnlyEnds.foldl (fun s c hs => State.dropExchanges_ends hs c) (List.range 4) hnone
  have hgone := State.dropAll_gone (List.range 4) hnone
  have hexec : execFenceTimeout s = .next ((List.range 4).foldl State.dropExchanges ((List.range 4).foldl State.emptied s)).fenced := by
    simp only [execFenceTimeout, hfen, if_true, hfil, State.killAll_nil h]
    rfl
  refine ⟨_, hexec, ?_⟩
  generalize (List.range 4).foldl State.dropExchanges ((List.range 4).foldl State.emptied s) = w at hends hgone
  have hw : w.fenced = { w with start := { w.start with fencing := false, fenceAck := true } } :=
    if_pos ((congrArg Start.fenceReq (hends.start.trans e2)).trans hreq)
  rw [hw]
  exact ⟨rfl, rfl, (State.sameStores_of_lasting e1).trans hends.same, fun c hc => hgone c (List.mem_range.2 hc)⟩

/-- FENCE_REQ_ may be asserted or not. -/
def State.fenceAsked (s : State) (v : Bool) : State := { s with start := { s.start with fenceReq := v } }

theorem State.fenceAsked_rest (s : State) (v : Bool) : (s.fenceAsked v).lasting = s.lasting ∧ (s.fenceAsked v).flights = s.flights ∧
    (s.fenceAsked v).start.fenceReq = v ∧ (s.fenceAsked v).start.fenceAck = s.start.fenceAck ∧
    ∀ c, (s.fenceAsked v).culState c = s.culState c := ⟨rfl, rfl, rfl, rfl, fun _ => rfl⟩

/-- Settles O52: asserted, the fence closes every working culvert; it is acknowledged once no exchange remains, or at the limit;
deasserted, working culverts train. -/
theorem fenceHolds : Obligations.FenceHolds := by
  intro s hrel hfl
  refine ⟨fun hdry hfen => ?_, fun hpwr hack hfen hfallow hdry => ?_, fun hfen hreq => ⟨fun hdone => ?_, fun hdone => ?_, ?_⟩⟩
  · obtain ⟨r1, r2, r3, r4, r5⟩ := s.fenceAsked_rest true
    have hexec : exec .fenceReqAssert s = .next (s.fenceAsked true).fence :=
      congrArg Host.Outcome.next (if_pos (⟨hrel, hdry, by rw [hfen]; rfl⟩ :
        (s.fenceAsked true).start.released = true ∧ (s.fenceAsked true).site ≠ stDry ∧ (!s.start.fencing) = true))
    obtain ⟨k1, k2, k3, k4⟩ := State.fence_fences (r2.trans hfl)
    refine ⟨_, hexec, k2.trans r3, k3.trans (by rw [r4]), (State.sameStores_of_lasting r1).trans k1, fun c hc => ?_⟩
    rw [k4 c hc, r5]
  · obtain ⟨r1, r2, r3, r4, r5⟩ := s.fenceAsked_rest false
    have hexec : exec .fenceReqDeassert s = .next (s.fenceAsked false).trainCulverts := by
      refine congrArg Host.Outcome.next ((if_neg (?_ : ¬ s.start.fencing = true)).trans ?_)
      · rw [hfen]
        decide
      · exact if_pos ⟨hrel, hpwr, hack, hfallow, hdry⟩
    obtain ⟨k1, k2, k3⟩ := (s.fenceAsked false).trainCulverts_trains
    refine ⟨_, hexec, k2.trans r3, (State.sameStores_of_lasting r1).trans k1, fun c hc => ?_⟩
    rw [k3 c hc, r5]
  · have hexec : exec .fenceComplete s = .next s.fenced := congrArg Host.Outcome.next (if_pos ⟨hfen, hdone⟩)
    rw [hexec]
    exact congrArg Host.Outcome.next (if_pos hreq)
  · exact congrArg Host.Outcome.next (if_neg (by simp [hdone]))
  · exact State.fenceTimeout_drops hfl hreq hfen

end Sys2Proof.Machine
end

section
set_option Elab.async false -- the whole text is compiled in one process, within a fixed memory
/-! SUPPORT. The power manager: MARGIN, supply requests, samples, milliseconds, the trip, canaries and the margin's steps
(R315–R317, R331–R335). -/

namespace Sys2Proof.Machine

/-! ### PWR_MARGIN -/

/-- MARGIN_LOW, as `p` has it (R335). -/
def Power.low (p : Power) : Bool := p.lowUntilSettled || p.lowCanary ≠ 0 || p.lowClearAt.isSome || p.outOfTolerance

section
variable (s : State)

theorem State.showMargin_reg {r : Reg} (hr : r ≠ .pwrMargin) : s.showMargin.reg r = s.reg r := by
  unfold State.showMargin
  rw [State.reg_putFld_ne _ hr, State.reg_putFld_ne _ hr]

theorem State.showMargin_rfld {r : Reg} (hr : r ≠ .pwrMargin) (lo n : Nat) : s.showMargin.rfld r lo n = s.rfld r lo n :=
  congrArg (fld · lo n) (s.showMargin_reg hr)

theorem State.showMargin_below {lo n : Nat} (h : lo + n ≤ 62) : s.showMargin.rfld .pwrMargin lo n = s.rfld .pwrMargin lo n := by
  unfold State.showMargin
  rw [State.rfld_putFld_ne _ _ _ _ _ _ _ _ (.inr (.inl h)), State.rfld_putFld_ne _ _ _ _ _ _ _ _ (.inr (.inl (by omega)))]

theorem State.showMargin_keeps : s.showMargin.power = s.power ∧ s.showMargin.start = s.start ∧ s.showMargin.lasting = s.lasting :=
  ⟨rfl, rfl, rfl⟩

theorem bit_of_setFld (x : Word64) {i : Nat} (hi : i < 64) (b : Bool) : bit (setFld x i 1 b.toNat) i = b := by
  rw [bit, getLsbD_setFld _ _ _ _ _ hi]
  cases b <;> simp

theorem State.showMargin_low : bit (s.showMargin.reg .pwrMargin) 63 = s.power.low := by
  unfold State.showMargin
  rw [State.reg_putFld_self, bit_setFld_ne _ _ _ _ _ (.inr (by decide)), State.reg_putFld_self, bit_of_setFld _ (by decide)]
  rfl

theorem State.marginExpire_reg {r : Reg} (hr : r ≠ .pwrMargin) : s.marginExpire.reg r = s.reg r := by
  unfold State.marginExpire
  split
  · split
    · exact State.showMargin_reg _ hr
    · rfl
  · rfl

theorem State.marginExpire_rfld {r : Reg} (hr : r ≠ .pwrMargin) (lo n : Nat) : s.marginExpire.rfld r lo n = s.rfld r lo n :=
  congrArg (fld · lo n) (s.marginExpire_reg hr)

theorem State.marginExpire_power : s.marginExpire.power.samples = s.power.samples ∧ s.marginExpire.power.dMs = s.power.dMs := by
  unfold State.marginExpire
  split
  · split
    · exact ⟨rfl, rfl⟩
    · exact ⟨rfl, rfl⟩
  · exact ⟨rfl, rfl⟩

end

/-! ### Requests of the supply (R316) -/

section
variable {s : State}

/-- The request as it is made, before its alert. -/
def State.askedFor (s : State) (core sram : Nat) : State :=
  { ((s.putFld .pwrVreq 0 8 core).putFld .pwrVreq 8 8 sram).putFld .pwrVreq 63 1 1 with
    power := { s.power with supply := some ⟨s.coreGrant, s.sramGrant, s.now, false⟩ } }

theorem State.askedFor_power (core sram : Nat) : (s.askedFor core sram).power =
    { s.power with supply := some ⟨s.coreGrant, s.sramGrant, s.now, false⟩ } := rfl

theorem State.askedFor_vreq (core sram : Nat) : (s.askedFor core sram).reg .pwrVreq =
    setFld (setFld (setFld (s.reg .pwrVreq) 0 8 core) 8 8 sram) 63 1 1 := by
  show (((s.putFld .pwrVreq 0 8 core).putFld .pwrVreq 8 8 sram).putFld .pwrVreq 63 1 1).reg .pwrVreq = _
  simp

theorem State.askedFor_reg (core sram : Nat) {r : Reg} (hr : r ≠ .pwrVreq) : (s.askedFor core sram).reg r = s.reg r := by
  show (((s.putFld .pwrVreq 0 8 core).putFld .pwrVreq 8 8 sram).putFld .pwrVreq 63 1 1).reg r = _
  simp [hr]

theorem State.requestSupply_eq (core sram : Nat) : s.requestSupply core sram =
    if s.power.supply.isSome = true ∨ core = s.coreReq ∧ sram = s.sramReq then s else (s.askedFor core sram).alert alVreq := rfl

theorem State.alert_power (i : Nat) : (s.alert i).power = s.power := by
  unfold State.alert
  dsimp only
  split <;> rfl

/-- A request that is made: what is asked for, and nothing else of the levels. -/
theorem State.requestSupply_asks {core sram : Nat} (hnone : s.power.supply = none) (hne : ¬ (core = s.coreReq ∧ sram = s.sramReq))
    (hcore : core < 256) (hsram : sram < 256) :
    (s.requestSupply core sram).coreReq = core ∧ (s.requestSupply core sram).sramReq = sram := by
  have hcond : ¬ (s.power.supply.isSome = true ∨ core = s.coreReq ∧ sram = s.sramReq) := by
    rw [hnone]
    simpa using hne
  have hvreq : ((s.askedFor core sram).alert alVreq).reg .pwrVreq = _ :=
    ((s.askedFor core sram).alert_rest alVreq).2.1 .pwrVreq (by simp)
  rw [State.requestSupply_eq, if_neg hcond]
  refine ⟨?_, ?_⟩
  · rw [State.coreReq, State.rfld, hvreq, State.askedFor_vreq, fld_setFld_ne _ _ _ _ _ _ (by decide),
      fld_setFld_ne _ _ _ _ _ _ (by decide), fld_setFld_self _ _ _ _ (by decide)]
    exact Nat.mod_eq_of_lt hcore
  · rw [State.sramReq, State.rfld, hvreq, State.askedFor_vreq, fld_setFld_ne _ _ _ _ _ _ (by decide),
      fld_setFld_self _ _ _ _ (by decide)]
    exact Nat.mod_eq_of_lt hsram

/-- Of registers a request changes its own and the alerts; what is measured it leaves. -/
theorem State.requestSupply_rest (core sram : Nat) :
    (∀ r, r ≠ .pwrVreq → r ≠ .devMgtAlert → (s.requestSupply core sram).reg r = s.reg r) ∧
      (s.requestSupply core sram).power.dMs = s.power.dMs ∧ (s.requestSupply core sram).power.canaryDue = s.power.canaryDue ∧
      (s.requestSupply core sram).power.lowCanary = s.power.lowCanary := by
  rw [State.requestSupply_eq]
  split
  · exact ⟨fun _ _ _ => rfl, rfl, rfl, rfl⟩
  · obtain ⟨-, halert, -, -⟩ := (s.askedFor core sram).alert_rest alVreq
    rw [State.alert_power]
    exact ⟨fun r h1 h2 => (halert r h2).trans (s.askedFor_reg core sram h1), rfl, rfl, rfl⟩

theorem State.coreReq_lt (s : State) : s.coreReq < 256 := fld_lt _ 0 8

theorem State.sramReq_lt (s : State) : s.sramReq < 256 := fld_lt _ 8 8

end

/-! ### Samples (R331, R332) -/

/-- The readings shown. -/
def State.readings (s : State) (r : PowerReading) : State :=
  ((s.putFld .pwrTherm 56 8 r.dieMax).putFld .pwrTherm 48 8 r.stackMax).putFld .pwrPower 32 16 (min r.total 0xFFFF)

/-- The sample is kept too. -/
def State.shown (s : State) (r : PowerReading) : State :=
  { s.readings r with power := { (s.readings r).power with samples := (r.total :: s.power.samples).take 100 } }

/-- D for the next sample, with the thermal rule's state (R332, R333, R369). -/
def State.nextDuty (s : State) (r : PowerReading) : State × Nat :=
  if s.start.thermTrip = true ∨ s.site = stScrub then (s, s.duty)
  else s.thermalDuty r (min (capDuty s.capUnits s.power.samples r.total r.static s.duty) 16)

/-- D is set, and counted in its millisecond. -/
def State.dutySet (x : State × Nat) : State :=
  { x.1.putFld .pwrPerf 0 5 x.2 with power := { x.1.power with dMs := x.2 :: x.1.power.dMs } }

theorem State.sample_eq (s : State) (r : PowerReading) :
    s.sample r = (State.dutySet ((s.shown r).nextDuty r)).marginExpire.showLoad := by
  have h : s.sample r = match (s.shown r).nextDuty r with
      | (t, d) => ({ t.putFld .pwrPerf 0 5 d with power := { t.power with dMs := d :: t.power.dMs } } : State).marginExpire.showLoad := by
    unfold State.sample
    rfl
  rw [h]
  generalize (s.shown r).nextDuty r = x
  rfl

section
variable (s : State) (r : PowerReading)

theorem State.shown_rest : (s.shown r).start = s.start ∧ (s.shown r).power.samples = (r.total :: s.power.samples).take 100 ∧
    (s.shown r).power.thermal = s.power.thermal := ⟨rfl, rfl, rfl⟩

theorem State.reg_power (p : Power) (q : Reg) : ({ s with power := p } : State).reg q = s.reg q := rfl

theorem State.shown_regs (q : Reg) : (s.shown r).reg q = (s.readings r).reg q := State.reg_power _ _ q

theorem State.shown_reg {q : Reg} (h1 : q ≠ .pwrTherm) (h2 : q ≠ .pwrPower) : (s.shown r).reg q = s.reg q := by
  rw [State.shown_regs, State.readings]
  simp [h1, h2]

theorem State.shown_therm : (s.shown r).reg .pwrTherm = setFld (setFld (s.reg .pwrTherm) 56 8 r.dieMax) 48 8 r.stackMax := by
  rw [State.shown_regs, State.readings, State.reg_putFld_ne _ (by simp), State.reg_putFld_self, State.reg_putFld_self]

theorem State.shown_power : (s.shown r).rfld .pwrPower 32 16 = min r.total 0xFFFF := by
  rw [State.rfld, State.shown_regs, State.readings, ← State.rfld, State.rfld_putFld_self _ _ _ _ _ (by decide)]
  exact Nat.mod_eq_of_lt (Nat.lt_of_le_of_lt (Nat.min_le_right _ _) (by decide))

theorem State.shown_dieMax : (s.shown r).rfld .pwrTherm 56 8 = r.dieMax % 256 := by
  rw [State.rfld, State.shown_therm, fld_setFld_ne _ _ _ _ _ _ (by decide)]
  exact fld_setFld_self _ _ _ _ (by decide)

theorem State.shown_hot : (s.shown r).hot r = s.hot r := by
  rw [State.hot, State.hot, State.rfld, State.rfld, State.shown_therm, fld_setFld_ne _ _ _ _ _ _ (by decide), fld_setFld_ne _ _ _ _ _ _ (by decide)]

theorem State.shown_duty : (s.shown r).duty = s.duty := congrArg (fld · 0 5) (s.shown_reg r (by simp) (by simp))

theorem State.shown_capUnits : (s.shown r).capUnits = s.capUnits :=
  congrArg (fun x => fld x 48 16 * 8) (s.shown_reg r (by simp) (by simp))

theorem State.shown_site : (s.shown r).site = s.site := congrArg (fld · 0 4) (s.shown_reg r (by simp) (by simp))

/-- The thermal rule changes nothing but its own state. -/
theorem State.thermalDuty_rest (want : Nat) : (s.thermalDuty r want).1.regs = s.regs ∧ (s.thermalDuty r want).1.cfg = s.cfg ∧
    (s.thermalDuty r want).1.power.samples = s.power.samples := by
  unfold State.thermalDuty
  dsimp only
  split_ifs <;> exact ⟨rfl, rfl, rfl⟩

theorem State.nextDuty_rest : (s.nextDuty r).1.regs = s.regs ∧ (s.nextDuty r).1.cfg = s.cfg ∧
    (s.nextDuty r).1.power.samples = s.power.samples := by
  unfold State.nextDuty
  split
  · exact ⟨rfl, rfl, rfl⟩
  · exact s.thermalDuty_rest r _

theorem State.nextDuty_reg (q : Reg) : (s.nextDuty r).1.reg q = s.reg q := by
  obtain ⟨h1, h2, -⟩ := s.nextDuty_rest r
  rw [State.reg, State.reg, h1, h2]

theorem State.duty_lt : s.duty < 32 := fld_lt _ 0 5

/-- While hot D does not rise, and stays above zero (R332). -/
theorem State.thermalDuty_hot (h : s.hot r = true) (hd : 1 ≤ s.duty) (want : Nat) : (s.thermalDuty r want).2 ≤ s.duty := by
  simp only [State.thermalDuty, h, if_true]
  split <;> omega

end

section
variable (x : State × Nat)

theorem State.dutySet_reg {q : Reg} (h : q ≠ .pwrPerf) : (State.dutySet x).reg q = x.1.reg q := by
  show (x.1.putFld .pwrPerf 0 5 x.2).reg q = _
  simp [h]

theorem State.dutySet_duty (h : x.2 < 32) : (State.dutySet x).duty = x.2 :=
  (State.rfld_putFld_self x.1 .pwrPerf 0 5 x.2 (by decide)).trans (Nat.mod_eq_of_lt h)

end

/-- What a sample shows: the readings, and D. -/
theorem State.sample_shows (s : State) (r : PowerReading) :
    (s.sample r).power.samples = (r.total :: s.power.samples).take 100 ∧ (s.sample r).rfld .pwrPower 32 16 = min r.total 0xFFFF ∧
      (s.sample r).rfld .pwrTherm 56 8 = r.dieMax % 256 ∧
      (((s.shown r).nextDuty r).2 < 32 → (s.sample r).duty = ((s.shown r).nextDuty r).2) := by
  have hreg {q : Reg} (h1 : q ≠ .pwrMargin) (h2 : q ≠ .pwrKeeper) : (s.sample r).reg q =
      (State.dutySet ((s.shown r).nextDuty r)).reg q := by
    rw [State.sample_eq, State.showLoad, State.reg_putFld_ne _ h2, State.marginExpire_reg _ h1]
  have hpow : (s.sample r).power.samples = (State.dutySet ((s.shown r).nextDuty r)).marginExpire.power.samples :=
    (congrArg (fun u : State => u.power.samples) (s.sample_eq r)).trans rfl
  refine ⟨?_, ?_, ?_, fun h => ?_⟩
  · rw [hpow, (State.marginExpire_power _).1]
    exact (State.nextDuty_rest (s.shown r) r).2.2
  · rw [State.rfld, hreg (by simp) (by simp), State.dutySet_reg _ (by simp), State.nextDuty_reg]
    exact s.shown_power r
  · rw [State.rfld, hreg (by simp) (by simp), State.dutySet_reg _ (by simp), State.nextDuty_reg]
    exact s.shown_dieMax r
  · rw [State.duty, State.rfld, hreg (by simp) (by simp)]
    exact State.dutySet_duty _ h

/-! ### The millisecond (R332) -/

section
variable (s : State)

theorem minDuty_le (ds : List Nat) : minDuty ds ≤ 16 := by
  have h (l : List Nat) (a : Nat) : l.foldl min a ≤ a := by
    induction l generalizing a with
    | nil => exact Nat.le_refl a
    | cons x l ih => exact (ih (min a x)).trans (Nat.min_le_left a x)
  exact h ds 16

theorem State.setDiv_dMs (div : Nat) : (s.setDiv div).power.dMs = s.power.dMs := by
  unfold State.setDiv
  split_ifs <;> rfl

theorem State.divRule_dMs (ds : List Nat) (full predicted : Nat) : (s.divRule ds full predicted).power.dMs = s.power.dMs := by
  unfold State.divRule
  split_ifs
  · rfl
  · exact s.setDiv_dMs _
  · unfold State.faster
    dsimp only
    split_ifs
    · rfl
    · exact s.setDiv_dMs _
    · exact (State.requestSupply_rest _ _).2.1
  · rfl

/-- DROP as the last millisecond's D values leave it (R332). -/
def State.dropShown (s : State) (ds : List Nat) (full : Nat) : State :=
  let s := if bit (s.reg .pwrPerf) 23 then s.bump .pwrCap 0 32 else s
  if ds.any fun d => d < s.rfld .pwrCfg 24 5 then s.putFld .pwrPerf 23 1 1
    else if full ≥ 10 then s.putFld .pwrPerf 23 1 0 else s

theorem State.publish_eq (ds : List Nat) (full : Nat) : s.publish ds full =
    if minDuty ds = (s.dropShown ds full).rfld .pwrPerf 8 5 then s.dropShown ds full
    else ((s.dropShown ds full).putFld .pwrPerf 8 5 (minDuty ds)).recompute := rfl

theorem State.dropShown_power (ds : List Nat) (full : Nat) : (s.dropShown ds full).power = s.power := by
  simp only [State.dropShown]
  split_ifs <;> simp

/-- D_PUB is the lowest D of the millisecond (R332). -/
theorem State.publish_shows (ds : List Nat) (full : Nat) :
    (s.publish ds full).rfld .pwrPerf 8 5 = minDuty ds ∧ (s.publish ds full).power = s.power := by
  rw [State.publish_eq]
  split
  · next h => exact ⟨h.symm, s.dropShown_power ds full⟩
  · have hr := State.recompute_rights ((s.dropShown ds full).putFld .pwrPerf 8 5 (minDuty ds))
    refine ⟨?_, hr.power.trans (s.dropShown_power ds full)⟩
    rw [hr.rfld _ (by simp), State.rfld_putFld_self _ _ _ _ _ (by decide)]
    exact Nat.mod_eq_of_lt (Nat.lt_of_le_of_lt (minDuty_le ds) (by decide))

/-- The millisecond's updates before D_PUB. -/
def State.msCounted (s : State) (full : Nat) : State :=
  let s := s.average s.power.dMs.length
  let s := if s.power.thermal then s.bump .pwrTherm 0 16 else s
  { s with power := { s.power with dMs := [], fullMs := full } }

theorem State.msUpdate_eq {s : State} (h : s.power.dMs ≠ []) (predicted : Nat) : ∃ full, s.msUpdate predicted =
    (((s.msCounted full).divRule s.power.dMs full predicted).publish s.power.dMs full).marginExpire := by
  have hds : (if s.power.dMs.isEmpty then [s.duty] else s.power.dMs) = s.power.dMs := if_neg (by simpa using h)
  refine ⟨if s.power.dMs.all (· = 16) then s.power.fullMs + 1 else 0, ?_⟩
  simp only [State.msUpdate, hds]
  rfl

theorem State.msUpdate_shows {s : State} (h : s.power.dMs ≠ []) (predicted : Nat) :
    (s.msUpdate predicted).power.dMs = [] ∧ (s.msUpdate predicted).rfld .pwrPerf 8 5 = minDuty s.power.dMs := by
  obtain ⟨full, e⟩ := State.msUpdate_eq h predicted
  obtain ⟨hfld, hpow⟩ := State.publish_shows ((s.msCounted full).divRule s.power.dMs full predicted) s.power.dMs full
  rw [e]
  refine ⟨?_, ?_⟩
  · rw [(State.marginExpire_power _).2, hpow, State.divRule_dMs]
    rfl
  · rw [State.marginExpire_rfld _ (by simp), hfld]

end

/-! ### Requests settled or failed (R316, R335) -/

/-- The levels as they have settled, MARGIN_LOW's causes with them. -/
def State.levelsSettled (s : State) : State := { s with power := { s.power with
  supply := none, divWait := none, lowUntilSettled := s.power.lowUntilSettled && decide (s.sramGrant < sramNominal)
  lowCanary := if decide (s.power.lowCanary ≠ 0 ∧ s.power.lowCanary ≤ s.sramGrant) then 0 else s.power.lowCanary
  lowClearAt := if decide (s.power.lowCanary ≠ 0 ∧ s.power.lowCanary ≤ s.sramGrant) then some (s.now + rootPerMs)
    else s.power.lowClearAt } }

theorem State.nextSupply_idle {s : State} (h : s.power.sramWant = 0) : s.nextSupply = s := if_neg fun k => k.2 h

theorem State.settled_eq {s : State} (hentry : s.power.entry = none) (hwant : s.power.sramWant = 0) (hdiv : s.power.divWait = none) :
    s.settled = s.levelsSettled.showMargin := by
  have h : s.settled = s.levelsSettled.nextSupply.showMargin := by
    simp only [State.settled, hdiv]
    split
    · next e h => exact absurd (h.symm.trans hentry) (Option.some_ne_none e)
    · rfl
  rw [h, State.nextSupply_idle (s := s.levelsSettled) hwant]

theorem State.supplyFailed_eq {s : State} {q : SupplyReq} (hq : s.power.supply = some q) (hentry : s.power.entry = none)
    (hwant : s.power.sramWant = 0) : ∃ u : State,
    u = (((s.putFld .pwrVreq 0 8 q.prevCore).putFld .pwrVreq 8 8 q.prevSram).putFld .pwrVreq 63 1 0).bump .pwrPerf 32 16 ∧
      s.supplyFailed = { u with power := { s.power with supply := none, divWait := none } } := by
  refine ⟨_, rfl, ?_⟩
  generalize hu : (((s.putFld .pwrVreq 0 8 q.prevCore).putFld .pwrVreq 8 8 q.prevSram).putFld .pwrVreq 63 1 0).bump .pwrPerf 32 16 = u
  have hpower : u.power = s.power := by simp [← hu]
  simp only [State.supplyFailed, hq, hu, hpower, hentry, State.nextSupply, hwant]
  exact if_neg fun h => h.2 rfl

theorem State.flowDiv_bump (s : State) : (s.bump .pwrPerf 32 16).flowDiv = s.flowDiv :=
  State.rfld_putFld_ne s .pwrPerf .pwrPerf 32 16 16 4 _ (.inr (.inl (by decide)))

/-- The levels stand again at those before the request. -/
theorem State.supplyFailed_levels {s : State} {q : SupplyReq} (hq : s.power.supply = some q) (hentry : s.power.entry = none)
    (hwant : s.power.sramWant = 0) :
    s.supplyFailed.sramReq = q.prevSram % 256 ∧ s.supplyFailed.flowDiv = s.flowDiv := by
  obtain ⟨u, hu, hfailed⟩ := State.supplyFailed_eq hq hentry hwant
  have hreg (r : Reg) : s.supplyFailed.reg r = u.reg r := by rw [hfailed]; rfl
  refine ⟨?_, ?_⟩
  · rw [State.sramReq, State.rfld, hreg, hu, State.reg_bump_ne _ (by simp), State.reg_putFld_self, fld_setFld_ne _ _ _ _ _ _ (by decide),
      State.reg_putFld_self]
    exact fld_setFld_self _ _ _ _ (by decide)
  · have hdiv : s.supplyFailed.flowDiv = u.flowDiv := congrArg (fld · 16 4) (hreg .pwrPerf)
    rw [hdiv, hu, State.flowDiv_bump]
    simp [State.flowDiv, State.rfld]

/-! ### Canaries (R334, R335) -/

theorem State.mem_dueCanaries {s : State} {b k : Nat} (hlive : s.live b = true) (hb : b < s.cfg.basins) (hk : k < 2 * s.cfg.checks) :
    b * 32 + k ∈ s.dueCanaries.power.canaryDue :=
  List.mem_flatMap.2 ⟨b, List.mem_filter.2 ⟨List.mem_range.2 hb, hlive⟩, List.mem_map.2 ⟨k, List.mem_range.2 hk, rfl⟩⟩

theorem State.rfld_bump (s : State) (r : Reg) (lo n k : Nat) (h : lo + n ≤ 64) (hk : k ≠ 0) :
    (s.bump r lo n k).rfld r lo n = min (s.rfld r lo n + k) (2 ^ n - 1) := by
  have hput : (s.bump r lo n k).rfld r lo n = (s.putFld r lo n (satAdd n (s.rfld r lo n) k)).rfld r lo n := by
    simp only [State.bump, hk, if_false]
    rfl
  have hpos : 0 < 2 ^ n := Nat.two_pow_pos n
  rw [hput, State.rfld_putFld_self _ _ _ _ _ h, satAdd, Nat.mod_eq_of_lt]
  omega

/-- A canary error wants the level `want`, and holds VDD_SRAM from going down for ten seconds. -/
def State.levelWanted (s : State) (want : Nat) : State := { s with power := { s.power with
  canaryError := true, noLowerUntil := s.now + 10 * rootPerS, lowCanary := want } }

/-- At the highest level already, MARGIN_LOW stands for a millisecond. -/
def State.cannotRise (s : State) : State := { s with power := { s.power with
  canaryError := true, noLowerUntil := s.now + 10 * rootPerS, lowClearAt := some (s.now + rootPerMs) } }

theorem State.levelWanted_rest (s : State) (want : Nat) : (∀ r, (s.levelWanted want).reg r = s.reg r) ∧
    (s.levelWanted want).power.canaryDue = s.power.canaryDue ∧ (s.levelWanted want).power.supply = s.power.supply ∧
    (s.levelWanted want).power.lowCanary = want := ⟨fun _ => rfl, rfl, rfl, rfl⟩

theorem State.canaryError_eq {s : State} (hsupply : s.power.supply = none) : s.canaryError =
    if min (s.sramReq + 4) supplyMax = s.sramReq then s.cannotRise.showMargin
    else ((s.levelWanted (min (s.sramReq + 4) supplyMax)).requestSupply s.coreReq (min (s.sramReq + 4) supplyMax)).showMargin := by
  have hraise : (s.levelWanted (min (s.sramReq + 4) supplyMax)).raiseSram (min (s.sramReq + 4) supplyMax) =
      (s.levelWanted (min (s.sramReq + 4) supplyMax)).requestSupply s.coreReq (min (s.sramReq + 4) supplyMax) :=
    if_neg (by rw [(s.levelWanted_rest _).2.2.1, hsupply]; decide)
  have hcanary : s.canaryError = if min (s.sramReq + 4) supplyMax = s.sramReq ∧ s.power.supply.isNone = true then
      s.cannotRise.showMargin else ((s.levelWanted (min (s.sramReq + 4) supplyMax)).raiseSram
        (min (s.sramReq + 4) supplyMax)).showMargin := rfl
  rw [hcanary, hraise, hsupply]
  simp only [Option.isNone_none, and_true]

/-- What a canary error leaves: the rows still to be read, its count, and the level 20 mV up with MARGIN_LOW (R335). -/
theorem State.canaryError_raises {s : State} (hsupply : s.power.supply = none) :
    s.canaryError.power.canaryDue = s.power.canaryDue ∧ s.canaryError.rfld .pwrMargin 32 16 = s.rfld .pwrMargin 32 16 ∧
      (s.sramReq < 150 → s.canaryError.sramReq = min (s.sramReq + 4) 150 ∧ bit (s.canaryError.reg .pwrMargin) 63 = true) := by
  rw [State.canaryError_eq hsupply]
  generalize hwant : min (s.sramReq + 4) supplyMax = want
  rw [show supplyMax = 150 from rfl] at hwant
  split
  · next h => exact ⟨rfl, State.showMargin_below _ (by decide), fun hlt => by omega⟩
  · next h =>
    obtain ⟨w1, w2, w3, w4⟩ := s.levelWanted_rest want
    have hreq : (s.levelWanted want).sramReq = s.sramReq := congrArg (fld · 8 8) (w1 .pwrVreq)
    obtain ⟨hreg, -, hdue, hlow⟩ := State.requestSupply_rest (s := s.levelWanted want) s.coreReq want
    obtain ⟨-, hsram⟩ := State.requestSupply_asks (s := s.levelWanted want) (core := s.coreReq) (sram := want) (w3.trans hsupply)
      (by rw [hreq]; exact fun k => h k.2) s.coreReq_lt (by omega)
    refine ⟨hdue.trans w2, ?_, fun hlt => ⟨?_, ?_⟩⟩
    · rw [State.showMargin_below _ (by decide), State.rfld, hreg _ (by simp) (by simp), w1, State.rfld]
    · rw [State.sramReq, State.showMargin_rfld _ (by simp), ← State.sramReq, hsram, ← hwant]
    · rw [State.showMargin_low, Power.low, hlow, w4]
      have : want ≠ 0 := by omega
      simp [this]

/-- Tracking rests on what a count of canary errors leaves (R335). -/
theorem State.tracking_bump (s : State) (n : Nat) : (s.dueCanaries.bump .pwrMargin 32 16 n).tracking = s.tracking := by
  have hreg {r : Reg} (hr : r ≠ .pwrMargin) : (s.dueCanaries.bump .pwrMargin 32 16 n).reg r = s.reg r := State.reg_bump_ne _ hr _ _ _
  have hsite : (s.dueCanaries.bump .pwrMargin 32 16 n).site = s.site := congrArg (fld · 0 4) (hreg (by simp))
  have hkeep : (s.dueCanaries.bump .pwrMargin 32 16 n).cistern = s.cistern ∧
      (s.dueCanaries.bump .pwrMargin 32 16 n).power.suspendedUntil = s.power.suspendedUntil := by
    rw [State.bump]
    split <;> exact ⟨rfl, rfl⟩
  rw [State.tracking_eq, State.tracking_eq, hreg (by simp), hsite, hkeep.1, hkeep.2]

/-! ### The trip (R333, R430) -/

/-- The trip begins. -/
def State.tripped (s : State) : State :=
  { s with start := { s.start with thermTrip := true }, power := { s.power with tripStart := s.now } }

theorem State.alert_same (s : State) (i : Nat) : s.SameStores (s.alert i) := State.sameStores_of_lasting (s.lasting_alert i)

/-- The trip: `THERM_TRIP_N` is low, its cause is pending and it is counted (R333, R426, R430). -/
theorem State.thermalTrip_trips {s : State} (hpwr : s.start.pwrGood = true) (hdry : s.site ≠ stDry)
    (hno : s.start.thermTrip = false) : ∃ u, exec .thermalTrip s = .next u ∧
      u.start.thermTrip = true ∧ u.thermTripN = some false ∧ bit (u.reg .devMgtAlert) 6 = true ∧ s.SameStores u ∧
      u.rfld .pwrTherm 16 16 = min (s.rfld .pwrTherm 16 16 + 1) (2 ^ 16 - 1) := by
  have hexec : exec .thermalTrip s = .next ((s.tripped.bump .pwrTherm 16 16).alert alThermal) := by
    have hcond : ¬ ((!s.start.pwrGood) = true ∨ s.site = stDry ∨ s.start.thermTrip = true) := by
      rw [hpwr, hno]
      simpa using hdry
    exact if_neg hcond
  obtain ⟨-, hreg, hstart, -⟩ := (s.tripped.bump .pwrTherm 16 16).alert_rest alThermal
  have hsite : ((s.tripped.bump .pwrTherm 16 16).alert alThermal).site = s.site :=
    congrArg (fld · 0 4) ((hreg .pwrSt (by simp)).trans (State.reg_bump_ne s.tripped (by simp) 16 16 1))
  have hstart' : ((s.tripped.bump .pwrTherm 16 16).alert alThermal).start = { s.start with thermTrip := true } := hstart
  refine ⟨_, hexec, by rw [hstart'], ?_, State.bit_alert _ (by decide), ?_, ?_⟩
  · rw [State.thermTripN, State.openDrain, hstart', hsite]
    simp [hpwr, hdry]
  · exact State.SameStores.trans (s := s) (t := s.tripped.bump .pwrTherm 16 16) ⟨rfl, rfl, rfl, rfl, rfl⟩ (State.alert_same _ _)
  · rw [State.rfld, hreg _ (by simp)]
    exact State.rfld_bump_self s.tripped .pwrTherm 16 16 (by decide)

/-- The trip ends: issue goes on at D = 1/16 under the thermal rule (R333). -/
theorem State.tripRelease_releases {s : State} (h : s.start.thermTrip = true) : ∃ u, exec .thermalTripRelease s = .next u ∧
    u.start.thermTrip = false ∧ u.thermTripN = none ∧ u.duty = 1 ∧ u.power.thermal = true ∧ s.SameStores u := by
  have hcond : ¬ (!s.start.thermTrip) = true := by simp [h]
  refine ⟨_, if_neg hcond, rfl, ?_, ?_, rfl, rfl, rfl, rfl, rfl, rfl⟩
  · exact if_neg (by simp)
  · exact State.rfld_putFld_self _ .pwrPerf 0 5 1 (by decide)

/-! ### The obligation -/

/-- Settles O54, by what a sample, a millisecond, a settled or failed request, the trip, a canary error and a margin step each leave. -/
theorem powerManaged : Obligations.PowerManaged := by
  intro s
  refine ⟨fun hman => ⟨fun r => ?sample, fun n hds => ?ms⟩, State.thermalTrip_trips, fun htrip => ⟨fun cyc => ?still, State.tripRelease_releases htrip⟩,
    fun q hq hentry hwant => ⟨fun hgr hdiv => ?settled, fun hgr => ?failed⟩, ?tolerance, fun hk => ?keeper,
    fun hrun => ⟨?check, fun b k hb hlt hk => State.mem_dueCanaries hb hlt hk⟩, fun n hrun hn hsup => ?canary,
    fun htr herr hsup hlow hmin => ?step⟩
  case sample =>
    obtain ⟨h1, h2, h3, h4⟩ := s.sample_shows r
    obtain ⟨k1, k2, k3⟩ := s.shown_rest r
    refine ⟨_, congrArg Host.Outcome.next (if_pos hman), h1, h2, h3, State.sameStores_of_lasting (State.lasting_sample s r),
      fun hstop => ?_, fun htrip hscrub hhot hth => ?_, fun htrip hhot hd => ?_⟩
    · have hnext : (s.shown r).nextDuty r = (s.shown r, (s.shown r).duty) := if_pos (by rwa [k1, State.shown_site])
      rw [h4 (by rw [hnext]; exact State.duty_lt _), hnext]
      exact s.shown_duty r
    · have hnext : (s.shown r).nextDuty r =
          (s.shown r, min (capDuty s.capUnits ((r.total :: s.power.samples).take 100) r.total r.static s.duty) 16) := by
        rw [State.nextDuty, if_neg (by rw [k1, State.shown_site, htrip]; simpa using hscrub), State.thermalDuty, State.shown_hot, hhot, k3, hth,
          k2, State.shown_capUnits, State.shown_duty]
        rfl
      rw [h4 (by rw [hnext]; exact Nat.lt_of_le_of_lt (Nat.min_le_right _ _) (by decide)), hnext]
    · have hle : ((s.shown r).nextDuty r).2 ≤ s.duty := by
        rw [State.nextDuty]
        split
        · exact Nat.le_of_eq (s.shown_duty r)
        · rw [← s.shown_duty r]
          exact State.thermalDuty_hot _ r ((s.shown_hot r).trans hhot) (by rw [s.shown_duty r]; exact hd) _
      rw [h4 (Nat.lt_of_le_of_lt hle s.duty_lt)]
      exact hle
  case ms =>
    obtain ⟨h1, h2⟩ := State.msUpdate_shows hds n
    exact ⟨_, congrArg Host.Outcome.next (if_pos hman), h1, State.sameStores_of_lasting (State.lasting_msUpdate s n), h2⟩
  case still =>
    rw [State.mayIssueAt, State.dutyAt, htrip]
    rfl
  case settled =>
    have hexec : exec .supplySettled s = .next s.levelsSettled.showMargin := by
      rw [← State.settled_eq hentry hwant hdiv]
      simp only [exec, execSupplySettled, hq, hgr, if_true, ok]
    refine ⟨_, hexec, rfl, State.showMargin_rfld _ (by simp) 0 8, State.showMargin_rfld _ (by simp) 8 8,
      State.showMargin_rfld _ (by simp) 16 4, ⟨rfl, rfl, rfl, rfl, rfl⟩, fun hne hle => ?_, fun hlt => ?_⟩
    · exact ⟨if_pos (by simp [hne, hle]), if_pos (by simp [hne, hle])⟩
    · have hlow : s.levelsSettled.power.lowCanary = s.power.lowCanary := if_neg (by simp; omega)
      refine ⟨hlow, ?_⟩
      rw [State.showMargin_low, Power.low, hlow]
      have : s.power.lowCanary ≠ 0 := by omega
      simp [this]
  case failed =>
    have hexec : exec .vreqTimeout s = .next s.supplyFailed := by
      simp only [exec, execVreqTimeout, hq, hgr]
      rfl
    obtain ⟨-, h2, h3, h4, h5, -⟩ := State.supplyFailed_leaves hq hentry hwant
    obtain ⟨h6, h7⟩ := State.supplyFailed_levels hq hentry hwant
    exact ⟨_, hexec, h2, h3, h4, h6, h7, State.sameStores_of_lasting (State.lasting_supplyFailed s), h5⟩
  case tolerance =>
    refine ⟨_, rfl, ?_, rfl, rfl, rfl, rfl, rfl, rfl⟩
    rw [State.showMargin_low]
    simp [Power.low]
  case keeper => exact ⟨_, congrArg Host.Outcome.next (if_pos hk), State.rfld_putFld_self _ .pwrKeeper 1 1 1 (by decide), rfl, rfl, rfl, rfl, rfl, rfl⟩
  case check =>
    have hcond : ¬ (!(s.flowRuns || s.site = stSlack)) = true := by simp [hrun]
    exact (if_neg hcond).trans (if_pos rfl)
  case canary =>
    have hcond : ¬ (!(s.flowRuns || s.site = stSlack)) = true := by simp [hrun]
    have hexec : exec (.canaryCheck n) s = .next (if s.tracking then (s.dueCanaries.bump .pwrMargin 32 16 n).canaryError
        else s.dueCanaries.bump .pwrMargin 32 16 n) := by
      rw [← State.tracking_bump s n]
      exact (if_neg hcond).trans (if_neg hn)
    have hfld := State.rfld_bump s.dueCanaries .pwrMargin 32 16 n (by decide) hn
    have hbump : (s.dueCanaries.bump .pwrMargin 32 16 n).power = s.dueCanaries.power := by simp
    have hreq : (s.dueCanaries.bump .pwrMargin 32 16 n).sramReq = s.sramReq :=
      congrArg (fld · 8 8) (State.reg_bump_ne s.dueCanaries (by simp) 32 16 n)
    have hsame : s.SameStores (s.dueCanaries.bump .pwrMargin 32 16 n) := by simp [State.SameStores, State.dueCanaries]
    rw [hexec]
    refine ⟨_, rfl, ?_⟩
    obtain ⟨k1, k2, k3⟩ := State.canaryError_raises (s := s.dueCanaries.bump .pwrMargin 32 16 n) (by rw [hbump]; exact hsup)
    split
    · refine ⟨hsame.trans (State.sameStores_of_lasting (State.lasting_canaryError _)), k1.trans (congrArg Power.canaryDue hbump),
        k2.trans hfld, fun _ hlt => ?_⟩
      rw [hreq] at k3
      exact k3 hlt
    · next hno => exact ⟨hsame, congrArg Power.canaryDue hbump, hfld, fun htr => absurd htr hno⟩
  case step =>
    have hne : ¬ (s.coreReq = s.coreReq ∧ s.sramReq - 1 = s.sramReq) := by omega
    have hexec : exec .marginStep s = .next (State.requestSupply { s with power := { s.power with canaryError := false } } s.coreReq
        (s.sramReq - 1)) := by
      have hcond : ¬ (!s.tracking) = true := by simp [htr]
      refine (if_neg hcond).trans (if_pos ⟨by simp [herr], by simp [hsup], hlow, ?_, ?_⟩)
      · show s.rfld .pwrMargin 0 8 ≤ s.sramReq - 1
        omega
      · show 0 < s.sramReq
        omega
    obtain ⟨h1, h2⟩ := State.requestSupply_asks (s := { s with power := { s.power with canaryError := false } }) (core := s.coreReq)
      (sram := s.sramReq - 1) hsup hne s.coreReq_lt (Nat.lt_of_le_of_lt (Nat.sub_le _ _) s.sramReq_lt)
    exact ⟨_, hexec, h2, h1, State.SameStores.trans (t := { s with power := { s.power with canaryError := false } })
      ⟨rfl, rfl, rfl, rfl, rfl⟩ (State.sameStores_of_lasting (State.lasting_requestSupply _ _ _))⟩

end Sys2Proof.Machine
end

section
set_option Elab.async false -- the whole text is compiled in one process, within a fixed memory
/-! SUPPORT. Starts: what their causes leave, their steps, release, and the step that times out (R313, R317, R338–R348). -/

namespace Sys2Proof.Machine

/-! ### Registers a fold leaves -/

theorem kget_filter {κ ν : Type} [DecidableEq κ] (m : List (κ × ν)) (d : ν) {p : κ → Bool} {k : κ} (h : p k = true) :
    kget (m.filter fun x => p x.1) d k = kget m d k := by
  induction m with
  | nil => rfl
  | cons x m ih =>
    obtain ⟨j, v⟩ := x
    by_cases hj : j = k
    · subst hj
      rw [List.filter_cons, if_pos h, kget, kget, if_pos rfl, if_pos rfl]
    · rw [List.filter_cons]
      split
      · rw [kget, kget, if_neg hj, if_neg hj, ih]
      · rw [kget, if_neg hj, ih]

/-- A fold of steps that leave register `r` leaves it. -/
theorem State.reg_foldl {α : Type} {f : State → α → State} {r : Reg} (hf : ∀ t a, (f t a).reg r = t.reg r) (l : List α) (s : State) :
    (l.foldl f s).reg r = s.reg r :=
  foldl_keeps (fun t : State => t.reg r = s.reg r) f (fun t a h => (hf t a).trans h) l s rfl

theorem State.cistern_foldl {α : Type} {f : State → α → State} (hf : ∀ t a, (f t a).cistern = t.cistern) (l : List α) (s : State) :
    (l.foldl f s).cistern = s.cistern :=
  foldl_keeps (fun t : State => t.cistern = s.cistern) f (fun t a h => (hf t a).trans h) l s rfl

theorem State.mem_foldl {α : Type} {f : State → α → State} (hf : ∀ t a, (f t a).mem = t.mem) (l : List α) (s : State) :
    (l.foldl f s).mem = s.mem :=
  foldl_keeps (fun t : State => t.mem = s.mem) f (fun t a h => (hf t a).trans h) l s rfl

theorem State.tap_foldl {α : Type} {f : State → α → State} (hf : ∀ t a, (f t a).tap = t.tap) (l : List α) (s : State) :
    (l.foldl f s).tap = s.tap :=
  foldl_keeps (fun t : State => t.tap = s.tap) f (fun t a h => (hf t a).trans h) l s rfl

/-- A field apart from the one counted reads as before. -/
theorem State.rfld_bump_ne (s : State) (r r' : Reg) (lo n lo' n' k : Nat) (h : r' ≠ r ∨ lo' + n' ≤ lo ∨ lo + n ≤ lo') :
    (s.bump r lo n k).rfld r' lo' n' = s.rfld r' lo' n' := by
  unfold State.bump
  split
  · rfl
  · exact s.rfld_putFld_ne r r' lo n lo' n' _ h

theorem State.reg_of_post (s : State) (e : Event) (r : Reg) : (s.post e).reg r = s.reg r := by
  unfold State.post
  split <;> rfl

/-! ### What a start keeps (R339) -/

theorem State.putReg_cistern (s : State) (r : Reg) (v : Word64) : (s.putReg r v).cistern = s.cistern := (rfl)

section
variable (s : State) (keep : Reg → Bool)

theorem State.goneCold_rest : (s.goneCold keep).mem = [] ∧ (s.goneCold keep).tap = s.tap ∧
    (s.goneCold keep).cistern = { s.cistern with units := restUnits s.cistern.units } := by
  refine ⟨?_, ?_, ?_⟩
  · simp only [State.goneCold, State.mem_foldl, State.putReg_keeps, State.putFld_keeps, implies_true]
    rfl
  · simp only [State.goneCold, State.tap_foldl, State.putReg_keeps, State.putFld_keeps, implies_true]
  · simp only [State.goneCold, State.cistern_foldl, State.putReg_keeps, State.putFld_keeps, implies_true]

/-- Registers every start sets afresh, beside PLL_LOCKED of CLK_ST. -/
def Reg.startsAfresh : Reg → Bool
  | .sphLinkSt _ | .sphSt _ | .culSt _ | .devBasinLive | .ringCmd _ | .ringRpl _ | .ringSt _ | .pwrBasinSt _ => true
  | _ => false

theorem Reg.ne_of_startsAfresh {r q : Reg} (hr : r.startsAfresh = false) (hq : q.startsAfresh = true) : r ≠ q := by
  rintro rfl
  rw [hr] at hq
  exact absurd hq (by decide)

/-- A register that is kept, and that no start sets afresh, reads as before. -/
theorem State.goneCold_rfld {r : Reg} (hkeep : keep r = true) (hr : r.startsAfresh = false) {lo n : Nat} (hlo : r ≠ .clkSt ∨ 1 ≤ lo) :
    (s.goneCold keep).rfld r lo n = s.rfld r lo n := by
  have hne {q : Reg} (hq : q.startsAfresh = true) : r ≠ q := Reg.ne_of_startsAfresh hr hq
  have hread : kget (s.regs.filter fun x => keep x.1 || x.1.inCistern) (r.resetValue s.cfg) r = s.reg r :=
    kget_filter (p := fun x => keep x || x.inCistern) _ _ (by simp [hkeep])
  unfold State.goneCold
  dsimp only
  rw [State.rfld, State.reg_foldl (fun t b => State.reg_putReg_ne t (hne rfl) 0), ← State.rfld,
    State.rfld_putFld_ne _ _ _ _ _ _ _ _ (hlo.imp_right .inr), State.rfld, State.reg_putReg_ne _ (hne rfl),
    State.reg_putReg_ne _ (hne rfl), State.reg_putReg_ne _ (hne rfl), State.reg_putReg_ne _ (hne rfl),
    State.reg_foldl (fun t c => State.reg_putFld_ne t (hne rfl) _ _ _),
    State.reg_foldl (fun t i => (State.reg_putFld_ne _ (hne rfl) _ _ _).trans (State.reg_putFld_ne t (hne rfl) _ _ _))]
  exact congrArg (fld · lo n) hread

end

/-! ### A start from fuse load -/

section
variable (s : State)

theorem State.openStart_reg {r : Reg} (h1 : r ≠ .devStartSt) (h2 : r ≠ .devStartRes) : s.openStart.reg r = s.reg r := by
  rw [State.openStart, State.showStep, State.reg_putFld_ne _ h1, State.reg_putReg_ne _ h2, State.reg_putReg_ne _ h1]

theorem State.openStart_rest : s.openStart.start = s.start ∧ s.openStart.cistern = s.cistern ∧ s.openStart.tap = s.tap ∧
    s.openStart.rfld .devStartSt 48 4 = 3 := by
  simp [State.openStart, State.showStep]

theorem State.enterFuses_reg {r : Reg} (h1 : r ≠ .devStartSt) (h2 : r ≠ .devStartRes) : s.enterFuses.reg r = s.reg r := by
  unfold State.enterFuses
  dsimp only
  split
  · rfl
  · exact State.openStart_reg _ h1 h2

theorem State.enterFuses_rest : s.enterFuses.cistern = s.cistern ∧ s.enterFuses.tap = s.tap ∧
    s.enterFuses.start = { s.start with step := 3 } := by
  unfold State.enterFuses
  dsimp only
  split
  · exact ⟨rfl, rfl, rfl⟩
  · obtain ⟨h1, h2, h3, -⟩ := State.openStart_rest { s with start := { s.start with step := 3 } }
    exact ⟨h2, h3, h1⟩

variable (keep : Reg → Bool) (st : Nat)

/-- The site before the start's steps begin. -/
def State.stopped (s : State) (keep : Reg → Bool) (st : Nat) : State := ((s.goneCold keep).setSite st).dropRequest.keeperNormal

theorem State.restart_eq : s.restart keep st =
    ({ s.stopped keep st with start := { (s.stopped keep st).start with ms := 0 } } : State).enterFuses := rfl

theorem State.stopped_start : (s.stopped keep st).start = (s.goneCold keep).start := rfl

theorem State.restart_records : (s.restart keep st).cistern.records = s.cistern.records := by
  rw [State.restart_eq, (State.enterFuses_rest _).1]
  show (s.goneCold keep).cistern.records = _
  rw [(s.goneCold_rest keep).2.2]

/-- Power, the reset pin and the clock are as they were; the rest is that of a start (R339). -/
theorem State.restart_start : (s.restart keep st).start = { s.start with
    released := false, fencing := false, fenceAck := true, cold := false, retest := false, noReturn := false, ms := 0, step := 3 } := by
  rw [State.restart_eq, (State.enterFuses_rest _).2.2]
  show { { (s.stopped keep st).start with ms := 0 } with step := 3 } = _
  rw [State.stopped_start, State.start_goneCold]

theorem State.restart_rfld {r : Reg} (hkeep : keep r = true) (hr : r = .clkRootCnt ∨ r = .clkSt) {lo n : Nat}
    (hlo : 1 ≤ lo ∨ r ≠ .clkSt) : (s.restart keep st).rfld r lo n = s.rfld r lo n := by
  have hne : r ≠ .devStartSt ∧ r ≠ .devStartRes ∧ r ≠ .pwrKeeper ∧ r ≠ .pwrVreq ∧ r ≠ .pwrSt := by
    rcases hr with rfl | rfl <;> simp
  obtain ⟨h1, h2, h3, h4, h5⟩ := hne
  have hstopped : (s.stopped keep st).reg r = (s.goneCold keep).reg r := by
    rw [State.stopped, State.reg_keeperNormal _ h3, State.dropRequest, State.reg_putFld_ne _ h4, State.reg_putFld_ne _ h4,
      State.reg_putFld_ne _ h4, State.setSite, State.reg_putFld_ne _ h5]
  have hreg : (s.restart keep st).reg r = (s.goneCold keep).reg r := by
    rw [State.restart_eq, State.enterFuses_reg _ h1 h2]
    exact hstopped
  rw [State.rfld, hreg, ← State.rfld]
  exact s.goneCold_rfld keep hkeep (by rcases hr with rfl | rfl <;> rfl) hlo.symm

/-- STATE zero and the cause shown, in the site as it went cold. -/
def State.coldShown (s : State) (cause : Nat) : State := ((s.goneCold fun _ => false).setSite 0).putFld .pwrSt 32 8 cause

/-- Step 1 begins, the bus as it is after power. -/
def State.stepOne (t : State) : State := { t with
  start := { t.start with ms := 0, step := 1, clockLost := false, cold := true }
  mgt := { t.mgt with dyn := none, mwl := 64, mrl := 64, events := 0x0B, awake := true } }

theorem State.restartCold_eq (cause : Nat) : s.restartCold cause =
    ((s.coldShown cause).stepOne.putReg .devStartRes 0).putReg .devStartSt (BitVec.ofNat 64 (2 ^ 48)) := rfl

theorem State.coldShown_rest (cause : Nat) : (s.coldShown cause).start = (s.goneCold fun _ => false).start ∧
    (s.coldShown cause).cistern = (s.goneCold fun _ => false).cistern ∧ (s.coldShown cause).mem = (s.goneCold fun _ => false).mem ∧
    (s.coldShown cause).rfld .pwrSt 32 8 = cause % 2 ^ 8 := by
  simp [State.coldShown]

theorem State.stepOne_rest (t : State) : t.stepOne.start = { t.start with ms := 0, step := 1, clockLost := false, cold := true } ∧
    t.stepOne.cistern = t.cistern ∧ t.stepOne.mem = t.mem ∧ ∀ r, t.stepOne.reg r = t.reg r := ⟨rfl, rfl, rfl, fun _ => rfl⟩

/-- A start from step 1: nothing but the cistern and the fuses is kept (R339). -/
theorem State.restartCold_starts (cause : Nat) : (s.restartCold cause).start.pwrGood = s.start.pwrGood ∧
    (s.restartCold cause).start.step = 1 ∧ (s.restartCold cause).start.released = false ∧
    (s.restartCold cause).cistern.records = s.cistern.records ∧ (s.restartCold cause).mem = [] ∧
    (s.restartCold cause).rfld .pwrSt 32 8 = cause % 2 ^ 8 := by
  obtain ⟨hmem, -, hcis⟩ := s.goneCold_rest fun _ => false
  obtain ⟨h1, h2, h3, h4⟩ := s.coldShown_rest cause
  obtain ⟨k1, k2, k3, k4⟩ := (s.coldShown cause).stepOne_rest
  have hstart : (s.restartCold cause).start = (s.coldShown cause).stepOne.start := by
    rw [State.restartCold_eq]
    simp
  rw [hstart, k1, h1, State.start_goneCold, State.restartCold_eq]
  refine ⟨rfl, rfl, rfl, ?_, ?_, ?_⟩
  · rw [(State.putReg_cistern _ _ _), (State.putReg_cistern _ _ _), k2, h2, hcis]
  · simp [k3, h3, hmem]
  · rw [State.rfld, State.reg_putReg_ne _ (by simp), State.reg_putReg_ne _ (by simp), k4]
    exact h4

end

/-! ### `FALLOW` (R345) -/

section
variable (s : State)

theorem State.record_reg (e : Event) (sev action : Nat) (threshold added : Bool) {r : Reg} (h : r ≠ .clkEventSeq) :
    (s.record e sev action threshold added).reg r = s.reg r := State.reg_logEvent_ne s h

/-- The site as it shows `FALLOW` and its cause, the attempt counted. -/
def State.fallowShown (s : State) (cause : Nat) (start : Bool) : State :=
  if start then ((s.setSite stFallow).putFld .devStartSt 56 8 cause).bump .devStartSt 44 4
  else (s.setSite stFallow).putFld .devStartSt 56 8 cause

/-- The event of `FALLOW` noted, and its alert raised. -/
def State.fallowNoted (s : State) (cause : Nat) : State :=
  (if cause = 4 then s.logEvent
    else s.record { Event.of .site 0xFFFF 0 clsFallow .none with failed := true } 1 0 false false).alert alFallow

theorem State.fallowShown_shows (cause : Nat) (start : Bool) : (s.fallowShown cause start).site = stFallow ∧
    (s.fallowShown cause start).rfld .devStartSt 56 8 = cause % 256 := by
  have hfld : ((s.setSite stFallow).putFld .devStartSt 56 8 cause).rfld .devStartSt 56 8 = cause % 2 ^ 8 :=
    State.rfld_putFld_self _ _ _ _ _ (by decide)
  have hsite : ((s.setSite stFallow).putFld .devStartSt 56 8 cause).site = stFallow :=
    (State.rfld_putFld_ne _ _ _ _ _ _ _ _ (.inl (by simp))).trans (s.site_setSite stFallow)
  unfold State.fallowShown
  generalize (s.setSite stFallow).putFld .devStartSt 56 8 cause = t at hfld hsite
  split
  · exact ⟨(t.rfld_bump_ne _ _ _ _ _ _ _ (.inl (by simp))).trans hsite,
      (t.rfld_bump_ne _ _ _ _ _ _ _ (.inr (.inr (by decide)))).trans hfld⟩
  · exact ⟨hsite, hfld⟩

theorem State.fallowNoted_reg (cause : Nat) {r : Reg} (h1 : r ≠ .clkEventSeq) (h2 : r ≠ .devMgtAlert) :
    (s.fallowNoted cause).reg r = s.reg r := by
  unfold State.fallowNoted
  rw [(State.alert_rest _ _).2.1 r h2]
  split
  · exact State.reg_logEvent_ne s h1
  · exact State.record_reg s _ _ _ _ _ h1

/-- `FALLOW` is shown with its cause, and basin memory is lost (R343, R345). -/
theorem State.enterFallow_shows (cause : Nat) (start : Bool) : (s.enterFallow cause start).site = stFallow ∧
    (s.enterFallow cause start).rfld .devStartSt 56 8 = cause % 256 ∧ (s.enterFallow cause start).mem = [] := by
  have hreg {r : Reg} (h1 : r ≠ .clkEventSeq) (h2 : r ≠ .devMgtAlert) (h3 : ∀ b, r ≠ .pwrBasinSt b) (h4 : ∀ i, r ≠ .sphSt i) :
      (s.enterFallow cause start).reg r = (s.fallowShown cause start).reg r := by
    refine (State.reg_foldl (fun t i => ?_) _ _).trans ((State.reg_foldl (fun t b => State.reg_putReg_ne t (h3 b) 0) _ _).trans
      (State.fallowNoted_reg _ cause h1 h2))
    split
    · exact State.reg_putFld_ne t (h4 i) _ _ _
    · rfl
  obtain ⟨hsite, hfld⟩ := s.fallowShown_shows cause start
  exact ⟨(congrArg (fld · 0 4) (hreg (by simp) (by simp) (by simp) (by simp))).trans hsite,
    (congrArg (fld · 56 8) (hreg (by simp) (by simp) (by simp) (by simp))).trans hfld, rfl⟩

end

/-! ### Steps (R338) -/

section
variable (s : State)

theorem State.requestSupply_start (core sram : Nat) : (s.requestSupply core sram).start = s.start := by
  rw [State.requestSupply_eq]
  split
  · rfl
  · exact ((s.askedFor core sram).alert_rest alVreq).2.2.1

theorem State.reg_of_ite {c : Prop} [Decidable c] {t u : State} {r : Reg} {v : Word64} (ht : t.reg r = v) (hu : u.reg r = v) :
    (if c then t else u).reg r = v := by
  split
  · exact ht
  · exact hu

theorem State.fromCistern_reg {r : Reg} (h1 : r ≠ .clkEventSeq) (h2 : r ≠ .cstFwSt) : s.fromCistern.reg r = s.reg r := by
  unfold State.fromCistern
  exact State.reg_of_ite ((State.reg_putFld_ne _ h2 _ _ _).trans (State.reg_putReg_ne _ h1 _)) (State.reg_putReg_ne _ h1 _)

/-- Step 4 begins: the PLL has locked, supplies are asked for (R338). -/
theorem State.enterBoot_shows : s.enterBoot.start.step = 4 ∧ s.enterBoot.rfld .clkSt 0 2 = 1 ∧ s.enterBoot.rfld .devStartSt 48 4 = 4 := by
  have hstep : ((s.putFld .clkSt 0 2 1).showStep 4).rfld .devStartSt 48 4 = 4 := State.rfld_putFld_self _ .devStartSt 48 4 4 (by decide)
  have hclk : ((s.putFld .clkSt 0 2 1).showStep 4).rfld .clkSt 0 2 = 1 :=
    (State.rfld_putFld_ne _ _ _ _ _ _ _ _ (.inl (by simp))).trans (s.rfld_putFld_self .clkSt 0 2 1 (by decide))
  unfold State.enterBoot
  generalize (s.putFld .clkSt 0 2 1).showStep 4 = t at hstep hclk
  dsimp only
  obtain ⟨hreg, -, -, -⟩ := State.requestSupply_rest (s := { t.fromCistern with start := { t.fromCistern.start with step := 4 } })
    (coreLevel 4) sramNominal
  have hread (r : Reg) (lo n : Nat) (h1 : r ≠ .pwrVreq) (h2 : r ≠ .devMgtAlert) (h3 : r ≠ .clkEventSeq) (h4 : r ≠ .cstFwSt) :
      (({ t.fromCistern with start := { t.fromCistern.start with step := 4 } } : State).requestSupply (coreLevel 4) sramNominal).rfld r lo n =
        t.rfld r lo n := congrArg (fld · lo n) ((hreg r h1 h2).trans (t.fromCistern_reg h3 h4))
  exact ⟨congrArg Start.step (State.requestSupply_start _ _ _), (hread _ _ _ (by simp) (by simp) (by simp) (by simp)).trans hclk,
    (hread _ _ _ (by simp) (by simp) (by simp) (by simp)).trans hstep⟩

/-! ### Step 4: the image (R341, R405) -/

theorem State.fillCheck_reg (b c : Nat) {r : Reg} (h1 : r ≠ .pwrBasinSt b) (h2 : r ≠ .bsnArbSt b) : (s.fillCheck b c).reg r = s.reg r := by
  show ((s.putFld (.pwrBasinSt b) (2 * c) 2 3).bump (.bsnArbSt b) 16 16).reg r = _
  rw [State.reg_bump_ne _ h2, State.reg_putFld_ne _ h1]

theorem State.fillCheck_rest (b c : Nat) : (s.fillCheck b c).running = s.running ∧ (s.fillCheck b c).start = s.start :=
  ⟨rfl, rfl⟩

theorem State.rampBanks_reg {r : Reg} (h1 : ∀ b, r ≠ .pwrBasinSt b) (h2 : ∀ b, r ≠ .bsnArbSt b) : s.rampBanks.reg r = s.reg r :=
  State.reg_foldl (fun t b => State.reg_foldl (fun u c => u.fillCheck_reg b c (h1 b) (h2 b)) _ t) _ s

theorem State.rampBanks_running : s.rampBanks.running = s.running :=
  foldl_keeps (fun t : State => t.running = s.running) _ (fun t b h =>
    (foldl_keeps (fun u : State => u.running = t.running) _ (fun u c k => (u.fillCheck_rest b c).1.trans k) _ t rfl).trans h) _ s rfl

/-- The image that runs, and the responder with it. -/
def State.runs (s : State) (x : ImageInfo) (y : Spdm) : State := { s with running := x, spdm := y }

theorem State.runs_rest (x : ImageInfo) (y : Spdm) : (s.runs x y).running = x ∧ ∀ r, (s.runs x y).reg r = s.reg r :=
  ⟨rfl, fun _ => rfl⟩

theorem State.enterStep_rest (k : Nat) : (s.enterStep k).start.step = k ∧ (s.enterStep k).running = s.running ∧
    ∀ r, (s.enterStep k).reg r = (s.showStep k).reg r := ⟨rfl, rfl, fun _ => rfl⟩

/-- The image `x` begins to run in step 5, from slot `b`, `other` than the active one or not. -/
def State.imageRuns (s : State) (x : ImageInfo) (b other : Bool) : State :=
  ((s.putFld .devStartSt 40 1 b.toNat).putFld .devStartSt 41 1 other.toNat).runs x { s.spdm with
    aliasGen := s.spdm.aliasGen + 1, measured2 := if x = s.running then s.spdm.measured2 else s.spdm.measured2 + 1 }

theorem State.imageRuns_rest (x : ImageInfo) (b other : Bool) : (s.imageRuns x b other).running = x ∧
    (s.imageRuns x b other).reg .devStartSt = setFld (setFld (s.reg .devStartSt) 40 1 b.toNat) 41 1 other.toNat := by
  rw [State.imageRuns, (State.runs_rest _ _ _).2, State.reg_putFld_self, State.reg_putFld_self]
  exact ⟨(State.runs_rest _ _ _).1, rfl⟩

theorem State.boot_eq (hcopy : s.cistern.copyPending = false) (r : StepResult) : s.boot r =
    match s.bootSlot (bit r.imagesOk 0) (bit r.imagesOk 1) with
    | none => s.enterFallow 1 true
    | some (b, other) => (((s.imageRuns (s.slotInfo b) b other).placeImage (s.slotInfo b)).showImage).rampBanks.enterStep 5 := by
  have hslot : s.copySlot = none := by simp [State.copySlot, hcopy]
  have hsame : s.copyAtStart (bit r.imagesOk 2) = s := by simp [State.copyAtStart, hcopy]
  unfold State.boot
  dsimp only
  rw [hslot, hsame]
  rfl

theorem State.placeImage_reg (x : ImageInfo) (q : Reg) : (s.placeImage x).reg q = (s.putFld .ctlRemap 0 2 0).reg q := rfl

theorem fld_bool (b : Bool) : b.toNat % 2 ^ 1 = b.toNat := by cases b <;> rfl

/-- The boot image runs (R341). -/
theorem State.boots (x : ImageInfo) (b other : Bool) :
    ((((s.imageRuns x b other).placeImage x).showImage).rampBanks.enterStep 5).start.step = 5 ∧
      ((((s.imageRuns x b other).placeImage x).showImage).rampBanks.enterStep 5).running = x ∧
      ((((s.imageRuns x b other).placeImage x).showImage).rampBanks.enterStep 5).rfld .devStartSt 40 1 = b.toNat ∧
      ((((s.imageRuns x b other).placeImage x).showImage).rampBanks.enterStep 5).rfld .devStartSt 41 1 = other.toNat ∧
      ((((s.imageRuns x b other).placeImage x).showImage).rampBanks.enterStep 5).rfld .secSt 40 8 = x.svn % 2 ^ 8 := by
  obtain ⟨h1, h2⟩ := s.imageRuns_rest x b other
  generalize s.imageRuns x b other = t at h1 h2
  have hshow (u : State) {q : Reg} (hq : q ≠ .secSt) : u.showImage.reg q = u.reg q := by
    rw [State.showImage, State.showOwner, State.reg_putFld_ne _ hq, State.reg_putFld_ne _ hq, State.reg_putFld_ne _ hq]
  have hplace (q : Reg) (hq : q ≠ .ctlRemap) : (t.placeImage x).reg q = t.reg q := (t.placeImage_reg x q).trans (State.reg_putFld_ne t hq 0 2 0)
  have hstart : ((t.placeImage x).showImage).rampBanks.reg .devStartSt = t.reg .devStartSt := by
    rw [State.rampBanks_reg _ (by simp) (by simp), hshow _ (by simp), hplace _ (by simp)]
  have hrun : ((t.placeImage x).showImage).rampBanks.running = x := (State.rampBanks_running _).trans h1
  have hsec : ((t.placeImage x).showImage).rampBanks.rfld .secSt 40 8 = x.svn % 2 ^ 8 := by
    rw [State.rfld, State.rampBanks_reg _ (by simp) (by simp), State.showImage, ← State.rfld, State.rfld_putFld_self _ _ _ _ _ (by decide)]
    rw [show (t.placeImage x).running = t.running from rfl, h1]
  generalize ((t.placeImage x).showImage).rampBanks = w at hstart hrun hsec
  have hfld (lo n : Nat) (h : lo + n ≤ 48) : (w.enterStep 5).rfld .devStartSt lo n = fld (t.reg .devStartSt) lo n := by
    rw [← hstart, State.rfld, (w.enterStep_rest 5).2.2, State.showStep]
    exact w.rfld_putFld_ne .devStartSt .devStartSt 48 4 lo n 5 (.inr (.inl h))
  refine ⟨(w.enterStep_rest 5).1, (w.enterStep_rest 5).2.1.trans hrun, ?_, ?_, ?_⟩
  · rw [hfld _ _ (by decide), h2, fld_setFld_ne _ _ _ _ _ _ (by decide), fld_setFld_self _ _ _ _ (by decide), fld_bool]
  · rw [hfld _ _ (by decide), h2, fld_setFld_self _ _ _ _ (by decide), fld_bool]
  · rw [State.rfld, (w.enterStep_rest 5).2.2, State.showStep]
    exact (w.rfld_putFld_ne .devStartSt .secSt 48 4 40 8 5 (.inl (by simp))).trans hsec

/-! ### Step 6: calibration (R347) -/

/-- A siphon stands out of service, with nothing queued, served or gathered. -/
def State.siphonStopped (s : State) (i : Nat) : State :=
  let t := (s.putFld (.sphSt i) 8 4 2).putSiphon i { s.siphon i with queue := [], granted := [], served := [] }
  { t with combining := t.combining.filter fun x => x.1 / 2 ^ 20 ≠ i }

/-- A tile's shadow is given up. -/
def State.unshadow (s : State) (x : Nat × Nat) : State :=
  let v := setBit (s.descOf x.1 x.2) 447 false
  { s.putDesc x.1 x.2 v with placements := nset s.placements 0 (dkey x.1 x.2) v }

/-- The tiles whose shadows siphon `i` holds. -/
def State.shadowedOn (s : State) (i : Nat) : List (Nat × Nat) :=
  (s.placements.filter fun x => s.shadowOn (s.descOf (x.1 / 16384) (x.1 % 16384)) i).map fun x => (x.1 / 16384, x.1 % 16384)

/-- The shadows siphon `i` holds are given up, to be made anew elsewhere. -/
def State.unshadowed (s : State) (i : Nat) : State :=
  let t := (s.shadowedOn i).foldl State.unshadow s
  { t with reshadows := t.reshadows ++ ((List.range 8).map fun c =>
    (c, (s.shadowedOn i).filter fun x => dCtx (t.descOf x.1 x.2) = c)).filter fun x => !x.2.isEmpty }

/-- The event a siphon that goes out of service posts (R307). -/
def State.siphonGone (s : State) (i : Nat) : Event :=
  { Event.of .siphon 0xFFFF i clsSiphon .none with detail := sphDetail 4 0xFF (s.rfld (.sphLinkSt i) 16 8) 0 }

theorem State.siphonOut_eq (i : Nat) : s.siphonOut i = if s.sphState i = 2 then s
    else (((s.siphonStopped i).post ((s.siphonStopped i).siphonGone i)).recompute).unshadowed i := rfl

theorem State.unshadow_reg (x : Nat × Nat) (r : Reg) : (s.unshadow x).reg r = s.reg r := rfl

theorem State.unshadowed_reg (i : Nat) (r : Reg) : (s.unshadowed i).reg r = s.reg r :=
  State.reg_foldl (f := State.unshadow) (fun t x => t.unshadow_reg x r) (s.shadowedOn i) s

theorem State.siphonStopped_reg (i : Nat) (r : Reg) : (s.siphonStopped i).reg r = (s.putFld (.sphSt i) 8 4 2).reg r := rfl

/-- What a siphon out of service changes of registers (R307). -/
theorem State.siphonOut_reg (i : Nat) {r : Reg} (h1 : r ≠ .sphSt i) (h2 : ∀ b k, r ≠ .trnLatCfg b k) : (s.siphonOut i).reg r = s.reg r := by
  rw [State.siphonOut_eq]
  refine State.reg_of_ite rfl ?_
  rw [State.unshadowed_reg, (State.recompute_rights _).2 r h2, State.reg_of_post, State.siphonStopped_reg, State.reg_putFld_ne _ h1]

theorem State.retireLane_reg (i lane : Nat) {r : Reg} (h1 : r ≠ .sphSt i) (h2 : ∀ b k, r ≠ .trnLatCfg b k) (h3 : r ≠ .sphLinkSt i) :
    (s.retireLane i lane).reg r = s.reg r := by
  unfold State.retireLane
  refine State.reg_of_ite (s.siphonOut_reg i h1 h2) ?_
  dsimp only
  refine (State.reg_of_post _ _ r).trans ?_
  rw [State.reg_putFld_ne _ h3, State.reg_putFld_ne _ h3]
  rfl

theorem State.putSiphon_useFree_reg (i : Nat) (v : Siphon) (r : Reg) : (s.putSiphon i v).useFree.reg r = s.reg r := rfl

/-- A round of calibration changes a siphon's own registers, and rights (R305). -/
theorem State.linkRound_reg (i : Nat) (weak : List Nat) (margin : Nat) {r : Reg} (h1 : r ≠ .sphSt i) (h2 : ∀ b k, r ≠ .trnLatCfg b k)
    (h3 : r ≠ .sphLinkSt i) : (s.linkRound i weak margin).reg r = s.reg r := by
  refine (State.reg_foldl (fun t l => t.retireLane_reg i l h1 h2 h3) _ _).trans ?_
  rw [State.putSiphon_useFree_reg, State.reg_putFld_ne _ h3, State.reg_bump_ne _ h3]

/-- The rounds of the siphons in service, and the canaries read wrong. -/
def State.rounds (s : State) (r : StepResult) : State :=
  let s := s.siphonsUp.foldl (fun (s : State) i =>
    match r.rounds.find? fun x => x.1 = i with
    | some (_, weak, margin) => s.linkRound i weak margin
    | none => s.linkRound i [] ((s.freeVal 77).toNat % 2 ^ 16)) s
  if r.canaryErrors = 0 then s else s.bump .pwrMargin 32 16 r.canaryErrors

theorem State.calibrate_eq (r : StepResult) :
    s.calibrate r = (((s.loadTrims.putFld .pwrPerf 16 4 4).rounds r).putFld .pwrCfg 40 1 1).storeTrims.enterStep 7 := rfl

theorem State.rounds_reg (r : StepResult) {q : Reg} (h1 : ∀ i, q ≠ .sphSt i) (h2 : ∀ b k, q ≠ .trnLatCfg b k) (h3 : ∀ i, q ≠ .sphLinkSt i)
    (h4 : q ≠ .pwrMargin) : (s.rounds r).reg q = s.reg q := by
  have hrounds : (s.siphonsUp.foldl (fun (s : State) i =>
      match r.rounds.find? fun x => x.1 = i with
      | some (_, weak, margin) => s.linkRound i weak margin
      | none => s.linkRound i [] ((s.freeVal 77).toNat % 2 ^ 16)) s).reg q = s.reg q := by
    refine State.reg_foldl (fun t i => ?_) _ s
    split
    · exact t.linkRound_reg i _ _ (h1 i) h2 (h3 i)
    · exact t.linkRound_reg i _ _ (h1 i) h2 (h3 i)
  exact State.reg_of_ite hrounds ((State.reg_bump_ne _ h4 _ _ _).trans hrounds)

theorem bit_setFld_one (x : Word64) {i : Nat} (hi : i < 64) : bit (setFld x i 1 1) i = true := bit_of_setFld x hi true

theorem State.storeTrims_reg (q : Reg) : s.storeTrims.reg q = s.reg q := rfl

/-- Calibrated, the site stands at FLOW_DIV 4 with tracking enabled (R347). -/
theorem State.calibrate_shows (r : StepResult) : (s.calibrate r).start.step = 7 ∧ (s.calibrate r).rfld .pwrPerf 16 4 = 4 ∧
    bit ((s.calibrate r).reg .pwrCfg) 40 = true := by
  have hperf : ((s.loadTrims.putFld .pwrPerf 16 4 4).rounds r).rfld .pwrPerf 16 4 = 4 := by
    rw [State.rfld, State.rounds_reg _ r (by simp) (by simp) (by simp) (by simp)]
    exact State.rfld_putFld_self _ .pwrPerf 16 4 4 (by decide)
  rw [State.calibrate_eq]
  generalize (s.loadTrims.putFld .pwrPerf 16 4 4).rounds r = t at hperf
  have hreg {q : Reg} (hq : q ≠ .devStartSt) : ((t.putFld .pwrCfg 40 1 1).storeTrims.enterStep 7).reg q = (t.putFld .pwrCfg 40 1 1).reg q := by
    rw [(State.enterStep_rest _ 7).2.2, State.showStep, State.reg_putFld_ne _ hq, State.storeTrims_reg]
  refine ⟨(State.enterStep_rest _ 7).1, ?_, ?_⟩
  · rw [State.rfld, hreg (by simp), State.reg_putFld_ne _ (by simp)]
    exact hperf
  · rw [hreg (by simp), State.reg_putFld_self]
    exact bit_setFld_one _ (by decide)

/-! ### Release (R340, R348) -/

/-- Ring 8, the duty and STATE as they are at release. -/
def State.opened (s : State) (first : Bool) : State :=
  let s := ((s.showStep 8).putFld .devStartSt 16 16 (min 0xFFFF s.start.ms)).putFld .devStartSt 43 1 first.toNat
  let s := ((s.putReg (.ringCmd 8) (Reg.resetValue s.cfg (.ringCmd 8))).putReg (.ringRpl 8)
    (Reg.resetValue s.cfg (.ringRpl 8))).putReg (.ringSt 8) (Reg.resetValue s.cfg (.ringSt 8))
  (((s.putFld .pwrPerf 0 5 16).putFld .pwrPerf 8 5 16).putFld .pwrPerf 23 1 0).setSite stAttaching

theorem State.opened_shows (first : Bool) : (s.opened first).site = stAttaching ∧ (s.opened first).ringState 8 = 1 ∧
    (s.opened first).duty = 16 ∧ (s.opened first).rfld .devStartSt 43 1 = first.toNat ∧ (s.opened first).start = s.start ∧
    (s.opened first).cistern = s.cistern := by
  have hreset (c : SiteConfig) : fld (Reg.resetValue c (.ringSt 8)) 0 4 = 1 := by
    rw [Reg.resetValue]
    decide
  refine ⟨State.site_setSite _ _, ?_, ?_, ?_, by simp [State.opened, State.showStep], by simp [State.opened, State.showStep]⟩
  · unfold State.opened State.ringState State.setSite
    dsimp only
    rw [State.rfld, State.reg_putFld_ne _ (by simp), State.reg_putFld_ne _ (by simp), State.reg_putFld_ne _ (by simp),
      State.reg_putFld_ne _ (by simp), State.reg_putReg_self]
    exact hreset _
  · unfold State.opened State.duty State.setSite
    dsimp only
    rw [State.rfld_putFld_ne _ _ _ _ _ _ _ _ (.inl (by simp)), State.rfld_putFld_ne _ _ _ _ _ _ _ _ (.inr (.inl (by decide))),
      State.rfld_putFld_ne _ _ _ _ _ _ _ _ (.inr (.inl (by decide))), State.rfld_putFld_self _ _ _ _ _ (by decide)]
    rfl
  · unfold State.opened State.setSite
    dsimp only
    rw [State.rfld, State.reg_putFld_ne _ (by simp), State.reg_putFld_ne _ (by simp), State.reg_putFld_ne _ (by simp),
      State.reg_putFld_ne _ (by simp), State.reg_putReg_ne _ (by simp), State.reg_putReg_ne _ (by simp), State.reg_putReg_ne _ (by simp),
      ← State.rfld, State.rfld_putFld_self _ _ _ _ _ (by decide), fld_bool]

/-- The site is released; its event and alerts follow. -/
def State.releasedNow (s : State) (ms : Nat) : State := { s with
  start := { s.start with step := 8, released := true, ms := s.start.ms + ms }
  cistern := { s.cistern with blank := false } }

theorem State.releasedNow_rest (ms : Nat) : (s.releasedNow ms).start.released = true ∧ (s.releasedNow ms).start.step = 8 ∧
    (s.releasedNow ms).cistern.blank = false := ⟨rfl, rfl, rfl⟩

theorem execRelease_eq {s : State} (hheld : s.startHeld = false) (hstep : s.start.step = 7) (ms : Nat) : exec (.release ms) s =
    .next (if (((((s.releasedNow ms).opened s.cistern.blank).logEvent.alert alStartDone).showMargin).hotJoin).start.fenceReq then
        ((((s.releasedNow ms).opened s.cistern.blank).logEvent.alert alStartDone).showMargin).hotJoin
      else (((((s.releasedNow ms).opened s.cistern.blank).logEvent.alert alStartDone).showMargin).hotJoin).unfence) := by
  have hcond : ¬ (s.startHeld = true ∨ s.start.step ≠ 7) := by simp [hheld, hstep]
  exact if_neg hcond

theorem State.alert_cistern (i : Nat) : (s.alert i).cistern = s.cistern := by
  unfold State.alert
  dsimp only
  split <;> rfl

/-- A cause that is pending stays so when another comes (R426). -/
theorem State.bit_alert_of (i : Nat) {j : Nat} (h : bit (s.reg .devMgtAlert) j = true) : bit ((s.alert i).reg .devMgtAlert) j = true := by
  have hreg : (s.alert i).reg .devMgtAlert = s.reg .devMgtAlert ||| maskOf i 1 := by
    unfold State.alert
    dsimp only
    split
    · exact s.reg_setW1c_self .devMgtAlert _
    · exact s.reg_setW1c_self .devMgtAlert _
  rw [bit] at h ⊢
  rw [hreg, BitVec.getLsbD_or, h]
  rfl

theorem State.hotJoin_rest : s.hotJoin.start = s.start ∧ s.hotJoin.cistern = s.cistern ∧
    (∀ r, r ≠ .devMgtAlert → s.hotJoin.reg r = s.reg r) ∧
    (bit (s.reg .devMgtAlert) 1 = true → bit (s.hotJoin.reg .devMgtAlert) 1 = true) := by
  unfold State.hotJoin
  split
  · obtain ⟨-, h2, h3, -⟩ := s.alert_rest alHotJoin
    exact ⟨h3, s.alert_cistern _, h2, s.bit_alert_of _⟩
  · exact ⟨rfl, rfl, fun _ _ => rfl, id⟩

theorem State.trainingDone_start : ∃ ack, s.trainingDone = { s with start := { s.start with fenceAck := ack } } := by
  unfold State.trainingDone
  split
  · exact ⟨s.start.fenceAck, rfl⟩
  · exact ⟨false, rfl⟩

theorem State.unfence_rest : s.unfence.start.step = s.start.step ∧ s.unfence.start.released = s.start.released ∧
    s.unfence.cistern = s.cistern ∧ ∀ r, (∀ c, r ≠ .culSt c) → s.unfence.reg r = s.reg r := by
  have hcis : ((List.range 4).foldl (State.culvertTo trainingRecord culTraining) s).cistern = s.cistern :=
    State.cistern_foldl (f := State.culvertTo trainingRecord culTraining) (fun t c => by unfold State.culvertTo; split <;> rfl) _ s
  obtain ⟨-, h2, -, h4, -⟩ := State.culverts_to trainingRecord culTraining s (List.range 4) List.nodup_range (by decide)
  have htrain : s.trainCulverts = ((List.range 4).foldl (State.culvertTo trainingRecord culTraining) s).trainingDone := rfl
  unfold State.unfence
  split
  · rw [htrain]
    generalize (List.range 4).foldl (State.culvertTo trainingRecord culTraining) s = t at hcis h2 h4
    obtain ⟨ack, e⟩ := t.trainingDone_start
    rw [e]
    exact ⟨(congrArg Start.step h2 :), (congrArg Start.released h2 :), hcis, h4⟩
  · exact ⟨rfl, rfl, rfl, fun _ _ => rfl⟩

theorem State.logEvent_blank : s.logEvent.cistern.blank = s.cistern.blank := by
  unfold State.logEvent
  dsimp only
  split <;> rfl

theorem State.showMargin_cistern : s.showMargin.cistern = s.cistern := rfl

/-- What release leaves, whether its culverts train at once or not (R340, R348, R351). -/
theorem State.release_shows {s : State} (hheld : s.startHeld = false) (hstep : s.start.step = 7) (ms : Nat) :
    ∃ u, exec (.release ms) s = .next u ∧ u.start.released = true ∧ u.start.step = 8 ∧
       u.site = stAttaching ∧ u.ringState 8 = 1 ∧ bit (u.reg .devMgtAlert) 1 = true ∧ u.cistern.blank = false ∧
       u.rfld .devStartSt 43 1 = s.cistern.blank.toNat ∧ u.duty = 16 := by
  obtain ⟨h1, h2, h3, h4, h5, h6⟩ := (s.releasedNow ms).opened_shows s.cistern.blank
  rw [execRelease_eq hheld hstep]
  obtain ⟨r1, r2, r3⟩ := s.releasedNow_rest ms
  have hrel : ((s.releasedNow ms).opened s.cistern.blank).start.released = true ∧
      ((s.releasedNow ms).opened s.cistern.blank).start.step = 8 := by
    rw [h5]
    exact ⟨r1, r2⟩
  have hblank : ((s.releasedNow ms).opened s.cistern.blank).cistern.blank = false := by
    rw [h6]
    exact r3
  generalize (s.releasedNow ms).opened s.cistern.blank = v at h1 h2 h3 h4 hrel hblank
  obtain ⟨-, a2, a3, -⟩ := v.logEvent.alert_rest alStartDone
  obtain ⟨j1, j2, j3, j4⟩ := (v.logEvent.alert alStartDone).showMargin.hotJoin_rest
  have hstart : ((v.logEvent.alert alStartDone).showMargin).hotJoin.start = v.start :=
    j1.trans ((State.showMargin_keeps _).2.1.trans (a3.trans v.start_logEvent))
  have hcis : ((v.logEvent.alert alStartDone).showMargin).hotJoin.cistern.blank = false := by
    rw [j2, State.showMargin_cistern, State.alert_cistern, State.logEvent_blank]
    exact hblank
  have hreg {r : Reg} (k1 : r ≠ .devMgtAlert) (k2 : r ≠ .pwrMargin) (k3 : r ≠ .clkEventSeq) :
      ((v.logEvent.alert alStartDone).showMargin).hotJoin.reg r = v.reg r :=
    (j3 r k1).trans ((State.showMargin_reg _ k2).trans ((a2 r k1).trans (v.reg_logEvent_ne k3)))
  have hal : bit (((v.logEvent.alert alStartDone).showMargin).hotJoin.reg .devMgtAlert) 1 = true := by
    refine j4 ?_
    rw [State.showMargin_reg _ (by simp)]
    exact State.bit_alert _ (by decide)
  generalize ((v.logEvent.alert alStartDone).showMargin).hotJoin = w at hstart hcis hreg hal
  have hw : w.site = stAttaching ∧ w.ringState 8 = 1 ∧ w.rfld .devStartSt 43 1 = s.cistern.blank.toNat ∧ w.duty = 16 :=
    ⟨(congrArg (fld · 0 4) (hreg (by simp) (by simp) (by simp))).trans h1,
      (congrArg (fld · 0 4) (hreg (by simp) (by simp) (by simp))).trans h2,
      (congrArg (fld · 43 1) (hreg (by simp) (by simp) (by simp))).trans h4,
      (congrArg (fld · 0 5) (hreg (by simp) (by simp) (by simp))).trans h3⟩
  obtain ⟨w1, w2, w3, w4⟩ := hw
  refine ⟨_, rfl, ?_⟩
  split
  · exact ⟨(congrArg Start.released hstart).trans hrel.1, (congrArg Start.step hstart).trans hrel.2, w1, w2, hal, hcis, w3, w4⟩
  · obtain ⟨u1, u2, u3, u4⟩ := w.unfence_rest
    refine ⟨u2.trans ((congrArg Start.released hstart).trans hrel.1), u1.trans ((congrArg Start.step hstart).trans hrel.2), ?_, ?_, ?_,
      (congrArg Cistern.blank u3).trans hcis, ?_, ?_⟩
    · exact (congrArg (fld · 0 4) (u4 _ (by simp))).trans w1
    · exact (congrArg (fld · 0 4) (u4 _ (by simp))).trans w2
    · rw [u4 _ (by simp)]
      exact hal
    · exact (congrArg (fld · 43 1) (u4 _ (by simp))).trans w3
    · exact (congrArg (fld · 0 5) (u4 _ (by simp))).trans w4

end

/-! ### Causes of a start (R313, R317, R338, R339) -/

section
variable {s : State}

/-- Power comes, or goes. -/
def State.powered (s : State) (good : Bool) : State := { s with start := { s.start with pwrGood := good, thermTrip := false } }

/-- The step set to zero with the port at rest, as power goes. -/
def State.unpowered (t : State) : State := { t with start := { t.start with step := 0 }, tap := t.tap.rest }

theorem State.unpowered_rest (t : State) : t.unpowered.start = { t.start with step := 0 } ∧ t.unpowered.cistern = t.cistern ∧
    t.unpowered.mem = t.mem ∧ t.unpowered.tap.driven = false := ⟨rfl, rfl, rfl, rfl⟩

theorem State.powered_rest (s : State) (good : Bool) : (s.powered good).start.pwrGood = good ∧
    (s.powered good).cistern = s.cistern := ⟨rfl, rfl⟩

theorem powerGoodRise_starts (h : s.start.pwrGood = false) : ∃ u, exec .powerGoodRise s = .next u ∧ u.start.pwrGood = true ∧
    u.start.step = 1 ∧ u.start.released = false ∧ u.cistern.records = s.cistern.records ∧ u.mem = [] := by
  have hexec : exec .powerGoodRise s = .next ((s.powered true).restartCold 0) := congrArg Host.Outcome.next (if_neg (by simp [h]))
  obtain ⟨h1, h2, h3, h4, h5, -⟩ := (s.powered true).restartCold_starts 0
  exact ⟨_, hexec, h1.trans (s.powered_rest true).1, h2, h3, h4.trans (congrArg Cistern.records (s.powered_rest true).2), h5⟩

theorem powerGoodFall_stops (h : s.start.pwrGood = true) : ∃ u, exec .powerGoodFall s = .next u ∧ u.start.pwrGood = false ∧
    u.start.step = 0 ∧ u.start.released = false ∧ u.cistern.records = s.cistern.records ∧ u.mem = [] ∧ u.tap.driven = false := by
  have hcond : ¬ (!s.start.pwrGood) = true := by simp [h]
  have hexec : exec .powerGoodFall s = .next ((s.powered false).restartCold 0).unpowered := if_neg hcond
  obtain ⟨h1, -, h3, h4, h5, -⟩ := (s.powered false).restartCold_starts 0
  obtain ⟨k1, k2, k3, k4⟩ := ((s.powered false).restartCold 0).unpowered_rest
  rw [hexec]
  generalize ((s.powered false).restartCold 0).unpowered = u at k1 k2 k3 k4
  refine ⟨u, rfl, ?_, ?_, ?_, ?_, k3.trans h5, k4⟩
  · rw [k1]
    exact h1.trans (s.powered_rest false).1
  · rw [k1]
  · rw [k1]
    exact h3
  · rw [k2, h4, (s.powered_rest false).2]

/-- `DEV_RESET_N` is asserted, or not. -/
def State.resetPin (s : State) (v : Bool) : State := { s with start := { s.start with resetAsserted := v } }

/-- The bus as it is after power or the reset pin. -/
def State.busFresh (s : State) : State :=
  { s with mgt := { s.mgt with dyn := none, mwl := 64, mrl := 64, events := 0x0B, awake := true } }

theorem State.busFresh_rest (s : State) : s.busFresh.start = s.start ∧ s.busFresh.cistern = s.cistern ∧
    ∀ r, s.busFresh.reg r = s.reg r := ⟨rfl, rfl, fun _ => rfl⟩

theorem State.putFld_rest (s : State) (r : Reg) (lo n v : Nat) : (s.putFld r lo n v).start = s.start ∧
    (s.putFld r lo n v).cistern = s.cistern := ⟨rfl, rfl⟩

theorem devResetAssert_starts (hpwr : s.start.pwrGood = true) (hstep : 3 ≤ s.start.step) : ∃ u, exec .devResetAssert s = .next u ∧
    u.start.resetAsserted = true ∧ u.start.step = 3 ∧ u.start.released = false ∧ u.rfld .pwrSt 32 8 = 1 ∧
    u.reg .clkRootCnt = s.reg .clkRootCnt ∧ u.cistern.records = s.cistern.records := by
  have hcond : ¬ (!(s.resetPin true).start.pwrGood) = true := by simp [State.resetPin, hpwr]
  have hcond' : ¬ (s.resetPin true).start.step < 3 := Nat.not_lt.2 hstep
  have hexec : exec .devResetAssert s =
      .next (((s.resetPin true).restart Reg.keptByReset 0).openStart.busFresh.putFld .pwrSt 32 8 1) :=
    (if_neg hcond).trans (if_neg hcond')
  have hstart := (s.resetPin true).restart_start Reg.keptByReset 0
  have hrec := (s.resetPin true).restart_records Reg.keptByReset 0
  have hcnt := (s.resetPin true).restart_rfld Reg.keptByReset 0 (r := .clkRootCnt) rfl (.inl rfl) (lo := 0) (n := 64) (.inr (by simp))
  rw [hexec]
  generalize (s.resetPin true).restart Reg.keptByReset 0 = t at hstart hrec hcnt
  obtain ⟨o1, o2, -, -⟩ := t.openStart_rest
  obtain ⟨b1, b2, b3⟩ := t.openStart.busFresh_rest
  obtain ⟨f1, f2⟩ := t.openStart.busFresh.putFld_rest .pwrSt 32 8 1
  have hfull : ∀ x y : Word64, fld x 0 64 = fld y 0 64 → x = y := fun x y h => by
    refine BitVec.eq_of_toNat_eq ?_
    simpa [fld, Nat.mod_eq_of_lt x.isLt, Nat.mod_eq_of_lt y.isLt] using h
  refine ⟨_, rfl, ?_, ?_, ?_, State.rfld_putFld_self _ _ _ _ _ (by decide), hfull _ _ ?_, ?_⟩
  · rw [f1, b1, o1, hstart]
    rfl
  · rw [f1, b1, o1, hstart]
  · rw [f1, b1, o1, hstart]
  · rw [State.reg_putFld_ne _ (by simp), b3, State.openStart_reg _ (by simp) (by simp)]
    exact hcnt
  · rw [f2, b2, o2]
    exact hrec

theorem devResetDeassert_starts (hres : s.start.resetAsserted = true) (hpwr : s.start.pwrGood = true) (hstep : s.start.step = 3)
    (hclk : s.start.clockLost = false) : ∃ u, exec .devResetDeassert s = .next u ∧ u.start.resetAsserted = false ∧
    u.rfld .devStartSt 48 4 = 3 ∧ u.tap.instr ≠ .extest := by
  generalize ht : ({ s with start := { s.start with resetAsserted := false }, tap := s.tap.undrive } : State) = t
  have hexec : exec .devResetDeassert s = .next t.enterFuses := by
    refine congrArg Host.Outcome.next ((if_pos (?_ : s.start.resetAsserted = true ∧ s.start.pwrGood = true ∧ s.start.step = 3)).trans ?_)
    · exact ⟨hres, hpwr, hstep⟩
    · rw [ht]
  have htap : t.tap.instr ≠ .extest := by
    rw [← ht]
    show s.tap.undrive.instr ≠ .extest
    unfold Tap.undrive
    split
    · simp
    · assumption
  have hfuses : t.enterFuses = ({ t with start := { t.start with step := 3 } } : State).openStart :=
    if_neg (by rw [← ht]; simp [hclk])
  obtain ⟨o1, -, o3, o4⟩ := State.openStart_rest { t with start := { t.start with step := 3 } }
  rw [hexec, hfuses]
  refine ⟨_, rfl, ?_, o4, ?_⟩
  · rw [o1, ← ht]
  · rw [o3]
    exact htap

/-- The clock is lost: the sequence goes back to fuse load, where it had got that far (R313). -/
def State.clockGone (s : State) : State :=
  let s := { s with start := { s.start with clockLost := true } }
  if s.start.step < 3 then s else { s with mgt := { s.mgt with awake := true } }.restart Reg.alwaysOn 0

theorem State.clockGone_rest (s : State) : s.clockGone.start.clockLost = true ∧
    s.clockGone.start.step = (if s.start.step < 3 then s.start.step else 3) ∧
    (3 ≤ s.start.step → s.clockGone.start.released = false) ∧
    s.clockGone.rfld .clkSt 48 16 = s.rfld .clkSt 48 16 := by
  unfold State.clockGone
  dsimp only
  split
  · next h => exact ⟨rfl, rfl, fun k => absurd k (Nat.not_le.2 h), rfl⟩
  · next h =>
    generalize ht : ({ s with start := { s.start with clockLost := true }, mgt := { s.mgt with awake := true } } : State) = t
    have hstart := t.restart_start Reg.alwaysOn 0
    have hcnt := t.restart_rfld Reg.alwaysOn 0 (r := .clkSt) rfl (.inr rfl) (lo := 48) (n := 16) (.inl (by decide))
    refine ⟨?_, ?_, fun _ => ?_, hcnt.trans (by rw [← ht]; rfl)⟩
    · rw [hstart, ← ht]
    · rw [hstart]
    · rw [hstart]

/-- The power manager's domain starts cold when the clock comes again. -/
def State.coldAgain (s : State) : State := { s with start := { s.start with cold := true } }

theorem State.coldAgain_rest (s : State) : s.coldAgain.start = { s.start with cold := true } ∧
    ∀ r, s.coldAgain.reg r = s.reg r := ⟨rfl, fun _ => rfl⟩

theorem clockLoss_stops (hpwr : s.start.pwrGood = true) (hclk : s.start.clockLost = false) : ∃ u, exec .clockLoss s = .next u ∧
    u.start.clockLost = true ∧ u.start.step = (if s.start.step < 3 then s.start.step else 3) ∧
    (3 ≤ s.start.step → u.start.released = false) ∧ u.rfld .pwrSt 32 8 = 3 ∧ u.rfld .clkSt 0 2 = 2 ∧
    u.rfld .clkSt 48 16 = min (s.rfld .clkSt 48 16 + 1) (2 ^ 16 - 1) := by
  have hcond : ¬ ((!s.start.pwrGood) = true ∨ s.start.clockLost = true) := by simp [hpwr, hclk]
  have hexec : exec .clockLoss s =
      .next (((s.clockGone.coldAgain.putFld .pwrSt 32 8 3).bump .clkSt 48 16).putFld .clkSt 0 2 2) := if_neg hcond
  obtain ⟨h1, h2, h3, h4⟩ := s.clockGone_rest
  rw [hexec]
  generalize s.clockGone = t at h1 h2 h3 h4
  obtain ⟨c1, c2⟩ := t.coldAgain_rest
  have hst : (((t.coldAgain.putFld .pwrSt 32 8 3).bump .clkSt 48 16).putFld .clkSt 0 2 2).start = t.coldAgain.start := by simp
  refine ⟨_, rfl, ?_, ?_, ?_, ?_, State.rfld_putFld_self _ _ _ _ _ (by decide), ?_⟩
  · rw [hst, c1]
    exact h1
  · rw [hst, c1]
    exact h2
  · rw [hst, c1]
    exact h3
  · rw [State.rfld_putFld_ne _ _ _ _ _ _ _ _ (.inl (by simp)), State.rfld_bump_ne _ _ _ _ _ _ _ _ (.inl (by simp)),
      State.rfld_putFld_self _ _ _ _ _ (by decide)]
    rfl
  · rw [State.rfld_putFld_ne _ _ _ _ _ _ _ _ (.inr (.inr (by decide))), State.rfld_bump_self _ _ _ _ (by decide),
      State.rfld_putFld_ne _ _ _ _ _ _ _ _ (.inl (by simp)), State.rfld, c2, ← State.rfld, h4]

theorem clockRestart_goes (hclk : s.start.clockLost = true) : ∃ u, exec .clockRestart s = .next u ∧ u.start.clockLost = false ∧
    u.start.step = s.start.step ∧ u.cistern = s.cistern := by
  generalize ht : ({ s.putFld .clkSt 1 1 0 with start := { s.start with clockLost := false } } : State) = t
  have hcond : ¬ (!s.start.clockLost) = true := by simp [hclk]
  have hstart : t.start = { s.start with clockLost := false } := by rw [← ht]
  have hcis : t.cistern = s.cistern := by rw [← ht]; rfl
  have hexec : exec .clockRestart s = .next (if t.start.pwrGood = true ∧ t.start.step = 3 then t.enterFuses else t) := by
    rw [← ht]
    exact if_neg hcond
  refine ⟨_, hexec, ?_⟩
  split
  · next h =>
    obtain ⟨f1, -, f3⟩ := t.enterFuses_rest
    refine ⟨?_, ?_, f1.trans hcis⟩
    · rw [f3, hstart]
    · have hstep := h.2
      rw [hstart] at hstep
      rw [f3]
      exact hstep.symm
  · exact ⟨by rw [hstart], by rw [hstart], hcis⟩

theorem keeperBrownOut_starts (hpwr : s.start.pwrGood = true) : ∃ u, exec .keeperBrownOut s = .next u ∧ u.start.step = 1 ∧
    u.start.released = false ∧ u.rfld .pwrSt 32 8 = 2 ∧ u.mem = [] := by
  have hexec : exec .keeperBrownOut s = .next (s.restartCold 2) := congrArg Host.Outcome.next (if_pos hpwr)
  obtain ⟨-, h2, h3, -, h5, h6⟩ := s.restartCold_starts 2
  exact ⟨_, hexec, h2, h3, h6, h5⟩

/-! ### Steps that end, and one that times out -/

/-- Time spent in the start so far. -/
def State.spent (s : State) (ms : Nat) : State := { s with start := { s.start with ms := s.start.ms + ms } }

theorem State.spent_rest (s : State) (ms : Nat) : (s.spent ms).start.step = s.start.step ∧ (s.spent ms).cistern = s.cistern :=
  ⟨rfl, rfl⟩

/-- A step that ends, as its number has it. -/
def State.stepEnds (s : State) (r : StepResult) : State :=
  match s.start.step with
  | 1 => s.enterAlwaysOn
  | 2 => s.steadyClock.enterFuses
  | 3 => s.enterBoot
  | 4 => s.boot r
  | 5 => s.selfTest r
  | 6 => s.calibrate r
  | _ => s

theorem execStartStep_ends (hheld : s.startHeld = false) (r : StepResult) (hset : s.start.step = 6 → s.coreSettled = true) :
    exec (.startStep r) s = .next ((s.spent r.ms).stepEnds r) := by
  have hcond : ¬ (s.startHeld || (s.start.step = 6 && !s.coreSettled)) = true := by
    rw [hheld]
    by_cases h : s.start.step = 6
    · simp [hset h]
    · simp [h]
  exact if_neg hcond

/-- Self-test that fails ends in `FALLOW` with its cause; one that passes ends its step (R343, R344). -/
theorem State.selfTest_ends (s : State) (r : StepResult) {v : State} (hv : v = (s.putFld .devStartRes 32 8 r.katFailed.toNat).verdicts r) :
    (∀ c, v.fallowCause r = some c → (s.selfTest r).site = stFallow ∧ (s.selfTest r).rfld .devStartSt 56 8 = c % 2 ^ 8) ∧
      (v.fallowCause r = none → (s.selfTest r).start.step = 6 ∧ (s.selfTest r).reg .devBasinLive = v.reg .devBasinLive) := by
  subst hv
  unfold State.selfTest
  dsimp only
  generalize (s.putFld .devStartRes 32 8 r.katFailed.toNat).verdicts r = v
  refine ⟨fun c hc => ?_, fun hc => ?_⟩
  · rw [hc]
    obtain ⟨h1, h2, -⟩ := v.enterFallow_shows c true
    exact ⟨h1, h2⟩
  · rw [hc]
    refine ⟨(v.enterStep_rest 6).1, ?_⟩
    show (v.enterStep 6).reg .devBasinLive = _
    rw [(v.enterStep_rest 6).2.2, State.showStep, State.reg_putFld_ne _ (by simp)]

/-- The state in which a step that fails ends (R343, R345). -/
theorem startStepTimeout_fails (hheld : s.startHeld = false) (hstep : s.start.step ≠ 0) : ∃ u, exec .startStepTimeout s = .next u ∧
    u.site = stFallow ∧ u.mem = [] ∧ (s.start.step = 4 → u.rfld .devStartSt 56 8 = 1) := by
  have hcond : ¬ (s.startHeld = true ∨ s.start.step = 0) := by simp [hheld, hstep]
  by_cases h4 : s.start.step = 4
  · have hexec : exec .startStepTimeout s = .next (s.enterFallow 1 true) := (if_neg hcond).trans (if_pos h4)
    obtain ⟨h1, h2, h3⟩ := s.enterFallow_shows 1 true
    exact ⟨_, hexec, h1, h3, fun _ => h2⟩
  · have hexec : exec .startStepTimeout s = .next (s.useFree.enterFallow (1 + (s.freeVal 70).toNat % 7) true) :=
      (if_neg hcond).trans (if_neg h4)
    obtain ⟨h1, -, h3⟩ := s.useFree.enterFallow_shows (1 + (s.freeVal 70).toNat % 7) true
    exact ⟨_, hexec, h1, h3, fun h => absurd h h4⟩

end

/-- Settles O53: cause by cause what a start leaves, then step by step what ends each. -/
theorem startsRun : Obligations.StartsRun := by
  refine ⟨fun s => ⟨powerGoodRise_starts, powerGoodFall_stops, devResetAssert_starts, devResetDeassert_starts, clockLoss_stops,
    clockRestart_goes, keeperBrownOut_starts⟩, fun s r hheld => ⟨fun h => ?one, fun h => ?two, fun h => ?three, fun h hcopy => ⟨fun b o hslot => ?boots, fun hslot => ?none⟩,
    fun h => ⟨fun hkat => ?kat, fun v hv hcause => ?tested⟩, fun h hset => ?waits, fun h hset => ?calibrated, fun ms h => State.release_shows hheld h ms,
    startStepTimeout_fails hheld⟩⟩
  case one =>
    have hend : (s.spent r.ms).stepEnds r = (s.spent r.ms).enterAlwaysOn := by simp only [State.stepEnds, (s.spent_rest r.ms).1, h]
    exact ⟨_, (execStartStep_ends hheld r (by omega)).trans (congrArg _ hend), rfl⟩
  case two =>
    have hend : (s.spent r.ms).stepEnds r = (s.spent r.ms).steadyClock.enterFuses := by simp only [State.stepEnds, (s.spent_rest r.ms).1, h]
    exact ⟨_, (execStartStep_ends hheld r (by omega)).trans (congrArg _ hend), (State.enterFuses_starts _).2.1⟩
  case three =>
    have hend : (s.spent r.ms).stepEnds r = (s.spent r.ms).enterBoot := by simp only [State.stepEnds, (s.spent_rest r.ms).1, h]
    exact ⟨_, (execStartStep_ends hheld r (by omega)).trans (congrArg _ hend), State.enterBoot_shows _⟩
  case boots =>
    have hend : (s.spent r.ms).stepEnds r = (s.spent r.ms).boot r := by simp only [State.stepEnds, (s.spent_rest r.ms).1, h]
    have hboot := (s.spent r.ms).boot_eq hcopy r
    rw [show (s.spent r.ms).bootSlot (bit r.imagesOk 0) (bit r.imagesOk 1) = some (b, o) from hslot] at hboot
    exact ⟨_, (execStartStep_ends hheld r (by omega)).trans (congrArg _ (hend.trans hboot)), (s.spent r.ms).boots (s.slotInfo b) b o⟩
  case none =>
    have hend : (s.spent r.ms).stepEnds r = (s.spent r.ms).boot r := by simp only [State.stepEnds, (s.spent_rest r.ms).1, h]
    have hboot := (s.spent r.ms).boot_eq hcopy r
    rw [show (s.spent r.ms).bootSlot (bit r.imagesOk 0) (bit r.imagesOk 1) = none from hslot] at hboot
    obtain ⟨h1, h2, -⟩ := (s.spent r.ms).enterFallow_shows 1 true
    exact ⟨_, (execStartStep_ends hheld r (by omega)).trans (congrArg _ (hend.trans hboot)), h1, h2⟩
  case kat =>
    have hend : (s.spent r.ms).stepEnds r = (s.spent r.ms).selfTest r := by simp only [State.stepEnds, (s.spent_rest r.ms).1, h]
    obtain ⟨hfail, -⟩ := (s.spent r.ms).selfTest_ends r rfl
    obtain ⟨h1, h2⟩ := hfail 2 (if_pos hkat)
    exact ⟨_, (execStartStep_ends hheld r (by omega)).trans (congrArg _ hend), h1, h2⟩
  case tested =>
    have hend : (s.spent r.ms).stepEnds r = (s.spent r.ms).selfTest r := by simp only [State.stepEnds, (s.spent_rest r.ms).1, h]
    obtain ⟨-, hpass⟩ := (s.spent r.ms).selfTest_ends r hv
    exact ⟨_, (execStartStep_ends hheld r (by omega)).trans (congrArg _ hend), hpass hcause⟩
  case waits =>
    have hcond : (s.startHeld || (s.start.step = 6 && !s.coreSettled)) = true := by simp [h, hset]
    exact if_pos hcond
  case calibrated =>
    have hend : (s.spent r.ms).stepEnds r = (s.spent r.ms).calibrate r := by simp only [State.stepEnds, (s.spent_rest r.ms).1, h]
    exact ⟨_, (execStartStep_ends hheld r fun _ => hset).trans (congrArg _ hend), State.calibrate_shows _ r⟩

end Sys2Proof.Machine
end

section
set_option Elab.async false -- the whole text is compiled in one process, within a fixed memory
/-! SUPPORT. Registers that stores leave, and sleep: entries refused, aborted and committed, wakes, and samples in `TRICKLE`
(R320–R329, R333). -/

namespace Sys2Proof.Machine

/-! ### Registers outside the basins, under stores of basin memory -/

theorem Reg.ne_of_basin {r q : Reg} (hr : r.basin? = none) {b : Nat} (hq : q.basin? = some b) : r ≠ q := by
  rintro rfl
  rw [hr] at hq
  exact absurd hq (by simp)

section
variable (s : State) {r : Reg} (hr : r.basin? = none)
include hr

theorem State.reg_eccLog (b kind bank row r' c t : Nat) : (s.eccLog b kind bank row r' c t).reg r = s.reg r := by
  have hne : r ≠ .bsnEccLog b := Reg.ne_of_basin hr rfl
  exact State.reg_of_ite rfl ((State.reg_setW1c_ne _ hne _).trans (s.reg_putReg_ne hne _))

theorem State.reg_noteFinding (b pb row : Nat) (rd : Reader) (f : Finding) : (s.noteFinding b pb row rd f).reg r = s.reg r := by
  have hcorr : r ≠ .bsnBankCorr b pb := Reg.ne_of_basin hr rfl
  have hecc : r ≠ .bsnEccSt b := Reg.ne_of_basin hr rfl
  cases f with
  | clean => rfl
  | corrected i =>
    simp only [State.noteFinding]
    rw [State.reg_putFld_ne _ hcorr, State.reg_putFld_ne _ hcorr, State.reg_bump_ne _ hcorr, State.reg_bump_ne _ hecc]
  | bad r' c =>
    simp only [State.noteFinding]
    rw [State.reg_of_post, State.reg_eccLog _ hr, State.reg_bump_ne _ hecc]

theorem State.reg_readWord (b w : Nat) (rd : Reader) : (s.readWord b w rd).1.reg r = s.reg r := s.reg_noteFinding hr _ _ _ _ _

theorem State.reg_storePhys (b pb prow : Nat) (d : List Byte) (dev : BitVec 48) : (s.storePhys b pb prow d dev).reg r = s.reg r := by
  have hdata (i : Nat) : r ≠ .bsnFlipData b i := Reg.ne_of_basin hr rfl
  have hchk : r ≠ .bsnFlipChk b := Reg.ne_of_basin hr rfl
  have hcfg : r ≠ .bsnFlipCfg b := Reg.ne_of_basin hr rfl
  unfold State.storePhys
  refine State.reg_of_ite ?_ rfl
  dsimp only
  rw [State.reg_setW1c_ne _ hcfg, State.reg_putFld_ne _ hcfg, State.reg_foldl (fun t i => State.reg_putReg_ne t (hdata i) 0),
    State.reg_putReg_ne _ hchk]
  rfl

theorem State.reg_storeRow (b bank row : Nat) (d : List Byte) (dev : BitVec 48) : (s.storeRow b bank row d dev).reg r = s.reg r := by
  have hfirst := s.reg_storePhys hr b (s.physBank b bank) (s.physRow b (s.physBank b bank) row) d dev
  cases hcopy : s.copyingTo b bank with
  | none => simpa only [State.storeRow, hcopy] using hfirst
  | some sp =>
    simp only [State.storeRow, hcopy]
    exact (State.reg_storePhys _ hr b sp _ d dev).trans hfirst

theorem State.reg_writePart (b w o : Nat) (bs : List Byte) (rd : Reader) : (s.writePart b w o bs rd).reg r = s.reg r := by
  have hecc : r ≠ .bsnEccSt b := Reg.ne_of_basin hr rfl
  refine State.reg_of_ite (s.reg_storeRow hr _ _ _ _ _) ?_
  have hstored := (State.reg_storeRow (s.readWord b w rd).1 hr b ((s.readWord b w rd).1.bankRow b w).1
    ((s.readWord b w rd).1.bankRow b w).2 ((s.readWord b w rd).2.1.take o ++ bs ++ (s.readWord b w rd).2.1.drop (o + bs.length))
    (if (s.readWord b w rd).2.2 then poison else 0)).trans (s.reg_readWord hr b w rd)
  exact State.reg_of_ite ((State.reg_bump_ne _ hecc _ _ _).trans hstored) hstored

theorem State.reg_writeRange (b off : Nat) (bs : List Byte) (rd : Reader) : (s.writeRange b off bs rd).reg r = s.reg r :=
  State.reg_foldl (fun t _ => t.reg_writePart hr _ _ _ _ _) _ s

end

/-! ### Replies that are written before a site sleeps (R323) -/

section
variable (s : State) {r : Reg} (hr : r.basin? = none) (hring : ∀ k, r ≠ .ringRtail k)
include hr hring

theorem State.reg_writeReply (k : Nat) (rp : Reply) : (s.writeReply k rp).reg r = s.reg r :=
  (State.reg_putFld_ne _ (hring k) _ _ _).trans (s.reg_writeRange hr _ _ _ _)

theorem State.reg_replyOut (k : Nat) : (s.replyOut k).reg r = s.reg r := by
  unfold State.replyOut
  dsimp only
  split
  · exact (State.reg_writeReply _ hr hring _ _).trans rfl
  · exact State.reg_of_ite ((State.reg_writeReply _ hr hring _ _).trans rfl) rfl
  · rfl

theorem State.reg_repliesOut (k : Nat) : (s.repliesOut k).reg r = s.reg r := State.reg_foldl (fun t _ => t.reg_replyOut hr hring k) _ s

end

/-! ### Entries answered to the management controller (R325, R424) -/

section
variable (s : State) {e : Entry} (he : e.src = none) (o : Outcome)

/-- The answer to STATE, with its bytes. -/
def State.stateReplied (s : State) (o : Outcome) : State := { s with mgt := { s.mgt with
  stateEntry := false, resp := [BitVec.ofNat 8 o.status.code] ++ leBytes 4 o.w0.toNat ++ leBytes 4 o.w1.toNat } }

include he in
theorem State.answerEntry_mgt : s.answerEntry e o = (s.stateReplied o).alert alStateDone := by
  rw [State.answerEntry, he]
  rfl

include he in
theorem State.answerEntry_rest : (∀ r, r ≠ .devMgtAlert → (s.answerEntry e o).reg r = s.reg r) ∧ (s.answerEntry e o).power = s.power ∧
    (s.answerEntry e o).lasting = s.lasting := by
  rw [s.answerEntry_mgt he]
  obtain ⟨-, hreg, -, -⟩ := (s.stateReplied o).alert_rest alStateDone
  exact ⟨fun r h => (hreg r h).trans rfl, (State.alert_power alStateDone).trans rfl, (State.lasting_alert _ _).trans rfl⟩

end

/-! ### The register of entries (R325) -/

section
variable (s : State)

theorem State.noteEntry_reg (target outcome point : Nat) {r : Reg} (h1 : r ≠ .pwrEntrySt) (h2 : r ≠ .clkEventSeq) :
    (s.noteEntry target outcome point).reg r = s.reg r := by
  rw [State.noteEntry, State.reg_logEvent_ne _ h2, State.reg_putFld_ne _ h1, State.reg_putFld_ne _ h1, State.reg_putFld_ne _ h1]

theorem State.noteEntry_counts (target outcome point : Nat) {lo n : Nat} (h : 12 ≤ lo) :
    (s.noteEntry target outcome point).rfld .pwrEntrySt lo n = s.rfld .pwrEntrySt lo n := by
  rw [State.noteEntry, State.rfld, State.reg_logEvent_ne _ (by simp), ← State.rfld,
    State.rfld_putFld_ne _ _ _ _ _ _ _ _ (.inr (.inr (by omega))), State.rfld_putFld_ne _ _ _ _ _ _ _ _ (.inr (.inr (by omega))),
    State.rfld_putFld_ne _ _ _ _ _ _ _ _ (.inr (.inr (by omega)))]

theorem State.noteEntry_point (target outcome point : Nat) : (s.noteEntry target outcome point).rfld .pwrEntrySt 0 2 = point % 2 ^ 2 := by
  rw [State.noteEntry, State.rfld, State.reg_logEvent_ne _ (by simp), ← State.rfld, State.rfld_putFld_self _ _ _ _ _ (by decide)]

theorem State.logEvent_power : s.logEvent.power = s.power := by
  unfold State.logEvent
  dsimp only
  split <;> rfl

theorem State.noteEntry_power (target outcome point : Nat) : (s.noteEntry target outcome point).power = s.power :=
  (State.logEvent_power _).trans rfl

/-- An entry that ends without sleep: `FLOW`, counted in its field, its outcome noted. -/
def State.entryFails (s : State) (lo target outcome point : Nat) : State :=
  ((s.setSite stFlow).bump .pwrEntrySt lo 16).noteEntry target outcome point

theorem State.entryFails_shows {lo : Nat} (hlo : 12 ≤ lo) (hlo' : lo + 16 ≤ 64) (target outcome point : Nat) :
    (s.entryFails lo target outcome point).site = stFlow ∧
      (s.entryFails lo target outcome point).rfld .pwrEntrySt 6 2 = outcome % 4 ∧
      (s.entryFails lo target outcome point).rfld .pwrEntrySt 0 2 = point % 2 ^ 2 ∧
      (s.entryFails lo target outcome point).rfld .pwrEntrySt lo 16 = min (s.rfld .pwrEntrySt lo 16 + 1) (2 ^ 16 - 1) := by
  refine ⟨?_, State.outcome_noteEntry _ _ _ _, State.noteEntry_point _ _ _ _, ?_⟩
  · rw [State.site, State.rfld, State.entryFails, State.noteEntry_reg _ _ _ _ (by simp) (by simp), State.reg_bump_ne _ (by simp)]
    exact s.site_setSite stFlow
  · rw [State.entryFails, State.noteEntry_counts _ _ _ _ hlo, State.rfld_bump_self _ _ _ _ hlo', State.setSite,
      State.rfld_putFld_ne _ _ _ _ _ _ _ _ (.inl (by simp))]

/-- No entry is in progress. -/
def State.noEntry (s : State) : State := { s with power := { s.power with entry := none } }

theorem State.noEntry_rest : s.noEntry.power.entry = none ∧ (∀ r, s.noEntry.reg r = s.reg r) ∧ s.noEntry.lasting = s.lasting :=
  ⟨rfl, fun _ => rfl, rfl⟩

end

/-! ### Refusals and aborts (R324, R325) -/

theorem leNat_lt (l : List Byte) : leNat l < 256 ^ l.length := by
  induction l with
  | nil => exact Nat.one_pos
  | cons b l ih =>
    have hb : b.toNat < 256 := b.isLt
    have hpow : 256 ^ (l.length + 1) = 256 * 256 ^ l.length := by rw [Nat.pow_succ, Nat.mul_comm]
    have : leNat (b :: l) = b.toNat + 256 * leNat l := rfl
    rw [List.length_cons, hpow, this]
    omega

theorem refuserName_lt (code : Nat) : refuserName code < 2 ^ 48 := by
  have hle (l : List Byte) (h : l.length = 6) : leNat l < 2 ^ 48 := by
    have := leNat_lt l
    rwa [h] at this
  unfold refuserName
  split_ifs
  · exact hle _ rfl
  · exact hle _ rfl
  · exact hle _ (by simp)

/-- BLOCK of PWR_REFUSER is the refuser's code (R325, R337). -/
theorem fld_refuser (code : Nat) : fld (BitVec.ofNat 64 (code * 2 ^ 56 + refuserName code)) 56 8 = code % 256 := by
  have hname := refuserName_lt code
  have hdiv : (code * 2 ^ 56 + refuserName code) / 2 ^ 56 = code := by omega
  rw [fld, BitVec.toNat_ofNat]
  omega

section
variable (s : State) {e : Entry} (he : e.src = none)
include he

/-- A refused entry, answered to the management controller. -/
theorem State.refusedBy_shows (code : Nat) : (s.refusedBy e code).site = stFlow ∧ (s.refusedBy e code).power.entry = none ∧
    (s.refusedBy e code).rfld .pwrEntrySt 6 2 = 2 ∧
    (s.refusedBy e code).rfld .pwrEntrySt 32 16 = min (s.rfld .pwrEntrySt 32 16 + 1) (2 ^ 16 - 1) ∧
    (s.refusedBy e code).rfld .pwrRefuser 56 8 = code % 256 := by
  obtain ⟨h1, h2, -, h4⟩ := s.entryFails_shows (lo := 32) (by decide) (by decide) e.target 2 0
  have hre : s.refusedBy e code = (((s.entryFails 32 e.target 2 0).putReg .pwrRefuser
      (BitVec.ofNat 64 (code * 2 ^ 56 + refuserName code))).noEntry).answerEntry e (entryOutcome .refusedState 1 code) := rfl
  rw [hre]
  generalize s.entryFails 32 e.target 2 0 = t at h1 h2 h4
  obtain ⟨n1, n2, -⟩ := (t.putReg .pwrRefuser (BitVec.ofNat 64 (code * 2 ^ 56 + refuserName code))).noEntry_rest
  generalize hv : (t.putReg .pwrRefuser (BitVec.ofNat 64 (code * 2 ^ 56 + refuserName code))).noEntry = v at n1 n2
  obtain ⟨a1, a2, -⟩ := v.answerEntry_rest he (entryOutcome .refusedState 1 code)
  have hreg {r : Reg} (k1 : r ≠ .devMgtAlert) (k2 : r ≠ .pwrRefuser) :
      (v.answerEntry e (entryOutcome .refusedState 1 code)).reg r = t.reg r :=
    (a1 r k1).trans ((n2 r).trans (t.reg_putReg_ne k2 _))
  refine ⟨(congrArg (fld · 0 4) (hreg (by simp) (by simp))).trans h1, a2 ▸ n1, (congrArg (fld · 6 2) (hreg (by simp) (by simp))).trans h2,
    (congrArg (fld · 32 16) (hreg (by simp) (by simp))).trans h4, ?_⟩
  rw [State.rfld, a1 _ (by simp), n2, State.reg_putReg_self]
  exact fld_refuser code

/-- An aborted entry, answered to the management controller. -/
theorem State.abortAt_shows (point : Nat) : (s.abortAt e point).site = stFlow ∧ (s.abortAt e point).power.entry = none ∧
    (s.abortAt e point).rfld .pwrEntrySt 6 2 = 3 ∧ (s.abortAt e point).rfld .pwrEntrySt 0 2 = point % 2 ^ 2 ∧
    (s.abortAt e point).rfld .pwrEntrySt 16 16 = min (s.rfld .pwrEntrySt 16 16 + 1) (2 ^ 16 - 1) := by
  obtain ⟨h1, h2, h3, h4⟩ := s.entryFails_shows (lo := 16) (by decide) (by decide) e.target 3 point
  have hab : s.abortAt e point = ((s.entryFails 16 e.target 3 point).noEntry).answerEntry e (entryOutcome .refusedState 2 point) := rfl
  rw [hab]
  generalize s.entryFails 16 e.target 3 point = t at h1 h2 h3 h4
  obtain ⟨n1, n2, -⟩ := t.noEntry_rest
  generalize t.noEntry = v at n1 n2
  obtain ⟨a1, a2, -⟩ := v.answerEntry_rest he (entryOutcome .refusedState 2 point)
  have hreg {r : Reg} (k1 : r ≠ .devMgtAlert) : (v.answerEntry e (entryOutcome .refusedState 2 point)).reg r = t.reg r :=
    (a1 r k1).trans (n2 r)
  exact ⟨(congrArg (fld · 0 4) (hreg (by simp))).trans h1, a2 ▸ n1, (congrArg (fld · 6 2) (hreg (by simp))).trans h2,
    (congrArg (fld · 0 2) (hreg (by simp))).trans h3, (congrArg (fld · 16 16) (hreg (by simp))).trans h4⟩

end

/-! ### Commits (R323) -/

section
variable (s : State)

theorem State.stopCredits_rest : (∀ r, s.stopCredits.reg r = s.reg r) ∧ s.stopCredits.power = s.power := by
  have hpow : s.stopCredits.power = s.power := by
    refine foldl_keeps (fun t : State => t.power = s.power) _ (fun t c h => ?_) _ s rfl
    split
    · exact h
    · exact h
  refine ⟨fun r => State.reg_foldl (fun t c => ?_) _ s, hpow⟩
  split <;> rfl

theorem State.setBanks_reg (v : Nat) {r : Reg} (h : ∀ b, r ≠ .pwrBasinSt b) : (s.setBanks v).reg r = s.reg r :=
  State.reg_foldl (fun t b => State.reg_putReg_ne t (h b) _) _ s

theorem State.siphonsTo_reg (x y : Nat) {r : Reg} (h : ∀ i, r ≠ .sphSt i) : (s.siphonsTo x y).reg r = s.reg r := by
  refine State.reg_foldl (fun t i => ?_) _ s
  split
  · exact State.reg_putFld_ne t (h i) _ _ _
  · rfl

theorem State.power_foldl {α : Type} {f : State → α → State} (hf : ∀ t a, (f t a).power = t.power) (l : List α) (s : State) :
    (l.foldl f s).power = s.power :=
  foldl_keeps (fun t : State => t.power = s.power) f (fun t a h => (hf t a).trans h) l s rfl

theorem State.setBanks_power (v : Nat) : (s.setBanks v).power = s.power := State.power_foldl (fun _ _ => by simp) _ s

theorem State.siphonsTo_power (x y : Nat) : (s.siphonsTo x y).power = s.power := by
  refine State.power_foldl (fun t i => ?_) _ s
  split <;> simp

theorem State.keeperLow_reg {r : Reg} (h1 : r ≠ .pwrKeeper) (h2 : r ≠ .clkSt) : s.keeperLow.reg r = s.reg r := by
  rw [State.keeperLow, State.showLoad, State.reg_putFld_ne _ h1, State.reg_putFld_ne _ h2, State.reg_putFld_ne _ h1]
  rfl

theorem State.keeperLow_entry : s.keeperLow.power.entry = s.power.entry := by
  simp [State.keeperLow, State.showLoad]

theorem State.goneCold_entry (keep : Reg → Bool) : (s.goneCold keep).power.entry = none := by
  simp only [State.goneCold, State.power_foldl, State.putReg_keeps, State.putFld_keeps, implies_true]
  rfl

/-- STATE of the sleep state an entry is for (R319). -/
def sleepState (target : Nat) : Nat := match target with | 1 => stSlack | 2 => stPond | 3 => stTrickle | _ => stDry

/-- The entry is over, and the sleep begins now. -/
def State.sleepBegun (s : State) : State := { s with power := { s.power with entry := none, sleepStart := s.now } }

theorem State.sleepBegun_rest : s.sleepBegun.power.entry = none ∧ ∀ r, s.sleepBegun.reg r = s.reg r := ⟨rfl, fun _ => rfl⟩

/-- What the sleep state's own commit leaves: STATE, and no register of entries. -/
def State.fallAsleep (s : State) (target : Nat) : State :=
  match target with
  | 1 => (s.setSite stSlack).showMargin
  | 2 => (((s.setBanks 2).siphonsTo 1 3).setSite stPond).showMargin
  | 3 => (((s.setBanks 2).siphonsTo 1 3).setSite stTrickle).keeperLow.showMargin
  | _ => ({ s.goneCold Reg.alwaysOn with mgt := { (s.goneCold Reg.alwaysOn).mgt with awake := false } } : State).setSite stDry
    |>.keeperLow.showMargin

theorem State.commitEntry_eq (e : Entry) :
    s.commitEntry e = ((s.bump .pwrEntrySt 48 16).noteEntry e.target 0 0).sleepBegun.fallAsleep e.target := rfl

theorem State.putFld_power (r : Reg) (lo n v : Nat) : (s.putFld r lo n v).power = s.power := rfl

theorem State.persist_reg (r : Reg) : s.persist.reg r = s.reg r := rfl

theorem State.withMgt_reg (m : Mgt) (r : Reg) : ({ s with mgt := m } : State).reg r = s.reg r := rfl

/-- The site sleeps, no entry in progress, the entries' register as it was (R319, R323). -/
theorem State.fallAsleep_shows (h : s.power.entry = none) (target : Nat) : (s.fallAsleep target).power.entry = none ∧
    (s.fallAsleep target).site = sleepState target ∧
    (s.fallAsleep target).rfld .pwrEntrySt 48 16 = s.rfld .pwrEntrySt 48 16 := by
  have hput (t : State) (x : Nat) {r : Reg} (hr : r ≠ .pwrSt) : (t.setSite x).reg r = t.reg r := State.reg_putFld_ne t hr 0 4 x
  have hsite (t : State) (x : Nat) : t.showMargin.site = x ↔ t.site = x := by rw [State.site_showMargin]
  unfold State.fallAsleep sleepState
  split
  · refine ⟨h, (hsite _ _).2 (State.site_setSite _ _), ?_⟩
    rw [State.rfld, State.showMargin_reg _ (by simp), hput _ _ (by simp)]
    rfl
  · refine ⟨?_, (hsite _ _).2 (State.site_setSite _ _), ?_⟩
    · rw [(State.showMargin_keeps _).1, State.setSite, (State.putFld_power _ _ _ _ _), State.siphonsTo_power, State.setBanks_power, h]
    · rw [State.rfld, State.showMargin_reg _ (by simp), hput _ _ (by simp), State.siphonsTo_reg _ _ _ (by simp),
        State.setBanks_reg _ _ (by simp)]
      rfl
  · refine ⟨?_, (hsite _ _).2 ?_, ?_⟩
    · rw [(State.showMargin_keeps _).1, State.keeperLow_entry, State.setSite, (State.putFld_power _ _ _ _ _), State.siphonsTo_power,
        State.setBanks_power, h]
    · rw [State.site, State.rfld, State.keeperLow_reg _ (by simp) (by simp)]
      exact State.site_setSite _ _
    · rw [State.rfld, State.showMargin_reg _ (by simp), State.keeperLow_reg _ (by simp) (by simp), hput _ _ (by simp),
        State.siphonsTo_reg _ _ _ (by simp), State.setBanks_reg _ _ (by simp)]
      rfl
  · refine ⟨?_, (hsite _ _).2 ?_, ?_⟩
    · rw [(State.showMargin_keeps _).1, State.keeperLow_entry, State.setSite, (State.putFld_power _ _ _ _ _)]
      exact s.goneCold_entry _
    · rw [State.site, State.rfld, State.keeperLow_reg _ (by simp) (by simp)]
      exact State.site_setSite _ _
    · rw [State.rfld, State.showMargin_reg _ (by simp), State.keeperLow_reg _ (by simp) (by simp), hput _ _ (by simp),
        State.withMgt_reg]
      exact s.goneCold_rfld Reg.alwaysOn rfl rfl (.inl (by simp))

/-- A commit: the entry is over and counted, and the site sleeps. -/
theorem State.commitEntry_shows (e : Entry) : (s.commitEntry e).power.entry = none ∧ (s.commitEntry e).site = sleepState e.target ∧
    (s.commitEntry e).rfld .pwrEntrySt 48 16 = min (s.rfld .pwrEntrySt 48 16 + 1) (2 ^ 16 - 1) := by
  have hcount : ((s.bump .pwrEntrySt 48 16).noteEntry e.target 0 0).rfld .pwrEntrySt 48 16 = min (s.rfld .pwrEntrySt 48 16 + 1) (2 ^ 16 - 1) := by
    rw [State.noteEntry_counts _ _ _ _ (by decide), State.rfld_bump_self _ _ _ _ (by decide)]
  rw [State.commitEntry_eq]
  generalize (s.bump .pwrEntrySt 48 16).noteEntry e.target 0 0 = t at hcount
  obtain ⟨n1, n2⟩ := t.sleepBegun_rest
  obtain ⟨h1, h2, h3⟩ := t.sleepBegun.fallAsleep_shows n1 e.target
  refine ⟨h1, h2, h3.trans ?_⟩
  rw [State.rfld, n2]
  exact hcount

/-- An entry as it stands in step 4. -/
def Entry.drained (e : Entry) (now : Nat) : Entry := { e with step := 4, drainUs := (now - e.startRoot) / rootPerUs }

variable {s} {e : Entry}

/-- The replies that can be written, written. -/
def State.repliesWritten (s : State) : State := (List.range 9).foldl State.repliesOut s

theorem State.repliesWritten_reg {r : Reg} (hr : r.basin? = none) (hring : ∀ k, r ≠ .ringRtail k) : s.repliesWritten.reg r = s.reg r :=
  State.reg_foldl (fun t k => t.reg_repliesOut hr hring k) _ s

theorem State.entryOn_refused (hkeeper : bit (s.reg .pwrKeeper) 1 = false) : ∃ e' : Entry, ∃ t : State,
    e'.src = e.src ∧ t.lasting = s.lasting ∧ s.entryOn e = t.refusedBy e' 0x74 := by
  by_cases h : e.step = 3
  · refine ⟨e.drained s.stopCredits.now, s.stopCredits, rfl, s.lasting_stopCredits, ?_⟩
    have hk : bit (s.stopCredits.reg .pwrKeeper) 1 = false := by rw [s.stopCredits_rest.1, hkeeper]
    unfold State.entryOn
    simp only [h, if_true, hk]
    rfl
  · refine ⟨e, s, rfl, rfl, ?_⟩
    unfold State.entryOn
    simp only [h, if_false, hkeeper]
    rfl

/-- An entry that is drained, with the keeper ready and VDD_SRAM at its level, commits (R323). -/
theorem State.entryOn_commits (hsrc : e.src = none) (hkeeper : bit (s.reg .pwrKeeper) 1 = true) (hstep : e.step = 3) (hwoken : e.woken = false)
    (hsupply : s.power.supply = none) (hreq : s.sramReq = 140) (hgrant : s.sramGrant = 140) :
    (s.entryOn e).power.entry = none ∧ (s.entryOn e).site = sleepState e.target ∧
      (s.entryOn e).rfld .pwrEntrySt 48 16 = min (s.rfld .pwrEntrySt 48 16 + 1) (2 ^ 16 - 1) := by
  obtain ⟨c1, c2⟩ := s.stopCredits_rest
  generalize hd : e.drained s.stopCredits.now = d
  generalize ha : s.stopCredits.answerEntry d (entryOutcome .ok d.target d.drainUs) = t
  have hcommit : s.entryOn e = State.commitEntry (if d.target = 4 then t.repliesWritten.persist else t.repliesWritten) d := by
    have hk : bit (s.stopCredits.reg .pwrKeeper) 1 = true := by rw [c1, hkeeper]
    have hr : s.stopCredits.sramReq = 140 := (congrArg (fld · 8 8) (c1 .pwrVreq)).trans hreq
    have hg : s.stopCredits.sramGrant = 140 := (congrArg (fld · 24 8) (c1 .pwrVreq)).trans hgrant
    have hs : s.stopCredits.power.supply = none := c2 ▸ hsupply
    rw [← ha, ← hd]
    unfold State.entryOn
    simp only [hstep, if_true, hk, hs, hr, hg, hwoken, sramNominal, Bool.not_true, Option.isSome_none, Bool.false_eq_true, false_and,
      if_false, ne_eq, not_true_eq_false, or_self, and_false]
    rfl
  have htarget : d.target = e.target := by rw [← hd]; rfl
  have hreg : t.reg .pwrEntrySt = s.reg .pwrEntrySt := by
    rw [← ha, (State.answerEntry_rest _ (by rw [← hd]; exact hsrc) _).1 _ (by simp), c1]
  have hpersist : (if d.target = 4 then t.repliesWritten.persist else t.repliesWritten).reg .pwrEntrySt = s.reg .pwrEntrySt := by
    have hw := (State.repliesWritten_reg (s := t) (r := .pwrEntrySt) rfl (by simp)).trans hreg
    exact State.reg_of_ite ((State.persist_reg _ _).trans hw) hw
  rw [hcommit]
  generalize (if d.target = 4 then t.repliesWritten.persist else t.repliesWritten) = w at hpersist
  obtain ⟨h1, h2, h3⟩ := w.commitEntry_shows d
  rw [htarget] at h2
  exact ⟨h1, h2, h3.trans (congrArg (fun x => min (fld x 48 16 + 1) (2 ^ 16 - 1)) hpersist)⟩

end

/-! ### Wakes (R320–R322, R327) -/

section
variable (s : State)

theorem State.cfg_foldl {α : Type} {f : State → α → State} (hf : ∀ t a, (f t a).cfg = t.cfg) (l : List α) (s : State) :
    (l.foldl f s).cfg = s.cfg :=
  foldl_keeps (fun t : State => t.cfg = s.cfg) f (fun t a h => (hf t a).trans h) l s rfl

/-- Every check of a live basin stands in the state that banks are set to. -/
theorem State.setBanks_banks (v : Nat) {b : Nat} (hb : b ∈ s.liveBasins) :
    (s.setBanks v).reg (.pwrBasinSt b) = BitVec.ofNat 64 ((4 ^ s.cfg.checks - 1) / 3 * v) := by
  unfold State.setBanks
  have h (l : List Nat) (t : State) (hc : t.cfg = s.cfg)
      (hin : b ∈ l ∨ t.reg (.pwrBasinSt b) = BitVec.ofNat 64 ((4 ^ s.cfg.checks - 1) / 3 * v)) :
      (l.foldl (fun (s : State) b => s.putReg (.pwrBasinSt b) (BitVec.ofNat 64 ((4 ^ s.cfg.checks - 1) / 3 * v))) t).reg
        (.pwrBasinSt b) = BitVec.ofNat 64 ((4 ^ s.cfg.checks - 1) / 3 * v) := by
    induction l generalizing t with
    | nil => exact hin.resolve_left (List.not_mem_nil)
    | cons a l ih =>
      refine ih _ hc ?_
      by_cases ha : b = a
      · subst ha
        right
        rw [State.reg_putReg_self, hc]
      · rcases hin with hin | hin
        · exact .inl ((List.mem_cons.1 hin).resolve_left ha)
        · right
          rw [State.reg_putReg_ne _ (by simpa using ha), hin]
  exact h _ s rfl (.inl hb)

/-- A cell of a wake from `TRICKLE`: the keeper in normal mode (R321). -/
def State.keeperUp (s : State) : State :=
  if s.site = stTrickle then (s.keeperNormal.putFld .pwrTrickle 0 4 5).putFld .clkSt 0 1 1 else s

/-- The banks that were in retention ramp (R320). -/
def State.ramping (s : State) : State := if s.site = stSlack then s else s.setBanks 3

theorem State.wakeStart_eq : s.wakeStart = (s.keeperUp.ramping.setSite stWaking).logEvent := rfl

theorem State.keeperUp_reg {r : Reg} (h1 : r ≠ .pwrKeeper) (h2 : r ≠ .pwrTrickle) (h3 : r ≠ .clkSt) : s.keeperUp.reg r = s.reg r :=
  State.reg_of_ite (by rw [State.reg_putFld_ne _ h3, State.reg_putFld_ne _ h2, State.reg_keeperNormal _ h1]) rfl

theorem State.keeperUp_rest : s.keeperUp.locks = s.locks ∧ s.keeperUp.start = s.start ∧ s.keeperUp.cfg = s.cfg ∧
    s.keeperUp.power.sleepStart = s.power.sleepStart := by
  unfold State.keeperUp
  split
  · simp [State.keeperNormal, State.showLoad]
  · exact ⟨rfl, rfl, rfl, rfl⟩

theorem State.setBanks_rest (v : Nat) : (s.setBanks v).locks = s.locks ∧ (s.setBanks v).start = s.start ∧ (s.setBanks v).cfg = s.cfg ∧
    (s.setBanks v).power = s.power := by
  refine ⟨?_, ?_, ?_, ?_⟩
  · refine foldl_keeps (fun t : State => t.locks = s.locks) _ ?_ _ s rfl
    exact fun t a h => h
  · refine foldl_keeps (fun t : State => t.start = s.start) _ ?_ _ s rfl
    exact fun t a h => h
  · refine foldl_keeps (fun t : State => t.cfg = s.cfg) _ ?_ _ s rfl
    exact fun t a h => h
  · exact s.setBanks_power v

theorem State.ramping_rest : s.ramping.locks = s.locks ∧ s.ramping.start = s.start ∧ s.ramping.cfg = s.cfg ∧
    s.ramping.power = s.power := by
  unfold State.ramping
  split
  · exact ⟨rfl, rfl, rfl, rfl⟩
  · exact s.setBanks_rest 3

theorem State.ramping_reg {r : Reg} (h : ∀ b, r ≠ .pwrBasinSt b) : s.ramping.reg r = s.reg r :=
  State.reg_of_ite rfl (s.setBanks_reg 3 h)

theorem State.logEvent_clocks : s.logEvent.locks = s.locks ∧ s.logEvent.start = s.start ∧ s.logEvent.cfg = s.cfg ∧
    s.logEvent.power = s.power := by
  unfold State.logEvent
  dsimp only
  split <;> exact ⟨rfl, rfl, rfl, rfl⟩

theorem State.setSite_rest (v : Nat) : (s.setSite v).locks = s.locks ∧ (s.setSite v).start = s.start ∧ (s.setSite v).cfg = s.cfg ∧
    (s.setSite v).power = s.power := ⟨rfl, rfl, rfl, rfl⟩

/-- What a wake's beginning leaves (R320–R322). -/
theorem State.wakeStart_rest : s.wakeStart.site = stWaking ∧ s.wakeStart.locks = s.locks ∧ s.wakeStart.start = s.start ∧
    s.wakeStart.cfg = s.cfg ∧ s.wakeStart.power.sleepStart = s.power.sleepStart ∧
    (∀ r, r ≠ .pwrKeeper → r ≠ .pwrTrickle → r ≠ .clkSt → r ≠ .pwrSt → r ≠ .clkEventSeq → (∀ b, r ≠ .pwrBasinSt b) →
      s.wakeStart.reg r = s.reg r) := by
  obtain ⟨k1, k2, k3, k4⟩ := s.keeperUp_rest
  obtain ⟨r1, r2, r3, r4⟩ := s.keeperUp.ramping_rest
  obtain ⟨w1, w2, w3, w4⟩ := s.keeperUp.ramping.setSite_rest stWaking
  obtain ⟨l1, l2, l3, l4⟩ := (s.keeperUp.ramping.setSite stWaking).logEvent_clocks
  rw [State.wakeStart_eq]
  refine ⟨(State.site_logEvent _).trans (State.site_setSite _ _), l1.trans (w1.trans (r1.trans k1)), l2.trans (w2.trans (r2.trans k2)),
    l3.trans (w3.trans (r3.trans k3)), ?_, fun r h1 h2 h3 h4 h5 h6 => ?_⟩
  · rw [l4, w4, r4, k4]
  · rw [State.reg_logEvent_ne _ h5, State.setSite, State.reg_putFld_ne _ h4, State.ramping_reg _ h6, State.keeperUp_reg _ h1 h2 h3]

theorem State.live_congr {s t : State} (h : t.reg .devBasinLive = s.reg .devBasinLive) (hc : t.cfg = s.cfg) :
    t.liveBasins = s.liveBasins := by
  have hlive : t.live = s.live := by
    funext b
    rw [State.live, State.live, h]
  rw [State.liveBasins, State.liveBasins, hlive, hc]

theorem four_pow_sub_one (n : Nat) : (4 ^ n - 1) / 3 * 3 = 4 ^ n - 1 := by
  have h : 3 ∣ 4 ^ n - 1 := by simpa using Nat.sub_dvd_pow_sub_pow 4 1 n
  exact Nat.div_mul_cancel h

/-- Banks that were in retention ramp as the wake begins (R320, R321). -/
theorem State.wakeStart_banks (h : s.site ≠ stSlack) {b : Nat} (hb : b ∈ s.liveBasins) :
    s.wakeStart.reg (.pwrBasinSt b) = BitVec.ofNat 64 (4 ^ s.cfg.checks - 1) := by
  have hsite : s.keeperUp.site = s.site := congrArg (fld · 0 4) (s.keeperUp_reg (by simp) (by simp) (by simp))
  have hlive : s.keeperUp.liveBasins = s.liveBasins :=
    State.live_congr (s.keeperUp_reg (by simp) (by simp) (by simp)) s.keeperUp_rest.2.2.1
  have hramp : s.keeperUp.ramping = s.keeperUp.setBanks 3 := if_neg (by rw [hsite]; exact h)
  rw [State.wakeStart_eq, State.reg_logEvent_ne _ (by simp), State.setSite, State.reg_putFld_ne _ (by simp), hramp,
    State.setBanks_banks _ 3 (by rw [hlive]; exact hb), s.keeperUp_rest.2.2.1, four_pow_sub_one]

/-- The leases and the trip as a wake's end leaves them (R327, R333). -/
def State.clocksOn (s : State) : State :=
  if s.start.thermTrip then { s with auditFrom := s.now, power := { s.power with tripStart := min s.power.tripStart s.power.sleepStart } }
  else { s with auditFrom := s.now
                locks := s.locks.map fun (l : Lock) => { l with deadline := l.deadline + (s.now - s.power.sleepStart) } }

theorem State.wakeDone_eq : s.wakeDone = ((s.clocksOn.setBanks 1).setSite stFlow).showMargin := by
  by_cases h : s.start.thermTrip = true
  · simp only [State.wakeDone, State.clocksOn, h, if_true]
  · simp only [State.wakeDone, State.clocksOn, h, if_false, Bool.false_eq_true]

theorem State.clocksOn_rest : (∀ r, s.clocksOn.reg r = s.reg r) ∧ s.clocksOn.cfg = s.cfg ∧
    (s.start.thermTrip = false → s.clocksOn.locks = s.locks.map fun (l : Lock) =>
      { l with deadline := l.deadline + (s.now - s.power.sleepStart) }) ∧
    (s.start.thermTrip = true → s.clocksOn.locks = s.locks) := by
  unfold State.clocksOn
  split
  · next h => exact ⟨fun _ => rfl, rfl, fun k => absurd h (by simp [k]), fun _ => rfl⟩
  · next h => exact ⟨fun _ => rfl, rfl, fun _ => rfl, fun k => absurd k h⟩

/-- A wake's end: `FLOW`, the banks on, the leases stopped meanwhile (R320, R327). -/
theorem State.wakeDone_shows : s.wakeDone.site = stFlow ∧
    (∀ b ∈ s.liveBasins, s.wakeDone.reg (.pwrBasinSt b) = BitVec.ofNat 64 ((4 ^ s.cfg.checks - 1) / 3)) ∧
    s.wakeDone.locks = s.clocksOn.locks := by
  obtain ⟨c1, c2, -, -⟩ := s.clocksOn_rest
  rw [State.wakeDone_eq]
  refine ⟨(State.site_showMargin _).trans (State.site_setSite _ _), fun b hb => ?_, ?_⟩
  · rw [State.showMargin_reg _ (by simp), State.setSite, State.reg_putFld_ne _ (by simp),
      State.setBanks_banks _ 1 (by rw [State.live_congr (c1 _) c2]; exact hb), c2, Nat.mul_one]
  · exact (State.setBanks_rest s.clocksOn 1).1

end

/-! ### Samples in `TRICKLE` (R329) -/

section
variable (s : State) (r : TrickleReading)

/-- A sample taken: counted, its temperatures shown. -/
def State.sensed (s : State) (r : TrickleReading) : State :=
  ((s.bump .pwrTrickle 32 32).putFld .pwrTherm 56 8 r.dieMax).putFld .pwrTherm 48 8 r.stackMax

theorem State.sensed_site : (s.sensed r).site = s.site := by
  rw [State.site, State.rfld, State.sensed, State.reg_putFld_ne _ (by simp), State.reg_putFld_ne _ (by simp), State.reg_bump_ne _ (by simp)]
  rfl

theorem State.sensed_trickle : (s.sensed r).rfld .pwrTrickle 32 32 = min (s.rfld .pwrTrickle 32 32 + 1) (2 ^ 32 - 1) ∧
    ∀ lo n, lo + n ≤ 32 → (s.sensed r).rfld .pwrTrickle lo n = s.rfld .pwrTrickle lo n := by
  have hput (lo n : Nat) : (s.sensed r).rfld .pwrTrickle lo n = (s.bump .pwrTrickle 32 32).rfld .pwrTrickle lo n := by
    rw [State.sensed, State.rfld_putFld_ne _ _ _ _ _ _ _ _ (.inl (by simp)), State.rfld_putFld_ne _ _ _ _ _ _ _ _ (.inl (by simp))]
  refine ⟨(hput _ _).trans (s.rfld_bump_self _ _ _ (by decide)), fun lo n h => (hput lo n).trans ?_⟩
  exact s.rfld_bump_ne _ _ _ _ _ _ _ (.inr (.inl h))

theorem State.sensed_cause : (s.sensed r).trickleCause r = s.trickleCause r := by
  obtain ⟨-, h⟩ := s.sensed_trickle r
  rw [State.trickleCause, State.trickleCause, h 24 8 (by decide), h 16 8 (by decide), h 8 8 (by decide)]

theorem State.sensed_same : s.SameStores (s.sensed r) := State.sameStores_of_lasting (by simp [State.sensed])

theorem State.trickleCause_lt : s.trickleCause r < 2 ^ 4 := by
  unfold State.trickleCause
  split_ifs <;> decide

/-- The cause of a threshold crossing and the count of samples, once the wake has begun (R329). -/
theorem State.wakeStart_trickle (v : Nat) (hv : v < 2 ^ 4) : (s.wakeStart.putFld .pwrTrickle 0 4 v).rfld .pwrTrickle 0 4 = v ∧
    (s.wakeStart.putFld .pwrTrickle 0 4 v).rfld .pwrTrickle 32 32 = s.rfld .pwrTrickle 32 32 := by
  refine ⟨(State.rfld_putFld_self _ _ _ _ _ (by decide)).trans (Nat.mod_eq_of_lt hv), ?_⟩
  rw [State.rfld_putFld_ne _ _ _ _ _ _ _ _ (.inr (.inr (by decide))), State.wakeStart_eq, State.rfld, State.reg_logEvent_ne _ (by simp),
    State.setSite, State.reg_putFld_ne _ (by simp), State.ramping_reg _ (by simp), ← State.rfld]
  unfold State.keeperUp
  split
  · rw [State.rfld_putFld_ne _ _ _ _ _ _ _ _ (.inl (by simp)), State.rfld_putFld_ne _ _ _ _ _ _ _ _ (.inr (.inr (by decide))),
      State.rfld, State.reg_keeperNormal _ (by simp)]
    rfl
  · rfl

end

/-- Settles O55: how an entry ends, then how a wake begins and ends, then what a sample in `TRICKLE` finds. -/
theorem sitesSleepAndWake : Obligations.SitesSleepAndWake := by
  intro s
  refine ⟨fun e he hsrc => ⟨fun code hstep => ?drain, fun hdrained hdiv hkeeper => ?refused, fun hdrained hdiv hkeeper hstep hwoken hsup hreq hgrant hlo hhi => ?commits,
    fun hbusy => ?waits, fun w hw hstep => ?aborts, fun w hw hstep => ?kept⟩, fun w hw => ?wakes, fun r hsite => ?sample⟩
  case drain =>
    have hexec : exec (.drainTimeout code) s = .next (s.refusedBy e ((s.refusers none).foldl min code)) := by
      simp only [exec, execDrainTimeout, he, hstep, hsrc, if_true, ok]
    obtain ⟨h1, h2, h3, h4, h5⟩ := s.refusedBy_shows hsrc ((s.refusers none).foldl min code)
    exact ⟨_, hexec, h1, h2, h3, h4, h5, State.sameStores_of_lasting (s.lasting_refusedBy _ _)⟩
  case refused =>
    have hexec : exec .entryCommit s = .next (s.entryOn e) := by
      simp only [exec, execEntryCommit, he, hsrc, hdrained, hdiv, ok]
      rfl
    obtain ⟨e', t, hsrc', hlast, heq⟩ := State.entryOn_refused (e := e) hkeeper
    obtain ⟨h1, h2, -, -, h5⟩ := t.refusedBy_shows (hsrc'.trans hsrc) 0x74
    rw [hexec, heq]
    exact ⟨_, rfl, h1, h2, h5, State.sameStores_of_lasting ((t.lasting_refusedBy _ _).trans hlast)⟩
  case commits =>
    have hexec : exec .entryCommit s = .next (s.entryOn e) := by
      simp only [exec, execEntryCommit, he, hsrc, hdrained, hdiv, ok]
      rfl
    obtain ⟨h1, h2, h3⟩ := State.entryOn_commits hsrc hkeeper hstep hwoken hsup hreq hgrant
    exact ⟨_, hexec, h1, h2, h3⟩
  case waits =>
    have hcond : ¬ ((s.refusers e.src).isEmpty = true ∧ s.power.divTo.isNone = true) := by
      rw [hsrc]
      rcases hbusy with h | h
      · exact fun k => h (List.isEmpty_iff.1 k.1)
      · exact fun k => h (Option.isNone_iff_eq_none.1 k.2)
    simp only [exec, execEntryCommit, he, if_neg hcond, ok]
  case aborts =>
    have hexec : exec (.entryAbort w) s = .next (s.abortAt e (if s.now = e.startRoot then 1 else 2)) := by
      have hne : ¬ e.step = 4 := by omega
      simp only [exec, execEntryAbort, hw, State.abortEntry, he, if_neg hne, ok, if_false]
    obtain ⟨h1, h2, h3, h4, h5⟩ := s.abortAt_shows hsrc (if s.now = e.startRoot then 1 else 2)
    refine ⟨_, hexec, h1, h2, h3, h4.trans ?_, h5, State.sameStores_of_lasting (s.lasting_abortAt _ _)⟩
    split <;> rfl
  case kept =>
    simp only [exec, execEntryAbort, hw, State.abortEntry, he, hstep, ok, if_false, if_true]
  case wakes =>
    have hfrom : s.wakesFrom w = true := by
      rcases hw with h | ⟨h1, h2⟩
      · simp [State.wakesFrom, h]
      · rcases h2 with h | h <;> simp [State.wakesFrom, h, h1]
    obtain ⟨h1, h2, h3, h4, h5, h6⟩ := s.wakeStart_rest
    have hsame := State.sameStores_of_lasting s.lasting_wakeStart
    refine ⟨_, congrArg Host.Outcome.next (if_pos hfrom), h1, hsame,
      fun i => congrArg (fld · 8 4) (h6 _ (by simp) (by simp) (by simp) (by simp) (by simp) (by simp)), h2,
      fun hne b hb => s.wakeStart_banks hne hb, fun hrel => ⟨_, rfl, ?_⟩⟩
    have hwakes : s.wakeStart.wakes = true := by
      rw [State.wakes, h1, h3, hrel]
      rfl
    have hon : s.wakeStart.wakeOn = s.wakeStart.wakeDone := if_pos hwakes
    obtain ⟨d1, d2, d3⟩ := s.wakeStart.wakeDone_shows
    obtain ⟨-, -, c3, c4⟩ := s.wakeStart.clocksOn_rest
    have hlive : s.wakeStart.liveBasins = s.liveBasins :=
      State.live_congr (h6 _ (by simp) (by simp) (by simp) (by simp) (by simp) (by simp)) h4
    have hnow : s.wakeStart.now = s.now :=
      congrArg BitVec.toNat (h6 .clkRootCnt (by simp) (by simp) (by simp) (by simp) (by simp) (by simp))
    rw [hon]
    refine ⟨d1, hsame.trans (State.sameStores_of_lasting s.wakeStart.lasting_wakeDone), fun b hb => ?_, fun htrip => ?_, fun htrip => ?_⟩
    · rw [d2 b (by rw [hlive]; exact hb), h4]
    · rw [d3, c3 (by rw [h3]; exact htrip), h2, hnow, h5]
    · rw [d3, c4 (by rw [h3]; exact htrip), h2]
  case sample =>
    have hcond : ¬ s.site ≠ stTrickle := fun h => h hsite
    have hexec : exec (.trickleSample r) s = if (s.sensed r).trickleCause r = 0 then .next (s.sensed r)
        else .next (((s.sensed r).wakeStart.putFld .pwrTrickle 0 4 ((s.sensed r).trickleCause r)).alert alTrickleWake) := if_neg hcond
    obtain ⟨t1, -⟩ := s.sensed_trickle r
    rw [hexec, s.sensed_cause]
    split
    · next h => exact ⟨_, rfl, s.sensed_same r, t1, fun _ => (s.sensed_site r).trans hsite, fun k => absurd h k⟩
    · next h =>
      obtain ⟨-, a2, -, -⟩ := ((s.sensed r).wakeStart.putFld .pwrTrickle 0 4 (s.trickleCause r)).alert_rest alTrickleWake
      obtain ⟨k1, k2⟩ := (s.sensed r).wakeStart_trickle (s.trickleCause r) (s.trickleCause_lt r)
      obtain ⟨w1, -⟩ := (s.sensed r).wakeStart_rest
      refine ⟨_, rfl, (s.sensed_same r).trans (State.sameStores_of_lasting ?_), ?_, fun k => absurd k h,
        fun _ => ⟨?_, ?_, State.bit_alert _ (by decide)⟩⟩
      · simp
      · rw [State.rfld, a2 _ (by simp)]
        exact k2.trans t1
      · rw [State.site, State.rfld, a2 _ (by simp), State.reg_putFld_ne _ (by simp)]
        exact w1
      · rw [State.rfld, a2 _ (by simp)]
        exact k1

end Sys2Proof.Machine
end

section
set_option Elab.async false -- the whole text is compiled in one process, within a fixed memory
/-! SUPPORT. `CONFIG_SET` from ring 8 (R195, R227): its items that write one register of every masked basin, and AUDIT_MS. -/

namespace Sys2Proof.Machine

theorem State.OnlyRings.regs {s t : State} (h : s.OnlyRings t) : t.regs = s.regs := (congrArg State.regs h :)

theorem State.OnlyRings.reg {s t : State} (h : s.OnlyRings t) (r : Reg) : t.reg r = s.reg r :=
  (congrArg (fun x : State => x.reg r) h :)

theorem State.OnlyRings.auditNext {s t : State} (h : s.OnlyRings t) : t.auditNext = s.auditNext :=
  (congrArg State.auditNext h :)

theorem State.OnlyRings.cistern {s t : State} (h : s.OnlyRings t) : t.cistern = s.cistern := (congrArg State.cistern h :)

theorem State.OnlyRings.auditMs {s t : State} (h : s.OnlyRings t) : t.auditMs = s.auditMs := (congrArg State.auditMs h :)

/-- Register `r b` of every basin `b` of a list takes value `v`. -/
def State.putAll (s : State) (r : Nat → Reg) (v : Word64) (bs : List Nat) : State :=
  bs.foldl (fun (t : State) b => t.putReg (r b) v) s

theorem State.putAll_regs (s : State) (r : Nat → Reg) (v : Word64) (bs : List Nat) :
    ∃ m, s.putAll r v bs = { s with regs := m } := by
  refine foldl_keeps (fun t : State => ∃ m, t = { s with regs := m }) (fun (t : State) b => t.putReg (r b) v) ?_ bs s ⟨s.regs, rfl⟩
  rintro t b ⟨m, rfl⟩
  exact ⟨_, rfl⟩

theorem State.putAll_rest (s : State) (r : Nat → Reg) (v : Word64) (bs : List Nat) :
    (s.putAll r v bs).lists = s.lists ∧ (s.putAll r v bs).rings = s.rings ∧ s.SameStores (s.putAll r v bs) := by
  obtain ⟨m, e⟩ := s.putAll_regs r v bs
  rw [e]
  exact ⟨rfl, rfl, rfl, rfl, rfl, rfl, rfl⟩

theorem State.reg_putAll (s : State) (r : Nat → Reg) (v : Word64) (bs : List Nat) (x : Reg) :
    (s.putAll r v bs).reg x = if ∃ b ∈ bs, x = r b then v else s.reg x := by
  induction bs generalizing s with
  | nil => simp [State.putAll]
  | cons b bs ih =>
    have hnext : (s.putAll r v (b :: bs)).reg x = ((s.putReg (r b) v).putAll r v bs).reg x := rfl
    rw [hnext, ih, State.reg_putReg]
    by_cases hhead : x = r b <;> by_cases htail : ∃ c ∈ bs, x = r c <;> simp [hhead, htail]

/-! ### The decision of a sound request -/

section
variable {t : State} {h : Handed} (hsrc : h.src = .ring 8) (hclear : h.pkt.reservedClear configFields = true)
  (hgood : t.configBad (h.pkt.p 16 0 8) (h.pkt.p 17 0 16) (BitVec.ofNat 64 (h.pkt.p 24 0 64))
    (BitVec.ofNat 64 (h.pkt.p 32 0 64)) = false)
include hsrc hclear hgood

theorem State.configSet_audit (hitem : h.pkt.p 16 0 8 = 6) :
    t.configSet h = ({ t with auditNext := (BitVec.ofNat 64 (h.pkt.p 24 0 64) : Word64).toNat }, some (.words 0 0 0 0)) := by
  have hown : t.ctxOf h.src = none := by rw [hsrc]; rfl
  rw [hitem] at hgood
  simp [State.configSet, hown, hclear, hgood, hitem]
  rfl

/-- Items 1, 3 and 5 write their register in every masked basin. -/
theorem State.configSet_putAll {r : Nat → Reg} (hitem : h.pkt.p 16 0 8 = 1 ∧ r = .trnQosMap ∨
      h.pkt.p 16 0 8 = 3 ∧ r = .trnRegCfg ∨ h.pkt.p 16 0 8 = 5 ∧ r = .bsnTileCfg)
    (hin : t.maskRetired (BitVec.ofNat 64 (h.pkt.p 32 0 64)) = false) :
    t.configSet h = (t.putAll r (BitVec.ofNat 64 (h.pkt.p 24 0 64)) (bitsSet (BitVec.ofNat 64 (h.pkt.p 32 0 64) : Word64) 64),
      some (.words 0 0 0 0)) := by
  have hown : t.ctxOf h.src = none := by rw [hsrc]; rfl
  obtain ⟨hi, rfl⟩ | ⟨hi, rfl⟩ | ⟨hi, rfl⟩ := hitem <;>
  · rw [hi] at hgood
    simp [State.configSet, hown, hclear, hgood, hi, hin]
    exact ⟨rfl, rfl⟩

end

/-- Settles O33: every item is a decision that completes at once; what the reply leaves is what the decision left. -/
theorem configurationSet : Obligations.ConfigurationSet := by
  rintro s t p h v hs rfl hclear hgood
  obtain ⟨hsrc, hpkt⟩ := hs.source
  have hparams : ∀ b lo n, h.pkt.p b lo n = p.p b lo n := fun b lo n => by rw [hpkt]; rfl
  simp only [← hparams] at hgood ⊢
  constructor
  · intro r hitem hin
    obtain ⟨hlists, hsrings, hsame⟩ := t.putAll_rest r (BitVec.ofNat 64 (h.pkt.p 24 0 64))
      (bitsSet (BitVec.ofNat 64 (h.pkt.p 32 0 64) : Word64) 64)
    obtain ⟨hserved, hrings⟩ := hs.completed (State.configSet_putAll hsrc hclear hgood hitem hin) hlists hsrings
    have hinj : ∀ b c, r b = r c → b = c := by
      obtain ⟨-, rfl⟩ | ⟨-, rfl⟩ | ⟨-, rfl⟩ := hitem <;> exact fun b c e => by simpa using e
    refine ⟨_, rfl, hserved, fun b hb => ?_, fun b hb => ?_, hsame.trans hrings.same⟩
    · rw [hrings.reg, State.reg_putAll, if_pos ⟨b, hb, rfl⟩]
    · rw [hrings.reg, State.reg_putAll, if_neg fun ⟨c, hc, e⟩ => hb (hinj b c e ▸ hc)]
  · intro hitem
    obtain ⟨hserved, hrings⟩ := hs.completed (State.configSet_audit hsrc hclear hgood hitem) rfl rfl
    exact ⟨_, rfl, hserved, hrings.auditNext, hrings.auditMs, hrings.regs,
      State.SameStores.trans ⟨rfl, rfl, rfl, rfl, rfl⟩ hrings.same⟩

end Sys2Proof.Machine
end

section
set_option Elab.async false -- the whole text is compiled in one process, within a fixed memory
/-! SUPPORT. `POWER_STATE` and `TEST_SCHEDULE` (R282, R323, R325, R328). -/

namespace Sys2Proof.Machine

/-! ### What is shown in registers and kept in the cistern, and nothing else -/

/-- From `s` to `t` registers, the counts of the cycle and the cistern at most have changed. -/
def State.OnlyShown (s t : State) : Prop := { t with regs := s.regs, cistern := s.cistern, fresh := s.fresh } = s

theorem State.OnlyShown.refl (s : State) : s.OnlyShown s := rfl

theorem State.OnlyShown.trans {s t u : State} (h : s.OnlyShown t) (k : t.OnlyShown u) : s.OnlyShown u := by
  have e := congrArg (fun x : State => { x with regs := s.regs, cistern := s.cistern, fresh := s.fresh }) k
  exact e.trans h

section
variable {s t : State} (h : s.OnlyShown t)
include h

theorem State.OnlyShown.same : s.SameStores t :=
  ⟨(congrArg State.mem h :), (congrArg State.memChk h :), (congrArg State.desc h :), (congrArg State.gauge h :),
    (congrArg State.stack h :)⟩

theorem State.OnlyShown.lists : t.lists = s.lists := (congrArg State.lists h :)

theorem State.OnlyShown.rings : t.rings = s.rings := (congrArg State.rings h :)

theorem State.OnlyShown.handed : t.handed = s.handed := (congrArg State.handed h :)

end

section
variable (s : State)

theorem State.putReg_onlyShown (r : Reg) (v : Word64) : s.OnlyShown (s.putReg r v) := rfl

theorem State.putFld_onlyShown (r : Reg) (lo n v : Nat) : s.OnlyShown (s.putFld r lo n v) := s.putReg_onlyShown r _

theorem State.bump_onlyShown (r : Reg) (lo n k : Nat) : s.OnlyShown (s.bump r lo n k) := by
  unfold State.bump
  split
  · exact .refl s
  · rfl

theorem State.logEvent_onlyShown : s.OnlyShown s.logEvent := by
  unfold State.logEvent
  dsimp only
  split <;> rfl

theorem State.showMargin_onlyShown : s.OnlyShown s.showMargin := (s.putFld_onlyShown _ _ _ _).trans (State.putFld_onlyShown _ _ _ _ _)

theorem State.putNonzero_onlyShown (r : Reg) (lo n v : Nat) : s.OnlyShown (s.putNonzero r lo n v) := by
  unfold State.putNonzero
  split
  · exact .refl s
  · exact s.putFld_onlyShown r lo n v

theorem State.noteEntry_onlyShown (target outcome point : Nat) : s.OnlyShown (s.noteEntry target outcome point) :=
  (((s.putFld_onlyShown _ _ _ _).trans (State.putFld_onlyShown _ _ _ _ _)).trans (State.putFld_onlyShown _ _ _ _ _)).trans
    (State.logEvent_onlyShown _)

theorem State.refuseEntry_onlyShown (target : Nat) : s.OnlyShown (s.refuseEntry target) :=
  (s.bump_onlyShown _ _ _ _).trans (State.noteEntry_onlyShown _ _ _ _)

theorem State.rfld_putNonzero_same (r : Reg) (lo n v : Nat) (h : lo + n ≤ 64) :
    (s.putNonzero r lo n v).rfld r lo n = if v = 0 then s.rfld r lo n else v % 2 ^ n := by
  unfold State.putNonzero
  split_ifs
  · rfl
  · exact State.rfld_putFld_self _ _ _ _ _ h

theorem State.rfld_putNonzero_ne {r : Reg} {lo n : Nat} (v : Nat) {r' : Reg} {lo' n' : Nat}
    (h : r' ≠ r ∨ lo' + n' ≤ lo ∨ lo + n ≤ lo') : (s.putNonzero r lo n v).rfld r' lo' n' = s.rfld r' lo' n' := by
  unfold State.putNonzero
  split_ifs
  · rfl
  · exact State.rfld_putFld_ne _ _ _ _ _ _ _ _ h

end

/-! ### A ring's control packet, answered with any outcome, or begun -/

section
variable {s t : State} {p : Packet} {h : Handed}

theorem State.Serves.listed {src : Src} (hs : s.Serves src p t h) : h ∈ t.handed := by
  obtain ⟨-, hfind, -⟩ := hs
  exact List.mem_of_find?_eq_some hfind

/-- A ring's control packet that its decision answers, with the ring's replies as they were: the reply carries the outcome. -/
theorem State.Serves.answered {k : Nat} (hs : s.Serves (.ring k) p t h) {ask : State → Handed → State × Option Outcome}
    {v : State} {o : Outcome} (hask : ask t h = (v, some o)) (hlists : v.lists = t.lists) (hrings : v.rings = t.rings) :
    ∃ rp, ((s.control (.ring k) p ask).ring k).waiting = (t.ring k).waiting ++ [rp] ∧ rp.Carries h.pkt o ∧
      v.OnlyRings (s.control (.ring k) p ask) := by
  have hrun : v.ListsRun := fun l hl => hs.listsRun l (hlists ▸ hl)
  have hring : v.ring k = t.ring k := by simp only [State.ring, hrings]
  obtain ⟨rp, hwait, hcarries, -, honly⟩ := State.finishHanded_ring hrun hs.source.1 o
  rw [State.control_served ask hs, hask, ← hring]
  exact ⟨rp, hwait, hcarries, honly⟩

/-- A control packet that its decision leaves open stays with Rosog, begun. -/
theorem State.Serves.begun {src : Src} (hs : s.Serves src p t h) {ask : State → Handed → State × Option Outcome} {v : State}
    (hask : ask t h = (v, none)) : s.control src p ask = v.begin h := by
  rw [State.control_served ask hs, hask]

end

/-- Of what is handed to Rosog, a packet is begun: it is in its hands so. -/
theorem State.begin_listed (s : State) {h : Handed} (hin : h ∈ s.handed) : { h with begun := true } ∈ (s.begin h).handed :=
  List.mem_map.mpr ⟨h, hin, if_pos rfl⟩

theorem State.begin_same (s : State) (h : Handed) : s.SameStores (s.begin h) := ⟨rfl, rfl, rfl, rfl, rfl⟩

/-! ### `POWER_STATE` (R323, R325, R328) -/

section
variable {t : State} {h : Handed} (hgood : powerBad h.pkt = false)
include hgood

theorem State.powerAsk_cap (hop : h.pkt.p 16 0 8 = 1) :
    t.powerAsk h = (t.putFld .pwrCap 48 16 (h.pkt.p 18 0 16), some (.words 0 0 0 0)) := by
  simp [State.powerAsk, hgood, hop]
  rfl

theorem State.powerAsk_policy (hop : h.pkt.p 16 0 8 = 2) :
    t.powerAsk h = (t.setPolicy h.pkt, some (.words 0 0 0 0)) := by
  simp [State.powerAsk, hgood, hop]
  rfl

theorem State.powerAsk_enter (hop : h.pkt.p 16 0 8 = 0) (hc : t.entryCondition (h.pkt.p 17 0 3) = none) :
    t.powerAsk h = (t.startEntry (h.pkt.p 17 0 3) (some (h.src, h.pkt)), none) := by
  simp [State.powerAsk, hgood, hop, hc]

theorem State.powerAsk_barred (hop : h.pkt.p 16 0 8 = 0) {c : Nat} (hc : t.entryCondition (h.pkt.p 17 0 3) = some c) :
    t.powerAsk h = (t.refuseEntry (h.pkt.p 17 0 3), some { entryOutcome .refusedState 0 c with refused := true }) := by
  simp [State.powerAsk, hgood, hop, hc]

end

/-- An entry is under way, as `e` says. -/
def State.withEntry (s : State) (e : Entry) : State := { s with power := { s.power with entry := some e } }

theorem State.withEntry_shows (s : State) (e : Entry) :
    (s.withEntry e).site = s.site ∧ (s.withEntry e).handed = s.handed ∧ (s.withEntry e).power.entry = some e ∧
      s.SameStores (s.withEntry e) := ⟨rfl, rfl, rfl, rfl, rfl, rfl, rfl, rfl⟩

theorem State.startEntry_eq (s : State) (target : Nat) (src : Option (Src × Packet)) :
    s.startEntry target src = (s.setSite stEntering).withEntry ⟨target, 3, src, (s.setSite stEntering).now, false, 0, false, false⟩ := rfl

theorem State.refuseEntry_shows (s : State) (target : Nat) :
    (s.refuseEntry target).site = s.site ∧ (s.refuseEntry target).rfld .pwrEntrySt 6 2 = 1 := by
  constructor
  · rw [State.site, State.rfld, State.refuseEntry, State.noteEntry_reg _ _ _ _ (by simp) (by simp), State.reg_bump_ne _ (by simp)]
    rfl
  · rw [State.refuseEntry, State.noteEntry, State.rfld, State.reg_logEvent_ne _ (by simp), ← State.rfld,
      State.rfld_putFld_ne _ _ _ _ _ _ _ _ (.inr (.inr (by decide))), State.rfld_putFld_self _ _ _ _ _ (by decide)]
    rfl

/-- What a policy sets in PWR_CFG. -/
def State.policyCfg (s : State) (p : Packet) : State :=
  let t := (((s.putNonzero .pwrCfg 0 10 (p.p 20 0 16)).putNonzero .pwrCfg 10 10 (p.p 22 0 16)).putNonzero .pwrCfg 24 5
    (p.p 24 0 8)).putNonzero .pwrCfg 32 4 (p.p 25 0 8)
  match p.p 26 0 2 with | 1 => t.putFld .pwrCfg 40 1 1 | 2 => t.putFld .pwrCfg 40 1 0 | _ => t

/-- What a policy sets in PWR_TRICKLE. -/
def State.policyTrickle (s : State) (p : Packet) : State :=
  ((s.putNonzero .pwrTrickle 24 8 (p.p 27 0 8)).putNonzero .pwrTrickle 16 8 (p.p 28 0 8)).putNonzero .pwrTrickle 8 8 (p.p 29 0 8)

theorem State.setPolicy_eq (s : State) (p : Packet) :
    s.setPolicy p = (((s.policyCfg p).policyTrickle p).putNonzero .pwrTherm 40 8 (p.p 30 0 8)).showMargin := by
  rfl

/-- A policy's fields in PWR_CFG: a relation that each of them, and a choice of bit 40, keeps, holds between what was and what is. -/
theorem State.policyCfg_keeps (s : State) (p : Packet) {R : State → Prop} (h0 : R (s.putNonzero .pwrCfg 0 10 (p.p 20 0 16)))
    (hput : ∀ t lo n v, 10 ≤ lo → R t → R (State.putFld t .pwrCfg lo n v)) : R (s.policyCfg p) := by
  have hnz : ∀ t lo n v, 10 ≤ lo → R t → R (State.putNonzero t .pwrCfg lo n v) := by
    intro t lo n v hlo ht
    unfold State.putNonzero
    split
    · exact ht
    · exact hput t lo n v hlo ht
  have hfour := hnz _ 32 4 (p.p 25 0 8) (by decide) (hnz _ 24 5 (p.p 24 0 8) (by decide) (hnz _ 10 10 (p.p 22 0 16) (by decide) h0))
  unfold State.policyCfg
  dsimp only
  split
  · exact hput _ _ _ _ (by decide) hfour
  · exact hput _ _ _ _ (by decide) hfour
  · exact hfour

theorem State.setPolicy_onlyShown (s : State) (p : Packet) : s.OnlyShown (s.setPolicy p) := by
  have hcfg : s.OnlyShown (s.policyCfg p) := s.policyCfg_keeps p (s.putNonzero_onlyShown _ _ _ _)
    fun t _ _ _ _ ht => ht.trans (t.putFld_onlyShown _ _ _ _)
  rw [State.setPolicy_eq, State.policyTrickle]
  exact ((((hcfg.trans (State.putNonzero_onlyShown _ _ _ _ _)).trans (State.putNonzero_onlyShown _ _ _ _ _)).trans
    (State.putNonzero_onlyShown _ _ _ _ _)).trans (State.putNonzero_onlyShown _ _ _ _ _)).trans (State.showMargin_onlyShown _)

theorem State.policyTrickle_rfld (s : State) (p : Packet) {r : Reg} (hr : r ≠ .pwrTrickle) (lo n : Nat) :
    (s.policyTrickle p).rfld r lo n = s.rfld r lo n := by
  rw [State.policyTrickle, State.rfld_putNonzero_ne _ _ (.inl hr), State.rfld_putNonzero_ne _ _ (.inl hr),
    State.rfld_putNonzero_ne _ _ (.inl hr)]

/-- R325: what a policy sets, of the fields the statement names. -/
theorem State.setPolicy_rfld (s : State) (p : Packet) :
    (s.setPolicy p).rfld .pwrCfg 0 10 = (if p.p 20 0 16 = 0 then s.rfld .pwrCfg 0 10 else p.p 20 0 16 % 2 ^ 10) ∧
      (s.setPolicy p).rfld .pwrTherm 40 8 = (if p.p 30 0 8 = 0 then s.rfld .pwrTherm 40 8 else p.p 30 0 8 % 2 ^ 8) := by
  rw [State.setPolicy_eq]
  constructor
  · rw [State.showMargin_rfld _ (by simp), State.rfld_putNonzero_ne _ _ (.inl (by simp)), State.policyTrickle_rfld _ _ (by simp),
      ← s.rfld_putNonzero_same _ _ _ _ (by decide)]
    exact s.policyCfg_keeps p (R := fun t => t.rfld .pwrCfg 0 10 = _) rfl
      fun t lo n v hlo ht => (State.rfld_putFld_ne _ _ _ _ _ _ _ _ (.inr (.inl (by omega)))).trans ht
  · rw [State.showMargin_rfld _ (by simp), State.rfld_putNonzero_same _ _ _ _ _ (by decide), State.policyTrickle_rfld _ _ (by simp)]
    have hkept : (s.policyCfg p).rfld .pwrTherm 40 8 = s.rfld .pwrTherm 40 8 :=
      s.policyCfg_keeps p (R := fun t => t.rfld .pwrTherm 40 8 = _) (State.rfld_putNonzero_ne _ _ (.inl (by simp)))
        fun t lo n v hlo ht => (State.rfld_putFld_ne _ _ _ _ _ _ _ _ (.inl (by simp))).trans ht
    rw [hkept]

/-! ### `TEST_SCHEDULE` (R282) -/

section
variable (s : State)

theorem State.unitRec_names (k : UnitKind) (b u : Nat) :
    (s.unitRec k b u).kind = k ∧ (s.unitRec k b u).basin = b ∧ (s.unitRec k b u).unit = u := by
  unfold State.unitRec
  cases hfind : s.cistern.units.find? fun x => x.kind = k && x.basin = b && x.unit = u with
  | none => exact ⟨rfl, rfl, rfl⟩
  | some x => simpa [and_assoc] using List.find?_some hfind

/-- A record that something is kept in is found under its own names. -/
theorem State.unitRec_putUnitRec (r : UnitRec) (h : r ≠ .fresh r.kind r.basin r.unit) :
    (s.putUnitRec r).unitRec r.kind r.basin r.unit = r := by
  simp [State.putUnitRec, State.unitRec, h]

theorem State.putUnitRec_onlyShown (r : UnitRec) : s.OnlyShown (s.putUnitRec r) := rfl

theorem le_foldl_max (l : List Nat) (a : Nat) : a ≤ l.foldl max a ∧ ∀ x ∈ l, x ≤ l.foldl max a := by
  induction l generalizing a with
  | nil => simp
  | cons y l ih => 
    obtain ⟨h1, h2⟩ := ih (max a y)
    refine ⟨(Nat.le_max_left a y).trans h1, fun x hx => ?_⟩
    obtain rfl | hx := List.mem_cons.mp hx
    · exact (Nat.le_max_right a x).trans h1
    · exact h2 x hx

theorem foldl_max_mem (l : List Nat) (a : Nat) : l.foldl max a = a ∨ l.foldl max a ∈ l := by
  induction l generalizing a with
  | nil => simp
  | cons y l ih => 
    obtain h | h := ih (max a y)
    · obtain hm | hm : max a y = a ∨ max a y = y := by omega
      · exact .inl (h.trans hm)
      · exact .inr (List.mem_cons.mpr (.inl (h.trans hm)))
    · exact .inr (List.mem_cons_of_mem _ h)

end

section
variable {t : State} {h : Handed} (hbegun : h.begun = false) (hgood : t.testBad h.pkt = false)
include hbegun hgood

theorem State.testAsk_policy (hop : h.pkt.p 16 0 8 = 0) :
    t.testAsk h = ({ t with cistern := { t.cistern with policy := t.cistern.policy.set h.pkt } }, some (.words 0 0 0 0)) := by
  simp [State.testAsk, hbegun, hgood, hop]
  rfl

theorem State.testAsk_report (hop : h.pkt.p 16 0 8 = 2) : t.testAsk h = (t, some t.testReport) := by
  simp [State.testAsk, hbegun, hgood, hop]

theorem State.testAsk_unit (hop : h.pkt.p 16 0 8 = 1) {k : UnitKind} {b n : Nat} (hu : h.pkt.testUnit = (k, b, n))
    (hlive : t.live b = true) (hret : (t.unitRec k b n).retired = false) (hst : t.unitState ⟨k, b, n⟩ ≠ 5) :
    t.testAsk h = (t.putUnitRec { t.unitRec k b n with
      due := some ((t.unitRec k b n).due.getD t.serviceNow), reply := (t.unitRec k b n).reply ++ [(h.src, h.pkt)] }, none) := by
  simp [State.testAsk, hbegun, hgood, hop, hu, hlive, hret, hst]

end

theorem Packet.p_lt (p : Packet) (b lo n : Nat) : p.p b lo n < 2 ^ n := fld_lt _ _ _

/-- The parameters of a packet are what they are under any opcode. -/
theorem Packet.p_of_eq {q p : Packet} {op : Byte} (h : q = { p with opcode := op }) (b lo n : Nat) : q.p b lo n = p.p b lo n := by
  rw [h]
  rfl

section
variable {s t : State} {p : Packet} {h : Handed}

theorem powerState_entered (hs : s.Serves (.ring 8) { p with opcode := 0x48 } t h) (hgood : powerBad h.pkt = false)
    (hop : h.pkt.p 16 0 8 = 0) (hc : t.entryCondition (h.pkt.p 17 0 3) = none) :
    ∃ u e, exec (.powerState (.ring 8) p) s = .next u ∧ u.site = stEntering ∧ u.power.entry = some e ∧
      e.target = h.pkt.p 17 0 3 ∧ e.step = 3 ∧ e.src = some (.ring 8, h.pkt) ∧ { h with begun := true } ∈ u.handed ∧
      t.SameStores u := by
  have hbegun := hs.begun (State.powerAsk_enter hgood hop hc)
  rw [hs.source.1, State.startEntry_eq] at hbegun
  obtain ⟨hsite, hhanded, hentry, hsame⟩ := (t.setSite stEntering).withEntry_shows
    ⟨h.pkt.p 17 0 3, 3, some (.ring 8, h.pkt), (t.setSite stEntering).now, false, 0, false, false⟩
  refine ⟨_, _, congrArg Host.Outcome.next hbegun, ?_, hentry, rfl, rfl, rfl, State.begin_listed _ (hhanded ▸ hs.listed), ?_⟩
  · exact hsite.trans (State.rfld_putFld_self _ _ _ _ _ (by decide))
  · exact ((t.putFld_onlyShown _ _ _ _).same.trans hsame).trans (State.begin_same _ _)

theorem powerState_barred (hs : s.Serves (.ring 8) { p with opcode := 0x48 } t h) (hgood : powerBad h.pkt = false)
    (hop : h.pkt.p 16 0 8 = 0) {c : Nat} (hc : t.entryCondition (h.pkt.p 17 0 3) = some c) :
    ∃ u rp, exec (.powerState (.ring 8) p) s = .next u ∧ (u.ring 8).waiting = (t.ring 8).waiting ++ [rp] ∧
      rp.Answers h.pkt .refusedState 0 false ∧ rp.w1 = BitVec.ofNat 32 c ∧ u.site = t.site ∧ u.rfld .pwrEntrySt 6 2 = 1 ∧
      t.SameStores u := by
  have hshown := t.refuseEntry_onlyShown (h.pkt.p 17 0 3)
  obtain ⟨rp, hwait, ⟨hans, hw1, -⟩, hrings⟩ := hs.answered (State.powerAsk_barred hgood hop hc) hshown.lists hshown.rings
  obtain ⟨hsite, hout⟩ := t.refuseEntry_shows (h.pkt.p 17 0 3)
  refine ⟨_, rp, rfl, hwait, hans, hw1, hrings.site.trans hsite, ?_, hshown.same.trans hrings.same⟩
  rw [State.rfld, hrings.reg]
  exact hout

theorem testSchedule_unit (hs : s.Serves (.ring 8) { p with opcode := 0x49 } t h) (hgood : t.testBad h.pkt = false)
    (hbegun : h.begun = false) (hop : h.pkt.p 16 0 8 = 1) {k : UnitKind} {b n : Nat} (hu : h.pkt.testUnit = (k, b, n))
    (hlive : t.live b = true) (hret : (t.unitRec k b n).retired = false) (hst : t.unitState ⟨k, b, n⟩ ≠ 5) :
    ∃ u, exec (.testSchedule (.ring 8) p) s = .next u ∧ (u.unitRec k b n).due.isSome ∧
      (Src.ring 8, h.pkt) ∈ (u.unitRec k b n).reply ∧ { h with begun := true } ∈ u.handed ∧ u.regs = t.regs ∧ t.SameStores u := by
  have hasked := State.testAsk_unit hbegun hgood hop hu hlive hret hst
  rw [hs.source.1] at hasked
  obtain ⟨hk, hb, hn⟩ := t.unitRec_names k b n
  generalize hr : ({ t.unitRec k b n with
      due := some ((t.unitRec k b n).due.getD t.serviceNow), reply := (t.unitRec k b n).reply ++ [(Src.ring 8, h.pkt)] } : UnitRec) = r at hasked
  have hnames : r.kind = k ∧ r.basin = b ∧ r.unit = n := by rw [← hr]; exact ⟨hk, hb, hn⟩
  have hdue : r.due.isSome := by rw [← hr]; rfl
  have hreply : (Src.ring 8, h.pkt) ∈ r.reply := by rw [← hr]; simp
  have hfresh : r ≠ .fresh r.kind r.basin r.unit := fun e => by rw [e] at hdue; exact absurd hdue (by simp [UnitRec.fresh])
  have hfound : (t.putUnitRec r).unitRec k b n = r := by
    have := t.unitRec_putUnitRec r hfresh
    rwa [hnames.1, hnames.2.1, hnames.2.2] at this
  have hunit : ((t.putUnitRec r).begin h).unitRec k b n = r := hfound
  refine ⟨_, congrArg Host.Outcome.next (hs.begun hasked), by rwa [hunit], by rwa [hunit],
    State.begin_listed _ ((t.putUnitRec_onlyShown r).handed ▸ hs.listed), rfl, ?_⟩
  exact (t.putUnitRec_onlyShown r).same.trans (State.begin_same _ _)

end

/-- The longest wait of what is deferred, in the words of a report. -/
theorem State.testReport_words (t : State) {late : List (UnitKind × Nat × Nat × Nat)}
    (hlate : late = t.dueUnits.filter fun x => x.1 = .mxe && (t.freeMxe x.2.1).isNone) :
    ∃ w2, t.testReport = .words t.dueUnits.length late.length w2 t.testsDone ∧
      (∀ x ∈ late, (t.cistern.serviceS - x.2.2.2) / 3600 ≤ w2) ∧
      (w2 = 0 ∨ ∃ x ∈ late, w2 = (t.cistern.serviceS - x.2.2.2) / 3600) := by
  subst hlate
  generalize hlate : (t.dueUnits.filter fun x => x.1 = .mxe && (t.freeMxe x.2.1).isNone) = late
  refine ⟨(late.map fun x => (t.cistern.serviceS - x.2.2.2) / 3600).foldl max 0, by rw [← hlate]; rfl, fun x hx => ?_, ?_⟩
  · exact (le_foldl_max _ 0).2 _ (List.mem_map_of_mem hx)
  · obtain hzero | hmem := foldl_max_mem (late.map fun x => (t.cistern.serviceS - x.2.2.2) / 3600) 0
    · exact .inl hzero
    · obtain ⟨x, hx, e⟩ := List.mem_map.mp hmem
      exact .inr ⟨x, hx, e.symm⟩

/-- Settles O35: each action is decided by its own equation; what the decision leaves is what the reply, or its waiting, leaves. -/
theorem powerAskedAndTestsScheduled : Obligations.PowerAskedAndTestsScheduled := by
  constructor
  · intro s t p h hs hgood
    simp only [← Packet.p_of_eq hs.source.2]
    refine ⟨fun hop => ?_, fun hop => ?_, fun hop hc => powerState_entered hs hgood hop hc,
      fun c hop hc => powerState_barred hs hgood hop hc⟩
    · obtain ⟨hserved, hrings⟩ := hs.completed (State.powerAsk_cap hgood hop) rfl rfl
      refine ⟨_, rfl, hserved, ?_, (State.putFld_onlyShown t _ _ _ _).same.trans hrings.same⟩
      rw [State.rfld, hrings.reg, ← State.rfld, State.rfld_putFld_self _ _ _ _ _ (by decide)]
      exact Nat.mod_eq_of_lt (Packet.p_lt h.pkt _ _ _)
    · have hshown := t.setPolicy_onlyShown h.pkt
      obtain ⟨hserved, hrings⟩ := hs.completed (State.powerAsk_policy hgood hop) hshown.lists hshown.rings
      obtain ⟨hcfg, htherm⟩ := t.setPolicy_rfld h.pkt
      refine ⟨_, rfl, hserved, ?_, ?_, hshown.same.trans hrings.same⟩
      · rw [State.rfld, hrings.reg]
        exact hcfg
      · rw [State.rfld, hrings.reg]
        rw [Nat.mod_eq_of_lt (Packet.p_lt h.pkt 30 0 8)] at htherm
        exact htherm
  · intro s t p h hs hgood hbegun
    simp only [← Packet.p_of_eq hs.source.2]
    refine ⟨fun hop => ?_, fun k b n hop hu hlive hret hst => testSchedule_unit hs hgood hbegun hop hu hlive hret hst,
      fun late hop hlate => ?_⟩
    · obtain ⟨hserved, hrings⟩ := hs.completed (State.testAsk_policy hbegun hgood hop) rfl rfl
      have hpolicy := congrArg Cistern.policy hrings.cistern
      exact ⟨_, rfl, hserved, congrArg TestPolicy.deferD hpolicy, congrArg TestPolicy.intervalH hpolicy, hrings.regs,
        State.SameStores.trans ⟨rfl, rfl, rfl, rfl, rfl⟩ hrings.same⟩
    · obtain ⟨w2, hwords, hle, hmem⟩ := t.testReport_words hlate
      obtain ⟨hserved, hrings⟩ := hs.completed ((State.testAsk_report hbegun hgood hop).trans (by rw [hwords])) rfl rfl
      exact ⟨_, w2, rfl, hserved, hle, hmem, hrings.cistern, hrings.same⟩

end Sys2Proof.Machine
end

section
set_option Elab.async false -- the whole text is compiled in one process, within a fixed memory
/-! SUPPORT. `DETACH_PREPARE` (R353, R354): a site detached at once, or after what is busy, or after the scrub of every context. -/

namespace Sys2Proof.Machine

/-! ### An alert's cause -/

theorem State.alert_only (s : State) (i : Nat) : { s.alert i with regs := s.regs, fresh := s.fresh, mgt := s.mgt } = s := by
  unfold State.alert
  dsimp only
  split <;> rfl

theorem State.alert_handed (s : State) (i : Nat) : (s.alert i).handed = s.handed := (congrArg State.handed (s.alert_only i) :)

theorem State.alert_ring (s : State) (i r : Nat) : (s.alert i).ring r = s.ring r :=
  (congrArg (fun x : State => x.ring r) (s.alert_only i) :)

/-! ### Contexts destroyed with no packet at work (R223, R354) -/

/-- With no packet at work before and after, the packets in Rosog's hands and every ring's status word are as they were. -/
def State.StaysQuiet (s t : State) : Prop :=
  t.flights = [] ∧ t.handed = s.handed ∧ ∀ r, t.reg (.ringSt r) = s.reg (.ringSt r)

theorem State.StaysQuiet.trans {s t u : State} (h : s.StaysQuiet t) (k : t.StaysQuiet u) : s.StaysQuiet u :=
  ⟨k.1, k.2.1.trans h.2.1, fun r => (k.2.2 r).trans (h.2.2 r)⟩

theorem State.afterBreak_quiet {s : State} (h : s.flights = []) (b d : Nat) : s.afterBreak b d = s := by
  simp [State.afterBreak, State.heldAt, h, State.retryAll]

theorem State.bump_quiet {s : State} (h : s.flights = []) {q : Reg} (hq : ∀ r, Reg.ringSt r ≠ q) (lo n k : Nat) :
    s.StaysQuiet (s.bump q lo n k) := by
  refine ⟨?_, ?_, fun r => s.reg_bump_ne (hq r) lo n k⟩
  · unfold State.bump
    split <;> exact h
  · unfold State.bump
    split <;> rfl

theorem State.putDesc_quiet {s : State} (h : s.flights = []) (b d : Nat) (v : BitVec 512) : s.StaysQuiet (s.putDesc b d v) :=
  ⟨h, rfl, fun _ => rfl⟩

theorem State.unlock_quiet {s : State} (h : s.flights = []) (b d : Nat) : s.StaysQuiet (s.unlock b d) := ⟨h, rfl, fun _ => rfl⟩

/-- No flight writes or has opened the tile of a descriptor. -/
def State.leaveTile (s : State) (b d : Nat) : State :=
  { s with flights := s.flights.map fun (f : Flight) =>
      { f with pend := if f.phase = Phase.writing b d then none else f.pend, opened := f.opened.filter (· ≠ (b, d)) } }

theorem State.leaveTile_quiet {s : State} (h : s.flights = []) (b d : Nat) : s.StaysQuiet (s.leaveTile b d) :=
  ⟨by simp [State.leaveTile, h], rfl, fun _ => rfl⟩

theorem State.closeBroken_quiet {s : State} (h : s.flights = []) (b d : Nat) : s.StaysQuiet (s.closeBroken b d) := by
  have heq : s.closeBroken b d = ((s.leaveTile b d).putDesc b d
      (dNextGen (setBit (setBit (setBit (s.descOf b d) 120 false) 121 true) 125 true))).bump (.bsnTileSt b) 32 16 := rfl
  have hleave := State.leaveTile_quiet h b d
  have hput := State.putDesc_quiet hleave.1 b d (dNextGen (setBit (setBit (setBit (s.descOf b d) 120 false) 121 true) 125 true))
  rw [heq]
  exact (hleave.trans hput).trans (State.bump_quiet hput.1 (by simp) _ _ _)

theorem State.breakLock_quiet {s : State} (h : s.flights = []) (b d : Nat) : s.StaysQuiet (s.breakLock b d) := by
  have hun := State.unlock_quiet h b d
  have heq : s.breakLock b d = (if dOpen ((s.unlock b d).descOf b d) then (s.unlock b d).closeBroken b d else
      (s.unlock b d).putDesc b d (setBit (setBit ((s.unlock b d).descOf b d) 121 true) 125 true)).bump (.bsnTileSt b) 48 16 := rfl
  rw [heq]
  generalize s.unlock b d = v at hun ⊢
  split
  · have hclose := State.closeBroken_quiet hun.1 b d
    exact (hun.trans hclose).trans (State.bump_quiet hclose.1 (by simp) _ _ _)
  · have hput := State.putDesc_quiet hun.1 b d (setBit (setBit (v.descOf b d) 121 true) 125 true)
    exact (hun.trans hput).trans (State.bump_quiet hput.1 (by simp) _ _ _)

theorem State.breakLocks_quiet {s : State} (h : s.flights = []) (c : Nat) : s.StaysQuiet (s.breakLocks c).1 := by
  refine foldl_keeps s.StaysQuiet (fun (s : State) (l : Lock) => (s.breakLock l.basin l.desc).afterBreak l.basin l.desc) ?_ _ s
    ⟨h, rfl, fun _ => rfl⟩
  intro t l ht
  have hb := State.breakLock_quiet ht.1 l.basin l.desc
  rw [State.afterBreak_quiet hb.1]
  exact ht.trans hb

theorem State.killArrivals_quiet {s : State} (h : s.flights = []) (c : Nat) : s.killArrivals c = s := by
  have hnil : (s.flights.filter fun f => f.ctx = c && f.arrival.isSome) = [] := by rw [h]; rfl
  simp only [State.killArrivals, hnil, State.killAll_nil h, List.foldl_nil]

/-- The ends of a context's work with no packet at work: no flight comes up, the packets of ring 8 stay in Rosog's hands. -/
theorem State.endWork_quiet {s : State} (hf : s.flights = []) (c : Nat) (keep : Option Handed) :
    (s.endWork c keep).1.flights = [] ∧ (∀ r, (s.endWork c keep).1.reg (.ringSt r) = s.reg (.ringSt r)) ∧
      ∀ h ∈ s.handed, h.src = .ring 8 → h ∈ (s.endWork c keep).1.handed := by
  have hnone : s.ctxFlights c = [] := by simp [State.ctxFlights, hf]
  simp only [State.endWork, hnone]
  rw [State.killAll_nil (by exact hf)]
  refine ⟨hf, fun _ => rfl, fun h hin hsrc => ?_⟩
  simp [hin, hsrc]

/-- The first of the scrubs begins at once (R369), with no packet at work. -/
theorem State.askScrub_first {s : State} (hm : s.MayScrub) (hf : s.flights = []) (c : Nat) (what : ScrubFor) :
    (s.askScrub c what).site = stScrub ∧ s.StaysQuiet (s.askScrub c what) ∧ (s.askScrub c what).cfg = s.cfg ∧
      ∃ x, (s.askScrub c what).scrubs = [x] ∧ x.ctx = c ∧ x.began.isSome := by
  obtain ⟨hsite, -, es, hscrubs, -⟩ := hm.askScrub c what
  obtain ⟨k, hk, honly⟩ := hm.askScrub_onlyBegun c what
  rw [State.killArrivals_quiet (by exact hf)] at hk
  have hst : ∀ r, (s.askScrub c what).reg (.ringSt r) = s.reg (.ringSt r) := by
    intro r
    obtain ⟨hnone, hdiv, hat⟩ := hm
    have hq : ({ s with scrubs := [(⟨c, what, none, []⟩ : ScrubRun)] } : State).killArrivals c =
        { s with scrubs := [(⟨c, what, none, []⟩ : ScrubRun)] } :=
      State.killArrivals_quiet (s := { s with scrubs := [(⟨c, what, none, []⟩ : ScrubRun)] }) hf c
    rw [State.askScrub, hnone, List.nil_append, State.beginScrub_of_due rfl rfl (by exact hdiv) (by exact hat), hq]
    refine Eq.trans (State.reg_logEvent _ (by simp)) ((State.reg_putReg_ne _ (by simp) _).trans ?_)
    rw [State.reg_dropLevees_ne _ (by simp), State.reg_startFills _ _ _ _ (by simp)]
    rfl
  have hfl : (s.askScrub c what).flights = k.flights := (congrArg State.flights honly :)
  have hhd : (s.askScrub c what).handed = k.handed := (congrArg State.handed honly :)
  have hcf : (s.askScrub c what).cfg = k.cfg := (congrArg State.cfg honly :)
  refine ⟨hsite, ⟨hfl.trans (by rw [hk]; exact hf), hhd.trans (by rw [hk]), hst⟩, hcf.trans (by rw [hk]), _, hscrubs, rfl, rfl⟩

/-- A further scrub waits for the one under way. -/
theorem State.askScrub_later {s : State} {x : ScrubRun} {rest : List ScrubRun} (hs : s.scrubs = x :: rest) (hx : x.began.isSome)
    (c : Nat) (what : ScrubFor) : s.askScrub c what = { s with scrubs := s.scrubs ++ [⟨c, what, none, []⟩] } := by
  simp [State.askScrub, hs, State.beginScrub, hx]

/-- A context destroyed with no packet at work: its ring's STATE reads 4, and its scrub is asked for. -/
theorem State.destroyContext_quiet {s : State} (hf : s.flights = []) (c : Nat) :
    ∃ (v : State) (what : ScrubFor), s.destroyContext c none false = v.askScrub c what ∧
      v.standing = s.standing ∧ v.flights = [] ∧ v.ringState c = 4 ∧ (∀ r, r ≠ c → v.ringState r = s.ringState r) ∧
      ∀ h ∈ s.handed, h.src = .ring 8 → h ∈ v.handed := by
  obtain ⟨hf1, hst1, hin1⟩ := State.endWork_quiet (s := s.putFld (.ringSt c) 0 4 4) hf c none
  have hq := State.breakLocks_quiet hf1 c
  have hst : ∀ r, ((((s.putFld (.ringSt c) 0 4 4).endWork c none).1.breakLocks c).1).reg (.ringSt r) =
      (s.putFld (.ringSt c) 0 4 4).reg (.ringSt r) := fun r => (hq.2.2 r).trans (hst1 r)
  refine ⟨(((s.putFld (.ringSt c) 0 4 4).endWork c none).1.breakLocks c).1, _, rfl, by simp, hq.1, ?_, fun r hr => ?_,
    fun h hin hsrc => ?_⟩
  · rw [State.ringState, State.rfld, hst, ← State.rfld, State.rfld_putFld_self _ _ _ _ _ (by decide)]
    rfl
  · rw [State.ringState, State.rfld, hst, State.reg_putFld_ne _ (by simpa using hr)]
    rfl
  · rw [hq.2.1]
    exact hin1 h hin hsrc

/-- Contexts `cs` of `s` have been destroyed with no packet at work, in `t`: each waits for its scrub, the first in its own. -/
structure State.AllDestroyed (s t : State) (cs : List Nat) : Prop where
  cfg : t.cfg = s.cfg
  flights : t.flights = []
  begins : cs = [] → t.MayScrub
  under : cs ≠ [] → t.site = stScrub ∧ ∃ x rest, t.scrubs = x :: rest ∧ x.began.isSome
  scrubs : t.scrubs.map (·.ctx) = cs
  rings : ∀ c ∈ cs, t.ringState c = 4
  listed : ∀ h ∈ s.handed, h.src = .ring 8 → h ∈ t.handed

theorem State.AllDestroyed.next {s t : State} {cs : List Nat} (h : s.AllDestroyed t cs) (c : Nat) :
    s.AllDestroyed (t.destroyContext c none false) (cs ++ [c]) := by
  obtain ⟨v, what, heq, hstand, hf, hmine, hother, hlisted⟩ := State.destroyContext_quiet h.flights c
  have hscrubs : v.scrubs = t.scrubs := congrArg Standing.scrubs hstand
  have hcfg : v.cfg = s.cfg := (State.cfg_of_standing hstand).trans h.cfg
  have hrings : ∀ d ∈ cs ++ [c], v.ringState d = 4 := by
    intro d hd
    by_cases hdc : d = c
    · rw [hdc, hmine]
    · rw [hother d hdc, h.rings d (by simpa [hdc] using hd)]
  rw [heq]
  obtain rfl | hne := eq_or_ne cs []
  · obtain ⟨hsite, ⟨hf', hhd, hst⟩, hcfg', x, hx, hxc, hbegan⟩ := State.askScrub_first ((h.begins rfl).of_standing hstand) hf c what
    refine ⟨hcfg'.trans hcfg, hf', by simp, fun _ => ⟨hsite, x, [], hx, hbegan⟩, by simp [hx, hxc], fun d hd => ?_, fun y hy hys => ?_⟩
    · rw [State.ringState, State.rfld, hst]
      exact hrings d hd
    · rw [hhd]
      exact hlisted y (h.listed y hy hys) hys
  · obtain ⟨hsite, x, rest, hx, hbegan⟩ := h.under hne
    rw [State.askScrub_later (hscrubs.trans hx) hbegan]
    have hsc : v.site = stScrub := (State.site_of_standing hstand).trans hsite
    refine ⟨hcfg, hf, by simp, fun _ => ⟨hsc, x, rest ++ [⟨c, what, none, []⟩], ?_, hbegan⟩, ?_, hrings,
      fun y hy hys => hlisted y (h.listed y hy hys) hys⟩
    · simp [hscrubs, hx]
    · simp [hscrubs, h.scrubs]

theorem State.AllDestroyed.foldl {s t : State} {cs : List Nat} (h : s.AllDestroyed t cs) (ds : List Nat) :
    s.AllDestroyed (ds.foldl (fun (s : State) c => s.destroyContext c none false) t) (cs ++ ds) := by
  induction ds generalizing t cs with
  | nil => simpa using h
  | cons d ds ih => simpa using ih (h.next d)

/-! ### The site that detaches -/

/-- Sent on its way, a site shows `DETACHING`. -/
def State.leaving (s : State) : State := (s.setSite stDetaching).logEvent

theorem State.leaving_only (s : State) : s.OnlyShown s.leaving := (s.putFld_onlyShown _ _ _ _).trans (State.logEvent_onlyShown _)

theorem State.leaving_site (s : State) : s.leaving.site = stDetaching := by
  rw [State.leaving, State.site, State.rfld, State.reg_logEvent _ (by simp)]
  exact State.rfld_putFld_self _ _ _ _ _ (by decide)

theorem State.leaving_residents (s : State) : s.leaving.residents = s.residents :=
  (congrArg (fun x : State => x.residents) s.leaving_only :)

/-- Every context of a list is destroyed. -/
def State.destroyAll (s : State) (cs : List Nat) : State := cs.foldl (fun (s : State) c => s.destroyContext c none false) s

/-- How many contexts a site destroys before it detaches, and the cycles their scrubs take. -/
def State.withDetach (s : State) (n cycles : Nat) : State := { s with detach := some (n, cycles) }

theorem State.startDetach_eq (s : State) : s.startDetach =
    (s.leaving.destroyAll s.residents).withDetach s.residents.length (s.residents.length * (s.leaving.destroyAll s.residents).tScrub) := by
  rw [← s.leaving_residents]
  rfl

theorem State.startDetach_empty {s : State} (h : s.residents = []) : s.startDetach = s.leaving.withDetach 0 0 := by
  rw [State.startDetach_eq, h]
  simp [State.destroyAll]

theorem State.withDetach_rest (s : State) (n cycles : Nat) : (s.withDetach n cycles).detach = some (n, cycles) ∧
    (s.withDetach n cycles).site = s.site ∧ (s.withDetach n cycles).lists = s.lists ∧ (s.withDetach n cycles).rings = s.rings ∧
    (s.withDetach n cycles).handed = s.handed ∧ (s.withDetach n cycles).cistern = s.cistern ∧
    (s.withDetach n cycles).scrubs = s.scrubs ∧ s.SameStores (s.withDetach n cycles) :=
  ⟨rfl, rfl, rfl, rfl, rfl, rfl, rfl, rfl, rfl, rfl, rfl, rfl⟩

theorem State.AllDestroyed.withDetach {s t : State} {cs : List Nat} (h : s.AllDestroyed t cs) (n cycles : Nat) :
    s.AllDestroyed (t.withDetach n cycles) cs := ⟨h.cfg, h.flights, h.begins, h.under, h.scrubs, h.rings, h.listed⟩

/-- Detached: what the cistern keeps is written, and nothing returns without the fence's leave (R354). -/
def State.detached (s : State) : State :=
  { s.persist with detach := none, start := { s.start with noReturn := s.start.fenceReq } }

theorem State.detached_rest (s : State) : s.detached.lists = s.lists ∧ s.detached.rings = s.rings ∧ s.detached.site = s.site ∧
    s.detached.detach = none ∧ s.detached.cistern.savedS = s.cistern.serviceS ∧ s.detached.start.noReturn = s.start.fenceReq ∧
    s.detached.handed = s.handed ∧ s.SameStores s.detached := ⟨rfl, rfl, rfl, rfl, rfl, rfl, rfl, rfl, rfl, rfl, rfl, rfl⟩

theorem State.detachOn_waits {s : State} (h : ∀ x ∈ s.handed, (x.begun && x.pkt.op = 0x4B) = true →
    s.refusers (some (x.src, x.pkt)) ≠ [] ∨ s.scrubs ≠ []) : s.detachOn = s := by
  unfold State.detachOn
  split
  · next n cycles x hd hfind =>
    obtain hr | hsc := h x (List.mem_of_find?_eq_some hfind) (by simpa using List.find?_some hfind)
    · rw [if_neg (by simp [hr])]
    · rw [if_neg (by simp [State.scrubbing, hsc])]
  · rfl

theorem State.detachOn_ends {s : State} {n cycles : Nat} {h : Handed} (hd : s.detach = some (n, cycles))
    (hfind : s.handed.find? (fun x => x.begun && x.pkt.op = 0x4B) = some h) (hr : s.refusers (some (h.src, h.pkt)) = [])
    (hsc : s.scrubs = []) :
    s.detachOn = (s.detached.finishHanded h (.words n cycles s.cistern.serviceS 0)).alert alDetachReady := by
  simp [State.detachOn, hd, hfind, hr, State.scrubbing, hsc]
  rfl

/-- A site that has detached answers the packet that asked for it. -/
theorem State.detachOn_answers {s : State} {n cycles : Nat} {h : Handed} (hd : s.detach = some (n, cycles))
    (hfind : s.handed.find? (fun x => x.begun && x.pkt.op = 0x4B) = some h) (hr : s.refusers (some (h.src, h.pkt)) = [])
    (hsc : s.scrubs = []) (hrun : s.ListsRun) (hsrc : h.src = .ring 8) :
    ∃ rp, (s.detachOn.ring 8).waiting = (s.ring 8).waiting ++ [rp] ∧ rp.Carries h.pkt (.words n cycles s.cistern.serviceS 0) ∧
      h ∉ s.detachOn.handed ∧ s.detachOn.site = s.site ∧ s.detachOn.detach = none ∧
      s.detachOn.cistern.savedS = s.cistern.serviceS ∧
      bit (s.detachOn.reg .devMgtAlert) 2 = true ∧ s.detachOn.start.noReturn = s.start.fenceReq ∧ s.SameStores s.detachOn := by
  obtain ⟨hlists, hrings, hsite, hdet, hsaved, hno, hhanded, hsame⟩ := s.detached_rest
  obtain ⟨rp, hwait, hcarries, hgone, honly⟩ := State.finishHanded_ring (s := s.detached) (fun l hl => hrun l (hlists ▸ hl)) hsrc
    (.words n cycles s.cistern.serviceS 0)
  rw [State.detachOn_ends hd hfind hr hsc]
  generalize s.detached.finishHanded h (.words n cycles s.cistern.serviceS 0) = v at hwait hgone honly ⊢
  obtain ⟨-, hreg, hstart, hdetach⟩ := v.alert_rest alDetachReady
  refine ⟨rp, ?_, hcarries, ?_, ?_, ?_, ?_, State.bit_alert _ (by decide), ?_, ?_⟩
  · rw [State.alert_ring, hwait, State.ring, hrings]
    rfl
  · rwa [State.alert_handed]
  · exact (congrArg (fld · 0 4) (hreg _ (by simp))).trans (honly.site.trans hsite)
  · exact hdetach.trans ((congrArg State.detach honly :).trans hdet)
  · rw [State.alert_cistern, honly.cistern, hsaved]
  · rw [hstart]
    exact (congrArg (fun x : State => x.start.noReturn) honly :).trans hno
  · exact (hsame.trans honly.same).trans (v.alert_same _)

/-- A packet begun is no longer one that is not. -/
theorem State.begin_not_listed (s : State) {h : Handed} (hb : h.begun = false) : h ∉ (s.begin h).handed := by
  intro hin
  obtain ⟨x, -, hx⟩ := List.mem_map.mp hin
  split at hx
  · rw [← hx] at hb
    exact absurd hb (by simp)
  · next hne => exact hne hx

section
variable {t : State} {h : Handed}

theorem State.detachAsk_starts (hclear : h.pkt.reservedClear detachFields = true) (hbegun : h.begun = false)
    (hmay : t.detachRefused = false) (hin : t.residents = [] ∨ h.pkt.p 16 0 1 = 1) :
    t.detachAsk h = ((t.startDetach.begin h).detachOn, none) := by
  obtain hin | hin := hin <;> simp [State.detachAsk, hclear, hbegun, hmay, hin]

/-- In a site that has begun to detach, one packet alone asks for it. -/
theorem State.begin_detach {v : State} (honly : ∀ x ∈ v.handed, x.pkt.op = 0x4B → x = h) {y : Handed}
    (hy : y ∈ (v.begin h).handed) (hop : y.pkt.op = 0x4B) : y = { h with begun := true } := by
  obtain ⟨x, hx, hxy⟩ := List.mem_map.mp hy
  have hpkt : x.pkt = y.pkt := by
    rw [← hxy]
    split <;> rfl
  have hxh : x = h := honly x hx (by rw [hpkt, hop])
  rw [← hxy, if_pos hxh, hxh]

theorem State.find_detach (v : State) (hlisted : h ∈ v.handed) (hop : h.pkt.op = 0x4B) (honly : ∀ x ∈ v.handed, x.pkt.op = 0x4B → x = h) :
    (v.begin h).handed.find? (fun x => x.begun && x.pkt.op = 0x4B) = some { h with begun := true } := by
  cases hfind : (v.begin h).handed.find? (fun x => x.begun && x.pkt.op = 0x4B) with
  | none => exact absurd (List.find?_eq_none.mp hfind _ (State.begin_listed v hlisted)) (by simp [hop])
  | some y =>
    have hp := List.find?_some hfind
    simp only [Bool.and_eq_true, decide_eq_true_eq] at hp
    rw [State.begin_detach honly (List.mem_of_find?_eq_some hfind) hp.2]

theorem State.begin_begin_listed (v : State) (hin : h ∈ v.handed) : { h with begun := true } ∈ ((v.begin h).begin h).handed :=
  List.mem_map.mpr ⟨_, State.begin_listed v hin, by split <;> rfl⟩

end

/-- The contexts of a site sent away with no packet at work, destroyed. -/
theorem State.startDetach_scrubs {s : State} (hsc : s.scrubs = []) (hf : s.flights = []) (hdiv : s.power.divTo = none) :
    s.AllDestroyed s.startDetach s.residents ∧
      s.startDetach.detach = some (s.residents.length, s.residents.length * s.tScrub) := by
  have honly := s.leaving_only
  have hscrubs : s.leaving.scrubs = [] := (congrArg State.scrubs honly :).trans hsc
  have hpower : s.leaving.power = s.power := (congrArg State.power honly :)
  have hbegin : s.AllDestroyed s.leaving [] := by
    refine ⟨(congrArg State.cfg honly :), (congrArg State.flights honly :).trans hf, fun _ => ⟨hscrubs, by rw [hpower, hdiv], .inr s.leaving_site⟩, by simp,
      by simp [hscrubs], by simp, fun h hin _ => by rwa [honly.handed]⟩
  have hall := hbegin.foldl s.residents
  rw [State.startDetach_eq]
  refine ⟨hall.withDetach _ _, ?_⟩
  rw [(State.withDetach_rest _ _ _).1, State.tScrub, State.destroyAll, hall.cfg]
  rfl

/-- Sent on its way with nobody in it, a site waits in `DETACHING` for what is busy. -/
theorem State.startDetach_waits {t : State} (hres : t.residents = []) :
    t.startDetach.detach = some (0, 0) ∧ t.startDetach.site = stDetaching ∧ t.startDetach.handed = t.handed ∧
      t.startDetach.lists = t.lists ∧ t.startDetach.rings = t.rings ∧ t.startDetach.cistern.serviceS = t.cistern.serviceS ∧
      t.startDetach.scrubs = t.scrubs ∧ t.SameStores t.startDetach := by
  have honly := t.leaving_only
  have hservice : t.leaving.cistern.serviceS = t.cistern.serviceS := by
    rw [State.leaving]
    unfold State.logEvent
    dsimp only
    split <;> rfl
  have hscrubs : t.leaving.scrubs = t.scrubs := (congrArg State.scrubs honly :)
  have hsite := t.leaving_site
  obtain ⟨hdet', hsite', hlists', hrings', hhanded', hcis', hscrubs', hsame'⟩ := t.leaving.withDetach_rest 0 0
  rw [State.startDetach_empty hres]
  exact ⟨hdet', hsite'.trans hsite, hhanded'.trans honly.handed, hlists'.trans honly.lists, hrings'.trans honly.rings,
    (congrArg Cistern.serviceS hcis').trans hservice, hscrubs'.trans hscrubs, honly.same.trans hsame'⟩

/-- Settles O36: an empty site detaches at once or once nothing is busy, an occupied one destroys its contexts first. -/
theorem siteDetaches : Obligations.SiteDetaches := by
  intro s t p h hs hclear hbegun hmay hsc honly
  obtain ⟨hsrc, hpkt⟩ := hs.source
  have hop : h.pkt.op = 0x4B := by rw [hpkt]; rfl
  have hexec (hin : t.residents = [] ∨ h.pkt.p 16 0 1 = 1) :
      exec (.detachPrepare (.ring 8) p) s = .next (((t.startDetach.begin h).detachOn).begin h) :=
    congrArg Host.Outcome.next (hs.begun (State.detachAsk_starts hclear hbegun hmay hin))
  refine ⟨fun hres hnone => ?_, fun hres hbusy => ?_, fun hres hforce hf hdiv => ?_, ?_⟩
  · obtain ⟨hdet0, hsite0, hhanded0, hlists0, hrings0, hservice0, hscrubs0, hsame0⟩ := State.startDetach_waits hres
    rw [hexec (.inl hres)]
    generalize t.startDetach = v at *
    have hfind := State.find_detach (h := h) v (by rw [hhanded0]; exact hs.listed) hop (by rw [hhanded0]; exact honly)
    obtain ⟨rp, hwait, ⟨hans, hw1, hw2, hw3⟩, hgone, hsite, hdet, hsaved, hbit, -, hsame⟩ := State.detachOn_answers
      (s := v.begin h) hdet0 hfind (by simpa only [hsrc] using hnone) (hscrubs0.trans hsc)
      (fun l hl => hs.listsRun l (by rwa [← hlists0])) hsrc
    refine ⟨_, rfl, ⟨State.begin_not_listed _ hbegun, ?_⟩, hsite.trans hsite0, hdet, hsaved.trans hservice0, hbit,
      ((hsame0.trans (v.begin_same h)).trans hsame).trans (State.begin_same _ h)⟩
    have hring : (v.begin h).ring 8 = t.ring 8 := congrArg (fun x => kget x RingRun.empty 8) hrings0
    rw [hsrc]
    exact ⟨rp, hwait.trans (by rw [hring]), hans, hw1, hw2.trans (by rw [← hservice0]; rfl), hw3⟩
  · obtain ⟨hdet0, hsite0, hhanded0, -, -, -, -, hsame0⟩ := State.startDetach_waits hres
    rw [hexec (.inl hres)]
    generalize t.startDetach = v at *
    have hwaits : (v.begin h).detachOn = v.begin h := State.detachOn_waits fun x hx hp => by
      simp only [Bool.and_eq_true, decide_eq_true_eq] at hp
      rw [State.begin_detach (by rw [hhanded0]; exact honly) hx hp.2]
      exact .inl (by simpa only [hsrc] using hbusy)
    rw [hwaits]
    exact ⟨_, rfl, hsite0, hdet0, State.begin_begin_listed v (hhanded0 ▸ hs.listed),
      (hsame0.trans (State.begin_same _ _)).trans (State.begin_same _ _)⟩
  · obtain ⟨hall, hdet⟩ := State.startDetach_scrubs hsc hf hdiv
    rw [hexec (.inr ((Packet.p_of_eq hpkt _ _ _).trans hforce))]
    generalize t.startDetach = v at *
    obtain ⟨hsite, x, rest, hscrubs, -⟩ := hall.under hres
    have hwaits : (v.begin h).detachOn = v.begin h := State.detachOn_waits fun _ _ _ => .inr (by
      rw [show (v.begin h).scrubs = v.scrubs from rfl, hscrubs]
      simp)
    rw [hwaits]
    exact ⟨_, rfl, hsite, hdet, State.begin_begin_listed v (hall.listed h hs.listed hsrc), hall.scrubs, hall.rings⟩
  · intro v n cycles hd hhanded _ _ hr hsc' hrun
    have hfind : v.handed.find? (fun x => x.begun && x.pkt.op = 0x4B) = some { h with begun := true } := by
      rw [hhanded]
      simp [hop]
    obtain ⟨rp, hwait, ⟨hans, hw1, hw2, -⟩, -, -, hdet, hsaved, hbit, hno, -⟩ := State.detachOn_answers hd hfind
      (by simpa only [hsrc] using hr) hsc' hrun hsrc
    exact ⟨_, rp, rfl, hwait, hans, hw1, hw2, hdet, hsaved, hbit, hno⟩

end Sys2Proof.Machine
end

section
set_option Elab.async false -- the whole text is compiled in one process, within a fixed memory
/-! SUPPORT. A control packet of any source, completed (R205, R215, R219). -/

namespace Sys2Proof.Machine

/-- From `s` to `t` a packet has been answered: handed packets, rings, lists with their counts and due increments alone have changed. -/
def State.OnlyAnswered (s t : State) : Prop :=
  { t with handed := s.handed, rings := s.rings, lists := s.lists, slotStats := s.slotStats, dueIncs := s.dueIncs } = s

theorem State.OnlyAnswered.refl (s : State) : s.OnlyAnswered s := rfl

theorem State.OnlyAnswered.trans {s t u : State} (h : s.OnlyAnswered t) (k : t.OnlyAnswered u) : s.OnlyAnswered u := by
  have e := congrArg (fun x : State => { x with
    handed := s.handed, rings := s.rings, lists := s.lists, slotStats := s.slotStats, dueIncs := s.dueIncs }) k
  exact e.trans h

theorem State.OnlyRings.onlyAnswered {s t : State} (h : s.OnlyRings t) : s.OnlyAnswered t := by
  have e := congrArg (fun x : State => { x with slotStats := s.slotStats, lists := s.lists }) h
  exact e

section
variable {s t : State} (h : s.OnlyAnswered t)
include h

theorem State.OnlyAnswered.same : s.SameStores t :=
  ⟨(congrArg State.mem h :), (congrArg State.memChk h :), (congrArg State.desc h :), (congrArg State.gauge h :),
    (congrArg State.stack h :)⟩

theorem State.OnlyAnswered.regs : t.regs = s.regs := (congrArg State.regs h :)

theorem State.OnlyAnswered.reg (r : Reg) : t.reg r = s.reg r := (congrArg (fun x : State => x.reg r) h :)

theorem State.OnlyAnswered.ctxs : t.ctxs = s.ctxs := (congrArg State.ctxs h :)

theorem State.OnlyAnswered.ctx (c : Nat) : t.ctx c = s.ctx c := (congrArg (fun x : State => x.ctx c) h :)

end

theorem State.putRing_onlyAnswered (s : State) (r : Nat) (v : RingRun) : s.OnlyAnswered (s.putRing r v) := rfl

theorem State.putList_onlyAnswered (s : State) (l : ListRun) : s.OnlyAnswered (s.putList l) := rfl

theorem State.addStats_onlyAnswered (s : State) (src : Src) (st : Stats) : s.OnlyAnswered (s.addStats src st) := by
  cases src <;> rfl

theorem State.addStats_handed (s : State) (src : Src) (st : Stats) : (s.addStats src st).handed = s.handed := by
  cases src <;> rfl

/-- The completion of a list's packet that has not failed changes what answers alone, and nothing in Rosog's hands. -/
theorem State.packetDone_list_onlyAnswered {s : State} {b k : Nat} {l : ListRun} (hl : s.list? b k = some l)
    (off : Nat) (p : Packet) (bs start : Nat) {o : Outcome} (hok : o.status.failed = false) (extra : Stats) :
    s.OnlyAnswered (s.packetDone (.list b k) (s.spawnOf (.list b k)) off p bs start o true extra) ∧
      (s.packetDone (.list b k) (s.spawnOf (.list b k)) off p bs start o true extra).handed = s.handed := by
  have hfail : (s.marked (.list b k) bs p o).status.failed = false := (s.marked_failed _ _ _ _).trans hok
  obtain ⟨st, e⟩ := s.packetDone_list_eq b k off p bs start hok extra
  have hv : s.Accounted ((s.dueInc bs p.gauge p.inc.toNat).addStats (.list b k) st) (dueOf bs p) := by
    simpa only [if_true] using (s.dueInc_accounted bs p True).trans_stats (State.addStats_accounted _ (.list b k) st)
  have honly : s.OnlyAnswered ((s.dueInc bs p.gauge p.inc.toNat).addStats (.list b k) st) :=
    (s.dueInc_onlyRings bs p.gauge p.inc.toNat).onlyAnswered.trans (State.addStats_onlyAnswered _ _ _)
  have hhanded : ((s.dueInc bs p.gauge p.inc.toNat).addStats (.list b k) st).handed = s.handed := by
    rw [State.addStats_handed]
    unfold State.dueInc
    split <;> rfl
  generalize (s.dueInc bs p.gauge p.inc.toNat).addStats (.list b k) st = v at e hv honly hhanded
  obtain ⟨l', -, hdone⟩ := State.listPacketDone_passed ((hv.list? b k).trans hl) off p hfail (s.cycle - start)
  rw [e, hdone]
  split
  · exact ⟨honly.trans ((v.putList_onlyAnswered l').trans (State.putRing_onlyAnswered _ _ _)), hhanded⟩
  · exact ⟨honly.trans (v.putList_onlyAnswered l'), hhanded⟩

theorem State.list?_holdSrc {s : State} {b k : Nat} {l : ListRun} (hl : s.list? b k = some l) (held : Bool) :
    (s.holdSrc (.list b k) held).list? b k = some { l with held := held } := by
  simp only [State.holdSrc, hl]
  exact State.list?_putList_self hl rfl rfl

theorem State.ListsRun.holdSrc {s : State} (hrun : s.ListsRun) {b k : Nat} {l : ListRun} (hl : s.list? b k = some l) (held : Bool) :
    (s.holdSrc (.list b k) held).ListsRun := by
  have hend : l.ending = none := hrun l (List.mem_of_find?_eq_some hl)
  simp only [State.holdSrc, hl]
  exact State.ListsRun.putList hrun hend

theorem State.holdSrc_onlyAnswered (s : State) (src : Src) (held : Bool) : s.OnlyAnswered (s.holdSrc src held) := by
  cases src with
  | ring r => rfl
  | headgate => rfl
  | list b k =>
    simp only [State.holdSrc]
    split <;> rfl

/-- Rosog has finished a list's packet that has not failed. -/
theorem State.finishHanded_list {s : State} (hrun : s.ListsRun) {h : Handed} {b k : Nat} {l : ListRun} (hsrc : h.src = .list b k)
    (hl : s.list? b k = some l) (hspawn : s.spawnOf (.list b k) = h.spawn) {o : Outcome} (hok : o.status.failed = false) :
    s.Completed (s.finishHanded h o) (.list b k) h.pkt o.status o.w0 ∧ h ∉ (s.finishHanded h o).handed ∧
      s.OnlyAnswered (s.finishHanded h o) := by
  generalize hv : ({ s with handed := s.handed.filter (· ≠ h) } : State) = v
  have hvl : v.list? b k = some l := by rw [← hv]; exact hl
  have hvs : v.spawnOf (.list b k) = h.spawn := by rw [← hv]; exact hspawn
  have hvr : v.ListsRun := by rw [← hv]; exact hrun
  have hgone : h ∉ v.handed := by rw [← hv]; simp
  have hvo : s.OnlyAnswered v := by rw [← hv]; rfl
  have hring : ∀ r, v.ring r = s.ring r := by rw [← hv]; exact fun _ => rfl
  generalize hlater : (v.handed.any fun x => x.src = h.src && x.spawn = h.spawn && !x.accepted) = later
  have heq : s.finishHanded h o = (v.holdSrc (.list b k) later).finish (.list b k) h.spawn h.off h.pkt h.basin h.startCycle o true := by
    rw [← hlater, ← hv]
    simp only [State.finishHanded, hsrc]
    rw [if_pos (by exact hspawn)]
  have hwl := State.list?_holdSrc hvl later
  have hws : (v.holdSrc (.list b k) later).spawnOf (.list b k) = h.spawn := by
    rw [← hvs]
    simp only [State.spawnOf, hwl, hvl]
  have hwr := hvr.holdSrc hvl later
  have hwo := v.holdSrc_onlyAnswered (.list b k) later
  have hwh : (v.holdSrc (.list b k) later).handed = v.handed := by simp [State.holdSrc, hvl, State.putList]
  have hwring : ∀ r, (v.holdSrc (.list b k) later).ring r = v.ring r := by
    intro r
    simp [State.holdSrc, hvl, State.putList, State.ring]
  generalize v.holdSrc (.list b k) later = w at *
  have hfin := State.packetDone_list hwr hwl h.off h.pkt h.basin h.startCycle hok Stats.zero
  have hboth := State.packetDone_list_onlyAnswered hwl h.off h.pkt h.basin h.startCycle hok Stats.zero
  rw [hws] at hfin hboth
  obtain ⟨honly, hhanded⟩ := hboth
  have hfinish : w.finish (.list b k) h.spawn h.off h.pkt h.basin h.startCycle o true =
      w.packetDone (.list b k) h.spawn h.off h.pkt h.basin h.startCycle o true Stats.zero := State.settle_of_listsRun hfin.run _
  rw [heq, hfinish]
  refine ⟨?_, ?_, hvo.trans (hwo.trans honly)⟩
  · obtain ⟨m, m', hm, hm', hcount, hreply⟩ := hfin.completed
    obtain rfl : { l with held := later } = m := Option.some.inj (hwl.symm.trans hm)
    refine ⟨l, m', hl, hm', hcount, fun hr => ?_⟩
    obtain ⟨rp, hwait, hans⟩ := hreply hr
    exact ⟨rp, hwait.trans (by rw [hwring, hring]), hans⟩
  · rwa [hhanded, hwh]

/-- A control packet that its decision completes, in a state with the source's replies and lists as they were, is served; beside the
answer, the site is as the decision left it. -/
theorem State.Serves.served {s t : State} {src : Src} {p : Packet} {h : Handed} (hs : s.Serves src p t h)
    {ask : State → Handed → State × Option Outcome} {v : State} {w0 w1 w2 w3 : Nat}
    (hask : ask t h = (v, some (.words w0 w1 w2 w3))) (hlists : v.lists = t.lists) (hrings : v.rings = t.rings) :
    t.Served (s.control src p ask) h w0 w1 w2 w3 ∧ v.OnlyAnswered (s.control src p ask) := by
  have hsrc := hs.source.1
  cases src with
  | ring k =>
    obtain ⟨hserved, honly⟩ := hs.completed hask hlists hrings
    exact ⟨hserved, honly.onlyAnswered⟩
  | headgate =>
    obtain ⟨-, -, -, -, -, -, hno⟩ := hs
    exact hno.elim
  | list b k =>
    have hrun : v.ListsRun := fun l hl => hs.listsRun l (hlists ▸ hl)
    have hlist : ∀ b k, v.list? b k = t.list? b k := fun b k => by simp only [State.list?, hlists]
    have hring : ∀ r, v.ring r = t.ring r := fun r => by simp only [State.ring, hrings]
    have hin : (t.list? b k).isSome = true ∧ t.spawnOf (.list b k) = h.spawn := by
      obtain ⟨-, -, -, -, -, -, hin⟩ := hs
      exact hin
    obtain ⟨l, hl⟩ := Option.isSome_iff_exists.mp hin.1
    obtain ⟨hcompleted, hgone, honly⟩ := State.finishHanded_list hrun hsrc ((hlist b k).trans hl)
      (by simpa only [State.spawnOf, hlist] using hin.2) (o := .words w0 w1 w2 w3) rfl
    rw [State.control_served ask hs, hask]
    refine ⟨⟨hgone, ?_⟩, honly⟩
    rw [hsrc]
    exact hcompleted.congr hring hlists

end Sys2Proof.Machine
end

section
set_option Elab.async false -- the whole text is compiled in one process, within a fixed memory
/-! SUPPORT. `RIGHT_ADMIT` and `RIGHT_RELEASE` (R184–R188). -/

namespace Sys2Proof.Machine

/-! ### A right's bound, set where its context is active -/

section
variable (s : State)

theorem State.putCtx_rights (c : Nat) (r : CtxRec) : s.OnlyRights (s.putCtx c r) := s.ctxs_rights _

theorem State.setBound_rights (b right : Nat) (en : Bool) (bound : Nat) : s.OnlyRights (s.setBound b right en bound) := by
  have hput := (s.latCfg_rights b right 0 16 bound).trans (State.latCfg_rights _ b right 63 1 en.toNat)
  exact .ite (hput.trans (State.startAfresh_rights _ b right)) hput

theorem State.ctxBound_rights (c b right : Nat) (en : Bool) (bound : Nat) : s.OnlyRights (s.ctxBound c b right en bound) := by
  have hput (r : CtxRec) := s.putCtx_rights c r
  exact .ite ((hput _).trans (State.setBound_rights _ b right en bound)) (hput _)

theorem State.ctxs_setBound (b right : Nat) (en : Bool) (bound : Nat) : (s.setBound b right en bound).ctxs = s.ctxs := by
  unfold State.setBound
  dsimp only
  split <;> rfl

theorem State.ctxs_setSuspended (b right : Nat) (v : Bool) : (s.setSuspended b right v).ctxs = s.ctxs := by
  unfold State.setSuspended
  dsimp only
  split <;> rfl

/-- A bound changes none of its context's admissions. -/
theorem State.admissions_ctxBound (c b right : Nat) (en : Bool) (bound : Nat) :
    ((s.ctxBound c b right en bound).ctx c).admissions = (s.ctx c).admissions := by
  generalize hv : s.putCtx c { s.ctx c with
    latCfg := putLimit (s.ctx c).latCfg 0 b right (BitVec.ofNat 64 (en.toNat * 2 ^ 63 + bound)) } = v
  have heq : s.ctxBound c b right en bound = if v.active = some c then v.setBound b right en bound else v := by rw [← hv]; rfl
  have hvc : (v.ctx c).admissions = (s.ctx c).admissions := by rw [← hv, State.ctx_putCtx_self]
  rw [heq]
  split
  · rw [State.ctx, State.ctxs_setBound]
    exact hvc
  · exact hvc

theorem State.rfld_startAfresh (b right : Nat) (r : Reg) (lo n : Nat) : (s.startAfresh b right).rfld r lo n = s.rfld r lo n := rfl

/-- Bound and EN in a register of a right (R183). -/
def State.latBound (s : State) (b right : Nat) (en : Bool) (bound : Nat) : State :=
  (s.putFld (.trnLatCfg b right) 0 16 bound).putFld (.trnLatCfg b right) 63 1 en.toNat

theorem State.setBound_eq (b right : Nat) (en : Bool) (bound : Nat) : s.setBound b right en bound =
    if s.rfld (.trnLatCfg b right) 0 16 ≠ bound ∨ bound ≠ 0 then (s.latBound b right en bound).startAfresh b right
    else s.latBound b right en bound := rfl

theorem State.rfld_setBound (b right : Nat) (en : Bool) (bound : Nat) (r : Reg) (lo n : Nat) :
    (s.setBound b right en bound).rfld r lo n = (s.latBound b right en bound).rfld r lo n := by
  rw [State.setBound_eq]
  split
  · exact State.rfld_startAfresh _ _ _ _ _ _
  · rfl

theorem State.rfld_latBound (b right : Nat) (en : Bool) {bound : Nat} (h : bound < 2 ^ 16) :
    (s.latBound b right en bound).rfld (.trnLatCfg b right) 63 1 = en.toNat ∧
      (s.latBound b right en bound).rfld (.trnLatCfg b right) 0 16 = bound := by
  rw [State.latBound]
  constructor
  · rw [State.rfld_putFld_self _ _ _ _ _ (by decide)]
    cases en <;> rfl
  · rw [State.rfld_putFld_ne _ _ _ _ _ _ _ _ (.inr (.inl (by decide))), State.rfld_putFld_self _ _ _ _ _ (by decide),
      Nat.mod_eq_of_lt h]

theorem State.rfld_latBound_ne {b b' right : Nat} (en : Bool) (bound lo n : Nat) (h : b' ≠ b) :
    (s.latBound b right en bound).rfld (.trnLatCfg b' right) lo n = s.rfld (.trnLatCfg b' right) lo n := by
  rw [State.latBound, State.rfld_putFld_ne _ _ _ _ _ _ _ _ (.inl (by simpa using h)),
    State.rfld_putFld_ne _ _ _ _ _ _ _ _ (.inl (by simpa using h))]

/-- A right that is resumed shows it in bit 62 of its register alone. -/
theorem State.rfld_setSuspended (b right : Nat) (v : Bool) (b' right' lo n : Nat) (h : lo + n ≤ 62 ∨ 63 ≤ lo) :
    (s.setSuspended b right v).rfld (.trnLatCfg b' right') lo n = s.rfld (.trnLatCfg b' right') lo n := by
  have heq : s.setSuspended b right v = if v then s.putFld (.trnLatCfg b right) 62 1 v.toNat else
    (s.putFld (.trnLatCfg b right) 62 1 v.toNat).startAfresh b right := rfl
  have hput : (s.putFld (.trnLatCfg b right) 62 1 v.toNat).rfld (.trnLatCfg b' right') lo n = s.rfld (.trnLatCfg b' right') lo n :=
    State.rfld_putFld_ne _ _ _ _ _ _ _ _ (.inr (by omega))
  rw [heq]
  split
  · exact hput
  · exact hput

end

/-! ### The bounds of an admission -/

/-- One basin of an admission: its bound, and a suspension lifted. -/
def State.admitIn (s : State) (c right bound : Nat) (en : Bool) (b : Nat) : State :=
  let s := s.ctxBound c b right en bound
  if s.active = some c ∧ bit (s.reg (.trnLatCfg b right)) 62 then s.setSuspended b right false else s

section
variable (s : State) (c right bound : Nat) (en : Bool) (b : Nat)

theorem State.admitIn_rights : s.OnlyRights (s.admitIn c right bound en b) := by
  have hb := s.ctxBound_rights c b right en bound
  exact .ite (hb.trans (State.setSuspended_rights _ b right false)) hb

theorem State.admitIn_admissions : ((s.admitIn c right bound en b).ctx c).admissions = (s.ctx c).admissions := by
  rw [← s.admissions_ctxBound c b right en bound]
  unfold State.admitIn
  dsimp only
  split
  · rw [State.ctx, State.ctxs_setSuspended]
    rfl
  · rfl

theorem State.OnlyRights.active {s t : State} (h : s.OnlyRights t) : t.active = s.active := (congrArg State.active h.1 :)

theorem State.ctxBound_active (hact : s.active = some c) : s.ctxBound c b right en bound =
    (s.putCtx c { s.ctx c with
      latCfg := putLimit (s.ctx c).latCfg 0 b right (BitVec.ofNat 64 (en.toNat * 2 ^ 63 + bound)) }).setBound b right en bound := by
  have h : (s.putCtx c { s.ctx c with
      latCfg := putLimit (s.ctx c).latCfg 0 b right (BitVec.ofNat 64 (en.toNat * 2 ^ 63 + bound)) }).active = some c := hact
  exact if_pos h

/-- In the active context the bound shows in its basin. -/
theorem State.rfld_admitIn (hact : s.active = some c) (b' lo n : Nat) (h : lo + n ≤ 62 ∨ 63 ≤ lo) :
    ∃ v : State, (s.admitIn c right bound en b).rfld (.trnLatCfg b' right) lo n = (v.latBound b right en bound).rfld (.trnLatCfg b' right) lo n ∧
      v.rfld (.trnLatCfg b' right) lo n = s.rfld (.trnLatCfg b' right) lo n := by
  refine ⟨s.putCtx c { s.ctx c with
      latCfg := putLimit (s.ctx c).latCfg 0 b right (BitVec.ofNat 64 (en.toNat * 2 ^ 63 + bound)) }, ?_, rfl⟩
  rw [State.admitIn, State.ctxBound_active s c right bound en b hact]
  dsimp only
  split
  · rw [State.rfld_setSuspended _ _ _ _ _ _ _ _ h, State.rfld_setBound]
  · exact State.rfld_setBound _ _ _ _ _ _ _ _

end

/-- Every basin of a list admitted. -/
def State.admitAll (s : State) (c right bound : Nat) (en : Bool) (bs : List Nat) : State :=
  bs.foldl (fun (s : State) b => s.admitIn c right bound en b) s

section
variable (s : State) (c right bound : Nat) (en : Bool) (bs : List Nat)

theorem State.admitAll_rights : s.OnlyRights (s.admitAll c right bound en bs) :=
  foldl_keeps s.OnlyRights (fun (s : State) b => s.admitIn c right bound en b) (fun t b h => h.trans (t.admitIn_rights c right bound en b))
    bs s (.refl s)

theorem State.admitAll_admissions : ((s.admitAll c right bound en bs).ctx c).admissions = (s.ctx c).admissions :=
  foldl_keeps (fun t : State => (t.ctx c).admissions = (s.ctx c).admissions) (fun (s : State) b => s.admitIn c right bound en b)
    (fun t b h => (t.admitIn_admissions c right bound en b).trans h) bs s rfl

/-- The register of a right shows a bound. -/
def State.LatBound (s : State) (b right : Nat) (en : Bool) (bound : Nat) : Prop :=
  s.rfld (.trnLatCfg b right) 63 1 = en.toNat ∧ s.rfld (.trnLatCfg b right) 0 16 = bound

variable {s} {c bound}

theorem State.admitIn_latBound (hact : s.active = some c) (hb : bound < 2 ^ 16) (b : Nat) :
    (s.admitIn c right bound en b).LatBound b right en bound := by
  obtain ⟨v, hv, -⟩ := s.rfld_admitIn c right bound en b hact b 63 1 (by decide)
  obtain ⟨w, hw, -⟩ := s.rfld_admitIn c right bound en b hact b 0 16 (by decide)
  exact ⟨hv.trans (v.rfld_latBound b right en hb).1, hw.trans (w.rfld_latBound b right en hb).2⟩

theorem State.LatBound.admitIn (hact : s.active = some c) (hb : bound < 2 ^ 16) {b : Nat} (h : s.LatBound b right en bound) (d : Nat) :
    (s.admitIn c right bound en d).LatBound b right en bound := by
  by_cases hd : b = d
  · rw [← hd]
    exact State.admitIn_latBound right en hact hb b
  · obtain ⟨v, hv, hv'⟩ := s.rfld_admitIn c right bound en d hact b 63 1 (by decide)
    obtain ⟨w, hw, hw'⟩ := s.rfld_admitIn c right bound en d hact b 0 16 (by decide)
    rw [State.rfld_latBound_ne _ _ _ _ _ hd] at hv hw
    exact ⟨(hv.trans hv').trans h.1, (hw.trans hw').trans h.2⟩

/-- In the active context every basin of the list shows the bound. -/
theorem State.admitAll_latBound (hact : s.active = some c) (hb : bound < 2 ^ 16) {b : Nat} (hin : b ∈ bs) :
    (s.admitAll c right bound en bs).LatBound b right en bound := by
  induction bs generalizing s with
  | nil => simp at hin
  | cons d bs ih =>
    have hact' : (s.admitIn c right bound en d).active = some c := (s.admitIn_rights c right bound en d).active.trans hact
    by_cases hmem : b ∈ bs
    · exact ih hact' hmem
    · obtain rfl : b = d := by simpa [hmem] using hin
      exact (foldl_keeps (fun t : State => t.active = some c ∧ t.LatBound b right en bound)
        (fun (s : State) b => s.admitIn c right bound en b)
        (fun t d h => ⟨(t.admitIn_rights c right bound en d).active.trans h.1, h.2.admitIn right en h.1 hb d⟩)
        bs _ ⟨hact', State.admitIn_latBound right en hact hb b⟩).2

end

/-! ### The least headroom -/

/-- The first pool of least headroom. -/
theorem leastRoom_of_least {room : Pool → Nat} {pre post : List Pool} {q : Pool} (hpre : ∀ x ∈ pre, room q < room x)
    (hpost : ∀ x ∈ post, room q ≤ room x) : leastRoom room (pre ++ q :: post) = some q := by
  induction pre with
  | nil =>
    have hmem : ∀ (l : List Pool) (r : Pool), leastRoom room l = some r → r ∈ l := by
      intro l
      induction l with
      | nil => intro r hr; simp [leastRoom] at hr
      | cons y l ih =>
        intro r hr
        rw [leastRoom] at hr
        cases hl : leastRoom room l with
        | none => simp [hl] at hr; simp [hr]
        | some z =>
          simp only [hl] at hr
          split at hr
          · simp [Option.some.inj hr]
          · exact List.mem_cons_of_mem _ (ih r (hl.trans hr))
    rw [List.nil_append, leastRoom]
    cases hl : leastRoom room post with
    | none => rfl
    | some z => simp [hpost z (hmem post z hl)]
  | cons y pre ih =>
    have hy := hpre y List.mem_cons_self
    rw [List.cons_append, leastRoom, ih fun x hx => hpre x (List.mem_cons_of_mem _ hx)]
    simp [hy]

/-! ### The decisions -/

/-- The basins in which a context's admissions of a right are. -/
def State.admittedMask (s : State) (c right : Nat) : Word64 :=
  ((s.ctx c).admissions.filter fun x => x.right = right).foldl (fun m x => m ||| x.mask) (0 : Word64)

theorem State.clearBounds_rights (s : State) (c right : Nat) (mask : Word64) : s.OnlyRights (s.clearBounds c right mask) :=
  s.admitAll_rights c right 0 false (bitsSet mask 64)

section
variable {t : State} {h : Handed} {a : Admission} {others : List Admission} {pre post : List Pool} {q : Pool}
  (ha : a = h.pkt.admission) (hclear : h.pkt.reservedClear admitFields = true) (hgood : t.admitBad a = false)
  (hin : t.maskRetired a.mask = false) (hothers : others = (t.ctx h.ctx).admissions.filter fun x => x.right ≠ a.right)
  (hpools : t.pools = pre ++ q :: post)
include ha hclear hgood hin hothers hpools

/-- Where every pool holds what is asked for, the right's earlier admission gives way to the new one. -/
theorem State.grantAdmission_granted (hfit : ∀ x ∈ t.pools, reservedIn others x + a.inPool x ≤ t.admissible x)
    (hpre : ∀ x ∈ pre, t.admissible q - (reservedIn others q + a.inPool q) < t.admissible x - (reservedIn others x + a.inPool x))
    (hpost : ∀ x ∈ post, t.admissible q - (reservedIn others q + a.inPool q) ≤ t.admissible x - (reservedIn others x + a.inPool x)) :
    ∃ v : State, t.OnlyRights v ∧ t.grantAdmission h = ((v.putCtx h.ctx { v.ctx h.ctx with admissions := others ++ [a] }).admitAll
      h.ctx a.right a.bound true (bitsSet a.mask 64),
      some (t.poolWords others q (t.admissible q - (reservedIn others q + a.inPool q)))) := by
  have hnone : (t.pools.find? fun q => decide (reservedIn others q + a.inPool q > t.admissible q)) = none :=
    List.find?_eq_none.mpr fun x hx => by simpa using hfit x hx
  have hleast : leastRoom (fun q => t.admissible q - (reservedIn others q + a.inPool q)) t.pools = some q := by
    rw [hpools]
    exact leastRoom_of_least hpre hpost
  refine ⟨t.clearBounds h.ctx a.right (t.admittedMask h.ctx a.right &&& ~~~a.mask), t.clearBounds_rights _ _ _, ?_⟩
  subst ha hothers
  simp only [State.grantAdmission, hclear, hgood, hin, hnone, hleast]
  rfl

/-- The first pool that is exceeded refuses. -/
theorem State.grantAdmission_refused (hpre : ∀ x ∈ pre, reservedIn others x + a.inPool x ≤ t.admissible x)
    (hq : t.admissible q < reservedIn others q + a.inPool q) : t.grantAdmission h =
      (t, some { t.poolWords others q (reservedIn others q + a.inPool q - t.admissible q) with
        status := .oversubscribed, refused := true }) := by
  have hfind : (t.pools.find? fun q => decide (reservedIn others q + a.inPool q > t.admissible q)) = some q := by
    rw [hpools, List.find?_append, List.find?_eq_none.mpr fun x hx => by simpa using hpre x hx]
    simp [hq]
  subst ha hothers
  simp only [State.grantAdmission, hclear, hgood, hin, hfind]
  rfl

end

/-! ### A right released -/

/-- No admission of context `c` is of right `right`. -/
def State.HoldsNo (s : State) (c right : Nat) : Prop := ∀ a ∈ (s.ctx c).admissions, a.right ≠ right

theorem kget_map {κ ν : Type} [DecidableEq κ] (f : ν → ν) (m : List (κ × ν)) (d : ν) (k : κ) :
    kget (m.map fun x => (x.1, f x.2)) (f d) k = f (kget m d k) := by
  induction m with
  | nil => rfl
  | cons x m ih =>
    rw [List.map_cons, kget, kget, ih]
    split <;> rfl

theorem State.HoldsNo.ite {s t : State} {c right : Nat} {p : Prop} [Decidable p] (hs : s.HoldsNo c right) (ht : t.HoldsNo c right) :
    (if p then s else t).HoldsNo c right := by
  split
  · exact hs
  · exact ht

section
variable {s : State} {c right : Nat} (h : s.HoldsNo c right)
include h

theorem State.HoldsNo.setSuspended (b right' : Nat) (v : Bool) : (s.setSuspended b right' v).HoldsNo c right := by
  rw [State.HoldsNo, State.ctx, State.ctxs_setSuspended]
  exact h

theorem State.HoldsNo.markSuspended (c' right' : Nat) (v : Bool) : (s.markSuspended c' right' v).HoldsNo c right := by
  refine foldl_keeps (fun t : State => t.HoldsNo c right) (fun (s : State) b => s.setSuspended b right' v)
    (fun t b ht => State.HoldsNo.setSuspended ht b right' v) _ _ ?_
  intro a ha
  by_cases hc : c = c'
  · subst hc
    rw [State.ctx_putCtx_self] at ha
    obtain ⟨x, hx, rfl⟩ := List.mem_map.mp ha
    have := h x hx
    split <;> exact this
  · rw [State.ctx_putCtx_ne _ hc] at ha
    exact h a ha

theorem State.HoldsNo.suspendWhile (c' : Nat) (l : List Admission) : (State.suspendWhile c' l s).HoldsNo c right := by
  induction l generalizing s with
  | nil => exact h
  | cons a l ih =>
    rw [State.suspendWhile]
    split
    · exact h
    · exact ih (h.markSuspended c' a.right true)

theorem State.HoldsNo.restoreWhile (c' : Nat) (l : List Admission) : (State.restoreWhile c' l s).HoldsNo c right := by
  induction l generalizing s with
  | nil => exact h
  | cons a l ih =>
    rw [State.restoreWhile]
    split
    · exact ih (h.markSuspended c' a.right false)
    · exact h

/-- Recomputing the pools suspends and restores rights, and admits none. -/
theorem State.HoldsNo.recompute : s.recompute.HoldsNo c right := by
  have hmask : ({ s with ctxs := s.ctxs.map fun (x : Nat × CtxRec) => (x.1, { x.2 with
      admissions := x.2.admissions.map fun (a : Admission) => { a with mask := a.mask &&& s.reg .devBasinLive } }) } : State).HoldsNo
      c right := by
    intro a ha
    have hctx : kget (s.ctxs.map fun (x : Nat × CtxRec) => (x.1, ({ x.2 with
        admissions := x.2.admissions.map fun (a : Admission) => { a with mask := a.mask &&& s.reg .devBasinLive } } : CtxRec)))
        CtxRec.absent c = { s.ctx c with
          admissions := (s.ctx c).admissions.map fun (a : Admission) => { a with mask := a.mask &&& s.reg .devBasinLive } } :=
      kget_map (fun r : CtxRec => { r with
        admissions := r.admissions.map fun (a : Admission) => { a with mask := a.mask &&& s.reg .devBasinLive } }) s.ctxs .absent c
    rw [State.ctx, hctx] at ha
    obtain ⟨x, hx, rfl⟩ := List.mem_map.mp ha
    exact h x hx
  unfold State.recompute
  dsimp only
  generalize ({ s with ctxs := s.ctxs.map fun (x : Nat × CtxRec) => (x.1, { x.2 with
      admissions := x.2.admissions.map fun (a : Admission) => { a with mask := a.mask &&& s.reg .devBasinLive } }) } : State) = v at hmask ⊢
  split
  · exact hmask
  · next c' _ =>
    have hdown := State.HoldsNo.ite (p := v.poolsHold (v.ctx c').admissions = true) hmask
      (hmask.suspendWhile c' ((v.byClass c' (v.ctx c').admissions).filter (!·.suspended)))
    exact State.HoldsNo.ite (hdown.restoreWhile c' _) hdown

end

theorem State.releaseRight_drops {t : State} {h : Handed} (hclear : h.pkt.reservedClear [(16, 0, 4)] = true) :
    ∃ v : State, t.OnlyRights v ∧ v.HoldsNo h.ctx (h.pkt.p 16 0 4) ∧ t.releaseRight h =
      (v, some (.words ((t.ctx h.ctx).admissions.filter fun x => x.right = h.pkt.p 16 0 4).length 0 0 0)) := by
  have hcleared := t.clearBounds_rights h.ctx (h.pkt.p 16 0 4) (t.admittedMask h.ctx (h.pkt.p 16 0 4))
  generalize hw : t.clearBounds h.ctx (h.pkt.p 16 0 4) (t.admittedMask h.ctx (h.pkt.p 16 0 4)) = w at hcleared
  refine ⟨(w.putCtx h.ctx { w.ctx h.ctx with
    admissions := (t.ctx h.ctx).admissions.filter fun x => x.right ≠ h.pkt.p 16 0 4 }).recompute,
    (hcleared.trans (State.putCtx_rights _ _ _)).trans (State.recompute_rights _), ?_, ?_⟩
  · refine State.HoldsNo.recompute fun a ha => ?_
    rw [State.ctx_putCtx_self] at ha
    simpa using (List.mem_filter.mp ha).2
  · rw [← hw]
    simp only [State.releaseRight, hclear]
    rfl

theorem State.OnlyRights.lists {s t : State} (h : s.OnlyRights t) : t.lists = s.lists := (congrArg State.lists h.1 :)

theorem State.OnlyRights.rings {s t : State} (h : s.OnlyRights t) : t.rings = s.rings := (congrArg State.rings h.1 :)

/-- Settles O32: what each decision leaves, read of the rules of the bounds and of the recomputed pools. -/
theorem rightsAdmittedAndReleased : Obligations.RightsAdmittedAndReleased := by
  intro s t src p h
  constructor
  · intro a others pre q post hs ha hclear hgood hin hothers hpools
    refine ⟨fun hfit hpre hpost => ?_, fun k hsrc hpre hq => ?_⟩
    · obtain ⟨v, hv, hask⟩ := State.grantAdmission_granted ha hclear hgood hin hothers hpools hfit hpre hpost
      have hput := hv.trans (v.putCtx_rights h.ctx { v.ctx h.ctx with admissions := others ++ [a] })
      have hadm : ((v.putCtx h.ctx { v.ctx h.ctx with admissions := others ++ [a] }).ctx h.ctx).admissions = others ++ [a] := by
        rw [State.ctx_putCtx_self]
      generalize v.putCtx h.ctx { v.ctx h.ctx with admissions := others ++ [a] } = w at hask hput hadm
      have hall := hput.trans (w.admitAll_rights h.ctx a.right a.bound true (bitsSet a.mask 64))
      obtain ⟨hserved, hans⟩ := hs.served hask hall.lists hall.rings
      refine ⟨_, rfl, hserved, ?_, fun hact b hb => ?_, hall.same.trans hans.same⟩
      · rw [hans.ctx, State.admitAll_admissions, hadm]
      · have hbound : a.bound < 2 ^ 16 := by rw [ha]; exact Packet.p_lt h.pkt 18 0 16
        have hlat := State.admitAll_latBound a.right true (bitsSet a.mask 64) (hput.active.trans hact) hbound hb
        rw [State.rfld, State.rfld, hans.reg]
        exact hlat
    · subst hsrc
      obtain ⟨rp, hwait, ⟨hans, hw1, hw2, hw3⟩, hrings⟩ := hs.answered
        (State.grantAdmission_refused ha hclear hgood hin hothers hpools hpre hq) rfl rfl
      exact ⟨_, rp, rfl, hwait, hans, hw1, hw2, hw3, (congrArg State.ctxs hrings :), hrings.same⟩
  · intro hs hclear
    obtain ⟨v, hv, hno, hask⟩ := State.releaseRight_drops (t := t) hclear
    obtain ⟨hserved, hans⟩ := hs.served hask hv.lists hv.rings
    rw [Packet.p_of_eq hs.source.2] at hserved hno
    exact ⟨_, rfl, hserved, by rw [hans.ctx]; exact hno, hv.same.trans hans.same⟩

end Sys2Proof.Machine
end

section
set_option Elab.async false -- the whole text is compiled in one process, within a fixed memory
/-! SUPPORT. `QUERY`, `STATS_READ` and `FAULT_LOG_READ` (R225, R226, R289, R388). -/

namespace Sys2Proof.Machine

/-! ### Bytes written over several words (R34, R56) -/

/-- The first bytes of a plain word written: they land, and no other byte changes. -/
theorem State.writePart_plain {s : State} {b w : Nat} (h : s.Plain b w) {bs : List Byte} (hlen : bs.length ≤ 64) (rd : Reader) :
    ∃ m, s.writePart b w 0 bs rd = { s with mem := m, memChk := nset s.memChk 0 (s.wordAt b w) 0 } ∧
      ∀ j, nget m 0 j = if s.wordAt b w * 64 ≤ j ∧ j < s.wordAt b w * 64 + bs.length then bs.getD (j - s.wordAt b w * 64) 0
        else nget s.mem 0 j := by
  have hold : (s.bytesOf b w).length = 64 := by simp [State.bytesOf]
  have hword : s.writePart b w 0 bs rd = s.storeRow b (s.bankRow b w).1 (s.bankRow b w).2 (spliced (s.bytesOf b w) 0 bs) 0 := by
    unfold State.writePart
    split
    · next hwhole =>
      have hdrop : (s.bytesOf b w).drop (0 + bs.length) = [] := List.drop_eq_nil_of_le (by omega)
      rw [spliced, hdrop, List.take_zero, List.nil_append, List.append_nil]
      rfl
    · simp only [State.readWord_plain h, Bool.false_eq_true, if_false]
      rfl
  refine ⟨_, hword.trans (State.storeRow_plain h _), fun j => ?_⟩
  have hread := getD_bytesOf s b w
  rw [nget_putBytes, length_spliced hold (by omega), getD_spliced hold (by omega)]
  generalize s.wordAt b w * 64 = a at *
  by_cases hj : a ≤ j ∧ j < a + 64
  · rw [if_pos hj]
    by_cases hin : j < a + bs.length
    · rw [if_pos ⟨by omega, by omega⟩, if_pos ⟨hj.1, hin⟩, Nat.sub_zero]
    · rw [if_neg (by omega), if_neg (by omega), hread _ (by omega), Nat.add_sub_cancel' hj.1]
  · rw [if_neg hj, if_neg (by omega)]

/-- What writing the first `k` words of a range of bytes leaves: those of its bytes that lie in them. -/
structure State.Written (s t : State) (b w : Nat) (bs : List Byte) (k : Nat) : Prop where
  rest : ∃ m c, t = { s with mem := m, memChk := c }
  plain : ∀ i, i < bs.length → nget t.memChk 0 (s.wordAt b (w + i / 64)) = 0
  lands : ∀ i, i < bs.length → i < 64 * k → nget t.mem 0 (s.wordAt b (w + i / 64) * 64 + i % 64) = bs.getD i 0
  others : ∀ j, (∀ i, i < bs.length → j ≠ s.wordAt b (w + i / 64) * 64 + i % 64) → nget t.mem 0 j = nget s.mem 0 j

theorem State.Written.next {s t : State} {b w k : Nat} {bs : List Byte} (h : s.Written t b w bs k)
    (hplain : ∀ i, i < bs.length → s.Plain b (w + i / 64))
    (hapart : ∀ i j, i < bs.length → j < bs.length → s.wordAt b (w + i / 64) = s.wordAt b (w + j / 64) → i / 64 = j / 64)
    (hk : 64 * k < bs.length) (rd : Reader) :
    s.Written (t.writePart b (w + k) 0 ((bs.take (min bs.length (64 * (k + 1)))).drop (64 * k)) rd) b w bs (k + 1) := by
  obtain ⟨⟨m, c, rfl⟩, hclean, hlands, hothers⟩ := h
  have hdiv : 64 * k / 64 = k := by omega
  obtain ⟨-, hcopy, hflip⟩ := hdiv ▸ hplain (64 * k) hk
  have hword : ({ s with mem := m, memChk := c } : State).Plain b (w + k) := ⟨hdiv ▸ hclean (64 * k) hk, hcopy, hflip⟩
  have hpartlen : ((bs.take (min bs.length (64 * (k + 1)))).drop (64 * k)).length = min bs.length (64 * (k + 1)) - 64 * k := by
    simp
  have hpart (i : Nat) (hi : 64 * k + i < min bs.length (64 * (k + 1))) :
      ((bs.take (min bs.length (64 * (k + 1)))).drop (64 * k)).getD i 0 = bs.getD (64 * k + i) 0 := by
    simp only [List.getD_eq_getElem?_getD, List.getElem?_drop, List.getElem?_take]
    rw [if_pos (by omega)]
  obtain ⟨m', heq, hm'⟩ := State.writePart_plain hword (bs := (bs.take (min bs.length (64 * (k + 1)))).drop (64 * k)) (by omega) rd
  have hat : ∀ w', ({ s with mem := m, memChk := c } : State).wordAt b w' = s.wordAt b w' := fun _ => rfl
  rw [hat] at heq hm'
  rw [heq]
  refine ⟨⟨_, _, rfl⟩, fun i hi => ?_, fun i hi hik => ?_, fun j hj => ?_⟩
  · exact (nget_nset c 0 _ _ _).trans (ite_eq_left_iff.mpr fun _ => hclean i hi)
  · refine (hm' _).trans ?_
    by_cases hmine : i / 64 = k
    · rw [hmine, if_pos (by omega), hpart _ (by omega)]
      congr 1
      omega
    · have hne : s.wordAt b (w + i / 64) ≠ s.wordAt b (w + k) := fun e =>
        hmine (hdiv ▸ hapart i (64 * k) hi hk (by rw [hdiv]; exact e))
      rw [if_neg (by omega)]
      exact hlands i hi (by omega)
  · refine (hm' _).trans ?_
    have hno : ¬ (s.wordAt b (w + k) * 64 ≤ j ∧
        j < s.wordAt b (w + k) * 64 + ((bs.take (min bs.length (64 * (k + 1)))).drop (64 * k)).length) := by
      intro hin
      have hi : 64 * k + (j - s.wordAt b (w + k) * 64) < bs.length := by omega
      refine hj _ hi ?_
      rw [show (64 * k + (j - s.wordAt b (w + k) * 64)) / 64 = k by omega]
      omega
    rw [if_neg hno]
    exact hothers j hj

theorem State.writeRange_lands (s : State) {b off : Nat} (hoff : off % 64 = 0) (bs : List Byte) (rd : Reader) :
    s.BytesLand (s.writeRange b off bs rd) b off bs := by
  intro hall
  have hword (i : Nat) : (off + i) / 64 = off / 64 + i / 64 := by omega
  have hbyte (i : Nat) : (off + i) % 64 = i % 64 := by omega
  simp only [hword, hbyte] at hall ⊢
  have hplain (i : Nat) (hi : i < bs.length) : s.Plain b (off / 64 + i / 64) := (hall i i hi hi).1
  have hwritten : ∀ k, k ≤ cdiv bs.length 64 → s.Written ((List.range k).foldl (fun (s : State) i =>
      s.writePart b (off / 64 + i) 0 ((bs.take (min bs.length (64 * (i + 1)))).drop (64 * i)) rd) s) b (off / 64) bs k := by
    intro k hk
    induction k with
    | zero => exact ⟨⟨_, _, rfl⟩, fun i hi => (hplain i hi).1, fun i _ h0 => by omega, fun _ _ => rfl⟩
    | succ k ih =>
      rw [List.range_succ, List.foldl_append, List.foldl_cons, List.foldl_nil]
      refine (ih (by omega)).next hplain (fun i j hi hj e => ?_) (by unfold cdiv at hk; omega) rd
      have := (hall i j hi hj).2 e
      omega
  have hrange : s.writeRange b off bs rd = (List.range (cdiv bs.length 64)).foldl (fun (s : State) i =>
      s.writePart b (off / 64 + i) 0 ((bs.take (min bs.length (64 * (i + 1)))).drop (64 * i)) rd) s := by
    simp only [State.writeRange, hoff, Nat.zero_add, Nat.sub_zero, ite_self]
    congr 1
    funext t i
    by_cases hi : i = 0 <;> simp [hi]
  obtain ⟨-, -, hlands, hothers⟩ := hwritten _ le_rfl
  rw [hrange]
  exact ⟨fun i hi => hlands i hi (by unfold cdiv; omega), hothers⟩

/-! ### Decisions that only read -/

section
variable {s t : State} {src : Src} {p : Packet} {h : Handed}

/-- A control packet that only reads is served in a site that stays as it was. -/
theorem State.Serves.read (hs : s.Serves src p t h) {ask : State → Handed → State × Option Outcome} {w0 w1 w2 w3 : Nat}
    (hask : ask t h = (t, some (.words w0 w1 w2 w3))) :
    t.SameStores (s.control src p ask) ∧ t.ctxs = (s.control src p ask).ctxs ∧ t.Served (s.control src p ask) h w0 w1 w2 w3 := by
  obtain ⟨hserved, hans⟩ := hs.served hask rfl rfl
  exact ⟨hans.same, hans.ctxs.symm, hserved⟩

end

section
variable {t : State} {h : Handed} {a : Nat} (hclear : h.pkt.reservedClear queryFields = true) (ha : h.pkt.p 17 0 8 = a)
include hclear ha

omit ha in
theorem State.query_site (hsel : h.pkt.p 16 0 8 = 0) : t.query h = (t, some (.words (t.cfg.config0.toNat % 2 ^ 32)
    (t.cfg.config0.toNat / 2 ^ 32) (t.cfg.config1.toNat % 2 ^ 32) (t.cfg.config1.toNat / 2 ^ 32))) := by
  simp [State.query, hclear, hsel]

theorem State.query_ctx (hsel : h.pkt.p 16 0 8 = 1) (hlt : a < 8) (hown : t.ctxOf h.src = none ∨ t.ctxOf h.src = some a) :
    t.query h = (t, some (t.queryCtx a)) := by
  have hle : ¬ 7 < a := by omega
  obtain hown | hown := hown <;> simp [State.query, hclear, hsel, hown, ha, hle]

theorem State.query_right (hsel : h.pkt.p 16 0 8 = 2) (hlt : a < 16) {c : Nat} (hown : t.ctxOf h.src = some c) :
    t.query h = (t, some (t.queryRight c a)) := by
  have hle : ¬ 15 < a := by omega
  simp [State.query, hclear, hsel, hown, ha, hle]

theorem State.query_basin (hsel : h.pkt.p 16 0 8 = 3) (hlt : a < t.cfg.basins) :
    ∃ v : State, t.query h = (v, some (t.queryBasin a)) ∧ v.lists = t.lists ∧ v.rings = t.rings ∧ t.SameStores v := by
  have hle : ¬ t.cfg.basins ≤ a := by omega
  have hself : t.SameStores t := .refl t
  cases hown : t.ctxOf h.src with
  | none => exact ⟨t, by simp [State.query, hclear, hsel, hown, ha, hle], rfl, rfl, hself⟩
  | some c =>
    by_cases hret : t.retiring.contains a = true
    · refine ⟨t.putCtx c { t.ctx c with ackPending := setBit (t.ctx c).ackPending a true }, ?_, rfl, rfl, rfl, rfl, rfl, rfl, rfl⟩
      simp only [State.query, hclear, hsel, hown, ha]
      simp [hle, List.contains_iff_mem.mp hret]
    · refine ⟨t, ?_, rfl, rfl, hself⟩
      simp only [State.query, hclear, hsel, hown, ha]
      simp [hle, show a ∉ t.retiring from fun hm => hret (List.contains_iff_mem.mpr hm)]

theorem State.query_events (hsel : h.pkt.p 16 0 8 = 4) (hsrc : h.src = .ring 8) (hlt : a < t.cfg.basins) :
    t.query h = (t, some (.words (nget t.lostEvents 0 a) (t.events.filter fun e => e.basin = a).length 0 0)) := by
  have hle : ¬ t.cfg.basins ≤ a := by omega
  simp [State.query, hclear, hsel, hsrc, ha, hle]

end

theorem State.queryCtx_words (t : State) (a : Nat) : t.queryCtx a = .words
    ((t.resident a).toNat + 2 * (decide (t.active = some a)).toNat + 4 * (t.ctx a).faulted.toNat +
      8 * (decide (t.ringState a = 4)).toNat) (t.ctx a).base
    ((t.regions.filter fun x => some x.entry = (t.ctx a).stackRgn).map fun x => x.len / 2 ^ 24).sum
    (t.lists.filter fun l => l.ctx = a).length := by
  rw [List.sum_eq_foldl]
  have hflags : flag (t.ctx a).resident 0 + flag (t.active = some a) 1 + flag (t.ctx a).faulted 2 + flag (t.ringState a = 4) 3 =
      (t.resident a).toNat + 2 * (decide (t.active = some a)).toNat + 4 * (t.ctx a).faulted.toNat +
        8 * (decide (t.ringState a = 4)).toNat := by
    simp only [flag, State.resident]
    omega
  rw [← hflags]
  rfl

theorem State.queryRight_words {t : State} {c a : Nat} {x : Admission}
    (hfind : (t.ctx c).admissions.find? (fun y => y.right = a) = some x) :
    t.queryRight c a = .words (if x.suspended then 2 else 1) x.bound x.furrow x.stack := by
  simp only [State.queryRight, hfind]

theorem State.queryBasin_words (t : State) (a : Nat) : t.queryBasin a = .words (64 - (t.lists.filter fun l => l.basin = a).length)
    (t.waits.filter fun w => w.basin = a).length (t.inFlightBasin a) ((t.live a).toNat + 2 * (t.retiring.contains a).toNat) := by
  have hflags : flag (t.live a) 0 + flag (t.retiring.contains a) 1 = (t.live a).toNat + 2 * (t.retiring.contains a).toNat := by
    simp only [flag]
    omega
  rw [← hflags]
  rfl

/-- Ring's counters, those of the first set: all but what the ring has completed and failed are shown to a sixteenth (R226, R388). -/
theorem State.statsOf_ring {t : State} {h : Handed} {obs : Nat → Nat} (hclear : h.pkt.reservedClear statsFields = true)
    (hn : h.pkt.p 16 0 12 = 0) (hring : h.pkt.p 17 7 1 = 1) (hset : h.pkt.p 18 0 8 = 0)
    (hobs : ∀ n, obs n = if bit (t.reg .secObsCfg) 0 then min n (2 ^ 32 - 1) else min n (2 ^ 32 - 1) / 16 * 16) :
    t.statsOf h = (t, some (.words (min (t.ring h.ctx).stats.completed (2 ^ 32 - 1)) (min (t.ring h.ctx).stats.failed (2 ^ 32 - 1))
      (obs ((t.ring h.ctx).stats.busy / 1024)) (obs (t.ring h.ctx).stats.alerted))) := by
  have hw : ∀ n, t.tenantWord false n = obs n := by
    intro n
    rw [hobs, State.tenantWord]
    simp
  have he : ∀ n, t.tenantWord true n = min n (2 ^ 32 - 1) := by
    intro n
    rw [State.tenantWord]
    simp
  simp [State.statsOf, hclear, hn, hring, hset, State.statsWords, hw, he]

/-! ### The records of the fault log -/

theorem State.OnlyMemory.kept {s t : State} (h : s.OnlyMemory t) : t.lists = s.lists ∧ t.rings = s.rings ∧ t.cistern = s.cistern ∧
    t.desc = s.desc ∧ t.gauge = s.gauge :=
  ⟨(congrArg State.lists h :), (congrArg State.rings h :), (congrArg State.cistern h :), (congrArg State.desc h :),
    (congrArg State.gauge h :)⟩

/-- The owner's or a context's buffer lies at a whole word of its basin where it lies at a granule of the site. -/
theorem State.logBuffer_aligned {t : State} {own : Option Nat} {a len b off : Nat} (ha : a % 256 = 0)
    (h : t.logBuffer own a len = some (b, off)) : off % 64 = 0 := by
  have hstride : 256 ∣ 2 ^ t.cfg.strideLog2 := pow_dvd_pow 2 (show 8 ≤ t.cfg.strideLog2 by unfold SiteConfig.strideLog2; split <;> omega)
  have hmod : a % 2 ^ t.cfg.strideLog2 % 256 = a % 256 := Nat.mod_mod_of_dvd a hstride
  unfold State.logBuffer SiteConfig.basinAt at h
  dsimp only at h
  generalize a % 2 ^ t.cfg.strideLog2 = o at h hmod
  split_ifs at h with hat
  · dsimp only at h
    split_ifs at h
    obtain ⟨rfl, rfl⟩ := Prod.mk.inj (Option.some.inj h)
    omega

theorem State.faultLog_copies {t : State} {h : Handed} {b off n : Nat} {bs : List Byte} {next : Option Nat}
    (hclear : h.pkt.reservedClear faultLogFields = true) (hdest : h.pkt.p 24 0 48 % 256 = 0) (hlen : 0 < h.pkt.p 30 0 8)
    (hmax : h.pkt.p 30 0 8 ≤ 128)
    (hbuf : t.logBuffer (t.ctxOf h.src) (h.pkt.p 24 0 48) (h.pkt.p 30 0 8 * 256) = some (b, off))
    (hcopy : copyRecords (logWants h.pkt (t.ctxOf h.src)) (h.pkt.p 30 0 8 * 256) (t.logMark h.pkt) t.cistern.records ([], 0, none) =
      (bs, n, next)) :
    t.faultLog h = (t.writeRange b off bs ⟨3, ditchTurnout⟩, some (.words n bs.length
      (next.getD (max (h.pkt.p 16 0 64) t.cistern.nextId) % 2 ^ 32) (next.getD (max (h.pkt.p 16 0 64) t.cistern.nextId) / 2 ^ 32))) := by
  have hpos : h.pkt.p 30 0 8 ≠ 0 := by omega
  have hle : ¬ 128 < h.pkt.p 30 0 8 := by omega
  simp [State.faultLog, hclear, hdest, hpos, hle, hbuf, hcopy]

/-- Settles O29: what a query reads is on its reply; the records asked for lie in their buffer. -/
theorem queriesAnswer : Obligations.QueriesAnswer := by
  constructor
  · rintro s t src p h a hs hclear rfl
    obtain ⟨hsrc, hpkt⟩ := hs.source
    simp only [← Packet.p_of_eq hpkt]
    refine ⟨fun hsel => ?_, fun hsel hlt hown => ?_, fun c x hsel hlt hown hfind => ?_, fun hsel hlt => ?_, fun hsel hring hlt => ?_⟩
    · obtain ⟨hsame, -, hserved⟩ := hs.read (State.query_site hclear hsel)
      exact ⟨_, rfl, hsame, hserved⟩
    · obtain ⟨hsame, hctxs, hserved⟩ := hs.read ((State.query_ctx hclear rfl hsel hlt (hsrc ▸ hown)).trans
        (by rw [State.queryCtx_words]))
      exact ⟨_, rfl, hsame, hctxs, hserved⟩
    · obtain ⟨hsame, -, hserved⟩ := hs.read ((State.query_right hclear rfl hsel hlt (hsrc ▸ hown)).trans
        (by rw [State.queryRight_words hfind]))
      exact ⟨_, rfl, hsame, hserved⟩
    · obtain ⟨v, hask, hlists, hrings, hsame⟩ := State.query_basin hclear rfl hsel hlt
      obtain ⟨hserved, hans⟩ := hs.served (hask.trans (by rw [State.queryBasin_words])) hlists hrings
      exact ⟨_, rfl, hsame.trans hans.same, hserved⟩
    · obtain ⟨hsame, -, hserved⟩ := hs.read (State.query_events hclear rfl hsel (hsrc.trans hring) hlt)
      exact ⟨_, rfl, hsame, hserved⟩
  · intro s t src p h obs
    refine ⟨fun hs hclear hn hring hset hobs => ?_, fun b off bs n next hs hclear hdest hlen hmax hbuf hcopy => ?_⟩
    · rw [← Packet.p_of_eq hs.source.2] at hn hring hset
      obtain ⟨hsame, -, hserved⟩ := hs.read (State.statsOf_ring hclear hn hring hset hobs)
      exact ⟨_, rfl, hsame, hserved⟩
    · obtain ⟨hsrc, hpkt⟩ := hs.source
      subst hsrc
      simp only [← Packet.p_of_eq hpkt] at hdest hlen hmax hbuf hcopy ⊢
      have hwrite := t.writeRange_memory b off bs ⟨3, ditchTurnout⟩
      have hlands := t.writeRange_lands (b := b) (State.logBuffer_aligned hdest hbuf) bs ⟨3, ditchTurnout⟩
      have hask := State.faultLog_copies hclear hdest hlen hmax hbuf hcopy
      generalize t.writeRange b off bs ⟨3, ditchTurnout⟩ = v at hwrite hlands hask
      obtain ⟨hlists, hrings, hcistern, hdesc, hgauge⟩ := hwrite.kept
      obtain ⟨hserved, hans⟩ := hs.served hask hlists hrings
      have hmem := hans.same.1
      refine ⟨_, _, rfl, rfl, hserved, ?_, ?_, hans.same.2.2.1.trans hdesc, hans.same.2.2.2.1.trans hgauge⟩
      · rw [State.BytesLand, hmem]
        exact hlands
      · rw [show _ = v.cistern from (congrArg State.cistern hans :), hcistern]

end Sys2Proof.Machine
end

section
set_option Elab.async false -- the whole text is compiled in one process, within a fixed memory
/-! SUPPORT. `CTX_CREATE` without RECOVER (R43, R220, R363, R372). -/

namespace Sys2Proof.Machine

/-! ### The levee entries of a new context -/

/-- A levee entry and its allotment, given to context `c` in basin `b`. -/
def State.placeIn (s : State) (c base len : Nat) (al : Nat × Nat × Nat × Nat) (b : Nat) : State :=
  (s.addLevee b 0 c base len al).ownAllotment b c al

def State.placeAll (s : State) (c base len : Nat) (al : Nat × Nat × Nat × Nat) (bs : List Nat) : State :=
  bs.foldl (fun (s : State) b => s.placeIn c base len al b) s

/-- What the first word of a levee entry of a region reads. -/
def regionEntry (c base len : Nat) : Word64 := BitVec.ofNat 64 (2 ^ 63 + c * 2 ^ 56 + len * 2 ^ 32 + base)

section
variable (s : State) (c base len : Nat) (al : Nat × Nat × Nat × Nat) (b : Nat)

theorem State.putEntry_onlyOwned (n : Nat) (v w : Word64) :
    s.OnlyOwned ((s.putReg (.bsnLeveeA b n) v).putReg (.bsnLeveeB b n) w) :=
  ⟨rfl, fun _ hr => (State.reg_putReg_ne _ (hr b n).2 w).trans (s.reg_putReg_ne (hr b n).1 v)⟩

theorem State.addLevee_onlyOwned (kind : Nat) : s.OnlyOwned (s.addLevee b kind c base len al) := by
  unfold State.addLevee
  split
  · exact s.putEntry_onlyOwned b _ _ _
  · exact .refl s

theorem State.reg_ownAllotment (r : Reg) : (s.ownAllotment b c al).reg r = s.reg r := by
  obtain ⟨honly, hregs⟩ := s.ownAllotment_onlyOwned b c al
  have hcfg : (s.ownAllotment b c al).cfg = s.cfg := (congrArg State.cfg honly.1 :)
  simp only [State.reg, hregs, hcfg]

theorem State.placeIn_onlyOwned : s.OnlyOwned (s.placeIn c base len al b) :=
  (s.addLevee_onlyOwned c base len al b 0).trans (State.ownAllotment_onlyOwned _ b c al).1

theorem State.placeAll_onlyOwned (bs : List Nat) : s.OnlyOwned (s.placeAll c base len al bs) :=
  foldl_keeps s.OnlyOwned (fun (s : State) b => s.placeIn c base len al b) (fun t b h => h.trans (t.placeIn_onlyOwned c base len al b))
    bs s (.refl s)

/-- A basin's first free entry takes the region. -/
theorem State.placeIn_entry {n : Nat} (h : s.freeLevee b = some n) :
    (s.placeIn c base len al b).reg (.bsnLeveeA b n) = regionEntry c base len := by
  rw [State.placeIn, State.reg_ownAllotment, State.addLevee, h]
  dsimp only
  rw [State.putLevee, State.reg_putReg_ne _ (by simp), State.reg_putReg_self, regionEntry]
  simp

/-- Another basin's entries stay. -/
theorem State.placeIn_entry_ne {d : Nat} (hd : d ≠ b) (n : Nat) :
    (s.placeIn c base len al b).reg (.bsnLeveeA d n) = s.reg (.bsnLeveeA d n) := by
  rw [State.placeIn, State.reg_ownAllotment, State.addLevee]
  split
  · rw [State.putLevee, State.reg_putReg_ne _ (by simp), State.reg_putReg_ne _ (by simpa using fun h => absurd h hd)]
  · rfl

theorem State.freeLevee_congr {s t : State} {b : Nat} (h : ∀ n, t.reg (.bsnLeveeA b n) = s.reg (.bsnLeveeA b n)) :
    t.freeLevee b = s.freeLevee b := by
  simp only [State.freeLevee, h]

variable {s}

theorem State.placeAll_entry_ne {bs : List Nat} {d : Nat} (hd : d ∉ bs) (n : Nat) :
    (s.placeAll c base len al bs).reg (.bsnLeveeA d n) = s.reg (.bsnLeveeA d n) := by
  induction bs generalizing s with
  | nil => rfl
  | cons e bs ih =>
    obtain ⟨hde, hdbs⟩ : d ≠ e ∧ d ∉ bs := by simpa using hd
    exact (ih (s := s.placeIn c base len al e) hdbs).trans (s.placeIn_entry_ne c base len al e hde n)

/-- Every basin of the list has its region's entry in the first that was free. -/
theorem State.placeAll_entry {bs : List Nat} (hnd : bs.Nodup) {b n : Nat} (hb : b ∈ bs) (hfree : s.freeLevee b = some n) :
    (s.placeAll c base len al bs).reg (.bsnLeveeA b n) = regionEntry c base len := by
  induction bs generalizing s with
  | nil => simp at hb
  | cons e bs ih =>
    obtain ⟨hout, hnd'⟩ := List.nodup_cons.mp hnd
    obtain rfl | hb' := List.mem_cons.mp hb
    · exact (State.placeAll_entry_ne (s := s.placeIn c base len al b) c base len al hout n).trans
        (s.placeIn_entry c base len al b hfree)
    · have hbe : b ≠ e := fun h => hout (h ▸ hb')
      exact ih (s := s.placeIn c base len al e) hnd' hb'
        ((State.freeLevee_congr fun n => s.placeIn_entry_ne c base len al e hbe n).trans hfree)

end

theorem nodup_bitsSet {w : Nat} (x : BitVec w) (n : Nat) : (bitsSet x n).Nodup := List.nodup_range.filter _

/-! ### A new context's rings and record -/

/-- From `s` to `t` what others than context `c` go by has not changed: the other rings, lists, memory, the active context, levees. -/
structure State.OnlyCreated (s t : State) (c : Nat) : Prop where
  rings : ∀ r, r ≠ c → t.ring r = s.ring r
  lists : t.lists = s.lists
  mem : t.mem = s.mem
  active : t.active = s.active
  levees : ∀ b n, t.reg (.bsnLeveeA b n) = s.reg (.bsnLeveeA b n)

theorem State.OnlyCreated.refl (s : State) (c : Nat) : s.OnlyCreated s c := ⟨fun _ _ => rfl, rfl, rfl, rfl, fun _ _ => rfl⟩

theorem State.OnlyCreated.trans {s t u : State} {c : Nat} (h : s.OnlyCreated t c) (k : t.OnlyCreated u c) : s.OnlyCreated u c :=
  ⟨fun r hr => (k.rings r hr).trans (h.rings r hr), k.lists.trans h.lists, k.mem.trans h.mem, k.active.trans h.active,
    fun b n => (k.levees b n).trans (h.levees b n)⟩

section
variable (s : State) (c : Nat)

theorem State.putReg_onlyCreated {r : Reg} (hr : ∀ b n, Reg.bsnLeveeA b n ≠ r) (v : Word64) : s.OnlyCreated (s.putReg r v) c :=
  ⟨fun _ _ => rfl, rfl, rfl, rfl, fun b n => s.reg_putReg_ne (hr b n) v⟩

theorem State.clearRegion_onlyCreated (r : Region) : s.OnlyCreated (s.clearRegion r) c := ⟨fun _ _ => rfl, rfl, rfl, rfl, fun _ _ => rfl⟩

theorem State.addRegion_onlyCreated (n : Nat) (islocal : Bool) (x phys units base : Nat) (set : List Nat) :
    s.OnlyCreated (s.addRegion n islocal x phys units base set) c := by
  have hput (v w : Word64) : s.OnlyCreated ((s.putReg (.sphRgnA n) v).putReg (.sphRgnB n) w) c :=
    (s.putReg_onlyCreated c (by simp) v).trans (State.putReg_onlyCreated _ c (by simp) w)
  unfold State.addRegion
  dsimp only
  split
  · exact (hput _ _).trans (State.clearRegion_onlyCreated _ c _)
  · exact hput _ _

theorem State.clearRing_onlyCreated : s.OnlyCreated (s.clearRing c) c := by
  refine ⟨fun r hr => ?_, rfl, rfl, rfl, fun b n => ?_⟩
  · exact State.ring_putRing_ne _ hr _
  · exact kget_filter (p := fun q : Reg => match q with
      | .ringCmd k | .ringRpl k | .ringDb k | .ringHead k | .ringRtail k | .ringRhead k | .ringSt k => k ≠ c
      | _ => true) s.regs _ rfl

/-- A record put, its keys loaded and its random words drawn. -/
theorem State.putCtx_onlyCreated (r : CtxRec) (gen : Nat) : s.OnlyCreated ((s.putCtx c r).loadKeys c gen).useFree c :=
  ⟨fun _ _ => rfl, rfl, rfl, rfl, fun _ _ => rfl⟩

theorem State.putCtx_keyed (r : CtxRec) (gen : Nat) : (((s.putCtx c r).loadKeys c gen).useFree).ctx c = r ∧
    ∀ q, (((s.putCtx c r).loadKeys c gen).useFree).reg q = s.reg q := ⟨s.ctx_putCtx_self c r, fun _ => rfl⟩

end

/-- The registers of a new context's rings (R220). -/
def State.openRings (s : State) (a : CreateAsk) (base : Nat) : State :=
  let t := ((s.clearRing a.ctx).putReg (.ringCmd a.ctx)
    (BitVec.ofNat 64 (a.home * 2 ^ 48 + a.right * 2 ^ 44 + a.cmdLog * 2 ^ 40 + base))).putReg (.ringRpl a.ctx)
    (BitVec.ofNat 64 (a.rplLog * 2 ^ 40 + base + a.cmdGranules))
  (t.putFld (.ringSt a.ctx) 0 4 2).putReg (.secCtxSt a.ctx) (Reg.resetValue t.cfg (.secCtxSt a.ctx))

theorem State.openRings_onlyCreated (s : State) (a : CreateAsk) (base : Nat) : s.OnlyCreated (s.openRings a base) a.ctx :=
  ((((s.clearRing_onlyCreated a.ctx).trans (State.putReg_onlyCreated _ a.ctx (by simp) _)).trans
    (State.putReg_onlyCreated _ a.ctx (by simp) _)).trans (State.putReg_onlyCreated _ a.ctx (by simp) _)).trans
    (State.putReg_onlyCreated _ a.ctx (by simp) _)

theorem State.openRings_shows (s : State) (a : CreateAsk) (base : Nat) : (s.openRings a base).ringState a.ctx = 2 ∧
    (s.openRings a base).reg (.ringRpl a.ctx) = BitVec.ofNat 64 (a.rplLog * 2 ^ 40 + base + a.cmdGranules) := by
  constructor
  · rw [State.openRings, State.ringState, State.rfld, State.reg_putReg_ne _ (by simp), ← State.rfld,
      State.rfld_putFld_self _ _ _ _ _ (by decide)]
    rfl
  · rw [State.openRings, State.reg_putReg_ne _ (by simp), State.reg_putFld_ne _ (by simp), State.reg_putReg_self]

/-- The record of a new context. -/
def State.newRecord (s : State) (a : CreateAsk) (base : Nat) (stack : Option (Nat × Nat × Nat)) : CtxRec :=
  { CtxRec.absent with
    resident := true, ownerItems := a.ownerItems, createNo := s.freeUses + 1, homeBasin := a.home, mask := a.mask
    base := base, len := a.len, stackRgn := stack.map (·.1), keyGen := s.freeUses + 1 }

theorem State.newRecord_fields (s : State) (a : CreateAsk) (base : Nat) (stack : Option (Nat × Nat × Nat)) :
    (s.newRecord a base stack).resident = true ∧ (s.newRecord a base stack).base = base ∧ (s.newRecord a base stack).len = a.len ∧
      (s.newRecord a base stack).mask = a.mask := ⟨rfl, rfl, rfl, rfl⟩

/-- The stack space of a new context. -/
def State.withStack (s : State) (a : CreateAsk) (stack : Option (Nat × Nat × Nat)) : State :=
  match stack with
  | some (n, u, phys) => s.addRegion n a.islocal a.ctx phys a.stack u (s.newSet a.islocal)
  | none => s

theorem State.withStack_onlyCreated (s : State) (a : CreateAsk) (stack : Option (Nat × Nat × Nat)) :
    s.OnlyCreated (s.withStack a stack) a.ctx := by
  unfold State.withStack
  split
  · exact s.addRegion_onlyCreated a.ctx _ _ _ _ _ _ _
  · exact .refl s a.ctx

theorem State.createContext_eq (s : State) (a : CreateAsk) (base : Nat) (stack : Option (Nat × Nat × Nat)) :
    ∃ w : State, w = ((s.placeAll a.ctx base a.len (s.cfg.allotment base a.len) (bitsSet a.mask 64)).withStack a stack).openRings a base ∧
      s.createContext a base stack = ((w.putCtx a.ctx (w.newRecord a base stack)).loadKeys a.ctx (w.freeUses + 1)).useFree := by
  exact ⟨_, rfl, rfl⟩

/-- What creating a context leaves (R43, R220). -/
theorem State.createContext_leaves {s : State} {a : CreateAsk} {base : Nat} (stack : Option (Nat × Nat × Nat)) {v : State}
    (hv : s.createContext a base stack = v) :
    (∀ r, r ≠ a.ctx → v.ring r = s.ring r) ∧ v.lists = s.lists ∧ v.mem = s.mem ∧ v.active = s.active ∧
      v.resident a.ctx = true ∧ (v.ctx a.ctx).base = base ∧ (v.ctx a.ctx).len = a.len ∧ (v.ctx a.ctx).mask = a.mask ∧
      v.ringState a.ctx = 2 ∧ v.reg (.ringRpl a.ctx) = BitVec.ofNat 64 (a.rplLog * 2 ^ 40 + base + a.cmdGranules) ∧
      ∀ b ∈ bitsSet a.mask 64, ∀ n, s.freeLevee b = some n → v.reg (.bsnLeveeA b n) = regionEntry a.ctx base a.len := by
  obtain ⟨w, hw, heq⟩ := s.createContext_eq a base stack
  have hplaced := s.placeAll_onlyOwned a.ctx base a.len (s.cfg.allotment base a.len) (bitsSet a.mask 64)
  have hentries : ∀ b ∈ bitsSet a.mask 64, ∀ n, s.freeLevee b = some n → _ := fun b hb n hn =>
    State.placeAll_entry a.ctx base a.len (s.cfg.allotment base a.len) (nodup_bitsSet a.mask 64) hb hn
  generalize s.placeAll a.ctx base a.len (s.cfg.allotment base a.len) (bitsSet a.mask 64) = p at hw hplaced hentries
  have hopened := (p.withStack_onlyCreated a stack).trans (State.openRings_onlyCreated _ a base)
  obtain ⟨hst, hrpl⟩ := (p.withStack a stack).openRings_shows a base
  rw [← hw] at hopened hst hrpl
  have hlast := hopened.trans (w.putCtx_onlyCreated a.ctx (w.newRecord a base stack) (w.freeUses + 1))
  obtain ⟨hctx, hreg⟩ := w.putCtx_keyed a.ctx (w.newRecord a base stack) (w.freeUses + 1)
  obtain ⟨hres, hbase, hlen, hmask⟩ := w.newRecord_fields a base stack
  rw [← heq, hv] at hlast hctx hreg
  generalize w.newRecord a base stack = r at hctx hres hbase hlen hmask
  have hrings : p.rings = s.rings := (congrArg State.rings hplaced.1 :)
  refine ⟨fun r hr => (hlast.rings r hr).trans (by rw [State.ring, hrings]; rfl), hlast.lists.trans (congrArg State.lists hplaced.1 :),
    hlast.mem.trans (congrArg State.mem hplaced.1 :), hlast.active.trans (congrArg State.active hplaced.1 :), ?_, ?_, ?_, ?_, ?_, ?_, ?_⟩
  · rw [State.resident, hctx, hres]
  · rw [hctx, hbase]
  · rw [hctx, hlen]
  · rw [hctx, hmask]
  · rw [State.ringState, State.rfld, hreg]
    exact hst
  · rw [hreg, hrpl]
  · exact fun b hb n hn => (hlast.levees b n).trans (hentries b hb n hn)

/-! ### The decision -/

/-- A ring's control packet that its decision completes is served where the decision left that ring alone. -/
theorem State.Serves.completed_ring {s t : State} {p : Packet} {h : Handed} {k : Nat} (hs : s.Serves (.ring k) p t h)
    {ask : State → Handed → State × Option Outcome} {v : State} {w0 w1 w2 w3 : Nat} (hask : ask t h = (v, some (.words w0 w1 w2 w3)))
    (hlists : v.lists = t.lists) (hring : v.ring k = t.ring k) :
    t.Served (s.control (.ring k) p ask) h w0 w1 w2 w3 ∧ v.OnlyRings (s.control (.ring k) p ask) := by
  have hrun : v.ListsRun := fun l hl => hs.listsRun l (hlists ▸ hl)
  obtain ⟨rp, hwait, ⟨hans, hw1, hw2, hw3⟩, hgone, honly⟩ := State.finishHanded_ring hrun hs.source.1 (.words w0 w1 w2 w3)
  rw [State.control_served ask hs, hask]
  simp only [State.Served, hs.source.1, ← hring]
  exact ⟨⟨hgone, rp, hwait, hans, hw1, hw2, hw3⟩, honly⟩

theorem State.create_unlocked {t : State} {h : Handed} (hgood : t.createBad h.pkt.createAsk = false) (hun : t.unlocked = true)
    (entropyOk : Bool) : t.create h entropyOk = (t, some (.refuse .refusedState)) := by
  simp [State.create, hgood, hun]

/-- The stack space a sound request is given. -/
def State.stackFor (t : State) (a : CreateAsk) : Option (Nat × Nat × Nat) := if a.stack = 0 then none else t.fitStack a.islocal a.stack

theorem State.create_creates {t : State} {h : Handed} {a : CreateAsk} {base : Nat} (ha : a = h.pkt.createAsk)
    (hgood : t.createBad a = false) (hun : t.unlocked = false) (hfree : t.resident a.ctx = false) (hbusy : t.lifecycleBusy h = false)
    (hin : t.maskRetired a.mask = false) (hmask : ∀ b ∈ bitsSet a.mask 64, b ∉ t.retiring ∧ (t.freeLevee b).isSome)
    (hbase : lowestFit (t.takenInAll (bitsSet a.mask 64)) t.cfg.spaceGranules a.len = some base)
    (hstack : a.stack ≠ 0 → (t.fitStack a.islocal a.stack).isSome) :
    t.create h true = (t.createContext a base (t.stackFor a), some (.words base base (base + a.cmdGranules)
      (((t.stackFor a).map fun x => x.2.1).getD 0))) := by
  have hany : ((bitsSet a.mask 64).any fun b => (t.freeLevee b).isNone) = false := by
    rw [List.any_eq_false]
    intro b hb
    have := (hmask b hb).2
    cases hf : t.freeLevee b <;> simp [hf] at this ⊢
  have hret : ((bitsSet a.mask 64).any t.retiring.contains) = false := by
    rw [List.any_eq_false]
    exact fun b hb => by simpa using (hmask b hb).1
  have hfit : ¬ (a.stack ≠ 0 ∧ (t.stackFor a).isNone = true) := by
    rintro ⟨hne, hnone⟩
    have := hstack hne
    rw [State.stackFor, if_neg hne] at hnone
    cases hf : t.fitStack a.islocal a.stack <;> simp [hf] at this hnone
  subst ha
  simp only [State.create, hgood, hun, hfree, hbusy, hin, hany, hret, hbase, Bool.false_eq_true, or_self, if_false]
  exact if_neg hfit

/-- `CTX_CREATE`'s decision, with RECOVER or without. -/
def State.creates (entropyOk : Bool) (s : State) (h : Handed) : State × Option Outcome :=
  if h.pkt.isRecovery then s.recover h
  else if !h.pkt.reservedClear createFields then (s, some (.refuse .badParam))
  else s.create h entropyOk

theorem exec_ctxCreate (src : Src) (p : Packet) (k : Bool) (s : State) :
    exec (.ctxCreate src p k) s = .next (s.control src { p with opcode := 0x42 } (State.creates k)) := rfl

/-- Settles O30: the request's space is found, its context's record, rings and levees set, and its packet answered. -/
theorem contextsCreated : Obligations.ContextsCreated := by
  intro s t p h a base hs hrec hclear ha hgood
  have hcreate (k : Bool) : State.creates k t h = t.create h k := by
    simp [State.creates, hrec, hclear]
  refine ⟨fun hun k => ?_, fun hun hfree hbusy hin hmask hbase hstack => ?_⟩
  · obtain ⟨rp, hwait, hans, honly⟩ := hs.refused (ask := State.creates k) ((hcreate k).trans (State.create_unlocked (ha ▸ hgood) hun k))
    exact ⟨_, rp, exec_ctxCreate _ p k s, hwait, hans, (congrArg State.ctxs honly :), honly.same⟩
  · have hask := (hcreate true).trans (State.create_creates ha hgood hun hfree hbusy hin hmask hbase hstack)
    have hleaves := State.createContext_leaves (s := t) (a := a) (base := base) (t.stackFor a) rfl
    generalize t.createContext a base (t.stackFor a) = v at hask hleaves
    obtain ⟨hring, hlists, hmem, hactive, hres, hbase', hlen, hmask', hst, hrpl, hlevee⟩ := hleaves
    have hctx : a.ctx < 8 := by
      rw [ha]
      exact Packet.p_lt h.pkt 16 0 3
    obtain ⟨hserved, honly⟩ := hs.completed_ring hask hlists (hring 8 (by omega))
    have hsame : ∀ c, (s.control (.ring 8) { p with opcode := 0x42 } (State.creates true)).ctx c = v.ctx c :=
      fun c => (congrArg (fun x : State => x.ctx c) honly :)
    refine ⟨_, _, exec_ctxCreate _ p true s, hserved, ?_, ?_, ?_, ?_, ?_, ?_, fun b hb => ?_, honly.same.1.trans hmem, ?_⟩
    · exact (congrArg CtxRec.resident (hsame _)).trans hres
    · exact (congrArg CtxRec.base (hsame _)).trans hbase'
    · exact (congrArg CtxRec.len (hsame _)).trans hlen
    · exact (congrArg CtxRec.mask (hsame _)).trans hmask'
    · exact (congrArg (fld · 0 4) (honly.reg _)).trans hst
    · exact (honly.reg _).trans hrpl
    · obtain ⟨n, hn⟩ := Option.isSome_iff_exists.mp (hmask b hb).2
      exact ⟨n, hn, (honly.reg _).trans (hlevee b hb n hn)⟩
    · exact (congrArg State.active honly :).trans hactive

end Sys2Proof.Machine
end

section
set_option Elab.async false -- the whole text is compiled in one process, within a fixed memory
/-! SUPPORT. Headgate frames: the queue of responses, the forms, the sequence, fetches, and the debug accesses (R392–R394). -/

namespace Sys2Proof.Machine

/-! ### What a frame does before it is run -/

/-- Every frame is a headgate frame of its type, header and payload. -/
theorem exec_of_frame {c : Instr} {typ : Byte} {h : HgHdr} {pl : List Byte} {wf : Bool} (hc : frameOf c = some (typ, h, pl, wf)) :
    ∃ run : State → State, ∀ s : State, exec c s = .next (s.hgFrame typ h pl wf run) := by
  cases c <;> simp only [frameOf, Option.some.injEq, Prod.mk.injEq, reduceCtorEq] at hc <;> obtain ⟨rfl, rfl, rfl, rfl⟩ := hc <;>
  exact ⟨_, fun _ => rfl⟩

theorem State.bump_hg (s : State) (r : Reg) (lo n k : Nat) : (s.bump r lo n k).hg = s.hg := by
  unfold State.bump
  split <;> rfl

theorem State.hgQueue_rest (s : State) (x : HgResp) : (s.hgQueue x).hg = { s.hg with queue := s.hg.queue ++ [x] } ∧
    (∀ r lo n, (s.hgQueue x).rfld r lo n = s.rfld r lo n) ∧ s.SameStores (s.hgQueue x) :=
  ⟨rfl, fun _ _ _ => rfl, rfl, rfl, rfl, rfl, rfl⟩

theorem State.openDrain_of_power {s : State} (h : s.start.pwrGood = true) (b : Bool) : s.openDrain b = if b then some false else none := by
  cases b <;> simp [State.openDrain, h]

/-- `HG_ATTN_N` is low while a response is queued (R392). -/
theorem State.hgAttnN_eq {s : State} (h : s.HgListens) : s.hgAttnN = if s.hg.queue = [] then none else some false := by
  rw [State.hgAttnN, State.openDrain_of_power h.2.1]
  cases s.hg.queue <;> simp

/-! ### The layout of a response -/

theorem crcByte_lt {poly c : Nat} (hp : poly < 2 ^ 32) (n : Nat) (hc : c < 2 ^ 32) : crcByte poly n c < 2 ^ 32 := by
  induction n generalizing c with
  | zero => exact hc
  | succ n ih =>
    refine ih ?_
    split
    · exact Nat.xor_lt_two_pow (by omega) hp
    · omega

theorem crc32c_lt (bs : List Byte) : crc32c bs < 2 ^ 32 := by
  refine Nat.xor_lt_two_pow (by decide) (foldl_keeps (fun c => c < 2 ^ 32)
    (fun c (b : Byte) => crcByte 0x82F63B78 8 (Nat.xor c b.toNat)) ?_ bs _ (by decide))
  exact fun c b hc => crcByte_lt (by decide) 8 (Nat.xor_lt_two_pow hc (lt_trans b.isLt (by decide)))

theorem leNat_leBytes_of_lt {n v : Nat} (h : v < 256 ^ n) : leNat (leBytes n v) = v := by
  rw [leNat_of_leBytes, Nat.mod_eq_of_lt h]

theorem HgResp.frame_layout (x : HgResp) (hlen : x.payload.length < 2 ^ 16) :
    x.frame.length = x.payload.length + 12 ∧ x.frame.take 2 = [x.typ, x.fseq] ∧
      leNat ((x.frame.drop 2).take 2) = x.payload.length ∧ (x.frame.drop 4).take 4 = [x.fstatus, 0, 0, 0] ∧
      (x.frame.drop 8).take x.payload.length = x.payload ∧
      leNat (x.frame.drop (x.payload.length + 8)) = crc32c (x.frame.take (x.payload.length + 8)) := by
  have htwo : ∃ a b, leBytes 2 x.payload.length = [a, b] := ⟨_, _, rfl⟩
  obtain ⟨a, b, hab⟩ := htwo
  have hbody : x.body = [x.typ, x.fseq, a, b, x.fstatus, 0, 0, 0] ++ x.payload := by
    rw [HgResp.body, hab]
    rfl
  have hbodylen : x.body.length = x.payload.length + 8 := by simp [hbody]
  have hframe : x.frame = [x.typ, x.fseq, a, b, x.fstatus, 0, 0, 0] ++ (x.payload ++ leBytes 4 (crc32c x.body)) := by
    rw [HgResp.frame, ← List.append_assoc, ← hbody]
  refine ⟨?_, ?_, ?_, ?_, ?_, ?_⟩
  · simp [hframe, leBytes_length]
  · simp [hframe]
  · have : (x.frame.drop 2).take 2 = leBytes 2 x.payload.length := by simp [hframe, hab]
    rw [this]
    exact leNat_leBytes_of_lt hlen
  · simp [hframe]
  · simp [hframe]
  · have hdrop : x.frame.drop (x.payload.length + 8) = leBytes 4 (crc32c x.body) := by
      rw [HgResp.frame, ← hbodylen, List.drop_left]
    have htake : x.frame.take (x.payload.length + 8) = x.body := by
      rw [HgResp.frame, ← hbodylen, List.take_left]
    rw [hdrop, htake]
    exact leNat_leBytes_of_lt (crc32c_lt _)

/-! ### Frames and fetches (R393) -/

section
variable {s : State} (hs : s.HgListens)
include hs

theorem frame_dropped {c : Instr} {typ : Byte} {h : HgHdr} {pl : List Byte} {wf : Bool} (hc : frameOf c = some (typ, h, pl, wf))
    (hfull : s.hgFull = true) : ∃ t, exec c s = .next t ∧ t.hg = s.hg ∧
      t.rfld .cstHgSt 0 8 = min (s.rfld .cstHgSt 0 8 + 1) (2 ^ 8 - 1) ∧ s.SameStores t := by
  obtain ⟨run, hrun⟩ := exec_of_frame hc
  refine ⟨_, (hrun s).trans (congrArg Host.Outcome.next (State.hgFrame_full hs typ h pl wf run hfull)), s.bump_hg _ _ _ _, ?_,
    (s.bump_onlyShown _ _ _ _).same⟩
  exact s.rfld_bump_self _ _ _ (by decide)

theorem frame_malformed {c : Instr} {typ : Byte} {h : HgHdr} {pl : List Byte} {wf : Bool} (hc : frameOf c = some (typ, h, pl, wf))
    (hroom : s.hgFull = false) (hbad : wf = false ∨ h.good typ pl = false) : ∃ t, exec c s = .next t ∧
      t.hg = { s.hg with queue := s.hg.queue ++ [⟨typ ||| 0x80, h.fseq, 1, []⟩] } ∧
      t.rfld .cstHgSt 16 16 = min (s.rfld .cstHgSt 16 16 + 1) (2 ^ 16 - 1) ∧ s.SameStores t := by
  obtain ⟨run, hrun⟩ := exec_of_frame hc
  obtain ⟨hhg, hfld, hsame⟩ := (s.bump .cstHgSt 16 16).hgQueue_rest ⟨typ ||| 0x80, h.fseq, 1, []⟩
  refine ⟨_, (hrun s).trans (congrArg Host.Outcome.next (State.hgFrame_bad hs typ h pl wf run hroom hbad)), ?_, ?_,
    (s.bump_onlyShown _ _ _ _).same.trans hsame⟩
  · rw [hhg, State.bump_hg]
  · rw [hfld]
    exact s.rfld_bump_self _ _ _ (by decide)

theorem frame_out_of_sequence {c : Instr} {typ : Byte} {h : HgHdr} {pl : List Byte} (hc : frameOf c = some (typ, h, pl, true))
    (hroom : s.hgFull = false) (hgood : h.good typ pl = true) (hnew : s.hgRepeated h = none) {q : Byte} (hlast : s.hg.lastSeq = some q)
    (hseq : h.fseq ≠ q + 1) : ∃ t, exec c s = .next t ∧
      t.hg = { s.hg with queue := s.hg.queue ++ [⟨typ ||| 0x80, h.fseq, 2, []⟩] } ∧
      t.rfld .cstHgSt 8 8 = min (s.rfld .cstHgSt 8 8 + 1) (2 ^ 8 - 1) ∧ s.SameStores t := by
  obtain ⟨run, hrun⟩ := exec_of_frame hc
  obtain ⟨hhg, hfld, hsame⟩ := (s.bump .cstHgSt 8 8).hgQueue_rest ⟨typ ||| 0x80, h.fseq, 2, []⟩
  have hnext : s.hgNext h = false := by
    simp only [State.hgNext, hlast]
    exact decide_eq_false hseq
  refine ⟨_, (hrun s).trans (congrArg Host.Outcome.next ((State.hgFrame_again hs typ h pl run hroom hgood).2 hnew hnext)), ?_, ?_,
    (s.bump_onlyShown _ _ _ _).same.trans hsame⟩
  · rw [hhg, State.bump_hg]
  · rw [hfld]
    exact s.rfld_bump_self _ _ _ (by decide)

/-- What is sent next. -/
theorem execHgFetch_awake (h : HgHdr) : exec (.hgFetch h) s =
    if !h.good 0x04 [] then .next { s.bump .cstHgSt 16 16 with hg := { (s.bump .cstHgSt 16 16).hg with out := ⟨0x84, h.fseq, 1, []⟩ } }
    else match s.hg.queue with
      | [] => .next { s with hg := { s.hg with out := ⟨0x80, 0, 0, []⟩ } }
      | x :: rest => .next { s with hg := { s.hg with queue := rest, out := x } } := by
  obtain ⟨hup, hawake⟩ := hs
  simp only [exec, execHgFetch, hup, State.wakeFor_awake hawake]
  rfl

end

/-! ### Debug accesses (R394) -/

theorem State.HgTakes.taken {s t : State} {typ : Byte} {h : HgHdr} {pl : List Byte} (ht : s.HgTakes typ h pl t) :
    t.Awake ∧ s.SameStores t ∧ t.hg.queue = s.hg.queue ∧ t.flights = s.flights := by
  obtain ⟨⟨-, hpwr, hsite⟩, -, -, -, -, rfl⟩ := ht
  have hreg : (s.hgTake h).reg .pwrSt = s.reg .pwrSt := s.reg_bump_ne (by simp) _ _ _
  have hsite' : (s.hgTake h).site = s.site := congrArg (fld · 0 4) hreg
  have hhg : (s.bump .cstHgSt 32 32).hg = s.hg := s.bump_hg _ _ _ _
  have hb := s.bump_onlyShown .cstHgSt 32 32 1
  have hsame := hb.same
  refine ⟨⟨?_, hsite' ▸ hsite⟩, ?_, ?_, ?_⟩
  · exact (congrArg (fun x : State => x.start.pwrGood) hb :).trans hpwr
  · exact hsame
  · exact (show (s.bump .cstHgSt 32 32).hg.queue = s.hg.queue by rw [hhg])
  · exact (congrArg State.flights hb :)

section
variable {t : State} {h : HgHdr} {pl : List Byte} {r : Reg} (hp : t.placeOf r.addr.toNat 8 = .reg r 0) (ha : debugAddr pl = r.addr.toNat)
  (hn : debugSize pl = 8)
include hp ha hn

/-- A debug access to a register waits for nothing. -/
theorem State.accessReady_reg (w : Bool) : t.accessReady .headgate (debugAddr pl) (debugSize pl) w = (t, true) := by
  rw [ha, hn]
  simp only [State.accessReady, State.siteAccess, hp]
  split_ifs <;> rfl

theorem State.debugAsk_read (hq : t.hg.waitingDebug = []) : t.debugAsk ⟨h, false, pl⟩ =
    (t.siteLoad .headgate r.addr.toNat 8).1.hgExecuted h ⟨0x82, h.fseq, 0, (t.siteLoad .headgate r.addr.toNat 8).2⟩ := by
  have hready := State.accessReady_reg hp ha hn false
  simp only [State.debugAsk, hq, State.debugMade, hready]
  simp [ha, hn]

theorem State.debugAsk_write (hq : t.hg.waitingDebug = []) : t.debugAsk ⟨h, true, pl⟩ =
    (t.siteStore .headgate true r.addr.toNat (pl.drop 16)).hgExecuted h ⟨0x83, h.fseq, 0, []⟩ := by
  have hready := State.accessReady_reg hp ha hn true
  simp only [State.debugAsk, hq, State.debugMade, hready]
  simp [ha]

end

theorem State.hgExecuted_rest (s : State) (h : HgHdr) (x : HgResp) : (s.hgExecuted h x).hg.queue = s.hg.queue ++ [x] ∧
    (s.hgExecuted h x).regs = s.regs ∧ (∀ r, (s.hgExecuted h x).reg r = s.reg r) ∧ s.SameStores (s.hgExecuted h x) :=
  ⟨rfl, rfl, fun _ => rfl, rfl, rfl, rfl, rfl, rfl⟩

/-- The headgate's load of a register without an effect of its own. -/
theorem State.siteLoad_headgate {t : State} {r : Reg} (hA : t.Awake) (hm : t.Meets .headgate r 8 false) (hr : ∀ b k, r ≠ .trnLatSt b k) :
    t.siteLoad .headgate r.addr.toNat 8 = (t, leBytes 8 (t.regValue .headgate r).toNat) := by
  obtain ⟨hp, hreach⟩ := hm
  have hne : Place.reg r 0 ≠ .nowhere := Place.noConfusion
  have hmap : t.siteLoad .headgate r.addr.toNat 8 = t.mapLoad .headgate r.addr.toNat 8 := by
    simp only [State.siteLoad, hA.windowUp]
    rfl
  rw [hmap, hA.mapLoad, hp, if_neg hne, hreach]
  exact t.readReg_plain .headgate hr

/-- A store that meets no count of its cycle sets RW fields, and leaves every other register (R434, R435). -/
theorem State.plainStore_unlogged {s : State} {r : Reg} (h1 : r.access.w1c = 0) (h2 : r.access.counter = 0) (v : Word64) :
    (s.plainStore r r.access.rw (laneMask 0 8) v).reg r = s.stored r v ∧
      (∀ r', r' ≠ r → (s.plainStore r r.access.rw (laneMask 0 8) v).reg r' = s.reg r') ∧
      (s.plainStore r r.access.rw (laneMask 0 8) v).flights = s.flights := by
  have hnone : (r.access.counter ||| r.access.w1c) &&& laneMask 0 8 = 0 := by rw [h1, h2]; decide
  have hval := fieldStore_whole h1 h2 (s.reg r) v
  simp only [State.plainStore, hnone]
  obtain ⟨hreg, hflights⟩ := State.afterStore_none (s.putReg r (fieldStore (s.reg r) r.access r.access.rw (laneMask 0 8) v)) r
  refine ⟨(hreg r).trans ((s.reg_putReg_self r _).trans hval), fun r' hr => (hreg r').trans (s.reg_putReg_ne hr _), hflights⟩

theorem State.plainStore_hg (s : State) (r : Reg) (rw lanes data : Word64) : (s.plainStore r rw lanes data).hg = s.hg := by
  have hafter (t : State) (m : Word64) : (t.afterStore r m).hg = t.hg := by
    unfold State.afterStore
    induction t.fresh with
    | nil => rfl
    | cons u l ih =>
      rw [List.foldr_cons, ← ih]
      generalize List.foldr _ t l = v
      cases u with
      | bump r' lo w n => dsimp only; split <;> rfl
      | stream b e base mag => rfl
      | setBits r' m' => dsimp only; split <;> rfl
  exact hafter _ _

/-- The headgate's store to a class map or a culvert's configuration. -/
theorem State.siteStore_headgate {t : State} {r : Reg} (hA : t.Awake) (hrest : t.AtRest) (hm : t.Meets .headgate r 8 true)
    (hr : (∃ b, r = .trnQosMap b) ∨ ∃ c, r = .culCfg c) (hlive : ∀ b, r.basin? = some b → t.live b = true) {bs : List Byte}
    (hbs : bs.length = 8) : ∃ u, t.siteStore .headgate true r.addr.toNat bs = u ∧
      u.reg r = t.stored r (BitVec.ofNat 64 (leNat bs)) ∧ (∀ r', r' ≠ r → u.reg r' = t.reg r') ∧ t.SameStores u ∧ u.hg = t.hg := by
  obtain ⟨hp, hreach⟩ := hm
  have hne : Place.reg r 0 ≠ .nowhere := Place.noConfusion
  have hplain : r.plainConfig = true := by
    obtain ⟨b, rfl⟩ | ⟨c, rfl⟩ := hr <;> rfl
  obtain ⟨h1, h2, hwriter⟩ := Reg.plainConfig_access hplain
  obtain ⟨hval, hother, hflights⟩ := State.plainStore_unlogged (s := t) h1 h2 (BitVec.ofNat 64 (leNat bs))
  have hsame : t.SameStores (t.plainStore r r.access.rw (laneMask 0 8) (BitVec.ofNat 64 (leNat bs))) :=
    State.sameStores_of_lasting (t.lasting_plainStore _ _ _ _)
  have hhg := t.plainStore_hg r r.access.rw (laneMask 0 8) (BitVec.ofNat 64 (leNat bs))
  have hwrite : t.writeReg .headgate true r 0 8 (BitVec.ofNat 64 (leNat bs)) =
      t.plainStore r r.access.rw (laneMask 0 8) (BitVec.ofNat 64 (leNat bs)) := by
    obtain ⟨b, rfl⟩ | ⟨c, rfl⟩ := hr
    · have hup := hlive b rfl
      exact (if_neg (by simp [Reg.basin?, hup])).trans rfl
    · have hnone : t.writeReg .headgate true (.culCfg c) 0 8 (BitVec.ofNat 64 (leNat bs)) =
          if false = true then t.violation Requester.headgate.violSource ((Reg.culCfg c).addr.toNat + 0) true
          else t.plainStore (.culCfg c) (Reg.culCfg c).access.rw (laneMask 0 8) (BitVec.ofNat 64 (leNat bs)) := rfl
      exact hnone.trans (if_neg Bool.false_ne_true)
  have hstore : t.siteStore .headgate true r.addr.toNat bs =
      (t.writeReg .headgate true r 0 8 (BitVec.ofNat 64 (leNat bs))).runReady := by
    have hmap : t.siteStore .headgate true r.addr.toNat bs = t.mapStore .headgate true r.addr.toNat bs := by
      simp only [State.siteStore, hA.windowUp]
      rfl
    rw [hmap, hA.mapStore, hbs, hp, if_neg hne, hreach]
    simp only [State.storeAt, hbs, Nat.mul_zero, Nat.pow_zero, Nat.mul_one]
    rfl
  rw [hstore, hwrite, hrest.runReady hflights]
  exact ⟨_, rfl, hval, hother, hsame, hhg⟩

/-- Settles O40: each outcome of a frame is an equation of the frame's; debug accesses are the window's. -/
theorem headgateFrames : Obligations.HeadgateFrames := by
  intro s hs
  refine ⟨fun c typ h pl wf hc => ⟨fun hfull => frame_dropped hs hc hfull, fun hroom hbad => frame_malformed hs hc hroom hbad,
      fun x hroom hwf hgood hrep => ?_, fun q hroom hwf hgood hnew hlast hseq => ?_⟩,
    fun h hgood => ⟨fun hq => ?_, fun x rest hq => ?_⟩, fun h hbad => ?_, State.hgAttnN_eq hs, HgResp.frame_layout,
    fun h pl t r ht hok hlen hq hup hm hr ha hn => ?_, fun h pl t r ht hok hlen hq hup hrest _ hm hr ha hn hlive => ?_⟩
  · obtain ⟨run, hrun⟩ := exec_of_frame hc
    subst hwf
    exact (hrun s).trans (congrArg Host.Outcome.next ((State.hgFrame_again hs typ h pl run hroom hgood).1 x hrep))
  · subst hwf
    exact frame_out_of_sequence hs hc hroom hgood hnew hlast hseq
  · rw [execHgFetch_awake hs, hgood, hq]
    rfl
  · rw [execHgFetch_awake hs, hgood, hq]
    rfl
  · refine ⟨_, (execHgFetch_awake hs h).trans (by rw [hbad]; rfl), rfl, ?_⟩
    exact (show (s.bump .cstHgSt 16 16).hg.queue = s.hg.queue by rw [State.bump_hg])
  · obtain ⟨hA, hsame, hqueue, -⟩ := ht.taken
    have hexec : exec (.hgDebugRead h pl) s = .next (t.debugAsk ⟨h, false, pl⟩) := by
      simp only [exec, execHgDebugRead, hok, hlen, decide_true, Bool.and_self, State.hgFrame_taken _ ht]
      rfl
    rw [hexec, State.debugAsk_read hm.1 ha hn hq, State.siteLoad_headgate hA hm hr]
    obtain ⟨hq', hregs, -, hsame'⟩ := t.hgExecuted_rest h ⟨0x82, h.fseq, 0, leBytes 8 (t.regValue .headgate r).toNat⟩
    exact ⟨_, rfl, hregs, hsame.trans hsame', by rw [hq', hqueue]⟩
  · obtain ⟨hA, hsame, hqueue, -⟩ := ht.taken
    have hexec : exec (.hgDebugWrite h pl) s = .next (t.debugAsk ⟨h, true, pl⟩) := by
      simp only [exec, execHgDebugWrite, hok, hlen, decide_true, Bool.and_self, State.hgFrame_taken _ ht]
      rfl
    have hbs : (pl.drop 16).length = 8 := by rw [List.length_drop, hlen, hn]
    obtain ⟨u, hu, hval, hother, hsame', hhg⟩ := State.siteStore_headgate hA hrest hm hr hlive hbs
    rw [hexec, State.debugAsk_write hm.1 ha hn hq, hu]
    obtain ⟨hq', -, hreg, hsame''⟩ := u.hgExecuted_rest h ⟨0x83, h.fseq, 0, []⟩
    exact ⟨_, rfl, (hsame.trans hsame').trans hsame'', (hreg r).trans hval, fun r' hr' => (hreg r').trans (hother r' hr'),
      by rw [hq', hhg, hqueue]⟩

end Sys2Proof.Machine
end

section
set_option Elab.async false -- the whole text is compiled in one process, within a fixed memory
/-! SUPPORT. Images staged (R398–R400, R406, R407, R409). -/

namespace Sys2Proof.Machine

/-! ### A service packet's answer -/

theorem State.hgReply_queue (s : State) (w : HgFrame) (o : Outcome) : (s.hgReply w o).hg = { s.hg with
    queue := s.hg.queue ++ [⟨0x81, w.hdr.fseq, 0, (o.reply w.pkt false 0).bytes false⟩]
    last := ((w.hdr.fseq, w.hdr.crc, ⟨0x81, w.hdr.fseq, 0, (o.reply w.pkt false 0).bytes false⟩) :: s.hg.last).take 4 } := rfl

/-- From `s` to `t` the headgate's own record alone has changed. -/
def State.OnlySaid (s t : State) : Prop := { t with hg := s.hg } = s

section
variable {s t : State} (h : s.OnlySaid t)
include h

theorem State.OnlySaid.regs : t.regs = s.regs := (congrArg State.regs h :)

theorem State.OnlySaid.reg (r : Reg) : t.reg r = s.reg r := (congrArg (fun x : State => x.reg r) h :)

theorem State.OnlySaid.cistern : t.cistern = s.cistern := (congrArg State.cistern h :)

theorem State.OnlySaid.start : t.start = s.start := (congrArg State.start h :)

theorem State.OnlySaid.running : t.running = s.running := (congrArg State.running h :)

theorem State.OnlySaid.core : t.core = s.core := (congrArg State.core h :)

theorem State.OnlySaid.same : s.SameStores t :=
  ⟨(congrArg State.mem h :), (congrArg State.memChk h :), (congrArg State.desc h :), (congrArg State.gauge h :),
    (congrArg State.stack h :)⟩

theorem State.OnlySaid.stage : t.stage = s.stage := congrArg (fld · 28 4) (State.OnlySaid.reg h .cstFwSt)

theorem State.OnlySaid.received : t.received = s.received := congrArg (fld · 0 20) (State.OnlySaid.reg h .cstFwSt)

end

theorem State.hgReply_onlySaid (s : State) (w : HgFrame) (o : Outcome) : s.OnlySaid (s.hgReply w o) := rfl

/-- An outcome's four words. -/
def Outcome.Says (o : Outcome) (st : Status) (w0 w1 w2 w3 : Nat) : Prop :=
  o.status = st ∧ o.w0 = BitVec.ofNat 32 w0 ∧ o.w1 = BitVec.ofNat 32 w1 ∧ o.w2 = BitVec.ofNat 32 w2 ∧ o.w3 = BitVec.ofNat 32 w3

theorem Outcome.words_says (w0 w1 w2 w3 : Nat) : (Outcome.words w0 w1 w2 w3).Says .ok w0 w1 w2 w3 := ⟨rfl, rfl, rfl, rfl, rfl⟩

theorem Outcome.ok_says : Outcome.ok.Says .ok 0 0 0 0 := ⟨rfl, rfl, rfl, rfl, rfl⟩

theorem Outcome.refuse_says (st : Status) : (Outcome.refuse st).Says st 0 0 0 0 := ⟨rfl, rfl, rfl, rfl, rfl⟩

theorem Outcome.refuseW_says (st : Status) (w0 : Nat) : (Outcome.refuseW st w0).Says st w0 0 0 0 := ⟨rfl, rfl, rfl, rfl, rfl⟩

theorem State.hgReply_answers {t v : State} (hq : v.hg.queue = t.hg.queue) (w : HgFrame) {o : Outcome} {st : Status} {w0 w1 w2 w3 : Nat}
    (ho : o.Says st w0 w1 w2 w3) : t.HgAnswered (v.hgReply w o) w.hdr w.pkt st w0 w1 w2 w3 := by
  obtain ⟨hst, h0, h1, h2, h3⟩ := ho
  refine ⟨o.reply w.pkt false 0, ?_, ⟨rfl, rfl, rfl, rfl, h0, .inl hst⟩, h1, h2, h3⟩
  rw [State.hgReply_queue, hq]

section
variable {s t v : State} {h : HgHdr} {p : Packet} {d : List Byte} (hs : s.HgServes h p d t) {w : HgFrame}
  (hw : w.hdr = h ∧ w.pkt = p ∧ w.data = d) {ask : State → HgFrame → State × Option Outcome}
include hs hw

/-- A service packet that its decision answers. -/
theorem State.HgServes.answered {o : Outcome} (hask : ask t w = (v, some o)) (hq : v.hg.queue = t.hg.queue) {st : Status}
    {w0 w1 w2 w3 : Nat} (ho : o.Says st w0 w1 w2 w3) :
    t.HgAnswered (s.service w ask) h p st w0 w1 w2 w3 ∧ v.OnlySaid (s.service w ask) ∧ (s.service w ask).hg.nonce = v.hg.nonce := by
  rw [State.service_served ask hw hs, hask]
  have hans := State.hgReply_answers hq w ho
  rw [hw.1, hw.2.1] at hans
  exact ⟨hans, v.hgReply_onlySaid w o, rfl⟩

/-- One that it leaves open. -/
theorem State.HgServes.goesOn (hask : ask t w = (v, none)) : s.service w ask = v := by
  rw [State.service_served ask hw hs, hask]

end

/-! ### A header that opens the slot (R398) -/

/-- A frame has come now. -/
theorem State.noteFrame_rest (s : State) : s.noteFrame.hg.queue = s.hg.queue ∧ s.noteFrame.cistern = s.cistern ∧
    (∀ r, s.noteFrame.reg r = s.reg r) ∧ s.SameStores s.noteFrame ∧ s.noteFrame.updateRefusal false = s.updateRefusal false ∧
    s.noteFrame.cfg = s.cfg :=
  ⟨rfl, rfl, fun _ => rfl, ⟨rfl, rfl, rfl, rfl, rfl⟩, rfl, rfl⟩

/-- The slot opened for an image of which only the header has come. -/
def State.slotOpened (s : State) (x : ImageInfo) (d : List Byte) : State :=
  (({ s with cistern := { s.cistern with staged := some x, stagedBytes := d, receivedKept := 0 } } : State).setStage 1).setReceived 0

theorem State.slotOpened_shows (s : State) (x : ImageInfo) (d : List Byte) : (s.slotOpened x d).stage = 1 ∧ (s.slotOpened x d).received = 0 ∧
    (s.slotOpened x d).cistern = { s.cistern with staged := some x, stagedBytes := d, receivedKept := 0 } ∧ (s.slotOpened x d).hg = s.hg ∧
    s.SameStores (s.slotOpened x d) := by
  refine ⟨?_, ?_, rfl, rfl, rfl, rfl, rfl, rfl, rfl⟩
  · rw [State.slotOpened, State.setReceived, State.stage, State.rfld_putFld_ne _ _ _ _ _ _ _ _ (.inr (.inr (by decide))), State.setStage,
      State.rfld_putFld_self _ _ _ _ _ (by decide)]
    rfl
  · rw [State.slotOpened, State.setReceived, State.received, State.rfld_putFld_self _ _ _ _ _ (by decide)]
    rfl

section
variable {t : State} {w : HgFrame} {x : ImageInfo} (hclear : w.pkt.reservedClear [] = true) (hfree : t.updateRefusal false = none)
  (hstage : t.stage = 0) (hok : headerOk w.data = true) (hkind : numAt w.data 10 2 = 0xE2) (haccept : t.cfg.acceptedBy w.data = true)
  (hlen : bodyLenOk (numAt w.data 24 4) = true) (hx : x = imageOf w.data)
include hclear hfree hstage hok hkind haccept hlen hx

theorem State.imgBeginAsk_opens (hkey : w.verdict = true) (hlow : t.cistern.arCounter ≤ x.svn) (hhigh : x.svn ≤ 64)
    (hrev : bit t.cistern.revoked x.keyIndex = false) : t.imgBeginAsk w = (t.noteFrame.slotOpened x w.data, some .ok) := by
  obtain ⟨-, hcis, hreg, -, href, hcfg⟩ := t.noteFrame_rest
  have hst : t.noteFrame.stage = 0 := (congrArg (fld · 28 4) (hreg .cstFwSt)).trans hstage
  have hbody : bodyLenOk x.bodyLen = true := by rw [hx]; exact hlen
  have hsvn : ¬ (x.svn < t.cistern.arCounter ∨ 64 < x.svn) := by omega
  simp only [State.imgBeginAsk, hclear, href, hfree, hst, hok, hkind, hcfg, haccept, ← hx, hbody, hcis]
  simp [hsvn, hrev, hkey]
  rfl

theorem State.imgBeginAsk_denied (hbad : w.verdict = false ∨ x.svn < t.cistern.arCounter ∨ 64 < x.svn ∨
    bit t.cistern.revoked x.keyIndex = true) : t.imgBeginAsk w = (t.noteFrame, some (.refuse .accessDenied)) := by
  obtain ⟨-, hcis, hreg, -, href, hcfg⟩ := t.noteFrame_rest
  have hst : t.noteFrame.stage = 0 := (congrArg (fld · 28 4) (hreg .cstFwSt)).trans hstage
  have hbody : bodyLenOk x.bodyLen = true := by rw [hx]; exact hlen
  simp only [State.imgBeginAsk, hclear, href, hfree, hst, hok, hkind, hcfg, haccept, ← hx, hbody, hcis]
  by_cases hsvn : x.svn < t.cistern.arCounter ∨ 64 < x.svn
  · simp [hsvn]
  · obtain hv | hv : w.verdict = false ∨ bit t.cistern.revoked x.keyIndex = true := by tauto
    · simp [hsvn, hv]
    · simp [hsvn, hv]

end

/-! ### Data in order (R399) -/

/-- The slot with more of its image. -/
def State.slotGrown (s : State) (d : List Byte) (r kept : Nat) : State :=
  ({ s with cistern := { s.cistern with stagedBytes := s.cistern.stagedBytes ++ d, receivedKept := kept } } : State).setReceived r

theorem State.slotGrown_shows (s : State) (d : List Byte) {r : Nat} (kept : Nat) (hr : r < 2 ^ 20) : (s.slotGrown d r kept).received = r ∧
    (s.slotGrown d r kept).stage = s.stage ∧ (s.slotGrown d r kept).cistern.staged = s.cistern.staged ∧
    (s.slotGrown d r kept).cistern.stagedBytes = s.cistern.stagedBytes ++ d ∧ (s.slotGrown d r kept).hg = s.hg ∧
    s.SameStores (s.slotGrown d r kept) := by
  refine ⟨?_, ?_, rfl, rfl, rfl, rfl, rfl, rfl, rfl, rfl⟩
  · rw [State.slotGrown, State.setReceived, State.received, State.rfld_putFld_self _ _ _ _ _ (by decide), Nat.mod_eq_of_lt hr]
  · rw [State.slotGrown, State.setReceived, State.stage, State.rfld_putFld_ne _ _ _ _ _ _ _ _ (.inr (.inr (by decide)))]
    rfl

section
variable {t : State} {w : HgFrame} {x : ImageInfo} (hclear : w.pkt.reservedClear [(16, 0, 32)] = true) (hne : w.data ≠ [])
  (hx : t.cistern.staged = some x) (hstage : t.stage = 1)
include hclear hne hx hstage

theorem State.imgDataAsk_takes (hat : w.pkt.p 16 0 32 = t.received) (hfit : t.received + w.data.length ≤ x.rest)
    (hwhole : w.data.length % 256 = 0 ∨ t.received + w.data.length = x.rest) :
    ∃ kept, t.imgDataAsk w = (t.noteFrame.slotGrown w.data (t.received + w.data.length) kept, some .ok) := by
  obtain ⟨-, hcis, hreg, -, -, -⟩ := t.noteFrame_rest
  have hst : t.noteFrame.stage = 1 := (congrArg (fld · 28 4) (hreg .cstFwSt)).trans hstage
  have hrec : t.noteFrame.received = t.received := congrArg (fld · 0 20) (hreg .cstFwSt)
  have hx' : t.noteFrame.cistern.staged = some x := hcis ▸ hx
  have hlen : w.data.length ≠ 0 := by simpa using hne
  have hle : ¬ x.rest < t.received + w.data.length := by omega
  have hpart : ¬ (w.data.length % 256 ≠ 0 ∧ t.received + w.data.length ≠ x.rest) := by omega
  rw [← hrec] at hat hle hpart ⊢
  unfold State.imgDataAsk
  dsimp only
  generalize t.noteFrame = n at *
  refine ⟨if (n.received + w.data.length) / 65536 > n.received / 65536 then n.received + w.data.length else n.cistern.receivedKept, ?_⟩
  simp only [hx', hclear, hst, hat, hlen, hle, hpart, Bool.not_true, Bool.false_eq_true, or_self, ne_eq, not_true, if_false, gt_iff_lt,
    State.slotGrown]

theorem State.imgDataAsk_elsewhere (hat : w.pkt.p 16 0 32 ≠ t.received) :
    t.imgDataAsk w = (t.noteFrame, some (.refuseW .badParam t.received)) := by
  obtain ⟨-, hcis, hreg, -, -, -⟩ := t.noteFrame_rest
  have hst : t.noteFrame.stage = 1 := (congrArg (fld · 28 4) (hreg .cstFwSt)).trans hstage
  have hrec : t.noteFrame.received = t.received := congrArg (fld · 0 20) (hreg .cstFwSt)
  simp only [State.imgDataAsk, hcis, hx, hclear, hst, hrec]
  simp [hat, hne]

end

/-! ### The end, and the verification (R400, R406) -/

/-- RECEIVED kept over a loss of power. -/
def State.keepReceived (s : State) : State := { s with cistern := { s.cistern with receivedKept := s.received } }

theorem HgFrame.bare_of {w : HgFrame} (hclear : w.pkt.reservedClear [] = true) (hd : w.data = []) : w.bare = true := by
  simp [HgFrame.bare, hclear, hd]

section
variable {t : State} {w : HgFrame} {x : ImageInfo} (hbare : w.bare = true) (hx : t.cistern.staged = some x) (hstage : t.stage ≤ 2)
include hbare hx hstage

theorem State.imgEndAsk_short (hshort : t.received ≠ x.rest) :
    t.imgEndAsk w = (t.noteFrame.keepReceived, some (.refuseW .size t.received)) := by
  obtain ⟨-, hcis, hreg, -, -, -⟩ := t.noteFrame_rest
  have hst : ¬ 2 < t.noteFrame.stage := by
    rw [show t.noteFrame.stage = t.stage from congrArg (fld · 28 4) (hreg .cstFwSt)]
    omega
  have hrec : t.noteFrame.received = t.received := congrArg (fld · 0 20) (hreg .cstFwSt)
  have hx' : t.noteFrame.cistern.staged = some x := hcis ▸ hx
  rw [← hrec] at hshort ⊢
  unfold State.imgEndAsk
  dsimp only
  generalize t.noteFrame = n at *
  rw [if_neg (by simp [hbare])]
  split
  · next h => exact absurd (h.symm.trans hx') (by simp)
  · next y h =>
    obtain rfl : x = y := Option.some.inj (hx'.symm.trans h)
    rw [if_neg hst]
    exact if_pos hshort

theorem State.imgEndAsk_whole (hwhole : t.received = x.rest) :
    t.imgEndAsk w = ({ t.noteFrame.keepReceived with hg := { t.noteFrame.keepReceived.hg with ending := some w } }, none) := by
  obtain ⟨-, hcis, hreg, -, -, -⟩ := t.noteFrame_rest
  have hst : ¬ 2 < t.noteFrame.stage := by
    rw [show t.noteFrame.stage = t.stage from congrArg (fld · 28 4) (hreg .cstFwSt)]
    omega
  have hrec : t.noteFrame.received = t.received := congrArg (fld · 0 20) (hreg .cstFwSt)
  have hx' : t.noteFrame.cistern.staged = some x := hcis ▸ hx
  rw [← hrec] at hwhole
  unfold State.imgEndAsk
  dsimp only
  generalize t.noteFrame = n at *
  rw [if_neg (by simp [hbare])]
  split
  · next h => exact absurd (h.symm.trans hx') (by simp)
  · next y h =>
    obtain rfl : x = y := Option.some.inj (hx'.symm.trans h)
    rw [if_neg hst]
    exact if_neg fun h => h hwhole

end

/-- The boot record last written is the one that counts (R401). -/
theorem Cistern.bootRec_writeBoot (c : Cistern) (slotB pending : Bool) :
    (c.writeBoot slotB pending).bootRec = ⟨c.bootRec.gen + 1, slotB, pending⟩ := by
  simp only [Cistern.writeBoot, Cistern.bootRec]
  split
  · next h => exact if_neg (by simp)
  · next h => exact if_pos (by simp)

/-- A copy marked pending or not, the active slot as it was. -/
theorem State.markCopy_shows (s : State) (pending : Bool) : (s.markCopy pending).cistern.copyPending = pending ∧
    (s.markCopy pending).activeB = s.activeB ∧ (s.markCopy pending).cistern = { s.cistern with boot := (s.markCopy pending).cistern.boot } ∧
    { s.markCopy pending with cistern := s.cistern } = s := by
  unfold State.markCopy
  split
  · next h => exact ⟨h, rfl, rfl, rfl⟩
  · refine ⟨?_, ?_, rfl, rfl⟩
    · rw [Cistern.copyPending, Cistern.bootRec_writeBoot]
    · rw [State.activeB, Cistern.bootRec_writeBoot]

/-- A slot that has been emptied. -/
theorem State.emptyStaging_shows (s : State) : s.emptyStaging.stage = 0 ∧ s.emptyStaging.cistern.staged = none ∧
    s.emptyStaging.cistern.copyPending = false ∧ s.emptyStaging.hg = s.hg ∧ s.emptyStaging.rfld .cstFwSt 48 16 = s.rfld .cstFwSt 48 16 ∧
    s.SameStores s.emptyStaging := by
  obtain ⟨hpending, -, -, hrest⟩ := s.markCopy_shows false
  have hreg : (s.markCopy false).reg .cstFwSt = s.reg .cstFwSt := (congrArg (fun x : State => x.reg .cstFwSt) hrest :)
  have hhg : (s.markCopy false).hg = s.hg := (congrArg State.hg hrest :)
  have hsame : s.SameStores (s.markCopy false) := ⟨(congrArg State.mem hrest :), (congrArg State.memChk hrest :),
    (congrArg State.desc hrest :), (congrArg State.gauge hrest :), (congrArg State.stack hrest :)⟩
  have hempty (t : State) : (({ (t.setStage 0).putFld .cstFwSt 0 20 0 with
      cistern := { t.cistern with staged := none, stagedBytes := [], receivedKept := 0 } } : State).stage = 0 ∧
      ({ (t.setStage 0).putFld .cstFwSt 0 20 0 with
        cistern := { t.cistern with staged := none, stagedBytes := [], receivedKept := 0 } } : State).rfld .cstFwSt 48 16 =
          t.rfld .cstFwSt 48 16) := by
    constructor
    · refine ((t.setStage 0).rfld_putFld_ne .cstFwSt .cstFwSt 0 20 28 4 0 (.inr (.inr (by decide)))).trans ?_
      exact t.rfld_putFld_self .cstFwSt 28 4 0 (by decide)
    · refine ((t.setStage 0).rfld_putFld_ne .cstFwSt .cstFwSt 0 20 48 16 0 (.inr (.inr (by decide)))).trans ?_
      exact t.rfld_putFld_ne .cstFwSt .cstFwSt 28 4 48 16 0 (.inr (.inr (by decide)))
  unfold State.emptyStaging
  dsimp only
  generalize s.markCopy false = t at *
  obtain ⟨hst, hcount⟩ := hempty t
  refine ⟨hst, rfl, hpending, hhg, hcount.trans (congrArg (fld · 48 16) hreg), hsame.trans ⟨rfl, rfl, rfl, rfl, rfl⟩⟩

/-- An image that verifies, in its slot. -/
def State.accepted (s : State) (x : ImageInfo) : State :=
  ({ s with cistern := { s.cistern with staged := some { x with body := (s.cistern.stagedBytes.drop 512).take x.bodyLen } } } :
    State).setStage 2

theorem State.accepted_shows (s : State) (x : ImageInfo) : (s.accepted x).stage = 2 ∧
    (s.accepted x).cistern.staged = some { x with body := (s.cistern.stagedBytes.drop 512).take x.bodyLen } ∧
    (s.accepted x).hg = s.hg ∧ s.SameStores (s.accepted x) :=
  ⟨State.rfld_putFld_self _ _ _ _ _ (by decide), rfl, rfl, rfl, rfl, rfl, rfl, rfl⟩

/-- What a verification leaves. -/
theorem State.imgVerified_leaves {v : State} {w : HgFrame} {x : ImageInfo} (hw : v.hg.ending = some w) (hx : v.cistern.staged = some x)
    (hup : v.controlDown = false) : v.imgVerified.hg.ending = none ∧ v.SameStores v.imgVerified ∧
      (v.mayRun x w.verdict = true → v.HgAnswered v.imgVerified w.hdr w.pkt .ok x.svn x.bodyLen (fld x.build 0 32) (fld x.build 32 32) ∧
        v.imgVerified.stage = 2 ∧
        v.imgVerified.cistern.staged = some { x with body := (v.cistern.stagedBytes.drop 512).take x.bodyLen }) ∧
      (v.mayRun x w.verdict = false → v.HgAnswered v.imgVerified w.hdr w.pkt .accessDenied 0 0 0 0 ∧ v.imgVerified.stage = 0 ∧
        v.imgVerified.cistern.staged = none ∧
        v.imgVerified.rfld .cstFwSt 48 16 = min (v.rfld .cstFwSt 48 16 + 1) (2 ^ 16 - 1)) := by
  generalize hc : ({ v with hg := { v.hg with ending := none } } : State) = c
  have hhg : c.hg = { v.hg with ending := none } := by rw [← hc]
  have hcis : c.cistern = v.cistern := by rw [← hc]
  have hrun : c.mayRun x w.verdict = v.mayRun x w.verdict := by rw [← hc]; rfl
  have hfld : c.rfld .cstFwSt 48 16 = v.rfld .cstFwSt 48 16 := by rw [← hc]; rfl
  have hsame : v.SameStores c := by rw [← hc]; exact ⟨rfl, rfl, rfl, rfl, rfl⟩
  have heq : v.imgVerified = if v.mayRun x w.verdict then
      (c.accepted x).hgReply w (.words x.svn x.bodyLen (fld x.build 0 32) (fld x.build 32 32))
      else c.emptyStaging.fwFail.hgReply w (.refuse .accessDenied) := by
    rw [← hrun, ← hc]
    unfold State.imgVerified
    split
    · next w' x' hw' hx' =>
      obtain rfl : w = w' := Option.some.inj (hw.symm.trans hw')
      obtain rfl : x = x' := Option.some.inj (hx.symm.trans hx')
      rw [if_neg (by simp [hup])]
      unfold State.imgVerdict
      dsimp only
      split <;> rfl
    · next hno => exact absurd hx (hno w x hw)
  rw [heq]
  split
  · next hok =>
    obtain ⟨hst, hstaged, hhg', hsame'⟩ := c.accepted_shows x
    have honly := (c.accepted x).hgReply_onlySaid w (.words x.svn x.bodyLen (fld x.build 0 32) (fld x.build 32 32))
    refine ⟨?_, (hsame.trans hsame').trans honly.same, fun _ => ⟨?_, honly.stage.trans hst, ?_⟩, fun hno => ?_⟩
    · rw [State.hgReply_queue, hhg', hhg]
    · exact State.hgReply_answers (by rw [hhg', hhg]) w (Outcome.words_says _ _ _ _)
    · rw [honly.cistern, hstaged, hcis]
    · rw [hok] at hno
      exact absurd hno (by simp)
  · next hno =>
    obtain ⟨hst, hstaged, -, hhg', hcount, hsame'⟩ := c.emptyStaging_shows
    have hb := c.emptyStaging.bump_onlyShown .cstFwSt 48 16 1
    have hbhg : c.emptyStaging.fwFail.hg = c.emptyStaging.hg := (congrArg State.hg hb :)
    have hbst : c.emptyStaging.fwFail.stage = c.emptyStaging.stage := State.rfld_bump_ne _ _ _ _ _ _ _ _ (.inr (.inl (by decide)))
    have hbstaged : c.emptyStaging.fwFail.cistern.staged = c.emptyStaging.cistern.staged := rfl
    have hbcount : c.emptyStaging.fwFail.rfld .cstFwSt 48 16 = min (c.emptyStaging.rfld .cstFwSt 48 16 + 1) (2 ^ 16 - 1) :=
      State.rfld_bump_self _ _ _ _ (by decide)
    have hbsame : c.emptyStaging.SameStores c.emptyStaging.fwFail := hb.same
    generalize c.emptyStaging.fwFail = f at *
    have honly := f.hgReply_onlySaid w (.refuse .accessDenied)
    refine ⟨?_, ((hsame.trans hsame').trans hbsame).trans honly.same, fun hyes => absurd hyes hno,
      fun _ => ⟨?_, honly.stage.trans (hbst.trans hst), ?_, ?_⟩⟩
    · rw [State.hgReply_queue, hbhg, hhg', hhg]
    · exact State.hgReply_answers (by rw [hbhg, hhg', hhg]) w (Outcome.refuse_says _)
    · rw [honly.cistern, hbstaged, hstaged]
    · rw [State.rfld, honly.reg, ← State.rfld, hbcount, hcount, hfld]

/-- An abort empties the slot. -/
theorem State.imgAbortAsk_idle {t : State} {w : HgFrame} (hbare : w.bare = true) (hidle : t.handover.isSome = false)
    (hstage : t.stage ≠ 3) : t.imgAbortAsk w = (t.emptyStaging, some (.words t.stage 0 0 0)) := by
  simp [State.imgAbortAsk, hbare, hidle, hstage]

/-- A status shows the slot. -/
theorem State.imgStatusAsk_bare {t : State} {w : HgFrame} (hbare : w.bare = true) :
    t.imgStatusAsk w = (t, some (.words (t.rfld .cstFwSt 0 32)
      (t.rfld .cstFwSt 32 32) ((t.cistern.staged.map (·.bodyLen)).getD 0) ((t.cistern.staged.map (·.svn)).getD 0))) := by
  simp [State.imgStatusAsk, hbare]

/-- Settles O41: every staging packet is a decision of its own, answered; a verification is its verdict's. -/
theorem imagesStaged : Obligations.ImagesStaged := by
  intro s t h p d
  refine ⟨?_, ?_, ?_, ?_, ?_, ?_⟩
  · rintro k x hs hclear hfree hstage hok hkind haccept hlen hx
    obtain ⟨hq, hcis, hreg, hsame, -, -⟩ := t.noteFrame_rest
    refine ⟨fun hk hlow hhigh hrev => ?_, fun hbad => ?_⟩
    · have hask := State.imgBeginAsk_opens (w := ⟨h, { p with opcode := 0xC0 }, d, k, 0⟩) hclear hfree hstage hok hkind haccept hlen hx
        hk hlow hhigh hrev
      obtain ⟨hst, hrec, hcis', hhg, hsame'⟩ := t.noteFrame.slotOpened_shows x d
      obtain ⟨hans, honly, -⟩ := hs.answered ⟨rfl, rfl, rfl⟩ hask ((congrArg Headgate.queue hhg).trans hq) Outcome.ok_says
      exact ⟨_, rfl, hans, honly.cistern.trans (hcis'.trans (by rw [hcis])), honly.stage.trans hst, honly.received.trans hrec,
        (hsame.trans hsame').trans honly.same⟩
    · have hask := State.imgBeginAsk_denied (w := ⟨h, { p with opcode := 0xC0 }, d, k, 0⟩) hclear hfree hstage hok hkind haccept hlen hx
        hbad
      obtain ⟨hans, honly, -⟩ := hs.answered ⟨rfl, rfl, rfl⟩ hask hq (Outcome.refuse_says _)
      exact ⟨_, rfl, hans, honly.cistern.trans hcis,
        honly.stage.trans ((congrArg (fld · 28 4) (hreg .cstFwSt)).trans hstage), hsame.trans honly.same⟩
  · intro x hs hclear hne hx hrest hstage
    obtain ⟨hq, hcis, hreg, hsame, -, -⟩ := t.noteFrame_rest
    have hst0 : t.noteFrame.stage = 1 := (congrArg (fld · 28 4) (hreg .cstFwSt)).trans hstage
    refine ⟨fun hat hfit hwhole => ?_, fun hat => ?_⟩
    · obtain ⟨kept, hask⟩ := State.imgDataAsk_takes (w := ⟨h, { p with opcode := 0xC1 }, d, true, 0⟩) hclear hne hx hstage hat hfit hwhole
      obtain ⟨hrec, hst, hstaged, hbytes, hhg, hsame'⟩ := t.noteFrame.slotGrown_shows d kept (r := t.received + d.length) (by omega)
      obtain ⟨hans, honly, -⟩ := hs.answered ⟨rfl, rfl, rfl⟩ hask ((congrArg Headgate.queue hhg).trans hq) Outcome.ok_says
      refine ⟨_, rfl, hans, honly.received.trans hrec, honly.stage.trans (hst.trans hst0), ?_, ?_, (hsame.trans hsame').trans honly.same⟩
      · rw [honly.cistern, hstaged, hcis, hx]
      · rw [honly.cistern, hbytes, hcis]
    · have hask := State.imgDataAsk_elsewhere (w := ⟨h, { p with opcode := 0xC1 }, d, true, 0⟩) hclear hne hx hstage hat
      obtain ⟨hans, honly, -⟩ := hs.answered ⟨rfl, rfl, rfl⟩ hask hq (Outcome.refuseW_says _ _)
      exact ⟨_, rfl, hans, honly.cistern.trans hcis, hsame.trans honly.same⟩
  · intro v x hs hclear hx hstage
    have hbare : HgFrame.bare ⟨h, { p with opcode := 0xC2 }, [], v, 0⟩ = true := HgFrame.bare_of hclear rfl
    refine ⟨fun hshort => ?_, fun hwhole => ?_⟩
    · obtain ⟨hans, honly, -⟩ := hs.answered ⟨rfl, rfl, rfl⟩ (State.imgEndAsk_short hbare hx hstage hshort) (by rfl)
        (Outcome.refuseW_says _ _)
      exact ⟨_, rfl, hans, State.SameStores.trans ⟨rfl, rfl, rfl, rfl, rfl⟩ honly.same, honly.cistern, honly.stage⟩
    · exact ⟨_, congrArg Host.Outcome.next (hs.goesOn ⟨rfl, rfl, rfl⟩ (State.imgEndAsk_whole hbare hx hstage hwhole)), rfl,
        ⟨rfl, rfl, rfl, rfl, rfl⟩, rfl, rfl, rfl⟩
  · rintro v u w x hw hx hup rfl
    exact State.imgVerified_leaves hw hx hup
  · intro hs hclear hstage
    have hidle : t.handover.isSome = false := by
      obtain ⟨-, -, hwaits, -⟩ := hs
      simp only [State.hgWaits, Bool.or_eq_false_iff] at hwaits
      obtain ⟨⟨⟨⟨-, hh⟩, -⟩, -⟩, -⟩ := hwaits
      exact hh
    have hask := State.imgAbortAsk_idle (w := ⟨h, { p with opcode := 0xC3 }, [], true, 0⟩) (HgFrame.bare_of hclear rfl) hidle hstage
    obtain ⟨hst, hstaged, hcopy, hhg, -, hsame⟩ := t.emptyStaging_shows
    obtain ⟨hans, honly, -⟩ := hs.answered ⟨rfl, rfl, rfl⟩ hask (congrArg Headgate.queue hhg) (Outcome.words_says _ _ _ _)
    exact ⟨_, rfl, hans, honly.stage.trans hst, by rw [honly.cistern, hstaged], by rw [honly.cistern, hcopy], hsame.trans honly.same⟩
  · intro hs hclear
    have hask := State.imgStatusAsk_bare (t := t) (w := ⟨h, { p with opcode := 0xC5 }, [], true, 0⟩) (HgFrame.bare_of hclear rfl)
    obtain ⟨hans, honly, -⟩ := hs.answered ⟨rfl, rfl, rfl⟩ hask rfl (Outcome.words_says _ _ _ _)
    exact ⟨_, rfl, honly.cistern, honly.regs, honly.same, hans⟩

end Sys2Proof.Machine
end

section
set_option Elab.async false -- the whole text is compiled in one process, within a fixed memory
/-! SUPPORT. Nonces, tokens and re-tests of the headgate; the destruction that a debug unlock waits for (R346, R372, R395). -/
namespace Sys2Proof.Machine


/-! ### Tokens (R395) -/

/-- The nonce of a state has been used up. -/
def State.nonceSpent (s : State) : State := { s with hg := { s.hg with nonce := none } }

/-- A good token is bound to the last nonce. -/
theorem State.nonce_of_tokenOk {s : State} {d : List Byte} {v : Bool} (h : s.tokenOk d v = true) :
    s.hg.nonce = some (BitVec.ofNat 128 (numAt d 16 16)) := by
  simp only [State.tokenOk, Bool.and_eq_true, beq_iff_eq] at h
  obtain ⟨⟨⟨-, hnonce⟩, -⟩, -⟩ := h
  exact hnonce

section
variable {t : State} {w : HgFrame} (hclear : w.pkt.reservedClear [] = true) (hlen : w.data.length = 7680)
include hclear hlen

/-- A token that is not good changes at most the nonce, and is denied. -/
theorem State.tokenAsk_bad (hbad : t.tokenOk w.data w.verdict = false) :
    ∃ n, t.tokenAsk w = ({ t with hg := { t.hg with nonce := n } }, some (.refuse .accessDenied)) := by
  unfold State.tokenAsk
  rw [if_neg (show ¬ ((!w.pkt.reservedClear []) = true ∨ w.data.length ≠ 7680) by simp [hclear, hlen])]
  dsimp only
  rw [hbad, if_pos (show (!false) = true from rfl)]
  by_cases hn : t.hg.nonce = some (BitVec.ofNat 128 (numAt w.data 16 16))
  · rw [if_pos hn]
    exact ⟨none, rfl⟩
  · rw [if_neg hn]
    exact ⟨t.hg.nonce, rfl⟩

section
variable (hok : t.tokenOk w.data w.verdict = true)
include hok

/-- A good token uses up its nonce, and goes by its kind. -/
theorem State.tokenAsk_good : t.tokenAsk w = match numAt w.data 0 1 with
    | 1 =>
      if t.cistern.ownerLock ∨ (List.range 8).any t.nonceSpent.lockedCtx then (t.nonceSpent, some (.refuse .refusedState))
      else if t.nonceSpent.residents.isEmpty then (t.nonceSpent.debugUnlock, some Outcome.ok)
      else
        (t.nonceSpent.residents.foldl (fun (s : State) c => s.destroyContext c none false)
          { t.nonceSpent with hg := { t.nonceSpent.hg with unlock := some w } }, none)
    | 2 =>
      if t.cistern.slotA.keyIndex = numAt w.data 2 1 ∨ t.cistern.slotB.keyIndex = numAt w.data 2 1 ∨
          (t.cistern.staged.any fun x => x.keyIndex = numAt w.data 2 1) then (t.nonceSpent, some (.refuse .refusedState))
      else ({ t.nonceSpent with cistern := { t.cistern with revoked := setBit t.cistern.revoked (numAt w.data 2 1) true } }, some Outcome.ok)
    | _ =>
      if !t.nonceSpent.residents.isEmpty then (t.nonceSpent, some (.refuse .refusedState)) else (t.nonceSpent.clearSummary, some Outcome.ok) := by
  unfold State.tokenAsk
  rw [if_neg (show ¬ ((!w.pkt.reservedClear []) = true ∨ w.data.length ≠ 7680) by simp [hclear, hlen])]
  dsimp only
  rw [hok, if_neg (show ¬ (!true) = true by decide), if_pos (State.nonce_of_tokenOk hok)]
  rfl

variable (hone : numAt w.data 0 1 = 1) (hlock : t.cistern.ownerLock = false) (hfree : ∀ c, c < 8 → t.lockedCtx c = false)

include hone hlock hfree in
theorem State.tokenAsk_unlock_gone (hres : t.residents = []) :
    t.tokenAsk w = (t.nonceSpent.debugUnlock, some Outcome.ok) := by
  have hlocked : (List.range 8).any t.nonceSpent.lockedCtx = false := by
    rw [List.any_eq_false]
    exact fun c hc => Bool.eq_false_iff.1 (hfree c (List.mem_range.1 hc))
  have hr : t.nonceSpent.residents = [] := hres
  rw [State.tokenAsk_good hclear hlen hok, hone]
  rw [hlock, hlocked, hr]
  rfl

include hone hlock hfree in
theorem State.tokenAsk_unlock_waits (hres : t.residents ≠ []) :
    t.tokenAsk w = (({ t.nonceSpent with hg := { t.nonceSpent.hg with unlock := some w } } : State).destroyAll t.residents, none) := by
  have hlocked : (List.range 8).any t.nonceSpent.lockedCtx = false := by
    rw [List.any_eq_false]
    exact fun c hc => Bool.eq_false_iff.1 (hfree c (List.mem_range.1 hc))
  have hr : t.nonceSpent.residents = t.residents := rfl
  rw [State.tokenAsk_good hclear hlen hok, hone]
  have hne : ¬ t.residents.isEmpty = true := by simpa using hres
  rw [hlock, hlocked, hr]
  exact (if_neg (by decide)).trans (if_neg hne)

/-- A revocation (R357). -/
theorem State.tokenAsk_revoke {k : Nat} (htwo : numAt w.data 0 1 = 2) (hk : numAt w.data 2 1 = k) (ha : t.cistern.slotA.keyIndex ≠ k)
    (hb : t.cistern.slotB.keyIndex ≠ k) (hs : (t.cistern.staged.any fun x => x.keyIndex = k) = false) :
    t.tokenAsk w = ({ t.nonceSpent with cistern := { t.cistern with revoked := setBit t.cistern.revoked k true } }, some Outcome.ok) := by
  rw [State.tokenAsk_good hclear hlen hok, htwo]
  rw [hk]
  exact if_neg (by simp [ha, hb, hs])

/-- A service token. -/
theorem State.tokenAsk_service (hthree : numAt w.data 0 1 = 3) (hres : t.residents = []) :
    t.tokenAsk w = (t.nonceSpent.clearSummary, some Outcome.ok) := by
  have hr : t.nonceSpent.residents = [] := hres
  rw [State.tokenAsk_good hclear hlen hok, hthree, hr]
  rfl

end
end

theorem State.debugUnlock_reg (s : State) : s.debugUnlock.reg .secSt = setFld (setFld (s.reg .secSt) 6 1 1) 7 1 1 :=
  ((s.putFld .secSt 6 1 1).reg_putReg_self .secSt _).trans (congrArg (setFld · 7 1 1) (s.reg_putReg_self .secSt _))

/-- A debug unlock sets the bits it is seen by. -/
theorem State.debugUnlock_shows (s : State) : s.debugUnlock.unlocked = true ∧ s.debugUnlock.testEn = true := by
  rw [State.unlocked, State.testEn, s.debugUnlock_reg, bit_setFld_ne _ 7 1 1 6 (.inl (by decide))]
  exact ⟨bit_setFld_one _ (by decide), bit_setFld_one _ (by decide)⟩

/-- The units that are under test, their histories and marks gone. -/
theorem State.clearSummary_units (s : State) : ∀ x ∈ s.clearSummary.cistern.units, x.retired = false ∧ x.events = [] := by
  intro x hx
  obtain ⟨u, -, rfl⟩ := List.mem_map.1 hx
  exact ⟨rfl, rfl⟩

/-! ### Contexts destroyed keep the headgate and the site's lock -/

/-- From `s` to `t` the headgate and the register that shows the unlock stay. -/
def State.GateKept (s t : State) : Prop := t.hg = s.hg ∧ t.reg .secSt = s.reg .secSt

theorem State.GateKept.trans {s t u : State} (h : s.GateKept t) (k : t.GateKept u) : s.GateKept u :=
  ⟨k.1.trans h.1, k.2.trans h.2⟩

theorem State.askScrub_gateKept {s : State} (hf : s.flights = []) (c : Nat) (what : ScrubFor) : s.GateKept (s.askScrub c what) := by
  unfold State.askScrub
  have hbegin (t : State) (ht : t.flights = []) : t.GateKept t.beginScrub := by
    unfold State.beginScrub
    split
    · exact ⟨rfl, rfl⟩
    · next x rest hs =>
      split
      · exact ⟨rfl, rfl⟩
      · next h =>
        have hmay : x.began = none ∧ t.power.divTo = none ∧ (t.site = stFlow ∨ t.site = stDetaching) := by
          simp only [not_or, Bool.not_eq_true, Option.isSome_eq_false_iff, Option.isNone_iff_eq_none,
            Bool.not_eq_false', decide_eq_true_eq] at h
          exact h
        dsimp only
        rw [State.killArrivals_quiet ht]
        have hfills := t.startFills_onlyBegun t.liveBasins (t.ctxLevees x.ctx) (t.cfg.rows + 1)
        have hdrop := State.dropLevees_onlyBegun (t.startFills t.liveBasins (t.ctxLevees x.ctx) (t.cfg.rows + 1)) (t.ctxLevees x.ctx)
        have hlog := State.logEvent_onlyBegun
          (((t.startFills t.liveBasins (t.ctxLevees x.ctx) (t.cfg.rows + 1)).dropLevees (t.ctxLevees x.ctx)).setSite stScrub)
        constructor
        · exact (congrArg State.hg hlog :).trans ((congrArg State.hg hdrop :).trans (congrArg State.hg hfills :))
        · refine Eq.trans (State.reg_logEvent _ (by simp)) ((State.reg_putReg_ne _ (by simp) _).trans ?_)
          exact (State.reg_dropLevees_ne _ (by simp)).trans (State.reg_startFills _ _ _ _ (by simp))
  exact State.GateKept.trans ⟨rfl, rfl⟩ (hbegin _ hf)

theorem State.destroyContext_gateKept {s : State} (hf : s.flights = []) (c : Nat) : s.GateKept (s.destroyContext c none false) := by
  obtain ⟨v, what, heq, hstand, hfl, -⟩ := State.destroyContext_quiet hf c
  rw [heq]
  exact State.GateKept.trans ⟨congrArg Standing.hg hstand, State.reg_of_standing hstand rfl⟩ (v.askScrub_gateKept hfl c what)

theorem State.AllDestroyed.gateKept {s t : State} {cs : List Nat} (h : s.AllDestroyed t cs) (ds : List Nat) :
    t.GateKept (t.destroyAll ds) := by
  unfold State.destroyAll
  induction ds generalizing t cs with
  | nil => exact ⟨rfl, rfl⟩
  | cons d ds ih => exact (State.destroyContext_gateKept h.flights d).trans (ih (h.next d))

/-- All contexts destroyed at once, none at work. -/
theorem State.MayScrub.destroyAll {s : State} (hm : s.MayScrub) (hf : s.flights = []) {cs : List Nat} (hne : cs ≠ []) :
    s.GateKept (s.destroyAll cs) ∧ (s.destroyAll cs).site = stScrub ∧ (s.destroyAll cs).scrubs.map (·.ctx) = cs ∧
      ∀ c ∈ cs, (s.destroyAll cs).ringState c = 4 := by
  obtain ⟨hscrubs, -⟩ := id hm
  have hbegin : s.AllDestroyed s [] := ⟨rfl, hf, fun _ => hm, by simp, by simp [hscrubs], by simp, fun h hin _ => hin⟩
  have hall := hbegin.foldl cs
  rw [List.nil_append] at hall
  exact ⟨hbegin.gateKept cs, (hall.under hne).1, hall.scrubs, hall.rings⟩

/-! ### The scrub's end that lets the unlock go on (R372) -/

theorem State.reg_clearRing_pwrSt (s : State) (c : Nat) : (s.clearRing c).reg .pwrSt = s.reg .pwrSt :=
  kget_filter (p := fun q : Reg => match q with
    | .ringCmd k | .ringRpl k | .ringDb k | .ringHead k | .ringRtail k | .ringRhead k | .ringSt k => k ≠ c
    | _ => true) s.regs _ rfl

/-- A context gone. -/
theorem State.removeContext_rest (s : State) (c : Nat) : (s.removeContext c).hg = s.hg ∧ (s.removeContext c).scrubs = s.scrubs ∧
    (s.removeContext c).culverts = s.culverts ∧ (s.removeContext c).power = s.power ∧ (s.removeContext c).flights = s.flights ∧
    (s.removeContext c).site = s.site ∧ (s.removeContext c).ctx c = .absent ∧
    ∀ c', c' ≠ c → (s.removeContext c).ctx c' = s.ctx c' := by
  have hsite : (s.removeContext c).reg .pwrSt = s.reg .pwrSt := by
    unfold State.removeContext State.showSessions
    refine (State.reg_putFld_ne _ (by simp) _ _ _).trans ?_
    show ((s.clearRing c).putReg (.secCtxSt c) (Reg.resetValue s.cfg (.secCtxSt c))).reg .pwrSt = _
    exact (State.reg_putReg_ne _ (by simp) _).trans (s.reg_clearRing_pwrSt c)
  exact ⟨rfl, rfl, rfl, rfl, rfl, congrArg (fld · 0 4) hsite, kget_kset_self s.ctxs CtxRec.absent c CtxRec.absent,
    fun c' hc => kget_kset_ne s.ctxs CtxRec.absent CtxRec.absent hc CtxRec.absent⟩

/-- The unlock goes on and is answered. -/
def State.unlockAnswered (s : State) (w : HgFrame) : State :=
  (({ s with hg := { s.hg with unlock := none } }).debugUnlock).hgReply w Outcome.ok

theorem State.unlockAnswered_shows (s : State) (w : HgFrame) : (s.unlockAnswered w).unlocked = true ∧ (s.unlockAnswered w).testEn = true ∧
    (s.unlockAnswered w).hg.unlock = none ∧ (s.unlockAnswered w).site = s.site ∧ (s.unlockAnswered w).ctxs = s.ctxs ∧
    s.HgAnswered (s.unlockAnswered w) w.hdr w.pkt .ok 0 0 0 0 := by
  have hshow (t : State) (h : t.hg.queue = s.hg.queue) : (t.debugUnlock.hgReply w Outcome.ok).unlocked = true ∧
      (t.debugUnlock.hgReply w Outcome.ok).testEn = true ∧ (t.debugUnlock.hgReply w Outcome.ok).hg.unlock = t.hg.unlock ∧
      (t.debugUnlock.hgReply w Outcome.ok).site = t.site ∧ (t.debugUnlock.hgReply w Outcome.ok).ctxs = t.ctxs ∧
      s.HgAnswered (t.debugUnlock.hgReply w Outcome.ok) w.hdr w.pkt .ok 0 0 0 0 := by
    obtain ⟨hun, hten⟩ := t.debugUnlock_shows
    have hsite : t.debugUnlock.reg .pwrSt = t.reg .pwrSt :=
      ((t.putFld .secSt 6 1 1).reg_putReg_ne (by simp) _).trans (t.reg_putReg_ne (by simp) _)
    exact ⟨hun, hten, rfl, congrArg (fld · 0 4) hsite, rfl, State.hgReply_answers h w Outcome.ok_says⟩
  exact hshow _ rfl

/-- The end of the one scrub there is, and of the unlock that waits for it. -/
theorem State.settled_after_unlock {s : State} {w : HgFrame} (hscrubs : s.scrubs = []) (hunlock : s.hg.unlock = some w)
    (hculverts : ∀ c, c < 4 → (s.culvert c).exchanges = []) (hdiv : s.power.divWait = none) (hflights : s.flights = []) :
    (s.beginScrub.unlockOn.resume).runReady = s.unlockAnswered w := by
  have hbegin : s.beginScrub = s := by simp only [State.beginScrub, hscrubs]
  have hun : s.unlockOn = s.unlockAnswered w := by
    unfold State.unlockOn
    split
    · next w' h =>
      obtain rfl : w = w' := Option.some.inj (hunlock.symm.trans h)
      exact if_neg (by simp [State.scrubbing, hscrubs])
    · next h => exact absurd (hunlock.symm.trans h) (by simp)
  have hidle (t : State) (h : t.scrubs = []) (hn : t.hg.unlock = none) : t.beginScrub.unlockOn = t := by
    simp only [State.beginScrub, h, State.unlockOn, hn]
  obtain ⟨-, -, hnone, -⟩ := s.unlockAnswered_shows w
  have hsc : (s.unlockAnswered w).scrubs = [] := hscrubs
  have hset := State.settled_after_scrub hsc hnone hculverts hdiv hflights
  rw [hidle _ hsc hnone] at hset
  rw [hbegin, hun, hset]

/-- The last context's scrub ends, and lets the unlock go on. -/
theorem State.ScrubEnds.unlocks {s : State} {x : ScrubRun} {c0 was : Nat} {w : HgFrame} (h : s.ScrubEnds x c0 was (some w))
    (hwhat : ∃ lists packets locks alerts, x.what = .destroy none lists packets locks alerts)
    (hothers : ∀ c, c < 8 → c ≠ x.ctx → s.resident c = false) :
    s.HgAnswered s.scrubOn w.hdr w.pkt .ok 0 0 0 0 ∧ s.scrubOn.unlocked = true ∧ s.scrubOn.testEn = true ∧
      s.scrubOn.hg.unlock = none ∧ s.scrubOn.site = was ∧ ∀ c, c < 8 → s.scrubOn.resident c = false := by
  have hwas : was < 16 := by
    obtain ⟨-, -, hw, -⟩ := h
    rcases hw with rfl | rfl <;> decide
  have hon := h.scrubOn
  obtain ⟨hscrubs, -, -, -, -, hunlock, hdiv, hflights, hculverts⟩ := h
  obtain ⟨lists, packets, locks, alerts, hwhat⟩ := hwhat
  have hlog := State.logEvent_rest (s.setSite was)
  have hafter (t : State) : t.afterScrub x = t.removeContext x.ctx := by
    simp [State.afterScrub, hwhat, State.answerDestroy]
  unfold State.endScrub at hon
  dsimp only at hon
  rw [hscrubs, hafter] at hon
  generalize hS : ({ (s.setSite was).logEvent with scrubs := [x].drop 1 } : State) = S at hon
  obtain ⟨hhg, hsc, hcul, hpow, hfl, hsite, hgone, hkept⟩ := S.removeContext_rest x.ctx
  generalize S.removeContext x.ctx = T at hon hhg hsc hcul hpow hfl hsite hgone hkept
  have hhg' : T.hg = s.hg := hhg.trans (hS ▸ (congrArg State.hg hlog :))
  have hsite' : S.site = was := by
    rw [← hS, State.site_withScrubs, State.site_logEvent, State.site_setSite, Nat.mod_eq_of_lt hwas]
  rw [State.settled_after_unlock (w := w) (hsc.trans (hS ▸ rfl)) (hhg' ▸ hunlock)
    (fun c hc => Eq.trans (congrArg (fun m => (kget m Culvert.idle c).exchanges) (hcul.trans (hS ▸ (congrArg State.culverts hlog :))))
      (hculverts c hc))
    (Eq.trans (congrArg (·.divWait) (hpow.trans (hS ▸ (congrArg State.power hlog :)))) hdiv)
    ((hfl.trans (hS ▸ (congrArg State.flights hlog :))).trans hflights)] at hon
  obtain ⟨hun, hten, hnone, hat, hctxs, hans⟩ := T.unlockAnswered_shows w
  rw [hon]
  refine ⟨?_, hun, hten, hnone, hat.trans (hsite.trans hsite'), fun c hc => ?_⟩
  · obtain ⟨rp, hq, hrest⟩ := hans
    exact ⟨rp, hq.trans (by rw [hhg']), hrest⟩
  · refine Eq.trans (congrArg (fun m => (kget m CtxRec.absent c).resident) hctxs) (show (T.ctx c).resident = false from ?_)
    by_cases hcx : c = x.ctx
    · rw [hcx, hgone]
      rfl
    · rw [hkept c hcx, ← hS]
      exact Eq.trans (congrArg (fun u : State => (kget u.ctxs CtxRec.absent c).resident) hlog :) (hothers c hc hcx)

/-! ### Re-tests (R346) -/

/-- A re-test in `FALLOW` answers and starts the site again. -/
theorem State.retestAsk_starts {t : State} {w : HgFrame} (hbare : w.bare = true) (hf : t.site = stFallow) :
    t.retestAsk w = ({ (t.hgReply w Outcome.ok).retestNow with
      hg := { (t.hgReply w Outcome.ok).retestNow.hg with queue := (t.hgReply w Outcome.ok).hg.queue } }, none) := by
  simp [State.retestAsk, hbare, hf]

theorem State.retestAsk_elsewhere {t : State} {w : HgFrame} (hbare : w.bare = true) (hf : t.site ≠ stFallow) :
    t.retestAsk w = (t, some (.refuse .refusedState)) := by
  simp [State.retestAsk, hbare, hf]

/-- Settles O43: a good token uses up its nonce and goes by its kind; the last scrub's end lets the unlock go on. -/
theorem tokensAndRetests : Obligations.TokensAndRetests := by
  intro s t h p d v
  refine ⟨fun hs hclear => ?_, fun hs hclear hlen => ⟨fun hok hone hlock hfree => ⟨fun hres => ?_, fun hres hf hmay => ?_⟩,
    fun k hok htwo hk ha hb hst => ?_, fun hok hthree hres => ?_, fun hbad => ?_⟩, fun x c0 was w hends _ hwhat hothers => ?_,
    fun hs hclear => ⟨fun hf => ?_, fun hf => ?_⟩⟩
  · have hask : t.nonceAsk ⟨h, { p with opcode := 0xC8 }, [], true, 0⟩ = _ := if_neg (by rw [HgFrame.bare_of hclear rfl]; decide)
    obtain ⟨hans, honly, hnonce⟩ := hs.answered ⟨rfl, rfl, rfl⟩ hask rfl (Outcome.words_says _ _ _ _)
    exact ⟨_, _, rfl, hnonce, honly.regs, State.SameStores.trans ⟨rfl, rfl, rfl, rfl, rfl⟩ honly.same, hans⟩
  · have hask := State.tokenAsk_unlock_gone (w := ⟨h, { p with opcode := 0xC9 }, d, v, 0⟩) hclear hlen hok hone hlock hfree hres
    obtain ⟨hans, honly, hnonce⟩ := hs.answered ⟨rfl, rfl, rfl⟩ hask rfl Outcome.ok_says
    obtain ⟨hun, hten⟩ := t.nonceSpent.debugUnlock_shows
    exact ⟨_, rfl, hans, (congrArg (bit · 6) (honly.reg .secSt)).trans hun, (congrArg (bit · 7) (honly.reg .secSt)).trans hten,
      hnonce, State.SameStores.trans ⟨rfl, rfl, rfl, rfl, rfl⟩ honly.same⟩
  · have hask := State.tokenAsk_unlock_waits (w := ⟨h, { p with opcode := 0xC9 }, d, v, 0⟩) hclear hlen hok hone hlock hfree hres
    obtain ⟨⟨hhg, hsec⟩, hsite, hscrubs, hrings⟩ := State.MayScrub.destroyAll (s := { t.nonceSpent with hg :=
      { t.nonceSpent.hg with unlock := some ⟨h, { p with opcode := 0xC9 }, d, v, 0⟩ } }) hmay hf hres
    exact ⟨_, congrArg Host.Outcome.next (hs.goesOn ⟨rfl, rfl, rfl⟩ hask), (congrArg Headgate.queue hhg :), (congrArg Headgate.nonce hhg :),
      congrArg (bit · 6) hsec, hsite, hscrubs, (congrArg Headgate.unlock hhg :), hrings⟩
  · have hask := State.tokenAsk_revoke (w := ⟨h, { p with opcode := 0xC9 }, d, v, 0⟩) hclear hlen hok htwo hk.symm ha hb hst
    obtain ⟨hans, honly, hnonce⟩ := hs.answered ⟨rfl, rfl, rfl⟩ hask rfl Outcome.ok_says
    exact ⟨_, rfl, hans, honly.cistern, hnonce, honly.regs, State.SameStores.trans ⟨rfl, rfl, rfl, rfl, rfl⟩ honly.same⟩
  · have hask := State.tokenAsk_service (w := ⟨h, { p with opcode := 0xC9 }, d, v, 0⟩) hclear hlen hok hthree hres
    obtain ⟨hans, honly, hnonce⟩ := hs.answered ⟨rfl, rfl, rfl⟩ hask rfl Outcome.ok_says
    refine ⟨_, rfl, hans, ?_, (congrArg Cistern.records honly.cistern :), hnonce, honly.regs,
      State.SameStores.trans ⟨rfl, rfl, rfl, rfl, rfl⟩ honly.same⟩
    rw [honly.cistern]
    exact t.nonceSpent.clearSummary_units
  · obtain ⟨n, hask⟩ := State.tokenAsk_bad (w := ⟨h, { p with opcode := 0xC9 }, d, v, 0⟩) hclear hlen hbad
    obtain ⟨hans, honly, -⟩ := hs.answered ⟨rfl, rfl, rfl⟩ hask rfl (Outcome.refuse_says _)
    exact ⟨_, rfl, hans, honly.cistern, honly.regs, State.SameStores.trans ⟨rfl, rfl, rfl, rfl, rfl⟩ honly.same⟩
  · exact hends.unlocks hwhat hothers
  · have hask := State.retestAsk_starts (w := ⟨h, { p with opcode := 0xCA }, [], true, 0⟩) (HgFrame.bare_of hclear rfl) hf
    obtain ⟨hstep, hrel⟩ := State.retestNow_starts (t.hgReply ⟨h, { p with opcode := 0xCA }, [], true, 0⟩ Outcome.ok)
    exact ⟨_, congrArg Host.Outcome.next (hs.goesOn ⟨rfl, rfl, rfl⟩ hask), hstep, hrel,
      State.hgReply_answers (v := t) rfl ⟨h, { p with opcode := 0xCA }, [], true, 0⟩ Outcome.ok_says⟩
  · have hask := State.retestAsk_elsewhere (w := ⟨h, { p with opcode := 0xCA }, [], true, 0⟩) (HgFrame.bare_of hclear rfl) hf
    obtain ⟨hans, honly, -⟩ := hs.answered ⟨rfl, rfl, rfl⟩ hask rfl (Outcome.refuse_says _)
    exact ⟨_, rfl, honly.regs, honly.start, honly.same, hans⟩

end Sys2Proof.Machine
end

section
set_option Elab.async false -- the whole text is compiled in one process, within a fixed memory
/-! SUPPORT. Activation and live handover, the copy, and partial resets (R385, R401–R405). -/
namespace Sys2Proof.Machine

/-! ### Activation (R401) -/

section
variable {t : State} {w : HgFrame} {x : ImageInfo} (hclear : w.pkt.reservedClear [(16, 0, 8)] = true) (hd : w.data = [])
  (hstage : t.stage = 2) (hmay : t.updateRefusal true = none) (hx : t.cistern.staged = some x) (hsvn : t.cistern.arCounter ≤ x.svn)
include hclear hd hstage hmay hx hsvn

/-- MODE 1 marks the image for the next start. -/
theorem State.imgActivateAsk_next (hmode : w.pkt.p 16 0 8 = 1) :
    t.imgActivateAsk w = ((t.markCopy true).setStage 4, some Outcome.ok) := by
  unfold State.imgActivateAsk
  dsimp only
  rw [hmode, if_neg (by simp [hclear, hd]), if_neg (by simp [hstage]), hmay, hx]
  dsimp only
  rw [if_neg (by simp), if_neg (by omega), if_pos rfl]

/-- MODE 0 loads the standby half and waits for Rosog's point. -/
theorem State.imgActivateAsk_live (hmode : w.pkt.p 16 0 8 = 0) (hv : w.verdict = true) (hlive : x.live = true)
    (hmin : x.stateMin ≤ t.running.stateVer) :
    t.imgActivateAsk w = ((({ t with handover := some ⟨2, w, 0⟩ } : State).loadStandby x).handoverOn, none) := by
  unfold State.imgActivateAsk
  dsimp only
  rw [hmode, if_neg (by simp [hclear, hd]), if_neg (by simp [hstage]), hmay, hx]
  dsimp only
  rw [if_neg (by simp [hlive]; omega), if_neg (by omega), if_neg (by decide), hv, if_neg (by decide)]

end

/-- The slot marked for the next start. -/
theorem State.markedNext_shows (t : State) : ((t.markCopy true).setStage 4).cistern.copyPending = true ∧
    ((t.markCopy true).setStage 4).activeB = t.activeB ∧
    ((t.markCopy true).setStage 4).cistern = { t.cistern with boot := ((t.markCopy true).setStage 4).cistern.boot } ∧
    ((t.markCopy true).setStage 4).stage = 4 ∧ ((t.markCopy true).setStage 4).running = t.running ∧
    ((t.markCopy true).setStage 4).hg = t.hg ∧ t.SameStores ((t.markCopy true).setStage 4) := by
  obtain ⟨hpending, hactive, hcis, hrest⟩ := t.markCopy_shows true
  generalize t.markCopy true = u at *
  exact ⟨hpending, hactive, hcis, u.rfld_putFld_self .cstFwSt 28 4 4 (by decide), (congrArg State.running hrest :),
    (congrArg State.hg hrest :), (congrArg State.mem hrest :), (congrArg State.memChk hrest :), (congrArg State.desc hrest :),
    (congrArg State.gauge hrest :), (congrArg State.stack hrest :)⟩

/-! ### The handover's steps (R403) -/

/-- From `t` to `v` the core alone has changed. -/
def State.OnlyCore (t v : State) : Prop := { v with core := t.core } = t

/-- The standby half holds the new image. -/
theorem State.loadStandby_shows (t : State) (x : ImageInfo) : t.OnlyCore (t.loadStandby x) ∧
    (if bit (t.reg .ctlRemap) 1 then (t.loadStandby x).core.iramA else (t.loadStandby x).core.iramB) = loadHalf x.body := by
  unfold State.loadStandby
  split <;> exact ⟨rfl, rfl⟩

theorem State.saved_reg (t : State) (q : Reg) : t.persist.saveBlock.reg q = t.reg q := rfl

/-- A state block just written verifies. -/
theorem State.saved_blockVer (t : State) : t.persist.saveBlock.core.blockVer = some t.running.stateVer := by
  have hall : (t.core.dataRam.filter (·.1 < blockBase)).all (·.1 < blockBase) = true :=
    List.all_eq_true.2 fun x hx => (List.mem_filter.1 hx).2
  exact if_pos hall

/-- The halves exchanged. -/
theorem State.swapHalves_shows (v : State) : v.swapHalves.stage = v.stage ∧ v.swapHalves.core.pc = 0 ∧
    v.swapHalves.core.blockVer = v.core.blockVer ∧ v.swapHalves.rfld .ctlRemap 1 1 = 1 - v.rfld .ctlRemap 1 1 ∧
    v.swapHalves.rfld .ctlRemap 0 1 = v.rfld .ctlRemap 0 1 ∧ v.swapHalves.core.fetchMap = v.swapHalves.reg .ctlRemap := by
  refine ⟨?_, rfl, rfl, ?_, ?_, rfl⟩
  · exact congrArg (fld · 28 4) (v.reg_putFld_ne (r := .ctlRemap) (r' := .cstFwSt) (by simp) 1 1 (1 - v.rfld .ctlRemap 1 1))
  · refine (v.rfld_putFld_self .ctlRemap 1 1 (1 - v.rfld .ctlRemap 1 1) (by decide)).trans (Nat.mod_eq_of_lt ?_)
    omega
  · exact v.rfld_putFld_ne .ctlRemap .ctlRemap 1 1 0 1 (1 - v.rfld .ctlRemap 1 1) (.inr (.inl (by decide)))

/-- The open window: the state block is saved, the halves have changed places, and the core starts at 0. -/
theorem State.openWindow_shows (t : State) (h : Handover) : (t.openWindow h).running = t.running ∧ (t.openWindow h).stage = t.stage ∧
    (t.openWindow h).hg = t.hg ∧ t.SameStores (t.openWindow h) ∧ (t.openWindow h).core.iramA = t.core.iramA ∧
    (t.openWindow h).core.iramB = t.core.iramB ∧ (t.openWindow h).handover = some { h with step := 4, opened := t.now } ∧
    (t.openWindow h).core.pc = 0 ∧ (t.openWindow h).core.blockVer = some t.running.stateVer ∧
    (t.openWindow h).rfld .ctlRemap 1 1 = 1 - t.rfld .ctlRemap 1 1 ∧ (t.openWindow h).rfld .ctlRemap 0 1 = t.rfld .ctlRemap 0 1 ∧
    (t.openWindow h).core.fetchMap = (t.openWindow h).reg .ctlRemap := by
  have hblock := t.saved_blockVer
  have hreg := t.saved_reg .ctlRemap
  have hst : t.persist.saveBlock.stage = t.stage := congrArg (fld · 28 4) (t.saved_reg .cstFwSt)
  have hrest : t.persist.saveBlock.running = t.running ∧ t.persist.saveBlock.hg = t.hg ∧ t.SameStores t.persist.saveBlock ∧
    t.persist.saveBlock.core.iramA = t.core.iramA ∧ t.persist.saveBlock.core.iramB = t.core.iramB :=
    ⟨rfl, rfl, ⟨rfl, rfl, rfl, rfl, rfl⟩, rfl, rfl⟩
  unfold State.openWindow
  generalize t.persist.saveBlock = v at *
  obtain ⟨hrun, hhg, ⟨h1, h2, h3, h4, h5⟩, hA, hB⟩ := hrest
  obtain ⟨hst', hpc, hbl, hsel, hrom, hmap⟩ := v.swapHalves_shows
  exact ⟨hrun, hst'.trans hst, hhg, ⟨h1, h2, h3, h4, h5⟩, hA, hB, rfl, hpc, hbl.trans hblock,
    hsel.trans (congrArg (fun r => 1 - fld r 1 1) hreg), hrom.trans (congrArg (fld · 0 1) hreg), hmap⟩

/-- At Rosog's point the window opens; before it, it waits. -/
theorem State.handoverOn_second {t : State} {w : HgFrame} {x : ImageInfo} {n : Nat} (hh : t.handover = some ⟨2, w, n⟩)
    (hx : t.cistern.staged = some x) : t.handoverOn = if t.atHandoverPoint then t.openWindow ⟨2, w, n⟩ else t := by
  unfold State.handoverOn
  rw [hh, hx]
  rfl

/-- A live activation taken: the standby half holds the image, and the window is open where nothing of Rosog's is in execution. -/
theorem State.handoverBegins {t : State} {w : HgFrame} {x : ImageInfo} (hx : t.cistern.staged = some x) {u : State}
    (hu : u = (({ t with handover := some ⟨2, w, 0⟩ } : State).loadStandby x).handoverOn) :
    u.running = t.running ∧ u.stage = t.stage ∧ u.hg.queue = t.hg.queue ∧ t.SameStores u ∧
      (if bit (t.reg .ctlRemap) 1 then u.core.iramA else u.core.iramB) = loadHalf x.body ∧
      (t.atHandoverPoint = true → u.handover = some ⟨4, w, t.now⟩ ∧ u.core.pc = 0 ∧
        u.core.blockVer = some t.running.stateVer ∧ u.rfld .ctlRemap 1 1 = 1 - t.rfld .ctlRemap 1 1 ∧
        u.rfld .ctlRemap 0 1 = t.rfld .ctlRemap 0 1 ∧ u.core.fetchMap = u.reg .ctlRemap) ∧
      (t.atHandoverPoint = false → u.handover = some ⟨2, w, 0⟩ ∧ u.reg .ctlRemap = t.reg .ctlRemap) := by
  obtain ⟨honly, hhalf⟩ := State.loadStandby_shows { t with handover := some ⟨2, w, 0⟩ } x
  generalize ({ t with handover := some ⟨2, w, 0⟩ } : State).loadStandby x = v at hu honly hhalf
  have hreg (q : Reg) : v.reg q = t.reg q := (congrArg (fun y : State => y.reg q) honly :)
  have hst : v.stage = t.stage := congrArg (fld · 28 4) (hreg .cstFwSt)
  have hpoint : v.atHandoverPoint = t.atHandoverPoint := (congrArg State.atHandoverPoint honly :)
  have hrun : v.running = t.running := (congrArg State.running honly :)
  have hhg : v.hg = t.hg := (congrArg State.hg honly :)
  have hnow : v.now = t.now := (congrArg State.now honly :)
  have hsame : t.SameStores v := ⟨(congrArg State.mem honly :), (congrArg State.memChk honly :), (congrArg State.desc honly :),
    (congrArg State.gauge honly :), (congrArg State.stack honly :)⟩
  have hhand : v.handover = some ⟨2, w, 0⟩ := (congrArg State.handover honly :)
  rw [State.handoverOn_second hhand (((congrArg (fun y : State => y.cistern.staged) honly :)).trans hx), hpoint] at hu
  by_cases hat : t.atHandoverPoint = true
  · rw [if_pos hat] at hu
    obtain ⟨h1, h2, h3, h4, h5, h6, h7, h8, h9, h10, h11, h12⟩ := v.openWindow_shows ⟨2, w, 0⟩
    rw [hu]
    refine ⟨h1.trans hrun, h2.trans hst, by rw [h3, hhg], hsame.trans h4, by rw [h5, h6]; exact hhalf, fun _ => ?_, fun hn => by simp [hat] at hn⟩
    exact ⟨h7.trans (by rw [hnow]), h8, h9.trans (by rw [hrun]), h10.trans (congrArg (fun r => 1 - fld r 1 1) (hreg .ctlRemap)),
      h11.trans (congrArg (fld · 0 1) (hreg .ctlRemap)), h12⟩
  · rw [if_neg hat] at hu
    rw [hu]
    exact ⟨hrun, hst, congrArg Headgate.queue hhg, hsame, hhalf, fun h => absurd h hat, fun _ => ⟨hhand, hreg .ctlRemap⟩⟩

/-! ### The window closes (R403) -/

/-- From `s` to `t` registers alone have changed. -/
def State.OnlyRegs (s t : State) : Prop := { t with regs := s.regs, fresh := s.fresh } = s

theorem State.OnlyRegs.trans {s t u : State} (h : s.OnlyRegs t) (k : t.OnlyRegs u) : s.OnlyRegs u :=
  Eq.trans (congrArg (fun v : State => { v with regs := s.regs, fresh := s.fresh }) k) h

theorem State.OnlyRegs.same {s t : State} (h : s.OnlyRegs t) : s.SameStores t :=
  ⟨(congrArg State.mem h :), (congrArg State.memChk h :), (congrArg State.desc h :), (congrArg State.gauge h :),
    (congrArg State.stack h :)⟩

theorem State.putFld_onlyRegs (s : State) (r : Reg) (lo n v : Nat) : s.OnlyRegs (s.putFld r lo n v) := rfl

theorem State.bump_onlyRegs (s : State) (r : Reg) (lo n k : Nat) : s.OnlyRegs (s.bump r lo n k) := by
  unfold State.bump
  split <;> rfl

/-- What the running image shows. -/
theorem State.showImage_shows (s : State) : s.showImage.rfld .secSt 40 8 = s.running.svn % 256 ∧
    (∀ q : Reg, q ≠ .secSt → s.showImage.reg q = s.reg q) ∧ s.OnlyRegs s.showImage := by
  refine ⟨State.rfld_putFld_self _ .secSt 40 8 _ (by decide), fun q hq => ?_, rfl⟩
  rw [State.showImage, State.showOwner, State.reg_putFld_ne _ hq, State.reg_putFld_ne _ hq, State.reg_putFld_ne _ hq]

/-- The new image runs. -/
def State.nowRuns (s : State) (x : ImageInfo) : State :=
  { s with
    running := x, handover := none, auditFrom := s.now
    spdm := { s.spdm with aliasGen := s.spdm.aliasGen + 1, measured2 := s.spdm.measured2 + 1 } }

theorem State.closeWindow_shows {s : State} {h : Handover} {x : ImageInfo} :
    s.HgAnswered (s.closeWindow h x) h.frame.hdr h.frame.pkt .ok h.frame.windowUs x.svn 0 0 ∧ (s.closeWindow h x).running = x ∧
      (s.closeWindow h x).handover = none ∧ (s.closeWindow h x).stage = 3 ∧ (s.closeWindow h x).auditFrom = s.now ∧
      (s.closeWindow h x).rfld .secSt 40 8 = x.svn % 256 ∧ (s.closeWindow h x).cistern = s.cistern ∧
      (s.closeWindow h x).reg .ctlRemap = s.reg .ctlRemap ∧ s.SameStores (s.closeWindow h x) := by
  have heq : s.closeWindow h x = (((((s.nowRuns x).bump .cstFwSt 32 16).setStage 3).showImage).hgReply h.frame
      (Outcome.words h.frame.windowUs x.svn 0 0)) := rfl
  have hb := (s.nowRuns x).bump_onlyRegs .cstFwSt 32 16 1
  have hremap : ((s.nowRuns x).bump .cstFwSt 32 16).reg .ctlRemap = s.reg .ctlRemap := State.reg_bump_ne (s.nowRuns x) (by simp) 32 16 1
  generalize (s.nowRuns x).bump .cstFwSt 32 16 = v at heq hb hremap
  have hst : (v.setStage 3).rfld .cstFwSt 28 4 = 3 := v.rfld_putFld_self .cstFwSt 28 4 3 (by decide)
  have hremap' : (v.setStage 3).reg .ctlRemap = s.reg .ctlRemap := (v.reg_putFld_ne (by simp) 28 4 3).trans hremap
  have hb' : (s.nowRuns x).OnlyRegs (v.setStage 3) := hb.trans (v.putFld_onlyRegs .cstFwSt 28 4 3)
  generalize v.setStage 3 = y at heq hst hremap' hb'
  obtain ⟨hsvn, hreg, hrest⟩ := y.showImage_shows
  have hshown : (s.nowRuns x).OnlyRegs y.showImage := hb'.trans hrest
  have hrun : y.running = x := (congrArg State.running hb' :)
  generalize y.showImage = z at heq hsvn hreg hrest hshown
  have hsay := z.hgReply_onlySaid h.frame (Outcome.words h.frame.windowUs x.svn 0 0)
  have hans := State.hgReply_answers (t := s) (v := z) (congrArg (fun a : State => a.hg.queue) hshown :) h.frame
    (Outcome.words_says h.frame.windowUs x.svn 0 0)
  rw [heq]
  refine ⟨hans, hsay.running.trans (congrArg State.running hshown :), ?_, ?_, ?_, ?_, hsay.cistern.trans ?_, ?_, ?_⟩
  · exact (congrArg State.handover hshown :)
  · exact hsay.stage.trans ((congrArg (fld · 28 4) (hreg .cstFwSt (by simp))).trans hst)
  · exact (congrArg State.auditFrom hshown :)
  · exact (congrArg (fld · 40 8) (hsay.reg .secSt)).trans (hsvn.trans (by rw [hrun]))
  · exact (congrArg State.cistern hshown :)
  · exact (hsay.reg _).trans ((hreg _ (by simp)).trans hremap')
  · exact State.SameStores.trans hshown.same hsay.same

/-- The window's time is over. -/
theorem State.handoverOn_closes {s : State} {w : HgFrame} {n sv : Nat} {x : ImageInfo} (hh : s.handover = some ⟨4, w, n⟩)
    (hx : s.cistern.staged = some x) (hup : s.controlDown = false) (hlong : w.windowUs ≤ 5000) (hover : n + w.windowUs * rootPerUs ≤ s.now)
    (hblock : s.core.blockVer = some sv) (hmin : x.stateMin ≤ sv) (hmax : sv ≤ x.stateVer) :
    s.handoverOn = s.closeWindow ⟨4, w, n⟩ x := by
  have hwin : s.windowOver ⟨4, w, n⟩ x = true := by
    simp [State.windowOver, State.blockAccepted, hblock, hlong, hover, hmin, hmax]
  unfold State.handoverOn
  rw [hh, hx]
  dsimp only
  rw [if_neg (by decide), if_pos ⟨by rw [hup]; rfl, hwin⟩]

theorem State.handoverOn_open {s : State} {w : HgFrame} {n : Nat} (hh : s.handover = some ⟨4, w, n⟩)
    (hopen : s.now < n + w.windowUs * rootPerUs) : s.handoverOn = s := by
  unfold State.handoverOn
  rw [hh]
  split
  · next h x h1 h2 =>
    obtain rfl : (⟨4, w, n⟩ : Handover) = h := Option.some.inj h1
    have hwin : s.windowOver ⟨4, w, n⟩ x = false := by
      simp only [State.windowOver, Bool.and_eq_false_iff, decide_eq_false_iff_not]
      exact .inl fun h => by omega
    rw [if_neg (show ¬ 4 = 2 by decide), if_neg fun h => by simp [hwin] at h]
  · rfl

/-- A point not reached in time ends the handover (R403). -/
theorem State.pointTimeout {s : State} {w : HgFrame} {n : Nat} (hh : s.handover = some ⟨2, w, n⟩) :
    exec .handoverPointTimeout s = .next (({ s with handover := none } : State).hgReply w (.refuse .busy)) := by
  have hexec : execHandoverPointTimeout s = .next (({ s with handover := none } : State).hgReply w (.refuse .busy)) := by
    unfold execHandoverPointTimeout
    rw [hh]
    rfl
  exact hexec

/-! ### The copy (R403, step 7; R405) -/

/-- The other slot holds the image, and the boot record names it. -/
def State.slotCopied (s : State) (x : ImageInfo) : State := (s.putSlot (!s.activeB) x).setActive (!s.activeB)

theorem State.slotCopied_shows (s : State) (x : ImageInfo) : (s.slotCopied x).activeB = !s.activeB ∧
    (s.slotCopied x).slotInfo (!s.activeB) = x ∧ (s.slotCopied x).slotInfo s.activeB = s.slotInfo s.activeB ∧
    s.SameStores (s.slotCopied x) := by
  have hrec (c : Cistern) (b : Bool) : (c.writeBoot b false).bootRec.slotB = b := by rw [Cistern.bootRec_writeBoot]
  refine ⟨hrec _ _, ?_, ?_, ⟨rfl, rfl, rfl, rfl, rfl⟩⟩ <;>
    · unfold State.slotCopied State.setActive State.putSlot
      cases s.activeB <;> rfl

/-- Emptying the slot keeps the boot record's slot and the images. -/
theorem State.emptyStaging_keeps (s : State) : s.emptyStaging.activeB = s.activeB ∧
    ∀ b, s.emptyStaging.slotInfo b = s.slotInfo b := by
  obtain ⟨-, hactive, hcis, -⟩ := s.markCopy_shows false
  have hslots (b : Bool) : (s.markCopy false).slotInfo b = s.slotInfo b := by
    unfold State.slotInfo
    rw [hcis]
  unfold State.emptyStaging
  dsimp only
  generalize s.markCopy false = t at *
  exact ⟨hactive, hslots⟩

theorem exec_bootSlotCopyDone {s : State} {x : ImageInfo} (hx : s.cistern.staged = some x) (v : Bool) :
    exec (.bootSlotCopyDone v) s =
      .next (if s.stage = 3 ∧ v ∧ s.start.released ∧ !s.controlDown then (s.slotCopied x).emptyStaging else s) := by
  have hexec : execBootSlotCopyDone v s =
      .next (if s.stage = 3 ∧ v ∧ s.start.released ∧ !s.controlDown then (s.slotCopied x).emptyStaging else s) := by
    unfold execBootSlotCopyDone
    rw [hx]
    dsimp only
    split <;> rfl
  exact hexec

/-! ### Partial resets (R385, R404) -/

/-- The control domain is down. -/
def State.wentDown (s : State) (imageOk : Bool) : State :=
  { s with controlDown := true, downSince := s.now, downOk := imageOk, hg := { s.hg with ending := none } }

/-- With no lock of Rosog's there is none to break. -/
theorem State.partialStart_eq {s : State} (hlocks : s.NoRosogLock) (imageOk : Bool) : s.partialStart imageOk =
    if (s.wentDown imageOk).stage = 1 then
      { (s.wentDown imageOk).setReceived s.cistern.receivedKept with
        cistern := { s.cistern with stagedBytes := s.cistern.stagedBytes.take (512 + s.cistern.receivedKept) } }
    else s.wentDown imageOk := by
  have hnone : s.locks.filter (fun l => fld l.caller.owner 13 3 = 3) = [] :=
    List.filter_eq_nil_iff.2 fun l hl => by simpa using hlocks l hl
  have hls : (s.wentDown imageOk).locks.filter (fun l => fld l.caller.owner 13 3 = 3) = [] := hnone
  have heq : s.partialStart imageOk =
      (fun v : State => if v.stage = 1 then { v.setReceived v.cistern.receivedKept with
        cistern := { v.cistern with stagedBytes := v.cistern.stagedBytes.take (512 + v.cistern.receivedKept) } } else v)
      (((s.wentDown imageOk).locks.filter (fun l => fld l.caller.owner 13 3 = 3)).foldl
        (fun (s : State) (l : Lock) => (s.breakLock l.basin l.desc).afterBreak l.basin l.desc) (s.wentDown imageOk)) := rfl
  rw [heq, hls]
  rfl

/-- Outside the receipt of an image, nothing else changes. -/
theorem State.partialStart_idle {s : State} (hlocks : s.NoRosogLock) (hstage : s.stage ≠ 1) (imageOk : Bool) :
    s.partialStart imageOk = s.wentDown imageOk := by
  rw [State.partialStart_eq hlocks]
  exact if_neg hstage

/-- What a partial reset leaves. -/
theorem State.partialStart_shows {s : State} (hlocks : s.NoRosogLock) (imageOk : Bool) :
    (s.partialStart imageOk).controlDown = true ∧ (s.partialStart imageOk).downOk = imageOk ∧
      (s.partialStart imageOk).hg.queue = s.hg.queue ∧ s.SameStores (s.partialStart imageOk) ∧
      (s.stage = 1 → (s.partialStart imageOk).received = s.cistern.receivedKept % 2 ^ 20) := by
  rw [State.partialStart_eq hlocks]
  by_cases hstage : (s.wentDown imageOk).stage = 1
  · rw [if_pos hstage]
    exact ⟨rfl, rfl, rfl, ⟨rfl, rfl, rfl, rfl, rfl⟩, fun _ => (s.wentDown imageOk).rfld_putFld_self .cstFwSt 0 20 _ (by decide)⟩
  · rw [if_neg hstage]
    exact ⟨rfl, rfl, rfl, ⟨rfl, rfl, rfl, rfl, rfl⟩, fun h => absurd h hstage⟩

/-- The locks stand in the state a frame is taken in. -/
theorem State.HgTakes.noRosogLock {s t : State} {typ : Byte} {h : HgHdr} {pl : List Byte} (ht : s.HgTakes typ h pl t)
    (hlocks : s.NoRosogLock) : t.NoRosogLock := by
  obtain ⟨-, -, -, -, -, rfl⟩ := ht
  have hb := s.bump_onlyRegs .cstHgSt 32 32 1
  have heq : (s.hgTake h).locks = s.locks := (congrArg State.locks hb :)
  intro l hl
  exact hlocks l (heq ▸ hl)

/-- A `PARTIAL_RESET` is answered before the control domain goes down. -/
theorem State.partialResetAsk_takes {t : State} {w : HgFrame} (hbare : w.bare = true) (hrel : t.start.released = true)
    (hsite : t.site ≠ stFallow) : t.partialResetAsk w = ((t.hgReply w Outcome.ok).partialStart w.verdict, none) := by
  simp [State.partialResetAsk, hbare, hrel, hsite]

/-- The image that runs after a partial reset. -/
def State.resetRuns (s : State) : State :=
  { s with
    controlDown := false, running := s.slotInfo s.activeB
    spdm := { s.spdm with
      measured2 := if s.slotInfo s.activeB = s.running then s.spdm.measured2 else s.spdm.measured2 + 1 } }

theorem State.partialOn_runs {s : State} (hdown : s.controlDown = true) (hover : s.downSince + 60 * rootPerMs ≤ s.now)
    (hh : s.handover = none) (hmay : s.mayRun (s.slotInfo s.activeB) s.downOk = true) :
    s.partialOn = ((s.resetRuns).placeImage (s.slotInfo s.activeB)).showImage := by
  have hend : s.partialEnd = (((s.resetRuns).placeImage (s.slotInfo s.activeB)).showImage).handoverFailed := by
    unfold State.partialEnd
    have hmay' : ({ s with controlDown := false } : State).mayRun (s.slotInfo s.activeB) s.downOk = true := hmay
    refine if_neg (c := (!({ s with controlDown := false } : State).mayRun (s.slotInfo s.activeB) s.downOk) = true) ?_
    rw [hmay']
    decide
  have hnone : (((s.resetRuns).placeImage (s.slotInfo s.activeB)).showImage).handover = none := hh
  unfold State.partialOn
  rw [if_pos ⟨hdown, hover⟩, hend, State.handoverFailed]
  split
  · rfl
  · next h => exact absurd (hnone.symm.trans h) (by simp)

theorem State.partialOn_fallow {s : State} (hdown : s.controlDown = true) (hover : s.downSince + 60 * rootPerMs ≤ s.now)
    (hmay : s.mayRun (s.slotInfo s.activeB) s.downOk = false) :
    s.partialOn = ({ s with controlDown := false, handover := none } : State).enterFallow 1 false := by
  unfold State.partialOn State.partialEnd
  rw [if_pos ⟨hdown, hover⟩]
  have hmay' : ({ s with controlDown := false } : State).mayRun (s.slotInfo s.activeB) s.downOk = false := hmay
  refine if_pos (c := (!({ s with controlDown := false } : State).mayRun (s.slotInfo s.activeB) s.downOk) = true) ?_
  rw [hmay']
  rfl

theorem State.placedImage_shows (s : State) (x : ImageInfo) : ((s.placeImage x).showImage).core.iramA = loadHalf x.body ∧
    ((s.placeImage x).showImage).core.dataRam = s.core.dataRam ∧ ((s.placeImage x).showImage).rfld .ctlRemap 0 2 = 0 ∧
    ((s.placeImage x).showImage).controlDown = s.controlDown ∧ ((s.placeImage x).showImage).running = s.running ∧
    s.SameStores ((s.placeImage x).showImage) := by
  obtain ⟨-, hreg, -⟩ := (s.placeImage x).showImage_shows
  refine ⟨rfl, rfl, ?_, rfl, rfl, ⟨rfl, rfl, rfl, rfl, rfl⟩⟩
  refine (congrArg (fld · 0 2) ((hreg .ctlRemap (by simp)).trans (s.placeImage_reg x .ctlRemap))).trans ?_
  exact s.rfld_putFld_self .ctlRemap 0 2 0 (by decide)

/-- Settles O42: an activation decided goes on to its window, and the window to its close; the resets leave what no step of them touches. -/
theorem handoversAndPartialResets : Obligations.HandoversAndPartialResets := by
  refine ⟨fun s t h p v us x => ⟨fun hs hclear hstage hmay hx hsvn => ⟨fun hmode => ?_, fun hmode hv hlive hmin => ?_⟩,
    fun w n sv hh hx hup hlong hover hblock hmin hmax => ?_, fun w n hh hopen => State.handoverOn_open hh hopen, fun w n hh => ?_,
    fun hx hstage hrel hup => ⟨?_, ?_⟩⟩,
    fun s ok hlocks => ⟨fun hrel hup hsite hstage => ?_, fun w n hh hup hstage => ?_, fun hdown hover hh hmay => ?_,
      fun hdown hover hmay => ?_, fun t h p hs hclear hrel hsite => ?_⟩⟩
  · have hask := State.imgActivateAsk_next (w := ⟨h, { p with opcode := 0xC4 }, [], v, us⟩) hclear rfl hstage hmay hx hsvn hmode
    obtain ⟨h1, h2, h3, h4, h5, h6, h7⟩ := t.markedNext_shows
    obtain ⟨hans, honly, -⟩ := hs.answered ⟨rfl, rfl, rfl⟩ hask (congrArg Headgate.queue h6) Outcome.ok_says
    refine ⟨_, rfl, hans, ?_, ?_, ?_, honly.stage.trans h4, honly.running.trans h5, h7.trans honly.same⟩
    · rw [honly.cistern]
      exact h1
    · rw [State.activeB, honly.cistern]
      exact h2
    · rw [honly.cistern]
      exact h3
  · have hask := State.imgActivateAsk_live (w := ⟨h, { p with opcode := 0xC4 }, [], v, us⟩) hclear rfl hstage hmay hx hsvn hmode hv hlive
      hmin
    exact ⟨_, _, congrArg Host.Outcome.next (hs.goesOn ⟨rfl, rfl, rfl⟩ hask), rfl, State.handoverBegins hx rfl⟩
  · exact ⟨_, State.handoverOn_closes hh hx hup hlong hover hblock hmin hmax, State.closeWindow_shows⟩
  · refine ⟨_, State.pointTimeout hh, rfl, ?_, rfl, rfl, rfl⟩
    exact State.hgReply_answers (t := s) rfl w (Outcome.refuse_says _)
  · rw [exec_bootSlotCopyDone hx, if_pos ⟨hstage, rfl, hrel, by rw [hup]; rfl⟩]
    obtain ⟨h1, h2, h3, h4⟩ := s.slotCopied_shows x
    obtain ⟨hstage', hnone, -, -, -, hsame⟩ := (s.slotCopied x).emptyStaging_shows
    obtain ⟨hactive, hslots⟩ := (s.slotCopied x).emptyStaging_keeps
    have hact := hactive.trans h1
    refine ⟨_, rfl, hact, ?_, (hslots _).trans h3, hstage', hnone, h4.trans hsame⟩
    rw [hact]
    exact (hslots _).trans h2
  · rw [exec_bootSlotCopyDone hx, if_neg (by simp)]
  · have hexec : execControlWatchdog ok s = .next (s.partialStart ok) := congrArg Host.Outcome.next (if_pos ⟨hrel, by rw [hup]; rfl, hsite⟩)
    exact hexec.trans (congrArg Host.Outcome.next (State.partialStart_idle hlocks hstage ok))
  · have hexec : execHandoverWatchdog ok s = .next (s.partialStart ok) := by
      unfold execHandoverWatchdog
      rw [hh]
      exact congrArg Host.Outcome.next (if_pos ⟨rfl, by rw [hup]; rfl⟩)
    exact hexec.trans (congrArg Host.Outcome.next (State.partialStart_idle hlocks hstage ok))
  · obtain ⟨h1, h2, h3, h4, h5, h6⟩ := s.resetRuns.placedImage_shows (s.slotInfo s.activeB)
    exact ⟨_, State.partialOn_runs hdown hover hh hmay, h4, h5, h1, h2, h3, State.SameStores.trans ⟨rfl, rfl, rfl, rfl, rfl⟩ h6⟩
  · rw [State.partialOn_fallow hdown hover hmay]
    exact (State.enterFallow_shows _ 1 false).1
  · have hask := State.partialResetAsk_takes (w := ⟨h, { p with opcode := 0xCB }, [], ok, 0⟩) (HgFrame.bare_of hclear rfl) hrel hsite
    have ht : t.NoRosogLock := hs.1.noRosogLock hlocks
    have hsay := t.hgReply_onlySaid ⟨h, { p with opcode := 0xCB }, [], ok, 0⟩ Outcome.ok
    have hlocks' : (t.hgReply ⟨h, { p with opcode := 0xCB }, [], ok, 0⟩ Outcome.ok).NoRosogLock := ht
    obtain ⟨h1, h2, h3, h4, h5⟩ := State.partialStart_shows hlocks' ok
    obtain ⟨rp, hq, hrest⟩ := State.hgReply_answers (t := t) rfl ⟨h, { p with opcode := 0xCB }, [], ok, 0⟩ Outcome.ok_says
    refine ⟨_, congrArg Host.Outcome.next (hs.goesOn ⟨rfl, rfl, rfl⟩ hask), h1, h2, ⟨rp, h3.trans hq, hrest⟩, hsay.same.trans h4,
      fun hst => h5 (hsay.stage.trans hst), fun hst => ?_⟩
    have hidle := State.partialStart_idle hlocks' (hsay.stage.trans_ne hst) ok
    rw [hidle]
    exact ⟨hsay.regs, hsay.cistern⟩

end Sys2Proof.Machine
end

section
set_option Elab.async false -- the whole text is compiled in one process, within a fixed memory
/-! SUPPORT. Units' records and states; in-field tests fall due, start, are forced and end (R279–R281). -/
namespace Sys2Proof.Machine

/-! ### Units' records -/

theorem State.unitRec_of_units {s t : State} (h : t.cistern.units = s.cistern.units) (k : UnitKind) (b u : Nat) :
    t.unitRec k b u = s.unitRec k b u := by
  unfold State.unitRec
  rw [h]

/-- A record put is found under its own names, a fresh one too. -/
theorem State.unitRec_put (s : State) {r : UnitRec} {k : UnitKind} {b u : Nat} (hk : r.kind = k) (hb : r.basin = b) (hu : r.unit = u) :
    (s.putUnitRec r).unitRec k b u = r := by
  subst hk hb hu
  by_cases hf : r = .fresh r.kind r.basin r.unit
  · have hnone : (s.cistern.units.filter fun x => !(x.kind = r.kind && x.basin = r.basin && x.unit = r.unit)).find?
        (fun x => x.kind = r.kind && x.basin = r.basin && x.unit = r.unit) = none := by
      rw [List.find?_eq_none]
      intro x hx
      have hnot := (List.mem_filter.1 hx).2
      simpa only [Bool.not_eq_true, Bool.not_eq_true'] using hnot
    unfold State.putUnitRec State.unitRec
    dsimp only
    rw [if_pos hf, hnone]
    exact hf.symm
  · exact s.unitRec_putUnitRec r hf

/-- The slot that an MXE's register shows. -/
def slotIn (x : Word64) : Option (Nat × Nat) := if fld x 32 8 = 0xFF then none else some (fld x 32 8, fld x 24 8)

theorem State.slotOf_eq (s : State) (b u : Nat) : s.slotOf b u = slotIn (s.reg (.mxeSt b u)) := rfl

/-- From `s` to `t` a record has been made at most: the units' records stay, and so do the registers but the event counter. -/
def State.OnlyRecorded (s t : State) : Prop :=
  t.cistern.units = s.cistern.units ∧ ∀ r : Reg, r ≠ .clkEventSeq → t.reg r = s.reg r

theorem State.OnlyRecorded.refl (s : State) : s.OnlyRecorded s := ⟨rfl, fun _ _ => rfl⟩

theorem State.OnlyRecorded.trans {s t u : State} (h : s.OnlyRecorded t) (k : t.OnlyRecorded u) : s.OnlyRecorded u :=
  ⟨k.1.trans h.1, fun r hr => (k.2 r hr).trans (h.2 r hr)⟩

section
variable {s t : State} (h : s.OnlyRecorded t)
include h

theorem State.OnlyRecorded.unitRec (k : UnitKind) (b u : Nat) : t.unitRec k b u = s.unitRec k b u := State.unitRec_of_units h.1 k b u

theorem State.OnlyRecorded.unitState (u : UnitRef) : t.unitState u = s.unitState u := by
  have hfld (r : Reg) (hr : r ≠ .clkEventSeq) : t.rfld r 20 4 = s.rfld r 20 4 := congrArg (fld · 20 4) (h.2 r hr)
  unfold State.unitState
  split
  · exact hfld _ (by simp)
  · exact hfld _ (by simp)
  · exact hfld _ (by simp)
  · exact hfld _ (by simp)
  · rfl

theorem State.OnlyRecorded.slotOf (b u : Nat) : t.slotOf b u = s.slotOf b u :=
  congrArg slotIn (h.2 (.mxeSt b u) (by simp))

end

section
variable (s : State)

theorem State.logEvent_units : s.logEvent.cistern.units = s.cistern.units := by
  simp only [State.logEvent]
  split <;> rfl

theorem State.record_onlyRecorded (e : Event) (severity action : Nat) (threshold added : Bool) :
    s.OnlyRecorded (s.record e severity action threshold added) :=
  ⟨s.logEvent_units, fun _ hr => s.record_reg e severity action threshold added hr⟩

theorem State.record_nextId (e : Event) (severity action : Nat) (threshold added : Bool) :
    (s.record e severity action threshold added).cistern.nextId = s.cistern.nextId + 1 := by
  have hlog : s.logEvent.cistern.nextId = s.cistern.nextId := by
    simp only [State.logEvent]
    split <;> rfl
  exact congrArg (· + 1) hlog

theorem State.recordAction_onlyRecorded (kind : UnitKind) (b u cls action : Nat) (failed : Bool) (loc : Nat) :
    s.OnlyRecorded (s.recordAction kind b u cls action failed loc) := s.record_onlyRecorded _ _ _ _ _

theorem State.setPending_onlyRecorded (b : Nat) (kind : UnitKind) (u loc : Nat) : s.OnlyRecorded (s.setPending b kind u loc) := by
  unfold State.setPending
  split
  · exact .refl s
  · exact State.OnlyRecorded.trans ⟨rfl, fun _ _ => rfl⟩ (State.recordAction_onlyRecorded _ _ _ _ _ _ _ _)

theorem State.checkPending_onlyRecorded (b : Nat) (kind : UnitKind) (u : Nat) : s.OnlyRecorded (s.checkPending b kind u) := by
  unfold State.checkPending
  split
  · exact s.setPending_onlyRecorded b kind u 0
  · exact .refl s

/-! ### Units' states and slots -/

theorem State.setMxe_shows (b u furrow slot st : Nat) : (s.setMxe b u furrow slot st).unitState ⟨.mxe, b, u⟩ = st % 16 ∧
    (s.setMxe b u furrow slot st).rfld (.mxeSt b u) 32 8 = furrow % 256 ∧
    (s.setMxe b u furrow slot st).rfld (.mxeSt b u) 24 8 = slot % 256 ∧
    (∀ r : Reg, r ≠ .mxeSt b u → (s.setMxe b u furrow slot st).reg r = s.reg r) := by
  unfold State.setMxe
  generalize hv : s.putFld (.mxeSt b u) 32 8 furrow = v
  have h32 : v.rfld (.mxeSt b u) 32 8 = furrow % 256 := hv ▸ s.rfld_putFld_self (.mxeSt b u) 32 8 furrow (by decide)
  refine ⟨State.rfld_putFld_self _ (.mxeSt b u) 20 4 st (by decide), ?_, ?_, fun r hr => ?_⟩
  · rw [State.rfld_putFld_ne _ _ _ _ _ _ _ _ (.inr (.inr (by decide))), State.rfld_putFld_ne _ _ _ _ _ _ _ _ (.inr (.inr (by decide)))]
    exact h32
  · rw [State.rfld_putFld_ne _ _ _ _ _ _ _ _ (.inr (.inr (by decide)))]
    exact v.rfld_putFld_self (.mxeSt b u) 24 8 slot (by decide)
  · rw [State.reg_putFld_ne _ hr, State.reg_putFld_ne _ hr, ← hv]
    exact s.reg_putFld_ne hr 32 8 furrow

theorem State.unitState_mxe_congr {t : State} {b u : Nat} (h : t.reg (.mxeSt b u) = s.reg (.mxeSt b u)) :
    t.unitState ⟨.mxe, b, u⟩ = s.unitState ⟨.mxe, b, u⟩ ∧ t.slotOf b u = s.slotOf b u := by
  exact ⟨congrArg (fld · 20 4) h, congrArg slotIn h⟩

/-- An MXE in a slot. -/
theorem State.setMxe_slot (b u : Nat) {furrow slot : Nat} (hf : furrow < 255) (hk : slot < 256) (st : Nat) :
    (s.setMxe b u furrow slot st).slotOf b u = some (furrow, slot) := by
  obtain ⟨-, h32, h24, -⟩ := s.setMxe_shows b u furrow slot st
  simp only [State.slotOf, h32, h24, Nat.mod_eq_of_lt (show furrow < 256 by omega), Nat.mod_eq_of_lt hk]
  exact if_neg (by omega)

theorem State.setMxe_free (b u st : Nat) : (s.setMxe b u 0xFF 0xFF st).slotOf b u = none := by
  obtain ⟨-, h32, -, -⟩ := s.setMxe_shows b u 0xFF 0xFF st
  simp only [State.slotOf, h32]
  rfl

theorem State.slotOf_bounds {b u f k : Nat} (h : s.slotOf b u = some (f, k)) : f < 255 ∧ k < 256 := by
  have hf : s.rfld (.mxeSt b u) 32 8 < 2 ^ 8 := Nat.mod_lt _ (by decide)
  have hk : s.rfld (.mxeSt b u) 24 8 < 2 ^ 8 := Nat.mod_lt _ (by decide)
  simp only [State.slotOf] at h
  split at h
  · simp at h
  · simp only [Option.some.injEq, Prod.mk.injEq] at h
    omega

theorem State.freeMxe_state {b v : Nat} (h : s.freeMxe b = some v) : s.unitState ⟨.mxe, b, v⟩ = 3 := by
  simpa using List.find?_some h

/-- A spare takes a slot from another MXE. -/
theorem State.takeSlot_shows (b : Nat) {f k : Nat} (hf : f < 255) (hk : k < 256) {u v : Nat} (hne : v ≠ u) (st : Nat) :
    (s.takeSlot b f k u v st).slotOf b v = some (f, k) ∧ (s.takeSlot b f k u v st).unitState ⟨.mxe, b, v⟩ = 0 ∧
      (s.takeSlot b f k u v st).slotOf b u = none ∧ (s.takeSlot b f k u v st).unitState ⟨.mxe, b, u⟩ = st % 16 ∧
      (s.takeSlot b f k u v st).reg (.mxePred b v) = 0 ∧ (s.takeSlot b f k u v st).reg (.mxePredMap b v) = 0 ∧
      (s.takeSlot b f k u v st).rfld (.mxeSt b u) 32 8 = 0xFF ∧ (s.takeSlot b f k u v st).rfld (.mxeSt b v) 32 8 = f ∧
      (s.takeSlot b f k u v st).rfld (.mxeSt b v) 24 8 = k := by
  have hslot := s.setMxe_slot b v hf hk 0
  obtain ⟨hst, h32, h24, -⟩ := s.setMxe_shows b v f k 0
  unfold State.takeSlot
  dsimp only
  generalize s.setMxe b v f k 0 = w at *
  have hfree := w.setMxe_free b u st
  obtain ⟨hst', h32', -, hother⟩ := w.setMxe_shows b u 0xFF 0xFF st
  generalize w.setMxe b u 0xFF 0xFF st = y at *
  have hv := hother (.mxeSt b v) (by simpa using hne)
  have hreg (x : Nat) : ((y.putReg (.mxePred b v) 0).putReg (.mxePredMap b v) 0).reg (.mxeSt b x) = y.reg (.mxeSt b x) :=
    (State.reg_putReg_ne _ (by simp) _).trans (y.reg_putReg_ne (by simp) _)
  have hpred : ((y.putReg (.mxePred b v) 0).putReg (.mxePredMap b v) 0).reg (.mxePred b v) = 0 :=
    (State.reg_putReg_ne _ (by simp) _).trans (y.reg_putReg_self _ _)
  have hmap : ((y.putReg (.mxePred b v) 0).putReg (.mxePredMap b v) 0).reg (.mxePredMap b v) = 0 := State.reg_putReg_self _ _ _
  generalize (y.putReg (.mxePred b v) 0).putReg (.mxePredMap b v) 0 = z at *
  obtain ⟨h1, h2⟩ := y.unitState_mxe_congr (hreg u)
  obtain ⟨h3, h4⟩ := w.unitState_mxe_congr ((hreg v).trans hv)
  refine ⟨h4.trans hslot, h3.trans hst, h2.trans hfree, h1.trans hst', hpred, hmap, ?_, ?_, ?_⟩
  · exact (congrArg (fld · 32 8) (hreg u)).trans h32'
  · exact (congrArg (fld · 32 8) ((hreg v).trans hv)).trans (h32.trans (Nat.mod_eq_of_lt (by omega)))
  · exact (congrArg (fld · 24 8) ((hreg v).trans hv)).trans (h24.trans (Nat.mod_eq_of_lt hk))

/-- A unit's state set, for the kinds that have one. -/
theorem State.setUnit_shows {k : UnitKind} (hk : k = .mxe ∨ k = .vxe ∨ k = .screen ∨ k = .flume) (b u : Nat) {v : Nat} (hv : v < 16) :
    (s.setUnit ⟨k, b, u⟩ v).unitState ⟨k, b, u⟩ = v ∧ (s.setUnit ⟨k, b, u⟩ v).cistern = s.cistern := by
  have hself (r : Reg) : (s.putFld r 20 4 v).rfld r 20 4 = v := (s.rfld_putFld_self r 20 4 v (by decide)).trans (Nat.mod_eq_of_lt hv)
  rcases hk with rfl | rfl | rfl | rfl <;> exact ⟨hself _, rfl⟩

/-- The state of an MXE changes no slot. -/
theorem State.setUnit_slotOf (b u b' u' v : Nat) : (s.setUnit ⟨.mxe, b, u⟩ v).slotOf b' u' = s.slotOf b' u' := by
  have hfld (lo : Nat) (hlo : 20 + 4 ≤ lo) : (s.setUnit ⟨.mxe, b, u⟩ v).rfld (.mxeSt b' u') lo 8 = s.rfld (.mxeSt b' u') lo 8 :=
    s.rfld_putFld_ne (.mxeSt b u) (.mxeSt b' u') 20 4 lo 8 v (.inr (.inr hlo))
  simp only [State.slotOf, hfld 32 (by decide), hfld 24 (by decide)]

theorem State.setUnit_other {b u u' : Nat} (h : u' ≠ u) (v : Nat) :
    (s.setUnit ⟨.mxe, b, u⟩ v).unitState ⟨.mxe, b, u'⟩ = s.unitState ⟨.mxe, b, u'⟩ :=
  congrArg (fld · 20 4) (s.reg_putFld_ne (r := .mxeSt b u) (r' := .mxeSt b u') (by simpa using h) 20 4 v)

/-! ### Tests (R279–R281) -/

/-- A unit under test. -/
theorem State.beginTest_shows {k : UnitKind} (hk : k = .mxe ∨ k = .vxe) (b u : Nat) (held : Option (Nat × Nat)) :
    (s.beginTest k b u held).unitState ⟨k, b, u⟩ = 4 ∧ ((s.beginTest k b u held).unitRec k b u).testing = true ∧
      ((s.beginTest k b u held).unitRec k b u).heldSlot = held := by
  obtain ⟨hst, -⟩ := s.setUnit_shows (k := k) (by tauto) b u (v := 4) (by decide)
  have hput : (s.beginTest k b u held).unitRec k b u =
      { (s.setUnit ⟨k, b, u⟩ 4).unitRec k b u with testing := true, heldSlot := held, waitFrom := none } := by
    obtain ⟨h1, h2, h3⟩ := (s.setUnit ⟨k, b, u⟩ 4).unitRec_names k b u
    exact State.unitRec_put _ h1 h2 h3
  refine ⟨?_, by rw [hput], by rw [hput]⟩
  refine Eq.trans ?_ hst
  rcases hk with rfl | rfl <;> rfl

theorem State.beginTest_slotOf (b u : Nat) (held : Option (Nat × Nat)) (b' u' : Nat) :
    (s.beginTest .mxe b u held).slotOf b' u' = s.slotOf b' u' := s.setUnit_slotOf b u b' u' 4

theorem State.beginTest_other (b u : Nat) (held : Option (Nat × Nat)) {u' : Nat} (h : u' ≠ u) :
    (s.beginTest .mxe b u held).unitState ⟨.mxe, b, u'⟩ = s.unitState ⟨.mxe, b, u'⟩ := s.setUnit_other h 4

/-- A test that folds its slot (R280). -/
theorem State.forceTest_shows (b u f k : Nat) : (s.forceTest b u f k).unitState ⟨.mxe, b, u⟩ = 4 ∧
    (s.forceTest b u f k).slotOf b u = none ∧ ((s.forceTest b u f k).unitRec .mxe b u).testing = true ∧
    ((s.forceTest b u f k).unitRec .mxe b u).heldSlot = some (f, k) := by
  have hpend := (((s.recordAction .mxe b u clsForced 10).setMxe b u 0xFF 0xFF 4).beginTest .mxe b u (some (f, k))).checkPending_onlyRecorded
    b .mxe u
  have hfree := (s.recordAction .mxe b u clsForced 10).setMxe_free b u 4
  unfold State.forceTest
  dsimp only
  generalize (s.recordAction .mxe b u clsForced 10).setMxe b u 0xFF 0xFF 4 = v at *
  obtain ⟨h1, h2, h3⟩ := v.beginTest_shows (.inl rfl) b u (some (f, k))
  have hslot := v.beginTest_slotOf b u (some (f, k)) b u
  exact ⟨(hpend.unitState _).trans h1, (hpend.slotOf _ _).trans (hslot.trans hfree), by rw [hpend.unitRec]; exact h2,
    by rw [hpend.unitRec]; exact h3⟩

end

/-! ### The commands of tests -/

section
variable {s : State} {kind : UnitKind} {b n : Nat} (htest : s.testable kind b n = true) (hidle : (s.unitRec kind b n).testing = false)
include htest hidle

/-- A due unit is taken, outside an entry. -/
theorem State.infieldTestStart_eq {t : Nat} (hdue : (s.unitRec kind b n).due = some t) (hentry : s.power.entry = none) :
    exec (.infieldTestStart kind b n) s = .next (if kind = .mxe then s.startMxeTest b n
      else if s.unitState ⟨.vxe, b, n⟩ = 0 then s.beginTest .vxe b n none else s) := by
  have hexec : execInfieldTestStart kind b n s = .next (if kind = .mxe then s.startMxeTest b n
      else if s.unitState ⟨.vxe, b, n⟩ = 0 then s.beginTest .vxe b n none else s) := by
    unfold execInfieldTestStart
    dsimp only
    rw [if_neg (by simp [hdue, htest, hidle, hentry])]
    split <;> rfl
  exact hexec

end

section
variable {s : State} {b n f k : Nat} (hst : s.unitState ⟨.mxe, b, n⟩ = 0) (hslot : s.slotOf b n = some (f, k))
  (hfur : s.furrowTesting b f = false)
include hst hslot hfur

/-- An MXE in its slot, at a list boundary. -/
theorem State.startMxeTest_slot (hbound : s.listBoundary b f = true) : s.startMxeTest b n =
    match s.freeMxe b with
    | some v => (s.takeSlot b f k n v 4).beginTest .mxe b n (some (f, k))
    | none => if s.cistern.policy.deferD = 0 then s.forceTest b n f k
              else (s.putUnitRec { s.unitRec .mxe b n with waitFrom := none }).recordAction .mxe b n clsDeferred 9 := by
  unfold State.startMxeTest
  rw [if_neg (by omega), hslot]
  dsimp only
  rw [if_neg (by simp [hbound]), if_neg (by simp [hst, hfur])] <;> rfl

/-- A test that is forced. -/
theorem State.testForced_eq (htest : s.testable .mxe b n = true) (hidle : (s.unitRec .mxe b n).testing = false) {t : Nat}
    (hdue : (s.unitRec .mxe b n).due = some t) (hentry : s.power.entry = none) (hnone : s.freeMxe b = none)
    (hlong : s.cistern.policy.deferD * 86400 ≤ s.cistern.serviceS - t) :
    exec (.testForced b n) s = .next (s.forceTest b n f k) := by
  have hexec : execTestForced b n s = .next (s.forceTest b n f k) := by
    unfold execTestForced
    dsimp only
    rw [hdue, hslot]
    exact if_pos ⟨htest, by simp [hidle], by simp [hentry], hlong, hst, by simp [hfur], by simp [hnone]⟩
  exact hexec

end

/-- A unit that has been tested is where it goes, and its record says so. -/
def State.testEnded (s : State) (kind : UnitKind) (b u : Nat) (pass : Bool) : State :=
  let r := s.unitRec kind b u
  let s := s.placeTested kind b u pass r.heldSlot
  let s := s.putUnitRec { r with
    testing := false, heldSlot := none, due := none, lastTest := s.serviceNow, reply := [], retired := !pass }
  { s with testsDone := s.testsDone + 1 }

/-- What Rosog does about a tested unit: the record of its test, and where it failed its retirement. -/
def State.testNoted (s : State) (kind : UnitKind) (b u : Nat) (pass : Bool) (held : Option (Nat × Nat)) : State :=
  let e := { Event.of kind b u clsTest (if pass then .none else .permanent) with failed := false }
  let s := s.record e 3 0 (!pass) false
  if pass then s else ((s.recordAction kind b u clsRetired 4).refillSlot b held).checkPending b kind u

theorem State.testNoted_onlyRecorded (s : State) (kind : UnitKind) (b u : Nat) (pass : Bool) {held : Option (Nat × Nat)}
    (hheld : pass = true ∨ held = none) :
    s.OnlyRecorded (s.testNoted kind b u pass held) ∧ (s.testNoted kind b u pass held).testsDone = s.testsDone ∧
      s.SameStores (s.testNoted kind b u pass held) := by
  have hrec (e : Event) (x y : Nat) (p q : Bool) : s.OnlyRecorded (s.record e x y p q) := s.record_onlyRecorded e x y p q
  have hdone (t : State) (e : Event) (x y : Nat) (p q : Bool) : (t.record e x y p q).testsDone = t.testsDone :=
    (congrArg State.testsDone t.logEvent_rest :)
  unfold State.testNoted
  dsimp only
  rcases hheld with rfl | rfl
  · exact ⟨hrec _ _ _ _ _, hdone _ _ _ _ _ _, State.sameStores_of_lasting (by simp)⟩
  · split
    · exact ⟨hrec _ _ _ _ _, hdone _ _ _ _ _ _, State.sameStores_of_lasting (by simp)⟩
    · have hfail (t : State) : t.OnlyRecorded (((t.recordAction kind b u clsRetired 4).refillSlot b none).checkPending b kind u) ∧
          (((t.recordAction kind b u clsRetired 4).refillSlot b none).checkPending b kind u).testsDone = t.testsDone := by
        have ha := t.recordAction_onlyRecorded kind b u clsRetired 4 false 0
        have hd : (t.recordAction kind b u clsRetired 4).testsDone = t.testsDone := hdone _ _ _ _ _ _
        generalize t.recordAction kind b u clsRetired 4 = v at *
        refine ⟨ha.trans (v.checkPending_onlyRecorded b kind u), Eq.trans ?_ hd⟩
        unfold State.checkPending State.setPending
        split
        · split
          · rfl
          · exact hdone _ _ _ _ _ _
        · rfl
      exact ⟨(hrec _ _ _ _ _).trans (hfail _).1, (hfail _).2.trans (hdone _ _ _ _ _ _), State.sameStores_of_lasting (by simp)⟩

theorem State.testEnded_shows (s : State) (kind : UnitKind) (b u : Nat) (pass : Bool) :
    ((s.testEnded kind b u pass).unitRec kind b u).testing = false ∧ ((s.testEnded kind b u pass).unitRec kind b u).retired = !pass ∧
      (s.testEnded kind b u pass).testsDone = s.testsDone + 1 ∧ s.SameStores (s.testEnded kind b u pass) ∧
      ∀ r, (s.testEnded kind b u pass).reg r = (s.placeTested kind b u pass (s.unitRec kind b u).heldSlot).reg r := by
  obtain ⟨h1, h2, h3⟩ := s.unitRec_names kind b u
  have hput := (s.placeTested kind b u pass (s.unitRec kind b u).heldSlot).unitRec_put (r := { s.unitRec kind b u with
    testing := false, heldSlot := none, due := none
    lastTest := (s.placeTested kind b u pass (s.unitRec kind b u).heldSlot).serviceNow, reply := [], retired := !pass }) h1 h2 h3
  have hdone : (s.placeTested kind b u pass (s.unitRec kind b u).heldSlot).testsDone = s.testsDone := by
    unfold State.placeTested State.setUnit
    repeat' split
    all_goals rfl
  have hsame : s.SameStores (s.placeTested kind b u pass (s.unitRec kind b u).heldSlot) := State.sameStores_of_lasting (by simp)
  unfold State.testEnded
  dsimp only
  generalize s.placeTested kind b u pass (s.unitRec kind b u).heldSlot = v at *
  exact ⟨(congrArg UnitRec.testing hput :), (congrArg UnitRec.retired hput :), (congrArg (· + 1) hdone :), hsame, fun _ => rfl⟩

/-- Where a unit of no slot goes. -/
theorem State.placeTested_state (s : State) {kind : UnitKind} (hkind : kind = .mxe ∨ kind = .vxe) (b u : Nat) (pass : Bool) :
    (s.placeTested kind b u pass none).unitState ⟨kind, b, u⟩ = if pass then (if kind = .mxe then 3 else 0) else 5 := by
  obtain ⟨h5, -⟩ := s.setMxe_shows b u 0xFF 0xFF 5
  obtain ⟨h3, -⟩ := s.setMxe_shows b u 0xFF 0xFF 3
  obtain ⟨h0, -⟩ := s.setUnit_shows (k := .vxe) (by simp) b u (v := 0) (by decide)
  obtain ⟨h5', -⟩ := s.setUnit_shows (k := .vxe) (by simp) b u (v := 5) (by decide)
  rcases hkind with rfl | rfl <;> cases pass
  · exact h5
  · exact h3
  · exact h5'
  · exact h0

/-- The end of a test, of a unit that no packet waits for. -/
theorem State.infieldTestEnd_eq {s : State} {kind : UnitKind} {b n : Nat} (htesting : (s.unitRec kind b n).testing = true)
    (hreply : (s.unitRec kind b n).reply = []) (hret : (s.unitRec kind b n).retired = false) (pass : Bool) (us : Nat) :
    exec (.infieldTestEnd kind b n pass us) s =
      .next ((s.testEnded kind b n pass).testNoted kind b n pass (s.unitRec kind b n).heldSlot) := by
  have hexec : execInfieldTestEnd kind b n pass us s =
      .next ((s.testEnded kind b n pass).testNoted kind b n pass (s.unitRec kind b n).heldSlot) := by
    have hpass : (pass && !(s.unitRec kind b n).retired) = pass := by simp [hret]
    unfold execInfieldTestEnd State.testEnded State.testNoted
    dsimp only
    rw [if_neg (by simp [htesting]), hreply, hpass]
    rfl
  exact hexec

/-- Settles O48: each command in its cases; a unit's record is found as it was put, and records of events change no unit. -/
theorem unitsTested : Obligations.UnitsTested := by
  intro s kind b n
  refine ⟨fun htest hidle => ⟨fun hpast => ?_, fun hpast => ?_, fun t hdue hentry => ⟨fun hkind => ?_, fun f k hkind hst hslot hfur hbound =>
    ⟨fun v hv => ?_, fun hnone hdefer => ?_, fun hnone hlong => ?_⟩⟩⟩, fun pass us hkind htesting hreply hret hheld => ?_,
    fun us f k hkind htesting hreply hret hheld hat hf hk => ?_⟩
  · refine ⟨_, congrArg Host.Outcome.next (if_pos ⟨htest, by simp [hidle], hpast⟩), rfl, ⟨rfl, rfl, rfl, rfl, rfl⟩, ?_⟩
    obtain ⟨h1, h2, h3⟩ := s.unitRec_names kind b n
    exact congrArg UnitRec.due (s.unitRec_put (r := { s.unitRec kind b n with
      due := some ((s.unitRec kind b n).due.getD s.serviceNow) }) h1 h2 h3)
  · exact congrArg Host.Outcome.next (if_neg (by simp [hpast]))
  · have hbegin : exec (.infieldTestStart kind b n) s = .next (s.beginTest kind b n none) ∧ (kind = .mxe ∨ kind = .vxe) := by
      rw [State.infieldTestStart_eq htest hidle hdue hentry]
      obtain ⟨rfl, h3⟩ | ⟨rfl, h0⟩ := hkind
      · exact ⟨congrArg Host.Outcome.next ((if_pos rfl).trans (if_pos h3)), .inl rfl⟩
      · exact ⟨congrArg Host.Outcome.next ((if_neg (by simp)).trans (if_pos h0)), .inr rfl⟩
    obtain ⟨h1, h2, -⟩ := s.beginTest_shows hbegin.2 b n none
    exact ⟨_, hbegin.1, h1, h2, State.sameStores_of_lasting (by simp)⟩
  · subst hkind
    have hne : v ≠ n := by
      rintro rfl
      have := s.freeMxe_state hv
      omega
    obtain ⟨hf, hk⟩ := s.slotOf_bounds hslot
    obtain ⟨h1, h2, -⟩ := s.takeSlot_shows b hf hk hne 4
    obtain ⟨h3, h4, h5⟩ := (s.takeSlot b f k n v 4).beginTest_shows (.inl rfl) b n (some (f, k))
    rw [State.infieldTestStart_eq htest hidle hdue hentry, if_pos rfl, State.startMxeTest_slot hst hslot hfur hbound, hv]
    exact ⟨_, rfl, h3, (State.beginTest_slotOf _ b n _ b v).trans h1, (State.beginTest_other _ b n _ hne).trans h2, h4, h5,
      State.sameStores_of_lasting (by simp)⟩
  · subst hkind
    rw [State.infieldTestStart_eq htest hidle hdue hentry, if_pos rfl, State.startMxeTest_slot hst hslot hfur hbound, hnone]
    dsimp only
    rw [if_neg hdefer]
    obtain ⟨h1, h2, h3⟩ := s.unitRec_names .mxe b n
    have hput := s.unitRec_put (r := { s.unitRec .mxe b n with waitFrom := none }) h1 h2 h3
    have hslot' : (s.putUnitRec { s.unitRec .mxe b n with waitFrom := none }).slotOf b n = some (f, k) := hslot
    have hnext : (s.putUnitRec { s.unitRec .mxe b n with waitFrom := none }).cistern.nextId = s.cistern.nextId := rfl
    have hsame : s.SameStores (s.putUnitRec { s.unitRec .mxe b n with waitFrom := none }) := ⟨rfl, rfl, rfl, rfl, rfl⟩
    generalize s.putUnitRec { s.unitRec .mxe b n with waitFrom := none } = w at *
    have hrec := w.recordAction_onlyRecorded .mxe b n clsDeferred 9 false 0
    exact ⟨_, rfl, (hrec.slotOf b n).trans hslot', (w.record_nextId _ _ _ _ _).trans (congrArg (· + 1) hnext),
      (hrec.unitRec .mxe b n).trans hput, hsame.trans (State.sameStores_of_lasting (by simp))⟩
  · subst hkind
    obtain ⟨h1, h2, h3, h4⟩ := s.forceTest_shows b n f k
    exact ⟨_, State.testForced_eq hst hslot hfur htest hidle hdue hentry hnone hlong, h1, h2, h3, h4, State.sameStores_of_lasting (by simp)⟩
  · have heq := State.infieldTestEnd_eq htesting hreply hret pass us
    obtain ⟨h1, h2, h3, h4, h5⟩ := s.testEnded_shows kind b n pass
    rw [hheld] at heq h5
    generalize s.testEnded kind b n pass = v at *
    obtain ⟨hrec, hdone, hsame⟩ := v.testNoted_onlyRecorded kind b n pass (held := none) (.inr rfl)
    have hstate : v.unitState ⟨kind, b, n⟩ = (s.placeTested kind b n pass none).unitState ⟨kind, b, n⟩ := by
      rcases hkind with rfl | rfl
      · exact congrArg (fld · 20 4) (h5 (.mxeSt b n))
      · exact congrArg (fld · 20 4) (h5 (.vxeSt b n))
    refine ⟨_, heq, h4.trans hsame, hdone.trans h3, ?_, by rw [hrec.unitRec, h1], by rw [hrec.unitRec, h2]⟩
    exact (hrec.unitState _).trans (hstate.trans (s.placeTested_state hkind b n pass))
  · subst hkind
    have heq := State.infieldTestEnd_eq htesting hreply hret true us
    obtain ⟨h1, h2, h3, h4, h5⟩ := s.testEnded_shows .mxe b n true
    rw [hheld] at heq h5
    generalize s.testEnded .mxe b n true = v at *
    have hplace : s.placeTested .mxe b n true (some (f, k)) = s.setMxe b n f k 0 := by
      simp [State.placeTested, hat]
    rw [hplace] at h5
    obtain ⟨hst, -⟩ := s.setMxe_shows b n f k 0
    have hin := s.setMxe_slot b n hf hk 0
    obtain ⟨hc1, hc2⟩ := State.unitState_mxe_congr _ (h5 (.mxeSt b n))
    obtain ⟨hrec, -, hsame⟩ := v.testNoted_onlyRecorded .mxe b n true (held := some (f, k)) (.inl rfl)
    exact ⟨_, heq, h4.trans hsame, (hrec.unitState _).trans (hc1.trans hst), (hrec.slotOf b n).trans (hc2.trans hin),
      by rw [hrec.unitRec, h1]⟩

end Sys2Proof.Machine
end

section
set_option Elab.async false -- the whole text is compiled in one process, within a fixed memory
/-! SUPPORT. What Rosog does about a fault event: units retired, slots substituted, basins retired (R270–R278, R384). -/
namespace Sys2Proof.Machine

/-- From `s` to `t` registers, the cistern and what is due of units and basins alone have changed. -/
def State.OnlyUnits (s t : State) : Prop :=
  { t with regs := s.regs, fresh := s.fresh, cistern := s.cistern, retiring := s.retiring } = s

theorem State.OnlyUnits.refl (s : State) : s.OnlyUnits s := rfl

theorem State.OnlyUnits.trans {s t u : State} (h : s.OnlyUnits t) (k : t.OnlyUnits u) : s.OnlyUnits u := by
  refine Eq.trans ?_ h
  exact congrArg (fun v : State => { v with
    regs := s.regs, fresh := s.fresh, cistern := s.cistern, retiring := s.retiring }) k

section
variable {s t : State} (h : s.OnlyUnits t)
include h

theorem State.OnlyUnits.events : t.events = s.events := (congrArg State.events h :)

theorem State.OnlyUnits.substs : t.substs = s.substs := (congrArg State.substs h :)

theorem State.OnlyUnits.atRest (hs : s.AtRest) : t.AtRest := by
  have hf : t.flights = s.flights := (congrArg State.flights h :)
  intro f hin
  exact hs f (hf ▸ hin)

theorem State.OnlyUnits.same : s.SameStores t :=
  ⟨(congrArg State.mem h :), (congrArg State.memChk h :), (congrArg State.desc h :), (congrArg State.gauge h :),
    (congrArg State.stack h :)⟩

end

section
variable (s : State)

theorem State.cistern_onlyUnits (c : Cistern) : s.OnlyUnits { s with cistern := c } := rfl

theorem State.record_onlyUnits (e : Event) (severity action : Nat) (threshold added : Bool) :
    s.OnlyUnits (s.record e severity action threshold added) := by
  have hlog : s.OnlyUnits s.logEvent := by
    simp only [State.logEvent]
    split <;> rfl
  exact hlog.trans (State.cistern_onlyUnits _ _)

theorem State.checkPending_onlyUnits (b : Nat) (kind : UnitKind) (u : Nat) : s.OnlyUnits (s.checkPending b kind u) := by
  unfold State.checkPending State.setPending
  split
  · split
    · rfl
    · have hkeep : s.OnlyUnits ({ s with retiring := s.retiring ++ [b] }.keepBasin b false) := rfl
      exact hkeep.trans (State.record_onlyUnits _ _ _ _ _ _)
  · rfl

theorem State.setUnit_onlyUnits (u : UnitRef) (v : Nat) : s.OnlyUnits (s.setUnit u v) := by
  unfold State.setUnit
  split <;> rfl

/-! ### Engines retired (R272, R273) -/

section
variable {s : State} {b u : Nat} {k : UnitKind} (hret : (s.unitRec k b u).retired = false) (htest : (s.unitRec k b u).testing = false)

/-- A record marked. -/
theorem State.markRetired_shows (s : State) (k : UnitKind) (b u : Nat) : ((s.markRetired k b u).unitRec k b u).retired = true ∧
    s.OnlyUnits (s.markRetired k b u) ∧ ∀ r, (s.markRetired k b u).reg r = s.reg r := by
  obtain ⟨h1, h2, h3⟩ := s.unitRec_names k b u
  have hput := s.unitRec_put (r := { s.unitRec k b u with retired := true, due := none }) h1 h2 h3
  exact ⟨congrArg UnitRec.retired hput, rfl, fun _ => rfl⟩

include hret htest

/-- An MXE out of its slots is retired at once. -/
theorem State.retireMxe_free (hk : k = .mxe) (hslot : s.slotOf b u = none) : (s.retireMxe b u).unitState ⟨.mxe, b, u⟩ = 5 ∧
    ((s.retireMxe b u).unitRec .mxe b u).retired = true ∧ s.OnlyUnits (s.retireMxe b u) := by
  subst hk
  have heq : s.retireMxe b u = ((s.markRetired .mxe b u).setMxe b u 0xFF 0xFF 5).recordAction .mxe b u clsRetired 4 := by
    have hslot' : (s.markRetired .mxe b u).slotOf b u = none := hslot
    unfold State.retireMxe
    rw [hret, if_neg (by decide)]
    dsimp only
    rw [htest, if_neg (by decide), hslot']
  obtain ⟨hmark, honly, -⟩ := s.markRetired_shows .mxe b u
  rw [heq]
  generalize s.markRetired .mxe b u = v at *
  obtain ⟨hst, -⟩ := v.setMxe_shows b u 0xFF 0xFF 5
  have honly' : s.OnlyUnits (v.setMxe b u 0xFF 0xFF 5) := honly.trans rfl
  have hrec : ((v.setMxe b u 0xFF 0xFF 5).unitRec .mxe b u).retired = true := hmark
  generalize v.setMxe b u 0xFF 0xFF 5 = w at *
  have hw := w.recordAction_onlyRecorded .mxe b u clsRetired 4 false 0
  exact ⟨(hw.unitState _).trans hst, by rw [hw.unitRec]; exact hrec, honly'.trans (w.record_onlyUnits _ _ _ _ _)⟩

/-- An idle unit of another kind is retired at once. -/
theorem State.retireUnit_idle (hk : k = .vxe ∨ k = .screen ∨ k = .flume) (hidle : s.unitState ⟨k, b, u⟩ = 0) :
    (s.retireUnit k b u).unitState ⟨k, b, u⟩ = 5 ∧ ((s.retireUnit k b u).unitRec k b u).retired = true ∧
      s.OnlyUnits (s.retireUnit k b u) := by
  have heq : s.retireUnit k b u =
      (((s.markRetired k b u).setUnit ⟨k, b, u⟩ 5).recordAction k b u clsRetired 4).checkPending b k u := by
    have hidle' : (s.markRetired k b u).unitState ⟨k, b, u⟩ = 0 := by
      rcases hk with rfl | rfl | rfl <;> exact hidle
    unfold State.retireUnit
    rw [hret, if_neg (by decide)]
    dsimp only
    rw [htest, if_neg (by decide), if_pos hidle']
  obtain ⟨hmark, honly, -⟩ := s.markRetired_shows k b u
  rw [heq]
  generalize s.markRetired k b u = v at *
  obtain ⟨hst, hcis⟩ := v.setUnit_shows (k := k) (.inr hk) b u (v := 5) (by decide)
  have honly' : s.OnlyUnits (v.setUnit ⟨k, b, u⟩ 5) := honly.trans (v.setUnit_onlyUnits _ _)
  have hrec : ((v.setUnit ⟨k, b, u⟩ 5).unitRec k b u).retired = true := by
    rw [State.unitRec_of_units (congrArg Cistern.units hcis)]
    exact hmark
  generalize v.setUnit ⟨k, b, u⟩ 5 = w at *
  have hw := (w.recordAction_onlyRecorded k b u clsRetired 4 false 0).trans (State.checkPending_onlyRecorded _ b k u)
  exact ⟨(hw.unitState _).trans hst, by rw [hw.unitRec]; exact hrec,
    (honly'.trans (w.record_onlyUnits _ _ _ _ _)).trans (State.checkPending_onlyUnits _ b k u)⟩

end

/-! ### The oldest event (R250, R271) -/

section
variable {s : State} {e : Event} {rest : List Event} (hev : s.events = e :: rest) (hserve : s.eventsServed = true)
include hev hserve

theorem State.faultEvent_eq : exec .faultEvent s = .next (({ s with events := rest } : State).handleEvent e).runReady := by
  have hexec : execFaultEvent s = .next (({ s with events := rest } : State).handleEvent e).runReady := by
    unfold execFaultEvent
    rw [hev]
    dsimp only
    rw [hserve]
    rfl
  exact hexec

/-- Where Rosog only records it or acts on units, no packet at work is woken. -/
theorem State.faultEvent_acts (hrest : s.AtRest) (h : ({ s with events := rest } : State).OnlyUnits (({ s with events := rest } : State).handleEvent e)) :
    exec .faultEvent s = .next (({ s with events := rest } : State).handleEvent e) := by
  rw [State.faultEvent_eq hev hserve, State.runReady_of_atRest (h.atRest hrest)]

end

/-- An event added to its unit's history. -/
theorem State.addEvent_shows (s : State) (e : Event) : s.OnlyUnits (s.addEvent e) ∧ (∀ r, (s.addEvent e).reg r = s.reg r) ∧
    (s.addEvent e).cistern.nextId = s.cistern.nextId ∧
    ((s.addEvent e).unitRec e.kind e.basin e.unit).retired = (s.unitRec e.kind e.basin e.unit).retired ∧
    ((s.addEvent e).unitRec e.kind e.basin e.unit).testing = (s.unitRec e.kind e.basin e.unit).testing := by
  obtain ⟨h1, h2, h3⟩ := s.unitRec_names e.kind e.basin e.unit
  have hput := s.unitRec_put (r := { s.unitRec e.kind e.basin e.unit with
    events := (s.inWindow (s.unitRec e.kind e.basin e.unit)) ++ [⟨s.serviceNow, e.cls, e.verdict, e.loc, e.bit, e.lap, false⟩]
    named := e.names <|> (s.unitRec e.kind e.basin e.unit).named }) h1 h2 h3
  exact ⟨rfl, fun _ => rfl, rfl, (congrArg UnitRec.retired hput :), (congrArg UnitRec.testing hput :)⟩

/-- An engine's event that makes nothing permanent. -/
theorem State.engineEvent_eq (s : State) {e : Event} (hv : e.verdict ≠ .unclassified) : s.engineEvent e =
    if !(s.addEvent e).permanentUnit ((s.addEvent e).unitRec e.kind e.basin e.unit) then (s.addEvent e).recordEvent e 0 false
    else if e.kind = .mxe then (((s.addEvent e).recordEvent e 0 true).retireMxe e.basin e.unit).checkPending e.basin .mxe e.unit
    else ((s.addEvent e).recordEvent e 0 true).retireUnit e.kind e.basin e.unit := by
  unfold State.engineEvent
  rw [if_neg hv]
  dsimp only
  generalize s.addEvent e = v
  generalize v.permanentUnit (v.unitRec e.kind e.basin e.unit) = bad
  cases bad with
  | false => rw [if_pos (by rfl), if_pos (by rfl)]
  | true => rw [if_neg (show ¬ (!true) = true by decide), if_neg (show ¬ (!true) = true by decide)]

end

/-! ### Substitutions (R273) -/

/-- The unit that leaves its slot. -/
def State.substituted (s : State) (x : Subst) (b f k n : Nat) : State :=
  match s.freeMxe b with
  | some v =>
    let s := s.takeSlot b f k n v 5
    { s with bit7Due := if x.bit7 then s.bit7Due ++ [(b, f, k)] else s.bit7Due }
  | none => (s.setMxe b n 0xFF 0xFF 5).checkPending b .mxe n

theorem State.spareSubstitution_eq {s : State} {b f k n : Nat} {x : Subst}
    (hx : s.substs.find? (fun x => x.basin = b ∧ x.furrow = f ∧ x.slot = k) = some x) (hat : s.mxeAt b f k = some n)
    (hidle : s.unitState ⟨.mxe, b, n⟩ = 0) : exec (.spareSubstitution b f k) s =
      .next (({ s with substs := s.substs.filter (· ≠ x) } : State).substituted x b f k n) := by
  have hexec : execSpareSubstitution b f k s =
      .next (({ s with substs := s.substs.filter (· ≠ x) } : State).substituted x b f k n) := by
    unfold execSpareSubstitution State.substituted
    rw [hx]
    dsimp only
    rw [hat]
    dsimp only
    have hstate : ¬ s.unitState ⟨.mxe, b, n⟩ ≠ 0 := by simp [hidle]
    rw [if_neg hstate]
    generalize ({ s with substs := s.substs.filter (· ≠ x) } : State) = t
    cases t.freeMxe b <;> rfl
  exact hexec

theorem State.mxeAt_shows {s : State} {b f k n : Nat} (h : s.mxeAt b f k = some n) :
    s.rfld (.mxeSt b n) 32 8 = f ∧ s.rfld (.mxeSt b n) 24 8 = k := by
  simpa using List.find?_some h

/-- A spare takes the slot of a unit, whatever the slot is. -/
theorem State.takeSlot_fields (s : State) (b : Nat) {f k : Nat} (hf : f < 256) (hk : k < 256) {u v : Nat} (hne : v ≠ u) {st : Nat} (hst : st < 16) :
    (s.takeSlot b f k u v st).unitState ⟨.mxe, b, u⟩ = st ∧ (s.takeSlot b f k u v st).rfld (.mxeSt b u) 32 8 = 0xFF ∧
      (s.takeSlot b f k u v st).rfld (.mxeSt b v) 32 8 = f ∧ (s.takeSlot b f k u v st).rfld (.mxeSt b v) 24 8 = k ∧
      (s.takeSlot b f k u v st).unitState ⟨.mxe, b, v⟩ = 0 ∧ (s.takeSlot b f k u v st).reg (.mxePred b v) = 0 ∧
      (s.takeSlot b f k u v st).reg (.mxePredMap b v) = 0 := by
  obtain ⟨hst0, h32, h24, -⟩ := s.setMxe_shows b v f k 0
  unfold State.takeSlot
  dsimp only
  generalize s.setMxe b v f k 0 = w at *
  obtain ⟨hst', h32', -, hother⟩ := w.setMxe_shows b u 0xFF 0xFF st
  generalize w.setMxe b u 0xFF 0xFF st = y at *
  have hv := hother (.mxeSt b v) (by simpa using hne)
  have hreg (x : Nat) : ((y.putReg (.mxePred b v) 0).putReg (.mxePredMap b v) 0).reg (.mxeSt b x) = y.reg (.mxeSt b x) :=
    (State.reg_putReg_ne _ (by simp) _).trans (y.reg_putReg_ne (by simp) _)
  have hpred : ((y.putReg (.mxePred b v) 0).putReg (.mxePredMap b v) 0).reg (.mxePred b v) = 0 :=
    (State.reg_putReg_ne _ (by simp) _).trans (y.reg_putReg_self _ _)
  have hmap : ((y.putReg (.mxePred b v) 0).putReg (.mxePredMap b v) 0).reg (.mxePredMap b v) = 0 := State.reg_putReg_self _ _ _
  generalize (y.putReg (.mxePred b v) 0).putReg (.mxePredMap b v) 0 = z at *
  have hzv := (hreg v).trans hv
  exact ⟨(congrArg (fld · 20 4) (hreg u)).trans (hst'.trans (Nat.mod_eq_of_lt hst)), (congrArg (fld · 32 8) (hreg u)).trans h32',
    (congrArg (fld · 32 8) hzv).trans (h32.trans (Nat.mod_eq_of_lt hf)), (congrArg (fld · 24 8) hzv).trans (h24.trans (Nat.mod_eq_of_lt hk)),
    (congrArg (fld · 20 4) hzv).trans hst0, hpred, hmap⟩

theorem State.setMxe_onlyRegs (s : State) (b u furrow slot st : Nat) : s.OnlyRegs (s.setMxe b u furrow slot st) :=
  ((s.putFld_onlyRegs _ _ _ _).trans (State.putFld_onlyRegs _ _ _ _ _)).trans (State.putFld_onlyRegs _ _ _ _ _)

theorem State.takeSlot_onlyRegs (s : State) (b f k u v st : Nat) : s.OnlyRegs (s.takeSlot b f k u v st) := by
  have hput (t : State) : t.OnlyRegs ((t.putReg (.mxePred b v) 0).putReg (.mxePredMap b v) 0) := rfl
  exact ((s.setMxe_onlyRegs b v f k 0).trans (State.setMxe_onlyRegs _ b u 0xFF 0xFF st)).trans (hput _)

/-- What a substitution is to leave (R273). -/
structure State.Substituted (s t : State) (x : Subst) (b f k n : Nat) : Prop where
  substs : t.substs = s.substs
  left : t.unitState ⟨.mxe, b, n⟩ = 5
  furrow : t.rfld (.mxeSt b n) 32 8 = 0xFF
  same : s.SameStores t
  taken : ∀ v, s.freeMxe b = some v → t.rfld (.mxeSt b v) 32 8 = f ∧ t.rfld (.mxeSt b v) 24 8 = k ∧
    t.unitState ⟨.mxe, b, v⟩ = 0 ∧ t.reg (.mxePred b v) = 0 ∧ t.reg (.mxePredMap b v) = 0 ∧ (x.bit7 = true → (b, f, k) ∈ t.bit7Due)

/-- Only what is due changes beside. -/
theorem State.Substituted.due {s t : State} {x : Subst} {b f k n : Nat} (h : s.Substituted t { x with bit7 := false } b f k n)
    {l : List (Nat × Nat × Nat)} (hl : x.bit7 = true → (b, f, k) ∈ l) : s.Substituted { t with bit7Due := l } x b f k n := by
  obtain ⟨h1, h2, h3, h4, h5⟩ := h
  refine ⟨h1, h2, h3, h4, fun v hv => ?_⟩
  obtain ⟨g1, g2, g3, g4, g5, -⟩ := h5 v hv
  exact ⟨g1, g2, g3, g4, g5, hl⟩

/-- A spare takes the slot. -/
theorem State.takeSlot_substituted {s : State} {b f k n v : Nat} (hf : f < 256) (hk : k < 256) (hidle : s.unitState ⟨.mxe, b, n⟩ = 0)
    (x : Subst) (hv : s.freeMxe b = some v) : s.Substituted (s.takeSlot b f k n v 5) { x with bit7 := false } b f k n := by
  have hne : v ≠ n := by
    rintro rfl
    have := s.freeMxe_state hv
    omega
  obtain ⟨h1, h2, h3, h4, h5, h6, h7⟩ := s.takeSlot_fields b hf hk hne (st := 5) (by decide)
  have honly := s.takeSlot_onlyRegs b f k n v 5
  refine ⟨(congrArg State.substs honly :), h1, h2, honly.same, fun v' hv' => ?_⟩
  obtain rfl : v = v' := Option.some.inj (hv.symm.trans hv')
  exact ⟨h3, h4, h5, h6, h7, fun h => absurd h (by simp)⟩

/-- With no spare the slot is folded. -/
theorem State.foldSlot_substituted {s : State} {b : Nat} (f k n : Nat) (x : Subst) (hnone : s.freeMxe b = none) :
    s.Substituted ((s.setMxe b n 0xFF 0xFF 5).checkPending b .mxe n) x b f k n := by
  obtain ⟨h1, h2, -⟩ := s.setMxe_shows b n 0xFF 0xFF 5
  have honly := s.setMxe_onlyRegs b n 0xFF 0xFF 5
  generalize s.setMxe b n 0xFF 0xFF 5 = w at *
  have hrec := w.checkPending_onlyRecorded b .mxe n
  have hw := w.checkPending_onlyUnits b .mxe n
  exact ⟨hw.substs.trans (congrArg State.substs honly :), (hrec.unitState _).trans h1,
    (congrArg (fld · 32 8) (hrec.2 (.mxeSt b n) (by simp))).trans h2, honly.same.trans hw.same,
    fun v hv => absurd (hnone.symm.trans hv) (by simp)⟩

theorem State.substituted_shows {s : State} {b f k n : Nat} (hf : f < 256) (hk : k < 256) (hidle : s.unitState ⟨.mxe, b, n⟩ = 0) (x : Subst) :
    s.Substituted (s.substituted x b f k n) x b f k n := by
  unfold State.substituted
  split
  · next v hv => exact (State.takeSlot_substituted hf hk hidle x hv).due fun h => by simp [h]
  · next hnone => exact State.foldSlot_substituted f k n x hnone

/-! ### Basins retired (R277, R278) -/

/-- No ring is homed in the basin: none moves. -/
theorem State.moveRings_none {s : State} {b : Nat} (h : ∀ r, r < 9 → s.ringState r ≠ 0 → s.rfld (.ringCmd r) 48 8 ≠ b) :
    s.moveRings b = s :=
  foldl_eq_self fun r hr => if_neg fun hc => h r (List.mem_range.1 hr) hc.1 hc.2

/-- A basin is out of the site. -/
def State.basinGone (s : State) (b : Nat) : State :=
  ((s.dropBasin b).putReg .devBasinLive (setBit (s.reg .devBasinLive) b false)).putReg (.pwrBasinSt b) 0

theorem State.basinGone_shows {s : State} {b : Nat} (hb : b < 64) : (s.basinGone b).live b = false ∧
    (∀ b', b' ≠ b → (s.basinGone b).live b' = s.live b') ∧ b ∉ (s.basinGone b).retiring ∧ s.SameStores (s.basinGone b) ∧
    (s.basinGone b).fillRes = s.fillRes ∧ ∀ r : Reg, r ≠ .devBasinLive → r ≠ .pwrBasinSt b → (s.basinGone b).reg r = s.reg r := by
  have hlive : (s.basinGone b).reg .devBasinLive = setBit (s.reg .devBasinLive) b false :=
    (State.reg_putReg_ne _ (by simp) _).trans ((s.dropBasin b).reg_putReg_self _ _)
  refine ⟨?_, fun b' hne => ?_, by simp [State.basinGone, State.dropBasin], ⟨rfl, rfl, rfl, rfl, rfl⟩, rfl, fun r h1 h2 => ?_⟩
  · exact (congrArg (bit · b) hlive).trans (bit_of_setFld _ hb false)
  · exact (congrArg (bit · b') hlive).trans (bit_setFld_ne _ _ _ _ _ (by omega))
  · exact (State.reg_putReg_ne _ h2 _).trans ((s.dropBasin b).reg_putReg_ne h1 _)

/-- A basin's fill commanded. -/
theorem State.startFill_shows (s : State) (b : Nat) (areas : List (Nat × Nat)) (n : Nat) :
    s.FillAhead ((s.startFill b areas n).bump (.bsnArbSt b) 16 16) b n areas ∧
      s.SameStores ((s.startFill b areas n).bump (.bsnArbSt b) 16 16) ∧
      ∀ r : Reg, r ≠ .bsnArbSt b → ((s.startFill b areas n).bump (.bsnArbSt b) 16 16).reg r = s.reg r := by
  have honly := (s.startFill b areas n).bump_onlyRegs (.bsnArbSt b) 16 16 1
  have hfill : s.FillAhead (s.startFill b areas n) b n areas := fun k hk => by simp [State.startFill, hk]
  have hres : ((s.startFill b areas n).bump (.bsnArbSt b) 16 16).fillRes = (s.startFill b areas n).fillRes := (congrArg State.fillRes honly :)
  refine ⟨fun k hk => hres ▸ hfill k hk, State.SameStores.trans ⟨rfl, rfl, rfl, rfl, rfl⟩ honly.same, fun r hr => ?_⟩
  exact (State.reg_bump_ne (s.startFill b areas n) hr 16 16 1)

/-- A retired basin's fill is commanded, and the basin is out of the site. -/
theorem State.retireBasin_shows {s : State} {b : Nat} (hb : b < 64) (failed : Bool) :
    (s.retireBasin b failed).live b = false ∧ (∀ b', b' ≠ b → (s.retireBasin b failed).live b' = s.live b') ∧
      b ∉ (s.retireBasin b failed).retiring ∧ s.SameStores (s.retireBasin b failed) ∧
      s.FillAhead (s.retireBasin b failed) b (cdiv (s.cfg.basinBytes / 64) s.cfg.banks + 1) [(0, s.cfg.basinBytes / 64)] ∧
      (∀ c, (s.retireBasin b failed).tdisp c = s.tdisp c) := by
  have heq : s.retireBasin b failed = ((((s.startFill b [(0, s.cfg.basinBytes / 64)] (cdiv (s.cfg.basinBytes / 64) s.cfg.banks + 1)).bump
    (.bsnArbSt b) 16 16).basinGone b).recompute).recordAction .site 0xFFFF b clsBasin 7 failed := rfl
  obtain ⟨hfill, hsame, hreg⟩ := s.startFill_shows b [(0, s.cfg.basinBytes / 64)] (cdiv (s.cfg.basinBytes / 64) s.cfg.banks + 1)
  rw [heq]
  generalize (s.startFill b [(0, s.cfg.basinBytes / 64)] (cdiv (s.cfg.basinBytes / 64) s.cfg.banks + 1)).bump (.bsnArbSt b) 16 16 = v at *
  obtain ⟨h1, h2, h3, h4, h5, h6⟩ := v.basinGone_shows hb
  generalize v.basinGone b = w at *
  obtain ⟨hw, hwreg⟩ := w.recompute_rights
  generalize w.recompute = y at *
  have hrec := y.recordAction_onlyRecorded .site 0xFFFF b clsBasin 7 failed 0
  have honly : y.OnlyUnits (y.recordAction .site 0xFFFF b clsBasin 7 failed) := y.record_onlyUnits _ _ _ _ _
  have hret : (y.recordAction .site 0xFFFF b clsBasin 7 failed).retiring = y.retiring := by
    have hlog : y.logEvent.retiring = y.retiring := (congrArg State.retiring y.logEvent_rest :)
    exact hlog
  have hall {r : Reg} (hr : ∀ b', r ≠ .bsnArbSt b' ∧ r ≠ .pwrBasinSt b' ∧ (∀ k, r ≠ .trnLatCfg b' k)) (h1 : r ≠ .clkEventSeq) :
      (y.recordAction .site 0xFFFF b clsBasin 7 failed).reg r = w.reg r :=
    (hrec.2 r h1).trans (hwreg r fun b' k => (hr b').2.2 k)
  have hlive (b' : Nat) : (y.recordAction .site 0xFFFF b clsBasin 7 failed).live b' = w.live b' :=
    congrArg (bit · b') (hall (r := .devBasinLive) (by simp) (by simp))
  have hvlive (b' : Nat) : v.live b' = s.live b' := congrArg (bit · b') (hreg .devBasinLive (by simp))
  have hfill' : (y.recordAction .site 0xFFFF b clsBasin 7 failed).fillRes = v.fillRes :=
    ((congrArg State.fillRes honly :)).trans ((congrArg State.fillRes hw :).trans h5)
  refine ⟨(hlive b).trans h1, fun b' hb' => (hlive b').trans ((h2 b' hb').trans (hvlive b')), ?_, ?_, fun k hk => hfill' ▸ hfill k hk, fun c => ?_⟩
  · rw [hret, (congrArg State.retiring hw :)]
    exact h3
  · exact (hsame.trans h4).trans (State.SameStores.trans ⟨(congrArg State.mem hw :), (congrArg State.memChk hw :), (congrArg State.desc hw :),
      (congrArg State.gauge hw :), (congrArg State.stack hw :)⟩ honly.same)
  · exact congrArg (fld · 4 4) ((hall (r := .secCtxSt c) (by simp) (by simp)).trans ((h6 _ (by simp) (by simp)).trans (hreg _ (by simp))))

/-- A retirement at once leaves what stands of a basin's packets. -/
theorem State.standing_endBasin {s : State} (hf : s.flights = []) (b : Nat) : (s.endBasin b).standing = s.standing := by
  unfold State.endBasin State.endFlights
  rw [hf]
  simp [State.standing_finishHanded]

/-- A locked interface enters `ERROR` (R384). -/
theorem State.tdispError_tdisp (s : State) (c : Nat) :
    (∀ c', c' ≠ c → (s.tdispError c).tdisp c' = s.tdisp c') ∧
      (s.tdisp c = 1 ∨ s.tdisp c = 2 ∨ s.tdisp c = 3 → (s.tdispError c).tdisp c = 3) := by
  unfold State.tdispError
  split
  · have hst := (s.setTdisp c tdispErr).standing_faultContext c
    have hreg (c' : Nat) : ((s.setTdisp c tdispErr).faultContext c).tdisp c' = (s.setTdisp c tdispErr).tdisp c' :=
      congrArg (fld · 4 4) (State.reg_of_standing hst (r := .secCtxSt c') rfl)
    refine ⟨fun c' hc => (hreg c').trans ?_, fun _ => (hreg c).trans (s.tdisp_setTdisp c (by decide))⟩
    exact congrArg (fld · 4 4) (s.reg_putFld_ne (r := .secCtxSt c) (r' := .secCtxSt c') (by simpa using hc) 4 4 tdispErr)
  · next h =>
    refine ⟨fun _ _ => rfl, fun h3 => ?_⟩
    simp only [tdispLocked, tdispRun] at h
    omega

/-- The interfaces of a list that are locked or run enter `ERROR`. -/
theorem State.tdispErrors {l : List Nat} {c : Nat} (hc : c ∈ l) (s : State) (h : s.tdisp c = 1 ∨ s.tdisp c = 2) :
    (l.foldl State.tdispError s).tdisp c = 3 := by
  refine foldl_of_mem (Q := fun t : State => t.tdisp c = 1 ∨ t.tdisp c = 2 ∨ t.tdisp c = 3) (P := fun t => t.tdisp c = 3)
    (fun t c' ht => ?_) (fun t c' _ ht => ?_) (fun t ht => (t.tdispError_tdisp c).2 ht) hc s (by tauto)
  · by_cases hcc : c' = c
    · exact .inr (.inr (hcc ▸ (t.tdispError_tdisp c').2 (hcc ▸ ht)))
    · rw [(t.tdispError_tdisp c').1 c (Ne.symm hcc)]
      exact ht
  · by_cases hcc : c' = c
    · exact hcc ▸ (t.tdispError_tdisp c').2 (.inr (.inr (hcc ▸ ht)))
    · rw [(t.tdispError_tdisp c').1 c (Ne.symm hcc)]
      exact ht

/-- The fill and the live basins outlast the faults of contexts. -/
theorem State.tdispErrors_keeps (l : List Nat) (s : State) : (l.foldl State.tdispError s).fillRes = s.fillRes ∧
    ∀ b, (l.foldl State.tdispError s).live b = s.live b := by
  refine foldl_keeps (fun t : State => t.fillRes = s.fillRes ∧ ∀ b, t.live b = s.live b) State.tdispError (fun t c ht => ?_) l s
    ⟨rfl, fun _ => rfl⟩
  unfold State.tdispError
  split
  · have hst := (t.setTdisp c tdispErr).standing_faultContext c
    refine ⟨(congrArg Standing.fillRes hst).trans ht.1, fun b => ?_⟩
    have hlive : (t.setTdisp c tdispErr).reg .devBasinLive = t.reg .devBasinLive := t.reg_putFld_ne (by simp) 4 4 tdispErr
    exact (congrArg (bit · b) ((State.reg_of_standing hst rfl).trans hlive)).trans (ht.2 b)
  · exact ht

/-- A retirement that nothing holds up any more. -/
theorem State.basinRetireComplete_eq {s : State} {b : Nat} (hin : b ∈ s.retiring) (hlive : s.live b = true) (hfree : s.holdsAny b = false)
    (hhome : ∀ r, r < 9 → s.ringState r ≠ 0 → s.rfld (.ringCmd r) 48 8 ≠ b) :
    exec (.basinRetireComplete b) s = .next ((s.retireBasin b false).keepBasin b true) := by
  have hexec : execBasinRetireComplete b s = .next ((s.retireBasin b false).keepBasin b true) := by
    unfold execBasinRetireComplete
    rw [if_pos ⟨by simpa using hin, hlive, by simp [hfree]⟩, State.moveRings_none hhome]
    rfl
  exact hexec

/-- The contexts whose mask holds a basin. -/
def State.held (s : State) (b : Nat) : List Nat := (List.range 8).filter fun c => s.resident c && bit (s.ctx c).mask b

/-- A retirement at once. -/
theorem State.basinRetireImmediate_eq {s : State} {b : Nat} (hb : b < s.cfg.basins) (hlive : s.live b = true)
    (hhome : ∀ r, r < 9 → s.ringState r ≠ 0 → s.rfld (.ringCmd r) 48 8 ≠ b) (fillOk : Bool) :
    exec (.basinRetireImmediate b fillOk) s = .next (if fillOk then ((s.held b).foldl State.tdispError ((s.endBasin b).retireBasin b true)).runReady
      else ((s.held b).foldl State.tdispError ((s.endBasin b).retireBasin b true)).enterFallow 7 false) := by
  have hexec : execBasinRetireImmediate b fillOk s =
      .next (if fillOk then ((s.held b).foldl State.tdispError ((s.endBasin b).retireBasin b true)).runReady
        else ((s.held b).foldl State.tdispError ((s.endBasin b).retireBasin b true)).enterFallow 7 false) := by
    unfold execBasinRetireImmediate
    rw [if_neg (by simp [hlive, hb]), State.moveRings_none hhome]
    rfl
  exact hexec

/-! ### An engine's event (R271–R273) -/

section
variable {t : State} {e : Event} (hkind : e.kind = .mxe ∨ e.kind = .vxe ∨ e.kind = .screen ∨ e.kind = .flume)
  (hver : e.verdict ≠ .unclassified)
include hkind hver

theorem State.handleEvent_engine : t.handleEvent e =
    if !(t.addEvent e).permanentUnit ((t.addEvent e).unitRec e.kind e.basin e.unit) then (t.addEvent e).recordEvent e 0 false
    else if e.kind = .mxe then (((t.addEvent e).recordEvent e 0 true).retireMxe e.basin e.unit).checkPending e.basin .mxe e.unit
    else ((t.addEvent e).recordEvent e 0 true).retireUnit e.kind e.basin e.unit := by
  rw [← State.engineEvent_eq t hver]
  unfold State.handleEvent
  rcases hkind with h | h | h | h <;> rw [h]

/-- One that makes nothing permanent is counted. -/
theorem State.handleEvent_counts (hbad : (t.addEvent e).permanentUnit ((t.addEvent e).unitRec e.kind e.basin e.unit) = false) :
    t.OnlyUnits (t.handleEvent e) ∧ (t.handleEvent e).cistern.units = (t.addEvent e).cistern.units ∧
      (t.handleEvent e).cistern.nextId = t.cistern.nextId + 1 := by
  obtain ⟨honly, -, hnext, -⟩ := t.addEvent_shows e
  rw [State.handleEvent_engine hkind hver, hbad, if_pos (by rfl)]
  generalize t.addEvent e = v at *
  exact ⟨honly.trans (v.record_onlyUnits _ _ _ _ _), (v.record_onlyRecorded _ _ _ _ _).1,
    (v.record_nextId _ _ _ _ _).trans (congrArg (· + 1) hnext)⟩

section
variable (hbad : (t.addEvent e).permanentUnit ((t.addEvent e).unitRec e.kind e.basin e.unit) = true)
  (hret : (t.unitRec e.kind e.basin e.unit).retired = false) (htest : (t.unitRec e.kind e.basin e.unit).testing = false)
include hbad hret htest

/-- One that makes an MXE permanent retires it, out of its slots. -/
theorem State.handleEvent_retiresMxe (hk : e.kind = .mxe) (hslot : t.slotOf e.basin e.unit = none) :
    t.OnlyUnits (t.handleEvent e) ∧ (t.handleEvent e).unitState ⟨.mxe, e.basin, e.unit⟩ = 5 ∧
      ((t.handleEvent e).unitRec .mxe e.basin e.unit).retired = true := by
  obtain ⟨honly, hreg, -, hr, ht⟩ := t.addEvent_shows e
  rw [State.handleEvent_engine hkind hver, hbad, if_neg (show ¬ (!true) = true by decide), if_pos hk]
  rw [hret] at hr
  rw [htest] at ht
  rw [hk] at hr ht
  generalize t.addEvent e = v at *
  have hrec : v.OnlyRecorded (v.recordEvent e 0 true) := v.record_onlyRecorded _ _ _ _ _
  have hun : v.OnlyUnits (v.recordEvent e 0 true) := v.record_onlyUnits _ _ _ _ _
  generalize v.recordEvent e 0 true = w at *
  have hslot' : w.slotOf e.basin e.unit = none :=
    (hrec.slotOf _ _).trans ((congrArg slotIn (hreg (.mxeSt e.basin e.unit))).trans hslot)
  obtain ⟨h1, h2, h3⟩ := State.retireMxe_free (k := .mxe) (by rw [hrec.unitRec]; exact hr) (by rw [hrec.unitRec]; exact ht) rfl hslot'
  generalize w.retireMxe e.basin e.unit = y at *
  have hc := y.checkPending_onlyRecorded e.basin .mxe e.unit
  exact ⟨((honly.trans hun).trans h3).trans (y.checkPending_onlyUnits _ _ _), (hc.unitState _).trans h1, by rw [hc.unitRec]; exact h2⟩

/-- One that makes another unit permanent retires it, idle. -/
theorem State.handleEvent_retires (hk : e.kind ≠ .mxe) (hidle : t.unitState ⟨e.kind, e.basin, e.unit⟩ = 0) :
    t.OnlyUnits (t.handleEvent e) ∧ (t.handleEvent e).unitState ⟨e.kind, e.basin, e.unit⟩ = 5 ∧
      ((t.handleEvent e).unitRec e.kind e.basin e.unit).retired = true := by
  have hk' : e.kind = .vxe ∨ e.kind = .screen ∨ e.kind = .flume := hkind.resolve_left hk
  obtain ⟨honly, hreg, -, hr, ht⟩ := t.addEvent_shows e
  rw [State.handleEvent_engine hkind hver, hbad, if_neg (show ¬ (!true) = true by decide), if_neg hk]
  generalize t.addEvent e = v at *
  have hrec : v.OnlyRecorded (v.recordEvent e 0 true) := v.record_onlyRecorded _ _ _ _ _
  have hun : v.OnlyUnits (v.recordEvent e 0 true) := v.record_onlyUnits _ _ _ _ _
  generalize v.recordEvent e 0 true = w at *
  have hstate : v.unitState ⟨e.kind, e.basin, e.unit⟩ = t.unitState ⟨e.kind, e.basin, e.unit⟩ := by
    rcases hk' with h | h | h <;> rw [h] <;> exact congrArg (fld · 20 4) (hreg _)
  obtain ⟨h1, h2, h3⟩ := State.retireUnit_idle (by rw [hrec.unitRec, hr, hret]) (by rw [hrec.unitRec, ht, htest]) hk'
    ((hrec.unitState _).trans (hstate.trans hidle))
  exact ⟨(honly.trans hun).trans h3, h1, h2⟩

end
end

/-- Settles O47: an event changes units' records; a substitution a slot; a retirement takes the basin out and commands its fill. -/
theorem faultsActedOn : Obligations.FaultsActedOn := by
  intro s
  refine ⟨fun e rest hev hserve hrest => ⟨fun hkind => ?_, fun v hkind hver hv => ⟨fun hbad => ?_, fun hbad hk hret htest hslot => ?_,
    fun hbad hk hret htest hidle => ?_⟩⟩, fun b f k n x hx hat hidle => ?_, fun b hb hb64 hlive hhome => ⟨fun hin hfree => ?_,
    fun hf _ _ _ => ⟨?_, ?_⟩⟩⟩
  · have heq : ({ s with events := rest } : State).handleEvent e = ({ s with events := rest } : State).record e e.severity 0 false false := by
      unfold State.handleEvent
      rcases hkind with h | h | h <;> rw [h]
    have honly := ({ s with events := rest } : State).record_onlyUnits e e.severity 0 false false
    have hrec := ({ s with events := rest } : State).record_onlyRecorded e e.severity 0 false false
    refine ⟨_, State.faultEvent_acts hev hserve hrest (heq ▸ honly), ?_⟩
    rw [heq]
    exact ⟨honly.events, hrec.1, State.record_nextId _ _ _ _ _ _, State.SameStores.trans ⟨rfl, rfl, rfl, rfl, rfl⟩ honly.same⟩
  · subst hv
    obtain ⟨honly, hunits, hnext⟩ := State.handleEvent_counts hkind hver hbad
    exact ⟨_, State.faultEvent_acts hev hserve hrest honly, honly.events, hunits, hnext,
      State.SameStores.trans ⟨rfl, rfl, rfl, rfl, rfl⟩ honly.same⟩
  · subst hv
    obtain ⟨honly, hst, hretired⟩ := State.handleEvent_retiresMxe (t := { s with events := rest }) hkind hver hbad (hk.symm ▸ hret)
      (hk.symm ▸ htest) hk hslot
    exact ⟨_, State.faultEvent_acts hev hserve hrest honly, hst, hretired, State.SameStores.trans ⟨rfl, rfl, rfl, rfl, rfl⟩ honly.same⟩
  · subst hv
    obtain ⟨honly, hst, hretired⟩ := State.handleEvent_retires (t := { s with events := rest }) hkind hver hbad hret htest hk hidle
    exact ⟨_, State.faultEvent_acts hev hserve hrest honly, hst, hretired, State.SameStores.trans ⟨rfl, rfl, rfl, rfl, rfl⟩ honly.same⟩
  · obtain ⟨h32, h24⟩ := State.mxeAt_shows hat
    have hf : f < 2 ^ 8 := h32 ▸ Nat.mod_lt _ (by decide)
    have hk : k < 2 ^ 8 := h24 ▸ Nat.mod_lt _ (by decide)
    have hsub := State.substituted_shows (s := { s with substs := s.substs.filter (· ≠ x) }) hf hk hidle x
    refine ⟨_, State.spareSubstitution_eq hx hat hidle, ?_, hsub.left, hsub.furrow,
      State.SameStores.trans ⟨rfl, rfl, rfl, rfl, rfl⟩ hsub.same, hsub.taken⟩
    rw [hsub.substs]
    simp
  · obtain ⟨h1, h2, h3, h4, h5, -⟩ := s.retireBasin_shows hb64 false
    have heq := State.basinRetireComplete_eq hin hlive hfree hhome
    generalize s.retireBasin b false = v at *
    exact ⟨_, heq, h1, h2, h3, by simp [State.keepBasin], h4, h5⟩
  · have hend := State.standing_endBasin hf b
    obtain ⟨h1, h2, -, -, h5, h6⟩ := (s.endBasin b).retireBasin_shows hb64 true
    obtain ⟨hfill, hlives⟩ := State.tdispErrors_keeps (s.held b) ((s.endBasin b).retireBasin b true)
    have hready := ((s.held b).foldl State.tdispError ((s.endBasin b).retireBasin b true)).standing_runReady
    have hcfg : (s.endBasin b).cfg = s.cfg := State.cfg_of_standing hend
    have hcycle : (s.endBasin b).cycle = s.cycle := congrArg Standing.cycle hend
    refine ⟨_, State.basinRetireImmediate_eq hb hlive hhome true, ?_, ?_, fun c hc hres hmask ht => ?_⟩
    · exact (State.live_of_standing hready b).trans ((hlives b).trans h1)
    · intro k hk
      have hin := h5 k (by rw [hcfg]; exact hk)
      rw [hcfg, hcycle] at hin
      have hres : ((s.held b).foldl State.tdispError ((s.endBasin b).retireBasin b true)).runReady.fillRes =
          ((s.endBasin b).retireBasin b true).fillRes := (congrArg Standing.fillRes hready).trans hfill
      exact hres ▸ hin
    · have hreg : ((s.endBasin b).retireBasin b true).tdisp c = s.tdisp c :=
        (h6 c).trans (congrArg (fld · 4 4) (State.reg_of_standing hend (r := .secCtxSt c) rfl))
      have hheld : c ∈ s.held b := by simp [State.held, hc, hres, hmask]
      have h3 := State.tdispErrors hheld ((s.endBasin b).retireBasin b true) (by rw [hreg]; exact ht)
      exact (congrArg (fld · 4 4) (State.reg_of_standing hready (r := .secCtxSt c) rfl)).trans h3
  · exact ⟨_, State.basinRetireImmediate_eq hb hlive hhome false, (State.enterFallow_shows _ 7 false).1⟩

end Sys2Proof.Machine
end

section
set_option Elab.async false -- the whole text is compiled in one process, within a fixed memory
/-! SUPPORT. Intervals and checkers: the regulator, expired leases, the wait audit, hardened registers (R50, R180, R195–R197, R258). -/
namespace Sys2Proof.Machine

/-! ### Folds that touch each element once -/

/-- A fold whose step changes one entry alone, by `g`, changes the entries of a list without repeats by `g`. -/
theorem foldl_entry {σ : Type} {X : σ → Nat → Nat} {F : σ → Nat → σ} {g : Nat → Nat}
    (hF : ∀ s r r', X (F s r) r' = if r' = r then g (X s r) else X s r') {l : List Nat} (hl : l.Nodup) (s : σ) (r : Nat) :
    X (l.foldl F s) r = if r ∈ l then g (X s r) else X s r := by
  induction l generalizing s with
  | nil => simp
  | cons x xs ih =>
    obtain ⟨hx, hxs⟩ := List.nodup_cons.1 hl
    rw [List.foldl_cons, ih hxs, hF]
    by_cases hrx : r = x
    · subst hrx
      simp [hx]
    · simp [hrx]

/-! ### The regulator (R180) -/

section
variable (s : State) (b : Nat)

theorem State.regulator_put (g : Regulator) : (s.putRegulator g).regulator g.basin = g := by
  unfold State.putRegulator State.regulator
  dsimp only
  by_cases hg : g = .idle g.basin
  · have hnone : (s.regulators.filter fun x => x.basin ≠ g.basin).find? (fun r => r.basin = g.basin) = none := by
      rw [List.find?_eq_none]
      intro x hx
      simpa using (List.mem_filter.1 hx).2
    rw [if_pos hg, hnone]
    exact hg.symm
  · rw [if_neg hg]
    simp

theorem State.depth_lt (r : Nat) : s.depth b r < 16 := Nat.mod_lt _ (by decide)

theorem State.setDepth_depth (r r' : Nat) {v : Nat} (hv : v < 16) :
    (s.setDepth b r v).depth b r' = if r' = r then v else s.depth b r' := by
  by_cases hr : r' = r
  · subst hr
    rw [if_pos rfl]
    exact (s.rfld_putFld_self (.trnLatCfg b r') 48 4 v (by decide)).trans (Nat.mod_eq_of_lt hv)
  · rw [if_neg hr]
    exact congrArg (fld · 48 4) (s.reg_putFld_ne (r := .trnLatCfg b r) (r' := .trnLatCfg b r') (by simpa using hr) 48 4 v)

/-- Depths raised by one, each at most 15. -/
theorem State.lowerBelow_shows (q : Nat) : (∀ r, (s.lowerBelow b q).depth b r = if r < 16 ∧ s.qosOf b r < q then min (s.depth b r + 1) 15 else s.depth b r) ∧
    ∀ k : Reg, (∀ r, k ≠ .trnLatCfg b r) → (s.lowerBelow b q).reg k = s.reg k := by
  refine ⟨fun r => ?_, fun k hk => State.reg_foldl (fun t r => t.reg_putFld_ne (hk r) _ _ _) _ _⟩
  have h := foldl_entry (X := fun t : State => t.depth b) (F := fun (t : State) r => t.setDepth b r (min (t.depth b r + 1) 15))
    (g := fun n => min (n + 1) 15) (fun t x y => t.setDepth_depth b x y (by omega)) (l := s.rightsBelow b q)
    (List.nodup_range.filter _) s r
  refine h.trans ?_
  simp [State.rightsBelow]

/-- Depths lowered by one. -/
theorem State.restoreDepths_shows : (∀ r, r < 16 → (s.restoreDepths b).depth b r = s.depth b r - 1) ∧
    ∀ k : Reg, (∀ r, k ≠ .trnLatCfg b r) → (s.restoreDepths b).reg k = s.reg k := by
  refine ⟨fun r hr => ?_, fun k hk => State.reg_foldl (fun t r => ?_) _ _⟩
  · have h := foldl_entry (X := fun t : State => t.depth b)
      (F := fun (t : State) r => if t.depth b r > 0 then t.setDepth b r (t.depth b r - 1) else t)
      (g := fun n => n - 1) (fun t x y => ?_) (l := List.range 16) List.nodup_range s r
    · refine h.trans ?_
      simp [hr]
    · have hlt := t.depth_lt b x
      by_cases hpos : t.depth b x > 0
      · rw [if_pos hpos]
        exact t.setDepth_depth b x y (by omega)
      · rw [if_neg hpos]
        split
        · next hyx =>
          subst hyx
          omega
        · rfl
  · split
    · exact t.reg_putFld_ne (hk r) _ _ _
    · rfl

end

section
variable (s : State) (b : Nat)

/-- The rights of a basin that have exceeded their bounds. -/
def State.exceeding : List Nat := (List.range 16).filter fun r => s.bounded b r && (s.regulator b).exceeded.contains r

/-- A clean interval: after RESTORE of them the depths fall. -/
theorem State.regulate_clean (hex : s.exceeding b = []) : s.SameStores (s.regulate b) ∧ ((s.regulate b).regulator b).start = s.cycle + 1 ∧
    ((s.regulate b).regulator b).exceeded = [] ∧ ((s.regulate b).regulator b).clean =
      (if (s.regulator b).clean + 1 = s.regRestore b then 0 else (s.regulator b).clean + 1) ∧
    ∀ r, r < 16 → (s.regulate b).depth b r = s.depth b r - (if (s.regulator b).clean + 1 = s.regRestore b then 1 else 0) := by
  have hsame : s.SameStores (s.regulate b) := State.sameStores_of_lasting (by simp [State.regulate])
  refine ⟨hsame, ?_⟩
  have heq : s.regulate b = (fun t : State => t.putRegulator ⟨b, if (s.regulator b).clean + 1 = t.regRestore b then 0 else
      (s.regulator b).clean + 1, [], [], [], t.cycle + 1, t.regLog2 b⟩)
      (if (s.regulator b).clean + 1 = s.regRestore b then s.restoreDepths b else s) := by
    unfold State.regulate
    dsimp only
    exact if_pos (by rw [List.isEmpty_iff]; exact hex)
  have hcycle : (if (s.regulator b).clean + 1 = s.regRestore b then s.restoreDepths b else s).cycle = s.cycle := by
    split
    · exact foldl_keeps (fun t : State => t.cycle = s.cycle) _ (fun t r ht => by split <;> exact ht) _ s rfl
    · rfl
  have hrestore : (if (s.regulator b).clean + 1 = s.regRestore b then s.restoreDepths b else s).regRestore b = s.regRestore b := by
    split
    · have hreg := (s.restoreDepths_shows b).2 (.trnRegCfg b) (by simp)
      exact congrArg (fun x => if fld x 8 4 = 0 then 4 else fld x 8 4) hreg
    · rfl
  have hdepth (r : Nat) (hr : r < 16) : (if (s.regulator b).clean + 1 = s.regRestore b then s.restoreDepths b else s).depth b r =
      s.depth b r - (if (s.regulator b).clean + 1 = s.regRestore b then 1 else 0) := by
    split
    · exact (s.restoreDepths_shows b).1 r hr
    · rfl
  rw [heq]
  generalize (if (s.regulator b).clean + 1 = s.regRestore b then s.restoreDepths b else s) = t at *
  have hput := t.regulator_put ⟨b, if (s.regulator b).clean + 1 = t.regRestore b then 0 else
      (s.regulator b).clean + 1, [], [], [], t.cycle + 1, t.regLog2 b⟩
  refine ⟨(congrArg Regulator.start hput).trans (congrArg (· + 1) hcycle), congrArg Regulator.exceeded hput, ?_, hdepth⟩
  exact (congrArg Regulator.clean hput).trans (by rw [hrestore])

theorem State.bumpLat_shows (lo : Nat) (l : List Nat) :
    (∀ r lo', lo' + 16 ≤ lo ∨ lo + 16 ≤ lo' → (l.foldl (fun (s : State) r => s.bump (.trnLatSt b r) lo 16) s).rfld (.trnLatSt b r) lo' 16 =
      s.rfld (.trnLatSt b r) lo' 16) ∧
    (∀ k : Reg, (∀ r, k ≠ .trnLatSt b r) → (l.foldl (fun (s : State) r => s.bump (.trnLatSt b r) lo 16) s).reg k = s.reg k) := by
  refine ⟨fun r lo' h => ?_, fun k hk => State.reg_foldl (fun t r => State.reg_bump_ne t (hk r) lo 16 1) l s⟩
  exact foldl_keeps (fun t : State => t.rfld (.trnLatSt b r) lo' 16 = s.rfld (.trnLatSt b r) lo' 16) _
    (fun t x ht => (t.rfld_bump_ne _ _ _ _ _ _ _ (.inr (by omega))).trans ht) l s rfl

/-- Each right of a list without repeats is counted once. -/
theorem State.bumpLat_counts {l : List Nat} (hl : l.Nodup) {r : Nat} (hr : r ∈ l) :
    (l.foldl (fun (s : State) r => s.bump (.trnLatSt b r) 32 16) s).rfld (.trnLatSt b r) 32 16 =
      min (s.rfld (.trnLatSt b r) 32 16 + 1) (2 ^ 16 - 1) := by
  have h := foldl_entry (X := fun (t : State) r => t.rfld (.trnLatSt b r) 32 16)
    (F := fun (t : State) r => t.bump (.trnLatSt b r) 32 16) (g := fun n => min (n + 1) (2 ^ 16 - 1)) (fun t x y => ?_) hl s r
  · exact h.trans (if_pos hr)
  · split
    · next hyx =>
      subst hyx
      exact t.rfld_bump_self (.trnLatSt b y) 32 16 (by decide)
    · next hyx => exact t.rfld_bump_ne _ _ _ _ _ _ _ (.inl (by simpa using hyx))

/-- An interval in which rights exceeded their bounds: each right below the highest of their classes goes down. -/
theorem State.regulate_lowers {q : Nat} (hex : s.exceeding b ≠ []) (hq : q = ((s.exceeding b).map (s.qosOf b)).foldl max 0) :
    s.SameStores (s.regulate b) ∧ ((s.regulate b).regulator b).clean = 0 ∧ ((s.regulate b).regulator b).exceeded = [] ∧
      (∀ r, r < 16 → (s.regulate b).depth b r = (if s.qosOf b r < q then min (s.depth b r + 1) 15 else s.depth b r)) ∧
      ∀ r ∈ s.exceeding b, (s.regulate b).rfld (.trnLatSt b r) 32 16 = min (s.rfld (.trnLatSt b r) 32 16 + 1) (2 ^ 16 - 1) := by
  have hsame : s.SameStores (s.regulate b) := State.sameStores_of_lasting (by simp [State.regulate])
  refine ⟨hsame, ?_⟩
  have heq : ∃ hit st lg, s.regulate b = (((s.exceeding b).foldl (fun (s : State) r => s.bump (.trnLatSt b r) 32 16)
      (hit.foldl (fun (s : State) r => s.bump (.trnLatSt b r) 48 16) (s.lowerBelow b q))).putRegulator ⟨b, 0, [], hit, [], st, lg⟩) := by
    subst hq
    have hne : ¬ (s.exceeding b).isEmpty = true := by
      rw [List.isEmpty_iff]
      exact hex
    unfold State.regulate
    dsimp only
    exact ⟨_, _, _, if_neg hne⟩
  obtain ⟨hit, st, lg, heq⟩ := heq
  obtain ⟨hdepth, hreg⟩ := s.lowerBelow_shows b q
  rw [heq]
  generalize s.lowerBelow b q = t at *
  obtain ⟨hkeep, hother⟩ := t.bumpLat_shows b 48 hit
  generalize hit.foldl (fun (s : State) r => s.bump (.trnLatSt b r) 48 16) t = v at *
  obtain ⟨-, hother'⟩ := v.bumpLat_shows b 32 (s.exceeding b)
  have hnodup : (s.exceeding b).Nodup := List.nodup_range.filter _
  have hcount {r : Nat} (hr : r ∈ s.exceeding b) := v.bumpLat_counts b hnodup hr
  generalize (s.exceeding b).foldl (fun (s : State) r => s.bump (.trnLatSt b r) 32 16) v = w at *
  have hput := w.regulator_put ⟨b, 0, [], hit, [], st, lg⟩
  refine ⟨congrArg Regulator.clean hput, congrArg Regulator.exceeded hput, fun r hr => ?_, fun r hr => ?_⟩
  · have hw : w.depth b r = t.depth b r := congrArg (fld · 48 4) ((hother' _ (by simp)).trans (hother _ (by simp)))
    refine Eq.trans (show _ = w.depth b r from rfl) (hw.trans ((hdepth r).trans ?_))
    simp [hr]
  · refine Eq.trans (show _ = w.rfld (.trnLatSt b r) 32 16 from rfl) ((hcount hr).trans ?_)
    rw [hkeep r 32 (by omega), State.rfld, hreg _ (by simp)]
    rfl

end

/-! ### Leases that have expired (R50) -/

/-- With nothing at a tile nothing is tried again there. -/
theorem State.afterBreak_none {s : State} {b d : Nat} (h : s.NoneAt b d) : s.afterBreak b d = s := by
  have hnil : s.flights.filter (fun f => f.inSlot ∧ f.atTile = some (b, d) ∧ true) = [] := by
    rw [List.filter_eq_nil_iff]
    intro f hf
    simpa using fun _ => h f hf
  unfold State.afterBreak State.heldAt
  dsimp only
  rw [hnil]
  simp [State.retryAll]

/-- A tile left as its lock breaks: no flight writes it or has opened it. -/
theorem State.noneAt_leaveTile {s : State} {b d : Nat} (h : s.NoneAt b d) (b' d' : Nat) : (s.leaveTile b' d').NoneAt b d := by
  intro f hf
  obtain ⟨g, hg, rfl⟩ := List.mem_map.1 hf
  exact h g hg

/-- What a broken lock leaves of its descriptor. -/
def brokenDesc (v : BitVec 512) : BitVec 512 :=
  if dOpen v then dNextGen (setBit (setBit (setBit v 120 false) 121 true) 125 true) else setBit (setBit v 121 true) 125 true

theorem brokenDesc_shows {v : BitVec 512} (h : dOwner v = 0) : dOwner (brokenDesc v) = 0 ∧ dBroken (brokenDesc v) = true ∧
    dStale (brokenDesc v) = true := by
  have hbit (x : BitVec 512) (i : Nat) (hi : i < 512) : bit (setFld x i 1 true.toNat) i = true := by
    rw [bit, getLsbD_setFld _ _ _ _ _ hi, if_pos (by omega)]
    simp
  have hfld : fld v 104 16 = 0 := by
    rw [dOwner] at h
    rw [fld_eq_extract, h]
    rfl
  have howner : dOwner (brokenDesc v) = 0 := by
    refine BitVec.eq_of_toNat_eq ?_
    rw [dOwner, ← fld_eq_extract]
    unfold brokenDesc
    split <;> simp only [dNextGen, setBit] <;> repeat rw [fld_setFld_ne _ _ _ _ _ _ (by decide)]
    · exact hfld
    · exact hfld
  refine ⟨howner, ?_, ?_⟩ <;> unfold brokenDesc <;> split <;> simp only [dNextGen, setBit, dBroken, dStale]
  · repeat rw [bit_setFld_ne _ _ _ _ _ (by decide)]
    exact hbit _ 121 (by decide)
  · repeat rw [bit_setFld_ne _ _ _ _ _ (by decide)]
    exact hbit _ 121 (by decide)
  · repeat rw [bit_setFld_ne _ _ _ _ _ (by decide)]
    exact hbit _ 125 (by decide)
  · exact hbit _ 125 (by decide)

/-- What an end at a tile with nothing there keeps: everything but the descriptor, and counters beside `r`'s from bit 48. -/
structure State.EndsAt (s t : State) (b d : Nat) (v : BitVec 512) : Prop where
  noneAt : t.NoneAt b d
  locks : t.locks = s.locks
  desc : t.descOf b d = v
  mem : t.mem = s.mem
  gauge : t.gauge = s.gauge
  count : t.rfld (.bsnTileSt b) 48 16 = s.rfld (.bsnTileSt b) 48 16

theorem State.putDesc_endsAt {s : State} {b d : Nat} (h : s.NoneAt b d) (v : BitVec 512) : s.EndsAt (s.putDesc b d v) b d v :=
  ⟨h, rfl, s.descOf_putDesc_self b d v, rfl, rfl, rfl⟩

theorem State.EndsAt.bump {s t : State} {b d : Nat} {v : BitVec 512} (h : s.EndsAt t b d v) :
    s.EndsAt (t.bump (.bsnTileSt b) 32 16) b d v := by
  have hb := t.bump_onlyRegs (.bsnTileSt b) 32 16 1
  obtain ⟨h1, h2, h3, h4, h5, h6⟩ := h
  exact ⟨fun f hf => h1 f ((congrArg State.flights hb :) ▸ hf), (congrArg State.locks hb :).trans h2,
    (congrArg (fun x : State => x.descOf b d) hb :).trans h3, (congrArg State.mem hb :).trans h4, (congrArg State.gauge hb :).trans h5,
    (t.rfld_bump_ne _ _ _ _ _ _ _ (.inr (.inr (by decide)))).trans h6⟩

theorem State.leaveTile_endsAt {s t : State} {b d : Nat} {v : BitVec 512} (k : (s.leaveTile b d).EndsAt t b d v) :
    s.EndsAt t b d v := ⟨k.noneAt, k.locks, k.desc, k.mem, k.gauge, k.count⟩

/-- The write that a broken lock ends. -/
theorem State.broken_endsAt {s : State} {b d : Nat} (h : s.NoneAt b d) {v : BitVec 512} (hv : s.descOf b d = v) :
    s.EndsAt (if dOpen (s.descOf b d) then s.closeBroken b d else s.putDesc b d (setBit (setBit (s.descOf b d) 121 true) 125 true))
      b d (brokenDesc v) := by
  rw [hv]
  unfold brokenDesc
  split
  · have hclose : s.closeBroken b d = ((s.leaveTile b d).putDesc b d
        (dNextGen (setBit (setBit (setBit (s.descOf b d) 120 false) 121 true) 125 true))).bump (.bsnTileSt b) 32 16 := rfl
    rw [hclose, hv]
    exact State.leaveTile_endsAt (State.putDesc_endsAt (State.noneAt_leaveTile h b d) _).bump
  · exact State.putDesc_endsAt h _

/-- A lock broken, with nothing at its tile (R50). -/
theorem State.breakLock_shows {s : State} {b d : Nat} (h : s.NoneAt b d) : (s.breakLock b d).NoneAt b d ∧
    (s.breakLock b d).locks = s.locks.filter (fun x => !(x.basin = b ∧ x.desc = d)) ∧
    (s.breakLock b d).descOf b d = brokenDesc (setFld (s.descOf b d) 104 16 0) ∧ (s.breakLock b d).mem = s.mem ∧
    (s.breakLock b d).gauge = s.gauge ∧
    (s.breakLock b d).rfld (.bsnTileSt b) 48 16 = min (s.rfld (.bsnTileSt b) 48 16 + 1) (2 ^ 16 - 1) := by
  have heq : s.breakLock b d = (if dOpen ((s.unlock b d).descOf b d) then (s.unlock b d).closeBroken b d else
      (s.unlock b d).putDesc b d (setBit (setBit ((s.unlock b d).descOf b d) 121 true) 125 true)).bump (.bsnTileSt b) 48 16 := rfl
  have hun : (s.unlock b d).NoneAt b d := h
  obtain ⟨h1, h2, h3, h4, h5, h6⟩ := State.broken_endsAt hun (s.descOf_putDesc_self b d (setFld (s.descOf b d) 104 16 0))
  rw [heq]
  generalize (if dOpen ((s.unlock b d).descOf b d) then (s.unlock b d).closeBroken b d else
      (s.unlock b d).putDesc b d (setBit (setBit ((s.unlock b d).descOf b d) 121 true) 125 true)) = w at *
  have hb := w.bump_onlyRegs (.bsnTileSt b) 48 16 1
  exact ⟨fun f hf => h1 f ((congrArg State.flights hb :) ▸ hf), (congrArg State.locks hb :).trans h2,
    (congrArg (fun x : State => x.descOf b d) hb :).trans h3, (congrArg State.mem hb :).trans h4,
    (congrArg State.gauge hb :).trans h5, (w.rfld_bump_self (.bsnTileSt b) 48 16 (by decide)).trans (by rw [h6]; rfl)⟩

/-! ### The wait audit (R195–R197) -/

/-- The faults that an audit finds. -/
def State.auditFaults (s : State) : State :=
  match s.active with
  | some c =>
    let ws := s.waits.filter fun (w : Wait) => w.ctx = c && s.stalled w
    if ws.isEmpty then s else s.auditFault c ws
  | none => s

theorem State.audit_eq (s : State) : s.audit = { s.auditFaults with
    auditSnap := s.waits.map s.snapOf, auditMs := s.auditNext, auditFrom := s.now } := rfl

/-- No wait of the active context has stalled. -/
theorem State.auditFaults_none {s : State} (h : ∀ c w, s.active = some c → w ∈ s.waits → w.ctx = c → s.stalled w = false) :
    s.auditFaults = s := by
  unfold State.auditFaults
  split
  · next c hact =>
    refine if_pos ?_
    rw [List.isEmpty_iff, List.filter_eq_nil_iff]
    intro w hw
    simpa using fun hc => h c w hact hw hc
  · rfl

/-- A wait of the active context has stalled. -/
theorem State.auditFaults_some {s : State} {c : Nat} {w : Wait} (hact : s.active = some c) (hw : w ∈ s.waits) (hc : w.ctx = c)
    (hst : s.stalled w = true) : ∃ ws, s.auditFaults = s.auditFault c ws := by
  refine ⟨s.waits.filter fun w => w.ctx = c && s.stalled w, ?_⟩
  unfold State.auditFaults
  rw [hact]
  refine if_neg ?_
  rw [List.isEmpty_iff, List.filter_eq_nil_iff]
  exact fun h => h w hw (by simp [hc, hst])

/-- From `s` to `t`, with no packet at work, the contexts and the waits stay. -/
def State.WaitsKept (s t : State) : Prop := t.ctxs = s.ctxs ∧ t.waits = s.waits ∧ t.flights = []

theorem State.WaitsKept.trans {s t u : State} (h : s.WaitsKept t) (k : t.WaitsKept u) : s.WaitsKept u :=
  ⟨k.1.trans h.1, k.2.1.trans h.2.1, k.2.2⟩

theorem State.addStats_waitsKept {s : State} (h : s.flights = []) (src : Src) (st : Stats) : s.WaitsKept (s.addStats src st) := by
  unfold State.addStats
  split <;> exact ⟨rfl, rfl, h⟩

theorem State.endFaulted_waitsKept {s : State} (h : s.flights = []) (src : Src) (p : Packet) (basin start : Nat) :
    s.WaitsKept (s.endFaulted src p basin start) := by
  have hadd (st : Stats) := State.addStats_waitsKept h src st
  have hreply (t : State) (ht : t.flights = []) (r : Nat) (rp : Reply) : t.WaitsKept (t.queueReply r rp) := ⟨rfl, rfl, ht⟩
  have hlate (t : State) (ht : t.flights = []) (r : Nat) (rp : Reply) : t.WaitsKept (t.queueUnreserved r rp) := ⟨rfl, rfl, ht⟩
  unfold State.endFaulted
  dsimp only
  split
  · exact (hadd _).trans (hreply _ (hadd _).2.2 _ _)
  · split
    · exact (hadd _).trans (hlate _ (hadd _).2.2 _ _)
    · exact hadd _
  · exact hadd _

theorem State.endFaulteds_waitsKept {α : Type} {s : State} (h : s.flights = []) (f : State → α → State) (l : List α)
    (hf : ∀ (t : State) x, t.flights = [] → t.WaitsKept (f t x)) : s.WaitsKept (l.foldl f s) :=
  foldl_keeps s.WaitsKept f (fun t x ht => ht.trans (hf t x ht.2.2)) l s ⟨rfl, rfl, h⟩

theorem State.bump_waitsKept {s : State} (h : s.flights = []) (r : Reg) (lo n : Nat) : s.WaitsKept (s.bump r lo n) := by
  have hb := s.bump_onlyRegs r lo n 1
  exact ⟨(congrArg State.ctxs hb :), (congrArg State.waits hb :), (congrArg State.flights hb :).trans h⟩

theorem State.breakLock_waitsKept {s : State} (h : s.flights = []) (b d : Nat) : s.WaitsKept (s.breakLock b d) := by
  have heq : s.breakLock b d = (if dOpen ((s.unlock b d).descOf b d) then (s.unlock b d).closeBroken b d else
      (s.unlock b d).putDesc b d (setBit (setBit ((s.unlock b d).descOf b d) 121 true) 125 true)).bump (.bsnTileSt b) 48 16 := rfl
  have hun : s.WaitsKept (s.unlock b d) := ⟨rfl, rfl, h⟩
  rw [heq]
  generalize s.unlock b d = v at *
  refine hun.trans ?_
  split
  · have hclose : v.closeBroken b d = ((v.leaveTile b d).putDesc b d
        (dNextGen (setBit (setBit (setBit (v.descOf b d) 120 false) 121 true) 125 true))).bump (.bsnTileSt b) 32 16 := rfl
    have hleave : v.WaitsKept ((v.leaveTile b d).putDesc b d
        (dNextGen (setBit (setBit (setBit (v.descOf b d) 120 false) 121 true) 125 true))) := ⟨rfl, rfl, by
      refine Eq.trans (show _ = (v.leaveTile b d).flights from rfl) ?_
      simp [State.leaveTile, hun.2.2]⟩
    rw [hclose]
    generalize (v.leaveTile b d).putDesc b d
        (dNextGen (setBit (setBit (setBit (v.descOf b d) 120 false) 121 true) 125 true)) = y at *
    have hy := State.bump_waitsKept hleave.2.2 (.bsnTileSt b) 32 16
    exact (hleave.trans hy).trans (State.bump_waitsKept hy.2.2 _ _ _)
  · have hput : v.WaitsKept (v.putDesc b d (setBit (setBit (v.descOf b d) 121 true) 125 true)) := ⟨rfl, rfl, hun.2.2⟩
    exact hput.trans (State.bump_waitsKept hput.2.2 _ _ _)

theorem State.breakLocks_waitsKept {s : State} (h : s.flights = []) (c : Nat) : s.WaitsKept (s.breakLocks c).1 := by
  refine foldl_keeps s.WaitsKept (fun (s : State) (l : Lock) => (s.breakLock l.basin l.desc).afterBreak l.basin l.desc) ?_ _ s
    ⟨rfl, rfl, h⟩
  intro t l ht
  have hb := State.breakLock_waitsKept ht.2.2 l.basin l.desc
  rw [State.afterBreak_quiet hb.2.2]
  exact ht.trans hb

/-- The context is faulted, and what it waits for, runs and has handed over is taken from it. -/
def State.faultStopped (s : State) (c : Nat) : State :=
  let s := s.putCtx c { s.ctx c with faulted := true }
  let s := if s.ringState c = 4 then s else s.putFld (.ringSt c) 0 4 3
  let hs := s.handed.filter fun h => h.ctx = c && h.src ≠ .ring 8
  let s := { s with
    waits := s.waits.filter fun w => w.ctx ≠ c
    lists := s.lists.map fun (l : ListRun) => if l.ctx = c then { l with spawner := .headgate } else l
    handed := s.handed.filter fun h => !hs.contains h }
  s.holdSrc (.ring c) false

theorem State.faultStopped_shows (s : State) (c : Nat) : (s.faultStopped c).flights = s.flights ∧
    ((s.faultStopped c).ctx c).faulted = true ∧ ∀ x ∈ (s.faultStopped c).waits, x.ctx ≠ c := by
  have hctx : (s.putCtx c { s.ctx c with faulted := true }).ctx c = { s.ctx c with faulted := true } := s.ctx_putCtx_self c _
  have hfl : (s.putCtx c { s.ctx c with faulted := true }).flights = s.flights := rfl
  unfold State.faultStopped
  dsimp only
  generalize s.putCtx c { s.ctx c with faulted := true } = t at *
  have hput : (if t.ringState c = 4 then t else t.putFld (.ringSt c) 0 4 3).flights = t.flights ∧
      (if t.ringState c = 4 then t else t.putFld (.ringSt c) 0 4 3).ctxs = t.ctxs := by split <;> exact ⟨rfl, rfl⟩
  generalize (if t.ringState c = 4 then t else t.putFld (.ringSt c) 0 4 3) = v at *
  refine ⟨hput.1.trans hfl, ?_, fun x hx => by simpa using (List.mem_filter.1 hx).2⟩
  have hc : v.ctx c = t.ctx c := congrArg (fun m => kget m CtxRec.absent c) hput.2
  exact congrArg CtxRec.faulted (hc.trans hctx)

/-- A fault answers what the context has in flight, and then breaks its locks. -/
theorem State.faultContext_eq {s : State} {c : Nat} (hres : s.resident c = true) (hok : (s.ctx c).faulted = false) (hf : s.flights = []) :
    ∃ (ws : List Wait) (ls : List ListRun) (hs : List Handed), s.faultContext c = (((hs.foldl
      (fun (s : State) (h : Handed) => s.endFaulted h.src h.pkt h.basin h.startCycle) (ls.foldl
      (fun (s : State) (l : ListRun) => s.endFaulted l.spawner l.spawnPkt (s.basinOf l.spawner) l.spawnCycle) (ws.foldl
      (fun (s : State) (w : Wait) => s.endFaulted w.src w.pkt w.basin w.startCycle) (s.faultStopped c)))).killAll []).breakLocks c).1 := by
  have hnone (t : State) (ht : t.flights = []) : t.ctxFlights c = [] := by simp [State.ctxFlights, ht]
  have hfl : (if (s.putCtx c { s.ctx c with faulted := true }).ringState c = 4 then s.putCtx c { s.ctx c with faulted := true }
      else (s.putCtx c { s.ctx c with faulted := true }).putFld (.ringSt c) 0 4 3).flights = [] := by split <;> exact hf
  have hnot : ¬ (!s.resident c || (s.ctx c).faulted) = true := by simp [hres, hok]
  unfold State.faultContext State.faultStopped
  rw [if_neg hnot]
  dsimp only
  rw [hnone _ hfl]
  exact ⟨_, _, _, rfl⟩

/-- A context that is faulted with no packet of its own at work keeps nothing waiting. -/
theorem State.faultContext_shows {s : State} {c : Nat} (hres : s.resident c = true) (hok : (s.ctx c).faulted = false) (hf : s.flights = []) :
    ((s.faultContext c).ctx c).faulted = true ∧ ∀ x ∈ (s.faultContext c).waits, x.ctx ≠ c := by
  obtain ⟨ws, ls, hs, heq⟩ := State.faultContext_eq hres hok hf
  obtain ⟨hfl, hfault, hwaits⟩ := s.faultStopped_shows c
  rw [heq]
  generalize s.faultStopped c = v at *
  have h1 := State.endFaulteds_waitsKept (hfl.trans hf) (fun (s : State) (w : Wait) => s.endFaulted w.src w.pkt w.basin w.startCycle) ws
    fun t x ht => State.endFaulted_waitsKept ht _ _ _ _
  generalize ws.foldl (fun (s : State) (w : Wait) => s.endFaulted w.src w.pkt w.basin w.startCycle) v = t1 at *
  have h2 := State.endFaulteds_waitsKept h1.2.2 (fun (s : State) (l : ListRun) =>
    s.endFaulted l.spawner l.spawnPkt (s.basinOf l.spawner) l.spawnCycle) ls fun t x ht => State.endFaulted_waitsKept ht _ _ _ _
  generalize ls.foldl (fun (s : State) (l : ListRun) => s.endFaulted l.spawner l.spawnPkt (s.basinOf l.spawner) l.spawnCycle) t1 = t2 at *
  have h3 := State.endFaulteds_waitsKept h2.2.2 (fun (s : State) (h : Handed) => s.endFaulted h.src h.pkt h.basin h.startCycle) hs
    fun t x ht => State.endFaulted_waitsKept ht _ _ _ _
  generalize hs.foldl (fun (s : State) (h : Handed) => s.endFaulted h.src h.pkt h.basin h.startCycle) t2 = t3 at *
  rw [State.killAll_nil h3.2.2]
  obtain ⟨hctxs, hws, -⟩ := ((h1.trans h2).trans h3).trans (State.breakLocks_waitsKept h3.2.2 c)
  refine ⟨?_, by rw [hws]; exact hwaits⟩
  exact (congrArg (fun m => (kget m CtxRec.absent c).faulted) hctxs).trans hfault

theorem State.record_rest (s : State) (e : Event) (severity action : Nat) (threshold added : Bool) :
    { s.record e severity action threshold added with regs := s.regs, cistern := s.cistern } = s := by
  have hgen (t : State) (c : Cistern) (rs : List (Reg × Word64)) (c' : Cistern) :
      ({ ({ t with cistern := c } : State) with regs := rs, cistern := c' } : State) = { t with regs := rs, cistern := c' } := rfl
  exact (hgen _ _ _ _).trans s.logEvent_rest

/-- The audit of a stalled wait faults the active context. -/
theorem State.auditFault_shows {s : State} {c : Nat} (hres : s.resident c = true) (hok : (s.ctx c).faulted = false) (hf : s.flights = [])
    (ws : List Wait) : ((s.auditFault c ws).ctx c).faulted = true ∧ ∀ x ∈ (s.auditFault c ws).waits, x.ctx ≠ c := by
  have hrest := s.record_rest { Event.of .site 0xFFFF 0 clsAudit .none with ctx := c, failed := true, detail := s.auditDetail c ws } 0 8 false false
  unfold State.auditFault
  dsimp only
  generalize s.record { Event.of .site 0xFFFF 0 clsAudit .none with ctx := c, failed := true, detail := s.auditDetail c ws } 0 8 false false = t
    at hrest ⊢
  exact State.faultContext_shows ((congrArg (fun x : State => x.resident c) hrest :).trans hres)
    ((congrArg (fun x : State => (x.ctx c).faulted) hrest :).trans hok) ((congrArg State.flights hrest :).trans hf)

/-! ### Hardened registers (R258) -/

section
variable {s : State} (hrel : s.start.released = true) {r : Reg} {k : Nat} {x : Word64}
  (hof : Reg.ofOffset s.cfg ((r.addr.toNat - regBase) / 8 * 8) = some r) (hat : regBase ≤ r.addr.toNat)
include hrel hof hat

/-- A check of a register that the map holds. -/
theorem State.hardenCheck_eq : exec (.hardenCheck r.addr k x) s = .next (if !r.present s.cfg then s
    else if x &&& r.parityBits = 0 then (if x &&& r.hardened = 0 then s else s.dissent r)
    else (if x &&& r.hardened = 0 then s else s.dissent r).parityUpset r (x &&& r.parityBits)) := by
  have hexec : execHardenCheck r.addr k x s = .next (if !r.present s.cfg then s
      else if x &&& r.parityBits = 0 then (if x &&& r.hardened = 0 then s else s.dissent r)
      else (if x &&& r.hardened = 0 then s else s.dissent r).parityUpset r (x &&& r.parityBits)) := by
    unfold execHardenCheck
    rw [if_neg (by simp [hrel]), if_neg (by omega), hof]
    rfl
  exact hexec

end

/-- A dissenting copy rewritten. -/
theorem State.dissent_shows (s : State) (r : Reg) : (∀ r', r' ≠ .errHardenSt → (s.dissent r).reg r' = s.reg r') ∧ s.SameStores (s.dissent r) ∧
    (s.dissent r).rfld .errHardenSt 48 16 = min (s.rfld .errHardenSt 48 16 + 1) (2 ^ 16 - 1) := by
  have hpost (t : State) (e : Event) : (∀ q, (t.post e).reg q = t.reg q) ∧ t.SameStores (t.post e) := by
    unfold State.post
    split <;> exact ⟨fun _ => rfl, rfl, rfl, rfl, rfl, rfl⟩
  have hb := s.bump_onlyRegs .errHardenSt 48 16 1
  have hcount := s.rfld_bump_self .errHardenSt 48 16 (by decide)
  have hother (r' : Reg) (h : r' ≠ .errHardenSt) : (s.bump .errHardenSt 48 16).reg r' = s.reg r' := State.reg_bump_ne s h 48 16 1
  unfold State.dissent
  dsimp only
  generalize s.bump .errHardenSt 48 16 = v at *
  obtain ⟨hreg, hsame⟩ := hpost (v.putFld .errHardenSt 0 27 (r.offset / 8))
    { Event.of .register (r.basin?.getD 0xFFFF) 0 clsDissent .none with loc := r.offset / 8 }
  refine ⟨fun r' h => (hreg r').trans ((v.reg_putFld_ne h 0 27 _).trans (hother r' h)), ?_, ?_⟩
  · exact hb.same.trans ((v.putFld_onlyRegs .errHardenSt 0 27 (r.offset / 8)).same.trans hsame)
  · refine (congrArg (fld · 48 16) (hreg .errHardenSt)).trans ?_
    exact (v.rfld_putFld_ne .errHardenSt .errHardenSt 0 27 48 16 _ (.inr (.inr (by decide)))).trans hcount

/-- A parity error zeroes what is not hardened. -/
theorem State.parityUpset_shows {s : State} {r : Reg} (hr : r ≠ .errHardenSt) {x : Word64} (hodd : (bitsSet x 64).length % 2 = 1) :
    (s.parityUpset r x).reg r = s.reg r &&& ~~~r.parityBits ∧
      (∀ r', r' ≠ r → r' ≠ .errHardenSt → (s.parityUpset r x).reg r' = s.reg r') ∧ s.SameStores (s.parityUpset r x) ∧
      (s.parityUpset r x).rfld .errHardenSt 32 16 = min (s.rfld .errHardenSt 32 16 + 1) (2 ^ 16 - 1) := by
  have hself := s.reg_putReg_self r (s.reg r &&& ~~~r.parityBits)
  have hother (r' : Reg) (h : r' ≠ r) : (s.putReg r (s.reg r &&& ~~~r.parityBits)).reg r' = s.reg r' := s.reg_putReg_ne h _
  have hsame : s.SameStores (s.putReg r (s.reg r &&& ~~~r.parityBits)) := ⟨rfl, rfl, rfl, rfl, rfl⟩
  unfold State.parityUpset
  rw [if_pos hodd]
  generalize s.putReg r (s.reg r &&& ~~~r.parityBits) = v at *
  have hb := v.bump_onlyRegs .errHardenSt 32 16 1
  refine ⟨(State.reg_bump_ne v hr 32 16 1).trans hself, fun r' h h' => (State.reg_bump_ne v h' 32 16 1).trans (hother r' h),
    hsame.trans hb.same, ?_⟩
  rw [v.rfld_bump_self .errHardenSt 32 16 (by decide), State.rfld, hother _ (Ne.symm hr)]
  rfl

/-- Settles O49: the regulator's two ends of an interval, a lease broken with nothing at its tile, the audit's fault, and the checker. -/
theorem intervalsAndCheckers : Obligations.IntervalsAndCheckers := by
  refine ⟨fun s b hflow hlive => ⟨fun hover => ?_, fun hover => ?_, fun hone => ?_, fun ex u hu hex => ⟨fun hnil => ?_, fun q hne hq => ?_⟩,
    fun hnil => ?_, fun l hone hnone => ?_, fun hup => ⟨fun hdue => ?_, fun hdue hquiet => ?_, fun c w hdue hact hres hok hw hwc hst hf => ?_⟩⟩,
    fun s hrel => ⟨fun r k x hof hat hr => ⟨fun hp => ?_, fun hp hx hq => ?_, fun hp hx hodd => ?_⟩, fun hup => ?_⟩⟩
  · exact congrArg Host.Outcome.next (if_neg (by simp [hover]))
  · exact congrArg Host.Outcome.next (if_pos ⟨hflow, hlive, hover⟩)
  · rw [State.regulateAll, hone]
    rfl
  · subst hu hex
    exact s.regulate_clean b hnil
  · subst hu hex
    exact s.regulate_lowers b hne hq
  · refine congrArg Host.Outcome.next ((if_pos ⟨hflow, hlive⟩).trans ?_)
    rw [hnil]
    rfl
  · obtain ⟨h1, h2, h3, h4, h5, h6⟩ := State.breakLock_shows hnone
    have hexec : execLockLeaseScan b s = .next (s.breakLock l.basin l.desc) := by
      unfold execLockLeaseScan
      rw [if_pos ⟨hflow, hlive⟩, hone]
      exact congrArg Host.Outcome.next (State.afterBreak_none h1)
    have howner : dOwner (setFld (s.descOf l.basin l.desc) 104 16 0) = 0 := by
      refine BitVec.eq_of_toNat_eq ?_
      rw [dOwner, ← fld_eq_extract]
      exact fld_setFld_self _ _ _ _ (by decide)
    obtain ⟨g1, g2, g3⟩ := brokenDesc_shows howner
    exact ⟨_, hexec, h2, by rw [h3, g1], by rw [h3, g2], by rw [h3, g3], h4, h5, h6⟩
  · exact congrArg Host.Outcome.next (if_neg (by simp [hdue]))
  · refine congrArg Host.Outcome.next ((if_pos ⟨hup, hflow, hdue⟩).trans ?_)
    rw [s.audit_eq, State.auditFaults_none hquiet]
  · obtain ⟨ws, heq⟩ := State.auditFaults_some hact hw hwc hst
    obtain ⟨h1, h2⟩ := State.auditFault_shows hres hok hf ws
    have hexec : execWaitAudit s = .next { s.auditFault c ws with
        auditSnap := s.waits.map s.snapOf, auditMs := s.auditNext, auditFrom := s.now } := by
      refine congrArg Host.Outcome.next ((if_pos ⟨hup, hflow, hdue⟩).trans ?_)
      rw [s.audit_eq, heq]
    generalize s.auditFault c ws = v at *
    exact ⟨_, hexec, h1, h2, rfl, rfl, rfl⟩
  · rw [State.hardenCheck_eq hrel hof hat, if_pos (by simp [hp])]
  · rw [State.hardenCheck_eq hrel hof hat, if_neg (by simp [hp]), if_pos hq, if_neg hx]
    obtain ⟨h1, h2, h3⟩ := s.dissent_shows r
    exact ⟨_, rfl, h1, h2, h3⟩
  · have hne : x &&& r.parityBits ≠ 0 := by
      intro h0
      rw [h0] at hodd
      exact absurd hodd (by decide)
    rw [State.hardenCheck_eq hrel hof hat, if_neg (by simp [hp]), if_neg hne, if_pos hx]
    exact ⟨_, rfl, State.parityUpset_shows hr hodd⟩
  · exact congrArg Host.Outcome.next (if_pos ⟨hrel, by simp [hup]⟩)

end Sys2Proof.Machine
end

section
set_option Elab.async false -- the whole text is compiled in one process, within a fixed memory
/-! SUPPORT. Flights at their gates: what a request that is granted does to its flight, its tile and the rest (R44, R46, R47). -/
namespace Sys2Proof.Machine

variable {s t u : State} {f g : Flight} {b d i : Nat}

/-! ### Finding a flight -/

theorem State.id_of_flight? (h : s.flight? i = some f) : f.id = i := by
  simpa using List.find?_some h

theorem State.mem_of_flight? (h : s.flight? i = some f) : f ∈ s.flights := List.mem_of_find?_eq_some h

theorem State.flight?_of_flights (h : t.flights = s.flights) (i : Nat) : t.flight? i = s.flight? i :=
  congrArg (List.find? fun x : Flight => decide (x.id = i)) h

/-- A flight put in place of its old self is found. -/
theorem State.flight?_putFlight (h : s.flight? g.id = some f) : (s.putFlight g).flight? g.id = some g := by
  have hstep : ((fun x : Flight => decide (x.id = g.id)) ∘ fun x : Flight => if x.id = g.id then g else x) =
      fun x : Flight => decide (x.id = g.id) := by
    funext x
    by_cases hx : x.id = g.id <;> simp [hx]
  have hid : f.id = g.id := State.id_of_flight? h
  rw [State.flight?, State.putFlight, List.find?_map, hstep]
  rw [State.flight?] at h
  rw [h]
  simp [hid]

/-- Every other flight is found as it was. -/
theorem State.flight?_putFlight_ne (h : i ≠ g.id) : (s.putFlight g).flight? i = s.flight? i := by
  have hstep : ((fun x : Flight => decide (x.id = i)) ∘ fun x : Flight => if x.id = g.id then g else x) =
      fun x : Flight => decide (x.id = i) := by
    funext x
    by_cases hx : x.id = g.id
    · simp [hx]
    · simp [hx]
  rw [State.flight?, State.putFlight, List.find?_map, hstep, State.flight?]
  cases e : s.flights.find? fun x => decide (x.id = i) with
  | none => rfl
  | some x =>
    have hx : x.id = i := by simpa using List.find?_some e
    simp [hx, h]

theorem State.mem_putFlight (h : s.flight? g.id = some f) : g ∈ (s.putFlight g).flights :=
  State.mem_of_flight? (State.flight?_putFlight h)

/-! ### Flights at rest but one -/

/-- Every flight but `i` is at rest. -/
def State.RestsBut (s : State) (i : Nat) : Prop := ∀ f ∈ s.flights, f.id ≠ i → f.phase ≠ .run ∧ f.waiting = false

theorem State.AtRest.restsBut (h : s.AtRest) (i : Nat) : s.RestsBut i := fun f hf _ => h f hf

theorem State.RestsBut.of_flights (h : s.RestsBut i) (hf : t.flights = s.flights) : t.RestsBut i := by
  unfold State.RestsBut
  rw [hf]
  exact h

/-- The flight itself, put to rest, leaves them all at rest. -/
theorem State.RestsBut.putFlight (h : s.RestsBut g.id) (hrun : g.phase ≠ .run) (hwait : g.waiting = false) : (s.putFlight g).AtRest := by
  intro x hx
  obtain ⟨y, hy, hxy⟩ := List.mem_map.1 hx
  by_cases hid : y.id = g.id
  · rw [if_pos hid] at hxy
    exact hxy ▸ ⟨hrun, hwait⟩
  · rw [if_neg hid] at hxy
    exact hxy ▸ h y hy hid

/-- Put to run, it leaves the others at rest. -/
theorem State.RestsBut.putFlight_self (h : s.RestsBut g.id) : (s.putFlight g).RestsBut g.id := by
  intro x hx hne
  obtain ⟨y, hy, hxy⟩ := List.mem_map.1 hx
  by_cases hid : y.id = g.id
  · rw [if_pos hid] at hxy
    exact absurd (congrArg Flight.id hxy.symm) hne
  · rw [if_neg hid] at hxy
    exact hxy ▸ h y hy hid

/-- A flight launched while the others rest. -/
theorem State.AtRest.launched (h : s.AtRest) (hf : t.flights = s.flights ++ [g]) : t.RestsBut g.id := by
  intro x hx hne
  rw [hf, List.mem_append, List.mem_singleton] at hx
  rcases hx with hx | rfl
  · exact h x hx
  · exact absurd rfl hne

theorem State.flight?_launched (h : s.Numbered) (hid : g.id = s.nextFlight) (hf : t.flights = s.flights ++ [g]) :
    t.flight? g.id = some g := by
  have hnone : (s.flights.find? fun x => decide (x.id = g.id)) = none :=
    List.find?_eq_none.2 fun x hx => by
      have := h x hx
      simp only [decide_eq_true_eq]
      omega
  rw [State.flight?, hf, List.find?_append, hnone]
  simp

/-! ### What running a flight does -/

theorem State.runFlight_of_idle (h : s.flight? i = some f) (hrun : f.phase ≠ .run) (n : Nat) : s.runFlight n i = s := by
  cases n with
  | zero => rfl
  | succ n =>
    rw [State.runFlight]
    simp only [h, hrun, ne_eq, not_false_eq_true, if_true]

theorem State.runFlight_of_gone (h : s.flight? i = none) (n : Nat) : s.runFlight n i = s := by
  cases n with
  | zero => rfl
  | succ n =>
    rw [State.runFlight]
    simp only [h]

variable {role idx lane : Nat} {rest : List PStep}

theorem State.runFlight_of_write (h : s.flight? i = some f) (hrun : f.phase = .run)
    (hplan : f.plan = .write b d role idx lane :: rest) (hdrop : f.dropped (.write b d role idx lane) = false) (n : Nat) :
    s.runFlight (n + 1) i = (s.askWrite f b d role idx lane).runFlight n i := by
  rw [State.runFlight]
  simp only [h, hrun, hplan, hdrop, ne_eq, not_true_eq_false, if_false, Bool.false_eq_true]

theorem State.runFlight_of_read (h : s.flight? i = some f) (hrun : f.phase = .run)
    (hplan : f.plan = .read b d role idx lane :: rest) (hdrop : f.dropped (.read b d role idx lane) = false) (n : Nat) :
    s.runFlight (n + 1) i = (s.askRead f b d idx lane).runFlight n i := by
  rw [State.runFlight]
  simp only [h, hrun, hplan, hdrop, ne_eq, not_true_eq_false, if_false, Bool.false_eq_true]

theorem State.fuelFor_of (h : s.flight? i = some f) : s.fuelFor i = 2 * f.plan.length + 16 := by
  rw [State.fuelFor]
  simp only [h]

/-- A flight whose next step is a write that blocks it. -/
theorem State.go_of_write (h : s.flight? i = some f) (hrun : f.phase = .run)
    (hplan : f.plan = .write b d role idx lane :: rest) (hdrop : f.dropped (.write b d role idx lane) = false)
    (hask : s.askWrite f b d role idx lane = t) (hg : t.flight? i = some g) (hph : g.phase ≠ .run) : s.go i = t := by
  rw [State.go, State.fuelFor_of h, State.runFlight_of_write h hrun hplan hdrop, hask, State.runFlight_of_idle hg hph]

/-- A flight whose next step is a read that blocks it. -/
theorem State.go_of_read (h : s.flight? i = some f) (hrun : f.phase = .run)
    (hplan : f.plan = .read b d role idx lane :: rest) (hdrop : f.dropped (.read b d role idx lane) = false)
    (hask : s.askRead f b d idx lane = t) (hg : t.flight? i = some g) (hph : g.phase ≠ .run) : s.go i = t := by
  rw [State.go, State.fuelFor_of h, State.runFlight_of_read h hrun hplan hdrop, hask, State.runFlight_of_idle hg hph]

/-- A flight whose plan is done ends. -/
theorem State.go_of_done (h : s.flight? i = some f) (hrun : f.phase = .run) (hplan : f.plan = []) : s.go i = s.endFlight f := by
  rw [State.go, State.fuelFor_of h, State.runFlight]
  simp only [h, hrun, hplan, ne_eq, not_true_eq_false, if_false]

/-! ### What asking a gate changes -/

/-- Only flights, the descriptor `d` of basin `b`, and what reading it notes differ. -/
structure State.OnlyTile (s : State) (b d : Nat) (t : State) : Prop where
  rest : { t with regs := s.regs, fresh := s.fresh, sram := s.sram, events := s.events, lostEvents := s.lostEvents
                  desc := s.desc, descChk := s.descChk, flights := s.flights, nextFlight := s.nextFlight } = s
  reg : ∀ r, (∀ b, r ≠ .bsnEccSt b ∧ r ≠ .bsnEccLog b ∧ r ≠ .bsnTileSt b) → t.reg r = s.reg r
  desc : ∀ k, k ≠ dkey b d → nget t.desc 0 k = nget s.desc 0 k

theorem State.OnlyTile.refl (s : State) : s.OnlyTile b d s := ⟨rfl, fun _ _ => rfl, fun _ _ => rfl⟩

theorem State.OnlyTile.trans (h : s.OnlyTile b d t) (k : t.OnlyTile b d u) : s.OnlyTile b d u where
  rest := by
    have hk := congrArg (fun x : State => { x with
      regs := s.regs, fresh := s.fresh, sram := s.sram, events := s.events, lostEvents := s.lostEvents
      desc := s.desc, descChk := s.descChk, flights := s.flights, nextFlight := s.nextFlight }) k.rest
    exact hk.trans h.rest
  reg r hr := (k.reg r hr).trans (h.reg r hr)
  desc j hj := (k.desc j hj).trans (h.desc j hj)

theorem State.OnlyNoted.onlyTile (h : s.OnlyNoted t) : s.OnlyTile b d t where
  rest := by
    have hk := congrArg (fun x : State => { x with
      desc := s.desc, descChk := s.descChk, flights := s.flights, nextFlight := s.nextFlight }) h.1
    exact hk
  reg r hr := h.2 r fun b => ⟨(hr b).1, (hr b).2.1⟩
  desc k _ := (congrArg (fun x : State => nget x.desc 0 k) h.1 :)

theorem State.putDesc_onlyTile (s : State) (b d : Nat) (v : BitVec 512) : s.OnlyTile b d (s.putDesc b d v) where
  rest := rfl
  reg _ _ := rfl
  desc _ hk := nget_nset_ne _ _ _ hk v

theorem State.putFlight_onlyTile (s : State) (b d : Nat) (f : Flight) : s.OnlyTile b d (s.putFlight f) :=
  ⟨rfl, fun _ _ => rfl, fun _ _ => rfl⟩

theorem State.fixWait_onlyTile (s : State) (b d : Nat) : s.OnlyTile b d (s.fixWait b d) := by
  unfold State.fixWait
  split
  · exact s.putDesc_onlyTile b d _
  · exact .refl s

section
variable (h : s.OnlyTile b d t)
include h

theorem State.OnlyTile.mem : t.mem = s.mem := (congrArg State.mem h.rest :)
theorem State.OnlyTile.gauge : t.gauge = s.gauge := (congrArg State.gauge h.rest :)
theorem State.OnlyTile.culvert (c : Nat) : t.culvert c = s.culvert c := (congrArg (State.culvert · c) h.rest :)
theorem State.OnlyTile.ring (c : Nat) : t.ring c = s.ring c := (congrArg (State.ring · c) h.rest :)
theorem State.OnlyTile.unitState {x : UnitRef} : t.unitState x = s.unitState x := by
  unfold State.unitState
  cases x.kind
  all_goals simp only [State.rfld]
  all_goals rw [h.reg _ (by simp)]

end

/-! ### WRITE_WAIT (R47) -/

theorem State.fixWait_flights (s : State) (b d : Nat) : (s.fixWait b d).flights = s.flights := by
  unfold State.fixWait
  split <;> rfl

/-- It changes no other bit of the descriptor. -/
theorem State.bit_fixWait (s : State) (b d : Nat) {k : Nat} (hk : k ≠ 344) :
    bit ((s.fixWait b d).descOf b d) k = bit (s.descOf b d) k := by
  unfold State.fixWait
  split
  · rw [State.descOf_putDesc_self]
    exact bit_setFld_ne _ _ _ _ _ (by omega)
  · rfl

theorem State.fixWait_of_clear (h : dWriteWait (s.descOf b d) = false) : s.fixWait b d = s := by
  rw [State.fixWait, if_neg (by simp [h])]

theorem bit_setBit_self {w k : Nat} (x : BitVec w) (hk : k < w) (v : Bool) : bit (setBit x k v) k = v := by
  rw [bit, setBit, getLsbD_setFld _ _ _ _ _ hk]
  cases v <;> simp

/-! ### A read granted (R46) -/

/-- The flight of a read that its gate grants. -/
def Flight.reads (f : Flight) (b d : Nat) (v : BitVec 512) : Flight := { f.unheld with
  phase := .reading b d, asked := [], got := [], genAt := (dkey b d, dGen v) :: f.genAt.filter (·.1 ≠ dkey b d) }

theorem State.askRead_of_grant (h : s.gateRead b d f.caller = .grant) : s.askRead f b d idx lane =
    ((s.readDesc b d).1.putDesc b d (setFld (s.descOf b d) 336 8 (dReaders (s.descOf b d) + 1))).putFlight
      (f.reads b d (s.descOf b d)) := by
  have hn := s.readDesc_onlyNoted b d
  have hv : (s.readDesc b d).1.descOf b d = s.descOf b d := (congrArg (State.descOf · b d) hn.1 :)
  have hg : (s.readDesc b d).1.gateRead b d f.caller = .grant := (congrArg (State.gateRead · b d f.caller) hn.1 :).trans h
  rw [State.askRead]
  simp only [hg, hv]
  rfl

/-- A read granted blocks its flight in the read, and READERS counts it. -/
theorem State.go_reads (h : s.flight? i = some f) (hrun : f.phase = .run) (hplan : f.plan = .read b d role idx lane :: rest)
    (hdrop : f.dropped (.read b d role idx lane) = false) (hgate : s.gateRead b d f.caller = .grant) (hbut : s.RestsBut i) :
    s.OnlyTile b d (s.go i) ∧ (s.go i).flight? i = some (f.reads b d (s.descOf b d)) ∧ (s.go i).AtRest ∧
      (s.go i).descOf b d = setFld (s.descOf b d) 336 8 (dReaders (s.descOf b d) + 1) := by
  have hid := State.id_of_flight? h
  subst hid
  have hn := s.readDesc_onlyNoted b d
  have hfl : ((s.readDesc b d).1.putDesc b d (setFld (s.descOf b d) 336 8 (dReaders (s.descOf b d) + 1))).flights = s.flights :=
    (congrArg State.flights hn.1 :)
  have hfound := State.flight?_putFlight (g := f.reads b d (s.descOf b d)) ((State.flight?_of_flights hfl f.id).trans h)
  rw [State.go_of_read h hrun hplan hdrop (State.askRead_of_grant hgate) hfound (by simp [Flight.reads])]
  exact ⟨(hn.onlyTile.trans (State.putDesc_onlyTile _ b d _)).trans (State.putFlight_onlyTile _ b d _), hfound,
    State.RestsBut.putFlight (g := f.reads b d (s.descOf b d)) (hbut.of_flights hfl) (by simp [Flight.reads]) rfl,
    State.descOf_putDesc_self _ b d _⟩

/-! ### A write granted (R44, R143) -/

/-- The flight of a write that its gate grants. -/
def State.writes (s : State) (f : Flight) (b d role : Nat) (m : Made) : Flight := { f.unheld with
  phase := .writing b d, made := some m, pend := some (s.pendingOf f b d role m), pathNo := 0, asked := [], got := [], landed := [] }

theorem State.startWrite_eq (f : Flight) (role : Nat) (m : Made) :
    s.startWrite f b d role m = ((s.openTile b d).putFlight (s.writes f b d role m)).fixWait b d := rfl

/-- A write begun: its tile is open and its flight writes it. -/
theorem State.startWrite_writes (h : s.flight? f.id = some g) (role : Nat) (m : Made) :
    s.OnlyTile b d (s.startWrite f b d role m) ∧
      (s.startWrite f b d role m).flight? f.id = some (s.writes f b d role m) ∧
      (s.startWrite f b d role m).flights = ((s.openTile b d).putFlight (s.writes f b d role m)).flights ∧
      dOpen ((s.startWrite f b d role m).descOf b d) = true := by
  rw [State.startWrite_eq]
  generalize hx : s.writes f b d role m = x
  have hxid : x.id = f.id := by rw [← hx]; rfl
  have hfound : ((s.openTile b d).putFlight x).flight? f.id = some x := by
    rw [← hxid]
    refine State.flight?_putFlight (f := g) ?_
    rw [hxid]
    exact h
  have hfl := ((s.openTile b d).putFlight x).fixWait_flights b d
  have hopen : dOpen (((s.openTile b d).putFlight x).descOf b d) = true := by
    have hv : ((s.openTile b d).putFlight x).descOf b d = setBit (s.descOf b d) 120 true := State.descOf_putDesc_self _ b d _
    rw [hv]
    exact bit_setBit_self _ (by decide) true
  refine ⟨((s.putDesc_onlyTile b d _).trans (State.putFlight_onlyTile _ b d x)).trans (State.fixWait_onlyTile _ b d),
    (State.flight?_of_flights hfl _).trans hfound, hfl,
    (State.bit_fixWait _ b d (by decide)).trans hopen⟩

theorem State.askWrite_of_grant {m : Made} (hm : s.makeOnce f b d role idx lane = .ok m) (hv : f.isScreen = true → m.violation = false)
    (hc : f.mustCompare lane m = false) (ho : (b, d) ∉ f.opened) (hr : f.isReduce = false)
    (hg : s.gateWrite b d f m.bytes.length false = .grant) (hp : s.pathTaken f b = false) :
    s.askWrite f b d role idx lane = (s.readDesc b d).1.startWrite f b d role m := by
  have hn := s.readDesc_onlyNoted b d
  have hgate : (s.readDesc b d).1.gateWrite b d f m.bytes.length false = .grant :=
    (congrArg (State.gateWrite · b d f m.bytes.length false) hn.1 :).trans hg
  have hpath : (s.readDesc b d).1.pathTaken f b = false := (congrArg (State.pathTaken · f b) hn.1 :).trans hp
  have hviol : (f.isScreen && !f.nm && m.violation) = false := by
    cases hs : f.isScreen with
    | false => rfl
    | true => rw [hv hs, Bool.and_false]
  have hnm : ({ f with nm := f.nm || false } : Flight) = f := by rw [Bool.or_false]
  have hcon : f.opened.contains (b, d) = false := by simpa using ho
  rw [State.askWrite]
  simp only [hm, hviol, hnm, Bool.false_eq_true, if_false, hc, hcon, hr, hgate, hpath]

/-- A write granted blocks its flight in the write, its tile open. -/
theorem State.go_writes {m : Made} (h : s.flight? i = some f) (hrun : f.phase = .run)
    (hplan : f.plan = .write b d role idx lane :: rest) (hdrop : f.dropped (.write b d role idx lane) = false)
    (hm : s.makeOnce f b d role idx lane = .ok m) (hv : f.isScreen = true → m.violation = false)
    (hc : f.mustCompare lane m = false) (ho : (b, d) ∉ f.opened) (hr : f.isReduce = false)
    (hgate : s.gateWrite b d f m.bytes.length false = .grant) (hp : s.pathTaken f b = false) (hbut : s.RestsBut i) :
    ∃ p, s.OnlyTile b d (s.go i) ∧ (s.go i).flight? i = some { f.unheld with
      phase := .writing b d, made := some m, pend := some p, pathNo := 0, asked := [], got := [], landed := [] } ∧
      (s.go i).AtRest ∧ dOpen ((s.go i).descOf b d) = true := by
  have hid := State.id_of_flight? h
  subst hid
  have hn := s.readDesc_onlyNoted b d
  have hfl : (s.readDesc b d).1.flights = s.flights := (congrArg State.flights hn.1 :)
  obtain ⟨honly, hfound, hflights, hopen⟩ := State.startWrite_writes (b := b) (d := d)
    ((State.flight?_of_flights hfl f.id).trans h) role m
  rw [State.go_of_write h hrun hplan hdrop (State.askWrite_of_grant hm hv hc ho hr hgate hp) hfound (by simp [State.writes])]
  refine ⟨_, hn.onlyTile.trans honly, hfound, ?_, hopen⟩
  have hrest := State.RestsBut.putFlight (g := (s.readDesc b d).1.writes f b d role m) (hbut.of_flights hfl)
    (by simp [State.writes]) rfl
  intro x hx
  rw [hflights] at hx
  exact hrest x hx

end Sys2Proof.Machine
end

section
set_option Elab.async false -- the whole text is compiled in one process, within a fixed memory
/-! SUPPORT. Requests held at a gate and tried again (R46, R47). -/
namespace Sys2Proof.Machine

variable {s t u : State} {f g : Flight} {b d i role idx lane : Nat} {rest : List PStep}

/-- What a granted read says of its tile. -/
theorem State.free_of_gateRead {c : Caller} (h : s.gateRead b d c = .grant) :
    dWriteWait (s.descOf b d) = false ∧ dReaders (s.descOf b d) ≠ 255 := by
  unfold State.gateRead at h
  simp only at h
  split at h
  · cases h
  split at h
  · cases h
  split at h
  · cases h
  next hw =>
  split at h
  · cases h
  next hr =>
  simp only [Bool.or_eq_true, not_or, Bool.not_eq_true] at hw
  exact ⟨hw.2, hr⟩

theorem dReaders_counted (v : BitVec 512) (h : dReaders v ≠ 255) : dReaders (setFld v 336 8 (dReaders v + 1)) = dReaders v + 1 := by
  have hlt : dReaders v < 2 ^ 8 := fld_lt _ _ _
  have : dReaders v + 1 < 2 ^ 8 := by omega
  rw [dReaders, fld_setFld_self _ _ _ _ (by decide), Nat.mod_eq_of_lt this]

/-- An open tile holds a read. -/
theorem State.gateRead_of_open {c : Caller} (ho : dOpen (s.descOf b d) = true) (hb : s.descBad b d = false)
    (hs : dStale (s.descOf b d) = false) : s.gateRead b d c = .held false := by
  simp [State.gateRead, ho, hb, hs]

theorem State.bump_onlyTile (s : State) (b d : Nat) : s.OnlyTile b d (s.bump (.bsnTileSt b) 0 32) where
  rest := by unfold State.bump; split <;> rfl
  reg _ hr := s.reg_bump_ne (hr b).2.2 _ _ _
  desc _ _ := by unfold State.bump; split <;> rfl

/-- The flight of a request that its gate holds, which takes a hold slot where `take` says so. -/
def State.heldFlight (s : State) (f : Flight) (ph : Phase) (take : Bool) : Flight := { f with
  phase := ph, attempts := f.attempts + 1, inSlot := take
  heldNo := if (take && !f.inSlot) = true ∨ f.heldNo = 0 then s.nextFlight else f.heldNo
  waitClose := take && decide (f.attempts + 1 ≥ 8) }

/-- A flight put to rest, with a number of its own and a count of the tile where it is due one. -/
def State.placed (s : State) (x : Flight) (b : Nat) (numbered counted : Bool) : State :=
  let t := (if numbered then { s with nextFlight := s.nextFlight + 1 } else s).putFlight x
  if counted then t.bump (.bsnTileSt b) 0 32 else t

theorem State.placed_flights (s : State) (x : Flight) (b : Nat) (numbered counted : Bool) :
    (s.placed x b numbered counted).flights = (s.putFlight x).flights := by
  cases numbered <;> cases counted <;> rfl

theorem State.placed_onlyTile (s : State) (x : Flight) (b d : Nat) (numbered counted : Bool) :
    s.OnlyTile b d (s.placed x b numbered counted) := by
  have hnum : s.OnlyTile b d ((if numbered then { s with nextFlight := s.nextFlight + 1 } else s).putFlight x) := by
    cases numbered <;> exact ⟨rfl, fun _ _ => rfl, fun _ _ => rfl⟩
  unfold State.placed
  cases counted with
  | false => exact hnum
  | true => exact hnum.trans (State.bump_onlyTile _ b d)

/-- A held request has its flight held, with one attempt more. -/
theorem State.hold_holds {ph : Phase} (h : s.flight? f.id = some g) (hbut : s.RestsBut f.id) (hrun : ph ≠ .run)
    (hwait : ({ f with phase := ph } : Flight).waiting = false) :
    ∃ x, s.OnlyTile b d (s.hold f ph b d false) ∧ (s.hold f ph b d false).flight? f.id = some x ∧
      x.phase = ph ∧ x.attempts = f.attempts + 1 ∧ (s.hold f ph b d false).AtRest := by
  obtain ⟨x, n, c, heq, hid, hph, hat, hw⟩ : ∃ x n c, s.hold f ph b d false = s.placed x b n c ∧ x.id = f.id ∧ x.phase = ph ∧
      x.attempts = f.attempts + 1 ∧ x.waiting = false := by
    generalize htake : (f.inSlot || s.slotFor b f) = take
    refine ⟨s.heldFlight f ph take, decide ((take && !f.inSlot) = true ∨ (s.heldFlight f ph take).heldNo = s.nextFlight),
      decide (take = true ∧ (f.attempts + 1 = 8 ∨ (take && !f.inSlot) = true ∧ f.attempts + 1 > 8)), ?_, rfl, rfl, rfl, hwait⟩
    unfold State.hold State.placed
    simp only [htake, decide_eq_true_eq, Bool.false_eq_true, false_and, if_false]
    rfl
  have hfl := s.placed_flights x b n c
  rw [heq]
  refine ⟨x, s.placed_onlyTile x b d n c, ?_, hph, hat, ?_⟩
  · rw [State.flight?_of_flights hfl, ← hid]
    exact State.flight?_putFlight (hid ▸ h)
  · intro y hy
    rw [hfl] at hy
    exact State.RestsBut.putFlight (hid ▸ hbut) (hph ▸ hrun) hw y hy

/-! ### Tried again -/

/-- A held read that its gate holds again. -/
theorem State.go_holds (h : s.flight? i = some f) (hrun : f.phase = .run) (hplan : f.plan = .read b d role idx lane :: rest)
    (hdrop : f.dropped (.read b d role idx lane) = false) {w : Bool} (hgate : s.gateRead b d f.caller = .held w) (hbut : s.RestsBut i) :
    ∃ x, s.OnlyTile b d (s.go i) ∧ (s.go i).flight? i = some x ∧ x.phase = .heldRead b d ∧ x.attempts = f.attempts + 1 ∧
      (s.go i).AtRest := by
  have hid := State.id_of_flight? h
  subst hid
  have hn := s.readDesc_onlyNoted b d
  have hfl : (s.readDesc b d).1.flights = s.flights := (congrArg State.flights hn.1 :)
  have hg : (s.readDesc b d).1.gateRead b d f.caller = .held w := (congrArg (State.gateRead · b d f.caller) hn.1 :).trans hgate
  have hask : s.askRead f b d idx lane = (s.readDesc b d).1.hold f (.heldRead b d) b d false := by
    rw [State.askRead]
    simp only [hg]
  obtain ⟨x, honly, hfound, hph, hat, hrest⟩ := State.hold_holds (b := b) (d := d) (ph := .heldRead b d)
    ((State.flight?_of_flights hfl f.id).trans h) (hbut.of_flights hfl) (by simp) rfl
  rw [State.go_of_read h hrun hplan hdrop hask hfound (by simp [hph])]
  exact ⟨x, hn.onlyTile.trans honly, hfound, hph, hat, hrest⟩

/-- A flight set to run again. -/
def State.again (s : State) (f : Flight) : State := s.putFlight { f with phase := .run }

theorem State.retry_of_read (h : s.flight? i = some f) (hph : f.phase = .heldRead b d) :
    s.retry i = ((s.again f).fixWait b d).go i := by
  rw [State.retry]
  simp only [h, hph]
  rfl

theorem State.retry_of_write (h : s.flight? i = some f) (hph : f.phase = .heldWrite b d) :
    s.retry i = ((s.again f).go i).fixWait b d := by
  rw [State.retry]
  simp only [h, hph]
  rfl

theorem execRetry {c : Instr} (h : s.flight? f.id = some f) (hc : c = (if f.inSlot then Instr.holdRetry f.id else .returnedRequestReissue f.id))
    (hw : f.waitClose = false) (hph : f.phase = .heldRead b d ∨ f.phase = .heldWrite b d) :
    exec c s = .next (s.retry f.id).runReady := by
  have hretry (slot : Bool) (hslot : f.inSlot = slot) : s.retryHeld f.id slot = (s.retry f.id).runReady := by
    rw [State.retryHeld]
    rcases hph with hph | hph <;> simp [h, hslot, hw, hph]
  cases hs : f.inSlot with
  | true =>
    rw [hc, hs]
    exact congrArg Host.Outcome.next (hretry true hs)
  | false =>
    rw [hc, hs]
    exact congrArg Host.Outcome.next (hretry false hs)

theorem State.OnlyTile.gateRead_of_desc (h : s.OnlyTile b d t) (hd : t.descOf b d = s.descOf b d) (hb : t.descBad b d = s.descBad b d)
    (c : Caller) : t.gateRead b d c = s.gateRead b d c := by
  have hlock : t.lockedByOther b d c = s.lockedByOther b d c := by
    have hlocks : t.locks = s.locks := (congrArg State.locks h.rest :)
    simp only [State.lockedByOther, State.ownsLock, State.lockOf, hd, hlocks]
  simp only [State.gateRead, hb, hd, hlock]

/-- Clearing WRITE_WAIT leaves what the check bits find of the descriptor: an error that is not corrected. -/
theorem State.descBad_fixWait (s : State) (b d : Nat) : (s.fixWait b d).descBad b d = s.descBad b d := by
  have hput (v : BitVec 512) : (s.putDesc b d v).descBad b d = s.descBad b d := by
    have z : findingOf 0 = .clean := rfl
    unfold State.descBad State.putDesc afterPart
    cases e : findingOf (nget s.descChk 0 (dkey b d)) with
    | corrected i => simp only [nget_nset_self, z]
    | clean => simp only [e]
    | bad r c => simp only [e]
  unfold State.fixWait
  split
  · exact hput _
  · rfl

theorem State.pathTaken_again (h : s.pathTaken f b = false) : (s.again f).pathTaken { f with phase := .run } b = false := by
  rw [State.pathTaken, List.any_eq_false] at h ⊢
  intro x hx
  obtain ⟨y, hy, hxy⟩ := List.mem_map.1 hx
  by_cases hid : y.id = f.id
  · rw [if_pos (show y.id = ({ f with phase := .run } : Flight).id from hid)] at hxy
    simp [← hxy]
  · rw [if_neg (show ¬ y.id = ({ f with phase := .run } : Flight).id from hid)] at hxy
    exact hxy ▸ h y hy

section
variable (h : s.flight? f.id = some f) (hrest : s.AtRest)
include h hrest

theorem State.again_found : (s.again f).flight? f.id = some { f with phase := .run } ∧ (s.again f).RestsBut f.id :=
  ⟨State.flight?_putFlight (g := { f with phase := .run }) h, State.RestsBut.putFlight_self (g := { f with phase := .run }) (hrest.restsBut _)⟩

/-- A held read whose gate grants it. -/
theorem State.retry_reads (hph : f.phase = .heldRead b d) (hplan : f.plan = .read b d role idx lane :: rest)
    (hdrop : f.dropped (.read b d role idx lane) = false) (hgate : s.gateRead b d f.caller = .grant) :
    ∃ g, s.OnlyTile b d (s.retry f.id) ∧ (s.retry f.id).flight? f.id = some g ∧ g.phase = .reading b d ∧ g.attempts = 0 ∧
      g.inSlot = false ∧ dReaders ((s.retry f.id).descOf b d) = dReaders (s.descOf b d) + 1 ∧ (s.retry f.id).AtRest := by
  obtain ⟨hclear, hfew⟩ := State.free_of_gateRead hgate
  obtain ⟨hfound, hbut⟩ := s.again_found h hrest
  rw [State.retry_of_read h hph, State.fixWait_of_clear (show dWriteWait ((s.again f).descOf b d) = false from hclear)]
  obtain ⟨honly, hg, hr, hd⟩ := State.go_reads hfound rfl hplan hdrop (show (s.again f).gateRead b d f.caller = .grant from hgate) hbut
  exact ⟨_, (State.putFlight_onlyTile s b d _).trans honly, hg, rfl, rfl, rfl,
    (congrArg dReaders hd).trans (dReaders_counted _ hfew), hr⟩

/-- A held read whose tile is open. -/
theorem State.retry_holds (hph : f.phase = .heldRead b d) (hplan : f.plan = .read b d role idx lane :: rest)
    (hdrop : f.dropped (.read b d role idx lane) = false) (ho : dOpen (s.descOf b d) = true) (hb : s.descBad b d = false)
    (hs : dStale (s.descOf b d) = false) :
    ∃ g, s.OnlyTile b d (s.retry f.id) ∧ (s.retry f.id).flight? f.id = some g ∧ g.phase = .heldRead b d ∧
      g.attempts = f.attempts + 1 ∧ (s.retry f.id).AtRest := by
  obtain ⟨hfound, hbut⟩ := s.again_found h hrest
  rw [State.retry_of_read h hph]
  have hfl := (s.again f).fixWait_flights b d
  have hgate : ((s.again f).fixWait b d).gateRead b d f.caller = .held false := State.gateRead_of_open
    (((s.again f).bit_fixWait b d (by decide)).trans ho) (((s.again f).descBad_fixWait b d).trans hb)
    (((s.again f).bit_fixWait b d (by decide)).trans hs)
  obtain ⟨x, honly, hx, hxp, hxa, hr⟩ := State.go_holds ((State.flight?_of_flights hfl _).trans hfound) rfl hplan hdrop hgate
    (hbut.of_flights hfl)
  exact ⟨x, ((State.putFlight_onlyTile s b d _).trans (State.fixWait_onlyTile _ b d)).trans honly, hx, hxp, hxa, hr⟩

/-- A held write whose gate grants it. -/
theorem State.retry_writes {m : Made} (hph : f.phase = .heldWrite b d) (hplan : f.plan = .write b d role idx lane :: rest)
    (hdrop : f.dropped (.write b d role idx lane) = false) (hm : f.made = some m) (hr : f.isReduce = false)
    (hc : f.mustCompare lane m = false) (ho : (b, d) ∉ f.opened) (hv : f.isScreen = true → m.violation = false)
    (hgate : (s.again f).gateWrite b d { f with phase := .run } m.bytes.length false = .grant) (hp : s.pathTaken f b = false) :
    ∃ g, s.OnlyTile b d (s.retry f.id) ∧ (s.retry f.id).flight? f.id = some g ∧ g.phase = .writing b d ∧ g.made = some m ∧
      g.attempts = 0 ∧ g.inSlot = false ∧ dOpen ((s.retry f.id).descOf b d) = true ∧ (s.retry f.id).AtRest := by
  obtain ⟨hfound, hbut⟩ := s.again_found h hrest
  have hmake : (s.again f).makeOnce { f with phase := .run } b d role idx lane = .ok m := by simp only [State.makeOnce, hm]
  obtain ⟨p, honly, hg, hrest', hopen⟩ := State.go_writes hfound rfl hplan hdrop hmake hv hc ho hr hgate (State.pathTaken_again hp) hbut
  rw [State.retry_of_write h hph]
  have hfl := ((s.again f).go f.id).fixWait_flights b d
  refine ⟨_, ((State.putFlight_onlyTile s b d _).trans honly).trans (State.fixWait_onlyTile _ b d),
    (State.flight?_of_flights hfl _).trans hg, rfl, rfl, rfl, rfl, (State.bit_fixWait _ b d (by decide)).trans hopen, ?_⟩
  intro x hx
  rw [hfl] at hx
  exact hrest' x hx

end

/-- Settles O26: tried again, the request asks its gate as at first; granted it blocks its flight in the read or the write. -/
theorem heldRequests : Obligations.HeldRequests := by
  unfold Obligations.HeldRequests
  intro s f b d role i l rest c h hc hw hrest
  refine ⟨fun hph hplan hdrop => ?_, fun m hph hplan hdrop hm hr hcmp ho hv hgate hp => ?_⟩
  · have hexec := execRetry h hc hw (.inl hph)
    refine ⟨fun hgate => ?_, fun ho hb hs => ?_⟩
    · obtain ⟨g, honly, hg, hgp, hga, hgs, hread, hr⟩ := s.retry_reads h hrest hph hplan hdrop hgate
      rw [State.runReady_of_atRest hr] at hexec
      exact ⟨_, g, hexec, hg, hgp, hga, hgs, hread, honly.mem, honly.gauge⟩
    · obtain ⟨g, honly, hg, hgp, hga, hr⟩ := s.retry_holds h hrest hph hplan hdrop ho hb hs
      rw [State.runReady_of_atRest hr] at hexec
      exact ⟨_, g, hexec, hg, hgp, hga, honly.mem, honly.gauge⟩
  · have hexec := execRetry h hc hw (.inr hph)
    obtain ⟨g, honly, hg, hgp, hgm, hga, hgs, hopen, hrest'⟩ := s.retry_writes h hrest hph hplan hdrop hm hr hcmp ho hv hgate hp
    rw [State.runReady_of_atRest hrest'] at hexec
    exact ⟨_, g, hexec, hg, hgp, hgm, hga, hgs, hopen, honly.mem, honly.gauge⟩

end Sys2Proof.Machine
end

section
set_option Elab.async false -- the whole text is compiled in one process, within a fixed memory
/-! SUPPORT. Culverts as ports: responses that end a `SEND`, credits, lanes, training (R147, R351, R413–R416). -/
namespace Sys2Proof.Machine

variable {s t u : State} {f g : Flight} {i : Nat}

/-! ### A flight's end leaves the others (R122) -/

/-- Flights keep their numbers, those other than `i` their phases; lists and rings are as they were. -/
structure State.FlightsKept (s : State) (i : Nat) (t : State) : Prop where
  flights : ∃ h : Flight → Flight, t.flights = s.flights.map h ∧ ∀ x, (h x).id = x.id ∧ (x.id ≠ i → (h x).phase = x.phase)
  lists : t.lists = s.lists
  rings : t.rings = s.rings

theorem State.FlightsKept.of_flights (hf : t.flights = s.flights) (hl : t.lists = s.lists) (hr : t.rings = s.rings) :
    s.FlightsKept i t := ⟨⟨id, by simp [hf], fun _ => ⟨rfl, fun _ => rfl⟩⟩, hl, hr⟩

theorem State.FlightsKept.trans (h : s.FlightsKept i t) (k : t.FlightsKept i u) : s.FlightsKept i u := by
  obtain ⟨x, hx, hxk⟩ := h.flights
  obtain ⟨y, hy, hyk⟩ := k.flights
  refine ⟨⟨y ∘ x, by rw [hy, hx, List.map_map], fun z => ⟨?_, fun hz => ?_⟩⟩, k.lists.trans h.lists, k.rings.trans h.rings⟩
  · exact (hyk _).1.trans (hxk z).1
  · exact ((hyk _).2 ((hxk z).1 ▸ hz)).trans ((hxk z).2 hz)

theorem State.FlightsKept.refl (s : State) : s.FlightsKept i s := .of_flights rfl rfl rfl

theorem State.putFlight_flightsKept (s : State) (g : Flight) : s.FlightsKept g.id (s.putFlight g) := by
  refine ⟨⟨_, rfl, fun x => ⟨?_, fun hx => by rw [if_neg hx]⟩⟩, rfl, rfl⟩
  by_cases hx : x.id = g.id
  · rw [if_pos hx, hx]
  · rw [if_neg hx]

theorem State.putFld_flightsKept (s : State) (r : Reg) (lo n v : Nat) : s.FlightsKept i (s.putFld r lo n v) :=
  .of_flights rfl rfl rfl

theorem State.bump_flightsKept (s : State) (r : Reg) (lo n k : Nat) : s.FlightsKept i (s.bump r lo n k) := by
  unfold State.bump
  split <;> exact .of_flights rfl rfl rfl

theorem State.setUnit_flightsKept (s : State) (x : UnitRef) (v : Nat) : s.FlightsKept i (s.setUnit x v) := by
  unfold State.setUnit
  split <;> exact .of_flights rfl rfl rfl

theorem State.closeBroken_flightsKept (s : State) (b d : Nat) : s.FlightsKept i (s.closeBroken b d) := by
  have heq : s.closeBroken b d = ((s.leaveTile b d).putDesc b d
      (dNextGen (setBit (setBit (setBit (s.descOf b d) 120 false) 121 true) 125 true))).bump (.bsnTileSt b) 32 16 := rfl
  have hleave : s.FlightsKept i (s.leaveTile b d) := ⟨⟨_, rfl, fun _ => ⟨rfl, fun _ => rfl⟩⟩, rfl, rfl⟩
  rw [heq]
  generalize dNextGen (setBit (setBit (setBit (s.descOf b d) 120 false) 121 true) 125 true) = v
  have hput : (s.leaveTile b d).FlightsKept i ((s.leaveTile b d).putDesc b d v) := .of_flights rfl rfl rfl
  exact (hleave.trans hput).trans (State.bump_flightsKept _ (.bsnTileSt b) 32 16 1)

theorem State.freeUnit_flightsKept (s : State) (f : Flight) (r : Repeat) : s.FlightsKept i (s.freeUnit f r) := by
  unfold State.freeUnit
  simp only
  split
  · split
    · exact s.setUnit_flightsKept _ _
    · exact .refl s
  · exact .refl s

theorem State.releaseUnits_flightsKept (s : State) (us : List UnitRef) : s.FlightsKept i (s.releaseUnits us) := by
  refine foldl_keeps (s.FlightsKept i) _ (fun t x h => h.trans ?_) _ _ (.refl s)
  split
  · exact t.setUnit_flightsKept _ _
  · exact .refl t

/-- The tiles a flight leaves open are closed, its repeats and its requests gone. -/
def State.cleared (s : State) (f : Flight) : State :=
  f.rep.foldl (fun (s : State) r => s.freeUnit f r) ((s.closeOpened f.opened).dropRequests f.id)

theorem State.cleared_flightsKept (s : State) (f : Flight) : s.FlightsKept i (s.cleared f) := by
  refine foldl_keeps (s.FlightsKept i) _ (fun t r h => h.trans (t.freeUnit_flightsKept f r)) _ _ ?_
  refine State.FlightsKept.trans (t := s.closeOpened f.opened) ?_ (.of_flights rfl rfl rfl)
  rw [State.closeOpened]
  exact foldl_keeps (s.FlightsKept i) _ (fun t x h => h.trans (t.closeBroken_flightsKept _ _)) _ _ (.refl s)

/-- From `s` to `t` every flight numbered `i` has left, and the others rest as they did. -/
structure State.FlightGone (s : State) (i : Nat) (t : State) : Prop where
  gone : ∀ x ∈ t.flights, x.id ≠ i
  count : s.flights.length = t.flights.length + (s.flights.filter fun g => g.id = i).length
  rest : s.RestsBut i → t.AtRest

theorem State.FlightsKept.gone (h : s.FlightsKept i t) (hu : u.flights = t.flights.filter fun x => x.id ≠ i) : s.FlightGone i u := by
  obtain ⟨x, hx, hxk⟩ := h.flights
  have hfl : u.flights = (s.flights.filter fun y => y.id ≠ i).map x := by
    rw [hu, hx, List.filter_map]
    congr 1
    refine List.filter_congr fun y _ => ?_
    simp [(hxk y).1]
  refine ⟨fun y hy => ?_, ?_, fun hbut y hy => ?_⟩
  · rw [hu] at hy
    simpa using (List.mem_filter.1 hy).2
  · rw [hfl, List.length_map]
    have := List.length_eq_length_filter_add (l := s.flights) fun y => decide (y.id ≠ i)
    simpa using this
  · rw [hfl] at hy
    obtain ⟨z, hz, rfl⟩ := List.mem_map.1 hy
    obtain ⟨hmem, hne⟩ := List.mem_filter.1 hz
    have hne : z.id ≠ i := by simpa using hne
    have hph := (hxk z).2 hne
    obtain ⟨hrun, hwait⟩ := hbut z hmem hne
    exact ⟨hph ▸ hrun, (show (x z).waiting = z.waiting by simp only [Flight.waiting, hph]) ▸ hwait⟩

theorem State.FlightGone.kept (h : s.FlightGone i t) (k : t.FlightsKept i u) : s.FlightGone i u := by
  obtain ⟨x, hx, hxk⟩ := k.flights
  refine ⟨fun y hy => ?_, ?_, fun hbut y hy => ?_⟩
  · rw [hx] at hy
    obtain ⟨z, hz, rfl⟩ := List.mem_map.1 hy
    exact (hxk z).1 ▸ h.gone z hz
  · rw [hx, List.length_map]
    exact h.count
  · rw [hx] at hy
    obtain ⟨z, hz, rfl⟩ := List.mem_map.1 hy
    have hph := (hxk z).2 (h.gone z hz)
    obtain ⟨hrun, hwait⟩ := h.rest hbut z hz
    exact ⟨hph ▸ hrun, (show (x z).waiting = z.waiting by simp only [Flight.waiting, hph]) ▸ hwait⟩

/-! ### A ring's packet that a flight finishes (R205, R226) -/

/-- A ring's packet finished with what its flight counted: its reply waits last. -/
theorem State.finish_counted (hrun : s.ListsRun) (k spawn off : Nat) (p : Packet) (b start : Nat) (o : Outcome) (once : Bool) (x : Stats) :
    ∃ rp, ((s.finish (.ring k) spawn off p b start o once x).ring k).waiting = (s.ring k).waiting ++ [rp] ∧
      rp.Answers p o.status o.w0 false ∧ (s.finish (.ring k) spawn off p b start o once x).flights = s.flights := by
  obtain ⟨st, e⟩ := s.packetDone_ring_eq k spawn off p b start o once x
  have hsettle : s.finish (.ring k) spawn off p b start o once x = s.packetDone (.ring k) spawn off p b start o once x :=
    State.settle_of_listsRun (State.packetDone_ring hrun k spawn off p b start o once x).run _
  have hacc := (s.dueInc_accounted b p (once = true ∧ o.status.failed = false)).trans_stats (State.addStats_accounted _ (.ring k) st)
  rw [hsettle, e]
  refine ⟨(s.marked (.ring k) b p o).reply p false (s.cycle - start), by simp [State.queueReply, hacc.waiting],
    s.marked_answers (.ring k) b p o false _, ?_⟩
  have hdue : (if once = true ∧ o.status.failed = false then s.dueInc b p.gauge p.inc.toNat else s).flights = s.flights := by
    unfold State.dueInc
    split_ifs <;> rfl
  simpa [State.queueReply, State.addStats] using hdue

/-! ### The end of a `SEND` (R147) -/

theorem Flight.status_outcome (f : Flight) : f.outcome.status = f.status := by
  unfold Flight.outcome
  simp only
  repeat' split
  all_goals rfl

theorem Flight.not_matrix_of_isOp {op : Nat} (h : f.isOp op = true) (hop : op ≠ 0x18 ∧ op ≠ 0x19) : f.isMatrix = false := by
  simp only [Flight.isOp, Bool.and_eq_true, decide_eq_true_eq] at h
  obtain ⟨-, rfl⟩ := h
  simp [Flight.isMatrix, hop.1, hop.2]

/-- Before it answers, a plain flight has left and its units are idle. -/
theorem State.endFlight_answers (hop : f.isOp 0x13 = true) (hall : f.responses.any (·.2.isNone) = false) :
    ∃ v, s.endFlight f = v.finish f.src f.caller.spawn f.off f.pkt f.basin f.startCycle f.outcome (f.isOp 0x23) f.stats ∧
      s.FlightGone f.id v ∧ v.lists = s.lists ∧ v.rings = s.rings := by
  obtain ⟨harr, hres⟩ : f.arrival = none ∧ f.restore = false := by
    simp only [Flight.isOp, Bool.and_eq_true, Option.isNone_iff_eq_none, Bool.not_eq_true'] at hop
    exact ⟨hop.1.1, hop.1.2⟩
  have hcl := s.cleared_flightsKept (i := f.id) f
  have hdrop := hcl.gone (u := (s.cleared f).dropFlight f) rfl
  have hrel := ((s.cleared f).dropFlight f).releaseUnits_flightsKept (i := f.id) f.units
  have hw := hdrop.kept hrel
  have hwl := hrel.lists.trans hcl.lists
  have hwr := hrel.rings.trans hcl.rings
  have hbump (r : Reg) : s.FlightGone f.id ((((s.cleared f).dropFlight f).releaseUnits f.units).bump r 0 32) ∧
      ((((s.cleared f).dropFlight f).releaseUnits f.units).bump r 0 32).lists = s.lists ∧
      ((((s.cleared f).dropFlight f).releaseUnits f.units).bump r 0 32).rings = s.rings := by
    have hk := (((s.cleared f).dropFlight f).releaseUnits f.units).bump_flightsKept (i := f.id) r 0 32 1
    exact ⟨hw.kept hk, hk.lists.trans hwl, hk.rings.trans hwr⟩
  rw [State.endFlight]
  simp only [hres, Bool.false_eq_true, if_false, harr, hall]
  refine ⟨_, rfl, ?_⟩
  split
  · exact ⟨hw, hwl, hwr⟩
  · split
    · exact hbump _
    · exact hbump _
    · exact ⟨hw, hwl, hwr⟩

/-! ### A response (R147, R416) -/

/-- The responses of a `SEND` once one tile has its own. -/
def Flight.answered (f : Flight) (tile : Nat) (st : Status) : Flight := { f with
  responses := f.responses.map fun (x : Nat × Option Status) => if x.1 = tile then (tile, some st) else x }

/-- An exchange leaves its culvert. -/
def State.dropExchange (s : State) (c : Nat) (e : Exchange) : State :=
  s.putCulvert c { s.culvert c with exchanges := (s.culvert c).exchanges.filter (·.xtag ≠ e.xtag) }

theorem execCulvertResponse_eq {c : Nat} {x : BitVec 32} {e : Exchange} (hrel : s.start.released = true) (hsite : s.site ≠ stScrub)
    (he : (s.culvert c).exchanges.find? (fun y => y.xtag = x && y.sent) = some e) (st : Byte) :
    exec (.culvertResponse c x st) s = .next ((s.dropExchange c e).tileAnswered e.flight e.tile (responseStatus st)) := by
  have hexec : execCulvertResponse c x st s = .next ((s.dropExchange c e).tileAnswered e.flight e.tile (responseStatus st)) := by
    unfold execCulvertResponse
    simp only [hrel, hsite, ne_eq, not_false_eq_true, and_self, if_true, he]
    rfl
  exact hexec

theorem State.tileAnswered_of_sending {tile : Nat} {st : Status} (h : s.flight? i = some f) (hph : f.phase ≠ .responses) :
    s.tileAnswered i tile st = s.putFlight (f.answered tile st) := by
  rw [State.tileAnswered]
  simp only [h, hph, false_and, if_false]
  rfl

/-- The last response lets the packet end. -/
theorem State.tileAnswered_of_last {tile : Nat} {st : Status} (h : s.flight? i = some f) (hph : f.phase = .responses)
    (hall : (f.answered tile st).responses.all (·.2.isSome) = true) :
    s.tileAnswered i tile st = ((s.putFlight { f.answered tile st with phase := .run }).go i).runReady := by
  have hid := State.id_of_flight? h
  subst hid
  rw [Flight.answered] at hall
  rw [State.tileAnswered]
  simp only [h, hph, true_and, hall, if_true]
  rfl

/-- A `SEND` of a ring whose one tile has its response: its reply carries the status, and its flight has left. -/
theorem State.send_ends {tile r : Nat} {st : Status} (h : s.flight? i = some f) (hres : f.responses = [(tile, none)])
    (hph : f.phase = .responses) (hplan : f.plan = []) (hop : f.isOp 0x13 = true) (hsrc : f.src = .ring r) (hrun : s.ListsRun)
    (hrest : s.AtRest) : ∃ rp, s.flights.length = (s.tileAnswered i tile st).flights.length + (s.flights.filter fun g => g.id = i).length ∧
      ((s.tileAnswered i tile st).ring r).waiting = (s.ring r).waiting ++ [rp] ∧ rp.tag = f.pkt.tag ∧ rp.seq = f.pkt.seq ∧
      (st ≠ .ok → rp.status = st) := by
  have hid := State.id_of_flight? h
  subst hid
  generalize hg : ({ f.answered tile st with phase := .run } : Flight) = g
  have hresp : g.responses = [(tile, some st)] := by simp [← hg, Flight.answered, hres]
  have hgid : g.id = f.id := by rw [← hg]; rfl
  have hgop : g.isOp 0x13 = true := by rw [← hg]; exact hop
  have hgsrc : g.src = .ring r := by rw [← hg]; exact hsrc
  have hpkt : g.pkt = f.pkt := by rw [← hg]; rfl
  have hfound : (s.putFlight g).flight? f.id = some g := hgid ▸ State.flight?_putFlight (hgid ▸ h)
  have hend : s.tileAnswered f.id tile st = ((s.putFlight g).endFlight g).runReady := by
    rw [State.tileAnswered_of_last h hph (by simp [Flight.answered, hres]), hg,
      State.go_of_done hfound (by rw [← hg]) (by rw [← hg]; exact hplan)]
  have hput := s.putFlight_flightsKept g
  rw [hgid] at hput
  obtain ⟨v, hv, hgone, hvl, hvr⟩ := State.endFlight_answers (s := s.putFlight g) hgop (by simp [hresp])
  rw [hgid] at hgone
  have hvrun : v.ListsRun := fun l hl => hrun l (by rwa [hvl, hput.lists] at hl)
  obtain ⟨rp, hwait, hans, hfl⟩ := State.finish_counted hvrun r g.caller.spawn g.off g.pkt g.basin g.startCycle g.outcome
    (g.isOp 0x23) g.stats
  rw [hgsrc] at hv
  have hrested : ((s.putFlight g).endFlight g).AtRest := by
    intro x hx
    rw [hv, hfl] at hx
    refine hgone.rest ?_ x hx
    have := State.RestsBut.putFlight_self (g := g) (hrest.restsBut _)
    rwa [hgid] at this
  rw [hend, State.runReady_of_atRest hrested, hv]
  obtain ⟨-, hseq, htag, -, -, hstatus⟩ := hans
  have hfail (hst : st ≠ .ok) : g.outcome.status = st := by
    rw [Flight.status_outcome, Flight.status, Flight.not_matrix_of_isOp hgop (by decide), hresp]
    simp [hst]
  have hids : ((s.putFlight g).flights.filter fun x => x.id = f.id).length = (s.flights.filter fun x => x.id = f.id).length := by
    obtain ⟨k, hk, hkk⟩ := hput.flights
    rw [hk, List.filter_map, List.length_map]
    congr 1
    exact List.filter_congr fun x _ => by simp [(hkk x).1]
  have hlen : (s.putFlight g).flights.length = s.flights.length := List.length_map _
  refine ⟨rp, ?_, ?_, hpkt ▸ htag, hpkt ▸ hseq, fun hst => ?_⟩
  · rw [hfl, ← hids, ← hlen]
    exact hgone.count
  · rw [hwait]
    exact congrArg (fun x => (kget x RingRun.empty r).waiting ++ [rp]) (hvr.trans hput.rings)
  · rw [hfail hst] at hstatus
    rcases hstatus with h1 | ⟨h1, -⟩
    · exact h1
    · exact absurd h1 hst

/-! ### Credits (R415) -/

theorem Culvert.nextMessage_of_single {cv : Culvert} {e : Exchange} (h : cv.exchanges = [e]) (hsent : e.sent = false) (n : Nat) :
    cv.nextMessage n = some e := by
  have hw : cv.exchanges.filter (!·.sent) = [e] := by simp [h, hsent]
  rw [Culvert.nextMessage, hw]
  split <;> simp

theorem Culvert.nextMessage_of_sent {cv : Culvert} {e : Exchange} (h : cv.exchanges = [{ e with sent := true }]) (n : Nat) :
    cv.nextMessage n = none := by
  simp [Culvert.nextMessage, h]

/-- The one message that waits takes its credits and goes. -/
theorem State.grantCulvert_of_single {c : Nat} {e : Exchange} (hup : s.culState c = culUp) (hsite : s.site ≠ stScrub)
    (h : (s.culvert c).exchanges = [e]) (hsent : e.sent = false) (hfit : e.flits ≤ (s.culvert c).credits) :
    s.SameStores (State.grantCulvert 2 s c) ∧ ((State.grantCulvert 2 s c).culvert c).exchanges = [{ e with sent := true }] ∧
      ((State.grantCulvert 2 s c).culvert c).credits = (s.culvert c).credits - e.flits := by
  obtain ⟨v, hv, hgrant⟩ : ∃ v : Culvert, (v.exchanges = [{ e with sent := true }] ∧ v.credits = (s.culvert c).credits - e.flits) ∧
      State.grantCulvert 2 s c = State.grantCulvert 1 (if e.msg.flags.getLsbD 1 then
        (s.putCulvert c v).bump (.culE1St c) 0 48 (e.record.length / 65) else s.putCulvert c v) c := by
    refine ⟨{ s.culvert c with
      credits := (s.culvert c).credits - e.flits
      count := if decide ((s.culvert c).count ≥ s.culAgeN c - 1) then 0 else (s.culvert c).count + 1
      exchanges := (s.culvert c).exchanges.map fun (x : Exchange) => if x.xtag = e.xtag then { x with sent := true } else x },
      ⟨by simp [h], rfl⟩, ?_⟩
    rw [State.grantCulvert, if_neg (by simp [hup, hsite])]
    simp only [Culvert.nextMessage_of_single h hsent, if_neg (Nat.not_lt.2 hfit)]
  generalize ht : (if e.msg.flags.getLsbD 1 then
    (s.putCulvert c v).bump (.culE1St c) 0 48 (e.record.length / 65) else s.putCulvert c v) = t at hgrant
  have hcul : t.culvert c = v := by
    have hput : (s.putCulvert c v).culvert c = v := by simp [State.culvert, State.putCulvert]
    rw [← ht]
    split
    · unfold State.bump
      split <;> exact hput
    · exact hput
  have hsame : s.SameStores t := by
    rw [← ht]
    refine State.sameStores_of_lasting ?_
    split <;> simp
  have hstop : State.grantCulvert 1 t c = t := by
    rw [State.grantCulvert]
    split
    · rfl
    · simp only [Culvert.nextMessage_of_sent (hcul ▸ hv.1)]
  rw [hgrant, hstop, hcul]
  exact ⟨hsame, hv.1, hv.2⟩

/-- Credits given. -/
def State.credited (s : State) (c n : Nat) : State :=
  s.putCulvert c { s.culvert c with credits := min 1024 ((s.culvert c).credits + n) }

theorem State.credited_culvert (c n : Nat) : (s.credited c n).culvert c =
    { s.culvert c with credits := min 1024 ((s.culvert c).credits + n) } := by
  simp [State.credited, State.culvert, State.putCulvert]

theorem execCreditReceived_eq {c : Nat} (hrel : s.start.released = true) (hup : s.culState c = culUp) (n : Nat) :
    exec (.culvertCreditReceived c n) s =
      .next (State.grantCulvert ((s.culvert c).exchanges.length + 1) (s.credited c n) c) := by
  have hexec : execCulvertCreditReceived c n s =
      .next (State.grantCulvert (((s.credited c n).culvert c).exchanges.length + 1) (s.credited c n) c) := by
    unfold execCulvertCreditReceived
    simp only [hrel, hup, true_and, if_true]
    rfl
  rw [State.credited_culvert] at hexec
  exact hexec

/-! ### Lanes and training (R351, R413) -/

theorem State.culEvent_rest (s : State) (c kind site job : Nat) : (s.culEvent c kind site job).lasting = s.lasting ∧
    (∀ r, (s.culEvent c kind site job).reg r = s.reg r) ∧ (s.culEvent c kind site job).culverts = s.culverts ∧
    (s.culEvent c kind site job).start = s.start := by
  refine ⟨by simp, fun r => State.reg_of_post _ _ r, ?_, ?_⟩
  · unfold State.culEvent State.post
    split <;> rfl
  · unfold State.culEvent State.post
    split <;> rfl

theorem State.dropExchanges_of_empty {c : Nat} (h : (s.culvert c).exchanges = []) : s.dropExchanges c = s := by
  simp [State.dropExchanges, h]

/-- A lane lost, a spare in its place. -/
def State.laneLost (s : State) (c lo : Nat) : State := (s.putFld (.culSt c) lo 8 (s.rfld (.culSt c) lo 8 - 1)).culEvent c 0 0xFFFF 0

/-- A culvert retired in the cistern. -/
def State.culGone (s : State) (c : Nat) : State := { s with cistern := { s.cistern with culRetired := c :: s.cistern.culRetired } }

theorem State.laneLost_shows (s : State) (c : Nat) {lo : Nat} (hlo : lo = 32 ∨ lo = 40) : (s.laneLost c lo).lasting = s.lasting ∧
    (s.laneLost c lo).culState c = s.culState c ∧
    (s.laneLost c lo).rfld (.culSt c) lo 8 = (s.rfld (.culSt c) lo 8 - 1) % 2 ^ 8 ∧ (s.laneLost c lo).culverts = s.culverts := by
  obtain ⟨h1, h2, h3, -⟩ := (s.putFld (.culSt c) lo 8 (s.rfld (.culSt c) lo 8 - 1)).culEvent_rest c 0 0xFFFF 0
  refine ⟨h1, ?_, ?_, h3⟩
  · refine (congrArg (fld · 0 4) (h2 (.culSt c))).trans ?_
    exact State.rfld_putFld_ne _ _ _ _ _ _ _ _ (by omega)
  · refine (congrArg (fld · lo 8) (h2 (.culSt c))).trans ?_
    exact State.rfld_putFld_self _ _ _ _ _ (by omega)

section
variable {c : Nat} (hrel : s.start.released = true)
include hrel

/-- A spare takes the lane's place. -/
theorem execLaneFail_spare (hc : c < 4) (out : Bool) (hok : s.culState c ≠ culFailed)
    (hn : s.rfld (.culSt c) (if out then 40 else 32) 8 ≠ 0) :
    exec (.culvertLaneFail c out) s = .next (s.laneLost c (if out then 40 else 32)) := by
  have hexec : execCulvertLaneFail c out s = .next (s.laneLost c (if out then 40 else 32)) := by
    unfold execCulvertLaneFail
    simp only
    rw [if_neg (by simp [hrel, hok, hc])]
    exact if_pos (Nat.pos_of_ne_zero hn)
  exact hexec

/-- The culvert without a spare lane, failed. -/
def State.culDead (s : State) (c lo : Nat) : State :=
  (((s.laneLost c lo).culGone c).putFld (.culSt c) 0 4 culFailed).dropExchanges c

theorem execLaneFail_last (hc : c < 4) (out : Bool) (hok : s.culState c ≠ culFailed)
    (hn : s.rfld (.culSt c) (if out then 40 else 32) 8 = 0) :
    exec (.culvertLaneFail c out) s = .next (if s.culState c = culTraining then
      (s.culDead c (if out then 40 else 32)).trainingDone else s.culDead c (if out then 40 else 32)).recompute := by
  have hexec : execCulvertLaneFail c out s = .next (if s.culState c = culTraining then
      (s.culDead c (if out then 40 else 32)).trainingDone else s.culDead c (if out then 40 else 32)).recompute := by
    unfold execCulvertLaneFail
    simp only
    rw [if_neg (by simp [hrel, hok, hc]), if_neg (Nat.not_lt.2 (Nat.le_of_eq hn))]
    rfl
  exact hexec

/-- A link trained, or not. -/
def State.trained (s : State) (c : Nat) (good : Bool) : State :=
  if good then s.putFld (.culSt c) 0 4 (if good then culUp else culFailed)
  else (s.putFld (.culSt c) 0 4 (if good then culUp else culFailed)).culEvent c 1 0xFFFF 0

theorem execCulvertTrained_eq (htr : s.culState c = culTraining) (good : Bool) :
    exec (.culvertTrained c good) s = .next (s.trained c good).trainingDone.recompute := by
  have hexec : execCulvertTrained c good s = .next (s.trained c good).trainingDone.recompute := by
    unfold execCulvertTrained
    simp only
    rw [if_neg (by simp [hrel, htr])]
    rfl
  exact hexec

end

theorem State.culDead_shows {c lo : Nat} (hlo : lo = 32 ∨ lo = 40) (h : (s.culvert c).exchanges = []) :
    (s.culDead c lo).lasting = ((s.laneLost c lo).culGone c).lasting ∧ (s.culDead c lo).culState c = culFailed ∧
      c ∈ (s.culDead c lo).cistern.culRetired := by
  obtain ⟨-, -, -, hcul⟩ := s.laneLost_shows c hlo
  have hempty : ((((s.laneLost c lo).culGone c).putFld (.culSt c) 0 4 culFailed).culvert c).exchanges = [] :=
    (congrArg (fun x => (kget x Culvert.idle c).exchanges) hcul).trans h
  rw [State.culDead, State.dropExchanges_of_empty hempty]
  exact ⟨rfl, State.rfld_putFld_self _ _ _ _ _ (by decide), List.mem_cons_self⟩

theorem State.trained_shows (s : State) (c : Nat) (good : Bool) : (s.trained c good).lasting = s.lasting ∧
    (s.trained c good).culState c = (if good then culUp else culFailed) ∧
    ∀ c', c' ≠ c → (s.trained c good).culState c' = s.culState c' := by
  have hself : (s.putFld (.culSt c) 0 4 (if good then culUp else culFailed)).culState c = (if good then culUp else culFailed) := by
    refine (State.rfld_putFld_self _ _ _ _ _ (by decide)).trans ?_
    cases good <;> rfl
  have hother (c' : Nat) (h : c' ≠ c) : (s.putFld (.culSt c) 0 4 (if good then culUp else culFailed)).culState c' = s.culState c' :=
    congrArg (fld · 0 4) (s.reg_putFld_ne (by simpa using h) _ _ _)
  cases good with
  | true => exact ⟨rfl, hself, hother⟩
  | false =>
    obtain ⟨h1, h2, -, -⟩ := (s.putFld (.culSt c) 0 4 culFailed).culEvent_rest c 1 0xFFFF 0
    exact ⟨h1, (congrArg (fld · 0 4) (h2 (.culSt c))).trans hself, fun c' h => (congrArg (fld · 0 4) (h2 (.culSt c'))).trans (hother c' h)⟩

theorem State.trainingDone_acks (h : ∀ c, c < 4 → s.culState c ≠ culTraining) : s.trainingDone.start.fenceAck = false := by
  have hnone : ¬ ((List.range 4).any fun c => s.culState c = culTraining) = true := by
    rw [List.any_eq_true]
    rintro ⟨c, hc, htr⟩
    exact h c (List.mem_range.1 hc) (by simpa using htr)
  rw [State.trainingDone, if_neg hnone]

/-! ### Arrivals refused (R55, R378) -/

theorem State.discard_shows (s : State) (c : Nat) (m : CulMsg) : s.SameStores (s.discard c m) ∧
    ((s.discard c m).culvert c).responses = (s.culvert c).responses ++ [(m.xtag, .accessDenied)] ∧
    (s.discard c m).rfld (.culSt c) 16 16 = min (s.rfld (.culSt c) 16 16 + 1) (2 ^ 16 - 1) := by
  obtain ⟨h1, h2, h3, -⟩ := (s.bump (.culSt c) 16 16).culEvent_rest c 2 m.srcSite.toNat m.jobId.toNat
  have hcul : ((s.bump (.culSt c) 16 16).culEvent c 2 m.srcSite.toNat m.jobId.toNat).culvert c = s.culvert c := by
    rw [State.culvert, h3]
    simp [State.culvert]
  refine ⟨State.sameStores_of_lasting (by simp [State.discard]), ?_, ?_⟩
  · rw [State.discard, State.respond]
    simp only [hcul]
    simp [State.culvert, State.putCulvert]
  · refine Eq.trans ?_ (s.rfld_bump_self (.culSt c) 16 16 (by decide))
    exact congrArg (fld · 16 16) (h2 (.culSt c))

/-- An arrival that comes to be looked at. -/
theorem execCulvertArrival_eq {c n : Nat} {m : CulMsg} {rec : List Byte} {ok : Bool} (hc : c < 4) (hrel : s.start.released = true)
    (hscrub : s.site ≠ stScrub) (hawake : s.Awake) (htyp : m.typ = 1)
    (hn : n = messageFlits (if bit m.flags 1 then 64 * cdiv rec.length 65 else rec.length) (bit m.flags 1))
    (hfit : n ≤ s.creditsOut c) : exec (.culvertArrival c m rec ok) s = .next ((s.takeCredits c m.xtag n).arrives c m rec ok) := by
  have hdry : s.site ≠ stDry := by
    obtain ⟨-, h | h | h | h⟩ := hawake <;> rw [h] <;> decide
  subst hn
  have hexec : execCulvertArrival c m rec ok s = .next ((s.takeCredits c m.xtag
      (messageFlits (if bit m.flags 1 then 64 * cdiv rec.length 65 else rec.length) (bit m.flags 1))).arrives c m rec ok) := by
    unfold execCulvertArrival
    simp only
    rw [if_neg (by simp [hrel, hdry, hscrub, hc, htyp]; omega), State.wakeFor_awake hawake]
    rfl
  exact hexec

end Sys2Proof.Machine
end

section
set_option Elab.async false -- the whole text is compiled in one process, within a fixed memory
/-! SUPPORT. An arrival that opens its tile (R55, R143, R378). -/
namespace Sys2Proof.Machine

variable {s t u : State} {f g : Flight} {b d : Nat}

/-! ### A write whose tile is free -/

/-- A tile that nothing keeps from a write grants it. -/
theorem State.gateWrite_of_free {c : Caller} {len len' : Nat} (h : s.WriteFree c b d len) (hc : f.caller = c) (hlen : len' ≤ len) :
    s.gateWrite b d f len' false = .grant := by
  obtain ⟨hbad, hbound, hfit, hlock, hwait, hopen, hread⟩ := h
  have hfit' : ¬ len' > dExtentLen (s.descOf b d) * 256 := by omega
  simp [State.gateWrite, hbad, hbound, hfit', hc, hlock, hwait, hopen, hread]

/-- Where no other flight is on its path, a launched flight has it. -/
theorem State.pathTaken_of_free (h : ∀ x ∈ s.flights, x.onPath b f.turnout = false) (hf : t.flights = s.flights ++ [f]) :
    t.pathTaken f b = false := by
  rw [State.pathTaken, List.any_eq_false, hf]
  intro x hx
  rw [List.mem_append, List.mem_singleton] at hx
  rcases hx with hx | rfl
  · simp [h x hx]
  · simp

/-- A flight put among the others. -/
def State.added (s : State) (f : Flight) : State := { s with flights := s.flights ++ [f], nextFlight := s.nextFlight + 1 }

theorem State.launch_eq (s : State) (f : Flight) : s.launch f = ((s.added f).go f.id).runReady := rfl

/-! ### The arrival's flight -/

/-- What a key that has seen an arrival, and its credits, leave. -/
def State.heard (s : State) (cu c k n : Nat) (m : CulMsg) (slot : KeySlot) : State := (s.takeCredits cu m.xtag n).setKeySlot c k slot

theorem State.heard_eq (s : State) (cu c k n : Nat) (m : CulMsg) (slot : KeySlot) :
    ∃ x y, s.heard cu c k n m slot = { s with culverts := x, ctxs := y } := ⟨_, _, rfl⟩

theorem State.landingDenied_of_rest (s : State) (x : List (Nat × Culvert)) (y : List (Nat × CtxRec)) (c : Nat) (m : CulMsg) :
    ({ s with culverts := x, ctxs := y } : State).landingDenied c m = s.landingDenied c m := rfl

theorem State.landingFits_of_rest (s : State) (x : List (Nat × Culvert)) (y : List (Nat × CtxRec)) (m : CulMsg) (rec : List Byte) :
    ({ s with culverts := x, ctxs := y } : State).landingFits m rec = s.landingFits m rec := rfl

theorem State.heard_responses (s : State) (cu c k n : Nat) (m : CulMsg) (slot : KeySlot) :
    ((s.heard cu c k n m slot).culvert cu).responses = (s.culvert cu).responses := by
  have h : (s.heard cu c k n m slot).culvert cu = (s.takeCredits cu m.xtag n).culvert cu := rfl
  rw [h, State.takeCredits, State.culvert, State.putCulvert, kget_kset_self]

theorem State.land_launches {v : State} {cu c : Nat} {m : CulMsg} {rec : List Byte} (hlive : v.live m.destBasin.toNat = true)
    (hdenied : v.landingDenied c m = false) (hfits : v.landingFits m rec = true) :
    v.land cu c m rec false = v.launch (v.arrivalFlight cu c m rec false) := by
  rw [State.land]
  simp only [Bool.false_eq_true, if_false, false_and, hlive, Bool.not_true, and_false, hdenied, hfits]

/-- The flight of an arrival, once its flight numbers and the cycle are given, is one write of its record's payload. -/
theorem State.makeOnce_arrival {cu c : Nat} {m : CulMsg} {rec : List Byte} {v : State} (hred : bit m.flags 0 = false)
    (hlong : 64 + (recordParse (rec.take 64)).len ≤ rec.length) (b d : Nat) :
    ∃ x, t.makeOnce (v.arrivalFlight cu c m rec false) b d 0 0 0 = .ok x ∧ x.bytes.length = (recordParse (rec.take 64)).len := by
  refine ⟨recordMade (recordParse (rec.take (64 + (recordParse (rec.take 64)).len)))
    ((rec.take (64 + (recordParse (rec.take 64)).len)).drop 64) (t.weightClass b (t.descOf b d)) false false, ?_, ?_⟩
  · simp [State.makeOnce, State.arrivalFlight, Flight.new, Flight.isReduce, hred, Flight.isMatrix, State.make, Flight.isOp,
      Flight.isScreen, Flight.mustCompare]
  · simp only [recordMade, List.length_drop, List.length_take]
    omega

/-- An arrival that lands has its tile open, written by a flight of its own. -/
theorem State.arrival_opens {v : State} {cu c : Nat} {m : CulMsg} {rec : List Byte} (hnum : v.Numbered) (hrest : v.AtRest)
    (hred : bit m.flags 0 = false) (hfits : v.landingFits m rec = true)
    (hpath : ∀ g ∈ v.flights, g.onPath m.destBasin.toNat (20 + cu) = false)
    (hfree : v.WriteFree Caller.none m.destBasin.toNat (fld m.dstDesc 0 14) (recordParse (rec.take 64)).len) :
    ∃ f, f ∈ (v.launch (v.arrivalFlight cu c m rec false)).flights ∧ f.id = v.nextFlight ∧ f.arrival.isSome = true ∧
      f.phase = .writing m.destBasin.toNat (fld m.dstDesc 0 14) ∧
      dOpen ((v.launch (v.arrivalFlight cu c m rec false)).descOf m.destBasin.toNat (fld m.dstDesc 0 14)) = true ∧
      ((v.launch (v.arrivalFlight cu c m rec false)).culvert cu).responses = (v.culvert cu).responses := by
  have hlong : 64 + (recordParse (rec.take 64)).len ≤ rec.length := by
    simp only [State.landingFits, Bool.and_eq_true, decide_eq_true_eq] at hfits
    exact hfits.1.2
  have hmakes := fun t => State.makeOnce_arrival (t := t) (cu := cu) (c := c) (v := v) hred hlong m.destBasin.toNat (fld m.dstDesc 0 14)
  obtain ⟨hid, hrun, hplan, hopened, hcall, hturn, harr, hscreen, hmat, hreduce, hmust⟩ :
      (v.arrivalFlight cu c m rec false).id = v.nextFlight ∧ (v.arrivalFlight cu c m rec false).phase = .run ∧
      (v.arrivalFlight cu c m rec false).plan = [.write m.destBasin.toNat (fld m.dstDesc 0 14) 0 0 0] ∧
      (v.arrivalFlight cu c m rec false).opened = [] ∧ (v.arrivalFlight cu c m rec false).caller = Caller.none ∧
      (v.arrivalFlight cu c m rec false).turnout = 20 + cu ∧ (v.arrivalFlight cu c m rec false).arrival.isSome = true ∧
      (v.arrivalFlight cu c m rec false).isScreen = false ∧ (v.arrivalFlight cu c m rec false).isMatrix = false ∧
      (v.arrivalFlight cu c m rec false).isReduce = false ∧
      ∀ x, (v.arrivalFlight cu c m rec false).mustCompare 0 x = false := by
    refine ⟨rfl, rfl, rfl, rfl, rfl, rfl, rfl, rfl, rfl, hred, fun x => ?_⟩
    simp [Flight.mustCompare, State.arrivalFlight, Flight.isMatrix, Flight.isOp, Flight.isScreen]
  generalize v.arrivalFlight cu c m rec false = f at *
  obtain ⟨x, hx, hlen⟩ := hmakes (v.added f)
  have hfound := State.flight?_launched (t := v.added f) hnum hid rfl
  obtain ⟨p, honly, hg, hrested, hopen⟩ := State.go_writes hfound hrun hplan (by simp [Flight.dropped, hmat]) hx
    (fun h => by rw [hscreen] at h; cases h) (hmust x) (by simp [hopened]) hreduce
    (State.gateWrite_of_free (s := v.added f) hfree hcall (Nat.le_of_eq hlen))
    (State.pathTaken_of_free (s := v) (by rw [hturn]; exact hpath) rfl) (hrest.launched rfl)
  rw [State.launch_eq, State.runReady_of_atRest hrested]
  exact ⟨_, State.mem_of_flight? hg, hid, harr, rfl, hopen, congrArg Culvert.responses (honly.culvert cu)⟩

theorem State.takeCredits_serves {cu : Nat} (hfallow : s.site ≠ stFallow) (hdetach : s.site ≠ stDetaching) (hup : s.culState cu = culUp)
    (m : CulMsg) (j : Nat) : ¬ ((s.takeCredits cu m.xtag j).site = stFallow ∨ (s.takeCredits cu m.xtag j).site = stDetaching ∨
      ((s.takeCredits cu m.xtag j).culState cu = culFenced ∧ !(s.takeCredits cu m.xtag j).start.fencing)) := by
  have hcul : (s.takeCredits cu m.xtag j).culState cu = culUp := hup
  rintro (h | h | ⟨h, -⟩)
  · exact hfallow h
  · exact hdetach h
  · rw [hcul] at h
    cases h

theorem State.arrives_lands {cu c k j n : Nat} {jb : BitVec 32} {m : CulMsg} {rec : List Byte} {seen : List (Nat × Nat × List Nat)}
    (hfallow : s.site ≠ stFallow)
    (hdetach : s.site ≠ stDetaching) (hup : s.culState cu = culUp) (hhome : s.jobHome m.jobId = some (c, k))
    (hslot : s.keySlot c k = .job jb false n seen) (hacc : (s.keySlot c k).accepts m.srcSite.toNat m.counter.toNat = true) :
    (s.takeCredits cu m.xtag j).arrives cu m rec true = (s.heard cu c k j m ((s.keySlot c k).see m.srcSite.toNat m.counter.toNat)).land
      cu c m rec false := by
  have hhome' : (s.takeCredits cu m.xtag j).jobHome m.jobId = some (c, k) := hhome
  have hslot' : (s.takeCredits cu m.xtag j).keySlot c k = .job jb false n seen := hslot
  rw [hslot] at hacc
  rw [State.arrives, if_neg (State.takeCredits_serves hfallow hdetach hup m j)]
  simp only [hhome', hslot', hacc, hslot, Bool.not_true, Bool.or_false, Bool.false_eq_true, if_false]
  rfl

theorem State.arrives_unknown {cu j : Nat} {m : CulMsg} {rec : List Byte} {ok : Bool} (hfallow : s.site ≠ stFallow)
    (hdetach : s.site ≠ stDetaching) (hup : s.culState cu = culUp) (hhome : s.jobHome m.jobId = none) :
    (s.takeCredits cu m.xtag j).arrives cu m rec ok = (s.takeCredits cu m.xtag j).discard cu m := by
  have hhome' : (s.takeCredits cu m.xtag j).jobHome m.jobId = none := hhome
  rw [State.arrives, if_neg (State.takeCredits_serves hfallow hdetach hup m j)]
  simp only [hhome']

theorem State.takeCredits_same (s : State) (cu j : Nat) (m : CulMsg) : s.SameStores (s.takeCredits cu m.xtag j) ∧
    (s.takeCredits cu m.xtag j).rfld (.culSt cu) 16 16 = s.rfld (.culSt cu) 16 16 ∧
    ((s.takeCredits cu m.xtag j).culvert cu).responses = (s.culvert cu).responses := by
  refine ⟨⟨rfl, rfl, rfl, rfl, rfl⟩, rfl, ?_⟩
  rw [State.takeCredits, State.culvert, State.putCulvert, kget_kset_self]

/-- In a scrub nothing arrives. -/
theorem culverts_scrub {c : Nat} (hscrub : s.site = stScrub) : (∀ m rec ok, exec (.culvertArrival c m rec ok) s = .next s) ∧
    ∀ x st, exec (.culvertResponse c x st) s = .next s := by
  refine ⟨fun m rec ok => ?_, fun x st => ?_⟩
  · have hexec : execCulvertArrival c m rec ok s = .next s := by
      unfold execCulvertArrival
      exact if_pos (.inr (.inr (.inl hscrub)))
    exact hexec
  · have hexec : execCulvertResponse c x st s = .next s := by
      unfold execCulvertResponse
      exact congrArg Host.Outcome.next (if_neg (by simp [hscrub]))
    exact hexec

/-- A lane that fails, with a spare and without. -/
theorem culvertLaneFail_fails {c : Nat} (hc : c < 4) (hrel : s.start.released = true) (out : Bool) {lo : Nat}
    (hlo : lo = if out then 40 else 32) (hok : s.culState c ≠ culFailed) :
    (s.rfld (.culSt c) lo 8 ≠ 0 → ∃ u, exec (.culvertLaneFail c out) s = .next u ∧ u.culState c = s.culState c ∧
      u.rfld (.culSt c) lo 8 = s.rfld (.culSt c) lo 8 - 1 ∧ s.SameStores u) ∧
    (s.rfld (.culSt c) lo 8 = 0 → (s.culvert c).exchanges = [] → ∃ u, exec (.culvertLaneFail c out) s = .next u ∧
      u.culState c = culFailed ∧ c ∈ u.cistern.culRetired ∧ s.SameStores u) := by
  have hside : lo = 32 ∨ lo = 40 := by cases out <;> simp [hlo]
  obtain ⟨hkeep, hst, hn, -⟩ := s.laneLost_shows c hside
  refine ⟨fun h => ?_, fun h hnone => ?_⟩
  · have hexec := execLaneFail_spare hrel hc out hok (hlo ▸ h)
    rw [← hlo] at hexec
    refine ⟨_, hexec, hst, hn.trans ?_, State.sameStores_of_lasting hkeep⟩
    have hlt : s.rfld (.culSt c) lo 8 < 2 ^ 8 := fld_lt _ _ _
    exact Nat.mod_eq_of_lt (by omega)
  · have hexec := execLaneFail_last hrel hc out hok (hlo ▸ h)
    rw [← hlo] at hexec
    obtain ⟨hdl, hds, hdc⟩ := State.culDead_shows hside hnone
    have hsame : s.SameStores (s.culDead c lo) := by
      have hk : s.SameStores ((s.laneLost c lo).culGone c) := (State.sameStores_of_lasting hkeep :)
      exact hk.trans (State.sameStores_of_lasting hdl)
    generalize s.culDead c lo = v at *
    obtain ⟨k1, k2, -, -, -⟩ := State.trainingDone_rest v
    have hdone : v.trainingDone.cistern = v.cistern := by
      obtain ⟨x, hx⟩ := v.trainingDone_start
      rw [hx]
    obtain ⟨w, hw, hws, hwc, hwk⟩ : ∃ w, (if s.culState c = culTraining then v.trainingDone else v) = w ∧ w.culState c = culFailed ∧
        c ∈ w.cistern.culRetired ∧ s.SameStores w := by
      refine ⟨_, rfl, ?_⟩
      split
      · exact ⟨(congrArg (fld · 0 4) (k2 (.culSt c))).trans hds, by rw [hdone]; exact hdc, hsame.trans (State.sameStores_of_lasting k1)⟩
      · exact ⟨hds, hdc, hsame⟩
    rw [hw] at hexec
    have hr := w.recompute_rights
    exact ⟨_, hexec, (hr.culState c).trans hws, by rw [hr.cistern]; exact hwc, hwk.trans hr.same⟩

/-- A link trained. -/
theorem culvertTrained_trains {c : Nat} (hrel : s.start.released = true) (good : Bool) (htr : s.culState c = culTraining) : ∃ u, exec (.culvertTrained c good) s = .next u ∧
    u.culState c = (if good then culUp else culFailed) ∧ s.SameStores u ∧
    ((∀ c', c' < 4 → c' ≠ c → s.culState c' ≠ culTraining) → u.start.fenceAck = false) := by
  have hexec := execCulvertTrained_eq hrel htr good
  obtain ⟨hkeep, hself, hother⟩ := s.trained_shows c good
  generalize s.trained c good = v at *
  obtain ⟨k1, k2, -, -, -⟩ := State.trainingDone_rest v
  have hr := v.trainingDone.recompute_rights
  refine ⟨_, hexec, ((hr.culState c).trans (congrArg (fld · 0 4) (k2 (.culSt c)))).trans hself,
    (State.sameStores_of_lasting (k1.trans hkeep)).trans hr.same, fun hnone => ?_⟩
  rw [hr.start]
  refine State.trainingDone_acks fun c' hc' => ?_
  by_cases hcc : c' = c
  · rw [hcc, hself]
    cases good <;> decide
  · rw [hother c' hcc]
    exact hnone c' hc' hcc

/-- Settles O51: an arrival opens its tile as any write does, a response ends its exchange, credits go to the message that waits, and a
lane or a training sets the culvert's state. -/
theorem culvertsCarry : Obligations.CulvertsCarry := by
  unfold Obligations.CulvertsCarry
  intro s c hc hrel
  refine ⟨culverts_scrub, fun hscrub => ⟨?unknown, ?opens, ?response, ?up, ?lane, ?trained⟩⟩
  case unknown =>
    intro m rec ok n hawake hfallow hdetach hup htyp hn hfit hhome
    have hexec := execCulvertArrival_eq (ok := ok) hc hrel hscrub hawake htyp hn hfit
    rw [State.arrives_unknown hfallow hdetach hup hhome] at hexec
    obtain ⟨h1, h2, h3⟩ := s.takeCredits_same c n m
    obtain ⟨k1, k2, k3⟩ := (s.takeCredits c m.xtag n).discard_shows c m
    exact ⟨_, hexec, h1.trans k1, k2.trans (by rw [h3]), k3.trans (by rw [h2])⟩
  case opens =>
    intro m rec cx k j n seen b d hawake hfallow hdetach hup htyp hrest hnum hhome hslot hacc hb hd hred he1 hfit hlive hdenied hfits
      hpath hfree
    subst hb hd
    have hexec := execCulvertArrival_eq (m := m) (rec := rec) (ok := true) hc hrel hscrub hawake htyp
      (n := messageFlits rec.length false) (by simp [he1]) hfit
    rw [State.arrives_lands hfallow hdetach hup hhome hslot hacc] at hexec
    have hresp := s.heard_responses c cx k (messageFlits rec.length false) m ((s.keySlot cx k).see m.srcSite.toNat m.counter.toNat)
    obtain ⟨x, y, hv⟩ := s.heard_eq c cx k (messageFlits rec.length false) m ((s.keySlot cx k).see m.srcSite.toNat m.counter.toNat)
    generalize s.heard c cx k (messageFlits rec.length false) m ((s.keySlot cx k).see m.srcSite.toNat m.counter.toNat) = v at *
    have hvfits : v.landingFits m rec = true := by rw [hv]; exact (s.landingFits_of_rest x y m rec).trans hfits
    rw [State.land_launches (by rw [hv]; exact hlive) (by rw [hv]; exact (s.landingDenied_of_rest x y cx m).trans hdenied) hvfits]
      at hexec
    obtain ⟨f, hf, hid, harr, hph, hopen, hkeep⟩ := State.arrival_opens (v := v) (cu := c) (c := cx) (by rw [hv]; exact hnum)
      (by rw [hv]; exact hrest) hred hvfits (by rw [hv]; exact hpath) (by rw [hv]; exact hfree)
    exact ⟨_, f, hexec, hf, hid.trans (by rw [hv]), harr, hph, hopen, hkeep.trans hresp⟩
  case response =>
    intro x st e f r he hf hres
    have hexec := execCulvertResponse_eq hrel hscrub he st
    have hfound : (s.dropExchange c e).flight? e.flight = some f := hf
    refine ⟨fun hph => ?_, fun hph hplan hop hsrc hrun hrest _ => ?_⟩
    · rw [State.tileAnswered_of_sending hfound hph] at hexec
      have hid : (f.answered e.tile (responseStatus st)).id = e.flight := (State.id_of_flight? hf :)
      have hans : (f.answered e.tile (responseStatus st)).responses = [(e.tile, some (responseStatus st))] := by
        simp [Flight.answered, hres]
      generalize f.answered e.tile (responseStatus st) = g at *
      refine ⟨_, g, hexec, ⟨rfl, rfl, rfl, rfl, rfl⟩, ?_, ?_, hans⟩
      · have hcul : (s.dropExchange c e).culvert c =
            { s.culvert c with exchanges := (s.culvert c).exchanges.filter (·.xtag ≠ e.xtag) } := by
          rw [State.dropExchange, State.culvert, State.putCulvert, kget_kset_self]
        exact congrArg Culvert.exchanges hcul
      · rw [← hid]
        exact State.flight?_putFlight (hid.symm ▸ hfound)
    · obtain ⟨rp, hcount, hwait, htag, hseq, hst⟩ := State.send_ends (s := s.dropExchange c e) (st := responseStatus st) hfound hres hph
        hplan hop hsrc hrun hrest
      rw [State.id_of_flight? hf]
      exact ⟨_, rp, hexec, hcount, hwait, htag, hseq, hst⟩
  case up =>
    intro hup
    refine ⟨?_, fun n hnone => ?_, fun n e he hsent hfit => ?_⟩
    · have hexec : execFlitReplay c s = .next (s.bump (.culSt c) 48 16) :=
        congrArg Host.Outcome.next (if_pos ⟨hrel, .inl hup⟩)
      exact ⟨_, hexec, State.sameStores_of_lasting (by simp), s.rfld_bump_self _ _ _ (by decide)⟩
    · have hexec := execCreditReceived_eq hrel hup n
      have hcul := s.credited_culvert c n
      rw [State.grantCulvert_of_empty (by rw [hcul]; exact hnone)] at hexec
      exact ⟨_, hexec, ⟨rfl, rfl, rfl, rfl, rfl⟩, by rw [hcul]⟩
    · have hexec := execCreditReceived_eq hrel hup n
      have hcul := s.credited_culvert c n
      rw [he] at hexec
      obtain ⟨hsame, hex, hcr⟩ := State.grantCulvert_of_single (s := s.credited c n) (c := c) (e := e) hup hscrub (by rw [hcul]; exact he)
        hsent (by rw [hcul]; exact hfit)
      rw [hcul] at hcr
      exact ⟨_, hexec, hsame, hex, hcr⟩
  case lane => exact fun out lo hlo hok => culvertLaneFail_fails hc hrel out hlo hok
  case trained => exact fun good htr => culvertTrained_trains hrel good htr

end Sys2Proof.Machine
end

section
set_option Elab.async false -- the whole text is compiled in one process, within a fixed memory
/-! SUPPORT. A matrix packet whose lowest lane is folded onto a partner (R274). -/
namespace Sys2Proof.Machine

/-- A value at a packet's byte. -/
def paramAt (byte v : Nat) : Nat := v * 2 ^ ((byte - 16) * 8)

/-- `MATMUL_ACC` on slots 0 and 1: A at descriptor 0, the lanes' B at 1 and 2, what they accumulate on at 3 and 4. -/
def twoLanes : Packet := firstPacket 0x19 (paramAt 18 1 + paramAt 20 3 + paramAt 24 1 + paramAt 26 1 + paramAt 27 1 + paramAt 28 1 +
  paramAt 30 1 + paramAt 31 1 + paramAt 33 3)

/-- A descriptor of one granule. -/
def plainTile (granule rows cols : Nat) : BitVec 512 := BitVec.ofNat 512 (granule + 2 ^ 18 + rows * 2 ^ 64 + cols * 2 ^ 80)

/-- The five tiles are there; the MXE of slot 0 is retired, so slot 0 folds onto slot 1. -/
def State.foldedSlot : State :=
  (((((State.working.putDesc 0 0 (plainTile 16 1 32)).putDesc 0 1 (plainTile 17 32 32)).putDesc 0 2 (plainTile 18 32 32)).putDesc 0 3
    (plainTile 19 1 32)).putDesc 0 4 (plainTile 20 1 32)).putFld (.mxeSt 0 0) 20 4 5

/-- Refutes O25: a folded lane's block comes last, so the packet's first read is not the one of its plan without folding: here it
reads what lane 1 accumulates on, at descriptor 4, where the plan without folding begins with lane 0's, at descriptor 3. -/
theorem not_enginesBegin : ¬ Obligations.EnginesBegin := by
  unfold Obligations.EnginesBegin
  rintro ⟨h, -⟩
  have htakes : State.foldedSlot.Takes (.ring 0) twoLanes (State.foldedSlot.fetched (.ring 0) twoLanes) (firstFetched twoLanes) :=
    State.takes_of_takesNow (by decide +kernel)
  have hnone : State.foldedSlot.flights.isEmpty = true := by decide +kernel
  have hnum : State.foldedSlot.Numbered := fun f hf => absurd (List.isEmpty_iff.1 hnone ▸ hf) List.not_mem_nil
  obtain ⟨u, f, hexec, hf, -, -, -, -, hph, -⟩ := h (.matmulAcc (.ring 0) twoLanes) (.ring 0) twoLanes State.foldedSlot
    (State.foldedSlot.fetched (.ring 0) twoLanes) (firstFetched twoLanes) 0 3 roleO 0 0
    [.read 0 4 roleO (laneIdx 1 0) 1, .read 0 0 roleA 0 sharedLane, .read 0 1 roleB 0 0, .read 0 2 roleB (laneIdx 1 0) 1, .write 0 3 roleO 0 0,
      .write 0 4 roleO 0 1] rfl htakes hnum (by decide +kernel) (by decide +kernel) (by decide +kernel)
  rw [← stateLeft_of_next hexec] at hf
  have hall : ∀ g ∈ (stateLeft (exec (.matmulAcc (.ring 0) twoLanes) State.foldedSlot)).flights, g.phase = .reading 0 4 := by
    decide +kernel
  rw [hall f hf] at hph
  cases hph

end Sys2Proof.Machine
end

section
set_option Elab.async false -- the whole text is compiled in one process, within a fixed memory
/-! SUPPORT. Siphons serve: requests, blocks, the combiner, refresh, calibration, a siphon out of service (R296–R308). -/
namespace Sys2Proof.Machine

variable {s t : State} {i : Nat}

/-! ### Requests (R302) -/

theorem State.siphon_putFld (s : State) (r : Reg) (lo n v i : Nat) : (s.putFld r lo n v).siphon i = s.siphon i := rfl

theorem State.siphon_bump (s : State) (r : Reg) (lo n k i : Nat) : (s.bump r lo n k).siphon i = s.siphon i := by
  unfold State.bump
  split <;> rfl

/-- A request that is the queue's only one is granted at once. -/
theorem State.grantBlock_single {q : SphReq} (h : (s.siphon i).queue = [q]) :
    ((s.grantBlock i).siphon i).queue = [] ∧ ((s.grantBlock i).siphon i).granted = (s.siphon i).granted ++ [q] := by
  have hnext (age : Bool) : (s.siphon i).next age = some q := by
    cases age <;> simp [Siphon.next, h]
  have herase : (s.siphon i).queue.erase q = [] := by simp [h]
  rw [State.grantBlock]
  simp only [hnext, herase]
  split
  · exact ⟨by rw [State.siphon_putFld, State.siphon_bump, s.siphon_putSiphon_self],
      by rw [State.siphon_putFld, State.siphon_bump, s.siphon_putSiphon_self]⟩
  · exact ⟨by rw [State.siphon_putFld, s.siphon_putSiphon_self], by rw [State.siphon_putFld, s.siphon_putSiphon_self]⟩

/-- A grant counts in other fields than the requests that found no entry. -/
theorem State.grantOnce_lost (s : State) (i : Nat) : (s.grantOnce i).rfld (.sphQst i) 0 16 = s.rfld (.sphQst i) 0 16 := by
  unfold State.grantOnce
  split
  · unfold State.grantBlock
    simp only
    split
    · rfl
    · rw [State.rfld_putFld_ne _ _ _ _ _ _ _ _ (by omega)]
      split
      · rw [State.rfld_bump_ne _ _ _ _ _ _ _ _ (by omega)]
        rfl
      · rfl
  · rfl

theorem execSiphonRequest_eq {who : SphSrc} {b q block : Nat} (hup : s.sphState i = 1) (hi : i < s.cfg.siphons)
    (hblock : blockOk block = true) (hasker : s.sphAsker who = some (b, q)) (w : Bool) :
    exec (.siphonRequest i who block w) s = .next ((s.enqueue i who b q block w).grantOnce i) := by
  have hexec : execSiphonRequest i who block w s = .next ((s.enqueue i who b q block w).grantOnce i) := by
    unfold execSiphonRequest
    rw [if_neg (by simp [hup, hblock, hi])]
    simp only [hasker]
    rfl
  exact hexec

/-- A request is queued and granted, or finds no entry. -/
theorem siphonRequest_serves {who : SphSrc} {b q block : Nat} (hup : s.sphState i = 1) (hi : i < s.cfg.siphons)
    (hblock : blockOk block = true) (hasker : s.sphAsker who = some (b, q)) (w : Bool) :
    (s.queueRoom (s.siphon i) b = true → (s.siphon i).queue = [] → (s.siphon i).grantedAt ≠ some s.cycle →
      ∃ u, exec (.siphonRequest i who block w) s = .next u ∧ (u.siphon i).queue = [] ∧ s.SameStores u ∧
        (u.siphon i).granted = (s.siphon i).granted ++ [⟨who, b, q, block, w, s.now, (s.siphon i).accepted⟩]) ∧
    (s.queueRoom (s.siphon i) b = false → ∃ u, exec (.siphonRequest i who block w) s = .next u ∧ s.SameStores u ∧
      u.rfld (.sphQst i) 0 16 = min (s.rfld (.sphQst i) 0 16 + 1) (2 ^ 16 - 1)) := by
  have hexec := execSiphonRequest_eq hup hi hblock hasker w
  have hsame : s.SameStores ((s.enqueue i who b q block w).grantOnce i) := State.sameStores_of_lasting (by simp)
  refine ⟨fun hroom hnone hfree => ?_, fun hroom => ?_⟩
  · obtain ⟨v, hv, hq, hg, ha⟩ : ∃ v, s.enqueue i who b q block w = s.putSiphon i v ∧
        v.queue = [⟨who, b, q, block, w, s.now, (s.siphon i).accepted⟩] ∧ v.granted = (s.siphon i).granted ∧
        v.grantedAt = (s.siphon i).grantedAt := by
      refine ⟨{ s.siphon i with
        queue := (s.siphon i).queue ++ [⟨who, b, q, block, w, s.now, (s.siphon i).accepted⟩], accepted := (s.siphon i).accepted + 1 },
        ?_, by simp [hnone], rfl, rfl⟩
      rw [State.enqueue]
      exact if_pos hroom
    have hself := s.siphon_putSiphon_self i v
    have honce : (s.putSiphon i v).grantOnce i = (s.putSiphon i v).grantBlock i :=
      if_pos ⟨hup, by rw [hself, ha]; exact hfree⟩
    rw [hv, honce] at hexec hsame
    obtain ⟨h1, h2⟩ := State.grantBlock_single (s := s.putSiphon i v) (i := i) (by rw [hself]; exact hq)
    exact ⟨_, hexec, h1, hsame, by rw [h2, hself, hg]⟩
  · have henq : s.enqueue i who b q block w = s.bump (.sphQst i) 0 16 := by
      rw [State.enqueue]
      exact if_neg (by simp [hroom])
    refine ⟨_, hexec, hsame, ?_⟩
    rw [State.grantOnce_lost, henq]
    exact s.rfld_bump_self _ _ _ (by decide)

/-! ### Block commands (R297–R301) -/

theorem State.siphon_loseMap (s : State) (i page j : Nat) : (s.loseMap i page).siphon j = s.siphon j := by
  have hpages (ps : List Nat) : ({ s with pages := ps } : State).siphon j = s.siphon j := rfl
  unfold State.loseMap
  exact hpages _

section
variable {block : Nat} (hi : i < s.cfg.siphons) (hup : s.sphState i = 1) (hblock : blockOk block = true)
include hi hup hblock

theorem State.blockActs_of {w : Bool} (hperf : (s.siphon i).performs block w = true) : s.blockActs i block w = true := by
  have hs : s.rfld (.sphSt i) 8 4 = 1 := hup
  simp [State.blockActs, hi, hblock, State.siphonServes, hs, hperf]

omit hi hblock in
theorem State.siphonUp_of : s.siphonUp i = true := by
  have hs : s.rfld (.sphSt i) 8 4 = 1 := hup
  simp [State.siphonUp, hs]

/-- A block command performs the granted request for its block. -/
theorem execBlockRead_performs {q : SphReq} (hperf : (s.siphon i).performs block false = true)
    (hq : (s.siphon i).request block false = some q) (f1 f2 : Bool) :
    exec (.siphonBlockRead i block f1 f2 false) s = .next (s.perform i q f1 f2) := by
  have hexec : execSiphonBlockRead i block f1 f2 false s = .next (s.perform i q f1 f2) := by
    unfold execSiphonBlockRead
    rw [if_neg (by simp [State.blockActs_of hi hup hblock hperf])]
    simp only [hq, Bool.false_eq_true, if_false]
    rfl
  exact hexec

theorem execBlockWrite_performs {q : SphReq} (hperf : (s.siphon i).performs block true = true)
    (hq : (s.siphon i).request block true = some q) (hpage : s.pageValid i (block / 16) = true) (o : Nat) (d : BlockData) :
    exec (.siphonBlockWrite i block o d) s = .next (s.perform i q d.fail1 d.fail2) := by
  have hexec : execSiphonBlockWrite i block o d s = .next (s.perform i q d.fail1 d.fail2) := by
    unfold execSiphonBlockWrite
    simp only
    rw [if_neg (by simp [State.blockActs_of hi hup hblock hperf, hpage])]
    simp only [hq]
    rfl
  exact hexec

/-- A block command without a request is an access of its own. -/
theorem execBlockRead_reads (hperf : (s.siphon i).performs block false = true)
    (hq : (s.siphon i).request block false = none) (f1 f2 lost : Bool) :
    exec (.siphonBlockRead i block f1 f2 lost) s =
      .next ((if lost then s.loseMap i (block / 16) else s).readBlock i block f1 f2).1 := by
  have hexec : execSiphonBlockRead i block f1 f2 lost s =
      .next ((if lost then s.loseMap i (block / 16) else s).readBlock i block f1 f2).1 := by
    unfold execSiphonBlockRead
    rw [if_neg (by simp [State.blockActs_of hi hup hblock hperf])]
    have hq' : ((if lost then s.loseMap i (block / 16) else s).siphon i).request block false = none := by
      cases lost with
      | false => exact hq
      | true => exact (congrArg (fun x : Siphon => x.request block false) (s.siphon_loseMap i (block / 16) i)).trans hq
    simp only [hq']
    rfl
  exact hexec

theorem execBlockWrite_writes (hperf : (s.siphon i).performs block true = true) (hq : (s.siphon i).request block true = none)
    {o : Nat} {d : BlockData} (hne : d.bytes ≠ []) (hfit : o + d.bytes.length ≤ 256)
    (hroom : s.pageValid i (block / 16) = true ∨ (s.combinerPages i).length < 16) :
    exec (.siphonBlockWrite i block o d) s = .next (s.writeBlock i block o d.bytes d.fail1 d.fail2) := by
  have hpos : 0 < d.bytes.length := List.length_pos_iff.2 hne
  have ho : o % 256 = o := Nat.mod_eq_of_lt (by omega)
  have htake : d.bytes.take (256 - o) = d.bytes := List.take_of_length_le (by omega)
  have hexec : execSiphonBlockWrite i block o d s = .next (s.writeBlock i block o d.bytes d.fail1 d.fail2) := by
    unfold execSiphonBlockWrite
    simp only
    rw [if_neg ?_]
    · simp only [hq, ho, htake]
      rfl
    · have hact := State.blockActs_of hi hup hblock hperf
      rcases hroom with h | h
      · simp [hact, h]
      · simp only [hact, Bool.not_true, Bool.false_eq_true, false_or, Bool.and_eq_true, decide_eq_true_eq]
        omega
  exact hexec

end

/-! ### Blocks, good and bad (R299–R301) -/

theorem State.siphonEvent_reg (s : State) (sph block kind : Nat) (r : Reg) : (s.siphonEvent sph block kind).reg r = s.reg r :=
  State.reg_of_post _ _ r

theorem State.siphonEvent_blocks (s : State) (sph block kind : Nat) : (s.siphonEvent sph block kind).badBlocks = s.badBlocks ∧
    (s.siphonEvent sph block kind).macs = s.macs ∧ (s.siphonEvent sph block kind).sphKeys = s.sphKeys ∧
    (s.siphonEvent sph block kind).cfg = s.cfg := by
  unfold State.siphonEvent State.post
  split <;> exact ⟨rfl, rfl, rfl, rfl⟩

/-- Registers but a siphon's counters of integrity failures stay, and so do the seals and the keys of blocks. -/
structure State.OnlyCounted (s : State) (i : Nat) (t : State) : Prop where
  reg : ∀ r, r ≠ .sphIntSt i → t.reg r = s.reg r
  low : t.rfld (.sphIntSt i) 0 16 = s.rfld (.sphIntSt i) 0 16
  macs : t.macs = s.macs
  keys : t.sphKeys = s.sphKeys
  cfg : t.cfg = s.cfg

theorem State.OnlyCounted.trans {u : State} (h : s.OnlyCounted i t) (k : t.OnlyCounted i u) : s.OnlyCounted i u :=
  ⟨fun r hr => (k.reg r hr).trans (h.reg r hr), k.low.trans h.low, k.macs.trans h.macs, k.keys.trans h.keys, k.cfg.trans h.cfg⟩

theorem State.bump_onlyCounted (s : State) (i : Nat) {lo : Nat} (hlo : 16 ≤ lo) : s.OnlyCounted i (s.bump (.sphIntSt i) lo 16) := by
  refine ⟨fun r hr => s.reg_bump_ne hr _ _ _, s.rfld_bump_ne _ _ _ _ _ _ _ (by omega), ?_, ?_, ?_⟩
  all_goals
    unfold State.bump
    split <;> rfl

theorem State.siphonEvent_onlyCounted (s : State) (i block kind : Nat) : s.OnlyCounted i (s.siphonEvent i block kind) := by
  obtain ⟨-, h2, h3, h4⟩ := s.siphonEvent_blocks i block kind
  exact ⟨fun r _ => s.siphonEvent_reg i block kind r, congrArg (fld · 0 16) (s.siphonEvent_reg i block kind _), h2, h3, h4⟩

theorem State.OnlyCounted.blockKeyId (h : s.OnlyCounted i t) (j block : Nat) : t.blockKeyId j block = s.blockKeyId j block := by
  have hr : t.regions = s.regions := by
    simp only [State.regions, h.reg (.sphRgnA _) (by simp), h.reg (.sphRgnB _) (by simp)]
  simp only [State.blockKeyId, State.blockCtx, hr, h.cfg, h.keys]

theorem State.rfld_siphonEvent (s : State) (sph block kind : Nat) (r : Reg) (lo n : Nat) :
    (s.siphonEvent sph block kind).rfld r lo n = s.rfld r lo n := congrArg (fld · lo n) (s.siphonEvent_reg sph block kind r)

theorem State.rfld_damage (s : State) (sph block : Nat) (r : Reg) (lo n : Nat) : (s.damage sph block).rfld r lo n = s.rfld r lo n := rfl

/-- One of a siphon's counters of integrity failures counts. -/
theorem State.rfld_counted (s : State) (i a : Nat) {lo : Nat} (ha : a + 16 ≤ 64) (h : lo = a ∨ lo + 16 ≤ a ∨ a + 16 ≤ lo) :
    (s.bump (.sphIntSt i) a 16).rfld (.sphIntSt i) lo 16 =
      if lo = a then min (s.rfld (.sphIntSt i) lo 16 + 1) (2 ^ 16 - 1) else s.rfld (.sphIntSt i) lo 16 := by
  by_cases hlo : lo = a
  · subst hlo
    rw [if_pos rfl]
    exact s.rfld_bump_self _ _ _ ha
  · rw [if_neg hlo]
    exact s.rfld_bump_ne _ _ _ _ _ _ _ (.inr (by omega))

theorem State.badBlocks_bump (s : State) (r : Reg) (lo n : Nat) : (s.bump r lo n).badBlocks = s.badBlocks := by
  unfold State.bump
  split <;> rfl

theorem State.damage_onlyCounted (s : State) (i j block : Nat) : s.OnlyCounted i (s.damage j block) :=
  ⟨fun _ _ => rfl, rfl, rfl, rfl, rfl⟩

theorem State.blockGood_damage (s : State) (sph block : Nat) : (s.damage sph block).blockGood sph block = false := by
  simp [State.blockGood, State.damage]

theorem State.OnlyCounted.blockGood (h : s.OnlyCounted i t) (hb : t.badBlocks = s.badBlocks) (j block : Nat) :
    t.blockGood j block = s.blockGood j block := by
  simp only [State.blockGood, hb, h.macs, h.blockKeyId]

/-- A block that fails once or twice is counted; twice in itself, it is damaged. -/
def State.failedOnce (s : State) (i block : Nat) : State :=
  ((s.bump (.sphIntSt i) 48 16).bump (.sphIntSt i) 32 16).siphonEvent i block 0

def State.failedTwice (s : State) (i block : Nat) (damaged : Bool) : State :=
  ((if damaged then (s.bump (.sphIntSt i) 48 16).damage i block else s.bump (.sphIntSt i) 48 16).bump (.sphIntSt i) 16 16).siphonEvent
    i block 1

theorem State.failedOnce_counts (s : State) (i block : Nat) : s.OnlyCounted i (s.failedOnce i block) ∧
    (s.failedOnce i block).badBlocks = s.badBlocks ∧ (∀ lo, lo = 16 ∨ lo = 32 ∨ lo = 48 →
      (s.failedOnce i block).rfld (.sphIntSt i) lo 16 =
        if lo = 16 then s.rfld (.sphIntSt i) lo 16 else min (s.rfld (.sphIntSt i) lo 16 + 1) (2 ^ 16 - 1)) := by
  refine ⟨((s.bump_onlyCounted i (by decide)).trans (State.bump_onlyCounted _ i (by decide))).trans
    (State.siphonEvent_onlyCounted _ i block 0), ?_, fun lo hlo => ?_⟩
  · rw [State.failedOnce, (State.siphonEvent_blocks _ i block 0).1, State.badBlocks_bump, State.badBlocks_bump]
  · rw [State.failedOnce, State.rfld_siphonEvent]
    rcases hlo with rfl | rfl | rfl <;> rw [State.rfld_counted _ _ _ (by decide) (by decide), State.rfld_counted _ _ _ (by decide) (by decide)] <;>
      rfl

theorem State.failedTwice_counts (s : State) (i block : Nat) (damaged : Bool) : s.OnlyCounted i (s.failedTwice i block damaged) ∧
    (∀ lo, lo = 16 ∨ lo = 32 ∨ lo = 48 → (s.failedTwice i block damaged).rfld (.sphIntSt i) lo 16 =
        if lo = 32 then s.rfld (.sphIntSt i) lo 16 else min (s.rfld (.sphIntSt i) lo 16 + 1) (2 ^ 16 - 1)) ∧
    (damaged = true → (s.failedTwice i block damaged).blockGood i block = false) := by
  have hmid : s.OnlyCounted i (if damaged then (s.bump (.sphIntSt i) 48 16).damage i block else s.bump (.sphIntSt i) 48 16) := by
    have h48 := s.bump_onlyCounted i (lo := 48) (by decide)
    cases damaged with
    | false => exact h48
    | true => exact h48.trans (State.damage_onlyCounted _ i i block)
  have hcount (lo : Nat) : (if damaged then (s.bump (.sphIntSt i) 48 16).damage i block else s.bump (.sphIntSt i) 48 16).rfld
      (.sphIntSt i) lo 16 = (s.bump (.sphIntSt i) 48 16).rfld (.sphIntSt i) lo 16 := by
    cases damaged <;> rfl
  have hbad : damaged = true → (if damaged then (s.bump (.sphIntSt i) 48 16).damage i block else s.bump (.sphIntSt i) 48 16).blockGood
      i block = false := by
    rintro rfl
    exact State.blockGood_damage _ i block
  unfold State.failedTwice
  generalize (if damaged then (s.bump (.sphIntSt i) 48 16).damage i block else s.bump (.sphIntSt i) 48 16) = v at *
  have hv := (v.bump_onlyCounted i (lo := 16) (by decide)).trans (State.siphonEvent_onlyCounted _ i block 1)
  refine ⟨hmid.trans hv, fun lo hlo => ?_, fun h => ?_⟩
  · rw [State.rfld_siphonEvent]
    rcases hlo with rfl | rfl | rfl <;> rw [State.rfld_counted _ _ _ (by decide) (by decide)] <;>
      rw [hcount, State.rfld_counted _ _ _ (by decide) (by decide)] <;> rfl
  · rw [hv.blockGood ?_, hbad h]
    rw [(State.siphonEvent_blocks _ i block 1).1, State.badBlocks_bump]

/-- A verification: the block is good, or fails once, or twice. -/
theorem State.verifyBlock_eq (s : State) (i block : Nat) (f1 f2 : Bool) : s.verifyBlock i block f1 f2 =
    if s.blockGood i block && !f1 then (s, true)
    else if s.blockGood i block && !f2 then (s.failedOnce i block, true)
    else (s.failedTwice i block (f1 && f2), false) := by
  unfold State.verifyBlock State.failedOnce State.failedTwice
  cases s.blockGood i block <;> cases f1 <;> cases f2 <;> rfl

/-- What a verification finds and counts. -/
theorem State.verifyBlock_shows (s : State) (i block : Nat) (f1 f2 : Bool) :
    s.OnlyCounted i (s.verifyBlock i block f1 f2).1 ∧
    ((s.verifyBlock i block f1 f2).2 = (s.blockGood i block && !(f1 && f2))) ∧
    (s.blockGood i block = true → (s.verifyBlock i block f1 f2).1.blockGood i block = (!(f1 && f2)) ∧
      (s.verifyBlock i block f1 f2).1.rfld (.sphIntSt i) 48 16 =
        (if f1 then min (s.rfld (.sphIntSt i) 48 16 + 1) (2 ^ 16 - 1) else s.rfld (.sphIntSt i) 48 16) ∧
      (s.verifyBlock i block f1 f2).1.rfld (.sphIntSt i) 32 16 =
        (if f1 && !f2 then min (s.rfld (.sphIntSt i) 32 16 + 1) (2 ^ 16 - 1) else s.rfld (.sphIntSt i) 32 16) ∧
      (s.verifyBlock i block f1 f2).1.rfld (.sphIntSt i) 16 16 =
        (if f1 && f2 then min (s.rfld (.sphIntSt i) 16 16 + 1) (2 ^ 16 - 1) else s.rfld (.sphIntSt i) 16 16)) ∧
    (s.blockGood i block = false → (s.verifyBlock i block f1 f2).1.rfld (.sphIntSt i) 16 16 =
      min (s.rfld (.sphIntSt i) 16 16 + 1) (2 ^ 16 - 1)) := by
  obtain ⟨ho, hob, hoc⟩ := s.failedOnce_counts i block
  obtain ⟨ht, htc, htb⟩ := s.failedTwice_counts i block (f1 && f2)
  have hgood := ho.blockGood hob i block
  rw [s.verifyBlock_eq]
  cases hg : s.blockGood i block with
  | false => exact ⟨ht, rfl, fun h => absurd h (by decide), fun _ => htc 16 (.inl rfl)⟩
  | true =>
    refine ⟨?_, ?_, fun _ => ?_, fun h => absurd h (by decide)⟩
    · cases f1 with
      | false => exact ⟨fun _ _ => rfl, rfl, rfl, rfl, rfl⟩
      | true =>
        cases f2 with
        | false => exact ho
        | true => exact ht
    · cases f1 <;> cases f2 <;> rfl
    · cases f1 with
      | false => exact ⟨hg, rfl, rfl, rfl⟩
      | true =>
        cases f2 with
        | false => exact ⟨hgood.trans hg, hoc 48 (.inr (.inr rfl)), hoc 32 (.inr (.inl rfl)), hoc 16 (.inl rfl)⟩
        | true => exact ⟨htb rfl, htc 48 (.inr (.inr rfl)), htc 32 (.inr (.inl rfl)), htc 16 (.inl rfl)⟩

/-! ### A block read of its own (R296, R300) -/

theorem State.readBlock_valid {block : Nat} (hup : s.siphonUp i = true) (hcomb : s.pageCombining i (block / 16) = none)
    (hpage : s.pageValid i (block / 16) = true) (f1 f2 : Bool) :
    (s.readBlock i block f1 f2).1 = ((s.bumpWrap (.sphRdCnt i) 0 64).verifyBlock i block f1 f2).1 ∧
      (s.readBlock i block f1 f2).2.isSome = ((s.bumpWrap (.sphRdCnt i) 0 64).verifyBlock i block f1 f2).2 := by
  rw [State.readBlock]
  simp only [hup, hcomb, hpage, Bool.not_true, Bool.false_eq_true, if_false, Option.isSome_none]
  refine ⟨trivial, ?_⟩
  split <;> simp [*]

theorem setFld_all (x : Word64) (v : Nat) : setFld x 0 64 v = BitVec.ofNat 64 v := by
  refine BitVec.eq_of_getLsbD_eq fun j hj => ?_
  rw [getLsbD_setFld _ _ _ _ _ hj, if_pos (by omega), BitVec.getLsbD_ofNat]
  simp [hj]

/-- A counter of a whole register counts modulo 2^64. -/
theorem State.reg_bumpWrap (s : State) (r : Reg) (k : Nat) : (s.bumpWrap r 0 64 k).reg r = s.reg r + BitVec.ofNat 64 k := by
  have h : (s.bumpWrap r 0 64 k).reg r = setFld (s.reg r) 0 64 (s.rfld r 0 64 + k) := s.reg_putFld_self r 0 64 _
  have hf : s.rfld r 0 64 = (s.reg r).toNat := by
    rw [State.rfld, fld, Nat.pow_zero, Nat.div_one]
    exact Nat.mod_eq_of_lt (s.reg r).isLt
  rw [h, setFld_all, hf]
  refine BitVec.eq_of_toNat_eq ?_
  simp [BitVec.toNat_add]

theorem State.bumpWrap_blocks (s : State) (r : Reg) (k i block : Nat) (hr : ∀ n, r ≠ .sphRgnA n ∧ r ≠ .sphRgnB n) :
    (s.bumpWrap r 0 64 k).blockKeyId i block = s.blockKeyId i block ∧ (s.bumpWrap r 0 64 k).blockGood i block = s.blockGood i block := by
  have hreg (q : Reg) (h : q ≠ r) : (s.bumpWrap r 0 64 k).reg q = s.reg q := s.reg_putFld_ne h _ _ _
  have hregions : (s.bumpWrap r 0 64 k).regions = s.regions := by
    simp only [State.regions, hreg (.sphRgnA _) (hr _).1.symm, hreg (.sphRgnB _) (hr _).2.symm]
  have hkey : (s.bumpWrap r 0 64 k).blockKeyId i block = s.blockKeyId i block := by
    have hkeys : (s.bumpWrap r 0 64 k).sphKeys = s.sphKeys ∧ (s.bumpWrap r 0 64 k).cfg = s.cfg := ⟨rfl, rfl⟩
    simp only [State.blockKeyId, State.blockCtx, hregions, hkeys.1, hkeys.2]
  have hrest : (s.bumpWrap r 0 64 k).badBlocks = s.badBlocks ∧ (s.bumpWrap r 0 64 k).macs = s.macs := ⟨rfl, rfl⟩
  exact ⟨hkey, by simp only [State.blockGood, hkey, hrest.1, hrest.2]⟩

theorem State.loseMap_eq (s : State) (i page : Nat) : ∃ ps, s.loseMap i page = { s with pages := ps ++ s.pages } := by
  unfold State.loseMap
  exact ⟨_, rfl⟩

/-- A page whose map is lost is valid from then on, but where it stands in the combiner. -/
theorem State.pageValid_loseMap {page : Nat} (hpage : page < 1015808) (hcomb : s.pageCombining i page = none) :
    (s.loseMap i page).pageValid i page = true := by
  have hnot : (s.combining.any fun c => c.1 = pageKey i page) = false := by
    rw [State.pageCombining, Option.map_eq_none_iff, List.find?_eq_none] at hcomb
    rw [List.any_eq_false]
    exact hcomb
  have hkey : pageKey i (page / 512 * 512 + page % 512) = pageKey i page := by
    rw [Nat.div_add_mod']
  have hlow : pageKey i page % 2 ^ 20 < 1015808 := by
    rw [pageKey]
    omega
  unfold State.loseMap
  simp only [State.pageValid, List.contains_eq_mem, List.mem_append, decide_eq_true_eq]
  by_cases hin : pageKey i page ∈ s.pages
  · exact .inr hin
  · refine .inl (List.mem_filter.2 ⟨List.mem_map.2 ⟨page % 512, List.mem_range.2 (Nat.mod_lt _ (by decide)), hkey⟩, ?_⟩)
    simp only [hlow, hin, hnot]
    decide

theorem State.bumpWrap_rest (s : State) (r : Reg) (k : Nat) : (s.bumpWrap r 0 64 k).pages = s.pages ∧
    (s.bumpWrap r 0 64 k).combining = s.combining ∧ s.SameStores (s.bumpWrap r 0 64 k) ∧
    (s.bumpWrap r 0 64 k).badBlocks = s.badBlocks := ⟨rfl, rfl, ⟨rfl, rfl, rfl, rfl, rfl⟩, rfl⟩

theorem State.verifyBlock_pages (s : State) (i block : Nat) (f1 f2 : Bool) : (s.verifyBlock i block f1 f2).1.pages = s.pages := by
  have hevent (t : State) (kind : Nat) : (t.siphonEvent i block kind).pages = t.pages := by
    unfold State.siphonEvent State.post
    split <;> rfl
  have hbump (t : State) (lo : Nat) : (t.bump (.sphIntSt i) lo 16).pages = t.pages := by
    unfold State.bump
    split <;> rfl
  rw [s.verifyBlock_eq]
  split
  · rfl
  · split
    · rw [State.failedOnce, hevent, hbump, hbump]
    · rw [State.failedTwice, hevent, hbump]
      split
      · exact hbump s 48
      · exact hbump s 48

/-- Where the page is valid, a read counts and verifies. -/
theorem State.readBlock_shows {block : Nat} (hup : s.siphonUp i = true) (hcomb : s.pageCombining i (block / 16) = none)
    (hpage : s.pageValid i (block / 16) = true) (f1 f2 : Bool) : s.SameStores (s.readBlock i block f1 f2).1 ∧
    (s.readBlock i block f1 f2).1.reg (.sphRdCnt i) = s.reg (.sphRdCnt i) + 1 ∧
    (s.blockGood i block = true → (s.readBlock i block f1 f2).1.blockGood i block = (!(f1 && f2)) ∧
      (s.readBlock i block f1 f2).1.rfld (.sphIntSt i) 48 16 =
        (if f1 then min (s.rfld (.sphIntSt i) 48 16 + 1) (2 ^ 16 - 1) else s.rfld (.sphIntSt i) 48 16) ∧
      (s.readBlock i block f1 f2).1.rfld (.sphIntSt i) 32 16 =
        (if f1 && !f2 then min (s.rfld (.sphIntSt i) 32 16 + 1) (2 ^ 16 - 1) else s.rfld (.sphIntSt i) 32 16) ∧
      (s.readBlock i block f1 f2).1.rfld (.sphIntSt i) 16 16 =
        (if f1 && f2 then min (s.rfld (.sphIntSt i) 16 16 + 1) (2 ^ 16 - 1) else s.rfld (.sphIntSt i) 16 16)) ∧
    (s.blockGood i block = false → (s.readBlock i block f1 f2).1.rfld (.sphIntSt i) 16 16 =
      min (s.rfld (.sphIntSt i) 16 16 + 1) (2 ^ 16 - 1)) := by
  have hsame := s.readBlock_same i block f1 f2
  rw [(State.readBlock_valid hup hcomb hpage f1 f2).1] at hsame ⊢
  obtain ⟨-, hgood⟩ := s.bumpWrap_blocks (.sphRdCnt i) 1 i block (fun _ => ⟨by simp, by simp⟩)
  have hfld (lo : Nat) : (s.bumpWrap (.sphRdCnt i) 0 64).rfld (.sphIntSt i) lo 16 = s.rfld (.sphIntSt i) lo 16 :=
    congrArg (fld · lo 16) (s.reg_putFld_ne (by simp) _ _ _)
  have hcount := s.reg_bumpWrap (.sphRdCnt i) 1
  generalize s.bumpWrap (.sphRdCnt i) 0 64 = v at *
  obtain ⟨honly, -, h1, h2⟩ := v.verifyBlock_shows i block f1 f2
  rw [hgood] at h1 h2
  simp only [hfld] at h1 h2
  exact ⟨hsame, (honly.reg _ (by simp)).trans hcount, h1, h2⟩

/-- A block of a page that is not valid reads zero and counts nothing. -/
theorem State.readBlock_unmapped {block : Nat} (hup : s.siphonUp i = true) (hcomb : s.pageCombining i (block / 16) = none)
    (hpage : s.pageValid i (block / 16) = false) (f1 f2 : Bool) : (s.readBlock i block f1 f2).1 = s := by
  rw [State.readBlock]
  simp only [hup, hcomb, hpage, Bool.not_true, Bool.not_false, Bool.false_eq_true, if_false, if_true, Option.isSome_none]

theorem State.readBlock_pages {block : Nat} (hup : s.siphonUp i = true) (hcomb : s.pageCombining i (block / 16) = none)
    (hpage : s.pageValid i (block / 16) = true) (f1 f2 : Bool) : (s.readBlock i block f1 f2).1.pages = s.pages := by
  rw [(State.readBlock_valid hup hcomb hpage f1 f2).1, State.verifyBlock_pages]
  rfl

/-! ### A block write of its own (R297, R299) -/

theorem State.blockGood_seal (s : State) (i block : Nat) : (s.seal i block).blockGood i block = true := by
  have hkey : (s.seal i block).blockKeyId i block = s.blockKeyId i block := rfl
  simp only [State.blockGood, hkey]
  simp [State.seal]

/-- Bytes stored in a block, which is sealed; poisoned where it was not good. -/
def State.blockStored (s : State) (i block o : Nat) (bs : List Byte) : State :=
  { s with stack := putBytes s.stack (cellKey i (block * 256 + o)) bs }.seal i block

def State.landsIn (s : State) (i block o : Nat) (bs : List Byte) (good : Bool) : State :=
  if good then s.blockStored i block o bs else ((s.blockStored i block o bs).bump (.sphIntSt i) 0 16).damage i block

/-- A write within a valid page lands, after a read of the block where it is not a whole one. -/
theorem State.writeBlock_lands {block o : Nat} {bs : List Byte} (hne : bs ≠ []) (hfit : o + bs.length ≤ 256) (hup : s.siphonUp i = true)
    (hcomb : s.pageCombining i (block / 16) = none) (hpage : s.pageValid i (block / 16) = true) (f1 f2 : Bool) :
    ∃ v, s.writeBlock i block o bs f1 f2 =
        v.landsIn i block o bs (decide (bs.length = 256) || s.blockGood i block && !(f1 && f2)) ∧
      s.SameStores v ∧ v.reg (.sphWrCnt i) = s.reg (.sphWrCnt i) + 1 ∧ v.rfld (.sphIntSt i) 0 16 = s.rfld (.sphIntSt i) 0 16 := by
  have hemp : bs.isEmpty = false := by simpa using hne
  have hcount := s.reg_bumpWrap (.sphWrCnt i) 1
  have hlow : (s.bumpWrap (.sphWrCnt i) 0 64).rfld (.sphIntSt i) 0 16 = s.rfld (.sphIntSt i) 0 16 :=
    congrArg (fld · 0 16) (s.reg_putFld_ne (by simp) _ _ _)
  have hsame : s.SameStores (s.bumpWrap (.sphWrCnt i) 0 64) := ⟨rfl, rfl, rfl, rfl, rfl⟩
  obtain ⟨-, hgood⟩ := s.bumpWrap_blocks (.sphWrCnt i) 1 i block (fun _ => ⟨by simp, by simp⟩)
  have hup' : (s.bumpWrap (.sphWrCnt i) 0 64).siphonUp i = true := by
    rw [← hup]
    simp only [State.siphonUp]
    rw [show (s.bumpWrap (.sphWrCnt i) 0 64).rfld (.sphSt i) 8 4 = s.rfld (.sphSt i) 8 4 from
      congrArg (fld · 8 4) (s.reg_putFld_ne (by simp) _ _ _)]
  have hcomb' : (s.bumpWrap (.sphWrCnt i) 0 64).pageCombining i (block / 16) = none := hcomb
  have hpage' : (s.bumpWrap (.sphWrCnt i) 0 64).pageValid i (block / 16) = true := hpage
  rw [State.writeBlock]
  simp only [hemp, hup, hpage, Bool.not_true, Bool.false_eq_true, if_false, if_true]
  generalize s.bumpWrap (.sphWrCnt i) 0 64 = w at *
  by_cases hfull : bs.length = 256
  · have ho : o = 0 := by omega
    subst ho
    refine ⟨w, ?_, hsame, hcount, hlow⟩
    simp only [hfull, and_self, if_true, decide_true, Bool.true_or]
    rfl
  · obtain ⟨hr1, hr2⟩ := State.readBlock_valid hup' hcomb' hpage' f1 f2
    obtain ⟨h1, -, -, -⟩ := State.readBlock_shows hup' hcomb' hpage' f1 f2
    obtain ⟨hregs, hres, -, -⟩ := (w.bumpWrap (.sphRdCnt i) 0 64).verifyBlock_shows i block f1 f2
    rw [(w.bumpWrap_blocks (.sphRdCnt i) 1 i block (fun _ => ⟨by simp, by simp⟩)).2, hgood, ← hr2] at hres
    rw [← hr1] at hregs
    refine ⟨(w.readBlock i block f1 f2).1, ?_, hsame.trans h1, ?_, ?_⟩
    · simp only [hfull, and_false, if_false, decide_false, Bool.false_or, hres]
      rfl
    · exact ((hregs.reg _ (by simp)).trans (w.reg_putFld_ne (by simp) _ _ _)).trans hcount
    · exact (hregs.low.trans (congrArg (fld · 0 16) (w.reg_putFld_ne (by simp) _ _ _))).trans hlow

theorem State.landsIn_shows (v : State) (i block o : Nat) (bs : List Byte) (good : Bool) :
    (v.landsIn i block o bs good).reg (.sphWrCnt i) = v.reg (.sphWrCnt i) ∧ (v.landsIn i block o bs good).mem = v.mem ∧
    (v.landsIn i block o bs good).desc = v.desc ∧ (v.landsIn i block o bs good).gauge = v.gauge ∧
    (v.landsIn i block o bs good).blockGood i block = good ∧
    (v.landsIn i block o bs good).rfld (.sphIntSt i) 0 16 =
      (if good then v.rfld (.sphIntSt i) 0 16 else min (v.rfld (.sphIntSt i) 0 16 + 1) (2 ^ 16 - 1)) ∧
    (v.landsIn i block o bs good).stack = putBytes v.stack (cellKey i (block * 256 + o)) bs := by
  cases good with
  | true => exact ⟨rfl, rfl, rfl, rfl, State.blockGood_seal _ i block, rfl, rfl⟩
  | false =>
    have hself := (v.blockStored i block o bs).rfld_bump_self (.sphIntSt i) 0 16 (by decide)
    have hne : ((v.blockStored i block o bs).bump (.sphIntSt i) 0 16).reg (.sphWrCnt i) = (v.blockStored i block o bs).reg (.sphWrCnt i) :=
      State.reg_bump_ne _ (by simp) _ _ _
    have hrest : ((v.blockStored i block o bs).bump (.sphIntSt i) 0 16).mem = (v.blockStored i block o bs).mem ∧
        ((v.blockStored i block o bs).bump (.sphIntSt i) 0 16).desc = (v.blockStored i block o bs).desc ∧
        ((v.blockStored i block o bs).bump (.sphIntSt i) 0 16).gauge = (v.blockStored i block o bs).gauge ∧
        ((v.blockStored i block o bs).bump (.sphIntSt i) 0 16).stack = (v.blockStored i block o bs).stack := by simp
    obtain ⟨h1, h2, h3, h4⟩ := hrest
    exact ⟨hne, h1, h2, h3, State.blockGood_damage _ i block, hself, h4⟩

/-! ### The combiner (R297) -/

theorem State.combinerSlot_of_room {page : Nat} (h : (s.combinerPages i).length < 16) (hcomb : s.pageCombining i page = none) :
    s.combinerSlot i page = s := by
  rw [State.combinerSlot, hcomb]
  cases hp : s.combinerPages i with
  | nil => rfl
  | cons p ps =>
    rw [hp, List.length_cons] at h
    exact if_neg (by omega)

/-- Part of a page is not the whole page. -/
theorem pageBytes_ne_whole {o n : Nat} (hn : 0 < n) (h : n ≤ 256) : pageBytes o n ≠ pageBytes 0 4096 := by
  have hbit (o n j : Nat) : (pageBytes o n).testBit j = (decide (o ≤ j) && decide (j - o < n)) := by
    rw [pageBytes, Nat.mul_comm, Nat.testBit_two_pow_mul, Nat.testBit_two_pow_sub_one]
  intro heq
  have h0 := congrArg (Nat.testBit · 0) heq
  have h1 := congrArg (Nat.testBit · 4095) heq
  simp only [hbit] at h0 h1
  simp at h0 h1
  omega

/-- The first write to a page takes a combiner slot. -/
theorem State.writeBlock_combines {block o : Nat} {bs : List Byte} (hne : bs ≠ []) (hfit : o + bs.length ≤ 256) (hup : s.siphonUp i = true)
    (hcomb : s.pageCombining i (block / 16) = none) (hpage : s.pageValid i (block / 16) = false)
    (hroom : (s.combinerPages i).length < 16) (f1 f2 : Bool) :
    s.writeBlock i block o bs f1 f2 = { s.clearPage i (block / 16) with
      stack := putBytes (s.clearPage i (block / 16)).stack (cellKey i (block * 256 + o)) bs
      combining := s.combining ++ [(pageKey i (block / 16), pageBytes (block % 16 * 256 + o) bs.length, s.now)] } := by
  have hemp : bs.isEmpty = false := by simpa using hne
  have hwhole := pageBytes_ne_whole (o := block % 16 * 256 + o) (List.length_pos_iff.2 hne) (show bs.length ≤ 256 by omega)
  rw [State.writeBlock]
  simp only [hemp, hup, hpage, Bool.not_true, Bool.false_eq_true, if_false]
  rw [State.combine]
  simp only [State.combinerSlot_of_room hroom hcomb, hcomb, Option.isNone_none, Option.isSome_none, if_true, Option.getD_none, Nat.zero_or,
    hwhole, if_false, Bool.false_eq_true]
  rfl

theorem State.blockGood_seal_of_good {a : Nat} (b : Nat) (h : s.blockGood i a = true) : (s.seal i b).blockGood i a = true := by
  by_cases hab : a = b
  · subst hab
    exact s.blockGood_seal i a
  · have hkey : blockKey i a ≠ blockKey i b := by
      simp only [blockKey]
      omega
    have hid : (s.seal i b).blockKeyId i a = s.blockKeyId i a := rfl
    simp only [State.blockGood, Bool.and_eq_true, Bool.not_eq_true', decide_eq_true_eq, List.contains_eq_mem, decide_eq_false_iff_not] at h ⊢
    rw [hid]
    refine ⟨fun hmem => h.1 (List.mem_of_mem_filter hmem), ?_⟩
    simp only [State.seal]
    rw [nget_nset_ne _ _ _ hkey]
    exact h.2

/-- Blocks sealed one after another are all good. -/
theorem State.blockGood_sealAll (i page : Nat) (l : List Nat) (s : State) (j : Nat)
    (h : j ∈ l ∨ s.blockGood i (page * 16 + j) = true) :
    (l.foldl (fun (s : State) j => s.seal i (page * 16 + j)) s).blockGood i (page * 16 + j) = true := by
  induction l generalizing s with
  | nil => exact h.resolve_left List.not_mem_nil
  | cons x xs ih =>
    refine ih (s.seal i (page * 16 + x)) ?_
    rcases h with h | h
    · rcases List.mem_cons.1 h with rfl | h
      · exact .inr (s.blockGood_seal i _)
      · exact .inl h
    · exact .inr (State.blockGood_seal_of_good _ h)

/-- A page written whole leaves the combiner. -/
def State.wholePage (s : State) (i page : Nat) : State := { s.bumpWrap (.sphWrCnt i) 0 64 16 with
  combining := s.combining.filter fun p => p.1 ≠ pageKey i page
  pages := pageKey i page :: s.pages.filter (· != pageKey i page) }

theorem State.wholePage_shows (s : State) (i page : Nat) : (s.wholePage i page).pageValid i page = true ∧
    (s.wholePage i page).pageCombining i page = none ∧ (s.wholePage i page).reg (.sphWrCnt i) = s.reg (.sphWrCnt i) + 16 ∧
    ∀ block, (s.wholePage i page).blockGood i block = s.blockGood i block := by
  refine ⟨?_, ?_, (s.reg_bumpWrap (.sphWrCnt i) 16 :), fun block => ?_⟩
  · simp [State.pageValid, State.wholePage]
  · rw [State.pageCombining, Option.map_eq_none_iff, List.find?_eq_none]
    intro x hx
    simpa using (List.mem_filter.1 hx).2
  · exact (s.bumpWrap_blocks (.sphWrCnt i) 16 i block (fun _ => ⟨by simp, by simp⟩)).2

/-- The 16 blocks of a page sealed. -/
def State.pageSealed (s : State) (i page : Nat) : State := (List.range 16).foldl (fun (s : State) j => s.seal i (page * 16 + j)) s

theorem State.pageSealed_shows (s : State) (i page : Nat) : (s.pageSealed i page).reg (.sphWrCnt i) = s.reg (.sphWrCnt i) ∧
    ∀ j, j < 16 → (s.pageSealed i page).blockGood i (page * 16 + j) = true :=
  ⟨State.reg_foldl (f := fun (s : State) j => s.seal i (page * 16 + j)) (fun _ _ => rfl) _ s,
    fun j hj => State.blockGood_sealAll i page (List.range 16) s j (.inl (List.mem_range.2 hj))⟩

/-- A page flushed is written whole and sealed. -/
theorem State.flushPage_eq {page : Nat} (h : (s.pageCombining i page).isSome = true) :
    s.flushPage i page = (s.pageSealed i page).wholePage i page := by
  rw [State.flushPage, if_pos h]
  rfl

/-! ### Refresh and patrol (R303, R304) -/

/-- The stack's temperature is shown. -/
def State.showsTemp (s : State) (i temp : Nat) : State :=
  (s.putFld (.sphSt i) 16 8 temp).putFld (.sphSt i) 0 1 (decide (temp > 85)).toNat

theorem execRefreshSlot_eq (hi : i < s.cfg.siphons) (hup : s.sphState i = 1) (temp : Nat) (c f1 f2 : Bool) :
    exec (.refreshSlot i temp c f1 f2) s =
      .next (if bit (s.reg (.sphCfg i)) 8 then (s.showsTemp i temp).patrolOn i c f1 f2 else s.showsTemp i temp) := by
  have hcfg : (s.showsTemp i temp).reg (.sphCfg i) = s.reg (.sphCfg i) := by
    rw [State.showsTemp, State.reg_putFld_ne _ (by simp), State.reg_putFld_ne _ (by simp)]
  have hexec : execRefreshSlot i temp c f1 f2 s =
      .next (if bit ((s.showsTemp i temp).reg (.sphCfg i)) 8 then (s.showsTemp i temp).patrolOn i c f1 f2 else s.showsTemp i temp) := by
    unfold execRefreshSlot
    rw [if_neg (by simp [hup, hi])]
    rfl
  rw [hcfg] at hexec
  exact hexec

theorem State.showsTemp_shows (s : State) (i temp : Nat) : (s.showsTemp i temp).rfld (.sphSt i) 16 8 = temp % 256 ∧
    (s.showsTemp i temp).rfld (.sphSt i) 0 1 = (if 85 < temp then 1 else 0) ∧ (s.showsTemp i temp).siphon i = s.siphon i ∧
    s.SameStores (s.showsTemp i temp) := by
  refine ⟨?_, ?_, rfl, ⟨rfl, rfl, rfl, rfl, rfl⟩⟩
  · exact (State.rfld_putFld_ne _ _ _ _ _ _ _ _ (by omega)).trans (State.rfld_putFld_self _ _ _ _ _ (by decide))
  · rw [State.showsTemp, State.rfld_putFld_self _ _ _ _ _ (by decide)]
    by_cases h : 85 < temp <;> simp [h]

/-- A good block patrolled: a correction on the die is counted, unless its MAC failed twice. -/
theorem State.patrolBlock_counts {block : Nat} (hgood : s.blockGood i block = true) (c f1 f2 : Bool) :
    s.SameStores (s.patrolBlock i block c f1 f2) ∧ (∀ r, (∀ j, r ≠ .sphIntSt j ∧ r ≠ .sphPatrol j ∧ r ≠ .sphWrCnt j) →
      (s.patrolBlock i block c f1 f2).reg r = s.reg r) ∧
    (s.patrolBlock i block c f1 f2).rfld (.sphPatrol i) 0 16 =
      (if c && !(f1 && f2) then min (s.rfld (.sphPatrol i) 0 16 + 1) (2 ^ 16 - 1) else s.rfld (.sphPatrol i) 0 16) := by
  obtain ⟨honly, hres, -, -⟩ := s.verifyBlock_shows i block f1 f2
  have hsame := s.verifyBlock_same i block f1 f2
  have hfld : (s.verifyBlock i block f1 f2).1.rfld (.sphPatrol i) 0 16 = s.rfld (.sphPatrol i) 0 16 :=
    congrArg (fld · 0 16) (honly.reg _ (by simp))
  rw [hgood, Bool.true_and] at hres
  rw [State.patrolBlock]
  simp only [hres]
  generalize (s.verifyBlock i block f1 f2).1 = v at *
  have hcount : s.SameStores (((v.bump (.sphPatrol i) 0 16).bumpWrap (.sphWrCnt i) 0 64).siphonEvent i block 2) :=
    hsame.trans (State.sameStores_of_lasting (by simp))
  cases hc : (!(f1 && f2) && c) with
  | false =>
    rw [Bool.and_comm] at hc
    simp only [hc, Bool.false_eq_true, if_false]
    exact ⟨hsame, fun r hr => honly.reg r (hr i).1, hfld⟩
  | true =>
    have hc' := hc
    rw [Bool.and_comm] at hc'
    simp only [hc', if_true]
    refine ⟨hcount, fun r hr => ?_, ?_⟩
    · rw [State.siphonEvent_reg]
      exact ((State.reg_putFld_ne _ (hr i).2.2 _ _ _).trans (v.reg_bump_ne (hr i).2.1 _ _ _)).trans (honly.reg r (hr i).1)
    · rw [State.rfld_siphonEvent]
      refine (congrArg (fld · 0 16) (State.reg_putFld_ne _ (by simp) _ _ _)).trans ?_
      exact (v.rfld_bump_self (.sphPatrol i) 0 16 (by decide)).trans (by rw [hfld])

/-- The patrol's turn at a good block that no write waits for. -/
theorem State.patrolOn_patrols {n : Nat} (hn : s.nextPatrol i (s.siphon i).patrol = some n) (hlast : n + 1 < patrolBlocks)
    (hfree : ∀ q ∈ (s.siphon i).queue ++ (s.siphon i).granted, q.write = true → q.block ≠ n) (c f1 f2 : Bool) :
    s.patrolOn i c f1 f2 = (s.patrolBlock i n c f1 f2).putSiphon i { (s.patrolBlock i n c f1 f2).siphon i with patrol := n + 1 } := by
  have hnone : ((s.siphon i).queue ++ (s.siphon i).granted).any (fun q => q.write && decide (q.block = n)) = false := by
    rw [List.any_eq_false]
    intro q hq
    simp only [Bool.and_eq_true, decide_eq_true_eq, not_and]
    exact hfree q hq
  rw [State.patrolOn]
  simp only [hn, hnone, Bool.false_eq_true, if_false, if_neg (Nat.not_le.2 hlast)]

/-! ### Calibration (R305, R308) -/

/-- A siphon that comes out of self-refresh serves. -/
def State.serving (s : State) (i : Nat) : State := if s.sphState i = 3 then s.putFld (.sphSt i) 8 4 1 else s

/-- The trims of a siphon are set. -/
def State.trimmed (s : State) (i : Nat) : State :=
  (s.putSiphon i { s.siphon i with trims := (s.siphon i).trims ++ [s.freeUses] }).useFree

theorem State.trimmed_rest (s : State) (i : Nat) : (∀ r lo n, (s.trimmed i).rfld r lo n = s.rfld r lo n) ∧
    (s.trimmed i).cistern = s.cistern ∧ s.SameStores (s.trimmed i) := ⟨fun _ _ _ => rfl, rfl, ⟨rfl, rfl, rfl, rfl, rfl⟩⟩

/-- A round without weak lanes. -/
def State.rounded (s : State) (i margin : Nat) : State :=
  ((s.bump (.sphLinkSt i) 32 32).putFld (.sphLinkSt i) 0 16 margin).trimmed i

/-- A lane gives way to a spare. -/
def State.spared (s : State) (i lane : Nat) : State :=
  let t := { s with cistern := { s.cistern with lanesRetired := (i, lane) :: s.cistern.lanesRetired } }
  (t.putFld (.sphLinkSt i) 24 8 (min 255 (s.rfld (.sphLinkSt i) 24 8 + 1))).putFld (.sphLinkSt i) 16 8 (s.rfld (.sphLinkSt i) 16 8 - 1)

/-- Its event. -/
def State.laneEvent (s : State) (i lane : Nat) : Event :=
  { Event.of .siphon 0xFFFF i clsSiphon .none with
    loc := lane, detail := sphDetail 3 0xFF (s.rfld (.sphLinkSt i) 16 8 - 1) 0 }

theorem State.retireLane_spares {lane : Nat} (h : s.retiredIn i (lane / 32) < 2) :
    s.retireLane i lane = (s.spared i lane).post (s.laneEvent i lane) := by
  rw [State.retireLane, if_neg (Nat.not_le.2 h)]
  rfl

theorem execLinkCalibration_eq (hcal : s.calibrates i = true) (weak : List Nat) (margin : Nat) :
    exec (.linkCalibration i weak margin) s =
      .next ((weak.filter (· < 384)).foldl (fun (s : State) l => s.retireLane i l) ((s.serving i).rounded i margin)) := by
  have hexec : execLinkCalibration i weak margin s =
      .next ((weak.filter (· < 384)).foldl (fun (s : State) l => s.retireLane i l) ((s.serving i).rounded i margin)) := by
    unfold execLinkCalibration
    rw [if_neg (by simp [hcal])]
    rfl
  exact hexec

theorem State.rounded_shows (s : State) (i margin : Nat) : (s.rounded i margin).cistern = s.cistern ∧
    (s.rounded i margin).rfld (.sphLinkSt i) 32 32 = min (s.rfld (.sphLinkSt i) 32 32 + 1) (2 ^ 32 - 1) ∧
    (s.rounded i margin).rfld (.sphLinkSt i) 0 16 = margin % 2 ^ 16 ∧ (s.rounded i margin).rfld (.sphLinkSt i) 16 8 =
      s.rfld (.sphLinkSt i) 16 8 ∧ (s.rounded i margin).sphState i = s.sphState i ∧ s.SameStores (s.rounded i margin) := by
  obtain ⟨hfld, hcis, hsame⟩ := ((s.bump (.sphLinkSt i) 32 32).putFld (.sphLinkSt i) 0 16 margin).trimmed_rest i
  have hkeep : s.SameStores ((s.bump (.sphLinkSt i) 32 32).putFld (.sphLinkSt i) 0 16 margin) := State.sameStores_of_lasting (by simp)
  have hc : ((s.bump (.sphLinkSt i) 32 32).putFld (.sphLinkSt i) 0 16 margin).cistern = s.cistern := by simp
  refine ⟨hcis.trans hc, (hfld _ _ _).trans ?_, (hfld _ _ _).trans ?_, (hfld _ _ _).trans ?_, (hfld _ _ _).trans ?_, hkeep.trans hsame⟩
  · rw [State.rfld_putFld_ne _ _ _ _ _ _ _ _ (by omega), s.rfld_bump_self _ _ _ (by decide)]
  · rw [State.rfld_putFld_self _ _ _ _ _ (by decide)]
  · rw [State.rfld_putFld_ne _ _ _ _ _ _ _ _ (by omega), s.rfld_bump_ne _ _ _ _ _ _ _ (by omega)]
  · rw [State.rfld_putFld_ne _ _ _ _ _ _ _ _ (by simp), s.rfld_bump_ne _ _ _ _ _ _ _ (by simp)]
    rfl

theorem State.serving_shows (h : s.sphState i = 1 ∨ s.sphState i = 3) : (s.serving i).sphState i = 1 ∧
    (s.serving i).cistern = s.cistern ∧ (∀ r, r ≠ .sphSt i → (s.serving i).reg r = s.reg r) ∧ s.SameStores (s.serving i) := by
  unfold State.serving
  rcases h with h | h
  · rw [if_neg (by rw [h]; decide)]
    exact ⟨h, rfl, fun _ _ => rfl, .refl s⟩
  · rw [if_pos h]
    exact ⟨State.rfld_putFld_self _ _ _ _ _ (by decide), rfl, fun r hr => s.reg_putFld_ne hr _ _ _, ⟨rfl, rfl, rfl, rfl, rfl⟩⟩

theorem State.spared_shows (s : State) (i lane : Nat) :
    (s.spared i lane).cistern.lanesRetired = (i, lane) :: s.cistern.lanesRetired ∧
    (s.spared i lane).rfld (.sphLinkSt i) 16 8 = s.rfld (.sphLinkSt i) 16 8 - 1 ∧ (s.spared i lane).sphState i = s.sphState i ∧
    s.SameStores (s.spared i lane) := by
  have hlt : s.rfld (.sphLinkSt i) 16 8 < 2 ^ 8 := fld_lt _ _ _
  refine ⟨rfl, ?_, ?_, ⟨rfl, rfl, rfl, rfl, rfl⟩⟩
  · rw [State.spared, State.rfld_putFld_self _ _ _ _ _ (by decide), Nat.mod_eq_of_lt (by omega)]
  · refine (State.rfld_putFld_ne _ _ _ _ _ _ _ _ (by simp)).trans ?_
    exact State.rfld_putFld_ne _ _ _ _ _ _ _ _ (by simp)

/-! ### Out of service (R307) -/

theorem State.siphonStopped_rest (s : State) (i : Nat) : s.SameStores (s.siphonStopped i) ∧
    (s.siphonStopped i).placements = s.placements ∧ ((s.siphonStopped i).siphon i).queue = [] ∧
    ((s.siphonStopped i).siphon i).granted = [] ∧ ∀ x ∈ (s.siphonStopped i).combining, x.1 / 2 ^ 20 ≠ i := by
  have hself : (s.siphonStopped i).siphon i = { s.siphon i with queue := [], granted := [], served := [] } :=
    State.siphon_putSiphon_self _ i _
  refine ⟨⟨rfl, rfl, rfl, rfl, rfl⟩, rfl, by rw [hself], by rw [hself], fun x hx => ?_⟩
  simpa using (List.mem_filter.1 hx).2

theorem State.post_rest (s : State) (e : Event) : (s.post e).placements = s.placements ∧ (s.post e).siphons = s.siphons ∧
    (s.post e).combining = s.combining ∧ s.SameStores (s.post e) := by
  unfold State.post
  split <;> exact ⟨rfl, rfl, rfl, ⟨rfl, rfl, rfl, rfl, rfl⟩⟩

/-- A siphon without shadow records goes out of service. -/
theorem State.siphonOut_stops (hnone : s.placements = []) (hin : s.sphState i ≠ 2) : (s.siphonOut i).sphState i = 2 ∧
    s.SameStores (s.siphonOut i) ∧ ((s.siphonOut i).siphon i).queue = [] ∧ ((s.siphonOut i).siphon i).granted = [] ∧
    ∀ x ∈ (s.siphonOut i).combining, x.1 / 2 ^ 20 ≠ i := by
  obtain ⟨h1, h2, h3, h4, h5⟩ := s.siphonStopped_rest i
  obtain ⟨k1, k2, k3, k4⟩ := (s.siphonStopped i).post_rest ((s.siphonStopped i).siphonGone i)
  have hst : ((s.siphonStopped i).post ((s.siphonStopped i).siphonGone i)).sphState i = 2 := by
    have hreg := State.reg_of_post (s.siphonStopped i) ((s.siphonStopped i).siphonGone i) (.sphSt i)
    rw [s.siphonStopped_reg] at hreg
    exact (congrArg (fld · 8 4) hreg).trans (State.rfld_putFld_self _ _ _ _ _ (by decide))
  rw [State.siphonOut_eq, if_neg hin]
  generalize (s.siphonStopped i).post ((s.siphonStopped i).siphonGone i) = v at *
  have hr := v.recompute_rights
  have hplace : v.recompute.placements = [] := (congrArg State.placements hr.1 :).trans (k1.trans (h2.trans hnone))
  have hsiph : v.recompute.siphons = (s.siphonStopped i).siphons := (congrArg State.siphons hr.1 :).trans k2
  have hcomb : v.recompute.combining = (s.siphonStopped i).combining := (congrArg State.combining hr.1 :).trans k3
  have hshadow : v.recompute.shadowedOn i = [] := by simp [State.shadowedOn, hplace]
  have heq : ∃ x, v.recompute.unshadowed i = { v.recompute with reshadows := x } := by
    rw [State.unshadowed, hshadow]
    exact ⟨_, rfl⟩
  obtain ⟨x, hx⟩ := heq
  have hs : v.recompute.sphState i = 2 := (congrArg (fld · 8 4) (hr.2 (.sphSt i) (by simp))).trans hst
  have hq : v.recompute.siphon i = (s.siphonStopped i).siphon i := congrArg (kget · Siphon.idle i) hsiph
  rw [hx]
  exact ⟨hs, (h1.trans k4).trans hr.same, (congrArg Siphon.queue hq).trans h3, (congrArg Siphon.granted hq).trans h4, hcomb ▸ h5⟩

end Sys2Proof.Machine
end

section
set_option Elab.async false -- the whole text is compiled in one process, within a fixed memory
/-! SUPPORT. What siphons serve (R296–R308): the obligation, block commands first. -/
namespace Sys2Proof.Machine

variable {s : State} {i : Nat}

section
variable {block : Nat} (hi : i < s.cfg.siphons) (hup : s.sphState i = 1) (hblock : blockOk block = true)
include hi hup hblock

/-- A read that no request waits before. -/
theorem siphonBlockRead_reads (hperf : (s.siphon i).performs block false = true) (hq : (s.siphon i).request block false = none)
    (hcomb : s.pageCombining i (block / 16) = none) (f1 f2 : Bool) :
    (∀ lost, s.pageValid i (block / 16) = true → s.blockGood i block = true →
      ∃ u, exec (.siphonBlockRead i block f1 f2 lost) s = .next u ∧ s.SameStores u ∧
        u.reg (.sphRdCnt i) = s.reg (.sphRdCnt i) + 1 ∧ u.blockGood i block = !(f1 && f2) ∧
        u.rfld (.sphIntSt i) 48 16 =
          (if f1 then min (s.rfld (.sphIntSt i) 48 16 + 1) (2 ^ 16 - 1) else s.rfld (.sphIntSt i) 48 16) ∧
        u.rfld (.sphIntSt i) 32 16 =
          (if f1 && !f2 then min (s.rfld (.sphIntSt i) 32 16 + 1) (2 ^ 16 - 1) else s.rfld (.sphIntSt i) 32 16) ∧
        u.rfld (.sphIntSt i) 16 16 =
          (if f1 && f2 then min (s.rfld (.sphIntSt i) 16 16 + 1) (2 ^ 16 - 1) else s.rfld (.sphIntSt i) 16 16)) ∧
    (∀ lost, s.pageValid i (block / 16) = true → s.blockGood i block = false →
      ∃ u, exec (.siphonBlockRead i block f1 f2 lost) s = .next u ∧ s.SameStores u ∧
        u.rfld (.sphIntSt i) 16 16 = min (s.rfld (.sphIntSt i) 16 16 + 1) (2 ^ 16 - 1)) ∧
    (s.pageValid i (block / 16) = false → ∃ u, exec (.siphonBlockRead i block f1 f2 false) s = .next u ∧
      u.regs = s.regs ∧ s.SameStores u) ∧
    (∃ u, exec (.siphonBlockRead i block f1 f2 true) s = .next u ∧ u.pageValid i (block / 16) = true ∧ s.SameStores u) := by
  have hexec := execBlockRead_reads hi hup hblock hperf hq f1 f2
  have hpages (ps : List Nat) (hp : ps.contains (pageKey i (block / 16)) = true) :=
    State.readBlock_shows (s := { s with pages := ps }) (State.siphonUp_of hup) hcomb hp f1 f2
  have hvalid (lost : Bool) (h : s.pageValid i (block / 16) = true) : ∃ ps, ps.contains (pageKey i (block / 16)) = true ∧
      (if lost then s.loseMap i (block / 16) else s) = { s with pages := ps } := by
    cases lost with
    | false => exact ⟨s.pages, h, rfl⟩
    | true =>
      obtain ⟨ps, hps⟩ := s.loseMap_eq i (block / 16)
      have hmem : pageKey i (block / 16) ∈ s.pages := by simpa [State.pageValid] using h
      exact ⟨ps ++ s.pages, by simp [hmem], hps⟩
  refine ⟨fun lost hpage hgood => ?_, fun lost hpage hgood => ?_, fun hpage => ?_, ?_⟩
  · obtain ⟨ps, hp, hps⟩ := hvalid lost hpage
    obtain ⟨h1, h2, h3, -⟩ := hpages ps hp
    have h := hexec lost
    rw [hps] at h
    exact ⟨_, h, h1, h2, h3 hgood⟩
  · obtain ⟨ps, hp, hps⟩ := hvalid lost hpage
    obtain ⟨h1, -, -, h4⟩ := hpages ps hp
    have h := hexec lost
    rw [hps] at h
    exact ⟨_, h, h1, h4 hgood⟩
  · have h := hexec false
    simp only [Bool.false_eq_true, if_false] at h
    rw [State.readBlock_unmapped (State.siphonUp_of hup) hcomb hpage] at h
    exact ⟨s, h, rfl, .refl s⟩
  · have hlow : block / 16 < 1015808 := by
      simp only [blockOk, decide_eq_true_eq] at hblock
      omega
    obtain ⟨ps, hps⟩ := s.loseMap_eq i (block / 16)
    have hin := State.pageValid_loseMap hlow hcomb
    have h := hexec true
    simp only [if_true] at h
    rw [hps] at hin h
    have hkeep := State.readBlock_pages (s := { s with pages := ps ++ s.pages }) (State.siphonUp_of hup) hcomb hin f1 f2
    obtain ⟨h1, -, -, -⟩ := hpages _ hin
    refine ⟨_, h, ?_, h1⟩
    simp only [State.pageValid, hkeep]
    exact hin

/-- A write that no request waits before. -/
theorem siphonBlockWrite_writes (hperf : (s.siphon i).performs block true = true) (hq : (s.siphon i).request block true = none)
    (hcomb : s.pageCombining i (block / 16) = none) {o : Nat} {bs : List Byte} {d : BlockData} {good : Bool} (hne : bs ≠ [])
    (hfit : o + bs.length ≤ 256) (hd : d.bytes = bs)
    (hgood : good = (decide (bs.length = 256) || s.blockGood i block && !(d.fail1 && d.fail2))) :
    (s.pageValid i (block / 16) = true → ∃ u, exec (.siphonBlockWrite i block o d) s = .next u ∧
      u.reg (.sphWrCnt i) = s.reg (.sphWrCnt i) + 1 ∧ u.mem = s.mem ∧ u.desc = s.desc ∧ u.gauge = s.gauge ∧
      u.blockGood i block = good ∧
      u.rfld (.sphIntSt i) 0 16 = (if good then s.rfld (.sphIntSt i) 0 16
        else min (s.rfld (.sphIntSt i) 0 16 + 1) (2 ^ 16 - 1)) ∧
      (∀ j, j < bs.length → nget u.stack 0 (cellKey i (block * 256 + o) + j) = bs.getD j 0) ∧
      ∀ k, (k < cellKey i (block * 256 + o) ∨ cellKey i (block * 256 + o) + bs.length ≤ k) →
        nget u.stack 0 k = nget s.stack 0 k) ∧
    (s.pageValid i (block / 16) = false → (s.combinerPages i).length < 16 →
      ∃ u, exec (.siphonBlockWrite i block o d) s = .next u ∧ u.pages = s.pages ∧ u.mem = s.mem ∧ u.desc = s.desc ∧
        u.gauge = s.gauge ∧ u.combining = s.combining ++
          [(pageKey i (block / 16), pageBytes (block % 16 * 256 + o) bs.length, s.now)]) := by
  subst hd
  refine ⟨fun hpage => ?_, fun hpage hroom => ?_⟩
  · have hexec := execBlockWrite_writes hi hup hblock hperf hq hne hfit (.inl hpage)
    obtain ⟨v, hv, hsame, hcount, hlow⟩ := State.writeBlock_lands hne hfit (State.siphonUp_of hup) hcomb hpage d.fail1 d.fail2
    rw [hv, ← hgood] at hexec
    obtain ⟨h1, h2, h3, h4, h5, h6, h7⟩ := v.landsIn_shows i block o d.bytes good
    obtain ⟨hm, -, hde, hg, hst⟩ := hsame
    refine ⟨_, hexec, h1.trans hcount, h2.trans hm, h3.trans hde, h4.trans hg, h5, by rw [h6, hlow], fun j hj => ?_, fun k hk => ?_⟩
    · rw [h7, nget_putBytes, if_pos (by omega), Nat.add_sub_cancel_left]
    · rw [h7, nget_putBytes, if_neg (by omega), hst]
  · have hexec := execBlockWrite_writes hi hup hblock hperf hq hne hfit (.inr hroom)
    rw [State.writeBlock_combines hne hfit (State.siphonUp_of hup) hcomb hpage hroom] at hexec
    exact ⟨_, hexec, rfl, rfl, rfl, rfl, rfl⟩

end

/-- A page gathered long enough is written; before that it waits. -/
theorem combinerFlush_flushes {page m since : Nat} (h : s.pageCombining i page = some (m, since)) :
    (since + 256 * rootPerSph ≤ s.now → ∃ u, exec (.combinerFlush i page) s = .next u ∧ u.pageValid i page = true ∧
      u.pageCombining i page = none ∧ u.reg (.sphWrCnt i) = s.reg (.sphWrCnt i) + 16 ∧ s.SameStores u ∧
      ∀ j, j < 16 → u.blockGood i (page * 16 + j) = true) ∧
    (s.now < since + 256 * rootPerSph → exec (.combinerFlush i page) s = .next s) := by
  have hexec : exec (.combinerFlush i page) s = .next (if since + 256 * rootPerSph ≤ s.now then s.flushPage i page else s) := by
    have hexec : execCombinerFlush i page s = .next (if since + 256 * rootPerSph ≤ s.now then s.flushPage i page else s) := by
      unfold execCombinerFlush
      simp only [h]
      rfl
    exact hexec
  refine ⟨fun hdue => ?_, fun hwait => ?_⟩
  · have hsame := s.flushPage_same i page
    rw [if_pos hdue] at hexec
    rw [State.flushPage_eq (by simp [h])] at hexec hsame
    obtain ⟨h1, h2⟩ := s.pageSealed_shows i page
    obtain ⟨k1, k2, k3, k4⟩ := (s.pageSealed i page).wholePage_shows i page
    exact ⟨_, hexec, k1, k2, k3.trans (by rw [h1]), hsame, fun j hj => (k4 _).trans (h2 j hj)⟩
  · rw [if_neg (Nat.not_le.2 hwait)] at hexec
    exact hexec

/-- The temperature is shown, and a block is patrolled where the patrol is on. -/
theorem refreshSlot_refreshes (hi : i < s.cfg.siphons) (hup : s.sphState i = 1) (temp : Nat) (c f1 f2 : Bool) :
    (bit (s.reg (.sphCfg i)) 8 = false → ∃ u, exec (.refreshSlot i temp c f1 f2) s = .next u ∧
      u.rfld (.sphSt i) 16 8 = temp % 256 ∧ u.rfld (.sphSt i) 0 1 = (if 85 < temp then 1 else 0) ∧
      u.siphon i = s.siphon i ∧ s.SameStores u) ∧
    (∀ n, bit (s.reg (.sphCfg i)) 8 = true → s.nextPatrol i (s.siphon i).patrol = some n → n + 1 < patrolBlocks →
      (∀ q ∈ (s.siphon i).queue ++ (s.siphon i).granted, q.write = true → q.block ≠ n) → s.blockGood i n = true →
      ∃ u, exec (.refreshSlot i temp c f1 f2) s = .next u ∧ u.rfld (.sphSt i) 16 8 = temp % 256 ∧
        (u.siphon i).patrol = n + 1 ∧ s.SameStores u ∧ u.rfld (.sphPatrol i) 0 16 =
          (if c && !(f1 && f2) then min (s.rfld (.sphPatrol i) 0 16 + 1) (2 ^ 16 - 1) else s.rfld (.sphPatrol i) 0 16)) := by
  have hexec := execRefreshSlot_eq hi hup temp c f1 f2
  obtain ⟨h1, h2, h3, h4⟩ := s.showsTemp_shows i temp
  refine ⟨fun hoff => ?_, fun n hon hn hlast hfree hgood => ?_⟩
  · rw [if_neg (by simp [hoff])] at hexec
    exact ⟨_, hexec, h1, h2, h3, h4⟩
  · rw [if_pos hon] at hexec
    have hpat : (s.showsTemp i temp).rfld (.sphPatrol i) 0 16 = s.rfld (.sphPatrol i) 0 16 :=
      (State.rfld_putFld_ne _ _ _ _ _ _ _ _ (by simp)).trans (State.rfld_putFld_ne _ _ _ _ _ _ _ _ (by simp))
    have hblocks : (s.showsTemp i temp).blockGood i n = true := by
      have hreg (r : Reg) (hr : r ≠ .sphSt i) : (s.showsTemp i temp).reg r = s.reg r :=
        (State.reg_putFld_ne _ hr _ _ _).trans (s.reg_putFld_ne hr _ _ _)
      have hregions : (s.showsTemp i temp).regions = s.regions := by
        simp only [State.regions, hreg (.sphRgnA _) (by simp), hreg (.sphRgnB _) (by simp)]
      have hkey : (s.showsTemp i temp).blockKeyId i n = s.blockKeyId i n := by
        simp only [State.blockKeyId, State.blockCtx, hregions]
        rfl
      have hrest : (s.showsTemp i temp).badBlocks = s.badBlocks ∧ (s.showsTemp i temp).macs = s.macs := ⟨rfl, rfl⟩
      simp only [State.blockGood, hkey, hrest.1, hrest.2] at hgood ⊢
      exact hgood
    have hn' : (s.showsTemp i temp).nextPatrol i ((s.showsTemp i temp).siphon i).patrol = some n := hn
    have hfree' : ∀ q ∈ ((s.showsTemp i temp).siphon i).queue ++ ((s.showsTemp i temp).siphon i).granted, q.write = true → q.block ≠ n :=
      hfree
    generalize s.showsTemp i temp = v at *
    rw [State.patrolOn_patrols hn' hlast hfree'] at hexec
    obtain ⟨k1, k2, k3⟩ := State.patrolBlock_counts hblocks c f1 f2
    generalize v.patrolBlock i n c f1 f2 = w at *
    refine ⟨_, hexec, ?_, ?_, h4.trans ⟨k1.1, k1.2.1, k1.2.2.1, k1.2.2.2.1, k1.2.2.2.2⟩, ?_⟩
    · exact (congrArg (fld · 16 8) (k2 (.sphSt i) (fun j => ⟨by simp, by simp, by simp⟩))).trans h1
    · rw [State.siphon_putSiphon_self]
    · exact k3.trans (by rw [hpat])

/-- A round is counted; a weak lane gives way to a spare. -/
theorem linkCalibration_rounds (hi : i < s.cfg.siphons) (margin : Nat)
    (hawake : s.sphState i = 1 ∧ (s.site = stFlow ∨ s.site = stSlack) ∨ s.sphState i = 3 ∧ s.site ≠ stPond ∧
      s.site ≠ stTrickle ∧ s.site ≠ stFallow ∧ s.site ≠ stEntering) :
    (∃ u, exec (.linkCalibration i [] margin) s = .next u ∧ u.sphState i = 1 ∧
      u.rfld (.sphLinkSt i) 32 32 = min (s.rfld (.sphLinkSt i) 32 32 + 1) (2 ^ 32 - 1) ∧
      u.rfld (.sphLinkSt i) 0 16 = margin % 2 ^ 16 ∧ u.cistern = s.cistern ∧ s.SameStores u) ∧
    (∀ l, l < 384 → s.retiredIn i (l / 32) < 2 → ∃ u, exec (.linkCalibration i [l] margin) s = .next u ∧
      u.cistern.lanesRetired = (i, l) :: s.cistern.lanesRetired ∧
      u.rfld (.sphLinkSt i) 16 8 = s.rfld (.sphLinkSt i) 16 8 - 1 ∧ u.sphState i = 1 ∧ s.SameStores u) := by
  have hcal : s.calibrates i = true := by
    simpa [State.calibrates, hi] using hawake
  have hst : s.sphState i = 1 ∨ s.sphState i = 3 := hawake.imp And.left And.left
  have hexec (weak : List Nat) := execLinkCalibration_eq hcal weak margin
  obtain ⟨h1, h2, h3, h4⟩ := s.serving_shows hst
  have hfld (lo n : Nat) : (s.serving i).rfld (.sphLinkSt i) lo n = s.rfld (.sphLinkSt i) lo n :=
    congrArg (fld · lo n) (h3 (.sphLinkSt i) (by simp))
  generalize s.serving i = v at *
  obtain ⟨k1, k2, k3, k4, k5, k6⟩ := v.rounded_shows i margin
  generalize v.rounded i margin = w at *
  refine ⟨⟨w, hexec [], k5.trans h1, by rw [k2, hfld], k3, k1.trans h2, h4.trans k6⟩, fun l hl hspare => ?_⟩
  have hfew : w.retiredIn i (l / 32) < 2 := by
    rw [State.retiredIn, k1, h2]
    exact hspare
  have hone : ([l].filter (· < 384)) = [l] := by simp [hl]
  have h := hexec [l]
  rw [hone, List.foldl_cons, List.foldl_nil, State.retireLane_spares hfew] at h
  obtain ⟨m1, m2, m3, m4⟩ := w.spared_shows i l
  obtain ⟨-, -, -, n4⟩ := (w.spared i l).post_rest (w.laneEvent i l)
  have hreg := State.reg_of_post (w.spared i l) (w.laneEvent i l)
  have hcis : ((w.spared i l).post (w.laneEvent i l)).cistern = (w.spared i l).cistern := by
    unfold State.post
    split <;> rfl
  refine ⟨_, h, ?_, ?_, ?_, (h4.trans k6).trans (m4.trans n4)⟩
  · rw [hcis, m1, k1, h2]
  · exact (congrArg (fld · 16 8) (hreg (.sphLinkSt i))).trans (m2.trans (by rw [k4, hfld]))
  · exact (congrArg (fld · 8 4) (hreg (.sphSt i))).trans (m3.trans (k5.trans h1))

/-- Settles O50: each command is its siphon's own function, and what that changes is said above. -/
theorem siphonsServe : Obligations.SiphonsServe := by
  unfold Obligations.SiphonsServe
  refine ⟨fun s i hi => ⟨?request, ?readPerforms, ?writePerforms, ?read, ?write, ?flush⟩, fun s i hi => ⟨?refresh, ?round, ?out, ?replay⟩⟩
  case request => exact fun who b q block w hup hblock hasker => siphonRequest_serves hup hi hblock hasker w
  case readPerforms => exact fun block f1 f2 q hup hblock hperf hq => execBlockRead_performs hi hup hblock hperf hq f1 f2
  case writePerforms => exact fun block o d q hup hblock hperf hq hpage => execBlockWrite_performs hi hup hblock hperf hq hpage o d
  case read => exact fun block f1 f2 hup hblock hperf hq hcomb => siphonBlockRead_reads hi hup hblock hperf hq hcomb f1 f2
  case write =>
    exact fun block o bs d good hne hfit hup hblock hd hperf hq hcomb hgood =>
      siphonBlockWrite_writes hi hup hblock hperf hq hcomb hne hfit hd hgood
  case flush => exact fun page m since h => combinerFlush_flushes h
  case refresh => exact fun temp c f1 f2 hup => refreshSlot_refreshes hi hup temp c f1 f2
  case round => exact fun margin hawake => linkCalibration_rounds hi margin hawake
  case out =>
    intro hnone
    have hexec : execSiphonOutOfService i s = .next (s.siphonOut i) := if_neg (Nat.not_le.2 hi)
    by_cases hst : s.sphState i = 2
    · have hsame : s.siphonOut i = s := if_pos hst
      rw [hsame] at hexec
      exact ⟨s, hexec, hst, .refl s, fun h => absurd hst h⟩
    · obtain ⟨h1, h2, h3, h4, h5⟩ := State.siphonOut_stops hnone hst
      exact ⟨_, hexec, h1, h2, fun _ => ⟨h3, h4, h5⟩⟩
  case replay => rfl

end Sys2Proof.Machine
end

section
set_option Elab.async false -- the whole text is compiled in one process, within a fixed memory
/-! SUPPORT. Bursts at their turnouts and checks: queued, granted, parked (R158–R165, R177). -/
namespace Sys2Proof.Machine

variable {s : State} {b c : Nat} {e : Burst}

/-! ### A check's arbiter -/

theorem State.arb_names (s : State) (b c : Nat) : (s.arb b c).basin = b ∧ (s.arb b c).check = c := by
  unfold State.arb
  cases h : s.arbs.find? fun a => a.basin = b ∧ a.check = c with
  | none => exact ⟨rfl, rfl⟩
  | some a =>
    have ha := List.find?_some h
    simpa using ha

theorem State.arb_putArb_self {a : CheckArb} (hb : a.basin = b) (hc : a.check = c) : (s.putArb a).arb b c = a := by
  subst hb hc
  unfold State.arb State.putArb
  simp only
  split
  · next h =>
    have hnone : (s.arbs.filter fun x => !(x.basin = a.basin ∧ x.check = a.check)).find?
        (fun x => x.basin = a.basin ∧ x.check = a.check) = none := by
      rw [List.find?_eq_none]
      intro x hx
      have hne := (List.mem_filter.1 hx).2
      simp only [Bool.not_eq_true', decide_eq_false_iff_not] at hne
      simpa only [decide_eq_true_eq] using hne
    rw [hnone]
    exact h.symm
  · simp

theorem State.arb_putArb_ne {a : CheckArb} {b' c' : Nat} (h : ¬ (a.basin = b' ∧ a.check = c')) : (s.putArb a).arb b' c' = s.arb b' c' := by
  have hrest : (s.arbs.filter fun x => !(x.basin = a.basin ∧ x.check = a.check)).find? (fun x => x.basin = b' ∧ x.check = c') =
      s.arbs.find? (fun x => x.basin = b' ∧ x.check = c') := by
    rw [List.find?_filter]
    refine List.find?_congr fun x hx => ?_
    by_cases hx : x.basin = b' ∧ x.check = c'
    · have hne : ¬ (x.basin = a.basin ∧ x.check = a.check) := fun k => h ⟨k.1 ▸ hx.1, k.2 ▸ hx.2⟩
      rw [decide_eq_false hne, decide_eq_true hx]
      rfl
    · simp [hx]
  unfold State.arb State.putArb
  simp only
  split
  · rw [hrest]
  · rw [List.find?_cons_of_neg (by simpa using h), hrest]

/-! ### A burst arrives (R158–R162, R177) -/

theorem State.noteAsked_eq (s : State) (who : BurstSrc) (w n : Nat) : ∃ x, s.noteAsked who w n = { s with flights := x } := by
  unfold State.noteAsked
  split
  · split
    · exact ⟨_, rfl⟩
    · exact ⟨s.flights, rfl⟩
  · exact ⟨s.flights, rfl⟩

theorem State.issueWaiting_of_none (h : s.turnWait = []) : s.issueWaiting = s := by
  simp [State.issueWaiting, h]

theorem execBurstArrival_none {who : BurstSrc} {kind : BurstKind} {w n : Nat}
    (h : s.burstShape b w n = false ∨ s.sender b who kind w n = none) : exec (.burstArrival b who kind w n) s = .next s := by
  have hexec : execBurstArrival b who kind w n s = .next s := by
    unfold execBurstArrival
    rcases h with h | h
    · exact if_pos (by simp [h])
    · simp only [h]
      split <;> rfl
  exact hexec

theorem execBurstArrival_ready {who : BurstSrc} {kind : BurstKind} {w n t right : Nat} (hshape : s.burstShape b w n = true)
    (hnone : s.turnWait = []) (hsend : s.sender b who kind w n = some (t, right)) :
    exec (.burstArrival b who kind w n) s =
      .next ((s.noteAsked who w n).burstReady b ⟨who, t, right, 0, kind, w, n, s.cycle, s.cycle⟩) := by
  have hexec : execBurstArrival b who kind w n s =
      .next ((s.noteAsked who w n).burstReady b ⟨who, t, right, 0, kind, w, n, s.cycle, s.cycle⟩) := by
    unfold execBurstArrival
    rw [if_neg (by simp [hshape])]
    simp only [hsend, State.issueWaiting_of_none hnone]
    rfl
  exact hexec

/-- The burst as it is queued: with its QoS value, entered in the present cycle. -/
def State.queuedAs (s : State) (b : Nat) (e : Burst) : Burst := { e with arrived := s.cycle, qos := s.requestQos b e.turnout e.right }

theorem State.burstReady_held (h : s.heldBack b e = true) : s.burstReady b e = { s with turnWait := s.turnWait ++ [(b, e)] } := by
  rw [State.burstReady, if_pos h]

theorem State.burstReady_queued (h : s.heldBack b e = false) (hc : c = (s.burstBank b (s.queuedAs b e) 0).2)
    (hby : s.bypasses b c (s.queuedAs b e) = false) :
    s.burstReady b e = s.putArb { s.arb b c with queue := (s.arb b c).queue ++ [s.queuedAs b e] } := by
  subst hc
  rw [State.burstReady, if_neg (by simp [h])]
  exact if_neg (Bool.eq_false_iff.1 hby)

/-- A bypassing burst is an ordinary grant at its check. -/
def State.bypassed (s : State) (b c : Nat) : State := s.putArb { s.arb b c with count := min ((s.arb b c).count + 1) (s.arbAgeN b - 1) }

theorem State.bypassed_queue (s : State) (b c : Nat) : ((s.bypassed b c).arb b c).queue = (s.arb b c).queue := by
  obtain ⟨hb, hc⟩ := s.arb_names b c
  have h := State.arb_putArb_self (s := s) (a := { s.arb b c with count := min ((s.arb b c).count + 1) (s.arbAgeN b - 1) }) hb hc
  exact (congrArg CheckArb.queue h :)

theorem State.burstReady_bypass (h : s.heldBack b e = false) (hc : c = (s.burstBank b (s.queuedAs b e) 0).2)
    (hby : s.bypasses b c (s.queuedAs b e) = true) : s.burstReady b e =
      ((s.bypassed b c).grantBurst b c (s.queuedAs b e) s.cycle).bump (.trnArbSt b e.turnout) 0 16 := by
  subst hc
  rw [State.burstReady, if_neg (by simp [h])]
  exact if_pos hby

theorem State.bump_beats (s : State) (r : Reg) (lo n k : Nat) : (s.bump r lo n k).beats = s.beats ∧ (s.bump r lo n k).arbs = s.arbs ∧
    (s.bump r lo n k).turnWait = s.turnWait := by
  unfold State.bump
  split <;> exact ⟨rfl, rfl, rfl⟩

/-- A grant reserves the burst's beats and counts at its turnout. -/
theorem State.grantBurst_grants (s : State) (b c : Nat) (e : Burst) (t0 : Nat) :
    (s.grantBurst b c e t0).beats = s.beats ++ s.burstBeats b c e t0 ∧ (s.grantBurst b c e t0).arbs = s.arbs ∧
      (s.grantBurst b c e t0).turnWait = s.turnWait ∧ s.SameStores (s.grantBurst b c e t0) ∧
      (s.grantBurst b c e t0).rfld (.trnArbSt b e.turnout) 32 32 = min (s.rfld (.trnArbSt b e.turnout) 32 32 + 1) (2 ^ 32 - 1) ∧
      (s.grantBurst b c e t0).rfld (.trnArbSt b e.turnout) 0 16 = s.rfld (.trnArbSt b e.turnout) 0 16 ∧
      ∀ r lo n, r ≠ .trnArbSt b e.turnout → (s.grantBurst b c e t0).rfld r lo n = s.rfld r lo n := by
  have hbeats : ∃ v : State, v = { s with beats := s.beats ++ s.burstBeats b c e t0 } := ⟨_, rfl⟩
  obtain ⟨v, hv⟩ := hbeats
  have hg : s.grantBurst b c e t0 = v.bump (.trnArbSt b e.turnout) 32 32 := by rw [hv]; rfl
  obtain ⟨h1, h2, h3⟩ := v.bump_beats (.trnArbSt b e.turnout) 32 32 1
  have hfld (r : Reg) (lo n : Nat) : v.rfld r lo n = s.rfld r lo n := by rw [hv]; rfl
  have hsame : s.SameStores v := by rw [hv]; exact ⟨rfl, rfl, rfl, rfl, rfl⟩
  rw [hg]
  refine ⟨by rw [h1, hv], by rw [h2, hv], by rw [h3, hv], hsame.trans (State.sameStores_of_lasting (by simp)), ?_, ?_, fun r lo n hr => ?_⟩
  · rw [v.rfld_bump_self _ _ _ (by decide), hfld]
  · rw [v.rfld_bump_ne _ _ _ _ _ _ _ (by omega), hfld]
  · rw [v.rfld_bump_ne _ _ _ _ _ _ _ (.inl hr), hfld]

theorem State.grantBurst_arb (s : State) (b c : Nat) (e : Burst) (t0 b' c' : Nat) : (s.grantBurst b c e t0).arb b' c' = s.arb b' c' := by
  rw [State.arb, (s.grantBurst_grants b c e t0).2.1, State.arb]

theorem State.bump_arb (s : State) (r : Reg) (lo n k b' c' : Nat) : (s.bump r lo n k).arb b' c' = s.arb b' c' := by
  rw [State.arb, (s.bump_beats r lo n k).2.1, State.arb]

/-! ### A decision (R163, R164, R171) -/

/-- A check with nothing queued decides nothing. -/
theorem State.decision_of_empty (h : (s.arb b c).queue = []) : s.decision b c = s := by
  have hc : (s.arb b c).cands = [] := by simp [CheckArb.cands, h, candidates]
  have hold : (s.arb b c).oldest = none := by simp [CheckArb.oldest, hc]
  have hrank : (s.arb b c).ranked = [] := by simp [CheckArb.ranked, hc]
  rw [State.decision]
  simp only [hold, hrank]
  split <;> rfl

section
variable (hq : (s.arb b c).queue = [e])
include hq

theorem State.oldest_of_single : (s.arb b c).oldest = some e := by
  simp [CheckArb.oldest, CheckArb.cands, hq, candidates]

/-- The one queued burst is the only one ranked. -/
theorem State.ranked_of_single (he : e.qos < 8) : (s.arb b c).ranked = [e] := by
  have hplace : (s.arb b c).rrPlace e < 47 := Nat.mod_lt _ (by decide)
  have hc : (s.arb b c).cands = [e] := by simp [CheckArb.cands, hq, candidates]
  have hone (q p : Nat) : ([e].filter fun x => x.qos = q ∧ (s.arb b c).rrPlace x = p) =
      if e.qos = q ∧ (s.arb b c).rrPlace e = p then [e] else [] := by
    by_cases h : e.qos = q ∧ (s.arb b c).rrPlace e = p <;> simp [h]
  have hpick (k n : Nat) (l : List Nat) (hl : l.Nodup) : (l.flatMap fun p => if k = p then [e] else []) = if k ∈ l then [e] else [] := by
    induction l with
    | nil => rfl
    | cons x xs ih =>
      obtain ⟨hx, hxs⟩ := List.nodup_cons.1 hl
      rw [List.flatMap_cons, ih hxs]
      by_cases hk : k = x
      · subst hk
        simp [hx]
      · simp [hk]
  have hinner (q : Nat) : ((List.range 47).flatMap fun p => [e].filter fun x => x.qos = q ∧ (s.arb b c).rrPlace x = p) =
      if e.qos = q then [e] else [] := by
    by_cases h : e.qos = q
    · simp only [hone, h, true_and]
      rw [hpick _ 0 _ List.nodup_range, if_pos (List.mem_range.2 hplace), if_pos trivial]
    · simp [h]
  rw [CheckArb.ranked, hc]
  simp only [hinner]
  rw [hpick _ 0 _ (List.nodup_reverse.2 List.nodup_range), if_pos (List.mem_reverse.2 (List.mem_range.2 he))]

/-- The one queued burst fits: it is granted, in an age grant where AGE_N is reached. -/
theorem State.decision_of_fit (he : e.qos < 8) (hage : (s.arb b c).ageTurn = false) (hres : s.turnoutReserved b c e.turnout = false)
    (hfit : s.burstFits b c e (s.cycle + 1) = true) :
    ((s.decision b c).arb b c).queue = [] ∧ (s.decision b c).beats = s.beats ++ s.burstBeats b c e (s.cycle + 1) ∧
      s.SameStores (s.decision b c) ∧
      (s.decision b c).rfld (.trnArbSt b e.turnout) 32 32 = min (s.rfld (.trnArbSt b e.turnout) 32 32 + 1) (2 ^ 32 - 1) ∧
      (if (s.arb b c).count + 1 < s.arbAgeN b then ((s.decision b c).arb b c).count = (s.arb b c).count + 1
       else ((s.decision b c).arb b c).count = 0 ∧
        (s.decision b c).rfld (.bsnArbSt b) 48 16 = min (s.rfld (.bsnArbSt b) 48 16 + 1) (2 ^ 16 - 1)) := by
  obtain ⟨hb, hc⟩ := s.arb_names b c
  have hgo : (s.burstFits b c e (s.cycle + 1) && !s.turnoutReserved b c e.turnout) = true := by rw [hfit, hres]; rfl
  have herase : (s.arb b c).queue.erase e = [] := by simp [hq]
  by_cases hn : (s.arb b c).count + 1 < s.arbAgeN b
  · have hcond : ¬ ((s.arb b c).ageTurn = true ∨ (s.arb b c).count + 1 ≥ s.arbAgeN b) := by
      rw [hage]
      simp only [Bool.false_eq_true, false_or]
      omega
    obtain ⟨a, hab, hac, haq, han, hdec⟩ : ∃ a : CheckArb, a.basin = b ∧ a.check = c ∧ a.queue = [] ∧
        a.count = (s.arb b c).count + 1 ∧ s.decision b c = (s.putArb a).grantBurst b c e (s.cycle + 1) := by
      refine ⟨{ s.arb b c with
        queue := (s.arb b c).queue.erase e, count := min ((s.arb b c).count + 1) (s.arbAgeN b - 1)
        rr := (s.arb b c).rr.set e.qos (e.turnout + 1) }, hb, hc, herase, Nat.min_eq_left (by omega), ?_⟩
      rw [State.decision]
      simp only
      rw [if_neg hcond, State.ranked_of_single hq he, State.grantRanked, if_pos hgo]
      rfl
    obtain ⟨h1, h2, h3, h4, h5, h6, h7⟩ := (s.putArb a).grantBurst_grants b c e (s.cycle + 1)
    rw [hdec, if_pos hn, State.grantBurst_arb, State.arb_putArb_self hab hac]
    exact ⟨haq, h1, (State.sameStores_of_lasting (by simp) : s.SameStores (s.putArb a)).trans h4, h5, han⟩
  · obtain ⟨a, hab, hac, haq, han, hdec⟩ : ∃ a : CheckArb, a.basin = b ∧ a.check = c ∧ a.queue = [] ∧ a.count = 0 ∧
        s.decision b c = ((s.putArb a).grantBurst b c e (s.cycle + 1)).bump (.bsnArbSt b) 48 16 := by
      refine ⟨{ s.arb b c with queue := (s.arb b c).queue.erase e, count := 0, ageTurn := false }, hb, hc, herase, rfl, ?_⟩
      rw [State.decision]
      simp only
      rw [if_pos (.inr (by omega)), State.oldest_of_single hq]
      exact if_pos hgo
    obtain ⟨h1, h2, h3, h4, h5, h6, h7⟩ := (s.putArb a).grantBurst_grants b c e (s.cycle + 1)
    have harb := (s.putArb a).grantBurst_arb b c e (s.cycle + 1) b c
    rw [State.arb_putArb_self hab hac] at harb
    rw [hdec, if_neg hn, State.bump_arb]
    generalize (s.putArb a).grantBurst b c e (s.cycle + 1) = v at *
    refine ⟨by rw [harb, haq], ((v.bump_beats _ _ _ _).1.trans h1), ?_, ?_, by rw [harb, han], ?_⟩
    · exact ((State.sameStores_of_lasting (by simp) : s.SameStores (s.putArb a)).trans h4).trans (State.sameStores_of_lasting (by simp))
    · rw [v.rfld_bump_ne _ _ _ _ _ _ _ (by simp)]
      exact h5
    · rw [v.rfld_bump_self _ _ _ (by decide), h7 _ _ _ (by simp)]
      rfl

/-- The one queued burst does not fit when its age grant is due: the check's age turn begins. -/
theorem State.decision_of_misfit (hage : (s.arb b c).ageTurn = false) (hfit : s.burstFits b c e (s.cycle + 1) = false)
    (hn : s.arbAgeN b ≤ (s.arb b c).count + 1) : s.decision b c =
      s.putArb { s.arb b c with ageTurn := true, ageSince := s.cycle } := by
  have hgo : ¬ (s.burstFits b c e (s.cycle + 1) && !s.turnoutReserved b c e.turnout) = true := by
    rw [hfit, Bool.false_and]
    decide
  rw [State.decision]
  simp only
  rw [if_pos (.inr hn), State.oldest_of_single hq]
  refine (if_neg hgo).trans ?_
  rw [hage]
  rfl

end

/-! ### The checks of a basin in their order (R163) -/

/-- A check that has decided this cycle, or whose queue is empty, leaves all but the list of those that have. -/
theorem State.decideOnce_of_empty (h : (s.arb b c).queue = []) : ∃ l, (∀ x ∈ l, x ∈ s.decided ∨ x = (b, c)) ∧
    s.decideOnce b c = { s with decided := l } := by
  rw [State.decideOnce]
  split
  · exact ⟨s.decided, fun x hx => .inl hx, rfl⟩
  · refine ⟨(b, c) :: s.decided, fun x hx => ?_, ?_⟩
    · exact (List.mem_cons.1 hx).symm
    · rw [State.decision_of_empty h]

theorem State.decideAll_of_empty (l : List Nat) (s : State) (h : ∀ c ∈ l, (s.arb b c).queue = []) :
    ∃ d, (∀ x ∈ d, x ∈ s.decided ∨ ∃ c ∈ l, x = (b, c)) ∧ l.foldl (fun (s : State) k => s.decideOnce b k) s = { s with decided := d } := by
  induction l generalizing s with
  | nil => exact ⟨s.decided, fun x hx => .inl hx, rfl⟩
  | cons x xs ih =>
    obtain ⟨d, hd, heq⟩ := State.decideOnce_of_empty (h x List.mem_cons_self)
    obtain ⟨d', hd', heq'⟩ := ih { s with decided := d } fun c hc => h c (List.mem_cons_of_mem _ hc)
    refine ⟨d', fun y hy => ?_, by rw [List.foldl_cons, heq, heq']⟩
    rcases hd' y hy with hin | ⟨c, hc, rfl⟩
    · rcases hd y hin with hs | rfl
      · exact .inl hs
      · exact .inr ⟨x, List.mem_cons_self, rfl⟩
    · exact .inr ⟨c, List.mem_cons_of_mem _ hc, rfl⟩

theorem State.checkOrder_nodup (s : State) : s.checkOrder.Nodup := by
  rw [State.checkOrder]
  refine (List.nodup_range).map_on fun x hx y hy hxy => ?_
  rw [List.mem_range] at hx hy
  have h : (s.cycle + x) % s.cfg.checks = (s.cycle + y) % s.cfg.checks := hxy
  exact Nat.ModEq.eq_of_lt_of_lt (Nat.ModEq.add_left_cancel' s.cycle h) hx hy

theorem State.mem_checkOrder (hc : c < s.cfg.checks) : c ∈ s.checkOrder := by
  rw [State.checkOrder, List.mem_map]
  refine ⟨(c + (s.cfg.checks - s.cycle % s.cfg.checks)) % s.cfg.checks, List.mem_range.2 (Nat.mod_lt _ (by omega)), ?_⟩
  have hlt : s.cycle % s.cfg.checks < s.cfg.checks := Nat.mod_lt _ (by omega)
  have hsum : s.cycle % s.cfg.checks + (c + (s.cfg.checks - s.cycle % s.cfg.checks)) = c + s.cfg.checks := by omega
  rw [Nat.add_mod_mod, ← Nat.mod_add_mod s.cycle s.cfg.checks, hsum, Nat.add_mod_right, Nat.mod_eq_of_lt hc]

/-- The checks that choose before check `c` have nothing to decide, so its own decision is the only one. -/
theorem State.decideThrough_of_empty (hc : c < s.cfg.checks) (hmay : s.mayIssueAt (s.cycle + 1) = true) (hnot : (b, c) ∉ s.decided)
    (hempty : ∀ c', c' ≠ c → (s.arb b c').queue = []) :
    ∃ d, s.decideThrough b c = { (({ s with decided := d } : State).decision b c) with decided := (b, c) :: d } := by
  obtain ⟨before, after, horder, hfirst⟩ := List.eq_append_cons_of_mem (State.mem_checkOrder (s := s) hc)
  have htake : s.checkOrder.take (s.checkOrder.idxOf c + 1) = before ++ [c] := by
    rw [horder, List.idxOf_append_of_notMem hfirst, List.idxOf_cons_self, Nat.add_zero, List.take_append]
    simp
  obtain ⟨d, hd, hfold⟩ := State.decideAll_of_empty (b := b) before s fun c' hc' => hempty c' fun h => hfirst (h ▸ hc')
  have hout : ¬ (({ s with decided := d } : State).decided.contains (b, c) ∨
      !({ s with decided := d } : State).mayIssueAt (({ s with decided := d } : State).cycle + 1)) := by
    have hmay' : ({ s with decided := d } : State).mayIssueAt (s.cycle + 1) = true := hmay
    rw [hmay']
    simp only [List.contains_eq_mem, decide_eq_true_eq, Bool.not_true, Bool.false_eq_true, or_false]
    intro hin
    rcases hd _ hin with h | ⟨c', hc', h⟩
    · exact hnot h
    · cases h
      exact hfirst hc'
  refine ⟨d, ?_⟩
  rw [State.decideThrough, htake, List.foldl_append, hfold, List.foldl_cons, List.foldl_nil, State.decideOnce, if_neg hout]

/-! ### Parking (R165) -/

/-- A bank side's beats before the present cycle. -/
def State.pastBeats (s : State) (b k : Nat) (w : Bool) : List Beat :=
  s.beats.filter fun x => x.basin = b && x.bank = k && x.write = w && decide (x.cycle < s.cycle)

theorem State.parkedOn_of_none {k : Nat} {w : Bool} (h : s.pastBeats b k w = []) :
    s.parkedOn b k w = (s.parks.find? fun p => p.basin = b ∧ p.bank = k ∧ p.write = w).map fun p => (p.turnout, p.lastBeat) := by
  rw [State.pastBeats] at h
  rw [State.parkedOn]
  simp only [h, List.foldl_nil]

theorem State.parkedOn_of_past {k : Nat} {w : Bool} (h : s.pastBeats b k w ≠ []) :
    ∃ x ∈ s.beats, s.parkedOn b k w = some (x.turnout, x.cycle) := by
  rw [State.pastBeats] at h
  cases hp : s.beats.filter fun x => x.basin = b && x.bank = k && x.write = w && decide (x.cycle < s.cycle) with
  | nil => exact absurd hp h
  | cons x xs =>
    have hin : ∀ y ∈ x :: xs, y ∈ s.beats := fun y hy => List.mem_of_mem_filter (hp ▸ hy)
    rw [State.parkedOn, hp]
    generalize ho : List.foldl _ none (x :: xs) = o
    obtain ⟨y, hy, rfl⟩ : ∃ y ∈ s.beats, o = some y := by
      rw [← ho, List.foldl_cons]
      refine List.foldlRecOn (motive := fun o => ∃ y ∈ s.beats, o = some y) xs _ ⟨x, hin x List.mem_cons_self, rfl⟩ ?_
      rintro o ⟨y, hy, rfl⟩ z hz
      simp only
      split
      · exact ⟨z, hin z (List.mem_cons_of_mem _ hz), rfl⟩
      · exact ⟨y, hy, rfl⟩
    exact ⟨y, hy, rfl⟩

/-- A side idle for 16 cycles has no beat in its past that is still kept. -/
theorem State.park_parks {k : Nat} (hidle : s.sideIdle b k = true) (hkept : ∀ x ∈ s.beats, s.cycle ≤ x.cycle + 2) :
    (s.park ⟨b, k, false, scrubTurnout, s.cycle - 1⟩).parkedOn b k false = some (25, s.cycle - 1) := by
  have hnone : s.pastBeats b k false = [] := by
    by_contra h
    obtain ⟨x, hx, hpark⟩ := State.parkedOn_of_past h
    have hlate := hkept x hx
    simp only [State.sideIdle, hpark, Option.map_some, Option.getD_some, Bool.and_eq_true, decide_eq_true_eq] at hidle
    omega
  have hnone' : (s.park ⟨b, k, false, scrubTurnout, s.cycle - 1⟩).pastBeats b k false = [] := hnone
  rw [State.parkedOn_of_none hnone']
  simp [State.park, scrubTurnout]

/-! ### The obligation -/

/-- A burst waits at its turnout, is queued, or bypasses the decision. -/
theorem burstArrival_arrives {who : BurstSrc} {kind : BurstKind} {w n t right : Nat} (hshape : s.burstShape b w n = true)
    (hnone : s.turnWait = []) (hsend : s.sender b who kind w n = some (t, right))
    (he : e = ⟨who, t, right, s.requestQos b t right, kind, w, n, s.cycle, s.cycle⟩) (hc : c = (s.burstBank b e 0).2) :
    (s.heldBack b e = true → ∃ u, exec (.burstArrival b who kind w n) s = .next u ∧
      u.turnWait = [(b, { e with qos := 0 })] ∧ u.arbs = s.arbs ∧ u.beats = s.beats ∧ u.regs = s.regs ∧ s.SameStores u) ∧
    (s.heldBack b e = false → s.bypasses b c e = false → ∃ u, exec (.burstArrival b who kind w n) s = .next u ∧
      u.turnWait = [] ∧ (u.arb b c).queue = (s.arb b c).queue ++ [e] ∧ u.beats = s.beats ∧ u.regs = s.regs ∧
      s.SameStores u) ∧
    (s.heldBack b e = false → s.bypasses b c e = true → ∃ u, exec (.burstArrival b who kind w n) s = .next u ∧
      u.turnWait = [] ∧ (u.arb b c).queue = (s.arb b c).queue ∧ u.beats = s.beats ++ s.burstBeats b c e s.cycle ∧
      s.SameStores u ∧ u.rfld (.trnArbSt b t) 0 16 = min (s.rfld (.trnArbSt b t) 0 16 + 1) (2 ^ 16 - 1)) := by
  have hexec := execBurstArrival_ready hshape hnone hsend
  obtain ⟨x, hx⟩ := s.noteAsked_eq who w n
  rw [hx] at hexec
  have hqueued : ({ s with flights := x } : State).queuedAs b ⟨who, t, right, 0, kind, w, n, s.cycle, s.cycle⟩ = e := he.symm
  have hheld : ({ s with flights := x } : State).heldBack b ⟨who, t, right, 0, kind, w, n, s.cycle, s.cycle⟩ = s.heldBack b e := by
    rw [he]
    rfl
  have hcheck : c = (({ s with flights := x } : State).burstBank b (({ s with flights := x } : State).queuedAs b
      ⟨who, t, right, 0, kind, w, n, s.cycle, s.cycle⟩) 0).2 := by rw [hqueued]; exact hc
  have hby : ({ s with flights := x } : State).bypasses b c e = s.bypasses b c e := rfl
  obtain ⟨hb, hcc⟩ := s.arb_names b c
  refine ⟨fun h => ?_, fun h hno => ?_, fun h hyes => ?_⟩
  · rw [State.burstReady_held (hheld.trans h)] at hexec
    refine ⟨_, hexec, ?_, rfl, rfl, rfl, ⟨rfl, rfl, rfl, rfl, rfl⟩⟩
    rw [he, hnone]
    rfl
  · rw [State.burstReady_queued (hheld.trans h) hcheck (by rw [hqueued, hby]; exact hno), hqueued] at hexec
    refine ⟨_, hexec, hnone, ?_, rfl, rfl, ⟨rfl, rfl, rfl, rfl, rfl⟩⟩
    exact congrArg CheckArb.queue (State.arb_putArb_self (s := { s with flights := x })
      (a := { s.arb b c with queue := (s.arb b c).queue ++ [e] }) hb hcc)
  · rw [State.burstReady_bypass (hheld.trans h) hcheck (by rw [hqueued, hby]; exact hyes), hqueued] at hexec
    have hturn : e.turnout = t := by rw [he]
    have hpass : ((({ s with flights := x } : State).bypassed b c).arb b c).queue = (s.arb b c).queue :=
      ({ s with flights := x } : State).bypassed_queue b c
    have hbeats : (({ s with flights := x } : State).bypassed b c).beats ++
        (({ s with flights := x } : State).bypassed b c).burstBeats b c e s.cycle = s.beats ++ s.burstBeats b c e s.cycle := rfl
    have hfld : (({ s with flights := x } : State).bypassed b c).rfld (.trnArbSt b t) 0 16 = s.rfld (.trnArbSt b t) 0 16 := rfl
    have hsame : s.SameStores (({ s with flights := x } : State).bypassed b c) := ⟨rfl, rfl, rfl, rfl, rfl⟩
    have hwait : (({ s with flights := x } : State).bypassed b c).turnWait = [] := hnone
    generalize ({ s with flights := x } : State).bypassed b c = v at *
    obtain ⟨h1, h2, h3, h4, -, h6, -⟩ := v.grantBurst_grants b c e s.cycle
    have harb := v.grantBurst_arb b c e s.cycle b c
    rw [hturn] at h6
    generalize v.grantBurst b c e s.cycle = y at *
    obtain ⟨k1, -, k3⟩ := y.bump_beats (.trnArbSt b t) 0 16 1
    refine ⟨_, hexec, k3.trans (h3.trans hwait), ?_, k1.trans (h1.trans hbeats), ?_, ?_⟩
    · rw [State.bump_arb, harb, hpass]
    · exact (hsame.trans h4).trans (State.sameStores_of_lasting (by simp))
    · rw [y.rfld_bump_self _ _ _ (by decide), h6, hfld]

theorem execCheckDecision_eq (hflow : s.flowRuns = true) (hc : c < s.cfg.checks) (hnone : s.turnWait = []) :
    exec (.checkDecision b c) s = .next (s.decideThrough b c) := by
  have hexec : execCheckDecision b c s = .next (s.decideThrough b c) := by
    unfold execCheckDecision
    rw [if_pos ⟨hflow, hc⟩, State.issueWaiting_of_none hnone]
    rfl
  exact hexec

/-- Settles O44: an arrival is held, queued or granted at once; of the checks that decide, only the named one has a burst. -/
theorem burstsArbitrated : Obligations.BurstsArbitrated := by
  unfold Obligations.BurstsArbitrated
  intro s b hflow hlive
  refine ⟨fun who kind w n h => execBurstArrival_none h, fun who kind w n t right e c hshape hnone hsend he hc =>
    burstArrival_arrives hshape hnone hsend he hc, fun c e hc hnone hmay hnot hempty hres hq hage hqos => ?decision, ?park⟩
  case decision =>
    have hexec := execCheckDecision_eq (b := b) hflow hc hnone
    obtain ⟨d, hd⟩ := State.decideThrough_of_empty hc hmay hnot hempty
    rw [hd] at hexec
    refine ⟨fun hfit => ?_, fun hfit hn => ?_⟩
    · obtain ⟨h1, h2, h3, h4, h5⟩ := State.decision_of_fit (s := { s with decided := d }) hq hqos hage hres hfit
      exact ⟨_, hexec, h1, h2, h3, h4, h5⟩
    · rw [State.decision_of_misfit (s := { s with decided := d }) hq hage hfit hn] at hexec
      obtain ⟨hb, hcc⟩ := s.arb_names b c
      have hself := State.arb_putArb_self (s := { s with decided := d })
        (a := { s.arb b c with ageTurn := true, ageSince := s.cycle }) hb hcc
      exact ⟨_, hexec, congrArg CheckArb.ageTurn hself, (congrArg CheckArb.queue hself).trans hq, rfl, rfl, ⟨rfl, rfl, rfl, rfl, rfl⟩⟩
  case park =>
    intro k hk hidle hkept
    have hexec : execParkOnScrubber b k s = .next (s.park ⟨b, k, false, scrubTurnout, s.cycle - 1⟩) := by
      unfold execParkOnScrubber
      exact if_pos ⟨hflow, hlive, hk, hidle⟩
    exact ⟨_, hexec, State.park_parks hidle hkept, rfl, rfl⟩

end Sys2Proof.Machine
end

section
set_option Elab.async false -- the whole text is compiled in one process, within a fixed memory
/-! SUPPORT. The scrubber's reads, remapped rows and the copiers of spare banks (R249, R250, R255, R256, R334). -/
namespace Sys2Proof.Machine

variable {s : State} {b : Nat}

/-! ### The scrubber -/

theorem findingOf_zero : findingOf 0 = .clean := by decide +kernel

theorem State.scrubber_basin (s : State) (b : Nat) : (s.scrubber b).basin = b := by
  unfold State.scrubber
  cases h : s.scrubbers.find? fun x => x.basin = b with
  | none => rfl
  | some x => exact of_decide_eq_true (List.find?_some (p := fun x : Scrubber => decide (x.basin = b)) h)

theorem State.scrubber_putScrubber {x : Scrubber} (h : x.basin = b) : (s.putScrubber x).scrubber b = x := by
  simp [State.scrubber, State.putScrubber, h]

@[simp] theorem State.rfld_putScrubber (s : State) (x : Scrubber) (r : Reg) (lo n : Nat) :
    (s.putScrubber x).rfld r lo n = s.rfld r lo n := (rfl)

@[simp] theorem State.events_putScrubber (s : State) (x : Scrubber) : (s.putScrubber x).events = s.events := (rfl)

/-- A scrubber at the begin of its next lap. -/
def Scrubber.lapped (x : Scrubber) (start : Nat) : Scrubber := { x with done := [], descs := 0, lines := 0, lapStart := start }

/-- What a lap's end records, with the lap's length `n`, the longest `m` and the next lap's begin. -/
def State.lapEnded (s : State) (b n m start : Nat) : State :=
  (((s.putFld (.bsnScrubLap b) 32 32 n).putFld (.bsnScrubLap b) 0 32 m).bump (.bsnScrubSt b) 32 32).putScrubber
    ((s.scrubber b).lapped start)

theorem State.endLap_cases (s : State) (b : Nat) : s.endLap b = s ∨ ∃ n m start, s.endLap b = s.lapEnded b n m start := by
  unfold State.endLap
  split
  · exact .inr ⟨_, _, _, rfl⟩
  · exact .inl rfl

/-- A lap's end keeps where the scrubber is in its banks. -/
theorem State.endLap_banks (s : State) (b : Nat) :
    ((s.endLap b).scrubber b).lastBank = (s.scrubber b).lastBank ∧ ((s.endLap b).scrubber b).rows = (s.scrubber b).rows := by
  obtain h | ⟨n, m, start, h⟩ := s.endLap_cases b <;> rw [h]
  · exact ⟨rfl, rfl⟩
  · unfold State.lapEnded
    rw [State.scrubber_putScrubber (x := (s.scrubber b).lapped start) (s.scrubber_basin b)]
    exact ⟨rfl, rfl⟩

/-- A lap's end posts nothing. -/
theorem State.endLap_events (s : State) (b : Nat) : (s.endLap b).events = s.events := by
  obtain h | ⟨n, m, start, h⟩ := s.endLap_cases b <;> rw [h]
  simp [State.lapEnded]

theorem State.endLap_found (s : State) (b : Nat) : (s.endLap b).rfld (.bsnScrubSt b) 16 16 = s.rfld (.bsnScrubSt b) 16 16 := by
  obtain h | ⟨n, m, start, h⟩ := s.endLap_cases b <;> rw [h]
  rw [State.lapEnded, State.rfld_putScrubber, State.rfld_bump_ne _ _ _ _ _ _ _ _ (.inr (.inl (by decide))),
    State.rfld_putFld_ne _ _ _ _ _ _ _ _ (.inl (by simp)), State.rfld_putFld_ne _ _ _ _ _ _ _ _ (.inl (by simp))]

theorem State.endLap_of_not {s : State} (h : s.lapDone b = false) : s.endLap b = s := by
  unfold State.endLap
  rw [h]
  rfl

/-- The scrubber's walk counts on, where the lap does not end. -/
theorem State.lapDone_of_walk (h : (s.scrubber b).descs < 16384 ∨ (s.scrubber b).lines < 512) : s.lapDone b = false := by
  unfold State.lapDone
  simp only [Bool.and_eq_false_iff, decide_eq_false_iff_not]
  exact .inl (by omega)

/-- The site and the basin let the scrubber read. -/
theorem scrubber_runs (hflow : s.flowRuns = true) (hlive : s.live b = true) (hon : bit (s.reg (.bsnScrubCfg b)) 0 = true)
    (hdiv : s.power.divTo = none) :
    ¬ ((!(s.flowRuns && s.power.divTo.isNone && s.live b && bit (s.reg (.bsnScrubCfg b)) 0)) = true) := by
  simp [hflow, hlive, hon, hdiv]

/-- A clean row is read as it is, and the read is noted nowhere. -/
theorem State.readPhys_clean {k row : Nat} {rd : Reader} (h : s.syndrome (s.cfg.wordNo b k (s.physRow b k row)) = 0) :
    s.readPhys b k row rd = (s, s.rawWord (s.cfg.wordNo b k (s.physRow b k row)), false) := by
  unfold State.readPhys
  simp only [h, findingOf_zero]
  rfl

/-- The scrubber's record once it has read a bank's row. -/
def Scrubber.bankRead (x : Scrubber) (k row rows : Nat) : Scrubber :=
  { x with
    lastBank := k, rows := nset x.rows 0 k ((row + 1) % rows)
    done := nset x.done 0 k (min rows (nget x.done 0 k + 1)) }

theorem State.scrubBank_eq {k row : Nat} (hrow : row = nget (s.scrubber b).rows 0 k % s.cfg.rows) : ∃ beats rows,
    s.scrubBank b k = (({ (s.readPhys b k row Reader.scrub).1.scrubFound b .bank k row
        (findingOf (s.syndrome (s.cfg.wordNo b k (s.physRow b k row)))) with beats := beats } : State).putScrubber
      ((s.scrubber b).bankRead k row rows)) ∧ rows = s.cfg.rows := by
  subst hrow
  have hkeeps : ∀ (t : State) kind unit loc f, (t.scrubFound b kind unit loc f).cfg = t.cfg := fun t kind unit loc f =>
    congrArg Lasting.cfg (t.lasting_scrubFound b kind unit loc f)
  have hnote : ∀ (t : State) pb row rd f, (t.noteFinding b pb row rd f).cfg = t.cfg := fun t pb row rd f =>
    congrArg Lasting.cfg (t.lasting_noteFinding b pb row rd f)
  exact ⟨_, _, rfl, by simp [hkeeps, hnote]⟩

/-- The scrubber's read of a clean row moves its pointers alone. -/
theorem State.scrubBank_clean {k row : Nat} (hrow : row = nget (s.scrubber b).rows 0 k % s.cfg.rows)
    (hclean : s.syndrome (s.cfg.wordNo b k (s.physRow b k row)) = 0) : ∃ beats,
    s.scrubBank b k = ({ s with beats := beats } : State).putScrubber ((s.scrubber b).bankRead k row s.cfg.rows) := by
  obtain ⟨beats, rows, h, hrows⟩ := State.scrubBank_eq hrow
  rw [State.readPhys_clean hclean, hclean, findingOf_zero] at h
  exact ⟨beats, hrows ▸ h⟩

/-- A corrected error of the row read is counted once (R250). -/
theorem State.scrubBank_found {k row i : Nat} (hrow : row = nget (s.scrubber b).rows 0 k % s.cfg.rows)
    (hfound : findingOf (s.syndrome (s.cfg.wordNo b k (s.physRow b k row))) = .corrected i) :
    (s.scrubBank b k).rfld (.bsnScrubSt b) 16 16 = min (s.rfld (.bsnScrubSt b) 16 16 + 1) (2 ^ 16 - 1) := by
  obtain ⟨beats, rows, h, -⟩ := State.scrubBank_eq hrow
  have hread : (s.readPhys b k row Reader.scrub).1.rfld (.bsnScrubSt b) 16 16 = s.rfld (.bsnScrubSt b) 16 16 := by
    unfold State.readPhys State.noteFinding State.rfld
    simp [hfound]
  rw [h, State.rfld_putScrubber, ← hread, hfound]
  have hpost : ∀ (t : State) (e : Event), (t.post e).rfld (.bsnScrubSt b) 16 16 = t.rfld (.bsnScrubSt b) 16 16 := by
    intro t e
    rw [State.rfld, State.rfld, State.reg_of_post]
  exact (hpost _ _).trans (State.rfld_bump_self _ _ _ _ (by decide))

theorem execScrubRead_bank {k : Nat} (hflow : s.flowRuns = true) (hlive : s.live b = true)
    (hon : bit (s.reg (.bsnScrubCfg b)) 0 = true) (hdiv : s.power.divTo = none) (hnext : s.scrubNext b = some k)
    (hone : (s.beats.any fun x => x.basin = b && x.turnout = 25 && x.cycle = s.cycle) = false) :
    exec (.scrubRead b (.bank k)) s = match s.canaryNext b k with
      | some n => .next (s.readCanary b k n)
      | none => .next ((s.scrubBank b k).endLap b) := by
  show execScrubRead b (.bank k) s = _
  have hif : (!(s.beats.any fun x => x.basin = b && x.turnout = scrubTurnout && x.cycle = s.cycle) &&
      decide (s.scrubNext b = some k)) = true := by
    rw [show scrubTurnout = 25 from rfl, hone, hnext]
    simp
  unfold execScrubRead
  rw [if_neg (scrubber_runs hflow hlive hon hdiv)]
  simp only [if_pos hif]
  rfl

/-- The next descriptor of the walk, where it is clean. -/
theorem execScrubRead_desc {d : Nat} (hflow : s.flowRuns = true) (hlive : s.live b = true)
    (hon : bit (s.reg (.bsnScrubCfg b)) 0 = true) (hdiv : s.power.divTo = none) (hd : d = (s.scrubber b).descs % 16384)
    (hclean : nget s.descChk 0 (dkey b d) = 0) (hwalk : s.mayWalk b = true) (hlines : (s.scrubber b).lines < 512) :
    ∃ u, exec (.scrubRead b (.desc d)) s = .next u ∧ (u.scrubber b).descs = (s.scrubber b).descs + 1 ∧
      u.desc = s.desc ∧ u.events = s.events := by
  have hscrub : s.scrubDesc b d = ({ s with sram := markSram s.sram b } : State).putScrubber
      { s.scrubber b with descs := (s.scrubber b).descs + 1, walked := s.cycle + 1 } := by
    unfold State.scrubDesc State.readDesc State.noteBadDesc State.scrubFound
    simp only [hclean, findingOf_zero]
  have hwhere : (s.scrubDesc b d).scrubber b =
      { s.scrubber b with descs := (s.scrubber b).descs + 1, walked := s.cycle + 1 } := by
    rw [hscrub]
    exact State.scrubber_putScrubber (s.scrubber_basin b)
  have hlap : (s.scrubDesc b d).lapDone b = false :=
    State.lapDone_of_walk (.inr ((congrArg Scrubber.lines hwhere).trans_lt hlines))
  have hexec : execScrubRead b (.desc d) s = .next ((s.scrubDesc b d).endLap b) := by
    unfold execScrubRead
    rw [if_neg (scrubber_runs hflow hlive hon hdiv)]
    exact if_pos ⟨hwalk, hd⟩
  rw [State.endLap_of_not hlap] at hexec
  exact ⟨_, hexec, congrArg Scrubber.descs hwhere, (congrArg State.desc hscrub :), (congrArg State.events hscrub :)⟩

/-- The next gauge line of the walk, where it is clean. -/
theorem execScrubRead_line {j : Nat} (hflow : s.flowRuns = true) (hlive : s.live b = true)
    (hon : bit (s.reg (.bsnScrubCfg b)) 0 = true) (hdiv : s.power.divTo = none) (hj : j = (s.scrubber b).lines % 512)
    (hclean : nget s.gaugeChk 0 (b * 512 + j) = 0) (hwalk : s.mayWalk b = true) (hdescs : (s.scrubber b).descs < 16384) :
    ∃ u, exec (.scrubRead b (.line j)) s = .next u ∧ (u.scrubber b).lines = (s.scrubber b).lines + 1 ∧
      u.gauge = s.gauge ∧ u.events = s.events := by
  have hline : lineKey b (j * 8) = b * 512 + j := by
    unfold lineKey
    omega
  have hscrub : s.scrubLine b j = ({ s with sram := markSram s.sram b } : State).putScrubber
      { s.scrubber b with lines := (s.scrubber b).lines + 1, walked := s.cycle + 1 } := by
    unfold State.scrubLine State.noteLine State.lineFinding State.scrubFound
    simp only [hline, hclean, findingOf_zero]
  have hwhere : (s.scrubLine b j).scrubber b =
      { s.scrubber b with lines := (s.scrubber b).lines + 1, walked := s.cycle + 1 } := by
    rw [hscrub]
    exact State.scrubber_putScrubber (s.scrubber_basin b)
  have hlap : (s.scrubLine b j).lapDone b = false :=
    State.lapDone_of_walk (.inl ((congrArg Scrubber.descs hwhere).trans_lt hdescs))
  have hexec : execScrubRead b (.line j) s = .next ((s.scrubLine b j).endLap b) := by
    unfold execScrubRead
    rw [if_neg (scrubber_runs hflow hlive hon hdiv)]
    exact if_pos ⟨hwalk, hj⟩
  rw [State.endLap_of_not hlap] at hexec
  exact ⟨_, hexec, congrArg Scrubber.lines hwhere, (congrArg State.gauge hscrub :), (congrArg State.events hscrub :)⟩

/-! ### A remapped row and a spare bank are copied -/

/-- Where no flip is armed, a stored row's bytes are what was stored. -/
theorem State.storePhys_plain {k prow : Nat} (hoff : bit (s.reg (.bsnFlipCfg b)) 63 = false) (d : List Byte) (dev : BitVec 48) :
    s.storePhys b k prow d dev =
      { s with mem := putBytes s.mem (s.cfg.wordNo b k prow * 64) d, memChk := nset s.memChk 0 (s.cfg.wordNo b k prow) dev } := by
  unfold State.storePhys
  exact if_neg (by simp [hoff])

theorem nget_putBytes_rawWord {m : List Host.Cell} {n k i : Nat} (hi : i < 64) :
    nget (putBytes m (k * 64) (s.rawWord n)) 0 (k * 64 + i) = nget s.mem 0 (n * 64 + i) := by
  have hlen : (s.rawWord n).length = 64 := by simp [State.rawWord]
  rw [nget_putBytes, hlen, if_pos (by omega), Nat.add_sub_cancel_left]
  simp [State.rawWord, hi]

/-- REMAP_COPY of a clean row whose bank sides are free (R255). -/
theorem execRemapCopy_clean {k e row : Nat} (hlive : s.live b = true) (hoff : bit (s.reg (.bsnFlipCfg b)) 63 = false)
    (hdiv : s.power.divTo = none) (hk : k < s.cfg.physBanks) (he : e < 4) (hon : bit (s.reg (.bsnRemap b k e)) 63 = true)
    (hrow : row = s.rfld (.bsnRemap b k e) 0 12) (hrows : row < s.cfg.rows) (hnew : (b, k, e) ∉ s.remapped)
    (hread : s.sideFree b (s.checkOfBank b k) k false s.cycle = true)
    (hwrite : s.sideFree b (s.checkOfBank b k) k true s.cycle = true)
    (hclean : s.syndrome (s.cfg.wordNo b k (s.physRow b k row)) = 0) :
    ∃ u, exec (.remapCopy b k e) s = .next u ∧ (b, k, e) ∈ u.remapped ∧ u.regs = s.regs ∧ ∀ i, i < 64 →
      nget u.mem 0 (s.cfg.wordNo b k (s.cfg.rows + e) * 64 + i) = nget s.mem 0 (s.cfg.wordNo b k (s.physRow b k row) * 64 + i) := by
  have hrow' : row = fld (s.reg (.bsnRemap b k e)) 0 12 := hrow
  have hcopy := State.storePhys_plain (k := k) (prow := s.cfg.rows + e) hoff
    (s.rawWord (s.cfg.wordNo b k (s.physRow b k row))) 0
  have hexec : ∃ t : State, execRemapCopy b k e s = .next t ∧ t.remapped = (b, k, e) :: s.remapped ∧ t.regs = s.regs ∧
      t.mem = putBytes s.mem (s.cfg.wordNo b k (s.cfg.rows + e) * 64) (s.rawWord (s.cfg.wordNo b k (s.physRow b k row))) := by
    unfold execRemapCopy
    simp only [← hrow']
    rw [if_pos ⟨hlive, by simp [hdiv], hk, he, hon, hrows, hnew, hread, hwrite⟩, State.readPhys_clean hclean]
    simp only [Bool.false_eq_true, if_false, hcopy]
    exact ⟨_, rfl, rfl, rfl, rfl⟩
  obtain ⟨u, hu, hmapped, hregs, hmem⟩ := hexec
  refine ⟨u, hu, ?_, hregs, fun i hi => ?_⟩
  · rw [hmapped]
    exact List.mem_cons_self
  · rw [hmem, nget_putBytes_rawWord hi]

theorem spareCopy_found {i : Nat} {c : SpareCopy} (h : s.spareCopy? b i = some c) : c ∈ s.spareCopies ∧ c.basin = b := by
  have hnames := List.find?_some h
  simp only [decide_eq_true_eq] at hnames
  exact ⟨List.mem_of_find?_eq_some h, hnames.1⟩

/-- A copier's record once it has read a clean row, to be written in cycle `t`. -/
def SpareCopy.rowRead (c : SpareCopy) (d : List Byte) (t last : Nat) : SpareCopy :=
  { c with row := c.row + 1, lastRead := last, due := c.due ++ [(c.row, t, d, 0)] }

/-- A clean row that a copier reads is noted in its record, and nowhere else. -/
theorem State.copyRow_clean {c : SpareCopy} (hc : c ∈ s.spareCopies) (hclean : s.syndrome (s.cfg.wordNo c.basin c.old
    (s.physRow c.basin c.old c.row)) = 0) (t last : Nat) : ∃ copies, s.copyRow c t last = { s with spareCopies := copies } ∧
      c.rowRead (s.rawWord (s.cfg.wordNo c.basin c.old (s.physRow c.basin c.old c.row))) t last ∈ copies := by
  unfold State.copyRow
  simp only [State.readPhys_clean hclean]
  exact ⟨_, rfl, List.mem_map.2 ⟨c, hc, if_pos rfl⟩⟩

/-- With no beat to come, a side taken in the next cycle freezes its check for that cycle. -/
theorem State.takeSide_of_empty (hbeats : s.beats = []) (b c bank : Nat) (w : Bool) (turnout : Nat) : ∃ beats fills,
    s.takeSide b c bank w turnout = { s with beats := beats, fillRes := fills, frozenAt := (b, c, s.cycle + 1) :: s.frozenAt } := by
  have hland : s.landBeats = s := by
    unfold State.landBeats
    rw [hbeats]
    cases s
    subst hbeats
    rfl
  unfold State.takeSide State.freezeCheck
  rw [hland]
  exact ⟨_, _, rfl⟩

/-- SPARE_COPIER_READ of a clean row on a bank that is parked on the scrubber (R256). -/
theorem execSpareCopierRead_parked {i w : Nat} {c : SpareCopy} (hdiv : s.power.divTo = none) (hcopy : s.spareCopy? b i = some c)
    (hrows : c.row < s.cfg.rows) (hw : w = s.cfg.wordNo b c.old (s.physRow b c.old c.row)) (hclean : s.syndrome w = 0)
    (hparked : (s.scrubBanks b).contains c.old = true)
    (hone : (s.beats.any fun x => x.basin = b && x.turnout = 25 && x.cycle = s.cycle) = false) :
    ∃ u, exec (.spareCopierRead b i) s = .next u ∧ s.SameStores u ∧ u.regs = s.regs ∧
      { c with row := c.row + 1, due := c.due ++ [(c.row, s.cycle, s.rawWord w, 0)] } ∈ u.spareCopies := by
  obtain ⟨hmem, rfl⟩ := spareCopy_found hcopy
  subst hw
  obtain ⟨copies, hread, hin⟩ := State.copyRow_clean hmem hclean s.cycle c.lastRead
  have hexec : ∃ beats, execSpareCopierRead c.basin i s = .next { s with spareCopies := copies, beats := beats } := by
    unfold execSpareCopierRead
    simp only [hcopy]
    rw [if_neg (by simp [hdiv, hrows]), if_pos hparked, if_neg (by rw [show scrubTurnout = 25 from rfl, hone]; decide), hread]
    exact ⟨_, rfl⟩
  obtain ⟨beats, hexec⟩ := hexec
  exact ⟨_, hexec, State.SameStores.refl s, rfl, hin⟩

/-- SPARE_COPIER_READ takes its bank's side after 16 cycles without one (R256). -/
theorem execSpareCopierRead_taken {i w : Nat} {c : SpareCopy} (hdiv : s.power.divTo = none) (hcopy : s.spareCopy? b i = some c)
    (hrows : c.row < s.cfg.rows) (hw : w = s.cfg.wordNo b c.old (s.physRow b c.old c.row)) (hclean : s.syndrome w = 0)
    (hbusy : (s.scrubBanks b).contains c.old = false) (hlast : c.lastRead + 16 ≤ s.cycle) (hbeats : s.beats = []) :
    ∃ u, exec (.spareCopierRead b i) s = .next u ∧ s.SameStores u ∧ u.regs = s.regs ∧
      (b, s.checkOfBank b c.old, s.cycle + 1) ∈ u.frozenAt ∧
      { c with row := c.row + 1, lastRead := s.cycle, due := c.due ++ [(c.row, s.cycle + 1, s.rawWord w, 0)] } ∈ u.spareCopies := by
  obtain ⟨hmem, rfl⟩ := spareCopy_found hcopy
  subst hw
  obtain ⟨beats, fills, htake⟩ :=
    State.takeSide_of_empty hbeats c.basin (s.checkOfBank c.basin c.old) c.old false scrubTurnout
  obtain ⟨copies, hread, hin⟩ := State.copyRow_clean (s := { s with
      beats := beats, fillRes := fills, frozenAt := (c.basin, s.checkOfBank c.basin c.old, s.cycle + 1) :: s.frozenAt })
    (c := c) hmem hclean (s.cycle + 1) s.cycle
  have hexec : execSpareCopierRead c.basin i s = .next { s with
      spareCopies := copies, beats := beats, fillRes := fills
      frozenAt := (c.basin, s.checkOfBank c.basin c.old, s.cycle + 1) :: s.frozenAt } := by
    unfold execSpareCopierRead
    simp only [hcopy]
    rw [if_neg (by simp [hdiv, hrows]), if_neg (by simpa using hbusy), if_pos hlast, htake, hread]
    rfl
  exact ⟨_, hexec, State.SameStores.refl s, rfl, List.mem_cons_self, hin⟩

/-- SPARE_BANK_ACTIVE once every row is written: the spare serves, and a spare that it replaces is set aside (R256). -/
theorem execSpareBankActive_done {i : Nat} {c : SpareCopy} (hcopy : s.spareCopy? b i = some c) (hrows : s.cfg.rows ≤ c.row)
    (hdue : c.due = []) (hi : i < 4) :
    ∃ u, exec (.spareBankActive b i) s = .next u ∧ u.spareState b i = 2 ∧ u.spareLogical b i = s.spareLogical b i ∧
      c ∉ u.spareCopies ∧ u.mem = s.mem ∧ ∀ j, j < 4 → j ≠ i → c.old = s.cfg.banks + j → u.spareState b j = 3 := by
  have hdone : ¬ (c.row < s.cfg.rows ∨ (!c.due.isEmpty) = true) := by simp [hdue, hrows]
  have hnot : c ∉ s.spareCopies.filter (· ≠ c) := by simp
  have hexec : ∃ t : State, execSpareBankActive b i s = .next (t.putFld (.bsnSpareMap b) (16 * i + 14) 2 2) ∧
      t.spareLogical b i = s.spareLogical b i ∧ t.spareCopies = s.spareCopies.filter (· ≠ c) ∧ t.mem = s.mem ∧
      ∀ j, j < 4 → c.old = s.cfg.banks + j → t.spareState b j = 3 := by
    unfold execSpareBankActive
    simp only [hcopy, if_neg hdone]
    split
    · refine ⟨_, rfl, ?_, rfl, rfl, fun j hj hold => ?_⟩
      · exact State.rfld_putFld_ne _ _ _ _ _ _ _ _ (by omega)
      · rw [hold, Nat.add_sub_cancel_left, State.spareState, State.rfld_putFld_self _ _ _ _ _ (by omega)]
        rfl
    · next hold => exact ⟨_, rfl, rfl, rfl, rfl, fun j _ h => absurd h (by omega)⟩
  obtain ⟨t, hexec, hlogical, hcopies, hmem, hold⟩ := hexec
  refine ⟨_, hexec, ?_, ?_, ?_, hmem, fun j hj hji h => ?_⟩
  · rw [State.spareState, State.rfld_putFld_self _ _ _ _ _ (by omega)]
    rfl
  · rw [← hlogical]
    exact State.rfld_putFld_ne _ _ _ _ _ _ _ _ (by omega)
  · exact hcopies ▸ hnot
  · rw [← hold j hj h]
    exact State.rfld_putFld_ne _ _ _ _ _ _ _ _ (by omega)

/-- Settles O45. -/
theorem banksScrubbedAndRepaired : Obligations.BanksScrubbedAndRepaired := by
  unfold Obligations.BanksScrubbedAndRepaired
  intro s b hflow hlive
  refine ⟨fun hon hdiv => ⟨fun k row hnext hrow hone => ?_, fun d hd hclean hwalk hlines => ?_,
      fun j hj hclean hwalk hdescs => ?_⟩,
    fun hoff hdiv => ⟨fun k e row hk he hon hrow hrows hnew hread hwrite hclean => ?_,
      fun i c w hcopy hrows hw hclean => ⟨fun hparked hone => ?_, fun hbusy hlast hbeats => ?_⟩,
      fun i c hcopy hrows hdue hi => ?_⟩⟩
  · have hexec := execScrubRead_bank hflow hlive hon hdiv hnext hone
    refine ⟨fun n hn => ?_, fun hnone hclean => ?_, fun i hnone hfound => ?_⟩
    · rw [hn] at hexec
      exact ⟨_, hexec, rfl, rfl, rfl, State.SameStores.refl s, rfl⟩
    · rw [hnone] at hexec
      obtain ⟨beats, hbank⟩ := State.scrubBank_clean hrow hclean
      obtain ⟨hlast, hrows⟩ := (s.scrubBank b k).endLap_banks b
      have hread : (s.scrubBank b k).scrubber b = (s.scrubber b).bankRead k row s.cfg.rows := by
        rw [hbank]
        exact State.scrubber_putScrubber (s.scrubber_basin b)
      refine ⟨_, hexec, hlast.trans (congrArg Scrubber.lastBank hread), ?_, ?_, ?_⟩
      · rw [hrows, hread]
        exact nget_nset_self _ _ _ _
      · exact congrArg Lasting.mem (((s.scrubBank b k).lasting_endLap b).trans (s.lasting_scrubBank b k))
      · rw [State.endLap_events, hbank]
        rfl
    · rw [hnone] at hexec
      exact ⟨_, hexec, (State.endLap_found _ b).trans (State.scrubBank_found hrow hfound)⟩
  · exact execScrubRead_desc hflow hlive hon hdiv hd hclean hwalk hlines
  · exact execScrubRead_line hflow hlive hon hdiv hj hclean hwalk hdescs
  · exact execRemapCopy_clean hlive hoff hdiv hk he hon hrow hrows hnew hread hwrite hclean
  · exact execSpareCopierRead_parked hdiv hcopy hrows hw hclean hparked hone
  · exact execSpareCopierRead_taken hdiv hcopy hrows hw hclean hbusy hlast hbeats
  · exact execSpareBankActive_done hcopy hrows hdue hi

end Sys2Proof.Machine
end

section
set_option Elab.async false -- the whole text is compiled in one process, within a fixed memory
/-! SUPPORT. Engines' comparisons and what a mismatch comes to: the block repeated, or its lane ended (R102–R104, R133, R142,
R264–R266). -/
namespace Sys2Proof.Machine

variable {s t u : State} {f g : Flight}

/-! ### What engines change at work -/

/-- Registers, words of memory, spare banks' copies, events, fault history and staged steps may differ, and nothing else. -/
def State.OnlyWork (s t : State) : Prop :=
  { t with
    regs := s.regs, fresh := s.fresh, sram := s.sram, events := s.events, lostEvents := s.lostEvents
    cistern := s.cistern, mem := s.mem, memChk := s.memChk, spareCopies := s.spareCopies, staging := s.staging } = s

theorem State.OnlyWork.refl (s : State) : s.OnlyWork s := rfl

theorem State.OnlyWork.trans (h : s.OnlyWork t) (k : t.OnlyWork u) : s.OnlyWork u := by
  have hk := congrArg (fun v : State => { v with
    regs := s.regs, fresh := s.fresh, sram := s.sram, events := s.events, lostEvents := s.lostEvents
    cistern := s.cistern, mem := s.mem, memChk := s.memChk, spareCopies := s.spareCopies, staging := s.staging }) k
  exact hk.trans h

section
variable (h : s.OnlyWork t)
include h
theorem State.OnlyWork.flights : t.flights = s.flights := (congrArg State.flights h :)
theorem State.OnlyWork.flight? (i : Nat) : t.flight? i = s.flight? i := State.flight?_of_flights h.flights i
theorem State.OnlyWork.desc : t.desc = s.desc := (congrArg State.desc h :)
theorem State.OnlyWork.descOf (b d : Nat) : t.descOf b d = s.descOf b d := (congrArg (State.descOf · b d) h :)
theorem State.OnlyWork.gauge : t.gauge = s.gauge := (congrArg State.gauge h :)
theorem State.OnlyWork.dueIncs : t.dueIncs = s.dueIncs := (congrArg State.dueIncs h :)
end

theorem State.bump_onlyWork (s : State) (r : Reg) (lo n k : Nat) : s.OnlyWork (s.bump r lo n k) := by
  unfold State.bump
  split <;> rfl

theorem State.post_onlyWork (s : State) (e : Event) : s.OnlyWork (s.post e) := by
  unfold State.post
  split <;> rfl

theorem State.setUnit_onlyWork (s : State) (x : UnitRef) (v : Nat) : s.OnlyWork (s.setUnit x v) := by
  unfold State.setUnit
  split <;> rfl

theorem State.freeUnit_onlyWork (s : State) (f : Flight) (r : Repeat) : s.OnlyWork (s.freeUnit f r) := by
  unfold State.freeUnit
  simp only
  split
  · split
    · exact s.setUnit_onlyWork _ _
    · rfl
  · rfl

theorem State.takeUnit_onlyWork (s : State) (f : Flight) (r : Repeat) : s.OnlyWork (s.takeUnit f r).1 := by
  unfold State.takeUnit
  simp only
  split
  · rfl
  · split
    · rfl
    · exact s.setUnit_onlyWork _ _

theorem State.dueNow_onlyWork (s : State) (k : UnitKind) (b u : Nat) : s.OnlyWork (s.dueNow k b u) := rfl

theorem State.postRepeat_onlyWork (s : State) (f : Flight) (r : Repeat) (pass : Bool) : s.OnlyWork (s.postRepeat f r pass) := by
  unfold State.postRepeat
  exact foldl_keeps (s.OnlyWork ·) _ (fun t x h => h.trans (t.post_onlyWork _)) _ _ (.refl s)

theorem State.countMismatch_onlyWork (s : State) (k : UnitKind) (b u : Nat) : s.OnlyWork (s.countMismatch k b u) := by
  unfold State.countMismatch
  split <;> exact s.bump_onlyWork _ _ _ _

/-! ### The counts of the engines -/

/-- The counts of MXEs, VXEs and screens. -/
def Reg.counts : Reg → Bool
  | .mxeCnt _ _ | .vxeCnt _ _ | .sxeCnt _ _ => true
  | _ => false

theorem State.setUnit_counts {r : Reg} (hr : r.counts = true) (s : State) (x : UnitRef) (v : Nat) : (s.setUnit x v).reg r = s.reg r := by
  unfold State.setUnit
  split
  · exact State.reg_putFld_ne _ (fun e => by subst e; cases hr) _ _ _
  · exact State.reg_putFld_ne _ (fun e => by subst e; cases hr) _ _ _
  · exact State.reg_putFld_ne _ (fun e => by subst e; cases hr) _ _ _
  · exact State.reg_putFld_ne _ (fun e => by subst e; cases hr) _ _ _
  · rfl

theorem State.takeUnit_counts {r : Reg} (hr : r.counts = true) (s : State) (f : Flight) (x : Repeat) :
    (s.takeUnit f x).1.reg r = s.reg r := by
  unfold State.takeUnit
  simp only
  split
  · rfl
  · split
    · rfl
    · exact State.setUnit_counts hr _ _ _

theorem State.takeUnit_lane (s : State) (f : Flight) (r : Repeat) : (s.takeUnit f r).2.lane = r.lane := by
  unfold State.takeUnit
  simp only
  split <;> rfl

/-! ### A repeat starts (R264) -/

/-- What a repeat that starts leaves its flight as. -/
structure Flight.Repeats (f g : Flight) (lane : Nat) : Prop where
  phase : g.phase = .run
  plan : PStep.again lane ∈ g.plan
  dead : g.dead = f.dead
  repeats : g.repeats = f.repeats + 1
  alerts : g.alerts &&& 0x40 = 0x40
  opened : g.opened = f.opened
  passed : g.passed = f.passed

theorem alerts_retried (a x : Byte) : (a ||| alRetried ||| x) &&& 0x40 = 0x40 := by
  refine BitVec.eq_of_getLsbD_eq fun i hi => ?_
  simp only [alRetried, BitVec.getLsbD_and, BitVec.getLsbD_or]
  cases h : BitVec.getLsbD (0x40 : Byte) i <;> simp

/-- A repeat as it begins: with its unit, where one is idle. -/
def State.begun (s : State) (f : Flight) (r : Repeat) : State × Repeat :=
  if r.same ∧ f.isMatrix then (s, r) else s.takeUnit f r

/-- A flight whose repeat begins. -/
def Flight.repeating (f : Flight) (r : Repeat) (idx : Nat) : Flight :=
  { f.putRep r with
    plan := if f.isMatrix then
        (f.plan.filter fun st => st.lane ≠ r.lane) ++ (PStep.again r.lane :: f.readsAgain idx r.lane) ++
          f.plan.filter fun st => st.lane = r.lane
      else PStep.again r.lane :: f.readsAgain idx r.lane ++ f.plan
    phase := .run, made := none, repeats := f.repeats + 1
    alerts := f.alerts ||| alRetried ||| alertIf r.spare alSpare }

theorem State.startRepeat_eq (s : State) (f : Flight) (r : Repeat) (idx : Nat) :
    s.startRepeat f r idx = (((s.begun f r).1.putFlight (f.repeating (s.begun f r).2 idx)).go f.id) := rfl

theorem Flight.repeating_repeats (f : Flight) (r : Repeat) (idx : Nat) : f.Repeats (f.repeating r idx) r.lane where
  phase := rfl
  plan := by
    unfold Flight.repeating
    simp only
    split <;> simp
  dead := rfl
  repeats := rfl
  alerts := alerts_retried _ _
  opened := rfl
  passed := rfl

theorem State.begun_shows (s : State) (f : Flight) (r : Repeat) : s.OnlyWork (s.begun f r).1 ∧ (s.begun f r).2.lane = r.lane ∧
    s.SameStores (s.begun f r).1 ∧ ∀ x : Reg, x.counts = true → (s.begun f r).1.reg x = s.reg x := by
  unfold State.begun
  split
  · exact ⟨.refl s, rfl, .refl s, fun _ _ => rfl⟩
  · exact ⟨s.takeUnit_onlyWork f r, s.takeUnit_lane f r, State.sameStores_of_lasting (by simp),
      fun x hx => State.takeUnit_counts hx s f r⟩

theorem State.startRepeat_repeats (hfound : s.flight? f.id = some g) (r : Repeat) (idx : Nat) : ∃ (t : State) (g : Flight),
    s.startRepeat f r idx = t.go f.id ∧ t.flight? f.id = some g ∧ f.Repeats g r.lane ∧ s.SameStores t ∧
      ∀ x : Reg, x.counts = true → t.reg x = s.reg x := by
  obtain ⟨hwork, hlane, hsame, hcounts⟩ := s.begun_shows f r
  refine ⟨_, _, s.startRepeat_eq f r idx, State.flight?_putFlight (f := g) ?_, hlane ▸ f.repeating_repeats _ idx, hsame, hcounts⟩
  exact (hwork.flight? f.id).trans hfound

/-! ### A mismatch (R104, R265, R266) -/

/-- What is left when a comparison failed: the unit's count and, for a screen, its event (R142, R268). -/
def State.failed (s : State) (f : Flight) (lane : Nat) (last : Bool) : State :=
  if f.isScreen then s.post { Event.of .screen f.basin (f.maker lane) clsScreen .none with ctx := f.ctx, failed := last } else s

theorem State.failed_shows (s : State) (f : Flight) (lane : Nat) (last : Bool) : s.OnlyWork (s.failed f lane last) ∧
    s.SameStores (s.failed f lane last) ∧ ∀ x : Reg, (s.failed f lane last).reg x = s.reg x := by
  unfold State.failed
  split
  · exact ⟨s.post_onlyWork _, State.sameStores_of_lasting (by simp), fun x => State.reg_of_post _ _ _⟩
  · exact ⟨.refl s, .refl s, fun _ => rfl⟩

/-- The first mismatch of a lane is counted and its block repeated. -/
theorem State.mismatch_repeats {lane idx place rows cols : Nat} (hfound : s.flight? f.id = some g) (hnone : f.repOf lane = none) :
    ∃ (t : State) (g : Flight), s.mismatch f idx lane place rows cols = t.go f.id ∧ t.flight? f.id = some g ∧ f.Repeats g lane ∧
      s.SameStores t ∧ ∀ x : Reg, x.counts = true → t.reg x = (s.countMismatch f.kind f.basin (f.maker lane)).reg x := by
  have heq : ∃ r : Repeat, r.lane = lane ∧ s.mismatch f idx lane place rows cols =
      ((s.countMismatch f.kind f.basin (f.maker lane)).failed f lane false).startRepeat f r idx := by
    unfold State.mismatch State.failed State.freeUnit
    rw [hnone]
    exact ⟨_, rfl, rfl⟩
  obtain ⟨r, hlane, heq⟩ := heq
  obtain ⟨hwork, hsame, hreg⟩ := (s.countMismatch f.kind f.basin (f.maker lane)).failed_shows f lane false
  have hcount : s.SameStores (s.countMismatch f.kind f.basin (f.maker lane)) := State.sameStores_of_lasting (by simp)
  obtain ⟨t, h, hgo, hh, hrep, ht, hcounts⟩ := State.startRepeat_repeats (f := f) (g := g)
    ((((s.countMismatch_onlyWork f.kind f.basin (f.maker lane)).trans hwork).flight? f.id).trans hfound) r idx
  exact ⟨t, h, heq.trans hgo, hh, hlane ▸ hrep, (hcount.trans hsame).trans ht, fun x hx => (hcounts x hx).trans (hreg x)⟩

/-! ### A lane ends (R104, R265) -/

theorem Flight.comparing?_some {idx l : Nat} (h : f.comparing? = some (idx, l)) :
    f.phase = .comparing ∧ ∃ b d role rest, f.plan = .write b d role idx l :: rest := by
  unfold Flight.comparing? at h
  split at h
  · next hphase hplan =>
    obtain ⟨rfl, rfl⟩ : _ = idx ∧ _ = l := by simpa using h
    exact ⟨hphase, _, _, _, _, hplan⟩
  · cases h

theorem Flight.failAt_id (f : Flight) (lane idx : Nat) (st : Status) : (f.failAt lane idx st).id = f.id := by
  unfold Flight.failAt
  simp only
  split <;> rfl

theorem Flight.failAt_dead_of_matrix {lane : Nat} (h : f.isMatrix = true) (hlane : lane ≠ sharedLane) (idx : Nat) (st : Status) :
    (lane, st) ∈ (f.failAt lane idx st).dead := by
  unfold Flight.failAt
  simp only
  rw [if_neg hlane]
  split
  · simp
  · next h' => exact absurd h h'

theorem Flight.failAt_dead_of_not (h : f.isMatrix = false) (lane idx : Nat) (st : Status) :
    (f.failAt lane idx st).dead = [(0, st)] := by
  unfold Flight.failAt
  simp only
  split
  · next h' => exact absurd (h'.symm.trans h) (by decide)
  · rfl

/-- A lane whose comparison stands ends: its tile is not open yet (R104). -/
theorem State.endInternal_compared {idx l lane : Nat} (hcomp : f.comparing? = some (idx, l)) (hmine : f.isMatrix = true → l = lane) :
    s.endInternal f lane = (((s.post { Event.of .site 0xFFFF 0 clsInternal .none with ctx := f.ctx, failed := true }).putFlight
      (f.failAt lane idx .internal)).go f.id).runReady := by
  obtain ⟨hphase, b, d, role, rest, hplan⟩ := Flight.comparing?_some hcomp
  have hhead : (!f.isMatrix || decide ((PStep.write b d role idx l).lane = lane)) = true := by
    cases hm : f.isMatrix with
    | false => rfl
    | true => exact decide_eq_true (hmine hm)
  unfold State.endInternal
  simp only [hphase, hplan]
  exact if_pos hhead

/-- What a flight is left as when a lane's repeats are over. -/
def Flight.repeated (f : Flight) (lane : Nat) : Flight :=
  { f with opened := [], rep := f.rep.filter fun x => x.lane ≠ lane }

/-- The events of a mismatch whose repeats are over are posted, and the units that failed are due for their test (R265, R279). -/
def State.givenUp (s : State) (f : Flight) (r : Repeat) : State :=
  if f.isScreen then s
  else (r.verdicts false).foldl (fun (s : State) x => s.dueNow f.kind f.basin x.1) (s.postRepeat f r false)

theorem State.givenUp_shows (s : State) (f : Flight) (r : Repeat) : s.OnlyWork (s.givenUp f r) ∧ s.SameStores (s.givenUp f r) := by
  unfold State.givenUp
  split
  · exact ⟨.refl s, .refl s⟩
  · have hpost : s.SameStores (s.postRepeat f r false) := State.sameStores_of_lasting (by simp [State.postRepeat])
    exact foldl_keeps (fun t => s.OnlyWork t ∧ s.SameStores t) _
      (fun t x h => ⟨h.1.trans (t.dueNow_onlyWork _ _ _), h.2.trans (State.sameStores_of_lasting (by simp))⟩) _ _
      ⟨s.postRepeat_onlyWork f r false, hpost⟩

/-- The mismatch of the last repeat ends its lane. -/
theorem State.mismatch_ends {idx l lane place rows cols : Nat} {r : Repeat} (hfound : s.flight? f.id = some g)
    (hrep : f.repOf lane = some r) (hlast : r.fails.length = 2 ∨ r.fails.length = 1 ∧ f.isScreen = true) (hopened : f.opened = [])
    (hcomp : f.comparing? = some (idx, l)) (hmine : f.isMatrix = true → l = lane) : ∃ t : State,
    s.mismatch f idx lane place rows cols = (t.go f.id).runReady ∧
      t.flight? f.id = some ((f.repeated lane).failAt lane idx .internal) ∧ s.SameStores t := by
  have hover : (decide ((r.fails ++ [(f.maker lane, place)]).length = 3) ||
      (decide ((r.fails ++ [(f.maker lane, place)]).length = 2) && (r.same || f.isScreen))) = true := by
    rw [List.length_append]
    obtain h | ⟨h, hscreen⟩ := hlast
    · simp [h]
    · simp [h, hscreen]
  have heq : ∃ w : State, s.OnlyWork w ∧ s.SameStores w ∧ s.mismatch f idx lane place rows cols =
      (w.putFlight (f.repeated lane)).endInternal (f.repeated lane) lane := by
    have hcount : s.SameStores ((s.countMismatch f.kind f.basin (f.maker lane)).freeUnit f r) := State.sameStores_of_lasting (by simp)
    have hwork := (s.countMismatch_onlyWork f.kind f.basin (f.maker lane)).trans (State.freeUnit_onlyWork _ f r)
    obtain ⟨hwork', hsame', -⟩ := ((s.countMismatch f.kind f.basin (f.maker lane)).freeUnit f r).failed_shows f lane true
    obtain ⟨hwork'', hsame''⟩ := (((s.countMismatch f.kind f.basin (f.maker lane)).freeUnit f r).failed f lane true).givenUp_shows ({ f with opened := [] })
      { r with fails := r.fails ++ [(f.maker lane, place)], now := none }
    refine ⟨_, (hwork.trans hwork').trans hwork'', (hcount.trans hsame').trans hsame'', ?_⟩
    unfold State.mismatch
    rw [hrep]
    simp only [Option.getD_some, hover, if_true, hopened, List.filter_nil]
    rfl
  obtain ⟨w, hwork, hsame, heq⟩ := heq
  have hcomp' : (f.repeated lane).comparing? = some (idx, l) := hcomp
  rw [State.endInternal_compared hcomp' hmine] at heq
  have hput := State.flight?_putFlight (s := w) (g := f.repeated lane) ((hwork.flight? f.id).trans hfound)
  have hpost := ((w.putFlight (f.repeated lane)).post_onlyWork
    { Event.of .site 0xFFFF 0 clsInternal .none with ctx := f.ctx, failed := true }).flight? f.id
  have hid : ((f.repeated lane).failAt lane idx .internal).id = f.id := Flight.failAt_id _ _ _ _
  have hfail := State.flight?_putFlight (g := (f.repeated lane).failAt lane idx .internal) (hid.symm ▸ hpost.trans hput)
  rw [hid] at hfail
  exact ⟨_, heq, hfail, hsame.trans (State.sameStores_of_lasting (by simp))⟩

end Sys2Proof.Machine
end

section
set_option Elab.async false -- the whole text is compiled in one process, within a fixed memory
/-! SUPPORT. Comparisons that pass, and shadow restores (R246, R264–R266, R331). -/
namespace Sys2Proof.Machine

variable {s t u : State} {f g : Flight}

/-! ### A comparison passes (R102) -/

theorem State.putFld_onlyWork (s : State) (r : Reg) (lo n v : Nat) : s.OnlyWork (s.putFld r lo n v) := rfl

theorem State.startReadout_shows (s : State) (f : Flight) (lane : Nat) (ws : List AccWord) :
    s.OnlyWork (s.startReadout f lane ws).1 ∧ s.SameStores (s.startReadout f lane ws).1 ∧
      (lane, ws) ∈ (s.startReadout f lane ws).2.accs ∧ (s.startReadout f lane ws).2.plan = f.plan ∧
      (s.startReadout f lane ws).2.id = f.id := by
  refine ⟨?_, State.sameStores_of_lasting (by simp [State.startReadout]), List.mem_cons_self, rfl, rfl⟩
  exact ((s.bump_onlyWork _ _ _ _).trans (State.bump_onlyWork _ _ _ _ _)).trans (State.putFld_onlyWork _ _ _ _ _)

/-- The record of the mismatch before it, where a lane's comparison passes. -/
def State.passing (s : State) (f : Flight) (lane : Nat) : State × Flight :=
  match f.repOf lane with
  | some r => (if f.isScreen then s else s.postRepeat f r true, f.putRep { r with fails := [] })
  | none => (s, f)

theorem State.passing_shows (s : State) (f : Flight) (lane : Nat) : s.OnlyWork (s.passing f lane).1 ∧
    s.SameStores (s.passing f lane).1 ∧ (s.passing f lane).2.plan = f.plan ∧ (s.passing f lane).2.id = f.id ∧
    (s.passing f lane).2.isMatrix = f.isMatrix ∧ (s.passing f lane).2.isScreen = f.isScreen := by
  unfold State.passing
  split
  · refine ⟨?_, ?_, rfl, rfl, rfl, rfl⟩
    · split
      · exact .refl s
      · exact s.postRepeat_onlyWork _ _ _
    · split
      · exact .refl s
      · exact State.sameStores_of_lasting (by simp [State.postRepeat])
  · exact ⟨.refl s, .refl s, rfl, rfl, rfl, rfl⟩

theorem not_screen_of_matrix (h : f.isMatrix = true) : f.isScreen = false := by
  unfold Flight.isMatrix at h
  unfold Flight.isScreen
  simp only [Bool.and_eq_true, Bool.or_eq_true, decide_eq_true_eq] at h
  simp only [Bool.and_eq_false_iff, decide_eq_false_iff_not]
  exact .inr (by omega)

/-- A flight whose lane has passed. -/
def Flight.passes (f : Flight) (lane : Nat) : Flight := { f with phase := .run, passed := lane :: f.passed }

/-- A matrix block that passes is read out. -/
theorem State.comparePass_passes (hfound : s.flight? f.id = some g) (hm : f.isMatrix = true) (lane : Nat) (ws : List AccWord) :
    ∃ (t : State) (g : Flight), s.comparePass f lane ws = t.go f.id ∧ t.flight? f.id = some g ∧ g.phase = .run ∧
      lane ∈ g.passed ∧ (lane, ws) ∈ g.accs ∧ g.plan = f.plan ∧ s.SameStores t := by
  obtain ⟨hwork, hsame, hplan, hid, hmatrix, hscreen⟩ := s.passing_shows f lane
  obtain ⟨hwork', hsame', hacc, hplan', hid'⟩ := (s.passing f lane).1.startReadout_shows (s.passing f lane).2 lane ws
  generalize hp : s.passing f lane = p at *
  obtain ⟨v, x⟩ := p
  generalize hq : v.startReadout x lane ws = q at *
  obtain ⟨w, y⟩ := q
  have hnot : y.isScreen = false := by
    have hy : (v.startReadout x lane ws).2.isScreen = x.isScreen := rfl
    rw [hq] at hy
    exact hy.trans (hscreen.trans (not_screen_of_matrix hm))
  have heq : s.comparePass f lane ws = (w.putFlight (y.passes lane)).go y.id := by
    cases hrep : f.repOf lane with
    | none =>
      simp only [State.passing, hrep] at hp
      obtain ⟨rfl, rfl⟩ := Prod.mk.inj hp
      simp only [State.comparePass, hrep, hm, if_true, hq, hnot, Bool.false_eq_true, if_false]
      split <;> rfl
    | some r =>
      simp only [State.passing, hrep] at hp
      obtain ⟨rfl, rfl⟩ := Prod.mk.inj hp
      have hm' : (f.putRep { r with fails := [] }).isMatrix = true := hm
      simp only [State.comparePass, hrep, hm', if_true, hq, hnot, Bool.false_eq_true, if_false]
      split <;> rfl
  simp only at hid hid'
  rw [hid'.trans hid] at heq
  have hid'' : (y.passes lane).id = f.id := hid'.trans hid
  have hput := State.flight?_putFlight (s := w) (g := y.passes lane) (f := g)
    (hid''.symm ▸ ((hwork.trans hwork').flight? f.id).trans hfound)
  exact ⟨_, y.passes lane, heq, hid'' ▸ hput, rfl, List.mem_cons_self, hacc, hplan'.trans hplan, hsame.trans hsame'⟩

end Sys2Proof.Machine
end

section
set_option Elab.async false -- the whole text is compiled in one process, within a fixed memory
/-! SUPPORT. What a read of stack memory rests on, and shadow restores (R246, R297). -/
namespace Sys2Proof.Machine

variable {s t u : State} {f g : Flight} {sph block : Nat}

/-! ### Reads of stack memory rest on the stack's side alone -/

/-- The registers that a read of stack memory looks at: a siphon's state and the region table. -/
def Reg.sphTable : Reg → Bool
  | .sphSt _ | .sphRgnA _ | .sphRgnB _ => true
  | _ => false

/-- Two states alike in stack memory, its regions and its siphons. -/
structure State.StackAlike (s t : State) : Prop where
  cfg : t.cfg = s.cfg
  siphons : t.siphons = s.siphons
  stack : t.stack = s.stack
  combining : t.combining = s.combining
  pages : t.pages = s.pages
  badBlocks : t.badBlocks = s.badBlocks
  macs : t.macs = s.macs
  sphKeys : t.sphKeys = s.sphKeys
  regs : ∀ r : Reg, r.sphTable = true → t.reg r = s.reg r

theorem State.StackAlike.refl (s : State) : s.StackAlike s := ⟨rfl, rfl, rfl, rfl, rfl, rfl, rfl, rfl, fun _ _ => rfl⟩

theorem State.StackAlike.symm (h : s.StackAlike t) : t.StackAlike s where
  cfg := h.cfg.symm
  siphons := h.siphons.symm
  stack := h.stack.symm
  combining := h.combining.symm
  pages := h.pages.symm
  badBlocks := h.badBlocks.symm
  macs := h.macs.symm
  sphKeys := h.sphKeys.symm
  regs r hr := (h.regs r hr).symm

theorem State.StackAlike.trans (h : s.StackAlike t) (k : t.StackAlike u) : s.StackAlike u where
  cfg := k.cfg.trans h.cfg
  siphons := k.siphons.trans h.siphons
  stack := k.stack.trans h.stack
  combining := k.combining.trans h.combining
  pages := k.pages.trans h.pages
  badBlocks := k.badBlocks.trans h.badBlocks
  macs := k.macs.trans h.macs
  sphKeys := k.sphKeys.trans h.sphKeys
  regs r hr := (k.regs r hr).trans (h.regs r hr)

theorem State.putFld_stackAlike (s : State) {r : Reg} (hr : r.sphTable = false) (lo n v : Nat) : s.StackAlike (s.putFld r lo n v) :=
  ⟨rfl, rfl, rfl, rfl, rfl, rfl, rfl, rfl, fun x hx =>
    State.reg_putFld_ne _ (fun e => by rw [e, hr] at hx; cases hx) _ _ _⟩

theorem State.bump_stackAlike (s : State) {r : Reg} (hr : r.sphTable = false) (lo n k : Nat) : s.StackAlike (s.bump r lo n k) := by
  unfold State.bump
  split
  · exact .refl s
  · exact (s.putFld_stackAlike hr lo n _).trans ⟨rfl, rfl, rfl, rfl, rfl, rfl, rfl, rfl, fun _ _ => rfl⟩

theorem State.siphonEvent_stackAlike (s : State) (sph block kind : Nat) : s.StackAlike (s.siphonEvent sph block kind) := by
  unfold State.siphonEvent State.post
  split <;> exact ⟨rfl, rfl, rfl, rfl, rfl, rfl, rfl, rfl, fun _ _ => rfl⟩

section
variable (h : s.StackAlike t)
include h

theorem State.StackAlike.regions : t.regions = s.regions := by
  unfold State.regions
  simp only [h.regs (.sphRgnA _) rfl, h.regs (.sphRgnB _) rfl]

theorem State.StackAlike.serves (i : Nat) : t.rfld (.sphSt i) 8 4 = s.rfld (.sphSt i) 8 4 :=
  congrArg (fld · 8 4) (h.regs (.sphSt i) rfl)

theorem State.StackAlike.stackAt (a : Nat) : t.stackAt a = s.stackAt a := by
  unfold State.stackAt State.regionAt
  rw [h.cfg, h.regions]

theorem State.StackAlike.siphon (i : Nat) : t.siphon i = s.siphon i := congrArg (kget · Siphon.idle i) h.siphons

theorem State.StackAlike.blockGood : t.blockGood sph block = s.blockGood sph block := by
  unfold State.blockGood State.blockKeyId State.blockCtx
  rw [h.badBlocks, h.macs, h.sphKeys, h.cfg, h.regions]

theorem State.StackAlike.stackFree (a len : Nat) : t.stackFree a len false = s.stackFree a len false := by
  unfold State.stackFree State.siphonServes State.blockBarred
  simp only [h.stackAt, h.serves, h.siphon, Bool.not_false, Bool.true_or]

theorem State.StackAlike.damage : (s.damage sph block).StackAlike (t.damage sph block) := by
  refine ⟨h.cfg, h.siphons, h.stack, h.combining, h.pages, ?_, h.macs, h.sphKeys, h.regs⟩
  exact congrArg (fun l : List Nat => blockKey sph block :: l.filter (· != blockKey sph block)) h.badBlocks

theorem State.StackAlike.movedBlock (who : Option SphSrc) : (s.movedBlock who sph block).StackAlike (t.movedBlock who sph block) := by
  unfold State.movedBlock
  cases who with
  | none => exact h
  | some w =>
    refine ⟨h.cfg, ?_, h.stack, h.combining, h.pages, h.badBlocks, h.macs, h.sphKeys, h.regs⟩
    simp only [State.putSiphon, h.siphon, h.siphons]

end

theorem State.verifyBlock_alike (h : s.StackAlike t) (f1 f2 : Bool) :
    (s.verifyBlock sph block f1 f2).1.StackAlike (t.verifyBlock sph block f1 f2).1 ∧
      (t.verifyBlock sph block f1 f2).2 = (s.verifyBlock sph block f1 f2).2 := by
  have hcount : ∀ (v : State) lo, v.StackAlike (v.bump (.sphIntSt sph) lo 16) := fun v lo =>
    v.bump_stackAlike rfl lo 16 1
  have hevent : ∀ (v : State) lo kind, v.StackAlike ((v.bump (.sphIntSt sph) lo 16).siphonEvent sph block kind) := fun v lo kind =>
    (hcount v lo).trans (State.siphonEvent_stackAlike _ _ _ _)
  have hboth : ∀ {v v' w w' : State}, v.StackAlike v' → w.StackAlike w' → v.StackAlike w → v'.StackAlike w' :=
    fun hv hw hvw => (hv.symm.trans hvw).trans hw
  have hfirst := hboth (hcount s 48) (hcount t 48) h
  unfold State.verifyBlock
  simp only [h.blockGood]
  split
  · exact ⟨h, rfl⟩
  · split
    · exact ⟨hboth (hevent _ 32 0) (hevent _ 32 0) hfirst, rfl⟩
    · refine ⟨hboth (hevent _ 16 1) (hevent _ 16 1) ?_, rfl⟩
      split
      · exact hfirst.damage
      · exact hfirst

theorem State.readBlock_alike (h : s.StackAlike t) (f1 f2 : Bool) :
    (s.readBlock sph block f1 f2).1.StackAlike (t.readBlock sph block f1 f2).1 ∧
      (t.readBlock sph block f1 f2).2 = (s.readBlock sph block f1 f2).2 := by
  have hevent : ∀ v : State, v.StackAlike ((v.bump (.sphIntSt sph) 16 16).siphonEvent sph block 1) := fun v =>
    (v.bump_stackAlike rfl 16 16 1).trans (State.siphonEvent_stackAlike _ _ _ _)
  have hbytes : t.blockBytes sph block = s.blockBytes sph block := by
    unfold State.blockBytes
    rw [h.stack]
  obtain ⟨halike, hgood⟩ := State.verifyBlock_alike (sph := sph) (block := block)
    (((s.putFld_stackAlike (r := .sphRdCnt sph) rfl 0 64 (s.rfld (.sphRdCnt sph) 0 64 + 1)).symm.trans h).trans
      (t.putFld_stackAlike (r := .sphRdCnt sph) rfl 0 64 (t.rfld (.sphRdCnt sph) 0 64 + 1))) f1 f2
  unfold State.readBlock State.siphonUp State.pageCombining State.pageValid
  simp only [h.serves, h.combining, h.pages, hbytes]
  split
  · exact ⟨((hevent s).symm.trans h).trans (hevent t), rfl⟩
  · split
    · exact ⟨h, rfl⟩
    · split
      · exact ⟨h, rfl⟩
      · exact ⟨halike, congrArg (fun x : Bool => if x then some (s.blockBytes sph block) else none) hgood⟩

/-- One piece of a read of stack memory. -/
def stackPiece (a : Nat) (who : Option SphSrc) (acc : State × List Byte × List Nat) (p : Nat × Nat) : State × List Byte × List Nat :=
  match acc.1.stackAt p.1 with
  | none => (acc.1, acc.2.1 ++ List.replicate p.2 0, acc.2.2)
  | some (_, sph, phys) =>
    match ((acc.1.movedBlock who sph (phys / 256)).readBlock sph (phys / 256) (acc.1.macOf who sph (phys / 256)).1
      (acc.1.macOf who sph (phys / 256)).2) with
    | (s, some d) => (s, acc.2.1 ++ (d.drop (phys % 256)).take p.2, acc.2.2)
    | (s, none) => (s, acc.2.1 ++ List.replicate p.2 0, acc.2.2 ++ [p.1 - a])

theorem State.stackRead_eq (s : State) (a len : Nat) (who : Option SphSrc) :
    s.stackRead a len who = (pieces a len).foldl (stackPiece a who) (s, [], []) := by
  unfold State.stackRead
  congr 1
  funext acc p
  obtain ⟨v, bs, bad⟩ := acc
  unfold stackPiece
  simp only
  cases v.stackAt p.1 with
  | none => rfl
  | some x =>
    obtain ⟨r, sph, phys⟩ := x
    simp only
    cases h : ((v.movedBlock who sph (phys / 256)).readBlock sph (phys / 256) (v.macOf who sph (phys / 256)).1
      (v.macOf who sph (phys / 256)).2) with
    | mk w d => cases d <;> rfl

theorem stackPiece_alike {x y : State × List Byte × List Nat} (a : Nat) (who : Option SphSrc) (h : x.1.StackAlike y.1) (h' : y.2 = x.2)
    (p : Nat × Nat) : (stackPiece a who x p).1.StackAlike (stackPiece a who y p).1 ∧ (stackPiece a who y p).2 = (stackPiece a who x p).2 := by
  obtain ⟨s, bs, bad⟩ := x
  obtain ⟨t, bs', bad'⟩ := y
  obtain ⟨rfl, rfl⟩ := Prod.mk.inj h'
  simp only at h
  unfold stackPiece
  simp only [h.stackAt]
  cases s.stackAt p.1 with
  | none => exact ⟨h, rfl⟩
  | some x =>
    obtain ⟨r, sph, phys⟩ := x
    have hmac : t.macOf who sph (phys / 256) = s.macOf who sph (phys / 256) := by
      unfold State.macOf
      rw [h.siphon]
    obtain ⟨halike, hread⟩ := State.readBlock_alike (sph := sph) (block := phys / 256) (h.movedBlock who)
      (s.macOf who sph (phys / 256)).1 (s.macOf who sph (phys / 256)).2
    simp only [hmac]
    generalize (s.movedBlock who sph (phys / 256)).readBlock sph (phys / 256) _ _ = v at *
    generalize (t.movedBlock who sph (phys / 256)).readBlock sph (phys / 256) _ _ = w at *
    obtain ⟨v, d⟩ := v
    obtain ⟨w, d'⟩ := w
    simp only at hread
    subst hread
    cases d' with
    | none => exact ⟨halike, rfl⟩
    | some d => exact ⟨halike, rfl⟩

theorem State.stackRead_alike (h : s.StackAlike t) (a len : Nat) (who : Option SphSrc) :
    (s.stackRead a len who).1.StackAlike (t.stackRead a len who).1 ∧ (t.stackRead a len who).2 = (s.stackRead a len who).2 := by
  rw [State.stackRead_eq, State.stackRead_eq]
  have hfold : ∀ (ps : List (Nat × Nat)) (x y : State × List Byte × List Nat), x.1.StackAlike y.1 → y.2 = x.2 →
      (ps.foldl (stackPiece a who) x).1.StackAlike (ps.foldl (stackPiece a who) y).1 ∧
        (ps.foldl (stackPiece a who) y).2 = (ps.foldl (stackPiece a who) x).2 := by
    intro ps
    induction ps with
    | nil => exact fun x y h h' => ⟨h, h'⟩
    | cons p ps ih =>
      intro x y h h'
      obtain ⟨hs, hr⟩ := stackPiece_alike a who h h' p
      exact ih _ _ hs hr
  exact hfold _ _ _ h rfl

/-! ### What a read of stack memory changes -/

/-- Registers, events, siphons and marks of bad blocks may differ, and nothing else. -/
def State.OnlyStackRead (s t : State) : Prop :=
  { t with
    regs := s.regs, fresh := s.fresh, events := s.events, lostEvents := s.lostEvents, siphons := s.siphons
    badBlocks := s.badBlocks } = s

theorem State.OnlyStackRead.refl (s : State) : s.OnlyStackRead s := rfl

theorem State.OnlyStackRead.trans (h : s.OnlyStackRead t) (k : t.OnlyStackRead u) : s.OnlyStackRead u := by
  have hk := congrArg (fun v : State => { v with
    regs := s.regs, fresh := s.fresh, events := s.events, lostEvents := s.lostEvents, siphons := s.siphons
    badBlocks := s.badBlocks }) k
  exact hk.trans h

theorem State.bump_onlyStackRead (s : State) (r : Reg) (lo n k : Nat) : s.OnlyStackRead (s.bump r lo n k) := by
  unfold State.bump
  split <;> rfl

theorem State.siphonEvent_onlyStackRead (s : State) (sph block kind : Nat) : s.OnlyStackRead (s.siphonEvent sph block kind) := by
  unfold State.siphonEvent State.post
  split <;> rfl

theorem State.damage_onlyStackRead (s : State) (sph block : Nat) : s.OnlyStackRead (s.damage sph block) := rfl

theorem State.verifyBlock_onlyStackRead (s : State) (sph block : Nat) (f1 f2 : Bool) :
    s.OnlyStackRead (s.verifyBlock sph block f1 f2).1 := by
  have hevent : ∀ (v : State) lo kind, v.OnlyStackRead ((v.bump (.sphIntSt sph) lo 16).siphonEvent sph block kind) := fun v lo kind =>
    (v.bump_onlyStackRead _ _ _ _).trans (State.siphonEvent_onlyStackRead _ _ _ _)
  unfold State.verifyBlock
  simp only
  split
  · exact .refl s
  · split
    · exact (s.bump_onlyStackRead _ _ _ _).trans (hevent _ 32 0)
    · refine State.OnlyStackRead.trans ?_ (hevent _ 16 1)
      split
      · exact (s.bump_onlyStackRead _ _ _ _).trans (State.damage_onlyStackRead _ _ _)
      · exact s.bump_onlyStackRead _ _ _ _

theorem State.readBlock_onlyStackRead (s : State) (sph block : Nat) (f1 f2 : Bool) : s.OnlyStackRead (s.readBlock sph block f1 f2).1 := by
  have hcount : s.OnlyStackRead (s.bumpWrap (.sphRdCnt sph) 0 64) := rfl
  unfold State.readBlock
  split
  · exact (s.bump_onlyStackRead _ _ _ _).trans (State.siphonEvent_onlyStackRead _ _ _ _)
  · split
    · exact .refl s
    · split
      · exact .refl s
      · exact hcount.trans (State.verifyBlock_onlyStackRead _ _ _ _ _)

theorem State.stackRead_only (s : State) (a len : Nat) (who : Option SphSrc) : s.OnlyStackRead (s.stackRead a len who).1 := by
  rw [State.stackRead_eq]
  refine foldl_keeps (fun x : State × List Byte × List Nat => s.OnlyStackRead x.1) _ (fun x p h => h.trans ?_) _ _ (.refl s)
  unfold stackPiece
  split
  · exact .refl x.1
  · next sph phys _ =>
    have hmoved : x.1.OnlyStackRead (x.1.movedBlock who sph (phys / 256)) := by
      unfold State.movedBlock
      split <;> rfl
    have hread := hmoved.trans (State.readBlock_onlyStackRead _ sph (phys / 256) (x.1.macOf who sph (phys / 256)).1
      (x.1.macOf who sph (phys / 256)).2)
    split
    · next h => rwa [h] at hread
    · next h => rwa [h] at hread

end Sys2Proof.Machine
end

section
set_option Elab.async false -- the whole text is compiled in one process, within a fixed memory
/-! SUPPORT. A shadow restore takes its flume and opens its tile (R246). -/
namespace Sys2Proof.Machine

variable {s t u : State} {f g : Flight} {b d n : Nat}

/-! ### A flight whose record is read goes on with its write -/

/-- A flight that reads its record and then opens its tile has gone as far as if it had its record. -/
theorem State.go_of_record {k b d role idx lane : Nat} {rest rest' : List PStep} {x : Flight} (h : s.flight? f.id = some f)
    (hrun : f.phase = .run) (hplan : f.plan = .record k :: rest) (hdrop : f.dropped (.record k) = false)
    (hask : s.recordStep f k = t) (hg : t.flight? f.id = some g) (hgrun : g.phase = .run)
    (hgplan : g.plan = .write b d role idx lane :: rest') (hgdrop : g.dropped (.write b d role idx lane) = false)
    (hx : (t.askWrite g b d role idx lane).flight? f.id = some x) (hxrun : x.phase ≠ .run) : s.go f.id = t.go f.id := by
  rw [State.go_of_write hg hgrun hgplan hgdrop rfl hx hxrun, State.go, State.fuelFor_of h, State.runFlight]
  simp only [h, hrun, hplan, hdrop, ne_eq, not_true_eq_false, if_false, Bool.false_eq_true, hask]
  rw [show 2 * (PStep.record k :: rest).length + 15 = (2 * rest.length + 16) + 1 by simp only [List.length_cons]; omega,
    State.runFlight_of_write hg hgrun hgplan hgdrop, State.runFlight_of_idle hx hxrun]

/-! ### The record's flight -/

/-- A flight with a record read, that writes it next. -/
def Flight.withRecord (f : Flight) (x : Buf) (plan : List PStep) : Flight := { f.putBuf x with plan := plan }

/-- RECORD step of a restore whose first block and header are sound (R246). -/
theorem State.recordStep_sound {v : BitVec 512} {a : Nat} {h : RecHdr} {rest : List PStep} (hrestore : f.restore = true)
    (hplan : f.plan = .record 0 :: .write b d 0 0 0 :: rest) (hbasin : f.basin = b) (hv : v = s.descOf b d)
    (ha : a = stackBase + dShadow v * 256) (hfree : s.stackFree a 5440 false = true)
    (hread : (s.stackRead a 256 (some (.flight f.id))).2.2 = [])
    (hh : h = recordParse ((s.stackRead a 256 (some (.flight f.id))).2.1.take 64)) (hfits : h.fits v = true) (hcheck : h.check = dCheck v) :
    ∃ (t : State) (tile : DTile) (payload : List Byte) (bad : List Nat), s.recordStep f 0 =
      t.putFlight (f.withRecord ⟨roleRec, 0, tile, payload, v, bad⟩ (.write b d 0 0 0 :: rest)) ∧ s.OnlyStackRead t ∧ (payload.drop 64).length ≤ h.len := by
  subst hv hbasin ha
  unfold State.recordStep
  simp only [hplan, List.drop_succ_cons, List.drop_zero, hrestore, if_true, hfree, Bool.not_true, Bool.false_eq_true, if_false]
  have hfirst := s.stackRead_only (stackBase + dShadow (s.descOf f.basin d) * 256) 256 (some (.flight f.id))
  generalize s.stackRead (stackBase + dShadow (s.descOf f.basin d) * 256) 256 (some (.flight f.id)) = r at *
  obtain ⟨w, b0, bad0⟩ := r
  simp only at hread hh hfirst
  subst hread
  simp only [← hh, hfits, hcheck, List.isEmpty_nil, Bool.not_true, Bool.false_eq_true, if_false, ne_eq, not_true_eq_false, and_false]
  have hrest := w.stackRead_only (stackBase + dShadow (s.descOf f.basin d) * 256 + 256) (min (64 + h.len) 5440 - 256) (some (.flight f.id))
  generalize w.stackRead (stackBase + dShadow (s.descOf f.basin d) * 256 + 256) (min (64 + h.len) 5440 - 256) (some (.flight f.id)) = r at *
  obtain ⟨x, bs, bad⟩ := r
  refine ⟨x, _, _, bad, rfl, hfirst.trans hrest, ?_⟩
  simp only [List.length_drop, List.length_append, List.length_take, List.length_replicate]
  omega

/-! ### SHADOW_RESTORE -/

theorem State.occupy_stackAlike (s : State) (b n last : Nat) : s.StackAlike (s.occupy ⟨.flume, b, n⟩ last) :=
  (s.putFld_stackAlike (r := .flmSt b n) rfl 20 4 1).trans (State.putFld_stackAlike _ (r := .flmSt b n) rfl 0 8 last)

theorem State.occupy_desc (s : State) (b n last : Nat) : (s.occupy ⟨.flume, b, n⟩ last).desc = s.desc := rfl

/-- A write whose tile is granted has its flight writing. -/
theorem State.askWrite_blocks {role idx lane : Nat} {m : Made} (h : s.flight? f.id = some f) (hm : s.makeOnce f b d role idx lane = .ok m)
    (hv : f.isScreen = true → m.violation = false) (hc : f.mustCompare lane m = false) (ho : (b, d) ∉ f.opened)
    (hr : f.isReduce = false) (hgate : s.gateWrite b d f m.bytes.length false = .grant) (hp : s.pathTaken f b = false) :
    ∃ x, (s.askWrite f b d role idx lane).flight? f.id = some x ∧ x.phase ≠ .run := by
  have hfl : (s.readDesc b d).1.flights = s.flights := (congrArg State.flights (s.readDesc_onlyNoted b d).1 :)
  obtain ⟨-, hfound, -, -⟩ := State.startWrite_writes (b := b) (d := d) ((State.flight?_of_flights hfl f.id).trans h) role m
  rw [State.askWrite_of_grant hm hv hc ho hr hgate hp]
  exact ⟨_, hfound, by simp [State.writes]⟩

/-- The output of a restore is its record. -/
theorem State.makeOnce_restore {x : Buf} {plan : List PStep} (hrestore : f.restore = true) (hmade : f.made = none)
    (harr : f.arrival = none) (hx : x.role = roleRec ∧ x.idx = 0) : ∃ m, t.makeOnce (f.withRecord x plan) b d 0 0 0 = .ok m ∧
      m.bytes = x.payload.drop 64 := by
  refine ⟨recordMade (recordParse (x.payload.take 64)) (x.payload.drop 64) (t.weightClass b (t.descOf b d)) (!x.steered.isEmpty) false,
    ?_, rfl⟩
  simp [State.makeOnce, Flight.withRecord, Flight.putBuf, hmade, Flight.isReduce, harr, Flight.isOp, hrestore, Flight.isMatrix,
    State.make, Flight.isScreen, Flight.mustCompare, hx.1, hx.2]

/-- The flight launched last, put again. -/
theorem State.putFlight_launched (hnum : s.Numbered) (hf : t.flights = s.flights ++ [f]) (hid : f.id = s.nextFlight)
    (hgid : g.id = s.nextFlight) : (t.putFlight g).flights = s.flights ++ [g] := by
  have hold : s.flights.map (fun x : Flight => if x.id = g.id then g else x) = s.flights := by
    conv_rhs => rw [← List.map_id s.flights]
    exact List.map_congr_left fun x hx => if_neg (by have := hnum x hx; omega)
  have hput : (t.putFlight g).flights = t.flights.map fun x : Flight => if x.id = g.id then g else x := rfl
  rw [hput, hf, List.map_append, hold, List.map_singleton, if_pos (hid.trans hgid.symm)]

/-- A restore launched opens its tile. -/
theorem State.restore_opens {v : BitVec 512} {a : Nat} {h : RecHdr} (hnum : s.Numbered) (hrest : s.AtRest) (hv : v = s.descOf b d)
    (ha : a = stackBase + dShadow v * 256) (hfree : s.stackFree a 5440 false = true)
    (hread : (s.stackRead a 256 (some (.flight s.nextFlight))).2.2 = [])
    (hh : h = recordParse ((s.stackRead a 256 (some (.flight s.nextFlight))).2.1.take 64)) (hfits : h.fits v = true)
    (hcheck : h.check = dCheck v) (hbad : s.descBad b d = false) (hlen : h.len ≤ dExtentLen v * 256)
    (hlock : s.lockedByOther b d Caller.rosog = false) (hwait : dWriteWait v = false) (hopen : dOpen v = false)
    (hreaders : dReaders v = 0) (hpath : ∀ g ∈ s.flights, g.onPath b (20 + n) = false) :
    ∃ f, f ∈ (s.launch (s.restoreFlight b d n)).flights ∧ f.id = s.nextFlight ∧ f.restore = true ∧ f.phase = .writing b d ∧
      f.units = [⟨.flume, b, n⟩] ∧ dOpen ((s.launch (s.restoreFlight b d n)).descOf b d) = true ∧
      (s.launch (s.restoreFlight b d n)).restores = s.restores := by
  have hf : (s.restoreFlight b d n).id = s.nextFlight ∧ (s.restoreFlight b d n).phase = .run ∧
      (s.restoreFlight b d n).plan = [.record 0, .write b d 0 0 0] ∧ (s.restoreFlight b d n).opened = [] ∧
      (s.restoreFlight b d n).caller = Caller.rosog ∧ (s.restoreFlight b d n).turnout = 20 + n ∧
      (s.restoreFlight b d n).arrival = none ∧ (s.restoreFlight b d n).restore = true ∧ (s.restoreFlight b d n).made = none ∧
      (s.restoreFlight b d n).basin = b ∧ (s.restoreFlight b d n).units = [⟨.flume, b, n⟩] ∧ (s.restoreFlight b d n).dead = [] :=
    ⟨rfl, rfl, rfl, rfl, rfl, rfl, rfl, rfl, rfl, rfl, rfl, rfl⟩
  rw [State.launch_eq]
  generalize s.restoreFlight b d n = f at *
  obtain ⟨hid, hrun, hplan, hopened, hcall, hturn, harr, hrestore, hmade, hbasin, hunits, hdead⟩ := hf
  have hadded : s.StackAlike (s.added f) := ⟨rfl, rfl, rfl, rfl, rfl, rfl, rfl, rfl, fun _ _ => rfl⟩
  obtain ⟨-, hsame⟩ := State.stackRead_alike hadded a 256 (some (.flight f.id))
  obtain ⟨w, tile, payload, bad, hrecord, honlyRead, hpayload⟩ := State.recordStep_sound (s := s.added f) (h := h) hrestore hplan hbasin
    hv ha ((hadded.stackFree a 5440).trans hfree) (by rw [hsame, hid]; exact hread) (by rw [hsame, hid]; exact hh) hfits hcheck
  have hgid : (f.withRecord ⟨roleRec, 0, tile, payload, v, bad⟩ [.write b d 0 0 0]).id = s.nextFlight := hid
  obtain ⟨m, hmake, hmlen⟩ := State.makeOnce_restore (t := w.putFlight (f.withRecord ⟨roleRec, 0, tile, payload, v, bad⟩ [.write b d 0 0 0]))
    (b := b) (d := d) (x := ⟨roleRec, 0, tile, payload, v, bad⟩) (plan := [.write b d 0 0 0]) hrestore hmade harr ⟨rfl, rfl⟩
  have hg : (f.withRecord ⟨roleRec, 0, tile, payload, v, bad⟩ [.write b d 0 0 0]).phase = .run ∧
      (f.withRecord ⟨roleRec, 0, tile, payload, v, bad⟩ [.write b d 0 0 0]).plan = [.write b d 0 0 0] ∧
      (f.withRecord ⟨roleRec, 0, tile, payload, v, bad⟩ [.write b d 0 0 0]).opened = [] ∧
      (f.withRecord ⟨roleRec, 0, tile, payload, v, bad⟩ [.write b d 0 0 0]).caller = Caller.rosog ∧
      (f.withRecord ⟨roleRec, 0, tile, payload, v, bad⟩ [.write b d 0 0 0]).turnout = 20 + n ∧
      (f.withRecord ⟨roleRec, 0, tile, payload, v, bad⟩ [.write b d 0 0 0]).restore = true ∧
      (f.withRecord ⟨roleRec, 0, tile, payload, v, bad⟩ [.write b d 0 0 0]).units = [⟨.flume, b, n⟩] ∧
      (f.withRecord ⟨roleRec, 0, tile, payload, v, bad⟩ [.write b d 0 0 0]).arrival = none :=
    ⟨hrun, rfl, hopened, hcall, hturn, hrestore, hunits, harr⟩
  generalize f.withRecord ⟨roleRec, 0, tile, payload, v, bad⟩ [.write b d 0 0 0] = g at *
  obtain ⟨hgrun, hgplan, hgopened, hgcall, hgturn, hgrestore, hgunits, hgarr⟩ := hg
  obtain ⟨hmat, hscreen, hreduce⟩ : g.isMatrix = false ∧ g.isScreen = false ∧ g.isReduce = false := by
    simp [Flight.isMatrix, Flight.isScreen, Flight.isReduce, Flight.isOp, hgarr, hgrestore]
  have hmust : g.mustCompare 0 m = false := by simp [Flight.mustCompare, hmat, hscreen, Flight.isOp, hgrestore]
  have hflights := State.putFlight_launched (s := s) (t := w) hnum (congrArg State.flights honlyRead :) hid hgid
  have hfound := State.flight?_launched hnum hgid hflights
  have hgate : (w.putFlight g).gateWrite b d g m.bytes.length false = .grant := by
    have hdesc : (w.putFlight g).descOf b d = v := (congrArg (State.descOf · b d) honlyRead :).trans hv.symm
    have hbad' : (w.putFlight g).descBad b d = false := (congrArg (State.descBad · b d) honlyRead :).trans hbad
    have hlock' : (w.putFlight g).lockedByOther b d Caller.rosog = false :=
      (congrArg (State.lockedByOther · b d Caller.rosog) honlyRead :).trans hlock
    have hfit : ¬ m.bytes.length > dExtentLen v * 256 := by
      rw [hmlen]
      simp only at *
      omega
    simp [State.gateWrite, hdesc, hbad', hgcall, hfit, hlock', hwait, hopen, hreaders]
  have hpathfree : (w.putFlight g).pathTaken g b = false :=
    State.pathTaken_of_free (s := s) (by rw [hgturn]; exact hpath) hflights
  obtain ⟨x, hx, hxrun⟩ := State.askWrite_blocks hfound hmake (fun e => by rw [hscreen] at e; cases e) hmust (by simp [hgopened])
    hreduce hgate hpathfree
  obtain ⟨p, honly, hgone, hrested, hopened'⟩ := State.go_writes hfound hgrun hgplan (by simp [Flight.dropped, hmat]) hmake
    (fun e => by rw [hscreen] at e; cases e) hmust (by simp [hgopened]) hreduce hgate hpathfree (hrest.launched hflights)
  have hgid' : g.id = f.id := hgid.trans hid.symm
  have hgo : (s.added f).go f.id = (w.putFlight g).go g.id := by
    rw [hgid'] at hx hfound ⊢
    exact State.go_of_record (State.flight?_launched hnum hid rfl) hrun hplan (by simp [Flight.dropped, Flight.isMatrix, hrestore]) hrecord hfound hgrun hgplan
      (by simp [Flight.dropped, hmat]) hx hxrun
  rw [hgo, State.runReady_of_atRest hrested]
  exact ⟨_, State.mem_of_flight? hgone, hgid, hgrestore, rfl, hgunits, hopened',
    (congrArg State.restores honly.rest :).trans (congrArg State.restores honlyRead :)⟩

theorem execShadowRestore_opens {v : BitVec 512} {a : Nat} {h : RecHdr} (hnum : s.Numbered) (hrest : s.AtRest)
    (hdue : s.restores.find? (fun x => x.1 = b) = some (b, d)) (hidle : s.idleUnit .flume b = some n) (hv : v = s.descOf b d)
    (ha : a = stackBase + dShadow v * 256) (hfree : s.stackFree a 5440 false = true)
    (hread : (s.stackRead a 256 (some (.flight s.nextFlight))).2.2 = [])
    (hh : h = recordParse ((s.stackRead a 256 (some (.flight s.nextFlight))).2.1.take 64)) (hfits : h.fits v = true)
    (hcheck : h.check = dCheck v) (hbad : s.descBad b d = false) (hlen : h.len ≤ dExtentLen v * 256)
    (hlock : s.lockedByOther b d Caller.rosog = false) (hwait : dWriteWait v = false) (hopen : dOpen v = false)
    (hreaders : dReaders v = 0) (hpath : ∀ g ∈ s.flights, g.onPath b (20 + n) = false) :
    ∃ u f, exec (.shadowRestore b) s = .next u ∧ f ∈ u.flights ∧ f.id = s.nextFlight ∧ f.restore = true ∧
      f.phase = .writing b d ∧ f.units = [⟨.flume, b, n⟩] ∧ dOpen (u.descOf b d) = true ∧ (b, d) ∉ u.restores := by
  have hexec : execShadowRestore b s = .next ((({ s with restores := s.restores.filter (· ≠ (b, d)) } : State).occupy
      ⟨.flume, b, n⟩ 0x11).launch (({ s with restores := s.restores.filter (· ≠ (b, d)) } : State).restoreFlight b d n)) := by
    unfold execShadowRestore
    simp only [hdue, hidle]
    rfl
  have hless : s.StackAlike { s with restores := s.restores.filter (· ≠ (b, d)) } :=
    ⟨rfl, rfl, rfl, rfl, rfl, rfl, rfl, rfl, fun _ _ => rfl⟩
  have halike := hless.trans (State.occupy_stackAlike _ b n 0x11)
  obtain ⟨-, hsame⟩ := State.stackRead_alike halike a 256 (some (.flight s.nextFlight))
  obtain ⟨f, hf, hid, hrestore, hphase, hunits, hopened, hrestores⟩ := State.restore_opens (n := n)
    (s := ({ s with restores := s.restores.filter (· ≠ (b, d)) } : State).occupy ⟨.flume, b, n⟩ 0x11) (h := h) hnum hrest hv ha
    ((halike.stackFree a 5440).trans hfree) (by rw [show (State.occupy _ _ _).nextFlight = s.nextFlight from rfl, hsame]; exact hread)
    (by rw [show (State.occupy _ _ _).nextFlight = s.nextFlight from rfl, hsame]; exact hh) hfits hcheck hbad hlen hlock hwait hopen
    hreaders hpath
  refine ⟨_, f, hexec, hf, hid, hrestore, hphase, hunits, hopened, fun hin => ?_⟩
  have hin' : (b, d) ∈ s.restores.filter (· ≠ (b, d)) := Eq.mp (congrArg ((b, d) ∈ ·) hrestores) hin
  simp at hin'

/-! ### The obligation -/

theorem maker_of_not (h : f.isMatrix = false) (l : Nat) : f.maker l = f.unit0 := by
  unfold Flight.maker
  exact if_neg (by simp [h])

theorem kind_mxe (h : f.isMatrix = true) : f.kind = .mxe := if_pos h

theorem not_matrix_of_kind (h : f.kind = .vxe ∨ f.kind = .screen) : f.isMatrix = false := by
  cases hm : f.isMatrix with
  | false => rfl
  | true =>
    rw [kind_mxe hm] at h
    rcases h with h | h <;> cases h

theorem screen_of_kind (h : f.kind = .screen) : f.isScreen = true := by
  unfold Flight.kind at h
  rw [if_neg (by simp [not_matrix_of_kind (.inr h)])] at h
  cases hs : f.isScreen with
  | true => rfl
  | false =>
    rw [hs] at h
    cases h

/-- The comparison that stands is made in a cycle that the duty leaves in (R331). -/
theorem State.compares_some {idx l : Nat} (h : s.compares f = some (idx, l)) : f.comparing? = some (idx, l) := by
  unfold State.compares at h
  split at h
  · exact h
  · cases h

theorem State.countMismatch_shows (s : State) (k : UnitKind) (b u : Nat) {r : Reg}
    (hr : (k = .mxe ∧ r = .mxeCnt b u) ∨ (k = .vxe ∧ r = .vxeCnt b u) ∨ (k = .screen ∧ r = .sxeCnt b u)) :
    (s.countMismatch k b u).rfld r 48 16 = min (s.rfld r 48 16 + 1) (2 ^ 16 - 1) := by
  rcases hr with ⟨rfl, rfl⟩ | ⟨rfl, rfl⟩ | ⟨rfl, rfl⟩ <;> exact State.rfld_bump_self _ _ _ _ (by decide)

theorem execMxeRepeat_compares {idx lane : Nat} {up : Upset} (hf : s.flight? f.id = some f) (hcmp : s.compares f = some (idx, lane))
    (hm : f.isMatrix = true) : exec (.mxeRepeat f.id lane up) s = .next (s.compareBlock f idx lane up) := by
  show execMxeRepeat f.id lane up s = _
  unfold execMxeRepeat
  simp only [hf, hcmp, hm, decide_true, Bool.and_self, if_true]
  rfl

theorem execVxeRepeat_compares {idx l vl : Nat} (hf : s.flight? f.id = some f) (hcmp : s.compares f = some (idx, l))
    (hk : f.kind = .vxe) : exec (.vxeRepeat f.id vl) s = .next (s.mismatch f idx 0 vl 0 0) := by
  show execVxeRepeat f.id vl s = _
  unfold execVxeRepeat
  simp only [hf, hcmp, hk, if_true]
  rfl

theorem execScreenRepeat_compares {idx l : Nat} (hf : s.flight? f.id = some f) (hcmp : s.compares f = some (idx, l))
    (hk : f.kind = .screen) : exec (.screenRepeat f.id) s = .next (s.mismatch f idx 0 noBit 0 0) := by
  show execScreenRepeat f.id s = _
  unfold execScreenRepeat
  simp only [hf, hcmp, hk, if_true]
  rfl

/-- A cycle that the duty leaves out compares nothing (R331). -/
theorem repeats_skipped (hf : s.flight? f.id = some f) (hduty : s.dutyAt s.cycle = false) (l vl : Nat) (up : Upset) :
    exec (.mxeRepeat f.id l up) s = .next s ∧ exec (.vxeRepeat f.id vl) s = .next s ∧ exec (.screenRepeat f.id) s = .next s := by
  have hnone : s.compares f = none := by
    unfold State.compares
    exact if_neg (by simp [hduty])
  refine ⟨?_, ?_, ?_⟩
  · show execMxeRepeat f.id l up s = _
    unfold execMxeRepeat
    simp only [hf, hnone]
    rfl
  · show execVxeRepeat f.id vl s = _
    unfold execVxeRepeat
    simp only [hf, hnone]
    rfl
  · show execScreenRepeat f.id s = _
    unfold execScreenRepeat
    simp only [hf, hnone]
    rfl

/-- The mismatch of an engine that is not an MXE, in the words of its repeat. -/
theorem State.mismatch_counts {idx lane place rows cols : Nat} {r : Reg} (hf : s.flight? f.id = some f) (hnone : f.repOf lane = none)
    (hr : (f.kind = .mxe ∧ r = .mxeCnt f.basin (f.maker lane)) ∨ (f.kind = .vxe ∧ r = .vxeCnt f.basin (f.maker lane)) ∨
      (f.kind = .screen ∧ r = .sxeCnt f.basin (f.maker lane))) :
    ∃ (t : State) (g : Flight), s.mismatch f idx lane place rows cols = t.go f.id ∧ t.flight? f.id = some g ∧ g.phase = .run ∧
      PStep.again lane ∈ g.plan ∧ g.dead = f.dead ∧ g.repeats = f.repeats + 1 ∧ g.alerts &&& 0x40 = 0x40 ∧ s.SameStores t ∧
      t.rfld r 48 16 = min (s.rfld r 48 16 + 1) (2 ^ 16 - 1) := by
  obtain ⟨t, g, hgo, hg, hrep, hsame, hcount⟩ :=
    State.mismatch_repeats (idx := idx) (place := place) (rows := rows) (cols := cols) hf hnone
  have hcounts : r.counts = true := by
    rcases hr with ⟨-, rfl⟩ | ⟨-, rfl⟩ | ⟨-, rfl⟩ <;> rfl
  exact ⟨t, g, hgo, hg, hrep.phase, hrep.plan, hrep.dead, hrep.repeats, hrep.alerts, hsame,
    (congrArg (fld · 48 16) (hcount r hcounts)).trans (s.countMismatch_shows _ _ _ hr)⟩

/-- Settles O46. -/
theorem repeatsAndRestores : Obligations.RepeatsAndRestores := by
  unfold Obligations.RepeatsAndRestores
  refine ⟨fun s f idx lane hf hcmp => ?_, fun s f l vl up hf hduty => repeats_skipped hf hduty l vl up,
    fun s b d n a v h hnum hrest hdue hidle hv ha hfree hread hh hfits hcheck hbad hlen hlock hwait hopen hreaders hpath =>
      execShadowRestore_opens hnum hrest hdue hidle hv ha hfree hread hh hfits hcheck hbad hlen hlock hwait hopen hreaders hpath⟩
  have hcomp := State.compares_some hcmp
  refine ⟨fun up ws hm hws => ?_, fun vl hkind => ?_, fun hkind => ?_⟩
  · have hexec := execMxeRepeat_compares (up := up) hf hcmp hm
    subst hws
    refine ⟨fun hpass => ?_, fun hfail => ?_⟩
    · obtain ⟨t, g, hgo, hshows⟩ := State.comparePass_passes hf hm lane (upsetWords up (laneWords f lane))
      refine ⟨t, g, hexec.trans ?_, hshows⟩
      rw [← hgo]
      unfold State.compareBlock
      simp only [hpass, List.isEmpty_nil, if_true]
    · obtain ⟨place, rows, cols, hmis⟩ : ∃ place rows cols, s.compareBlock f idx lane up = s.mismatch f idx lane place rows cols := by
        unfold State.compareBlock
        simp only [List.isEmpty_iff, hfail, if_false]
        exact ⟨_, _, _, rfl⟩
      rw [hmis] at hexec
      refine ⟨fun hnone => ?_, fun r hrep hfails hshared hopened => ?_⟩
      · obtain ⟨t, g, hgo, hshows⟩ := State.mismatch_counts (idx := idx) (place := place) (rows := rows) (cols := cols) hf hnone
          (.inl ⟨kind_mxe hm, rfl⟩)
        exact ⟨t, g, hexec.trans (congrArg _ hgo), hshows⟩
      · obtain ⟨t, hgo, hg, hsame⟩ := State.mismatch_ends (place := place) (rows := rows) (cols := cols) hf hrep (.inl hfails)
          hopened hcomp (fun _ => rfl)
        exact ⟨t, _, hexec.trans (congrArg _ hgo), hg, Flight.failAt_dead_of_matrix (f := f.repeated lane) hm hshared _ _, hsame⟩
  · have hexec := execVxeRepeat_compares (vl := vl) hf hcmp hkind
    have hm := not_matrix_of_kind (.inl hkind)
    refine ⟨fun hnone => ?_, fun r hrep hfails hopened => ?_⟩
    · obtain ⟨t, g, hgo, hshows⟩ := State.mismatch_counts (idx := idx) (place := vl) (rows := 0) (cols := 0) hf hnone
        (.inr (.inl ⟨hkind, rfl⟩))
      rw [maker_of_not hm] at hshows
      exact ⟨t, g, hexec.trans (congrArg _ hgo), hshows⟩
    · obtain ⟨t, hgo, hg, hsame⟩ := State.mismatch_ends (lane := 0) (place := vl) (rows := 0) (cols := 0) hf hrep (.inl hfails)
        hopened hcomp (fun h => by rw [hm] at h; cases h)
      exact ⟨t, _, hexec.trans (congrArg _ hgo), hg, Flight.failAt_dead_of_not (f := f.repeated 0) hm _ _ _, hsame⟩
  · have hexec := execScreenRepeat_compares hf hcmp hkind
    have hm := not_matrix_of_kind (.inr hkind)
    refine ⟨fun hnone => ?_, fun r hrep hfails hopened => ?_⟩
    · obtain ⟨t, g, hgo, hshows⟩ := State.mismatch_counts (idx := idx) (place := noBit) (rows := 0) (cols := 0) hf hnone
        (.inr (.inr ⟨hkind, rfl⟩))
      rw [maker_of_not hm] at hshows
      exact ⟨t, g, hexec.trans (congrArg _ hgo), hshows⟩
    · obtain ⟨t, hgo, hg, hsame⟩ := State.mismatch_ends (lane := 0) (place := noBit) (rows := 0) (cols := 0) hf hrep
        (.inr ⟨hfails, screen_of_kind hkind⟩) hopened hcomp (fun h => by rw [hm] at h; cases h)
      exact ⟨t, _, hexec.trans (congrArg _ hgo), hg, Flight.failAt_dead_of_not (f := f.repeated 0) hm _ _ _, hsame⟩

end Sys2Proof.Machine
end

section
set_option Elab.async false -- the whole text is compiled in one process, within a fixed memory
/-! SUPPORT. What a write's end lands, records and counts (R45, R48, R77, R105, R151). -/
namespace Sys2Proof.Machine

variable {s t u : State} {f g : Flight} {b d : Nat}

/-! ### Words read and landed -/

theorem State.setW1c_onlyWork (s : State) (r : Reg) (m : Word64) : s.OnlyWork (s.setW1c r m) := rfl

theorem State.putReg_onlyWork (s : State) (r : Reg) (v : Word64) : s.OnlyWork (s.putReg r v) := rfl

theorem State.eccLog_onlyWork (s : State) (b kind bank row r c turnout : Nat) : s.OnlyWork (s.eccLog b kind bank row r c turnout) := by
  unfold State.eccLog
  split
  · exact .refl s
  · exact (s.putReg_onlyWork _ _).trans (State.setW1c_onlyWork _ _ _)

theorem State.noteFinding_onlyWork (s : State) (b pb row : Nat) (rd : Reader) (x : Finding) : s.OnlyWork (s.noteFinding b pb row rd x) := by
  unfold State.noteFinding
  split
  · exact .refl s
  · exact (((s.bump_onlyWork _ _ _ _).trans (State.bump_onlyWork _ _ _ _ _)).trans (State.putFld_onlyWork _ _ _ _ _)).trans
      (State.putFld_onlyWork _ _ _ _ _)
  · exact ((s.bump_onlyWork _ _ _ _).trans (State.eccLog_onlyWork _ _ _ _ _ _ _ _)).trans (State.post_onlyWork _ _)

theorem State.readWord_onlyWork (s : State) (b w : Nat) (rd : Reader) : s.OnlyWork (s.readWord b w rd).1 :=
  s.noteFinding_onlyWork _ _ _ _ _

theorem State.storePhys_onlyWork (s : State) (b pb prow : Nat) (bs : List Byte) (dev : BitVec 48) :
    s.OnlyWork (s.storePhys b pb prow bs dev) := by
  have hfold : ∀ v : State, v.OnlyWork ((List.range 8).foldl (fun (t : State) i => t.putReg (.bsnFlipData b i) 0) v) := fun v =>
    foldl_keeps (v.OnlyWork ·) _ (fun t i h => h.trans (t.putReg_onlyWork _ _)) _ _ (.refl v)
  unfold State.storePhys
  simp only
  split
  · refine State.OnlyWork.trans (State.OnlyWork.trans ?_ (hfold _)) ((State.putFld_onlyWork _ _ _ _ _).trans (State.setW1c_onlyWork _ _ _))
    rfl
  · rfl

theorem State.storeRow_onlyWork (s : State) (b bank row : Nat) (bs : List Byte) (dev : BitVec 48) :
    s.OnlyWork (s.storeRow b bank row bs dev) := by
  unfold State.storeRow
  simp only
  split
  · exact ((s.storePhys_onlyWork _ _ _ _ _).trans (State.storePhys_onlyWork _ _ _ _ _ _)).trans rfl
  · exact s.storePhys_onlyWork _ _ _ _ _

theorem State.landWords_onlyWork (s : State) (b w : Nat) (bs : List Byte) (skip : List Nat) : s.OnlyWork (s.landWords b w bs skip) := by
  refine foldl_keeps (s.OnlyWork ·) _ (fun t i h => ?_) _ _ (.refl s)
  split
  · exact h
  · exact h.trans (t.storeRow_onlyWork _ _ _ _ _)

theorem State.landSum_onlyWork (s : State) (b w : Nat) (bs : List Byte) (bad : Bool) : s.OnlyWork (s.landSum b w bs bad) := by
  unfold State.landSum
  simp only
  split
  · exact (s.storeRow_onlyWork _ _ _ _ _).trans (State.bump_onlyWork _ _ _ _ _)
  · exact s.storeRow_onlyWork _ _ _ _ _

theorem State.oldWords_onlyWork (s : State) (b base len : Nat) (rd : Reader) (got : List (Nat × List Byte × Bool)) :
    s.OnlyWork (s.oldWords b base len rd got).1 := by
  refine foldl_keeps (fun x : State × List Byte × List Bool => s.OnlyWork x.1) _ (fun x i h => ?_) _ _ (.refl s)
  obtain ⟨v, bs, bad⟩ := x
  simp only
  cases got.find? fun x => decide (x.1 = base * 4 + i) with
  | some x => exact h
  | none => exact State.OnlyWork.trans h (v.readWord_onlyWork b (base * 4 + i) rd)

theorem State.reduceEnd_onlyWork (s : State) (f : Flight) (b d role idx : Nat) : s.OnlyWork (s.reduceEnd f b d role idx).1 := by
  have hold := s.oldWords_onlyWork b (dExtentBase (s.descOf b d)) (dPayloadLen (s.descOf b d)) ⟨1, f.turnout⟩ f.got
  unfold State.reduceEnd
  simp only
  generalize s.oldWords b (dExtentBase (s.descOf b d)) (dPayloadLen (s.descOf b d)) ⟨1, f.turnout⟩ f.got = x at *
  obtain ⟨v, bs, bad⟩ := x
  have hland := foldl_keeps (s.OnlyWork ·)
    (fun (s' : State) i => if f.landed.contains (dExtentBase (s.descOf b d) * 4 + i) then s'
      else s'.landSum b (dExtentBase (s.descOf b d) * 4 + i) (payloadWord (f.sums (s.descOf b d) role idx bs).bytes i) (bad.getD i false))
    (fun t i h => by
      split
      · exact h
      · exact h.trans (t.landSum_onlyWork _ _ _ _)) (List.range (cdiv (f.sums (s.descOf b d) role idx bs).bytes.length 64)) v hold
  split
  · exact hland.trans (State.bump_onlyWork _ _ _ _ _)
  · exact hland

theorem State.landRest_onlyWork (s : State) (f : Flight) (b d role idx : Nat) (p : PendingClose) (m : Made) :
    s.OnlyWork (s.landRest f b d role idx p m).1 := by
  unfold State.landRest
  split
  · exact s.reduceEnd_onlyWork f b d role idx
  · exact s.landWords_onlyWork _ _ _ _

theorem State.cameOut_onlyWork (s : State) (f : Flight) (b d : Nat) (p : PendingClose) (m : Made) (wrong : List (Nat × Byte)) :
    s.OnlyWork (s.cameOut f b d p m wrong).1 := by
  unfold State.cameOut
  simp only
  split
  · split
    · exact s.landWords_onlyWork _ _ _ _
    · exact .refl s
  · split
    · exact .refl s
    · exact s.landWords_onlyWork _ _ _ _

/-! ### The descriptor a close leaves -/

theorem dGen_dNextGen (v : BitVec 512) : dGen (dNextGen v) = dGen v + 1 := by
  refine BitVec.eq_of_toNat_eq ?_
  rw [BitVec.toNat_add, dGen, ← fld_eq_extract, dNextGen, fld_setFld_self _ _ _ _ (by decide), dGen, ← fld_eq_extract]
  rfl

theorem dGen_setFld_ne {v : BitVec 512} {lo n k : Nat} (h : 256 + 32 ≤ lo ∨ lo + n ≤ 256) : dGen (setFld v lo n k) = dGen v := by
  refine BitVec.eq_of_toNat_eq ?_
  rw [dGen, dGen, ← fld_eq_extract, ← fld_eq_extract, fld_setFld_ne _ _ _ _ _ _ h]

/-- A closed tile is neither open nor broken nor stale; its length and check are those of the write (R45). -/
theorem closeDesc_shows (v : BitVec 512) (p : PendingClose) : dOpen (closeDesc v p) = false ∧ dBroken (closeDesc v p) = false ∧
    dStale (closeDesc v p) = false ∧ dPayloadLen (closeDesc v p) = p.payloadLen % 2 ^ 13 ∧ dCheck (closeDesc v p) = p.check ∧
    dGen (closeDesc v p) = dGen v + 1 := by
  unfold closeDesc dOpen dBroken dStale dPayloadLen
  simp only
  rw [dGen_dNextGen, dNextGen]
  have hcheck : ∀ x : BitVec 512, (dCheck x).toNat = fld x 128 64 := fun x => (fld_eq_extract x 128 64).symm
  have hlt : p.check.toNat % 2 ^ 64 = p.check.toNat := Nat.mod_eq_of_lt p.check.isLt
  have hbit : ∀ (x : BitVec 512) k, k < 512 → bit (setFld x k 1 (false : Bool).toNat) k = false := fun x k hk => bit_setBit_self x hk false
  refine ⟨?_, ?_, ?_, ?_, BitVec.eq_of_toNat_eq ((hcheck _).trans ?_), congrArg (· + 1) ?_⟩ <;> unfold setBit <;> split <;>
    simp (disch := decide) only [bit_setFld_ne, fld_setFld_ne, fld_setFld_self, hbit, hlt, dGen_setFld_ne]

theorem closedBroken_shows (v : BitVec 512) :
    dOpen (dNextGen (setBit (setBit (setBit v 120 false) 121 true) 125 true)) = false ∧
      dBroken (dNextGen (setBit (setBit (setBit v 120 false) 121 true) 125 true)) = true ∧
      dStale (dNextGen (setBit (setBit (setBit v 120 false) 121 true) 125 true)) = true := by
  have hbit : ∀ (x : BitVec 512) (k : Nat) (c : Bool), k < 512 → bit (setFld x k 1 c.toNat) k = c := fun x k c hk => bit_setBit_self x hk c
  unfold dOpen dBroken dStale dNextGen setBit
  simp (disch := decide) only [bit_setFld_ne, hbit, and_self]

/-! ### What a close counts -/

theorem State.OnlyWork.ite {c : Prop} [Decidable c] (ht : s.OnlyWork t) (hu : s.OnlyWork u) : s.OnlyWork (if c then t else u) := by
  split
  · exact ht
  · exact hu

/-- A close's counts change registers; its flight keeps its name. -/
theorem State.closeAccount_shows (s : State) (f : Flight) (b d role idx lane : Nat) (m : Made) :
    s.OnlyWork (s.closeAccount f b d role idx lane m).1 ∧ (s.closeAccount f b d role idx lane m).2.id = f.id ∧
      (s.closeAccount f b d role idx lane m).1.mem = s.mem := by
  refine and_assoc.1 ⟨?_, congrArg Lasting.mem (s.lasting_closeAccount f b d role idx lane m)⟩
  unfold State.closeAccount
  extract_lets v p encoded w x unit ovr y can z done word escalated esc vxe flume
  have hw : s.OnlyWork w := .ite (s.bump_onlyWork _ _ _ _) (.refl s)
  have hx : x.id = f.id := rfl
  have hy : y.id = f.id := rfl
  clear_value y can
  have hz : z.id = f.id := by
    cases can with
    | none => exact hy
    | some e => exact (apply_ite Flight.id _ y _).trans ((ite_self y.id).trans hy)
  have hdone : s.OnlyWork done := hw.trans (State.bump_onlyWork _ _ _ _ _)
  have hescalated : s.OnlyWork escalated := hdone.trans (State.bump_onlyWork _ _ _ _ _)
  have hvxe : s.OnlyWork vxe := hw.trans (State.bump_onlyWork _ _ _ _ _)
  have hflume : s.OnlyWork flume := hw.trans (State.bump_onlyWork _ _ _ _ _)
  clear_value w x z done escalated vxe flume
  split
  · split
    · exact ⟨hw, hx⟩
    · split
      · split
        · exact ⟨hescalated, hz⟩
        · exact ⟨hdone, hz⟩
      · exact ⟨hw, hz⟩
  · split
    · exact ⟨hvxe, hx⟩
    · split
      · exact ⟨hvxe, hx⟩
      · split
        · refine ⟨hw, ?_⟩
          split <;> exact hx
        · split
          · exact ⟨hw, hx⟩
          · exact ⟨.ite (hflume.trans (State.bump_onlyWork _ _ _ _ _)) hflume, hx⟩

theorem State.endRepeats_shows (s : State) (f : Flight) : s.OnlyWork (s.endRepeats f).1 ∧ (s.endRepeats f).2.id = f.id ∧
    (s.endRepeats f).2.phase = f.phase ∧ (s.endRepeats f).1.mem = s.mem := by
  obtain ⟨hwork, hmem⟩ := foldl_keeps (fun t => s.OnlyWork t ∧ t.mem = s.mem) (fun (s : State) (r : Repeat) => s.freeUnit f r)
    (fun t r h => ⟨h.1.trans (t.freeUnit_onlyWork f r), (congrArg Lasting.mem (t.lasting_freeUnit f r)).trans h.2⟩)
    (f.rep.filter fun r => r.fails.isEmpty && (!f.isMatrix || !(f.plan.any fun st => st.lane = r.lane)) ||
      (f.dead.any fun x => x.1 = r.lane)) s ⟨.refl s, rfl⟩
  exact ⟨hwork, rfl, rfl, hmem⟩

theorem Flight.keepBufs_id (f : Flight) : f.keepBufs.id = f.id := by
  unfold Flight.keepBufs
  split
  · rfl
  · split <;> rfl

/-! ### The close of a tile -/

/-- What a close that succeeds changes of the stores and of what is due. -/
structure State.Closes (s t : State) (b d : Nat) (p : PendingClose) : Prop where
  descOf : t.descOf b d = closeDesc (s.descOf b d) p
  others : ∀ k, k ≠ dkey b d → nget t.desc 0 k = nget s.desc 0 k
  dueIncs : t.dueIncs = s.dueIncs ++ (if p.inc = 0 then [] else [⟨p.gaugeBasin, p.gauge, p.inc⟩])
  gauge : t.gauge = s.gauge

theorem State.Closes.work {p : PendingClose} (h : s.Closes t b d p) (k : t.OnlyWork u) : s.Closes u b d p where
  descOf := (k.descOf b d).trans h.descOf
  others x hx := (congrArg (nget · 0 x) k.desc).trans (h.others x hx)
  dueIncs := k.dueIncs.trans h.dueIncs
  gauge := k.gauge.trans h.gauge

theorem State.Closes.of_work {p : PendingClose} (k : s.OnlyWork t) (h : t.Closes u b d p) : s.Closes u b d p where
  descOf := h.descOf.trans (congrArg (closeDesc · p) (k.descOf b d))
  others x hx := (h.others x hx).trans (congrArg (nget · 0 x) k.desc)
  dueIncs := h.dueIncs.trans (congrArg (· ++ _) k.dueIncs)
  gauge := h.gauge.trans k.gauge

theorem State.streamClose_onlyWork (s : State) (b : Nat) (v : BitVec 512) : s.OnlyWork (s.streamClose b v) ∧ (s.streamClose b v).mem = s.mem := by
  unfold State.streamClose
  split
  · exact ⟨.refl s, rfl⟩
  · exact ⟨rfl, rfl⟩

theorem State.dueInc_eq (s : State) (b k n : Nat) :
    s.dueInc b k n = { s with dueIncs := s.dueIncs ++ if n = 0 then [] else [⟨b, k, n⟩] } := by
  unfold State.dueInc
  split
  · rw [List.append_nil]
  · rfl

theorem State.closeTile_closes (s : State) (b d : Nat) (p : PendingClose) : s.Closes (s.closeTile b d p) b d p ∧
    (s.closeTile b d p).flights = s.flights ∧ (s.closeTile b d p).mem = s.mem := by
  obtain ⟨hwork, hmem⟩ := (s.putDesc b d (closeDesc (s.descOf b d) p)).streamClose_onlyWork b (closeDesc (s.descOf b d) p)
  have hdesc : (s.closeTile b d p).desc = (s.putDesc b d (closeDesc (s.descOf b d) p)).desc := by
    rw [State.closeTile, State.dueInc_eq]
    exact hwork.desc
  have hput := State.descOf_putDesc_self s b d (closeDesc (s.descOf b d) p)
  unfold State.closeTile at hdesc ⊢
  simp only at hdesc ⊢
  rw [State.dueInc_eq] at hdesc ⊢
  refine ⟨⟨?_, fun k hk => ?_, congrArg (· ++ _) hwork.dueIncs, hwork.gauge⟩, hwork.flights, hmem⟩
  · exact (hwork.descOf b d).trans hput
  · exact (congrArg (nget · 0 k) hdesc).trans (nget_nset_ne _ _ _ hk _)

/-! ### The end of a write -/

/-- A write that lands sound closes its tile (R45). -/
theorem State.endWrite_closes {role idx lane : Nat} {wrong : List (Nat × Byte)} {p p1 p2 : PendingClose} {m m1 : Made} {s1 s2 : State}
    (hfound : s.flight? f.id = some f) (hp : f.pend = some p) (hm : f.made = some m)
    (hland : s.landRest f b d role idx p m = (s1, p1, m1)) (hout : s1.cameOut f b d p1 m1 wrong = (s2, p2)) (hsound : p2.broken = false) :
    ∃ (t : State) (g : Flight), s.endWrite f b d role idx lane wrong = (t.afterClose b d).go f.id ∧ s.Closes t b d p2 ∧
      t.flight? f.id = some g ∧ g.phase = .run ∧ t.mem = s2.mem := by
  have hwork1 : s.OnlyWork s1 := by simpa only [hland] using s.landRest_onlyWork f b d role idx p m
  have hwork2 : s1.OnlyWork s2 := by simpa only [hout] using s1.cameOut_onlyWork f b d p1 m1 wrong
  have hwork := hwork1.trans hwork2
  obtain ⟨hclose, hflights, hmem⟩ := s2.closeTile_closes b d p2
  obtain ⟨hcount, hid, hmem'⟩ := (s2.closeTile b d p2).closeAccount_shows f b d role idx lane m1
  unfold State.endWrite
  simp only [hp, hm, hland, hout, hsound, Bool.false_eq_true, if_false]
  generalize (s2.closeTile b d p2).closeAccount f b d role idx lane m1 = x at *
  obtain ⟨w, x⟩ := x
  simp only at hcount hid hmem' ⊢
  generalize hy : ({ x.keepBufs with
    plan := x.plan.drop 1, phase := .run, made := none, pend := none, passed := if x.isMatrix then x.passed else [] } : Flight) = y
  have hname : y.id = f.id := by
    rw [← hy]
    exact (Flight.keepBufs_id x).trans hid
  have hrun : y.phase = .run := by rw [← hy]
  obtain ⟨hfree, hid', hphase, hmem''⟩ := w.endRepeats_shows y
  generalize w.endRepeats y = z at *
  obtain ⟨v, z⟩ := z
  simp only at hfree hid' hphase hmem''
  have hname : z.id = f.id := hid'.trans hname
  have hput : (v.putFlight z).flight? z.id = some z := by
    refine State.flight?_putFlight (f := f) ?_
    rw [hname, hfree.flight?, hcount.flight?, State.flight?_of_flights hflights, hwork.flight?, hfound]
  rw [hname] at hput ⊢
  obtain ⟨hdesc, hothers, hincs, hgauge⟩ := ((State.Closes.of_work hwork hclose).work hcount).work hfree
  exact ⟨_, z, rfl, ⟨hdesc, hothers, hincs, hgauge⟩, hput, hphase.trans hrun, hmem''.trans (hmem'.trans hmem)⟩

/-- What a broken close changes of the stores: its tile's descriptor alone (R48). -/
structure State.Breaks (s t : State) (b d : Nat) : Prop where
  isOpen : dOpen (t.descOf b d) = false
  isBroken : dBroken (t.descOf b d) = true
  isStale : dStale (t.descOf b d) = true
  others : ∀ k, k ≠ dkey b d → nget t.desc 0 k = nget s.desc 0 k
  dueIncs : t.dueIncs = s.dueIncs
  gauge : t.gauge = s.gauge

theorem State.closeBroken_breaks (s : State) (b d : Nat) : s.Breaks (s.closeBroken b d) b d ∧ (s.closeBroken b d).mem = s.mem := by
  have heq : s.closeBroken b d = ((s.leaveTile b d).putDesc b d
      (dNextGen (setBit (setBit (setBit (s.descOf b d) 120 false) 121 true) 125 true))).bump (.bsnTileSt b) 32 16 := rfl
  obtain ⟨hopen, hbroken, hstale⟩ := closedBroken_shows (s.descOf b d)
  rw [heq]
  generalize dNextGen (setBit (setBit (setBit (s.descOf b d) 120 false) 121 true) 125 true) = v at *
  have hput := State.descOf_putDesc_self (s.leaveTile b d) b d v
  have hwork := ((s.leaveTile b d).putDesc b d v).bump_onlyWork (.bsnTileSt b) 32 16 1
  have hdesc := (hwork.descOf b d).trans hput
  have hmem : (((s.leaveTile b d).putDesc b d v).bump (.bsnTileSt b) 32 16).mem = s.mem := by simp [State.leaveTile, State.putDesc]
  refine ⟨⟨?_, ?_, ?_, fun k hk => ?_, hwork.dueIncs, hwork.gauge⟩, hmem⟩
  · rw [hdesc, hopen]
  · rw [hdesc, hbroken]
  · rw [hdesc, hstale]
  · exact (congrArg (nget · 0 k) hwork.desc).trans (nget_nset_ne _ _ _ hk v)

theorem State.carriedEvent_shows (s : State) (f : Flight) (b : Nat) : s.OnlyWork (s.carriedEvent f b) ∧ (s.carriedEvent f b).mem = s.mem := by
  refine ⟨?_, congrArg Lasting.mem (s.lasting_carriedEvent f b)⟩
  unfold State.carriedEvent
  split
  · exact s.post_onlyWork _
  · exact (s.bump_onlyWork _ _ _ _).trans (State.post_onlyWork _ _)

/-- A write whose check or reduce fails closes its tile broken (R48, R77, R151). -/
theorem State.endWrite_breaks {role idx lane : Nat} {wrong : List (Nat × Byte)} {p p1 p2 : PendingClose} {m m1 : Made} {s1 s2 : State}
    (hp : f.pend = some p) (hm : f.made = some m) (hland : s.landRest f b d role idx p m = (s1, p1, m1))
    (hout : s1.cameOut f b d p1 m1 wrong = (s2, p2)) (hbroken : p2.broken = true) :
    ∃ t : State, s.endWrite f b d role idx lane wrong = (t.afterBreak b d).go f.id ∧ s.Breaks t b d ∧ t.mem = s2.mem := by
  have hwork1 : s.OnlyWork s1 := by simpa only [hland] using s.landRest_onlyWork f b d role idx p m
  have hwork2 : s1.OnlyWork s2 := by simpa only [hout] using s1.cameOut_onlyWork f b d p1 m1 wrong
  have hwork := hwork1.trans hwork2
  obtain ⟨⟨hopen, hbrok, hstale, hothers, hincs, hgauge⟩, hmem⟩ := s2.closeBroken_breaks b d
  have hafter : ∃ u : State, (s2.closeBroken b d).OnlyWork u ∧ u.mem = (s2.closeBroken b d).mem ∧
      s.endWrite f b d role idx lane wrong = ((u.putFlight (f.failAt lane idx .checkFail)).afterBreak b d).go f.id := by
    unfold State.endWrite
    simp only [hp, hm, hland, hout, hbroken, if_true]
    obtain ⟨hev, hevmem⟩ := (s2.closeBroken b d).carriedEvent_shows f b
    split
    · exact ⟨_, hev, hevmem, rfl⟩
    · exact ⟨_, .refl _, rfl, rfl⟩
  obtain ⟨u, hu, humem, heq⟩ := hafter
  refine ⟨_, heq, ⟨?_, ?_, ?_, fun k hk => ?_, ?_, ?_⟩, humem.trans hmem⟩
  · exact (congrArg dOpen (hu.descOf b d)).trans hopen
  · exact (congrArg dBroken (hu.descOf b d)).trans hbrok
  · exact (congrArg dStale (hu.descOf b d)).trans hstale
  · exact (congrArg (nget · 0 k) hu.desc).trans ((hothers k hk).trans (congrArg (nget · 0 k) hwork.desc))
  · exact hu.dueIncs.trans (hincs.trans hwork.dueIncs)
  · exact hu.gauge.trans (hgauge.trans hwork.gauge)

end Sys2Proof.Machine
end

section
set_option Elab.async false -- the whole text is compiled in one process, within a fixed memory
/-! SUPPORT. The end of a tile's write and of a tile's read (R45–R48, R81, R105, R242–R244). -/
namespace Sys2Proof.Machine

variable {s t u : State} {f g : Flight} {b d : Nat}

/-! ### TILE_CLOSE -/

/-- A write none of whose bursts is to come ends. -/
theorem execTileClose_ends {b' d' role i l : Nat} {rest : List PStep} {wrong : List (Nat × Byte)} (hfound : s.flight? f.id = some f)
    (hphase : f.phase = .writing b d) (hplan : f.plan = .write b' d' role i l :: rest) (hdue : s.burstsDue f.id = false)
    (hbeats : ∀ m, f.made = some m → s.startsBeats f (dExtentBase (s.descOf b d)) (s.writeLen f b d m) = false)
    (hsame : ∀ m, f.made = some m → f.isMatrix = true → f.pend.isSome = true → m.readoutDiffers (s.descOf b d) wrong = false) :
    exec (.tileClose f.id wrong) s = .next ((s.endWrite f b d role i l wrong).runReady) := by
  have hclose : s.tileCloseOf f.id wrong = (s.endWrite f b d role i l wrong).runReady := by
    unfold State.tileCloseOf
    simp only [hfound, hphase, hplan, hdue, Bool.false_eq_true, if_false]
  show execTileClose f.id wrong s = _
  unfold execTileClose
  simp only [hfound, hphase, hplan, hclose]
  cases hm : f.made with
  | none => rfl
  | some m =>
    have hnot : ¬ (f.isMatrix = true ∧ f.pend.isSome = true ∧ m.readoutDiffers (s.descOf b d) wrong = true) := fun ⟨h1, h2, h3⟩ => by
      rw [hsame m hm h1 h2] at h3
      cases h3
    simp only
    rw [if_neg (by simp [hdue, hbeats m hm]), if_neg hnot]
    rfl

/-- A matrix tile whose bytes came out of another balance is not closed. -/
theorem execTileClose_differs {b' d' role i l : Nat} {rest : List PStep} {wrong : List (Nat × Byte)} {m : Made}
    (hfound : s.flight? f.id = some f) (hphase : f.phase = .writing b d) (hplan : f.plan = .write b' d' role i l :: rest)
    (hdue : s.burstsDue f.id = false) (hmade : f.made = some m)
    (hbeats : s.startsBeats f (dExtentBase (s.descOf b d)) (s.writeLen f b d m) = false) (hm : f.isMatrix = true)
    (hpend : f.pend.isSome = true) (hdiff : m.readoutDiffers (s.descOf b d) wrong = true) :
    exec (.tileClose f.id wrong) s = .next (s.readoutMismatch f b d i l m wrong) := by
  show execTileClose f.id wrong s = _
  unfold execTileClose
  simp only [hfound, hphase, hplan, hmade]
  rw [if_neg (by simp [hdue, hbeats]), if_pos ⟨hm, hpend, hdiff⟩]
  rfl

/-! ### A readout difference (R105) -/

theorem State.storePhys_counts {r : Reg} (hr : r.counts = true) (s : State) (b pb prow : Nat) (bs : List Byte) (dev : BitVec 48) :
    (s.storePhys b pb prow bs dev).reg r = s.reg r := by
  have hdata (i : Nat) : r ≠ .bsnFlipData b i := fun e => by subst e; cases hr
  have hchk : r ≠ .bsnFlipChk b := fun e => by subst e; cases hr
  have hcfg : r ≠ .bsnFlipCfg b := fun e => by subst e; cases hr
  unfold State.storePhys
  refine State.reg_of_ite ?_ rfl
  dsimp only
  rw [State.reg_setW1c_ne _ hcfg, State.reg_putFld_ne _ hcfg, State.reg_foldl (fun t i => State.reg_putReg_ne t (hdata i) 0),
    State.reg_putReg_ne _ hchk]
  rfl

theorem State.storeRow_counts {r : Reg} (hr : r.counts = true) (s : State) (b bank row : Nat) (bs : List Byte) (dev : BitVec 48) :
    (s.storeRow b bank row bs dev).reg r = s.reg r := by
  have hfirst := s.storePhys_counts hr b (s.physBank b bank) (s.physRow b (s.physBank b bank) row) bs dev
  cases hcopy : s.copyingTo b bank with
  | none => simpa only [State.storeRow, hcopy] using hfirst
  | some sp =>
    simp only [State.storeRow, hcopy]
    exact (State.storePhys_counts hr _ b sp _ bs dev).trans hfirst

theorem State.landWords_counts {r : Reg} (hr : r.counts = true) (s : State) (b w : Nat) (bs : List Byte) (skip : List Nat) :
    (s.landWords b w bs skip).reg r = s.reg r := by
  refine foldl_keeps (fun t : State => t.reg r = s.reg r) _ (fun t i h => ?_) _ _ rfl
  split
  · exact h
  · exact (State.storeRow_counts hr _ _ _ _ _ _).trans h

/-- A readout difference is counted and its block repeated, its tile open still. -/
theorem State.readoutMismatch_repeats {i l : Nat} {wrong : List (Nat × Byte)} {m : Made} (hfound : s.flight? f.id = some f)
    (hm : f.isMatrix = true) (hnone : f.repOf l = none) :
    ∃ (t : State) (g : Flight), s.readoutMismatch f b d i l m wrong = t.go f.id ∧ t.flight? f.id = some g ∧ (b, d) ∈ g.opened ∧
      PStep.again l ∈ g.plan ∧ l ∉ g.passed ∧ g.repeats = f.repeats + 1 ∧ t.desc = s.desc ∧ t.gauge = s.gauge ∧
      t.rfld (.mxeCnt f.basin (f.maker l)) 48 16 = min (s.rfld (.mxeCnt f.basin (f.maker l)) 48 16 + 1) (2 ^ 16 - 1) := by
  unfold State.readoutMismatch
  have hland := s.landWords_onlyWork b (dExtentBase (s.descOf b d) * 4) (m.outBytes wrong) []
  have hcnt := State.landWords_counts (r := .mxeCnt f.basin (f.maker l)) rfl s b (dExtentBase (s.descOf b d) * 4) (m.outBytes wrong) []
  generalize s.landWords b (dExtentBase (s.descOf b d) * 4) (m.outBytes wrong) [] = v at *
  generalize hx : ({ f with
    phase := .run, made := none, pend := none, opened := (b, d) :: f.opened
    passed := f.passed.filter (· ≠ l), accs := f.accs.filter fun x => x.1 ≠ l } : Flight) = x
  obtain ⟨hid, hopened, hpassed, hreps, hrep, hkind, hbasin, hmaker⟩ : x.id = f.id ∧ x.opened = (b, d) :: f.opened ∧
      x.passed = f.passed.filter (· ≠ l) ∧ x.repeats = f.repeats ∧ x.repOf l = f.repOf l ∧ x.kind = f.kind ∧ x.basin = f.basin ∧
      x.maker l = f.maker l := by
    rw [← hx]
    exact ⟨rfl, rfl, rfl, rfl, rfl, rfl, rfl, rfl⟩
  have hput : (v.putFlight x).flight? x.id = some x := State.flight?_putFlight (f := f) (by rw [hid, hland.flight?, hfound])
  obtain ⟨t, g, hgo, hg, hrepeats, hsame, hcount⟩ := State.mismatch_repeats (s := v.putFlight x) (idx := i) (place := noBit) (rows := 0)
    (cols := 0) hput (hrep.trans hnone)
  obtain ⟨-, -, hdesc, hgauge, -⟩ := hsame
  rw [hid] at hgo hg
  simp only at hgo ⊢
  refine ⟨t, g, hgo, hg, ?_, hrepeats.plan, ?_, hrepeats.repeats.trans (congrArg (· + 1) hreps), hdesc.trans hland.desc,
    hgauge.trans hland.gauge, ?_⟩
  · rw [hrepeats.opened, hopened]
    exact List.mem_cons_self
  · rw [hrepeats.passed, hpassed]
    simp
  · have hmis := (v.putFlight x).countMismatch_shows f.kind f.basin (f.maker l) (r := .mxeCnt f.basin (f.maker l))
      (.inl ⟨kind_mxe hm, rfl⟩)
    have hcount' := hcount (.mxeCnt f.basin (f.maker l)) rfl
    rw [hkind, hbasin, hmaker] at hcount'
    exact (congrArg (fld · 48 16) hcount').trans (hmis.trans (congrArg (fun w : Word64 => min (fld w 48 16 + 1) (2 ^ 16 - 1)) hcnt))

/-! ### What the end of a read changes -/

theorem State.readPayload_onlyWork (s : State) (b base len : Nat) (rd : Reader) (want : Nat → Bool)
    (got : List (Nat × List Byte × Bool)) : s.OnlyWork (s.readPayload b base len rd want got).1 := by
  refine foldl_keeps (fun x : State × List Byte × Bool => s.OnlyWork x.1) _ (fun x i h => ?_) _ _ (.refl s)
  obtain ⟨v, bs, bad⟩ := x
  simp only
  split
  · exact h
  · split
    · exact h
    · cases got.find? fun x => decide (x.1 = base * 4 + i) with
      | some x => exact h
      | none => exact State.OnlyWork.trans h (v.readWord_onlyWork b (base * 4 + i) rd)

theorem State.predict_onlyWork (s : State) (b n : Nat) (v : BitVec 512) : s.OnlyWork (s.predict b n v) := rfl

theorem State.stagePair_onlyWork (s : State) (f : Flight) (idx b n lane : Nat) : s.OnlyWork (s.stagePair f idx b n lane) := rfl

theorem State.skipAccount_shows (s : State) (f : Flight) (v : BitVec 512) (lanes : List (Nat × List Nat × List Nat)) :
    s.OnlyWork (s.skipAccount f v lanes).1 ∧ (s.skipAccount f v lanes).2.id = f.id ∧ (s.skipAccount f v lanes).2.plan = f.plan := by
  refine foldl_keeps (fun x : State × Flight => s.OnlyWork x.1 ∧ x.2.id = f.id ∧ x.2.plan = f.plan) _ (fun x l h => ?_) _ _
    ⟨.refl s, rfl, rfl⟩
  obtain ⟨w, y⟩ := x
  obtain ⟨hw, hid, hplan⟩ := h
  refine ⟨(State.OnlyWork.trans (State.OnlyWork.trans hw (w.bump_onlyWork _ _ _ _)) (State.bump_onlyWork _ _ _ _ _)).trans
    (State.predict_onlyWork _ _ _ _), ?_, ?_⟩
  · exact (apply_ite Flight.id _ y _).trans ((ite_self y.id).trans hid)
  · exact (apply_ite Flight.plan _ y _).trans ((ite_self y.plan).trans hplan)

/-- A tile delivered goes into its flight's buffers (R62, R81, R147). -/
theorem State.deliver_shows (s : State) (f : Flight) (b role idx lane : Nat) (v : BitVec 512) (bs : List Byte) (dec : Decoded)
    (lanes : List (Nat × List Nat × List Nat)) : ∃ (w : State) (incs : List DueInc) (x : Flight),
    s.deliver f b role idx lane v bs dec lanes = .delivered { w with dueIncs := incs } x ∧ s.OnlyWork w ∧ w.mem = s.mem ∧
      x.id = f.id ∧ x.phase = .run ∧ x.plan = f.plan.drop 1 := by
  have hskip := s.skipAccount_shows f v lanes
  have hskipmem := congrArg Lasting.mem (s.lasting_skipAccount f v lanes)
  generalize hsk : s.skipAccount f v lanes = k at *
  obtain ⟨w, x⟩ := k
  obtain ⟨hw, hid, hplan⟩ := hskip
  have hfirst : ∃ (w : State) (x : Flight), (if f.isMatrix && role = roleA then s.skipAccount f v lanes else (s, f)) = (w, x) ∧
      s.OnlyWork w ∧ w.mem = s.mem ∧ x.id = f.id ∧ x.plan = f.plan := by
    split
    · exact ⟨w, x, hsk, hw, hskipmem, hid, hplan⟩
    · exact ⟨s, f, rfl, .refl s, rfl, rfl, rfl⟩
  obtain ⟨w, x, hk, hw, hmem, hid, hplan⟩ := hfirst
  unfold State.deliver
  extract_lets isA skips
  have hk' : (if isA = true then s.skipAccount f v lanes else (s, f)) = (w, x) := hk
  rw [hk']
  simp -zeta only
  extract_lets y staged alerted vxe alerted' z due
  have hbump : ∀ w : State, s.OnlyWork w ∧ w.mem = s.mem → s.OnlyWork (w.bump (.bsnFmtSt b) 32 16) ∧
      (w.bump (.bsnFmtSt b) 32 16).mem = s.mem :=
    fun w h => ⟨h.1.trans (w.bump_onlyWork _ _ _ _), (congrArg Lasting.mem (w.lasting_bump (.bsnFmtSt b) 32 16 1)).trans h.2⟩
  have hstaged : s.OnlyWork staged ∧ staged.mem = s.mem := by
    unfold staged
    split
    · exact ⟨hw.trans (w.stagePair_onlyWork _ _ _ _ _), hmem⟩
    · exact ⟨hw, hmem⟩
  have halerted : s.OnlyWork alerted ∧ alerted.mem = s.mem := by
    unfold alerted
    split
    · exact hbump _ hstaged
    · exact hstaged
  have halerted' : s.OnlyWork alerted' ∧ alerted'.mem = s.mem := by
    unfold alerted'
    split
    · exact hbump _ halerted
    · exact halerted
  have hdue : ∃ incs, due = { alerted' with dueIncs := incs } := by
    unfold due
    split
    · exact ⟨_, alerted'.dueInc_eq _ _ _⟩
    · exact ⟨alerted'.dueIncs, rfl⟩
  obtain ⟨incs, hdue⟩ := hdue
  refine ⟨alerted', incs, _, congrArg (ReadEnd.delivered · _) hdue, halerted'.1, halerted'.2, hid, rfl, ?_⟩
  exact congrArg (List.drop 1) hplan

/-- A flight whose read met an index beyond its operand, or did not. -/
def Flight.indexNoted (f : Flight) (index first : Bool) : Flight :=
  { f with indexed := f.indexed || index, fmtAlerts := f.fmtAlerts + first.toNat }

/-- A read to be made again (R243). -/
def Flight.reread (f : Flight) : Flight := { f with retries := 1, asked := [], got := [] }

/-- The index of a tile read, counted once. -/
def State.indexNoted (s : State) (b : Nat) (first : Bool) : State := if first then s.bump (.bsnFmtSt b) 16 16 else s

theorem State.indexNoted_shows (s : State) (b : Nat) (first : Bool) : s.OnlyWork (s.indexNoted b first) ∧
    (s.indexNoted b first).mem = s.mem ∧ (s.indexNoted b first).rfld (.bsnChkSt b) 48 16 = s.rfld (.bsnChkSt b) 48 16 := by
  unfold State.indexNoted
  split
  · exact ⟨s.bump_onlyWork _ _ _ _, congrArg Lasting.mem (s.lasting_bump (.bsnFmtSt b) 16 16 1),
      State.rfld_bump_ne _ _ _ _ _ _ _ _ (.inl (by simp))⟩
  · exact ⟨.refl s, rfl, rfl⟩

theorem State.OnlyWork.releaseReader (h : s.OnlyWork t) (b d : Nat) : (s.releaseReader b d).OnlyWork (t.releaseReader b d) := by
  have hput := congrArg (State.putDesc · b d (setFld (s.descOf b d) 336 8 (dReaders (s.descOf b d) - 1))) h
  unfold State.releaseReader
  rw [h.descOf b d]
  exact hput

/-- A reader released: READERS falls by one, and nothing else of the descriptor changes (R46). -/
theorem State.releaseReader_shows (s : State) (b d : Nat) : dReaders ((s.releaseReader b d).descOf b d) = dReaders (s.descOf b d) - 1 ∧
    dStale ((s.releaseReader b d).descOf b d) = dStale (s.descOf b d) := by
  have hput : (s.releaseReader b d).descOf b d = setFld (s.descOf b d) 336 8 (dReaders (s.descOf b d) - 1) :=
    State.descOf_putDesc_self s b d _
  have hlt : dReaders (s.descOf b d) < 2 ^ 8 := fld_lt _ _ _
  rw [hput]
  refine ⟨?_, bit_setFld_ne _ _ _ _ _ (by decide)⟩
  rw [dReaders, fld_setFld_self _ _ _ _ (by decide), Nat.mod_eq_of_lt (by omega)]

section
variable {role i l : Nat} {rows : List Nat} {v : BitVec 512} {bs : List Byte} {bad : Bool} {dec : Decoded}
  (hv : v = s.descOf b d) (hrows : rows = unfetchedRows v (if f.isMatrix && role = roleA then s.lanePlan f l v else []))
  (hread : s.readPayload b (dExtentBase v) (dPayloadLen v) f.reader (fun w => rows.isEmpty || fetchedWord v rows w) f.got = (t, bs, bad))
  (hdec : dec = decodeTile (f.path (elemOf (dFormat v))) v bs)
include hv hrows hread hdec

theorem State.readEnd_shows :
    (bad = false → dec.index = true → f.pkt.strict = true → f.restore = false → f.isMatrix = false → f.indexed = false →
      s.readEnd f b d role i l = .ended ((t.indexNoted b true).releaseReader b d) ((f.indexNoted true true).failAt l i .indexRange)) ∧
    (bad = false → (f.pkt.strict = true → dec.index = false ∧ role ≠ roleSel) →
      (if rows.isEmpty then dec.tile else clearRows dec.tile rows).checkOf (s.weightClass b v) = dCheck v →
      ∃ (w : State) (incs : List DueInc) (x : Flight), s.readEnd f b d role i l = .delivered { w with dueIncs := incs } x ∧
        (t.releaseReader b d).OnlyWork w ∧ w.mem = t.mem ∧ x.id = f.id ∧ x.phase = .run ∧ x.plan = f.plan.drop 1) ∧
    ((bad = true ∨ (if rows.isEmpty then dec.tile else clearRows dec.tile rows).checkOf (s.weightClass b v) ≠ dCheck v) →
      (f.pkt.strict = true → dec.index = false ∧ role ≠ roleSel) → f.retries = 0 → ∃ index first,
      s.readEnd f b d role i l =
        .again (((t.indexNoted b first).bump (.bsnChkSt b) 48 16).putFlight (f.indexNoted index first).reread)) := by
  subst hv hrows
  unfold State.readEnd
  extract_lets v weight lanes rows
  have hread' : s.readPayload b (dExtentBase v) (dPayloadLen v) f.reader (fun w => rows.isEmpty || fetchedWord v rows w) f.got =
    (t, bs, bad) := hread
  rw [hread']
  simp -zeta only
  extract_lets dec0 dec1 beyond index first w x sound counted failed
  have hdec0 : dec0 = dec := hdec.symm
  have hindex : dec1.index = dec.index := by
    rw [← hdec0]
    exact (apply_ite Decoded.index _ dec0 _).trans (ite_self _)
  have htile : dec1.tile = if rows.isEmpty then dec.tile else clearRows dec.tile rows := by
    rw [← hdec0]
    exact apply_ite Decoded.tile _ dec0 _
  have hw : w = t.indexNoted b first := rfl
  have hx : x = f.indexNoted index first := rfl
  have hlax : (f.pkt.strict = true → dec.index = false ∧ role ≠ roleSel) →
      ¬ (index = true ∧ x.pkt.strict = true ∧ ((!x.isMatrix) = true ∨ role = roleB)) := by
    rintro h ⟨h1, h2, -⟩
    obtain ⟨hno, hrole⟩ := h h2
    simp [index, beyond, hindex, hno, hrole] at h1
  refine ⟨fun hbad hi hstrict hrestore hm hnot => ?_, fun hbad hlaxly hsound => ?_, fun hbroken hlaxly hretries => ?_⟩
  · have hindex' : index = true := by simp [index, hbad, hrestore, hindex, hi]
    have hfirst : first = true := by simp [first, hindex', hnot]
    rw [if_pos ⟨hindex', hstrict, .inl (by rw [show x.isMatrix = f.isMatrix from rfl, hm]; rfl)⟩, hw, hx, hindex', hfirst]
  · rw [if_neg (hlax hlaxly), if_pos ⟨by rw [hbad]; rfl, htile ▸ hsound⟩]
    obtain ⟨q, incs, y, heq, hq, hmem, hid, hphase, hplan⟩ := counted.deliver_shows x b role i l v bs dec1 lanes
    obtain ⟨hnoted, hnotedmem, -⟩ := t.indexNoted_shows b first
    have hcounted : (t.releaseReader b d).OnlyWork counted ∧ counted.mem = t.mem := by
      have hrel := hnoted.releaseReader b d
      unfold counted
      split
      · exact ⟨State.OnlyWork.trans hrel (State.bump_onlyWork _ _ _ _ _),
          (congrArg Lasting.mem (sound.lasting_bump (.bsnChkSt b) 32 16 1)).trans hnotedmem⟩
      · exact ⟨hrel, hnotedmem⟩
    exact ⟨q, incs, y, heq, hcounted.1.trans hq, hmem.trans hcounted.2, hid, hphase, hplan⟩
  · have hnot : ¬ ((!bad) = true ∧ dec1.tile.checkOf weight = dCheck v) := by
      rintro ⟨h1, h2⟩
      rcases hbroken with h | h
      · rw [h] at h1
        cases h1
      · exact h (htile ▸ h2)
    rw [if_neg (hlax hlaxly), if_neg hnot, if_pos (show x.retries = 0 from hretries)]
    exact ⟨index, first, rfl⟩

end

/-! ### TILE_READ_END -/

/-- The state in which a read ends: an aborted one has withdrawn its bursts (R244). -/
def State.readEnds (s : State) (f : Flight) : State := if f.aborted then s.dropBursts f.id else s

theorem State.readEnds_shows (s : State) (f : Flight) (b d : Nat) (v : BitVec 512) : (s.readEnds f).flights = s.flights ∧
    (s.readEnds f).descOf b d = s.descOf b d ∧ (s.readEnds f).desc = s.desc ∧ (s.readEnds f).mem = s.mem ∧
    (s.readEnds f).gauge = s.gauge ∧ (s.readEnds f).weightClass b v = s.weightClass b v := by
  unfold State.readEnds
  split <;> exact ⟨rfl, rfl, rfl, rfl, rfl, rfl⟩

theorem not_waiting (hends : f.aborted = true ∨
    s.burstsDue f.id = false ∧ s.startsBeats f (dExtentBase (s.descOf b d)) (dPayloadLen (s.descOf b d)) = false) :
    ¬ (((s.burstsDue f.id || s.startsBeats f (dExtentBase (s.descOf b d)) (dPayloadLen (s.descOf b d))) && !f.aborted) = true) := by
  rcases hends with h | ⟨h1, h2⟩
  · simp [h]
  · simp [h1, h2]

section
variable {b' d' role i l : Nat} {rest : List PStep} (hfound : s.flight? f.id = some f) (hphase : f.phase = .reading b d)
  (hplan : f.plan = .read b' d' role i l :: rest)
  (hends : f.aborted = true ∨ s.burstsDue f.id = false ∧ s.startsBeats f (dExtentBase (s.descOf b d)) (dPayloadLen (s.descOf b d)) = false)
include hfound hphase hplan hends

/-- A read that is delivered goes on, and what waits for the last read of its tile with it. -/
theorem execTileReadEnd_delivered {x : Flight} (h : (s.readEnds f).readEnd f b d role i l = .delivered u x) :
    exec (.tileReadEnd f.id) s = .next (((if dReaders ((u.putFlight x).descOf b d) = 0 then (u.putFlight x).afterReads b d
      else u.putFlight x).go f.id).runReady) := by
  have hend : (if f.aborted = true then s.dropBursts f.id else s).readEnd f b d role i l = .delivered u x := h
  refine congrArg Host.Outcome.next ?_
  unfold State.tileReadEndOf
  simp only [hfound, hphase, hplan]
  rw [if_neg (not_waiting hends), hend]

theorem execTileReadEnd_again (h : (s.readEnds f).readEnd f b d role i l = .again u)
    (hg : u.flight? f.id = some g) (hgp : g.phase = .reading b d) : exec (.tileReadEnd f.id) s = .next u := by
  have hend : (if f.aborted = true then s.dropBursts f.id else s).readEnd f b d role i l = .again u := h
  refine congrArg Host.Outcome.next ?_
  unfold State.tileReadEndOf
  simp only [hfound, hphase, hplan]
  rw [if_neg (not_waiting hends), hend]
  simp only [hg]
  exact if_pos (by simp [hgp])

theorem execTileReadEnd_ended {x : Flight} (h : (s.readEnds f).readEnd f b d role i l = .ended u x)
    (hstale : dStale (u.descOf b d) = false) :
    exec (.tileReadEnd f.id) s = .next (((if dReaders ((u.putFlight x).descOf b d) = 0 then (u.putFlight x).afterReads b d
      else u.putFlight x).go f.id).runReady) := by
  have hend : (if f.aborted = true then s.dropBursts f.id else s).readEnd f b d role i l = .ended u x := h
  have hlive : ¬ dStale ((u.putFlight x).descOf b d) = true := by simpa using hstale
  refine congrArg Host.Outcome.next ?_
  unfold State.tileReadEndOf
  simp only [hfound, hphase, hplan]
  rw [if_neg (not_waiting hends), hend]
  simp only [if_neg hlive]

end

/-- A tile is free of reads once the last of them is released. -/
theorem ite_readers {α : Type} {v v' : BitVec 512} (h : dReaders v' = dReaders v - 1) (x y : α) :
    (if dReaders v' = 0 then x else y) = if dReaders v ≤ 1 then x else y := by
  refine if_congr ?_ rfl rfl
  omega

theorem Flight.failAt_fmtAlerts (f : Flight) (lane idx : Nat) (st : Status) : (f.failAt lane idx st).fmtAlerts = f.fmtAlerts := by
  unfold Flight.failAt
  simp only
  split <;> rfl

/-! ### The obligation -/

/-- Settles O27. -/
theorem tilesEnd : Obligations.TilesEnd := by
  unfold Obligations.TilesEnd
  refine ⟨fun s f b d role i l b' d' rest wrong hfound hphase hplan hdue => ⟨?_, ?_, ?_⟩, ?_⟩
  · intro p p1 p2 m m1 s1 s2 hp hm hbeats hsame hland hout
    have hexec := execTileClose_ends (wrong := wrong) hfound hphase hplan hdue
      (fun m' h => by obtain rfl := Option.some.inj (hm.symm.trans h); exact hbeats)
      (fun m' h h' _ => by obtain rfl := Option.some.inj (hm.symm.trans h); exact hsame h')
    refine ⟨fun hsound => ?_, fun hbroken => ?_⟩
    · obtain ⟨t, g, heq, ⟨hdesc, hothers, hincs, hgauge⟩, hg, hrun, hmem⟩ :=
        State.endWrite_closes (lane := l) hfound hp hm hland hout hsound
      obtain ⟨h1, h2, h3, h4, h5, h6⟩ := closeDesc_shows (s.descOf b d) p2
      rw [heq] at hexec
      refine ⟨t, g, hexec, hdesc, ?_⟩
      rw [hdesc]
      exact ⟨h1, h2, h3, h4, h5, h6, hothers, hincs, hg, hrun, hmem, hgauge⟩
    · obtain ⟨t, heq, ⟨h1, h2, h3, hothers, hincs, hgauge⟩, hmem⟩ := State.endWrite_breaks (lane := l) hp hm hland hout hbroken
      rw [heq] at hexec
      exact ⟨t, hexec, h1, h2, h3, hothers, hincs, hmem, hgauge⟩
  · intro m hm hpend hmade hnone hbeats hdiff
    obtain ⟨t, g, heq, hshows⟩ := State.readoutMismatch_repeats (b := b) (d := d) (i := i) (wrong := wrong) (m := m) hfound hm hnone
    have hexec := execTileClose_differs hfound hphase hplan hdue hmade hbeats hm hpend hdiff
    rw [heq] at hexec
    exact ⟨t, g, hexec, hshows⟩
  · intro hnone hbeats
    have hexec := execTileClose_ends (wrong := wrong) hfound hphase hplan hdue hbeats (fun m _ _ h => by rw [hnone] at h; cases h)
    have hend : s.endWrite f b d role i l wrong = (s.putFlight (f.failAt l i .tileBroken)).go f.id := by
      unfold State.endWrite
      simp only [hnone]
    rw [hend] at hexec
    exact hexec
  · intro s s0 t f b d role i l b' d' rest rows v bs bad dec hfound hphase hplan hv hends hs0 hrows hread hdec
    obtain ⟨hflights, hdesc0, hdesc, hmem, hgauge, hweight⟩ := s.readEnds_shows f b d v
    obtain rfl : s0 = s.readEnds f := hs0
    have hwork := (s.readEnds f).readPayload_onlyWork b (dExtentBase v) (dPayloadLen v) f.reader
      (fun w => rows.isEmpty || fetchedWord v rows w) f.got
    have htmem := congrArg Lasting.mem ((s.readEnds f).lasting_readPayload b (dExtentBase v) (dPayloadLen v) f.reader
      (fun w => rows.isEmpty || fetchedWord v rows w) f.got)
    rw [hread] at hwork htmem
    obtain ⟨hstrict, hdelivered, hagain⟩ := State.readEnd_shows (i := i) (hv.trans hdesc0.symm) hrows hread hdec
    rw [hweight] at hdelivered hagain
    have hends' := hv ▸ hends
    refine ⟨fun hbad hi hst hrestore hm hnot hstale => ?_, fun hbad hlax hsound => ?_, fun hbroken hlax hretries => ?_⟩
    · have hend := hstrict hbad hi hst hrestore hm hnot
      have hid : ((f.indexNoted true true).failAt l i .indexRange).id = f.id := Flight.failAt_id _ _ _ _
      have hdead : ((f.indexNoted true true).failAt l i .indexRange).dead = [(0, .indexRange)] :=
        Flight.failAt_dead_of_not (f := f.indexNoted true true) hm _ _ _
      have halerts : ((f.indexNoted true true).failAt l i .indexRange).fmtAlerts = f.fmtAlerts + 1 := Flight.failAt_fmtAlerts _ _ _ _
      generalize (f.indexNoted true true).failAt l i .indexRange = x at *
      obtain ⟨hnoted, hnotedmem, -⟩ := t.indexNoted_shows b true
      have hall := hwork.trans hnoted
      obtain ⟨hreaders, hlive⟩ := (t.indexNoted b true).releaseReader_shows b d
      rw [(hall.descOf b d).trans (hdesc0.trans hv.symm)] at hreaders hlive
      have hexec := execTileReadEnd_ended hfound hphase hplan hends' hend (hlive.trans hstale)
      rw [ite_readers (v' := (((t.indexNoted b true).releaseReader b d).putFlight x).descOf b d) hreaders] at hexec
      have hput : (((t.indexNoted b true).releaseReader b d).putFlight x).flight? x.id = some x := by
        refine State.flight?_putFlight (f := f) ?_
        rw [hid]
        exact (hall.flight? f.id).trans ((State.flight?_of_flights hflights f.id).trans hfound)
      rw [hid] at hput
      exact ⟨_, x, hexec, hput, hdead, halerts, hnotedmem.trans (htmem.trans hmem), State.rfld_bump_self t (.bsnFmtSt b) 16 16 (by decide)⟩
    · obtain ⟨w, incs, x, hend, hw, hwmem, hid, hrun, hxplan⟩ := hdelivered hbad hlax hsound
      have hexec := execTileReadEnd_delivered hfound hphase hplan hends' hend
      obtain ⟨hreaders, -⟩ := t.releaseReader_shows b d
      rw [(hwork.descOf b d).trans (hdesc0.trans hv.symm)] at hreaders
      have hreaders' : dReaders ((({ w with dueIncs := incs } : State).putFlight x).descOf b d) = dReaders v - 1 :=
        (congrArg dReaders (hw.descOf b d)).trans hreaders
      rw [ite_readers hreaders'] at hexec
      have hput : (({ w with dueIncs := incs } : State).putFlight x).flight? x.id = some x := by
        refine State.flight?_putFlight (f := f) ?_
        rw [hid]
        exact (hw.flight? f.id).trans ((hwork.flight? f.id).trans ((State.flight?_of_flights hflights f.id).trans hfound))
      rw [hid] at hput
      exact ⟨_, x, hexec, hreaders', hput, hrun, hxplan.trans (congrArg (List.drop 1) hplan), hwmem.trans (htmem.trans hmem),
        hw.gauge.trans (hwork.gauge.trans hgauge)⟩
    · obtain ⟨index, first, hend⟩ := hagain hbroken hlax hretries
      obtain ⟨hnoted, hnotedmem, hnotedchk⟩ := t.indexNoted_shows b first
      have hbump := (t.indexNoted b first).bump_onlyWork (.bsnChkSt b) 48 16 1
      have hall := (hwork.trans hnoted).trans hbump
      have hput := State.flight?_putFlight (s := (t.indexNoted b first).bump (.bsnChkSt b) 48 16) (g := (f.indexNoted index first).reread)
        (f := f) ((hall.flight? f.id).trans ((State.flight?_of_flights hflights f.id).trans hfound))
      have hexec := execTileReadEnd_again hfound hphase hplan hends' hend hput hphase
      refine ⟨_, _, hexec, hput, rfl, hall.desc.trans hdesc, ?_, hall.gauge.trans hgauge, ?_⟩
      · exact (congrArg Lasting.mem ((t.indexNoted b first).lasting_bump (.bsnChkSt b) 48 16 1)).trans
          (hnotedmem.trans (htmem.trans hmem))
      · exact (State.rfld_bump_self _ (.bsnChkSt b) 48 16 (by decide)).trans (congrArg (fun n => min (n + 1) (2 ^ 16 - 1)) hnotedchk)

end Sys2Proof.Machine
end

section
set_option Elab.async false -- the whole text is compiled in one process, within a fixed memory
/-! SUPPORT. `MODEL_LOAD` reads its package, and decides as it would have before the reads (R224, R374). -/
namespace Sys2Proof.Machine

variable {s t u : State} {b c : Nat}

/-! ### Reads change counts and logs alone -/

/-- The registers that reads of basin and stack memory count and log in. -/
def Reg.readCounts : Reg → Bool
  | .bsnEccSt _ | .bsnEccLog _ | .bsnBankCorr _ _ | .sphIntSt _ | .sphRdCnt _ => true
  | _ => false

/-- From `s` to `t` memory has been read, and nothing else happened. -/
structure State.OnlyReads (s t : State) : Prop where
  rest : s.OnlyStackRead t
  reg : ∀ r : Reg, r.readCounts = false → t.reg r = s.reg r

theorem State.OnlyReads.refl (s : State) : s.OnlyReads s := ⟨rfl, fun _ _ => rfl⟩

theorem State.OnlyReads.trans (h : s.OnlyReads t) (k : t.OnlyReads u) : s.OnlyReads u :=
  ⟨h.rest.trans k.rest, fun r hr => (k.reg r hr).trans (h.reg r hr)⟩

theorem Reg.ne_of_readCounts {r r' : Reg} (h : r.readCounts = false) (h' : r'.readCounts = true) : r ≠ r' := by
  rintro rfl
  rw [h] at h'
  cases h'

theorem State.bump_onlyReads {r : Reg} (hr : r.readCounts = true) (s : State) (lo n k : Nat) : s.OnlyReads (s.bump r lo n k) :=
  ⟨s.bump_onlyStackRead r lo n k, fun _ hx => s.reg_bump_ne (Reg.ne_of_readCounts hx hr) lo n k⟩

theorem State.putFld_onlyReads {r : Reg} (hr : r.readCounts = true) (s : State) (lo n v : Nat) : s.OnlyReads (s.putFld r lo n v) :=
  ⟨rfl, fun _ hx => s.reg_putFld_ne (Reg.ne_of_readCounts hx hr) lo n v⟩

theorem State.post_onlyReads (s : State) (e : Event) : s.OnlyReads (s.post e) := by
  refine ⟨?_, fun r _ => s.reg_of_post e r⟩
  unfold State.post
  split <;> rfl

theorem State.logged_onlyReads (s : State) (b : Nat) (v m : Word64) :
    s.OnlyReads ((s.putReg (.bsnEccLog b) v).setW1c (.bsnEccLog b) m) := by
  refine ⟨rfl, fun x hx => ?_⟩
  have hne : x ≠ .bsnEccLog b := Reg.ne_of_readCounts hx rfl
  exact (State.reg_setW1c_ne _ hne _).trans (s.reg_putReg_ne hne _)

theorem State.eccLog_onlyReads (s : State) (b kind bank row r n turnout : Nat) : s.OnlyReads (s.eccLog b kind bank row r n turnout) := by
  unfold State.eccLog
  split
  · exact .refl s
  · exact s.logged_onlyReads b _ _

theorem State.readWord_onlyReads (s : State) (b w : Nat) (rd : Reader) : s.OnlyReads (s.readWord b w rd).1 := by
  show s.OnlyReads (s.noteFinding b _ _ rd _)
  unfold State.noteFinding
  split
  · exact .refl s
  · exact (((State.bump_onlyReads rfl s _ _ _).trans (State.bump_onlyReads rfl _ _ _ _)).trans (State.putFld_onlyReads rfl _ _ _ _)).trans
      (State.putFld_onlyReads rfl _ _ _ _)
  · exact ((State.bump_onlyReads rfl s _ _ _).trans (State.eccLog_onlyReads _ _ _ _ _ _ _ _)).trans (State.post_onlyReads _ _)

theorem State.readRange_onlyReads (s : State) (b off len : Nat) (rd : Reader) : s.OnlyReads (s.readRange b off len rd).1 := by
  refine foldl_keeps (fun x : State × List Byte × Bool => s.OnlyReads x.1) _ (fun x i h => ?_) _ _ (.refl s)
  exact h.trans (State.readWord_onlyReads _ _ _ _)

theorem State.siphonEvent_onlyReads (s : State) (sph block kind : Nat) : s.OnlyReads (s.siphonEvent sph block kind) :=
  s.post_onlyReads _

theorem State.damage_onlyReads (s : State) (sph block : Nat) : s.OnlyReads (s.damage sph block) := ⟨rfl, fun _ _ => rfl⟩

theorem State.verifyBlock_onlyReads (s : State) (sph block : Nat) (f1 f2 : Bool) : s.OnlyReads (s.verifyBlock sph block f1 f2).1 := by
  have hevent : ∀ (v : State) lo kind, v.OnlyReads ((v.bump (.sphIntSt sph) lo 16).siphonEvent sph block kind) := fun v lo kind =>
    (State.bump_onlyReads rfl v _ _ _).trans (State.siphonEvent_onlyReads _ _ _ _)
  unfold State.verifyBlock
  simp only
  split
  · exact .refl s
  · split
    · exact (State.bump_onlyReads rfl s _ _ _).trans (hevent _ 32 0)
    · refine State.OnlyReads.trans ?_ (hevent _ 16 1)
      split
      · exact (State.bump_onlyReads rfl s _ _ _).trans (State.damage_onlyReads _ _ _)
      · exact State.bump_onlyReads rfl s _ _ _

theorem State.readBlock_onlyReads (s : State) (sph block : Nat) (f1 f2 : Bool) : s.OnlyReads (s.readBlock sph block f1 f2).1 := by
  have hcount : s.OnlyReads (s.bumpWrap (.sphRdCnt sph) 0 64) := State.putFld_onlyReads rfl s _ _ _
  unfold State.readBlock
  split
  · exact (State.bump_onlyReads rfl s _ _ _).trans (State.siphonEvent_onlyReads _ _ _ _)
  · split
    · exact .refl s
    · split
      · exact .refl s
      · exact hcount.trans (State.verifyBlock_onlyReads _ _ _ _ _)

theorem State.stackRead_onlyReads (s : State) (a len : Nat) (who : Option SphSrc) : s.OnlyReads (s.stackRead a len who).1 := by
  rw [State.stackRead_eq]
  refine foldl_keeps (fun x : State × List Byte × List Nat => s.OnlyReads x.1) _ (fun x p h => h.trans ?_) _ _ (.refl s)
  unfold stackPiece
  split
  · exact .refl x.1
  · next sph phys _ =>
    have hmoved : x.1.OnlyReads (x.1.movedBlock who sph (phys / 256)) := by
      unfold State.movedBlock
      split
      · exact .refl x.1
      · exact ⟨rfl, fun _ _ => rfl⟩
    have hread := hmoved.trans (State.readBlock_onlyReads _ sph (phys / 256) (x.1.macOf who sph (phys / 256)).1
      (x.1.macOf who sph (phys / 256)).2)
    split
    · next h => rwa [h] at hread
    · next h => rwa [h] at hread

theorem State.pkgRead_onlyReads (s : State) (a len : Nat) : s.OnlyReads (s.pkgRead a len).1 := by
  unfold State.pkgRead
  split
  · split
    · exact s.readRange_onlyReads _ _ _ _
    · exact .refl s
  · exact s.stackRead_onlyReads _ _ _

/-! ### What reads leave as it was -/

section
variable (h : s.OnlyReads t)
include h

theorem State.OnlyReads.cfg : t.cfg = s.cfg := (congrArg State.cfg h.rest :)
theorem State.OnlyReads.ctx (c : Nat) : t.ctx c = s.ctx c := (congrArg (State.ctx · c) h.rest :)
theorem State.OnlyReads.levees (b : Nat) : t.levees b = s.levees b := by
  unfold State.levees
  simp only [h.reg (.bsnLeveeA _ _) rfl, h.reg (.bsnLeveeB _ _) rfl]

theorem State.OnlyReads.regions : t.regions = s.regions := by
  unfold State.regions
  simp only [h.reg (.sphRgnA _) rfl, h.reg (.sphRgnB _) rfl]

theorem State.OnlyReads.pkgRange (c a len : Nat) : t.pkgRange c a len = s.pkgRange c a len := by
  unfold State.pkgRange State.bytesInLevee State.inLevee State.stackRange State.stackReach
  simp only [h.cfg, h.levees, h.regions]

theorem State.OnlyReads.pkgHeader (c slot : Nat) (hd body : List Byte) : t.pkgHeader c slot hd body = s.pkgHeader c slot hd body :=
  (congrArg (State.pkgHeader · c slot hd body) h.rest :)

theorem State.OnlyReads.loadDescBad (ts : List PkgTile) : t.loadDescBad ts = s.loadDescBad ts :=
  (congrArg (State.loadDescBad · ts) h.rest :)

theorem State.OnlyReads.descAllotted (c b d : Nat) : t.descAllotted c b d = s.descAllotted c b d := by
  unfold State.descAllotted
  rw [h.levees]

theorem State.OnlyReads.freeLevee (b : Nat) : t.freeLevee b = s.freeLevee b := by
  unfold State.freeLevee
  simp only [h.reg (.bsnLeveeA _ _) rfl]

theorem State.OnlyReads.weightBase (c : Nat) (ts : List PkgTile) (bs : List Nat) (pkg len : Nat) :
    t.weightBase c ts bs pkg len = s.weightBase c ts bs pkg len := by
  unfold State.weightBase State.loadTaken
  simp only [h.cfg, h.ctx, h.levees, State.rfld, h.reg (.ringCmd _) rfl, h.reg (.ringRpl _) rfl]

theorem State.OnlyReads.fitStack (islocal : Bool) (units : Nat) : t.fitStack islocal units = s.fitStack islocal units := by
  unfold State.fitStack State.newSet State.siphonsUp State.freeRegion State.takenUnits State.takenPages
  simp only [h.cfg, h.regions, State.rfld, h.reg (.sphSt _) rfl, h.reg (.sphRgnA _) rfl] <;> rfl

end

end Sys2Proof.Machine
end

section
set_option Elab.async false -- the whole text is compiled in one process, within a fixed memory
/-! SUPPORT. `MODEL_LOAD` places a sound package (R224, R373–R375). -/
namespace Sys2Proof.Machine

variable {s t u : State} {b d c : Nat}

/-! ### The decision -/

/-- Where the shadow records of a package go, if it asks for them. -/
def State.shadowFor (s : State) (p : Packet) (ts : List PkgTile) : Option (Nat × Nat × Nat) :=
  if p.pkgShadow && !ts.isEmpty then s.fitStack false (shadowUnits ts) else none

/-- A sound package is placed (R224). -/
theorem State.loadModel_places {h : Handed} {p : Packet} {hd body : List Byte} {len base : Nat} {ts : List PkgTile} (hp : p = h.pkt)
    (hclear : p.reservedClear pkgFields = true) (halign : p.pkgAddr % 256 = 0) (hbuilt : t.unbuilt p.pkgMask = false)
    (hdesc : p.pkgDesc ≤ 16319) (hrange : t.pkgRange h.ctx p.pkgAddr 256 = none) (hretired : t.maskRetired p.pkgMask = false)
    (hretiring : ∀ b ∈ bitsSet p.pkgMask 64, b ∉ t.retiring) (hfree : t.pkgFree p.pkgAddr 256 = true)
    (hroom : p.pkgShadow = true → t.streamRoom = true) (hread : (t.pkgRead p.pkgAddr 256).2.2 = true)
    (hhd : hd = (t.pkgRead p.pkgAddr 256).2.1)
    (hlen : len = 256 + leNat ((hd.drop 16).take 8) + 16 * cdiv (leNat ((hd.drop 16).take 8)) (2 ^ 20))
    (hrange' : t.pkgRange h.ctx p.pkgAddr len = none) (hfree' : (t.pkgRead p.pkgAddr 256).1.pkgFree p.pkgAddr len = true)
    (hread' : ((t.pkgRead p.pkgAddr 256).1.pkgRead (p.pkgAddr + 256) (len - 256)).2.2 = true)
    (hheader : t.pkgHeader h.ctx p.pkgSlot hd body = true) (htiles : pkgTiles p.pkgDesc (leNat ((hd.drop 12).take 4)) body = some ts)
    (hsound : ∀ x ∈ ts, x.sound = true ∧ bit p.pkgMask x.basin = true ∧ t.descAllotted h.ctx x.basin x.desc = true)
    (hshadow : p.pkgShadow = true → t.cfg.siphons ≠ 0 ∧ (ts = [] ∨ (t.fitStack false (shadowUnits ts)).isSome = true))
    (hgood : t.loadDescBad ts = false) (hlevee : ∀ b ∈ bitsSet p.pkgMask 64, needIn ts b = 0 ∨ (t.freeLevee b).isSome)
    (hbase : t.weightBase h.ctx ts (bitsSet p.pkgMask 64) p.pkgAddr len = some base) (hsec : t.rfld (.secCtxSt h.ctx) 4 4 = 0) :
    ∃ v : State, t.OnlyReads v ∧ t.loadModel h true true body =
      (v.placeModel p h.ctx base ts (bitsSet p.pkgMask 64) (t.shadowFor p ts), some (Outcome.words ts.length
        ((ts.map (·.granules)).foldl (· + ·) 0) base (mostIn ts (bitsSet p.pkgMask 64)))) := by
  have hfirst := t.pkgRead_onlyReads p.pkgAddr 256
  have hstep : ¬ ((!p.reservedClear pkgFields || decide (p.pkgAddr % 256 ≠ 0) || t.unbuilt p.pkgMask || (p.pkgShadow && decide (t.cfg.siphons = 0))
      || decide (p.pkgDesc > 16319)) = true) := by
    have hsiphons : (p.pkgShadow && decide (t.cfg.siphons = 0)) = false := by
      cases hs : p.pkgShadow with
      | false => rfl
      | true => simp [(hshadow hs).1]
    simp [hclear, halign, hbuilt, hsiphons, hdesc]
  have hready : ¬ (t.maskRetired p.pkgMask = true ∨ ((bitsSet p.pkgMask 64).any t.retiring.contains) = true) := by
    simpa [hretired] using hretiring
  have hwait : ¬ ((!t.pkgFree p.pkgAddr 256) = true ∨ p.pkgShadow = true ∧ (!t.streamRoom) = true) := by
    rintro (h | ⟨h, h'⟩)
    · simp [hfree] at h
    · simp [hroom h] at h'
  subst hp
  unfold State.loadModel
  simp only
  rw [if_neg hstep]
  simp only [hrange]
  rw [if_neg hready, if_neg hwait]
  generalize t.pkgRead h.pkt.pkgAddr 256 = r at *
  obtain ⟨w, hd', ok⟩ := r
  simp only at hhd hfirst hread hfree' hread'
  subst hhd hread
  simp only [← hlen, hfirst.pkgRange, hrange', hfree', Bool.not_true, Bool.false_eq_true, if_false, if_true]
  have hsecond := hfirst.trans (w.pkgRead_onlyReads (h.pkt.pkgAddr + 256) (len - 256))
  generalize w.pkgRead (h.pkt.pkgAddr + 256) (len - 256) = r at *
  obtain ⟨v, rest, ok⟩ := r
  simp only at hread' hsecond
  subst hread'
  have hnone : ts.find? (!·.sound) = none := List.find?_eq_none.2 fun x hx => by simp [(hsound x hx).1]
  have hallot : ¬ (ts.any fun x => !bit h.pkt.pkgMask x.basin || !v.descAllotted h.ctx x.basin x.desc) = true := by
    simp only [List.any_eq_true, not_exists, not_and]
    intro x hx
    obtain ⟨-, hbit, hdesc⟩ := hsound x hx
    simp [hbit, hsecond.descAllotted, hdesc]
  have hfits : ((!h.pkt.pkgShadow || ts.isEmpty || (t.shadowFor h.pkt ts).isSome) &&
      (bitsSet h.pkt.pkgMask 64).all fun b => decide (needIn ts b = 0) || (v.freeLevee b).isSome) = true := by
    rw [Bool.and_eq_true]
    constructor
    · cases hs : h.pkt.pkgShadow with
      | false => rfl
      | true =>
        obtain ⟨-, hempty | hsome⟩ := hshadow hs
        · simp [hempty]
        · unfold State.shadowFor
          cases ts.isEmpty <;> simp [hs, hsome]
    · rw [List.all_eq_true]
      intro b hb
      rw [hsecond.freeLevee]
      simpa using hlevee b hb
  have hsec' : ¬ v.rfld (.secCtxSt h.ctx) 4 4 ≠ 0 := by
    rw [State.rfld, hsecond.reg (.secCtxSt h.ctx) rfl]
    exact fun hne => hne hsec
  refine ⟨v, hsecond, ?_⟩
  simp only [hsecond.pkgHeader, hheader, Bool.and_self, if_true, htiles]
  rw [if_neg (by rw [hsecond.loadDescBad, hgood]; decide), if_neg hallot]
  simp only [hsecond.weightBase, hbase, hnone, hsecond.fitStack]
  rw [show (if (h.pkt.pkgShadow && !ts.isEmpty) = true then t.fitStack false (shadowUnits ts) else none) = t.shadowFor h.pkt ts from rfl]
  simp only [hfits, if_neg hsec']

/-! ### What is placed leaves descriptors, contexts and answers -/

/-- Registers, events and stored bytes may differ, and nothing else. -/
def State.OnlyPlaces (s t : State) : Prop :=
  { t with
    regs := s.regs, fresh := s.fresh, sram := s.sram, events := s.events, lostEvents := s.lostEvents, mem := s.mem
    memChk := s.memChk, spareCopies := s.spareCopies, siphons := s.siphons, badBlocks := s.badBlocks, stack := s.stack
    pages := s.pages, combining := s.combining, macs := s.macs } = s

theorem State.OnlyPlaces.refl (s : State) : s.OnlyPlaces s := rfl

theorem State.OnlyPlaces.trans (h : s.OnlyPlaces t) (k : t.OnlyPlaces u) : s.OnlyPlaces u := by
  have hk := congrArg (fun v : State => { v with
    regs := s.regs, fresh := s.fresh, sram := s.sram, events := s.events, lostEvents := s.lostEvents, mem := s.mem
    memChk := s.memChk, spareCopies := s.spareCopies, siphons := s.siphons, badBlocks := s.badBlocks, stack := s.stack
    pages := s.pages, combining := s.combining, macs := s.macs }) k
  exact hk.trans h

theorem State.OnlyStackRead.places (h : s.OnlyStackRead t) : s.OnlyPlaces t := by
  have hk := congrArg (fun v : State => { v with
    sram := s.sram, mem := s.mem, memChk := s.memChk, spareCopies := s.spareCopies, stack := s.stack
    pages := s.pages, combining := s.combining, macs := s.macs }) h
  exact hk

theorem State.OnlyPlaces.ite {p : Prop} [Decidable p] (ht : s.OnlyPlaces t) (hu : s.OnlyPlaces u) : s.OnlyPlaces (if p then t else u) := by
  split
  · exact ht
  · exact hu

theorem State.putReg_places (s : State) (r : Reg) (v : Word64) : s.OnlyPlaces (s.putReg r v) := rfl

theorem State.setW1c_places (s : State) (r : Reg) (m : Word64) : s.OnlyPlaces (s.setW1c r m) := rfl

theorem State.bump_places (s : State) (r : Reg) (lo n k : Nat) : s.OnlyPlaces (s.bump r lo n k) := (s.bump_onlyStackRead r lo n k).places

theorem State.storePhys_places (s : State) (b pb prow : Nat) (bs : List Byte) (dev : BitVec 48) :
    s.OnlyPlaces (s.storePhys b pb prow bs dev) := by
  have hfold : ∀ v : State, v.OnlyPlaces ((List.range 8).foldl (fun (t : State) i => t.putReg (.bsnFlipData b i) 0) v) := fun v =>
    foldl_keeps (v.OnlyPlaces ·) _ (fun t i h => h.trans (t.putReg_places _ _)) _ _ (.refl v)
  unfold State.storePhys
  simp only
  split
  · refine State.OnlyPlaces.trans (State.OnlyPlaces.trans ?_ (hfold _)) ((State.putReg_places _ _ _).trans (State.setW1c_places _ _ _))
    rfl
  · rfl

theorem State.storeRow_places (s : State) (b bank row : Nat) (bs : List Byte) (dev : BitVec 48) :
    s.OnlyPlaces (s.storeRow b bank row bs dev) := by
  unfold State.storeRow
  simp only
  split
  · exact ((s.storePhys_places _ _ _ _ _).trans (State.storePhys_places _ _ _ _ _ _)).trans rfl
  · exact s.storePhys_places _ _ _ _ _

theorem State.writeWords_places (s : State) (b w : Nat) (bs : List Byte) : s.OnlyPlaces (s.writeWords b w bs) :=
  foldl_keeps (s.OnlyPlaces ·) _ (fun t _ h => h.trans (t.storeRow_places _ _ _ _ _)) _ _ (.refl s)

theorem State.seal_places (s : State) (sph block : Nat) : s.OnlyPlaces (s.seal sph block) := rfl

theorem State.paged_places (s : State) (ps : List Nat) (cs : List (Nat × Nat × Nat)) :
    s.OnlyPlaces { s with pages := ps, combining := cs } := rfl

theorem State.putFld_places (s : State) (r : Reg) (lo n v : Nat) : s.OnlyPlaces (s.putFld r lo n v) := rfl

theorem State.flushPage_places (s : State) (sph page : Nat) : s.OnlyPlaces (s.flushPage sph page) := by
  have hseal := foldl_keeps (s.OnlyPlaces ·) (fun (s : State) i => s.seal sph (page * 16 + i))
    (fun t i h => h.trans (t.seal_places _ _)) (List.range 16) s (.refl s)
  unfold State.flushPage
  simp only
  generalize (List.range 16).foldl (fun (s : State) i => s.seal sph (page * 16 + i)) s = v at hseal
  split
  · exact (hseal.trans (v.putFld_places (.sphWrCnt sph) 0 64 (v.rfld (.sphWrCnt sph) 0 64 + 16))).trans (State.paged_places _ _ _)
  · exact .refl s

theorem State.stored_places (s : State) (st : List (Nat × Byte)) (cs : List (Nat × Nat × Nat)) :
    s.OnlyPlaces { s with stack := st, combining := cs } := rfl

theorem State.clearPage_places (s : State) (sph page : Nat) : s.OnlyPlaces (s.clearPage sph page) := rfl

theorem State.combinerSlot_places (s : State) (sph page : Nat) : s.OnlyPlaces (s.combinerSlot sph page) := by
  unfold State.combinerSlot
  split
  · exact State.OnlyPlaces.ite (s.flushPage_places _ _) (.refl s)
  · exact .refl s

theorem State.combine_places (s : State) (sph block o : Nat) (bs : List Byte) : s.OnlyPlaces (s.combine sph block o bs) := by
  unfold State.combine
  extract_lets page s₁ first s₂
  have h₁ : s.OnlyPlaces s₁ := s.combinerSlot_places sph page
  have h₂ : s.OnlyPlaces s₂ := h₁.trans (State.OnlyPlaces.ite (s₁.clearPage_places sph page) (.refl s₁))
  clear_value page s₁ first s₂
  obtain ⟨old, since⟩ := first.getD (0, s.now)
  simp only
  exact State.OnlyPlaces.ite ((h₂.trans (s₂.stored_places _ _)).trans (State.flushPage_places _ _ _)) (h₂.trans (s₂.stored_places _ _))

theorem State.damage_places (s : State) (sph block : Nat) : s.OnlyPlaces (s.damage sph block) := rfl

theorem State.writeBlock_places (s : State) (sph block o : Nat) (bs : List Byte) (f1 f2 : Bool) :
    s.OnlyPlaces (s.writeBlock sph block o bs f1 f2) := by
  have hstack : ∀ (v : State) (st : List (Nat × Byte)), v.OnlyPlaces { v with stack := st } := fun v st => rfl
  unfold State.writeBlock
  simp only
  refine .ite (.refl s) (.ite ?_ (.ite ?_ (s.combine_places _ _ _ _)))
  · exact (s.bump_places _ _ _ _).trans (State.siphonEvent_onlyStackRead _ _ _ _).places
  · refine .ite ?_ ?_
    · exact ((s.putFld_places _ _ _ _).trans (hstack _ _)).trans (State.seal_places _ _ _)
    · have hread := (s.putFld_places (.sphWrCnt sph) 0 64 (s.rfld (.sphWrCnt sph) 0 64 + 1)).trans
        (State.readBlock_onlyStackRead (s.bumpWrap (.sphWrCnt sph) 0 64) sph block f1 f2).places
      have hsealed := (hread.trans (hstack _ (putBytes ((s.bumpWrap (.sphWrCnt sph) 0 64).readBlock sph block f1 f2).1.stack
        (cellKey sph (block * 256 + o)) bs))).trans (State.seal_places _ sph block)
      exact .ite hsealed ((hsealed.trans (State.bump_places _ _ _ _ _)).trans (State.damage_places _ _ _))

theorem State.movedBlock_places (s : State) (who : Option SphSrc) (sph block : Nat) : s.OnlyPlaces (s.movedBlock who sph block) := by
  unfold State.movedBlock
  split
  · exact .refl s
  · rfl

theorem State.stackWrite_places (s : State) (a : Nat) (bs : List Byte) (who : Option SphSrc) : s.OnlyPlaces (s.stackWrite a bs who) := by
  unfold State.stackWrite
  refine foldl_keeps (s.OnlyPlaces ·) _ (fun t p h => ?_) _ _ (.refl s)
  split
  · exact h
  · exact (h.trans (t.movedBlock_places _ _ _)).trans (State.writeBlock_places _ _ _ _ _ _ _)

theorem State.addLevee_places (s : State) (b kind c base len : Nat) (alloc : Nat × Nat × Nat × Nat) :
    s.OnlyPlaces (s.addLevee b kind c base len alloc) := by
  unfold State.addLevee
  split
  · exact (s.putReg_places _ _).trans (State.putReg_places _ _ _)
  · exact .refl s

theorem State.clearRegion_places (s : State) (r : Region) : s.OnlyPlaces (s.clearRegion r) := s.paged_places _ _

theorem State.addRegion_places (s : State) (n : Nat) (islocal : Bool) (c phys units base : Nat) (set : List Nat) :
    s.OnlyPlaces (s.addRegion n islocal c phys units base set) := by
  have hput : ∀ x y : Word64, s.OnlyPlaces ((s.putReg (.sphRgnA n) x).putReg (.sphRgnB n) y) := fun x y =>
    (s.putReg_places _ _).trans (State.putReg_places _ _ _)
  unfold State.addRegion
  simp only
  split
  · exact (hput _ _).trans (State.clearRegion_places _ _)
  · exact hput _ _

theorem State.OnlyPlaces.descOf (h : s.OnlyPlaces t) (b d : Nat) : t.descOf b d = s.descOf b d := (congrArg (State.descOf · b d) h :)

end Sys2Proof.Machine
end

section
set_option Elab.async false -- the whole text is compiled in one process, within a fixed memory
/-! SUPPORT. The tiles of a package, bound at their places (R224, R373). -/
namespace Sys2Proof.Machine

variable {s t u : State} {b d c : Nat}

/-! ### A tile's descriptor -/

/-- A loaded tile's descriptor is bound at its place, of its context and its header's format. -/
theorem placedDesc_shows (old : BitVec 512) (c base : Nat) (t : PkgTile) (shadow : Option Nat) :
    dBound (placedDesc old c base t shadow) = true ∧ dExtentBase (placedDesc old c base t shadow) = base % 2 ^ 18 ∧
    dCtx (placedDesc old c base t shadow) = c % 16 ∧ dFormat (placedDesc old c base t shadow) = t.hdr.fmt % 2 ^ 8 := by
  have hbit : ∀ (x : BitVec 512) k, k < 512 → bit (setFld x k 1 (true : Bool).toNat) k = true := fun x k hk => bit_setBit_self x hk true
  unfold placedDesc dBound dExtentBase dCtx dFormat
  simp only
  rw [dNextGen]
  cases shadow with
  | none =>
    unfold setBit
    simp (disch := decide) only [bit_setFld_ne, fld_setFld_ne, fld_setFld_self, hbit, Nat.reducePow, and_self]
  | some u =>
    unfold setBit
    simp (disch := decide) only [bit_setFld_ne, fld_setFld_ne, fld_setFld_self, hbit, Nat.reducePow, and_self]

/-! ### What placing tiles keeps -/

/-- The runs and the contexts stay. -/
structure State.KeepsRuns (s t : State) : Prop where
  lists : t.lists = s.lists
  rings : t.rings = s.rings
  ctxs : t.ctxs = s.ctxs

theorem State.KeepsRuns.refl (s : State) : s.KeepsRuns s := ⟨rfl, rfl, rfl⟩

theorem State.KeepsRuns.trans (h : s.KeepsRuns t) (k : t.KeepsRuns u) : s.KeepsRuns u :=
  ⟨k.lists.trans h.lists, k.rings.trans h.rings, k.ctxs.trans h.ctxs⟩

theorem State.OnlyPlaces.keepsRuns (h : s.OnlyPlaces t) : s.KeepsRuns t :=
  ⟨(congrArg State.lists h :), (congrArg State.rings h :), (congrArg State.ctxs h :)⟩

/-- The descriptor a tile is given, and its copy in the record of placements. -/
def State.bindDesc (s : State) (b d : Nat) (v : BitVec 512) : State :=
  { s.putDesc b d v with placements := nset (s.putDesc b d v).placements 0 (dkey b d) v }

theorem State.bindDesc_keepsRuns (s : State) (b d : Nat) (v : BitVec 512) : s.KeepsRuns (s.bindDesc b d v) := ⟨rfl, rfl, rfl⟩

theorem State.bindDesc_descOf (s : State) (b d : Nat) (v : BitVec 512) (b' d' : Nat) :
    (s.bindDesc b d v).descOf b' d' = (s.putDesc b d v).descOf b' d' := rfl

/-- A tile is placed: bytes, then its descriptor, then its shadow record. -/
theorem State.placeTile_binds (s : State) (c : Nat) (x : (PkgTile × Nat) × Option Nat) : ∃ w, s.OnlyPlaces w ∧
    (w.bindDesc x.1.1.basin x.1.1.desc (placedDesc (s.descOf x.1.1.basin x.1.1.desc) c x.1.2 x.1.1 x.2)).OnlyPlaces (s.placeTile c x) := by
  refine ⟨_, s.writeWords_places x.1.1.basin (x.1.2 * 4) x.1.1.payload, ?_⟩
  unfold State.placeTile
  simp only
  split
  · exact State.stackWrite_places _ _ _ _
  · exact .refl _

theorem State.placeTile_keepsRuns (s : State) (c : Nat) (x : (PkgTile × Nat) × Option Nat) : s.KeepsRuns (s.placeTile c x) := by
  obtain ⟨w, hw, hbound⟩ := s.placeTile_binds c x
  exact (hw.keepsRuns.trans (w.bindDesc_keepsRuns _ _ _)).trans hbound.keepsRuns

/-- The descriptor a placement is for. -/
def tileKey (x : (PkgTile × Nat) × Option Nat) : Nat := dkey x.1.1.basin x.1.1.desc

theorem State.placeTile_descOf_self (s : State) (c : Nat) (x : (PkgTile × Nat) × Option Nat) :
    (s.placeTile c x).descOf x.1.1.basin x.1.1.desc = placedDesc (s.descOf x.1.1.basin x.1.1.desc) c x.1.2 x.1.1 x.2 := by
  obtain ⟨w, -, hbound⟩ := s.placeTile_binds c x
  rw [hbound.descOf, State.bindDesc_descOf, State.descOf_putDesc_self]

theorem State.placeTile_descOf_ne (s : State) (c : Nat) {x : (PkgTile × Nat) × Option Nat} (h : dkey b d ≠ tileKey x) :
    (s.placeTile c x).descOf b d = s.descOf b d := by
  obtain ⟨w, hw, hbound⟩ := s.placeTile_binds c x
  rw [hbound.descOf, State.bindDesc_descOf, State.descOf_putDesc_ne _ h, hw.descOf]

/-! ### All tiles of a package -/

/-- The tiles are placed one after another. -/
def State.placeTiles (s : State) (c : Nat) (xs : List ((PkgTile × Nat) × Option Nat)) : State := xs.foldl (fun (s : State) x => s.placeTile c x) s

theorem State.placeTiles_keepsRuns (s : State) (c : Nat) (xs : List ((PkgTile × Nat) × Option Nat)) : s.KeepsRuns (s.placeTiles c xs) :=
  foldl_keeps (s.KeepsRuns ·) _ (fun t x h => h.trans (t.placeTile_keepsRuns c x)) _ _ (.refl s)

theorem State.placeTiles_descOf_ne (s : State) (c : Nat) {xs : List ((PkgTile × Nat) × Option Nat)} (h : dkey b d ∉ xs.map tileKey) :
    (s.placeTiles c xs).descOf b d = s.descOf b d := by
  induction xs generalizing s with
  | nil => rfl
  | cons x xs ih =>
    obtain ⟨hne, hrest⟩ := not_or.1 (fun hor => h (List.mem_cons.2 hor))
    exact (ih (s.placeTile c x) hrest).trans (s.placeTile_descOf_ne c hne)

/-- Where no two tiles share a descriptor, each one's descriptor is its own at the end. -/
theorem State.placeTiles_descOf (s : State) (c : Nat) {xs : List ((PkgTile × Nat) × Option Nat)} (h : (xs.map tileKey).Nodup)
    {x : (PkgTile × Nat) × Option Nat} (hx : x ∈ xs) :
    ∃ old, (s.placeTiles c xs).descOf x.1.1.basin x.1.1.desc = placedDesc old c x.1.2 x.1.1 x.2 := by
  induction xs generalizing s with
  | nil => cases hx
  | cons y ys ih =>
    obtain ⟨hy, hys⟩ := List.nodup_cons.1 h
    obtain rfl | hx := List.mem_cons.1 hx
    · exact ⟨_, (State.placeTiles_descOf_ne (s.placeTile c x) c hy).trans (s.placeTile_descOf_self c x)⟩
    · exact ih (s.placeTile c y) hys hx

theorem layTiles_tiles (base : Nat) (ts : List PkgTile) (used : List (Nat × Nat)) : (layTiles base ts used).map (·.1) = ts := by
  induction ts generalizing used with
  | nil => rfl
  | cons t ts ih => exact congrArg (t :: ·) (ih _)

theorem layShadows_length (u : Nat) (ts : List PkgTile) : (layShadows u ts).length = ts.length := by
  induction ts generalizing u with
  | nil => rfl
  | cons t ts ih => exact congrArg (· + 1) (ih _)

/-- Tiles of different basins or indices have different descriptors. -/
theorem tileKeys_nodup {ts : List PkgTile} (hidx : ∀ t ∈ ts, t.desc ≤ 16319) (h : (ts.map fun x => (x.basin, x.desc)).Nodup) :
    (ts.map fun x => dkey x.basin x.desc).Nodup := by
  have hinj := h.map_on (f := fun x => dkey x.1 x.2) (fun x hx y hy heq => ?_)
  · rwa [List.map_map] at hinj
  · obtain ⟨a, ha, rfl⟩ := List.mem_map.1 hx
    obtain ⟨b, hb, rfl⟩ := List.mem_map.1 hy
    have hla := hidx a ha
    have hlb := hidx b hb
    unfold dkey at heq
    simp only [Prod.mk.injEq] at heq ⊢
    omega

/-- A package's tiles laid out with places for their shadows: every tile's descriptor is bound at its place. -/
theorem State.placeTiles_shows (s : State) (c base : Nat) {ts : List PkgTile} {us : List (Option Nat)} (hlen : us.length = ts.length)
    (hidx : ∀ t ∈ ts, t.desc ≤ 16319) (hnodup : (ts.map fun x => (x.basin, x.desc)).Nodup)
    {x : PkgTile × Nat} (hx : x ∈ layTiles base ts []) :
    dBound ((s.placeTiles c ((layTiles base ts []).zip us)).descOf x.1.basin x.1.desc) = true ∧
    dExtentBase ((s.placeTiles c ((layTiles base ts []).zip us)).descOf x.1.basin x.1.desc) = x.2 % 2 ^ 18 ∧
    dCtx ((s.placeTiles c ((layTiles base ts []).zip us)).descOf x.1.basin x.1.desc) = c % 16 ∧
    dFormat ((s.placeTiles c ((layTiles base ts []).zip us)).descOf x.1.basin x.1.desc) = x.1.hdr.fmt % 2 ^ 8 := by
  have htiles := layTiles_tiles base ts []
  have hlay : (layTiles base ts []).length = ts.length := by rw [← List.length_map (·.1), htiles]
  have hfst : ((layTiles base ts []).zip us).map (·.1) = layTiles base ts [] := List.map_fst_zip (by omega)
  have hkeys : ((layTiles base ts []).zip us).map tileKey = ts.map fun x => dkey x.basin x.desc := by
    have hlaid := congrArg (List.map fun x : PkgTile × Nat => dkey x.1.basin x.1.desc) hfst
    have htile := congrArg (List.map fun x : PkgTile => dkey x.basin x.desc) htiles
    rw [List.map_map] at hlaid htile
    exact hlaid.trans htile
  obtain ⟨y, hy, rfl⟩ := List.mem_map.1 (show x ∈ ((layTiles base ts []).zip us).map (·.1) by rwa [hfst])
  obtain ⟨old, hdesc⟩ := s.placeTiles_descOf c (hkeys ▸ tileKeys_nodup hidx hnodup) hy
  rw [hdesc]
  exact placedDesc_shows _ _ _ _ _

/-! ### The package -/

/-- What a package adds to its context: its weights' places. -/
def weightRegions (p : Packet) (base : Nat) (ts : List PkgTile) (bs : List Nat) : List Placed :=
  (bs.filter fun b => needIn ts b ≠ 0).map fun b => (⟨b, base, needIn ts b, some p.pkgSlot⟩ : Placed)

/-- A context's record with weights placed for it. -/
def CtxRec.weighing (r : CtxRec) (ps : List Placed) (rgns : List Nat) : CtxRec := { r with placed := r.placed ++ ps, shadowRgns := rgns }

/-- A package is placed: levees, the context's record, then its tiles. -/
theorem State.placeModel_places (v : State) (p : Packet) (c base : Nat) (ts : List PkgTile) (bs : List Nat) (shadow : Option (Nat × Nat × Nat)) :
    ∃ w rgns us, v.OnlyPlaces w ∧ us.length = ts.length ∧ v.placeModel p c base ts bs shadow =
      (w.putCtx c ((v.ctx c).weighing (weightRegions p base ts bs) rgns)).placeTiles c
        ((layTiles base ts []).zip us) := by
  have hlevees := foldl_keeps (v.OnlyPlaces ·) (fun (s : State) (x : Placed) => s.addLevee x.basin 1 c x.base x.len (0, 0, 0, 0))
    (fun t x h => h.trans (t.addLevee_places _ _ _ _ _ _)) (weightRegions p base ts bs) v (.refl v)
  cases shadow with
  | none => exact ⟨_, _, _, hlevees, List.length_map _, rfl⟩
  | some x =>
    obtain ⟨n, u, phys⟩ := x
    exact ⟨_, _, _, hlevees.trans (State.addRegion_places _ n false 15 phys (shadowUnits ts) u _),
      (List.length_map _).trans (layShadows_length _ _), rfl⟩

/-- Settles O34: a sound package's tiles are bound at their places, and its context records them. -/
theorem modelsLoad : Obligations.ModelsLoad := by
  intro s t src p h hd body len base ts hs hclear halign hbuilt hdesc hrange hretired hretiring hfree hroom hread hhd hlen hrange' hfree' hread'
    hheader htiles hsound hshadow hgood hlevee hbase hsec
  have hpkt : h.pkt = { p with opcode := 0x47 } := hs.source.2
  have hclear' : ({ p with opcode := 0x47 } : Packet).reservedClear pkgFields = true := hpkt ▸ hclear
  obtain ⟨v, hv, hask⟩ := State.loadModel_places (h := h) (p := { p with opcode := 0x47 }) hpkt.symm hclear' halign hbuilt hdesc hrange hretired
    hretiring hfree hroom hread hhd hlen hrange' hfree' hread' hheader htiles hsound hshadow hgood hlevee hbase hsec
  have hidx : ∀ x ∈ ts, x.desc ≤ 16319 := fun x hx => by
    have hx := List.any_eq_false.1 hgood x hx
    simp only [Bool.or_eq_true, decide_eq_true_eq, not_or, not_lt] at hx
    exact hx.1
  obtain ⟨w, rgns, us, hw, hus, hplaced⟩ := v.placeModel_places { p with opcode := 0x47 } h.ctx base ts (bitsSet p.pkgMask 64)
    (t.shadowFor { p with opcode := 0x47 } ts)
  have hself := w.ctx_putCtx_self h.ctx
    ((v.ctx h.ctx).weighing (weightRegions { p with opcode := 0x47 } base ts (bitsSet p.pkgMask 64)) rgns)
  have hlists : (w.putCtx h.ctx ((v.ctx h.ctx).weighing (weightRegions { p with opcode := 0x47 } base ts (bitsSet p.pkgMask 64)) rgns)).lists =
      w.lists := rfl
  have hrings : (w.putCtx h.ctx ((v.ctx h.ctx).weighing (weightRegions { p with opcode := 0x47 } base ts (bitsSet p.pkgMask 64)) rgns)).rings =
      w.rings := rfl
  generalize w.putCtx h.ctx ((v.ctx h.ctx).weighing (weightRegions { p with opcode := 0x47 } base ts (bitsSet p.pkgMask 64)) rgns) = y
    at hplaced hself hlists hrings
  have hshows := fun hnodup x hx => y.placeTiles_shows h.ctx base hus hidx hnodup (x := x) hx
  have hruns := y.placeTiles_keepsRuns h.ctx ((layTiles base ts []).zip us)
  replace hask := hask.trans (congrArg₂ Prod.mk hplaced rfl)
  generalize y.placeTiles h.ctx ((layTiles base ts []).zip us) = z at hask hshows hruns
  have hctx := (congrArg (fun l => kget l CtxRec.absent h.ctx) hruns.ctxs :).trans hself
  have hwruns := hw.keepsRuns
  obtain ⟨hserved, honly⟩ := hs.served (ask := fun s h => s.loadModel h true true body) hask
    (hruns.lists.trans (hlists.trans (hwruns.lists.trans (congrArg State.lists hv.rest :))))
    (hruns.rings.trans (hrings.trans (hwruns.rings.trans (congrArg State.rings hv.rest :))))
  refine ⟨_, rfl, hserved, ?_, fun hnodup x hx => ?_⟩
  · rw [honly.ctx, State.ctx, hctx, hv.ctx]
    rfl
  · have hdescOf : ∀ b d, (s.control src { p with opcode := 0x47 } fun s h => s.loadModel h true true body).descOf b d = z.descOf b d :=
      fun b d => (congrArg (State.descOf · b d) honly :)
    rw [hdescOf]
    exact hshows hnodup x hx

end Sys2Proof.Machine
end

section
set_option Elab.async false -- the whole text is compiled in one process, within a fixed memory
/-! SUPPORT. A scrub that ends while a list of another context has ended and not been answered (R213, R223). -/
namespace Sys2Proof.Machine

/-- Ring 8's `CTX_DESTROY` of context 0, in Rosog's hands. -/
def destroyHanded : Handed := ⟨.ring 8, 0, firstPacket 0x44 0, 0, 0, 0, 0, none, true, true⟩

/-- A list of context 1 that ring 8 spawned: it has ended, with nothing in flight. -/
def endedList : ListRun := ⟨0, 0, 1, 0, 0, 0, [], .ring 8, 0, firstPacket 0x08 0, 0, 0, [], false, some .ok, 0, 0, 0, 0⟩

/-- Context 0's scrub, begun at cycle 0. -/
def destroyScrub : ScrubRun := ⟨0, .destroy (some destroyHanded) 0 0 0 0, some (0, 0, stFlow), []⟩

/-- The scrub's last cycle; the ended list stands in its slot. -/
def State.scrubbedOut : State :=
  { State.working.setSite stScrub with
    cycle := State.working.tScrub, scrubs := [destroyScrub], handed := [destroyHanded], lists := [endedList] }

theorem State.scrubbedOut_ends : State.scrubbedOut.ScrubEnds destroyScrub 0 stFlow none := by
  refine ⟨rfl, ⟨0, rfl⟩, .inl rfl, by decide +kernel, by decide +kernel, rfl, rfl, rfl, fun c hc => ?_⟩
  interval_cases c <;> decide +kernel

/-- Refutes O31: an answer on ring 8 ends the lists that have nothing left in flight as well; where ring 8 spawned one, it takes a second
reply after the destroyed context's. -/
theorem not_contextsRecoverSwitchAndEnd : ¬ Obligations.ContextsRecoverSwitchAndEnd := by
  unfold Obligations.ContextsRecoverSwitchAndEnd
  rintro ⟨-, -, hends, -⟩
  obtain ⟨rp, hwaiting, -⟩ := hends State.scrubbedOut destroyScrub 0 0 stFlow 0 0 0 0 destroyHanded destroyHanded rfl (by decide) rfl
    State.scrubbedOut_ends (by decide +kernel) (.inl rfl)
  have hone := congrArg List.length hwaiting
  rw [List.length_append, List.length_singleton] at hone
  exact absurd hone (by decide +kernel)

end Sys2Proof.Machine
end
